-- ==== Sys2Proof/Word.lean ====
section
/-!
DEFINITION. The word types of the part and their plainest arithmetic.
-/

namespace Sys2Proof

/-- A register of the part (R11: every register is 64 bits wide). -/
abbrev Word := BitVec 64

/-- A byte of a frame, of an image or of host memory. -/
abbrev Byte := BitVec 8

end Sys2Proof
end

