-- ==== Sys2Proof/Machine/Registers.lean ====
section
/-!
DEFINITION. The register file of the part: one name per register of the address map (R621 to R624), and one
constant per named field with its place and access code (R16). Bits of a register that no field names are
reserved (R15). The reset values are those of the chapters' register tables.
-/

namespace Sys2Proof

/-- The access codes of R16. -/
inductive Access where
  | rw | ro | w1c | rc | wo | rws | rwp | rwk
deriving DecidableEq, Repr

/-- Every register of the part, once for all its instances (chapter 19, the register index). -/
inductive Reg where
  | LNK_LINK_STATUS
  | LNK_LINK_ERRORS
  | LNK_CFG
  | LNK_CTRL
  | LNK_DIE_STATUS
  | PIPE_IFIFO_CFG
  | PIPE_IFIFO_STATUS
  | PIPE_IFIFO_DROPS
  | CFG_LOAD_CTRL
  | CFG_LOAD_ADDR
  | CFG_LOAD_STATUS
  | CFG_IMAGE_INFO
  | CFG_IMAGE_MODE
  | CFG_BOOT
  | CFG_SERIAL_FLOOR
  | CFG_COMMIT
  | CFG_EPOCH
  | CFG_DRAIN_STATUS
  | CFG_DRAIN_CFG
  | CFG_COMMIT_STATUS
  | CFG_VIEW
  | CFG_PAIR_STATUS
  | CFG_PAIR_DISCARD
  | CFG_PAIR_DISCARD_VALUE
  | CFG_INT_CAUSE
  | CFG_INT_EN
  | CFG_TROUPE_SERIAL
  | TOP_IDENT
  | TOP_BOOT_INFO
  | TOP_RESET_CTRL
  | TOP_READY
  | TOP_READY_CHANGE
  | TOP_READY_INT_EN
  | TOP_TROUPE_READY
  | LANE_CFG
  | LANE_TX_FIR
  | LANE_RX_CFG
  | LANE_RX_STATUS
  | LANE_ALIGN_CTRL
  | LANE_ALIGN_STATUS
  | LANE_IDLE_CFG
  | LANE_IDLE_STATUS
  | LANE_ERR
  | LANE_TEST
  | PORT_CFG
  | PORT_STATUS
  | PORT_INFO
  | PORT_SA
  | PORT_PFC_CFG
  | PORT_PFC_STATUS
  | PORT_TS_CFG
  | PORT_TS_INFO
  | PORT_DSCP_MAP
  | PORT_EVENT
  | PORT_EVENT_EN
  | PORT_COUNTER
  | PORT_INT_CAUSE
  | MOD_CFG
  | MOD_CHAIN_STATUS
  | MOD_BUS_STATUS
  | MOD_CMD
  | MOD_CMD_DATA
  | MOD_INT_CAUSE
  | MOD_INT_EN
  | MOD_CAGE_CTRL
  | MOD_CAGE_STATUS
  | MOD_IDENT
  | MOD_LIFE
  | PIPE_PROG_INFO
  | PIPE_DEPTH_MAP_CFG
  | PIPE_ADAPT_CFG
  | PIPE_DEPTH_MAP_STATUS
  | PIPE_INT_CAUSE
  | PIPE_INT_EN
  | PIPE_HASH_SEED
  | PIPE_DEPTH_MAP
  | PIPE_IP_CTRL
  | PIPE_IP_COUNT
  | PIPE_IP_EXC
  | PIPE_EP_COUNT
  | PIPE_EP_EXC
  | PIPE_MIRROR_CFG
  | PIPE_MIRROR_STATS
  | TBL_INFO
  | TBL_INT_CAUSE
  | TBL_INT_EN
  | TBL_CMD_DONE
  | TBL_LEARN_CFG
  | TBL_LEARN_STATUS
  | TBL_LEARN_COUNT
  | TBL_LEARN_DROPS
  | TBL_REPORT_DROPS
  | TBL_SWEEP_STATUS
  | TBL_PROM_CTRL
  | TBL_PROM_ADDR
  | TBL_PROM_STATUS
  | TBL_CMD_CTRL
  | TBL_CMD_LOC
  | TBL_CMD_RESULT
  | TBL_CMD_ENTRY
  | TBL_TABLE_INFO
  | TBL_STATUS
  | TBL_TABLE_CTRL
  | TBL_TABLE_COUNT
  | TBL_AGE_CFG
  | TBL_TABLE_SEED
  | POL_INFO
  | POL_CFG
  | POL_BIND
  | POL_TOKENS
  | POL_STATS
  | QM_ADM_PROFILE_A
  | QM_ADM_PROFILE_B
  | QM_Q_PROFILE
  | QM_PORT_ADM
  | QM_TROUPE_ADM
  | QM_PP_ADM
  | CELL_ADM_STATUS
  | CELL_ADM_RESERVED
  | CELL_TROUPE_QUOTA
  | CELL_PP_STATUS
  | CELL_INFO
  | CELL_POOL_STATUS
  | CELL_RECORD_STATUS
  | CELL_EXHAUST
  | CELL_COPY_STATUS
  | CELL_CT_COUNT
  | CELL_BW_STATUS
  | CELL_ECC
  | CELL_LOST
  | CELL_FREE_FAULT
  | CELL_FREE_FAULT_CELL
  | CELL_INT_CAUSE
  | CELL_INT_EN
  | CELL_LEASE_CTRL
  | CELL_LEASE_FREE
  | CELL_LEASE_RESULT
  | CELL_LEASE_STATUS
  | QM_INFO
  | QM_CAL_STATUS
  | QM_INT_CAUSE
  | QM_INT_EN
  | QM_QUERY
  | QM_QUERY_RESULT0
  | QM_QUERY_RESULT1
  | QM_PORT_HOLD
  | QM_PORT_CFG
  | QM_PORT_STATUS
  | QM_PORT_FLUSHED
  | QM_PORT_SHAPER
  | QM_CG_SHAPER
  | QM_QSHAPER
  | QM_PORT_SHAPER_STATE
  | QM_CG_SHAPER_STATE
  | QM_QSHAPER_STATE
  | QM_CG_CFG
  | QM_CG_STATUS
  | QM_Q_WEIGHT
  | MC_INFO
  | MC_SYNC
  | MC_STATS
  | MC_STATS2
  | MC_TROUPE_RANGE
  | MC_GROUP
  | MC_MEMBER
  | TIME_STATUS
  | TIME_NOW_SUB
  | TIME_PPS_STAMP_SUB
  | TIME_NOW_SEC
  | TIME_PPS_STAMP_SEC
  | TIME_RAW_LO
  | TIME_RAW_HI
  | TIME_RATE
  | TIME_STEP_NS
  | TIME_SERVO_CFG
  | TIME_SERVO_CFG2
  | TIME_SERVO_OFFSET
  | TIME_SERVO_STATUS
  | TIME_PPS_IN
  | TIME_PPS_OUT
  | TIME_PTP_STATS
  | TIME_SYNCE
  | TIME_INT_CAUSE
  | TIME_INT_EN
  | TIME_PTP_PEER
  | QM_WIN_CTRL
  | QM_WIN_STATUS
  | QM_WIN_BANK
  | QM_WIN_BASE_SEC
  | QM_WIN_BASE_NS
  | QM_WIN_GCL
  | TEL_HIST_CFG
  | TEL_HIST_CTRL
  | TEL_HIST_BIN
  | TEL_FLOW_CFG
  | TEL_FLOW_CFG2
  | TEL_FLOW_STATUS
  | TEL_FLOW_COUNT
  | TEL_FLOW_COUNT2
  | TEL_FLOW_CAP
  | TEL_IPFIX_CFG
  | TEL_IOAM_STATS
  | TEL_KEY_FIELD
  | TEL_IOAM_CFG
  | TEL_IOAM_CFG2
  | TEL_IOAM_CFG3
  | TEL_INT_CAUSE
  | TEL_INT_EN
  | TEL_TROUPE_FLOW
  | TEL_TROUPE_FLOWS
  | TEL_EXPORT_CFG
  | TEL_EXPORT_CFG2
  | TEL_DROP_CFG
  | TEL_EXPORT_STATUS
  | TEL_EXPORT_SEQ
  | TEL_EXPORT_HDR
  | TEL_UNTRACKED
  | TEL_DROP_COUNT
  | HBM_INFO
  | HBM_STATUS
  | HBM_ECC
  | HBM_CTRL
  | HBM_NRR_CFG
  | HBM_FAIL_CFG
  | HBM_SPILL_CFG
  | HBM_SPILL_STATUS
  | HBM_SPILL_COUNT
  | HBM_SPILL_COUNT2
  | HBM_CAPTURE_CFG
  | HBM_CAPTURE_STATUS
  | HBM_CAPTURE_RELEASE
  | HBM_CAPTURE_COUNT
  | HBM_COPY_ADDR
  | HBM_COPY_OFF
  | HBM_COPY_CTRL
  | HBM_LEDGER_STATUS
  | HBM_INT_CAUSE
  | HBM_INT_EN
  | HBM_SPILL_PROFILE
  | HBM_TROUPE_SPILL
  | PACE_CADENCE_SET
  | PACE_STATUS
  | PACE_COUNT
  | PACE_AVS_CFG
  | PACE_DROOP_CFG
  | PACE_DROOP_STATUS
  | PACE_THERMAL_CFG
  | PACE_THERMAL_STATUS
  | PACE_PHASE_CFG
  | PACE_PELOTON_CFG
  | PACE_ADV_DA
  | PACE_FREEWHEEL_CFG
  | PACE_FOLLOW_STATUS
  | PACE_ENERGY_CFG
  | PACE_ADV_LAST
  | PACE_ADV_LAST2
  | PACE_ADV_INJECT
  | PACE_ADV_INJECT2
  | PACE_INT_CAUSE
  | PACE_INT_EN
  | PACE_ADV_PORTS
  | PACE_DOMAIN_STATUS
  | PACE_RAIL_CFG
  | PACE_RAIL_STATUS
  | PACE_TEMP
  | PACE_PHASE_A
  | PACE_PHASE_B
  | PACE_PHASE_C
  | PACE_PHASE_D
  | PACE_COEF
  | PACE_LEAK
  | PACE_ENERGY_TROUPE
  | PACE_ENERGY_PIPE
  | PACE_ENERGY_MEASURED
  | PACE_ENERGY_SHARED
  | PACE_ENERGY_UNATTR
  | PACE_ENERGY_PORT
  | TOP_INT_CAUSE
  | TOP_INT_MASK
  | TOP_INT_REARM
  | HIF_LINK_STATUS
  | HIF_BAD_ACCESS
  | HIF_BAD_ACCESS_ADDR
  | HIF_INT_CAUSE
  | HIF_INT_EN
  | HIF_MSIX_ALLOC
  | HIF_TROUPE_CTRL
  | HIF_TROUPE_STATE
  | HIF_RX_CFG
  | HIF_TX_CFG
  | HIF_TLM_CFG
  | HIF_RPT_CFG
  | HIF_RX_CQ
  | HIF_TX_RING
  | HIF_TLM_RING
  | HIF_RPT_RING
  | HIF_RX_CQ_WB
  | HIF_TX_WB
  | HIF_TLM_WB
  | HIF_RPT_WB
  | HIF_RX_CQ_IDX
  | HIF_TX_IDX
  | HIF_TLM_IDX
  | HIF_RPT_IDX
  | HIF_RX_STATUS
  | HIF_TX_STATUS
  | HIF_TLM_STATUS
  | HIF_RPT_STATUS
  | HIF_RX_POOL
  | HIF_RX_POOL_IDX
  | HIF_RX_BUF_SIZE
  | WIN_STATE
  | WIN_INT_CAUSE
  | WIN_INT_EN
  | WIN_CMD_DONE
  | WIN_COMMIT
  | WIN_RES0
  | WIN_RES1
  | WIN_PORT_MAP
  | TND_STATUS
  | TND_WARDEN
  | TND_CFG
  | TND_CTRL
  | TND_ELIM_COUNT
  | TND_DIVERGE_INFO
  | TND_INPUT_STATUS
  | TND_MBX_CTRL
  | TND_DIVERGE_DIGEST
  | TND_MBX_REQ
  | TND_MBX_REPLY
  | TND_INT_CAUSE
  | TND_INT_EN
  | BBX_STATUS
  | BBX_STATUS2
  | BBX_LOSS
  | BBX_READ_CTRL
  | BBX_READ_FIRST
  | BBX_READ_ADDR
  | BBX_NONCE
  | BBX_HOST_NOTE
  | BBX_HOST_NOTE_CTRL
  | BBX_INT_CAUSE
  | BBX_INT_EN
  | SEC_UNIT_ID_LO
  | SEC_UNIT_ID_HI
  | SEC_STATUS
  | SEC_OWNER_SLOT
  | SEC_OWNER_HASH
  | SEC_KEY_CTRL
  | SEC_KEY_BUF
  | SEC_FW_CTRL
  | SEC_FW_ADDR
  | SEC_FW_STATUS
  | SEC_FW_BOOT
  | SEC_INT_CAUSE
  | SEC_INT_EN
  | TOP_MON_STATUS
  | TOP_MON_READING
  | PIPE_PROG_REG
deriving DecidableEq, Repr

/-- A named field of a register: its lowest bit, its width and its access code. -/
structure Fld where
  reg : Reg
  lo : Nat
  width : Nat
  acc : Access
deriving DecidableEq, Repr

abbrev LNK.LINK_STATUS.STATE : Fld := ⟨.LNK_LINK_STATUS, 0, 3, .ro⟩
abbrev LNK.LINK_STATUS.TRAIN_ATTEMPTS : Fld := ⟨.LNK_LINK_STATUS, 8, 8, .ro⟩
abbrev LNK.LINK_STATUS.RETIRED_SEEN : Fld := ⟨.LNK_LINK_STATUS, 16, 1, .w1c⟩
abbrev LNK.LINK_ERRORS.REPLAYS : Fld := ⟨.LNK_LINK_ERRORS, 0, 32, .rc⟩
abbrev LNK.LINK_ERRORS.REPLAY_FAILS : Fld := ⟨.LNK_LINK_ERRORS, 32, 16, .rc⟩
abbrev LNK.CFG.RETIRE_REPLAYS : Fld := ⟨.LNK_CFG, 0, 8, .rw⟩
abbrev LNK.CFG.WINDOW_MS : Fld := ⟨.LNK_CFG, 16, 8, .rw⟩
abbrev LNK.CFG.AUTO_RETRAIN : Fld := ⟨.LNK_CFG, 32, 1, .rw⟩
abbrev LNK.CTRL.LINK : Fld := ⟨.LNK_CTRL, 0, 6, .wo⟩
abbrev LNK.CTRL.RETRAIN : Fld := ⟨.LNK_CTRL, 8, 1, .wo⟩
abbrev LNK.DIE_STATUS.LINKS_UP : Fld := ⟨.LNK_DIE_STATUS, 0, 5, .ro⟩
abbrev LNK.DIE_STATUS.DEGRADED : Fld := ⟨.LNK_DIE_STATUS, 8, 1, .ro⟩
abbrev LNK.DIE_STATUS.SHORT : Fld := ⟨.LNK_DIE_STATUS, 9, 1, .ro⟩
abbrev PIPE.IFIFO_CFG.XOFF_LEVEL : Fld := ⟨.PIPE_IFIFO_CFG, 0, 11, .rw⟩
abbrev PIPE.IFIFO_CFG.XON_LEVEL : Fld := ⟨.PIPE_IFIFO_CFG, 16, 11, .rw⟩
abbrev PIPE.IFIFO_CFG.LOSSY_DROP_EN : Fld := ⟨.PIPE_IFIFO_CFG, 32, 1, .rw⟩
abbrev PIPE.IFIFO_CFG.INT_EN : Fld := ⟨.PIPE_IFIFO_CFG, 33, 1, .rw⟩
abbrev PIPE.IFIFO_STATUS.FILL : Fld := ⟨.PIPE_IFIFO_STATUS, 0, 11, .ro⟩
abbrev PIPE.IFIFO_STATUS.HIGH_WATER : Fld := ⟨.PIPE_IFIFO_STATUS, 16, 11, .rc⟩
abbrev PIPE.IFIFO_STATUS.XOFF_ACTIVE : Fld := ⟨.PIPE_IFIFO_STATUS, 32, 1, .ro⟩
abbrev PIPE.IFIFO_STATUS.FULL_SEEN : Fld := ⟨.PIPE_IFIFO_STATUS, 33, 1, .w1c⟩
abbrev PIPE.IFIFO_STATUS.EPISODES : Fld := ⟨.PIPE_IFIFO_STATUS, 48, 16, .rc⟩
abbrev PIPE.IFIFO_DROPS.LOSSY_DROPS : Fld := ⟨.PIPE_IFIFO_DROPS, 0, 32, .rc⟩
abbrev PIPE.IFIFO_DROPS.LOSSLESS_DROPS : Fld := ⟨.PIPE_IFIFO_DROPS, 32, 32, .rc⟩
abbrev CFG.LOAD_CTRL.START : Fld := ⟨.CFG_LOAD_CTRL, 0, 1, .wo⟩
abbrev CFG.LOAD_CTRL.ABORT : Fld := ⟨.CFG_LOAD_CTRL, 1, 1, .wo⟩
abbrev CFG.LOAD_CTRL.SOURCE : Fld := ⟨.CFG_LOAD_CTRL, 2, 2, .rw⟩
abbrev CFG.LOAD_CTRL.LIST : Fld := ⟨.CFG_LOAD_CTRL, 4, 1, .rw⟩
abbrev CFG.LOAD_CTRL.VERIFY_ONLY : Fld := ⟨.CFG_LOAD_CTRL, 8, 1, .rw⟩
abbrev CFG.LOAD_ADDR.ADDR : Fld := ⟨.CFG_LOAD_ADDR, 6, 58, .rw⟩
abbrev CFG.LOAD_STATUS.STATE : Fld := ⟨.CFG_LOAD_STATUS, 0, 3, .ro⟩
abbrev CFG.LOAD_STATUS.CAUSE : Fld := ⟨.CFG_LOAD_STATUS, 8, 8, .ro⟩
abbrev CFG.LOAD_STATUS.KIB_DONE : Fld := ⟨.CFG_LOAD_STATUS, 16, 32, .ro⟩
abbrev CFG.LOAD_STATUS.DONE_SEEN : Fld := ⟨.CFG_LOAD_STATUS, 48, 1, .w1c⟩
abbrev CFG.LOAD_STATUS.REJECT_SEEN : Fld := ⟨.CFG_LOAD_STATUS, 49, 1, .w1c⟩
abbrev CFG.LOAD_STATUS.SECTION : Fld := ⟨.CFG_LOAD_STATUS, 56, 8, .ro⟩
abbrev CFG.IMAGE_INFO.SERIAL : Fld := ⟨.CFG_IMAGE_INFO, 0, 64, .ro⟩
abbrev CFG.IMAGE_MODE.MEM_MODE : Fld := ⟨.CFG_IMAGE_MODE, 0, 2, .ro⟩
abbrev CFG.IMAGE_MODE.KEY_SLOT : Fld := ⟨.CFG_IMAGE_MODE, 2, 2, .ro⟩
abbrev CFG.IMAGE_MODE.LOADED : Fld := ⟨.CFG_IMAGE_MODE, 4, 1, .ro⟩
abbrev CFG.IMAGE_MODE.SOURCE : Fld := ⟨.CFG_IMAGE_MODE, 5, 2, .ro⟩
abbrev CFG.BOOT.PREFERRED_SLOT : Fld := ⟨.CFG_BOOT, 0, 1, .rwk⟩
abbrev CFG.BOOT.LAST_BOOT_SLOT : Fld := ⟨.CFG_BOOT, 1, 1, .ro⟩
abbrev CFG.BOOT.FLASH_BOOT_EN : Fld := ⟨.CFG_BOOT, 2, 1, .rwk⟩
abbrev CFG.SERIAL_FLOOR.FLOOR : Fld := ⟨.CFG_SERIAL_FLOOR, 0, 64, .rwk⟩
abbrev CFG.COMMIT.GO : Fld := ⟨.CFG_COMMIT, 0, 1, .wo⟩
abbrev CFG.COMMIT.SCOPE : Fld := ⟨.CFG_COMMIT, 1, 1, .wo⟩
abbrev CFG.COMMIT.DEFER_WINDOWED : Fld := ⟨.CFG_COMMIT, 2, 1, .wo⟩
abbrev CFG.COMMIT.TROUPE : Fld := ⟨.CFG_COMMIT, 8, 6, .wo⟩
abbrev CFG.EPOCH.BITS : Fld := ⟨.CFG_EPOCH, 0, 64, .ro⟩
abbrev CFG.DRAIN_STATUS.DRAINING : Fld := ⟨.CFG_DRAIN_STATUS, 0, 64, .ro⟩
abbrev CFG.DRAIN_CFG.LIMIT_US : Fld := ⟨.CFG_DRAIN_CFG, 0, 16, .rw⟩
abbrev CFG.DRAIN_CFG.STALE_DROP_EN : Fld := ⟨.CFG_DRAIN_CFG, 16, 1, .rw⟩
abbrev CFG.COMMIT_STATUS.STATE : Fld := ⟨.CFG_COMMIT_STATUS, 0, 3, .ro⟩
abbrev CFG.COMMIT_STATUS.CAUSE : Fld := ⟨.CFG_COMMIT_STATUS, 8, 8, .ro⟩
abbrev CFG.COMMIT_STATUS.TROUPE : Fld := ⟨.CFG_COMMIT_STATUS, 16, 6, .ro⟩
abbrev CFG.COMMIT_STATUS.SCOPE : Fld := ⟨.CFG_COMMIT_STATUS, 22, 1, .ro⟩
abbrev CFG.COMMIT_STATUS.SPREAD_NS : Fld := ⟨.CFG_COMMIT_STATUS, 32, 16, .ro⟩
abbrev CFG.COMMIT_STATUS.DONE_SEEN : Fld := ⟨.CFG_COMMIT_STATUS, 48, 1, .w1c⟩
abbrev CFG.COMMIT_STATUS.REFUSED_SEEN : Fld := ⟨.CFG_COMMIT_STATUS, 49, 1, .w1c⟩
abbrev CFG.COMMIT_STATUS.STALE_SEEN : Fld := ⟨.CFG_COMMIT_STATUS, 50, 1, .w1c⟩
abbrev CFG.COMMIT_STATUS.DEFERRED : Fld := ⟨.CFG_COMMIT_STATUS, 51, 1, .ro⟩
abbrev CFG.VIEW.INFORCE : Fld := ⟨.CFG_VIEW, 0, 1, .rw⟩
abbrev CFG.PAIR_STATUS.PENDING : Fld := ⟨.CFG_PAIR_STATUS, 0, 3, .ro⟩
abbrev CFG.PAIR_STATUS.LAST_CAUSE : Fld := ⟨.CFG_PAIR_STATUS, 8, 8, .ro⟩
abbrev CFG.PAIR_STATUS.DISCARDS : Fld := ⟨.CFG_PAIR_STATUS, 16, 32, .rc⟩
abbrev CFG.PAIR_STATUS.DISCARD_SEEN : Fld := ⟨.CFG_PAIR_STATUS, 48, 1, .w1c⟩
abbrev CFG.PAIR_DISCARD.OFFSET : Fld := ⟨.CFG_PAIR_DISCARD, 0, 28, .ro⟩
abbrev CFG.PAIR_DISCARD.LSB : Fld := ⟨.CFG_PAIR_DISCARD, 28, 6, .ro⟩
abbrev CFG.PAIR_DISCARD_VALUE.VALUE : Fld := ⟨.CFG_PAIR_DISCARD_VALUE, 0, 64, .ro⟩
abbrev CFG.INT_CAUSE.LOAD_DONE : Fld := ⟨.CFG_INT_CAUSE, 0, 1, .w1c⟩
abbrev CFG.INT_CAUSE.LOAD_REJECT : Fld := ⟨.CFG_INT_CAUSE, 1, 1, .w1c⟩
abbrev CFG.INT_CAUSE.COMMIT_DONE : Fld := ⟨.CFG_INT_CAUSE, 2, 1, .w1c⟩
abbrev CFG.INT_CAUSE.COMMIT_REFUSED : Fld := ⟨.CFG_INT_CAUSE, 3, 1, .w1c⟩
abbrev CFG.INT_CAUSE.STALE_DROP : Fld := ⟨.CFG_INT_CAUSE, 4, 1, .w1c⟩
abbrev CFG.INT_CAUSE.PAIR_DISCARD : Fld := ⟨.CFG_INT_CAUSE, 5, 1, .w1c⟩
abbrev CFG.INT_EN.LOAD_DONE : Fld := ⟨.CFG_INT_EN, 0, 1, .rw⟩
abbrev CFG.INT_EN.LOAD_REJECT : Fld := ⟨.CFG_INT_EN, 1, 1, .rw⟩
abbrev CFG.INT_EN.COMMIT_DONE : Fld := ⟨.CFG_INT_EN, 2, 1, .rw⟩
abbrev CFG.INT_EN.COMMIT_REFUSED : Fld := ⟨.CFG_INT_EN, 3, 1, .rw⟩
abbrev CFG.INT_EN.STALE_DROP : Fld := ⟨.CFG_INT_EN, 4, 1, .rw⟩
abbrev CFG.INT_EN.PAIR_DISCARD : Fld := ⟨.CFG_INT_EN, 5, 1, .rw⟩
abbrev CFG.TROUPE_SERIAL.SERIAL : Fld := ⟨.CFG_TROUPE_SERIAL, 0, 64, .ro⟩
abbrev TOP.IDENT.VENDOR : Fld := ⟨.TOP_IDENT, 0, 16, .ro⟩
abbrev TOP.IDENT.PART : Fld := ⟨.TOP_IDENT, 16, 16, .ro⟩
abbrev TOP.IDENT.STEPPING : Fld := ⟨.TOP_IDENT, 32, 8, .ro⟩
abbrev TOP.IDENT.PKG : Fld := ⟨.TOP_IDENT, 40, 3, .ro⟩
abbrev TOP.BOOT_INFO.BOOT_COUNT : Fld := ⟨.TOP_BOOT_INFO, 0, 32, .ro⟩
abbrev TOP.BOOT_INFO.LAST_RESET : Fld := ⟨.TOP_BOOT_INFO, 32, 4, .ro⟩
abbrev TOP.RESET_CTRL.DEVICE : Fld := ⟨.TOP_RESET_CTRL, 0, 1, .wo⟩
abbrev TOP.RESET_CTRL.KEY : Fld := ⟨.TOP_RESET_CTRL, 16, 16, .wo⟩
abbrev TOP.READY.BITS : Fld := ⟨.TOP_READY, 0, 18, .ro⟩
abbrev TOP.READY_CHANGE.CHANGED : Fld := ⟨.TOP_READY_CHANGE, 0, 18, .w1c⟩
abbrev TOP.READY_INT_EN.EN : Fld := ⟨.TOP_READY_INT_EN, 0, 18, .rw⟩
abbrev TOP.TROUPE_READY.BITS : Fld := ⟨.TOP_TROUPE_READY, 0, 64, .ro⟩
abbrev LANE.CFG.MODE : Fld := ⟨.LANE_CFG, 0, 3, .ro⟩
abbrev LANE.CFG.TX_SOURCE : Fld := ⟨.LANE_CFG, 8, 2, .rw⟩
abbrev LANE.CFG.TX_INVERT : Fld := ⟨.LANE_CFG, 10, 1, .rw⟩
abbrev LANE.CFG.RX_INVERT : Fld := ⟨.LANE_CFG, 11, 1, .rw⟩
abbrev LANE.CFG.IEEE_TRAIN_EN : Fld := ⟨.LANE_CFG, 12, 1, .rw⟩
abbrev LANE.TX_FIR.C_PRE : Fld := ⟨.LANE_TX_FIR, 0, 5, .rw⟩
abbrev LANE.TX_FIR.C_MAIN : Fld := ⟨.LANE_TX_FIR, 8, 7, .rw⟩
abbrev LANE.TX_FIR.C_POST : Fld := ⟨.LANE_TX_FIR, 16, 5, .rw⟩
abbrev LANE.TX_FIR.REJECTED : Fld := ⟨.LANE_TX_FIR, 32, 1, .w1c⟩
abbrev LANE.RX_CFG.ADAPT_EN : Fld := ⟨.LANE_RX_CFG, 0, 1, .rw⟩
abbrev LANE.RX_CFG.FREEZE : Fld := ⟨.LANE_RX_CFG, 1, 1, .rw⟩
abbrev LANE.RX_CFG.DFE_EN : Fld := ⟨.LANE_RX_CFG, 2, 1, .rw⟩
abbrev LANE.RX_CFG.SEQ_DET_EN : Fld := ⟨.LANE_RX_CFG, 3, 1, .rw⟩
abbrev LANE.RX_CFG.CURSOR_POS : Fld := ⟨.LANE_RX_CFG, 8, 5, .rw⟩
abbrev LANE.RX_STATUS.SIGNAL : Fld := ⟨.LANE_RX_STATUS, 0, 1, .ro⟩
abbrev LANE.RX_STATUS.CDR_LOCK : Fld := ⟨.LANE_RX_STATUS, 1, 1, .ro⟩
abbrev LANE.RX_STATUS.ADAPT_DONE : Fld := ⟨.LANE_RX_STATUS, 2, 1, .ro⟩
abbrev LANE.RX_STATUS.SNR : Fld := ⟨.LANE_RX_STATUS, 8, 8, .ro⟩
abbrev LANE.ALIGN_CTRL.SLIP : Fld := ⟨.LANE_ALIGN_CTRL, 0, 11, .wo⟩
abbrev LANE.ALIGN_STATUS.MATCH_PAIRS : Fld := ⟨.LANE_ALIGN_STATUS, 0, 10, .ro⟩
abbrev LANE.ALIGN_STATUS.MATCH : Fld := ⟨.LANE_ALIGN_STATUS, 10, 1, .ro⟩
abbrev LANE.ALIGN_STATUS.RX_ALIGNED : Fld := ⟨.LANE_ALIGN_STATUS, 11, 1, .ro⟩
abbrev LANE.ALIGN_STATUS.FAR_ALIGNED : Fld := ⟨.LANE_ALIGN_STATUS, 12, 1, .ro⟩
abbrev LANE.ALIGN_STATUS.DATA : Fld := ⟨.LANE_ALIGN_STATUS, 13, 1, .ro⟩
abbrev LANE.ALIGN_STATUS.ALIGN_LOST : Fld := ⟨.LANE_ALIGN_STATUS, 14, 1, .w1c⟩
abbrev LANE.ALIGN_STATUS.INVALID_PAIRS : Fld := ⟨.LANE_ALIGN_STATUS, 32, 16, .rc⟩
abbrev LANE.IDLE_CFG.IDLE_EN : Fld := ⟨.LANE_IDLE_CFG, 0, 1, .rw⟩
abbrev LANE.IDLE_CFG.ENTRY_NS : Fld := ⟨.LANE_IDLE_CFG, 8, 16, .rw⟩
abbrev LANE.IDLE_CFG.RELOCK_CW : Fld := ⟨.LANE_IDLE_CFG, 24, 4, .rw⟩
abbrev LANE.IDLE_CFG.REFRESH_US : Fld := ⟨.LANE_IDLE_CFG, 32, 16, .rw⟩
abbrev LANE.IDLE_STATUS.TX_IDLE : Fld := ⟨.LANE_IDLE_STATUS, 0, 1, .ro⟩
abbrev LANE.IDLE_STATUS.RX_IDLE : Fld := ⟨.LANE_IDLE_STATUS, 1, 1, .ro⟩
abbrev LANE.IDLE_STATUS.WAKES : Fld := ⟨.LANE_IDLE_STATUS, 32, 32, .rc⟩
abbrev LANE.ERR.SYM_CORRECTED : Fld := ⟨.LANE_ERR, 0, 32, .rc⟩
abbrev LANE.ERR.CW_UNCORR : Fld := ⟨.LANE_ERR, 32, 32, .rc⟩
abbrev LANE.TEST.PATTERN : Fld := ⟨.LANE_TEST, 0, 3, .rw⟩
abbrev LANE.TEST.CHECK_EN : Fld := ⟨.LANE_TEST, 3, 1, .rw⟩
abbrev LANE.TEST.CHECK_SYNC : Fld := ⟨.LANE_TEST, 4, 1, .ro⟩
abbrev LANE.TEST.ERRORS : Fld := ⟨.LANE_TEST, 32, 32, .rc⟩
abbrev PORT.CFG.ENABLE : Fld := ⟨.PORT_CFG, 0, 1, .rw⟩
abbrev PORT.CFG.MAX_FRAME : Fld := ⟨.PORT_CFG, 8, 14, .rw⟩
abbrev PORT.CFG.DOWN_DEBOUNCE_US : Fld := ⟨.PORT_CFG, 32, 16, .rw⟩
abbrev PORT.CFG.UP_DEBOUNCE_US : Fld := ⟨.PORT_CFG, 48, 16, .rw⟩
abbrev PORT.STATUS.READY : Fld := ⟨.PORT_STATUS, 0, 1, .ro⟩
abbrev PORT.STATUS.LINK_UP : Fld := ⟨.PORT_STATUS, 1, 1, .ro⟩
abbrev PORT.STATUS.LOCAL_FAULT : Fld := ⟨.PORT_STATUS, 2, 1, .ro⟩
abbrev PORT.STATUS.REMOTE_FAULT : Fld := ⟨.PORT_STATUS, 3, 1, .ro⟩
abbrev PORT.STATUS.DESKEW_OK : Fld := ⟨.PORT_STATUS, 4, 1, .ro⟩
abbrev PORT.STATUS.RX_IDLE : Fld := ⟨.PORT_STATUS, 5, 1, .ro⟩
abbrev PORT.STATUS.LINK_DOWN_SEEN : Fld := ⟨.PORT_STATUS, 8, 1, .w1c⟩
abbrev PORT.STATUS.LINK_UP_SEEN : Fld := ⟨.PORT_STATUS, 9, 1, .w1c⟩
abbrev PORT.STATUS.FLAPS : Fld := ⟨.PORT_STATUS, 16, 16, .rc⟩
abbrev PORT.INFO.RATE : Fld := ⟨.PORT_INFO, 0, 4, .ro⟩
abbrev PORT.INFO.LANE_MODE : Fld := ⟨.PORT_INFO, 4, 3, .ro⟩
abbrev PORT.INFO.LANES : Fld := ⟨.PORT_INFO, 8, 4, .ro⟩
abbrev PORT.INFO.TROUPE : Fld := ⟨.PORT_INFO, 16, 6, .ro⟩
abbrev PORT.SA.ADDR : Fld := ⟨.PORT_SA, 0, 48, .rw⟩
abbrev PORT.PFC_CFG.LOSSLESS : Fld := ⟨.PORT_PFC_CFG, 0, 8, .rws⟩
abbrev PORT.PFC_CFG.TX_EN : Fld := ⟨.PORT_PFC_CFG, 8, 1, .rw⟩
abbrev PORT.PFC_CFG.RX_EN : Fld := ⟨.PORT_PFC_CFG, 9, 1, .rw⟩
abbrev PORT.PFC_CFG.DSCP_MAP_EN : Fld := ⟨.PORT_PFC_CFG, 10, 1, .rws⟩
abbrev PORT.PFC_CFG.DEFAULT_PRIO : Fld := ⟨.PORT_PFC_CFG, 12, 3, .rws⟩
abbrev PORT.PFC_CFG.QUANTA : Fld := ⟨.PORT_PFC_CFG, 16, 16, .rw⟩
abbrev PORT.PFC_CFG.REFRESH_QUANTA : Fld := ⟨.PORT_PFC_CFG, 32, 16, .rw⟩
abbrev PORT.PFC_CFG.WD_MS : Fld := ⟨.PORT_PFC_CFG, 48, 16, .rw⟩
abbrev PORT.PFC_STATUS.TX_PAUSING : Fld := ⟨.PORT_PFC_STATUS, 0, 8, .ro⟩
abbrev PORT.PFC_STATUS.RX_PAUSED : Fld := ⟨.PORT_PFC_STATUS, 8, 8, .ro⟩
abbrev PORT.PFC_STATUS.WD_PRIOS : Fld := ⟨.PORT_PFC_STATUS, 16, 8, .w1c⟩
abbrev PORT.TS_CFG.RX_CORR_PS : Fld := ⟨.PORT_TS_CFG, 0, 16, .rw⟩
abbrev PORT.TS_CFG.TX_CORR_PS : Fld := ⟨.PORT_TS_CFG, 16, 16, .rw⟩
abbrev PORT.TS_INFO.RX_FIXED_PS : Fld := ⟨.PORT_TS_INFO, 0, 32, .ro⟩
abbrev PORT.TS_INFO.TX_FIXED_PS : Fld := ⟨.PORT_TS_INFO, 32, 32, .ro⟩
abbrev PORT.DSCP_MAP.PRIO_0 : Fld := ⟨.PORT_DSCP_MAP, 0, 3, .rws⟩
abbrev PORT.DSCP_MAP.PRIO_1 : Fld := ⟨.PORT_DSCP_MAP, 4, 3, .rws⟩
abbrev PORT.DSCP_MAP.PRIO_2 : Fld := ⟨.PORT_DSCP_MAP, 8, 3, .rws⟩
abbrev PORT.DSCP_MAP.PRIO_3 : Fld := ⟨.PORT_DSCP_MAP, 12, 3, .rws⟩
abbrev PORT.DSCP_MAP.PRIO_4 : Fld := ⟨.PORT_DSCP_MAP, 16, 3, .rws⟩
abbrev PORT.DSCP_MAP.PRIO_5 : Fld := ⟨.PORT_DSCP_MAP, 20, 3, .rws⟩
abbrev PORT.DSCP_MAP.PRIO_6 : Fld := ⟨.PORT_DSCP_MAP, 24, 3, .rws⟩
abbrev PORT.DSCP_MAP.PRIO_7 : Fld := ⟨.PORT_DSCP_MAP, 28, 3, .rws⟩
abbrev PORT.DSCP_MAP.PRIO_8 : Fld := ⟨.PORT_DSCP_MAP, 32, 3, .rws⟩
abbrev PORT.DSCP_MAP.PRIO_9 : Fld := ⟨.PORT_DSCP_MAP, 36, 3, .rws⟩
abbrev PORT.DSCP_MAP.PRIO_10 : Fld := ⟨.PORT_DSCP_MAP, 40, 3, .rws⟩
abbrev PORT.DSCP_MAP.PRIO_11 : Fld := ⟨.PORT_DSCP_MAP, 44, 3, .rws⟩
abbrev PORT.DSCP_MAP.PRIO_12 : Fld := ⟨.PORT_DSCP_MAP, 48, 3, .rws⟩
abbrev PORT.DSCP_MAP.PRIO_13 : Fld := ⟨.PORT_DSCP_MAP, 52, 3, .rws⟩
abbrev PORT.DSCP_MAP.PRIO_14 : Fld := ⟨.PORT_DSCP_MAP, 56, 3, .rws⟩
abbrev PORT.DSCP_MAP.PRIO_15 : Fld := ⟨.PORT_DSCP_MAP, 60, 3, .rws⟩
abbrev PORT.EVENT.LINK_DOWN : Fld := ⟨.PORT_EVENT, 0, 1, .w1c⟩
abbrev PORT.EVENT.LINK_UP : Fld := ⟨.PORT_EVENT, 1, 1, .w1c⟩
abbrev PORT.EVENT.ALIGN_LOST : Fld := ⟨.PORT_EVENT, 2, 1, .w1c⟩
abbrev PORT.EVENT.PFC_WD : Fld := ⟨.PORT_EVENT, 3, 1, .w1c⟩
abbrev PORT.EVENT.FEC_UNCORR : Fld := ⟨.PORT_EVENT, 4, 1, .w1c⟩
abbrev PORT.EVENT_EN.LINK_DOWN : Fld := ⟨.PORT_EVENT_EN, 0, 1, .rw⟩
abbrev PORT.EVENT_EN.LINK_UP : Fld := ⟨.PORT_EVENT_EN, 1, 1, .rw⟩
abbrev PORT.EVENT_EN.ALIGN_LOST : Fld := ⟨.PORT_EVENT_EN, 2, 1, .rw⟩
abbrev PORT.EVENT_EN.PFC_WD : Fld := ⟨.PORT_EVENT_EN, 3, 1, .rw⟩
abbrev PORT.EVENT_EN.FEC_UNCORR : Fld := ⟨.PORT_EVENT_EN, 4, 1, .rw⟩
abbrev PORT.COUNTER.COUNT : Fld := ⟨.PORT_COUNTER, 0, 64, .ro⟩
abbrev PORT.INT_CAUSE.PORTS : Fld := ⟨.PORT_INT_CAUSE, 0, 64, .ro⟩
abbrev MOD.CFG.BUS_MODE : Fld := ⟨.MOD_CFG, 0, 2, .rw⟩
abbrev MOD.CFG.AUTH_REQUIRED : Fld := ⟨.MOD_CFG, 2, 1, .rw⟩
abbrev MOD.CFG.APPLY_TAPS : Fld := ⟨.MOD_CFG, 3, 1, .rw⟩
abbrev MOD.CFG.LIFE_SAMPLE_S : Fld := ⟨.MOD_CFG, 4, 12, .rw⟩
abbrev MOD.CFG.DEFAULT_LIFE_KH : Fld := ⟨.MOD_CFG, 16, 16, .rw⟩
abbrev MOD.CFG.WARN_PCT : Fld := ⟨.MOD_CFG, 32, 7, .rw⟩
abbrev MOD.CFG.RETIRE_PCT : Fld := ⟨.MOD_CFG, 40, 7, .rw⟩
abbrev MOD.CHAIN_STATUS.CHAIN_FAULT : Fld := ⟨.MOD_CHAIN_STATUS, 0, 1, .ro⟩
abbrev MOD.CHAIN_STATUS.FRAME_ERRORS : Fld := ⟨.MOD_CHAIN_STATUS, 32, 32, .rc⟩
abbrev MOD.BUS_STATUS.MODE : Fld := ⟨.MOD_BUS_STATUS, 0, 2, .ro⟩
abbrev MOD.BUS_STATUS.ERRORS : Fld := ⟨.MOD_BUS_STATUS, 32, 32, .rc⟩
abbrev MOD.CMD.CAGE : Fld := ⟨.MOD_CMD, 0, 6, .rw⟩
abbrev MOD.CMD.PAGE : Fld := ⟨.MOD_CMD, 8, 8, .rw⟩
abbrev MOD.CMD.BANK : Fld := ⟨.MOD_CMD, 16, 8, .rw⟩
abbrev MOD.CMD.OFFSET : Fld := ⟨.MOD_CMD, 24, 8, .rw⟩
abbrev MOD.CMD.LEN : Fld := ⟨.MOD_CMD, 32, 4, .rw⟩
abbrev MOD.CMD.WRITE : Fld := ⟨.MOD_CMD, 36, 1, .rw⟩
abbrev MOD.CMD.GO : Fld := ⟨.MOD_CMD, 37, 1, .wo⟩
abbrev MOD.CMD.BUSY : Fld := ⟨.MOD_CMD, 38, 1, .ro⟩
abbrev MOD.CMD.STATUS : Fld := ⟨.MOD_CMD, 40, 4, .ro⟩
abbrev MOD.CMD_DATA.DATA : Fld := ⟨.MOD_CMD_DATA, 0, 64, .rw⟩
abbrev MOD.INT_CAUSE.INSERT : Fld := ⟨.MOD_INT_CAUSE, 0, 1, .w1c⟩
abbrev MOD.INT_CAUSE.REMOVE : Fld := ⟨.MOD_INT_CAUSE, 1, 1, .w1c⟩
abbrev MOD.INT_CAUSE.MODULE_INT : Fld := ⟨.MOD_INT_CAUSE, 2, 1, .w1c⟩
abbrev MOD.INT_CAUSE.LIFE : Fld := ⟨.MOD_INT_CAUSE, 3, 1, .w1c⟩
abbrev MOD.INT_CAUSE.FAULT : Fld := ⟨.MOD_INT_CAUSE, 4, 1, .w1c⟩
abbrev MOD.INT_CAUSE.CHAIN : Fld := ⟨.MOD_INT_CAUSE, 5, 1, .w1c⟩
abbrev MOD.INT_EN.INSERT : Fld := ⟨.MOD_INT_EN, 0, 1, .rw⟩
abbrev MOD.INT_EN.REMOVE : Fld := ⟨.MOD_INT_EN, 1, 1, .rw⟩
abbrev MOD.INT_EN.MODULE_INT : Fld := ⟨.MOD_INT_EN, 2, 1, .rw⟩
abbrev MOD.INT_EN.LIFE : Fld := ⟨.MOD_INT_EN, 3, 1, .rw⟩
abbrev MOD.INT_EN.FAULT : Fld := ⟨.MOD_INT_EN, 4, 1, .rw⟩
abbrev MOD.INT_EN.CHAIN : Fld := ⟨.MOD_INT_EN, 5, 1, .rw⟩
abbrev MOD.CAGE_CTRL.HOLD_LOW_POWER : Fld := ⟨.MOD_CAGE_CTRL, 0, 1, .rw⟩
abbrev MOD.CAGE_CTRL.HOST_OWNED : Fld := ⟨.MOD_CAGE_CTRL, 1, 1, .rw⟩
abbrev MOD.CAGE_STATUS.STATE : Fld := ⟨.MOD_CAGE_STATUS, 0, 4, .ro⟩
abbrev MOD.CAGE_STATUS.PRESENT : Fld := ⟨.MOD_CAGE_STATUS, 4, 1, .ro⟩
abbrev MOD.CAGE_STATUS.PWR_GOOD : Fld := ⟨.MOD_CAGE_STATUS, 5, 1, .ro⟩
abbrev MOD.CAGE_STATUS.INT_PENDING : Fld := ⟨.MOD_CAGE_STATUS, 6, 1, .ro⟩
abbrev MOD.CAGE_STATUS.AUTH : Fld := ⟨.MOD_CAGE_STATUS, 8, 2, .ro⟩
abbrev MOD.CAGE_STATUS.FAULT_CAUSE : Fld := ⟨.MOD_CAGE_STATUS, 12, 4, .ro⟩
abbrev MOD.CAGE_STATUS.INSERTIONS : Fld := ⟨.MOD_CAGE_STATUS, 16, 16, .rc⟩
abbrev MOD.IDENT.OUI : Fld := ⟨.MOD_IDENT, 0, 24, .ro⟩
abbrev MOD.IDENT.CMIS_REV : Fld := ⟨.MOD_IDENT, 24, 8, .ro⟩
abbrev MOD.IDENT.SERIAL_CRC : Fld := ⟨.MOD_IDENT, 32, 32, .ro⟩
abbrev MOD.LIFE.WORN_H : Fld := ⟨.MOD_LIFE, 0, 32, .ro⟩
abbrev MOD.LIFE.REMAIN_PCT : Fld := ⟨.MOD_LIFE, 32, 7, .ro⟩
abbrev MOD.LIFE.RATED_KH : Fld := ⟨.MOD_LIFE, 40, 16, .ro⟩
abbrev MOD.LIFE.WARN : Fld := ⟨.MOD_LIFE, 56, 1, .ro⟩
abbrev MOD.LIFE.RETIRE : Fld := ⟨.MOD_LIFE, 57, 1, .ro⟩
abbrev MOD.LIFE.FROM_ZERO : Fld := ⟨.MOD_LIFE, 58, 1, .ro⟩
abbrev PIPE.PROG_INFO.PREG_COUNT : Fld := ⟨.PIPE_PROG_INFO, 0, 16, .ro⟩
abbrev PIPE.PROG_INFO.IP_STAGES : Fld := ⟨.PIPE_PROG_INFO, 16, 8, .ro⟩
abbrev PIPE.PROG_INFO.EP_STAGES : Fld := ⟨.PIPE_PROG_INFO, 24, 8, .ro⟩
abbrev PIPE.PROG_INFO.PROG_ID : Fld := ⟨.PIPE_PROG_INFO, 32, 32, .ro⟩
abbrev PIPE.DEPTH_MAP_CFG.UNIT_LOG2 : Fld := ⟨.PIPE_DEPTH_MAP_CFG, 0, 5, .rw⟩
abbrev PIPE.DEPTH_MAP_CFG.STALE_PERIODS : Fld := ⟨.PIPE_DEPTH_MAP_CFG, 8, 4, .rw⟩
abbrev PIPE.DEPTH_MAP_CFG.CLASS_MASK : Fld := ⟨.PIPE_DEPTH_MAP_CFG, 16, 16, .rw⟩
abbrev PIPE.ADAPT_CFG.CANDIDATES : Fld := ⟨.PIPE_ADAPT_CFG, 0, 4, .rws⟩
abbrev PIPE.ADAPT_CFG.GAP_US : Fld := ⟨.PIPE_ADAPT_CFG, 16, 16, .rws⟩
abbrev PIPE.ADAPT_CFG.FLOWLET_FLUSH : Fld := ⟨.PIPE_ADAPT_CFG, 32, 1, .wo⟩
abbrev PIPE.DEPTH_MAP_STATUS.STALE_CHOICES : Fld := ⟨.PIPE_DEPTH_MAP_STATUS, 0, 32, .rc⟩
abbrev PIPE.DEPTH_MAP_STATUS.MISSED : Fld := ⟨.PIPE_DEPTH_MAP_STATUS, 32, 16, .rc⟩
abbrev PIPE.DEPTH_MAP_STATUS.STALE : Fld := ⟨.PIPE_DEPTH_MAP_STATUS, 48, 1, .ro⟩
abbrev PIPE.INT_CAUSE.IFIFO : Fld := ⟨.PIPE_INT_CAUSE, 0, 1, .w1c⟩
abbrev PIPE.INT_CAUSE.DEPTH_STALE : Fld := ⟨.PIPE_INT_CAUSE, 1, 1, .w1c⟩
abbrev PIPE.INT_CAUSE.PARSE_REJECT : Fld := ⟨.PIPE_INT_CAUSE, 2, 1, .w1c⟩
abbrev PIPE.INT_CAUSE.AUX_DROP : Fld := ⟨.PIPE_INT_CAUSE, 3, 1, .w1c⟩
abbrev PIPE.INT_CAUSE.BOUNDS : Fld := ⟨.PIPE_INT_CAUSE, 4, 1, .w1c⟩
abbrev PIPE.INT_EN.IFIFO : Fld := ⟨.PIPE_INT_EN, 0, 1, .rw⟩
abbrev PIPE.INT_EN.DEPTH_STALE : Fld := ⟨.PIPE_INT_EN, 1, 1, .rw⟩
abbrev PIPE.INT_EN.PARSE_REJECT : Fld := ⟨.PIPE_INT_EN, 2, 1, .rw⟩
abbrev PIPE.INT_EN.AUX_DROP : Fld := ⟨.PIPE_INT_EN, 3, 1, .rw⟩
abbrev PIPE.INT_EN.BOUNDS : Fld := ⟨.PIPE_INT_EN, 4, 1, .rw⟩
abbrev PIPE.HASH_SEED.SEED : Fld := ⟨.PIPE_HASH_SEED, 0, 32, .rws⟩
abbrev PIPE.DEPTH_MAP.ENTRY_0 : Fld := ⟨.PIPE_DEPTH_MAP, 0, 8, .ro⟩
abbrev PIPE.DEPTH_MAP.ENTRY_1 : Fld := ⟨.PIPE_DEPTH_MAP, 8, 8, .ro⟩
abbrev PIPE.DEPTH_MAP.ENTRY_2 : Fld := ⟨.PIPE_DEPTH_MAP, 16, 8, .ro⟩
abbrev PIPE.DEPTH_MAP.ENTRY_3 : Fld := ⟨.PIPE_DEPTH_MAP, 24, 8, .ro⟩
abbrev PIPE.DEPTH_MAP.ENTRY_4 : Fld := ⟨.PIPE_DEPTH_MAP, 32, 8, .ro⟩
abbrev PIPE.DEPTH_MAP.ENTRY_5 : Fld := ⟨.PIPE_DEPTH_MAP, 40, 8, .ro⟩
abbrev PIPE.DEPTH_MAP.ENTRY_6 : Fld := ⟨.PIPE_DEPTH_MAP, 48, 8, .ro⟩
abbrev PIPE.DEPTH_MAP.ENTRY_7 : Fld := ⟨.PIPE_DEPTH_MAP, 56, 8, .ro⟩
abbrev PIPE.IP_CTRL.AUX_SHARE : Fld := ⟨.PIPE_IP_CTRL, 0, 7, .rws⟩
abbrev PIPE.IP_CTRL.MAX_PASSES : Fld := ⟨.PIPE_IP_CTRL, 8, 3, .rws⟩
abbrev PIPE.IP_COUNT.WAVEFRONTS : Fld := ⟨.PIPE_IP_COUNT, 0, 32, .rc⟩
abbrev PIPE.IP_COUNT.HEADS : Fld := ⟨.PIPE_IP_COUNT, 32, 32, .rc⟩
abbrev PIPE.IP_EXC.PARSE_REJECTS : Fld := ⟨.PIPE_IP_EXC, 0, 16, .rc⟩
abbrev PIPE.IP_EXC.PARSE_TRUNCS : Fld := ⟨.PIPE_IP_EXC, 16, 16, .rc⟩
abbrev PIPE.IP_EXC.AUX_DROPS : Fld := ⟨.PIPE_IP_EXC, 32, 16, .rc⟩
abbrev PIPE.IP_EXC.BOUNDS_DROPS : Fld := ⟨.PIPE_IP_EXC, 48, 16, .rc⟩
abbrev PIPE.EP_COUNT.WAVEFRONTS : Fld := ⟨.PIPE_EP_COUNT, 0, 32, .rc⟩
abbrev PIPE.EP_COUNT.HEADS : Fld := ⟨.PIPE_EP_COUNT, 32, 32, .rc⟩
abbrev PIPE.EP_EXC.PARSE_REJECTS : Fld := ⟨.PIPE_EP_EXC, 0, 16, .rc⟩
abbrev PIPE.EP_EXC.MTU_DROPS : Fld := ⟨.PIPE_EP_EXC, 16, 16, .rc⟩
abbrev PIPE.EP_EXC.RECIRCS : Fld := ⟨.PIPE_EP_EXC, 32, 16, .rc⟩
abbrev PIPE.MIRROR_CFG.DEST_QUEUE : Fld := ⟨.PIPE_MIRROR_CFG, 0, 20, .rws⟩
abbrev PIPE.MIRROR_CFG.ENABLE : Fld := ⟨.PIPE_MIRROR_CFG, 20, 1, .rws⟩
abbrev PIPE.MIRROR_CFG.EGRESS : Fld := ⟨.PIPE_MIRROR_CFG, 21, 1, .rws⟩
abbrev PIPE.MIRROR_CFG.ON_DROP : Fld := ⟨.PIPE_MIRROR_CFG, 22, 1, .rws⟩
abbrev PIPE.MIRROR_CFG.TROUPE : Fld := ⟨.PIPE_MIRROR_CFG, 24, 6, .ro⟩
abbrev PIPE.MIRROR_CFG.TRUNC_LEN : Fld := ⟨.PIPE_MIRROR_CFG, 32, 14, .rws⟩
abbrev PIPE.MIRROR_CFG.SAMPLE_LOG2 : Fld := ⟨.PIPE_MIRROR_CFG, 48, 4, .rws⟩
abbrev PIPE.MIRROR_STATS.COPIES : Fld := ⟨.PIPE_MIRROR_STATS, 0, 32, .rc⟩
abbrev PIPE.MIRROR_STATS.REFUSED : Fld := ⟨.PIPE_MIRROR_STATS, 32, 32, .rc⟩
abbrev TBL.INFO.TABLES : Fld := ⟨.TBL_INFO, 0, 9, .ro⟩
abbrev TBL.INFO.EXACT_TABLES : Fld := ⟨.TBL_INFO, 16, 7, .ro⟩
abbrev TBL.INFO.SRAM_TILES : Fld := ⟨.TBL_INFO, 32, 11, .ro⟩
abbrev TBL.INFO.TERN_TILES : Fld := ⟨.TBL_INFO, 48, 8, .ro⟩
abbrev TBL.INT_CAUSE.CMD_DONE : Fld := ⟨.TBL_INT_CAUSE, 0, 1, .w1c⟩
abbrev TBL.INT_CAUSE.REHASH_REQ : Fld := ⟨.TBL_INT_CAUSE, 1, 1, .w1c⟩
abbrev TBL.INT_CAUSE.FLAP : Fld := ⟨.TBL_INT_CAUSE, 2, 1, .w1c⟩
abbrev TBL.INT_CAUSE.LEARN_DROP : Fld := ⟨.TBL_INT_CAUSE, 3, 1, .w1c⟩
abbrev TBL.INT_CAUSE.PROM_DONE : Fld := ⟨.TBL_INT_CAUSE, 4, 1, .w1c⟩
abbrev TBL.INT_CAUSE.PROM_MISMATCH : Fld := ⟨.TBL_INT_CAUSE, 5, 1, .w1c⟩
abbrev TBL.INT_CAUSE.SKEW : Fld := ⟨.TBL_INT_CAUSE, 6, 1, .w1c⟩
abbrev TBL.INT_CAUSE.REPORT_DROP : Fld := ⟨.TBL_INT_CAUSE, 7, 1, .w1c⟩
abbrev TBL.INT_EN.CMD_DONE : Fld := ⟨.TBL_INT_EN, 0, 1, .rw⟩
abbrev TBL.INT_EN.REHASH_REQ : Fld := ⟨.TBL_INT_EN, 1, 1, .rw⟩
abbrev TBL.INT_EN.FLAP : Fld := ⟨.TBL_INT_EN, 2, 1, .rw⟩
abbrev TBL.INT_EN.LEARN_DROP : Fld := ⟨.TBL_INT_EN, 3, 1, .rw⟩
abbrev TBL.INT_EN.PROM_DONE : Fld := ⟨.TBL_INT_EN, 4, 1, .rw⟩
abbrev TBL.INT_EN.PROM_MISMATCH : Fld := ⟨.TBL_INT_EN, 5, 1, .rw⟩
abbrev TBL.INT_EN.SKEW : Fld := ⟨.TBL_INT_EN, 6, 1, .rw⟩
abbrev TBL.INT_EN.REPORT_DROP : Fld := ⟨.TBL_INT_EN, 7, 1, .rw⟩
abbrev TBL.CMD_DONE.BLOCKS : Fld := ⟨.TBL_CMD_DONE, 0, 32, .w1c⟩
abbrev TBL.LEARN_CFG.FLAP_MOVES : Fld := ⟨.TBL_LEARN_CFG, 0, 4, .rw⟩
abbrev TBL.LEARN_CFG.FLAP_WINDOW_MS : Fld := ⟨.TBL_LEARN_CFG, 8, 16, .rw⟩
abbrev TBL.LEARN_CFG.PIN_HOLD_S : Fld := ⟨.TBL_LEARN_CFG, 24, 16, .rw⟩
abbrev TBL.LEARN_CFG.FLAP_EN : Fld := ⟨.TBL_LEARN_CFG, 40, 1, .rw⟩
abbrev TBL.LEARN_CFG.FILTER_US : Fld := ⟨.TBL_LEARN_CFG, 48, 8, .rw⟩
abbrev TBL.LEARN_STATUS.FLAP : Fld := ⟨.TBL_LEARN_STATUS, 0, 1, .w1c⟩
abbrev TBL.LEARN_STATUS.QUEUE_FULL_SEEN : Fld := ⟨.TBL_LEARN_STATUS, 1, 1, .w1c⟩
abbrev TBL.LEARN_STATUS.QUEUE_FILL : Fld := ⟨.TBL_LEARN_STATUS, 32, 17, .ro⟩
abbrev TBL.LEARN_COUNT.EVENTS : Fld := ⟨.TBL_LEARN_COUNT, 0, 32, .rc⟩
abbrev TBL.LEARN_COUNT.MOVES : Fld := ⟨.TBL_LEARN_COUNT, 32, 32, .rc⟩
abbrev TBL.LEARN_DROPS.QUEUE_FULL : Fld := ⟨.TBL_LEARN_DROPS, 0, 16, .rc⟩
abbrev TBL.LEARN_DROPS.TABLE_FULL : Fld := ⟨.TBL_LEARN_DROPS, 16, 16, .rc⟩
abbrev TBL.LEARN_DROPS.PINNED : Fld := ⟨.TBL_LEARN_DROPS, 32, 16, .rc⟩
abbrev TBL.LEARN_DROPS.REFUSED : Fld := ⟨.TBL_LEARN_DROPS, 48, 16, .rc⟩
abbrev TBL.REPORT_DROPS.DROPS : Fld := ⟨.TBL_REPORT_DROPS, 0, 32, .rc⟩
abbrev TBL.SWEEP_STATUS.PASS_US : Fld := ⟨.TBL_SWEEP_STATUS, 0, 32, .ro⟩
abbrev TBL.SWEEP_STATUS.PASSES : Fld := ⟨.TBL_SWEEP_STATUS, 32, 32, .rc⟩
abbrev TBL.PROM_CTRL.TABLE : Fld := ⟨.TBL_PROM_CTRL, 0, 8, .rw⟩
abbrev TBL.PROM_CTRL.TWIN : Fld := ⟨.TBL_PROM_CTRL, 8, 1, .rw⟩
abbrev TBL.PROM_CTRL.GO : Fld := ⟨.TBL_PROM_CTRL, 9, 1, .wo⟩
abbrev TBL.PROM_CTRL.ABORT : Fld := ⟨.TBL_PROM_CTRL, 10, 1, .wo⟩
abbrev TBL.PROM_CTRL.RING : Fld := ⟨.TBL_PROM_CTRL, 11, 5, .rw⟩
abbrev TBL.PROM_CTRL.RECORDS : Fld := ⟨.TBL_PROM_CTRL, 16, 24, .rw⟩
abbrev TBL.PROM_ADDR.ADDR : Fld := ⟨.TBL_PROM_ADDR, 6, 58, .rw⟩
abbrev TBL.PROM_STATUS.STATE : Fld := ⟨.TBL_PROM_STATUS, 0, 3, .ro⟩
abbrev TBL.PROM_STATUS.RECORDS_DONE : Fld := ⟨.TBL_PROM_STATUS, 8, 24, .ro⟩
abbrev TBL.PROM_STATUS.MISMATCHES : Fld := ⟨.TBL_PROM_STATUS, 32, 32, .rc⟩
abbrev TBL.CMD_CTRL.OPCODE : Fld := ⟨.TBL_CMD_CTRL, 0, 8, .rw⟩
abbrev TBL.CMD_CTRL.TABLE : Fld := ⟨.TBL_CMD_CTRL, 8, 8, .rw⟩
abbrev TBL.CMD_CTRL.GO : Fld := ⟨.TBL_CMD_CTRL, 16, 1, .wo⟩
abbrev TBL.CMD_CTRL.BUSY : Fld := ⟨.TBL_CMD_CTRL, 17, 1, .ro⟩
abbrev TBL.CMD_CTRL.STATIC : Fld := ⟨.TBL_CMD_CTRL, 18, 1, .rw⟩
abbrev TBL.CMD_CTRL.TWIN : Fld := ⟨.TBL_CMD_CTRL, 19, 1, .rw⟩
abbrev TBL.CMD_CTRL.INT : Fld := ⟨.TBL_CMD_CTRL, 20, 1, .rw⟩
abbrev TBL.CMD_CTRL.STATUS : Fld := ⟨.TBL_CMD_CTRL, 24, 4, .ro⟩
abbrev TBL.CMD_CTRL.WRITE_WHILE_BUSY : Fld := ⟨.TBL_CMD_CTRL, 28, 1, .w1c⟩
abbrev TBL.CMD_CTRL.SKEW : Fld := ⟨.TBL_CMD_CTRL, 29, 1, .ro⟩
abbrev TBL.CMD_CTRL.MOVES : Fld := ⟨.TBL_CMD_CTRL, 32, 8, .ro⟩
abbrev TBL.CMD_CTRL.TROUPE : Fld := ⟨.TBL_CMD_CTRL, 40, 6, .ro⟩
abbrev TBL.CMD_CTRL.WRITES : Fld := ⟨.TBL_CMD_CTRL, 48, 16, .ro⟩
abbrev TBL.CMD_LOC.INDEX : Fld := ⟨.TBL_CMD_LOC, 0, 24, .rw⟩
abbrev TBL.CMD_LOC.STASH : Fld := ⟨.TBL_CMD_LOC, 24, 1, .rw⟩
abbrev TBL.CMD_LOC.TARGET : Fld := ⟨.TBL_CMD_LOC, 32, 24, .rw⟩
abbrev TBL.CMD_LOC.PLEN : Fld := ⟨.TBL_CMD_LOC, 56, 8, .rw⟩
abbrev TBL.CMD_RESULT.INDEX : Fld := ⟨.TBL_CMD_RESULT, 0, 24, .ro⟩
abbrev TBL.CMD_RESULT.STASH : Fld := ⟨.TBL_CMD_RESULT, 24, 1, .ro⟩
abbrev TBL.CMD_RESULT.AGE : Fld := ⟨.TBL_CMD_RESULT, 32, 16, .ro⟩
abbrev TBL.CMD_RESULT.LEARNED : Fld := ⟨.TBL_CMD_RESULT, 48, 1, .ro⟩
abbrev TBL.CMD_RESULT.STATIC : Fld := ⟨.TBL_CMD_RESULT, 49, 1, .ro⟩
abbrev TBL.CMD_RESULT.PINNED : Fld := ⟨.TBL_CMD_RESULT, 50, 1, .ro⟩
abbrev TBL.CMD_RESULT.PLEN : Fld := ⟨.TBL_CMD_RESULT, 51, 8, .ro⟩
abbrev TBL.CMD_ENTRY.DATA : Fld := ⟨.TBL_CMD_ENTRY, 0, 64, .rw⟩
abbrev TBL.TABLE_INFO.KIND : Fld := ⟨.TBL_TABLE_INFO, 0, 3, .ro⟩
abbrev TBL.TABLE_INFO.WIDTH : Fld := ⟨.TBL_TABLE_INFO, 3, 2, .ro⟩
abbrev TBL.TABLE_INFO.TWIN_CARVED : Fld := ⟨.TBL_TABLE_INFO, 5, 1, .ro⟩
abbrev TBL.TABLE_INFO.KEY_BYTES : Fld := ⟨.TBL_TABLE_INFO, 8, 8, .ro⟩
abbrev TBL.TABLE_INFO.TROUPE : Fld := ⟨.TBL_TABLE_INFO, 16, 6, .ro⟩
abbrev TBL.TABLE_INFO.POSITIONS : Fld := ⟨.TBL_TABLE_INFO, 32, 24, .ro⟩
abbrev TBL.TABLE_INFO.RESULT_TABLE : Fld := ⟨.TBL_TABLE_INFO, 56, 8, .ro⟩
abbrev TBL.STATUS.READY : Fld := ⟨.TBL_STATUS, 0, 1, .ro⟩
abbrev TBL.STATUS.REHASH_REQ : Fld := ⟨.TBL_STATUS, 1, 1, .w1c⟩
abbrev TBL.STATUS.FULL_SEEN : Fld := ⟨.TBL_STATUS, 2, 1, .w1c⟩
abbrev TBL.STATUS.NODE_FULL_SEEN : Fld := ⟨.TBL_STATUS, 3, 1, .w1c⟩
abbrev TBL.STATUS.SKEW_SEEN : Fld := ⟨.TBL_STATUS, 4, 1, .w1c⟩
abbrev TBL.TABLE_CTRL.ACTIVE_TWIN : Fld := ⟨.TBL_TABLE_CTRL, 0, 1, .rws⟩
abbrev TBL.TABLE_CTRL.DUAL_WRITE : Fld := ⟨.TBL_TABLE_CTRL, 1, 1, .rw⟩
abbrev TBL.TABLE_CTRL.REPORT_RING : Fld := ⟨.TBL_TABLE_CTRL, 2, 5, .rw⟩
abbrev TBL.TABLE_CTRL.LEARN_EN : Fld := ⟨.TBL_TABLE_CTRL, 8, 1, .rw⟩
abbrev TBL.TABLE_CTRL.LEARN_REPORT : Fld := ⟨.TBL_TABLE_CTRL, 9, 1, .rw⟩
abbrev TBL.TABLE_CTRL.MOVE_EN : Fld := ⟨.TBL_TABLE_CTRL, 10, 1, .rw⟩
abbrev TBL.TABLE_CTRL.STASH_WARN : Fld := ⟨.TBL_TABLE_CTRL, 16, 11, .rw⟩
abbrev TBL.TABLE_COUNT.ENTRIES : Fld := ⟨.TBL_TABLE_COUNT, 0, 24, .ro⟩
abbrev TBL.TABLE_COUNT.STASH_FILL : Fld := ⟨.TBL_TABLE_COUNT, 24, 11, .ro⟩
abbrev TBL.TABLE_COUNT.FREE_NODES : Fld := ⟨.TBL_TABLE_COUNT, 40, 24, .ro⟩
abbrev TBL.AGE_CFG.ACTION : Fld := ⟨.TBL_AGE_CFG, 0, 2, .rw⟩
abbrev TBL.AGE_CFG.TICK_MS : Fld := ⟨.TBL_AGE_CFG, 16, 16, .rw⟩
abbrev TBL.AGE_CFG.LIMIT_TICKS : Fld := ⟨.TBL_AGE_CFG, 32, 15, .rw⟩
abbrev TBL.TABLE_SEED.SEED0 : Fld := ⟨.TBL_TABLE_SEED, 0, 32, .rw⟩
abbrev TBL.TABLE_SEED.SEED1 : Fld := ⟨.TBL_TABLE_SEED, 32, 32, .rw⟩
abbrev POL.INFO.BOUND : Fld := ⟨.POL_INFO, 0, 19, .ro⟩
abbrev POL.CFG.RATE_KBPS : Fld := ⟨.POL_CFG, 0, 32, .rwp⟩
abbrev POL.CFG.CBS_BYTES : Fld := ⟨.POL_CFG, 32, 24, .rwp⟩
abbrev POL.CFG.ENABLE : Fld := ⟨.POL_CFG, 56, 1, .rw⟩
abbrev POL.CFG.WIRE_ADJ : Fld := ⟨.POL_CFG, 57, 1, .rw⟩
abbrev POL.BIND.PIPE_MASK : Fld := ⟨.POL_BIND, 0, 4, .ro⟩
abbrev POL.BIND.TROUPE : Fld := ⟨.POL_BIND, 8, 6, .ro⟩
abbrev POL.TOKENS.BYTES : Fld := ⟨.POL_TOKENS, 0, 48, .ro⟩
abbrev POL.STATS.CONFORM : Fld := ⟨.POL_STATS, 0, 32, .rc⟩
abbrev POL.STATS.DROPS : Fld := ⟨.POL_STATS, 32, 32, .rc⟩
abbrev QM.ADM_PROFILE_A.MIN_UNITS : Fld := ⟨.QM_ADM_PROFILE_A, 0, 24, .rws⟩
abbrev QM.ADM_PROFILE_A.ALPHA_LOG2 : Fld := ⟨.QM_ADM_PROFILE_A, 24, 4, .rws⟩
abbrev QM.ADM_PROFILE_A.ECN_EN : Fld := ⟨.QM_ADM_PROFILE_A, 28, 1, .rws⟩
abbrev QM.ADM_PROFILE_A.NOT_ECT_DROP : Fld := ⟨.QM_ADM_PROFILE_A, 29, 1, .rws⟩
abbrev QM.ADM_PROFILE_B.ECN_MIN_UNITS : Fld := ⟨.QM_ADM_PROFILE_B, 0, 24, .rws⟩
abbrev QM.ADM_PROFILE_B.ECN_MAX_UNITS : Fld := ⟨.QM_ADM_PROFILE_B, 24, 24, .rws⟩
abbrev QM.ADM_PROFILE_B.P_MAX : Fld := ⟨.QM_ADM_PROFILE_B, 48, 8, .rws⟩
abbrev QM.Q_PROFILE.PROFILE : Fld := ⟨.QM_Q_PROFILE, 0, 8, .rws⟩
abbrev QM.PORT_ADM.ALPHA_LOG2 : Fld := ⟨.QM_PORT_ADM, 0, 4, .rws⟩
abbrev QM.PORT_ADM.EN : Fld := ⟨.QM_PORT_ADM, 4, 1, .rws⟩
abbrev QM.TROUPE_ADM.ALPHA_LOG2 : Fld := ⟨.QM_TROUPE_ADM, 0, 4, .rws⟩
abbrev QM.TROUPE_ADM.EN : Fld := ⟨.QM_TROUPE_ADM, 4, 1, .rws⟩
abbrev QM.PP_ADM.MIN_UNITS : Fld := ⟨.QM_PP_ADM, 0, 20, .rws⟩
abbrev QM.PP_ADM.HEADROOM_UNITS : Fld := ⟨.QM_PP_ADM, 20, 20, .rws⟩
abbrev QM.PP_ADM.ALPHA_LOG2 : Fld := ⟨.QM_PP_ADM, 40, 4, .rws⟩
abbrev QM.PP_ADM.XON_OFFSET_UNITS : Fld := ⟨.QM_PP_ADM, 44, 20, .rws⟩
abbrev CELL.ADM_STATUS.SHARED_UNITS : Fld := ⟨.CELL_ADM_STATUS, 0, 24, .ro⟩
abbrev CELL.ADM_STATUS.FREE_UNITS : Fld := ⟨.CELL_ADM_STATUS, 24, 24, .ro⟩
abbrev CELL.ADM_RESERVED.MIN_RESERVED : Fld := ⟨.CELL_ADM_RESERVED, 0, 24, .ro⟩
abbrev CELL.ADM_RESERVED.HEADROOM_RESERVED : Fld := ⟨.CELL_ADM_RESERVED, 24, 24, .ro⟩
abbrev CELL.TROUPE_QUOTA.QUOTA_UNITS : Fld := ⟨.CELL_TROUPE_QUOTA, 0, 24, .ro⟩
abbrev CELL.TROUPE_QUOTA.USE_UNITS : Fld := ⟨.CELL_TROUPE_QUOTA, 24, 24, .ro⟩
abbrev CELL.PP_STATUS.XOFF_ADM : Fld := ⟨.CELL_PP_STATUS, 0, 8, .ro⟩
abbrev CELL.PP_STATUS.IN_HEADROOM : Fld := ⟨.CELL_PP_STATUS, 8, 8, .ro⟩
abbrev CELL.PP_STATUS.EXHAUSTED_SEEN : Fld := ⟨.CELL_PP_STATUS, 16, 8, .w1c⟩
abbrev CELL.INFO.BODY_STEPS : Fld := ⟨.CELL_INFO, 0, 5, .ro⟩
abbrev CELL.INFO.BODY_CELLS : Fld := ⟨.CELL_INFO, 8, 22, .ro⟩
abbrev CELL.INFO.TAIL_CELLS : Fld := ⟨.CELL_INFO, 32, 24, .ro⟩
abbrev CELL.POOL_STATUS.FREE_CELLS : Fld := ⟨.CELL_POOL_STATUS, 0, 24, .ro⟩
abbrev CELL.POOL_STATUS.LOW_WATER : Fld := ⟨.CELL_POOL_STATUS, 24, 24, .rc⟩
abbrev CELL.RECORD_STATUS.FREE_DESC : Fld := ⟨.CELL_RECORD_STATUS, 0, 23, .ro⟩
abbrev CELL.RECORD_STATUS.FREE_TOKENS : Fld := ⟨.CELL_RECORD_STATUS, 24, 21, .ro⟩
abbrev CELL.EXHAUST.POOL_EMPTY : Fld := ⟨.CELL_EXHAUST, 0, 16, .rc⟩
abbrev CELL.EXHAUST.QUOTA : Fld := ⟨.CELL_EXHAUST, 16, 16, .rc⟩
abbrev CELL.EXHAUST.DESC_EMPTY : Fld := ⟨.CELL_EXHAUST, 32, 16, .rc⟩
abbrev CELL.EXHAUST.TOKEN_EMPTY : Fld := ⟨.CELL_EXHAUST, 48, 16, .rc⟩
abbrev CELL.COPY_STATUS.COPY_LIMIT : Fld := ⟨.CELL_COPY_STATUS, 0, 32, .rc⟩
abbrev CELL.COPY_STATUS.TAIL_FALLBACK : Fld := ⟨.CELL_COPY_STATUS, 32, 32, .rc⟩
abbrev CELL.CT_COUNT.CT_COPIES : Fld := ⟨.CELL_CT_COUNT, 0, 32, .rc⟩
abbrev CELL.CT_COUNT.CT_BAD : Fld := ⟨.CELL_CT_COUNT, 32, 32, .rc⟩
abbrev CELL.BW_STATUS.BW_TBPS : Fld := ⟨.CELL_BW_STATUS, 0, 10, .ro⟩
abbrev CELL.BW_STATUS.READ_SHORT_US : Fld := ⟨.CELL_BW_STATUS, 32, 32, .rc⟩
abbrev CELL.ECC.DATA_CORR : Fld := ⟨.CELL_ECC, 0, 16, .rc⟩
abbrev CELL.ECC.DATA_UNCORR : Fld := ⟨.CELL_ECC, 16, 16, .rc⟩
abbrev CELL.ECC.LINK_UNCORR : Fld := ⟨.CELL_ECC, 32, 16, .rc⟩
abbrev CELL.ECC.MAP_UNCORR : Fld := ⟨.CELL_ECC, 48, 16, .rc⟩
abbrev CELL.LOST.LOST_CELLS : Fld := ⟨.CELL_LOST, 0, 24, .ro⟩
abbrev CELL.FREE_FAULT.COUNT : Fld := ⟨.CELL_FREE_FAULT, 0, 32, .rc⟩
abbrev CELL.FREE_FAULT.FAULT_SEEN : Fld := ⟨.CELL_FREE_FAULT, 32, 1, .w1c⟩
abbrev CELL.FREE_FAULT.KIND : Fld := ⟨.CELL_FREE_FAULT, 33, 2, .ro⟩
abbrev CELL.FREE_FAULT.OFFENDER : Fld := ⟨.CELL_FREE_FAULT, 35, 7, .ro⟩
abbrev CELL.FREE_FAULT.OWNER_TAG : Fld := ⟨.CELL_FREE_FAULT, 42, 8, .ro⟩
abbrev CELL.FREE_FAULT_CELL.CELL : Fld := ⟨.CELL_FREE_FAULT_CELL, 0, 25, .ro⟩
abbrev CELL.INT_CAUSE.POOL_EMPTY : Fld := ⟨.CELL_INT_CAUSE, 0, 1, .w1c⟩
abbrev CELL.INT_CAUSE.DESC_EMPTY : Fld := ⟨.CELL_INT_CAUSE, 1, 1, .w1c⟩
abbrev CELL.INT_CAUSE.TOKEN_EMPTY : Fld := ⟨.CELL_INT_CAUSE, 2, 1, .w1c⟩
abbrev CELL.INT_CAUSE.FREE_FAULT : Fld := ⟨.CELL_INT_CAUSE, 3, 1, .w1c⟩
abbrev CELL.INT_CAUSE.ECC_UNCORR : Fld := ⟨.CELL_INT_CAUSE, 4, 1, .w1c⟩
abbrev CELL.INT_CAUSE.QUOTA : Fld := ⟨.CELL_INT_CAUSE, 5, 1, .w1c⟩
abbrev CELL.INT_EN.POOL_EMPTY : Fld := ⟨.CELL_INT_EN, 0, 1, .rw⟩
abbrev CELL.INT_EN.DESC_EMPTY : Fld := ⟨.CELL_INT_EN, 1, 1, .rw⟩
abbrev CELL.INT_EN.TOKEN_EMPTY : Fld := ⟨.CELL_INT_EN, 2, 1, .rw⟩
abbrev CELL.INT_EN.FREE_FAULT : Fld := ⟨.CELL_INT_EN, 3, 1, .rw⟩
abbrev CELL.INT_EN.ECC_UNCORR : Fld := ⟨.CELL_INT_EN, 4, 1, .rw⟩
abbrev CELL.INT_EN.QUOTA : Fld := ⟨.CELL_INT_EN, 5, 1, .rw⟩
abbrev CELL.LEASE_CTRL.POOL : Fld := ⟨.CELL_LEASE_CTRL, 0, 1, .rw⟩
abbrev CELL.LEASE_CTRL.COUNT : Fld := ⟨.CELL_LEASE_CTRL, 1, 4, .rw⟩
abbrev CELL.LEASE_CTRL.GO : Fld := ⟨.CELL_LEASE_CTRL, 5, 1, .wo⟩
abbrev CELL.LEASE_CTRL.BUSY : Fld := ⟨.CELL_LEASE_CTRL, 6, 1, .ro⟩
abbrev CELL.LEASE_CTRL.STATUS : Fld := ⟨.CELL_LEASE_CTRL, 8, 3, .ro⟩
abbrev CELL.LEASE_CTRL.FREE_STATUS : Fld := ⟨.CELL_LEASE_CTRL, 12, 3, .ro⟩
abbrev CELL.LEASE_FREE.CELL : Fld := ⟨.CELL_LEASE_FREE, 0, 25, .wo⟩
abbrev CELL.LEASE_RESULT.CELL : Fld := ⟨.CELL_LEASE_RESULT, 0, 25, .ro⟩
abbrev CELL.LEASE_RESULT.VALID : Fld := ⟨.CELL_LEASE_RESULT, 32, 1, .ro⟩
abbrev CELL.LEASE_STATUS.LEASED : Fld := ⟨.CELL_LEASE_STATUS, 0, 24, .ro⟩
abbrev CELL.LEASE_STATUS.MAX : Fld := ⟨.CELL_LEASE_STATUS, 24, 24, .rw⟩
abbrev QM.INFO.QUEUES : Fld := ⟨.QM_INFO, 0, 21, .ro⟩
abbrev QM.INFO.QSHAPERS : Fld := ⟨.QM_INFO, 24, 18, .ro⟩
abbrev QM.CAL_STATUS.LATE : Fld := ⟨.QM_CAL_STATUS, 0, 32, .rc⟩
abbrev QM.CAL_STATUS.OVERFLOW : Fld := ⟨.QM_CAL_STATUS, 32, 18, .ro⟩
abbrev QM.INT_CAUSE.HOLD : Fld := ⟨.QM_INT_CAUSE, 0, 1, .w1c⟩
abbrev QM.INT_CAUSE.FLUSH : Fld := ⟨.QM_INT_CAUSE, 1, 1, .w1c⟩
abbrev QM.INT_CAUSE.RESUME : Fld := ⟨.QM_INT_CAUSE, 2, 1, .w1c⟩
abbrev QM.INT_CAUSE.CAL_LATE : Fld := ⟨.QM_INT_CAUSE, 3, 1, .w1c⟩
abbrev QM.INT_EN.HOLD : Fld := ⟨.QM_INT_EN, 0, 1, .rw⟩
abbrev QM.INT_EN.FLUSH : Fld := ⟨.QM_INT_EN, 1, 1, .rw⟩
abbrev QM.INT_EN.RESUME : Fld := ⟨.QM_INT_EN, 2, 1, .rw⟩
abbrev QM.INT_EN.CAL_LATE : Fld := ⟨.QM_INT_EN, 3, 1, .rw⟩
abbrev QM.QUERY.QUEUE : Fld := ⟨.QM_QUERY, 0, 20, .rw⟩
abbrev QM.QUERY.GO : Fld := ⟨.QM_QUERY, 20, 1, .wo⟩
abbrev QM.QUERY.BUSY : Fld := ⟨.QM_QUERY, 21, 1, .ro⟩
abbrev QM.QUERY.STATUS : Fld := ⟨.QM_QUERY, 22, 4, .ro⟩
abbrev QM.QUERY_RESULT0.ONDIE_BYTES : Fld := ⟨.QM_QUERY_RESULT0, 0, 32, .ro⟩
abbrev QM.QUERY_RESULT0.SPILLED_KIB : Fld := ⟨.QM_QUERY_RESULT0, 32, 32, .ro⟩
abbrev QM.QUERY_RESULT1.ENTRIES : Fld := ⟨.QM_QUERY_RESULT1, 0, 32, .ro⟩
abbrev QM.QUERY_RESULT1.HEAD_IN_PROGRESS : Fld := ⟨.QM_QUERY_RESULT1, 32, 1, .ro⟩
abbrev QM.QUERY_RESULT1.HEAD_SPILLED : Fld := ⟨.QM_QUERY_RESULT1, 33, 1, .ro⟩
abbrev QM.QUERY_RESULT1.ELIGIBLE : Fld := ⟨.QM_QUERY_RESULT1, 34, 1, .ro⟩
abbrev QM.PORT_HOLD.HOLD_US : Fld := ⟨.QM_PORT_HOLD, 0, 16, .rws⟩
abbrev QM.PORT_CFG.FLIGHT_KIB : Fld := ⟨.QM_PORT_CFG, 0, 8, .rw⟩
abbrev QM.PORT_STATUS.STATE : Fld := ⟨.QM_PORT_STATUS, 0, 2, .ro⟩
abbrev QM.PORT_STATUS.CG_PAUSED : Fld := ⟨.QM_PORT_STATUS, 16, 16, .ro⟩
abbrev QM.PORT_STATUS.HOLD_LEFT_US : Fld := ⟨.QM_PORT_STATUS, 32, 16, .ro⟩
abbrev QM.PORT_STATUS.HOLD_SEEN : Fld := ⟨.QM_PORT_STATUS, 48, 1, .w1c⟩
abbrev QM.PORT_STATUS.FLUSH_SEEN : Fld := ⟨.QM_PORT_STATUS, 49, 1, .w1c⟩
abbrev QM.PORT_FLUSHED.COPIES : Fld := ⟨.QM_PORT_FLUSHED, 0, 32, .rc⟩
abbrev QM.PORT_FLUSHED.RESUMES : Fld := ⟨.QM_PORT_FLUSHED, 32, 16, .rc⟩
abbrev QM.PORT_SHAPER.RATE_KBPS : Fld := ⟨.QM_PORT_SHAPER, 0, 32, .rwp⟩
abbrev QM.PORT_SHAPER.BURST_BYTES : Fld := ⟨.QM_PORT_SHAPER, 32, 24, .rwp⟩
abbrev QM.PORT_SHAPER.EN : Fld := ⟨.QM_PORT_SHAPER, 56, 1, .rw⟩
abbrev QM.PORT_SHAPER.ADJ_BYTES : Fld := ⟨.QM_PORT_SHAPER, 57, 7, .rw⟩
abbrev QM.CG_SHAPER.RATE_KBPS : Fld := ⟨.QM_CG_SHAPER, 0, 32, .rwp⟩
abbrev QM.CG_SHAPER.BURST_BYTES : Fld := ⟨.QM_CG_SHAPER, 32, 24, .rwp⟩
abbrev QM.CG_SHAPER.EN : Fld := ⟨.QM_CG_SHAPER, 56, 1, .rw⟩
abbrev QM.CG_SHAPER.ADJ_BYTES : Fld := ⟨.QM_CG_SHAPER, 57, 7, .rw⟩
abbrev QM.QSHAPER.RATE_KBPS : Fld := ⟨.QM_QSHAPER, 0, 32, .rwp⟩
abbrev QM.QSHAPER.BURST_BYTES : Fld := ⟨.QM_QSHAPER, 32, 24, .rwp⟩
abbrev QM.QSHAPER.EN : Fld := ⟨.QM_QSHAPER, 56, 1, .rw⟩
abbrev QM.QSHAPER.ADJ_BYTES : Fld := ⟨.QM_QSHAPER, 57, 7, .rw⟩
abbrev QM.PORT_SHAPER_STATE.TOKENS : Fld := ⟨.QM_PORT_SHAPER_STATE, 0, 32, .ro⟩
abbrev QM.PORT_SHAPER_STATE.BLOCKING : Fld := ⟨.QM_PORT_SHAPER_STATE, 32, 1, .ro⟩
abbrev QM.PORT_SHAPER_STATE.FROZEN : Fld := ⟨.QM_PORT_SHAPER_STATE, 33, 1, .ro⟩
abbrev QM.PORT_SHAPER_STATE.WHEEL : Fld := ⟨.QM_PORT_SHAPER_STATE, 34, 2, .ro⟩
abbrev QM.PORT_SHAPER_STATE.BOUND : Fld := ⟨.QM_PORT_SHAPER_STATE, 36, 1, .ro⟩
abbrev QM.PORT_SHAPER_STATE.QUEUE : Fld := ⟨.QM_PORT_SHAPER_STATE, 40, 20, .ro⟩
abbrev QM.CG_SHAPER_STATE.TOKENS : Fld := ⟨.QM_CG_SHAPER_STATE, 0, 32, .ro⟩
abbrev QM.CG_SHAPER_STATE.BLOCKING : Fld := ⟨.QM_CG_SHAPER_STATE, 32, 1, .ro⟩
abbrev QM.CG_SHAPER_STATE.FROZEN : Fld := ⟨.QM_CG_SHAPER_STATE, 33, 1, .ro⟩
abbrev QM.CG_SHAPER_STATE.WHEEL : Fld := ⟨.QM_CG_SHAPER_STATE, 34, 2, .ro⟩
abbrev QM.CG_SHAPER_STATE.BOUND : Fld := ⟨.QM_CG_SHAPER_STATE, 36, 1, .ro⟩
abbrev QM.CG_SHAPER_STATE.QUEUE : Fld := ⟨.QM_CG_SHAPER_STATE, 40, 20, .ro⟩
abbrev QM.QSHAPER_STATE.TOKENS : Fld := ⟨.QM_QSHAPER_STATE, 0, 32, .ro⟩
abbrev QM.QSHAPER_STATE.BLOCKING : Fld := ⟨.QM_QSHAPER_STATE, 32, 1, .ro⟩
abbrev QM.QSHAPER_STATE.FROZEN : Fld := ⟨.QM_QSHAPER_STATE, 33, 1, .ro⟩
abbrev QM.QSHAPER_STATE.WHEEL : Fld := ⟨.QM_QSHAPER_STATE, 34, 2, .ro⟩
abbrev QM.QSHAPER_STATE.BOUND : Fld := ⟨.QM_QSHAPER_STATE, 36, 1, .ro⟩
abbrev QM.QSHAPER_STATE.QUEUE : Fld := ⟨.QM_QSHAPER_STATE, 40, 20, .ro⟩
abbrev QM.CG_CFG.TIER : Fld := ⟨.QM_CG_CFG, 0, 2, .ro⟩
abbrev QM.CG_CFG.WEIGHT : Fld := ⟨.QM_CG_CFG, 8, 16, .rws⟩
abbrev QM.CG_CFG.PRIO : Fld := ⟨.QM_CG_CFG, 24, 3, .rws⟩
abbrev QM.CG_CFG.FWD_MODE : Fld := ⟨.QM_CG_CFG, 28, 2, .rws⟩
abbrev QM.CG_STATUS.ELIGIBLE : Fld := ⟨.QM_CG_STATUS, 0, 1, .ro⟩
abbrev QM.CG_STATUS.PAUSED : Fld := ⟨.QM_CG_STATUS, 1, 1, .ro⟩
abbrev QM.CG_STATUS.WINDOW_HELD : Fld := ⟨.QM_CG_STATUS, 2, 1, .ro⟩
abbrev QM.CG_STATUS.PICKS : Fld := ⟨.QM_CG_STATUS, 32, 32, .rc⟩
abbrev QM.Q_WEIGHT.WEIGHT_EVEN : Fld := ⟨.QM_Q_WEIGHT, 0, 16, .rws⟩
abbrev QM.Q_WEIGHT.WEIGHT_ODD : Fld := ⟨.QM_Q_WEIGHT, 16, 16, .rws⟩
abbrev MC.INFO.GROUPS : Fld := ⟨.MC_INFO, 0, 17, .ro⟩
abbrev MC.INFO.MEMBERS : Fld := ⟨.MC_INFO, 32, 21, .ro⟩
abbrev MC.SYNC.REQ : Fld := ⟨.MC_SYNC, 0, 1, .wo⟩
abbrev MC.SYNC.DONE : Fld := ⟨.MC_SYNC, 1, 1, .ro⟩
abbrev MC.STATS.COPIES : Fld := ⟨.MC_STATS, 0, 32, .rc⟩
abbrev MC.STATS.PRUNED : Fld := ⟨.MC_STATS, 32, 16, .rc⟩
abbrev MC.STATS.PORT_LIMIT : Fld := ⟨.MC_STATS, 48, 16, .rc⟩
abbrev MC.STATS2.BOUNDS : Fld := ⟨.MC_STATS2, 0, 16, .rc⟩
abbrev MC.STATS2.REJECTED_WRITES : Fld := ⟨.MC_STATS2, 16, 16, .rc⟩
abbrev MC.TROUPE_RANGE.FIRST : Fld := ⟨.MC_TROUPE_RANGE, 0, 20, .ro⟩
abbrev MC.TROUPE_RANGE.COUNT : Fld := ⟨.MC_TROUPE_RANGE, 20, 21, .ro⟩
abbrev MC.GROUP.BASE : Fld := ⟨.MC_GROUP, 0, 20, .rw⟩
abbrev MC.GROUP.COUNT : Fld := ⟨.MC_GROUP, 20, 12, .rw⟩
abbrev MC.GROUP.PRUNE_SRC : Fld := ⟨.MC_GROUP, 32, 1, .rw⟩
abbrev MC.GROUP.TROUPE : Fld := ⟨.MC_GROUP, 40, 6, .ro⟩
abbrev MC.MEMBER.QUEUE : Fld := ⟨.MC_MEMBER, 0, 20, .rw⟩
abbrev MC.MEMBER.REPL_ID : Fld := ⟨.MC_MEMBER, 20, 16, .rw⟩
abbrev MC.MEMBER.VALID : Fld := ⟨.MC_MEMBER, 36, 1, .rw⟩
abbrev TIME.STATUS.REF_PRESENT : Fld := ⟨.TIME_STATUS, 0, 1, .ro⟩
abbrev TIME.STATUS.PLL_LOCK : Fld := ⟨.TIME_STATUS, 1, 1, .ro⟩
abbrev TIME.STATUS.REF_25M : Fld := ⟨.TIME_STATUS, 2, 1, .ro⟩
abbrev TIME.STATUS.STATE : Fld := ⟨.TIME_STATUS, 4, 2, .ro⟩
abbrev TIME.STATUS.LOCK_LOST_SEEN : Fld := ⟨.TIME_STATUS, 8, 1, .w1c⟩
abbrev TIME.STATUS.STEP_SEEN : Fld := ⟨.TIME_STATUS, 9, 1, .w1c⟩
abbrev TIME.STATUS.REF_LOST_SEEN : Fld := ⟨.TIME_STATUS, 10, 1, .w1c⟩
abbrev TIME.STATUS.STEPS : Fld := ⟨.TIME_STATUS, 32, 16, .rc⟩
abbrev TIME.NOW_SUB.FRAC : Fld := ⟨.TIME_NOW_SUB, 0, 16, .ro⟩
abbrev TIME.NOW_SUB.NS : Fld := ⟨.TIME_NOW_SUB, 16, 30, .ro⟩
abbrev TIME.PPS_STAMP_SUB.FRAC : Fld := ⟨.TIME_PPS_STAMP_SUB, 0, 16, .ro⟩
abbrev TIME.PPS_STAMP_SUB.NS : Fld := ⟨.TIME_PPS_STAMP_SUB, 16, 30, .ro⟩
abbrev TIME.NOW_SEC.SEC : Fld := ⟨.TIME_NOW_SEC, 0, 64, .ro⟩
abbrev TIME.PPS_STAMP_SEC.SEC : Fld := ⟨.TIME_PPS_STAMP_SEC, 0, 64, .ro⟩
abbrev TIME.RAW_LO.RAW : Fld := ⟨.TIME_RAW_LO, 0, 64, .ro⟩
abbrev TIME.RAW_HI.RAW : Fld := ⟨.TIME_RAW_HI, 0, 16, .ro⟩
abbrev TIME.RATE.RATE : Fld := ⟨.TIME_RATE, 0, 48, .rwp⟩
abbrev TIME.STEP_NS.STEP : Fld := ⟨.TIME_STEP_NS, 0, 64, .rwp⟩
abbrev TIME.SERVO_CFG.EN : Fld := ⟨.TIME_SERVO_CFG, 0, 1, .rw⟩
abbrev TIME.SERVO_CFG.SRC : Fld := ⟨.TIME_SERVO_CFG, 1, 1, .rw⟩
abbrev TIME.SERVO_CFG.KP_SHIFT : Fld := ⟨.TIME_SERVO_CFG, 2, 6, .rw⟩
abbrev TIME.SERVO_CFG.KI_SHIFT : Fld := ⟨.TIME_SERVO_CFG, 8, 6, .rw⟩
abbrev TIME.SERVO_CFG.LOCK_NS : Fld := ⟨.TIME_SERVO_CFG, 16, 16, .rw⟩
abbrev TIME.SERVO_CFG.UNLOCK_NS : Fld := ⟨.TIME_SERVO_CFG, 32, 16, .rw⟩
abbrev TIME.SERVO_CFG.LOCK_COUNT : Fld := ⟨.TIME_SERVO_CFG, 48, 4, .rw⟩
abbrev TIME.SERVO_CFG2.STEP_NS : Fld := ⟨.TIME_SERVO_CFG2, 0, 32, .rw⟩
abbrev TIME.SERVO_CFG2.TIMEOUT_MS : Fld := ⟨.TIME_SERVO_CFG2, 32, 16, .rw⟩
abbrev TIME.SERVO_CFG2.HOLDOVER_S : Fld := ⟨.TIME_SERVO_CFG2, 48, 16, .rw⟩
abbrev TIME.SERVO_OFFSET.OFFSET : Fld := ⟨.TIME_SERVO_OFFSET, 0, 64, .wo⟩
abbrev TIME.SERVO_STATUS.LAST_ERR_NS : Fld := ⟨.TIME_SERVO_STATUS, 0, 32, .ro⟩
abbrev TIME.SERVO_STATUS.SAMPLES : Fld := ⟨.TIME_SERVO_STATUS, 32, 16, .rc⟩
abbrev TIME.SERVO_STATUS.IGNORED : Fld := ⟨.TIME_SERVO_STATUS, 48, 16, .rc⟩
abbrev TIME.PPS_IN.RISING : Fld := ⟨.TIME_PPS_IN, 0, 1, .rw⟩
abbrev TIME.PPS_IN.CORR_NS : Fld := ⟨.TIME_PPS_IN, 16, 16, .rw⟩
abbrev TIME.PPS_IN.SEEN : Fld := ⟨.TIME_PPS_IN, 32, 1, .w1c⟩
abbrev TIME.PPS_IN.MISSED : Fld := ⟨.TIME_PPS_IN, 48, 16, .rc⟩
abbrev TIME.PPS_OUT.EN : Fld := ⟨.TIME_PPS_OUT, 0, 1, .rw⟩
abbrev TIME.PPS_OUT.ONLY_LOCKED : Fld := ⟨.TIME_PPS_OUT, 1, 1, .rw⟩
abbrev TIME.PPS_OUT.CORR_NS : Fld := ⟨.TIME_PPS_OUT, 16, 16, .rw⟩
abbrev TIME.PPS_OUT.WIDTH_US : Fld := ⟨.TIME_PPS_OUT, 32, 20, .rw⟩
abbrev TIME.PTP_STATS.CORRECTED : Fld := ⟨.TIME_PTP_STATS, 0, 32, .rc⟩
abbrev TIME.PTP_STATS.SKIPPED : Fld := ⟨.TIME_PTP_STATS, 32, 16, .rc⟩
abbrev TIME.PTP_STATS.TWO_STEP : Fld := ⟨.TIME_PTP_STATS, 48, 16, .rc⟩
abbrev TIME.SYNCE.LANE : Fld := ⟨.TIME_SYNCE, 0, 9, .rw⟩
abbrev TIME.SYNCE.EN : Fld := ⟨.TIME_SYNCE, 10, 1, .rw⟩
abbrev TIME.SYNCE.DIV : Fld := ⟨.TIME_SYNCE, 12, 12, .rw⟩
abbrev TIME.SYNCE.SQUELCHED : Fld := ⟨.TIME_SYNCE, 24, 1, .ro⟩
abbrev TIME.SYNCE.SQUELCH_SEEN : Fld := ⟨.TIME_SYNCE, 25, 1, .w1c⟩
abbrev TIME.INT_CAUSE.LOCKED : Fld := ⟨.TIME_INT_CAUSE, 0, 1, .w1c⟩
abbrev TIME.INT_CAUSE.LOCK_LOST : Fld := ⟨.TIME_INT_CAUSE, 1, 1, .w1c⟩
abbrev TIME.INT_CAUSE.STEP : Fld := ⟨.TIME_INT_CAUSE, 2, 1, .w1c⟩
abbrev TIME.INT_CAUSE.HOLDOVER : Fld := ⟨.TIME_INT_CAUSE, 3, 1, .w1c⟩
abbrev TIME.INT_CAUSE.PPS_MISSED : Fld := ⟨.TIME_INT_CAUSE, 4, 1, .w1c⟩
abbrev TIME.INT_CAUSE.REF_LOST : Fld := ⟨.TIME_INT_CAUSE, 5, 1, .w1c⟩
abbrev TIME.INT_CAUSE.SYNCE_SQUELCH : Fld := ⟨.TIME_INT_CAUSE, 6, 1, .w1c⟩
abbrev TIME.INT_EN.LOCKED : Fld := ⟨.TIME_INT_EN, 0, 1, .rw⟩
abbrev TIME.INT_EN.LOCK_LOST : Fld := ⟨.TIME_INT_EN, 1, 1, .rw⟩
abbrev TIME.INT_EN.STEP : Fld := ⟨.TIME_INT_EN, 2, 1, .rw⟩
abbrev TIME.INT_EN.HOLDOVER : Fld := ⟨.TIME_INT_EN, 3, 1, .rw⟩
abbrev TIME.INT_EN.PPS_MISSED : Fld := ⟨.TIME_INT_EN, 4, 1, .rw⟩
abbrev TIME.INT_EN.REF_LOST : Fld := ⟨.TIME_INT_EN, 5, 1, .rw⟩
abbrev TIME.INT_EN.SYNCE_SQUELCH : Fld := ⟨.TIME_INT_EN, 6, 1, .rw⟩
abbrev TIME.PTP_PEER.DELAY : Fld := ⟨.TIME_PTP_PEER, 0, 48, .rw⟩
abbrev QM.WIN_CTRL.GO : Fld := ⟨.QM_WIN_CTRL, 0, 1, .wo⟩
abbrev QM.WIN_CTRL.NEXT_BANK : Fld := ⟨.QM_WIN_CTRL, 1, 1, .rw⟩
abbrev QM.WIN_CTRL.PROTECT : Fld := ⟨.QM_WIN_CTRL, 2, 1, .rw⟩
abbrev QM.WIN_CTRL.FALLBACK : Fld := ⟨.QM_WIN_CTRL, 3, 2, .rw⟩
abbrev QM.WIN_CTRL.GROW_BYTES : Fld := ⟨.QM_WIN_CTRL, 8, 8, .rw⟩
abbrev QM.WIN_CTRL.LEAD_NS : Fld := ⟨.QM_WIN_CTRL, 16, 16, .rw⟩
abbrev QM.WIN_CTRL.GUARD_NS : Fld := ⟨.QM_WIN_CTRL, 32, 16, .rw⟩
abbrev QM.WIN_STATUS.ACTIVE_VALID : Fld := ⟨.QM_WIN_STATUS, 0, 1, .ro⟩
abbrev QM.WIN_STATUS.ACTIVE_BANK : Fld := ⟨.QM_WIN_STATUS, 1, 1, .ro⟩
abbrev QM.WIN_STATUS.PENDING : Fld := ⟨.QM_WIN_STATUS, 2, 1, .ro⟩
abbrev QM.WIN_STATUS.UNSYNCED : Fld := ⟨.QM_WIN_STATUS, 3, 1, .ro⟩
abbrev QM.WIN_STATUS.SWITCH_SEEN : Fld := ⟨.QM_WIN_STATUS, 4, 1, .w1c⟩
abbrev QM.WIN_STATUS.BAD_BANK : Fld := ⟨.QM_WIN_STATUS, 5, 1, .w1c⟩
abbrev QM.WIN_STATUS.WRITE_REFUSED : Fld := ⟨.QM_WIN_STATUS, 6, 1, .w1c⟩
abbrev QM.WIN_STATUS.MAC_HELD : Fld := ⟨.QM_WIN_STATUS, 16, 16, .rc⟩
abbrev QM.WIN_STATUS.OVERSIZE : Fld := ⟨.QM_WIN_STATUS, 32, 32, .rc⟩
abbrev QM.WIN_BANK.CYCLE_NS : Fld := ⟨.QM_WIN_BANK, 0, 32, .rw⟩
abbrev QM.WIN_BANK.ENTRIES : Fld := ⟨.QM_WIN_BANK, 32, 8, .rw⟩
abbrev QM.WIN_BASE_SEC.SEC : Fld := ⟨.QM_WIN_BASE_SEC, 0, 64, .rw⟩
abbrev QM.WIN_BASE_NS.NS : Fld := ⟨.QM_WIN_BASE_NS, 0, 30, .rw⟩
abbrev QM.WIN_GCL.GATES : Fld := ⟨.QM_WIN_GCL, 0, 16, .rw⟩
abbrev QM.WIN_GCL.INTERVAL_NS : Fld := ⟨.QM_WIN_GCL, 16, 32, .rw⟩
abbrev TEL.HIST_CFG.LAT_SHIFT : Fld := ⟨.TEL_HIST_CFG, 0, 4, .rw⟩
abbrev TEL.HIST_CFG.DEPTH_SHIFT : Fld := ⟨.TEL_HIST_CFG, 8, 4, .rw⟩
abbrev TEL.HIST_CTRL.PORT : Fld := ⟨.TEL_HIST_CTRL, 0, 9, .rw⟩
abbrev TEL.HIST_CTRL.CG : Fld := ⟨.TEL_HIST_CTRL, 12, 4, .rw⟩
abbrev TEL.HIST_CTRL.KIND : Fld := ⟨.TEL_HIST_CTRL, 16, 1, .rw⟩
abbrev TEL.HIST_CTRL.CLEAR : Fld := ⟨.TEL_HIST_CTRL, 17, 1, .rw⟩
abbrev TEL.HIST_CTRL.GO : Fld := ⟨.TEL_HIST_CTRL, 18, 1, .wo⟩
abbrev TEL.HIST_CTRL.BUSY : Fld := ⟨.TEL_HIST_CTRL, 19, 1, .ro⟩
abbrev TEL.HIST_CTRL.STATUS : Fld := ⟨.TEL_HIST_CTRL, 20, 4, .ro⟩
abbrev TEL.HIST_BIN.COUNT : Fld := ⟨.TEL_HIST_BIN, 0, 64, .ro⟩
abbrev TEL.FLOW_CFG.AGE_EVICT : Fld := ⟨.TEL_FLOW_CFG, 0, 1, .rw⟩
abbrev TEL.FLOW_CFG.EVICT_IDLE_MS : Fld := ⟨.TEL_FLOW_CFG, 16, 16, .rw⟩
abbrev TEL.FLOW_CFG.IDLE_TIMEOUT_S : Fld := ⟨.TEL_FLOW_CFG, 32, 16, .rw⟩
abbrev TEL.FLOW_CFG.ACTIVE_TIMEOUT_S : Fld := ⟨.TEL_FLOW_CFG, 48, 16, .rw⟩
abbrev TEL.FLOW_CFG2.QUIET_MS : Fld := ⟨.TEL_FLOW_CFG2, 0, 16, .rw⟩
abbrev TEL.FLOW_CFG2.RETRY_US : Fld := ⟨.TEL_FLOW_CFG2, 16, 16, .rw⟩
abbrev TEL.FLOW_STATUS.OVERFLOW : Fld := ⟨.TEL_FLOW_STATUS, 0, 1, .ro⟩
abbrev TEL.FLOW_STATUS.OVERFLOW_SEEN : Fld := ⟨.TEL_FLOW_STATUS, 1, 1, .w1c⟩
abbrev TEL.FLOW_STATUS.APPROX_SEEN : Fld := ⟨.TEL_FLOW_STATUS, 2, 1, .w1c⟩
abbrev TEL.FLOW_STATUS.LIVE_FLOWS : Fld := ⟨.TEL_FLOW_STATUS, 32, 25, .ro⟩
abbrev TEL.FLOW_COUNT.REFUSALS : Fld := ⟨.TEL_FLOW_COUNT, 0, 32, .rc⟩
abbrev TEL.FLOW_COUNT.EPISODES : Fld := ⟨.TEL_FLOW_COUNT, 32, 16, .rc⟩
abbrev TEL.FLOW_COUNT2.EVICTED : Fld := ⟨.TEL_FLOW_COUNT2, 0, 32, .rc⟩
abbrev TEL.FLOW_COUNT2.STALE_FATE : Fld := ⟨.TEL_FLOW_COUNT2, 32, 32, .rc⟩
abbrev TEL.FLOW_CAP.CAPACITY : Fld := ⟨.TEL_FLOW_CAP, 0, 25, .ro⟩
abbrev TEL.IPFIX_CFG.PEN : Fld := ⟨.TEL_IPFIX_CFG, 0, 32, .rw⟩
abbrev TEL.IPFIX_CFG.UTC_ADJ_S : Fld := ⟨.TEL_IPFIX_CFG, 32, 16, .rw⟩
abbrev TEL.IOAM_STATS.WRITTEN : Fld := ⟨.TEL_IOAM_STATS, 0, 32, .rc⟩
abbrev TEL.IOAM_STATS.SKIPPED : Fld := ⟨.TEL_IOAM_STATS, 32, 16, .rc⟩
abbrev TEL.IOAM_STATS.OVERFLOWED : Fld := ⟨.TEL_IOAM_STATS, 48, 16, .rc⟩
abbrev TEL.KEY_FIELD.OFF : Fld := ⟨.TEL_KEY_FIELD, 0, 6, .rws⟩
abbrev TEL.KEY_FIELD.LEN : Fld := ⟨.TEL_KEY_FIELD, 6, 6, .rws⟩
abbrev TEL.KEY_FIELD.IE_ID : Fld := ⟨.TEL_KEY_FIELD, 12, 15, .rws⟩
abbrev TEL.KEY_FIELD.ENTERPRISE : Fld := ⟨.TEL_KEY_FIELD, 27, 1, .rws⟩
abbrev TEL.IOAM_CFG.NODE_ID : Fld := ⟨.TEL_IOAM_CFG, 0, 24, .rw⟩
abbrev TEL.IOAM_CFG.NS_DATA : Fld := ⟨.TEL_IOAM_CFG, 32, 32, .rw⟩
abbrev TEL.IOAM_CFG2.NODE_ID_WIDE : Fld := ⟨.TEL_IOAM_CFG2, 0, 56, .rw⟩
abbrev TEL.IOAM_CFG3.NS_DATA_WIDE : Fld := ⟨.TEL_IOAM_CFG3, 0, 64, .rw⟩
abbrev TEL.INT_CAUSE.OVERFLOW : Fld := ⟨.TEL_INT_CAUSE, 0, 1, .w1c⟩
abbrev TEL.INT_CAUSE.APPROX : Fld := ⟨.TEL_INT_CAUSE, 1, 1, .w1c⟩
abbrev TEL.INT_CAUSE.EXPORT_LOST : Fld := ⟨.TEL_INT_CAUSE, 2, 1, .w1c⟩
abbrev TEL.INT_CAUSE.IOAM_SKIP : Fld := ⟨.TEL_INT_CAUSE, 3, 1, .w1c⟩
abbrev TEL.INT_EN.OVERFLOW : Fld := ⟨.TEL_INT_EN, 0, 1, .rw⟩
abbrev TEL.INT_EN.APPROX : Fld := ⟨.TEL_INT_EN, 1, 1, .rw⟩
abbrev TEL.INT_EN.EXPORT_LOST : Fld := ⟨.TEL_INT_EN, 2, 1, .rw⟩
abbrev TEL.INT_EN.IOAM_SKIP : Fld := ⟨.TEL_INT_EN, 3, 1, .rw⟩
abbrev TEL.TROUPE_FLOW.FLOW_EN : Fld := ⟨.TEL_TROUPE_FLOW, 0, 1, .rws⟩
abbrev TEL.TROUPE_FLOW.MAX_FLOWS : Fld := ⟨.TEL_TROUPE_FLOW, 32, 25, .rw⟩
abbrev TEL.TROUPE_FLOWS.LIVE : Fld := ⟨.TEL_TROUPE_FLOWS, 0, 25, .ro⟩
abbrev TEL.TROUPE_FLOWS.REFUSED : Fld := ⟨.TEL_TROUPE_FLOWS, 32, 32, .rc⟩
abbrev TEL.EXPORT_CFG.EN : Fld := ⟨.TEL_EXPORT_CFG, 0, 1, .rws⟩
abbrev TEL.EXPORT_CFG.DEST : Fld := ⟨.TEL_EXPORT_CFG, 1, 1, .rws⟩
abbrev TEL.EXPORT_CFG.IPV6 : Fld := ⟨.TEL_EXPORT_CFG, 2, 1, .rws⟩
abbrev TEL.EXPORT_CFG.QUEUE : Fld := ⟨.TEL_EXPORT_CFG, 8, 20, .rws⟩
abbrev TEL.EXPORT_CFG.HDR_LEN : Fld := ⟨.TEL_EXPORT_CFG, 28, 7, .rws⟩
abbrev TEL.EXPORT_CFG.IP_OFF : Fld := ⟨.TEL_EXPORT_CFG, 36, 6, .rws⟩
abbrev TEL.EXPORT_CFG.UDP_OFF : Fld := ⟨.TEL_EXPORT_CFG, 42, 6, .rws⟩
abbrev TEL.EXPORT_CFG.MTU : Fld := ⟨.TEL_EXPORT_CFG, 48, 14, .rws⟩
abbrev TEL.EXPORT_CFG2.DOMAIN_ID : Fld := ⟨.TEL_EXPORT_CFG2, 0, 32, .rw⟩
abbrev TEL.EXPORT_CFG2.TEMPLATE_S : Fld := ⟨.TEL_EXPORT_CFG2, 32, 16, .rw⟩
abbrev TEL.EXPORT_CFG2.FLUSH_US : Fld := ⟨.TEL_EXPORT_CFG2, 48, 16, .rw⟩
abbrev TEL.DROP_CFG.SAMPLES : Fld := ⟨.TEL_DROP_CFG, 0, 8, .rw⟩
abbrev TEL.DROP_CFG.INTERVAL_MS : Fld := ⟨.TEL_DROP_CFG, 8, 16, .rw⟩
abbrev TEL.DROP_CFG.DROP_EXPORT_EN : Fld := ⟨.TEL_DROP_CFG, 24, 1, .rw⟩
abbrev TEL.DROP_CFG.HEAD_BYTES : Fld := ⟨.TEL_DROP_CFG, 32, 7, .rw⟩
abbrev TEL.EXPORT_STATUS.RECORDS : Fld := ⟨.TEL_EXPORT_STATUS, 0, 32, .rc⟩
abbrev TEL.EXPORT_STATUS.LOST : Fld := ⟨.TEL_EXPORT_STATUS, 32, 32, .rc⟩
abbrev TEL.EXPORT_SEQ.SEQ : Fld := ⟨.TEL_EXPORT_SEQ, 0, 32, .ro⟩
abbrev TEL.EXPORT_HDR.BYTES : Fld := ⟨.TEL_EXPORT_HDR, 0, 64, .rws⟩
abbrev TEL.UNTRACKED.COUNT : Fld := ⟨.TEL_UNTRACKED, 0, 64, .ro⟩
abbrev TEL.DROP_COUNT.COUNT : Fld := ⟨.TEL_DROP_COUNT, 0, 64, .ro⟩
abbrev HBM.INFO.SPILL_STACKS : Fld := ⟨.HBM_INFO, 0, 2, .ro⟩
abbrev HBM.INFO.LEDGER_STACKS : Fld := ⟨.HBM_INFO, 2, 2, .ro⟩
abbrev HBM.STATUS.STATE : Fld := ⟨.HBM_STATUS, 0, 3, .ro⟩
abbrev HBM.STATUS.TRAIN_ATTEMPTS : Fld := ⟨.HBM_STATUS, 8, 8, .ro⟩
abbrev HBM.STATUS.LANE_REPAIRS : Fld := ⟨.HBM_STATUS, 16, 8, .ro⟩
abbrev HBM.STATUS.TEMP_C : Fld := ⟨.HBM_STATUS, 24, 8, .ro⟩
abbrev HBM.STATUS.FAIL_SEEN : Fld := ⟨.HBM_STATUS, 32, 1, .w1c⟩
abbrev HBM.ECC.CORRECTED : Fld := ⟨.HBM_ECC, 0, 16, .rc⟩
abbrev HBM.ECC.UNCORR : Fld := ⟨.HBM_ECC, 16, 16, .rc⟩
abbrev HBM.ECC.STACK_UNCORR : Fld := ⟨.HBM_ECC, 32, 16, .rc⟩
abbrev HBM.ECC.SCRUB_FIXED : Fld := ⟨.HBM_ECC, 48, 16, .rc⟩
abbrev HBM.CTRL.STACK : Fld := ⟨.HBM_CTRL, 0, 1, .wo⟩
abbrev HBM.CTRL.RETRAIN : Fld := ⟨.HBM_CTRL, 1, 1, .wo⟩
abbrev HBM.NRR_CFG.NRR_LOG2 : Fld := ⟨.HBM_NRR_CFG, 0, 4, .rw⟩
abbrev HBM.NRR_CFG.ISSUED : Fld := ⟨.HBM_NRR_CFG, 32, 32, .rc⟩
abbrev HBM.FAIL_CFG.FAIL_UNCORR : Fld := ⟨.HBM_FAIL_CFG, 0, 16, .rw⟩
abbrev HBM.SPILL_CFG.RETRY_NS : Fld := ⟨.HBM_SPILL_CFG, 0, 16, .rw⟩
abbrev HBM.SPILL_STATUS.FREE_BLOCKS : Fld := ⟨.HBM_SPILL_STATUS, 0, 26, .ro⟩
abbrev HBM.SPILL_STATUS.LOST_BLOCKS : Fld := ⟨.HBM_SPILL_STATUS, 32, 26, .ro⟩
abbrev HBM.SPILL_COUNT.SPILLED : Fld := ⟨.HBM_SPILL_COUNT, 0, 32, .rc⟩
abbrev HBM.SPILL_COUNT.REFILLED : Fld := ⟨.HBM_SPILL_COUNT, 32, 32, .rc⟩
abbrev HBM.SPILL_COUNT2.NOT_SPILLED : Fld := ⟨.HBM_SPILL_COUNT2, 0, 32, .rc⟩
abbrev HBM.SPILL_COUNT2.REFILL_WAITS : Fld := ⟨.HBM_SPILL_COUNT2, 32, 32, .rc⟩
abbrev HBM.CAPTURE_CFG.EN : Fld := ⟨.HBM_CAPTURE_CFG, 0, 1, .rw⟩
abbrev HBM.CAPTURE_CFG.WRAP : Fld := ⟨.HBM_CAPTURE_CFG, 1, 1, .rw⟩
abbrev HBM.CAPTURE_CFG.CAP_BYTES : Fld := ⟨.HBM_CAPTURE_CFG, 2, 14, .rw⟩
abbrev HBM.CAPTURE_CFG.TROUPE : Fld := ⟨.HBM_CAPTURE_CFG, 16, 6, .ro⟩
abbrev HBM.CAPTURE_CFG.SIZE_GB : Fld := ⟨.HBM_CAPTURE_CFG, 32, 6, .ro⟩
abbrev HBM.CAPTURE_STATUS.WRITE_OFF : Fld := ⟨.HBM_CAPTURE_STATUS, 0, 36, .ro⟩
abbrev HBM.CAPTURE_STATUS.WRAPS : Fld := ⟨.HBM_CAPTURE_STATUS, 48, 16, .ro⟩
abbrev HBM.CAPTURE_RELEASE.OFF : Fld := ⟨.HBM_CAPTURE_RELEASE, 0, 36, .rw⟩
abbrev HBM.CAPTURE_COUNT.RECORDS : Fld := ⟨.HBM_CAPTURE_COUNT, 0, 32, .rc⟩
abbrev HBM.CAPTURE_COUNT.STALLS : Fld := ⟨.HBM_CAPTURE_COUNT, 32, 32, .rc⟩
abbrev HBM.COPY_ADDR.ADDR : Fld := ⟨.HBM_COPY_ADDR, 6, 58, .rw⟩
abbrev HBM.COPY_OFF.OFF : Fld := ⟨.HBM_COPY_OFF, 6, 30, .rw⟩
abbrev HBM.COPY_CTRL.LEN : Fld := ⟨.HBM_COPY_CTRL, 0, 19, .rw⟩
abbrev HBM.COPY_CTRL.GO : Fld := ⟨.HBM_COPY_CTRL, 20, 1, .wo⟩
abbrev HBM.COPY_CTRL.BUSY : Fld := ⟨.HBM_COPY_CTRL, 21, 1, .ro⟩
abbrev HBM.COPY_CTRL.STATUS : Fld := ⟨.HBM_COPY_CTRL, 22, 2, .ro⟩
abbrev HBM.COPY_CTRL.POISONED : Fld := ⟨.HBM_COPY_CTRL, 32, 32, .ro⟩
abbrev HBM.LEDGER_STATUS.WRITEBACKS : Fld := ⟨.HBM_LEDGER_STATUS, 0, 32, .rc⟩
abbrev HBM.LEDGER_STATUS.UNCORR_ENTRIES : Fld := ⟨.HBM_LEDGER_STATUS, 32, 16, .rc⟩
abbrev HBM.INT_CAUSE.STACK_READY : Fld := ⟨.HBM_INT_CAUSE, 0, 1, .w1c⟩
abbrev HBM.INT_CAUSE.STACK_FAIL : Fld := ⟨.HBM_INT_CAUSE, 1, 1, .w1c⟩
abbrev HBM.INT_CAUSE.UNCORR : Fld := ⟨.HBM_INT_CAUSE, 2, 1, .w1c⟩
abbrev HBM.INT_CAUSE.SPILL_FULL : Fld := ⟨.HBM_INT_CAUSE, 3, 1, .w1c⟩
abbrev HBM.INT_CAUSE.CAPTURE_STALL : Fld := ⟨.HBM_INT_CAUSE, 4, 1, .w1c⟩
abbrev HBM.INT_CAUSE.COPY_DONE : Fld := ⟨.HBM_INT_CAUSE, 5, 1, .w1c⟩
abbrev HBM.INT_EN.STACK_READY : Fld := ⟨.HBM_INT_EN, 0, 1, .rw⟩
abbrev HBM.INT_EN.STACK_FAIL : Fld := ⟨.HBM_INT_EN, 1, 1, .rw⟩
abbrev HBM.INT_EN.UNCORR : Fld := ⟨.HBM_INT_EN, 2, 1, .rw⟩
abbrev HBM.INT_EN.SPILL_FULL : Fld := ⟨.HBM_INT_EN, 3, 1, .rw⟩
abbrev HBM.INT_EN.CAPTURE_STALL : Fld := ⟨.HBM_INT_EN, 4, 1, .rw⟩
abbrev HBM.INT_EN.COPY_DONE : Fld := ⟨.HBM_INT_EN, 5, 1, .rw⟩
abbrev HBM.SPILL_PROFILE.EN : Fld := ⟨.HBM_SPILL_PROFILE, 0, 1, .rws⟩
abbrev HBM.SPILL_PROFILE.START_KIB : Fld := ⟨.HBM_SPILL_PROFILE, 8, 24, .rws⟩
abbrev HBM.SPILL_PROFILE.REFILL_KIB : Fld := ⟨.HBM_SPILL_PROFILE, 32, 24, .rws⟩
abbrev HBM.TROUPE_SPILL.QUOTA_BLOCKS : Fld := ⟨.HBM_TROUPE_SPILL, 0, 26, .ro⟩
abbrev HBM.TROUPE_SPILL.USE_BLOCKS : Fld := ⟨.HBM_TROUPE_SPILL, 32, 26, .ro⟩
abbrev HBM.TROUPE_SPILL.MD_UNITS : Fld := ⟨.HBM_TROUPE_SPILL, 58, 6, .ro⟩
abbrev PACE.CADENCE_SET.SETPOINT_MHZ : Fld := ⟨.PACE_CADENCE_SET, 0, 12, .rw⟩
abbrev PACE.CADENCE_SET.MODE : Fld := ⟨.PACE_CADENCE_SET, 16, 2, .rw⟩
abbrev PACE.STATUS.EFFECTIVE_MHZ : Fld := ⟨.PACE_STATUS, 0, 12, .ro⟩
abbrev PACE.STATUS.ACTUAL_MHZ : Fld := ⟨.PACE_STATUS, 16, 12, .ro⟩
abbrev PACE.STATUS.MODE : Fld := ⟨.PACE_STATUS, 32, 2, .ro⟩
abbrev PACE.STATUS.RAMPING : Fld := ⟨.PACE_STATUS, 34, 1, .ro⟩
abbrev PACE.STATUS.DROOP_RESP : Fld := ⟨.PACE_STATUS, 35, 1, .ro⟩
abbrev PACE.STATUS.THROTTLE_LEVEL : Fld := ⟨.PACE_STATUS, 36, 3, .ro⟩
abbrev PACE.STATUS.LIMIT : Fld := ⟨.PACE_STATUS, 40, 3, .ro⟩
abbrev PACE.COUNT.SHORT_US : Fld := ⟨.PACE_COUNT, 0, 32, .rc⟩
abbrev PACE.COUNT.CAD_DROPS : Fld := ⟨.PACE_COUNT, 32, 16, .rc⟩
abbrev PACE.COUNT.DROOP_EVENTS : Fld := ⟨.PACE_COUNT, 48, 16, .rc⟩
abbrev PACE.AVS_CFG.GUARD_PCT : Fld := ⟨.PACE_AVS_CFG, 0, 4, .rw⟩
abbrev PACE.AVS_CFG.SLEW_MV_US : Fld := ⟨.PACE_AVS_CFG, 8, 8, .rw⟩
abbrev PACE.AVS_CFG.SETTLE_US : Fld := ⟨.PACE_AVS_CFG, 16, 8, .rw⟩
abbrev PACE.AVS_CFG.RAMP_MHZ_US : Fld := ⟨.PACE_AVS_CFG, 32, 8, .rw⟩
abbrev PACE.AVS_CFG.RECOVER_US : Fld := ⟨.PACE_AVS_CFG, 40, 16, .rw⟩
abbrev PACE.DROOP_CFG.THRESH_MV : Fld := ⟨.PACE_DROOP_CFG, 0, 6, .rw⟩
abbrev PACE.DROOP_CFG.STEP : Fld := ⟨.PACE_DROOP_CFG, 8, 4, .rw⟩
abbrev PACE.DROOP_CFG.LONG_US : Fld := ⟨.PACE_DROOP_CFG, 16, 16, .rw⟩
abbrev PACE.DROOP_STATUS.ACTIVE : Fld := ⟨.PACE_DROOP_STATUS, 0, 5, .ro⟩
abbrev PACE.DROOP_STATUS.LOWER_BLOCKED : Fld := ⟨.PACE_DROOP_STATUS, 5, 5, .ro⟩
abbrev PACE.DROOP_STATUS.LONG_SEEN : Fld := ⟨.PACE_DROOP_STATUS, 32, 1, .w1c⟩
abbrev PACE.THERMAL_CFG.THROTTLE1_C : Fld := ⟨.PACE_THERMAL_CFG, 0, 7, .rw⟩
abbrev PACE.THERMAL_CFG.THROTTLE2_C : Fld := ⟨.PACE_THERMAL_CFG, 8, 7, .rw⟩
abbrev PACE.THERMAL_CFG.HYST_C : Fld := ⟨.PACE_THERMAL_CFG, 16, 4, .rw⟩
abbrev PACE.THERMAL_CFG.EXIT_MS : Fld := ⟨.PACE_THERMAL_CFG, 32, 16, .rw⟩
abbrev PACE.THERMAL_STATUS.HOTTEST_C : Fld := ⟨.PACE_THERMAL_STATUS, 0, 8, .ro⟩
abbrev PACE.THERMAL_STATUS.HOTTEST_SENSOR : Fld := ⟨.PACE_THERMAL_STATUS, 8, 8, .ro⟩
abbrev PACE.THERMAL_STATUS.LEVEL : Fld := ⟨.PACE_THERMAL_STATUS, 16, 3, .ro⟩
abbrev PACE.THERMAL_STATUS.TRIP : Fld := ⟨.PACE_THERMAL_STATUS, 20, 1, .ro⟩
abbrev PACE.THERMAL_STATUS.LEVEL_SEEN : Fld := ⟨.PACE_THERMAL_STATUS, 21, 1, .w1c⟩
abbrev PACE.PHASE_CFG.EN : Fld := ⟨.PACE_PHASE_CFG, 0, 1, .rw⟩
abbrev PACE.PHASE_CFG.GATE_EN : Fld := ⟨.PACE_PHASE_CFG, 1, 1, .rw⟩
abbrev PACE.PHASE_CFG.BOOST_MV : Fld := ⟨.PACE_PHASE_CFG, 8, 8, .rw⟩
abbrev PACE.PHASE_CFG.MISS_LIMIT : Fld := ⟨.PACE_PHASE_CFG, 16, 4, .rw⟩
abbrev PACE.PELOTON_CFG.GROUP_ID : Fld := ⟨.PACE_PELOTON_CFG, 0, 8, .rw⟩
abbrev PACE.PELOTON_CFG.MEMBER_ID : Fld := ⟨.PACE_PELOTON_CFG, 8, 6, .rw⟩
abbrev PACE.PELOTON_CFG.SEND_EN : Fld := ⟨.PACE_PELOTON_CFG, 16, 1, .rw⟩
abbrev PACE.PELOTON_CFG.FOLLOW_EN : Fld := ⟨.PACE_PELOTON_CFG, 17, 1, .rw⟩
abbrev PACE.PELOTON_CFG.FOLLOW_FLOOR_MHZ : Fld := ⟨.PACE_PELOTON_CFG, 20, 12, .rw⟩
abbrev PACE.PELOTON_CFG.ADV_CG : Fld := ⟨.PACE_PELOTON_CFG, 32, 4, .rw⟩
abbrev PACE.PELOTON_CFG.ADV_MIN_PCT : Fld := ⟨.PACE_PELOTON_CFG, 40, 8, .rw⟩
abbrev PACE.PELOTON_CFG.REFRESH_US : Fld := ⟨.PACE_PELOTON_CFG, 48, 16, .rw⟩
abbrev PACE.ADV_DA.ADDR : Fld := ⟨.PACE_ADV_DA, 0, 48, .rw⟩
abbrev PACE.FREEWHEEL_CFG.IDLE_US : Fld := ⟨.PACE_FREEWHEEL_CFG, 0, 16, .rw⟩
abbrev PACE.FREEWHEEL_CFG.IDLE_MV : Fld := ⟨.PACE_FREEWHEEL_CFG, 16, 10, .rw⟩
abbrev PACE.FOLLOW_STATUS.FOLLOW_MHZ : Fld := ⟨.PACE_FOLLOW_STATUS, 0, 12, .ro⟩
abbrev PACE.FOLLOW_STATUS.LEADER : Fld := ⟨.PACE_FOLLOW_STATUS, 12, 6, .ro⟩
abbrev PACE.FOLLOW_STATUS.FOLLOWING : Fld := ⟨.PACE_FOLLOW_STATUS, 18, 1, .ro⟩
abbrev PACE.FOLLOW_STATUS.ADV_RX : Fld := ⟨.PACE_FOLLOW_STATUS, 24, 16, .rc⟩
abbrev PACE.FOLLOW_STATUS.ADV_REJECT : Fld := ⟨.PACE_FOLLOW_STATUS, 40, 12, .rc⟩
abbrev PACE.FOLLOW_STATUS.ADV_TX_DROPS : Fld := ⟨.PACE_FOLLOW_STATUS, 52, 12, .rc⟩
abbrev PACE.ENERGY_CFG.MEAS_MS : Fld := ⟨.PACE_ENERGY_CFG, 0, 7, .rw⟩
abbrev PACE.ADV_LAST.BYTES : Fld := ⟨.PACE_ADV_LAST, 0, 64, .ro⟩
abbrev PACE.ADV_LAST2.BYTES_HI : Fld := ⟨.PACE_ADV_LAST2, 0, 32, .ro⟩
abbrev PACE.ADV_LAST2.PORT : Fld := ⟨.PACE_ADV_LAST2, 32, 9, .ro⟩
abbrev PACE.ADV_LAST2.VIA_HOST : Fld := ⟨.PACE_ADV_LAST2, 41, 1, .ro⟩
abbrev PACE.ADV_INJECT.BYTES : Fld := ⟨.PACE_ADV_INJECT, 0, 64, .wo⟩
abbrev PACE.ADV_INJECT2.BYTES_HI : Fld := ⟨.PACE_ADV_INJECT2, 0, 32, .wo⟩
abbrev PACE.INT_CAUSE.CAD_DROP : Fld := ⟨.PACE_INT_CAUSE, 0, 1, .w1c⟩
abbrev PACE.INT_CAUSE.THROTTLE : Fld := ⟨.PACE_INT_CAUSE, 1, 1, .w1c⟩
abbrev PACE.INT_CAUSE.TRIP : Fld := ⟨.PACE_INT_CAUSE, 2, 1, .w1c⟩
abbrev PACE.INT_CAUSE.DROOP_LONG : Fld := ⟨.PACE_INT_CAUSE, 3, 1, .w1c⟩
abbrev PACE.INT_CAUSE.RAIL_FAULT : Fld := ⟨.PACE_INT_CAUSE, 4, 1, .w1c⟩
abbrev PACE.INT_CAUSE.ADV_RX : Fld := ⟨.PACE_INT_CAUSE, 5, 1, .w1c⟩
abbrev PACE.INT_CAUSE.FOLLOW : Fld := ⟨.PACE_INT_CAUSE, 6, 1, .w1c⟩
abbrev PACE.INT_CAUSE.PHASE_RETIRED : Fld := ⟨.PACE_INT_CAUSE, 7, 1, .w1c⟩
abbrev PACE.INT_EN.CAD_DROP : Fld := ⟨.PACE_INT_EN, 0, 1, .rw⟩
abbrev PACE.INT_EN.THROTTLE : Fld := ⟨.PACE_INT_EN, 1, 1, .rw⟩
abbrev PACE.INT_EN.TRIP : Fld := ⟨.PACE_INT_EN, 2, 1, .rw⟩
abbrev PACE.INT_EN.DROOP_LONG : Fld := ⟨.PACE_INT_EN, 3, 1, .rw⟩
abbrev PACE.INT_EN.RAIL_FAULT : Fld := ⟨.PACE_INT_EN, 4, 1, .rw⟩
abbrev PACE.INT_EN.ADV_RX : Fld := ⟨.PACE_INT_EN, 5, 1, .rw⟩
abbrev PACE.INT_EN.FOLLOW : Fld := ⟨.PACE_INT_EN, 6, 1, .rw⟩
abbrev PACE.INT_EN.PHASE_RETIRED : Fld := ⟨.PACE_INT_EN, 7, 1, .rw⟩
abbrev PACE.ADV_PORTS.PORTS : Fld := ⟨.PACE_ADV_PORTS, 0, 64, .rw⟩
abbrev PACE.DOMAIN_STATUS.ACTUAL_MHZ : Fld := ⟨.PACE_DOMAIN_STATUS, 0, 12, .ro⟩
abbrev PACE.DOMAIN_STATUS.CAP_MHZ : Fld := ⟨.PACE_DOMAIN_STATUS, 16, 12, .ro⟩
abbrev PACE.DOMAIN_STATUS.VOLT_MV : Fld := ⟨.PACE_DOMAIN_STATUS, 32, 10, .ro⟩
abbrev PACE.DOMAIN_STATUS.HOT_C : Fld := ⟨.PACE_DOMAIN_STATUS, 48, 8, .ro⟩
abbrev PACE.DOMAIN_STATUS.LAG : Fld := ⟨.PACE_DOMAIN_STATUS, 56, 1, .ro⟩
abbrev PACE.RAIL_CFG.PMBUS_ADDR : Fld := ⟨.PACE_RAIL_CFG, 0, 7, .rw⟩
abbrev PACE.RAIL_CFG.PMBUS_EN : Fld := ⟨.PACE_RAIL_CFG, 7, 1, .rw⟩
abbrev PACE.RAIL_CFG.AVS_SEL : Fld := ⟨.PACE_RAIL_CFG, 8, 4, .rw⟩
abbrev PACE.RAIL_CFG.VMIN_MV : Fld := ⟨.PACE_RAIL_CFG, 16, 10, .rw⟩
abbrev PACE.RAIL_CFG.VMAX_MV : Fld := ⟨.PACE_RAIL_CFG, 32, 10, .rw⟩
abbrev PACE.RAIL_STATUS.VOUT_MV : Fld := ⟨.PACE_RAIL_STATUS, 0, 11, .ro⟩
abbrev PACE.RAIL_STATUS.IOUT_DA : Fld := ⟨.PACE_RAIL_STATUS, 16, 16, .ro⟩
abbrev PACE.RAIL_STATUS.POUT_W : Fld := ⟨.PACE_RAIL_STATUS, 32, 12, .ro⟩
abbrev PACE.RAIL_STATUS.TEMP_C : Fld := ⟨.PACE_RAIL_STATUS, 48, 8, .ro⟩
abbrev PACE.RAIL_STATUS.PMBUS_FAULT : Fld := ⟨.PACE_RAIL_STATUS, 56, 1, .ro⟩
abbrev PACE.RAIL_STATUS.AVS_FAULT : Fld := ⟨.PACE_RAIL_STATUS, 57, 1, .ro⟩
abbrev PACE.RAIL_STATUS.FAULT_SEEN : Fld := ⟨.PACE_RAIL_STATUS, 58, 1, .w1c⟩
abbrev PACE.TEMP.SENSOR_0 : Fld := ⟨.PACE_TEMP, 0, 8, .ro⟩
abbrev PACE.TEMP.SENSOR_1 : Fld := ⟨.PACE_TEMP, 8, 8, .ro⟩
abbrev PACE.TEMP.SENSOR_2 : Fld := ⟨.PACE_TEMP, 16, 8, .ro⟩
abbrev PACE.TEMP.SENSOR_3 : Fld := ⟨.PACE_TEMP, 24, 8, .ro⟩
abbrev PACE.TEMP.SENSOR_4 : Fld := ⟨.PACE_TEMP, 32, 8, .ro⟩
abbrev PACE.TEMP.SENSOR_5 : Fld := ⟨.PACE_TEMP, 40, 8, .ro⟩
abbrev PACE.TEMP.SENSOR_6 : Fld := ⟨.PACE_TEMP, 48, 8, .ro⟩
abbrev PACE.TEMP.SENSOR_7 : Fld := ⟨.PACE_TEMP, 56, 8, .ro⟩
abbrev PACE.PHASE_A.PERIOD_NS : Fld := ⟨.PACE_PHASE_A, 0, 34, .rw⟩
abbrev PACE.PHASE_A.VALID : Fld := ⟨.PACE_PHASE_A, 34, 1, .rw⟩
abbrev PACE.PHASE_A.TIMEBASE : Fld := ⟨.PACE_PHASE_A, 35, 1, .rw⟩
abbrev PACE.PHASE_B.OFFSET_NS : Fld := ⟨.PACE_PHASE_B, 0, 34, .rw⟩
abbrev PACE.PHASE_B.LEAD_NS : Fld := ⟨.PACE_PHASE_B, 48, 16, .rw⟩
abbrev PACE.PHASE_C.DURATION_NS : Fld := ⟨.PACE_PHASE_C, 0, 34, .rw⟩
abbrev PACE.PHASE_D.HITS : Fld := ⟨.PACE_PHASE_D, 0, 32, .rc⟩
abbrev PACE.PHASE_D.MISSES : Fld := ⟨.PACE_PHASE_D, 32, 16, .ro⟩
abbrev PACE.PHASE_D.RETIRED : Fld := ⟨.PACE_PHASE_D, 48, 1, .w1c⟩
abbrev PACE.COEF.ENERGY : Fld := ⟨.PACE_COEF, 0, 32, .ro⟩
abbrev PACE.LEAK.LEAK_MW : Fld := ⟨.PACE_LEAK, 0, 32, .ro⟩
abbrev PACE.LEAK.LEAK_DT_C : Fld := ⟨.PACE_LEAK, 32, 8, .ro⟩
abbrev PACE.ENERGY_TROUPE.UJ : Fld := ⟨.PACE_ENERGY_TROUPE, 0, 64, .ro⟩
abbrev PACE.ENERGY_PIPE.UJ : Fld := ⟨.PACE_ENERGY_PIPE, 0, 64, .ro⟩
abbrev PACE.ENERGY_MEASURED.UJ : Fld := ⟨.PACE_ENERGY_MEASURED, 0, 64, .ro⟩
abbrev PACE.ENERGY_SHARED.UJ : Fld := ⟨.PACE_ENERGY_SHARED, 0, 64, .ro⟩
abbrev PACE.ENERGY_UNATTR.UJ : Fld := ⟨.PACE_ENERGY_UNATTR, 0, 64, .ro⟩
abbrev PACE.ENERGY_PORT.UJ : Fld := ⟨.PACE_ENERGY_PORT, 0, 64, .ro⟩
abbrev TOP.INT_CAUSE.READY : Fld := ⟨.TOP_INT_CAUSE, 0, 1, .ro⟩
abbrev TOP.INT_CAUSE.CFG : Fld := ⟨.TOP_INT_CAUSE, 1, 1, .ro⟩
abbrev TOP.INT_CAUSE.SEC : Fld := ⟨.TOP_INT_CAUSE, 2, 1, .ro⟩
abbrev TOP.INT_CAUSE.BBX : Fld := ⟨.TOP_INT_CAUSE, 3, 1, .ro⟩
abbrev TOP.INT_CAUSE.TND : Fld := ⟨.TOP_INT_CAUSE, 4, 1, .ro⟩
abbrev TOP.INT_CAUSE.PACE : Fld := ⟨.TOP_INT_CAUSE, 5, 1, .ro⟩
abbrev TOP.INT_CAUSE.TIME : Fld := ⟨.TOP_INT_CAUSE, 6, 1, .ro⟩
abbrev TOP.INT_CAUSE.HIF : Fld := ⟨.TOP_INT_CAUSE, 7, 1, .ro⟩
abbrev TOP.INT_CAUSE.PORT : Fld := ⟨.TOP_INT_CAUSE, 8, 1, .ro⟩
abbrev TOP.INT_CAUSE.MOD : Fld := ⟨.TOP_INT_CAUSE, 9, 1, .ro⟩
abbrev TOP.INT_CAUSE.PIPE : Fld := ⟨.TOP_INT_CAUSE, 10, 1, .ro⟩
abbrev TOP.INT_CAUSE.TBL : Fld := ⟨.TOP_INT_CAUSE, 11, 1, .ro⟩
abbrev TOP.INT_CAUSE.CELL : Fld := ⟨.TOP_INT_CAUSE, 12, 1, .ro⟩
abbrev TOP.INT_CAUSE.QM : Fld := ⟨.TOP_INT_CAUSE, 13, 1, .ro⟩
abbrev TOP.INT_CAUSE.HBM : Fld := ⟨.TOP_INT_CAUSE, 14, 1, .ro⟩
abbrev TOP.INT_CAUSE.TEL : Fld := ⟨.TOP_INT_CAUSE, 15, 1, .ro⟩
abbrev TOP.INT_CAUSE.LNK : Fld := ⟨.TOP_INT_CAUSE, 16, 1, .ro⟩
abbrev TOP.INT_MASK.MASK : Fld := ⟨.TOP_INT_MASK, 0, 17, .rw⟩
abbrev TOP.INT_REARM.REARM : Fld := ⟨.TOP_INT_REARM, 0, 1, .wo⟩
abbrev HIF.LINK_STATUS.SPEED : Fld := ⟨.HIF_LINK_STATUS, 0, 3, .ro⟩
abbrev HIF.LINK_STATUS.WIDTH : Fld := ⟨.HIF_LINK_STATUS, 3, 5, .ro⟩
abbrev HIF.LINK_STATUS.FLIT : Fld := ⟨.HIF_LINK_STATUS, 8, 1, .ro⟩
abbrev HIF.LINK_STATUS.DOWNGRADED : Fld := ⟨.HIF_LINK_STATUS, 9, 1, .w1c⟩
abbrev HIF.BAD_ACCESS.COUNT : Fld := ⟨.HIF_BAD_ACCESS, 0, 32, .rc⟩
abbrev HIF.BAD_ACCESS.LATCHED : Fld := ⟨.HIF_BAD_ACCESS, 32, 1, .w1c⟩
abbrev HIF.BAD_ACCESS.KIND : Fld := ⟨.HIF_BAD_ACCESS, 33, 3, .ro⟩
abbrev HIF.BAD_ACCESS.WRITE : Fld := ⟨.HIF_BAD_ACCESS, 36, 1, .ro⟩
abbrev HIF.BAD_ACCESS_ADDR.OFFSET : Fld := ⟨.HIF_BAD_ACCESS_ADDR, 0, 28, .ro⟩
abbrev HIF.INT_CAUSE.RING_ERR : Fld := ⟨.HIF_INT_CAUSE, 0, 1, .w1c⟩
abbrev HIF.INT_CAUSE.BAD_ACCESS : Fld := ⟨.HIF_INT_CAUSE, 1, 1, .w1c⟩
abbrev HIF.INT_CAUSE.LINK_DOWNGRADE : Fld := ⟨.HIF_INT_CAUSE, 2, 1, .w1c⟩
abbrev HIF.INT_CAUSE.TROUPE_DONE : Fld := ⟨.HIF_INT_CAUSE, 3, 1, .w1c⟩
abbrev HIF.INT_CAUSE.MSIX_REJECT : Fld := ⟨.HIF_INT_CAUSE, 4, 1, .w1c⟩
abbrev HIF.INT_EN.RING_ERR : Fld := ⟨.HIF_INT_EN, 0, 1, .rw⟩
abbrev HIF.INT_EN.BAD_ACCESS : Fld := ⟨.HIF_INT_EN, 1, 1, .rw⟩
abbrev HIF.INT_EN.LINK_DOWNGRADE : Fld := ⟨.HIF_INT_EN, 2, 1, .rw⟩
abbrev HIF.INT_EN.TROUPE_DONE : Fld := ⟨.HIF_INT_EN, 3, 1, .rw⟩
abbrev HIF.INT_EN.MSIX_REJECT : Fld := ⟨.HIF_INT_EN, 4, 1, .rw⟩
abbrev HIF.MSIX_ALLOC.BASE : Fld := ⟨.HIF_MSIX_ALLOC, 0, 11, .rw⟩
abbrev HIF.MSIX_ALLOC.COUNT : Fld := ⟨.HIF_MSIX_ALLOC, 12, 12, .rw⟩
abbrev HIF.MSIX_ALLOC.REJECTED : Fld := ⟨.HIF_MSIX_ALLOC, 24, 1, .w1c⟩
abbrev HIF.TROUPE_CTRL.TROUPE : Fld := ⟨.HIF_TROUPE_CTRL, 0, 6, .wo⟩
abbrev HIF.TROUPE_CTRL.OP : Fld := ⟨.HIF_TROUPE_CTRL, 6, 2, .wo⟩
abbrev HIF.TROUPE_CTRL.GO : Fld := ⟨.HIF_TROUPE_CTRL, 8, 1, .wo⟩
abbrev HIF.TROUPE_CTRL.BUSY : Fld := ⟨.HIF_TROUPE_CTRL, 9, 1, .ro⟩
abbrev HIF.TROUPE_CTRL.STATUS : Fld := ⟨.HIF_TROUPE_CTRL, 10, 3, .ro⟩
abbrev HIF.TROUPE_CTRL.KEY : Fld := ⟨.HIF_TROUPE_CTRL, 16, 16, .wo⟩
abbrev HIF.TROUPE_STATE.STATE : Fld := ⟨.HIF_TROUPE_STATE, 0, 2, .ro⟩
abbrev HIF.TROUPE_STATE.VF_PRESENT : Fld := ⟨.HIF_TROUPE_STATE, 2, 1, .ro⟩
abbrev HIF.TROUPE_STATE.BME : Fld := ⟨.HIF_TROUPE_STATE, 3, 1, .ro⟩
abbrev HIF.TROUPE_STATE.REMOVALS : Fld := ⟨.HIF_TROUPE_STATE, 16, 16, .rc⟩
abbrev HIF.RX_CFG.EN : Fld := ⟨.HIF_RX_CFG, 0, 1, .rw⟩
abbrev HIF.RX_CFG.VECTOR : Fld := ⟨.HIF_RX_CFG, 1, 11, .rw⟩
abbrev HIF.RX_CFG.PROFILE : Fld := ⟨.HIF_RX_CFG, 16, 8, .rw⟩
abbrev HIF.RX_CFG.COAL_N : Fld := ⟨.HIF_RX_CFG, 24, 8, .rw⟩
abbrev HIF.RX_CFG.COAL_US : Fld := ⟨.HIF_RX_CFG, 32, 16, .rw⟩
abbrev HIF.RX_CFG.WAIT_US : Fld := ⟨.HIF_RX_CFG, 48, 16, .rw⟩
abbrev HIF.TX_CFG.EN : Fld := ⟨.HIF_TX_CFG, 0, 1, .rw⟩
abbrev HIF.TX_CFG.VECTOR : Fld := ⟨.HIF_TX_CFG, 1, 11, .rw⟩
abbrev HIF.TX_CFG.PIPE : Fld := ⟨.HIF_TX_CFG, 16, 4, .ro⟩
abbrev HIF.TX_CFG.COAL_N : Fld := ⟨.HIF_TX_CFG, 24, 8, .rw⟩
abbrev HIF.TX_CFG.COAL_US : Fld := ⟨.HIF_TX_CFG, 32, 16, .rw⟩
abbrev HIF.TX_CFG.WAIT_US : Fld := ⟨.HIF_TX_CFG, 48, 16, .rw⟩
abbrev HIF.TLM_CFG.EN : Fld := ⟨.HIF_TLM_CFG, 0, 1, .rw⟩
abbrev HIF.TLM_CFG.VECTOR : Fld := ⟨.HIF_TLM_CFG, 1, 11, .rw⟩
abbrev HIF.TLM_CFG.COAL_N : Fld := ⟨.HIF_TLM_CFG, 24, 8, .rw⟩
abbrev HIF.TLM_CFG.COAL_US : Fld := ⟨.HIF_TLM_CFG, 32, 16, .rw⟩
abbrev HIF.TLM_CFG.WAIT_US : Fld := ⟨.HIF_TLM_CFG, 48, 16, .rw⟩
abbrev HIF.RPT_CFG.EN : Fld := ⟨.HIF_RPT_CFG, 0, 1, .rw⟩
abbrev HIF.RPT_CFG.VECTOR : Fld := ⟨.HIF_RPT_CFG, 1, 11, .rw⟩
abbrev HIF.RPT_CFG.COAL_N : Fld := ⟨.HIF_RPT_CFG, 24, 8, .rw⟩
abbrev HIF.RPT_CFG.COAL_US : Fld := ⟨.HIF_RPT_CFG, 32, 16, .rw⟩
abbrev HIF.RPT_CFG.WAIT_US : Fld := ⟨.HIF_RPT_CFG, 48, 16, .rw⟩
abbrev HIF.RX_CQ.SIZE_LOG2 : Fld := ⟨.HIF_RX_CQ, 0, 5, .rw⟩
abbrev HIF.RX_CQ.BASE : Fld := ⟨.HIF_RX_CQ, 12, 52, .rw⟩
abbrev HIF.TX_RING.SIZE_LOG2 : Fld := ⟨.HIF_TX_RING, 0, 5, .rw⟩
abbrev HIF.TX_RING.BASE : Fld := ⟨.HIF_TX_RING, 12, 52, .rw⟩
abbrev HIF.TLM_RING.SIZE_LOG2 : Fld := ⟨.HIF_TLM_RING, 0, 5, .rw⟩
abbrev HIF.TLM_RING.BASE : Fld := ⟨.HIF_TLM_RING, 12, 52, .rw⟩
abbrev HIF.RPT_RING.SIZE_LOG2 : Fld := ⟨.HIF_RPT_RING, 0, 5, .rw⟩
abbrev HIF.RPT_RING.BASE : Fld := ⟨.HIF_RPT_RING, 12, 52, .rw⟩
abbrev HIF.RX_CQ_WB.ADDR : Fld := ⟨.HIF_RX_CQ_WB, 2, 62, .rw⟩
abbrev HIF.TX_WB.ADDR : Fld := ⟨.HIF_TX_WB, 2, 62, .rw⟩
abbrev HIF.TLM_WB.ADDR : Fld := ⟨.HIF_TLM_WB, 2, 62, .rw⟩
abbrev HIF.RPT_WB.ADDR : Fld := ⟨.HIF_RPT_WB, 2, 62, .rw⟩
abbrev HIF.RX_CQ_IDX.PROD : Fld := ⟨.HIF_RX_CQ_IDX, 0, 32, .ro⟩
abbrev HIF.RX_CQ_IDX.CONS : Fld := ⟨.HIF_RX_CQ_IDX, 32, 32, .rw⟩
abbrev HIF.TX_IDX.PROD : Fld := ⟨.HIF_TX_IDX, 0, 32, .rw⟩
abbrev HIF.TX_IDX.CONS : Fld := ⟨.HIF_TX_IDX, 32, 32, .ro⟩
abbrev HIF.TLM_IDX.PROD : Fld := ⟨.HIF_TLM_IDX, 0, 32, .ro⟩
abbrev HIF.TLM_IDX.CONS : Fld := ⟨.HIF_TLM_IDX, 32, 32, .rw⟩
abbrev HIF.RPT_IDX.PROD : Fld := ⟨.HIF_RPT_IDX, 0, 32, .ro⟩
abbrev HIF.RPT_IDX.CONS : Fld := ⟨.HIF_RPT_IDX, 32, 32, .rw⟩
abbrev HIF.RX_STATUS.RING : Fld := ⟨.HIF_RX_STATUS, 0, 9, .ro⟩
abbrev HIF.RX_STATUS.TROUPE : Fld := ⟨.HIF_RX_STATUS, 9, 6, .ro⟩
abbrev HIF.RX_STATUS.ERR : Fld := ⟨.HIF_RX_STATUS, 15, 1, .w1c⟩
abbrev HIF.RX_STATUS.ERR_CAUSE : Fld := ⟨.HIF_RX_STATUS, 16, 2, .ro⟩
abbrev HIF.RX_STATUS.COUNT : Fld := ⟨.HIF_RX_STATUS, 32, 32, .rc⟩
abbrev HIF.TX_STATUS.RING : Fld := ⟨.HIF_TX_STATUS, 0, 9, .ro⟩
abbrev HIF.TX_STATUS.TROUPE : Fld := ⟨.HIF_TX_STATUS, 9, 6, .ro⟩
abbrev HIF.TX_STATUS.ERR : Fld := ⟨.HIF_TX_STATUS, 15, 1, .w1c⟩
abbrev HIF.TX_STATUS.ERR_CAUSE : Fld := ⟨.HIF_TX_STATUS, 16, 2, .ro⟩
abbrev HIF.TX_STATUS.COUNT : Fld := ⟨.HIF_TX_STATUS, 32, 32, .rc⟩
abbrev HIF.TLM_STATUS.RING : Fld := ⟨.HIF_TLM_STATUS, 0, 9, .ro⟩
abbrev HIF.TLM_STATUS.TROUPE : Fld := ⟨.HIF_TLM_STATUS, 9, 6, .ro⟩
abbrev HIF.TLM_STATUS.ERR : Fld := ⟨.HIF_TLM_STATUS, 15, 1, .w1c⟩
abbrev HIF.TLM_STATUS.ERR_CAUSE : Fld := ⟨.HIF_TLM_STATUS, 16, 2, .ro⟩
abbrev HIF.TLM_STATUS.COUNT : Fld := ⟨.HIF_TLM_STATUS, 32, 32, .rc⟩
abbrev HIF.RPT_STATUS.RING : Fld := ⟨.HIF_RPT_STATUS, 0, 9, .ro⟩
abbrev HIF.RPT_STATUS.TROUPE : Fld := ⟨.HIF_RPT_STATUS, 9, 6, .ro⟩
abbrev HIF.RPT_STATUS.ERR : Fld := ⟨.HIF_RPT_STATUS, 15, 1, .w1c⟩
abbrev HIF.RPT_STATUS.ERR_CAUSE : Fld := ⟨.HIF_RPT_STATUS, 16, 2, .ro⟩
abbrev HIF.RPT_STATUS.COUNT : Fld := ⟨.HIF_RPT_STATUS, 32, 32, .rc⟩
abbrev HIF.RX_POOL.SIZE_LOG2 : Fld := ⟨.HIF_RX_POOL, 0, 5, .rw⟩
abbrev HIF.RX_POOL.EN : Fld := ⟨.HIF_RX_POOL, 5, 1, .rw⟩
abbrev HIF.RX_POOL.BASE : Fld := ⟨.HIF_RX_POOL, 12, 52, .rw⟩
abbrev HIF.RX_POOL_IDX.TAIL : Fld := ⟨.HIF_RX_POOL_IDX, 0, 32, .rw⟩
abbrev HIF.RX_POOL_IDX.HEAD : Fld := ⟨.HIF_RX_POOL_IDX, 32, 32, .ro⟩
abbrev HIF.RX_BUF_SIZE.UNITS_0 : Fld := ⟨.HIF_RX_BUF_SIZE, 0, 9, .rw⟩
abbrev HIF.RX_BUF_SIZE.UNITS_1 : Fld := ⟨.HIF_RX_BUF_SIZE, 16, 9, .rw⟩
abbrev HIF.RX_BUF_SIZE.UNITS_2 : Fld := ⟨.HIF_RX_BUF_SIZE, 32, 9, .rw⟩
abbrev HIF.RX_BUF_SIZE.UNITS_3 : Fld := ⟨.HIF_RX_BUF_SIZE, 48, 9, .rw⟩
abbrev WIN.STATE.TROUPE : Fld := ⟨.WIN_STATE, 0, 6, .ro⟩
abbrev WIN.STATE.STATE : Fld := ⟨.WIN_STATE, 6, 2, .ro⟩
abbrev WIN.STATE.READY : Fld := ⟨.WIN_STATE, 8, 1, .ro⟩
abbrev WIN.STATE.PKG_POWER_W : Fld := ⟨.WIN_STATE, 16, 16, .ro⟩
abbrev WIN.INT_CAUSE.COMMIT_DONE : Fld := ⟨.WIN_INT_CAUSE, 0, 1, .w1c⟩
abbrev WIN.INT_CAUSE.COMMIT_REFUSED : Fld := ⟨.WIN_INT_CAUSE, 1, 1, .w1c⟩
abbrev WIN.INT_CAUSE.PAIR_DISCARD : Fld := ⟨.WIN_INT_CAUSE, 2, 1, .w1c⟩
abbrev WIN.INT_CAUSE.CMD_DONE : Fld := ⟨.WIN_INT_CAUSE, 3, 1, .w1c⟩
abbrev WIN.INT_CAUSE.RING_ERR : Fld := ⟨.WIN_INT_CAUSE, 4, 1, .w1c⟩
abbrev WIN.INT_CAUSE.STATE : Fld := ⟨.WIN_INT_CAUSE, 5, 1, .w1c⟩
abbrev WIN.INT_CAUSE.BAD_ACCESS : Fld := ⟨.WIN_INT_CAUSE, 6, 1, .w1c⟩
abbrev WIN.INT_CAUSE.FREE_FAULT : Fld := ⟨.WIN_INT_CAUSE, 7, 1, .w1c⟩
abbrev WIN.INT_CAUSE.EXPORT_LOST : Fld := ⟨.WIN_INT_CAUSE, 8, 1, .w1c⟩
abbrev WIN.INT_EN.COMMIT_DONE : Fld := ⟨.WIN_INT_EN, 0, 1, .rw⟩
abbrev WIN.INT_EN.COMMIT_REFUSED : Fld := ⟨.WIN_INT_EN, 1, 1, .rw⟩
abbrev WIN.INT_EN.PAIR_DISCARD : Fld := ⟨.WIN_INT_EN, 2, 1, .rw⟩
abbrev WIN.INT_EN.CMD_DONE : Fld := ⟨.WIN_INT_EN, 3, 1, .rw⟩
abbrev WIN.INT_EN.RING_ERR : Fld := ⟨.WIN_INT_EN, 4, 1, .rw⟩
abbrev WIN.INT_EN.STATE : Fld := ⟨.WIN_INT_EN, 5, 1, .rw⟩
abbrev WIN.INT_EN.BAD_ACCESS : Fld := ⟨.WIN_INT_EN, 6, 1, .rw⟩
abbrev WIN.INT_EN.FREE_FAULT : Fld := ⟨.WIN_INT_EN, 7, 1, .rw⟩
abbrev WIN.INT_EN.EXPORT_LOST : Fld := ⟨.WIN_INT_EN, 8, 1, .rw⟩
abbrev WIN.CMD_DONE.BLOCKS : Fld := ⟨.WIN_CMD_DONE, 0, 32, .w1c⟩
abbrev WIN.COMMIT.GO : Fld := ⟨.WIN_COMMIT, 0, 1, .wo⟩
abbrev WIN.COMMIT.DEFER_WINDOWED : Fld := ⟨.WIN_COMMIT, 1, 1, .wo⟩
abbrev WIN.RES0.POL_FIRST : Fld := ⟨.WIN_RES0, 0, 18, .ro⟩
abbrev WIN.RES0.POL_COUNT : Fld := ⟨.WIN_RES0, 32, 15, .ro⟩
abbrev WIN.RES1.PORTS : Fld := ⟨.WIN_RES1, 0, 8, .ro⟩
abbrev WIN.RES1.RX_RINGS : Fld := ⟨.WIN_RES1, 8, 8, .ro⟩
abbrev WIN.RES1.TX_RINGS : Fld := ⟨.WIN_RES1, 16, 8, .ro⟩
abbrev WIN.RES1.RPT_RINGS : Fld := ⟨.WIN_RES1, 24, 6, .ro⟩
abbrev WIN.RES1.CMD_BLOCKS : Fld := ⟨.WIN_RES1, 30, 6, .ro⟩
abbrev WIN.RES1.CAPTURE : Fld := ⟨.WIN_RES1, 36, 1, .ro⟩
abbrev WIN.PORT_MAP.PORT : Fld := ⟨.WIN_PORT_MAP, 0, 9, .ro⟩
abbrev WIN.PORT_MAP.VALID : Fld := ⟨.WIN_PORT_MAP, 9, 1, .ro⟩
abbrev TND.STATUS.ACTIVE_W : Fld := ⟨.TND_STATUS, 0, 1, .ro⟩
abbrev TND.STATUS.SOLE : Fld := ⟨.TND_STATUS, 1, 1, .ro⟩
abbrev TND.STATUS.CMD_SEQ : Fld := ⟨.TND_STATUS, 32, 32, .ro⟩
abbrev TND.WARDEN.STATE : Fld := ⟨.TND_WARDEN, 0, 3, .ro⟩
abbrev TND.WARDEN.RESIGN_CAUSE : Fld := ⟨.TND_WARDEN, 8, 3, .ro⟩
abbrev TND.WARDEN.RESIGNATIONS : Fld := ⟨.TND_WARDEN, 16, 16, .rc⟩
abbrev TND.WARDEN.FW_VERSION : Fld := ⟨.TND_WARDEN, 32, 32, .ro⟩
abbrev TND.CFG.SELFTEST_MS : Fld := ⟨.TND_CFG, 0, 16, .rw⟩
abbrev TND.CFG.ELIM_WINDOW_US : Fld := ⟨.TND_CFG, 16, 16, .rw⟩
abbrev TND.CFG.AUTO_RESTART : Fld := ⟨.TND_CFG, 32, 1, .rw⟩
abbrev TND.CFG.RESTART_HOLD_S : Fld := ⟨.TND_CFG, 48, 16, .rw⟩
abbrev TND.CTRL.WARDEN : Fld := ⟨.TND_CTRL, 0, 1, .wo⟩
abbrev TND.CTRL.OP : Fld := ⟨.TND_CTRL, 1, 2, .wo⟩
abbrev TND.CTRL.GO : Fld := ⟨.TND_CTRL, 3, 1, .wo⟩
abbrev TND.CTRL.KEY : Fld := ⟨.TND_CTRL, 16, 16, .wo⟩
abbrev TND.CTRL.STATUS : Fld := ⟨.TND_CTRL, 32, 2, .ro⟩
abbrev TND.ELIM_COUNT.DIVERGENCES : Fld := ⟨.TND_ELIM_COUNT, 0, 16, .rc⟩
abbrev TND.ELIM_COUNT.MISSING : Fld := ⟨.TND_ELIM_COUNT, 16, 16, .rc⟩
abbrev TND.ELIM_COUNT.STALE : Fld := ⟨.TND_ELIM_COUNT, 32, 16, .rc⟩
abbrev TND.DIVERGE_INFO.ELIMINATOR : Fld := ⟨.TND_DIVERGE_INFO, 0, 3, .ro⟩
abbrev TND.DIVERGE_INFO.PARTNER_GONE : Fld := ⟨.TND_DIVERGE_INFO, 3, 1, .ro⟩
abbrev TND.DIVERGE_INFO.SEQ : Fld := ⟨.TND_DIVERGE_INFO, 32, 32, .ro⟩
abbrev TND.INPUT_STATUS.LAG : Fld := ⟨.TND_INPUT_STATUS, 0, 17, .ro⟩
abbrev TND.INPUT_STATUS.COALESCED : Fld := ⟨.TND_INPUT_STATUS, 32, 32, .rc⟩
abbrev TND.MBX_CTRL.DOORBELL : Fld := ⟨.TND_MBX_CTRL, 0, 1, .wo⟩
abbrev TND.MBX_CTRL.BUSY : Fld := ⟨.TND_MBX_CTRL, 1, 1, .ro⟩
abbrev TND.MBX_CTRL.REPLY_SEEN : Fld := ⟨.TND_MBX_CTRL, 2, 1, .w1c⟩
abbrev TND.MBX_CTRL.TIMED_OUT : Fld := ⟨.TND_MBX_CTRL, 3, 1, .w1c⟩
abbrev TND.DIVERGE_DIGEST.DIGEST : Fld := ⟨.TND_DIVERGE_DIGEST, 0, 64, .ro⟩
abbrev TND.MBX_REQ.BYTES : Fld := ⟨.TND_MBX_REQ, 0, 64, .rw⟩
abbrev TND.MBX_REPLY.BYTES : Fld := ⟨.TND_MBX_REPLY, 0, 64, .ro⟩
abbrev TND.INT_CAUSE.RESIGN : Fld := ⟨.TND_INT_CAUSE, 0, 1, .w1c⟩
abbrev TND.INT_CAUSE.TAKEOVER : Fld := ⟨.TND_INT_CAUSE, 1, 1, .w1c⟩
abbrev TND.INT_CAUSE.DIVERGE : Fld := ⟨.TND_INT_CAUSE, 2, 1, .w1c⟩
abbrev TND.INT_CAUSE.MISSING : Fld := ⟨.TND_INT_CAUSE, 3, 1, .w1c⟩
abbrev TND.INT_CAUSE.STANDBY_READY : Fld := ⟨.TND_INT_CAUSE, 4, 1, .w1c⟩
abbrev TND.INT_CAUSE.MBX_REPLY : Fld := ⟨.TND_INT_CAUSE, 5, 1, .w1c⟩
abbrev TND.INT_CAUSE.FAILED : Fld := ⟨.TND_INT_CAUSE, 6, 1, .w1c⟩
abbrev TND.INT_EN.RESIGN : Fld := ⟨.TND_INT_EN, 0, 1, .rw⟩
abbrev TND.INT_EN.TAKEOVER : Fld := ⟨.TND_INT_EN, 1, 1, .rw⟩
abbrev TND.INT_EN.DIVERGE : Fld := ⟨.TND_INT_EN, 2, 1, .rw⟩
abbrev TND.INT_EN.MISSING : Fld := ⟨.TND_INT_EN, 3, 1, .rw⟩
abbrev TND.INT_EN.STANDBY_READY : Fld := ⟨.TND_INT_EN, 4, 1, .rw⟩
abbrev TND.INT_EN.MBX_REPLY : Fld := ⟨.TND_INT_EN, 5, 1, .rw⟩
abbrev TND.INT_EN.FAILED : Fld := ⟨.TND_INT_EN, 6, 1, .rw⟩
abbrev BBX.STATUS.NEWEST_SEQ : Fld := ⟨.BBX_STATUS, 0, 48, .ro⟩
abbrev BBX.STATUS.PINNED_USED : Fld := ⟨.BBX_STATUS, 48, 12, .ro⟩
abbrev BBX.STATUS.PINNED_FULL : Fld := ⟨.BBX_STATUS, 60, 1, .ro⟩
abbrev BBX.STATUS.SCANNED : Fld := ⟨.BBX_STATUS, 61, 1, .ro⟩
abbrev BBX.STATUS2.OLDEST_SEQ : Fld := ⟨.BBX_STATUS2, 0, 48, .ro⟩
abbrev BBX.STATUS2.BREAKS : Fld := ⟨.BBX_STATUS2, 48, 16, .ro⟩
abbrev BBX.LOSS.LOST : Fld := ⟨.BBX_LOSS, 0, 32, .rc⟩
abbrev BBX.LOSS.QUEUE_FILL : Fld := ⟨.BBX_LOSS, 32, 9, .ro⟩
abbrev BBX.READ_CTRL.COUNT : Fld := ⟨.BBX_READ_CTRL, 0, 13, .rw⟩
abbrev BBX.READ_CTRL.GO : Fld := ⟨.BBX_READ_CTRL, 13, 1, .wo⟩
abbrev BBX.READ_CTRL.BUSY : Fld := ⟨.BBX_READ_CTRL, 14, 1, .ro⟩
abbrev BBX.READ_CTRL.STATUS : Fld := ⟨.BBX_READ_CTRL, 16, 2, .ro⟩
abbrev BBX.READ_FIRST.SEQ : Fld := ⟨.BBX_READ_FIRST, 0, 48, .rw⟩
abbrev BBX.READ_ADDR.ADDR : Fld := ⟨.BBX_READ_ADDR, 6, 58, .rw⟩
abbrev BBX.NONCE.BYTES : Fld := ⟨.BBX_NONCE, 0, 64, .rw⟩
abbrev BBX.HOST_NOTE.BYTES : Fld := ⟨.BBX_HOST_NOTE, 0, 64, .rw⟩
abbrev BBX.HOST_NOTE_CTRL.GO : Fld := ⟨.BBX_HOST_NOTE_CTRL, 0, 1, .wo⟩
abbrev BBX.HOST_NOTE_CTRL.REFUSED : Fld := ⟨.BBX_HOST_NOTE_CTRL, 1, 1, .w1c⟩
abbrev BBX.INT_CAUSE.READ_DONE : Fld := ⟨.BBX_INT_CAUSE, 0, 1, .w1c⟩
abbrev BBX.INT_CAUSE.LOSS : Fld := ⟨.BBX_INT_CAUSE, 1, 1, .w1c⟩
abbrev BBX.INT_CAUSE.PINNED_FULL : Fld := ⟨.BBX_INT_CAUSE, 2, 1, .w1c⟩
abbrev BBX.INT_CAUSE.CHAIN_BREAK : Fld := ⟨.BBX_INT_CAUSE, 3, 1, .w1c⟩
abbrev BBX.INT_EN.READ_DONE : Fld := ⟨.BBX_INT_EN, 0, 1, .rw⟩
abbrev BBX.INT_EN.LOSS : Fld := ⟨.BBX_INT_EN, 1, 1, .rw⟩
abbrev BBX.INT_EN.PINNED_FULL : Fld := ⟨.BBX_INT_EN, 2, 1, .rw⟩
abbrev BBX.INT_EN.CHAIN_BREAK : Fld := ⟨.BBX_INT_EN, 3, 1, .rw⟩
abbrev SEC.UNIT_ID_LO.ID : Fld := ⟨.SEC_UNIT_ID_LO, 0, 64, .ro⟩
abbrev SEC.UNIT_ID_HI.ID : Fld := ⟨.SEC_UNIT_ID_HI, 0, 64, .ro⟩
abbrev SEC.STATUS.ALIAS_VALID : Fld := ⟨.SEC_STATUS, 0, 1, .ro⟩
abbrev SEC.STATUS.DERIVING : Fld := ⟨.SEC_STATUS, 1, 1, .ro⟩
abbrev SEC.STATUS.SVN : Fld := ⟨.SEC_STATUS, 8, 6, .ro⟩
abbrev SEC.STATUS.VENDOR_REVOKED : Fld := ⟨.SEC_STATUS, 14, 2, .ro⟩
abbrev SEC.STATUS.ALIAS_EPOCH : Fld := ⟨.SEC_STATUS, 16, 16, .ro⟩
abbrev SEC.OWNER_SLOT.PROVISIONED : Fld := ⟨.SEC_OWNER_SLOT, 0, 1, .ro⟩
abbrev SEC.OWNER_SLOT.REVOKED : Fld := ⟨.SEC_OWNER_SLOT, 1, 1, .ro⟩
abbrev SEC.OWNER_HASH.BYTES : Fld := ⟨.SEC_OWNER_HASH, 0, 64, .ro⟩
abbrev SEC.KEY_CTRL.GO : Fld := ⟨.SEC_KEY_CTRL, 0, 1, .wo⟩
abbrev SEC.KEY_CTRL.BUSY : Fld := ⟨.SEC_KEY_CTRL, 1, 1, .ro⟩
abbrev SEC.KEY_CTRL.STATUS : Fld := ⟨.SEC_KEY_CTRL, 8, 4, .ro⟩
abbrev SEC.KEY_CTRL.KEY : Fld := ⟨.SEC_KEY_CTRL, 16, 16, .wo⟩
abbrev SEC.KEY_BUF.BYTES : Fld := ⟨.SEC_KEY_BUF, 0, 64, .rw⟩
abbrev SEC.FW_CTRL.LOAD : Fld := ⟨.SEC_FW_CTRL, 0, 1, .wo⟩
abbrev SEC.FW_CTRL.COMMIT_SVN : Fld := ⟨.SEC_FW_CTRL, 1, 1, .wo⟩
abbrev SEC.FW_CTRL.KEY : Fld := ⟨.SEC_FW_CTRL, 16, 16, .wo⟩
abbrev SEC.FW_ADDR.ADDR : Fld := ⟨.SEC_FW_ADDR, 6, 58, .rw⟩
abbrev SEC.FW_STATUS.STATE : Fld := ⟨.SEC_FW_STATUS, 0, 2, .ro⟩
abbrev SEC.FW_STATUS.PENDING_VALID : Fld := ⟨.SEC_FW_STATUS, 2, 1, .ro⟩
abbrev SEC.FW_STATUS.CAUSE : Fld := ⟨.SEC_FW_STATUS, 8, 4, .ro⟩
abbrev SEC.FW_STATUS.PENDING_VERSION : Fld := ⟨.SEC_FW_STATUS, 32, 32, .ro⟩
abbrev SEC.FW_BOOT.PREFERRED : Fld := ⟨.SEC_FW_BOOT, 0, 1, .rwk⟩
abbrev SEC.FW_BOOT.LAST_SLOT : Fld := ⟨.SEC_FW_BOOT, 1, 1, .ro⟩
abbrev SEC.FW_BOOT.RUNNING_VERSION : Fld := ⟨.SEC_FW_BOOT, 32, 32, .ro⟩
abbrev SEC.INT_CAUSE.KEY_DONE : Fld := ⟨.SEC_INT_CAUSE, 0, 1, .w1c⟩
abbrev SEC.INT_CAUSE.FW_DONE : Fld := ⟨.SEC_INT_CAUSE, 1, 1, .w1c⟩
abbrev SEC.INT_CAUSE.FW_REJECT : Fld := ⟨.SEC_INT_CAUSE, 2, 1, .w1c⟩
abbrev SEC.INT_CAUSE.ALIAS_CHANGED : Fld := ⟨.SEC_INT_CAUSE, 3, 1, .w1c⟩
abbrev SEC.INT_EN.KEY_DONE : Fld := ⟨.SEC_INT_EN, 0, 1, .rw⟩
abbrev SEC.INT_EN.FW_DONE : Fld := ⟨.SEC_INT_EN, 1, 1, .rw⟩
abbrev SEC.INT_EN.FW_REJECT : Fld := ⟨.SEC_INT_EN, 2, 1, .rw⟩
abbrev SEC.INT_EN.ALIAS_CHANGED : Fld := ⟨.SEC_INT_EN, 3, 1, .rw⟩
abbrev TOP.MON_STATUS.ACTIVE : Fld := ⟨.TOP_MON_STATUS, 0, 22, .ro⟩
abbrev TOP.MON_STATUS.SEEN : Fld := ⟨.TOP_MON_STATUS, 32, 22, .w1c⟩
abbrev TOP.MON_READING.READING : Fld := ⟨.TOP_MON_READING, 0, 32, .ro⟩
abbrev TOP.MON_READING.TRIPS : Fld := ⟨.TOP_MON_READING, 32, 16, .rc⟩
abbrev PIPE.PROG_REG.VALUE : Fld := ⟨.PIPE_PROG_REG, 0, 64, .rws⟩

/-- The named fields of a register, as its table lists them. -/
def Reg.fields : Reg → List Fld
  | .LNK_LINK_STATUS => [LNK.LINK_STATUS.STATE, LNK.LINK_STATUS.TRAIN_ATTEMPTS, LNK.LINK_STATUS.RETIRED_SEEN]
  | .LNK_LINK_ERRORS => [LNK.LINK_ERRORS.REPLAYS, LNK.LINK_ERRORS.REPLAY_FAILS]
  | .LNK_CFG => [LNK.CFG.RETIRE_REPLAYS, LNK.CFG.WINDOW_MS, LNK.CFG.AUTO_RETRAIN]
  | .LNK_CTRL => [LNK.CTRL.LINK, LNK.CTRL.RETRAIN]
  | .LNK_DIE_STATUS => [LNK.DIE_STATUS.LINKS_UP, LNK.DIE_STATUS.DEGRADED, LNK.DIE_STATUS.SHORT]
  | .PIPE_IFIFO_CFG => [PIPE.IFIFO_CFG.XOFF_LEVEL, PIPE.IFIFO_CFG.XON_LEVEL, PIPE.IFIFO_CFG.LOSSY_DROP_EN, PIPE.IFIFO_CFG.INT_EN]
  | .PIPE_IFIFO_STATUS => [PIPE.IFIFO_STATUS.FILL, PIPE.IFIFO_STATUS.HIGH_WATER, PIPE.IFIFO_STATUS.XOFF_ACTIVE, PIPE.IFIFO_STATUS.FULL_SEEN, PIPE.IFIFO_STATUS.EPISODES]
  | .PIPE_IFIFO_DROPS => [PIPE.IFIFO_DROPS.LOSSY_DROPS, PIPE.IFIFO_DROPS.LOSSLESS_DROPS]
  | .CFG_LOAD_CTRL => [CFG.LOAD_CTRL.START, CFG.LOAD_CTRL.ABORT, CFG.LOAD_CTRL.SOURCE, CFG.LOAD_CTRL.LIST, CFG.LOAD_CTRL.VERIFY_ONLY]
  | .CFG_LOAD_ADDR => [CFG.LOAD_ADDR.ADDR]
  | .CFG_LOAD_STATUS => [CFG.LOAD_STATUS.STATE, CFG.LOAD_STATUS.CAUSE, CFG.LOAD_STATUS.KIB_DONE, CFG.LOAD_STATUS.DONE_SEEN, CFG.LOAD_STATUS.REJECT_SEEN, CFG.LOAD_STATUS.SECTION]
  | .CFG_IMAGE_INFO => [CFG.IMAGE_INFO.SERIAL]
  | .CFG_IMAGE_MODE => [CFG.IMAGE_MODE.MEM_MODE, CFG.IMAGE_MODE.KEY_SLOT, CFG.IMAGE_MODE.LOADED, CFG.IMAGE_MODE.SOURCE]
  | .CFG_BOOT => [CFG.BOOT.PREFERRED_SLOT, CFG.BOOT.LAST_BOOT_SLOT, CFG.BOOT.FLASH_BOOT_EN]
  | .CFG_SERIAL_FLOOR => [CFG.SERIAL_FLOOR.FLOOR]
  | .CFG_COMMIT => [CFG.COMMIT.GO, CFG.COMMIT.SCOPE, CFG.COMMIT.DEFER_WINDOWED, CFG.COMMIT.TROUPE]
  | .CFG_EPOCH => [CFG.EPOCH.BITS]
  | .CFG_DRAIN_STATUS => [CFG.DRAIN_STATUS.DRAINING]
  | .CFG_DRAIN_CFG => [CFG.DRAIN_CFG.LIMIT_US, CFG.DRAIN_CFG.STALE_DROP_EN]
  | .CFG_COMMIT_STATUS => [CFG.COMMIT_STATUS.STATE, CFG.COMMIT_STATUS.CAUSE, CFG.COMMIT_STATUS.TROUPE, CFG.COMMIT_STATUS.SCOPE, CFG.COMMIT_STATUS.SPREAD_NS, CFG.COMMIT_STATUS.DONE_SEEN, CFG.COMMIT_STATUS.REFUSED_SEEN, CFG.COMMIT_STATUS.STALE_SEEN, CFG.COMMIT_STATUS.DEFERRED]
  | .CFG_VIEW => [CFG.VIEW.INFORCE]
  | .CFG_PAIR_STATUS => [CFG.PAIR_STATUS.PENDING, CFG.PAIR_STATUS.LAST_CAUSE, CFG.PAIR_STATUS.DISCARDS, CFG.PAIR_STATUS.DISCARD_SEEN]
  | .CFG_PAIR_DISCARD => [CFG.PAIR_DISCARD.OFFSET, CFG.PAIR_DISCARD.LSB]
  | .CFG_PAIR_DISCARD_VALUE => [CFG.PAIR_DISCARD_VALUE.VALUE]
  | .CFG_INT_CAUSE => [CFG.INT_CAUSE.LOAD_DONE, CFG.INT_CAUSE.LOAD_REJECT, CFG.INT_CAUSE.COMMIT_DONE, CFG.INT_CAUSE.COMMIT_REFUSED, CFG.INT_CAUSE.STALE_DROP, CFG.INT_CAUSE.PAIR_DISCARD]
  | .CFG_INT_EN => [CFG.INT_EN.LOAD_DONE, CFG.INT_EN.LOAD_REJECT, CFG.INT_EN.COMMIT_DONE, CFG.INT_EN.COMMIT_REFUSED, CFG.INT_EN.STALE_DROP, CFG.INT_EN.PAIR_DISCARD]
  | .CFG_TROUPE_SERIAL => [CFG.TROUPE_SERIAL.SERIAL]
  | .TOP_IDENT => [TOP.IDENT.VENDOR, TOP.IDENT.PART, TOP.IDENT.STEPPING, TOP.IDENT.PKG]
  | .TOP_BOOT_INFO => [TOP.BOOT_INFO.BOOT_COUNT, TOP.BOOT_INFO.LAST_RESET]
  | .TOP_RESET_CTRL => [TOP.RESET_CTRL.DEVICE, TOP.RESET_CTRL.KEY]
  | .TOP_READY => [TOP.READY.BITS]
  | .TOP_READY_CHANGE => [TOP.READY_CHANGE.CHANGED]
  | .TOP_READY_INT_EN => [TOP.READY_INT_EN.EN]
  | .TOP_TROUPE_READY => [TOP.TROUPE_READY.BITS]
  | .LANE_CFG => [LANE.CFG.MODE, LANE.CFG.TX_SOURCE, LANE.CFG.TX_INVERT, LANE.CFG.RX_INVERT, LANE.CFG.IEEE_TRAIN_EN]
  | .LANE_TX_FIR => [LANE.TX_FIR.C_PRE, LANE.TX_FIR.C_MAIN, LANE.TX_FIR.C_POST, LANE.TX_FIR.REJECTED]
  | .LANE_RX_CFG => [LANE.RX_CFG.ADAPT_EN, LANE.RX_CFG.FREEZE, LANE.RX_CFG.DFE_EN, LANE.RX_CFG.SEQ_DET_EN, LANE.RX_CFG.CURSOR_POS]
  | .LANE_RX_STATUS => [LANE.RX_STATUS.SIGNAL, LANE.RX_STATUS.CDR_LOCK, LANE.RX_STATUS.ADAPT_DONE, LANE.RX_STATUS.SNR]
  | .LANE_ALIGN_CTRL => [LANE.ALIGN_CTRL.SLIP]
  | .LANE_ALIGN_STATUS => [LANE.ALIGN_STATUS.MATCH_PAIRS, LANE.ALIGN_STATUS.MATCH, LANE.ALIGN_STATUS.RX_ALIGNED, LANE.ALIGN_STATUS.FAR_ALIGNED, LANE.ALIGN_STATUS.DATA, LANE.ALIGN_STATUS.ALIGN_LOST, LANE.ALIGN_STATUS.INVALID_PAIRS]
  | .LANE_IDLE_CFG => [LANE.IDLE_CFG.IDLE_EN, LANE.IDLE_CFG.ENTRY_NS, LANE.IDLE_CFG.RELOCK_CW, LANE.IDLE_CFG.REFRESH_US]
  | .LANE_IDLE_STATUS => [LANE.IDLE_STATUS.TX_IDLE, LANE.IDLE_STATUS.RX_IDLE, LANE.IDLE_STATUS.WAKES]
  | .LANE_ERR => [LANE.ERR.SYM_CORRECTED, LANE.ERR.CW_UNCORR]
  | .LANE_TEST => [LANE.TEST.PATTERN, LANE.TEST.CHECK_EN, LANE.TEST.CHECK_SYNC, LANE.TEST.ERRORS]
  | .PORT_CFG => [PORT.CFG.ENABLE, PORT.CFG.MAX_FRAME, PORT.CFG.DOWN_DEBOUNCE_US, PORT.CFG.UP_DEBOUNCE_US]
  | .PORT_STATUS => [PORT.STATUS.READY, PORT.STATUS.LINK_UP, PORT.STATUS.LOCAL_FAULT, PORT.STATUS.REMOTE_FAULT, PORT.STATUS.DESKEW_OK, PORT.STATUS.RX_IDLE, PORT.STATUS.LINK_DOWN_SEEN, PORT.STATUS.LINK_UP_SEEN, PORT.STATUS.FLAPS]
  | .PORT_INFO => [PORT.INFO.RATE, PORT.INFO.LANE_MODE, PORT.INFO.LANES, PORT.INFO.TROUPE]
  | .PORT_SA => [PORT.SA.ADDR]
  | .PORT_PFC_CFG => [PORT.PFC_CFG.LOSSLESS, PORT.PFC_CFG.TX_EN, PORT.PFC_CFG.RX_EN, PORT.PFC_CFG.DSCP_MAP_EN, PORT.PFC_CFG.DEFAULT_PRIO, PORT.PFC_CFG.QUANTA, PORT.PFC_CFG.REFRESH_QUANTA, PORT.PFC_CFG.WD_MS]
  | .PORT_PFC_STATUS => [PORT.PFC_STATUS.TX_PAUSING, PORT.PFC_STATUS.RX_PAUSED, PORT.PFC_STATUS.WD_PRIOS]
  | .PORT_TS_CFG => [PORT.TS_CFG.RX_CORR_PS, PORT.TS_CFG.TX_CORR_PS]
  | .PORT_TS_INFO => [PORT.TS_INFO.RX_FIXED_PS, PORT.TS_INFO.TX_FIXED_PS]
  | .PORT_DSCP_MAP => [PORT.DSCP_MAP.PRIO_0, PORT.DSCP_MAP.PRIO_1, PORT.DSCP_MAP.PRIO_2, PORT.DSCP_MAP.PRIO_3, PORT.DSCP_MAP.PRIO_4, PORT.DSCP_MAP.PRIO_5, PORT.DSCP_MAP.PRIO_6, PORT.DSCP_MAP.PRIO_7, PORT.DSCP_MAP.PRIO_8, PORT.DSCP_MAP.PRIO_9, PORT.DSCP_MAP.PRIO_10, PORT.DSCP_MAP.PRIO_11, PORT.DSCP_MAP.PRIO_12, PORT.DSCP_MAP.PRIO_13, PORT.DSCP_MAP.PRIO_14, PORT.DSCP_MAP.PRIO_15]
  | .PORT_EVENT => [PORT.EVENT.LINK_DOWN, PORT.EVENT.LINK_UP, PORT.EVENT.ALIGN_LOST, PORT.EVENT.PFC_WD, PORT.EVENT.FEC_UNCORR]
  | .PORT_EVENT_EN => [PORT.EVENT_EN.LINK_DOWN, PORT.EVENT_EN.LINK_UP, PORT.EVENT_EN.ALIGN_LOST, PORT.EVENT_EN.PFC_WD, PORT.EVENT_EN.FEC_UNCORR]
  | .PORT_COUNTER => [PORT.COUNTER.COUNT]
  | .PORT_INT_CAUSE => [PORT.INT_CAUSE.PORTS]
  | .MOD_CFG => [ MOD.CFG.BUS_MODE, MOD.CFG.AUTH_REQUIRED, MOD.CFG.APPLY_TAPS, MOD.CFG.LIFE_SAMPLE_S, MOD.CFG.DEFAULT_LIFE_KH, MOD.CFG.WARN_PCT, MOD.CFG.RETIRE_PCT]
  | .MOD_CHAIN_STATUS => [ MOD.CHAIN_STATUS.CHAIN_FAULT, MOD.CHAIN_STATUS.FRAME_ERRORS]
  | .MOD_BUS_STATUS => [ MOD.BUS_STATUS.MODE, MOD.BUS_STATUS.ERRORS]
  | .MOD_CMD => [ MOD.CMD.CAGE, MOD.CMD.PAGE, MOD.CMD.BANK, MOD.CMD.OFFSET, MOD.CMD.LEN, MOD.CMD.WRITE, MOD.CMD.GO, MOD.CMD.BUSY, MOD.CMD.STATUS]
  | .MOD_CMD_DATA => [ MOD.CMD_DATA.DATA]
  | .MOD_INT_CAUSE => [ MOD.INT_CAUSE.INSERT, MOD.INT_CAUSE.REMOVE, MOD.INT_CAUSE.MODULE_INT, MOD.INT_CAUSE.LIFE, MOD.INT_CAUSE.FAULT, MOD.INT_CAUSE.CHAIN]
  | .MOD_INT_EN => [ MOD.INT_EN.INSERT, MOD.INT_EN.REMOVE, MOD.INT_EN.MODULE_INT, MOD.INT_EN.LIFE, MOD.INT_EN.FAULT, MOD.INT_EN.CHAIN]
  | .MOD_CAGE_CTRL => [ MOD.CAGE_CTRL.HOLD_LOW_POWER, MOD.CAGE_CTRL.HOST_OWNED]
  | .MOD_CAGE_STATUS => [ MOD.CAGE_STATUS.STATE, MOD.CAGE_STATUS.PRESENT, MOD.CAGE_STATUS.PWR_GOOD, MOD.CAGE_STATUS.INT_PENDING, MOD.CAGE_STATUS.AUTH, MOD.CAGE_STATUS.FAULT_CAUSE, MOD.CAGE_STATUS.INSERTIONS]
  | .MOD_IDENT => [ MOD.IDENT.OUI, MOD.IDENT.CMIS_REV, MOD.IDENT.SERIAL_CRC]
  | .MOD_LIFE => [ MOD.LIFE.WORN_H, MOD.LIFE.REMAIN_PCT, MOD.LIFE.RATED_KH, MOD.LIFE.WARN, MOD.LIFE.RETIRE, MOD.LIFE.FROM_ZERO]
  | .PIPE_PROG_INFO => [PIPE.PROG_INFO.PREG_COUNT, PIPE.PROG_INFO.IP_STAGES, PIPE.PROG_INFO.EP_STAGES, PIPE.PROG_INFO.PROG_ID]
  | .PIPE_DEPTH_MAP_CFG => [PIPE.DEPTH_MAP_CFG.UNIT_LOG2, PIPE.DEPTH_MAP_CFG.STALE_PERIODS, PIPE.DEPTH_MAP_CFG.CLASS_MASK]
  | .PIPE_ADAPT_CFG => [PIPE.ADAPT_CFG.CANDIDATES, PIPE.ADAPT_CFG.GAP_US, PIPE.ADAPT_CFG.FLOWLET_FLUSH]
  | .PIPE_DEPTH_MAP_STATUS => [PIPE.DEPTH_MAP_STATUS.STALE_CHOICES, PIPE.DEPTH_MAP_STATUS.MISSED, PIPE.DEPTH_MAP_STATUS.STALE]
  | .PIPE_INT_CAUSE => [PIPE.INT_CAUSE.IFIFO, PIPE.INT_CAUSE.DEPTH_STALE, PIPE.INT_CAUSE.PARSE_REJECT, PIPE.INT_CAUSE.AUX_DROP, PIPE.INT_CAUSE.BOUNDS]
  | .PIPE_INT_EN => [PIPE.INT_EN.IFIFO, PIPE.INT_EN.DEPTH_STALE, PIPE.INT_EN.PARSE_REJECT, PIPE.INT_EN.AUX_DROP, PIPE.INT_EN.BOUNDS]
  | .PIPE_HASH_SEED => [PIPE.HASH_SEED.SEED]
  | .PIPE_DEPTH_MAP => [PIPE.DEPTH_MAP.ENTRY_0, PIPE.DEPTH_MAP.ENTRY_1, PIPE.DEPTH_MAP.ENTRY_2, PIPE.DEPTH_MAP.ENTRY_3, PIPE.DEPTH_MAP.ENTRY_4, PIPE.DEPTH_MAP.ENTRY_5, PIPE.DEPTH_MAP.ENTRY_6, PIPE.DEPTH_MAP.ENTRY_7]
  | .PIPE_IP_CTRL => [PIPE.IP_CTRL.AUX_SHARE, PIPE.IP_CTRL.MAX_PASSES]
  | .PIPE_IP_COUNT => [PIPE.IP_COUNT.WAVEFRONTS, PIPE.IP_COUNT.HEADS]
  | .PIPE_IP_EXC => [PIPE.IP_EXC.PARSE_REJECTS, PIPE.IP_EXC.PARSE_TRUNCS, PIPE.IP_EXC.AUX_DROPS, PIPE.IP_EXC.BOUNDS_DROPS]
  | .PIPE_EP_COUNT => [PIPE.EP_COUNT.WAVEFRONTS, PIPE.EP_COUNT.HEADS]
  | .PIPE_EP_EXC => [PIPE.EP_EXC.PARSE_REJECTS, PIPE.EP_EXC.MTU_DROPS, PIPE.EP_EXC.RECIRCS]
  | .PIPE_MIRROR_CFG => [PIPE.MIRROR_CFG.DEST_QUEUE, PIPE.MIRROR_CFG.ENABLE, PIPE.MIRROR_CFG.EGRESS, PIPE.MIRROR_CFG.ON_DROP, PIPE.MIRROR_CFG.TROUPE, PIPE.MIRROR_CFG.TRUNC_LEN, PIPE.MIRROR_CFG.SAMPLE_LOG2]
  | .PIPE_MIRROR_STATS => [PIPE.MIRROR_STATS.COPIES, PIPE.MIRROR_STATS.REFUSED]
  | .TBL_INFO => [TBL.INFO.TABLES, TBL.INFO.EXACT_TABLES, TBL.INFO.SRAM_TILES, TBL.INFO.TERN_TILES]
  | .TBL_INT_CAUSE => [TBL.INT_CAUSE.CMD_DONE, TBL.INT_CAUSE.REHASH_REQ, TBL.INT_CAUSE.FLAP, TBL.INT_CAUSE.LEARN_DROP, TBL.INT_CAUSE.PROM_DONE, TBL.INT_CAUSE.PROM_MISMATCH, TBL.INT_CAUSE.SKEW, TBL.INT_CAUSE.REPORT_DROP]
  | .TBL_INT_EN => [TBL.INT_EN.CMD_DONE, TBL.INT_EN.REHASH_REQ, TBL.INT_EN.FLAP, TBL.INT_EN.LEARN_DROP, TBL.INT_EN.PROM_DONE, TBL.INT_EN.PROM_MISMATCH, TBL.INT_EN.SKEW, TBL.INT_EN.REPORT_DROP]
  | .TBL_CMD_DONE => [TBL.CMD_DONE.BLOCKS]
  | .TBL_LEARN_CFG => [TBL.LEARN_CFG.FLAP_MOVES, TBL.LEARN_CFG.FLAP_WINDOW_MS, TBL.LEARN_CFG.PIN_HOLD_S, TBL.LEARN_CFG.FLAP_EN, TBL.LEARN_CFG.FILTER_US]
  | .TBL_LEARN_STATUS => [TBL.LEARN_STATUS.FLAP, TBL.LEARN_STATUS.QUEUE_FULL_SEEN, TBL.LEARN_STATUS.QUEUE_FILL]
  | .TBL_LEARN_COUNT => [TBL.LEARN_COUNT.EVENTS, TBL.LEARN_COUNT.MOVES]
  | .TBL_LEARN_DROPS => [TBL.LEARN_DROPS.QUEUE_FULL, TBL.LEARN_DROPS.TABLE_FULL, TBL.LEARN_DROPS.PINNED, TBL.LEARN_DROPS.REFUSED]
  | .TBL_REPORT_DROPS => [TBL.REPORT_DROPS.DROPS]
  | .TBL_SWEEP_STATUS => [TBL.SWEEP_STATUS.PASS_US, TBL.SWEEP_STATUS.PASSES]
  | .TBL_PROM_CTRL => [TBL.PROM_CTRL.TABLE, TBL.PROM_CTRL.TWIN, TBL.PROM_CTRL.GO, TBL.PROM_CTRL.ABORT, TBL.PROM_CTRL.RING, TBL.PROM_CTRL.RECORDS]
  | .TBL_PROM_ADDR => [TBL.PROM_ADDR.ADDR]
  | .TBL_PROM_STATUS => [TBL.PROM_STATUS.STATE, TBL.PROM_STATUS.RECORDS_DONE, TBL.PROM_STATUS.MISMATCHES]
  | .TBL_CMD_CTRL => [TBL.CMD_CTRL.OPCODE, TBL.CMD_CTRL.TABLE, TBL.CMD_CTRL.GO, TBL.CMD_CTRL.BUSY, TBL.CMD_CTRL.STATIC, TBL.CMD_CTRL.TWIN, TBL.CMD_CTRL.INT, TBL.CMD_CTRL.STATUS, TBL.CMD_CTRL.WRITE_WHILE_BUSY, TBL.CMD_CTRL.SKEW, TBL.CMD_CTRL.MOVES, TBL.CMD_CTRL.TROUPE, TBL.CMD_CTRL.WRITES]
  | .TBL_CMD_LOC => [TBL.CMD_LOC.INDEX, TBL.CMD_LOC.STASH, TBL.CMD_LOC.TARGET, TBL.CMD_LOC.PLEN]
  | .TBL_CMD_RESULT => [TBL.CMD_RESULT.INDEX, TBL.CMD_RESULT.STASH, TBL.CMD_RESULT.AGE, TBL.CMD_RESULT.LEARNED, TBL.CMD_RESULT.STATIC, TBL.CMD_RESULT.PINNED, TBL.CMD_RESULT.PLEN]
  | .TBL_CMD_ENTRY => [TBL.CMD_ENTRY.DATA]
  | .TBL_TABLE_INFO => [TBL.TABLE_INFO.KIND, TBL.TABLE_INFO.WIDTH, TBL.TABLE_INFO.TWIN_CARVED, TBL.TABLE_INFO.KEY_BYTES, TBL.TABLE_INFO.TROUPE, TBL.TABLE_INFO.POSITIONS, TBL.TABLE_INFO.RESULT_TABLE]
  | .TBL_STATUS => [TBL.STATUS.READY, TBL.STATUS.REHASH_REQ, TBL.STATUS.FULL_SEEN, TBL.STATUS.NODE_FULL_SEEN, TBL.STATUS.SKEW_SEEN]
  | .TBL_TABLE_CTRL => [TBL.TABLE_CTRL.ACTIVE_TWIN, TBL.TABLE_CTRL.DUAL_WRITE, TBL.TABLE_CTRL.REPORT_RING, TBL.TABLE_CTRL.LEARN_EN, TBL.TABLE_CTRL.LEARN_REPORT, TBL.TABLE_CTRL.MOVE_EN, TBL.TABLE_CTRL.STASH_WARN]
  | .TBL_TABLE_COUNT => [TBL.TABLE_COUNT.ENTRIES, TBL.TABLE_COUNT.STASH_FILL, TBL.TABLE_COUNT.FREE_NODES]
  | .TBL_AGE_CFG => [TBL.AGE_CFG.ACTION, TBL.AGE_CFG.TICK_MS, TBL.AGE_CFG.LIMIT_TICKS]
  | .TBL_TABLE_SEED => [TBL.TABLE_SEED.SEED0, TBL.TABLE_SEED.SEED1]
  | .POL_INFO => [POL.INFO.BOUND]
  | .POL_CFG => [POL.CFG.RATE_KBPS, POL.CFG.CBS_BYTES, POL.CFG.ENABLE, POL.CFG.WIRE_ADJ]
  | .POL_BIND => [POL.BIND.PIPE_MASK, POL.BIND.TROUPE]
  | .POL_TOKENS => [POL.TOKENS.BYTES]
  | .POL_STATS => [POL.STATS.CONFORM, POL.STATS.DROPS]
  | .QM_ADM_PROFILE_A => [QM.ADM_PROFILE_A.MIN_UNITS, QM.ADM_PROFILE_A.ALPHA_LOG2, QM.ADM_PROFILE_A.ECN_EN, QM.ADM_PROFILE_A.NOT_ECT_DROP]
  | .QM_ADM_PROFILE_B => [QM.ADM_PROFILE_B.ECN_MIN_UNITS, QM.ADM_PROFILE_B.ECN_MAX_UNITS, QM.ADM_PROFILE_B.P_MAX]
  | .QM_Q_PROFILE => [QM.Q_PROFILE.PROFILE]
  | .QM_PORT_ADM => [QM.PORT_ADM.ALPHA_LOG2, QM.PORT_ADM.EN]
  | .QM_TROUPE_ADM => [QM.TROUPE_ADM.ALPHA_LOG2, QM.TROUPE_ADM.EN]
  | .QM_PP_ADM => [QM.PP_ADM.MIN_UNITS, QM.PP_ADM.HEADROOM_UNITS, QM.PP_ADM.ALPHA_LOG2, QM.PP_ADM.XON_OFFSET_UNITS]
  | .CELL_ADM_STATUS => [CELL.ADM_STATUS.SHARED_UNITS, CELL.ADM_STATUS.FREE_UNITS]
  | .CELL_ADM_RESERVED => [CELL.ADM_RESERVED.MIN_RESERVED, CELL.ADM_RESERVED.HEADROOM_RESERVED]
  | .CELL_TROUPE_QUOTA => [CELL.TROUPE_QUOTA.QUOTA_UNITS, CELL.TROUPE_QUOTA.USE_UNITS]
  | .CELL_PP_STATUS => [CELL.PP_STATUS.XOFF_ADM, CELL.PP_STATUS.IN_HEADROOM, CELL.PP_STATUS.EXHAUSTED_SEEN]
  | .CELL_INFO => [CELL.INFO.BODY_STEPS, CELL.INFO.BODY_CELLS, CELL.INFO.TAIL_CELLS]
  | .CELL_POOL_STATUS => [CELL.POOL_STATUS.FREE_CELLS, CELL.POOL_STATUS.LOW_WATER]
  | .CELL_RECORD_STATUS => [CELL.RECORD_STATUS.FREE_DESC, CELL.RECORD_STATUS.FREE_TOKENS]
  | .CELL_EXHAUST => [CELL.EXHAUST.POOL_EMPTY, CELL.EXHAUST.QUOTA, CELL.EXHAUST.DESC_EMPTY, CELL.EXHAUST.TOKEN_EMPTY]
  | .CELL_COPY_STATUS => [CELL.COPY_STATUS.COPY_LIMIT, CELL.COPY_STATUS.TAIL_FALLBACK]
  | .CELL_CT_COUNT => [CELL.CT_COUNT.CT_COPIES, CELL.CT_COUNT.CT_BAD]
  | .CELL_BW_STATUS => [CELL.BW_STATUS.BW_TBPS, CELL.BW_STATUS.READ_SHORT_US]
  | .CELL_ECC => [CELL.ECC.DATA_CORR, CELL.ECC.DATA_UNCORR, CELL.ECC.LINK_UNCORR, CELL.ECC.MAP_UNCORR]
  | .CELL_LOST => [CELL.LOST.LOST_CELLS]
  | .CELL_FREE_FAULT => [CELL.FREE_FAULT.COUNT, CELL.FREE_FAULT.FAULT_SEEN, CELL.FREE_FAULT.KIND, CELL.FREE_FAULT.OFFENDER, CELL.FREE_FAULT.OWNER_TAG]
  | .CELL_FREE_FAULT_CELL => [CELL.FREE_FAULT_CELL.CELL]
  | .CELL_INT_CAUSE => [CELL.INT_CAUSE.POOL_EMPTY, CELL.INT_CAUSE.DESC_EMPTY, CELL.INT_CAUSE.TOKEN_EMPTY, CELL.INT_CAUSE.FREE_FAULT, CELL.INT_CAUSE.ECC_UNCORR, CELL.INT_CAUSE.QUOTA]
  | .CELL_INT_EN => [CELL.INT_EN.POOL_EMPTY, CELL.INT_EN.DESC_EMPTY, CELL.INT_EN.TOKEN_EMPTY, CELL.INT_EN.FREE_FAULT, CELL.INT_EN.ECC_UNCORR, CELL.INT_EN.QUOTA]
  | .CELL_LEASE_CTRL => [CELL.LEASE_CTRL.POOL, CELL.LEASE_CTRL.COUNT, CELL.LEASE_CTRL.GO, CELL.LEASE_CTRL.BUSY, CELL.LEASE_CTRL.STATUS, CELL.LEASE_CTRL.FREE_STATUS]
  | .CELL_LEASE_FREE => [CELL.LEASE_FREE.CELL]
  | .CELL_LEASE_RESULT => [CELL.LEASE_RESULT.CELL, CELL.LEASE_RESULT.VALID]
  | .CELL_LEASE_STATUS => [CELL.LEASE_STATUS.LEASED, CELL.LEASE_STATUS.MAX]
  | .QM_INFO => [QM.INFO.QUEUES, QM.INFO.QSHAPERS]
  | .QM_CAL_STATUS => [QM.CAL_STATUS.LATE, QM.CAL_STATUS.OVERFLOW]
  | .QM_INT_CAUSE => [QM.INT_CAUSE.HOLD, QM.INT_CAUSE.FLUSH, QM.INT_CAUSE.RESUME, QM.INT_CAUSE.CAL_LATE]
  | .QM_INT_EN => [QM.INT_EN.HOLD, QM.INT_EN.FLUSH, QM.INT_EN.RESUME, QM.INT_EN.CAL_LATE]
  | .QM_QUERY => [QM.QUERY.QUEUE, QM.QUERY.GO, QM.QUERY.BUSY, QM.QUERY.STATUS]
  | .QM_QUERY_RESULT0 => [QM.QUERY_RESULT0.ONDIE_BYTES, QM.QUERY_RESULT0.SPILLED_KIB]
  | .QM_QUERY_RESULT1 => [QM.QUERY_RESULT1.ENTRIES, QM.QUERY_RESULT1.HEAD_IN_PROGRESS, QM.QUERY_RESULT1.HEAD_SPILLED, QM.QUERY_RESULT1.ELIGIBLE]
  | .QM_PORT_HOLD => [QM.PORT_HOLD.HOLD_US]
  | .QM_PORT_CFG => [QM.PORT_CFG.FLIGHT_KIB]
  | .QM_PORT_STATUS => [QM.PORT_STATUS.STATE, QM.PORT_STATUS.CG_PAUSED, QM.PORT_STATUS.HOLD_LEFT_US, QM.PORT_STATUS.HOLD_SEEN, QM.PORT_STATUS.FLUSH_SEEN]
  | .QM_PORT_FLUSHED => [QM.PORT_FLUSHED.COPIES, QM.PORT_FLUSHED.RESUMES]
  | .QM_PORT_SHAPER => [QM.PORT_SHAPER.RATE_KBPS, QM.PORT_SHAPER.BURST_BYTES, QM.PORT_SHAPER.EN, QM.PORT_SHAPER.ADJ_BYTES]
  | .QM_CG_SHAPER => [QM.CG_SHAPER.RATE_KBPS, QM.CG_SHAPER.BURST_BYTES, QM.CG_SHAPER.EN, QM.CG_SHAPER.ADJ_BYTES]
  | .QM_QSHAPER => [QM.QSHAPER.RATE_KBPS, QM.QSHAPER.BURST_BYTES, QM.QSHAPER.EN, QM.QSHAPER.ADJ_BYTES]
  | .QM_PORT_SHAPER_STATE => [QM.PORT_SHAPER_STATE.TOKENS, QM.PORT_SHAPER_STATE.BLOCKING, QM.PORT_SHAPER_STATE.FROZEN, QM.PORT_SHAPER_STATE.WHEEL, QM.PORT_SHAPER_STATE.BOUND, QM.PORT_SHAPER_STATE.QUEUE]
  | .QM_CG_SHAPER_STATE => [QM.CG_SHAPER_STATE.TOKENS, QM.CG_SHAPER_STATE.BLOCKING, QM.CG_SHAPER_STATE.FROZEN, QM.CG_SHAPER_STATE.WHEEL, QM.CG_SHAPER_STATE.BOUND, QM.CG_SHAPER_STATE.QUEUE]
  | .QM_QSHAPER_STATE => [QM.QSHAPER_STATE.TOKENS, QM.QSHAPER_STATE.BLOCKING, QM.QSHAPER_STATE.FROZEN, QM.QSHAPER_STATE.WHEEL, QM.QSHAPER_STATE.BOUND, QM.QSHAPER_STATE.QUEUE]
  | .QM_CG_CFG => [QM.CG_CFG.TIER, QM.CG_CFG.WEIGHT, QM.CG_CFG.PRIO, QM.CG_CFG.FWD_MODE]
  | .QM_CG_STATUS => [QM.CG_STATUS.ELIGIBLE, QM.CG_STATUS.PAUSED, QM.CG_STATUS.WINDOW_HELD, QM.CG_STATUS.PICKS]
  | .QM_Q_WEIGHT => [QM.Q_WEIGHT.WEIGHT_EVEN, QM.Q_WEIGHT.WEIGHT_ODD]
  | .MC_INFO => [MC.INFO.GROUPS, MC.INFO.MEMBERS]
  | .MC_SYNC => [MC.SYNC.REQ, MC.SYNC.DONE]
  | .MC_STATS => [MC.STATS.COPIES, MC.STATS.PRUNED, MC.STATS.PORT_LIMIT]
  | .MC_STATS2 => [MC.STATS2.BOUNDS, MC.STATS2.REJECTED_WRITES]
  | .MC_TROUPE_RANGE => [MC.TROUPE_RANGE.FIRST, MC.TROUPE_RANGE.COUNT]
  | .MC_GROUP => [MC.GROUP.BASE, MC.GROUP.COUNT, MC.GROUP.PRUNE_SRC, MC.GROUP.TROUPE]
  | .MC_MEMBER => [MC.MEMBER.QUEUE, MC.MEMBER.REPL_ID, MC.MEMBER.VALID]
  | .TIME_STATUS => [TIME.STATUS.REF_PRESENT, TIME.STATUS.PLL_LOCK, TIME.STATUS.REF_25M, TIME.STATUS.STATE, TIME.STATUS.LOCK_LOST_SEEN, TIME.STATUS.STEP_SEEN, TIME.STATUS.REF_LOST_SEEN, TIME.STATUS.STEPS]
  | .TIME_NOW_SUB => [TIME.NOW_SUB.FRAC, TIME.NOW_SUB.NS]
  | .TIME_PPS_STAMP_SUB => [TIME.PPS_STAMP_SUB.FRAC, TIME.PPS_STAMP_SUB.NS]
  | .TIME_NOW_SEC => [TIME.NOW_SEC.SEC]
  | .TIME_PPS_STAMP_SEC => [TIME.PPS_STAMP_SEC.SEC]
  | .TIME_RAW_LO => [TIME.RAW_LO.RAW]
  | .TIME_RAW_HI => [TIME.RAW_HI.RAW]
  | .TIME_RATE => [TIME.RATE.RATE]
  | .TIME_STEP_NS => [TIME.STEP_NS.STEP]
  | .TIME_SERVO_CFG => [TIME.SERVO_CFG.EN, TIME.SERVO_CFG.SRC, TIME.SERVO_CFG.KP_SHIFT, TIME.SERVO_CFG.KI_SHIFT, TIME.SERVO_CFG.LOCK_NS, TIME.SERVO_CFG.UNLOCK_NS, TIME.SERVO_CFG.LOCK_COUNT]
  | .TIME_SERVO_CFG2 => [TIME.SERVO_CFG2.STEP_NS, TIME.SERVO_CFG2.TIMEOUT_MS, TIME.SERVO_CFG2.HOLDOVER_S]
  | .TIME_SERVO_OFFSET => [TIME.SERVO_OFFSET.OFFSET]
  | .TIME_SERVO_STATUS => [TIME.SERVO_STATUS.LAST_ERR_NS, TIME.SERVO_STATUS.SAMPLES, TIME.SERVO_STATUS.IGNORED]
  | .TIME_PPS_IN => [TIME.PPS_IN.RISING, TIME.PPS_IN.CORR_NS, TIME.PPS_IN.SEEN, TIME.PPS_IN.MISSED]
  | .TIME_PPS_OUT => [TIME.PPS_OUT.EN, TIME.PPS_OUT.ONLY_LOCKED, TIME.PPS_OUT.CORR_NS, TIME.PPS_OUT.WIDTH_US]
  | .TIME_PTP_STATS => [TIME.PTP_STATS.CORRECTED, TIME.PTP_STATS.SKIPPED, TIME.PTP_STATS.TWO_STEP]
  | .TIME_SYNCE => [TIME.SYNCE.LANE, TIME.SYNCE.EN, TIME.SYNCE.DIV, TIME.SYNCE.SQUELCHED, TIME.SYNCE.SQUELCH_SEEN]
  | .TIME_INT_CAUSE => [TIME.INT_CAUSE.LOCKED, TIME.INT_CAUSE.LOCK_LOST, TIME.INT_CAUSE.STEP, TIME.INT_CAUSE.HOLDOVER, TIME.INT_CAUSE.PPS_MISSED, TIME.INT_CAUSE.REF_LOST, TIME.INT_CAUSE.SYNCE_SQUELCH]
  | .TIME_INT_EN => [TIME.INT_EN.LOCKED, TIME.INT_EN.LOCK_LOST, TIME.INT_EN.STEP, TIME.INT_EN.HOLDOVER, TIME.INT_EN.PPS_MISSED, TIME.INT_EN.REF_LOST, TIME.INT_EN.SYNCE_SQUELCH]
  | .TIME_PTP_PEER => [TIME.PTP_PEER.DELAY]
  | .QM_WIN_CTRL => [QM.WIN_CTRL.GO, QM.WIN_CTRL.NEXT_BANK, QM.WIN_CTRL.PROTECT, QM.WIN_CTRL.FALLBACK, QM.WIN_CTRL.GROW_BYTES, QM.WIN_CTRL.LEAD_NS, QM.WIN_CTRL.GUARD_NS]
  | .QM_WIN_STATUS => [QM.WIN_STATUS.ACTIVE_VALID, QM.WIN_STATUS.ACTIVE_BANK, QM.WIN_STATUS.PENDING, QM.WIN_STATUS.UNSYNCED, QM.WIN_STATUS.SWITCH_SEEN, QM.WIN_STATUS.BAD_BANK, QM.WIN_STATUS.WRITE_REFUSED, QM.WIN_STATUS.MAC_HELD, QM.WIN_STATUS.OVERSIZE]
  | .QM_WIN_BANK => [QM.WIN_BANK.CYCLE_NS, QM.WIN_BANK.ENTRIES]
  | .QM_WIN_BASE_SEC => [QM.WIN_BASE_SEC.SEC]
  | .QM_WIN_BASE_NS => [QM.WIN_BASE_NS.NS]
  | .QM_WIN_GCL => [QM.WIN_GCL.GATES, QM.WIN_GCL.INTERVAL_NS]
  | .TEL_HIST_CFG => [TEL.HIST_CFG.LAT_SHIFT, TEL.HIST_CFG.DEPTH_SHIFT]
  | .TEL_HIST_CTRL => [TEL.HIST_CTRL.PORT, TEL.HIST_CTRL.CG, TEL.HIST_CTRL.KIND, TEL.HIST_CTRL.CLEAR, TEL.HIST_CTRL.GO, TEL.HIST_CTRL.BUSY, TEL.HIST_CTRL.STATUS]
  | .TEL_HIST_BIN => [TEL.HIST_BIN.COUNT]
  | .TEL_FLOW_CFG => [TEL.FLOW_CFG.AGE_EVICT, TEL.FLOW_CFG.EVICT_IDLE_MS, TEL.FLOW_CFG.IDLE_TIMEOUT_S, TEL.FLOW_CFG.ACTIVE_TIMEOUT_S]
  | .TEL_FLOW_CFG2 => [TEL.FLOW_CFG2.QUIET_MS, TEL.FLOW_CFG2.RETRY_US]
  | .TEL_FLOW_STATUS => [TEL.FLOW_STATUS.OVERFLOW, TEL.FLOW_STATUS.OVERFLOW_SEEN, TEL.FLOW_STATUS.APPROX_SEEN, TEL.FLOW_STATUS.LIVE_FLOWS]
  | .TEL_FLOW_COUNT => [TEL.FLOW_COUNT.REFUSALS, TEL.FLOW_COUNT.EPISODES]
  | .TEL_FLOW_COUNT2 => [TEL.FLOW_COUNT2.EVICTED, TEL.FLOW_COUNT2.STALE_FATE]
  | .TEL_FLOW_CAP => [TEL.FLOW_CAP.CAPACITY]
  | .TEL_IPFIX_CFG => [TEL.IPFIX_CFG.PEN, TEL.IPFIX_CFG.UTC_ADJ_S]
  | .TEL_IOAM_STATS => [TEL.IOAM_STATS.WRITTEN, TEL.IOAM_STATS.SKIPPED, TEL.IOAM_STATS.OVERFLOWED]
  | .TEL_KEY_FIELD => [TEL.KEY_FIELD.OFF, TEL.KEY_FIELD.LEN, TEL.KEY_FIELD.IE_ID, TEL.KEY_FIELD.ENTERPRISE]
  | .TEL_IOAM_CFG => [TEL.IOAM_CFG.NODE_ID, TEL.IOAM_CFG.NS_DATA]
  | .TEL_IOAM_CFG2 => [TEL.IOAM_CFG2.NODE_ID_WIDE]
  | .TEL_IOAM_CFG3 => [TEL.IOAM_CFG3.NS_DATA_WIDE]
  | .TEL_INT_CAUSE => [TEL.INT_CAUSE.OVERFLOW, TEL.INT_CAUSE.APPROX, TEL.INT_CAUSE.EXPORT_LOST, TEL.INT_CAUSE.IOAM_SKIP]
  | .TEL_INT_EN => [TEL.INT_EN.OVERFLOW, TEL.INT_EN.APPROX, TEL.INT_EN.EXPORT_LOST, TEL.INT_EN.IOAM_SKIP]
  | .TEL_TROUPE_FLOW => [TEL.TROUPE_FLOW.FLOW_EN, TEL.TROUPE_FLOW.MAX_FLOWS]
  | .TEL_TROUPE_FLOWS => [TEL.TROUPE_FLOWS.LIVE, TEL.TROUPE_FLOWS.REFUSED]
  | .TEL_EXPORT_CFG => [TEL.EXPORT_CFG.EN, TEL.EXPORT_CFG.DEST, TEL.EXPORT_CFG.IPV6, TEL.EXPORT_CFG.QUEUE, TEL.EXPORT_CFG.HDR_LEN, TEL.EXPORT_CFG.IP_OFF, TEL.EXPORT_CFG.UDP_OFF, TEL.EXPORT_CFG.MTU]
  | .TEL_EXPORT_CFG2 => [TEL.EXPORT_CFG2.DOMAIN_ID, TEL.EXPORT_CFG2.TEMPLATE_S, TEL.EXPORT_CFG2.FLUSH_US]
  | .TEL_DROP_CFG => [TEL.DROP_CFG.SAMPLES, TEL.DROP_CFG.INTERVAL_MS, TEL.DROP_CFG.DROP_EXPORT_EN, TEL.DROP_CFG.HEAD_BYTES]
  | .TEL_EXPORT_STATUS => [TEL.EXPORT_STATUS.RECORDS, TEL.EXPORT_STATUS.LOST]
  | .TEL_EXPORT_SEQ => [TEL.EXPORT_SEQ.SEQ]
  | .TEL_EXPORT_HDR => [TEL.EXPORT_HDR.BYTES]
  | .TEL_UNTRACKED => [TEL.UNTRACKED.COUNT]
  | .TEL_DROP_COUNT => [TEL.DROP_COUNT.COUNT]
  | .HBM_INFO => [HBM.INFO.SPILL_STACKS, HBM.INFO.LEDGER_STACKS]
  | .HBM_STATUS => [HBM.STATUS.STATE, HBM.STATUS.TRAIN_ATTEMPTS, HBM.STATUS.LANE_REPAIRS, HBM.STATUS.TEMP_C, HBM.STATUS.FAIL_SEEN]
  | .HBM_ECC => [HBM.ECC.CORRECTED, HBM.ECC.UNCORR, HBM.ECC.STACK_UNCORR, HBM.ECC.SCRUB_FIXED]
  | .HBM_CTRL => [HBM.CTRL.STACK, HBM.CTRL.RETRAIN]
  | .HBM_NRR_CFG => [HBM.NRR_CFG.NRR_LOG2, HBM.NRR_CFG.ISSUED]
  | .HBM_FAIL_CFG => [HBM.FAIL_CFG.FAIL_UNCORR]
  | .HBM_SPILL_CFG => [HBM.SPILL_CFG.RETRY_NS]
  | .HBM_SPILL_STATUS => [HBM.SPILL_STATUS.FREE_BLOCKS, HBM.SPILL_STATUS.LOST_BLOCKS]
  | .HBM_SPILL_COUNT => [HBM.SPILL_COUNT.SPILLED, HBM.SPILL_COUNT.REFILLED]
  | .HBM_SPILL_COUNT2 => [HBM.SPILL_COUNT2.NOT_SPILLED, HBM.SPILL_COUNT2.REFILL_WAITS]
  | .HBM_CAPTURE_CFG => [HBM.CAPTURE_CFG.EN, HBM.CAPTURE_CFG.WRAP, HBM.CAPTURE_CFG.CAP_BYTES, HBM.CAPTURE_CFG.TROUPE, HBM.CAPTURE_CFG.SIZE_GB]
  | .HBM_CAPTURE_STATUS => [HBM.CAPTURE_STATUS.WRITE_OFF, HBM.CAPTURE_STATUS.WRAPS]
  | .HBM_CAPTURE_RELEASE => [HBM.CAPTURE_RELEASE.OFF]
  | .HBM_CAPTURE_COUNT => [HBM.CAPTURE_COUNT.RECORDS, HBM.CAPTURE_COUNT.STALLS]
  | .HBM_COPY_ADDR => [HBM.COPY_ADDR.ADDR]
  | .HBM_COPY_OFF => [HBM.COPY_OFF.OFF]
  | .HBM_COPY_CTRL => [HBM.COPY_CTRL.LEN, HBM.COPY_CTRL.GO, HBM.COPY_CTRL.BUSY, HBM.COPY_CTRL.STATUS, HBM.COPY_CTRL.POISONED]
  | .HBM_LEDGER_STATUS => [HBM.LEDGER_STATUS.WRITEBACKS, HBM.LEDGER_STATUS.UNCORR_ENTRIES]
  | .HBM_INT_CAUSE => [HBM.INT_CAUSE.STACK_READY, HBM.INT_CAUSE.STACK_FAIL, HBM.INT_CAUSE.UNCORR, HBM.INT_CAUSE.SPILL_FULL, HBM.INT_CAUSE.CAPTURE_STALL, HBM.INT_CAUSE.COPY_DONE]
  | .HBM_INT_EN => [HBM.INT_EN.STACK_READY, HBM.INT_EN.STACK_FAIL, HBM.INT_EN.UNCORR, HBM.INT_EN.SPILL_FULL, HBM.INT_EN.CAPTURE_STALL, HBM.INT_EN.COPY_DONE]
  | .HBM_SPILL_PROFILE => [HBM.SPILL_PROFILE.EN, HBM.SPILL_PROFILE.START_KIB, HBM.SPILL_PROFILE.REFILL_KIB]
  | .HBM_TROUPE_SPILL => [HBM.TROUPE_SPILL.QUOTA_BLOCKS, HBM.TROUPE_SPILL.USE_BLOCKS, HBM.TROUPE_SPILL.MD_UNITS]
  | .PACE_CADENCE_SET => [PACE.CADENCE_SET.SETPOINT_MHZ, PACE.CADENCE_SET.MODE]
  | .PACE_STATUS => [PACE.STATUS.EFFECTIVE_MHZ, PACE.STATUS.ACTUAL_MHZ, PACE.STATUS.MODE, PACE.STATUS.RAMPING, PACE.STATUS.DROOP_RESP, PACE.STATUS.THROTTLE_LEVEL, PACE.STATUS.LIMIT]
  | .PACE_COUNT => [PACE.COUNT.SHORT_US, PACE.COUNT.CAD_DROPS, PACE.COUNT.DROOP_EVENTS]
  | .PACE_AVS_CFG => [PACE.AVS_CFG.GUARD_PCT, PACE.AVS_CFG.SLEW_MV_US, PACE.AVS_CFG.SETTLE_US, PACE.AVS_CFG.RAMP_MHZ_US, PACE.AVS_CFG.RECOVER_US]
  | .PACE_DROOP_CFG => [PACE.DROOP_CFG.THRESH_MV, PACE.DROOP_CFG.STEP, PACE.DROOP_CFG.LONG_US]
  | .PACE_DROOP_STATUS => [PACE.DROOP_STATUS.ACTIVE, PACE.DROOP_STATUS.LOWER_BLOCKED, PACE.DROOP_STATUS.LONG_SEEN]
  | .PACE_THERMAL_CFG => [PACE.THERMAL_CFG.THROTTLE1_C, PACE.THERMAL_CFG.THROTTLE2_C, PACE.THERMAL_CFG.HYST_C, PACE.THERMAL_CFG.EXIT_MS]
  | .PACE_THERMAL_STATUS => [PACE.THERMAL_STATUS.HOTTEST_C, PACE.THERMAL_STATUS.HOTTEST_SENSOR, PACE.THERMAL_STATUS.LEVEL, PACE.THERMAL_STATUS.TRIP, PACE.THERMAL_STATUS.LEVEL_SEEN]
  | .PACE_PHASE_CFG => [PACE.PHASE_CFG.EN, PACE.PHASE_CFG.GATE_EN, PACE.PHASE_CFG.BOOST_MV, PACE.PHASE_CFG.MISS_LIMIT]
  | .PACE_PELOTON_CFG => [PACE.PELOTON_CFG.GROUP_ID, PACE.PELOTON_CFG.MEMBER_ID, PACE.PELOTON_CFG.SEND_EN, PACE.PELOTON_CFG.FOLLOW_EN, PACE.PELOTON_CFG.FOLLOW_FLOOR_MHZ, PACE.PELOTON_CFG.ADV_CG, PACE.PELOTON_CFG.ADV_MIN_PCT, PACE.PELOTON_CFG.REFRESH_US]
  | .PACE_ADV_DA => [PACE.ADV_DA.ADDR]
  | .PACE_FREEWHEEL_CFG => [PACE.FREEWHEEL_CFG.IDLE_US, PACE.FREEWHEEL_CFG.IDLE_MV]
  | .PACE_FOLLOW_STATUS => [PACE.FOLLOW_STATUS.FOLLOW_MHZ, PACE.FOLLOW_STATUS.LEADER, PACE.FOLLOW_STATUS.FOLLOWING, PACE.FOLLOW_STATUS.ADV_RX, PACE.FOLLOW_STATUS.ADV_REJECT, PACE.FOLLOW_STATUS.ADV_TX_DROPS]
  | .PACE_ENERGY_CFG => [PACE.ENERGY_CFG.MEAS_MS]
  | .PACE_ADV_LAST => [PACE.ADV_LAST.BYTES]
  | .PACE_ADV_LAST2 => [PACE.ADV_LAST2.BYTES_HI, PACE.ADV_LAST2.PORT, PACE.ADV_LAST2.VIA_HOST]
  | .PACE_ADV_INJECT => [PACE.ADV_INJECT.BYTES]
  | .PACE_ADV_INJECT2 => [PACE.ADV_INJECT2.BYTES_HI]
  | .PACE_INT_CAUSE => [PACE.INT_CAUSE.CAD_DROP, PACE.INT_CAUSE.THROTTLE, PACE.INT_CAUSE.TRIP, PACE.INT_CAUSE.DROOP_LONG, PACE.INT_CAUSE.RAIL_FAULT, PACE.INT_CAUSE.ADV_RX, PACE.INT_CAUSE.FOLLOW, PACE.INT_CAUSE.PHASE_RETIRED]
  | .PACE_INT_EN => [PACE.INT_EN.CAD_DROP, PACE.INT_EN.THROTTLE, PACE.INT_EN.TRIP, PACE.INT_EN.DROOP_LONG, PACE.INT_EN.RAIL_FAULT, PACE.INT_EN.ADV_RX, PACE.INT_EN.FOLLOW, PACE.INT_EN.PHASE_RETIRED]
  | .PACE_ADV_PORTS => [PACE.ADV_PORTS.PORTS]
  | .PACE_DOMAIN_STATUS => [PACE.DOMAIN_STATUS.ACTUAL_MHZ, PACE.DOMAIN_STATUS.CAP_MHZ, PACE.DOMAIN_STATUS.VOLT_MV, PACE.DOMAIN_STATUS.HOT_C, PACE.DOMAIN_STATUS.LAG]
  | .PACE_RAIL_CFG => [PACE.RAIL_CFG.PMBUS_ADDR, PACE.RAIL_CFG.PMBUS_EN, PACE.RAIL_CFG.AVS_SEL, PACE.RAIL_CFG.VMIN_MV, PACE.RAIL_CFG.VMAX_MV]
  | .PACE_RAIL_STATUS => [PACE.RAIL_STATUS.VOUT_MV, PACE.RAIL_STATUS.IOUT_DA, PACE.RAIL_STATUS.POUT_W, PACE.RAIL_STATUS.TEMP_C, PACE.RAIL_STATUS.PMBUS_FAULT, PACE.RAIL_STATUS.AVS_FAULT, PACE.RAIL_STATUS.FAULT_SEEN]
  | .PACE_TEMP => [PACE.TEMP.SENSOR_0, PACE.TEMP.SENSOR_1, PACE.TEMP.SENSOR_2, PACE.TEMP.SENSOR_3, PACE.TEMP.SENSOR_4, PACE.TEMP.SENSOR_5, PACE.TEMP.SENSOR_6, PACE.TEMP.SENSOR_7]
  | .PACE_PHASE_A => [PACE.PHASE_A.PERIOD_NS, PACE.PHASE_A.VALID, PACE.PHASE_A.TIMEBASE]
  | .PACE_PHASE_B => [PACE.PHASE_B.OFFSET_NS, PACE.PHASE_B.LEAD_NS]
  | .PACE_PHASE_C => [PACE.PHASE_C.DURATION_NS]
  | .PACE_PHASE_D => [PACE.PHASE_D.HITS, PACE.PHASE_D.MISSES, PACE.PHASE_D.RETIRED]
  | .PACE_COEF => [PACE.COEF.ENERGY]
  | .PACE_LEAK => [PACE.LEAK.LEAK_MW, PACE.LEAK.LEAK_DT_C]
  | .PACE_ENERGY_TROUPE => [PACE.ENERGY_TROUPE.UJ]
  | .PACE_ENERGY_PIPE => [PACE.ENERGY_PIPE.UJ]
  | .PACE_ENERGY_MEASURED => [PACE.ENERGY_MEASURED.UJ]
  | .PACE_ENERGY_SHARED => [PACE.ENERGY_SHARED.UJ]
  | .PACE_ENERGY_UNATTR => [PACE.ENERGY_UNATTR.UJ]
  | .PACE_ENERGY_PORT => [PACE.ENERGY_PORT.UJ]
  | .TOP_INT_CAUSE => [TOP.INT_CAUSE.READY, TOP.INT_CAUSE.CFG, TOP.INT_CAUSE.SEC, TOP.INT_CAUSE.BBX, TOP.INT_CAUSE.TND, TOP.INT_CAUSE.PACE, TOP.INT_CAUSE.TIME, TOP.INT_CAUSE.HIF, TOP.INT_CAUSE.PORT, TOP.INT_CAUSE.MOD, TOP.INT_CAUSE.PIPE, TOP.INT_CAUSE.TBL, TOP.INT_CAUSE.CELL, TOP.INT_CAUSE.QM, TOP.INT_CAUSE.HBM, TOP.INT_CAUSE.TEL, TOP.INT_CAUSE.LNK]
  | .TOP_INT_MASK => [TOP.INT_MASK.MASK]
  | .TOP_INT_REARM => [TOP.INT_REARM.REARM]
  | .HIF_LINK_STATUS => [HIF.LINK_STATUS.SPEED, HIF.LINK_STATUS.WIDTH, HIF.LINK_STATUS.FLIT, HIF.LINK_STATUS.DOWNGRADED]
  | .HIF_BAD_ACCESS => [HIF.BAD_ACCESS.COUNT, HIF.BAD_ACCESS.LATCHED, HIF.BAD_ACCESS.KIND, HIF.BAD_ACCESS.WRITE]
  | .HIF_BAD_ACCESS_ADDR => [HIF.BAD_ACCESS_ADDR.OFFSET]
  | .HIF_INT_CAUSE => [HIF.INT_CAUSE.RING_ERR, HIF.INT_CAUSE.BAD_ACCESS, HIF.INT_CAUSE.LINK_DOWNGRADE, HIF.INT_CAUSE.TROUPE_DONE, HIF.INT_CAUSE.MSIX_REJECT]
  | .HIF_INT_EN => [HIF.INT_EN.RING_ERR, HIF.INT_EN.BAD_ACCESS, HIF.INT_EN.LINK_DOWNGRADE, HIF.INT_EN.TROUPE_DONE, HIF.INT_EN.MSIX_REJECT]
  | .HIF_MSIX_ALLOC => [HIF.MSIX_ALLOC.BASE, HIF.MSIX_ALLOC.COUNT, HIF.MSIX_ALLOC.REJECTED]
  | .HIF_TROUPE_CTRL => [HIF.TROUPE_CTRL.TROUPE, HIF.TROUPE_CTRL.OP, HIF.TROUPE_CTRL.GO, HIF.TROUPE_CTRL.BUSY, HIF.TROUPE_CTRL.STATUS, HIF.TROUPE_CTRL.KEY]
  | .HIF_TROUPE_STATE => [HIF.TROUPE_STATE.STATE, HIF.TROUPE_STATE.VF_PRESENT, HIF.TROUPE_STATE.BME, HIF.TROUPE_STATE.REMOVALS]
  | .HIF_RX_CFG => [HIF.RX_CFG.EN, HIF.RX_CFG.VECTOR, HIF.RX_CFG.PROFILE, HIF.RX_CFG.COAL_N, HIF.RX_CFG.COAL_US, HIF.RX_CFG.WAIT_US]
  | .HIF_TX_CFG => [HIF.TX_CFG.EN, HIF.TX_CFG.VECTOR, HIF.TX_CFG.PIPE, HIF.TX_CFG.COAL_N, HIF.TX_CFG.COAL_US, HIF.TX_CFG.WAIT_US]
  | .HIF_TLM_CFG => [HIF.TLM_CFG.EN, HIF.TLM_CFG.VECTOR, HIF.TLM_CFG.COAL_N, HIF.TLM_CFG.COAL_US, HIF.TLM_CFG.WAIT_US]
  | .HIF_RPT_CFG => [HIF.RPT_CFG.EN, HIF.RPT_CFG.VECTOR, HIF.RPT_CFG.COAL_N, HIF.RPT_CFG.COAL_US, HIF.RPT_CFG.WAIT_US]
  | .HIF_RX_CQ => [HIF.RX_CQ.SIZE_LOG2, HIF.RX_CQ.BASE]
  | .HIF_TX_RING => [HIF.TX_RING.SIZE_LOG2, HIF.TX_RING.BASE]
  | .HIF_TLM_RING => [HIF.TLM_RING.SIZE_LOG2, HIF.TLM_RING.BASE]
  | .HIF_RPT_RING => [HIF.RPT_RING.SIZE_LOG2, HIF.RPT_RING.BASE]
  | .HIF_RX_CQ_WB => [HIF.RX_CQ_WB.ADDR]
  | .HIF_TX_WB => [HIF.TX_WB.ADDR]
  | .HIF_TLM_WB => [HIF.TLM_WB.ADDR]
  | .HIF_RPT_WB => [HIF.RPT_WB.ADDR]
  | .HIF_RX_CQ_IDX => [HIF.RX_CQ_IDX.PROD, HIF.RX_CQ_IDX.CONS]
  | .HIF_TX_IDX => [HIF.TX_IDX.PROD, HIF.TX_IDX.CONS]
  | .HIF_TLM_IDX => [HIF.TLM_IDX.PROD, HIF.TLM_IDX.CONS]
  | .HIF_RPT_IDX => [HIF.RPT_IDX.PROD, HIF.RPT_IDX.CONS]
  | .HIF_RX_STATUS => [HIF.RX_STATUS.RING, HIF.RX_STATUS.TROUPE, HIF.RX_STATUS.ERR, HIF.RX_STATUS.ERR_CAUSE, HIF.RX_STATUS.COUNT]
  | .HIF_TX_STATUS => [HIF.TX_STATUS.RING, HIF.TX_STATUS.TROUPE, HIF.TX_STATUS.ERR, HIF.TX_STATUS.ERR_CAUSE, HIF.TX_STATUS.COUNT]
  | .HIF_TLM_STATUS => [HIF.TLM_STATUS.RING, HIF.TLM_STATUS.TROUPE, HIF.TLM_STATUS.ERR, HIF.TLM_STATUS.ERR_CAUSE, HIF.TLM_STATUS.COUNT]
  | .HIF_RPT_STATUS => [HIF.RPT_STATUS.RING, HIF.RPT_STATUS.TROUPE, HIF.RPT_STATUS.ERR, HIF.RPT_STATUS.ERR_CAUSE, HIF.RPT_STATUS.COUNT]
  | .HIF_RX_POOL => [HIF.RX_POOL.SIZE_LOG2, HIF.RX_POOL.EN, HIF.RX_POOL.BASE]
  | .HIF_RX_POOL_IDX => [HIF.RX_POOL_IDX.TAIL, HIF.RX_POOL_IDX.HEAD]
  | .HIF_RX_BUF_SIZE => [HIF.RX_BUF_SIZE.UNITS_0, HIF.RX_BUF_SIZE.UNITS_1, HIF.RX_BUF_SIZE.UNITS_2, HIF.RX_BUF_SIZE.UNITS_3]
  | .WIN_STATE => [WIN.STATE.TROUPE, WIN.STATE.STATE, WIN.STATE.READY, WIN.STATE.PKG_POWER_W]
  | .WIN_INT_CAUSE => [WIN.INT_CAUSE.COMMIT_DONE, WIN.INT_CAUSE.COMMIT_REFUSED, WIN.INT_CAUSE.PAIR_DISCARD, WIN.INT_CAUSE.CMD_DONE, WIN.INT_CAUSE.RING_ERR, WIN.INT_CAUSE.STATE, WIN.INT_CAUSE.BAD_ACCESS, WIN.INT_CAUSE.FREE_FAULT, WIN.INT_CAUSE.EXPORT_LOST]
  | .WIN_INT_EN => [WIN.INT_EN.COMMIT_DONE, WIN.INT_EN.COMMIT_REFUSED, WIN.INT_EN.PAIR_DISCARD, WIN.INT_EN.CMD_DONE, WIN.INT_EN.RING_ERR, WIN.INT_EN.STATE, WIN.INT_EN.BAD_ACCESS, WIN.INT_EN.FREE_FAULT, WIN.INT_EN.EXPORT_LOST]
  | .WIN_CMD_DONE => [WIN.CMD_DONE.BLOCKS]
  | .WIN_COMMIT => [WIN.COMMIT.GO, WIN.COMMIT.DEFER_WINDOWED]
  | .WIN_RES0 => [WIN.RES0.POL_FIRST, WIN.RES0.POL_COUNT]
  | .WIN_RES1 => [WIN.RES1.PORTS, WIN.RES1.RX_RINGS, WIN.RES1.TX_RINGS, WIN.RES1.RPT_RINGS, WIN.RES1.CMD_BLOCKS, WIN.RES1.CAPTURE]
  | .WIN_PORT_MAP => [WIN.PORT_MAP.PORT, WIN.PORT_MAP.VALID]
  | .TND_STATUS => [TND.STATUS.ACTIVE_W, TND.STATUS.SOLE, TND.STATUS.CMD_SEQ]
  | .TND_WARDEN => [TND.WARDEN.STATE, TND.WARDEN.RESIGN_CAUSE, TND.WARDEN.RESIGNATIONS, TND.WARDEN.FW_VERSION]
  | .TND_CFG => [TND.CFG.SELFTEST_MS, TND.CFG.ELIM_WINDOW_US, TND.CFG.AUTO_RESTART, TND.CFG.RESTART_HOLD_S]
  | .TND_CTRL => [TND.CTRL.WARDEN, TND.CTRL.OP, TND.CTRL.GO, TND.CTRL.KEY, TND.CTRL.STATUS]
  | .TND_ELIM_COUNT => [TND.ELIM_COUNT.DIVERGENCES, TND.ELIM_COUNT.MISSING, TND.ELIM_COUNT.STALE]
  | .TND_DIVERGE_INFO => [TND.DIVERGE_INFO.ELIMINATOR, TND.DIVERGE_INFO.PARTNER_GONE, TND.DIVERGE_INFO.SEQ]
  | .TND_INPUT_STATUS => [TND.INPUT_STATUS.LAG, TND.INPUT_STATUS.COALESCED]
  | .TND_MBX_CTRL => [TND.MBX_CTRL.DOORBELL, TND.MBX_CTRL.BUSY, TND.MBX_CTRL.REPLY_SEEN, TND.MBX_CTRL.TIMED_OUT]
  | .TND_DIVERGE_DIGEST => [TND.DIVERGE_DIGEST.DIGEST]
  | .TND_MBX_REQ => [TND.MBX_REQ.BYTES]
  | .TND_MBX_REPLY => [TND.MBX_REPLY.BYTES]
  | .TND_INT_CAUSE => [TND.INT_CAUSE.RESIGN, TND.INT_CAUSE.TAKEOVER, TND.INT_CAUSE.DIVERGE, TND.INT_CAUSE.MISSING, TND.INT_CAUSE.STANDBY_READY, TND.INT_CAUSE.MBX_REPLY, TND.INT_CAUSE.FAILED]
  | .TND_INT_EN => [TND.INT_EN.RESIGN, TND.INT_EN.TAKEOVER, TND.INT_EN.DIVERGE, TND.INT_EN.MISSING, TND.INT_EN.STANDBY_READY, TND.INT_EN.MBX_REPLY, TND.INT_EN.FAILED]
  | .BBX_STATUS => [BBX.STATUS.NEWEST_SEQ, BBX.STATUS.PINNED_USED, BBX.STATUS.PINNED_FULL, BBX.STATUS.SCANNED]
  | .BBX_STATUS2 => [BBX.STATUS2.OLDEST_SEQ, BBX.STATUS2.BREAKS]
  | .BBX_LOSS => [BBX.LOSS.LOST, BBX.LOSS.QUEUE_FILL]
  | .BBX_READ_CTRL => [BBX.READ_CTRL.COUNT, BBX.READ_CTRL.GO, BBX.READ_CTRL.BUSY, BBX.READ_CTRL.STATUS]
  | .BBX_READ_FIRST => [BBX.READ_FIRST.SEQ]
  | .BBX_READ_ADDR => [BBX.READ_ADDR.ADDR]
  | .BBX_NONCE => [BBX.NONCE.BYTES]
  | .BBX_HOST_NOTE => [BBX.HOST_NOTE.BYTES]
  | .BBX_HOST_NOTE_CTRL => [BBX.HOST_NOTE_CTRL.GO, BBX.HOST_NOTE_CTRL.REFUSED]
  | .BBX_INT_CAUSE => [BBX.INT_CAUSE.READ_DONE, BBX.INT_CAUSE.LOSS, BBX.INT_CAUSE.PINNED_FULL, BBX.INT_CAUSE.CHAIN_BREAK]
  | .BBX_INT_EN => [BBX.INT_EN.READ_DONE, BBX.INT_EN.LOSS, BBX.INT_EN.PINNED_FULL, BBX.INT_EN.CHAIN_BREAK]
  | .SEC_UNIT_ID_LO => [SEC.UNIT_ID_LO.ID]
  | .SEC_UNIT_ID_HI => [SEC.UNIT_ID_HI.ID]
  | .SEC_STATUS => [SEC.STATUS.ALIAS_VALID, SEC.STATUS.DERIVING, SEC.STATUS.SVN, SEC.STATUS.VENDOR_REVOKED, SEC.STATUS.ALIAS_EPOCH]
  | .SEC_OWNER_SLOT => [SEC.OWNER_SLOT.PROVISIONED, SEC.OWNER_SLOT.REVOKED]
  | .SEC_OWNER_HASH => [SEC.OWNER_HASH.BYTES]
  | .SEC_KEY_CTRL => [SEC.KEY_CTRL.GO, SEC.KEY_CTRL.BUSY, SEC.KEY_CTRL.STATUS, SEC.KEY_CTRL.KEY]
  | .SEC_KEY_BUF => [SEC.KEY_BUF.BYTES]
  | .SEC_FW_CTRL => [SEC.FW_CTRL.LOAD, SEC.FW_CTRL.COMMIT_SVN, SEC.FW_CTRL.KEY]
  | .SEC_FW_ADDR => [SEC.FW_ADDR.ADDR]
  | .SEC_FW_STATUS => [SEC.FW_STATUS.STATE, SEC.FW_STATUS.PENDING_VALID, SEC.FW_STATUS.CAUSE, SEC.FW_STATUS.PENDING_VERSION]
  | .SEC_FW_BOOT => [SEC.FW_BOOT.PREFERRED, SEC.FW_BOOT.LAST_SLOT, SEC.FW_BOOT.RUNNING_VERSION]
  | .SEC_INT_CAUSE => [SEC.INT_CAUSE.KEY_DONE, SEC.INT_CAUSE.FW_DONE, SEC.INT_CAUSE.FW_REJECT, SEC.INT_CAUSE.ALIAS_CHANGED]
  | .SEC_INT_EN => [SEC.INT_EN.KEY_DONE, SEC.INT_EN.FW_DONE, SEC.INT_EN.FW_REJECT, SEC.INT_EN.ALIAS_CHANGED]
  | .TOP_MON_STATUS => [TOP.MON_STATUS.ACTIVE, TOP.MON_STATUS.SEEN]
  | .TOP_MON_READING => [TOP.MON_READING.READING, TOP.MON_READING.TRIPS]
  | .PIPE_PROG_REG => [PIPE.PROG_REG.VALUE]

/-- How many instances a register has, the 64 functions counted where each function has its own copy (R518). -/
def Reg.count : Reg → Nat
  | .LNK_LINK_STATUS => 64
  | .LNK_LINK_ERRORS => 64
  | .LNK_DIE_STATUS => 4
  | .PIPE_IFIFO_CFG => 16
  | .PIPE_IFIFO_STATUS => 16
  | .PIPE_IFIFO_DROPS => 16
  | .CFG_COMMIT_STATUS => 64
  | .CFG_VIEW => 64
  | .CFG_PAIR_STATUS => 64
  | .CFG_PAIR_DISCARD => 64
  | .CFG_PAIR_DISCARD_VALUE => 64
  | .CFG_TROUPE_SERIAL => 64
  | .LANE_CFG => 512
  | .LANE_TX_FIR => 512
  | .LANE_RX_CFG => 512
  | .LANE_RX_STATUS => 512
  | .LANE_ALIGN_CTRL => 512
  | .LANE_ALIGN_STATUS => 512
  | .LANE_IDLE_CFG => 512
  | .LANE_IDLE_STATUS => 512
  | .LANE_ERR => 512
  | .LANE_TEST => 512
  | .PORT_CFG => 512
  | .PORT_STATUS => 512
  | .PORT_INFO => 512
  | .PORT_SA => 512
  | .PORT_PFC_CFG => 512
  | .PORT_PFC_STATUS => 512
  | .PORT_TS_CFG => 512
  | .PORT_TS_INFO => 512
  | .PORT_DSCP_MAP => 2048
  | .PORT_EVENT => 512
  | .PORT_EVENT_EN => 512
  | .PORT_COUNTER => 10240
  | .PORT_INT_CAUSE => 8
  | .MOD_CHAIN_STATUS => 2
  | .MOD_BUS_STATUS => 8
  | .MOD_CAGE_CTRL => 64
  | .MOD_CAGE_STATUS => 64
  | .MOD_IDENT => 64
  | .MOD_LIFE => 64
  | .PIPE_DEPTH_MAP_STATUS => 4
  | .PIPE_HASH_SEED => 64
  | .PIPE_DEPTH_MAP => 64
  | .PIPE_IP_CTRL => 16
  | .PIPE_IP_COUNT => 16
  | .PIPE_IP_EXC => 16
  | .PIPE_EP_COUNT => 16
  | .PIPE_EP_EXC => 16
  | .PIPE_MIRROR_CFG => 64
  | .PIPE_MIRROR_STATS => 64
  | .TBL_CMD_CTRL => 32
  | .TBL_CMD_LOC => 32
  | .TBL_CMD_RESULT => 32
  | .TBL_CMD_ENTRY => 256
  | .TBL_TABLE_INFO => 256
  | .TBL_STATUS => 256
  | .TBL_TABLE_CTRL => 256
  | .TBL_TABLE_COUNT => 256
  | .TBL_AGE_CFG => 256
  | .TBL_TABLE_SEED => 512
  | .POL_CFG => 262144
  | .POL_BIND => 262144
  | .POL_TOKENS => 262144
  | .POL_STATS => 262144
  | .QM_ADM_PROFILE_A => 256
  | .QM_ADM_PROFILE_B => 256
  | .QM_Q_PROFILE => 1048576
  | .QM_PORT_ADM => 512
  | .QM_TROUPE_ADM => 64
  | .QM_PP_ADM => 4096
  | .CELL_TROUPE_QUOTA => 64
  | .CELL_PP_STATUS => 512
  | .CELL_POOL_STATUS => 2
  | .CELL_LEASE_CTRL => 64
  | .CELL_LEASE_FREE => 64
  | .CELL_LEASE_RESULT => 512
  | .CELL_LEASE_STATUS => 64
  | .QM_QUERY => 64
  | .QM_QUERY_RESULT0 => 64
  | .QM_QUERY_RESULT1 => 64
  | .QM_PORT_HOLD => 512
  | .QM_PORT_CFG => 512
  | .QM_PORT_STATUS => 512
  | .QM_PORT_FLUSHED => 512
  | .QM_PORT_SHAPER => 512
  | .QM_CG_SHAPER => 8192
  | .QM_QSHAPER => 131072
  | .QM_PORT_SHAPER_STATE => 512
  | .QM_CG_SHAPER_STATE => 8192
  | .QM_QSHAPER_STATE => 131072
  | .QM_CG_CFG => 8192
  | .QM_CG_STATUS => 8192
  | .QM_Q_WEIGHT => 524288
  | .MC_TROUPE_RANGE => 64
  | .MC_GROUP => 65536
  | .MC_MEMBER => 1048576
  | .TIME_SYNCE => 2
  | .TIME_PTP_PEER => 512
  | .QM_WIN_CTRL => 512
  | .QM_WIN_STATUS => 512
  | .QM_WIN_BANK => 1024
  | .QM_WIN_BASE_SEC => 1024
  | .QM_WIN_BASE_NS => 1024
  | .QM_WIN_GCL => 131072
  | .TEL_HIST_CTRL => 64
  | .TEL_HIST_BIN => 4096
  | .TEL_KEY_FIELD => 16
  | .TEL_TROUPE_FLOW => 64
  | .TEL_TROUPE_FLOWS => 64
  | .TEL_EXPORT_CFG => 64
  | .TEL_EXPORT_CFG2 => 64
  | .TEL_DROP_CFG => 64
  | .TEL_EXPORT_STATUS => 64
  | .TEL_EXPORT_SEQ => 64
  | .TEL_EXPORT_HDR => 512
  | .TEL_UNTRACKED => 3072
  | .TEL_DROP_COUNT => 147456
  | .HBM_STATUS => 2
  | .HBM_ECC => 2
  | .HBM_SPILL_PROFILE => 256
  | .HBM_TROUPE_SPILL => 64
  | .PACE_ADV_PORTS => 8
  | .PACE_DOMAIN_STATUS => 5
  | .PACE_RAIL_CFG => 9
  | .PACE_RAIL_STATUS => 9
  | .PACE_TEMP => 32
  | .PACE_PHASE_A => 16
  | .PACE_PHASE_B => 16
  | .PACE_PHASE_C => 16
  | .PACE_PHASE_D => 16
  | .PACE_COEF => 16
  | .PACE_LEAK => 7
  | .PACE_ENERGY_TROUPE => 64
  | .PACE_ENERGY_PIPE => 32
  | .PACE_ENERGY_MEASURED => 7
  | .PACE_ENERGY_SHARED => 7
  | .PACE_ENERGY_UNATTR => 7
  | .PACE_ENERGY_PORT => 512
  | .TOP_INT_REARM => 64
  | .HIF_BAD_ACCESS => 64
  | .HIF_BAD_ACCESS_ADDR => 64
  | .HIF_MSIX_ALLOC => 64
  | .HIF_TROUPE_STATE => 64
  | .HIF_RX_CFG => 512
  | .HIF_TX_CFG => 512
  | .HIF_TLM_CFG => 64
  | .HIF_RPT_CFG => 32
  | .HIF_RX_CQ => 512
  | .HIF_TX_RING => 512
  | .HIF_TLM_RING => 64
  | .HIF_RPT_RING => 32
  | .HIF_RX_CQ_WB => 512
  | .HIF_TX_WB => 512
  | .HIF_TLM_WB => 64
  | .HIF_RPT_WB => 32
  | .HIF_RX_CQ_IDX => 512
  | .HIF_TX_IDX => 512
  | .HIF_TLM_IDX => 64
  | .HIF_RPT_IDX => 32
  | .HIF_RX_STATUS => 512
  | .HIF_TX_STATUS => 512
  | .HIF_TLM_STATUS => 64
  | .HIF_RPT_STATUS => 32
  | .HIF_RX_POOL => 2048
  | .HIF_RX_POOL_IDX => 2048
  | .HIF_RX_BUF_SIZE => 512
  | .WIN_STATE => 64
  | .WIN_INT_CAUSE => 64
  | .WIN_INT_EN => 64
  | .WIN_CMD_DONE => 64
  | .WIN_COMMIT => 64
  | .WIN_RES0 => 64
  | .WIN_RES1 => 64
  | .WIN_PORT_MAP => 8192
  | .TND_WARDEN => 2
  | .TND_DIVERGE_DIGEST => 2
  | .TND_MBX_REQ => 32
  | .TND_MBX_REPLY => 32
  | .BBX_NONCE => 4
  | .BBX_HOST_NOTE => 4
  | .SEC_OWNER_SLOT => 4
  | .SEC_OWNER_HASH => 24
  | .SEC_KEY_BUF => 26
  | .TOP_MON_READING => 22
  | .PIPE_PROG_REG => 65536
  | _ => 1

/-- The reset value of a register, the same for every instance. -/
def Reg.resetBase : Reg → Nat
  | .LNK_CFG => 0x100010040
  | .PIPE_IFIFO_CFG => 0x101800200
  | .CFG_LOAD_STATUS => 0xFF00000000000000
  | .CFG_BOOT => 0x4
  | .CFG_DRAIN_CFG => 0x107D0
  | .TOP_IDENT => 0x1020481F6B
  | .TOP_BOOT_INFO => 0x100000000
  | .LANE_CFG => 0x1000
  | .LANE_TX_FIR => 0x83404
  | .LANE_RX_CFG => 0x60D
  | .LANE_IDLE_CFG => 0x640C03E800
  | .PORT_CFG => 0x64000A00240000
  | .PORT_PFC_CFG => 0x8000FFFF0000
  | .PORT_TS_INFO => 0x111700001ADB0
  | .MOD_CFG => 0x20A003203C9
  | .MOD_CMD => 0x100000000
  | .PIPE_PROG_INFO => 0x10200000
  | .PIPE_DEPTH_MAP_CFG => 0xFFFF040C
  | .PIPE_ADAPT_CFG => 0x140004
  | .PIPE_DEPTH_MAP => 0xFFFFFFFFFFFFFFFF
  | .PIPE_IP_CTRL => 0x208
  | .TBL_LEARN_CFG => 0x1001000003E804
  | .TBL_TABLE_CTRL => 0x3000400
  | .TBL_AGE_CFG => 0x12C03E80000
  | .QM_ADM_PROFILE_A => 0xD000000
  | .QM_PORT_ADM => 0x10
  | .QM_TROUPE_ADM => 0x11
  | .QM_PP_ADM => 0x100E0000000000
  | .CELL_LEASE_CTRL => 0x2
  | .CELL_LEASE_STATUS => 0x4000000000
  | .QM_PORT_HOLD => 0x3E8
  | .QM_PORT_CFG => 0x20
  | .QM_PORT_STATUS => 0x3
  | .QM_PORT_SHAPER => 0x2800000000000000
  | .QM_CG_SHAPER => 0x2800000000000000
  | .QM_QSHAPER => 0x2800000000000000
  | .QM_CG_CFG => 0x100
  | .QM_Q_WEIGHT => 0x10001
  | .MC_SYNC => 0x2
  | .TIME_SERVO_CFG => 0x803E80064227C
  | .TIME_SERVO_CFG2 => 0x3C0BB8000F4240
  | .TIME_PPS_IN => 0x1
  | .TIME_PPS_OUT => 0x186A000000002
  | .TIME_SYNCE => 0x1440000
  | .QM_WIN_CTRL => 0x1904000
  | .TEL_HIST_CFG => 0x803
  | .TEL_FLOW_CFG => 0x3C000F27100000
  | .TEL_FLOW_CFG2 => 0x6403E8
  | .TEL_FLOW_CAP => 0x40000
  | .TEL_EXPORT_CFG => 0x5DC000000000000
  | .TEL_EXPORT_CFG2 => 0x3E8003C00000000
  | .TEL_DROP_CFG => 0x400003E804
  | .HBM_NRR_CFG => 0x9
  | .HBM_FAIL_CFG => 0x40
  | .HBM_SPILL_CFG => 0x100
  | .HBM_CAPTURE_CFG => 0x202
  | .HBM_COPY_CTRL => 0x1
  | .HBM_SPILL_PROFILE => 0x40000100000
  | .PACE_CADENCE_SET => 0x109D8
  | .PACE_STATUS => 0x100000000
  | .PACE_AVS_CFG => 0x646400020A03
  | .PACE_DROOP_CFG => 0x640228
  | .PACE_THERMAL_CFG => 0xA00035C58
  | .PACE_PHASE_CFG => 0x41403
  | .PACE_PELOTON_CFG => 0x6402007D000000
  | .PACE_FREEWHEEL_CFG => 0x2BC0032
  | .PACE_ENERGY_CFG => 0x1
  | .PACE_RAIL_CFG => 0x35202BC0000
  | .HIF_RX_CFG => 0x3E8001001000000
  | .HIF_TX_CFG => 0x3E8001001000000
  | .HIF_TLM_CFG => 0x3E8001001000000
  | .HIF_RPT_CFG => 0x3E8001001000000
  | .HIF_RX_CQ => 0x6
  | .HIF_TX_RING => 0x6
  | .HIF_TLM_RING => 0x6
  | .HIF_RPT_RING => 0x6
  | .HIF_RX_POOL => 0x6
  | .HIF_RX_BUF_SIZE => 0x4000400040004
  | .TND_CFG => 0xE10000103E80064
  | .BBX_READ_CTRL => 0x1
  | _ => 0

/-- The reset value of instance `i` of a register. The three registers whose tables give a value that depends
on the instance are WIN.STATE (TROUPE reads n), HIF.MSIX_ALLOC (R540) and the rest. The values that the
tables give as Fuses or Image are 0 here (DESIGN CHOICE, log entry 3). -/
def Reg.resetAt (r : Reg) (i : Nat) : Nat :=
  match r with
  | .WIN_STATE => i % 64
  | .HIF_MSIX_ALLOC => msixReset i
  | r => r.resetBase
where
  /-- R540: the PF has vectors 0 to 127 and VF n has 30 vectors from 128 + 30 (n - 1). -/
  msixReset (f : Nat) : Nat :=
    if f = 0 then 128 * 2 ^ 12 else (128 + 30 * (f - 1)) * 2 ^ 0 + 30 * 2 ^ 12

/-- Where a register lies in its block: its offset, and the count and stride of each of its indexes, outermost first. -/
structure Slot where
  reg : Reg
  off : Nat
  dims : List (Nat × Nat)
  bytes : Nat
deriving DecidableEq, Repr

/-- The registers of block LNK and their offsets from its base (chapter 19). -/
def slotsLNK : List Slot :=
  [⟨.LNK_LINK_STATUS, 0x0, [(64, 0x40)], 8⟩,
   ⟨.LNK_LINK_ERRORS, 0x8, [(64, 0x40)], 8⟩,
   ⟨.LNK_CFG, 0x1000, [], 8⟩,
   ⟨.LNK_CTRL, 0x1008, [], 8⟩,
   ⟨.LNK_DIE_STATUS, 0x1100, [(4, 0x8)], 8⟩]

/-- The registers of block PIPE and their offsets from its base (chapter 19). -/
def slotsPIPE : List Slot :=
  [⟨.PIPE_IFIFO_CFG, 0xF0000, [(16, 0x40)], 8⟩,
   ⟨.PIPE_IFIFO_STATUS, 0xF0008, [(16, 0x40)], 8⟩,
   ⟨.PIPE_IFIFO_DROPS, 0xF0010, [(16, 0x40)], 8⟩,
   ⟨.PIPE_PROG_INFO, 0x0, [], 8⟩,
   ⟨.PIPE_DEPTH_MAP_CFG, 0x100, [], 8⟩,
   ⟨.PIPE_ADAPT_CFG, 0x108, [], 8⟩,
   ⟨.PIPE_DEPTH_MAP_STATUS, 0x200, [(4, 0x8)], 8⟩,
   ⟨.PIPE_INT_CAUSE, 0x300, [], 8⟩,
   ⟨.PIPE_INT_EN, 0x308, [], 8⟩,
   ⟨.PIPE_HASH_SEED, 0x400, [(64, 0x8)], 8⟩,
   ⟨.PIPE_DEPTH_MAP, 0x800, [(64, 0x8)], 8⟩,
   ⟨.PIPE_IP_CTRL, 0x10000, [(16, 0x1000)], 8⟩,
   ⟨.PIPE_IP_COUNT, 0x10008, [(16, 0x1000)], 8⟩,
   ⟨.PIPE_IP_EXC, 0x10010, [(16, 0x1000)], 8⟩,
   ⟨.PIPE_EP_COUNT, 0x20000, [(16, 0x1000)], 8⟩,
   ⟨.PIPE_EP_EXC, 0x20008, [(16, 0x1000)], 8⟩,
   ⟨.PIPE_MIRROR_CFG, 0x30000, [(64, 0x10)], 8⟩,
   ⟨.PIPE_MIRROR_STATS, 0x30008, [(64, 0x10)], 8⟩,
   ⟨.PIPE_PROG_REG, 0x100000, [(65536, 0x8)], 8⟩]

/-- The registers of block CFG and their offsets from its base (chapter 19). -/
def slotsCFG : List Slot :=
  [⟨.CFG_LOAD_CTRL, 0x0, [], 8⟩,
   ⟨.CFG_LOAD_ADDR, 0x8, [], 8⟩,
   ⟨.CFG_LOAD_STATUS, 0x10, [], 8⟩,
   ⟨.CFG_IMAGE_INFO, 0x18, [], 8⟩,
   ⟨.CFG_IMAGE_MODE, 0x20, [], 8⟩,
   ⟨.CFG_BOOT, 0x28, [], 8⟩,
   ⟨.CFG_SERIAL_FLOOR, 0x30, [], 8⟩,
   ⟨.CFG_COMMIT, 0x100, [], 8⟩,
   ⟨.CFG_EPOCH, 0x110, [], 8⟩,
   ⟨.CFG_DRAIN_STATUS, 0x118, [], 8⟩,
   ⟨.CFG_DRAIN_CFG, 0x120, [], 8⟩,
   ⟨.CFG_COMMIT_STATUS, 0x108, [], 8⟩,
   ⟨.CFG_VIEW, 0x128, [], 8⟩,
   ⟨.CFG_PAIR_STATUS, 0x200, [], 8⟩,
   ⟨.CFG_PAIR_DISCARD, 0x208, [], 8⟩,
   ⟨.CFG_PAIR_DISCARD_VALUE, 0x210, [], 8⟩,
   ⟨.CFG_INT_CAUSE, 0x300, [], 8⟩,
   ⟨.CFG_INT_EN, 0x308, [], 8⟩,
   ⟨.CFG_TROUPE_SERIAL, 0x400, [(64, 0x8)], 8⟩]

/-- The registers of block TOP and their offsets from its base (chapter 19). -/
def slotsTOP : List Slot :=
  [⟨.TOP_IDENT, 0x0, [], 8⟩,
   ⟨.TOP_BOOT_INFO, 0x28, [], 8⟩,
   ⟨.TOP_RESET_CTRL, 0x30, [], 8⟩,
   ⟨.TOP_READY, 0x8, [], 8⟩,
   ⟨.TOP_READY_CHANGE, 0x10, [], 8⟩,
   ⟨.TOP_READY_INT_EN, 0x18, [], 8⟩,
   ⟨.TOP_TROUPE_READY, 0x20, [], 8⟩,
   ⟨.TOP_INT_CAUSE, 0x40, [], 8⟩,
   ⟨.TOP_INT_MASK, 0x48, [], 8⟩,
   ⟨.TOP_INT_REARM, 0x50, [], 8⟩,
   ⟨.TOP_MON_STATUS, 0x60, [], 8⟩,
   ⟨.TOP_MON_READING, 0x100, [(22, 0x8)], 8⟩]

/-- The registers of block LANE and their offsets from its base (chapter 19). -/
def slotsLANE : List Slot :=
  [⟨.LANE_CFG, 0x0, [(512, 0x1000)], 8⟩,
   ⟨.LANE_TX_FIR, 0x8, [(512, 0x1000)], 8⟩,
   ⟨.LANE_RX_CFG, 0x10, [(512, 0x1000)], 8⟩,
   ⟨.LANE_RX_STATUS, 0x18, [(512, 0x1000)], 8⟩,
   ⟨.LANE_ALIGN_CTRL, 0x20, [(512, 0x1000)], 8⟩,
   ⟨.LANE_ALIGN_STATUS, 0x28, [(512, 0x1000)], 8⟩,
   ⟨.LANE_IDLE_CFG, 0x30, [(512, 0x1000)], 8⟩,
   ⟨.LANE_IDLE_STATUS, 0x38, [(512, 0x1000)], 8⟩,
   ⟨.LANE_ERR, 0x40, [(512, 0x1000)], 8⟩,
   ⟨.LANE_TEST, 0x48, [(512, 0x1000)], 8⟩]

/-- The registers of block PORT and their offsets from its base (chapter 19). -/
def slotsPORT : List Slot :=
  [⟨.PORT_CFG, 0x0, [(512, 0x1000)], 8⟩,
   ⟨.PORT_STATUS, 0x8, [(512, 0x1000)], 8⟩,
   ⟨.PORT_INFO, 0x10, [(512, 0x1000)], 8⟩,
   ⟨.PORT_SA, 0x18, [(512, 0x1000)], 8⟩,
   ⟨.PORT_PFC_CFG, 0x20, [(512, 0x1000)], 8⟩,
   ⟨.PORT_PFC_STATUS, 0x28, [(512, 0x1000)], 8⟩,
   ⟨.PORT_TS_CFG, 0x50, [(512, 0x1000)], 8⟩,
   ⟨.PORT_TS_INFO, 0x58, [(512, 0x1000)], 8⟩,
   ⟨.PORT_DSCP_MAP, 0x30, [(512, 0x1000), (4, 0x8)], 8⟩,
   ⟨.PORT_EVENT, 0x60, [(512, 0x1000)], 8⟩,
   ⟨.PORT_EVENT_EN, 0x68, [(512, 0x1000)], 8⟩,
   ⟨.PORT_COUNTER, 0x100, [(512, 0x1000), (20, 0x8)], 8⟩,
   ⟨.PORT_INT_CAUSE, 0x200000, [(8, 0x8)], 8⟩]

/-- The registers of block MOD and their offsets from its base (chapter 19). -/
def slotsMOD : List Slot :=
  [⟨.MOD_CFG, 0x0, [], 8⟩,
   ⟨.MOD_CHAIN_STATUS, 0x100, [(2, 0x8)], 8⟩,
   ⟨.MOD_BUS_STATUS, 0x200, [(8, 0x8)], 8⟩,
   ⟨.MOD_CMD, 0x300, [], 8⟩,
   ⟨.MOD_CMD_DATA, 0x308, [], 8⟩,
   ⟨.MOD_INT_CAUSE, 0x400, [], 8⟩,
   ⟨.MOD_INT_EN, 0x408, [], 8⟩,
   ⟨.MOD_CAGE_CTRL, 0x10000, [(64, 0x40)], 8⟩,
   ⟨.MOD_CAGE_STATUS, 0x10008, [(64, 0x40)], 8⟩,
   ⟨.MOD_IDENT, 0x10010, [(64, 0x40)], 8⟩,
   ⟨.MOD_LIFE, 0x10018, [(64, 0x40)], 8⟩]

/-- The registers of block TBL and their offsets from its base (chapter 19). -/
def slotsTBL : List Slot :=
  [⟨.TBL_INFO, 0x0, [], 8⟩,
   ⟨.TBL_INT_CAUSE, 0x100, [], 8⟩,
   ⟨.TBL_INT_EN, 0x108, [], 8⟩,
   ⟨.TBL_CMD_DONE, 0x110, [], 8⟩,
   ⟨.TBL_LEARN_CFG, 0x200, [], 8⟩,
   ⟨.TBL_LEARN_STATUS, 0x208, [], 8⟩,
   ⟨.TBL_LEARN_COUNT, 0x210, [], 8⟩,
   ⟨.TBL_LEARN_DROPS, 0x218, [], 8⟩,
   ⟨.TBL_REPORT_DROPS, 0x220, [], 8⟩,
   ⟨.TBL_SWEEP_STATUS, 0x228, [], 8⟩,
   ⟨.TBL_PROM_CTRL, 0x300, [], 8⟩,
   ⟨.TBL_PROM_ADDR, 0x308, [], 8⟩,
   ⟨.TBL_PROM_STATUS, 0x310, [], 8⟩,
   ⟨.TBL_CMD_CTRL, 0x10000, [(32, 0x100)], 8⟩,
   ⟨.TBL_CMD_LOC, 0x10008, [(32, 0x100)], 8⟩,
   ⟨.TBL_CMD_RESULT, 0x10010, [(32, 0x100)], 8⟩,
   ⟨.TBL_CMD_ENTRY, 0x10040, [(32, 0x100), (8, 0x8)], 8⟩,
   ⟨.TBL_TABLE_INFO, 0x20000, [(256, 0x80)], 8⟩,
   ⟨.TBL_STATUS, 0x20008, [(256, 0x80)], 8⟩,
   ⟨.TBL_TABLE_CTRL, 0x20010, [(256, 0x80)], 8⟩,
   ⟨.TBL_TABLE_COUNT, 0x20018, [(256, 0x80)], 8⟩,
   ⟨.TBL_AGE_CFG, 0x20030, [(256, 0x80)], 8⟩,
   ⟨.TBL_TABLE_SEED, 0x20020, [(256, 0x80), (2, 0x8)], 8⟩]

/-- The registers of block POL and their offsets from its base (chapter 19). -/
def slotsPOL : List Slot :=
  [⟨.POL_INFO, 0x0, [], 8⟩,
   ⟨.POL_CFG, 0x100000, [(262144, 0x20)], 8⟩,
   ⟨.POL_BIND, 0x100008, [(262144, 0x20)], 8⟩,
   ⟨.POL_TOKENS, 0x100010, [(262144, 0x20)], 8⟩,
   ⟨.POL_STATS, 0x100018, [(262144, 0x20)], 8⟩]

/-- The registers of block QM and their offsets from its base (chapter 19). -/
def slotsQM : List Slot :=
  [⟨.QM_ADM_PROFILE_A, 0x10000, [(256, 0x10)], 8⟩,
   ⟨.QM_ADM_PROFILE_B, 0x10008, [(256, 0x10)], 8⟩,
   ⟨.QM_Q_PROFILE, 0x800000, [(1048576, 0x8)], 8⟩,
   ⟨.QM_PORT_ADM, 0x20000, [(512, 0x8)], 8⟩,
   ⟨.QM_TROUPE_ADM, 0x30000, [(64, 0x8)], 8⟩,
   ⟨.QM_PP_ADM, 0x40000, [(512, 0x40), (8, 0x8)], 8⟩,
   ⟨.QM_INFO, 0x0, [], 8⟩,
   ⟨.QM_CAL_STATUS, 0x8, [], 8⟩,
   ⟨.QM_INT_CAUSE, 0x100, [], 8⟩,
   ⟨.QM_INT_EN, 0x108, [], 8⟩,
   ⟨.QM_QUERY, 0x200, [], 8⟩,
   ⟨.QM_QUERY_RESULT0, 0x208, [], 8⟩,
   ⟨.QM_QUERY_RESULT1, 0x210, [], 8⟩,
   ⟨.QM_PORT_HOLD, 0x50000, [(512, 0x40)], 8⟩,
   ⟨.QM_PORT_CFG, 0x50008, [(512, 0x40)], 8⟩,
   ⟨.QM_PORT_STATUS, 0x50010, [(512, 0x40)], 8⟩,
   ⟨.QM_PORT_FLUSHED, 0x50018, [(512, 0x40)], 8⟩,
   ⟨.QM_PORT_SHAPER, 0x50020, [(512, 0x40)], 8⟩,
   ⟨.QM_CG_SHAPER, 0x60008, [(8192, 0x20)], 8⟩,
   ⟨.QM_QSHAPER, 0x200000, [(131072, 0x10)], 8⟩,
   ⟨.QM_PORT_SHAPER_STATE, 0x50028, [(512, 0x40)], 8⟩,
   ⟨.QM_CG_SHAPER_STATE, 0x60010, [(8192, 0x20)], 8⟩,
   ⟨.QM_QSHAPER_STATE, 0x200008, [(131072, 0x10)], 8⟩,
   ⟨.QM_CG_CFG, 0x60000, [(8192, 0x20)], 8⟩,
   ⟨.QM_CG_STATUS, 0x60018, [(8192, 0x20)], 8⟩] ++
  [⟨.QM_Q_WEIGHT, 0x400000, [(524288, 0x8)], 8⟩,
   ⟨.QM_WIN_CTRL, 0x50030, [(512, 0x40)], 8⟩,
   ⟨.QM_WIN_STATUS, 0x50038, [(512, 0x40)], 8⟩,
   ⟨.QM_WIN_BANK, 0xC0000, [(512, 0x40), (2, 0x20)], 8⟩,
   ⟨.QM_WIN_BASE_SEC, 0xC0008, [(512, 0x40), (2, 0x20)], 8⟩,
   ⟨.QM_WIN_BASE_NS, 0xC0010, [(512, 0x40), (2, 0x20)], 8⟩,
   ⟨.QM_WIN_GCL, 0x100000, [(512, 0x800), (2, 0x400), (128, 0x8)], 8⟩]

/-- The registers of block CELL and their offsets from its base (chapter 19). -/
def slotsCELL : List Slot :=
  [⟨.CELL_ADM_STATUS, 0x100, [], 8⟩,
   ⟨.CELL_ADM_RESERVED, 0x108, [], 8⟩,
   ⟨.CELL_TROUPE_QUOTA, 0x200, [(64, 0x8)], 8⟩,
   ⟨.CELL_PP_STATUS, 0x10000, [(512, 0x8)], 8⟩,
   ⟨.CELL_INFO, 0x0, [], 8⟩,
   ⟨.CELL_POOL_STATUS, 0x10, [(2, 0x8)], 8⟩,
   ⟨.CELL_RECORD_STATUS, 0x20, [], 8⟩,
   ⟨.CELL_EXHAUST, 0x28, [], 8⟩,
   ⟨.CELL_COPY_STATUS, 0x30, [], 8⟩,
   ⟨.CELL_CT_COUNT, 0x38, [], 8⟩,
   ⟨.CELL_BW_STATUS, 0x40, [], 8⟩,
   ⟨.CELL_ECC, 0x48, [], 8⟩,
   ⟨.CELL_LOST, 0x50, [], 8⟩,
   ⟨.CELL_FREE_FAULT, 0x400, [], 8⟩,
   ⟨.CELL_FREE_FAULT_CELL, 0x408, [], 8⟩,
   ⟨.CELL_INT_CAUSE, 0x500, [], 8⟩,
   ⟨.CELL_INT_EN, 0x508, [], 8⟩,
   ⟨.CELL_LEASE_CTRL, 0x600, [], 8⟩,
   ⟨.CELL_LEASE_FREE, 0x608, [], 8⟩,
   ⟨.CELL_LEASE_RESULT, 0x640, [(8, 0x8)], 8⟩,
   ⟨.CELL_LEASE_STATUS, 0x800, [(64, 0x8)], 8⟩]

/-- The registers of block MC and their offsets from its base (chapter 19). -/
def slotsMC : List Slot :=
  [⟨.MC_INFO, 0x0, [], 8⟩,
   ⟨.MC_SYNC, 0x8, [], 8⟩,
   ⟨.MC_STATS, 0x10, [], 8⟩,
   ⟨.MC_STATS2, 0x18, [], 8⟩,
   ⟨.MC_TROUPE_RANGE, 0x1000, [(64, 0x8)], 8⟩,
   ⟨.MC_GROUP, 0x10000, [(65536, 0x8)], 8⟩,
   ⟨.MC_MEMBER, 0x100000, [(1048576, 0x8)], 8⟩]

/-- The registers of block TIME and their offsets from its base (chapter 19). -/
def slotsTIME : List Slot :=
  [⟨.TIME_STATUS, 0x0, [], 8⟩,
   ⟨.TIME_NOW_SUB, 0x8, [], 8⟩,
   ⟨.TIME_PPS_STAMP_SUB, 0x60, [], 8⟩,
   ⟨.TIME_NOW_SEC, 0x10, [], 8⟩,
   ⟨.TIME_PPS_STAMP_SEC, 0x68, [], 8⟩,
   ⟨.TIME_RAW_LO, 0x18, [], 8⟩,
   ⟨.TIME_RAW_HI, 0x20, [], 8⟩,
   ⟨.TIME_RATE, 0x28, [], 8⟩,
   ⟨.TIME_STEP_NS, 0x30, [], 8⟩,
   ⟨.TIME_SERVO_CFG, 0x38, [], 8⟩,
   ⟨.TIME_SERVO_CFG2, 0x40, [], 8⟩,
   ⟨.TIME_SERVO_OFFSET, 0x48, [], 8⟩,
   ⟨.TIME_SERVO_STATUS, 0x50, [], 8⟩,
   ⟨.TIME_PPS_IN, 0x58, [], 8⟩,
   ⟨.TIME_PPS_OUT, 0x70, [], 8⟩,
   ⟨.TIME_PTP_STATS, 0x78, [], 8⟩,
   ⟨.TIME_SYNCE, 0x80, [(2, 0x8)], 8⟩,
   ⟨.TIME_INT_CAUSE, 0x100, [], 8⟩,
   ⟨.TIME_INT_EN, 0x108, [], 8⟩,
   ⟨.TIME_PTP_PEER, 0x1000, [(512, 0x8)], 8⟩]

/-- The registers of block TEL and their offsets from its base (chapter 19). -/
def slotsTEL : List Slot :=
  [⟨.TEL_HIST_CFG, 0x0, [], 8⟩,
   ⟨.TEL_HIST_CTRL, 0x8, [], 8⟩,
   ⟨.TEL_HIST_BIN, 0x100, [(64, 0x8)], 8⟩,
   ⟨.TEL_FLOW_CFG, 0x200, [], 8⟩,
   ⟨.TEL_FLOW_CFG2, 0x208, [], 8⟩,
   ⟨.TEL_FLOW_STATUS, 0x210, [], 8⟩,
   ⟨.TEL_FLOW_COUNT, 0x218, [], 8⟩,
   ⟨.TEL_FLOW_COUNT2, 0x220, [], 8⟩,
   ⟨.TEL_FLOW_CAP, 0x228, [], 8⟩,
   ⟨.TEL_IPFIX_CFG, 0x400, [], 8⟩,
   ⟨.TEL_IOAM_STATS, 0x420, [], 8⟩,
   ⟨.TEL_KEY_FIELD, 0x300, [(16, 0x8)], 8⟩,
   ⟨.TEL_IOAM_CFG, 0x408, [], 8⟩,
   ⟨.TEL_IOAM_CFG2, 0x410, [], 8⟩,
   ⟨.TEL_IOAM_CFG3, 0x418, [], 8⟩,
   ⟨.TEL_INT_CAUSE, 0x500, [], 8⟩,
   ⟨.TEL_INT_EN, 0x508, [], 8⟩,
   ⟨.TEL_TROUPE_FLOW, 0x1000, [(64, 0x40)], 8⟩,
   ⟨.TEL_TROUPE_FLOWS, 0x1008, [(64, 0x40)], 8⟩,
   ⟨.TEL_EXPORT_CFG, 0x1010, [(64, 0x40)], 8⟩,
   ⟨.TEL_EXPORT_CFG2, 0x1018, [(64, 0x40)], 8⟩,
   ⟨.TEL_DROP_CFG, 0x1020, [(64, 0x40)], 8⟩,
   ⟨.TEL_EXPORT_STATUS, 0x1028, [(64, 0x40)], 8⟩,
   ⟨.TEL_EXPORT_SEQ, 0x1030, [(64, 0x40)], 8⟩,
   ⟨.TEL_EXPORT_HDR, 0x2000, [(64, 0x40), (8, 0x8)], 8⟩] ++
  [⟨.TEL_UNTRACKED, 0x10000, [(16, 0x800), (64, 0x20), (3, 0x8)], 8⟩,
   ⟨.TEL_DROP_COUNT, 0x100000, [(576, 0x800), (256, 0x8)], 8⟩]

/-- The registers of block HBM and their offsets from its base (chapter 19). -/
def slotsHBM : List Slot :=
  [⟨.HBM_INFO, 0x0, [], 8⟩,
   ⟨.HBM_STATUS, 0x10, [(2, 0x8)], 8⟩,
   ⟨.HBM_ECC, 0x30, [(2, 0x8)], 8⟩,
   ⟨.HBM_CTRL, 0x20, [], 8⟩,
   ⟨.HBM_NRR_CFG, 0x28, [], 8⟩,
   ⟨.HBM_FAIL_CFG, 0x40, [], 8⟩,
   ⟨.HBM_SPILL_CFG, 0x100, [], 8⟩,
   ⟨.HBM_SPILL_STATUS, 0x108, [], 8⟩,
   ⟨.HBM_SPILL_COUNT, 0x110, [], 8⟩,
   ⟨.HBM_SPILL_COUNT2, 0x118, [], 8⟩,
   ⟨.HBM_CAPTURE_CFG, 0x300, [], 8⟩,
   ⟨.HBM_CAPTURE_STATUS, 0x308, [], 8⟩,
   ⟨.HBM_CAPTURE_RELEASE, 0x310, [], 8⟩,
   ⟨.HBM_CAPTURE_COUNT, 0x318, [], 8⟩,
   ⟨.HBM_COPY_ADDR, 0x320, [], 8⟩,
   ⟨.HBM_COPY_OFF, 0x328, [], 8⟩,
   ⟨.HBM_COPY_CTRL, 0x330, [], 8⟩,
   ⟨.HBM_LEDGER_STATUS, 0x400, [], 8⟩,
   ⟨.HBM_INT_CAUSE, 0x200, [], 8⟩,
   ⟨.HBM_INT_EN, 0x208, [], 8⟩,
   ⟨.HBM_SPILL_PROFILE, 0x1000, [(256, 0x8)], 8⟩,
   ⟨.HBM_TROUPE_SPILL, 0x2000, [(64, 0x8)], 8⟩]

/-- The registers of block PACE and their offsets from its base (chapter 19). -/
def slotsPACE : List Slot :=
  [⟨.PACE_CADENCE_SET, 0x0, [], 8⟩,
   ⟨.PACE_STATUS, 0x8, [], 8⟩,
   ⟨.PACE_COUNT, 0x10, [], 8⟩,
   ⟨.PACE_AVS_CFG, 0x18, [], 8⟩,
   ⟨.PACE_DROOP_CFG, 0x20, [], 8⟩,
   ⟨.PACE_DROOP_STATUS, 0x28, [], 8⟩,
   ⟨.PACE_THERMAL_CFG, 0x30, [], 8⟩,
   ⟨.PACE_THERMAL_STATUS, 0x38, [], 8⟩,
   ⟨.PACE_PHASE_CFG, 0x40, [], 8⟩,
   ⟨.PACE_PELOTON_CFG, 0x48, [], 8⟩,
   ⟨.PACE_ADV_DA, 0x50, [], 8⟩,
   ⟨.PACE_FREEWHEEL_CFG, 0x58, [], 8⟩,
   ⟨.PACE_FOLLOW_STATUS, 0x60, [], 8⟩,
   ⟨.PACE_ENERGY_CFG, 0x900, [], 8⟩,
   ⟨.PACE_ADV_LAST, 0x68, [], 8⟩,
   ⟨.PACE_ADV_LAST2, 0x70, [], 8⟩,
   ⟨.PACE_ADV_INJECT, 0x78, [], 8⟩,
   ⟨.PACE_ADV_INJECT2, 0x80, [], 8⟩,
   ⟨.PACE_INT_CAUSE, 0x100, [], 8⟩,
   ⟨.PACE_INT_EN, 0x108, [], 8⟩,
   ⟨.PACE_ADV_PORTS, 0x200, [(8, 0x8)], 8⟩,
   ⟨.PACE_DOMAIN_STATUS, 0x400, [(5, 0x8)], 8⟩,
   ⟨.PACE_RAIL_CFG, 0x500, [(9, 0x10)], 8⟩,
   ⟨.PACE_RAIL_STATUS, 0x508, [(9, 0x10)], 8⟩,
   ⟨.PACE_TEMP, 0x600, [(32, 0x8)], 8⟩] ++
  [⟨.PACE_PHASE_A, 0x700, [(16, 0x20)], 8⟩,
   ⟨.PACE_PHASE_B, 0x708, [(16, 0x20)], 8⟩,
   ⟨.PACE_PHASE_C, 0x710, [(16, 0x20)], 8⟩,
   ⟨.PACE_PHASE_D, 0x718, [(16, 0x20)], 8⟩,
   ⟨.PACE_COEF, 0x800, [(16, 0x8)], 8⟩,
   ⟨.PACE_LEAK, 0x880, [(7, 0x8)], 8⟩,
   ⟨.PACE_ENERGY_TROUPE, 0x1000, [(64, 0x8)], 8⟩,
   ⟨.PACE_ENERGY_PIPE, 0x1200, [(32, 0x8)], 8⟩,
   ⟨.PACE_ENERGY_MEASURED, 0x1300, [(7, 0x18)], 8⟩,
   ⟨.PACE_ENERGY_SHARED, 0x1308, [(7, 0x18)], 8⟩,
   ⟨.PACE_ENERGY_UNATTR, 0x1310, [(7, 0x18)], 8⟩,
   ⟨.PACE_ENERGY_PORT, 0x2000, [(512, 0x8)], 8⟩]

/-- The registers of block HIF and their offsets from its base (chapter 19). -/
def slotsHIF : List Slot :=
  [⟨.HIF_LINK_STATUS, 0x0, [], 8⟩,
   ⟨.HIF_BAD_ACCESS, 0x8, [], 8⟩,
   ⟨.HIF_BAD_ACCESS_ADDR, 0x10, [], 8⟩,
   ⟨.HIF_INT_CAUSE, 0x100, [], 8⟩,
   ⟨.HIF_INT_EN, 0x108, [], 8⟩,
   ⟨.HIF_MSIX_ALLOC, 0x400, [(64, 0x8)], 8⟩,
   ⟨.HIF_TROUPE_CTRL, 0x800, [], 8⟩,
   ⟨.HIF_TROUPE_STATE, 0x900, [(64, 0x8)], 8⟩,
   ⟨.HIF_RX_CFG, 0x100000, [(512, 0x100)], 8⟩,
   ⟨.HIF_TX_CFG, 0x200000, [(512, 0x100)], 8⟩,
   ⟨.HIF_TLM_CFG, 0x300000, [(64, 0x100)], 8⟩,
   ⟨.HIF_RPT_CFG, 0x310000, [(32, 0x100)], 8⟩,
   ⟨.HIF_RX_CQ, 0x100008, [(512, 0x100)], 8⟩,
   ⟨.HIF_TX_RING, 0x200008, [(512, 0x100)], 8⟩,
   ⟨.HIF_TLM_RING, 0x300008, [(64, 0x100)], 8⟩,
   ⟨.HIF_RPT_RING, 0x310008, [(32, 0x100)], 8⟩,
   ⟨.HIF_RX_CQ_WB, 0x100010, [(512, 0x100)], 8⟩,
   ⟨.HIF_TX_WB, 0x200020, [(512, 0x100)], 8⟩,
   ⟨.HIF_TLM_WB, 0x300010, [(64, 0x100)], 8⟩,
   ⟨.HIF_RPT_WB, 0x310010, [(32, 0x100)], 8⟩,
   ⟨.HIF_RX_CQ_IDX, 0x100018, [(512, 0x100)], 8⟩,
   ⟨.HIF_TX_IDX, 0x200010, [(512, 0x100)], 8⟩,
   ⟨.HIF_TLM_IDX, 0x300018, [(64, 0x100)], 8⟩,
   ⟨.HIF_RPT_IDX, 0x310018, [(32, 0x100)], 8⟩,
   ⟨.HIF_RX_STATUS, 0x100080, [(512, 0x100)], 8⟩] ++
  [⟨.HIF_TX_STATUS, 0x200018, [(512, 0x100)], 8⟩,
   ⟨.HIF_TLM_STATUS, 0x300020, [(64, 0x100)], 8⟩,
   ⟨.HIF_RPT_STATUS, 0x310020, [(32, 0x100)], 8⟩,
   ⟨.HIF_RX_POOL, 0x100020, [(512, 0x100), (4, 0x8)], 8⟩,
   ⟨.HIF_RX_POOL_IDX, 0x100040, [(512, 0x100), (4, 0x8)], 8⟩,
   ⟨.HIF_RX_BUF_SIZE, 0x100060, [(512, 0x100)], 8⟩]

/-- The registers of block TND and their offsets from its base (chapter 19). -/
def slotsTND : List Slot :=
  [⟨.TND_STATUS, 0x0, [], 8⟩,
   ⟨.TND_WARDEN, 0x10, [(2, 0x8)], 8⟩,
   ⟨.TND_CFG, 0x20, [], 8⟩,
   ⟨.TND_CTRL, 0x28, [], 8⟩,
   ⟨.TND_ELIM_COUNT, 0x30, [], 8⟩,
   ⟨.TND_DIVERGE_INFO, 0x38, [], 8⟩,
   ⟨.TND_INPUT_STATUS, 0x50, [], 8⟩,
   ⟨.TND_MBX_CTRL, 0x100, [], 8⟩,
   ⟨.TND_DIVERGE_DIGEST, 0x40, [(2, 0x8)], 8⟩,
   ⟨.TND_MBX_REQ, 0x200, [(32, 0x8)], 8⟩,
   ⟨.TND_MBX_REPLY, 0x300, [(32, 0x8)], 8⟩,
   ⟨.TND_INT_CAUSE, 0x400, [], 8⟩,
   ⟨.TND_INT_EN, 0x408, [], 8⟩]

/-- The registers of block BBX and their offsets from its base (chapter 19). -/
def slotsBBX : List Slot :=
  [⟨.BBX_STATUS, 0x0, [], 8⟩,
   ⟨.BBX_STATUS2, 0x8, [], 8⟩,
   ⟨.BBX_LOSS, 0x10, [], 8⟩,
   ⟨.BBX_READ_CTRL, 0x100, [], 8⟩,
   ⟨.BBX_READ_FIRST, 0x108, [], 8⟩,
   ⟨.BBX_READ_ADDR, 0x110, [], 8⟩,
   ⟨.BBX_NONCE, 0x118, [(4, 0x8)], 8⟩,
   ⟨.BBX_HOST_NOTE, 0x200, [(4, 0x8)], 8⟩,
   ⟨.BBX_HOST_NOTE_CTRL, 0x220, [], 8⟩,
   ⟨.BBX_INT_CAUSE, 0x300, [], 8⟩,
   ⟨.BBX_INT_EN, 0x308, [], 8⟩]

/-- The registers of block SEC and their offsets from its base (chapter 19). -/
def slotsSEC : List Slot :=
  [⟨.SEC_UNIT_ID_LO, 0x0, [], 8⟩,
   ⟨.SEC_UNIT_ID_HI, 0x8, [], 8⟩,
   ⟨.SEC_STATUS, 0x10, [], 8⟩,
   ⟨.SEC_OWNER_SLOT, 0x100, [(4, 0x8)], 8⟩,
   ⟨.SEC_OWNER_HASH, 0x200, [(4, 0x30), (6, 0x8)], 8⟩,
   ⟨.SEC_KEY_CTRL, 0x300, [], 8⟩,
   ⟨.SEC_KEY_BUF, 0x400, [(26, 0x8)], 8⟩,
   ⟨.SEC_FW_CTRL, 0x500, [], 8⟩,
   ⟨.SEC_FW_ADDR, 0x508, [], 8⟩,
   ⟨.SEC_FW_STATUS, 0x510, [], 8⟩,
   ⟨.SEC_FW_BOOT, 0x518, [], 8⟩,
   ⟨.SEC_INT_CAUSE, 0x600, [], 8⟩,
   ⟨.SEC_INT_EN, 0x608, [], 8⟩]

/-- The registers of a window that every function has a copy of, at their window offsets (R518). -/
def slotsWindow : List Slot :=
  [⟨.CFG_COMMIT_STATUS, 0x208, [], 8⟩,
   ⟨.CFG_VIEW, 0x210, [], 8⟩,
   ⟨.CFG_PAIR_STATUS, 0x300, [], 8⟩,
   ⟨.CFG_PAIR_DISCARD, 0x308, [], 8⟩,
   ⟨.CFG_PAIR_DISCARD_VALUE, 0x310, [], 8⟩,
   ⟨.CELL_LEASE_CTRL, 0x500, [], 8⟩,
   ⟨.CELL_LEASE_FREE, 0x508, [], 8⟩,
   ⟨.CELL_LEASE_RESULT, 0x540, [(8, 0x8)], 8⟩,
   ⟨.QM_QUERY, 0x600, [], 8⟩,
   ⟨.QM_QUERY_RESULT0, 0x608, [], 8⟩,
   ⟨.QM_QUERY_RESULT1, 0x610, [], 8⟩,
   ⟨.TEL_HIST_CTRL, 0x700, [], 8⟩,
   ⟨.TEL_HIST_BIN, 0x800, [(64, 0x8)], 8⟩,
   ⟨.TOP_INT_REARM, 0x118, [], 8⟩,
   ⟨.HIF_BAD_ACCESS, 0x10, [], 8⟩,
   ⟨.HIF_BAD_ACCESS_ADDR, 0x18, [], 8⟩,
   ⟨.WIN_STATE, 0x8, [], 8⟩,
   ⟨.WIN_INT_CAUSE, 0x100, [], 8⟩,
   ⟨.WIN_INT_EN, 0x108, [], 8⟩,
   ⟨.WIN_CMD_DONE, 0x110, [], 8⟩,
   ⟨.WIN_COMMIT, 0x200, [], 8⟩,
   ⟨.WIN_RES0, 0xC00, [], 8⟩,
   ⟨.WIN_RES1, 0xC08, [], 8⟩,
   ⟨.WIN_PORT_MAP, 0x1000, [(128, 0x8)], 8⟩]

end Sys2Proof
end

