-- ==== Sys2Proof/Machine/Assoc.lean ====
section
/-!
DEFINITION. Tables by number, kept sorted by key: the one representation of every sparse thing in the state.
A lookup takes the first entry with the key; `put` keeps the keys strictly rising.
-/

namespace Sys2Proof.Machine

/-- The entry of a key. -/
def tabFind {α : Type} : List (Nat × α) → Nat → Option α
  | [], _ => none
  | (k', v) :: t, k => if k' = k then some v else tabFind t k

/-- The entry of a key, or a default. -/
def tabGet {α : Type} (d : α) (t : List (Nat × α)) (k : Nat) : α := (tabFind t k).getD d

/-- Sets the entry of a key, keeping the keys in order. -/
def tabPut {α : Type} : List (Nat × α) → Nat → α → List (Nat × α)
  | [], k, v => [(k, v)]
  | (k', v') :: t, k, v =>
    if k < k' then (k, v) :: (k', v') :: t
    else if k' = k then (k, v) :: t
    else (k', v') :: tabPut t k v

/-- Removes the entry of a key. -/
def tabDel {α : Type} : List (Nat × α) → Nat → List (Nat × α)
  | [], _ => []
  | (k', v) :: t, k => if k' = k then tabDel t k else (k', v) :: tabDel t k

/-- Applies a function to the entry of a key, the default where none is listed. -/
def tabMod {α : Type} (d : α) (t : List (Nat × α)) (k : Nat) (f : α → α) : List (Nat × α) :=
  tabPut t k (f (tabGet d t k))

/-- Every key is above `lo`, and the keys rise strictly. -/
def tabRising {α : Type} : Option Nat → List (Nat × α) → Bool
  | _, [] => true
  | none, (k, _) :: t => tabRising (some k) t
  | some lo, (k, _) :: t => decide (lo < k) && tabRising (some k) t

/-- The lowest number that no entry has, looked for below the table's length and one more. -/
def tabFresh {α : Type} (t : List (Nat × α)) : Nat :=
  ((List.range (t.length + 1)).find? fun k => (tabFind t k).isNone).getD t.length

/-- Sets the entry of a key of a sparse store whose unlisted keys hold `d`: an entry equal to `d` is removed. -/
def sparsePut {α : Type} [DecidableEq α] (d : α) (t : List (Nat × α)) (k : Nat) (v : α) : List (Nat × α) :=
  if v = d then tabDel t k else tabPut t k v

/-- The key of instance `i` of a register: registers have numbers below 1,024. -/
def regKey (r : Reg) (i : Nat) : Nat := i * 1024 + r.ctorIdx

/-- The reset value of a key. -/
def regReset (r : Reg) (i : Nat) : Word := BitVec.ofNat 64 (r.resetAt i)

/-- A register of a register file. -/
def rfGet (rf : List (Nat × Word)) (r : Reg) (i : Nat) : Word := tabGet (regReset r i) rf (regKey r i)

/-- Sets a register of a register file, keeping its canonical form. -/
def rfPut (rf : List (Nat × Word)) (r : Reg) (i : Nat) (w : Word) : List (Nat × Word) :=
  sparsePut (regReset r i) rf (regKey r i) w

/-- The canonical form of a register file: keys strictly rising, and no entry equal to its register's reset value. -/
def rfWf (rf : List (Nat × Word)) : Bool :=
  tabRising none rf && rf.all fun e => e.2 != regReset (Reg.ofNat (e.1 % 1024)) (e.1 / 1024)

/-- Bits [lo + width - 1 : lo] of a word, as a number. -/
def bitsOf (w : Word) (lo width : Nat) : Nat := (w.toNat >>> lo) % 2 ^ width

/-- The word with bits [lo + width - 1 : lo] replaced by the low bits of `v`. -/
def withBits (w : Word) (lo width v : Nat) : Word :=
  let mask : Word := BitVec.ofNat 64 (2 ^ width - 1) <<< lo
  (w &&& ~~~mask) ||| (BitVec.ofNat 64 (v % 2 ^ width) <<< lo)

/-- A field of an instance of a register, in a register file. -/
def rfFld (rf : List (Nat × Word)) (f : Fld) (i : Nat) : Nat := bitsOf (rfGet rf f.reg i) f.lo f.width

/-- Sets a field of an instance of a register, in a register file. -/
def rfSet (rf : List (Nat × Word)) (f : Fld) (i v : Nat) : List (Nat × Word) :=
  rfPut rf f.reg i (withBits (rfGet rf f.reg i) f.lo f.width v)

/-- Reads one byte of a memory; an unlisted byte reads 0 (log entry 4). -/
def memByte (m : List Host.Cell) (a : Nat) : Byte := tabGet 0 m a

/-- Writes one byte of a memory, keeping its canonical form. -/
def memPutByte (m : List Host.Cell) (a : Nat) (b : Byte) : List Host.Cell := sparsePut 0 m a b

/-- Writes bytes from an address upward. -/
def memWrite (m : List Host.Cell) (a : Nat) : List Byte → List Host.Cell
  | [] => m
  | b :: bs => memWrite (memPutByte m a b) (a + 1) bs

/-- Reads `n` bytes from an address upward. -/
def memRead (m : List Host.Cell) (a : Nat) : Nat → List Byte
  | 0 => []
  | n + 1 => memByte m a :: memRead m (a + 1) n

/-- The canonical form of a memory: addresses strictly rising, and no byte equal to 0 listed. -/
def memWf (m : List Host.Cell) : Bool := tabRising none m && m.all fun c => c.2 != 0

/-- The low `n` bytes of a number, lowest first. -/
def leBytes (v : Nat) : Nat → List Byte
  | 0 => []
  | n + 1 => BitVec.ofNat 8 v :: leBytes (v / 256) n

/-- The number that bytes spell, lowest first. -/
def ofLe : List Byte → Nat
  | [] => 0
  | b :: bs => b.toNat + 256 * ofLe bs

/-- The number that bytes spell, highest first. -/
def ofBe (bs : List Byte) : Nat := ofLe bs.reverse

/-- The low `n` bytes of a number, highest first. -/
def beBytes (v n : Nat) : List Byte := (leBytes v n).reverse

/-- A number's bit. -/
def natBit (v i : Nat) : Bool := (v >>> i) % 2 == 1

/-- A number with one bit set or cleared. -/
def natSetBit (v i : Nat) (b : Bool) : Nat :=
  if natBit v i == b then v else if b then v + 2 ^ i else v - 2 ^ i

/-- 1 or 0. -/
def b2n (b : Bool) : Nat := if b then 1 else 0

/-- A number held within limits. -/
def clampN (lo hi v : Nat) : Nat := if v < lo then lo else if hi < v then hi else v

/-- A two's-complement field of a width as a signed number. -/
def signedOf (width v : Nat) : Int := if 2 ^ (width - 1) ≤ v then (v : Int) - 2 ^ width else v

/-- A signed number as a two's-complement field of a width. -/
def ofSigned (width : Nat) (v : Int) : Nat := (v % (2 ^ width : Int)).toNat

end Sys2Proof.Machine
end

