-- ==== Sys2Proof/Syntax.lean ====
section
/-!
DEFINITION. The commands of the part, one constructor per row of the table of operations and events, and the
kinds of their operands. Nothing here has a meaning yet.
-/

namespace Sys2Proof

/-- A port number, which is also the number of its first lane (R23). -/
abbrev PortNo := Fin 512
/-- A lane number (R23). -/
abbrev LaneNo := Fin 512
/-- An ingress or egress pipe number (R23). -/
abbrev PipeNo := Fin 16
/-- One of the 32 pipes: 0 to 15 are IP0 to IP15, 16 to 31 are EP0 to EP15 (R23). -/
abbrev AnyPipe := Fin 32
/-- A PCI Express function: 0 the physical function, n the virtual function of troupe n (R23). -/
abbrev FnNo := Fin 64

/-- An offset in the 256 MiB of BAR0 of the physical function; a virtual function's BAR0 is the first 2 MiB. -/
abbrev BarOffset := Fin 268435456
/-- A troupe number (R23). -/
abbrev TroupeNo := Fin 64
/-- A queue ID of 20 bits (R25). -/
abbrev QueueNo := Fin 1048576
/-- A Lerar link, n = 16 d + j (R28). -/
abbrev LinkNo := Fin 64
/-- A rim die (R23). -/
abbrev RimNo := Fin 4

/-- What the PCS and the link report at the end of a frame (R146). -/
structure RxEnd where
  /-- A block of the frame came from an uncorrectable codeword. -/
  pcsError : Bool
  /-- The frame was ended by loss of link, with so many of its bytes received. -/
  lost : Bool
  length : Nat := 0
deriving DecidableEq, Repr

/-- One codeword as a lane receives it (R125): in L425 its 1,088 pairs of PAM6 levels, in a standard mode its symbols of ten
bits. -/
structure Codeword where
  levels : List (Fin 6 × Fin 6) := []
  symbols : List (BitVec 10) := []
  /-- The PCS finds it to consist of LPI control blocks (R136). -/
  lpi : Bool := false
deriving DecidableEq, Repr

/-- The causes of a local or remote fault of a port (R161). -/
inductive FaultKind where
  | lossOfSignal | cdrLock | codewordLock | deskew | alignLost | highError | remote
deriving DecidableEq, Repr

/-- A field that a program reads or writes: bytes of the metadata's device region (R195), of its program region, of
the head (R198), a constant, or a program register (R219). Metadata fields are little-endian, head fields in
transmission order. -/
inductive FieldRef where
  /-- `bytes` bytes of the device region from byte `off`. -/
  | dev (off bytes : Nat)
  /-- `bytes` bytes of the program region from byte 128 + `off`. -/
  | prog (off bytes : Nat)
  /-- `bytes` bytes of the head from byte `off`. -/
  | head (off bytes : Nat)
  /-- A constant of the program. -/
  | imm (v : Nat)
  /-- A program register. -/
  | preg (i : Nat)
deriving DecidableEq, Repr

/-- The ALU operations of R198 on 32-bit words. -/
inductive AluOp where
  | set | add | sub | shl | shr | and | min | max
deriving DecidableEq, Repr

/-- The hash functions of R202. -/
inductive HashFn where
  | crc32 | crc32c | crc16 | xorFold | identity
deriving DecidableEq, Repr

/-- The actions of R198, and no others. -/
inductive Action where
  | alu (op : AluOp) (dst a b : FieldRef)
  /-- A lookup of a table with the key's fields in order; the byte of the program region at `dst` takes the hit
  flag, and the result's data follows it. -/
  | lookup (table : Nat) (key : List FieldRef) (dst : Nat)
  | hash (fn : HashFn) (seed : Nat) (input : List FieldRef) (dst : FieldRef)
  /-- A read-modify-write of word `index` of register array `array` with `arg`; the value read goes to 8 bytes of the
  program region at `dst`. -/
  | stateful (array : Nat) (index : FieldRef) (op : AluOp) (arg : FieldRef) (dst : Nat)
  | count (counter : FieldRef)
  | police (policer : FieldRef)
  | forward (queue : FieldRef)
  | multicast (group : FieldRef)
  /-- A member of an ECMP group: the INDEX table that holds its members (R203, R224), the group, its base index and its
  count. -/
  | ecmp (table : Nat) (group base count : FieldRef) (adaptive : Bool)
  | learn (table : Nat) (key : List FieldRef) (data : List FieldRef)
  | mirror (session : FieldRef)
  | drop (reason : Nat)
  | undrop
  | toCpu
  | resubmit
  | recirculate
  /-- Inserts bytes at an offset of the head (R216). -/
  | headerAdd (off : Nat) (bytes : List Nat)
  /-- Removes bytes of the head (R216). -/
  | headerRemove (off len : Nat)
deriving DecidableEq, Repr

/-- An action and the word that selects it: it is applied while the word is not 0. -/
structure Guarded where
  guard : FieldRef
  act : Action
deriving DecidableEq, Repr

/-- The truncation outcome of a parser state (R193). -/
inductive TruncOutcome where
  | acceptPartial | reject
deriving DecidableEq, Repr

/-- One state of a parser graph (R191): the bytes it extracts and those it skips after them, its lookahead (offset from the
position and length), its transitions by lookahead value, and what a truncation does. -/
structure ParserState where
  extract : Nat
  skip : Nat := 0
  lookOff : Nat
  lookLen : Nat
  /-- Accept or reject end the parse here. -/
  accept : Bool
  reject : Bool
  /-- Lookahead value and next state. -/
  next : List (Nat × Nat)
  trunc : TruncOutcome
deriving DecidableEq, Repr

/-- The program of one troupe in one pipe: its parser graph and its stages (R187). -/
structure Program where
  parser : List ParserState
  stages : List (List Guarded)
  /-- The egress program asks its parser to start from the ingress header offsets (R194). -/
  fromOffsets : Bool
  /-- Metadata bytes 128 to 255 are carried on a recirculation (R197). -/
  carry : Bool
deriving DecidableEq, Repr

/-- One port the image builds (R143): its rate code (PORT.INFO.RATE), lane mode code (LANE.CFG.MODE), its number
of lanes and its troupe. -/
structure PortPlan where
  port : Nat
  rate : Nat
  mode : Nat
  lanes : Nat
  troupe : Nat
deriving DecidableEq, Repr

/-- What the image reserves for a troupe beside its ports (R70, R101): the flag DOUBLE_BUFFER, the buffer quota
in units, its member entries and its receive and transmit rings. -/
structure TroupePlan where
  troupe : Nat
  doubleBuffer : Bool := false
  quotaUnits : Nat := 0
  memberFirst : Nat := 0
  memberCount : Nat := 0
  policerFirst : Nat := 0
  policerCount : Nat := 0
deriving DecidableEq, Repr

/-! ### Operands of modules, pace, host, tandem, security and package commands -/

/-- A certificate as the check of a chain uses it: the public key it names, in SEC 1 uncompressed form, the bytes that
are signed, and the signature. -/
structure Cert where
  key : List Byte
  signed : List Byte
  r : BitVec 384
  s : BitVec 384
deriving DecidableEq, Repr

/-- What a module that answers the challenge gives: its signature, and its certificate chain from its own certificate to
that of the root (R178). -/
structure ModuleProof where
  r : BitVec 384
  s : BitVec 384
  chain : List Cert
deriving DecidableEq, Repr

/-- What identification reads from a module (R174, R175, R178 to R180). -/
structure ModuleId where
  oui : BitVec 24
  /-- The serial number, 16 bytes. -/
  serial : List Byte
  cmisRev : BitVec 8
  /-- The CMIS applications it advertises, each as the rate code of a port (PORT.INFO.RATE) and its lanes. -/
  apps : List (Nat × Nat)
  /-- Its firmware revision, and its answer to the challenge where it exposes one. -/
  firmware : List Byte
  answer : Option ModuleProof
  /-- Rated life in hours and nominal bias in units of 2 µA, where it advertises them. -/
  rated : Option Nat
  nominal : Option Nat
  /-- It advertises I3C (R167). -/
  i3c : Bool
  /-- Host-side transmit settings of its lanes, in the layout of LANE.TX_FIR. -/
  taps : List Word
deriving DecidableEq, Repr

/-- How a transfer on a module bus ended for the module (MOD.CMD.STATUS). -/
inductive BusEnd where
  | ok | nack | timeout
deriving DecidableEq, Repr

/-- What raises the rails before a burst: a phase entry (R494), or an opening of a windowed gate (R495). -/
inductive BoostBy where
  | phase (i : Fin 16)
  | gate (port : Fin 512) (group : Fin 16)
deriving DecidableEq, Repr

/-- A PMBus reading of a regulator (R481): output in mV, current in 0.1 A, power in W, temperature in °C,
STATUS_WORD, and whether it reports a fault. -/
structure RailReading where
  vout : Fin 2048
  iout : Fin 65536
  pout : Fin 4096
  temp : Fin 256
  status : Fin 65536
  fault : Bool
deriving DecidableEq, Repr

namespace Machine

/-- A table that the image carves (R223 to R226, R243, R246): its kind (R224), width code, key length, owner,
positions per twin (level-1 slots of a longest-prefix table), node pools of the levels below the first, positions of
an LPM6 table's ternary region, tiles, and seeds of its twins. -/
structure TablePlan where
  kind : Nat
  width : Nat := 0
  keyBytes : Nat := 4
  troupe : Nat := 0
  positions : Nat := 0
  twin : Bool := false
  resultTable : Nat := 0
  nodes : List Nat := []
  ternPositions : Nat := 0
  sramTiles : Nat := 0
  ternTiles : Nat := 0
  /-- SEED0 and SEED1 of twin 0, then of twin 1. -/
  seeds : List Nat := [0, 0, 0, 0]
deriving DecidableEq, Repr
/-- The HBM plan of an image (R443, R457, R465): whether it defines what Shallow forbids (R58), the capture ring
and its queues, and each troupe's spill quota in blocks and metadata record in units of 16 B. -/
structure HbmPlan where
  defines : Bool := false
  captureGb : Nat := 0
  captureTroupe : Nat := 0
  captureQueues : List Nat := []
  spillQuota : List (Nat × Nat) := []
  mdUnits : List (Nat × Nat) := []
deriving DecidableEq, Repr

end Machine

/-- Where an uncorrectable word of deep memory lies (R454): the bytes of a spilled frame, its header or its block's
header or link, with the block; a locator slot; a ledger entry; a word of 16 B of the capture ring. -/
inductive HbmPlace where
  | frameBytes (frame block : Nat)
  | frameHeader (frame block : Nat)
  | locator (slot : Nat)
  | entry (i : Nat)
  | capture (word : Nat)
deriving DecidableEq, Repr
namespace Machine

/-- The four kinds of ring (R521). -/
inductive RingKind where
  | rx | tx | tlm | rpt
deriving DecidableEq, Repr

end Machine


/-- The structures that a full image builds, and that troupe images replace within their troupes (R64, R70). The
encodings of its sections are not described, so this is the model's own form of them (log entry 6). -/
structure Image where
  /-- Memory mode: 0 Shallow, 1 Deep, 2 Ledger, 3 Split (R55). -/
  memMode : Nat := 0
  /-- PROG_ID of PIPE.PROG_INFO. -/
  progId : Nat := 0
  ports : List PortPlan := []
  troupes : List TroupePlan := []
  /-- Programs by pipe × 64 + troupe (R187). -/
  programs : List (Nat × Program) := []
  /-- Parser graphs of the ingress pipes (R191). -/
  parsers : List (Nat × List ParserState) := []
  /-- Program registers declared, their owners, and the partner of each paired one (R219, R220, R222). -/
  pregCount : Nat := 0
  pregOwner : List (Nat × Nat) := []
  pregPartner : List (Nat × Nat) := []
  /-- Policers bound: pipe mask and troupe (R280). -/
  policers : List (Nat × (Nat × Nat)) := []
  mirrorOwner : List (Nat × Nat) := []
  /-- Body pool in 32 MiB steps (R306). -/
  bodySteps : Nat := 0
  cgTier : List (Nat × Nat) := []
  /-- Queue shaper to queue (R345). -/
  qshaperQueue : List (Nat × Nat) := []
  mcOwner : List (Nat × Nat) := []
  tables : List (Nat × Machine.TablePlan) := []
  /-- Owner troupes of receive, transmit, report rings and command blocks, and the pipe of a transmit ring. -/
  rxOwner : List (Nat × Nat) := []
  txOwner : List (Nat × Nat) := []
  txPipe : List (Nat × Nat) := []
  rptOwner : List (Nat × Nat) := []
  cmdOwner : List (Nat × Nat) := []
  hbm : Machine.HbmPlan := {}
  regInit : List (Nat × Nat) := []
deriving DecidableEq, Repr

/-- What a section body of an image carries (R70), in the model's own form of the structures (log entry 6). -/
inductive SectionBody where
  | structure_ (progId : Nat)
  | breakout (ports : List PortPlan)
  | parser (programs : List (Nat × List ParserState))
  | iprog (programs : List (Nat × Program)) (pregCount : Nat) (pregOwner pregPartner : List (Nat × Nat))
  | eprog (programs : List (Nat × Program))
  | tableCarve (tables : List (Nat × Machine.TablePlan))
  | policerBind (policers : List (Nat × (Nat × Nat)))
  | buffer (bodySteps : Nat) (quotaUnits : List (Nat × Nat))
  | queue (cgTier qshaperQueue : List (Nat × Nat))
  | hbmPlan (plan : Machine.HbmPlan)
  /-- The troupe map: troupes, and the owners of ports, mirror sessions, multicast groups, rings and command blocks. -/
  | troupe (troupes : List TroupePlan) (ports mirrorOwner mcOwner rxOwner txOwner txPipe rptOwner cmdOwner : List (Nat × Nat))
  /-- REG_INIT, as its bytes. -/
  | regInit (bytes : List Byte)
  | note
  /-- A body that is not of its section's type. -/
  | unknown
deriving DecidableEq, Repr

/-- A transmit descriptor as read from host memory (R532): its KIND, MORE, LEN, USER, ADDR and CELL0 to CELL2, each with
its valid bit. -/
structure TxDesc where
  kind : Fin 256
  more : Bool
  len : Fin 65536
  user : BitVec 32
  addr : Word
  cells : List (Fin 33554432 × Bool)
deriving DecidableEq, Repr

/-- A buffer pool entry as read from host memory (R530): buffer address and BUF_ID. -/
structure PoolEntry where
  addr : Word
  bufId : BitVec 32
deriving DecidableEq, Repr

/-- What a command of a warden asks of its target (R546): nothing that the registers show, a write of the table block's
learning policy, aging or Promenade control, a servo offset, a phase entry, a firmware record, or a mailbox reply. -/
inductive WardenCmd where
  | other
  | learning (value : Word)
  | aging (table : Fin 256) (value : Word)
  | promenade (value : Word)
  | offset (value : Word)
  | phase (entry : Fin 8) (value : Word)
  | record (code : Fin 65536) (data : List Byte)
  | reply (status : Fin 65536) (payload : List Byte)
deriving DecidableEq, Repr

/-- What a lane saw of the last period of TP6: the pairs that matched, and its status S (R129, R130). -/
structure Tp6Seen where
  matchPairs : Fin 1021
  status : BitVec 20
deriving DecidableEq, Repr

/-- TP6 that a lane found again: how many symbols from the last aligned position, and its status S (R133). -/
structure Tp6Found where
  offset : Int
  status : BitVec 20
deriving DecidableEq, Repr

/-- The start of data on a lane: SEQ of its last period of TP6, and the instant of its first codeword, in symbols
(R128). -/
structure DataStart where
  seq : Fin 256
  at_ : Nat
deriving DecidableEq, Repr

/-- What a lane's adaptation reached: its signal-to-noise ratio in 0.25 dB, the 24 taps of its FFE and the tap of its DFE
(R142). -/
structure AdaptResult where
  snr : Fin 256
  ffe : List Int
  dfe : Int
deriving DecidableEq, Repr

/-- What the test-mode checker of a lane found: where the pairs of the received pattern begin, and bit errors since it
synchronised (R134). -/
structure CheckRun where
  lane : LaneNo
  phase : Fin 2
  errors : Nat
deriving DecidableEq, Repr

/-- A write of CELL.LEASE_CTRL, and the pipes, engines and quadrants that ask for cells at the same instant (R317, R325). -/
structure LeaseAsk where
  value : Word
  rivals : List (Fin 18)
deriving DecidableEq, Repr

/-- A word of the cell store in error: the copy that is being read from its cell, and how many of its bits are wrong
(R332, R333). -/
structure EccWord where
  flight : Nat
  bits : Fin 65
deriving DecidableEq, Repr

/-- A write by a function. -/
structure FnWrite where
  fn : FnNo
  value : Word
deriving DecidableEq, Repr

/-- A copy of a command of a warden (R546): its number, eliminator, digest and payload. -/
structure CommandCopy where
  warden : Fin 2
  seq : BitVec 32
  eliminator : Fin 6
  digest : Word
  cmd : WardenCmd
deriving DecidableEq, Repr

/-- The copies of one command that reach their eliminator at one instant: one, or both (R548). -/
structure CopyArrival where
  copy : CommandCopy
  same : Option CommandCopy := none
deriving DecidableEq, Repr

/-- What took the host interface down (R108): PERST# low, a hot reset, or loss of the link. -/
inductive HostDown where
  | perst | hotReset | linkDown
deriving DecidableEq, Repr

/-- A PCI Express configuration request that the part acts on: VF Enable, NumVFs, Bus Master Enable of a function (R506,
R508), a read of a function's identity (R106), and what programs a function's MSI-X, its control and the entries of the
table in its BAR2 (R506, R507). -/
inductive ConfigWrite where
  | vfEnable (on : Bool)
  | numVfs (n : Fin 64)
  | busMaster (fn : FnNo) (on : Bool)
  | readIdentity (fn : FnNo)
  | readCapabilities (fn : FnNo)
  | msixControl (fn : FnNo) (enable mask : Bool)
  | msixEntry (fn : FnNo) (vector : Fin 2048) (addr : Word) (data : BitVec 32) (mask : Bool)
deriving DecidableEq, Repr

/-- The commands of the part: one constructor for each row of the table of operations and events (spec/opcode_table.json), in
its order, each with what the command carries. -/
inductive Instr where
  /-- IMPROPER_ACCESS (R13): An unaligned, wrongly sized, out-of-block or part-field 32-bit access returns all ones or
  is discarded, and is counted and latched per function. -/
  | improperAccess (fn : FnNo) (off : BarOffset) (size : Fin 65) (write : Bool) (value : Word)
  /-- REGISTER_WRITE (R16): A write to a register field that has no row of its own takes effect according to its
  access code. -/
  | registerWrite (fn : FnNo) (off : BarOffset) (size : Fin 65) (value : Word)
  /-- STAGING_WRITE (R79): A write to an RWS field goes to its staging copy and acts only at a later commit. -/
  | stagingWrite (fn : FnNo) (off : BarOffset) (size : Fin 65) (value : Word)
  /-- CLEAR_ON_READ (R16): A read of an RC field returns it and clears the bits it returns. -/
  | clearOnRead (fn : FnNo) (off : BarOffset) (size : Fin 65)
  /-- PAIRED_WRITE (R90): A write to an RWP field opens or replaces a pending latch, completes a pair, or is discarded
  as FOREIGN or FULL. -/
  | pairedWrite (fn : FnNo) (off : BarOffset) (size : Fin 65) (value : Word)
  /-- PAIR_TIMEOUT (R95): A pending latch whose partner is not written within 1 ms is discarded with cause TIMEOUT. -/
  | pairTimeout
  /-- LERAR_REPLAY (R30): A Lerar transfer that fails its check is replayed from the sender's replay buffer and
  counted. -/
  | lerarReplay (link : LinkNo) (transfer : Nat)
  /-- LINK_RETIRE (R31): A link that reaches the replay limit in its window, or eight successive replays of one
  transfer, is retired and its traffic moved to surviving links. -/
  | linkRetire (link : LinkNo)
  /-- LINK_AUTO_RETRAIN (R32): 10 ms after retirement, with AUTO_RETRAIN set, a retired link starts training once. -/
  | linkAutoRetrain (link : LinkNo)
  /-- LINK_TRAINING_END (R32): Link training ends with the link UP or in TRAIN_FAILED. -/
  | linkTrainingEnd (link : LinkNo) (up : Bool)
  /-- RETRAIN (R32): A write of LNK.CTRL.RETRAIN starts training of a RETIRED or TRAIN_FAILED link. -/
  | retrain (value : Word)
  /-- WAVEFRONT_LAUNCH (R37): A pipe holding a pace token with its first stage free launches a wavefront of zero to
  eight heads. -/
  | wavefrontLaunch (pipe : AnyPipe)
  /-- PARSER_PASS (R192): The parser walks the head's states and ends with status ACCEPT or REJECT, setting
  PARSE_TRUNC where a header runs past the head. -/
  | parserPass (pipe : AnyPipe)
  /-- STAGE_EXECUTE (R198): A match-action stage applies its program's actions to every head of a wavefront. -/
  | stageExecute (pipe : AnyPipe) (stage : Fin 32)
  /-- INGRESS_PIPE_END (R199): At the end of the ingress pipe the drop decision is taken and destinations and mirror
  sessions are checked against the troupe. -/
  | ingressPipeEnd (pipe : PipeNo)
  /-- EGRESS_PIPE_END (R217): At the end of an egress pipe the frame is dropped, dropped for EGRESS_MTU, or passed to
  the egress elastic FIFO. -/
  | egressPipeEnd (pipe : PipeNo)
  /-- DEPTH_MAP_BROADCAST (R204): Every 64 ns the hub broadcasts the per-port depth map to every rim die. -/
  | depthMapBroadcast (missed : BitVec 4)
  /-- DEPTH_MAP_STALE (R207): A pipe that has received no broadcast for STALE_PERIODS periods marks its map stale. -/
  | depthMapStale (pipe : PipeNo)
  /-- FLOWLET_FLUSH (R206): A write of PIPE.ADAPT_CFG.FLOWLET_FLUSH invalidates every flowlet entry of every pipe. -/
  | flowletFlush (value : Word)
  /-- RX_FRAME_START (R47): At a frame's first byte the ingress elastic FIFO admits it with a MAX_FRAME reservation or
  refuses it whole. -/
  | rxFrameStart (port : PortNo) (bytes : List Byte) (arrived : Nat) (phase : Fin 4)
  /-- IFIFO_XOFF (R45): When the FIFO fill reaches XOFF_LEVEL, the pipe's ports pause lossless priorities and tail-
  drop lossy ones. -/
  | ififoXoff (pipe : PipeNo)
  /-- IFIFO_XON (R48): When the fill falls below XON_LEVEL, the pauses are released and tail-dropping stops. -/
  | ififoXon (pipe : PipeNo)
  /-- RX_FRAME_END (R146): The MAC checks the received frame and counts it as good or drops it under the first failing
  row. -/
  | rxFrameEnd (port : PortNo) (e : RxEnd)
  /-- RX_CODEWORD (R125): A received codeword is decoded, correcting up to 15 symbol errors, and counted. -/
  | rxCodeword (lane : LaneNo) (cw : Codeword)
  /-- SLIP (R130): A write of LANE.ALIGN_CTRL.SLIP delays the receiver's pattern position and reports MATCH_PAIRS
  within 50 ns. -/
  | slip (lane : LaneNo) (value : Word) (matchPairs : Fin 1021)
  /-- RX_ALIGNED_SET (R130): RX_ALIGNED sets once MATCH has held for 16 consecutive periods without a slip. -/
  | rxAlignedSet (lane : LaneNo) (seen : Tp6Seen)
  /-- TX_SWITCH_TO_DATA (R131): Once all lanes are aligned locally and remotely, the port's transmitter switches from
  TP6 to codewords at a period boundary. -/
  | txSwitchToData (port : PortNo) (received : List (List (BitVec 20)))
  /-- DATA_LOCK (R132): After the far side switches, the receiver sets DATA after four consecutive decodable
  codewords. -/
  | dataLock (lane : LaneNo) (start : DataStart)
  /-- ALIGN_LOST (R133): Eight consecutive uncorrectable codewords clear DATA and RX_ALIGNED and return the
  transmitter to TP6. -/
  | alignLost (lane : LaneNo)
  /-- REALIGN (R133): TP6 matching within 8 symbols of the last position for four periods restores RX_ALIGNED without
  software. -/
  | realign (lane : LaneNo) (found : Tp6Found)
  /-- TX_FIR_WRITE (R140): A write of LANE.TX_FIR takes effect glitch-free within 1 µs, or is ignored and sets
  REJECTED. -/
  | txFirWrite (lane : LaneNo) (value : Word)
  /-- IEEE_TRAINING_REQUEST (R141): A link-training request for a transmit tap is answered with the coefficient or its
  limit. -/
  | ieeeTrainingRequest (lane : LaneNo) (tap : Int) (want : Nat)
  /-- RX_CFG_WRITE (R142): A change of CURSOR_POS, DFE_EN or SEQ_DET_EN restarts receive adaptation. -/
  | rxCfgWrite (lane : LaneNo) (value : Word)
  /-- IDLE_ENTRY (R136): After ENTRY_NS without frames, an eligible port sends four LPI codewords and stops driving.
  -/
  | idleEntry (port : PortNo)
  /-- IDLE_REFRESH (R137): Every REFRESH_US an idle transmitter sends a burst, relock codewords and LPI codewords. -/
  | idleRefresh (port : PortNo)
  /-- IDLE_REFRESH_TIMEOUT (R137): A receiver in notified idle that sees no burst within 4 × REFRESH_US declares a
  local fault. -/
  | idleRefreshTimeout (lane : LaneNo)
  /-- WAKE (R138): A frame or PFC frame ready at an idle port sends a TP6 wake burst, relock codewords, then data. -/
  | wake (port : PortNo)
  /-- WAKE_BURST_RX (R138): A receiver relocks on a wake burst and resumes codeword counting, or sets ALIGN_LOST. -/
  | wakeBurstRx (lane : LaneNo) (found : Bool)
  /-- PFC_FRAME_TX (R151): A PFC frame carrying every pending pause change is inserted at the next frame boundary. -/
  | pfcFrameTx (port : PortNo)
  /-- PFC_REFRESH (R152): While a pause is still called for, the port resends XOFF each REFRESH_QUANTA quanta. -/
  | pfcRefresh (port : PortNo) (prio : Fin 8)
  /-- PFC_RX (R154): A received PFC frame with RX_EN set starts or releases pause timers for its enabled priorities.
  -/
  | pfcRx (port : PortNo) (enable : BitVec 8) (times : List Nat)
  /-- PAUSE_TIMER_EXPIRY (R154): A partner pause timer runs out and the priority is released. -/
  | pauseTimerExpiry (port : PortNo) (prio : Fin 8)
  /-- MAC_CONTROL_IGNORED (R155): A PAUSE, disabled PFC or other MAC control frame is counted in RX_PAUSE_IGNORED and
  discarded. -/
  | macControlIgnored (port : PortNo)
  /-- PFC_WATCHDOG (R156): A priority paused by the partner longer than WD_MS sets WD_PRIOS and raises PFC_WD. -/
  | pfcWatchdog (port : PortNo) (prio : Fin 8)
  /-- TX_FRAME_START (R51): The egress MAC starts a frame once the FIFO holds enough of it and, for windowed frames,
  the gate fits. -/
  | txFrameStart (port : PortNo) (held : Nat) (phase : Fin 4)
  /-- TX_FRAME_END (R145): The MAC ends a frame with a fresh FCS and counts it as sent. `idles`: blocks of
  idles that the MAC sends after it beside the first, as its clock asks for. -/
  | txFrameEnd (port : PortNo) (idles : Fin 64)
  /-- TX_UNDERRUN (R51): The egress FIFO runs empty during a started frame, which is ended with a stomped FCS. -/
  | txUnderrun (port : PortNo) (sent : Nat)
  /-- PORT_FAULT (R161): A local fault condition or a received remote-fault sequence begins on a port. -/
  | portFault (lane : LaneNo) (kind : FaultKind)
  /-- LINK_DOWN (R162): A fault lasting DOWN_DEBOUNCE_US clears LINK_UP, aborts transmission and notifies the queue
  manager. -/
  | linkDown (port : PortNo)
  /-- LINK_UP (R163): After UP_DEBOUNCE_US free of faults LINK_UP sets and needed XOFFs are sent first. -/
  | linkUp (port : PortNo)
  /-- PORT_ENABLE (R164): A write of PORT.CFG.ENABLE = 1 enables the port, whose READY sets at its first link-up. -/
  | portEnable (port : PortNo) (value : Word)
  /-- PORT_DISABLE (R162): A write of ENABLE = 0 clears READY and takes the port down as at link down. -/
  | portDisable (port : PortNo) (value : Word)
  /-- SIDEBAND_FRAME (R172): A 272-clock chain frame ends; SB_LD is pulsed if the check word and parity pass, and the
  inputs are used. -/
  | sidebandFrame (chain : Fin 2) (bytes : List Byte) (check : BitVec 16)
  /-- CAGE_PRESENCE_DEBOUNCED (R174): PRESENT_L low for 100 ms moves the cage to POWERING and sets PWR_EN. -/
  | cagePresenceDebounced (cage : Fin 64)
  /-- CAGE_PWR_GOOD (R174): PWR_GOOD moves the cage to RESET and holds RESET_L low. -/
  | cagePwrGood (cage : Fin 64)
  /-- CAGE_RESET_RELEASE (R174): After 10 ms the device releases RESET_L. -/
  | cageResetRelease (cage : Fin 64)
  /-- MODULE_LOW_POWER_REACHED (R174): The module reports ModuleLowPwr and the cage enters IDENTIFY. -/
  | moduleLowPowerReached (cage : Fin 64)
  /-- CAGE_IDENTIFY_DONE (R174): Identification ends and the cage enters LOW_POWER, MISMATCH or AUTH_HELD. -/
  | cageIdentifyDone (cage : Fin 64) (id : ModuleId)
  /-- CAGE_ACTIVATE (R175): With the lowest port enabled and no hold, the device writes L425 taps and releases LPMODE.
  -/
  | cageActivate (cage : Fin 64)
  /-- CAGE_TIMEOUT (R174): A cage state that exceeds its timeout, or fails, sends the cage to FAULT. -/
  | cageTimeout (cage : Fin 64) (failed : Bool)
  /-- MODULE_REMOVE (R176): PRESENT_L rising returns the cage to EMPTY, abandons transfers and writes the life
  checkpoint and MOD_REMOVE. -/
  | moduleRemove (cage : Fin 64)
  /-- MODULE_INTERRUPT (R169): A module asserts INT_L and MODULE_INT is raised. -/
  | moduleInterrupt (cage : Fin 64)
  /-- MOD_BUS_ERROR (R168): A transfer ends in a bus error or removal, is abandoned, and the bus is recovered with
  nine clocks and STOP. -/
  | modBusError (bus : Fin 8) (removed : Bool)
  /-- LIFE_SAMPLE (R179): Every LIFE_SAMPLE_S the device adds laser wear from temperature and bias. -/
  | lifeSample (cage : Fin 64) (temp : Int) (bias : List Nat) (age : Option (Fin 101))
  /-- LIFE_CHECKPOINT (R182): Every 24 h a MOD_LIFE record is written for each present module. -/
  | lifeCheckpoint (cage : Fin 64)
  /-- MOD_CMD (R184): A write of MOD.CMD.GO starts a host transfer of 1–8 bytes to a cage. -/
  | modCmd (value : Word)
  /-- MOD_CMD_DONE (R184): A host module transfer ends with its STATUS. -/
  | modCmdDone (outcome : BusEnd) (data : List Byte)
  /-- LOOKUP (R258): Command LOOKUP searches by key or address and returns image, position and prefix data. -/
  | lookup (block : Fin 32) (value : Word)
  /-- READ (R258): Command READ returns the entry image at INDEX or a stash index. -/
  | read (block : Fin 32) (value : Word)
  /-- INSERT (R237): Command INSERT places a new exact-match entry, relocating entries or using the stash. -/
  | insert (block : Fin 32) (value : Word)
  /-- UPDATE (R258): Command UPDATE replaces the data of a present key in place. -/
  | update (block : Fin 32) (value : Word)
  /-- UPSERT (R258): Command UPSERT updates a present key or inserts it. -/
  | upsert (block : Fin 32) (value : Word)
  /-- DELETE (R258): Command DELETE clears the key's entry and refills from the stash. -/
  | delete (block : Fin 32) (value : Word)
  /-- WRITE_AT (R255): Command WRITE_AT writes a whole entry at INDEX. -/
  | writeAt (block : Fin 32) (value : Word)
  /-- CLEAR_AT (R255): Command CLEAR_AT clears the entry at INDEX. -/
  | clearAt (block : Fin 32) (value : Word)
  /-- MOVE (R254): Command MOVE copies a ternary entry to TARGET and then clears its source. -/
  | move (block : Fin 32) (value : Word)
  /-- LPM_ADD (R250): Command LPM_ADD allocates nodes, writes the prefix's result leaf-pushed, and links new nodes
  bottom-up. -/
  | lpmAdd (block : Fin 32) (value : Word)
  /-- LPM_DELETE (R251): Command LPM_DELETE rewrites covered slots with the cover and collapses uniform nodes. -/
  | lpmDelete (block : Fin 32) (value : Word)
  /-- UNPIN (R258): Command UNPIN clears PINNED of a key's entry. -/
  | unpin (block : Fin 32) (value : Word)
  /-- CLEAR_TABLE (R258): Command CLEAR_TABLE invalidates every entry of the named twin. -/
  | clearTable (block : Fin 32) (value : Word)
  /-- TABLE_OP_DONE (R260): A table operation ends when all four copies have changed; BUSY clears and CMD_DONE may
  set. -/
  | tableOpDone (block : Fin 32)
  /-- CMD_WRITE_WHILE_BUSY (R260): A write to a busy command block is ignored and sets WRITE_WHILE_BUSY. -/
  | cmdWriteWhileBusy (block : Fin 32)
  /-- TABLE_SEED_WRITE (R243): A write of TBL.TABLE_SEED takes effect only for an empty standby twin. -/
  | tableSeedWrite (table : Fin 256) (twin : Fin 2) (value : Word)
  /-- LEARN_EVENT_ARRIVAL (R265): A learn event reaches the sequencer queue, or is discarded when the queue is full.
  -/
  | learnEventArrival
  /-- LEARN_EVENT_PROCESS (R266): The sequencer applies the first matching outcome for the event: insert, refuse,
  count or station move. -/
  | learnEventProcess
  /-- FLAP_WINDOW_CLOSE (R267): A flap window that ends without pinning frees its tracker entry. -/
  | flapWindowClose (table : Fin 256) (key : Nat)
  /-- PIN_HOLD_EXPIRY (R268): PIN_HOLD_S after pinning the entry is unpinned and an UNPINNED report written. -/
  | pinHoldExpiry (table : Fin 256) (key : Nat)
  /-- AGE_CLOCK_TICK (R269): Every TICK_MS a table's age clock advances and is broadcast to the rim dies. -/
  | ageClockTick (table : Fin 256)
  /-- AGING_SWEEP_VISIT (R271): The sweep visits a position, sets OLD on copies of age 32,768 or more, and acts on
  idle entries. -/
  | agingSweepVisit
  /-- PROMENADE_GO (R277): A write of PROM_CTRL.GO starts a Promenade pass, or is refused. -/
  | promenadeGo (value : Word)
  /-- PROMENADE_ABORT (R277): A write of PROM_CTRL.ABORT ends the running pass. -/
  | promenadeAbort (value : Word)
  /-- PROMENADE_COMPARE (R274): A shadow record or position is compared with the table copies, writing MISSING,
  DIFFERENT or SKEW reports. -/
  | promenadeCompare (image : Nat)
  /-- PROMENADE_CENSUS (R275): An EXACT pass ends with a census of count and CRC sum and a PROM_CENSUS report. -/
  | promenadeCensus
  /-- ADMISSION (R290): A head at a hub quadrant is tested against counts before the frame and assigned a region or
  dropped. -/
  | admission (pipe : PipeNo)
  /-- SEGMENT_WRITE (R310): A full segment, or the last at frame end, requests a cell and is written and linked. -/
  | segmentWrite (pipe : PipeNo) (packet arrived : Nat) (rivals : List (Fin 18))
  /-- FRAME_VERDICT (R313): At the frame's end the verdict enqueues waiting copies or removes and stomps in-progress
  ones. -/
  | frameVerdict (packet : Nat)
  /-- LEASE_REQUEST (R325): A write of CELL.LEASE_CTRL.GO requests 1–8 cells of one pool, all or nothing. -/
  | leaseRequest (fn : FnNo) (ask : LeaseAsk)
  /-- LEASE_COMPLETE (R325): A lease request ends with OK and valid results, or returns every cell and reports its
  first failure. -/
  | leaseComplete (fn : FnNo)
  /-- LEASE_FREE (R328): A write of CELL.LEASE_FREE frees a leased cell after its checks, or records a free fault. -/
  | leaseFree (fn : FnNo) (value : Word)
  /-- ECC_UNCORRECTABLE (R333): An uncorrectable word in cell data, a link word or the bitmap stomps copies and
  withdraws cells. -/
  | eccUncorrectable (structure_ : Fin 3) (cell : Fin 33554432) (word : EccWord)
  /-- SCHEDULER_PICK (R337): With the egress pipe acknowledging and flight room, the port scheduler picks one eligible
  frame by tier and WFQ. -/
  | schedulerPick (port : PortNo)
  /-- WHEEL_SLOT (R351): A calendar-wheel slot fires and its shapers are refilled, late ones counted. -/
  | wheelSlot (quadrant : RimNo) (coarse : Bool)
  /-- OVERFLOW_MIGRATE (R352): Once per coarse-wheel turn, overflow entries due in the next turn move onto the coarse
  wheel. -/
  | overflowMigrate (quadrant : RimNo)
  /-- HOLD_EXPIRY (R359): The hold timer expires and the port's queues are flushed with HOLD_FLUSH. -/
  | holdExpiry (port : PortNo)
  /-- FLUSH_END (R360): A flush ends and the port becomes ACTIVE or DOWN. -/
  | flushEnd (port : PortNo)
  /-- MC_GROUP_WRITE (R366): A write of MC.GROUP replaces the header whole, or is ignored and counted when out of
  range. -/
  | mcGroupWrite (group : Fin 65536) (value : Word)
  /-- MC_SYNC (R367): A write of MC.SYNC.REQ clears DONE and starts a sync. -/
  | mcSync (value : Word)
  /-- MC_SYNC_DONE (R367): DONE sets once every replication begun before the request has finished. -/
  | mcSyncDone
  /-- QUERY (R335): A write of QM.QUERY.GO reports a queue's depth and state, or ABSENT, TROUPE or NOT_READY. -/
  | query (fn : FnNo) (value : Word)
  /-- SPILL_MOVE (R455): The spill writer packs a marked frame into HBM blocks, links them and frees its cells. -/
  | spillMove
  /-- REFILL (R459): The refill engine writes a spilled frame back into cells ahead of its spill run. -/
  | refill (rivals : List (Fin 18))
  /-- REFILL_RETRY (R461): A refill lacking a cell or descriptor retries after RETRY_NS. -/
  | refillRetry (queue : QueueNo) (rivals : List (Fin 18))
  /-- TIME_SNAPSHOT (R376): A read of TIME.NOW_SUB bits [31:0] snapshots network time and the raw counter for the
  function. -/
  | timeSnapshot (fn : FnNo)
  /-- SERVO_SAMPLE (R378): A write of TIME.SERVO_OFFSET is a servo sample that steps or steers the rate. -/
  | servoSample (value : Word)
  /-- PPS_EDGE (R382): An accepted 1PPS edge is stamped and used as a servo sample. -/
  | ppsEdge (rising : Bool) (phase : Fin 4)
  /-- PPS_MISSED (R382): No edge within 1.1 s increments MISSED and raises PPS_MISSED. -/
  | ppsMissed
  /-- SERVO_TIMEOUT (R380): No sample for TIMEOUT_MS in LOCKED moves the servo to HOLDOVER. -/
  | servoTimeout
  /-- HOLDOVER_EXPIRY (R380): HOLDOVER longer than HOLDOVER_S moves the servo to FREE. -/
  | holdoverExpiry
  /-- SERVO_DISABLE (R380): A write of SERVO_CFG.EN = 0 moves the servo to FREE. -/
  | servoDisable (value : Word)
  /-- REF_LOST (R383): Loss of the time reference clears REF_PRESENT and PLL_LOCK and writes TIME_REF_LOST. -/
  | refLost
  /-- REF_RETURN (R383): The time reference returns and REF_PRESENT sets. -/
  | refReturn
  /-- PLL_RELOCK (R383): The counter PLL locks again and PLL_LOCK sets. -/
  | pllRelock
  /-- PPS_OUT_PULSE (R384): At each whole second plus CORR_NS the 1PPS output rises for WIDTH_US. -/
  | ppsOutPulse
  /-- SYNCE_SQUELCH (R385): A SyncE output is squelched when its source lane or settings become unusable. -/
  | synceSquelch (out : Fin 2)
  /-- WIN_GO (R405): A write of WIN_CTRL.GO makes the named bank pending at a computed switch instant, cancels, or is
  refused. -/
  | winGo (port : PortNo) (value : Word)
  /-- BANK_SWITCH (R405): At t_s the pending bank becomes active and the old bank inactive. -/
  | bankSwitch (port : PortNo)
  /-- WIN_WRITE_REFUSED (R403): A write to an active or pending bank is ignored and sets WRITE_REFUSED. -/
  | winWriteRefused (port : PortNo) (bank : Fin 2)
  /-- GATE_CHANGE (R395): A gate-list entry boundary opens or closes class-group gates. -/
  | gateChange (port : PortNo)
  /-- HIST_SNAPSHOT (R415): A write of TEL.HIST_CTRL.GO copies a histogram at one instant, optionally clearing it. -/
  | histSnapshot (fn : FnNo) (value : Word)
  /-- FATE_UPDATE (R420): An outcome at the hub is carried back to the flow's line, or folded into the aggregate. -/
  | fateUpdate
  /-- FLOW_WRITEBACK (R422): A die writes a cache line back to the ledger, or adds it approximately to the aggregate
  when the queue is full. -/
  | flowWriteback (die : RimNo) (line : Fin 65536)
  /-- LEDGER_WRITEBACK (R464): The ledger engine serves a write-back, allocating an entry or answering with refusal.
  -/
  | ledgerWriteback
  /-- EXPORT_SWEEP_VISIT (R429): The export sweep merges and exports an entry on idle or active timeout. -/
  | exportSweepVisit
  /-- OVERFLOW_EPISODE_END (R427): No refusal for QUIET_MS ends the episode and clears OVERFLOW. -/
  | overflowEpisodeEnd
  /-- REFUSED_LINE_RETRY (R425): After RETRY_US a refused line's flow asks again for an entry. -/
  | refusedLineRetry (die : RimNo) (line : Fin 65536)
  /-- EXPORT_MESSAGE_CLOSE (R439): An IPFIX message is closed and sent to its ring or queue, or lost. -/
  | exportMessageClose (troupe : TroupeNo)
  /-- TEMPLATE_RESEND (R437): Every TEMPLATE_S the template sets are resent. -/
  | templateResend (troupe : TroupeNo)
  /-- DROP_INTERVAL (R441): A drop-record interval ends and per-reason budgets restart. -/
  | dropInterval (troupe : TroupeNo)
  /-- STACK_TRAINING_END (R444): An HBM stack ends training READY, retries, or FAILED after three attempts. -/
  | stackTrainingEnd (stack : Fin 2) (ok : Bool) (repairs : Fin 256)
  /-- HBM_RETRAIN (R447): A write of HBM.CTRL.RETRAIN restarts training of a FAILED stack. -/
  | hbmRetrain (value : Word)
  /-- STACK_FAIL (R447): A stack reaching FAIL_UNCORR uncorrectable words in one second fails and its spill runs are
  removed. -/
  | stackFail (stack : Fin 2)
  /-- HBM_ACTIVATION (R448): The controller serves a request with one activation and a closed row. -/
  | hbmActivation (stack : Fin 2)
  /-- SCRUB (R453): The scrubber reads a word and writes back a correction unless newer data arrived. -/
  | scrub (stack : Fin 2) (inError newer : Bool)
  /-- HBM_UNCORR (R454): An uncorrectable HBM word drops spilled frames, loses ledger data or poisons capture data. -/
  | hbmUncorr (stack : Fin 2) (place : HbmPlace) (addr : Fin 18446744073709551616) (reported : Bool)
  /-- CAPTURE_WRITE (R465): The capture writer writes a capture queue copy as a ring record, wrapping or stalling. -/
  | captureWrite
  /-- CAPTURE_COPY (R468): A write of HBM.COPY_CTRL.GO starts a DMA copy from the capture ring. -/
  | captureCopy (write : FnWrite)
  /-- CAPTURE_COPY_DONE (R468): A copy-engine request ends with its STATUS and COPY_DONE. -/
  | captureCopyDone (dmaError : Bool)
  /-- CADENCE_SET_WRITE (R473): A write of PACE.CADENCE_SET sets the mode and setpoint and a new target Ce. -/
  | cadenceSetWrite (value : Word)
  /-- CADENCE_WINDOW (R471): Each 1 µs window measures the actual cadence of each domain. -/
  | cadenceWindow (caps : List Nat) (quadrants : Fin 4096)
  /-- LAG_RECOVER (R472): A lag limit is lifted after CAP_MHZ has covered Ce for RECOVER_US. -/
  | lagRecover (domain : Fin 5)
  /-- RAIL_ADJUST (R480): Every 100 µs or at a target change the governor raises, lowers or sets each core rail. -/
  | railAdjust (answers : BitVec 5)
  /-- RAMP_START (R483): After rails reach their voltage and SETTLE_US, Ce starts rising at RAMP_MHZ_US. -/
  | rampStart (settled : Nat)
  /-- RAMP_END (R483): A ramp reaches its target Ce. -/
  | rampEnd
  /-- DROOP_DETECT (R485): A droop detector fires and the pace drops to (16 − STEP)/16 within 5 ns. -/
  | droopDetect (domain : Fin 5)
  /-- DROOP_CLEAR (R485): A droop detector clears. -/
  | droopClear (domain : Fin 5)
  /-- DROOP_RESPONSE_END (R485): 2 µs after the last detector clears the droop response ends and a long-droop record
  may be written. -/
  | droopResponseEnd
  /-- DROOP_LONG (R487): A droop response passing LONG_US sets LONG_SEEN and raises DROOP_LONG. -/
  | droopLong
  /-- THERMAL_SAMPLE (R488): Every 20 µs the hottest sensor may raise the throttle level and its limit. -/
  | thermalSample (temps : List Int)
  /-- THROTTLE_FALL (R488): After EXIT_MS below threshold less HYST_C the level falls by one. -/
  | throttleFall
  /-- RAIL_FAULT (R482): Three AVSBus failures or a regulator fault freeze the rail, set the RAIL_FAULT limit and
  write a record. -/
  | railFault (rail : Fin 9)
  /-- RAIL_RETRY (R482): Every 1 ms a faulted rail is retried and the limit lifted after 10 ms of good retries. -/
  | railRetry (rail : Fin 5) (good : Bool)
  /-- PMBUS_MEASURE (R481): Every MEAS_MS the regulators are read and measured energy and UNATTR updated. -/
  | pmbusMeasure (readings : List RailReading)
  /-- ENERGY_TICK (R497): Every 10 µs the energy model adds dynamic and static energy per group. -/
  | energyTick
  /-- PHASE_BOOST_START (R494): LEAD_NS before a predicted burst or gate opening, rails are boosted. -/
  | phaseBoostStart (by_ : BoostBy)
  /-- PHASE_BOOST_END (R494): A boost ends and its lowering follows the droop rules. -/
  | phaseBoostEnd (by_ : BoostBy)
  /-- PHASE_EVALUATE (R496): A prediction is judged hit or miss, retiring the entry at MISS_LIMIT misses. -/
  | phaseEvaluate (entry : Fin 16)
  /-- ADVISORY_SEND (R500): A qualifying slowing or its end sends a SLOW or CLEAR advisory on ADV_PORTS. -/
  | advisorySend
  /-- ADVISORY_REFRESH (R500): Every REFRESH_US a lasting SLOW advisory, or a pending CLEAR, is resent. -/
  | advisoryRefresh
  /-- ADVISORY_RX (R503): An advisory received as L425 control blocks is accepted or rejected and updates the sender's
  entry. -/
  | advisoryRx (port : PortNo) (bytes : List Byte)
  /-- ADV_INJECT (R503): A write of PACE.ADV_INJECT2 after ADV_INJECT delivers a host advisory. -/
  | advInject (value : Word)
  /-- ADVISORY_EXPIRY (R504): A sender entry not refreshed for 4 × its REFRESH_US expires. -/
  | advisoryExpiry (member : Fin 64)
  /-- FREEWHEEL_IDLE (R478): A rim die without tokens for IDLE_US has its rail lowered to IDLE_MV. -/
  | freewheelIdle (die : RimNo)
  /-- FREEWHEEL_WAKE (R478): A head at an idled die limits Ce by its capability while its rail rises. -/
  | freewheelWake (die : RimNo)
  /-- GOVERNOR_READY (R484): Once regulators are read and capability covers the target, pace tokens start and GOVERNOR
  sets. -/
  | governorReady (caps : List Nat)
  /-- AVS_TIMEOUT (R484): No AVSBus answer within 10 ms of reset leaves rails at boot voltage and sets GOVERNOR. -/
  | avsTimeout
  /-- REMOVE (R515): A TROUPE_CTRL REMOVE starts taking a troupe out of service, or is refused. -/
  | remove (value : Word)
  /-- RESTORE (R517): A TROUPE_CTRL RESTORE starts returning a troupe with its image contents, or is refused. -/
  | restore (value : Word)
  /-- TROUPE_REMOVE_DONE (R515): Removal ends: STATE REMOVED, TROUPE_DONE raised and HIF_TROUPE_REMOVED written. -/
  | troupeRemoveDone
  /-- TROUPE_RESTORE_DONE (R517): Restore ends with its troupe commit, ready bit set and STATE ACTIVE. -/
  | troupeRestoreDone
  /-- RING_ENABLE (R522): A write of a ring's EN enables it with counts reset, or disables it after the entry in
  progress. -/
  | ringEnable (fn : FnNo) (kind : Machine.RingKind) (ring : Fin 512) (value : Word)
  /-- RING_DOORBELL (R521): A host write of a ring count moves it forward, or is ignored with OVERRUN. -/
  | ringDoorbell (fn : FnNo) (kind : Machine.RingKind) (ring : Fin 512) (pool : Option (Fin 4)) (count : BitVec 32)
  /-- RX_DELIVER (R529): The receive engine places a ring's head frame into buffers and writes completions and the
  producer count. -/
  | rxDeliver (entries : List PoolEntry) (dmaError : Bool)
  /-- RX_WAIT_EXPIRY (R528): A head frame waiting WAIT_US is dropped with RING_FULL. -/
  | rxWaitExpiry (ring : Fin 512)
  /-- INTERRUPT_COALESCE (R524): COAL_US after the first unsignalled entry the ring's vector is sent. -/
  | interruptCoalesce (kind : Machine.RingKind) (ring : Fin 512)
  /-- COPY (R533): Transmit descriptor COPY reads the frame from host memory into cells and injects it. -/
  | copy (chain : List TxDesc) (data : Option (List Byte))
  /-- FILL (R533): Transmit descriptor FILL copies host bytes into a leased cell. -/
  | fill (chain : List TxDesc) (data : Option (List Byte))
  /-- CELLS (R533): Transmit descriptor CELLS injects a frame made of leased cells, after the checks of R534. -/
  | cells (chain : List TxDesc)
  /-- MSIX_ALLOC_WRITE (R540): A PF write of HIF.MSIX_ALLOC changes a function's vectors, or is ignored and sets
  REJECTED. -/
  | msixAllocWrite (f : FnNo) (value : Word)
  /-- INT_REARM (R538): A write of INT_REARM resends vector 0 if causes are pending. -/
  | intRearm (fn : FnNo) (value : Word)
  /-- WIN_COMMIT (R520): A write of WIN.COMMIT.GO requests a commit scoped to the window's troupe. -/
  | winCommit (fn : FnNo) (value : Word)
  /-- WARDEN_INPUT (R544): The input sequencer numbers an input and delivers it to both wardens, or coalesces it. -/
  | wardenInput (kind : Fin 4) (payload : List Nat) (takenA takenB : Nat)
  /-- TIMER_INPUT (R544): Every 10 µs a timer input carrying raw and network time is sequenced. -/
  | timerInput (takenA takenB : Nat)
  /-- COMMAND_COPY (R547): A warden command copy reaches its eliminator and acts, is compared, or is discarded as
  stale. -/
  | commandCopy (copies : CopyArrival)
  /-- ELIMINATOR_WINDOW_EXPIRY (R549): A partner copy missing after ELIM_WINDOW_US is counted and handled as a
  divergence. -/
  | eliminatorWindowExpiry (eliminator : Fin 6)
  /-- DIVERGENCE_SELFTEST_END (R550): The divergence self-test ends; failing wardens resign, or the standby resigns
  with DIVERGE. -/
  | divergenceSelftestEnd (failA failB : Bool)
  /-- LOCKSTEP_MISMATCH (R551): A warden's two cores disagree and it resigns with LOCKSTEP. -/
  | lockstepMismatch (warden : Fin 2)
  /-- WATCHDOG_EXPIRY (R551): No timer input taken for 1 ms, or a full self-test over 6 ms, resigns the warden. -/
  | watchdogExpiry (warden : Fin 2)
  /-- PERIODIC_SELFTEST (R554): Every SELFTEST_MS a warden runs a sliced self-test and resigns on failure. -/
  | periodicSelftest (warden : Fin 2) (pass : Bool)
  /-- AUTO_RESTART (R556): 10 ms after resignation a warden restarts, or becomes FAILED within RESTART_HOLD_S. -/
  | autoRestart (warden : Fin 2)
  /-- WARDEN_LOAD_DONE (R556): A starting warden finishes loading firmware and enters SELFTEST. -/
  | wardenLoadDone (warden : Fin 2)
  /-- WARDEN_SELFTEST_DONE (R556): A starting warden passes self-test and resynchronises, or becomes sole ACTIVE. -/
  | wardenSelftestDone (warden : Fin 2) (pass : Bool)
  /-- RESYNC_DONE (R557): A rejoining warden catches up, becomes STANDBY and writes TND_RESYNC. -/
  | resyncDone (warden : Fin 2)
  /-- RESTART (R556): TND.CTRL OP RESTART restarts a RESIGNED or FAILED warden. -/
  | restart (value : Word)
  /-- RESIGN (R551): TND.CTRL OP RESIGN makes a running warden resign with cause HOST. -/
  | resign (value : Word)
  /-- RESTART_BOTH (R558): TND.CTRL OP RESTART_BOTH loads the pending firmware into both wardens and starts them
  together. -/
  | restartBoth (value : Word)
  /-- MAILBOX_DOORBELL (R559): A write of MBX_CTRL.DOORBELL while idle sends the request as a warden input, or the
  hardware answers NO_WARDEN. -/
  | mailboxDoorbell (value : Word)
  /-- GET_INFO (R560): Mailbox opcode GET_INFO returns firmware version, active warden and both states. -/
  | getInfo
  /-- ECHO (R560): Mailbox opcode ECHO returns its payload. -/
  | echo
  /-- MAILBOX_TIMEOUT (R561): A request without reply for 100 ms clears BUSY and sets TIMED_OUT. -/
  | mailboxTimeout
  /-- BBX_RECORD_WRITE (R565): A queued black-box record is written to a pinned or ring slot with its chain value. -/
  | bbxRecordWrite
  /-- BBX_SCAN (R567): The keeper power-on scan finds the chain end and breaks and sets the BBX bit. -/
  | bbxScan
  /-- SEALED_READOUT (R569): A write of BBX.READ_CTRL.GO starts a sealed readout by DMA. -/
  | sealedReadout (value : Word)
  /-- SEALED_READOUT_DONE (R569): A sealed readout ends with its records, seal and STATUS. -/
  | sealedReadoutDone (dmaError : Bool)
  /-- HOST_NOTE (R571): A write of HOST_NOTE_CTRL.GO writes a HOST_NOTE record, or is refused by the rate limit. -/
  | hostNote (value : Word)
  /-- KEEPER_GET_STATUS (R570): Keeper-port command 0x01 returns BBX.STATUS and STATUS2. -/
  | keeperGetStatus
  /-- KEEPER_GET_RECORDS (R570): Keeper-port command 0x02 returns up to 8 records from FIRST_SEQ. -/
  | keeperGetRecords (first : Nat) (count : Fin 256)
  /-- KEEPER_GET_SEAL (R570): Keeper-port command 0x03 returns a seal over the named records. -/
  | keeperGetSeal (first : Nat) (count : Fin 65536) (nonce : List Byte)
  /-- EXTEST (R616): JTAG instruction EXTEST selects boundary scan of the VDD_IO lands. -/
  | extest
  /-- IDCODE (R616): JTAG instruction IDCODE returns 0x1204_86B7. -/
  | idcode
  /-- SAMPLE_PRELOAD (R616): JTAG instruction SAMPLE/PRELOAD selects boundary scan. -/
  | samplePreload
  /-- BYPASS (R616): JTAG instruction BYPASS, or any unlisted code, selects the 1-bit register. -/
  | bypass (code : Fin 256)
  /-- BBX_DATA (R617): A BBX_DATA Update-DR starts a black-box command whose result a later capture returns. -/
  | bbxData (bytes : List Byte)
  /-- GET_VERSION (R579): SPDM GET_VERSION returns versions 1.2 and 1.3. -/
  | getVersion (transport : Fin 2)
  /-- GET_CAPABILITIES (R579): SPDM GET_CAPABILITIES returns the device's capabilities. -/
  | getCapabilities (transport : Fin 2)
  /-- NEGOTIATE_ALGORITHMS (R579): SPDM NEGOTIATE_ALGORITHMS selects P-384 and SHA-384. -/
  | negotiateAlgorithms (transport : Fin 2) (offered : Bool)
  /-- GET_DIGESTS (R579): SPDM GET_DIGESTS returns the slot 0 chain digest. -/
  | getDigests (transport : Fin 2)
  /-- GET_CERTIFICATE (R579): SPDM GET_CERTIFICATE returns the certificate chain, root first. -/
  | getCertificate (transport : Fin 2) (slot : Fin 8) (offset length : Fin 65536)
  /-- CHALLENGE (R579): SPDM CHALLENGE is answered signed with the alias key. -/
  | challenge (transport : Fin 2) (slot : Fin 8) (nonce : List Byte)
  /-- GET_MEASUREMENTS (R579): SPDM GET_MEASUREMENTS returns measurements 1–5, signed when asked. -/
  | getMeasurements (transport : Fin 2) (index : Fin 256) (nonce : List Byte) (signed : Bool)
  /-- SPDM_UNSUPPORTED_REQUEST (R579): Any other SPDM request, or one during derivation, is answered with an SPDM
  ERROR. -/
  | spdmUnsupportedRequest (transport : Fin 2)
  /-- ALIAS_DERIVE_DONE (R577): An alias derivation ends with a new certificate, ALIAS_EPOCH incremented and
  ALIAS_CHANGED raised. -/
  | aliasDeriveDone
  /-- PROVISION (R583): An owner-key command PROVISION is checked and fuses a new key into an empty slot. -/
  | provision (fn : FnNo) (value : Word)
  /-- REVOKE (R584): An owner-key command REVOKE is checked and revokes a slot, rejecting loads signed by it. -/
  | revoke (fn : FnNo) (value : Word)
  /-- FW_LOAD (R588): A write of SEC.FW_CTRL.LOAD starts loading a firmware package from host memory. -/
  | fwLoad (value : Word)
  /-- FW_LOAD_DONE (R586): A firmware package is verified and becomes pending, or is rejected with SEC_FW_REJECT. -/
  | fwLoadDone (header payload : List Byte) (noHeader noPayload : Bool)
  /-- COMMIT_SVN (R589): A keyed write of COMMIT_SVN raises the fused security version to that of the running
  firmware. -/
  | commitSvn (value : Word)
  /-- FW_BOOT_READ (R587): At main-domain reset the hub reads and verifies firmware from the preferred flash slot,
  then the other. -/
  | fwBootRead (header payload : List Byte) (noHeader noPayload : Bool)
  /-- KEEPER_POWER_ON (R108): VDD_KEEP rising into tolerance resets everything and starts the keeper domain and scan.
  -/
  | keeperPowerOn
  /-- KEEPER_RUNNING (R112): 5 ms after VDD_KEEP the KEEPER bit sets. -/
  | keeperRunning
  /-- VDD_KEEP_LOSS (R565): Loss of VDD_KEEP discards queued records and every keeper state. -/
  | vddKeepLoss (torn : Bool)
  /-- MAIN_POWER_ON (R606): MAIN_PG rising takes the hub out of reset, counts the boot and starts training and flash
  load. -/
  | mainPowerOn (ref25 testEn : Bool)
  /-- MAIN_PG_FALL (R606): MAIN_PG falling begins a main-domain reset within 1 µs. -/
  | mainPgFall
  /-- SYS_RESET (R608): SYS_RESET_N low for 1 µs or more causes a device reset, left at its rising edge. -/
  | sysReset (lowTicks : Nat)
  /-- RESET_CTRL_WRITE (R111): A keyed PF write of TOP.RESET_CTRL.DEVICE starts a device reset. -/
  | resetCtrlWrite (fn : FnNo) (value : Word)
  /-- HOST_RESET (R108): PERST#, hot reset or link-down clears PCI Express state, DMA rings and the PCIE bit. -/
  | hostReset (cause : HostDown)
  /-- PCIE_LINK_UP (R630): Link training ends and the PCIE bit sets once BAR0 is accessible. -/
  | pcieLinkUp (speed : Fin 6) (widthLog2 : Fin 5)
  /-- FLR (R523): A function-level reset of VF n resets the troupe's window state, rings and leases. -/
  | flr (fn : FnNo)
  /-- PF_FLR (R509): A PF FLR resets every VF, troupe 0's rings, the PF's MSI-X state and its latches. -/
  | pfFlr
  /-- MONITOR_TRIP (R619): A monitor trips, latching READING, counting and writing MON_TRIP within its limit. -/
  | monitorTrip (monitor : Fin 22) (reading : BitVec 32)
  /-- MONITOR_CLEAR (R618): A monitor's quantity back in range for 1 ms ends its active state. -/
  | monitorClear (monitor : Fin 22)
  /-- HOST_LOAD_START (R72): A write of CFG.LOAD_CTRL.START with SOURCE 0 starts fetching an image by DMA, or is
  refused BUSY. -/
  | hostLoadStart (value : Word)
  /-- LOAD_ABORT (R73): A write of CFG.LOAD_CTRL.ABORT abandons a load before APPLY with cause ABORTED. -/
  | loadAbort (value : Word)
  /-- IMAGE_HEADER_CHECK (R73): Header, section table and signature block arrive and steps 1–11 and 14 are checked. -/
  | imageHeaderCheck (head sig list : List Byte) (readFailed : Bool)
  /-- SECTION_BODY_CHECK (R73): A section body streams in and is checked against its digest, then steps 12 and 13. -/
  | sectionBodyCheck (digest : List Byte) (body : SectionBody) (readFailed : Bool)
  /-- IMAGE_APPLY (R75): A verified full image enters APPLY, taking ports down, flushing queues and clearing tables
  and ready bits. -/
  | imageApply
  /-- IMAGE_APPLY_END (R77): The apply ends with the device's closing package commit and the IMAGE bit sets. -/
  | imageApplyEnd
  /-- TROUPE_IMAGE_APPLY (R102): A verified troupe image is written to the inactive region or with the troupe halted,
  ending in a troupe commit. -/
  | troupeImageApply
  /-- COMMIT (R82): A write of CFG.COMMIT.GO copies the scope's staging values to the pending set, or is refused BUSY.
  -/
  | commit (value : Word)
  /-- COMMIT_FENCE (R86): After checks pass, epoch bits toggle and time-scoped values take effect at once. -/
  | commitFence
  /-- COMMIT_DRAIN_END (R88): The last old-epoch packet of the scope leaves and the commit reaches DONE. -/
  | commitDrainEnd
  /-- DRAIN_LIMIT_EXPIRY (R89): A commit waiting in WAIT_DRAIN past LIMIT_US marks stale frames and proceeds, or is
  refused DRAINING. -/
  | drainLimitExpiry
  /-- PERST_DEASSERT (R630): PERST# rising with the hub out of reset starts PCI Express link training. -/
  | perstDeassert
  /-- SYS_RESET_N_RELEASE (R608): The rising edge of SYS_RESET_N, with MAIN_PG high, takes the hub out of a device
  reset and samples TIME_REF_SEL. -/
  | sysResetNRelease (ref25 : Bool)
  /-- CDR_LOCK (R161): A lane sees signal and its clock recovery locks, setting SIGNAL and CDR_LOCK and ending any
  SyncE squelch caused by the lane. -/
  | cdrLock (lane : LaneNo)
  /-- ADAPT_DONE (R142): A lane's initial receive adaptation completes and ADAPT_DONE sets. -/
  | adaptDone (lane : LaneNo) (result : AdaptResult)
  /-- ALIGNMENT_MARKER_LOCK (R144): A standard-mode lane locks to the alignment markers of its clause, and the port
  deskews and sets DESKEW_OK. -/
  | alignmentMarkerLock (lane : LaneNo)
  /-- PORT_FAULT_END (R161): A port's local or remote fault condition ends, for example when remote-fault sequences
  stop or the high error-rate condition clears, and the UP_DEBOUNCE_US timer starts. -/
  | portFaultEnd (lane : LaneNo) (kind : FaultKind)
  /-- IEEE_LINK_TRAINING_END (R141): IEEE 802.3 link training of a standard-mode lane ends, and LANE.TX_FIR writes are
  accepted again. -/
  | ieeeLinkTrainingEnd (lane : LaneNo)
  /-- CHECK_SYNC (R134): The raw test-mode checker of a lane synchronises to its pattern and CHECK_SYNC sets. -/
  | checkSync (run : CheckRun)
  /-- CONFIGURATION_REQUEST (R506): A PCI Express configuration write changes VF Enable, NumVFs or Bus Master Enable
  of a function. -/
  | configurationRequest (w : ConfigWrite)
  /-- RESYNC_COPY_DONE (R557): The copy of the active warden's SRAM and sequence number to the rejoining warden
  completes, and the active warden resumes. -/
  | resyncCopyDone
  /-- OWNER_KEY_COMMAND_DONE (R583): An owner-key command that passed its checks finishes its fuse write within 20 ms,
  reports STATUS OK, writes its pinned record and raises KEY_DONE. -/
  | ownerKeyCommandDone
  /-- UNKNOWN_OP (R560): A mailbox request whose opcode is neither fixed nor defined by the firmware is answered with
  STATUS 1, UNKNOWN_OP. -/
  | unknownOp
  /-- ZERO_FILL_DONE (R446): Zeroing of the locator and entry regions of a stack that reached READY after the apply
  completes, and its TOP.READY bit then sets. -/
  | zeroFillDone (stack : Fin 2)
deriving DecidableEq, Repr

end Sys2Proof
end

