-- ==== Sys2Proof/Machine/Crc.lean ====
section
/-!
DEFINITION. The cyclic redundancy checks of R202, R235 and R275, on bytes.
-/

namespace Sys2Proof.Machine

/-- One bit step of a reflected CRC register of 32 bits with the reflected polynomial `poly`. -/
def crcBitR (poly r : Nat) : Nat := if r % 2 = 1 then (r / 2) ^^^ poly else r / 2

/-- One byte of a reflected CRC. -/
def crcByteR (poly r b : Nat) : Nat := (List.range 8).foldl (fun r _ => crcBitR poly r) (r ^^^ b)

/-- A reflected CRC of 32 bits from an initial register, before the final XOR. -/
def crcR (poly init : Nat) (bs : List Byte) : Nat := bs.foldl (fun r b => crcByteR poly r b.toNat) init

/-- CRC-32 with the IEEE 802.3 polynomial (R202). -/
def crc32 (seed : Nat) (bs : List Byte) : Nat := crcR 0xEDB88320 (seed % 2 ^ 32) bs ^^^ 0xFFFFFFFF

/-- CRC-32C (R202): 0x82F6_3B78 is 0x1EDC_6F41 reflected. -/
def crc32c (seed : Nat) (bs : List Byte) : Nat := crcR 0x82F63B78 (seed % 2 ^ 32) bs ^^^ 0xFFFFFFFF

/-- One bit step of a CRC register of `w` bits that is not reflected. -/
def crcBitN (w poly r : Nat) : Nat := if natBit r (w - 1) then (r * 2 % 2 ^ w) ^^^ poly else r * 2 % 2 ^ w

/-- A CRC of `w` bits that is not reflected, most significant bit of each byte first. -/
def crcN (w poly init : Nat) (bs : List Byte) : Nat :=
  bs.foldl (fun r b => (List.range 8).foldl (fun r _ => crcBitN w poly r) (r ^^^ (b.toNat <<< (w - 8)))) init

/-- CRC-16 with x^16 + x^12 + x^5 + 1 (R202). -/
def crc16 (seed : Nat) (bs : List Byte) : Nat := crcN 16 0x1021 (seed % 2 ^ 16) bs

/-- CRC-64 with the ECMA-182 polynomial, from 0 and without a final XOR (R275; DEDUCED, log entry 9). -/
def crc64 (bs : List Byte) : Nat := crcN 64 0x42F0E1EBA9EA3693 0 bs

/-- The 32-bit XOR fold of R202. -/
def xorFold (seed : Nat) : List Byte → Nat
  | a :: b :: c :: d :: t => xorFold (seed ^^^ ofLe [a, b, c, d]) t
  | bs => seed ^^^ ofLe bs

/-- A hash function of R202. -/
def hashOf (fn : HashFn) (seed : Nat) (bs : List Byte) : Nat :=
  match fn with
  | .crc32 => crc32 seed bs
  | .crc32c => crc32c seed bs
  | .crc16 => crc16 seed bs
  | .xorFold => xorFold seed bs
  | .identity => ofLe (bs.take 4)

end Sys2Proof.Machine
end

