-- ==== Sys2Proof/Config.lean ====
section
/-!
DEFINITION. The free values: what the spec leaves open and the part fixes in a way nothing here can see. Each is
a constant without a body, applied to the number of the draw (State.drawn) or to what it depends on, so that nothing
can be proved of it.
-/

namespace Sys2Proof

/-- Random and otherwise open values: the value of draw `k` (log entry 2). -/
opaque Config.free (k : Nat) : Nat

/-- The fused voltage-to-cadence table of a domain: the voltage in mV that it needs for a cadence in MHz (R480,
R628). -/
opaque Config.fusedMv (domain mhz : Nat) : Nat

/-- The ECDSA P-384 signature that draw `k` makes over bytes: r and s, as its bytes (R569, R579). -/
opaque Config.signature (k : Nat) (message : List Byte) : List Byte

/-- The measurement of the ROMs, byte by byte (R575). -/
opaque Config.romDigest (i : Nat) : Nat

/-- Measurement 5 over the security state as numbers, whose byte layout the spec does not give (R575). -/
opaque Config.securityDigest (state : List Nat) : List Byte

/-- The first three certificates of the unit (R574). -/
opaque Config.unitChain (unused : Unit) : List Byte

/-- The alias certificate for measurements 1 to 3: equal measurements give the same key (R576, R577). -/
opaque Config.aliasCertificate (measurements : List Byte) : List Byte

end Sys2Proof
end

