-- ==== Sys2Proof/Machine/State.lean ====
section
/-!
DEFINITION. The state of the part as plain data: every register, queue, buffer, counter and mode that the spec
gives it, the outputs it has made, and the queue of the commands that wait. The registers themselves, with their
names, fields and reset values, are in Registers.lean; here they are one sparse file.
-/

namespace Sys2Proof.Machine

/-- A table of records by number, its numbers strictly rising. A number that is not listed holds the record's
reset value. -/
abbrev Tab (α : Type) := List (Nat × α)

/-- A register file: registers by key, strictly rising, and no entry equal to the register's reset value. -/
abbrev RegFile := List (Nat × Word)

/-- A memory: byte addresses strictly rising, and no entry equal to 0, which is what an unlisted byte reads as
(DESIGN CHOICE, log entry 4). -/
abbrev Mem := List Host.Cell

/-- One Lerar link (R30 to R32). Its state and its counters are registers. -/
structure Link where
  /-- Raw time at which the present window of LNK.CFG.WINDOW_MS began. -/
  winStart : Nat := 0
  /-- Replays in that window. -/
  winReplays : Nat := 0
  /-- Transfers sent and not acknowledged, oldest first. -/
  unacked : List Nat := []
  /-- The transfer that is being replayed, with its successive replays. -/
  tries : Tab Nat := []
  /-- Raw time of the last retirement, while the automatic retraining is still due. -/
  retiredAt : Option Nat := none
deriving DecidableEq, Repr

/-- Where a packet is. -/
inductive Place where
  /-- Being received or waiting in the ingress elastic FIFO of its pipe. -/
  | ififo
  /-- Waiting in the auxiliary entry of an ingress pipe (R213). -/
  | aux
  /-- In a wavefront of the ingress pipe. -/
  | ingress
  /-- Its head has crossed to the hub and waits for admission (R290). -/
  | hub
  /-- Admitted: its segments are being written or it is stored (R310). -/
  | store
  /-- Dropped, the rest of its bytes being discarded by the assembler (R200). -/
  | discard
  /-- Waiting for or in delivery to a receive ring (R525). -/
  | cpu
deriving DecidableEq, Repr

/-- The four regions of admission (R287). -/
inductive Region where
  | queueMin | ppMin | shared | headroom
deriving DecidableEq, Repr

/-- The metadata's device region (R195) that is not held elsewhere in the packet, and the program region. -/
structure Meta where
  lenValid : Bool := false
  parseTrunc : Bool := false
  parseReject : Bool := false
  drop : Bool := false
  toCpu : Bool := false
  mcValid : Bool := false
  adaptiveUsed : Bool := false
  dropReason : Nat := 0
  /-- QUEUE_ID as the program set it, none before it is set. -/
  queueId : Option Nat := none
  /-- MC_GROUP as the program set it (R195). -/
  mcGroup : Nat := 0
  /-- FLOW_HASH and ECMP_HASH (R202). -/
  flowHash : Nat := 0
  ecmpHash : Nat := 0
  /-- MIRROR: its four bytes. -/
  mirror : List Nat := [0, 0, 0, 0]
  /-- MC_COPY of R365, in the egress pipe. -/
  mcCopy : Nat := 0
  /-- POLICER: last policer executed and whether it did not conform. -/
  policer : Nat := 0
  nonConforming : Bool := false
  passes : Nat := 0
  /-- LEN_DELTA, signed. -/
  lenDelta : Int := 0
  /-- TEL_CTRL as a 96-bit number. -/
  telCtrl : Nat := 0
  /-- HDR_OFFSET: offsets of the header instances extracted. -/
  hdrOffsets : List Nat := []
  /-- Changes of the head that the deparser will make: offset, bytes removed, bytes inserted (R216). -/
  edits : List (Nat × Nat × List Nat) := []
  /-- Bytes 128 to 511, sparse, by offset from 128. -/
  prog : Tab Nat := []
  /-- The program's request for a pass through the auxiliary entry. -/
  resubmit : Bool := false
  recirculate : Bool := false
deriving DecidableEq, Repr

/-- A packet from its first byte to its last cell. -/
structure Packet where
  /-- INGRESS_PORT: 0 to 511, or 0x200 for an injected packet. -/
  port : Nat
  /-- The ingress pipe it passes. -/
  pipe : Nat
  /-- Its troupe. -/
  troupe : Nat
  /-- The epoch bit, set at launch (R80). -/
  epoch : Bool := false
  /-- It was injected by a transmit ring (R532). -/
  injected : Bool := false
  /-- It came back by recirculation (R197). -/
  recirculated : Bool := false
  /-- Its priority at reception (R147). -/
  prio : Nat := 0
  /-- Its head, the first 256 B of it, as it now stands. -/
  head : List Byte
  /-- The bytes after the head. -/
  body : List Byte
  /-- FRAME_LEN: bytes received, destination address to FCS. -/
  len : Nat
  /-- Bytes that have arrived. -/
  arrived : Nat
  /-- The whole frame has been received. -/
  whole : Bool := false
  /-- The drop reason of a bad verdict (R146, R313, R314). -/
  bad : Option Nat := none
  /-- INGRESS_TS in network time, in units of 2^-16 ns (R158). -/
  stamp : Int := 0
  /-- Where it is on its way. -/
  place : Place := .ififo
  /-- Its metadata (R195). -/
  md : Meta := {}
  /-- Policers that take a later debit at its end (R282). -/
  lateDebits : List Nat := []
  /-- Counters that take its length at its end, which was not known when they counted it (R196, R198). -/
  lateCounts : List Nat := []
  /-- Bytes of it in the ingress elastic FIFO. -/
  inFifo : Nat := 0
  /-- Bytes written to cells. -/
  stored : Nat := 0
  /-- Its descriptor, once it has one (R320). -/
  desc : Option Nat := none
  /-- Its drop has been counted (R301). -/
  counted : Bool := false
  /-- The program's decision has been taken: it is stored for its mirror copies alone (R210). -/
  dropped : Bool := false
  /-- The flow-cache line that counted it, as die × 65,536 + line, and the line's generation (R420). -/
  flow : Option (Nat × Nat) := none
  /-- Its bytes are still to be added to its flow or aggregate (R419). -/
  flowDue : Bool := false
  /-- The extended raw value of its ingress stamp, in units of 0.125 ns (R386). -/
  raw : Nat := 0
  /-- Its ingress stamp carries UNLOCKED (R386). -/
  unlocked : Bool := false
  /-- Cells that an injection handed over, in order (R326). -/
  cells : List Nat := []
  /-- The frame is marked stale (R89). -/
  stale : Bool := false
deriving DecidableEq, Repr

/-- Where a copy goes (R209, R363, R525). -/
inductive CopyKind where
  | unicast | multicast | mirror (session : Nat)
deriving DecidableEq, Repr

/-- A copy of a packet that enqueue makes, before or after its admission (R296). -/
structure Copy where
  kind : CopyKind
  queue : Nat
  /-- MC_COPY of R365: REPL_ID and the copy's number among its port's. -/
  replId : Nat := 0
  copyNo : Nat := 0
  /-- CE mark of R300. -/
  ce : Bool := false
  /-- Bytes kept before the FCS, 0 for all (R211). -/
  trunc : Nat := 0
  /-- The copy is charged to its queue's minimum (R291) or to the shared use of its queue and port. -/
  inMin : Bool := false
  /-- The copy is a receive ring's (R525), and its queue is the ring number. -/
  ring : Bool := false
  /-- Raw time of its enqueue and the depth of its queue before it (R413, R420). -/
  enqAt : Nat := 0
  depth : Nat := 0
deriving DecidableEq, Repr

/-- A stored frame's descriptor with its cells, which the hub links in order (R310, R320). -/
structure Desc where
  packet : Nat
  troupe : Nat
  epoch : Bool
  port : Nat
  prio : Nat
  /-- Cells in chain order with the bytes each holds. -/
  cells : List (Nat × Nat) := []
  /-- Stored length S (R308), 0 while not known. -/
  len : Nat := 0
  /-- COMPLETE: the frame ended with a good verdict. -/
  complete : Bool := false
  /-- BAD: it ended with a bad one. -/
  badFrame : Bool := false
  /-- The region that holds its frame. -/
  region : Region := .shared
  /-- Units of its cells. -/
  units : Nat := 0
  /-- It has taken a record of the descriptor pool, at its first enqueue (R320). -/
  held : Bool := false
  /-- Every copy admitted and not yet done, waiting, queued or being sent (R296). -/
  copies : List Copy := []
  /-- Reference count (R322). -/
  refs : Nat := 0
  /-- Copies that wait for the frame's end (R312). -/
  waiting : List Copy := []
  /-- Its frame is of a lossless priority. -/
  lossless : Bool := false
  /-- The frame is in a spill run (R368). -/
  spilled : Bool := false
  /-- The queueing delay of its first copy has been sent back to its flow (R420). -/
  delayed : Bool := false
  /-- The frame is marked for spill (R455). -/
  marked : Bool := false
  /-- Source of its cells for the tag check of R330: 0 INGRESS, 2 REFILL. -/
  source : Nat := 0
deriving DecidableEq, Repr

/-- An entry of a queue (R321, R368). -/
inductive QEntry where
  /-- A copy on the die: its descriptor, the copy, and whether it was enqueued in progress. -/
  | copy (desc : Nat) (c : Copy) (inProgress stale : Bool)
  /-- A spill run: the spilled frames in order by their numbers in the spill table. -/
  | run (frames : List Nat)
deriving DecidableEq, Repr

/-- A wavefront in a pipe: its heads (packets in an ingress pipe, flights in an egress pipe) and its position:
0 the parser, then the stages, then the deparser. -/
structure Wave where
  heads : List Nat
  pos : Nat
  launchedAt : Nat
  /-- The depth map that every head of it sees, and whether it was stale (R205, R207). -/
  map : Tab Nat := []
  mapStale : Bool := false
deriving DecidableEq, Repr

/-- A flowlet entry (R205, R206). -/
structure Flowlet where
  group : Nat
  member : Nat
  last : Nat
deriving DecidableEq, Repr

/-- One of the 32 pipes. -/
structure Pipe where
  /-- Pace tokens held (R37). -/
  tokens : Nat := 0
  /-- Wavefronts in the pipe, first launched first (R39). -/
  waves : List Wave := []
  /-- Packets in the ingress elastic FIFO in the order of their first bytes, heads not yet launched. -/
  fifo : List Nat := []
  /-- Reservations of frames in reception (R47): packet and bytes still reserved. -/
  reserved : Tab Nat := []
  /-- Bytes in the ingress elastic FIFO. -/
  fill : Nat := 0
  /-- The auxiliary entry's packets in order and its bytes (R213). -/
  aux : List Nat := []
  auxBytes : Nat := 0
  /-- Credits of the auxiliary entry, in 1/64 (R214). -/
  credits : Nat := 0
  /-- Packets past the ingress pipe in the order of their heads, in the segment assembler (R310, R311). -/
  asm : List Nat := []
  /-- A fence received and not yet taken at a launch (R86). -/
  fencePending : Bool := false
  /-- The epoch bits that the pipe gives to the heads it launches, bit n for troupe n. -/
  epochs : Nat := 0
  /-- The flowlet table, by ECMP hash modulo 65,536 (R205, R206). -/
  flowlets : Tab Flowlet := []
  /-- The depth map as the pipe last received it, by port, and when (R205, R207). -/
  map : Tab Nat := []
  mapAt : Nat := 0
  mapStale : Bool := false
  /-- Egress: the flights of the wavefront being formed (R337), and the port served last. -/
  forming : List Nat := []
  lastPort : Nat := 511
  /-- Egress: picks made since the last pace token (R337). -/
  picks : Nat := 0
  /-- The learn filter: events sent lately, newest first (R264). -/
  learnFilter : List (Nat × Nat) := []
  /-- Eligible packets counted per mirror session (R211). -/
  mirrorCount : Tab Nat := []
  /-- Wavefronts launched in the present cadence window (R471). -/
  launches : Nat := 0
  /-- Raw time since which the pipe has had no token or no head (R478). -/
  idleSince : Nat := 0
deriving DecidableEq, Repr

/-- A copy that was picked and is on its way out: in its egress pipe, in the egress elastic FIFO or in the MAC. -/
structure Flight where
  desc : Nat
  copy : Copy
  queue : Nat
  port : Nat
  packet : Nat
  troupe : Nat
  epoch : Bool
  inProgress : Bool
  windowed : Bool := false
  /-- The head in the egress pipe, and the metadata with it. -/
  head : List Byte := []
  md : Meta := {}
  /-- The charge lengths its shapers took (R347). -/
  charge : Nat := 0
  /-- The frame's stored length was unknown at the pick (R348). -/
  lenUnknown : Bool := false
  /-- It has left the egress pipe and waits for its frame's end to be recirculated whole (R213). -/
  recirc : Bool := false
  /-- It has left the egress pipe and lies in the egress elastic FIFO (R51). -/
  inFifo : Bool := false
  /-- The MAC has begun to send it (R51). -/
  started : Bool := false
  /-- It ends with a stomped FCS (R149, R333). -/
  stomp : Bool := false
  /-- Bytes after which an unreadable link word ends it (R333). -/
  cut : Option Nat := none
  /-- Predicted start s_e (R397). -/
  predicted : Int := 0
  /-- Egress stamp in units of 2^-16 ns of network time, and its extended raw value (R158, R386). -/
  stamp : Int := 0
  raw : Nat := 0
deriving DecidableEq, Repr

/-- What the transmitter of a lane sends (R131, R134, R136): nothing on an unused lane, which is powered down (R122). -/
inductive TxMode where
  | off | tp6 | data | test | idle
deriving DecidableEq, Repr

/-- A lane's internal state (R130 to R142). -/
structure Lane where
  /-- Pattern position, the symbol counter modulo 2,048. -/
  pos : Nat := 0
  /-- Raw time of the last slip. -/
  slipAt : Option Nat := none
  /-- What the transmitter sends (R130 to R135). -/
  tx : TxMode := .off
  /-- Good codewords and uncorrectable codewords received in a row (R132, R133). -/
  goodRun : Nat := 0
  badRun : Nat := 0
  /-- Last aligned position (R133). -/
  lastAligned : Option Nat := none
  /-- Link training runs (R141). -/
  training : Bool := false
  /-- The 24 taps of the receiver's FFE, main cursor among them, and its DFE tap (R142). -/
  ffe : List Int := []
  dfe : Int := 0
  /-- SEQ of the last period of TP6 before data, and the instant of the first codeword, in symbols (R128). -/
  dataStart : Option (Nat × Nat) := none
  /-- The high error-rate condition of the port's clause holds on this lane (R161). -/
  highError : Bool := false
  /-- Transcoded blocks of the codeword that is being filled, the first first (R125). -/
  blocks : List Nat := []
  /-- Raw time of the last burst seen in notified idle (R137). -/
  burstAt : Nat := 0
  /-- LPI codewords have been received, so that a loss of signal is notified idle (R137). -/
  lpiSeen : Bool := false
  /-- Alignment-marker lock of a standard mode (R144). -/
  markerLock : Bool := false
deriving DecidableEq, Repr

/-- A 66-bit block: whether it is a control block, and its payload of 64 bits, bit 0 sent first (R124). -/
structure PcsBlock where
  control : Bool
  payload : Nat
deriving DecidableEq, Repr

/-- A port's internal state. -/
structure Port where
  /-- The packet being received. -/
  rx : Option Nat := none
  /-- A frame is being received that its FIFO refused whole (R47). -/
  rxRefused : Bool := false
  /-- The bytes of the frame being received, destination address to FCS (R145). -/
  rxBytes : List Byte := []
  /-- A remote-fault sequence is being received, and the raw times faults began and ended (R161). -/
  remote : Bool := false
  faultSince : Option Nat := none
  clearSince : Option Nat := none
  /-- The link has not yet come up since ENABLE was set (R164). -/
  firstUpDone : Bool := false
  /-- Partner pause timers: per priority, the raw times from which it holds and at which it ends (R154). -/
  pauseFrom : Tab Nat := []
  pauseUntil : Tab Nat := []
  /-- Raw time since which a priority has been paused without a break (R156). -/
  pausedSince : Tab Nat := []
  /-- Raw time of the last XOFF sent per priority (R152). -/
  lastXoff : Tab Nat := []
  /-- Priorities whose XOFF is due to be sent again (R152). -/
  refreshDue : Nat := 0
  /-- The egress elastic FIFO: flights in order, with what is being sent first. -/
  efifo : List Nat := []
  sending : Option Nat := none
  /-- Bytes picked and not yet finished sending (R337). -/
  flight : Nat := 0
  /-- The L425 PCS: the scrambler's last 58 bits, the blocks that wait for a group of four, and the lane that the next
  transcoded block goes to (R124, R128). -/
  scrambler : Nat := 0
  blocks : List PcsBlock := []
  nextBlock : Nat := 0
  /-- End of the hold and the value it started with (R356, R361). -/
  holdEnd : Option Nat := none
  /-- Raw time of the last frame or PFC frame ready to send (R135). -/
  lastTx : Nat := 0
  /-- Raw time of the last refresh (R137). -/
  lastRefresh : Nat := 0
  /-- Active and pending gate-list banks: the bank and the instant its cycles start at, in network time (R405). -/
  winActive : Option (Nat × Int) := none
  winPending : Option (Nat × Int) := none
  /-- Gates open as the last boundary left them (R395). -/
  gates : Nat := 0
  /-- The predicted end of the last frame picked (R397). -/
  ePrev : Option Int := none
deriving DecidableEq, Repr

/-- A token bucket: tokens in units of 0.5 µbit and the raw time of the last refill (R281, R346). -/
structure Bucket where
  tok : Int := 0
  last : Nat := 0
deriving DecidableEq, Repr

/-- The wheel a shaper is on (R351). -/
inductive Wheel where
  | none | fine | coarse | overflow
deriving DecidableEq, Repr

/-- A shaper (R346 to R352). `rate` and `burst` are those in force, which a pair replaces at a refill (R349). -/
structure Shaper where
  bucket : Bucket := {}
  rate : Nat := 0
  burst : Nat := 64
  /-- Credit to add at the next refill (R348). -/
  credit : Nat := 0
  /-- The wheel it is on (R351). -/
  wheel : Wheel := .none
  /-- The slot boundary its entry fires at, in raw ticks. -/
  fireAt : Nat := 0
  /-- The next eligible time t_e. -/
  te : Nat := 0
deriving DecidableEq, Repr

/-- A WFQ child: its last finish time, none once V has passed it (R342), and its head finish time (R340). -/
structure Child where
  fLast : Option Nat := none
  f : Option Nat := none
  /-- V has reached f (R343). -/
  passed : Bool := false
  /-- It was eligible when its f was last looked at (R343). -/
  wasEligible : Bool := false
deriving DecidableEq, Repr

/-- A frame moved to deep memory (R455): what its descriptor and packet held, its bytes, and the blocks of its
stack that hold it. -/
structure SpillFrame where
  packet : Packet
  copy : Copy
  queue : Nat
  len : Nat
  lossless : Bool
  /-- The blocks that hold it, as stack × 2^26 + block; the first may hold the end of the frame before it. -/
  blocks : List Nat
  /-- Where its record begins in the payload of its first block, and where it ends in its last. -/
  addr : Nat
  stop : Nat
  /-- It holds an old epoch bit past the drain limit (R89). -/
  stale : Bool := false
deriving DecidableEq, Repr

/-- A replication under way and its SYNC (R367). -/
structure Sync where
  /-- Packets whose replication had begun before the request. -/
  before : List Nat := []
  /-- A request waits for them (R367). -/
  pending : Bool := false
deriving DecidableEq, Repr

/-- The state of a commit (CFG.COMMIT_STATUS.STATE). -/
inductive CommitPhase where
  | check | fence | draining | waitDrain
deriving DecidableEq, Repr

/-- Who asked for a commit (R85, R520). -/
inductive CommitBy where
  | cfg | window (n : Nat) | imageApply | troupeApply (n : Nat)
deriving DecidableEq, Repr

/-- A change of one troupe's part of the image in force: a troupe image of section bodies, or a restore (R102, R517). -/
inductive ImageChange where
  | load (n : Nat) (bodies : List SectionBody)
  | restore (n : Nat)
deriving DecidableEq, Repr

/-- A commit in progress: its scope (none is the package), its pending set and its wait (R82 to R89). -/
structure CommitRec where
  by_ : CommitBy
  scope : Option Nat
  defer : Bool
  phase : CommitPhase
  pendingSet : RegFile
  waitUntil : Nat := 0
  /-- The drain limit has expired and the commit goes on (R89). -/
  forced : Bool := false
  /-- The troupes whose epoch bits its fence toggled. -/
  troupes : List Nat := []
  /-- The change of the image that its fence makes (R102, R517). -/
  change : Option ImageChange := none
deriving DecidableEq, Repr

/-- A pending latch of a paired field (R90 to R97). -/
structure PairLatch where
  fn : Nat
  /-- Register (its number in the register file), instance and low bit of the field. -/
  reg : Nat
  idx : Nat
  lo : Nat
  width : Nat
  value : Nat
  /-- The register value of the write, for PAIR_DISCARD_VALUE. -/
  written : Nat
  /-- The offset by which it was written. -/
  offset : Nat
  /-- Raw time of the write (R95). -/
  at_ : Nat
deriving DecidableEq, Repr

/-- A completed pair of a self-timed block, which takes effect at the next wavefront launch of the pace domain that uses
it (R91): a policer with its new rate and burst (R286), or two program registers with their new values (R220). -/
inductive PairDue where
  | policer (i rate burst : Nat)
  | program (i j v w : Nat)
deriving DecidableEq, Repr

/-- A black-box record (R563). -/
structure BbxRecord where
  seq : Nat
  code : Nat
  boot : Nat
  source : Nat
  rawTime : Bool
  keeperTime : Bool
  pinned : Bool
  loss : Bool
  suppressed : Nat
  time : Nat
  /-- DATA, at most 32 bytes; the rest is 0. -/
  data : List Byte
  /-- CHAIN, 8 bytes. -/
  chain : List Byte
deriving DecidableEq, Repr

/-- The black box and its queue, in the keeper domain (R562 to R567). -/
structure BlackBox where
  /-- Records waiting, oldest first; their SEQ, LOSS and CHAIN are set when they are written. -/
  queue : List BbxRecord := []
  /-- Pinned slots 0 to 2,047 by slot. -/
  pinned : Tab BbxRecord := []
  /-- Ring slots 2,048 to 131,071 by slot, and the slot of the next ring record. -/
  ring : Tab BbxRecord := []
  nextRing : Nat := 2048
  /-- SEQ of the next record, and the CHAIN of the last. -/
  nextSeq : Nat := 1
  lastChain : List Byte := []
  /-- A record was lost and the next one written carries LOSS. -/
  lossDue : Bool := false
  /-- Records withheld by a rate limit since the last record of each code. -/
  suppressed : Tab Nat := []
  /-- The scan of R567 has ended. -/
  scanned : Bool := false
  /-- Times of rate-limited events in keeper ticks, by code and source. -/
  rateAt : Tab (List Nat) := []
  /-- A sealed readout under way: first SEQ and count, and the status that it will end with (R569). -/
  reading : Option (Nat × Nat × Nat) := none
deriving DecidableEq, Repr

/-! ### Identity and trust (chapter 17) -/

/-- The SPDM messages of the responder, by what they carry (R579). -/
inductive SpdmAnswer where
  /-- Versions, as major × 16 + minor. -/
  | version (vs : List Nat)
  /-- CERT_CAP, CHAL_CAP, MEAS_CAP, MEAS_FRESH_CAP and CTExponent. -/
  | capabilities (cert chal : Bool) (meas : Nat) (fresh : Bool) (ctExponent : Nat)
  /-- ECDSA P-384 with SHA-384, and the measurement specification with its hash, selected or not. -/
  | algorithms (selected : Bool)
  /-- The SHA-384 of the chain of slot 0. -/
  | digests (slot0 : List Byte)
  | certificate (portion : List Byte) (remainder : Nat)
  /-- Over the nonce, with the signature of the alias key. -/
  | challengeAuth (nonce signature : List Byte)
  /-- Measurements by index, with the signature where one was asked for. -/
  | measurements (blocks : List (Nat × List Byte)) (signature : Option (List Byte))
  /-- SPDM ERROR: 1 UnsupportedRequest, 2 Busy, 3 InvalidRequest, 4 UnexpectedRequest. -/
  | error (code : Nat)
deriving DecidableEq, Repr

/-- What a transport has negotiated (R578). -/
structure SpdmConn where
  version : Bool := false
  capabilities : Bool := false
  algorithms : Bool := false
deriving DecidableEq, Repr

/-- A verified firmware package: its VERSION, SVN and measurement (R575, R585). -/
structure Firmware where
  version : Nat
  svn : Nat
  digest : List Byte
deriving DecidableEq, Repr

/-- Identity and trust. -/
structure SecBlock where
  /-- Measurements 2 and 3, and the signed-region digests of the troupe images in force; 48 zero bytes where none
  (R575). -/
  meas2 : List Byte := List.replicate 48 0
  meas3 : List Byte := List.replicate 48 0
  troupeImages : Tab (List Byte) := []
  /-- Measurements 2 and 3 that the alias key in force was derived from, once there is one (R576, R577). -/
  alias_ : Option (List Byte × List Byte) := none
  /-- Another derivation is due when the one that runs ends. -/
  again : Bool := false
  /-- Certificates of the unit are loaded (R574). -/
  chainLoaded : Bool := false
  /-- Owner public keys by slot, in fuses (R581). -/
  ownerKeys : Tab (List Byte) := []
  /-- SHA-384 of the two firmware keys and of the module root, in fuses (R586, R590; log entry 3). -/
  vendorHash : List (List Byte) := [List.replicate 48 0, List.replicate 48 0]
  moduleRoot : List Byte := List.replicate 48 0
  /-- The owner-key command under way: REVOKE, TARGET, AUTH and the new key (R583). -/
  keyCmd : Option (Bool × Nat × Nat × List Byte) := none
  /-- SPDM state of the two transports: 0 Data Object Exchange, 1 MCTP on the keeper port (R578). -/
  spdm : Tab SpdmConn := []
  /-- The verified copy, the pending copy, and the flash slots still to try at boot (R556, R587, R588). -/
  verified : Option Firmware := none
  pendingFw : Option Firmware := none
  fwSlots : List Nat := []
  /-- A load from host memory is under way. -/
  fwLoading : Bool := false
deriving DecidableEq, Repr

/-! ### Tandem (chapter 16) -/

/-- An input of the wardens (R544): its number, kind and payload. Kind 0 is a timer input, 1 a doorbell, 2 a cause
register, 3 a table report. -/
structure WInput where
  seq : Nat
  kind : Nat
  payload : List Nat
deriving DecidableEq, Repr

/-- A warden beside what TND.WARDEN shows. -/
structure Warden where
  /-- Inputs delivered and not yet taken. -/
  buffer : List WInput := []
  /-- Raw times of the last timer input taken, of the last periodic self-test, of the resignation, of the last
  automatic restart, and of the beginning of a full self-test that runs. -/
  timerAt : Nat := 0
  testAt : Nat := 0
  resignedAt : Nat := 0
  autoAt : Option Nat := none
  fullTest : Option Nat := none
  /-- It starts together with the other warden (R543, R558), and has passed its self-test. -/
  together : Bool := false
  passed : Bool := false
  /-- In RESYNC: the copy is complete (R557). -/
  copied : Bool := false
deriving DecidableEq, Repr

/-- An entry of an eliminator that waits for the partner's copy (R547). -/
structure ElimEntry where
  seq : Nat
  digest : Nat
  warden : Nat
  at_ : Nat
deriving DecidableEq, Repr

/-- An eliminator: its pending entries, oldest first, and the last sequence number accepted. -/
structure Eliminator where
  entries : List ElimEntry := []
  last : Nat := 0
deriving DecidableEq, Repr

/-- The wardens, their input sequencer, the eliminators and the mailbox. -/
structure TndBlock where
  wardens : Tab Warden := []
  /-- The number of the next input, and the input that each source holds back, by kind (R545). -/
  nextInput : Nat := 0
  held : Tab (List Nat) := []
  /-- The eliminators by number (R546, R547). -/
  elims : Tab Eliminator := []
  /-- The active warden is paused for a resync (R557). -/
  paused : Bool := false
  /-- Command copies that wait for the end of that pause, oldest first (R557). -/
  waiting : List CommandCopy := []
  /-- A divergence self-test runs since a raw time (R550). -/
  divergeAt : Option Nat := none
  /-- Raw time of the doorbell that waits for its reply. -/
  mbxAt : Option Nat := none
  /-- Raw time of the last timer input. -/
  tickAt : Nat := 0
deriving DecidableEq, Repr

/-! ### Package (chapters 3 and 18) -/

/-- The keeper domain's and the package's own state. -/
structure PkgBlock where
  /-- VDD_KEEP is in tolerance, and the keeper's ticks of 0.5 ns since it rose. -/
  keep : Bool := true
  keepNow : Nat := 0
  /-- Levels of MAIN_PG, PERST_N and SYS_RESET_N, and the hub is out of reset. -/
  mainPg : Bool := false
  perstN : Bool := false
  sysResetN : Bool := true
  hubUp : Bool := false
  /-- PCI Express link training runs (R630). -/
  pcieTraining : Bool := false
  /-- TIME_REF_SEL as sampled: 25 MHz (R610). -/
  ref25 : Bool := false
  /-- THERMTRIP_N is low (R609). -/
  trip : Bool := false
  /-- BOOT_COUNT at the last MON_TRIP record of each monitor; of monitors 10 and 11, any since keeper power-on (R619). -/
  monRecord : Tab Nat := []
  /-- The JTAG instruction, and the black-box command that its data register carries: status, command and response. -/
  jtagIr : Nat := 1
  jtagData : Nat × Nat × List Byte := (4, 0, [])
  /-- Records that the keeper port has not had to show: SEQ from which KEEP_ALERT_N counts, and SEQs read since (R613). -/
  alertFrom : Nat := 0
  alertRead : List Nat := []
  alertLow : Bool := false
deriving DecidableEq, Repr

/-- What a function reports of itself in configuration space beside its identity (R506, R507, R540): the sizes of its BARs,
SR-IOV's TotalVFs and InitialVFs, First VF Offset and VF Stride, the MSI-X Table Size and where table and PBA lie in BAR2,
the largest payload and read request, the bits of its tags, and whether it carries Data Object Exchange. -/
structure Capabilities where
  bar0 : Nat
  bar2 : Nat
  totalVfs : Nat
  initialVfs : Nat
  vfOffset : Nat
  vfStride : Nat
  tableSize : Nat
  tableAt : Nat
  pbaAt : Nat
  maxPayload : Nat
  maxReadRequest : Nat
  tagBits : Nat
  flr : Bool
  doe : Bool
deriving DecidableEq, Repr

/-- What leaves the part: the model's own log of its outputs, newest first (log entry 5). -/
inductive Out where
  /-- An MSI-X message of a function. -/
  | msix (fn vector : Nat)
  /-- A host-memory read that the device asks for: address and bytes. -/
  | fetch (addr len : Nat)
  /-- A host-memory write. -/
  | dma (addr : Nat) (bytes : List Byte)
  /-- A frame on the wire of a port: its bytes from the destination address to the FCS (R145, R149, R151). -/
  | frame (port : Nat) (bytes : List Byte)
  /-- A frame cut off without an FCS (R162). -/
  | aborted (port : Nat) (bytes : List Byte)
  /-- Symbols of a lane, as levels in the order in which they are sent (R126, R129, R134). -/
  | symbols (lane : Nat) (levels : List Nat)
  /-- What a port signals to its partner: remote fault while it has a local fault, or that it has none (R161). -/
  | remoteFault (port : Nat) (on : Bool)
  /-- Four LPI codewords, a wake burst or a refresh of a port (R136 to R138). -/
  | lpi (port : Nat)
  | wake (port : Nat) (relock : Nat)
  | refresh (port : Nat) (relock : Nat)
  /-- A signal of a land, by name. -/
  | pin (name : String) (level : Nat)
  /-- A pulse of a land, high for so many µs. -/
  | pulse (name : String) (us : Nat)
  /-- A frame of a sideband chain in the order of the wire, most significant bits first, and whether SB_LD ends it
  (R171, R172). -/
  | sideband (chain : Nat) (bytes : List Byte) (latched : Bool)
  /-- A transfer on a management bus: bus, CMIS address, selected cage, write or read, bank, page, first byte, length and
  the bytes written (R167, R184). -/
  | moduleBus (bus device cage : Nat) (write : Bool) (bank page offset len : Nat) (bytes : List Byte)
  /-- The data path of a cage's module is initialised for the octet's application: rate codes and lanes of the octet's
  ports (R174). -/
  | dataPath (bus device cage : Nat) (apps : List (Nat × Nat))
  /-- Nine clock pulses and a STOP on a management bus (R168). -/
  | busRecovery (bus : Nat)
  /-- A command of the governor to a rail, in mV. -/
  | rail (rail mv : Nat)
  /-- An advisory sent on a port (R500). -/
  | advisory (port : Nat) (bytes : List Byte)
  /-- An answer on the keeper port or the JTAG port. -/
  | answer (port : String) (bytes : List Byte)
  /-- What a function reports in configuration space: function, Vendor ID, Device ID, Revision ID and class code
  (R106, R506). -/
  | identity (fn vendor device revision classCode : Nat)
  /-- The capabilities that a function reports in configuration space. -/
  | capabilities (fn : Nat) (caps : Capabilities)
  /-- The data of a register read: function, offset, bytes and value. -/
  | readData (fn off size value : Nat)
  /-- An SPDM answer on a transport. -/
  | spdm (transport : Nat) (a : SpdmAnswer)
  /-- An input delivered to the wardens: its number and kind. -/
  | wardenInput (seq : Nat) (kind : Nat) (payload : List Nat)
deriving DecidableEq, Repr


/-- Network time (R372 to R377): OFFSET in units of 2^-53 ns, so that every change of RATE is exact, and RATE. -/
structure TimeBlock where
  offset : Int := 0
  rate : Int := 0
  /-- The servo's integral term and its count of good samples (R378). -/
  integ : Int := 0
  good : Nat := 0
  /-- Raw times of the last sample and of the entry into HOLDOVER (R380). -/
  sampleAt : Nat := 0
  holdAt : Nat := 0
  /-- Raw time of the last accepted 1PPS edge, and whether its successor has been missed (R382). -/
  ppsAt : Option Nat := none
  ppsMissed : Bool := false
  /-- The last second for which the 1PPS output rose (R384). -/
  pulse : Int := 0
  /-- The snapshot of each function: network time in units of 2^-16 ns, and the raw counter (R376). -/
  snaps : Tab (Int × Nat) := []
deriving DecidableEq, Repr

/-! ### Tables (chapter 7) -/

/-- One rim die's copy of an entry (R225, R234): key and data, and the device fields of an exact-match entry. For a
ternary entry the value is its image (R253), for a trie its slot (R247). -/
structure TCopy where
  value : Nat
  age : Nat := 0
  static : Bool := false
  pinned : Bool := false
  old : Bool := false
  learned : Bool := false
deriving DecidableEq, Repr

/-- An entry: its copies by rim die. -/
abbrev TEntry := Tab TCopy

/-- Where an exact-match entry lies: a bucket position or a stash index. -/
structure Where where
  stash : Bool
  index : Nat
deriving DecidableEq, Repr

/-- One write of the table writer that waits for the one before it (R232, R238): a copy to another place, the clear of a
place, or an entry put into one. -/
inductive TStep where
  | copy (src dst : Where)
  | clear (at_ : Where)
  | put (at_ : Where) (e : TEntry)
deriving DecidableEq, Repr

/-- A command block's operation under way: its table and twin, and the writes still to come (R228). -/
structure TableOp where
  block : Nat
  table : Nat
  twin : Nat
  steps : List TStep := []
deriving DecidableEq, Repr

/-- One twin of a table: entries by position, its stash by index, and the ternary region of an LPM6 table. The
slots of a trie lie at ((level × 2^23) + node) × 65,536 + slot. -/
structure Twin where
  slots : Tab TEntry := []
  stash : Tab TEntry := []
  tern : Tab TEntry := []
deriving DecidableEq, Repr

/-- The contents of a table. -/
structure TableSt where
  twin0 : Twin := {}
  twin1 : Twin := {}
  /-- Trie nodes in use, as level × 2^23 + node. -/
  nodes : List Nat := []
  /-- Prefixes in a longest-prefix table, as (prefix, length). -/
  prefixes : List (Nat × Nat) := []
  /-- Age clock (R269) and the raw time of its last advance. -/
  clock : Nat := 0
  tickAt : Nat := 0
deriving DecidableEq, Repr

/-- A learn event (R263). -/
structure LearnEvent where
  table : Nat
  image : Nat
  pipe : Nat
  troupe : Nat
  /-- Raw time at which it was sent: events sent at one instant arrive together (R266). -/
  sentAt : Nat := 0
deriving DecidableEq, Repr

/-- A tracked key of the flap rule (R267). -/
structure Flap where
  table : Nat
  key : Nat
  openedAt : Nat
  moves : Nat
  /-- The data the entry held before the first move. -/
  recorded : Nat
deriving DecidableEq, Repr

/-- A pinned key of a twin and the raw time of its pinning (R268). -/
structure Pin where
  table : Nat
  twin : Nat
  key : Nat
  at_ : Nat
deriving DecidableEq, Repr

/-- The running Promenade pass (R273 to R277). -/
structure Promenade where
  /-- 0 no pass, else FORWARD or CENSUS as in PROM_STATUS.STATE, which a refused GO may overwrite. -/
  phase : Nat := 0
  count : Nat := 0
  sum : Nat := 0
  /-- The first position at which copies differed (R276). -/
  skewAt : Option Nat := none
deriving DecidableEq, Repr

/-- The tables and what serves them. -/
structure TableBlock where
  tables : Tab TableSt := []
  /-- The operations under way, one to a table, and the blocks whose operations wait for another on their table, in the
  order of arrival (R228, R229). -/
  ops : List TableOp := []
  waiting : List Nat := []
  /-- Events on their way to the sequencer, and its queue (R263, R265). -/
  inFlight : List LearnEvent := []
  queue : List LearnEvent := []
  /-- Keys that moved lately, and the entries that are pinned, with when (R267, R268). -/
  flaps : List Flap := []
  pins : List Pin := []
  /-- The sweep's place: table, twin, position (stash positions follow the buckets), and when the pass began. -/
  sweepTable : Nat := 0
  sweepTwin : Nat := 0
  sweepPos : Nat := 0
  sweepAt : Nat := 0
  /-- The Promenade pass (R273 to R277). -/
  prom : Promenade := {}
  /-- Reports written so far (R278). -/
  reportSeq : Nat := 0
deriving DecidableEq, Repr

/-- An entry of a function's MSI-X table (R506, R507): message address and data, and the mask bit, which PCI Express has
set after a reset (PRESUMED, log entry 75). -/
structure MsixEntry where
  addr : Nat := 0
  data : Nat := 0
  masked : Bool := true
deriving DecidableEq, Repr

/-- A function's MSI-X state: MSI-X Enable and Function Mask, the vectors of its table, and the vectors whose bit of the
Pending Bit Array is set (R108, R507, R509, R523; log entry 75). -/
structure MsixState where
  enabled : Bool := false
  funcMask : Bool := false
  entries : Tab MsixEntry := []
  pendingBits : List Nat := []
deriving DecidableEq, Repr

/-- The host interface: interrupts being collected per ring at 1,024 kind + ring, with the unsignalled entries and
the raw time of the first (R524); the raw time since which a receive queue's head frame has waited (R528); and the
configuration bits of the functions that no register shows (R506). -/
structure HostBlock where
  coal : Tab (Nat × Nat) := []
  rxWait : Tab Nat := []
  /-- Ring numbers served last by the receive and transmit engines. -/
  lastRx : Nat := 0
  lastTx : Nat := 0
  /-- Bus Master Enable of the physical function (R508). -/
  pfBme : Bool := false
  /-- MSI-X state by function. -/
  msix : Tab MsixState := []
  /-- VF Enable and NumVFs (R506). -/
  vfEnable : Bool := false
  numVfs : Nat := 0
  /-- The removal or restore in progress: the troupe, and whether it is a restore (R514). -/
  moving : Option (Nat × Bool) := none
deriving DecidableEq, Repr

/-! ### Telemetry (chapter 12) -/

/-- A flow's key and what it has counted since its last export (R417, R419). -/
structure FlowRec where
  key : List Byte
  pipe : Nat
  troupe : Nat
  port : Nat
  /-- Ingress stamps of its first and last packet, in units of 2^-16 ns, and the raw time of the last. -/
  first : Int
  last : Int
  lastRaw : Nat
  /-- Counts of the flow since its last export (R417 to R421). -/
  packets : Nat := 0
  bytes : Nat := 0
  drops : Nat := 0
  ce : Nat := 0
  maxDelay : Nat := 0
  approx : Bool := false
  unlocked : Bool := false
  /-- The next visit of the sweep exports it with a forced end (R430). -/
  forced : Bool := false
deriving DecidableEq, Repr

/-- A line of a flow cache (R421): in cache-only tracking an entry, in the ledger modes a flow's changes. -/
structure FlowLine where
  flow : FlowRec
  gen : Nat := 0
  /-- Raw times of its last write-back, its last export, and the last packet that used it. -/
  wbAt : Nat := 0
  exportAt : Nat := 0
  usedAt : Nat := 0
  /-- The flow was refused an entry, and until when (R425). -/
  refusedUntil : Option Nat := none
deriving DecidableEq, Repr

/-- A ledger entry and the raw time of its last export (R462). -/
structure LedgerEntry where
  flow : FlowRec
  exportAt : Nat := 0
deriving DecidableEq, Repr

/-- The outcomes at the hub that a fate update carries (R420). -/
inductive FateKind where
  | drop | ce
  /-- A queueing delay in ns. -/
  | delay (ns : Nat)
deriving DecidableEq, Repr

/-- A fate update on its way: the line and generation that took the packet, and the aggregate it folds into. -/
structure Fate where
  line : Nat
  gen : Nat
  pipe : Nat
  troupe : Nat
  kind : FateKind
deriving DecidableEq, Repr

/-- A write-back in a die's update queue (R422). -/
structure WriteBack where
  line : Nat
  gen : Nat
  flow : FlowRec
deriving DecidableEq, Repr

/-- A troupe's export stream (R437): records by template that no message has taken yet, the raw time of the first,
and the raw time of the last template sets. -/
structure Stream where
  records : List (Nat × List Byte) := []
  openedAt : Nat := 0
  templatesAt : Option Nat := none
deriving DecidableEq, Repr

/-- Telemetry. -/
structure TelBlock where
  /-- Flow-cache lines at die × 65,536 + line, and generations given so far. -/
  lines : Tab FlowLine := []
  gens : Tab Nat := []
  /-- Write-backs in the update queue of each die, and the die served last (R422, R464). -/
  updates : Tab (List WriteBack) := []
  lastDie : Nat := 3
  /-- The ledger by entry (R422). -/
  ledger : Tab LedgerEntry := []
  /-- The locator by slot: the entry it names and the flow's hash (R463). -/
  locator : Tab (Nat × Nat) := []
  /-- Set bits of each die's approximation map (R428). -/
  approx : Tab (List Nat) := []
  /-- Fate updates on their way (R420). -/
  fates : List Fate := []
  /-- Raw time of the last refusal (R427). -/
  refusedAt : Nat := 0
  /-- Raw time of the last export of each aggregate, at 64 p + n. -/
  aggAt : Tab Nat := []
  /-- Histogram bins at ((16 port + class group) × 2 + kind) × 64 + bin. -/
  hist : Tab Nat := []
  /-- The next entry of the export sweep (R429). -/
  sweepNext : Nat := 0
  /-- Export streams by troupe (R437). -/
  streams : Tab Stream := []
  /-- Drop records made in the present interval at 512 troupe + reason, 256 for DEX records, and the interval (R441). -/
  made : Tab Nat := []
  interval : Tab Nat := []
  /-- Records made in the present second, and that second (R441). -/
  second : Nat := 0
  inSecond : Nat := 0
deriving DecidableEq, Repr

/-! ### Deep memory (chapter 13) -/


/-- Deep memory. -/
structure HbmBlock where
  /-- Stacks whose locator and entry regions have been zeroed since they were last woken (R446). -/
  zeroed : List Nat := []
  /-- Blocks withdrawn, as stack × 2^26 + block (R454), and the stack the next block comes from (R457). -/
  lost : List Nat := []
  nextStack : Nat := 0
  /-- Queues with marked frames in order of marking, as descriptors (R455), and the queue refilled last (R459). -/
  marked : List Nat := []
  lastRefill : Nat := 0
  /-- Raw time at which a refill that lacked a cell or descriptor retries, by queue (R461). -/
  retryAt : Tab Nat := []
  /-- Queues whose refill runs, until twice the threshold is reached (R459). -/
  refilling : List Nat := []
  /-- The capture ring's bytes, its unreadable words of 16 B, and the capture queue served last (R465). -/
  ring : Mem := []
  poisoned : List Nat := []
  lastCapture : Nat := 0
  /-- The function whose request the copy engine serves (R468, R508). -/
  copyBy : Nat := 0
  /-- The writer is stopped (R467). -/
  stalled : Bool := false
  /-- Raw times of the uncorrectable words of the last second, by stack (R447). -/
  uncorrAt : Tab (List Nat) := []
  /-- Attempts of the training that runs, by stack (R444). -/
  tries : Tab Nat := []
  /-- Bytes written to the capture ring and released since it was empty (R467). -/
  capWritten : Nat := 0
  capReleased : Nat := 0
deriving DecidableEq, Repr

/-! ### Modules (chapter 5) -/

/-- The outputs of a cage's node (R169): RESET_L, LPMODE, SEL_L and PWR_EN. They begin as R170 says. -/
structure NodeOut where
  resetL : Bool := false
  lpMode : Bool := true
  selL : Bool := true
  pwrEn : Bool := false
deriving DecidableEq, Repr

/-- A cage and its module. -/
structure Cage where
  /-- The outputs the device asks for, and those the node's latch holds (R169). -/
  want : NodeOut := {}
  latch : NodeOut := {}
  /-- A module is present, as the last frame used said, and since when (R174). -/
  present : Bool := false
  presentSince : Nat := 0
  /-- INT_L has fallen and MODULE_INT is not yet raised for it. -/
  intDue : Bool := false
  /-- The nonce of the challenge, once identification has written it (R178). -/
  nonce : List Byte := []
  /-- The data path is to be initialised (R174). -/
  pathDue : Bool := false
  /-- Raw time of the entry into its state. -/
  enteredAt : Nat := 0
  /-- What identification read, none before it. -/
  ident : Option ModuleId := none
  /-- Wear of each lane in 2^-64 equivalent hours (R179), and the nominal bias of each lane's first sample. -/
  wear : List Nat := []
  firstBias : List Nat := []
  sampledAt : Nat := 0
  /-- Raw time of the last MOD_LIFE record (R182). -/
  lifeAt : Nat := 0
deriving DecidableEq, Repr

/-- A sideband chain (R171 to R173). -/
structure Chain where
  started : Bool := false
  /-- A frame has been sent since the start. -/
  begun : Bool := false
  /-- The last frame ended with SB_LD. -/
  loaded : Bool := false
  /-- Bad and good frames in a row (R173). -/
  badRun : Nat := 0
  goodRun : Nat := 0
deriving DecidableEq, Repr

/-- What uses a management bus: the host (R184), or the device to learn a module's state, to identify it, to initialise
its data path or to read a life sample (R174, R179). -/
inductive BusUse where
  | host | poll | identify | dataPath | life
deriving DecidableEq, Repr

/-- A management bus: what uses it and for which cage, whether its cage is selected and the transfer under way, whether
nine clocks and a STOP come before the next transfer (R168), and the cage that the device served last. -/
structure ModBus where
  cur : Option (BusUse × Nat) := none
  running : Bool := false
  recover : Bool := false
  last : Nat := 7
deriving DecidableEq, Repr

/-- The host's transfer as GO found it (R184). -/
structure ModCmd where
  cage : Nat
  write : Bool
  bank : Nat
  page : Nat
  offset : Nat
  len : Nat
  bytes : List Byte
deriving DecidableEq, Repr

/-- The modules: cages, chains, buses and the host's transfer (R184). -/
structure ModBlock where
  cages : Tab Cage := []
  chains : Tab Chain := []
  buses : Tab ModBus := []
  cmd : Option ModCmd := none
deriving DecidableEq, Repr

/-! ### Pace (chapter 14) -/

/-- A pace domain and its rail (R469, R480). -/
structure Domain where
  /-- The R480 voltage of the rail in mV, without boost or idling. -/
  base : Nat := 800
  /-- Detectors active, and the raw time the last of them cleared (R485, R486). -/
  droops : Nat := 0
  clearedAt : Option Nat := none
  /-- The lag limit and since when the capability has covered Ce (R472). -/
  lag : Option Nat := none
  coveredSince : Option Nat := none
  /-- AVSBus failures in a row; the rail is frozen by a fault, and the first good retry since (R482). -/
  fails : Nat := 0
  frozen : Bool := false
  goodSince : Option Nat := none
  retryAt : Nat := 0
  /-- The rail is idled, or rises after a wake (R478). -/
  idled : Bool := false
  waking : Bool := false
deriving DecidableEq, Repr

/-- An advisory as sent: its kind (0 SLOW, 1 CLEAR), Ce and cause (R500, R501). -/
structure Advisory where
  kind : Nat
  ce : Nat
  cause : Nat
deriving DecidableEq, Repr

/-- A sender's entry (R504). -/
structure Sender where
  ce : Nat
  refreshUs : Nat
  setAt : Nat
deriving DecidableEq, Repr

/-- What an event of the energy model is charged to (R497): its kind, rim die, troupe, port and pipe, and how many. -/
structure Activity where
  kind : Nat
  die : Nat
  troupe : Option Nat
  port : Option Nat
  pipe : Option Nat
  count : Nat
deriving DecidableEq, Repr

/-- The cadence governor. -/
structure PaceBlock where
  /-- Pace tokens have started (R484), and the raw time at which the hub left reset. -/
  running : Bool := false
  hubAt : Nat := 0
  domains : Tab Domain := []
  /-- The value Ce has reached under the limits other than DROOP, the value it is to reach, and since when it rises to
  it (R483). -/
  reached : Nat := 0
  goal : Nat := 0
  rampAt : Option Nat := none
  /-- Fractions of the next pace token, in 1/2,000. -/
  acc : Nat := 0
  /-- Pace tokens issued to each queue-manager quadrant in the present cadence window (R37). -/
  quadTokens : Nat := 0
  /-- Start of the present cadence window, and Ce has changed in it (R471). -/
  windowAt : Nat := 0
  changed : Bool := false
  /-- The target has changed since the rails were last set (R480). -/
  moved : Bool := false
  adjustAt : Nat := 0
  /-- The droop response: its start, the domains that fired and whether it was long (R485, R487). -/
  droopAt : Option Nat := none
  droopFired : Nat := 0
  droopLong : Bool := false
  /-- The throttle level and since when the hottest sensor has been cool enough (R488). -/
  coolSince : Option Nat := none
  sampledAt : Nat := 0
  /-- Boosts under way, and the occurrence last judged of each phase entry (R494, R496). -/
  boosts : List BoostBy := []
  judged : Tab Int := []
  /-- Heads launched, newest first: raw time, network time and number (R496). -/
  heads : List (Nat × Int × Nat) := []
  /-- The advisory last sent, its number, when, and the CLEARs still to send (R500). -/
  sent : Option Advisory := none
  seq : Nat := 0
  sentAt : Nat := 0
  clears : Nat := 0
  senders : Tab Sender := []
  /-- Energy events since the last tick, and the counters in 10^-14 J / (2 × 760^3 × 2^64): troupes at n, pipes at
  64 + p, ports at 128 + x, shared at 1,024 + g, measured at 1,040 + g, modelled at 1,056 + g (R497 to R499). -/
  acts : List Activity := []
  energy : Tab Nat := []
  /-- The difference of measured and modelled, by group; the modelled energy at the last measurement, and its time. -/
  unattr : Tab Int := []
  atMeasure : Tab Nat := []
  measuredAt : Nat := 0
  tickAt : Nat := 0
  /-- Faults of the regulators 5 to 8 recorded and not yet gone. -/
  otherFaults : List Nat := []
  /-- STATUS_WORD of each regulator as last read (R481). -/
  statusWords : Tab Nat := []
deriving DecidableEq, Repr

/-- A section table entry (R68). -/
structure SectionEntry where
  type : Nat
  flags : Nat
  offset : Nat
  length : Nat
  digest : List Byte
deriving DecidableEq, Repr

/-- A load in progress (R71 to R78): its source (0 host, 1 slot A, 2 slot B), what its header says once checked, and the
section bodies that have passed. -/
structure LoadRec where
  source : Nat
  verifyOnly : Bool
  list : Bool
  /-- CFG.LOAD_ADDR as START found it, and the parts of host memory that hold the image, as addresses and lengths (R72). -/
  addr : Nat := 0
  extents : List (Nat × Nat) := []
  /-- The header has passed its checks. -/
  checked : Bool := false
  /-- What its header says: kind, troupe, memory mode, key slot, serial and sections (R67, R68). -/
  kind : Nat := 0
  troupe : Nat := 0
  memMode : Nat := 0
  keySlot : Nat := 0
  serial : Nat := 0
  sections : List SectionEntry := []
  /-- Indexes of the sections whose bodies are still to come, in ascending OFFSET. -/
  toCome : List Nat := []
  /-- The bodies that have passed, in order, with the indexes of their sections. -/
  bodies : List (Nat × SectionBody) := []
  /-- SHA-384 of bytes 0 to the end of the section table (R575), and bytes digested so far. -/
  digest : List Byte := []
  bytes : Nat := 0
  /-- Every body has passed, and the apply is due or runs. -/
  verified : Bool := false
deriving DecidableEq, Repr

/-- The grants that an allocator bank makes of one pool at one instant (R317): `before` is the requester granted last
before it, `granted` those granted since, the last one first. -/
structure BankRound where
  at_ : Nat := 0
  before : Nat := 17
  granted : List Nat := []
deriving DecidableEq, Repr

/-- The switching core: packets, pipes, the cell store, the queues and what keeps their accounts. -/
structure Switch where
  links : Tab Link := []
  /-- The number of the next transfer of the Lerar links, and the link of each rim die that took its last (R31). -/
  nextTransfer : Nat := 0
  lastLink : Tab Nat := []
  /-- Pipes, lanes, ports and packets by number. -/
  pipes : Tab Pipe := []
  lanes : Tab Lane := []
  ports : Tab Port := []
  packets : Tab Packet := []
  nextPacket : Nat := 0
  /-- Raw time of the last depth-map broadcast (R204). -/
  mapSent : Option Nat := none
  /-- Descriptors by number (R320). -/
  descs : Tab Desc := []
  /-- Copy tokens in use (R320). -/
  tokens : Nat := 0
  /-- Queues, and flights by number (R321, R337). -/
  queues : Tab (List QEntry) := []
  flights : Tab Flight := []
  nextFlight : Nat := 0
  /-- Owner tags of the cells in use, by cell address (R315, R324). -/
  cells : Tab Nat := []
  /-- Cells withdrawn from use (R333). -/
  withdrawn : List Nat := []
  /-- The last owner tags of free cells, by cell address (R324). -/
  oldTags : Tab Nat := []
  /-- Lease requests under way, by function: the cells granted and the status to report (R325). -/
  leases : Tab (List Nat × Nat) := []
  /-- Bank pointer of requester r and pool k at 2 r + k (R316). -/
  bankPtr : Tab Nat := []
  /-- The round of grants of a bank for a pool, at 2 bank + pool (R317). -/
  bankRounds : Tab BankRound := []
  /-- The bytes of the cells. -/
  mem : Mem := []
  /-- Uses in units: queue minimum and shared by queue, shared by port, shared and total by troupe, and minimum,
  shared and headroom by port-priority at 8 port + priority (R287). -/
  useQueueMin : Tab Nat := []
  useQueueShared : Tab Nat := []
  usePortShared : Tab Nat := []
  useTroupeShared : Tab Nat := []
  usePpMin : Tab Nat := []
  usePpShared : Tab Nat := []
  usePpHeadroom : Tab Nat := []
  /-- Units charged to the shared region (R288). -/
  useShared : Nat := 0
  /-- Shapers: ports at x, class groups at 1,024 + c, queue shapers at 16,384 + i. -/
  shapers : Tab Shaper := []
  /-- WFQ virtual times: port and tier at 4 port + tier, class groups at 4,096 + c. -/
  vtime : Tab Nat := []
  /-- WFQ children: class groups at c, queues at 16,384 + q. -/
  children : Tab Child := []
  /-- Policers whose bucket has moved (R281). -/
  policers : Tab Bucket := []
  /-- Raw time of the last image's apply end, at which every policer that is not listed took the burst of its reset value
  (R286). -/
  polBase : Option Nat := none
  /-- Program state: register arrays at array × 65,536 + index, counters of packets and bytes (R198). -/
  arrays : Tab Nat := []
  counters : Tab (Nat × Nat) := []
  /-- The SYNC in progress (R367). -/
  sync : Sync := {}
  /-- Replications under way. -/
  replicating : List Nat := []
  /-- Frames in deep memory, by number. -/
  spilled : Tab SpillFrame := []
  nextSpill : Nat := 0
deriving DecidableEq, Repr

/-- The packet-scoped configuration of an old epoch bit: registers and programs (R81, R88). -/
structure OldConf where
  regs : RegFile := []
  programs : Tab Program := []
deriving DecidableEq, Repr

/-- The configuration block: the load, the commits and the paired latches. -/
structure CfgBlock where
  commits : List CommitRec := []
  latches : List PairLatch := []
  /-- Completed pairs that wait for a wavefront launch, oldest first (R91). -/
  due : List PairDue := []
  /-- The packet-scoped configuration of the old epoch bit of each draining troupe (R88). -/
  old : Tab OldConf := []
  /-- The image in force, none before a full image, and the full image that troupe images changed (R517). -/
  image : Option Image := none
  full : Option Image := none
  /-- The load in progress. -/
  load : Option LoadRec := none
  /-- Flash slots still to try at boot (R71). -/
  bootSlots : List Nat := []
  /-- The first pipe's switch after the last fence, and whose status shows the spread (R86). -/
  fenceFirst : Option Nat := none
  fenceFn : Option Nat := none
deriving DecidableEq, Repr

/-- The state of the part. -/
structure State where
  /-- The raw time counter, in ticks of 0.5 ns (R371). -/
  now : Nat := 0
  /-- The registers, in force. -/
  regs : RegFile := []
  /-- The staging copies of the registers that hold RWS fields (R79). -/
  staging : RegFile := []
  /-- The state behind the registers, by block. -/
  sw : Switch := {}
  cf : CfgBlock := {}
  tim : TimeBlock := {}
  tb : TableBlock := {}
  hif : HostBlock := {}
  tel : TelBlock := {}
  hbm : HbmBlock := {}
  mod : ModBlock := {}
  pace : PaceBlock := {}
  bbx : BlackBox := {}
  sec : SecBlock := {}
  tnd : TndBlock := {}
  pkg : PkgBlock := {}
  /-- The free values drawn so far: the model's own counter (log entry 2). -/
  drawn : Nat := 0
  /-- The outputs so far, newest first: the model's own log (log entry 5). -/
  out : List Out := []
  /-- The commands that wait, first in first out. -/
  pending : List Instr := []
deriving DecidableEq, Repr

/-- Why the part stops. No command of the spec stops the part, so there is no such reason yet. -/
inductive Fault where
  /-- Raised by no command. Safe: the part never stops. -/
  | none
deriving DecidableEq, Repr

/-- Why a command has no meaning. -/
inductive Refusal where
  /-- Raised by the dispatcher for a command whose meaning is not written. Safe. -/
  | notModelled (mnemonic : String)
deriving DecidableEq, Repr

/-- The record KEEPER_ON as it is made at a keeper power-on; its DATA are filled in by the scan (R567, R568). Its SOURCE
is KEEPER (DEDUCED, log entry 30). -/
def keeperOnRecord : BbxRecord :=
  { seq := 0, code := 0x0101, boot := 0, source := 3, rawTime := false, keeperTime := true, pinned := false,
    loss := false, suppressed := 0, time := 0, data := [], chain := [] }

/-- The part right after a keeper power-on, its main rails still down (R108): every register at its reset value, the
alias key being derived (R577), and the record KEEPER_ON in the queue (R567). -/
def State.reset : State :=
  { regs := rfSet (rfSet [] SEC.STATUS.DERIVING 0 1) BBX.LOSS.QUEUE_FILL 0 1
    sec := { chainLoaded := true }
    bbx := { queue := [keeperOnRecord] } }

end Sys2Proof.Machine
end

