-- ==== Sys2Proof/Machine/Ops.lean ====
section
/-!
DEFINITION. The named operations over registers, interrupts, readiness, the black box, drops, time and the image's
structures, which every meaning is written with.
-/

namespace Sys2Proof.Machine

/-- What a meaning answers. -/
abbrev Answer := Host.Outcome State Fault Refusal

/-! ## Time units, in ticks of the raw counter (R371) -/

/-- Ticks of a microsecond. -/
def usTicks : Nat := 2000
/-- Ticks of a millisecond. -/
def msTicks : Nat := 2000000
/-- Ticks of a second. -/
def secTicks : Nat := 2000000000

/-! ## Registers -/

/-- A field of an instance of a register, in force. -/
def State.get (s : State) (f : Fld) (i : Nat) : Nat := rfFld s.regs f i

/-- Sets a field of an instance of a register, in force. -/
def State.set (s : State) (f : Fld) (i v : Nat) : State := { s with regs := rfSet s.regs f i v }

/-- A whole register. -/
def State.reg (s : State) (r : Reg) (i : Nat) : Nat := (rfGet s.regs r i).toNat

/-- Sets a whole register. -/
def State.setReg (s : State) (r : Reg) (i v : Nat) : State :=
  { s with regs := rfPut s.regs r i (BitVec.ofNat 64 v) }

/-- A flag of a register. -/
def State.flag (s : State) (f : Fld) (i : Nat) : Bool := s.get f i != 0

/-- Adds to a counter field that saturates. -/
def State.addSat (s : State) (f : Fld) (i n : Nat) : State :=
  s.set f i (min (s.get f i + n) (2 ^ f.width - 1))

/-- Adds to a counter field that wraps. -/
def State.addWrap (s : State) (f : Fld) (i n : Nat) : State := s.set f i (s.get f i + n)

/-- The staging copy of an RWS field (R79). -/
def State.getStaged (s : State) (f : Fld) (i : Nat) : Nat := rfFld s.staging f i

/-- Sets the staging copy of an RWS field. -/
def State.setStaged (s : State) (f : Fld) (i v : Nat) : State := { s with staging := rfSet s.staging f i v }

/-- Appends an output to the log. -/
def State.emit (s : State) (o : Out) : State := { s with out := o :: s.out }

/-- The next free value and the state after it is drawn. -/
def State.draw (s : State) : Nat × State := (Config.free s.drawn, { s with drawn := s.drawn + 1 })

/-- Bytes that are free values, eight to a value. -/
def State.freeBytes (s : State) : Nat → List Byte × State
  | 0 => ([], s)
  | n + 1 =>
    let (v, s) := s.draw
    let (rest, s) := s.freeBytes n
    ((List.range 8).map (fun i => BitVec.ofNat 8 (v / 2 ^ (8 * i))) ++ rest, s)

/-! ## The image's structures -/

/-- The image in force, an empty one where there is none. -/
def State.image (s : State) : Image := s.cf.image.getD {}

/-- The image's plan of a port. -/
def State.portPlan (s : State) (x : Nat) : Option PortPlan := s.image.ports.find? fun p => p.port == x

/-- The image places a port at lane x (R26). -/
def State.portExists (s : State) (x : Nat) : Bool := (s.portPlan x).isSome

/-- The port that owns a lane. -/
def State.portOfLane (s : State) (l : Nat) : Option PortPlan :=
  s.image.ports.find? fun p => p.port ≤ l && decide (l < p.port + p.lanes)

/-- The lanes of a port. -/
def State.lanesOf (s : State) (x : Nat) : List Nat :=
  match s.portPlan x with
  | none => []
  | some p => (List.range p.lanes).map (p.port + ·)

/-- A port's rate in Mbit/s, by its code (PORT.INFO.RATE). -/
def rateMbps : Nat → Nat
  | 1 => 25000 | 2 => 50000 | 3 => 100000 | 4 => 200000 | 5 => 400000 | 6 => 800000 | 7 => 1600000 | 8 => 3200000
  | _ => 0

/-- The rate code of a port, 0 where there is none. -/
def State.rateCode (s : State) (x : Nat) : Nat := ((s.portPlan x).map (·.rate)).getD 0

/-- The owning troupe of a port. -/
def State.portTroupe (s : State) (x : Nat) : Nat := ((s.portPlan x).map (·.troupe)).getD 0

/-- The port, the class group c = 16 port + group and the group of a queue ID (R25). -/
def queuePort (q : Nat) : Nat := q / 2048 % 512
def queueCg (q : Nat) : Nat := q / 128 % 8192
def queueGroup (q : Nat) : Nat := q / 128 % 16

/-- A queue exists where the image places its port (R26). -/
def State.queueExists (s : State) (q : Nat) : Bool := s.portExists (queuePort q)

/-- The troupe that owns an existing queue, none for another (R335). -/
def State.queueTroupe (s : State) (q : Nat) : Option Nat := (s.portPlan (queuePort q)).map (·.troupe)

/-- The image's plan of a troupe. -/
def State.troupePlan (s : State) (n : Nat) : Option TroupePlan := s.image.troupes.find? fun t => t.troupe == n

/-- The pipe of a port (R23). -/
def portPipe (x : Nat) : Nat := x / 32
/-- The rim die of a pipe, and of a port. -/
def pipeDie (p : Nat) : Nat := p % 16 / 4

/-! ## Interrupts (R538, R539) -/

/-- The MSI-X state of a function. -/
def State.msixOf (s : State) (f : Nat) : MsixState := tabGet {} s.hif.msix f

/-- Changes the MSI-X state of a function. -/
def State.modMsix (s : State) (f : Nat) (g : MsixState → MsixState) : State :=
  { s with hif := { s.hif with msix := tabMod {} s.hif.msix f g } }

/-- The MSI-X state of a function as its resets leave it (R108, R509, R523). -/
def State.resetMsix (s : State) (f : Nat) : State := { s with hif := { s.hif with msix := tabDel s.hif.msix f } }

/-- A vector of a function can be sent: MSI-X is enabled, and neither the function nor the vector is masked. -/
def MsixState.open_ (m : MsixState) (v : Nat) : Bool :=
  m.enabled && !m.funcMask && !(tabGet {} m.entries v).masked

/-- Sends an MSI-X message of a function, or keeps its pending bit while it is masked (log entry 75). -/
def State.sendMsix (s : State) (f v : Nat) : State :=
  if (s.msixOf f).open_ v then s.emit (.msix f v)
  else s.modMsix f fun m => { m with pendingBits := v :: m.pendingBits.erase v }

/-- Messages that waited for a mask are sent once it is gone (log entry 75). -/
def State.releaseMsix (s : State) (f : Nat) : State :=
  let m := s.msixOf f
  let (go, stay) := m.pendingBits.partition m.open_
  go.foldl (fun s v => s.emit (.msix f v)) (s.modMsix f fun m => { m with pendingBits := stay })

/-- The AND of an INT_CAUSE register and its INT_EN register is not 0. -/
def State.causePending (s : State) (c e : Reg) : Bool := (s.reg c 0 &&& s.reg e 0) != 0

/-- The 17 sources of TOP.INT_CAUSE as they now stand (R538). -/
def State.topSources (s : State) : List Bool :=
  [ s.causePending .TOP_READY_CHANGE .TOP_READY_INT_EN,
    s.causePending .CFG_INT_CAUSE .CFG_INT_EN,
    s.causePending .SEC_INT_CAUSE .SEC_INT_EN,
    s.causePending .BBX_INT_CAUSE .BBX_INT_EN,
    s.causePending .TND_INT_CAUSE .TND_INT_EN,
    s.causePending .PACE_INT_CAUSE .PACE_INT_EN,
    s.causePending .TIME_INT_CAUSE .TIME_INT_EN,
    s.causePending .HIF_INT_CAUSE .HIF_INT_EN,
    (List.range 8).any fun k => s.reg .PORT_INT_CAUSE k != 0,
    s.causePending .MOD_INT_CAUSE .MOD_INT_EN,
    s.causePending .PIPE_INT_CAUSE .PIPE_INT_EN,
    s.causePending .TBL_INT_CAUSE .TBL_INT_EN,
    s.causePending .CELL_INT_CAUSE .CELL_INT_EN,
    s.causePending .QM_INT_CAUSE .QM_INT_EN,
    s.causePending .HBM_INT_CAUSE .HBM_INT_EN,
    s.causePending .TEL_INT_CAUSE .TEL_INT_EN,
    (List.range 64).any fun n => s.flag LNK.LINK_STATUS.RETIRED_SEEN n ]

/-- Bits as a number, the first the lowest. -/
def bitsToNat : List Bool → Nat
  | [] => 0
  | b :: bs => b2n b + 2 * bitsToNat bs

/-- A bit is 1 in `new` and 0 in `old`. -/
def rises (old new : Nat) : Bool := (new &&& (old &&& new ^^^ new)) != 0

/-- Brings TOP.INT_CAUSE up to date, and sends vector 0 of the PF when a masked-in source rises (R538). -/
def State.refreshInts (s : State) : State :=
  let old := s.reg .TOP_INT_CAUSE 0
  let new := bitsToNat s.topSources
  let mask := s.get TOP.INT_MASK.MASK 0
  let s := s.setReg .TOP_INT_CAUSE 0 new
  if rises (old &&& mask) (new &&& mask) then s.sendMsix 0 0 else s

/-- Sets a cause bit of a block and brings the cause tree up to date. -/
def State.raise (s : State) (f : Fld) : State := (s.set f 0 1).refreshInts

/-- Sets a cause bit of troupe n's window and sends vector 0 of VF n when the masked-in causes rise from 0 (R539). -/
def State.raiseWin (s : State) (f : Fld) (n : Nat) : State :=
  let old := s.reg .WIN_INT_CAUSE n &&& s.reg .WIN_INT_EN n
  let s := s.set f n 1
  let new := s.reg .WIN_INT_CAUSE n &&& s.reg .WIN_INT_EN n
  if rises old new then s.sendMsix n 0 else s

/-- Brings a port's bit of PORT.INT_CAUSE up to date with its enabled events. -/
def State.refreshPortInt (s : State) (x : Nat) : State :=
  let on := (s.reg .PORT_EVENT x &&& s.reg .PORT_EVENT_EN x) != 0
  (s.setReg .PORT_INT_CAUSE (x / 64) (natSetBit (s.reg .PORT_INT_CAUSE (x / 64)) (x % 64) on)).refreshInts

/-- Raises an event of a port. -/
def State.portEvent (s : State) (f : Fld) (x : Nat) : State := (s.set f x 1).refreshPortInt x

/-! ## Readiness (R112, R119) and network time (R372) -/

/-- A bit of TOP.READY. -/
def State.ready (s : State) (n : Nat) : Bool := natBit (s.get TOP.READY.BITS 0) n

/-- The bits of R112 by name. -/
def rdyKeeper : Nat := 0
def rdyIdentity : Nat := 1
def rdyBbx : Nat := 2
def rdyPcie : Nat := 3
def rdyImage : Nat := 4
def rdyTime : Nat := 5
def rdyHbm (k : Nat) : Nat := 6 + k
def rdyWarden (w : Nat) : Nat := 8 + w
def rdyGovernor : Nat := 10
def rdyRim (d : Nat) : Nat := 11 + d
def rdyQm : Nat := 15
def rdyCell : Nat := 16
def rdyMod : Nat := 17

/-- A bit of TOP.TROUPE_READY (R117). -/
def State.troupeReady (s : State) (n : Nat) : Bool := natBit (s.get TOP.TROUPE_READY.BITS 0) n

/-- Sets or clears a bit of TOP.TROUPE_READY; the window of the troupe shows it and its change (R117, R518). -/
def State.setTroupeReady (s : State) (n : Nat) (b : Bool) : State :=
  if s.troupeReady n == b then s
  else
    let s := s.set TOP.TROUPE_READY.BITS 0 (natSetBit (s.get TOP.TROUPE_READY.BITS 0) n b)
    (s.set WIN.STATE.READY n (b2n b)).raiseWin WIN.INT_CAUSE.STATE n

/-- HIF.TROUPE_STATE.STATE, which the window of the troupe shows (R515 to R517). -/
def State.setTroupeState (s : State) (n v : Nat) : State :=
  if s.get HIF.TROUPE_STATE.STATE n = v then s
  else ((s.set HIF.TROUPE_STATE.STATE n v).set WIN.STATE.STATE n v).raiseWin WIN.INT_CAUSE.STATE n

/-- Network time in units of 2^-53 ns (R372). -/
def State.netTime (s : State) : Int := s.tim.offset + (s.now : Int) * (2 ^ 52 + s.tim.rate)

/-- Network time in units of 2^-16 ns. -/
def State.netStamp (s : State) : Int := s.netTime / 2 ^ 37

/-- Network time in whole nanoseconds. -/
def State.netNs (s : State) : Int := s.netTime / 2 ^ 53

/-! ## Black-box records (R563 to R565) -/

/-- A time of 8 bytes: network time in ns while the TIME bit is 1, else the raw counter. -/
def State.stampTime (s : State) : Nat := if s.ready rdyTime then (s.netNs % 2 ^ 64).toNat else s.now % 2 ^ 64

/-- The TIME of a record made now (R564): the keeper's microseconds while only VDD_KEEP is present, network time while
the TIME bit is 1, else the raw counter. -/
def State.recordTime (s : State) : Nat :=
  if !s.pkg.mainPg then s.pkg.keepNow / usTicks else s.stampTime

/-- Queues a record of a source (0 DEVICE, 1 FIRMWARE, 2 HOST, 3 KEEPER); a full queue of 256 loses it (R565). -/
def State.recordFrom (s : State) (source code : Nat) (data : List Byte) : State :=
  if 256 ≤ s.bbx.queue.length then
    let s := (s.addSat BBX.LOSS.LOST 0 1).raise BBX.INT_CAUSE.LOSS
    { s with bbx := { s.bbx with lossDue := true } }
  else
    let r : BbxRecord :=
      { seq := 0, code := code, boot := s.get TOP.BOOT_INFO.BOOT_COUNT 0, source := source,
        rawTime := s.pkg.mainPg && !s.ready rdyTime, keeperTime := !s.pkg.mainPg, pinned := false, loss := false,
        suppressed := min (tabGet 0 s.bbx.suppressed code) 65535, time := s.recordTime, data := data, chain := [] }
    let s := { s with bbx := { s.bbx with queue := s.bbx.queue ++ [r], suppressed := tabDel s.bbx.suppressed code } }
    s.set BBX.LOSS.QUEUE_FILL 0 s.bbx.queue.length

/-- Queues a record of the device. -/
def State.record (s : State) (code : Nat) (data : List Byte) : State := s.recordFrom 0 code data

/-- Queues a record unless `n` records of the key stand within the last `span` ticks, in which case it counts as
suppressed. -/
def State.recordLimited (s : State) (source code key n span : Nat) (data : List Byte) : State :=
  let at_ := (tabGet [] s.bbx.rateAt key).filter fun t => decide (s.pkg.keepNow < t + span)
  if n ≤ at_.length then
    { s with bbx := { s.bbx with suppressed := tabPut s.bbx.suppressed code (tabGet 0 s.bbx.suppressed code + 1) } }
  else
    let s := { s with bbx := { s.bbx with rateAt := tabPut s.bbx.rateAt key (s.pkg.keepNow :: at_) } }
    s.recordFrom source code data

/-- Sets or clears a bit of TOP.READY: READY_CHANGE and the READY source follow (R119), and a clearing outside a
reset writes TOP_READY_CLEAR. -/
def State.setReady (s : State) (n : Nat) (b inReset : Bool) : State :=
  if s.ready n == b then s
  else
    let s := s.set TOP.READY.BITS 0 (natSetBit (s.get TOP.READY.BITS 0) n b)
    let s := (s.set TOP.READY_CHANGE.CHANGED 0 (natSetBit (s.get TOP.READY_CHANGE.CHANGED 0) n true)).refreshInts
    if !b && !inReset then s.record 0x0104 (leBytes n 1 ++ leBytes (s.get TOP.READY.BITS 0) 8) else s

/-- A warden is in service (R116). -/
def State.wardenUp (s : State) : Bool := s.ready (rdyWarden 0) || s.ready (rdyWarden 1)

/-- The firmware serves: a warden is in service, and neither the pause of a resync (R557) nor a divergence's self-test, while
which firmware services pause (R550), runs. -/
def State.firmwareRuns (s : State) : Bool := s.wardenUp && !s.tnd.paused && s.tnd.divergeAt.isNone

/-- Brings the MOD bit up to date: it sets while IMAGE and a warden bit are set, and clears when both warden bits
are clear (R112). -/
def State.refreshMod (s : State) : State :=
  if s.ready rdyImage && s.wardenUp then s.setReady rdyMod true false
  else if !s.wardenUp then s.setReady rdyMod false false
  else s

/-- A full image is in APPLY. -/
def State.fullApply (s : State) : Bool := s.get CFG.LOAD_STATUS.STATE 0 == 3 && s.cf.load.any fun l => l.kind == 0

/-- A register write of a function reaches its block: the PCIE bit is set (R112, R114), the function is there, its
troupe is not removed (R516), and no full image is in APPLY unless the block stays open then (R76). -/
def State.hostReach (s : State) (fn : Nat) (open_ : Bool) : Bool :=
  s.ready rdyPcie && (open_ || !s.fullApply) &&
    (fn == 0 || (s.flag HIF.TROUPE_STATE.VF_PRESENT fn && s.get HIF.TROUPE_STATE.STATE fn != 3))

/-! ## Drops (R301, R416) -/

def dropPcsError : Nat := 0x01
def dropTruncated : Nat := 0x02
def dropTooLong : Nat := 0x03
def dropTooShort : Nat := 0x04
def dropStomped : Nat := 0x05
def dropFcs : Nat := 0x06
def dropCadence : Nat := 0x08
def dropParse : Nat := 0x09
def dropBounds : Nat := 0x0A
def dropNoDest : Nat := 0x0B
def dropAuxFull : Nat := 0x0C
def dropRecirc : Nat := 0x0D
def dropPolicer : Nat := 0x0E
def dropPortDown : Nat := 0x10
def dropQueue : Nat := 0x11
def dropPort : Nat := 0x12
def dropTroupe : Nat := 0x13
def dropQuota : Nat := 0x14
def dropHeadroom : Nat := 0x15
def dropPool : Nat := 0x16
def dropDesc : Nat := 0x17
def dropToken : Nat := 0x18
def dropEcn : Nat := 0x19
def dropReload : Nat := 0x1A
def dropCopyLimit : Nat := 0x1B
def dropHold : Nat := 0x20
def dropWindow : Nat := 0x21
def dropStale : Nat := 0x22
def dropHbm : Nat := 0x23
def dropMtu : Nat := 0x24
def dropHostDown : Nat := 0x25
def dropRing : Nat := 0x26

/-- A drop reason that is counted: the device's codes and the program-assignable range; 0x00 and the reserved codes are
not (R301, R416). -/
def reasonCounted (r : Nat) : Bool :=
  decide (0x80 ≤ r) || (decide (1 ≤ r) && decide (r ≤ 6)) || (decide (8 ≤ r) && decide (r ≤ 0x0E)) ||
    (decide (0x10 ≤ r) && decide (r ≤ 0x1B)) || (decide (0x20 ≤ r) && decide (r ≤ 0x26))

/-- The row of the drop counters of a frame: its ingress port, or 512 + n for one that troupe n injected (R416). -/
def dropRow (port troupe : Nat) : Nat := if port < 512 then port else 512 + troupe

/-- Adds to a port counter, by its place in the table of R165. -/
def State.portCount (s : State) (x k n : Nat) : State := s.addWrap PORT.COUNTER.COUNT (x * 20 + k) n

def cntRxFrames : Nat := 0
def cntRxBytes : Nat := 1
def cntRxFcsErr : Nat := 2
def cntRxStomped : Nat := 3
def cntRxTooShort : Nat := 4
def cntRxTooLong : Nat := 5
def cntRxPcsErr : Nat := 6
def cntRxTruncated : Nat := 7
def cntRxPfc : Nat := 8
def cntRxIgnored : Nat := 9
def cntTxFrames : Nat := 10
def cntTxBytes : Nat := 11
def cntTxStomped : Nat := 12
def cntTxUnderrun : Nat := 13
def cntTxPfc : Nat := 14
def cntTxAborted : Nat := 15
def cntFecTotal : Nat := 16
def cntFecCorrected : Nat := 17
def cntFecUncorr : Nat := 18
def cntFecSyms : Nat := 19

/-! ## The switch's records -/

def State.link (s : State) (n : Nat) : Link := tabGet {} s.sw.links n
def State.modLink (s : State) (n : Nat) (f : Link → Link) : State :=
  { s with sw := { s.sw with links := tabMod {} s.sw.links n f } }
def State.pipe (s : State) (p : Nat) : Pipe := tabGet {} s.sw.pipes p
def State.modPipe (s : State) (p : Nat) (f : Pipe → Pipe) : State :=
  { s with sw := { s.sw with pipes := tabMod {} s.sw.pipes p f } }
def State.lane (s : State) (l : Nat) : Lane := tabGet {} s.sw.lanes l
def State.modLane (s : State) (l : Nat) (f : Lane → Lane) : State :=
  { s with sw := { s.sw with lanes := tabMod {} s.sw.lanes l f } }
def State.port (s : State) (x : Nat) : Port := tabGet {} s.sw.ports x
def State.modPort (s : State) (x : Nat) (f : Port → Port) : State :=
  { s with sw := { s.sw with ports := tabMod {} s.sw.ports x f } }
def State.packet (s : State) (k : Nat) : Option Packet := tabFind s.sw.packets k
def State.putPacket (s : State) (k : Nat) (p : Packet) : State :=
  { s with sw := { s.sw with packets := tabPut s.sw.packets k p } }
def State.delPacket (s : State) (k : Nat) : State :=
  { s with sw := { s.sw with packets := tabDel s.sw.packets k } }
/-- Changes a packet that is in the part. -/
def State.modPacket (s : State) (k : Nat) (f : Packet → Packet) : State :=
  match s.packet k with
  | none => s
  | some p => s.putPacket k (f p)
def State.desc (s : State) (d : Nat) : Option Desc := tabFind s.sw.descs d
def State.putDesc (s : State) (d : Nat) (v : Desc) : State :=
  { s with sw := { s.sw with descs := tabPut s.sw.descs d v } }
def State.modDesc (s : State) (d : Nat) (f : Desc → Desc) : State :=
  match s.desc d with
  | none => s
  | some v => s.putDesc d (f v)
def State.queue (s : State) (q : Nat) : List QEntry := tabGet [] s.sw.queues q
def State.setQueue (s : State) (q : Nat) (es : List QEntry) : State :=
  { s with sw := { s.sw with queues := if es.isEmpty then tabDel s.sw.queues q else tabPut s.sw.queues q es } }
def State.flight (s : State) (k : Nat) : Option Flight := tabFind s.sw.flights k
def State.putFlight (s : State) (k : Nat) (v : Flight) : State :=
  { s with sw := { s.sw with flights := tabPut s.sw.flights k v } }
def State.modFlight (s : State) (k : Nat) (f : Flight → Flight) : State :=
  match s.flight k with
  | none => s
  | some v => s.putFlight k (f v)

/-- The registers a packet of troupe n with an epoch bit is processed under: those of the old bit while it
differs from the troupe's present one (R81, R87). -/
def State.regsOf (s : State) (n : Nat) (epoch : Bool) : RegFile :=
  if natBit (s.get CFG.EPOCH.BITS 0) n == epoch then s.regs else ((tabFind s.cf.old n).map (·.regs)).getD s.regs

/-- A packet-scoped field for a packet of troupe n with an epoch bit. -/
def State.getFor (s : State) (n : Nat) (epoch : Bool) (f : Fld) (i : Nat) : Nat := rfFld (s.regsOf n epoch) f i

/-- Adds `n` events of a kind on a rim die (4 the hub) to what the energy model next takes up (R497). -/
def State.spend (s : State) (kind die : Nat) (troupe port pipe : Option Nat) (n : Nat) : State :=
  if n = 0 then s
  else { s with pace := { s.pace with acts :=
    { kind := kind, die := die, troupe := troupe, port := port, pipe := pipe, count := n } :: s.pace.acts } }

/-- Groups of 64 B, the last one partly filled. -/
def words64 (n : Nat) : Nat := (n + 63) / 64

/-- The actual or pace cadence of a rim die's pipes in MHz, as the governor reports it. -/
def State.setpointMhz (s : State) : Nat := s.get PACE.CADENCE_SET.SETPOINT_MHZ 0

end Sys2Proof.Machine
end

