-- ==== Sys2Proof/Machine/Exp.lean ====
section
/-!
DEFINITION. Powers of two with a fraction in the exponent, as the laser-wear rule (R179) and the leakage rule (R497)
use them: every binary digit is exact down to 2^-64 (R10; log entry 21).
-/

namespace Sys2Proof.Machine

/-- The largest number below 2^bits whose power `den`, added to a number already found, is at most `target`: the search from
the highest bit down. -/
def rootBits (target den : Nat) : Nat → Nat → Nat
  | 0, r => r
  | b + 1, r => rootBits target den b (if (r + 2 ^ b) ^ den ≤ target then r + 2 ^ b else r)

/-- 2^(num/den) in units of 2^-64, rounded down: the largest r with r^den ≤ 2^(64 den + num). -/
def pow2Fix (num : Int) (den : Nat) : Nat :=
  let g := Nat.gcd num.natAbs den
  let num := num / (g : Int)
  let den := den / g
  let e := 64 * (den : Int) + num
  if den = 0 || decide (e < 0) then 0 else rootBits (2 ^ e.toNat) den (e.toNat / den + 1) 0

end Sys2Proof.Machine
end

