-- ==== Sys2Proof/Machine/Links.lean ====
section
/-!
DEFINITION. The Lerar links (chapter 1, R28 to R34): replays, retirement and training.
-/

namespace Sys2Proof.Machine

/-- LNK.LINK_STATUS.STATE (R28). -/
def lnkTraining : Nat := 1
def lnkUp : Nat := 2
def lnkRetired : Nat := 3
def lnkFailed : Nat := 4

def State.linkState (s : State) (n : Nat) : Nat := s.get LNK.LINK_STATUS.STATE n

/-- The links of a rim die. -/
def dieLinks (d : Nat) : List Nat := (List.range 16).map (16 * d + ·)

/-- Links of a rim die in state UP. -/
def State.linksUp (s : State) (d : Nat) : Nat := ((dieLinks d).filter fun n => s.linkState n == lnkUp).length

/-- Brings LNK.DIE_STATUS of a die up to date. -/
def State.refreshDie (s : State) (d : Nat) : State :=
  let n := s.linksUp d
  let s := s.set LNK.DIE_STATUS.LINKS_UP d n
  let s := s.set LNK.DIE_STATUS.DEGRADED d (b2n (decide (n < 16)))
  s.set LNK.DIE_STATUS.SHORT d (b2n (decide (n < 13)))

/-- TBL.STATUS.READY of the carved tables sets once all four rim dies are ready (R118, R227). -/
def State.tablesReady (s : State) : State :=
  if (List.range 4).all fun d => s.ready (rdyRim d) then
    s.image.tables.foldl (fun s e => s.set TBL.STATUS.READY e.1 1) s
  else s

/-- A rim die's ready bit sets once an image is in force and training has finished with at least 13 links UP (R34,
R112). It does not clear here (R113). -/
def State.refreshRim (s : State) (d : Nat) : State :=
  if s.ready rdyImage && (dieLinks d).all (fun n => s.linkState n != lnkTraining) && decide (13 ≤ s.linksUp d) then
    (s.setReady (rdyRim d) true false).tablesReady
  else s

/-- Starts training of a link. -/
def State.trainLink (s : State) (n : Nat) : State :=
  let s := s.set LNK.LINK_STATUS.STATE n lnkTraining
  let s := s.addSat LNK.LINK_STATUS.TRAIN_ATTEMPTS n 1
  (s.modLink n fun l => { l with retiredAt := none }).refreshDie (n / 16)

/-- The retirement limit and the window of LNK.CFG, 0 treated as 1 (R31). -/
def State.retireReplays (s : State) : Nat := max 1 (s.get LNK.CFG.RETIRE_REPLAYS 0)
def State.retireWindow (s : State) : Nat := max 1 (s.get LNK.CFG.WINDOW_MS 0) * msTicks

/-- The UP link of a die that takes the next transfer: the first after the one that took the last, so that traffic is spread
over the links that are UP (R31). -/
def State.nextLink (s : State) (d : Nat) : Option Nat :=
  let last := tabGet 15 s.sw.lastLink d
  ((List.range 16).map fun i => 16 * d + (last + 1 + i) % 16).find? fun n => s.linkState n == lnkUp

/-- A rim die reaches the hub: it has a link UP (R33). -/
def State.dieJoined (s : State) (d : Nat) : Bool := (s.nextLink d).isSome

/-- A transfer crosses between a rim die and the hub. It is unacknowledged until a later one follows it on its link with
nothing being replayed (log entry 89). -/
def State.sendTransfer (s : State) (d : Nat) : State :=
  match s.nextLink d with
  | none => s
  | some n =>
    let t := s.sw.nextTransfer
    let s := { s with sw := { s.sw with nextTransfer := t + 1, lastLink := tabPut s.sw.lastLink d (n % 16) } }
    s.modLink n fun l => { l with unacked := (if l.tries.isEmpty then [] else l.unacked) ++ [t] }

/-- The transfers that are unacknowledged once one of them is replayed: it and those after it, since a replay does not reorder
(R30). -/
def stillUnacked (unacked : List Nat) (transfer : Nat) : List Nat :=
  if unacked.contains transfer then unacked.dropWhile (· != transfer) else unacked ++ [transfer]

/-- LERAR_REPLAY: a transfer of an UP link fails its check and is replayed (R30). The window of R31 begins at its first
replay, and the next at the first replay after its end: the spec does not place it (DESIGN CHOICE, log entry 89). -/
def execLerarReplay (link : LinkNo) (transfer : Nat) (s : State) : Answer :=
  let n := link.val
  if s.linkState n != lnkUp then .next s
  else
    let l := s.link n
    let tries := tabGet 0 l.tries transfer + 1
    let s := s.addSat LNK.LINK_ERRORS.REPLAYS n 1
    let s := if tries = 2 then s.addSat LNK.LINK_ERRORS.REPLAY_FAILS n 1 else s
    let fresh := decide (l.winStart + s.retireWindow ≤ s.now) || l.winReplays == 0
    .next (s.modLink n fun l => { l with
      winStart := if fresh then s.now else l.winStart
      winReplays := if fresh then 1 else l.winReplays + 1
      unacked := stillUnacked l.unacked transfer
      tries := [(transfer, tries)] })

/-- A link has reached the condition of R31: the replays of one window, or eight successive replays of one
transfer. -/
def State.retireDue (s : State) (n : Nat) : Bool :=
  let l := s.link n
  s.linkState n == lnkUp &&
    ((decide (s.retireReplays ≤ l.winReplays) && decide (s.now < l.winStart + s.retireWindow)) ||
      l.tries.any fun t => decide (8 ≤ t.2))

/-- The surviving link of a link's die that takes its transfers: the lowest in number, where the spec says only that it is one
of the same die (R31; DESIGN CHOICE, log entry 89). -/
def State.survivor (s : State) (n : Nat) : Option Nat :=
  (dieLinks (n / 16)).find? fun m => m != n && s.linkState m == lnkUp

/-- LINK_RETIRE: a link at the condition of R31 is retired, its unacknowledged transfers go in their order to a
surviving link of its die, and a record names it. -/
def execLinkRetire (link : LinkNo) (s : State) : Answer :=
  let n := link.val
  if !s.retireDue n then .next s
  else
    let moved := (s.link n).unacked
    let replays := (s.link n).winReplays
    let s := match s.survivor n with
      | some m => (s.modLink m fun l => { l with unacked := l.unacked ++ moved }).modLink n fun l =>
          { l with unacked := [] }
      | none => s
    let s := s.modLink n fun l => { l with tries := [], winReplays := 0, retiredAt := some s.now }
    let s := s.set LNK.LINK_STATUS.STATE n lnkRetired
    let s := (s.set LNK.LINK_STATUS.RETIRED_SEEN n 1).refreshInts
    .next ((s.refreshDie (n / 16)).record 0x0802 (leBytes n 1 ++ leBytes replays 2))

/-- LINK_AUTO_RETRAIN: 10 ms after a retirement the link trains once, with AUTO_RETRAIN set (R32). -/
def execLinkAutoRetrain (link : LinkNo) (s : State) : Answer :=
  let n := link.val
  match (s.link n).retiredAt with
  | none => .next s
  | some t =>
    if s.flag LNK.CFG.AUTO_RETRAIN 0 && s.linkState n == lnkRetired && decide (t + 10 * msTicks ≤ s.now) then
      .next (s.trainLink n)
    else .next s

/-- LINK_TRAINING_END: a link in training ends UP or in TRAIN_FAILED (R32). -/
def execLinkTrainingEnd (link : LinkNo) (up : Bool) (s : State) : Answer :=
  let n := link.val
  if s.linkState n != lnkTraining then .next s
  else
    let s := s.set LNK.LINK_STATUS.STATE n (if up then lnkUp else lnkFailed)
    let s := if up then s.modLink n fun l => { l with winReplays := 0, tries := [] } else s
    .next ((s.refreshDie (n / 16)).refreshRim (n / 16))

/-- RETRAIN: a write of LNK.CTRL starts training of link [5:0] when bit 8 is 1 and the link is RETIRED or
TRAIN_FAILED (R32). -/
def execRetrain (value : Word) (s : State) : Answer :=
  if !s.hostReach 0 false then .next s else
  let n := bitsOf value 0 6
  if natBit value.toNat 8 && (s.linkState n == lnkRetired || s.linkState n == lnkFailed) then .next (s.trainLink n)
  else .next s

end Sys2Proof.Machine
end

