-- ==== Sys2Proof/Machine/Epochs.lean ====
section
/-!
DEFINITION. Epoch bits, and what tells how far a commit has come: the switches of the ingress pipes after a fence and
the packets that still hold an old epoch bit (R80 to R88).
-/

namespace Sys2Proof.Machine

/-- The functions of the CFG.COMMIT_STATUS that report a commit: the physical function's own, or the window's (R520). A
closing commit is reported nowhere. -/
def CommitRec.fn (c : CommitRec) : Option Nat :=
  match c.by_ with
  | .cfg => some 0
  | .window n => some n
  | .imageApply => none
  | .troupeApply _ => none

/-- Sets a field of the status of a commit. -/
def State.setCommit (s : State) (c : CommitRec) (f : Fld) (v : Nat) : State :=
  match c.fn with
  | none => s
  | some n => s.set f n v

/-- Raises the interrupt cause of a commit: of the CFG block, or of the window (R520). -/
def State.raiseCommit (s : State) (c : CommitRec) (pf win : Fld) : State :=
  match c.fn with
  | none => s
  | some 0 => s.raise pf
  | some n => s.raiseWin win n

/-- CFG.COMMIT_STATUS.STATE. -/
def csCheck : Nat := 1
def csFence : Nat := 2
def csDraining : Nat := 3
def csDone : Nat := 4
def csRefused : Nat := 5
def csWait : Nat := 6

/-- A packet past its launch that holds another epoch bit than its troupe's present one (R88). -/
def State.oldPacket (s : State) (n : Nat) (v : Packet) : Bool :=
  v.troupe == n && (v.place != .ififo || v.injected) && v.epoch != natBit (s.get CFG.EPOCH.BITS 0) n

/-- A head is at the pipe's entry: the whole frame has arrived, or more than the 256 bytes of its head, so that a frame of 256
bytes or less is always known whole at its launch (R196). -/
def Packet.headReady (v : Packet) : Bool := v.whole || decide (256 < v.arrived)

/-- The heads of the elastic FIFO that can be launched now, in order, at most `n`. -/
def State.readyHeads (s : State) (p n : Nat) : List Nat :=
  ((s.pipe p).fifo.takeWhile fun k => match s.packet k with
    | some v => v.headReady
    | none => false).take n

/-- Troupe n holds packets of its old epoch bit, which CFG.DRAIN_STATUS shows (R88). -/
def State.holdsOld (s : State) (n : Nat) : Bool :=
  s.sw.packets.any (fun e => s.oldPacket n e.2) || s.sw.spilled.any (fun e => s.oldPacket n e.2.packet)

/-- Troupe n holds packets of its old epoch bit in pipes, links, the cell store, queues or spilled tails, or may yet
launch some (R88). -/
def State.draining (s : State) (n : Nat) : Bool :=
  s.sw.pipes.any (fun e => e.2.fencePending && natBit e.2.epochs n != natBit (s.get CFG.EPOCH.BITS 0) n) ||
  s.holdsOld n

/-- DRAIN_STATUS follows the packets of the old bit, and a configuration that no packet needs is given up (R88). -/
def State.refreshDrain (s : State) : State :=
  let s := { s with cf := { s.cf with old := s.cf.old.filter fun e => s.draining e.1 } }
  s.set CFG.DRAIN_STATUS.DRAINING 0 (s.cf.old.foldl (fun v e => natSetBit v e.1 (s.holdsOld e.1)) 0)

/-- A commit in FENCE goes on to DRAINING once every ingress pipe has switched (R86). -/
def State.fenceDone (s : State) : State :=
  if s.sw.pipes.any (fun e => e.2.fencePending) then s
  else
    let s := s.cf.commits.foldl (fun s c => if c.phase == .fence then s.setCommit c CFG.COMMIT_STATUS.STATE csDraining else s) s
    { s with cf := { s.cf with commits := s.cf.commits.map fun c => if c.phase == .fence then { c with phase := .draining } else c } }

/-- Troupe n exists while the image in force reserves it and it is not removed; troupe 0 always exists (R510). -/
def State.troupeExists (s : State) (n : Nat) : Bool :=
  n == 0 || ((s.troupePlan n).isSome && s.get HIF.TROUPE_STATE.STATE n == 1)

/-- The troupes that exist. -/
def State.troupesHere (s : State) : List Nat := (List.range 64).filter s.troupeExists

/-- The troupes in the scope of a commit (R80). -/
def State.scopeTroupes (s : State) (c : CommitRec) : List Nat :=
  match c.scope with
  | none => s.troupesHere
  | some n => [n]

/-- An ingress pipe takes a fence it has received: the heads that it launches carry the new bits (R86). -/
def State.epochSwitch (s : State) (p : Nat) : State :=
  if (s.pipe p).fencePending then
    let first := s.cf.fenceFirst.getD s.now
    let s := { s with cf := { s.cf with fenceFirst := some first } }
    let s := match s.cf.fenceFn with
      | some f => s.set CFG.COMMIT_STATUS.SPREAD_NS f (min 65535 ((s.now - first) / 2))
      | none => s
    (s.modPipe p fun v => { v with fencePending := false, epochs := s.get CFG.EPOCH.BITS 0 }).fenceDone
  else s

end Sys2Proof.Machine
end

