-- ==== Sys2Proof/Machine/Rings.lean ====
section
/-!
DEFINITION. The rings of the host interface (chapter 15, R521 to R537): their counts, their interrupts, and the
writing of one entry.
-/

namespace Sys2Proof.Machine

/-- The registers of a kind of ring. -/
structure RingRegs where
  en : Fld
  vector : Fld
  coalN : Fld
  coalUs : Fld
  size : Fld
  base : Fld
  wb : Fld
  prod : Fld
  cons : Fld
  err : Fld
  errCause : Fld
  count : Fld
deriving DecidableEq, Repr

def ringRegs : RingKind → RingRegs
  | .rx => ⟨HIF.RX_CFG.EN, HIF.RX_CFG.VECTOR, HIF.RX_CFG.COAL_N, HIF.RX_CFG.COAL_US, HIF.RX_CQ.SIZE_LOG2, HIF.RX_CQ.BASE,
      HIF.RX_CQ_WB.ADDR, HIF.RX_CQ_IDX.PROD, HIF.RX_CQ_IDX.CONS, HIF.RX_STATUS.ERR, HIF.RX_STATUS.ERR_CAUSE,
      HIF.RX_STATUS.COUNT⟩
  | .tx => ⟨HIF.TX_CFG.EN, HIF.TX_CFG.VECTOR, HIF.TX_CFG.COAL_N, HIF.TX_CFG.COAL_US, HIF.TX_RING.SIZE_LOG2,
      HIF.TX_RING.BASE, HIF.TX_WB.ADDR, HIF.TX_IDX.PROD, HIF.TX_IDX.CONS, HIF.TX_STATUS.ERR, HIF.TX_STATUS.ERR_CAUSE,
      HIF.TX_STATUS.COUNT⟩
  | .tlm => ⟨HIF.TLM_CFG.EN, HIF.TLM_CFG.VECTOR, HIF.TLM_CFG.COAL_N, HIF.TLM_CFG.COAL_US, HIF.TLM_RING.SIZE_LOG2,
      HIF.TLM_RING.BASE, HIF.TLM_WB.ADDR, HIF.TLM_IDX.PROD, HIF.TLM_IDX.CONS, HIF.TLM_STATUS.ERR,
      HIF.TLM_STATUS.ERR_CAUSE, HIF.TLM_STATUS.COUNT⟩
  | .rpt => ⟨HIF.RPT_CFG.EN, HIF.RPT_CFG.VECTOR, HIF.RPT_CFG.COAL_N, HIF.RPT_CFG.COAL_US, HIF.RPT_RING.SIZE_LOG2,
      HIF.RPT_RING.BASE, HIF.RPT_WB.ADDR, HIF.RPT_IDX.PROD, HIF.RPT_IDX.CONS, HIF.RPT_STATUS.ERR,
      HIF.RPT_STATUS.ERR_CAUSE, HIF.RPT_STATUS.COUNT⟩

/-- The number of a ring kind in the collected interrupts. -/
def RingKind.code : RingKind → Nat
  | .rx => 0 | .tx => 1 | .tlm => 2 | .rpt => 3

/-- The owning troupe of a ring, from the image; telemetry ring n is troupe n's (R536). -/
def State.ringOwner (s : State) (k : RingKind) (r : Nat) : Nat :=
  match k with
  | .rx => tabGet 0 s.image.rxOwner r
  | .tx => tabGet 0 s.image.txOwner r
  | .tlm => r
  | .rpt => tabGet 0 s.image.rptOwner r

/-- Entries of a ring, or bytes of a telemetry ring, within the limits of SIZE_LOG2. -/
def State.ringSize (s : State) (k : RingKind) (r : Nat) : Nat :=
  let v := s.get (ringRegs k).size r
  2 ^ (if k == .tlm then clampN 16 30 v else clampN 6 16 v)

/-- The fill of a ring (R521). -/
def State.ringFill (s : State) (k : RingKind) (r : Nat) : Nat :=
  (s.get (ringRegs k).prod r + 2 ^ 32 - s.get (ringRegs k).cons r) % 2 ^ 32

/-- Bus Master Enable of a function (R506, R528). -/
def State.busMaster (s : State) (f : Nat) : Bool :=
  if f = 0 then s.hif.pfBme else s.flag HIF.TROUPE_STATE.BME f

/-- A ring can be used by the device: it is enabled and its function may master the bus. -/
def State.ringOn (s : State) (k : RingKind) (r : Nat) : Bool :=
  s.flag (ringRegs k).en r && s.busMaster (s.ringOwner k r)

/-- An error of a ring (R521, R522, R527): 1 OVERRUN, 2 DMA_ERROR, 3 BAD_CFG. A DMA error clears EN. -/
def State.ringError (s : State) (k : RingKind) (r cause : Nat) : State :=
  let g := ringRegs k
  let s := s.set g.err r 1
  let s := s.set g.errCause r cause
  let s := if cause = 2 then s.set g.en r 0 else s
  let n := s.ringOwner k r
  if n = 0 then s.raise HIF.INT_CAUSE.RING_ERR else s.raiseWin WIN.INT_CAUSE.RING_ERR n

/-- Sends vector v of a function; one of COUNT or more is vector 0 (R540). -/
def State.sendVector (s : State) (f v : Nat) : State :=
  s.sendMsix f (if v < s.get HIF.MSIX_ALLOC.COUNT f then v else 0)

/-- Sends the interrupt of a ring and forgets what was collected (R524). -/
def State.ringSignal (s : State) (k : RingKind) (r : Nat) : State :=
  let s := { s with hif := { s.hif with coal := tabDel s.hif.coal (k.code * 1024 + r) } }
  s.sendVector (s.ringOwner k r) (s.get (ringRegs k).vector r)

/-- One more entry counts toward the ring's interrupt (R524). -/
def State.ringCount (s : State) (k : RingKind) (r : Nat) : State :=
  let key := k.code * 1024 + r
  let (n, since) := tabGet (0, s.now) s.hif.coal key
  let s := { s with hif := { s.hif with coal := tabPut s.hif.coal key (n + 1, since) } }
  if s.get (ringRegs k).coalUs r = 0 || decide (max 1 (s.get (ringRegs k).coalN r) ≤ n + 1) then s.ringSignal k r else s

/-- The writeback of a ring's count (R529, R534). -/
def State.ringWriteback (s : State) (k : RingKind) (r : Nat) : State :=
  let c := if k == .tx then s.get (ringRegs k).cons r else s.get (ringRegs k).prod r
  s.emit (.dma (s.get (ringRegs k).wb r * 4) (leBytes c 4))

/-- Writes one entry of `n` bytes at a ring's producer, with the writeback and the interrupt (R521, R524). -/
def State.ringPut (s : State) (k : RingKind) (r n : Nat) (bytes : List Byte) : State :=
  let g := ringRegs k
  let p := s.get g.prod r
  let s := s.emit (.dma (s.get g.base r * 4096 + p % s.ringSize k r * n) bytes)
  let s := s.set g.prod r (p + 1)
  (s.ringWriteback k r).ringCount k r

/-- A list of bytes filled with zeros to a length. -/
def padTo (n : Nat) (bs : List Byte) : List Byte := (bs ++ List.replicate (n - bs.length) 0).take n

/-! ## Table reports (R278, R279, R537) -/

/-- A table report: type, flags, table, dies, position, detail and entry image. -/
structure Report where
  type : Nat
  stash : Bool := false
  twin : Nat := 0
  table : Nat := 0
  dies : Nat := 15
  index : Nat := 0
  detail : Nat := 0
  entry : List Byte := []
deriving DecidableEq, Repr

/-- The 96 bytes of a report (R278). -/
def State.reportBytes (s : State) (r : Report) : List Byte :=
  let raw := !s.ready rdyTime
  leBytes r.type 1 ++ leBytes (b2n r.stash + 2 * (r.twin % 2) + 128 * b2n raw) 1 ++ leBytes r.table 1 ++
    leBytes r.dies 1 ++ leBytes (r.index % 2 ^ 24) 4 ++ leBytes s.tb.reportSeq 4 ++ leBytes r.detail 4 ++
    leBytes s.stampTime 8 ++ padTo 64 r.entry ++ leBytes 0 8

/-- TABLE_REPORT: a report goes to a ring, or is discarded and counted where the ring is full or cannot be written
(R278, R279). -/
def State.tableReport (s : State) (ring : Nat) (r : Report) : State :=
  if s.ringOn .rpt ring && decide (s.ringFill .rpt ring < s.ringSize .rpt ring) then
    let bytes := s.reportBytes r
    let s := s.ringPut .rpt ring 128 (padTo 128 bytes)
    { s with tb := { s.tb with reportSeq := (s.tb.reportSeq + 1) % 2 ^ 32 } }
  else
    let s := s.addSat TBL.REPORT_DROPS.DROPS 0 1
    let s := s.addSat HIF.RPT_STATUS.COUNT ring 1
    s.raise TBL.INT_CAUSE.REPORT_DROP

end Sys2Proof.Machine
end

