-- ==== Sys2Proof/Machine/Tables.lean ====
section
/-!
DEFINITION. The tables' shared operations (chapter 7): lookups, the insertion and removal of exact-match entries with
relocation and stash, longest-prefix tries, and the reports that follow.
-/

namespace Sys2Proof.Machine

/-- The kinds of R224. -/
def kindExact : Nat := 1
def kindLpm4 : Nat := 2
def kindLpm6 : Nat := 3
def kindTernary : Nat := 4
def kindIndex : Nat := 5

def TablePlan.isLpm (p : TablePlan) : Bool := p.kind == kindLpm4 || p.kind == kindLpm6

/-- Width of an entry in bits. -/
def TablePlan.bits (p : TablePlan) : Nat := 64 * 2 ^ p.width

/-- Buckets of an exact-match table of n tiles: n × 65,536 / (W / 2) (R233). -/
def TablePlan.buckets (p : TablePlan) : Nat := p.sramTiles * 65536 / (p.bits / 2)

/-- SRAM tiles of a table, its twin's among them (R243). -/
def TablePlan.tiles (p : TablePlan) : Nat := if p.twin then 2 * p.sramTiles else p.sramTiles

/-- The key and the data of an exact-match image (R234). -/
def TablePlan.keyOf (p : TablePlan) (image : Nat) : Nat := image % 2 ^ (8 * p.keyBytes)
def TablePlan.bodyOf (p : TablePlan) (image : Nat) : Nat := image % 2 ^ (p.bits - 32)
def TablePlan.dataOf (p : TablePlan) (image : Nat) : Nat := p.bodyOf image / 2 ^ (8 * p.keyBytes)

def State.tablePlan (s : State) (t : Nat) : Option TablePlan := tabFind s.image.tables t
def State.table (s : State) (t : Nat) : TableSt := tabGet {} s.tb.tables t
def State.putTable (s : State) (t : Nat) (v : TableSt) : State :=
  { s with tb := { s.tb with tables := tabPut s.tb.tables t v } }

def TableSt.twin (v : TableSt) (w : Nat) : Twin := if w = 0 then v.twin0 else v.twin1
def TableSt.setTwin (v : TableSt) (w : Nat) (t : Twin) : TableSt :=
  if w = 0 then { v with twin0 := t } else { v with twin1 := t }

/-- The twin that a command's TWIN names: 0 the active one, 1 the standby (R243). -/
def State.twinOf (s : State) (t sel : Nat) : Nat := (s.get TBL.TABLE_CTRL.ACTIVE_TWIN t + sel) % 2

/-- SEED0 and SEED1 of a twin in force. -/
def State.seedsOf (s : State) (t w : Nat) : Nat × Nat :=
  (s.get TBL.TABLE_SEED.SEED0 (2 * t + w), s.get TBL.TABLE_SEED.SEED1 (2 * t + w))

/-- The two bucket choices of a key (R235). -/
def TablePlan.choices (p : TablePlan) (seeds : Nat × Nat) (key : Nat) : Nat × Nat :=
  let bs := leBytes key p.keyBytes
  let b0 := crc32c seeds.1 bs * p.buckets / 2 ^ 32
  let b1 := crc32 seeds.2 bs * p.buckets / 2 ^ 32
  (b0, if b1 = b0 then (b0 + 1) % p.buckets else b1)

/-! ## Entries -/

/-- An entry with the same copy on every rim die. -/
def sameEntry (c : TCopy) : TEntry := [(0, c), (1, c), (2, c), (3, c)]

/-- A die's copy of an entry. -/
def entryOn (e : TEntry) (d : Nat) : Option TCopy := tabFind e d

/-- The four copies are identical: key, data and STATIC (R231). -/
def entrySame (e : TEntry) : Bool :=
  match tabFind e 0 with
  | none => e.isEmpty
  | some c => (List.range 4).all fun d => match tabFind e d with
    | some c' => c'.value == c.value && c'.static == c.static
    | none => false

/-- Age of a copy at a clock (R270). -/
def copyAge (clock : Nat) (c : TCopy) : Nat := if c.old then 65536 else (clock + 65536 - c.age % 65536) % 65536

/-- Age of an entry: the smallest of its copies (R270). -/
def entryAge (clock : Nat) (e : TEntry) : Nat := e.foldl (fun a c => min a (copyAge clock c.2)) 65536

/-- The image of an exact-match entry with its device word (R234). -/
def TablePlan.imageOf (p : TablePlan) (c : TCopy) (age : Nat) : Nat :=
  let dev := age + 65536 + 131072 * b2n c.static + 262144 * b2n c.pinned + 524288 * b2n c.old + 1048576 * b2n c.learned
  if p.kind = kindExact then p.bodyOf c.value + dev * 2 ^ (p.bits - 32) else c.value

/-- The newest AGE of an entry's copies: of those not marked OLD, or of all where every copy is (R259). -/
def newestAge (clock : Nat) (e : TEntry) : Nat :=
  let young := e.filter fun c => !c.2.old
  let since := (if young.isEmpty then e else young).map fun c => (clock + 65536 - c.2.age % 65536) % 65536
  (clock + 65536 - since.foldl min 65535) % 65536

/-- The image that READ and LOOKUP return: the RIM0 copy with the newest AGE (R259). -/
def TablePlan.readImage (p : TablePlan) (clock : Nat) (e : TEntry) : Nat :=
  match entryOn e 0 with
  | none => 0
  | some c => p.imageOf c (newestAge clock e)

/-- An entry holds a key on a die. -/
def TablePlan.holds (p : TablePlan) (e : TEntry) (d key : Nat) : Bool :=
  match entryOn e d with
  | some c => p.keyOf c.value == key
  | none => false

/-! ## Exact-match lookup (R236) -/

/-- The positions of the two buckets in order. -/
def bucketPositions (c : Nat × Nat) : List Nat :=
  (List.range 4).map (4 * c.1 + ·) ++ (List.range 4).map (4 * c.2 + ·)

/-- The first valid match of a key on a die: b0, b1, then the stash in index order. -/
def TablePlan.find (p : TablePlan) (v : Twin) (seeds : Nat × Nat) (d key : Nat) : Option Where :=
  match (bucketPositions (p.choices seeds key)).find? fun i => p.holds (tabGet [] v.slots i) d key with
  | some i => some { stash := false, index := i }
  | none => (v.stash.find? fun e => p.holds e.2 d key).map fun e => { stash := true, index := e.1 }

def Twin.at_ (v : Twin) (w : Where) : TEntry := tabGet [] (if w.stash then v.stash else v.slots) w.index
def Twin.put (v : Twin) (w : Where) (e : TEntry) : Twin :=
  if w.stash then { v with stash := tabPut v.stash w.index e } else { v with slots := tabPut v.slots w.index e }
def Twin.del (v : Twin) (w : Where) : Twin :=
  if w.stash then { v with stash := tabDel v.stash w.index } else { v with slots := tabDel v.slots w.index }

/-! ## Insertion (R237 to R241) -/

/-- The first free slot of a bucket. -/
def Twin.freeSlot (v : Twin) (b : Nat) : Option Nat :=
  ((List.range 4).map (4 * b + ·)).find? fun i => (tabFind v.slots i).isNone

/-- The bucket of an entry's two choices in which it does not lie (R236). -/
def TablePlan.alternate (p : TablePlan) (v : Twin) (seeds : Nat × Nat) (pos : Nat) : Nat :=
  let key := match entryOn (tabGet [] v.slots pos) 0 with
    | some c => p.keyOf c.value
    | none => 0
  let (b0, b1) := p.choices seeds key
  if pos / 4 = b0 then b1 else b0

/-- One bucket of the search: its slots in order; answers the path when an alternate bucket has a free slot, else
the queue and the buckets read so far (R237). -/
def TablePlan.searchBucket (p : TablePlan) (v : Twin) (seeds : Nat × Nat) (path : List Nat) :
    List Nat → List (Nat × List Nat) → List Nat → Option (List Nat) × List (Nat × List Nat) × List Nat
  | [], q, seen => (none, q, seen)
  | pos :: rest, q, seen =>
    let alt := p.alternate v seeds pos
    if seen.contains alt || decide (512 ≤ seen.length) then p.searchBucket v seeds path rest q seen
    else
      match v.freeSlot alt with
      | some f => (some (path ++ [pos, f]), q, seen)
      | none => p.searchBucket v seeds path rest (q ++ [(alt, path ++ [pos])]) (seen ++ [alt])

/-- The breadth-first search for a relocation path: the positions it moves through, the last of them free. At most
512 buckets are read and a path makes at most 64 moves (R237). -/
def TablePlan.search (p : TablePlan) (v : Twin) (seeds : Nat × Nat) :
    Nat → List (Nat × List Nat) → List Nat → Option (List Nat)
  | 0, _, _ => none
  | _ + 1, [], _ => none
  | fuel + 1, (b, path) :: q, seen =>
    match p.searchBucket v seeds path ((List.range 4).map (4 * b + ·)) q seen with
    | (some found, _, _) => if found.length ≤ 65 then some found else none
    | (none, q', seen') => p.search v seeds fuel q' seen'

/-- An entry as a move writes it: its stamp is the age clock at the copy (R240). -/
def movedEntry (clock : Nat) (e : TEntry) : TEntry := e.map fun c => (c.1, { c.2 with age := clock, old := false })

/-- One write of the table writer. An exact-match copy is stamped with the age clock as it is made, so that a hit on the
old place between copy and clear is lost (R240). -/
def Twin.step (v : Twin) (p : TablePlan) (clock : Nat) : TStep → Twin
  | .copy src dst => v.put dst (if p.kind = kindExact then movedEntry clock (v.at_ src) else v.at_ src)
  | .clear w => v.del w
  | .put w e => v.put w e

/-- The writes of a path, from its last move to its first (R238); the first position is then free. -/
def pathSteps (path : List Nat) : List TStep :=
  ((path.zip (path.drop 1)).reverse).flatMap fun m => [.copy ⟨false, m.1⟩ ⟨false, m.2⟩, .clear ⟨false, m.1⟩]

/-- What an insertion does: where the entry is to lie (none: FULL), its writes in order, and its moves. -/
structure Inserted where
  place : Option Where
  steps : List TStep := []
  moves : Nat := 0

/-- All the writes of an operation. -/
def Twin.stepAll (v : Twin) (p : TablePlan) (clock : Nat) (l : List TStep) : Twin :=
  l.foldl (fun v x => v.step p clock x) v

/-- The lowest free stash index (R241). -/
def Twin.freeStash (v : Twin) : Option Nat :=
  (List.range (min 1024 (v.stash.length + 1))).find? fun i => (tabFind v.stash i).isNone

/-- An entry enters a twin: b0, b1, a relocation path, the stash, or nowhere (R237, R238, R241, R242). -/
def TablePlan.insert (p : TablePlan) (v : Twin) (seeds : Nat × Nat) (key : Nat) (e : TEntry) : Inserted :=
  let (b0, b1) := p.choices seeds key
  let put := fun (w : Where) => ({ place := some w, steps := [.put w e] } : Inserted)
  match v.freeSlot b0 with
  | some i => put ⟨false, i⟩
  | none =>
    match v.freeSlot b1 with
    | some i => put ⟨false, i⟩
    | none =>
      match p.search v seeds 512 [(b0, []), (b1, [])] [b0, b1] with
      | some path =>
        let w : Where := ⟨false, (path.head?).getD 0⟩
        { place := some w, steps := pathSteps path ++ [.put w e], moves := path.length - 1 }
      | none =>
        match v.freeStash with
        | some i => put ⟨true, i⟩
        | none => { place := none }

/-- A freed bucket slot takes the lowest-index stash entry that may lie there, by copy and then clear (R241). -/
def TablePlan.refill (p : TablePlan) (v : Twin) (seeds : Nat × Nat) (pos : Nat) : List TStep :=
  let fits := fun (e : TEntry) => match entryOn e 0 with
    | some c => let (b0, b1) := p.choices seeds (p.keyOf c.value); b0 == pos / 4 || b1 == pos / 4
    | none => false
  match v.stash.find? fun e => fits e.2 with
  | none => []
  | some (i, _) => [.copy ⟨true, i⟩ ⟨false, pos⟩, .clear ⟨true, i⟩]

/-- The writes by which an entry leaves a twin. -/
def TablePlan.remove (p : TablePlan) (v : Twin) (seeds : Nat × Nat) (w : Where) : List TStep :=
  .clear w :: (if w.stash then [] else p.refill v seeds w.index)

/-- Copies among writes: the moves of an operation. -/
def stepMoves (l : List TStep) : Nat := (l.filter fun x => match x with | .copy _ _ => true | _ => false).length

/-! ## Operations under way (R228, R232) -/

/-- An operation of a command block is under way on a table. -/
def State.tableBusy (s : State) (t : Nat) : Bool := s.tb.ops.any fun o => o.table == t

/-- The next `n` writes of an operation are made. -/
def State.opSteps (s : State) (o : TableOp) (n : Nat) : State :=
  match s.tablePlan o.table with
  | none => s
  | some p =>
    let v := s.table o.table
    let s := if o.steps.isEmpty then s
      else s.putTable o.table (v.setTwin o.twin ((v.twin o.twin).stepAll p v.clock (o.steps.take n)))
    { s with tb := { s.tb with ops := s.tb.ops.map fun x => if x = o then { o with steps := o.steps.drop n } else x } }

/-- With a tick, every operation under way makes its next write (log entry 57). -/
def State.opsTick (s : State) : State := s.tb.ops.foldl (fun s o => s.opSteps o 1) s

/-! ## Counts and the rehash request (R242) -/

/-- The node pools of a longest-prefix table: fewest free nodes over the levels below the first. -/
def TablePlan.freeNodes (p : TablePlan) (v : TableSt) : Nat :=
  if p.isLpm then
    let free := (List.range p.nodes.length).map fun i =>
      (p.nodes[i]?).getD 0 - (v.nodes.filter fun n => n / 2 ^ 23 == i + 1).length
    free.foldl min ((free.head?).getD 0)
  else 0

/-- Valid entries of a twin, or prefixes. -/
def TablePlan.entries (p : TablePlan) (v : TableSt) (w : Nat) : Nat :=
  if p.isLpm then v.prefixes.length
  else if p.kind = kindTernary then
    ((v.twin w).slots.filter fun e => match entryOn e.2 0 with | some c => natBit c.value 352 | none => false).length
  else (v.twin w).slots.length + (v.twin w).stash.length

/-- Brings TABLE_COUNT of a table up to date. -/
def State.refreshTable (s : State) (t : Nat) : State :=
  match s.tablePlan t with
  | none => s
  | some p =>
    let v := s.table t
    let w := s.twinOf t 0
    let s := s.set TBL.TABLE_COUNT.ENTRIES t (p.entries v w)
    let s := s.set TBL.TABLE_COUNT.STASH_FILL t (v.twin w).stash.length
    s.set TBL.TABLE_COUNT.FREE_NODES t (p.freeNodes v)

/-- REHASH_REQ sets: its report, with the stash fill of the twin that asks for it, and its cause (R242). -/
def State.rehashReq (s : State) (t w : Nat) : State :=
  if s.flag TBL.STATUS.REHASH_REQ t then s
  else
    let s := s.set TBL.STATUS.REHASH_REQ t 1
    let fill := ((s.table t).twin w).stash.length
    let s := s.tableReport (s.get TBL.TABLE_CTRL.REPORT_RING t) { type := 0x0A, table := t, twin := w, detail := fill }
    s.raise TBL.INT_CAUSE.REHASH_REQ

/-- After an insertion into a twin: the counts, and the rehash request when the twin's stash has reached STASH_WARN or the
insertion was FULL (R242). -/
def State.afterInsert (s : State) (t w : Nat) (r : Inserted) : State :=
  let s := s.refreshTable t
  match r.place with
  | none => (s.set TBL.STATUS.FULL_SEEN t 1).rehashReq t w
  | some i =>
    if i.stash && decide (max 1 (s.get TBL.TABLE_CTRL.STASH_WARN t) ≤ ((s.table t).twin w).stash.length) then
      s.rehashReq t w
    else s

/-! ## Tries (R246 to R251) -/

/-- Strides of a longest-prefix table. -/
def TablePlan.strides (p : TablePlan) : List Nat := if p.kind = kindLpm4 then [16, 8, 8] else [16, 16, 8, 8, 8, 8]

/-- Bits of an address that the trie walks. -/
def TablePlan.trieBits (p : TablePlan) : Nat := if p.kind = kindLpm4 then 32 else 64

/-- A slot's words (R247). -/
def slotKind (v : Nat) : Nat := v / 2 ^ 62 % 4
def slotPlen (v : Nat) : Nat := v / 2 ^ 55 % 128
def slotChild (v : Nat) : Nat := v / 2 ^ 32 % 2 ^ 23
def slotResult (v : Nat) : Nat := v % 2 ^ 32
def resultSlot (plen r : Nat) : Nat := 2 ^ 62 + plen * 2 ^ 55 + r % 2 ^ 32
def childSlot (n : Nat) : Nat := 2 * 2 ^ 62 + n * 2 ^ 32

/-- The key of a slot. -/
def slotKey (level node i : Nat) : Nat := (level * 2 ^ 23 + node) * 65536 + i

/-- A slot's word on a die, EMPTY where it is not listed. -/
def Twin.slot (v : Twin) (d k : Nat) : Nat :=
  match entryOn (tabGet [] v.slots k) d with
  | some c => c.value
  | none => 0

/-- Writes a slot in every copy. -/
def Twin.setSlot (v : Twin) (k w : Nat) : Twin :=
  { v with slots := if w = 0 then tabDel v.slots k else tabPut v.slots k (sameEntry { value := w }) }

/-- `n` bits of an address of `total` bits, from `pos` bits below its top. -/
def addrBits (total a pos n : Nat) : Nat := a / 2 ^ (total - pos - n) % 2 ^ n

/-- The walk of an address (R248): the key of the slot it ends at, none where it runs out of levels. -/
def Twin.walk (v : Twin) (d total a : Nat) : List Nat → Nat → Nat → Nat → Option Nat
  | [], _, _, _ => none
  | st :: rest, level, node, pos =>
    let k := slotKey level node (addrBits total a pos st)
    let e := v.slot d k
    if slotKind e = 2 then v.walk d total a rest (level + 1) (slotChild e) (pos + st) else some k

/-- Writes a value into a slot that a prefix of length `plen` covers, and below it: every slot whose PLEN is `plen` or
less; answers the twin and the slots written. -/
def Twin.pushDown (plen w : Nat) : List Nat → Nat → Twin → Nat → Twin × Nat
  | rest, level, v, k =>
    let e := v.slot 0 k
    match rest with
    | [] => if slotPlen e ≤ plen then (v.setSlot k w, 1) else (v, 0)
    | st :: rest' =>
      if slotKind e = 2 then
        (List.range (2 ^ st)).foldl (fun (a : Twin × Nat) i =>
          let r := Twin.pushDown plen w rest' (level + 1) a.1 (slotKey (level + 1) (slotChild e) i)
          (r.1, a.2 + r.2)) (v, 0)
      else if slotPlen e ≤ plen then (v.setSlot k w, 1) else (v, 0)

/-- The lowest node of a level's pool that is not in use. -/
def TablePlan.freeNode (p : TablePlan) (v : TableSt) (level : Nat) : Option Nat :=
  (List.range (min ((p.nodes[level - 1]?).getD 0) (v.nodes.length + 1))).find? fun n =>
    !v.nodes.contains (level * 2 ^ 23 + n)

/-- What a change of a trie did. -/
structure TrieWrite where
  st : TableSt
  writes : Nat
  /-- A level's pool lacked a node. -/
  nodeFull : Bool := false

/-- LPM_ADD in the trie (R250): the nodes on the path, then the covered slots. -/
def TablePlan.trieAdd (p : TablePlan) (a len w : Nat) : List Nat → Nat → Nat → Nat → TableSt → TrieWrite
  | [], _, _, _, v => { st := v, writes := 0 }
  | st :: rest, level, node, pos, v =>
    let total := p.trieBits
    let i := addrBits total a pos st
    if len ≤ pos + st then
      let span := 2 ^ (pos + st - len)
      let base := i / span * span
      let r := (List.range span).foldl (fun (acc : Twin × Nat) j =>
        let r := Twin.pushDown len w rest level acc.1 (slotKey level node (base + j))
        (r.1, acc.2 + r.2)) (v.twin0, 0)
      { st := { v with twin0 := r.1 }, writes := r.2 }
    else
      let k := slotKey level node i
      let e := v.twin0.slot 0 k
      if slotKind e = 2 then p.trieAdd a len w rest (level + 1) (slotChild e) (pos + st) v
      else
        match p.freeNode v (level + 1) with
        | none => { st := v, writes := 0, nodeFull := true }
        | some n =>
          let size := match rest with | [] => 1 | st' :: _ => 2 ^ st'
          let t := if e = 0 then v.twin0
            else (List.range size).foldl (fun t j => t.setSlot (slotKey (level + 1) n j) e) v.twin0
          let v' := { v with twin0 := t.setSlot k (childSlot n), nodes := v.nodes ++ [(level + 1) * 2 ^ 23 + n] }
          let r := p.trieAdd a len w rest (level + 1) n (pos + st) v'
          { r with writes := r.writes + size + 1 }

/-- Replaces, in the slots under one covered slot, a result of length `len` by a value. -/
def Twin.replaceDown (len w : Nat) : List Nat → Nat → Twin → Nat → Twin × Nat
  | rest, level, v, k =>
    let e := v.slot 0 k
    match rest with
    | [] => if slotKind e == 1 && slotPlen e == len then (v.setSlot k w, 1) else (v, 0)
    | st :: rest' =>
      if slotKind e = 2 then
        (List.range (2 ^ st)).foldl (fun (a : Twin × Nat) i =>
          let r := Twin.replaceDown len w rest' (level + 1) a.1 (slotKey (level + 1) (slotChild e) i)
          (r.1, a.2 + r.2)) (v, 0)
      else if slotKind e == 1 && slotPlen e == len then (v.setSlot k w, 1) else (v, 0)

/-- The first part of LPM_DELETE: the covered slots take the cover (R251). -/
def TablePlan.trieReplace (p : TablePlan) (a len w : Nat) : List Nat → Nat → Nat → Nat → Twin → Twin × Nat
  | [], _, _, _, v => (v, 0)
  | st :: rest, level, node, pos, v =>
    let i := addrBits p.trieBits a pos st
    if len ≤ pos + st then
      let span := 2 ^ (pos + st - len)
      let base := i / span * span
      (List.range span).foldl (fun (acc : Twin × Nat) j =>
        let r := Twin.replaceDown len w rest level acc.1 (slotKey level node (base + j))
        (r.1, acc.2 + r.2)) (v, 0)
    else
      let e := v.slot 0 (slotKey level node i)
      if slotKind e = 2 then p.trieReplace a len w rest (level + 1) (slotChild e) (pos + st) v else (v, 0)

/-- Collapses one node if its slots all hold one value that is no CHILD and whose PLEN is not longer than the prefix
length at which the parent slot ends (R251). -/
def TablePlan.collapseNode (p : TablePlan) (r : TableSt × Nat) (n : Nat) : TableSt × Nat :=
  let v := r.1
  let level := n / 2 ^ 23
  let size := 2 ^ ((p.strides[level]?).getD 0)
  let ends := (p.strides.take level).sum
  let first := v.twin0.slot 0 (n * 65536)
  let uniform := (List.range size).all fun j => v.twin0.slot 0 (n * 65536 + j) == first
  if slotKind first != 2 && decide (slotPlen first ≤ ends) && uniform then
    match v.twin0.slots.find? fun e => match entryOn e.2 0 with
      | some c => slotKind c.value == 2 && e.1 / 65536 / 2 ^ 23 + 1 == level && slotChild c.value == n % 2 ^ 23
      | none => false with
    | none => r
    | some (k, _) =>
      let t := v.twin0.setSlot k first
      let t := { t with slots := t.slots.filter fun e => e.1 / 65536 != n }
      ({ v with twin0 := t, nodes := v.nodes.filter fun m => m != n }, r.2 + 1)
  else r

/-- Collapses every uniform node, the deepest level first. -/
def TablePlan.collapse (p : TablePlan) (v : TableSt) : TableSt × Nat :=
  let order := ((List.range p.strides.length).reverse).flatMap fun l => v.nodes.filter fun n => n / 2 ^ 23 == l
  order.foldl p.collapseNode (v, 0)

/-! ## Ternary (R249, R252, R253) -/

/-- A ternary image matches a key on its 160 bits. -/
def ternMatch (image key : Nat) : Bool :=
  let mask := image / 2 ^ 160 % 2 ^ 160
  natBit image 352 && (image % 2 ^ 160 &&& mask) == (key % 2 ^ 160 &&& mask)

/-- The lowest-index valid match of a ternary memory on a die. -/
def ternFind (slots : Tab TEntry) (d key : Nat) : Option (Nat × Nat) :=
  match slots.find? fun e => match entryOn e.2 d with | some c => ternMatch c.value key | none => false with
  | none => none
  | some (i, e) => (entryOn e d).map fun c => (i, c.value)

/-- The image of a prefix of more than 64 bits in the ternary region, with its length above bit 360. -/
def ternPrefix (a len r : Nat) : Nat :=
  let mask := (2 ^ len - 1) * 2 ^ (128 - len)
  (a &&& mask) + mask * 2 ^ 160 + r % 2 ^ 32 * 2 ^ 320 + 2 ^ 352 + len * 2 ^ 360

def ternResult (image : Nat) : Nat := image / 2 ^ 320 % 2 ^ 32
def ternLen (image : Nat) : Nat := image / 2 ^ 360

/-- The length of the prefix at a position of a region, none where the position is free. -/
def regionLen (t : Tab TEntry) (i : Nat) : Option Nat :=
  (tabFind t i).bind fun e => (entryOn e 0).map fun c => ternLen c.value

/-- The position of a prefix in the region. -/
def regionFind (t : Tab TEntry) (a len : Nat) : Option Nat :=
  (t.find? fun e => match entryOn e.2 0 with
    | some c => ternLen c.value == len && c.value % 2 ^ 160 == ternPrefix a len 0 % 2 ^ 160
    | none => false).map Prod.fst

/-- One move in the region: the copy and the clear. -/
def regionMove (t : Tab TEntry) (src dst : Nat) : Tab TEntry := tabDel (tabPut t dst (tabGet [] t src)) src

/-- Frees a position by moving one entry of each length, from the free one, in the order in which `l` gives the entries
to move. Answers the region, the free position and the moves. -/
def regionShift (t : Tab TEntry) (free : Nat) (l : List Nat) : Tab TEntry × Nat × Nat :=
  l.foldl (fun r i => (regionMove r.1 i r.2.1, i, r.2.2 + 1)) (t, free, 0)

/-- Of positions in order, the first of each length. -/
def firstOfLength (t : Tab TEntry) (l : List Nat) : List Nat :=
  l.foldl (fun acc i => if acc.any fun j => regionLen t j == regionLen t i then acc else acc ++ [i]) []

/-- A prefix enters the region of `size` positions, which lies in order of falling length with free positions between: at
most one entry of each length between the free space and the place moves (R252; which free position is taken, log entry
99). Answers the region, the position and the moves, none where the region is full. -/
def regionAdd (size : Nat) (t : Tab TEntry) (a len r : Nat) : Option (Tab TEntry × Nat × Nat) :=
  let e := sameEntry { value := ternPrefix a len r }
  let from_ := ((t.filter fun x => match entryOn x.2 0 with | some c => decide (len ≤ ternLen c.value) | none => false).getLast?).map
    Prod.fst
  let start := match from_ with | some i => i + 1 | none => 0
  let free := fun i => (tabFind t i).isNone
  match ((List.range (min (size - start) (t.length + 1))).map (start + ·)).find? free with
  | some f =>
    let run := (List.range (f - start)).map (start + ·)
    let moved := regionShift t f (firstOfLength t run).reverse
    some (tabPut moved.1 moved.2.1 e, moved.2.1, moved.2.2)
  | none =>
    match (((List.range start).reverse).take (t.length + 1)).find? free with
    | some f =>
      let run := ((List.range (start - f - 1)).map (f + 1 + ·)).filter fun i => match regionLen t i with
        | some n => decide (len < n)
        | none => false
      let moved := regionShift t f (firstOfLength t run.reverse).reverse
      some (tabPut moved.1 moved.2.1 e, moved.2.1, moved.2.2)
    | none => none

/-- Where the lookup of an address ends: in the ternary region, or at a slot of the trie (R248, R249). -/
inductive LpmPlace where
  | region (i image : Nat)
  | slot (key word : Nat)
deriving DecidableEq, Repr

/-- The lookup of an address in a longest-prefix table on a die; none where no prefix covers it (R248, R249). -/
def TablePlan.lpmPlace (p : TablePlan) (v : Twin) (d a : Nat) : Option LpmPlace :=
  match if p.kind = kindLpm6 then ternFind v.tern d a else none with
  | some (i, image) => some (.region i image)
  | none =>
    (v.walk d p.trieBits (if p.kind = kindLpm6 then a / 2 ^ 64 else a) p.strides 0 0 0).bind fun k =>
      if slotKind (v.slot d k) = 1 then some (.slot k (v.slot d k)) else none

/-- The result and length that an address has in a longest-prefix table on a die. -/
def TablePlan.lpmFind (p : TablePlan) (v : Twin) (d a : Nat) : Option (Nat × Nat) :=
  (p.lpmPlace v d a).map fun
    | .region _ image => (ternResult image, ternLen image)
    | .slot _ e => (slotResult e, slotPlen e)

end Sys2Proof.Machine
end

