-- ==== Sys2Proof/Machine/TableCmds.lean ====
section
/-!
DEFINITION. The command blocks of the tables (chapter 7, R256 to R262): one command per operation code.
-/

namespace Sys2Proof.Machine

/-- CMD_CTRL.STATUS (R262). -/
def stOk : Nat := 0
def stNotFound : Nat := 1
def stExists : Nat := 2
def stFull : Nat := 3
def stNodeFull : Nat := 4
def stNotReady : Nat := 5
def stRange : Nat := 6
def stTroupe : Nat := 7
def stBadOp : Nat := 8

/-- What an operation answers. -/
structure CmdResult where
  status : Nat
  place : Where := ⟨false, 0⟩
  moves : Nat := 0
  writes : Nat := 0
  /-- The image it returns, with the copy it took the flags from, the age and the prefix length. -/
  image : Option Nat := none
  copy : TCopy := { value := 0 }
  age : Nat := 0
  plen : Nat := 0
  skew : Bool := false
  /-- The writes that the operation still makes, each after the one before it (R232). -/
  steps : List TStep := []

/-- A block's entry image and its location fields (R257). -/
def State.cmdImage (s : State) (n : Nat) : Nat :=
  ((List.range 8).map fun i => s.get TBL.CMD_ENTRY.DATA (8 * n + i) * 2 ^ (64 * i)).sum
def State.cmdWord (s : State) (n i : Nat) : Nat := s.get TBL.CMD_ENTRY.DATA (8 * n + i)
def State.cmdIndex (s : State) (n : Nat) : Nat := s.get TBL.CMD_LOC.INDEX n
def State.cmdPlen (s : State) (n : Nat) : Nat := s.get TBL.CMD_LOC.PLEN n

/-- Returns an image in CMD_ENTRY. -/
def State.setCmdImage (s : State) (n image : Nat) : State :=
  (List.range 8).foldl (fun s i => s.set TBL.CMD_ENTRY.DATA (8 * n + i) (image / 2 ^ (64 * i))) s

/-- Sets the result registers of a block. -/
def State.cmdFinish (s : State) (n t : Nat) (r : CmdResult) : State :=
  let s := s.set TBL.CMD_CTRL.STATUS n r.status
  let s := s.set TBL.CMD_CTRL.MOVES n (min r.moves 64)
  let s := s.set TBL.CMD_CTRL.WRITES n (min r.writes 65535)
  let s := s.set TBL.CMD_CTRL.SKEW n (b2n r.skew)
  let s := s.set TBL.CMD_RESULT.INDEX n r.place.index
  let s := s.set TBL.CMD_RESULT.STASH n (b2n r.place.stash)
  let s := s.set TBL.CMD_RESULT.AGE n (min r.age 65535)
  let s := s.set TBL.CMD_RESULT.LEARNED n (b2n r.copy.learned)
  let s := s.set TBL.CMD_RESULT.STATIC n (b2n r.copy.static)
  let s := s.set TBL.CMD_RESULT.PINNED n (b2n r.copy.pinned)
  let s := s.set TBL.CMD_RESULT.PLEN n r.plen
  let s := match r.image with
    | some v => s.setCmdImage n v
    | none => s
  let s := if r.status = stFull then s.set TBL.STATUS.FULL_SEEN t 1 else s
  if r.status = stNodeFull then s.set TBL.STATUS.NODE_FULL_SEEN t 1 else s

/-- A failure that changes nothing. -/
def failed (status : Nat) : CmdResult := { status := status }

/-- A table can be worked on: READY and every rim die's bit (R227). -/
def State.tableReady (s : State) (t : Nat) : Bool :=
  s.flag TBL.STATUS.READY t && (List.range 4).all fun d => s.ready (rdyRim d)

/-- The status that stops an operation before it acts, in the order NOT_READY for a table that is not carved (its READY is
0, R227), TROUPE, NOT_READY, BAD_OP, RANGE for a twin that is not carved (DESIGN CHOICE, log entry 10). -/
def State.cmdCheck (s : State) (n t sel : Nat) (kinds : List Nat) : Option Nat :=
  match s.tablePlan t with
  | none => some stNotReady
  | some p =>
    let owner := s.get TBL.CMD_CTRL.TROUPE n
    if owner != 0 && owner != p.troupe then some stTroupe
    else if !s.tableReady t then some stNotReady
    else if !kinds.contains p.kind then some stBadOp
    else if sel != 0 && !p.twin then some stRange
    else none

/-! ## Reading -/

/-- The answer for an entry found at a place. -/
def State.foundEntry (s : State) (t : Nat) (p : TablePlan) (e : TEntry) (w : Where) : CmdResult :=
  let clock := (s.table t).clock
  { status := stOk, place := w, image := some (p.readImage clock e), copy := (entryOn e 0).getD { value := 0 },
    age := if p.kind = kindExact then entryAge clock e else 0, skew := !entrySame e }

/-- What a LOOKUP of a longest-prefix table returns in CMD_ENTRY: the trie slot or the region's entry that holds the result,
and the result index in CMD_ENTRY[2][31:0] (R257, R258). -/
def lpmAnswer (image result : Nat) : Nat :=
  image % 2 ^ 128 + result * 2 ^ 128 + image % 2 ^ 353 / 2 ^ 160 * 2 ^ 160

/-- The position of a trie slot: its place in the pool of its level, whose nodes follow one another (log entry 100). -/
def TablePlan.slotPosition (p : TablePlan) (k : Nat) : Nat :=
  let level := k / 65536 / 2 ^ 23
  (k / 65536 % 2 ^ 23 * 2 ^ ((p.strides[level]?).getD 0) + k % 65536) % 2 ^ 24

/-- LOOKUP: search by key or address (R236, R248, R253, R258). -/
def State.opLookup (s : State) (b t : Nat) (p : TablePlan) (w : Nat) : State × CmdResult :=
  let v := (s.table t).twin w
  let image := s.cmdImage b
  if p.kind = kindExact then
    match p.find v (s.seedsOf t w) 0 (p.keyOf image) with
    | some i => (s, s.foundEntry t p (v.at_ i) i)
    | none => (s, failed stNotFound)
  else if p.kind = kindTernary then
    match ternFind v.slots 0 image with
    | some (i, _) => (s, s.foundEntry t p (tabGet [] v.slots i) ⟨false, i⟩)
    | none => (s, failed stNotFound)
  else
    let addr := if p.kind = kindLpm4 then image % 2 ^ 32 else image % 2 ^ 128
    match p.lpmPlace v 0 addr with
    | some (.region i word) =>
      (s, { status := stOk, place := ⟨false, i⟩, image := some (lpmAnswer word (ternResult word)), plen := ternLen word,
            skew := !entrySame (tabGet [] v.tern i) })
    | some (.slot k word) =>
      (s, { status := stOk, place := ⟨false, p.slotPosition k⟩, image := some (lpmAnswer word (slotResult word)),
            plen := slotPlen word, skew := !entrySame (tabGet [] v.slots k) })
    | none => (s, failed stNotFound)

/-- READ: the image at INDEX, or at the stash index (R258, R259). -/
def State.opRead (s : State) (b t : Nat) (p : TablePlan) (w : Nat) : State × CmdResult :=
  let i := s.cmdIndex b
  let stash := s.flag TBL.CMD_LOC.STASH b
  if (if stash then p.kind != kindExact || decide (1024 ≤ i) else decide (p.positions ≤ i)) then (s, failed stRange)
  else
    let e := ((s.table t).twin w).at_ ⟨stash, i⟩
    if e.isEmpty && p.kind == kindExact then (s, { failed stNotFound with place := ⟨stash, i⟩, image := some 0 })
    else (s, s.foundEntry t p e ⟨stash, i⟩)

/-! ## Exact-match changes -/

/-- The entry that a command writes (R259). -/
def State.cmdEntry (s : State) (n t : Nat) (p : TablePlan) (pinned : Bool) : TEntry :=
  sameEntry { value := p.bodyOf (s.cmdImage n), age := (s.table t).clock, static := s.flag TBL.CMD_CTRL.STATIC n,
              pinned := pinned }

/-- A new entry of a command (R237 to R242). One that needs no other write before it is made at once; a relocation's writes
follow one another (R232). -/
def State.cmdInsert (s : State) (b t : Nat) (p : TablePlan) (w : Nat) : State × CmdResult :=
  let v := s.table t
  let r := p.insert (v.twin w) (s.seedsOf t w) (p.keyOf (s.cmdImage b)) (s.cmdEntry b t p false)
  let now := if r.steps.length = 1 then r.steps else []
  let s := s.putTable t (v.setTwin w ((v.twin w).stepAll p v.clock now))
  match r.place with
  | none => (s.afterInsert t w r, failed stFull)
  | some i =>
    (s.afterInsert t w r,
      { status := stOk, place := i, moves := r.moves, writes := r.steps.length, steps := r.steps.drop now.length })

/-- The data of a present key replaced in place. -/
def State.cmdUpdate (s : State) (b t : Nat) (p : TablePlan) (w : Nat) (i : Where) : State × CmdResult :=
  let v := s.table t
  let pinned := match entryOn ((v.twin w).at_ i) 0 with | some c => c.pinned | none => false
  let s := s.putTable t (v.setTwin w ((v.twin w).put i (s.cmdEntry b t p pinned)))
  (s, { status := stOk, place := i, writes := 1 })

/-- INSERT: a new entry; EXISTS when the key is present (R237, R258). -/
def State.opInsert (s : State) (b t : Nat) (p : TablePlan) (w : Nat) : State × CmdResult :=
  match p.find ((s.table t).twin w) (s.seedsOf t w) 0 (p.keyOf (s.cmdImage b)) with
  | some i => (s, { failed stExists with place := i })
  | none => s.cmdInsert b t p w

/-- UPDATE: the data of a present key is replaced (R258). -/
def State.opUpdate (s : State) (b t : Nat) (p : TablePlan) (w : Nat) : State × CmdResult :=
  match p.find ((s.table t).twin w) (s.seedsOf t w) 0 (p.keyOf (s.cmdImage b)) with
  | some i => s.cmdUpdate b t p w i
  | none => (s, failed stNotFound)

/-- UPSERT: UPDATE where the key is present, else INSERT (R258). -/
def State.opUpsert (s : State) (b t : Nat) (p : TablePlan) (w : Nat) : State × CmdResult :=
  match p.find ((s.table t).twin w) (s.seedsOf t w) 0 (p.keyOf (s.cmdImage b)) with
  | some i => s.cmdUpdate b t p w i
  | none => s.cmdInsert b t p w

/-- A key of a twin leaves the pins (R268). -/
def State.forgetPin (s : State) (t w key : Nat) : State :=
  { s with tb := { s.tb with pins := s.tb.pins.filter fun q => !(q.table == t && q.twin == w && q.key == key) } }

/-- DELETE: the entry of a key is cleared, and the freed slot refilled from the stash (R241, R258). -/
def State.opDelete (s : State) (b t : Nat) (p : TablePlan) (w : Nat) : State × CmdResult :=
  let v := s.table t
  let key := p.keyOf (s.cmdImage b)
  match p.find (v.twin w) (s.seedsOf t w) 0 key with
  | none => (s, failed stNotFound)
  | some i =>
    let steps := p.remove (v.twin w) (s.seedsOf t w) i
    let s := s.putTable t (v.setTwin w ((v.twin w).stepAll p v.clock (steps.take 1)))
    ((s.forgetPin t w key).refreshTable t,
      { status := stOk, place := i, moves := stepMoves steps, writes := steps.length, steps := steps.drop 1 })

/-- UNPIN: clears PINNED of a key's entry (R258, R268). -/
def State.opUnpin (s : State) (b t : Nat) (p : TablePlan) (w : Nat) : State × CmdResult :=
  let v := s.table t
  let key := p.keyOf (s.cmdImage b)
  match p.find (v.twin w) (s.seedsOf t w) 0 key with
  | none => (s, failed stNotFound)
  | some i =>
    let e := ((v.twin w).at_ i).map fun c => (c.1, { c.2 with pinned := false, age := v.clock, old := false })
    let s := (s.putTable t (v.setTwin w ((v.twin w).put i e))).forgetPin t w key
    (s, { status := stOk, place := i, writes := 1 })

/-! ## Ternary and index changes -/

/-- The image that WRITE_AT takes: 353 bits for a ternary entry, the whole width for an index entry. -/
def TablePlan.writeImage (p : TablePlan) (image : Nat) : Nat :=
  if p.kind = kindTernary then image % 2 ^ 353 else image % 2 ^ p.bits

/-- An entry written at a position; an image of zeros clears it. -/
def Twin.writeAt (v : Twin) (i image : Nat) : Twin :=
  { v with slots := if image = 0 then tabDel v.slots i else tabPut v.slots i (sameEntry { value := image }) }

/-- WRITE_AT: writes a whole entry at INDEX (R253, R255). -/
def State.opWriteAt (s : State) (b t : Nat) (p : TablePlan) (w : Nat) : State × CmdResult :=
  let i := s.cmdIndex b
  if p.positions ≤ i then (s, failed stRange)
  else
    let v := s.table t
    let s := s.putTable t (v.setTwin w ((v.twin w).writeAt i (p.writeImage (s.cmdImage b))))
    (s.refreshTable t, { status := stOk, place := ⟨false, i⟩, writes := 1 })

/-- CLEAR_AT: clears the entry at INDEX (R255). -/
def State.opClearAt (s : State) (b t : Nat) (p : TablePlan) (w : Nat) : State × CmdResult :=
  let i := s.cmdIndex b
  if p.positions ≤ i then (s, failed stRange)
  else
    let v := s.table t
    let s := s.putTable t (v.setTwin w ((v.twin w).writeAt i 0))
    (s.refreshTable t, { status := stOk, place := ⟨false, i⟩, writes := 1 })

/-- A ternary position holds a valid entry. -/
def Twin.ternValid (v : Twin) (i : Nat) : Bool :=
  match entryOn (tabGet [] v.slots i) 0 with
  | some c => natBit c.value 352
  | none => false

/-- MOVE: copies a ternary entry to TARGET and then clears its source (R254). -/
def State.opMove (s : State) (b t : Nat) (p : TablePlan) (w : Nat) : State × CmdResult :=
  let i := s.cmdIndex b
  let j := s.get TBL.CMD_LOC.TARGET b
  let v := s.table t
  if p.positions ≤ i ∨ p.positions ≤ j then (s, failed stRange)
  else if (v.twin w).ternValid j then (s, failed stExists)
  else if !(v.twin w).ternValid i then (s, failed stNotFound)
  else
    let steps := [TStep.copy ⟨false, i⟩ ⟨false, j⟩, .clear ⟨false, i⟩]
    (s.putTable t (v.setTwin w ((v.twin w).stepAll p v.clock (steps.take 1))),
      { status := stOk, place := ⟨false, j⟩, moves := 1, writes := 2, steps := steps.drop 1 })

/-! ## Longest prefixes -/

/-- The address of an LPM command and the longest length its table takes (R257). -/
def State.cmdAddr (s : State) (n : Nat) (p : TablePlan) : Nat :=
  if p.kind = kindLpm4 then s.cmdWord n 0 % 2 ^ 32 else s.cmdWord n 0 + s.cmdWord n 1 * 2 ^ 64
def TablePlan.maxLen (p : TablePlan) : Nat := if p.kind = kindLpm4 then 32 else 128

/-- The prefix of an address: its first `len` bits, the rest 0. -/
def TablePlan.prefixOf (p : TablePlan) (a len : Nat) : Nat := a / 2 ^ (p.maxLen - len) * 2 ^ (p.maxLen - len)

/-- The part of an address that the trie walks. -/
def TablePlan.trieAddr (p : TablePlan) (a : Nat) : Nat := if p.kind = kindLpm6 then a / 2 ^ 64 else a

/-- LPM_ADD: a prefix enters the trie, or the ternary region above /64 (R250, R252). -/
def State.opLpmAdd (s : State) (b t : Nat) (p : TablePlan) (_w : Nat) : State × CmdResult :=
  let len := s.cmdPlen b
  if p.maxLen < len then (s, failed stRange)
  else
    let v := s.table t
    let a := p.prefixOf (s.cmdAddr b p) len
    let r := s.cmdWord b 2 % 2 ^ 32
    let known := v.prefixes.contains (a, len)
    let prefixes := if known then v.prefixes else v.prefixes ++ [(a, len)]
    if len ≤ 64 then
      let tr := p.trieAdd (p.trieAddr a) len (resultSlot len r) p.strides 0 0 0 v
      if tr.nodeFull then (s, failed stNodeFull)
      else
        let s := (s.putTable t { tr.st with prefixes := prefixes }).refreshTable t
        (s, { status := stOk, writes := tr.writes, plen := len })
    else
      match regionFind v.twin0.tern a len with
      | some i =>
        let tw := { v.twin0 with tern := tabPut v.twin0.tern i (sameEntry { value := ternPrefix a len r }) }
        (s.putTable t { v with twin0 := tw }, { status := stOk, place := ⟨false, i⟩, writes := 1, plen := len })
      | none =>
        match regionAdd p.ternPositions v.twin0.tern a len r with
        | none => (s, failed stFull)
        | some (region, i, n) =>
          let v' := { v with twin0 := { v.twin0 with tern := region }, prefixes := prefixes }
          ((s.putTable t v').refreshTable t,
            { status := stOk, place := ⟨false, i⟩, moves := n, writes := 1 + 2 * n, plen := len })

/-- LPM_DELETE: the slots of a prefix take its cover, and uniform nodes collapse (R251, R252). -/
def State.opLpmDelete (s : State) (b t : Nat) (p : TablePlan) (_w : Nat) : State × CmdResult :=
  let len := s.cmdPlen b
  if p.maxLen < len then (s, failed stRange)
  else
    let v := s.table t
    let a := p.prefixOf (s.cmdAddr b p) len
    let w3 := s.cmdWord b 3
    let cover := if natBit w3 39 then resultSlot (w3 / 2 ^ 32 % 128) (w3 % 2 ^ 32) else 0
    if !v.prefixes.contains (a, len) then (s, failed stNotFound)
    else
      let prefixes := v.prefixes.erase (a, len)
      if len ≤ 64 then
        let (tw, n) := p.trieReplace (p.trieAddr a) len cover p.strides 0 0 0 v.twin0
        let (v', m) := p.collapse { v with twin0 := tw, prefixes := prefixes }
        ((s.putTable t v').refreshTable t, { status := stOk, writes := n + m, plen := len })
      else
        let region := match regionFind v.twin0.tern a len with
          | some i => tabDel v.twin0.tern i
          | none => v.twin0.tern
        let v' := { v with twin0 := { v.twin0 with tern := region }, prefixes := prefixes }
        ((s.putTable t v').refreshTable t, { status := stOk, writes := 1, plen := len })

/-! ## Whole tables, completion, seeds -/

/-- A table holds no entry in either twin. -/
def State.emptyTable (s : State) (t : Nat) : State :=
  let v := s.table t
  let s := (s.putTable t { v with twin0 := {}, twin1 := {}, nodes := [], prefixes := [] }).refreshTable t
  { s with tb := { s.tb with
      pins := s.tb.pins.filter fun q => q.table != t
      ops := s.tb.ops.map fun o => if o.table = t then { o with steps := [] } else o } }

/-- CLEAR_TABLE: invalidates every entry of the named twin; of a standby twin only once the table's troupe has
drained (R245, R258). -/
def State.opClearTable (s : State) (b t : Nat) (p : TablePlan) (w : Nat) : State × CmdResult :=
  if s.flag TBL.CMD_CTRL.TWIN b && s.draining p.troupe then (s, failed stNotReady)
  else
    let v := s.table t
    let v' := if p.isLpm then { v with twin0 := {}, nodes := [], prefixes := [] } else v.setTwin w {}
    let s := (s.putTable t v').refreshTable t
    let s := { s with tb := { s.tb with pins := s.tb.pins.filter fun q => !(q.table == t && q.twin == w) } }
    (s, { status := stOk, writes := p.positions * p.bits / 512 })

/-! ## The operations of a block (R228, R257 to R260) -/

/-- The kinds of table that an operation code takes (R258). -/
def opKinds : Nat → List Nat
  | 0x01 => [kindExact, kindTernary, kindLpm4, kindLpm6]
  | 0x02 => [kindExact, kindTernary, kindIndex]
  | 0x03 => [kindExact]
  | 0x04 => [kindExact]
  | 0x05 => [kindExact]
  | 0x06 => [kindExact]
  | 0x07 => [kindTernary, kindIndex]
  | 0x08 => [kindTernary, kindIndex]
  | 0x09 => [kindTernary]
  | 0x0A => [kindLpm4, kindLpm6]
  | 0x0B => [kindLpm4, kindLpm6]
  | 0x0C => [kindExact]
  | 0x0D => [kindExact, kindLpm4, kindLpm6, kindTernary, kindIndex]
  | _ => []

/-- What an operation code does on a table. -/
def State.opRun (s : State) (op b t : Nat) (p : TablePlan) (w : Nat) : State × CmdResult :=
  match op with
  | 0x01 => s.opLookup b t p w
  | 0x02 => s.opRead b t p w
  | 0x03 => s.opInsert b t p w
  | 0x04 => s.opUpdate b t p w
  | 0x05 => s.opUpsert b t p w
  | 0x06 => s.opDelete b t p w
  | 0x07 => s.opWriteAt b t p w
  | 0x08 => s.opClearAt b t p w
  | 0x09 => s.opMove b t p w
  | 0x0A => s.opLpmAdd b t p w
  | 0x0B => s.opLpmDelete b t p w
  | 0x0C => s.opUnpin b t p w
  | 0x0D => s.opClearTable b t p w
  | _ => (s, failed stBadOp)

/-- A block's operation begins on its table, with what stands in the block's registers: the checks, its effect, and the
writes that are still to come. -/
def State.opStart (s : State) (b : Nat) : State :=
  let op := s.get TBL.CMD_CTRL.OPCODE b
  let t := s.get TBL.CMD_CTRL.TABLE b
  let sel := s.get TBL.CMD_CTRL.TWIN b
  match s.cmdCheck b t sel (opKinds op), s.tablePlan t with
  | some st, _ => s.cmdFinish b t (failed st)
  | none, none => s.cmdFinish b t (failed stNotReady)
  | none, some p =>
    let w := s.twinOf t sel
    let (s, r) := s.opRun op b t p w
    let s := s.cmdFinish b t r
    { s with tb := { s.tb with ops := s.tb.ops ++ [{ block := b, table := t, twin := w, steps := r.steps }] } }

/-- GO of a block: the fields of the write of CMD_CTRL, BUSY, and the operation, which waits while another is under way on
its table unless a check already stops it (R114, R228, R257, R260). A write while BUSY is 1 is ignored. -/
def State.cmdGo (s : State) (b op : Nat) (value : Word) : State :=
  if s.flag TBL.CMD_CTRL.BUSY b then s.set TBL.CMD_CTRL.WRITE_WHILE_BUSY b 1
  else
    let t := bitsOf value 8 8
    let sel := bitsOf value 19 1
    let s := s.set TBL.CMD_CTRL.OPCODE b op
    let s := s.set TBL.CMD_CTRL.TABLE b t
    let s := s.set TBL.CMD_CTRL.STATIC b (bitsOf value 18 1)
    let s := s.set TBL.CMD_CTRL.TWIN b sel
    let s := s.set TBL.CMD_CTRL.INT b (bitsOf value 20 1)
    let s := if natBit value.toNat 28 then s.set TBL.CMD_CTRL.WRITE_WHILE_BUSY b 0 else s
    let s := s.set TBL.CMD_CTRL.BUSY b 1
    if s.tableBusy t && (s.cmdCheck b t sel (opKinds op)).isNone then
      { s with tb := { s.tb with waiting := s.tb.waiting ++ [b] } }
    else s.opStart b

/-- LOOKUP through a command block (R257, R258, R260). -/
def execLookup (block : Fin 32) (value : Word) (s : State) : Answer :=
  if !s.hostReach 0 false then .next s else .next (s.cmdGo block 0x01 value)

/-- READ through a command block (R257, R258, R260). -/
def execRead (block : Fin 32) (value : Word) (s : State) : Answer :=
  if !s.hostReach 0 false then .next s else .next (s.cmdGo block 0x02 value)

/-- INSERT through a command block (R257, R258, R260). -/
def execInsert (block : Fin 32) (value : Word) (s : State) : Answer :=
  if !s.hostReach 0 false then .next s else .next (s.cmdGo block 0x03 value)

/-- UPDATE through a command block (R257, R258, R260). -/
def execUpdate (block : Fin 32) (value : Word) (s : State) : Answer :=
  if !s.hostReach 0 false then .next s else .next (s.cmdGo block 0x04 value)

/-- UPSERT through a command block (R257, R258, R260). -/
def execUpsert (block : Fin 32) (value : Word) (s : State) : Answer :=
  if !s.hostReach 0 false then .next s else .next (s.cmdGo block 0x05 value)

/-- DELETE through a command block (R257, R258, R260). -/
def execDelete (block : Fin 32) (value : Word) (s : State) : Answer :=
  if !s.hostReach 0 false then .next s else .next (s.cmdGo block 0x06 value)

/-- WRITE_AT through a command block (R257, R258, R260). -/
def execWriteAt (block : Fin 32) (value : Word) (s : State) : Answer :=
  if !s.hostReach 0 false then .next s else .next (s.cmdGo block 0x07 value)

/-- CLEAR_AT through a command block (R257, R258, R260). -/
def execClearAt (block : Fin 32) (value : Word) (s : State) : Answer :=
  if !s.hostReach 0 false then .next s else .next (s.cmdGo block 0x08 value)

/-- MOVE through a command block (R257, R258, R260). -/
def execMove (block : Fin 32) (value : Word) (s : State) : Answer :=
  if !s.hostReach 0 false then .next s else .next (s.cmdGo block 0x09 value)

/-- LPM_ADD through a command block (R257, R258, R260). -/
def execLpmAdd (block : Fin 32) (value : Word) (s : State) : Answer :=
  if !s.hostReach 0 false then .next s else .next (s.cmdGo block 0x0A value)

/-- LPM_DELETE through a command block (R257, R258, R260). -/
def execLpmDelete (block : Fin 32) (value : Word) (s : State) : Answer :=
  if !s.hostReach 0 false then .next s else .next (s.cmdGo block 0x0B value)

/-- UNPIN through a command block (R257, R258, R260). -/
def execUnpin (block : Fin 32) (value : Word) (s : State) : Answer :=
  if !s.hostReach 0 false then .next s else .next (s.cmdGo block 0x0C value)

/-- CLEAR_TABLE through a command block (R257, R258, R260). -/
def execClearTable (block : Fin 32) (value : Word) (s : State) : Answer :=
  if !s.hostReach 0 false then .next s else .next (s.cmdGo block 0x0D value)

/-- The number of a command block within its owner's window. -/
def State.localBlock (s : State) (n : Nat) : Nat :=
  let owner := s.get TBL.CMD_CTRL.TROUPE n
  ((List.range n).filter fun k => s.get TBL.CMD_CTRL.TROUPE k == owner).length

/-- The end of a block's operation: BUSY clears, and with INT the block's bit of TBL.CMD_DONE sets (R260). -/
def State.opEnd (s : State) (b : Nat) : State :=
  let s := s.set TBL.CMD_CTRL.BUSY b 0
  if !s.flag TBL.CMD_CTRL.INT b then s
  else
    let s := s.set TBL.CMD_DONE.BLOCKS 0 (natSetBit (s.get TBL.CMD_DONE.BLOCKS 0) b true)
    let s := s.raise TBL.INT_CAUSE.CMD_DONE
    let owner := s.get TBL.CMD_CTRL.TROUPE b
    if owner = 0 then s
    else
      let s := s.set WIN.CMD_DONE.BLOCKS owner (natSetBit (s.get WIN.CMD_DONE.BLOCKS owner) (s.localBlock b) true)
      s.raiseWin WIN.INT_CAUSE.CMD_DONE owner

/-- Where a table is free, the operation that has waited longest for it begins (R228, R229). -/
def State.opNext (s : State) (t : Nat) : State :=
  if s.tableBusy t then s
  else match s.tb.waiting.find? fun b => s.get TBL.CMD_CTRL.TABLE b == t with
  | none => s
  | some b => { s with tb := { s.tb with waiting := s.tb.waiting.erase b } }.opStart b

/-- TABLE_OP_DONE: a block's operation, unless it still waits for another on its table, ends when its last write has reached
every copy (R228, R260). -/
def execTableOpDone (block : Fin 32) (s : State) : Answer :=
  let b := block.val
  if !s.flag TBL.CMD_CTRL.BUSY b || s.tb.waiting.contains b then .next s
  else
    match s.tb.ops.find? fun o => o.block == b with
    | none => .next ((s.opEnd b).opNext (s.get TBL.CMD_CTRL.TABLE b))
    | some o =>
      let s := s.opSteps o o.steps.length
      let s := { s with tb := { s.tb with ops := s.tb.ops.filter fun x => x.block != b } }
      .next (((s.refreshTable o.table).opEnd b).opNext o.table)

/-- CMD_WRITE_WHILE_BUSY: a write to a register of a busy block is ignored (R260). -/
def execCmdWriteWhileBusy (block : Fin 32) (s : State) : Answer :=
  if !s.hostReach 0 false then .next s else
  if s.flag TBL.CMD_CTRL.BUSY block then .next (s.set TBL.CMD_CTRL.WRITE_WHILE_BUSY block 1) else .next s

/-- TABLE_SEED_WRITE: taken only while the twin is the standby and holds no valid entry (R243). -/
def execTableSeedWrite (table : Fin 256) (twin : Fin 2) (value : Word) (s : State) : Answer :=
  if !s.hostReach 0 false then .next s else
  let t := table.val
  let v := (s.table t).twin twin
  match s.tablePlan t with
  | none => .next s
  | some p =>
    if p.kind == kindExact && p.twin && s.get TBL.TABLE_CTRL.ACTIVE_TWIN t != twin.val && v.slots.isEmpty &&
        v.stash.isEmpty then
      .next ((s.set TBL.TABLE_SEED.SEED0 (2 * t + twin) (bitsOf value 0 32)).set TBL.TABLE_SEED.SEED1 (2 * t + twin)
        (bitsOf value 32 32))
    else .next s

end Sys2Proof.Machine
end

