-- ==== Sys2Proof/Machine/Learn.lean ====
section
/-!
DEFINITION. The learn sequencer, aging and Promenade (chapter 7, R263 to R277).
-/

namespace Sys2Proof.Machine

def State.modTb (s : State) (f : TableBlock → TableBlock) : State := { s with tb := f s.tb }

/-! ## Learn events (R263 to R266) -/

/-- LEARN_EVENT_SEND: a Learn action sends an event unless the filter of its pipe, which only ingress pipes have, saw the
same table and key within FILTER_US (R263, R264). The filter holds 4,096 events. -/
def State.learnSend (s : State) (pipe troupe t image : Nat) : State :=
  match s.tablePlan t with
  | none => s
  | some p =>
    let key := t + 256 * p.keyOf image
    let window := s.get TBL.LEARN_CFG.FILTER_US 0 * usTicks
    let recent := (s.pipe pipe).learnFilter.filter fun e => decide (s.now < e.2 + window)
    let event : LearnEvent := { table := t, image := image, pipe := pipe, troupe := troupe, sentAt := s.now }
    let send := fun (s : State) => s.modTb fun b => { b with inFlight := b.inFlight ++ [event] }
    if 16 ≤ pipe then send s
    else if recent.any fun e => e.1 == key then s
    else send (s.modPipe pipe fun v => { v with learnFilter := ((key, s.now) :: recent).take 4096 })

/-- Brings LEARN_STATUS.QUEUE_FILL up to date. -/
def State.refreshLearn (s : State) : State := s.set TBL.LEARN_STATUS.QUEUE_FILL 0 s.tb.queue.length

/-- Of two events, the one sent earlier, and of events sent at one instant, which arrive together, the one of the lower rim
die and then of the lower pipe (R266; log entry 101). -/
def learnFirst (a b : LearnEvent) : LearnEvent :=
  let key := fun (e : LearnEvent) => (e.pipe % 16 / 4) * 32 + e.pipe
  if b.sentAt < a.sentAt || (b.sentAt == a.sentAt && decide (key b < key a)) then b else a

/-- LEARN_EVENT_ARRIVAL: the next event under way reaches the sequencer, or finds its queue full (R265, R266). -/
def execLearnEventArrival (s : State) : Answer :=
  match s.tb.inFlight with
  | [] => .next s
  | e :: rest =>
    let e := rest.foldl learnFirst e
    let s := s.modTb fun b => { b with inFlight := b.inFlight.erase e }
    if 65536 ≤ s.tb.queue.length then
      let s := s.addSat TBL.LEARN_DROPS.QUEUE_FULL 0 1
      let s := s.set TBL.LEARN_STATUS.QUEUE_FULL_SEEN 0 1
      .next (s.raise TBL.INT_CAUSE.LEARN_DROP)
    else .next (s.modTb fun b => { b with queue := b.queue ++ [e] }).refreshLearn

/-- An entry image as it stands in a report. -/
def TablePlan.reportImage (p : TablePlan) (e : TEntry) : List Byte :=
  match entryOn e 0 with
  | none => []
  | some c => leBytes (p.imageOf c c.age) (p.bits / 8)

/-- A report about an entry of a table. -/
def State.entryReport (s : State) (type t w : Nat) (p : TablePlan) (i : Where) (detail : Nat) : State :=
  let e := ((s.table t).twin w).at_ i
  s.tableReport (s.get TBL.TABLE_CTRL.REPORT_RING t)
    { type := type, stash := i.stash, twin := w, table := t, index := i.index, detail := detail, entry := p.reportImage e }

/-- Applies a change of the sequencer or the sweep to the active twin, and repeats it on the standby under its own
seeds while DUAL_WRITE is 1 (R244). -/
def State.dualWrite (s : State) (t : Nat) (p : TablePlan) (f : State → Nat → State) : State :=
  let w := s.twinOf t 0
  let s := f s w
  if s.flag TBL.TABLE_CTRL.DUAL_WRITE t && p.twin then f s (1 - w) else s

/-- Inserts a learned image into a twin (R266). -/
def State.learnInsert (s : State) (t image : Nat) (p : TablePlan) (w : Nat) : State × Inserted :=
  let v := s.table t
  let e := sameEntry { value := p.bodyOf image, age := v.clock, learned := true }
  let r := p.insert (v.twin w) (s.seedsOf t w) (p.keyOf image) e
  ((s.putTable t (v.setTwin w ((v.twin w).stepAll p v.clock r.steps))).afterInsert t w r, r)

/-- Replaces the body of a key's entry in a twin (R266, R267). -/
def State.replaceBody (s : State) (t body : Nat) (p : TablePlan) (pinned : Bool) (w : Nat) : State :=
  let v := s.table t
  match p.find (v.twin w) (s.seedsOf t w) 0 (p.keyOf body) with
  | none => s
  | some i =>
    let e := ((v.twin w).at_ i).map fun c =>
      (c.1, { c.2 with value := body, age := v.clock, old := false, learned := true, pinned := pinned })
    s.putTable t (v.setTwin w ((v.twin w).put i e))

/-- The limits of the flap rule (R267). -/
def State.flapWindow (s : State) : Nat := max 1 (s.get TBL.LEARN_CFG.FLAP_WINDOW_MS 0) * msTicks
def State.flapMoves (s : State) : Nat := max 1 (s.get TBL.LEARN_CFG.FLAP_MOVES 0)

/-- The open flap window of a key. -/
def State.flapOf (s : State) (t key : Nat) : Option Flap :=
  s.tb.flaps.find? fun f => f.table == t && f.key == key && decide (s.now < f.openedAt + s.flapWindow)

/-- A key's tracker entry replaced; a full tracker gives up the key whose window opened earliest (R267). -/
def State.putFlap (s : State) (f : Flap) : State :=
  let rest := s.tb.flaps.filter fun g => !(g.table == f.table && g.key == f.key)
  let rest := if rest.length < 16384 then rest else
    match rest with
    | [] => []
    | g :: gs => rest.erase (gs.foldl (fun a b => if b.openedAt < a.openedAt then b else a) g)
  s.modTb fun b => { b with flaps := rest ++ [f] }

/-- STATION_MOVE and FLAP_PIN: a learned key with other data (R266, R267). -/
def State.stationMove (s : State) (t image oldBody : Nat) (p : TablePlan) (i : Where) : State :=
  let key := p.keyOf image
  let flap := (s.flapOf t key).getD { table := t, key := key, openedAt := s.now, moves := 0, recorded := oldBody }
  let w := s.twinOf t 0
  if s.flag TBL.LEARN_CFG.FLAP_EN 0 && decide (s.flapMoves < flap.moves + 1) then
    let s := s.dualWrite t p fun s w => s.replaceBody t flap.recorded p true w
    let twins := if s.flag TBL.TABLE_CTRL.DUAL_WRITE t && p.twin then [w, 1 - w] else [w]
    let s := s.modTb fun b => { b with
      flaps := b.flaps.filter fun g => !(g.table == t && g.key == key)
      pins := b.pins ++ twins.map fun w => { table := t, twin := w, key := key, at_ := s.now } }
    let s := s.set TBL.LEARN_STATUS.FLAP 0 1
    let s := s.entryReport 0x03 t w p i flap.moves
    let s := s.raise TBL.INT_CAUSE.FLAP
    s.record 0x0A01 (leBytes t 1 ++ (leBytes key p.keyBytes).take 24)
  else
    let s := s.dualWrite t p fun s w => s.replaceBody t (p.bodyOf image) p false w
    let s := s.putFlap { flap with moves := flap.moves + 1 }
    let s := s.addSat TBL.LEARN_COUNT.MOVES 0 1
    s.entryReport 0x02 t w p i (flap.moves + 1)

def State.learnRefused (s : State) : State := s.addSat TBL.LEARN_DROPS.REFUSED 0 1

/-- LEARN_EVENT_PROCESS: the event at the head of the queue, once no other operation is under way on its table, has the
first outcome that applies (R228, R263, R266). -/
def execLearnEventProcess (s : State) : Answer :=
  match s.tb.queue with
  | [] => .next s
  | ev :: rest =>
    if s.tableBusy ev.table then .next s
    else
      let s := (s.modTb fun b => { b with queue := rest }).refreshLearn
      let s := s.addSat TBL.LEARN_COUNT.EVENTS 0 1
      let t := ev.table
      match s.tablePlan t with
      | none => .next s.learnRefused
      | some p =>
        if p.troupe != ev.troupe || p.kind != kindExact || !s.flag TBL.TABLE_CTRL.LEARN_EN t then .next s.learnRefused
        else
          let v := s.table t
          let w := s.twinOf t 0
          match p.find (v.twin w) (s.seedsOf t w) 0 (p.keyOf ev.image) with
          | none =>
            let (s, r) := s.learnInsert t ev.image p w
            let s := if s.flag TBL.TABLE_CTRL.DUAL_WRITE t && p.twin then (s.learnInsert t ev.image p (1 - w)).1 else s
            match r.place with
            | none => .next ((s.addSat TBL.LEARN_DROPS.TABLE_FULL 0 1).raise TBL.INT_CAUSE.LEARN_DROP)
            | some i => .next (if s.flag TBL.TABLE_CTRL.LEARN_REPORT t then s.entryReport 0x01 t w p i 0 else s)
          | some i =>
            match entryOn ((v.twin w).at_ i) 0 with
            | none => .next s
            | some c =>
              if c.static then .next s.learnRefused
              else if c.pinned then .next (s.addSat TBL.LEARN_DROPS.PINNED 0 1)
              else if c.value = p.bodyOf ev.image then .next s
              else if !s.flag TBL.TABLE_CTRL.MOVE_EN t then .next s.learnRefused
              else .next (s.stationMove t ev.image c.value p i)

/-- FLAP_WINDOW_CLOSE: a window that has ended without pinning frees its tracker entry (R267). -/
def execFlapWindowClose (table : Fin 256) (key : Nat) (s : State) : Answer :=
  .next (s.modTb fun b => { b with
    flaps := b.flaps.filter fun f =>
      !(f.table == table.val && f.key == key && decide (f.openedAt + s.flapWindow ≤ s.now)) })

/-- An entry of a twin is unpinned where its key lies. -/
def State.unpin (s : State) (t w key : Nat) (p : TablePlan) : State :=
  let s := s.forgetPin t w key
  let v := s.table t
  match p.find (v.twin w) (s.seedsOf t w) 0 key with
  | none => s
  | some i =>
    let e := ((v.twin w).at_ i).map fun c => (c.1, { c.2 with pinned := false })
    s.putTable t (v.setTwin w ((v.twin w).put i e))

/-- PIN_HOLD_EXPIRY: PIN_HOLD_S after its pinning an entry is unpinned in every twin that holds the pin, with one report,
once no other operation is under way on its table (R228, R268). -/
def execPinHoldExpiry (table : Fin 256) (key : Nat) (s : State) : Answer :=
  let t := table.val
  let hold := s.get TBL.LEARN_CFG.PIN_HOLD_S 0
  let due := s.tb.pins.filter fun q => q.table == t && q.key == key && decide (q.at_ + hold * secTicks ≤ s.now)
  match s.tablePlan t with
  | none => .next s
  | some p =>
    if hold = 0 || due.isEmpty || s.tableBusy t then .next s
    else
      let s := due.foldl (fun s q => s.unpin t q.twin key p) s
      let first := s.twinOf t 0
      let w := if due.any fun q => q.twin == first then first else 1 - first
      match p.find ((s.table t).twin w) (s.seedsOf t w) 0 key with
      | none => .next s
      | some i => .next (s.entryReport 0x0B t w p i 0)

/-! ## Aging (R269 to R272) -/

/-- AGE_STAMP_ON_HIT: a hit on a die writes the clock into that die's copy and clears OLD (R269). -/
def State.ageHit (s : State) (t w d : Nat) (i : Where) : State :=
  let v := s.table t
  let e := ((v.twin w).at_ i).map fun c => if c.1 = d then (c.1, { c.2 with age := v.clock, old := false }) else c
  s.putTable t (v.setTwin w ((v.twin w).put i e))

/-- AGE_CLOCK_TICK: a table's age clock advances every TICK_MS (R269). -/
def execAgeClockTick (table : Fin 256) (s : State) : Answer :=
  let t := table.val
  let v := s.table t
  match s.tablePlan t with
  | none => .next s
  | some p =>
    if p.kind == kindExact && decide (v.tickAt + max 1 (s.get TBL.AGE_CFG.TICK_MS t) * msTicks ≤ s.now) then
      .next (s.putTable t { v with clock := (v.clock + 1) % 65536, tickAt := s.now })
    else .next s

/-- AGED_DELETE: the sweep acts on an idle entry (R272). -/
def State.agedAct (s : State) (t w : Nat) (p : TablePlan) (i : Where) : State :=
  let action := s.get TBL.AGE_CFG.ACTION t
  if action = 1 then s.entryReport 0x04 t w p i 0
  else
    let s := if action = 2 then s.entryReport 0x05 t w p i 0 else s
    let v := s.table t
    let key := match entryOn ((v.twin w).at_ i) 0 with | some c => p.keyOf c.value | none => 0
    let drop := fun (s : State) (w : Nat) =>
      let v := s.table t
      match p.find (v.twin w) (s.seedsOf t w) 0 key with
      | none => s
      | some j => s.putTable t (v.setTwin w ((v.twin w).stepAll p v.clock (p.remove (v.twin w) (s.seedsOf t w) j)))
    let s := if w = s.twinOf t 0 then s.dualWrite t p drop else drop s w
    s.refreshTable t

/-- The sweep at one place of a table: OLD on every copy of age 32,768 or more, then the idle rule (R271, R272). -/
def State.sweepAtPlace (s : State) (t w : Nat) (p : TablePlan) (i : Where) : State :=
  let v := s.table t
  let e := (v.twin w).at_ i
  if e.isEmpty then s
  else
    let e' := e.map fun c => if 32768 ≤ copyAge v.clock c.2 then (c.1, { c.2 with old := true }) else c
    let s := s.putTable t (v.setTwin w ((v.twin w).put i e'))
    match entryOn e' 0 with
    | none => s
    | some c =>
      let idle := decide (max 1 (s.get TBL.AGE_CFG.LIMIT_TICKS t) ≤ entryAge v.clock e')
      if idle && !c.static && !c.pinned && s.get TBL.AGE_CFG.ACTION t != 0 && s.firmwareRuns then s.agedAct t w p i else s

/-- The exact-match tables. -/
def State.exactTables (s : State) : List (Nat × TablePlan) := s.image.tables.filter fun e => e.2.kind == kindExact

/-- The lowest exact-match table from a number on. -/
def State.exactFrom (s : State) (n : Nat) : Option Nat :=
  ((s.exactTables.map Prod.fst).filter fun t => decide (n ≤ t)).foldl
    (fun acc t => match acc with
      | none => some t
      | some u => some (min t u)) none

/-- The place after the sweep's, and whether the pass has ended. -/
def State.sweepNext (s : State) (p : TablePlan) : TableBlock × Bool :=
  let b := s.tb
  if b.sweepPos + 1 < p.positions + 1024 then ({ b with sweepPos := b.sweepPos + 1 }, false)
  else if p.twin && b.sweepTwin == 0 then ({ b with sweepPos := 0, sweepTwin := 1 }, false)
  else
    match s.exactFrom (b.sweepTable + 1) with
    | some t => ({ b with sweepPos := 0, sweepTwin := 0, sweepTable := t }, false)
    | none => ({ b with sweepPos := 0, sweepTwin := 0, sweepTable := (s.exactFrom 0).getD 0 }, true)

/-- AGING_SWEEP_VISIT: the sweep visits its next place: the positions of a twin, its stash, the other twin, and then
the next exact-match table (R271). It waits while another operation is under way on the table (R228). -/
def execAgingSweepVisit (s : State) : Answer :=
  let s := match s.exactTables.find? fun e => e.1 == s.tb.sweepTable with
    | some _ => s
    | none => s.modTb fun b => { b with
        sweepTable := (s.exactFrom 0).getD 0, sweepTwin := 0, sweepPos := 0, sweepAt := s.now }
  match s.exactTables.find? fun e => e.1 == s.tb.sweepTable with
  | none => .next s
  | some (t, p) =>
    if s.tableBusy t then .next s
    else
      let b := s.tb
      let i : Where := if b.sweepPos < p.positions then ⟨false, b.sweepPos⟩ else ⟨true, b.sweepPos - p.positions⟩
      let s := s.sweepAtPlace t b.sweepTwin p i
      let (b', ended) := s.sweepNext p
      let s := s.modTb fun _ => b'
      if ended then
        let s := s.addSat TBL.SWEEP_STATUS.PASSES 0 1
        let s := s.set TBL.SWEEP_STATUS.PASS_US 0 ((s.now - s.tb.sweepAt) / usTicks)
        .next (s.modTb fun b => { b with sweepAt := s.now })
      else .next s

/-! ## Promenade (R273 to R277) -/

def promForward : Nat := 1
def promCensus : Nat := 2
def promDone : Nat := 3
def promAborted : Nat := 4
def promRefused : Nat := 5

/-- The phase of the running pass, 0 for none. -/
def State.promState (s : State) : Nat := s.tb.prom.phase

/-- The pass enters a phase, which PROM_STATUS.STATE shows. -/
def State.setProm (s : State) (st : Nat) : State :=
  let s := s.set TBL.PROM_STATUS.STATE 0 st
  s.modTb fun b => { b with prom := { b.prom with phase := if st = promForward ∨ st = promCensus then st else 0 } }

def State.promTable (s : State) : Nat := s.get TBL.PROM_CTRL.TABLE 0
def State.promTwin (s : State) : Nat := s.twinOf s.promTable (s.get TBL.PROM_CTRL.TWIN 0)

/-- The fields of a write of PROM_CTRL. -/
def State.writePromCtrl (s : State) (value : Word) : State :=
  [TBL.PROM_CTRL.TABLE, TBL.PROM_CTRL.TWIN, TBL.PROM_CTRL.RING, TBL.PROM_CTRL.RECORDS].foldl
    (fun s f => s.set f 0 (bitsOf value f.lo f.width)) s

/-- A Promenade report of the present table. -/
def State.promReport (s : State) (r : Report) : State :=
  let s := s.tableReport (s.get TBL.PROM_CTRL.RING 0) { r with table := s.promTable, twin := s.promTwin }
  if r.type = 0x0C then s
  else s.raise TBL.INT_CAUSE.PROM_MISMATCH

/-- A mismatch with its report. -/
def State.promMismatch (s : State) (r : Report) : State := (s.promReport r).addSat TBL.PROM_STATUS.MISMATCHES 0 1

/-- Copies were found to differ at a position (R276). -/
def State.promSkewAt (s : State) (i : Nat) : State :=
  s.modTb fun b => { b with prom := { b.prom with skewAt := b.prom.skewAt.or (some i) } }

/-- A pass ends: one that found skew latches it, with a record of the first place (R276). -/
def State.promEnd (s : State) (st : Nat) : State :=
  let s := s.setProm st
  let s := match s.tb.prom.skewAt with
    | some i =>
      let s := s.set TBL.STATUS.SKEW_SEEN s.promTable 1
      let s := s.raise TBL.INT_CAUSE.SKEW
      s.record 0x0A02 (leBytes s.promTable 1 ++ leBytes i 3)
    | none => s
  let s := s.promReport { type := 0x0C }
  s.raise TBL.INT_CAUSE.PROM_DONE

/-- A pass runs. -/
def State.promRuns (s : State) : Bool := s.promState == promForward || s.promState == promCensus

/-- A write of PROM_CTRL with GO starts a pass, or is refused (R277). -/
def State.promGo (s : State) (value : Word) : State :=
  if s.promRuns then s.set TBL.PROM_STATUS.STATE 0 promRefused
  else
    let s := s.writePromCtrl value
    if !s.wardenUp || !s.tableReady s.promTable then s.set TBL.PROM_STATUS.STATE 0 promRefused
    else ((s.modTb fun b => { b with prom := {} }).setProm promForward).set TBL.PROM_STATUS.RECORDS_DONE 0 0

/-- A write of PROM_CTRL with ABORT ends the running pass. -/
def State.promAbort (s : State) (value : Word) : State :=
  if s.promRuns then s.promEnd promAborted else s.writePromCtrl value

/-- PROMENADE_GO: the physical function's write of PROM_CTRL with GO (R277). -/
def execPromenadeGo (value : Word) (s : State) : Answer :=
  if !s.hostReach 0 false then .next s else .next (s.promGo value)

/-- PROMENADE_ABORT: the physical function's write of PROM_CTRL with ABORT (R277). -/
def execPromenadeAbort (value : Word) (s : State) : Answer :=
  if !s.hostReach 0 false then .next s else .next (s.promAbort value)

/-- A write of PROM_CTRL by a warden (R277, R546). -/
def State.promWrite (s : State) (value : Word) : State :=
  let s := if natBit value.toNat 10 then s.promAbort value else s
  if natBit value.toNat 9 then s.promGo value
  else if natBit value.toNat 10 || s.promRuns then s else s.writePromCtrl value

/-- The device word of the census: 0 apart from STATIC (R275). -/
def TablePlan.censusImage (p : TablePlan) (body : Nat) (static : Bool) : List Byte :=
  leBytes (p.bodyOf body + 131072 * b2n static * 2 ^ (p.bits - 32)) (p.bits / 8)

/-- The device's image of an entry's copy, as a report carries it (R278). -/
def TablePlan.copyBytes (p : TablePlan) (c : TCopy) : List Byte := leBytes (p.imageOf c c.age) (p.bits / 8)

/-- One record of an exact-match table's shadow against the four copies (R274). Where no copy holds the key there is no
device image, and ENTRY is open (R278, log entry 102). -/
def State.compareExact (s : State) (t w image : Nat) (p : TablePlan) : State :=
  let v := s.table t
  let key := p.keyOf image
  let at_ := (List.range 4).map fun d => p.find (v.twin w) (s.seedsOf t w) d key
  let missing := bitsToNat (at_.map fun i => i.isNone)
  let static := natBit image (p.bits - 32 + 17)
  let copies := (List.range 4).filterMap fun d => match p.find (v.twin w) (s.seedsOf t w) d key with
    | some i => (entryOn ((v.twin w).at_ i) d).map fun c => (d, c)
    | none => none
  let differs := fun (c : TCopy) => c.value != p.bodyOf image || c.static != static
  let wrong := bitsToNat ((List.range 4).map fun d => ((tabFind copies d).map differs).getD false)
  let place := (at_.findSome? id).getD ⟨false, 0⟩
  let report := fun (s : State) (type dies : Nat) (entry : List Byte) =>
    s.promMismatch { type := type, dies := dies, index := place.index, stash := place.stash, entry := entry }
  let held := ((copies.head?).map fun c => p.copyBytes c.2).getD []
  let s := if missing = 0 then s
    else if copies.isEmpty then
      let (bytes, s) := s.freeBytes 8
      report s 0x06 missing bytes
    else report s 0x06 missing held
  let s := match copies.find? fun c => differs c.2 with
    | some c => report s 0x07 wrong (p.copyBytes c.2)
    | none => s
  let same := match copies with
    | [] => true
    | (_, c) :: rest => copies.length == 4 && rest.all fun d => d.2.value == c.value && d.2.static == c.static
  let s := if same then s else (report s 0x08 15 held).promSkewAt place.index
  s.modTb fun b => { b with prom := { b.prom with
    count := b.prom.count + 1
    sum := (b.prom.sum + crc64 (p.censusImage image static)) % 2 ^ 64 } }

/-- A position of a ternary or index table agrees with a record: VALID and, where it is valid, RESULT and MASK, and VALUE
under MASK; all of an index entry (R274). -/
def TablePlan.agrees (p : TablePlan) (have_ image : Nat) : Bool :=
  if p.kind = kindTernary then
    let mask := image / 2 ^ 160 % 2 ^ 160
    natBit have_ 352 == natBit image 352 &&
      (!natBit image 352 || ((have_ &&& mask) % 2 ^ 160 == (image &&& mask) % 2 ^ 160 &&
        have_ / 2 ^ 160 % 2 ^ 192 == image / 2 ^ 160 % 2 ^ 192))
  else have_ == image % 2 ^ p.bits

/-- One record of a ternary or index table's shadow against its position, in all four copies (R274). -/
def State.comparePosition (s : State) (t w image : Nat) (p : TablePlan) : State :=
  let i := s.get TBL.PROM_STATUS.RECORDS_DONE 0
  let e := tabGet [] ((s.table t).twin w).slots i
  let have_ := fun d => ((entryOn e d).map (·.value)).getD 0
  match (List.range 4).find? fun d => !p.agrees (have_ d) image with
  | none => s
  | some d =>
    let wrong := bitsToNat ((List.range 4).map fun d => !p.agrees (have_ d) image)
    s.promMismatch { type := 0x07, dies := wrong, index := i, entry := leBytes (have_ d) (min 64 ((p.bits + 7) / 8)) }

/-- The slots of each level of a trie: the first level's, then those of each node pool (R246). -/
def TablePlan.levelSlots (p : TablePlan) : List Nat :=
  (List.range p.strides.length).map fun l =>
    (if l = 0 then 1 else (p.nodes[l - 1]?).getD 0) * 2 ^ ((p.strides[l]?).getD 0)

/-- The places of a longest-prefix table that a pass compares: every trie slot, then the ternary region (R274). -/
def TablePlan.lpmPlaces (p : TablePlan) : Nat := p.levelSlots.sum + p.ternPositions

/-- The i-th of those places: its key among the trie's slots, or a position of the region. -/
def TablePlan.lpmPlaceAt (p : TablePlan) : List Nat → Nat → Nat → Bool × Nat
  | [], _, i => (true, i)
  | n :: rest, level, i =>
    if i < n then
      let size := 2 ^ ((p.strides[level]?).getD 0)
      (false, slotKey level (i / size) (i % size))
    else p.lpmPlaceAt rest (level + 1) (i - n)

/-- One place of a longest-prefix table: its four copies with one another (R274). -/
def State.compareCopies (s : State) (t : Nat) (p : TablePlan) : State :=
  let i := s.get TBL.PROM_STATUS.RECORDS_DONE 0
  let v := (s.table t).twin0
  let (region, k) := p.lpmPlaceAt p.levelSlots 0 i
  let e := tabGet [] (if region then v.tern else v.slots) k
  if entrySame e then s
  else
    let word := ((e.head?).map (·.2.value)).getD 0
    (s.promMismatch { type := 0x08, index := i % 2 ^ 24, entry := leBytes (word % 2 ^ 353) (if region then 45 else 8) }).promSkewAt i

/-- The records or places of the running pass. -/
def State.promLength (s : State) (p : TablePlan) : Nat :=
  if p.isLpm then p.lpmPlaces else s.get TBL.PROM_CTRL.RECORDS 0

/-- The read of the next record of the shadow, at PROM_ADDR + 64 i (R273). -/
def State.promFetch (s : State) (i : Nat) : State := s.emit (.fetch (s.get TBL.PROM_ADDR.ADDR 0 * 64 + 64 * i) 64)

/-- PROMENADE_COMPARE: the next record of the shadow, whose entry image `image` was read from host memory, or the next
place of a longest-prefix table, is compared (R274). After the last, an EXACT pass goes on to its census. A record is read only while the physical function may master the bus
(R508). -/
def execPromenadeCompare (image : Nat) (s : State) : Answer :=
  let t := s.promTable
  match s.tablePlan t with
  | none => .next s
  | some p =>
    if s.promState != promForward || !s.firmwareRuns || (!p.isLpm && !s.busMaster 0) then .next s
    else
      let i := s.get TBL.PROM_STATUS.RECORDS_DONE 0
      let s := if s.promLength p ≤ i then s
        else
          let s := if p.kind = kindExact then (s.promFetch i).compareExact t s.promTwin image p
            else if p.isLpm then s.compareCopies t p else (s.promFetch i).comparePosition t s.promTwin image p
          s.set TBL.PROM_STATUS.RECORDS_DONE 0 (i + 1)
      if s.promLength p ≤ s.get TBL.PROM_STATUS.RECORDS_DONE 0 then
        .next (if p.kind = kindExact then s.setProm promCensus else s.promEnd promDone)
      else .next s

/-- PROMENADE_CENSUS: an EXACT pass ends with the count and the sum of its entries that no learning wrote, each at the
place a lookup finds it (R275). -/
def execPromenadeCensus (s : State) : Answer :=
  let t := s.promTable
  match s.tablePlan t with
  | none => .next s
  | some p =>
    if s.promState != promCensus || !s.firmwareRuns then .next s
    else
      let w := s.promTwin
      let v := (s.table t).twin w
      let places := v.slots.map (fun e => (Where.mk false e.1, e.2)) ++ v.stash.map fun e => (Where.mk true e.1, e.2)
      let counted := places.filterMap fun q => match entryOn q.2 0 with
        | some c => if !c.learned && p.find v (s.seedsOf t w) 0 (p.keyOf c.value) == some q.1 then some c else none
        | none => none
      let sum := (counted.map fun c => crc64 (p.censusImage c.value c.static)).sum % 2 ^ 64
      let differs := counted.length != s.tb.prom.count || sum != s.tb.prom.sum
      let s := if differs then s.addSat TBL.PROM_STATUS.MISMATCHES 0 1 else s
      let s := s.promReport
        { type := 0x09, detail := ofSigned 32 ((counted.length : Int) - s.tb.prom.count),
          entry := leBytes sum 8 ++ leBytes s.tb.prom.sum 8 }
      .next (s.promEnd promDone)

end Sys2Proof.Machine
end

