-- ==== Sys2Proof/Machine/Export.lean ====
section
/-!
DEFINITION. Export (chapter 12, R437 to R441): a troupe's stream of IPFIX records and messages, its telemetry ring
(R536), and the counting of drops with their records (R301, R416, R441).
-/

namespace Sys2Proof.Machine

def State.modTel (s : State) (f : TelBlock → TelBlock) : State := { s with tel := f s.tel }

def State.stream (s : State) (n : Nat) : Stream := tabGet {} s.tel.streams n
def State.putStream (s : State) (n : Nat) (v : Stream) : State :=
  s.modTel fun t => { t with streams := tabPut t.streams n v }

/-- A dateTimeNanoseconds of a time in units of 2^-16 ns (R437). -/
def State.ieTime (s : State) (t : Int) : List Byte :=
  let ns := t / 65536
  let sec := ns / 10 ^ 9 - signedOf 16 (s.get TEL.IPFIX_CFG.UTC_ADJ_S 0) + 2208988800
  beBytes (sec % 2 ^ 32).toNat 4 ++ beBytes ((ns % 10 ^ 9).toNat * 2 ^ 32 / 10 ^ 9) 4

/-- telemetryFlags. -/
def telFlags (approx unlocked : Bool) : List Byte := [BitVec.ofNat 8 (b2n approx + 2 * b2n unlocked)]

/-- Variable-length bytes as RFC 7011 lays them down, shorter than 255. -/
def varBytes (bs : List Byte) : List Byte := BitVec.ofNat 8 bs.length :: bs

def State.pen (s : State) : Nat := s.get TEL.IPFIX_CFG.PEN 0

/-- Records were lost (R440, R441). -/
def State.exportLost (s : State) (n k : Nat) : State :=
  let s := (s.addSat TEL.EXPORT_STATUS.LOST n k).raise TEL.INT_CAUSE.EXPORT_LOST
  if n = 0 then s else s.raiseWin WIN.INT_CAUSE.EXPORT_LOST n

/-- The export engine makes one record more: none beyond 50 M per second (R441). -/
def State.recordBudget (s : State) : Bool × State :=
  let sec := s.now / secTicks
  let n := if s.tel.second = sec then s.tel.inSecond else 0
  if n < 50000000 then (true, s.modTel fun t => { t with second := sec, inSecond := n + 1 }) else (false, s)

/-- A record enters troupe n's stream (R438, R441). -/
def State.exportRecord (s : State) (n template : Nat) (bytes : List Byte) : State :=
  if !s.flag TEL.EXPORT_CFG.EN n then s
  else if template != 256 && s.pen == 0 then s.addSat TEL.EXPORT_STATUS.LOST n 1
  else
    match s.recordBudget with
    | (false, s) => s.exportLost n 1
    | (true, s) =>
      let v := s.stream n
      s.putStream n { v with
        records := v.records ++ [(template, bytes)]
        openedAt := if v.records.isEmpty then s.now else v.openedAt }

/-! ## Drops (R301, R416, R441) -/

/-- The present interval of a troupe's sampled records: INTERVAL_MS of raw time, aligned to raw 0 (R441). -/
def State.dropInterval (s : State) (n : Nat) : Nat := s.now / (max 1 (s.get TEL.DROP_CFG.INTERVAL_MS n) * msTicks)

/-- A record of a drop or a DEX record may be made under the troupe's budget of the present interval; reason 256 is the
DEX records' (R441). -/
def State.sampleBudget (s : State) (n reason : Nat) : Bool :=
  let made := if tabGet 0 s.tel.interval n = s.dropInterval n then tabGet 0 s.tel.made (512 * n + reason) else 0
  decide (made < s.get TEL.DROP_CFG.SAMPLES n)

/-- The budgets of a troupe start again where its interval is a new one (R441). -/
def State.rollInterval (s : State) (n : Nat) : State :=
  if tabGet 0 s.tel.interval n = s.dropInterval n then s
  else s.modTel fun t => { t with
    interval := tabPut t.interval n (s.dropInterval n)
    made := t.made.filter fun e => e.1 / 512 != n }

/-- One more sampled record of a reason. -/
def State.spendSample (s : State) (n reason : Nat) : State :=
  (s.rollInterval n).modTel fun t => { t with made := tabMod 0 t.made (512 * n + reason) (· + 1) }

/-- The drop record of R438. A queue that the frame does not have yet leaves queueId open. -/
def State.dropRecord (s : State) (port n reason : Nat) (queue : Option Nat) (head : List Byte) : State :=
  if s.flag TEL.DROP_CFG.DROP_EXPORT_EN n && s.sampleBudget n reason then
    let s := s.spendSample n reason
    let (open_, s) := s.draw
    let egress := match queue with | some q => queuePort q | none => 2 ^ 32 - 1
    let bytes := s.ieTime s.netStamp ++ beBytes port 4 ++ beBytes egress 4 ++ beBytes reason 1 ++
      beBytes (queue.getD open_) 4 ++ varBytes (head.take (min 64 (s.get TEL.DROP_CFG.HEAD_BYTES n))) ++
      telFlags false (!s.ready rdyTime)
    s.exportRecord n 257 bytes
  else s

/-- Counts a drop of a frame once under a reason, with its queue and its head where they are known (R301, R416). -/
def State.countDropOf (s : State) (port troupe reason : Nat) (queue : Option Nat) (head : List Byte) : State :=
  if !reasonCounted reason then s
  else (s.addWrap TEL.DROP_COUNT.COUNT (dropRow port troupe * 256 + reason) 1).dropRecord port troupe reason queue head

/-- Counts a drop of a frame of which only the port is known. -/
def State.countDrop (s : State) (port troupe reason : Nat) : State := s.countDropOf port troupe reason none []

/-- DROP_INTERVAL: an interval of a troupe's drop records has ended and its budgets start again (R441). -/
def execDropInterval (troupe : TroupeNo) (s : State) : Answer := .next (s.rollInterval troupe.val)

/-! ## Messages (R437 to R439) -/

/-- One field of a template: its element, its length, and whether it is an enterprise element. -/
def ieField (pen : Nat) (f : Nat × Nat × Bool) : List Byte :=
  if f.2.2 then beBytes (32768 + f.1) 2 ++ beBytes f.2.1 2 ++ beBytes pen 4 else beBytes f.1 2 ++ beBytes f.2.1 2

/-- The key fields of the flow template that are in use, in index order. -/
def State.keyFields (s : State) : List Nat :=
  (List.range 16).filter fun k => s.get TEL.KEY_FIELD.LEN k != 0 && (s.pen != 0 || !s.flag TEL.KEY_FIELD.ENTERPRISE k)

/-- The elements of a template (R438). Enterprise element e_i has the number i. -/
def State.templateFields (s : State) (id : Nat) : List (Nat × Nat × Bool) :=
  let all := match id with
    | 256 => (s.keyFields.map fun k =>
          (s.get TEL.KEY_FIELD.IE_ID k, s.get TEL.KEY_FIELD.LEN k, s.flag TEL.KEY_FIELD.ENTERPRISE k)) ++
        [(10, 4, false), (156, 8, false), (157, 8, false), (2, 8, false), (1, 8, false), (133, 8, false), (136, 1, false),
          (1, 8, true), (2, 4, true), (3, 1, true)]
    | 257 => [(325, 8, false), (10, 4, false), (14, 4, false), (4, 1, true), (5, 4, true), (315, 65535, false), (3, 1, true)]
    | 258 => [(325, 8, false), (10, 4, false), (14, 4, false), (6, 4, true), (7, 4, true), (8, 4, true), (9, 65535, true),
        (3, 1, true)]
    | _ => [(10, 1, true), (2, 8, false), (1, 8, false), (11, 8, true), (325, 8, false), (3, 1, true)]
  if s.pen = 0 then all.filter fun f => !f.2.2 else all

/-- The template set of a stream. -/
def State.templateSet (s : State) : List Byte :=
  let ids := if s.pen = 0 then [256] else [256, 257, 258, 259]
  let body := ids.flatMap fun id =>
    let fs := s.templateFields id
    beBytes id 2 ++ beBytes fs.length 2 ++ fs.flatMap (ieField s.pen)
  beBytes 2 2 ++ beBytes (4 + body.length) 2 ++ body

/-- The records that fit a message of `room` bytes beside its header, in order, and the rest. -/
def takeRecords : Nat → Option Nat → List (Nat × List Byte) → List (Nat × List Byte) × List (Nat × List Byte)
  | _, _, [] => ([], [])
  | room, prev, (t, b) :: rest =>
    let need := b.length + (if prev == some t then 0 else 4)
    if room < need then ([], (t, b) :: rest)
    else
      let r := takeRecords (room - need) (some t) rest
      ((t, b) :: r.1, r.2)

/-- Records of one template that follow one another share a data set. -/
def groupSets : List (Nat × List Byte) → List (Nat × List Byte)
  | [] => []
  | (t, b) :: rest =>
    match groupSets rest with
    | (t', b') :: more => if t' = t then (t, b ++ b') :: more else (t, b) :: (t', b') :: more
    | [] => [(t, b)]

/-- Data sets. -/
def dataSets (rs : List (Nat × List Byte)) : List Byte :=
  (groupSets rs).flatMap fun r => beBytes r.1 2 ++ beBytes (4 + r.2.length) 2 ++ r.2

/-- The header of a message of troupe n around its sets: version 10, length, Export Time, sequence number, domain. -/
def State.ipfix (s : State) (n : Nat) (sets : List Byte) : List Byte :=
  let sec := s.netNs / 10 ^ 9 - signedOf 16 (s.get TEL.IPFIX_CFG.UTC_ADJ_S 0)
  beBytes 10 2 ++ beBytes (16 + sets.length) 2 ++ beBytes (sec % 2 ^ 32).toNat 4 ++
    beBytes (s.get TEL.EXPORT_SEQ.SEQ n) 4 ++ beBytes (s.get TEL.EXPORT_CFG2.DOMAIN_ID n) 4 ++ sets

/-- The largest message of a troupe (R439). -/
def State.messageMax (s : State) (n : Nat) : Nat :=
  clampN 512 9216 (s.get TEL.EXPORT_CFG.MTU n) - min 64 (s.get TEL.EXPORT_CFG.HDR_LEN n) - 4

/-- Writes one unsplit entry of a telemetry ring: 8 B of header, bytes, zeros to a multiple of 64 B (R536). -/
def State.tlmEntry (s : State) (n : Nat) (pad : Bool) (size : Nat) (bytes : List Byte) : State :=
  let p := s.get HIF.TLM_IDX.PROD n
  let len := if pad then size - 8 else bytes.length
  let head := leBytes (len % 65536 + 65536 * b2n pad) 8
  let s := s.emit (.dma (s.get HIF.TLM_RING.BASE n * 4096 + p % s.ringSize .tlm n) (padTo size (head ++ bytes)))
  s.set HIF.TLM_IDX.PROD n (p + size)

/-- A message goes to telemetry ring n; answers whether it found room (R536, R440). -/
def State.tlmPut (s : State) (n : Nat) (msg : List Byte) : Bool × State :=
  let size := (8 + msg.length + 63) / 64 * 64
  let pos := s.get HIF.TLM_IDX.PROD n % s.ringSize .tlm n
  let left := s.ringSize .tlm n - pos
  let pad := if left < size then left else 0
  if s.ringOn .tlm n && decide (s.ringFill .tlm n + pad + size ≤ s.ringSize .tlm n) then
    let s := if pad = 0 then s else s.tlmEntry n true pad []
    let s := s.tlmEntry n false size msg
    (true, (s.ringWriteback .tlm n).ringCount .tlm n)
  else (false, s)

end Sys2Proof.Machine
end

