-- ==== Sys2Proof/Machine/Store.lean ====
section
/-!
DEFINITION. The cell store's shared operations: pools and banks, one cell request, the admission accounts, copies
and the release of a frame (chapters 8 and 9).
-/

namespace Sys2Proof.Machine

/-! ## Pools and banks -/

/-- Cells of pool k, 0 body and 1 tail (R306). -/
def State.poolCells (s : State) (k : Nat) : Nat :=
  let steps := s.image.bodySteps
  if k = 0 then steps * 131072 else if steps = 0 then 0 else (768 - 32 * steps) * 16384

/-- A cell address: bit [24] the pool, bits [23:0] the index (R307). -/
def cellAddr (pool idx : Nat) : Nat := pool * 2 ^ 24 + idx
def cellPool (a : Nat) : Nat := a / 2 ^ 24 % 2
def cellIdx (a : Nat) : Nat := a % 2 ^ 24

/-- An existing cell (R328). -/
def State.cellExists (s : State) (a : Nat) : Bool := decide (cellIdx a < s.poolCells (cellPool a))

/-- Admission units of a cell of a pool (R287). -/
def poolUnits (k : Nat) : Nat := if k = 0 then 4 else 1

/-- Bytes of a cell of a pool. -/
def poolBytes (k : Nat) : Nat := if k = 0 then 256 else 64

/-- Where a cell's bytes lie in the packet memory: body cells first, then tail cells. -/
def State.cellBase (s : State) (a : Nat) : Nat :=
  if cellPool a = 0 then cellIdx a * 256 else s.poolCells 0 * 256 + cellIdx a * 64

/-- A cell is in use or withdrawn. -/
def State.cellTaken (s : State) (a : Nat) : Bool := (tabFind s.sw.cells a).isSome || s.sw.withdrawn.contains a

/-- Cells of pool k that lie in allocator bank b (R303). -/
def State.bankCells (s : State) (k b : Nat) : Nat := (s.poolCells k + 255 - b) / 256

/-- Cells of a bank and pool that are in use or withdrawn. -/
def State.bankTaken (s : State) (k b : Nat) : Nat :=
  (s.sw.cells.filter fun c => cellPool c.1 == k && cellIdx c.1 % 256 == b).length +
    (s.sw.withdrawn.filter fun a => cellPool a == k && cellIdx a % 256 == b && (tabFind s.sw.cells a).isNone).length

/-- A bit of the non-empty map (R316). -/
def State.bankNonEmpty (s : State) (k b : Nat) : Bool := decide (s.bankTaken k b < s.bankCells k b)

/-- The round of grants of a bank and pool at this instant (R317): a new instant starts a new one, after the requester
granted last. -/
def State.bankRound (s : State) (k b : Nat) : BankRound :=
  let r := tabGet {} s.sw.bankRounds (2 * b + k)
  if r.at_ == s.now then r else { at_ := s.now, before := r.granted.headD r.before }

/-- The place of a requester in a bank's rotation that starts after requester `before` (R317). -/
def rotationRank (before r : Nat) : Nat := (r + 17 - before) % 18

/-- Rivals that reach a bank together with a requester, come before it in the rotation and are not granted yet
(R317). -/
def State.rivalsAhead (s : State) (requester k b : Nat) (rivals : List (Fin 18)) : Nat :=
  let r := s.bankRound k b
  (rivals.filter fun v =>
    decide (rotationRank r.before v.val < rotationRank r.before requester) && !r.granted.contains v.val).length

/-- The first bank after a requester's pointer whose non-empty bit is set (R316). A cell that a rival took at this same
instant still counts, since the request reached the bank together with it (R317, R318). -/
def State.nextBank (s : State) (requester k : Nat) (rivals : List (Fin 18)) : Option Nat :=
  let p := tabGet 255 s.sw.bankPtr (2 * requester + k)
  ((List.range 256).map fun j => (p + 1 + j) % 256).find? fun b =>
    s.bankNonEmpty k b || rivals.any fun v => (s.bankRound k b).granted.contains v.val

/-- Find-first-free: the lowest free index of a pool in a bank (R315). -/
def State.firstFree (s : State) (k b : Nat) : Option Nat :=
  ((List.range (s.bankTaken k b + 1)).map fun j => cellAddr k (b + 256 * j)).find? fun a =>
    !s.cellTaken a && s.cellExists a

/-- Free cells of a pool. -/
def State.freeCells (s : State) (k : Nat) : Nat :=
  s.poolCells k - ((s.sw.cells.filter fun c => cellPool c.1 == k).length +
    (s.sw.withdrawn.filter fun a => cellPool a == k && (tabFind s.sw.cells a).isNone).length)

/-- Brings POOL_STATUS of a pool up to date. -/
def State.refreshPool (s : State) (k : Nat) : State :=
  let f := s.freeCells k
  let s := s.set CELL.POOL_STATUS.FREE_CELLS k f
  if f < s.get CELL.POOL_STATUS.LOW_WATER k then s.set CELL.POOL_STATUS.LOW_WATER k f else s

/-- An owner tag: the troupe and the source, 0 INGRESS, 1 LEASE, 2 REFILL (R324). -/
def ownerTag (troupe source : Nat) : Nat := troupe % 64 + 64 * source

/-- The outcome of one cell request (R319). -/
inductive CellGrant where
  | cell (addr : Nat)
  | poolEmpty
  | quota
deriving DecidableEq, Repr

/-- The troupe quota passes one more cell of a pool (R319 step 2). -/
def State.quotaPasses (s : State) (troupe k : Nat) : Bool :=
  decide (s.get CELL.TROUPE_QUOTA.USE_UNITS troupe + poolUnits k ≤ s.get CELL.TROUPE_QUOTA.QUOTA_UNITS troupe)

/-- Takes a cell from a bank for a requester: the bank's pointer moves and the tag is written (R316, R324). -/
def State.takeCell (s : State) (requester k b a tag : Nat) : State :=
  let sw := { s.sw with
    bankPtr := tabPut s.sw.bankPtr (2 * requester + k) b
    bankRounds := tabPut s.sw.bankRounds (2 * b + k)
      { s.bankRound k b with granted := requester :: (s.bankRound k b).granted }
    cells := tabPut s.sw.cells a tag }
  State.refreshPool { s with sw := sw } k

/-- One request of one pool: bank, quota, grant (R316 to R319). `rivals` are the requesters whose requests reach the same
bank at the same instant: those ahead in the rotation take its free cells first, and a bank with none left answers
EMPTY (R317, R318). -/
def State.requestPool (s : State) (requester troupe k source : Nat) (exempt : Bool) (rivals : List (Fin 18)) :
    CellGrant × State :=
  match s.nextBank requester k rivals with
  | none => (.poolEmpty, s)
  | some b =>
    if !exempt && !s.quotaPasses troupe k then (.quota, s)
    else
      match s.firstFree k b with
      | none => (.poolEmpty, { s with sw := { s.sw with bankPtr := tabPut s.sw.bankPtr (2 * requester + k) b } })
      | some a =>
        if s.bankCells k b - s.bankTaken k b ≤ s.rivalsAhead requester k b rivals then
          (.poolEmpty, { s with sw := { s.sw with bankPtr := tabPut s.sw.bankPtr (2 * requester + k) b } })
        else
          let s := s.takeCell requester k b a (ownerTag troupe source)
          (.cell a, s.addWrap CELL.TROUPE_QUOTA.USE_UNITS troupe (if exempt then 0 else poolUnits k))

/-- The request of a segment of `n` bytes with the fallback of R309: a tail segment takes a body cell when the tail
pool cannot supply it, and a bank's EMPTY sends it to the body pool. -/
def State.requestSegment (s : State) (requester troupe n source : Nat) (exempt : Bool) (rivals : List (Fin 18)) :
    CellGrant × State :=
  if 64 < n then s.requestPool requester troupe 0 source exempt rivals
  else
    match s.requestPool requester troupe 1 source exempt rivals with
    | (.poolEmpty, s') =>
      match s'.requestPool requester troupe 0 source exempt [] with
      | (.cell a, s'') => (.cell a, s''.addSat CELL.COPY_STATUS.TAIL_FALLBACK 0 1)
      | r => r
    | r => r

/-- Returns a cell to the free store (R315). -/
def State.freeCell (s : State) (a : Nat) : State :=
  let sw := { s.sw with
    cells := tabDel s.sw.cells a
    oldTags := tabPut s.sw.oldTags a (tabGet 0 s.sw.cells a) }
  State.refreshPool { s with sw := sw } (cellPool a)

/-! ## The accounts of admission (R287 to R296) -/

/-- The sum of a per-queue minimum over every existing queue: profile 0 for all, corrected where Q_PROFILE holds
another (R288). -/
def queueMinSum (rf : RegFile) (im : Image) : Nat :=
  let minOf := fun k => rfFld rf QM.ADM_PROFILE_A.MIN_UNITS k
  let all := im.ports.length * 2048
  let listed := rf.filter fun c => c.1 % 1024 == Reg.QM_Q_PROFILE.ctorIdx &&
    im.ports.any fun p => p.port == queuePort (c.1 / 1024)
  let others := listed.filter fun c => bitsOf c.2 0 8 != 0
  (all - others.length) * minOf 0 + (others.map fun c => minOf (bitsOf c.2 0 8)).sum

/-- The port-priorities of the image's ports that are lossless. -/
def losslessPps (rf : RegFile) (im : Image) : List (Nat × Nat) :=
  im.ports.flatMap fun p => ((List.range 8).filter fun k => natBit (rfFld rf PORT.PFC_CFG.LOSSLESS p.port) k).map
    fun k => (p.port, k)

/-- MIN_RESERVED of a register file (R288). -/
def minReserved (rf : RegFile) (im : Image) : Nat :=
  queueMinSum rf im + ((losslessPps rf im).map fun c => rfFld rf QM.PP_ADM.MIN_UNITS (c.1 * 8 + c.2)).sum

/-- HEADROOM_RESERVED of a register file (R288). -/
def headroomReserved (rf : RegFile) (im : Image) : Nat :=
  ((losslessPps rf im).map fun c => rfFld rf QM.PP_ADM.HEADROOM_UNITS (c.1 * 8 + c.2)).sum

/-- Units of the whole store. -/
def storeUnits : Nat := 12582912
/-- The floor of SHARED_UNITS (R288). -/
def sharedFloor : Nat := 1572864

/-- SHARED_UNITS of a register file, as a signed number (R288). -/
def sharedUnitsOf (rf : RegFile) (im : Image) : Int :=
  (storeUnits : Int) - minReserved rf im - headroomReserved rf im

/-- The free space F (R288). -/
def State.freeSpace (s : State) : Nat := s.get CELL.ADM_STATUS.SHARED_UNITS 0 - s.sw.useShared

/-- Brings the reservations and F up to date. -/
def State.refreshReserved (s : State) : State :=
  let s := s.set CELL.ADM_RESERVED.MIN_RESERVED 0 (minReserved s.regs s.image)
  let s := s.set CELL.ADM_RESERVED.HEADROOM_RESERVED 0 (headroomReserved s.regs s.image)
  let s := s.set CELL.ADM_STATUS.SHARED_UNITS 0 (sharedUnitsOf s.regs s.image).toNat
  s.set CELL.ADM_STATUS.FREE_UNITS 0 s.freeSpace

/-- α as a threshold on F (R289): −8 is treated as −7, and 4 to 7 as 3. -/
def alphaThreshold (f alpha4 : Nat) : Nat :=
  let a := signedOf 4 alpha4
  if a < 0 then f >>> (min (-a).toNat 7) else f <<< (min a.toNat 3)

/-- A priority is lossless on a port, in force. -/
def State.lossless (s : State) (x p : Nat) : Bool := natBit (s.get PORT.PFC_CFG.LOSSLESS x) p

/-- The threshold of a port-priority's shared use (R292). -/
def State.ppThreshold (s : State) (x p : Nat) : Nat :=
  alphaThreshold s.freeSpace (s.get QM.PP_ADM.ALPHA_LOG2 (x * 8 + p))

/-- The pause request of R293 of a port-priority, brought up to date. -/
def State.refreshPause (s : State) (x p : Nat) : State :=
  let k := x * 8 + p
  let sh := tabGet 0 s.sw.usePpShared k
  let hd := tabGet 0 s.sw.usePpHeadroom k
  let th := s.ppThreshold x p
  let on := natBit (s.get CELL.PP_STATUS.XOFF_ADM x) p
  let on' := s.lossless x p &&
    (decide (th ≤ sh) || decide (0 < hd) || (on && !(decide (hd = 0) &&
      decide (sh + s.get QM.PP_ADM.XON_OFFSET_UNITS k ≤ th))))
  let s := s.set CELL.PP_STATUS.XOFF_ADM x (natSetBit (s.get CELL.PP_STATUS.XOFF_ADM x) p on')
  s.set CELL.PP_STATUS.IN_HEADROOM x (natSetBit (s.get CELL.PP_STATUS.IN_HEADROOM x) p (decide (0 < hd)))

/-- Every port-priority that holds shared or headroom units or asks for a pause. -/
def State.pausePps (s : State) : List Nat :=
  let asking : List Nat := s.image.ports.flatMap fun (p : PortPlan) => ((List.range 8).filter fun k =>
    natBit (s.get CELL.PP_STATUS.XOFF_ADM p.port) k).map fun k => p.port * 8 + k
  (s.sw.usePpShared.map Prod.fst ++ s.sw.usePpHeadroom.map Prod.fst ++ asking).eraseDups

/-- Brings every pause request up to date after the counts have changed (R293). -/
def State.refreshPauses (s : State) : State :=
  s.pausePps.foldl (fun s k => s.refreshPause (k / 8) (k % 8)) (s.set CELL.ADM_STATUS.FREE_UNITS 0 s.freeSpace)

/-- Adds a signed number to a use count. -/
def useAdd (t : Tab Nat) (k : Nat) (n : Int) : Tab Nat :=
  let v := ((tabGet 0 t k : Nat) + n).toNat
  if v = 0 then tabDel t k else tabPut t k v

/-- What a copy adds to its queue and port for `n` units of its frame (R296). -/
def State.chargeCopy (s : State) (d : Desc) (c : Copy) (n : Int) : State :=
  if c.ring then
    if c.inMin then { s with sw := { s.sw with useQueueMin := useAdd s.sw.useQueueMin (2 ^ 20 + c.queue) n } }
    else if !d.lossless || d.region == .shared then
      { s with sw := { s.sw with useQueueShared := useAdd s.sw.useQueueShared (2 ^ 20 + c.queue) n } }
    else s
  else if !d.lossless && c.inMin then
    { s with sw := { s.sw with useQueueMin := useAdd s.sw.useQueueMin c.queue n } }
  else if !d.lossless || d.region == .shared then
    { s with sw := { s.sw with
      useQueueShared := useAdd s.sw.useQueueShared c.queue n
      usePortShared := useAdd s.sw.usePortShared (queuePort c.queue) n } }
  else s

/-- What a frame's stored cells add to the troupe, its region and F, once for all its copies (R296). -/
def State.chargeRegion (s : State) (d : Desc) (n : Int) : State :=
  let k := d.port * 8 + d.prio
  let sw := s.sw
  let sw := if d.region == .shared then
      { sw with useShared := ((sw.useShared : Nat) + n).toNat, useTroupeShared := useAdd sw.useTroupeShared d.troupe n }
    else sw
  let sw := if d.lossless then
      match d.region with
      | .ppMin => { sw with usePpMin := useAdd sw.usePpMin k n }
      | .shared => { sw with usePpShared := useAdd sw.usePpShared k n }
      | .headroom => { sw with usePpHeadroom := useAdd sw.usePpHeadroom k n }
      | .queueMin => sw
    else sw
  { s with sw := sw }

/-- Charges one more cell of `n` units to a frame: the region, every copy of it, and its own total (R287, R296).
The troupe's USE_UNITS is counted at the grant. -/
def State.chargeCell (s : State) (k : Nat) (n : Nat) : State :=
  match s.desc k with
  | none => s
  | some d =>
    let s := s.chargeRegion d n
    let s := d.copies.foldl (fun s c => s.chargeCopy d c n) s
    (s.putDesc k { d with units := d.units + n }).refreshPauses

/-! ## Copies and the release of a frame (R320 to R323) -/

/-- Records of the descriptor pool in use: one for each frame held, and one for each spill run (R320, R368). -/
def State.descsUsed (s : State) : Nat :=
  (s.sw.descs.filter fun d => d.2.held).length +
    (s.sw.queues.map fun q => (q.2.filter fun e => match e with | .run _ => true | _ => false).length).sum

/-- Copy tokens and descriptors free, as CELL.RECORD_STATUS shows them (R320). -/
def State.refreshRecords (s : State) : State :=
  let s := s.set CELL.RECORD_STATUS.FREE_DESC 0 (4194304 - s.descsUsed)
  s.set CELL.RECORD_STATUS.FREE_TOKENS 0 (1048576 - s.sw.tokens)

/-- A copy that takes a copy token (R321): every one but a unicast copy of a frame, which is its descriptor. -/
def Copy.isToken (c : Copy) : Bool := c.kind != .unicast

/-- A refused or failed free of the device's own (R330): recorded with OFFENDER 0x40. -/
def State.freeFault (s : State) (offender kind cell tag : Nat) : State :=
  let s := s.addSat CELL.FREE_FAULT.COUNT 0 1
  let s := s.set CELL.FREE_FAULT.KIND 0 kind
  let s := s.set CELL.FREE_FAULT.OFFENDER 0 offender
  let s := s.set CELL.FREE_FAULT.OWNER_TAG 0 tag
  let s := s.set CELL.FREE_FAULT_CELL.CELL 0 cell
  let s := s.set CELL.FREE_FAULT.FAULT_SEEN 0 1
  let s := s.raise CELL.INT_CAUSE.FREE_FAULT
  let s := if 1 ≤ offender && offender < 64 then s.raiseWin WIN.INT_CAUSE.FREE_FAULT offender else s
  s.recordLimited 0 0x0B01 (0x0B0100 + offender) 16 secTicks
    (leBytes offender 1 ++ leBytes cell 4 ++ leBytes tag 1 ++ leBytes kind 1)

/-- The device's own free of one cell of a frame, with the checks of R328 and the expected tag of R330. -/
def State.ownFree (s : State) (d : Desc) (a : Nat) : State :=
  match tabFind s.sw.cells a with
  | none => s.freeFault 0x40 1 a (tabGet 0 s.sw.oldTags a)
  | some tag =>
    if tag == ownerTag d.troupe 0 || tag == ownerTag d.troupe 2 then s.freeCell a
    else s.freeFault 0x40 2 a tag

/-- Frees a frame's cells in chain order, its descriptor and its counts (R323). -/
def State.freeFrame (s : State) (k : Nat) : State :=
  match s.desc k with
  | none => s
  | some d =>
    let s := (d.cells.map (·.1)).foldl (fun s a => s.ownFree d a) s
    let s := s.chargeRegion d (-(d.units : Int))
    let s := s.set CELL.TROUPE_QUOTA.USE_UNITS d.troupe (s.get CELL.TROUPE_QUOTA.USE_UNITS d.troupe - d.units)
    let s := { s with sw := { s.sw with descs := tabDel s.sw.descs k } }
    let s := match s.packet d.packet with
      | none => s
      | some p => if p.whole && !p.flowDue then s.delPacket d.packet
                  else s.putPacket d.packet { p with place := .discard, desc := none }
    s.refreshPauses.refreshRecords

/-- A copy is done, sent, stomped, dropped, delivered or removed: its charge leaves its queue and port, its token
is freed, and the frame is freed when no copy remains (R296, R323). `counted` says that the copy stood in a
queue or was being sent, and so counts in the reference count. -/
def State.copyDone (s : State) (k : Nat) (c : Copy) (counted : Bool) : State :=
  match s.desc k with
  | none => s
  | some d =>
    let s := s.chargeCopy d c (-(d.units : Int))
    let s := if c.isToken && counted then { s with sw := { s.sw with tokens := s.sw.tokens - 1 } } else s
    let d' := { d with copies := d.copies.erase c, refs := d.refs - b2n counted, waiting := d.waiting.erase c }
    let s := (s.putDesc k d').refreshPauses.refreshRecords
    if d'.copies.isEmpty then s.freeFrame k else s

/-- The stored length of a queue's entry as R369 counts it: a copy in progress counts what is stored so far. -/
def State.descBytes (s : State) (k : Nat) : Nat :=
  match s.desc k with
  | none => 0
  | some d => if d.complete then d.len else (d.cells.map (·.2)).sum

/-- Drops a packet under a reason, counting it once at its ingress port (R301). -/
def State.dropPacket (s : State) (k reason : Nat) : State :=
  match s.packet k with
  | none => s
  | some p => if p.counted then s
    else (s.putPacket k { p with counted := true }).countDropOf p.port p.troupe reason p.md.queueId p.head

/-- The units of a list of cells. -/
def cellUnits (cs : List Nat) : Nat := (cs.map fun a => poolUnits (cellPool a)).sum

/-- Cells outside any frame that a troupe holds from the lease engine are charged to the shared region (R326). -/
def State.chargeLease (s : State) (n : Nat) (units : Int) : State :=
  State.refreshPauses { s with sw := { s.sw with
    useShared := ((s.sw.useShared : Nat) + units).toNat
    useTroupeShared := useAdd s.sw.useTroupeShared n units } }

/-- The cells of an injected frame that nothing will use go back to the free store (R326). -/
def State.freeInjected (s : State) (v : Packet) : State :=
  let s := s.chargeLease v.troupe (-(cellUnits v.cells : Int))
  let s := s.set CELL.TROUPE_QUOTA.USE_UNITS v.troupe (s.get CELL.TROUPE_QUOTA.USE_UNITS v.troupe - cellUnits v.cells)
  v.cells.foldl (fun s a => s.freeCell a) s

end Sys2Proof.Machine
end

