-- ==== Sys2Proof/Machine/Windows.lean ====
section
/-!
DEFINITION. Transmission windows (chapter 11, R394 to R409): the timeline of a port's gates, and the commands that
change a schedule. Instants are network time in units of 2^-53 ns.
-/

namespace Sys2Proof.Machine

/-- One nanosecond of network time. -/
def nsUnit : Int := 2 ^ 53

/-- The entries of a bank as start, end and gate mask within the cycle, cut or extended to the cycle (R395). -/
def State.bankSegments (s : State) (x b : Nat) : List (Nat × Nat × Nat) :=
  let cycle := s.get QM.WIN_BANK.CYCLE_NS (2 * x + b)
  let n := s.get QM.WIN_BANK.ENTRIES (2 * x + b)
  let rec go : List Nat → Nat → List (Nat × Nat × Nat)
    | [], _ => []
    | e :: es, at_ =>
      let i := (2 * x + b) * 128 + e
      let stop := if es.isEmpty then cycle else min cycle (at_ + s.get QM.WIN_GCL.INTERVAL_NS i)
      if cycle ≤ at_ then [] else (at_, stop, s.get QM.WIN_GCL.GATES i) :: go es stop
  go (List.range n) 0

/-- The gate mask of a bank at an instant and the next boundary after it, for cycles that start at `start`. -/
def State.bankAt (s : State) (x b : Nat) (start t : Int) : Nat × Int :=
  let cycle : Int := (s.get QM.WIN_BANK.CYCLE_NS (2 * x + b) : Nat) * nsUnit
  let phase := (t - start) % cycle
  match (s.bankSegments x b).find? fun g => decide (phase < (g.2.1 : Int) * nsUnit) with
  | none => (0, t + (cycle - phase))
  | some g => (g.2.2, t + ((g.2.1 : Int) * nsUnit - phase))

/-- The fallback holds all windowed gates of a port: 1 closed, 2 open, none when gating runs (R408). -/
def State.fallback (s : State) (x : Nat) : Option Bool :=
  if (s.port x).winActive.isSome && !s.ready rdyTime then
    match s.get QM.WIN_CTRL.FALLBACK x with
    | 1 => some false
    | 2 => some true
    | _ => none
  else none

/-- The gates of a port at an instant and the next instant at which they may change (R395, R396, R406). -/
def State.gatesAt (s : State) (x : Nat) (t : Int) : Nat × Int :=
  let far := t + 10 ^ 12 * nsUnit
  match s.fallback x with
  | some true => (65535, far)
  | some false => (0, far)
  | none =>
    let p := s.port x
    match p.winPending with
    | none =>
      match p.winActive with
      | none => (0, far)
      | some (b, start) => s.bankAt x b start t
    | some (b', ts) =>
      if ts ≤ t then s.bankAt x b' ts t
      else match p.winActive with
        | none => (0, ts)
        | some (b, start) => ((s.bankAt x b start t).1, min ts (s.bankAt x b start t).2)

/-- The gate of a class group is open without a break from an instant to another (R398). -/
def State.openOver (s : State) (x g : Nat) (t e : Int) : Nat → Bool
  | 0 => false
  | fuel + 1 =>
    let (mask, next) := s.gatesAt x t
    if !natBit mask g then false else if e ≤ next then true else s.openOver x g next e fuel

/-- Boundaries that can lie in an interval: intervals are at least 64 ns (R404), and a cycle may cut one. -/
def gateFuel (d : Int) : Nat := ((2 * d) / (64 * nsUnit)).toNat + 4

/-- The wire time of a frame on a port (R397), rounded up. -/
def State.wireTime (s : State) (x len : Nat) : Int :=
  let r := rateMbps (s.rateCode x)
  if r = 0 then 0 else (((max len 64 + 20) * 8 * 1000 * 2 ^ 53 + (r - 1)) / r : Nat)

/-- The predicted start of a frame picked now on a port (R397). -/
def State.predictedStart (s : State) (x : Nat) : Int :=
  let t := s.netTime + (s.get QM.WIN_CTRL.LEAD_NS x : Nat) * nsUnit
  max t ((s.port x).ePrev.getD t)

/-- A class group is windowed in force (R57, R396). -/
def State.windowed (s : State) (c : Nat) : Bool := s.get QM.CG_CFG.FWD_MODE c == 2

/-- GROW_BYTES, at most 64. -/
def State.growBytes (s : State) (x : Nat) : Nat := min (s.get QM.WIN_CTRL.GROW_BYTES x) 64

/-- The window of a windowed class group allows a head frame of bound len_s (R398). -/
def State.windowAllows (s : State) (x g len : Nat) : Bool :=
  let t := s.predictedStart x
  let d := s.wireTime x len + (s.get QM.WIN_CTRL.GUARD_NS x : Nat) * nsUnit
  s.openOver x g t (t + d) (gateFuel d)

/-- An opening of a windowed class group of the port lies in [t, e) (R400). -/
def State.opensIn (s : State) (x : Nat) (t e : Int) : Nat → Bool
  | 0 => false
  | fuel + 1 =>
    let win := bitsToNat ((List.range 16).map fun g => s.windowed (16 * x + g))
    let before := (s.gatesAt x (t - 1)).1
    let (now, next) := s.gatesAt x t
    if rises (before &&& win) (now &&& win) then true
    else if e ≤ next then false else s.opensIn x next e fuel

/-- PROTECT lets a frame of a class group that is not windowed be picked (R400). -/
def State.protectAllows (s : State) (x len : Nat) : Bool :=
  if s.flag QM.WIN_CTRL.PROTECT x then
    let t := s.predictedStart x
    let d := s.wireTime x len
    !s.opensIn x t (t + d) (gateFuel d)
  else true

/-- The longest unbroken open time of a class group in a bank in ns (R401): none when it is always open. -/
def State.maxOpen (s : State) (x b g : Nat) : Option Nat :=
  let segs := s.bankSegments x b
  if segs.all fun e => natBit e.2.2 g then none
  else
    let step := fun (acc : Nat × Nat) (e : Nat × Nat × Nat) =>
      let run := if natBit e.2.2 g then acc.1 + (e.2.1 - e.1) else 0
      (run, max acc.2 run)
    some ((segs ++ segs).foldl step (0, 0)).2

/-- The head frame of a windowed class group is longer than any window it will have (R401). -/
def State.oversize (s : State) (x g len : Nat) : Bool :=
  let need := s.wireTime x len + (s.get QM.WIN_CTRL.GUARD_NS x : Nat) * nsUnit
  let banks := (match (s.port x).winActive with | some (b, _) => [b] | none => []) ++
    (match (s.port x).winPending with | some (b, _) => [b] | none => [])
  let tooLong := fun b => match s.maxOpen x b g with
    | none => false
    | some w => decide (0 < w) && decide ((w : Int) * nsUnit < need)
  let never := fun b => s.maxOpen x b g == some 0
  if s.fallback x == some true || (s.port x).winActive.isNone then false
  else banks.all (fun b => tooLong b || never b) && banks.any tooLong

/-- Brings the window status of a port up to date. -/
def State.refreshWin (s : State) (x : Nat) : State :=
  let p := s.port x
  let s := s.set QM.WIN_STATUS.ACTIVE_VALID x (b2n p.winActive.isSome)
  let s := s.set QM.WIN_STATUS.ACTIVE_BANK x ((p.winActive.map Prod.fst).getD 0)
  let s := s.set QM.WIN_STATUS.PENDING x (b2n p.winPending.isSome)
  s.set QM.WIN_STATUS.UNSYNCED x (b2n (p.winActive.isSome && !s.ready rdyTime))

/-- A bank may be switched to (R404). -/
def State.bankValid (s : State) (x b : Nat) : Bool :=
  let i := 2 * x + b
  let n := s.get QM.WIN_BANK.ENTRIES i
  decide (1 ≤ n) && decide (n ≤ 128) && decide (512 ≤ s.get QM.WIN_BANK.CYCLE_NS i) &&
    ((List.range n).all fun e => decide (64 ≤ s.get QM.WIN_GCL.INTERVAL_NS (i * 128 + e))) &&
    decide (s.get QM.WIN_BASE_NS.NS i ≤ 999999999)

/-- The switch instant of a GO at network time t_g (R405). -/
def State.switchInstant (s : State) (x b : Nat) : Int :=
  let i := 2 * x + b
  let base : Int := ((s.get QM.WIN_BASE_SEC.SEC i * 10 ^ 9 + s.get QM.WIN_BASE_NS.NS i : Nat) : Int) * nsUnit
  let cycle : Int := (s.get QM.WIN_BANK.CYCLE_NS i : Nat) * nsUnit
  let least := s.netTime + 1000 * nsUnit
  if least ≤ base then base else base + ((least - base + cycle - 1) / cycle) * cycle

/-- A bank is active or pending, and so closed to writes (R403). -/
def State.bankBusy (s : State) (x b : Nat) : Bool :=
  (s.port x).winActive.map Prod.fst == some b || (s.port x).winPending.map Prod.fst == some b

/-- The pending switch of a port takes place when its instant has come (R405, R407). -/
def State.bankSwitch (s : State) (x : Nat) : State :=
  match (s.port x).winPending with
  | none => s
  | some (b, ts) =>
    if ts ≤ s.netTime then
      let s := s.modPort x fun p => { p with winActive := some (b, ts), winPending := none }
      (s.set QM.WIN_STATUS.SWITCH_SEEN x 1).refreshWin x
    else s

/-- The gates of a port as they now stand (R395). -/
def State.gateChange (s : State) (x : Nat) : State :=
  (s.modPort x fun p => { p with gates := (s.gatesAt x s.netTime).1 }).refreshWin x

/-- A write to a register of a gate-list bank: ignored while the bank is active or pending (R403). -/
def State.winWrite (s : State) (x b : Nat) (r : Reg) (i v : Nat) : State :=
  if s.bankBusy x b then s.set QM.WIN_STATUS.WRITE_REFUSED x 1
  else (r.fields.foldl (fun s f => s.set f i (bitsOf (BitVec.ofNat 64 v) f.lo f.width)) s)

/-- WIN_GO: a write of QM.WIN_CTRL with GO = 1 (R404, R405). -/
def State.winGo (s : State) (x v : Nat) : State :=
  let w : Word := BitVec.ofNat 64 v
  let s := QM.WIN_CTRL.NEXT_BANK :: QM.WIN_CTRL.PROTECT :: QM.WIN_CTRL.FALLBACK :: QM.WIN_CTRL.GROW_BYTES ::
    QM.WIN_CTRL.LEAD_NS :: [QM.WIN_CTRL.GUARD_NS] |>.foldl (fun s f => s.set f x (bitsOf w f.lo f.width)) s
  if !natBit v 0 then s
  else
    let b := s.get QM.WIN_CTRL.NEXT_BANK x
    if !s.bankValid x b then s.set QM.WIN_STATUS.BAD_BANK x 1
    else if (s.port x).winActive.map Prod.fst == some b then
      (s.modPort x fun p => { p with winPending := none }).refreshWin x
    else
      let ts := s.switchInstant x b
      (s.modPort x fun p => { p with winPending := some (b, ts) }).refreshWin x

end Sys2Proof.Machine
end

