-- ==== Sys2Proof/Machine/Queues.lean ====
section
/-!
DEFINITION. The queue manager's shared operations (chapter 10): shapers and their wheels, eligibility, weighted fair
queueing, the enqueue of a copy, and the states of a port's queues.
-/

namespace Sys2Proof.Machine

/-! ## Shapers (R345 to R352) -/

/-- The register fields of a shaper: rate, burst, enable, adjustment, and the state fields tokens, blocking, frozen
and wheel, with the instance. Keys below 1,024 are ports, below 16,384 class groups at 1,024, then queue shapers. -/
structure ShaperRegs where
  rate : Fld
  burst : Fld
  en : Fld
  adj : Fld
  tokens : Fld
  blocking : Fld
  frozen : Fld
  wheel : Fld
  idx : Nat
deriving DecidableEq, Repr

/-- The registers of a shaper by its key. -/
def shaperRegs (k : Nat) : ShaperRegs :=
  if k < 1024 then
    { rate := QM.PORT_SHAPER.RATE_KBPS, burst := QM.PORT_SHAPER.BURST_BYTES, en := QM.PORT_SHAPER.EN,
      adj := QM.PORT_SHAPER.ADJ_BYTES, tokens := QM.PORT_SHAPER_STATE.TOKENS,
      blocking := QM.PORT_SHAPER_STATE.BLOCKING, frozen := QM.PORT_SHAPER_STATE.FROZEN,
      wheel := QM.PORT_SHAPER_STATE.WHEEL, idx := k }
  else if k < 16384 then
    { rate := QM.CG_SHAPER.RATE_KBPS, burst := QM.CG_SHAPER.BURST_BYTES, en := QM.CG_SHAPER.EN,
      adj := QM.CG_SHAPER.ADJ_BYTES, tokens := QM.CG_SHAPER_STATE.TOKENS,
      blocking := QM.CG_SHAPER_STATE.BLOCKING, frozen := QM.CG_SHAPER_STATE.FROZEN,
      wheel := QM.CG_SHAPER_STATE.WHEEL, idx := k - 1024 }
  else
    { rate := QM.QSHAPER.RATE_KBPS, burst := QM.QSHAPER.BURST_BYTES, en := QM.QSHAPER.EN,
      adj := QM.QSHAPER.ADJ_BYTES, tokens := QM.QSHAPER_STATE.TOKENS,
      blocking := QM.QSHAPER_STATE.BLOCKING, frozen := QM.QSHAPER_STATE.FROZEN,
      wheel := QM.QSHAPER_STATE.WHEEL, idx := k - 16384 }

def portShaper (x : Nat) : Nat := x
def cgShaper (c : Nat) : Nat := 1024 + c
def queueShaper (i : Nat) : Nat := 16384 + i

/-- The queue shaper bound to a queue (R345). -/
def State.boundShaper (s : State) (q : Nat) : Option Nat :=
  (s.image.qshaperQueue.find? fun b => b.2 == q).map Prod.fst

/-- Units of 0.5 µbit in a byte. -/
def byteTok : Nat := 16000000

/-- The largest rate (R285). -/
def maxRate : Nat := 3200000000

/-- A shaper's registered rate and burst, within their limits. -/
def State.shaperRate (s : State) (k : Nat) : Nat := min (s.get (shaperRegs k).rate (shaperRegs k).idx) maxRate
def State.shaperBurst (s : State) (k : Nat) : Nat := max 64 (s.get (shaperRegs k).burst (shaperRegs k).idx)
def State.shaperOn (s : State) (k : Nat) : Bool := s.flag (shaperRegs k).en (shaperRegs k).idx

/-- A shaper, as it was enabled if it has not been charged yet. -/
def State.shaper (s : State) (k : Nat) : Shaper :=
  (tabFind s.sw.shapers k).getD
    { bucket := { tok := 0, last := s.now }, rate := s.shaperRate k, burst := s.shaperBurst k }

/-- A shaper blocks while its tokens are below 0 or its rate is 0 (R347); one with EN = 0 never blocks (R345). -/
def State.shaperBlocks (s : State) (k : Nat) : Bool :=
  s.shaperOn k && (decide ((s.shaper k).bucket.tok < 0) || (s.shaper k).rate == 0)

/-- The number of a wheel in the state register. -/
def Wheel.code : Wheel → Nat
  | .none => 0 | .fine => 1 | .coarse => 2 | .overflow => 3

/-- Stores a shaper and what its state register shows of it. -/
def State.putShaper (s : State) (k : Nat) (v : Shaper) : State :=
  let r := shaperRegs k
  let s := { s with sw := { s.sw with shapers := tabPut s.sw.shapers k v } }
  let s := s.set r.tokens r.idx (ofSigned 32 (v.bucket.tok / byteTok))
  let s := s.set r.blocking r.idx (b2n (s.shaperBlocks k))
  let s := s.set r.frozen r.idx (b2n (v.rate == 0 && s.shaperOn k))
  let s := s.set r.wheel r.idx v.wheel.code
  s.set QM.CAL_STATUS.OVERFLOW 0 (s.sw.shapers.filter fun e => e.2.wheel == .overflow).length

/-- Slots of the wheels in ticks, and the slots of a wheel (R351). -/
def fineSlot : Nat := 16
def coarseSlot : Nat := 2048
def wheelSlots : Nat := 4096

/-- The first slot boundary at or after an instant. -/
def slotAt (slot t : Nat) : Nat := (t + slot - 1) / slot * slot

/-- A shaper entered on its wheel for its next eligible time (R351). -/
def wheelEntry (k now te : Nat) (v : Shaper) : Shaper :=
  if k < 16384 && decide (te ≤ now + fineSlot * wheelSlots) then
    { v with te := te, wheel := .fine, fireAt := slotAt fineSlot te }
  else if te ≤ now + coarseSlot * wheelSlots then { v with te := te, wheel := .coarse, fireAt := slotAt coarseSlot te }
  else { v with te := te, wheel := .overflow, fireAt := te }

/-- The refill of R346 at the rate in force: the count and the time. -/
def refillTok (rate burst : Nat) (b : Bucket) (t : Nat) : Bucket :=
  { tok := if rate = 0 then b.tok else min ((burst * byteTok : Nat) : Int) (b.tok + (rate * (t - b.last) : Nat)),
    last := t }

/-- A refill of a shaper now (R346, R348 to R350): tokens at the old rate, the credit due, then the new pair, and its
place on the wheels. -/
def State.refill (s : State) (k : Nat) : State :=
  let v := s.shaper k
  let b := refillTok v.rate v.burst v.bucket s.now
  let rate := s.shaperRate k
  let burst := s.shaperBurst k
  let tok := if v.credit = 0 then b.tok else max b.tok (min ((burst * byteTok : Nat) : Int) (b.tok + (v.credit : Nat)))
  let v := { v with bucket := { tok := tok, last := s.now }, rate := rate, burst := burst, credit := 0,
                    wheel := .none, fireAt := 0 }
  s.putShaper k <|
    if rate = 0 then v
    else if tok < 0 then wheelEntry k s.now (s.now + ((-tok + (rate - 1)) / rate).toNat) v
    else v

/-- A pair of a shaper took effect: its refill is due at the next slot of its wheel (R349). -/
def State.pairRefill (s : State) (k : Nat) : State :=
  if s.shaperOn k then
    let v := s.shaper k
    let slot := if k < 16384 then fineSlot else coarseSlot
    s.putShaper k { v with wheel := if k < 16384 then .fine else .coarse, fireAt := slotAt slot (s.now + 1) }
  else s

/-- A shaper's EN was written: on, it starts with no tokens; off, it keeps none and leaves its wheel (R345). -/
def State.shaperEnable (s : State) (k : Nat) (was : Bool) : State :=
  if s.shaperOn k == was then s
  else if was then { s with sw := { s.sw with shapers := tabDel s.sw.shapers k } }
  else s.putShaper k
    { bucket := { tok := 0, last := s.now }, rate := s.shaperRate k, burst := s.shaperBurst k }

/-- The shapers of a queue's frames: queue, class group and port. -/
def State.shapersOf (s : State) (q : Nat) : List Nat :=
  (match s.boundShaper q with | some i => [queueShaper i] | none => []) ++
    [cgShaper (queueCg q), portShaper (queuePort q)]

/-- SHAPER_CHARGE: a charge of `bytes` to one enabled shaper after a refill (R347). -/
def State.chargeShaper (s : State) (bytes k : Nat) : State :=
  if s.shaperOn k then
    let s := s.refill k
    let v := s.shaper k
    let adj := signedOf 7 (s.get (shaperRegs k).adj (shaperRegs k).idx)
    let tok := v.bucket.tok - ((bytes : Int) + adj) * byteTok
    let v := { v with bucket := { v.bucket with tok := tok }, wheel := .none, fireAt := 0 }
    s.putShaper k <|
      if tok < 0 && v.rate != 0 then wheelEntry k s.now (s.now + ((-tok + (v.rate - 1)) / v.rate).toNat) v else v
  else s

/-- The shapers of a quadrant (R351): port, class-group and queue shapers of the ports of rim die d. -/
def State.shaperQuadrant (s : State) (k : Nat) : Nat :=
  if k < 1024 then k / 128
  else if k < 16384 then (k - 1024) / 16 / 128
  else queuePort (tabGet 0 s.image.qshaperQueue (k - 16384)) / 128

/-! ## Queues and eligibility (R338) -/

/-- MAX_FRAME of a port, within its limits (R145). -/
def State.maxFrame (s : State) (x : Nat) : Nat := clampN 1518 16352 (s.get PORT.CFG.MAX_FRAME x)

/-- The stored length of a copy at the head of a queue, the egress MAX_FRAME for one enqueued in progress. -/
def State.entryLen (s : State) (q : Nat) : QEntry → Nat
  | .copy d _ inProgress _ => if inProgress then s.maxFrame (queuePort q) else ((s.desc d).map (·.len)).getD 0
  | .run fs => match fs with
    | [] => 0
    | f :: _ => ((tabFind s.sw.spilled f).map (·.len)).getD 0

/-- The charge length L of a queue's head frame (R340). -/
def State.chargeLen (s : State) (q : Nat) : Nat :=
  match s.queue q with
  | [] => 0
  | e :: _ => s.entryLen q e + 20

/-- A queue is eligible (R338), its windows and PROTECT included (R398, R400). -/
def State.queueEligible (s : State) (q : Nat) : Bool :=
  if s.image.hbm.captureQueues.contains q then false
  else match s.queue q with
  | .copy d c inProgress stale :: _ =>
    let x := queuePort q
    let len := s.entryLen q (.copy d c inProgress stale) + (if inProgress then 0 else s.growBytes x)
    (match s.boundShaper q with | some i => !s.shaperBlocks (queueShaper i) | none => true) &&
      (if s.windowed (queueCg q) then s.windowAllows x (queueGroup q) len else s.protectAllows x len)
  | _ => false

/-- The queues of a class group that hold something, lowest first. -/
def State.cgQueues (s : State) (c : Nat) : List Nat :=
  (s.sw.queues.map Prod.fst).filter fun q => decide (q < 2 ^ 20) && queueCg q == c

/-- A class group's priority is paused by the partner (R154, R338). A pause that runs when RX_EN is written 0 is honoured until
its timer ends; the spec does not say what becomes of it (DESIGN CHOICE, log entry 87). -/
def State.cgPaused (s : State) (c : Nat) : Bool :=
  let p := s.get QM.CG_CFG.PRIO c
  natBit (s.get PORT.PFC_STATUS.RX_PAUSED (c / 16)) p &&
    decide (tabGet 0 (s.port (c / 16)).pauseFrom p ≤ s.now)

/-- A class group is eligible (R338). -/
def State.cgEligible (s : State) (c : Nat) : Bool :=
  !s.cgPaused c && !s.shaperBlocks (cgShaper c) && (s.cgQueues c).any fun q => s.queueEligible q

/-- A queue's head frame and the window test of R398 on it: none while its first entry is not a frame on the die. -/
def State.headFits (s : State) (q : Nat) : Option Bool :=
  match s.queue q with
  | .copy d c inProgress stale :: _ =>
    let x := queuePort q
    some (s.windowAllows x (queueGroup q)
      (s.entryLen q (.copy d c inProgress stale) + (if inProgress then 0 else s.growBytes x)))
  | _ => none

/-- A windowed class group is held by its window: it has queue heads and none of them fits (R398). -/
def State.windowHeld (s : State) (c : Nat) : Bool :=
  let heads := (s.cgQueues c).filterMap fun q => s.headFits q
  s.windowed c && !heads.isEmpty && heads.all fun b => !b

/-- What a port's class groups show (R338, R398). -/
def State.refreshCgs (s : State) (x : Nat) : State :=
  let s := (List.range 16).foldl (fun s g =>
    let c := 16 * x + g
    let s := s.set QM.CG_STATUS.ELIGIBLE c (b2n (s.cgEligible c))
    let s := s.set QM.CG_STATUS.WINDOW_HELD c (b2n (s.windowHeld c))
    s.set QM.CG_STATUS.PAUSED c (b2n (s.cgPaused c))) s
  s.set QM.PORT_STATUS.CG_PAUSED x (bitsToNat ((List.range 16).map fun g => s.cgPaused (16 * x + g)))

/-! ## Weighted fair queueing (R340 to R343) -/

/-- a is later than b modulo 2^48 (R341). -/
def wfqLater (a b : Nat) : Bool :=
  let d := (a + (2 ^ 48 - b % 2 ^ 48)) % 2 ^ 48
  decide (1 ≤ d) && decide (d ≤ 2 ^ 47 - 1)

/-- The later of two times. -/
def wfqMax (a b : Nat) : Nat := if wfqLater b a then b else a

/-- The cost of a charge length at a weight (R340). -/
def wfqCost (l w : Nat) : Nat := l * 65536 / (if w = 0 then 1 else w)

/-- The WFQ weights in force. -/
def State.queueWeight (s : State) (q : Nat) : Nat :=
  s.get (if q % 2 = 0 then QM.Q_WEIGHT.WEIGHT_EVEN else QM.Q_WEIGHT.WEIGHT_ODD) (q / 2)

def vPort (x tier : Nat) : Nat := 4 * x + tier
def vCg (c : Nat) : Nat := 4096 + c
def kidCg (c : Nat) : Nat := c
def kidQueue (q : Nat) : Nat := 16384 + q

def State.vt (s : State) (k : Nat) : Nat := tabGet 0 s.sw.vtime k
def State.kid (s : State) (k : Nat) : Child := tabGet {} s.sw.children k
def State.setVt (s : State) (k v : Nat) : State := { s with sw := { s.sw with vtime := tabPut s.sw.vtime k (v % 2 ^ 48) } }
def State.setKid (s : State) (k : Nat) (c : Child) : State :=
  { s with sw := { s.sw with children := tabPut s.sw.children k c } }

/-- The head finish time of a child for a cost (R340): from the later of V and F_last, which counts as V once it is
discarded (R342). -/
def headFinish (v cost : Nat) (c : Child) : Nat := (wfqMax v (c.fLast.getD v) + cost) % 2 ^ 48

/-- A child's head finish time brought up to date at a look of its node: computed where it has none (R340), and
recomputed from V when it has become eligible again with one not later than V (R343). -/
def childLook (v cost : Nat) (eligible : Bool) (c : Child) : Child :=
  match c.f with
  | none => { c with f := some (headFinish v cost c), passed := false, wasEligible := eligible }
  | some f =>
    if eligible && !c.wasEligible && (c.passed || !wfqLater f v) then
      { c with f := some ((v + cost) % 2 ^ 48), passed := false, wasEligible := true }
    else { c with wasEligible := eligible }

/-- A child when its node's V takes a new value: an F_last that V has passed is discarded (R342), and an f that V has
reached is marked so (R343). -/
def childPassed (v : Nat) (c : Child) : Child :=
  { c with
    fLast := c.fLast.filter fun f => wfqLater f v
    passed := c.passed || c.f.any fun f => !wfqLater f v }

/-- The child with the smallest finish time, the first of equals (R340, R341). -/
def smallestF : List (Nat × Nat) → Option (Nat × Nat)
  | [] => none
  | (k, f) :: t =>
    match smallestF t with
    | none => some (k, f)
    | some (k', f') => if wfqLater f f' then some (k', f') else some (k, f)

/-- The look of a class group's node at its queues. -/
def State.lookQueues (s : State) (c : Nat) : State :=
  (s.cgQueues c).foldl (fun s q =>
    s.setKid (kidQueue q) (childLook (s.vt (vCg c)) (wfqCost (s.chargeLen q) (s.queueWeight q)) (s.queueEligible q)
      (s.kid (kidQueue q)))) s

/-- The queue that a class group's queue level would pick now, with its finish time. -/
def State.pickQueue (s : State) (c : Nat) : Option (Nat × Nat) :=
  let s := s.lookQueues c
  smallestF ((s.cgQueues c).filterMap fun q =>
    if s.queueEligible q then ((s.kid (kidQueue q)).f).map fun f => (q, f) else none)

/-- The tier of a class group, from the image (R336). -/
def State.cgTier (s : State) (c : Nat) : Nat := s.get QM.CG_CFG.TIER c

/-- A class group's f computed now for the frame its queue level would pick (R340): none while no queue of it is
eligible. -/
def State.computeCgF (s : State) (c : Nat) : State :=
  match s.pickQueue c with
  | none => s.setKid (kidCg c) { s.kid (kidCg c) with f := none }
  | some (q, _) =>
    let kid := s.kid (kidCg c)
    let v := s.vt (vPort (c / 16) (s.cgTier c))
    let cost := wfqCost (s.chargeLen q) (s.get QM.CG_CFG.WEIGHT c)
    s.setKid (kidCg c) { kid with f := some (headFinish v cost kid), passed := false, wasEligible := s.cgEligible c }

/-- The look of a port's node at its class groups. -/
def State.lookCgs (s : State) (x : Nat) : State :=
  (List.range 16).foldl (fun s g =>
    let c := 16 * x + g
    match s.pickQueue c with
    | none => s.setKid (kidCg c) { s.kid (kidCg c) with wasEligible := false }
    | some (q, _) =>
      s.setKid (kidCg c) (childLook (s.vt (vPort x (s.cgTier c)))
        (wfqCost (s.chargeLen q) (s.get QM.CG_CFG.WEIGHT c)) (s.cgEligible c) (s.kid (kidCg c)))) s

/-- The class group that the lowest tier with an eligible one picks (R339). -/
def State.pickCg (s : State) (x : Nat) : Option (Nat × Nat) :=
  let elig := ((List.range 16).map (16 * x + ·)).filter fun c => s.cgEligible c
  match (List.range 4).find? fun t => elig.any fun c => s.cgTier c == t with
  | none => none
  | some t => smallestF ((elig.filter fun c => s.cgTier c == t).filterMap fun c => ((s.kid (kidCg c)).f).map fun f => (c, f))

/-! ## The enqueue of a copy -/

/-- Counts the drop of one copy of a stored frame, at the frame's ingress port (R301). -/
def State.countCopyDrop (s : State) (d : Desc) (q reason : Nat) : State :=
  s.countDropOf d.port d.troupe reason (some q) (((s.packet d.packet).map (·.head)).getD [])

/-- The bytes of a queue as R369 counts them, on the die and spilled. -/
def State.queueDepth (s : State) (q : Nat) : Nat × Nat :=
  (s.queue q).foldl (fun a e => match e with
    | .copy d _ _ _ => (a.1 + s.descBytes d, a.2)
    | .run fs => (a.1, a.2 + (fs.map fun f => ((tabFind s.sw.spilled f).map (·.len)).getD 0).sum)) (0, 0)

/-- The bin of a histogram for a shifted value (R412). -/
def histBin (v : Nat) : Nat :=
  if v < 16 then v
  else
    let e := Nat.log2 v
    min 63 (16 + 4 * (e - 4) + (v >>> (e - 2)) % 4)

/-- Adds one to a bin of the histogram of kind 0 latency or 1 depth of a port's class group (R412). -/
def State.histAdd (s : State) (c kind v : Nat) : State :=
  s.modTel fun t => { t with hist := tabMod 0 t.hist ((c * 2 + kind) * 64 + histBin v) fun n => (n + 1) % 2 ^ 64 }

/-- The stacks that hold a spill region in the memory mode in force (R443). -/
def State.spillStacks (s : State) : List Nat :=
  match s.image.memMode with
  | 1 => [0, 1]
  | 3 => [0]
  | _ => []

/-- The spill profile of a queue: EN, START_KIB and REFILL_KIB, the last at most START_KIB (R455, R459). -/
def State.spillProfile (s : State) (q : Nat) : Bool × Nat × Nat :=
  let k := s.get QM.Q_PROFILE.PROFILE q
  let start := s.get HBM.SPILL_PROFILE.START_KIB k
  (s.flag HBM.SPILL_PROFILE.EN k, start, min start (s.get HBM.SPILL_PROFILE.REFILL_KIB k))

/-- A frame is marked for spill at its enqueue (R455). `depth` is what its queue held on the die before it. -/
def State.markSpill (s : State) (k : Nat) (c : Copy) (inProgress : Bool) (depth : Nat) : State :=
  match s.desc k with
  | none => s
  | some d =>
    let (en, start, _) := s.spillProfile c.queue
    if !c.ring && c.kind == .unicast && d.refs == 1 && !inProgress && en &&
        (s.spillStacks.any fun h => s.ready (rdyHbm h)) && decide (start * 1024 ≤ depth) then
      let s := s.putDesc k { d with marked := true }
      { s with hbm := { s.hbm with marked := s.hbm.marked ++ [k] } }
    else s

/-- A copy enters its queue: the reference count, its token, the depth histogram (R413), the mark for spill, and the
class group's f when it was empty. -/
def State.enqueueCopy (s : State) (k : Nat) (c : Copy) (inProgress : Bool) : State :=
  match s.desc k with
  | none => s
  | some d =>
    let q := if c.ring then 2 ^ 20 + c.queue else c.queue
    let depth := s.queueDepth q
    let c' := { c with enqAt := s.now, depth := depth.1 + depth.2 }
    let s := s.putDesc k { d with
      refs := d.refs + 1, held := true, waiting := d.waiting.erase c, copies := d.copies.erase c ++ [c'] }
    let s := if c.isToken then { s with sw := { s.sw with tokens := s.sw.tokens + 1 } } else s
    let empty := (s.cgQueues (queueCg q)).isEmpty
    let stale := ((s.packet d.packet).map (·.stale)).getD false
    let s := (s.setQueue q (s.queue q ++ [.copy k c' inProgress stale])).refreshRecords
    let s := match c.kind with
      | .multicast => s.addSat MC.STATS.COPIES 0 1
      | .mirror m => s.addSat PIPE.MIRROR_STATS.COPIES m 1
      | .unicast => s
    let s := if inProgress then s.addSat CELL.CT_COUNT.CT_COPIES 0 1 else s
    let s := s.spend 8 4 (some d.troupe) none none 1
    let s := s.markSpill k c' inProgress depth.1
    if c.ring then s
    else
      let s := s.histAdd (queueCg q) 1 ((depth.1 + depth.2) >>> s.get TEL.HIST_CFG.DEPTH_SHIFT 0)
      if empty then s.computeCgF (queueCg q) else s

/-- A copy refused at enqueue: counted under its reason at the frame's port, and it leaves the frame (R296, R322). -/
def State.refuseCopy (s : State) (k : Nat) (c : Copy) (reason : Option Nat) : State :=
  match s.desc k with
  | none => s
  | some d =>
    let s := match reason with | some r => s.countCopyDrop d c.queue r | none => s
    s.copyDone k c false

/-- A copy at its moment of enqueue: the reference count's limit, the descriptor pool and the token pool (R320 to
R322). -/
def State.tryEnqueue (s : State) (k : Nat) (c : Copy) (inProgress : Bool) : State :=
  match s.desc k with
  | none => s
  | some d =>
    if !d.held && decide (4194304 ≤ s.descsUsed) then
      let s := (s.addSat CELL.EXHAUST.DESC_EMPTY 0 1).raise CELL.INT_CAUSE.DESC_EMPTY
      let s := s.dropPacket d.packet dropDesc
      d.copies.foldl (fun s c => s.copyDone k c false) s
    else if 1023 ≤ d.refs then
      match c.kind with
      | .mirror m => (s.addSat PIPE.MIRROR_STATS.REFUSED m 1).refuseCopy k c none
      | _ => (s.addSat CELL.COPY_STATUS.COPY_LIMIT 0 1).refuseCopy k c (some dropCopyLimit)
    else if c.isToken && decide (1048576 ≤ s.sw.tokens) then
      ((s.addSat CELL.EXHAUST.TOKEN_EMPTY 0 1).raise CELL.INT_CAUSE.TOKEN_EMPTY).refuseCopy k c (some dropToken)
    else s.enqueueCopy k c inProgress

/-! ## The states of a port's queues (R355 to R360) -/

/-- QM.PORT_STATUS.STATE. -/
def qmActive : Nat := 0
def qmHeld : Nat := 1
def qmFlushing : Nat := 2
def qmDown : Nat := 3

def State.qmState (s : State) (x : Nat) : Nat := s.get QM.PORT_STATUS.STATE x

/-- An entry is removed by a flush: each copy counts once under HOLD_FLUSH and its reference falls (R359, R370). -/
def State.flushEntry (s : State) (x q : Nat) : QEntry → State
  | .copy k c _ _ =>
    let s := match s.desc k with
      | some d => s.countCopyDrop d q dropHold
      | none => s
    (s.addSat QM.PORT_FLUSHED.COPIES x 1).copyDone k c true
  | .run fs => fs.foldl (fun s f =>
      match tabFind s.sw.spilled f with
      | none => s
      | some v =>
        let s := (s.countDropOf v.packet.port v.packet.troupe dropHold (some q) v.packet.head).addSat QM.PORT_FLUSHED.COPIES x 1
        { s with sw := { s.sw with spilled := tabDel s.sw.spilled f } }) s

/-- The flights of a port that the MAC has not started are removed as a flush removes entries (R356). -/
def State.flushFlights (s : State) (x : Nat) : State :=
  let mine := s.sw.flights.filter fun f => f.2.port == x && !f.2.started
  let s := mine.foldl (fun s f =>
    let s := match s.desc f.2.desc with
      | some d => s.countCopyDrop d f.2.queue dropHold
      | none => s
    (s.addSat QM.PORT_FLUSHED.COPIES x 1).copyDone f.2.desc f.2.copy true) s
  let gone := mine.map Prod.fst
  let s := { s with sw := { s.sw with flights := s.sw.flights.filter fun f => !gone.contains f.1 } }
  let s := s.modPort x fun p => { p with
    efifo := p.efifo.filter fun k => !gone.contains k
    flight := p.flight - (mine.map fun f => f.2.charge).sum }
  s.modPipe (16 + portPipe x) fun p => { p with
    forming := p.forming.filter fun k => !gone.contains k
    waves := p.waves.map fun w => { w with heads := w.heads.filter fun k => !gone.contains k } }

/-- The queues of a port that hold something. -/
def State.portQueues (s : State) (x : Nat) : List Nat :=
  (s.sw.queues.map Prod.fst).filter fun q => decide (q < 2 ^ 20) && queuePort q == x

/-- The flush of R359: every entry of every queue of the port is removed, with one record. -/
def State.startFlush (s : State) (x : Nat) : State :=
  let s := s.set QM.PORT_STATUS.STATE x qmFlushing
  let s := s.set QM.PORT_STATUS.FLUSH_SEEN x 1
  let s := s.set QM.PORT_STATUS.HOLD_LEFT_US x 0
  let s := s.modPort x fun p => { p with holdEnd := none }
  let es := (s.portQueues x).flatMap fun q => (s.queue q).map fun e => (q, e)
  let copies := (es.map fun e => match e.2 with | .copy _ _ _ _ => 1 | .run fs => fs.length).sum
  let s := (s.portQueues x).foldl (fun s q => s.setQueue q []) s
  let s := es.foldl (fun s e => s.flushEntry x e.1 e.2) s
  let s := s.record 0x0C01 (leBytes x 2 ++ leBytes copies 4)
  s.raise QM.INT_CAUSE.FLUSH

/-- PORT_HOLD_START: a port that tells the queue manager it is down is held, or flushed at once (R356). -/
def State.holdStart (s : State) (x : Nat) : State :=
  if s.qmState x == qmActive then
    let us := s.get QM.PORT_HOLD.HOLD_US x
    let s := s.flushFlights x
    if us = 0 then s.startFlush x
    else
      let s := s.set QM.PORT_STATUS.STATE x qmHeld
      let s := s.set QM.PORT_STATUS.HOLD_LEFT_US x us
      let s := s.set QM.PORT_STATUS.HOLD_SEEN x 1
      let s := s.modPort x fun p => { p with holdEnd := some (s.now + us * usTicks) }
      s.raise QM.INT_CAUSE.HOLD
  else s

/-- The debt of a shaper is forgiven: a refill, then no tokens in place of a debt (R358). -/
def State.forgive (s : State) (k : Nat) : State :=
  if s.shaperOn k && decide ((s.shaper k).bucket.tok < 0) then
    let s := s.refill k
    let v := s.shaper k
    if v.bucket.tok < 0 then
      s.putShaper k { v with bucket := { v.bucket with tok := 0 }, wheel := .none, fireAt := 0 }
    else s
  else s

/-- A port is up again: HOLD_RESUME within its hold, ACTIVE from DOWN, nothing while a flush runs (R358, R360). -/
def State.queuesUp (s : State) (x : Nat) : State :=
  if s.qmState x == qmHeld then
    let s := s.set QM.PORT_STATUS.STATE x qmActive
    let s := s.set QM.PORT_STATUS.HOLD_LEFT_US x 0
    let s := s.modPort x fun p => { p with holdEnd := none }
    let ks := portShaper x :: (List.range 16).map (fun g => cgShaper (16 * x + g)) ++
      ((s.image.qshaperQueue.filter fun b => queuePort b.2 == x).map fun b => queueShaper b.1)
    let s := ks.foldl (fun s k => s.forgive k) s
    (s.addSat QM.PORT_FLUSHED.RESUMES x 1).raise QM.INT_CAUSE.RESUME
  else if s.qmState x == qmDown then s.set QM.PORT_STATUS.STATE x qmActive
  else s

end Sys2Proof.Machine
end

