-- ==== Sys2Proof/Machine/Policers.lean ====
section
/-!
DEFINITION. Policers (chapter 8, R280 to R286).
-/

namespace Sys2Proof.Machine

/-- A policer's rate and burst in force, within their limits (R285). -/
def State.polRate (s : State) (i : Nat) : Nat := min (s.get POL.CFG.RATE_KBPS i) maxRate
def State.polBurst (s : State) (i : Nat) : Nat := max 64 (s.get POL.CFG.CBS_BYTES i)

/-- A policer whose bucket is not listed: it holds the burst that POL.CFG has at reset since the last image's apply ended,
and nothing before one has. -/
def State.polFresh (s : State) : Bucket :=
  match s.sw.polBase with
  | none => { tok := 0, last := 0 }
  | some t => { tok := (max 64 (bitsOf (regReset .POL_CFG 0) POL.CFG.CBS_BYTES.lo POL.CFG.CBS_BYTES.width) * byteTok : Nat),
                last := t }

/-- A policer's tokens and time. -/
def State.policer (s : State) (i : Nat) : Bucket := tabGet s.polFresh s.sw.policers i

/-- Stores a policer's bucket and what POL.TOKENS shows of it. -/
def State.putPolicer (s : State) (i : Nat) (b : Bucket) : State :=
  let s := { s with sw := { s.sw with policers := tabPut s.sw.policers i b } }
  s.set POL.TOKENS.BYTES i (ofSigned 48 (b.tok / byteTok))

/-- The refill of R281 at a rate and burst, up to now. -/
def State.polRefill (s : State) (i rate burst : Nat) : Bucket :=
  let b := s.policer i
  { tok := min ((burst * byteTok : Nat) : Int) (b.tok + (rate * (s.now - b.last) : Nat)), last := s.now }

/-- A policer is bound to an ingress pipe and to a troupe (R280). -/
def State.polBound (s : State) (i pipe troupe : Nat) : Bool :=
  match tabFind s.image.policers i with
  | some (mask, n) => natBit mask (pipe % 4) && i / 65536 == pipeDie pipe && n == troupe
  | none => false

/-- POLICER_EXECUTE: one execution with a charge; answers whether it conforms (R281, R285). -/
def State.police (s : State) (i charge : Nat) : Bool × State :=
  if !s.flag POL.CFG.ENABLE i then (true, s.addSat POL.STATS.CONFORM i 1)
  else
    let b := s.polRefill i (s.polRate i) (s.polBurst i)
    if ((charge * byteTok : Nat) : Int) ≤ b.tok then
      (true, (s.putPolicer i { b with tok := b.tok - (charge * byteTok : Nat) }).addSat POL.STATS.CONFORM i 1)
    else (false, (s.putPolicer i b).addSat POL.STATS.DROPS i 1)

/-- POLICER_LATE_DEBIT: the rest of a long frame is taken without a test, down to a floor of minus the burst (R282). -/
def State.lateDebit (s : State) (i bytes : Nat) : State :=
  if !s.flag POL.CFG.ENABLE i then s
  else
    let b := s.policer i
    s.putPolicer i { b with tok := max (-((s.polBurst i * byteTok : Nat) : Int)) (b.tok - (bytes * byteTok : Nat)) }

/-- A pair of a policer takes effect: a refill at the old rate and burst first (R286). -/
def State.polPair (s : State) (i oldRate oldBurst : Nat) : State :=
  s.putPolicer i (s.polRefill i (min oldRate maxRate) (max 64 oldBurst))

/-- A pair waits for the pace domain of a pipe (R91): a policer for that of its rim die, program registers for any, since
their programs run in the pipes of every rim die and they have one value in force (R220; DEDUCED, log entry 76). -/
def PairDue.usedBy (p : Nat) : PairDue → Bool
  | .policer i _ _ => i / 65536 == pipeDie p
  | .program _ _ _ _ => true

/-- A pair takes effect: a policer after its refill at the old rate and burst (R286), two program registers at once. -/
def State.takeDue (s : State) : PairDue → State
  | .policer i rate burst =>
    let was := (s.get POL.CFG.RATE_KBPS i, s.get POL.CFG.CBS_BYTES i)
    ((s.set POL.CFG.RATE_KBPS i rate).set POL.CFG.CBS_BYTES i burst).polPair i was.1 was.2
  | .program i j v w =>
    (s.setReg .PIPE_PROG_REG i v).setReg .PIPE_PROG_REG j w

/-- At a wavefront launch the completed pairs of its pace domain take effect, in the order of their completion (R91). -/
def State.takePairs (s : State) (p : Nat) : State :=
  let ds := s.cf.due.filter (·.usedBy p)
  ds.foldl State.takeDue { s with cf := { s.cf with due := s.cf.due.filter fun d => !d.usedBy p } }

/-- Policers whose POL.CFG is not at its reset value. -/
def State.polTuned (s : State) : List Nat :=
  (s.regs.filter fun e => e.1 % 1024 == Reg.POL_CFG.ctorIdx).map fun e => e.1 / 1024

/-- At the end of an apply every policer holds the burst in force (R286). -/
def State.polReset (s : State) : State :=
  s.polTuned.foldl (fun s i => s.putPolicer i { tok := (s.polBurst i * byteTok : Nat), last := s.now })
    { s with sw := { s.sw with policers := [], polBase := some s.now } }

end Sys2Proof.Machine
end

