-- ==== Sys2Proof/Machine/Programs.lean ====
section
/-!
DEFINITION. What a pipe's program does to one head (chapter 6): the metadata's layout (R195), the parser (R191 to
R194), the actions of a stage (R198 to R205), and the deparser's changes of the head (R216).
-/

namespace Sys2Proof.Machine

/-! ## Metadata (R195, R375) -/

/-- The network time format of R375 for a time in units of 2^-16 ns. -/
def timeBytes (t : Int) (unlocked : Bool) : List Byte :=
  let ns := t / 65536
  leBytes (ns / 10 ^ 9 % 2 ^ 64).toNat 8 ++ leBytes (ns % 10 ^ 9).toNat 4 ++ leBytes (t % 65536).toNat 2 ++
    leBytes (b2n unlocked) 1 ++ [0]

/-- A list of exactly n bytes, filled up with a byte. -/
def fillTo (n : Nat) (b : Byte) (bs : List Byte) : List Byte := (bs ++ List.replicate (n - bs.length) b).take n

/-- The FLAGS byte. -/
def Meta.flags (m : Meta) : Nat :=
  bitsToNat [m.lenValid, m.parseTrunc, m.parseReject, m.drop, m.toCpu, m.mcValid, m.adaptiveUsed]

/-- FRAME_LEN as it reads: 0 while LEN_VALID is 0 (R196). -/
def Packet.frameLen (p : Packet) : Nat := if p.md.lenValid then p.len else 0

/-- The 128 bytes of the device region. -/
def Packet.devRegion (p : Packet) : List Byte :=
  let m := p.md
  let q := m.queueId.getD 0
  leBytes p.port 2 ++ leBytes (p.troupe % 64 + 64 * b2n p.epoch + 128 * b2n p.injected) 1 ++ leBytes p.prio 1 ++
    leBytes p.frameLen 2 ++ leBytes m.flags 1 ++ leBytes m.dropReason 1 ++ timeBytes p.stamp p.unlocked ++ leBytes q 4 ++
    leBytes m.mcGroup 2 ++ leBytes (if m.mcValid then 0x3FF else queuePort q) 2 ++ leBytes m.flowHash 4 ++
    leBytes m.ecmpHash 4 ++ fillTo 4 0 (m.mirror.map (BitVec.ofNat 8)) ++
    leBytes (m.policer % 2 ^ 18 + 2 ^ 31 * b2n m.nonConforming) 4 ++ leBytes m.passes 1 ++ leBytes (queueGroup q) 1 ++
    leBytes (ofSigned 16 m.lenDelta) 2 ++ leBytes m.telCtrl 12 ++
    fillTo 32 255 (m.hdrOffsets.map (BitVec.ofNat 8)) ++ leBytes m.mcCopy 4 ++ List.replicate 28 0

/-- Bytes of the program region from an offset. -/
def Meta.progBytes (m : Meta) (off n : Nat) : List Byte :=
  (List.range n).map fun i => BitVec.ofNat 8 (tabGet 0 m.prog (off + i))

/-- Writes bytes into the program region, bytes 128 to 511. -/
def Meta.putProg (m : Meta) (off : Nat) : List Byte → Meta
  | [] => m
  | b :: bs =>
    let m' := if off < 384 then { m with prog := sparsePut 0 m.prog off b.toNat } else m
    m'.putProg (off + 1) bs

/-- A number with its byte j replaced. -/
def withByte (v j b : Nat) : Nat := v - v / 256 ^ j % 256 * 256 ^ j + b % 256 * 256 ^ j

/-- Writes one byte of the device region; only the fields marked W take it (R195). -/
def Meta.putDevByte (m : Meta) (j b : Nat) : Meta :=
  if j = 0x06 then { m with drop := natBit b 3, toCpu := natBit b 4, mcValid := natBit b 5 }
  else if j = 0x07 then { m with dropReason := b }
  else if 0x18 ≤ j && j < 0x1C then { m with queueId := some (withByte (m.queueId.getD 0) (j - 0x18) b % 2 ^ 20) }
  else if 0x1C ≤ j && j < 0x1E then { m with mcGroup := withByte m.mcGroup (j - 0x1C) b }
  else if 0x24 ≤ j && j < 0x28 then { m with ecmpHash := withByte m.ecmpHash (j - 0x24) b }
  else if 0x28 ≤ j && j < 0x2C then { m with mirror := m.mirror.set (j - 0x28) b }
  else if 0x34 ≤ j && j < 0x40 then { m with telCtrl := withByte m.telCtrl (j - 0x34) b }
  else m

/-- Writes bytes of the device region. -/
def Meta.putDev (m : Meta) (off : Nat) : List Byte → Meta
  | [] => m
  | b :: bs => (m.putDevByte off b.toNat).putDev (off + 1) bs

/-- Replaces bytes of a list in place, none past its end. -/
def putBytes (l : List Byte) (off : Nat) : List Byte → List Byte
  | [] => l
  | b :: bs => putBytes (l.set off b) (off + 1) bs

/-! ## Fields -/

/-- A program register as a packet reads it: a paired one has one value, any other that of the packet's epoch bit
(R220). -/
def State.preg (s : State) (p : Packet) (i : Nat) : Nat :=
  if (tabFind s.image.pregPartner i).isSome then s.get PIPE.PROG_REG.VALUE i
  else s.getFor p.troupe p.epoch PIPE.PROG_REG.VALUE i

/-- The bytes of a field in its own byte order (R202). -/
def State.fieldBytes (s : State) (p : Packet) : FieldRef → List Byte
  | .dev off n => (p.devRegion.drop off).take n
  | .prog off n => p.md.progBytes off n
  | .head off n => (p.head.drop off).take n
  | .imm v => leBytes v 4
  | .preg i => leBytes (s.preg p i) 8

/-- The value of a field. -/
def State.fieldVal (s : State) (p : Packet) : FieldRef → Nat
  | .head off n => ofBe ((p.head.drop off).take n)
  | .imm v => v
  | .preg i => s.preg p i
  | f => ofLe (s.fieldBytes p f)

/-- Writes a field. -/
def Packet.putField (p : Packet) (f : FieldRef) (v : Nat) : Packet :=
  match f with
  | .dev off n => { p with md := p.md.putDev off (leBytes v n) }
  | .prog off n => { p with md := p.md.putProg off (leBytes v n) }
  | .head off n => { p with head := putBytes p.head off (beBytes v n) }
  | .imm _ => p
  | .preg _ => p

/-- An ALU operation on words of `w` bits (R198). -/
def aluOp (w : Nat) (op : AluOp) (a b : Nat) : Nat :=
  let a := a % 2 ^ w
  let b := b % 2 ^ w
  match op with
  | .set => a
  | .add => (a + b) % 2 ^ w
  | .sub => (a + 2 ^ w - b) % 2 ^ w
  | .shl => if w ≤ b then 0 else a * 2 ^ b % 2 ^ w
  | .shr => if w ≤ b then 0 else a / 2 ^ b
  | .and => a &&& b
  | .min => min a b
  | .max => max a b

/-! ## The parser (R191 to R193) -/

/-- How a parse ended, with the offsets of the instances extracted and whether anything was truncated. -/
structure Parsed where
  accept : Bool
  offsets : List Nat
  trunc : Bool
deriving DecidableEq, Repr

/-- Bytes at a position lie within the head and the frame: none, where there are none to read (R193). -/
def inHead (head : List Byte) (pos n : Nat) : Bool := n == 0 || decide (pos + n ≤ min 256 head.length)

/-- One parse from a state at a position; `fuel` is the number of states that may still be passed. A header instance that
fits is kept where only the lookahead is cut off (R193). -/
def parseFrom (graph : List ParserState) (head : List Byte) : Nat → Nat → Nat → List Nat → Parsed
  | 0, _, _, offs => { accept := false, offsets := offs, trunc := false }
  | fuel + 1, st, pos, offs =>
    match graph[st]? with
    | none => { accept := false, offsets := offs, trunc := false }
    | some g =>
      let cut : List Nat → Parsed := fun offs => { accept := g.trunc == .acceptPartial, offsets := offs, trunc := true }
      if !inHead head pos g.extract then cut offs
      else
        let offs := if g.extract = 0 || decide (32 ≤ offs.length) then offs else offs ++ [pos]
        if g.accept then { accept := true, offsets := offs, trunc := false }
        else if g.reject then { accept := false, offsets := offs, trunc := false }
        else if !inHead head (pos + g.lookOff) g.lookLen then cut offs
        else
          let look := ofBe ((head.drop (pos + g.lookOff)).take g.lookLen)
          match g.next.find? fun e => e.1 == look with
          | none => { accept := false, offsets := offs, trunc := false }
          | some (_, st') => parseFrom graph head fuel st' (pos + g.extract + g.skip) offs

/-- The program that a pipe runs for a packet: that of its troupe under the packet's epoch bit (R187, R81). -/
def State.program (s : State) (pipe : Nat) (p : Packet) : Option Program :=
  let all := if natBit (s.get CFG.EPOCH.BITS 0) p.troupe == p.epoch then s.image.programs
    else ((tabFind s.cf.old p.troupe).map (·.programs)).getD s.image.programs
  tabFind all (64 * pipe + p.troupe)

/-- The parse of one head in a pipe: status REJECT sets DROP with PARSE_REJECT until the program clears it (R192), and
an egress program may start from the offsets of the ingress pipe (R194). -/
def State.parse (s : State) (pipe : Nat) (p : Packet) : Packet :=
  match s.program pipe p with
  | none => p
  | some g =>
    let start := if g.fromOffsets && decide (16 ≤ pipe) then p.md.hdrOffsets else []
    let r := parseFrom g.parser p.head 24 0 ((start.getLast?).getD 0) (start.dropLast)
    let m := { p.md with hdrOffsets := r.offsets, parseTrunc := r.trunc, parseReject := !r.accept }
    { p with md := if r.accept then m else { m with drop := true, dropReason := dropParse } }

/-! ## Lookups (R226, R227, R236, R248, R253, R255) -/

/-- TABLE_LOOKUP: a packet's lookup on a rim die, in the twin of the packet's epoch bit: the result's data, and where
an exact-match entry lies. -/
def State.pktLookup (s : State) (p : Packet) (t d : Nat) (key : List Byte) : Option (List Byte × Option (Nat × Where)) :=
  match s.tablePlan t with
  | none => none
  | some g =>
    if g.troupe != p.troupe then none
    else
      let w := s.getFor p.troupe p.epoch TBL.TABLE_CTRL.ACTIVE_TWIN t
      let v := (s.table t).twin w
      if g.kind = kindExact then
        match g.find v (s.seedsOf t w) d (ofLe key % 2 ^ (8 * g.keyBytes)) with
        | none => none
        | some i => (entryOn (v.at_ i) d).map fun c =>
            (leBytes (g.dataOf c.value) (g.bits / 8 - 4 - g.keyBytes), some (w, i))
      else if g.kind = kindTernary then
        (ternFind v.slots d (ofLe key)).map fun r => (leBytes (ternResult r.2) 4, none)
      else if g.kind = kindIndex then
        let i := ofLe key
        if i < g.positions then
          some (leBytes (((entryOn (tabGet [] v.slots i) d).map (·.value)).getD 0) (g.bits / 8), none)
        else none
      else (g.lpmFind v d (ofBe key)).map fun r => (leBytes r.1 4, none)

/-! ## Adaptive choice (R203, R205) -/

/-- The queue of member i of a group that starts at a base index: the entry of its INDEX table on the pipe's rim die, none
where the table has no such entry (R203, R224, R225). -/
def State.memberQueue (s : State) (p : Packet) (d t base i : Nat) : Option Nat :=
  (s.pktLookup p t d (leBytes (base + i) 4)).map fun r => ofLe r.1 % 2 ^ 20

/-- An entry of the map that a wavefront sees, 255 where there is no queue to look up. -/
def Wave.mapEntry (w : Wave) (queue : Option Nat) : Nat :=
  match queue with
  | some q => tabGet 255 w.map (queuePort q)
  | none => 255

/-- The least deep of the candidates from the first, the earlier on a tie. -/
def bestMember (depth : Nat → Nat) (first count : Nat) : Nat → Nat → Nat × Nat → Nat
  | 0, _, best => best.1
  | k + 1, i, best =>
    let c := (first + i) % count
    bestMember depth first count k (i + 1) (if depth c < best.2 then (c, depth c) else best)

/-- ADAPTIVE_ECMP_CHOICE and the plain choice among members whose queues `queue` gives: the member index, and whether the
map gave it. -/
def State.ecmpPick (s : State) (pipe : Nat) (w : Wave) (p : Packet) (g count : Nat) (queue : Nat → Option Nat)
    (adaptive : Bool) : Nat × Bool × State :=
  let launched := w.launchedAt
  let hash := p.md.ecmpHash % 2 ^ 32
  let first := hash * count / 2 ^ 32
  if !adaptive then (first, false, s)
  else
    let key := hash % 65536
    let put := fun (s : State) (m : Nat) =>
      s.modPipe pipe fun v => { v with flowlets := tabPut v.flowlets key { group := g, member := m, last := launched } }
    let depth := fun c => w.mapEntry (queue c)
    let gap := s.getFor p.troupe p.epoch PIPE.ADAPT_CFG.GAP_US 0
    if w.mapStale then
      (first, false, (put s first).addSat PIPE.DEPTH_MAP_STATUS.STALE_CHOICES (pipeDie pipe) 1)
    else
      let stay := match tabFind (s.pipe pipe).flowlets key with
        | some e => if e.group == g && gap != 0 && decide (launched - e.last ≤ gap * usTicks) && depth e.member != 255 then
            some e.member else none
        | none => none
      match stay with
      | some m => (m, false, put s m)
      | none =>
        let k := min (clampN 2 8 (s.getFor p.troupe p.epoch PIPE.ADAPT_CFG.CANDIDATES 0)) count
        let m := bestMember depth first count k 0 (first, 255)
        (m, true, put s m)

/-! ## Actions (R198) -/

/-- The register array word and the counter that an action names: each pipe has its own (R225). -/
def arrayKey (pipe array index : Nat) : Nat := pipe * 2 ^ 32 + array % 65536 * 65536 + index % 65536
def counterKey (pipe counter : Nat) : Nat := pipe * 2 ^ 32 + counter % 2 ^ 32

/-- A counter of a pipe's program counts packets and bytes (R198). -/
def State.countBytes (s : State) (k packets bytes : Nat) : State :=
  let v := tabGet (0, 0) s.sw.counters k
  { s with sw := { s.sw with counters := tabPut s.sw.counters k (v.1 + packets, v.2 + bytes) } }

/-- A mirror request takes the first free byte of MIRROR; a fifth is ignored (R208). -/
def Meta.addMirror (m : Meta) (session : Nat) : Meta :=
  match (List.range 4).find? fun i => (m.mirror[i]?).getD 0 < 128 with
  | some i => { m with mirror := m.mirror.set i (128 + session % 64) }
  | none => m

/-- The charge of a policer execution (R282). -/
def State.polCharge (s : State) (p : Packet) (i : Nat) : Nat :=
  (if p.md.lenValid then p.len else 256) + 20 * s.get POL.CFG.WIRE_ADJ i

/-- One action on one head of a pipe, 0 to 15 ingress and 16 to 31 egress. -/
def State.act (s : State) (pipe : Nat) (w : Wave) (p : Packet) : Action → State × Packet
  | .alu op dst a b => (s, p.putField dst (aluOp 32 op (s.fieldVal p a) (s.fieldVal p b)))
  | .lookup t key dst =>
    let d := pipeDie pipe
    let s := s.spend 2 d (some p.troupe) none (some pipe) 1
    match s.pktLookup p t d (key.flatMap (s.fieldBytes p)) with
    | none => (s, { p with md := p.md.putProg dst [0] })
    | some (data, place) =>
      let s := match place with
        | some (twin, i) => s.ageHit t twin d i
        | none => s
      (s, { p with md := p.md.putProg dst (1 :: data) })
  | .hash fn seed input dst =>
    let sd := s.getFor p.troupe p.epoch PIPE.HASH_SEED.SEED (seed % 64)
    (s, p.putField dst (hashOf fn sd ((input.flatMap (s.fieldBytes p)).take 64)))
  | .stateful array index op arg dst =>
    let k := arrayKey pipe array (s.fieldVal p index)
    let old := tabGet 0 s.sw.arrays k
    let s' := { s with sw := { s.sw with arrays := tabPut s.sw.arrays k (aluOp 64 op old (s.fieldVal p arg)) } }
    (s', { p with md := p.md.putProg dst (leBytes old 8) })
  | .count counter =>
    let k := counterKey pipe (s.fieldVal p counter)
    if p.whole then (s.countBytes k 1 p.len, p)
    else (s.countBytes k 1 0, { p with lateCounts := p.lateCounts ++ [k] })
  | .police policer =>
    let i := s.fieldVal p policer
    if 16 ≤ pipe || !s.polBound i pipe p.troupe then (s, p)
    else
      let (ok, s) := s.police i (s.polCharge p i)
      let m := { p.md with policer := i, nonConforming := !ok }
      if ok then (s, { p with md := m, lateDebits := if m.lenValid then p.lateDebits else p.lateDebits ++ [i] })
      else (s, { p with md := { m with drop := true, dropReason := dropPolicer } })
  | .forward queue => (s, { p with md := { p.md with queueId := some (s.fieldVal p queue % 2 ^ 20) } })
  | .multicast group => (s, { p with md := { p.md with mcGroup := s.fieldVal p group % 65536, mcValid := true } })
  | .ecmp t group base count adaptive =>
    let n := min 512 (s.fieldVal p count)
    if n = 0 then (s, p)
    else
      let queue := s.memberQueue p (pipeDie pipe) t (s.fieldVal p base)
      let (m, used, s) := s.ecmpPick pipe w p (s.fieldVal p group) n queue adaptive
      let (open_, s) := s.draw
      let q := (queue m).getD (open_ % 2 ^ 20)
      (s, { p with md := { p.md with queueId := some q, adaptiveUsed := p.md.adaptiveUsed || used } })
  | .learn t key data =>
    let image := ofLe (key.flatMap (s.fieldBytes p) ++ data.flatMap (s.fieldBytes p))
    (s.learnSend pipe p.troupe t image, p)
  | .mirror session => (s, if 16 ≤ pipe then p else { p with md := p.md.addMirror (s.fieldVal p session) })
  | .drop reason => (s, { p with md := { p.md with drop := true, dropReason := 0x80 + reason % 128 } })
  | .undrop => (s, { p with md := { p.md with drop := false, dropReason := 0 } })
  | .toCpu => (s, { p with md := { p.md with toCpu := true } })
  | .resubmit => (s, if 16 ≤ pipe then p else { p with md := { p.md with resubmit := true } })
  | .recirculate => (s, { p with md := { p.md with recirculate := true } })
  | .headerAdd off bytes => (s, { p with md := { p.md with edits := p.md.edits ++ [(off, 0, bytes)] } })
  | .headerRemove off n => (s, { p with md := { p.md with edits := p.md.edits ++ [(off, n, [])] } })

/-- The actions of one stage on one head, each where its guard is not 0. -/
def State.actAll (s : State) (pipe : Nat) (w : Wave) (p : Packet) : List Guarded → State × Packet
  | [] => (s, p)
  | g :: gs =>
    if s.fieldVal p g.guard = 0 then s.actAll pipe w p gs
    else
      let (s', p') := s.act pipe w p g.act
      s'.actAll pipe w p' gs

/-! ## The deparser (R216) -/

/-- One change of a head. -/
def editHead (head : List Byte) (e : Nat × Nat × List Nat) : List Byte :=
  head.take e.1 ++ e.2.2.map (BitVec.ofNat 8) ++ head.drop (e.1 + e.2.1)

/-- Inserts a change in order of falling offset. -/
def insertEdit (e : Nat × Nat × List Nat) : List (Nat × Nat × List Nat) → List (Nat × Nat × List Nat)
  | [] => [e]
  | f :: fs => if f.1 ≤ e.1 then e :: f :: fs else f :: insertEdit e fs

/-- The head as a deparser writes it, and LEN_DELTA. A change beyond the limits of R216, which no image holds, is not
made. -/
def Packet.deparse (p : Packet) : Packet :=
  let sorted := p.md.edits.foldl (fun l e => insertEdit e l) []
  let head := sorted.foldl editHead p.head
  let delta : Int := (head.length : Int) - p.head.length
  if delta ≤ 64 && (14 : Int) ≤ (p.head.length + p.body.length : Nat) + delta - 4 then
    { p with head := head, md := { p.md with edits := [], lenDelta := p.md.lenDelta + delta } }
  else { p with md := { p.md with edits := [] } }

end Sys2Proof.Machine
end

