-- ==== Sys2Proof/Machine/Flows.lean ====
section
/-!
DEFINITION. Flow telemetry (chapter 12, R415 to R430, R462 to R464): the flow caches and the ledger, refusals, fate updates, the
export sweep, and the snapshots of histograms.
-/

namespace Sys2Proof.Machine

/-! ## Capacity (R421) -/

/-- The stacks that hold the ledger in the memory mode in force (R443). -/
def State.ledgerStacks (s : State) : List Nat :=
  match s.image.memMode with
  | 2 => [0, 1]
  | 3 => [1]
  | _ => []

/-- The ledger carries the entries: its stacks' bits are set (R59, R421). -/
def State.ledgerOn (s : State) : Bool := !s.ledgerStacks.isEmpty && s.ledgerStacks.all fun k => s.ready (rdyHbm k)

/-- The tracking capacity N (R421). -/
def State.flowCapacity (s : State) : Nat :=
  if s.ledgerOn then (if s.image.memMode = 2 then 16777216 else 8388608) else 262144

/-! ## The locator (R463) -/

/-- Slots of the locator: twice the tracking capacity. -/
def State.locSlots (s : State) : Nat := 2 * s.flowCapacity

/-- The slot at which the search for a hash starts: the hash shifted right by 7 or 8. -/
def State.locStart (s : State) (hash : Nat) : Nat := hash * s.locSlots / 2 ^ 32

/-- The search for a key: the slot at which it ends, and the entry found there. -/
def State.locSearch (s : State) (key : List Byte) : Nat → Nat → Nat × Option Nat
  | slot, 0 => (slot, none)
  | slot, fuel + 1 =>
    match tabFind s.tel.locator slot with
    | none => (slot, none)
    | some (i, _) =>
      if (tabFind s.tel.ledger i).any fun e => e.flow.key == key then (slot, some i)
      else s.locSearch key ((slot + 1) % s.locSlots) fuel

/-- Where a key stands in the locator, or the empty slot for it. -/
def State.locate (s : State) (key : List Byte) : Nat × Option Nat :=
  s.locSearch key (s.locStart (crc32c 0xFFFFFFFF key)) (s.tel.locator.length + 1)

/-- Backward-shift deletion: entries behind a hole move into it while that brings them nearer to their start. -/
def State.locShift (s : State) (hole at_ : Nat) : Nat → State
  | 0 => s
  | fuel + 1 =>
    let size := s.locSlots
    let j := (at_ + 1) % size
    match tabFind s.tel.locator j with
    | none => s
    | some (i, h) =>
      if (j + size - hole) % size ≤ (j + size - s.locStart h) % size then
        State.locShift { s with tel := { s.tel with locator := tabPut (tabDel s.tel.locator j) hole (i, h) } } j j fuel
      else s.locShift hole j fuel

/-- A slot is cleared without a tombstone. -/
def State.locClear (s : State) (slot : Nat) : State :=
  State.locShift { s with tel := { s.tel with locator := tabDel s.tel.locator slot } } slot slot s.tel.locator.length

/-- A ledger entry is freed (R463). -/
def State.freeEntry (s : State) (i : Nat) : State :=
  let s := match s.tel.locator.find? fun e => e.2.1 == i with
    | some (slot, _) => s.locClear slot
    | none => s
  { s with tel := { s.tel with ledger := tabDel s.tel.ledger i } }

/-- Lines of a die in the cache. -/
def State.dieLines (s : State) (d : Nat) : List (Nat × FlowLine) := s.tel.lines.filter fun e => e.1 / 65536 == d

/-- The live entries' flows. -/
def State.liveFlows (s : State) : List FlowRec :=
  if s.ledgerOn then s.tel.ledger.map fun e => e.2.flow else s.tel.lines.map fun e => e.2.flow

/-- Live entries of a troupe. -/
def State.troupeFlows (s : State) (n : Nat) : Nat := (s.liveFlows.filter fun f => f.troupe == n).length

/-- Brings the flow counts of a troupe up to date. -/
def State.refreshFlows (s : State) (n : Nat) : State :=
  let s := s.set TEL.FLOW_STATUS.LIVE_FLOWS 0 s.liveFlows.length
  let s := s.set TEL.TROUPE_FLOWS.LIVE n (s.troupeFlows n)
  s.set TEL.FLOW_CAP.CAPACITY 0 s.flowCapacity

/-! ## Records -/

/-- The key field k of a flow (R438). -/
def State.keyFieldBytes (s : State) (key : List Byte) (k : Nat) : List Byte :=
  (((key.drop 3).drop (s.get TEL.KEY_FIELD.OFF k)).take (s.get TEL.KEY_FIELD.LEN k))

/-- Exports a flow with a flowEndReason (R438). -/
def State.exportFlow (s : State) (f : FlowRec) (reason : Nat) : State :=
  let e := if s.pen = 0 then [] else
    beBytes f.ce 8 ++ beBytes f.maxDelay 4 ++ telFlags f.approx (f.unlocked || !s.ready rdyTime)
  s.exportRecord f.troupe 256 ((s.keyFields.flatMap (s.keyFieldBytes f.key)) ++ beBytes f.port 4 ++ s.ieTime f.first ++
    s.ieTime f.last ++ beBytes f.packets 8 ++ beBytes f.bytes 8 ++ beBytes f.drops 8 ++ beBytes reason 1 ++ e)

/-- A flow whose counters since the last export are zeroed. -/
def FlowRec.zeroed (f : FlowRec) : FlowRec :=
  { f with packets := 0, bytes := 0, drops := 0, ce := 0, maxDelay := 0, approx := false, unlocked := false }

/-- Changes merged into an entry (R422, R429). -/
def FlowRec.merge (f g : FlowRec) : FlowRec :=
  { f with
    last := g.last, lastRaw := max f.lastRaw g.lastRaw, packets := f.packets + g.packets, bytes := f.bytes + g.bytes
    drops := f.drops + g.drops, ce := f.ce + g.ce, maxDelay := max f.maxDelay g.maxDelay
    approx := f.approx || g.approx, unlocked := f.unlocked || g.unlocked, forced := f.forced || g.forced }

/-! ## The untracked aggregate and the overflow episodes (R425, R427) -/

/-- The registers of an aggregate. -/
def aggKey (pipe n k : Nat) : Nat := (pipe * 64 + n) * 3 + k

/-- Adds to an aggregate: packets, bytes, and packets that are approximate. -/
def State.aggAdd (s : State) (pipe n packets bytes approx : Nat) : State :=
  let s := s.addWrap TEL.UNTRACKED.COUNT (aggKey pipe n 0) packets
  let s := s.addWrap TEL.UNTRACKED.COUNT (aggKey pipe n 1) bytes
  s.addWrap TEL.UNTRACKED.COUNT (aggKey pipe n 2) approx

/-- OVERFLOW_EPISODE_BEGIN: a refusal, which begins an episode where none runs (R427). -/
def State.flowRefusal (s : State) (pipe n : Nat) : State :=
  let s := s.modTel fun t => { t with refusedAt := s.now }
  if s.flag TEL.FLOW_STATUS.OVERFLOW 0 then s
  else
    let s := s.set TEL.FLOW_STATUS.OVERFLOW 0 1
    let s := s.set TEL.FLOW_STATUS.OVERFLOW_SEEN 0 1
    let s := s.addSat TEL.FLOW_COUNT.EPISODES 0 1
    let s := s.raise TEL.INT_CAUSE.OVERFLOW
    s.record 0x0E01 (leBytes pipe 1 ++ leBytes n 1 ++ leBytes s.flowCapacity 4)

/-- Packets of a refused flow go to the aggregate and are counted (R425). -/
def State.refusePackets (s : State) (pipe n packets bytes : Nat) : State :=
  let s := s.aggAdd pipe n packets bytes 0
  let s := s.addSat TEL.FLOW_COUNT.REFUSALS 0 packets
  s.addSat TEL.TROUPE_FLOWS.REFUSED n packets

/-- OVERFLOW_EPISODE_END: no refusal for QUIET_MS (R427). -/
def execOverflowEpisodeEnd (s : State) : Answer :=
  if s.flag TEL.FLOW_STATUS.OVERFLOW 0 &&
      decide (s.tel.refusedAt + max 1 (s.get TEL.FLOW_CFG2.QUIET_MS 0) * msTicks ≤ s.now) then
    .next (s.set TEL.FLOW_STATUS.OVERFLOW 0 0)
  else .next s

/-! ## Entries in the cache (R424 to R426) -/

/-- The troupe's own limit leaves room for a flow (R424). -/
def State.troupeRoom (s : State) (n : Nat) : Bool :=
  let most := s.get TEL.TROUPE_FLOW.MAX_FLOWS n
  most == 0 || decide (s.troupeFlows n < most)

/-- The oldest of a list of numbered flows. -/
def oldestFlow : List (Nat × FlowRec) → Option Nat
  | [] => none
  | (k, f) :: t =>
    match t.find? fun e => decide (e.2.lastRaw < f.lastRaw) with
    | none => some k
    | some _ => oldestFlow t

/-- An entry that gives way to a new flow of a troupe (R426). -/
def State.evictable (s : State) (n : Nat) (es : List (Nat × FlowRec)) : Option Nat :=
  if s.flag TEL.FLOW_CFG.AGE_EVICT 0 then
    oldestFlow (es.filter fun e => e.2.troupe == n &&
      decide (e.2.lastRaw + max 1 (s.get TEL.FLOW_CFG.EVICT_IDLE_MS 0) * msTicks ≤ s.now))
  else none

/-- A line is given to a flow under a new generation. -/
def State.giveLine (s : State) (k : Nat) (f : FlowRec) : State :=
  let gen := tabGet 0 s.tel.gens k + 1
  s.modTel fun t => { t with
    gens := tabPut t.gens k gen
    lines := tabPut t.lines k { flow := f, gen := gen, wbAt := s.now, exportAt := s.now, usedAt := s.now } }

/-- The lowest free line of a die. -/
def State.freeLine (s : State) (d : Nat) : Option Nat :=
  ((List.range (min 65536 ((s.dieLines d).length + 1))).map (65536 * d + ·)).find? fun k => (tabFind s.tel.lines k).isNone

/-- The write-back of a line (R422, R428): its changes go to the die's update queue, or approximately to the
aggregate when the queue is full. -/
def State.writeBack (s : State) (k : Nat) : State :=
  match tabFind s.tel.lines k with
  | none => s
  | some l =>
    let d := k / 65536
    let hash := crc32c 0xFFFFFFFF l.flow.key % 65536
    let q := tabGet [] s.tel.updates d
    let clear := fun (t : TelBlock) => { t with
      lines := tabPut t.lines k { l with flow := l.flow.zeroed, wbAt := s.now } }
    if q.length < 4096 then
      let marked := (tabGet [] s.tel.approx d).contains hash
      let f := { l.flow with approx := l.flow.approx || marked }
      s.modTel fun t => clear { t with updates := tabPut t.updates d (q ++ [{ line := k, gen := l.gen, flow := f }]) }
    else
      let s := s.aggAdd l.flow.pipe l.flow.troupe l.flow.packets l.flow.bytes l.flow.packets
      let s := s.set TEL.FLOW_STATUS.APPROX_SEEN 0 1
      let s := s.modTel fun t => clear { t with approx := tabMod [] t.approx d fun m => if m.contains hash then m else hash :: m }
      s.raise TEL.INT_CAUSE.APPROX

/-- The least recently used line of a die. -/
def lruLine : List (Nat × FlowLine) → Option Nat
  | [] => none
  | (k, l) :: t =>
    match t.find? fun e => decide (e.2.usedAt < l.usedAt) with
    | none => some k
    | some _ => lruLine t

/-- A line for a new flow of a die: none where it is refused (R422, R424, R426). -/
def State.takeLine (s : State) (d : Nat) (f : FlowRec) : Option Nat × State :=
  if s.ledgerOn then
    match s.freeLine d with
    | some k => (some k, s.giveLine k f)
    | none =>
      match lruLine (s.dieLines d) with
      | none => (none, s)
      | some k =>
        let refused := ((tabFind s.tel.lines k).bind (·.refusedUntil)).isSome
        (some k, (if refused then s else s.writeBack k).giveLine k f)
  else
    let room := decide (s.tel.lines.length < 262144) && s.troupeRoom f.troupe
    match if room then s.freeLine d else none with
    | some k => (some k, s.giveLine k f)
    | none =>
      match s.evictable f.troupe ((s.dieLines d).map fun e => (e.1, e.2.flow)) with
      | none => (none, s)
      | some k =>
        let s := match tabFind s.tel.lines k with
          | some l => s.exportFlow l.flow 5
          | none => s
        (some k, (s.addSat TEL.FLOW_COUNT2.EVICTED 0 1).giveLine k f)

/-! ## FLOW_UPDATE (R417 to R419) -/

/-- The 51 bytes of a packet's flow key (R417). -/
def Packet.flowKey (p : Packet) : List Byte := leBytes p.troupe 1 ++ leBytes p.port 2 ++ p.md.progBytes 0 48

/-- TEL_ACT of the metadata (R431). -/
def Meta.telAct (m : Meta) : Nat := m.telCtrl / 2 ^ 32

/-- FLOW_UPDATE: a packet leaves its ingress pipe or is dropped there, and its flow or the aggregate counts it. Where
FRAME_LEN is not valid, its bytes are added at the frame's end (R419). -/
def State.flowUpdate (s : State) (k : Nat) (dropped : Bool) : State :=
  match s.packet k with
  | none => s
  | some p =>
    let n := p.troupe
    if !s.flag TEL.TROUPE_FLOW.FLOW_EN n || natBit p.md.telAct 0 then s
    else
      let d := pipeDie p.pipe
      let key := p.flowKey
      let bytes := p.frameLen
      let due := !p.md.lenValid
      let fresh : FlowRec :=
        { key := key, pipe := p.pipe, troupe := n, port := p.port, first := p.stamp, last := p.stamp, lastRaw := s.now,
          packets := 1, bytes := bytes, drops := b2n dropped, unlocked := p.unlocked }
      match (s.dieLines d).find? fun e => e.2.flow.key == key with
      | some (j, l) =>
        let held := match l.refusedUntil with
          | some t => decide (s.now < t)
          | none => false
        if held then ((s.refusePackets p.pipe n 1 bytes).flowRefusal p.pipe n).putPacket k { p with flow := none, flowDue := due }
        else
          let l := { l with flow := l.flow.merge { fresh with first := l.flow.first }, usedAt := s.now, refusedUntil := none }
          let s := s.modTel fun t => { t with lines := tabPut t.lines j l }
          s.putPacket k { p with flow := some (j, l.gen), flowDue := due }
      | none =>
        match s.takeLine d fresh with
        | (some j, s) =>
          (s.putPacket k { p with flow := some (j, tabGet 0 s.tel.gens j), flowDue := due }).refreshFlows n
        | (none, s) =>
          let s := (s.refusePackets p.pipe n 1 bytes).flowRefusal p.pipe n
          s.putPacket k { p with flow := none, flowDue := due }

/-- The bytes of a frame whose length was not known, when its end reaches the segment assembler (R419). -/
def State.flowBytes (s : State) (k : Nat) : State :=
  match s.packet k with
  | none => s
  | some p =>
    if !p.flowDue then s
    else
      let s := s.putPacket k { p with flowDue := false }
      match p.flow with
      | none => s.aggAdd p.pipe p.troupe 0 p.len 0
      | some (j, gen) =>
        match tabFind s.tel.lines j with
        | some l =>
          if l.gen = gen then
            s.modTel fun t => { t with lines := tabPut t.lines j { l with flow := { l.flow with bytes := l.flow.bytes + p.len } } }
          else s.aggAdd p.pipe p.troupe 0 p.len 0
        | none => s.aggAdd p.pipe p.troupe 0 p.len 0

/-! ## Fate updates (R420) -/

/-- An outcome at the hub starts on its way back to the flow's line. -/
def State.sendFate (s : State) (p : Packet) (kind : FateKind) : State :=
  match p.flow with
  | none => s
  | some (j, gen) =>
    s.modTel fun t => { t with
      fates := t.fates ++ [{ line := j, gen := gen, pipe := p.pipe, troupe := p.troupe, kind := kind }] }

/-- What a fate does to a flow. -/
def FlowRec.fate (f : FlowRec) : FateKind → FlowRec
  | .drop => { f with drops := f.drops + 1 }
  | .ce => { f with ce := f.ce + 1 }
  | .delay ns => { f with maxDelay := max f.maxDelay (min ns (2 ^ 32 - 1)) }

/-- FATE_UPDATE: the oldest outcome reaches its line, or, where the line has been given to another flow, is folded
into the aggregate as approximate (R420). -/
def execFateUpdate (s : State) : Answer :=
  match s.tel.fates with
  | [] => .next s
  | f :: rest =>
    let s := s.modTel fun t => { t with fates := rest }
    match tabFind s.tel.lines f.line with
    | some l =>
      if l.gen = f.gen then
        .next (s.modTel fun t => { t with lines := tabPut t.lines f.line { l with flow := l.flow.fate f.kind } })
      else .next ((s.aggAdd f.pipe f.troupe 0 0 1).addSat TEL.FLOW_COUNT2.STALE_FATE 0 1)
    | none => .next ((s.aggAdd f.pipe f.troupe 0 0 1).addSat TEL.FLOW_COUNT2.STALE_FATE 0 1)

/-! ## Write-backs (R422, R425, R464) -/

/-- FLOW_WRITEBACK: a die writes back a line at least once every 1 ms in the ledger modes (R422, R428). -/
def execFlowWriteback (die : RimNo) (line : Fin 65536) (s : State) : Answer :=
  let k := 65536 * die.val + line.val
  match tabFind s.tel.lines k with
  | none => .next s
  | some l =>
    if s.ledgerOn && l.refusedUntil.isNone && decide (l.wbAt + msTicks ≤ s.now) then .next (s.writeBack k) else .next s

/-- A flow that the ledger refuses: the changes go to the aggregate and the line stays marked (R425). -/
def State.ledgerRefuse (s : State) (w : WriteBack) : State :=
  let f := w.flow
  let retry := max 1 (s.get TEL.FLOW_CFG2.RETRY_US 0) * usTicks
  let s := (s.refusePackets f.pipe f.troupe f.packets f.bytes).flowRefusal f.pipe f.troupe
  match tabFind s.tel.lines w.line with
  | none => s
  | some l =>
    if l.gen = w.gen then
      let s := s.refusePackets f.pipe f.troupe l.flow.packets l.flow.bytes
      s.modTel fun t => { t with
        lines := tabPut t.lines w.line { l with flow := l.flow.zeroed, refusedUntil := some (s.now + retry) } }
    else s

/-- LEDGER_WRITEBACK: the ledger engine serves the oldest write-back of the next die in rotation (R464). -/
def execLedgerWriteback (s : State) : Answer :=
  let die := ((List.range 4).map fun j => (s.tel.lastDie + 1 + j) % 4).find? fun d => !(tabGet [] s.tel.updates d).isEmpty
  match die with
  | none => .next s
  | some d =>
    match tabGet [] s.tel.updates d with
    | [] => .next s
    | w :: rest =>
      if !s.ledgerOn then .next s
      else
        let s := s.modTel fun t => { t with updates := tabPut t.updates d rest, lastDie := d }
        let s := (s.addSat HBM.LEDGER_STATUS.WRITEBACKS 0 1).spend 9 4 (some w.flow.troupe) none none 1
        let (slot, found) := s.locate w.flow.key
        match found.bind fun i => (tabFind s.tel.ledger i).map fun e => (i, e) with
        | some (i, e) =>
          .next (s.modTel fun t => { t with ledger := tabPut t.ledger i { e with flow := e.flow.merge w.flow } })
        | none =>
          let n := w.flow.troupe
          let add := fun (s : State) (slot : Nat) => (s.modTel fun t => { t with
            ledger := tabPut t.ledger (tabFresh t.ledger) { flow := w.flow, exportAt := s.now }
            locator := tabPut t.locator slot (tabFresh t.ledger, crc32c 0xFFFFFFFF w.flow.key) }).refreshFlows n
          if decide (s.tel.ledger.length < s.flowCapacity) && s.troupeRoom n then .next (add s slot)
          else
            match s.evictable n (s.tel.ledger.map fun e => (e.1, e.2.flow)) with
            | none => .next (s.ledgerRefuse w)
            | some i =>
              let s := match tabFind s.tel.ledger i with
                | some e => s.exportFlow e.flow 5
                | none => s
              let s := s.freeEntry i
              .next (add (s.addSat TEL.FLOW_COUNT2.EVICTED 0 1) (s.locate w.flow.key).1)

/-- REFUSED_LINE_RETRY: the hold of a refused line has ended: the line, which holds no changes, is free, and its flow's
next packet asks again (R425). -/
def execRefusedLineRetry (die : RimNo) (line : Fin 65536) (s : State) : Answer :=
  let k := 65536 * die.val + line.val
  match tabFind s.tel.lines k with
  | none => .next s
  | some l =>
    match l.refusedUntil with
    | none => .next s
    | some t =>
      if t ≤ s.now then .next (s.modTel fun b => { b with lines := tabDel b.lines k })
      else .next s

/-! ## The export sweep (R429) -/

/-- Whether and why a visit exports an entry, and whether it frees it. -/
def State.sweepReason (s : State) (f : FlowRec) (exportAt : Nat) : Option (Nat × Bool) :=
  let idle := s.get TEL.FLOW_CFG.IDLE_TIMEOUT_S 0
  if f.forced then some (4, true)
  else if idle != 0 && decide (f.lastRaw + idle * secTicks ≤ s.now) then some (1, true)
  else if exportAt + max 1 (s.get TEL.FLOW_CFG.ACTIVE_TIMEOUT_S 0) * secTicks ≤ s.now then some (2, false)
  else none

/-- One aggregate at the end of a pass: exported and zeroed when its last export is old (R429). -/
def State.sweepAggregate (s : State) (pipe n : Nat) : State :=
  let at_ := tabGet 0 s.tel.aggAt (64 * pipe + n)
  let v := fun k => s.get TEL.UNTRACKED.COUNT (aggKey pipe n k)
  if (v 0 + v 1 + v 2 != 0) && decide (at_ + max 1 (s.get TEL.FLOW_CFG.ACTIVE_TIMEOUT_S 0) * secTicks ≤ s.now) then
    let s := s.exportRecord n 259 (beBytes pipe 1 ++ beBytes (v 0) 8 ++ beBytes (v 1) 8 ++ beBytes (v 2) 8 ++
      s.ieTime s.netStamp ++ telFlags (v 2 != 0) (!s.ready rdyTime))
    let s := s.modTel fun t => { t with aggAt := tabPut t.aggAt (64 * pipe + n) s.now }
    (List.range 3).foldl (fun s k => s.set TEL.UNTRACKED.COUNT (aggKey pipe n k) 0) s
  else s

/-- The end of a pass of the sweep: the aggregates, and a new pass with cleared approximation maps (R428, R429). -/
def State.sweepEnd (s : State) : State :=
  let ns := 0 :: s.image.troupes.map (·.troupe)
  let s := (List.range 16).foldl (fun s p => ns.foldl (fun s n => s.sweepAggregate p n) s) s
  s.modTel fun t => { t with sweepNext := 0, approx := [] }

/-- A cached line's changes merged into its ledger entry. -/
def State.mergeLine (s : State) (i : Nat) (e : LedgerEntry) : State × LedgerEntry :=
  match s.tel.lines.find? fun l => l.2.flow.key == e.flow.key with
  | none => (s, e)
  | some (k, l) =>
    let e := { e with flow := e.flow.merge l.flow }
    (s.modTel fun t => { t with
      lines := tabPut t.lines k { l with flow := l.flow.zeroed }, ledger := tabPut t.ledger i e }, e)

/-- EXPORT_SWEEP_VISIT: the sweep visits the next live entry, or ends its pass (R429, R430). -/
def execExportSweepVisit (s : State) : Answer :=
  if s.ledgerOn then
    match s.tel.ledger.find? fun e => decide (s.tel.sweepNext ≤ e.1) with
    | none => .next s.sweepEnd
    | some (i, e) =>
      let (s, e) := s.mergeLine i e
      let s := s.modTel fun t => { t with sweepNext := i + 1 }
      match s.sweepReason e.flow e.exportAt with
      | none => .next s
      | some (r, free) =>
        let s := s.exportFlow e.flow r
        let s := if free then s.freeEntry i
          else s.modTel fun t => { t with ledger := tabPut t.ledger i { e with flow := e.flow.zeroed, exportAt := s.now } }
        let s := s.modTel fun t => { t with
          lines := if free then t.lines.filter fun l => l.2.flow.key != e.flow.key else t.lines }
        .next (s.refreshFlows e.flow.troupe)
  else
    match s.tel.lines.find? fun e => decide (s.tel.sweepNext ≤ e.1) with
    | none => .next s.sweepEnd
    | some (k, l) =>
      let s := s.modTel fun t => { t with sweepNext := k + 1 }
      match s.sweepReason l.flow l.exportAt with
      | none => .next s
      | some (r, free) =>
        let s := s.exportFlow l.flow r
        let s := s.modTel fun t => { t with
          lines := if free then tabDel t.lines k
                   else tabPut t.lines k { l with flow := l.flow.zeroed, exportAt := s.now } }
        .next (s.refreshFlows l.flow.troupe)

/-- The flows of a troupe are to be exported with a forced end (R430). -/
def State.forceFlows (s : State) (n : Nat) : State :=
  s.modTel fun t => { t with
    lines := t.lines.map fun e => if e.2.flow.troupe = n then (e.1, { e.2 with flow := { e.2.flow with forced := true } }) else e
    ledger := t.ledger.map fun e => if e.2.flow.troupe = n then (e.1, { e.2 with flow := { e.2.flow with forced := true } }) else e }

/-- LEDGER_LOST: the stack bit that carries the ledger has cleared: the ledger is lost and every line is cleared (R423). -/
def State.ledgerLost (s : State) (stack : Nat) : State :=
  let s := s.modTel fun t => { t with lines := [], ledger := [], locator := [], updates := [] }
  let s := (List.range 64).foldl (fun s n => s.set TEL.TROUPE_FLOWS.LIVE n 0) s
  (s.refreshFlows 0).record 0x0E02 (leBytes stack 1)

/-! ## Snapshots (R415) -/

/-- The instance of a register that has a copy in every window: the function's. -/
def fnIdx (f : FnNo) (per i : Nat) : Nat := f.val * per + i

/-- HIST_SNAPSHOT: a write of a function's TEL.HIST_CTRL; with GO = 1 the 64 bins of a histogram are copied at one
instant, and zeroed with CLEAR = 1 (R415). -/
def execHistSnapshot (fn : FnNo) (value : Word) (s : State) : Answer :=
  if !s.hostReach fn.val false then .next s else
  let f := fn.val
  let s := [TEL.HIST_CTRL.PORT, TEL.HIST_CTRL.CG, TEL.HIST_CTRL.KIND, TEL.HIST_CTRL.CLEAR].foldl
    (fun s g => s.set g f (bitsOf value g.lo g.width)) s
  if !natBit value.toNat 18 then .next s
  else
    let x := s.get TEL.HIST_CTRL.PORT f
    if !s.portExists x then .next (s.set TEL.HIST_CTRL.STATUS f 1)
    else if f != 0 && s.portTroupe x != f then .next (s.set TEL.HIST_CTRL.STATUS f 2)
    else
      let base := ((16 * x + s.get TEL.HIST_CTRL.CG f) * 2 + s.get TEL.HIST_CTRL.KIND f) * 64
      let s := s.set TEL.HIST_CTRL.STATUS f 0
      let s := (List.range 64).foldl (fun s i => s.set TEL.HIST_BIN.COUNT (fnIdx fn 64 i) (tabGet 0 s.tel.hist (base + i))) s
      .next (if s.flag TEL.HIST_CTRL.CLEAR f then
          s.modTel fun t => { t with hist := t.hist.filter fun e => !(decide (base ≤ e.1) && decide (e.1 < base + 64)) }
        else s)

end Sys2Proof.Machine
end

