-- ==== Sys2Proof/Machine/LineCode.lean ====
section
/-!
DEFINITION. The line codes of chapter 4: the FCS of a frame (R145, R149), the L425 PCS with its scrambler and transcoder
(R124), the RS codes over GF(2^10) (R125), the PAM6 pair mapper (R126, R127), TP6 (R129) and the raw test patterns (R134),
with what the transmitter of a lane holds of them. What the named clauses of IEEE 802.3 give and the spec does not repeat
is PRESUMED from the standard (log entry 84).
-/

namespace Sys2Proof.Machine

/-! ## The FCS (R145, R149) -/

/-- The FCS of a frame's bytes, in transmission order. -/
def fcsOf (bs : List Byte) : List Byte := leBytes (crc32 0xFFFFFFFF bs) 4

/-- The FCS that marks a frame as bad: the correct one XOR all ones (R149). -/
def stompedFcs (bs : List Byte) : List Byte := leBytes (crc32 0xFFFFFFFF bs ^^^ 0xFFFFFFFF) 4

/-- What the FCS check of a received frame finds (R146, R150). -/
inductive FcsKind where
  | good | stomped | wrong
deriving DecidableEq, Repr

/-- The check of a frame that ends with its FCS. -/
def fcsCheck (frame : List Byte) : FcsKind :=
  let bs := frame.take (frame.length - 4)
  let got := frame.drop (frame.length - 4)
  if got = fcsOf bs then .good else if got = stompedFcs bs then .stomped else .wrong

/-! ## 64b/66b blocks, the scrambler and the transcoder (R124) -/

/-- The block types of a control block that ends a frame after 0 to 7 further bytes (IEEE 802.3 Clause 82). -/
def endTypes : List Nat := [0x87, 0x99, 0xAA, 0xB4, 0xCC, 0xD2, 0xE1, 0xFF]

/-- A block of idle control codes, and one of LPI control codes, 0x06 (R136). -/
def idleBlock : PcsBlock := { control := true, payload := 0x1E }
def lpiBlock : PcsBlock :=
  { control := true, payload := 0x1E + ((List.range 8).map fun i => 6 * 2 ^ (8 + 7 * i)).sum }

/-- The data blocks and the end block of a frame's bytes. -/
def dataBlocks : List Byte → List PcsBlock
  | a :: b :: c :: d :: e :: f :: g :: h :: t =>
    { control := false, payload := ofLe [a, b, c, d, e, f, g, h] } :: dataBlocks t
  | bs => [{ control := true, payload := (endTypes[bs.length]?).getD 0 + 256 * ofLe bs }]

/-- The blocks of a frame from its destination address to its FCS: the start block with the preamble and the SFD, the data
and the end. -/
def frameBlocks (frame : List Byte) : List PcsBlock :=
  { control := true, payload := 0x78 + 256 * ofLe [0x55, 0x55, 0x55, 0x55, 0x55, 0x55, 0xD5] } :: dataBlocks frame

/-- Scrambles `n` bits of a payload from its bit `i` with 1 + x^39 + x^58: the state, whose bit j is the bit sent j + 1 bits
before, and what has been scrambled so far. -/
def scrambleBits (payload : Nat) : Nat → Nat → Nat → Nat → Nat × Nat
  | 0, _, st, out => (st, out)
  | n + 1, i, st, out =>
    let b := b2n (natBit payload i != (natBit st 38 != natBit st 57))
    scrambleBits payload n (i + 1) ((2 * st + b) % 2 ^ 58) (out + b * 2 ^ i)

/-- A block scrambled, its sync header not. -/
def scrambleBlock (st : Nat) (b : PcsBlock) : Nat × PcsBlock :=
  let r := scrambleBits b.payload 64 0 st 0
  (r.1, { b with payload := r.2 })

/-- The payload bits of four blocks in order, the second nibble of the first control block left out. -/
def packPayloads : List PcsBlock → Bool → Nat → Nat → Nat
  | [], _, _, acc => acc
  | b :: bs, left, at_, acc =>
    if b.control && !left then
      packPayloads bs true (at_ + 60) (acc + (b.payload % 16 + b.payload / 256 * 16) * 2 ^ at_)
    else packPayloads bs left (at_ + 64) (acc + b.payload * 2 ^ at_)

/-- The 257-bit block of a group of four blocks, by the 256b/257b rule of Clause 91. -/
def transcode (bs : List PcsBlock) : Nat :=
  let v := if bs.any (·.control) then
      packPayloads bs false 5 (2 * bitsToNat (bs.map fun b => !b.control))
    else packPayloads bs true 1 1
  v ^^^ (v / 256 % 32)

/-- The transcoded blocks of the full groups of a list of blocks, and the blocks that are left. -/
def transcodeAll : List PcsBlock → List Nat × List PcsBlock
  | a :: b :: c :: d :: t =>
    let r := transcodeAll t
    (transcode [a, b, c, d] :: r.1, r.2)
  | bs => ([], bs)

/-! ## RS(544,514) and RS(528,514) over GF(2^10) (R125, R143) -/

/-- A product in GF(2^10) with x^10 + x^3 + 1. -/
def gfMulAux : Nat → Nat → Nat → Nat → Nat
  | 0, _, _, acc => acc
  | n + 1, a, b, acc =>
    let a2 := 2 * a
    gfMulAux n (if a2 < 1024 then a2 else a2 ^^^ 0x409) (b / 2) (if b % 2 = 1 then acc ^^^ a else acc)
def gfMul (a b : Nat) : Nat := gfMulAux 10 a b 0

/-- A power of an element, and the inverse of one that is not 0. -/
def gfPow (a : Nat) : Nat → Nat
  | 0 => 1
  | n + 1 => gfMul a (gfPow a n)
def gfInv (a : Nat) : Nat :=
  ((List.range 9).foldl (fun (r : Nat × Nat) _ => let q := gfMul r.1 r.1; (q, gfMul r.2 q)) (a, 1)).2

/-- The generator polynomial of 30 parity symbols without its leading term, symbol by symbol with the highest first, times
each power of two below 2^10; and that of 14. -/
def rsTable30 : List Nat :=
  [0x8fe282ece68a0011b235468f99448417ad07bd81eb9f7dcd69c5262305881fcb927880d0a0b,
    0x1dc595d9cc16402360638d1f22ad082f1a9f7b02d57eebbed2884cd60b103f9724f100a341f,
    0x3b8b2bb3982c8046c0c6187e455a105e352ed60da8fd575dad12d9ac12297f2e49e20044c3e,
    0x771647473959008d818c30bc1ab029bc2add8c1353fa3ebb5a25b348045bfe1c13e4098987c,
    0xee2c8e8a7bb2010b27186138b544527a553b3c26a7b4fd56bd4b26102cb6fe7827c812114f8,
    0xde599d34ff6642066e39c231fa88a4f4aa665c4c4d697a8d73960cb0596cfef0df9024229f0,
    0xbef32a4dfecc840cd87b8663753548eb545cb8989a92753ee62e5960b2d8ffe13f0448453e0,
    0x7fe6d4bffc9b480994f60ec67a6a90d4e8a955303764ea79c55cb2c161b9fdc2fe2c908a3c9,
    0xff8d397bf134d0030dec1d8ce4f529abd1d28e606e8954d78ab92512c372f9c5ec7d201679b,
    0xfd5a62d7eb69a0061bd83b19c9ea5255e3a518c9dd12a9ab1d704ab582edf1cbc8de402cb3f]
def rsTable14 : List Nat :=
  [0xe2006af420a439de126661e50427b1489b0,
    0xc640c5cc404a733c04c5c38a984b6b91360,
    0x8ec18b988094a6f82d8a855520b6df206c9,
    0x1fc30715002b4d707f1408ea4169b74099b,
    0x3f860e2a00569ae0fa21119412d36e81336,
    0x7f0c0c7409ad35c1f04b232825a2d500665,
    0xfe1808cc12586b13e0964610db41a3008c3,
    0xfe7001bc24b096b7c12c8c21a6a74601186,
    0xfee0937848636d6f82581a43dd4a850230c,
    0xffc1b6f090c69a5f24b93487aab50304211]

/-- The table of a code with `parity` parity symbols. -/
def rsTable (parity : Nat) : List Nat := if parity = 30 then rsTable30 else rsTable14

/-- What a symbol feeds back into the remainder. -/
def rsFeed : List Nat → Nat → Nat → Nat
  | [], _, acc => acc
  | g :: gs, f, acc => rsFeed gs (f / 2) (if f % 2 = 1 then acc ^^^ g else acc)

/-- The remainder of symbols, the highest first, followed by `parity` zeros, divided by the generator polynomial. -/
def rsRemainder (parity : Nat) : List Nat → Nat → Nat
  | [], r => r
  | m :: ms, r =>
    let top := 2 ^ (10 * (parity - 1))
    rsRemainder parity ms (rsFeed (rsTable parity) (r / top ^^^ m) (r % top * 1024))

/-- The symbols of a packed remainder, the highest first. -/
def unpackSymbols : Nat → Nat → List Nat
  | 0, _ => []
  | n + 1, v => v / 1024 ^ n % 1024 :: unpackSymbols n v

/-- Transcoded blocks of 257 bits in order, the first in the lowest bits, and the first `n` symbols of ten bits of a stream. -/
def packBlocks : List Nat → Nat
  | [] => 0
  | b :: bs => b + 2 ^ 257 * packBlocks bs
def unpackLow : Nat → Nat → List Nat
  | 0, _ => []
  | n + 1, v => v % 1024 :: unpackLow n (v / 1024)

/-- A codeword: the message symbols and their parity. -/
def rsEncode (parity : Nat) (msg : List Nat) : List Nat := msg ++ unpackSymbols parity (rsRemainder parity msg 0)

/-- A polynomial, the constant term first, at an element. -/
def polyAt : List Nat → Nat → Nat
  | [], _ => 0
  | c :: cs, x => c ^^^ gfMul x (polyAt cs x)

/-- One polynomial plus another times a constant, shifted up. -/
def polyAdd (a b : List Nat) (k shift : Nat) : List Nat :=
  let b := List.replicate shift 0 ++ b.map (gfMul k)
  (List.range (max a.length b.length)).map fun i => (a[i]?).getD 0 ^^^ (b[i]?).getD 0

/-- The state of the Berlekamp-Massey search: the locator, the previous one, its length, the shift and the discrepancy that
the previous one left. -/
structure Locator where
  cur : List Nat := [1]
  prev : List Nat := [1]
  len : Nat := 0
  shift : Nat := 1
  left : Nat := 1
deriving DecidableEq, Repr

/-- The next step of the search over the syndromes; `n` syndromes, the latest first, have been seen with the present one. -/
def Locator.next (l : Locator) (n : Nat) (seen : List Nat) : Locator :=
  let d := ((List.range (l.len + 1)).map fun i => gfMul ((l.cur[i]?).getD 0) ((seen[i]?).getD 0)).foldl (· ^^^ ·) 0
  if d = 0 then { l with shift := l.shift + 1 }
  else
    let cur := polyAdd l.cur l.prev (gfMul d (gfInv l.left)) l.shift
    if 2 * l.len ≤ n then { cur := cur, prev := l.cur, len := n + 1 - l.len, shift := 1, left := d }
    else { l with cur := cur, shift := l.shift + 1 }

/-- The search over all syndromes. -/
def locate : List Nat → Nat → List Nat → Locator → Locator
  | [], _, _, l => l
  | x :: xs, n, seen, l => locate xs (n + 1) (x :: seen) (l.next n (x :: seen))

/-- Places of a codeword of `n` symbols, counted from its last, at which a locator has a root. -/
def rootCount (locator : List Nat) : Nat → Nat → Nat → Nat
  | 0, _, acc => acc
  | n + 1, x, acc => rootCount locator n (gfMul x 0x204) (if polyAt locator x = 0 then acc + 1 else acc)

/-- The number of symbols that the decoder corrects in a received codeword, none where it cannot be corrected: at most half
as many as there are parity symbols (R125). -/
def rsDecode (parity : Nat) (rx : List Nat) : Option Nat :=
  let k := rx.length - parity
  let r := unpackSymbols parity (rsRemainder parity (rx.take k) 0)
  let e := (List.range parity).map fun i => (r[i]?).getD 0 ^^^ (rx[k + i]?).getD 0
  if e.all (· == 0) then some 0
  else
    let syndromes := (List.range parity).map fun j => polyAt e.reverse (gfPow 2 j)
    let l := locate syndromes 0 [] {}
    if l.len ≤ parity / 2 && rootCount l.cur rx.length 1 0 = l.len then some l.len else none

/-! ## The PAM6 pair mapper (R126, R127) -/

/-- A pair of levels is one of the four corner pairs, which are never sent (R126). -/
def isCorner (p : Nat × Nat) : Bool := (p.1 == 0 || p.1 == 5) && (p.2 == 0 || p.2 == 5)

/-- The pair as it is decoded: a corner's second symbol one level nearer the middle (R127). -/
def cornerDecode (p : Nat × Nat) : Nat × Nat :=
  if isCorner p then (p.1, if p.2 = 0 then 1 else 4) else p

/-- The value of a pair of PAM6 levels, none for a corner pair (R126). -/
def pairValue (p : Nat × Nat) : Option Nat :=
  if isCorner p || decide (6 ≤ p.1) || decide (6 ≤ p.2) then none
  else if p.1 = 0 then some (p.2 - 1) else if p.1 = 5 then some (27 + p.2) else some (6 * p.1 - 2 + p.2)

/-- The pair that carries a value of 0 to 31 (R126). -/
def valuePair (v : Nat) : Nat × Nat :=
  if v < 4 then (0, v + 1) else if v < 28 then ((v + 2) / 6, (v + 2) % 6) else (5, v - 27)

/-- Five bits in transmission order, the first the most significant of the value. -/
def rev5 (v : Nat) : Nat := v % 2 * 16 + v / 2 % 2 * 8 + v / 4 % 2 * 4 + v / 8 % 2 * 2 + v / 16 % 2

/-- The values of the two pairs that carry a symbol of ten bits, bit 0 sent first. -/
def symbolValues (m : Nat) : List Nat := [rev5 (m % 32), rev5 (m / 32 % 32)]

/-- The symbols that received pairs carry, corner pairs decoded under R127. -/
def pairSymbols : List (Nat × Nat) → List Nat
  | a :: b :: t =>
    (rev5 ((pairValue (cornerDecode a)).getD 0) + 32 * rev5 ((pairValue (cornerDecode b)).getD 0)) :: pairSymbols t
  | _ => []

/-- A level with the polarity inverted. -/
def turnPair (inverted : Bool) (p : Nat × Nat) : Nat × Nat := if inverted then (5 - p.1, 5 - p.2) else p

/-! ## TP6 and the test patterns (R129, R134) -/

/-- `n` bits of a pseudo-random sequence whose next bit is the XOR of the bits `taps` before it; bit 0 of the register is the
latest. -/
def prbs (taps : List Nat) : Nat → Nat → List Bool
  | 0, _ => []
  | n + 1, reg =>
    let b := taps.foldl (fun b t => b != natBit reg (t - 1)) false
    b :: prbs taps n (reg * 2 % 2 ^ 31 + b2n b)

/-- Values of five bits, the first bit the most significant. -/
def fiveBits : List Bool → List Nat
  | a :: b :: c :: d :: e :: t => bitsToNat [e, d, c, b, a] :: fiveBits t
  | _ => []

/-- Status S (R129): RX_ALIGNED, WAKE and SEQ. -/
def statusS (aligned wake : Bool) (seq : Nat) : Nat := b2n aligned + 2 * b2n wake + 16 * (seq % 256)

/-- The 1,024 values of one period of TP6: marker, status S and PRBS13 from all ones (R129). -/
def tp6Values (s : Nat) : List Nat :=
  [31, 0, 31, 0] ++ [s / 32768 % 32, s / 1024 % 32, s / 32 % 32, s % 32] ++
    fiveBits (prbs [13, 12, 2, 1] 5080 (2 ^ 31 - 1))

/-- Gray-coded PAM4 levels of bits, two to a symbol. -/
def pam4 : List Bool → List Nat
  | a :: b :: t => (2 * b2n a + b2n (a != b)) :: pam4 t
  | _ => []

/-- The bits of a pattern of LANE.TEST; other codes are treated as 0. -/
def patternBits (pattern n : Nat) : List Bool :=
  match pattern with
  | 1 => prbs [9, 5] n (2 ^ 31 - 1)
  | 2 => prbs [13, 12, 2, 1] n (2 ^ 31 - 1)
  | 3 => prbs [31, 28] n (2 ^ 31 - 1)
  | _ => prbs [7, 6] n (2 ^ 31 - 1)

/-- The first symbols of a test pattern under the mapping of a lane mode (R134). -/
def testLevels (mode pattern s n : Nat) : List Nat :=
  if mode = 1 then
    ((if pattern = 4 then (tp6Values s).take (n / 2) else fiveBits (patternBits pattern (5 * (n / 2)))).map valuePair).flatMap
      fun p => [p.1, p.2]
  else if mode = 5 then (patternBits pattern n).map b2n
  else pam4 (patternBits pattern (2 * n))

/-! ## What the transmitters send -/

/-- A lane runs L425, or one of the standard modes (R122). -/
def State.laneL425 (s : State) (l : Nat) : Bool := s.get LANE.CFG.MODE l == 1
def State.laneStandard (s : State) (l : Nat) : Bool := decide (2 ≤ s.get LANE.CFG.MODE l)

/-- Symbols leave a lane, with the polarity that TX_INVERT gives them in L425. -/
def State.sendPairs (s : State) (l : Nat) (values : List Nat) : State :=
  s.emit (.symbols l ((values.map valuePair).flatMap fun p =>
    [(turnPair (s.flag LANE.CFG.TX_INVERT l) p).1, (turnPair (s.flag LANE.CFG.TX_INVERT l) p).2]))

/-- SEQ: periods of 2,048 symbols since raw time 0, the same on every lane (R129; log entry 85). -/
def State.tp6Seq (s : State) : Nat := s.now * 170 / 4096 % 256

/-- A lane sends a period of TP6 with its status S: its receiver's RX_ALIGNED, or 1 in a burst (R129, R131, R138). -/
def State.sendTp6 (s : State) (l : Nat) (burst : Bool) : State :=
  s.sendPairs l (tp6Values (statusS (burst || s.flag LANE.ALIGN_STATUS.RX_ALIGNED l) burst s.tp6Seq))

/-- A lane in raw test mode sends its pattern, of which the model shows the first 64 symbols (R134). -/
def State.sendTest (s : State) (l : Nat) : State :=
  s.emit (.symbols l (testLevels (s.get LANE.CFG.MODE l) (s.get LANE.TEST.PATTERN l) (statusS false false s.tp6Seq) 64))

/-- A transcoded block reaches its lane, whose encoder sends a codeword with every twentieth (R125, R126). -/
def State.laneBlock (s : State) (l b : Nat) : State :=
  let bs := (s.lane l).blocks ++ [b]
  if bs.length < 20 then s.modLane l fun v => { v with blocks := bs }
  else
    let msg := unpackLow 514 (packBlocks bs)
    (s.modLane l fun v => { v with blocks := [] }).sendPairs l ((rsEncode 30 msg).flatMap symbolValues)

/-- Transcoded block i of a port goes to lane i mod n, counting from the port's first lane (R128). -/
def State.portBlocks (s : State) (x n : Nat) (bs : List Nat) : State :=
  bs.foldl (fun s b =>
    let i := (s.port x).nextBlock
    (s.modPort x fun p => { p with nextBlock := (i + 1) % n }).laneBlock (x + i) b) s

/-- Blocks of a port on L425 lanes are scrambled, transcoded in groups of four and spread over its lanes (R124, R128). -/
def State.sendBlocks (s : State) (x : Nat) (bs : List PcsBlock) : State :=
  let r := bs.foldl (fun (a : Nat × List PcsBlock) b =>
    let q := scrambleBlock a.1 b
    (q.1, a.2 ++ [q.2])) ((s.port x).scrambler, [])
  let t := transcodeAll ((s.port x).blocks ++ r.2)
  (s.modPort x fun p => { p with scrambler := r.1, blocks := t.2 }).portBlocks x (max 1 (s.lanesOf x).length) t.1

/-- A frame with its FCS leaves a port; on L425 lanes it passes the L425 PCS with one block of idles after it (R124, R145;
log entry 85). -/
def State.sendFrame (s : State) (x : Nat) (frame : List Byte) : State :=
  let s := s.emit (.frame x frame)
  if s.laneL425 x then s.sendBlocks x (frameBlocks frame ++ [idleBlock]) else s

/-- Further blocks of idles leave a port, as many as its outside clock asks for (R124). -/
def State.sendIdles (s : State) (x n : Nat) : State :=
  if s.laneL425 x then s.sendBlocks x (List.replicate n idleBlock) else s

end Sys2Proof.Machine
end

