-- ==== Sys2Proof/Machine/Lanes.lean ====
section
/-!
DEFINITION. The lanes (chapter 4, R122 to R144): codewords, alignment, electrical idle, equalisers and the test
modes, with the Synchronous Ethernet outputs that follow a lane (R385).
-/

namespace Sys2Proof.Machine

/-! ## Synchronous Ethernet outputs (R385) -/

/-- The symbol rate of a lane mode in kBd (R122, R123). -/
def symbolRateKBd : Nat → Nat
  | 1 => 170000000 | 2 => 106250000 | 3 => 53125000 | 4 => 26562500 | 5 => 25781250 | _ => 0

/-- The divider of an output, 0 treated as 1. -/
def State.synceDiv (s : State) (k : Nat) : Nat := max 1 (s.get TIME.SYNCE.DIV k)

/-- An output can run: enabled, its lane locked and not in idle, and its frequency within 1 to 312.5 MHz (R385). -/
def State.synceUsable (s : State) (k : Nat) : Bool :=
  let l := s.get TIME.SYNCE.LANE k
  let rate := symbolRateKBd (s.get LANE.CFG.MODE l)
  s.flag TIME.SYNCE.EN k && s.flag LANE.RX_STATUS.SIGNAL l && s.flag LANE.RX_STATUS.CDR_LOCK l &&
    !s.flag LANE.IDLE_STATUS.RX_IDLE l && decide (1000 * s.synceDiv k ≤ rate) &&
    decide (rate ≤ 312500 * s.synceDiv k)

/-- Ends the squelch of an output that has become usable. -/
def State.synceRelease (s : State) (k : Nat) : State :=
  if s.synceUsable k then s.set TIME.SYNCE.SQUELCHED k 0 else s

/-- SYNCE_SQUELCH: an output whose lane or settings have become unusable is held low (R385). -/
def execSynceSquelch (out : Fin 2) (s : State) : Answer :=
  if s.synceUsable out || s.flag TIME.SYNCE.SQUELCHED out then .next s
  else
    let s := s.set TIME.SYNCE.SQUELCHED out 1
    let s := s.set TIME.SYNCE.SQUELCH_SEEN out 1
    let s := s.emit (.pin (if out.val = 0 then "SYNCE_OUT0" else "SYNCE_OUT1") 0)
    .next (s.raise TIME.INT_CAUSE.SYNCE_SQUELCH)

/-! ## Shared operations -/

/-- The number of the port that owns a lane. -/
def State.laneOwner (s : State) (l : Nat) : Option Nat := (s.portOfLane l).map (·.port)

/-- A lane sees no signal outside notified idle, has lost clock recovery or its codewords or markers, holds ALIGN_LOST, or
has the high error-rate condition (R161). -/
def State.laneFault (s : State) (l : Nat) : Bool :=
  (!s.flag LANE.RX_STATUS.SIGNAL l && !s.flag LANE.IDLE_STATUS.RX_IDLE l) || !s.flag LANE.RX_STATUS.CDR_LOCK l ||
    !(s.flag LANE.ALIGN_STATUS.DATA l || (s.lane l).markerLock) || s.flag LANE.ALIGN_STATUS.ALIGN_LOST l ||
    (s.lane l).highError

/-- A port has a local fault: one of its lanes has, or they are not deskewed (R161). -/
def State.localFault (s : State) (x : Nat) : Bool :=
  !s.flag PORT.STATUS.DESKEW_OK x || (s.lanesOf x).any s.laneFault

/-- Brings the faults of a port up to date: what its status shows, what it signals to its partner, and since when it has had
a fault or none (R161). -/
def State.refreshClear (s : State) (x : Nat) : State :=
  let bad := s.localFault x
  let s := if s.flag PORT.STATUS.LOCAL_FAULT x == bad then s else
    (s.set PORT.STATUS.LOCAL_FAULT x (b2n bad)).emit (.remoteFault x bad)
  let s := s.set PORT.STATUS.REMOTE_FAULT x (b2n (s.port x).remote)
  if bad || (s.port x).remote then
    s.modPort x fun p => { p with faultSince := some (p.faultSince.getD s.now), clearSince := none }
  else s.modPort x fun p => { p with clearSince := some (p.clearSince.getD s.now), faultSince := none }

/-- The same for the port of a lane. -/
def State.refreshLanePort (s : State) (l : Nat) : State :=
  match s.laneOwner l with
  | none => s
  | some x => s.refreshClear x

/-- Brings PORT.STATUS.RX_IDLE of a port up to date: every lane is in notified idle. -/
def State.refreshRxIdle (s : State) (x : Nat) : State :=
  s.set PORT.STATUS.RX_IDLE x (b2n ((s.lanesOf x).all fun l => s.flag LANE.IDLE_STATUS.RX_IDLE l))

/-- ALIGN_LOST sets on a lane, with its event; the port has a local fault until it is cleared (R161). -/
def State.setAlignLost (s : State) (l : Nat) : State :=
  let s := s.set LANE.ALIGN_STATUS.ALIGN_LOST l 1
  match s.laneOwner l with
  | none => s
  | some x => (s.portEvent PORT.EVENT.ALIGN_LOST x).refreshClear x

/-! ## Codewords (R124 to R128) -/

/-- The symbols that the decoder of a lane mode corrects: 15 for RS(544,514) (R125), 7 for the RS(528,514) of L25
(PRESUMED from IEEE 802.3 Clauses 91 and 108, log entry 8). -/
def correctable (mode : Nat) : Nat := if mode = 5 then 7 else 15

/-- The parity symbols of a lane mode's code: 30 of RS(544,514), 14 of RS(528,514) in L25 (R125, R143). -/
def parityOf (mode : Nat) : Nat := if mode = 5 then 14 else 30

/-- The symbols of a received codeword: in L425 from its pairs, the polarity turned back and corner pairs decoded (R126,
R127). -/
def State.rxSymbols (s : State) (l : Nat) (cw : Codeword) : List Nat :=
  if s.laneL425 l then pairSymbols (cw.levels.map fun p => turnPair (s.flag LANE.CFG.RX_INVERT l) (p.1.val, p.2.val))
  else cw.symbols.map BitVec.toNat

/-- The symbols that the decoder of a lane corrects in a codeword, none where it cannot, or where it is no codeword of the
lane's length (R125). -/
def State.corrected (s : State) (l : Nat) (cw : Codeword) : Option Nat :=
  let parity := parityOf (s.get LANE.CFG.MODE l)
  let rx := s.rxSymbols l cw
  if rx.length = 514 + parity then rsDecode parity rx else none

/-- RX_CODEWORD: a codeword of a lane is decoded and counted (R125, R127, R132, R133). Only L425 has electrical idle, so LPI
codewords count only there (R137, R144). -/
def execRxCodeword (lane : LaneNo) (cw : Codeword) (s : State) : Answer :=
  let l := lane.val
  if s.get LANE.CFG.MODE l = 0 then .next s
  else
    let fixed := s.corrected l cw
    let corners := if s.laneL425 l then (cw.levels.filter fun p => isCorner (p.1.val, p.2.val)).length else 0
    let s := s.addSat LANE.ALIGN_STATUS.INVALID_PAIRS l corners
    let s := match fixed with
      | some n => s.addSat LANE.ERR.SYM_CORRECTED l n
      | none => s.addSat LANE.ERR.CW_UNCORR l 1
    let s := s.modLane l fun v => { v with
      goodRun := if fixed.isSome then v.goodRun + 1 else 0
      badRun := if fixed.isSome then 0 else v.badRun + 1
      lpiSeen := if fixed.isSome then cw.lpi && s.laneL425 l else v.lpiSeen }
    match s.laneOwner l with
    | none => .next s
    | some x =>
      let s := s.portCount x cntFecTotal 1
      match fixed with
      | some n => .next (if n = 0 then s else (s.portCount x cntFecCorrected 1).portCount x cntFecSyms n)
      | none => .next ((s.portCount x cntFecUncorr 1).portEvent PORT.EVENT.FEC_UNCORR x)

/-! ## Alignment (R129 to R133) -/

/-- Ticks of 16 periods of TP6, rounded up: 16 × 2,048 symbols at 170 GBd. -/
def alignTicks : Nat := 386

/-- SLIP: a write of LANE.ALIGN_CTRL delays the pattern position by [10:0] symbols; the receiver then reports how
many pairs matched. Ignored while DATA is 1 and in a standard mode (R130). -/
def execSlip (lane : LaneNo) (value : Word) (matchPairs : Fin 1021) (s : State) : Answer :=
  if !s.hostReach 0 false then .next s else
  let l := lane.val
  if s.flag LANE.ALIGN_STATUS.DATA l || !s.laneL425 l then .next s
  else
    let k := bitsOf value 0 11
    let s := s.modLane l fun v => { v with pos := (v.pos + 2048 - k) % 2048, slipAt := some s.now }
    let s := s.set LANE.ALIGN_STATUS.MATCH_PAIRS l matchPairs
    .next (s.set LANE.ALIGN_STATUS.MATCH l (b2n (decide (1000 ≤ matchPairs.val))))

/-- A lane's receiver is aligned at a position, and its transmitter says so in S (R129, R131); `status` is the S last
received. -/
def State.setAligned (s : State) (l pos : Nat) (status : BitVec 20) : State :=
  let s := s.set LANE.ALIGN_STATUS.RX_ALIGNED l 1
  let s := s.set LANE.ALIGN_STATUS.FAR_ALIGNED l (b2n (natBit status.toNat 0))
  let s := s.modLane l fun v => { v with pos := pos, lastAligned := some pos, goodRun := 0, badRun := 0 }
  if (s.lane l).tx == .tp6 then s.sendTp6 l false else s

/-- RX_ALIGNED_SET: MATCH has held for 16 periods with no slip; `seen` is the last period (R130). -/
def execRxAlignedSet (lane : LaneNo) (seen : Tp6Seen) (s : State) : Answer :=
  let l := lane.val
  let due := match (s.lane l).slipAt with
    | none => true
    | some t => decide (t + alignTicks ≤ s.now)
  if s.laneL425 l && decide (1000 ≤ seen.matchPairs.val) && due && !s.flag LANE.ALIGN_STATUS.RX_ALIGNED l then
    let s := s.set LANE.ALIGN_STATUS.MATCH_PAIRS l seen.matchPairs
    let s := s.set LANE.ALIGN_STATUS.MATCH l 1
    .next (s.setAligned l (s.lane l).pos seen.status)
  else .next s

/-- The S that each lane of a port has received in its last periods, the latest first: FAR_ALIGNED shows the latest. -/
def State.seeStatus (s : State) (ls : List Nat) (received : List (List (BitVec 20))) : State :=
  (ls.zip received).foldl (fun s e =>
    match e.2.head? with
    | some v => s.set LANE.ALIGN_STATUS.FAR_ALIGNED e.1 (b2n (natBit v.toNat 0))
    | none => s) s

/-- A lane has received S.RX_ALIGNED = 1 in 16 consecutive periods (R131). -/
def farAligned (received : List (BitVec 20)) : Bool :=
  decide (16 ≤ received.length) && (received.take 16).all fun v => natBit v.toNat 0

/-- TX_SWITCH_TO_DATA: every lane of a port is aligned here and has received S.RX_ALIGNED = 1 in 16 periods; `received` is
what each lane has received of S, the latest first. The first codewords start on every lane at once (R128, R131). A lane
held in training or test holds back the whole port. -/
def execTxSwitchToData (port : PortNo) (received : List (List (BitVec 20))) (s : State) : Answer :=
  let ls := s.lanesOf port
  let s := s.seeStatus ls received
  let held := ls.any fun l => s.get LANE.CFG.TX_SOURCE l == 1 || s.get LANE.CFG.TX_SOURCE l == 2
  let here := ls.all fun l => s.laneL425 l && s.flag LANE.ALIGN_STATUS.RX_ALIGNED l &&
    ((s.lane l).tx == .tp6 || (s.lane l).tx == .data)
  if here && ls.any (fun l => (s.lane l).tx == .tp6) && ls.length == received.length && received.all farAligned && !held then
    let s := ls.foldl (fun s l => s.modLane l fun v => { v with tx := .data, blocks := [] }) s
    .next (s.modPort port fun p => { p with nextBlock := 0, blocks := [] })
  else .next s

/-- The skew of two lanes in symbols: the instants of their first codewords, put at the same period of TP6 by its sequence
number (R128, R129). -/
def startSkew (a b : Nat × Nat) : Int :=
  ((a.2 : Int) - b.2) - 2048 * signedOf 8 ((a.1 + 256 - b.1) % 256)

/-- The lanes of a port are in data within 8 codewords, of 2,176 symbols each, of one another (R125, R128). -/
def State.deskewed (s : State) (x : Nat) : Bool :=
  let starts := (s.lanesOf x).map fun l => if s.flag LANE.ALIGN_STATUS.DATA l then (s.lane l).dataStart else none
  starts.all fun a => starts.all fun b => match a, b with
    | some a, some b => decide (startSkew a b ≤ 8 * 2176)
    | _, _ => false

/-- DATA_LOCK: four consecutive decodable codewords set DATA. The port is deskewed once every lane has DATA and the skew is at most 8
codewords (R128, R132). -/
def execDataLock (lane : LaneNo) (start : DataStart) (s : State) : Answer :=
  let l := lane.val
  if s.laneL425 l && s.flag LANE.ALIGN_STATUS.RX_ALIGNED l && !s.flag LANE.ALIGN_STATUS.DATA l &&
      decide (4 ≤ (s.lane l).goodRun) then
    let s := s.set LANE.ALIGN_STATUS.DATA l 1
    let s := s.modLane l fun v => { v with dataStart := some (start.seq.val, start.at_) }
    match s.laneOwner l with
    | none => .next s
    | some x =>
      let s := if s.deskewed x then s.set PORT.STATUS.DESKEW_OK x 1 else s
      .next (s.refreshClear x)
  else .next s

/-- The lanes of a port leave electrical idle together (R135) and drive again. -/
def State.leaveIdle (s : State) (l : Nat) : State :=
  (((s.laneOwner l).map s.lanesOf).getD [l]).foldl (fun s m =>
    (s.set LANE.IDLE_STATUS.TX_IDLE m 0).modLane m fun v => { v with tx := if v.tx == .idle then .data else v.tx }) s

/-- A lane's transmitter returns to TP6 with S.RX_ALIGNED = 0 (R133): not one that sends a test pattern, and the lanes of one
in electrical idle leave it together (log entry 90). -/
def State.backToTp6 (s : State) (l : Nat) : State :=
  let s := if (s.lane l).tx == .idle then s.leaveIdle l else s
  if (s.lane l).tx == .data || (s.lane l).tx == .tp6 then
    (s.modLane l fun v => { v with tx := .tp6 }).sendTp6 l false
  else s

/-- ALIGN_LOST: eight consecutive uncorrectable codewords in DATA clear DATA and RX_ALIGNED, and the transmitter
returns to TP6 (R133). -/
def execAlignLost (lane : LaneNo) (s : State) : Answer :=
  let l := lane.val
  if s.flag LANE.ALIGN_STATUS.DATA l && decide (8 ≤ (s.lane l).badRun) then
    let s := s.set LANE.ALIGN_STATUS.DATA l 0
    let s := s.set LANE.ALIGN_STATUS.RX_ALIGNED l 0
    let s := s.modLane l fun v => { v with goodRun := 0, badRun := 0, dataStart := none }
    let s := s.backToTp6 l
    let s := match s.laneOwner l with
      | some x => s.set PORT.STATUS.DESKEW_OK x 0
      | none => s
    .next (s.setAlignLost l)
  else .next s

/-- REALIGN: TP6 matches for four periods at most 8 symbols from the last aligned position, and RX_ALIGNED sets again
(R133). -/
def execRealign (lane : LaneNo) (found : Tp6Found) (s : State) : Answer :=
  let l := lane.val
  match (s.lane l).lastAligned with
  | none => .next s
  | some p =>
    if s.laneL425 l && !s.flag LANE.ALIGN_STATUS.RX_ALIGNED l && decide (-8 ≤ found.offset) &&
        decide (found.offset ≤ 8) then
      .next (s.setAligned l (((p : Int) + found.offset) % 2048).toNat found.status)
    else .next s

/-! ## Equalisation and training (R140 to R142) -/

/-- The limits of R140. -/
def firOk (pre main post : Nat) : Bool :=
  decide (pre ≤ 16) && decide (32 ≤ main) && decide (main ≤ 64) && decide (post ≤ 24) && decide (pre + main + post ≤ 64)

/-- A write of the coefficients of a lane, ignored as a whole outside the limits or while training runs (R140,
R141). -/
def State.writeFir (s : State) (l : Nat) (value : Word) : State :=
  let s := if natBit value.toNat 32 then s.set LANE.TX_FIR.REJECTED l 0 else s
  let pre := bitsOf value 0 5
  let main := bitsOf value 8 7
  let post := bitsOf value 16 5
  if (s.lane l).training || !firOk pre main post then s.set LANE.TX_FIR.REJECTED l 1
  else ((s.set LANE.TX_FIR.C_PRE l pre).set LANE.TX_FIR.C_MAIN l main).set LANE.TX_FIR.C_POST l post

/-- TX_FIR_WRITE: a write of LANE.TX_FIR (R140). -/
def execTxFirWrite (lane : LaneNo) (value : Word) (s : State) : Answer :=
  if !s.hostReach 0 false then .next s else
  .next (s.writeFir lane value)

/-- What a link-training request answers with: the coefficient now in use, and whether it stands at a limit. -/
def State.answerTraining (s : State) (f : Fld) (l lo hi want : Nat) : State :=
  let others := s.get LANE.TX_FIR.C_PRE l + s.get LANE.TX_FIR.C_MAIN l + s.get LANE.TX_FIR.C_POST l - s.get f l
  let top := min hi (64 - others)
  let v := clampN lo (max lo top) want
  let s := s.set f l v
  s.emit (.answer "LINK_TRAINING" [BitVec.ofNat 8 v, BitVec.ofNat 8 (b2n (v == lo || v == top))])

/-- Link training starts on a lane: as a requester it asks for values of taps −1, 0 and 1 of its partner, which the spec does
not give and are free (R141). -/
def State.startTraining (s : State) (l : Nat) : State :=
  if (s.lane l).training then s
  else
    let s := s.modLane l fun v => { v with training := true }
    ([255, 0, 1] : List Byte).foldl (fun s tap =>
      let (v, s) := s.draw
      s.emit (.answer "LINK_TRAINING_REQUEST" [tap, BitVec.ofNat 8 v])) s

/-- A lane's transmitter and receiver start as its plan and registers say: off where it is unused (R122), with its test
pattern, TP6 or link training (R131, R134, R141). -/
def State.startLane (s : State) (l : Nat) : State :=
  let s := [LANE.RX_STATUS.SIGNAL, LANE.RX_STATUS.CDR_LOCK, LANE.RX_STATUS.ADAPT_DONE, LANE.RX_STATUS.SNR,
    LANE.ALIGN_STATUS.MATCH_PAIRS, LANE.ALIGN_STATUS.MATCH, LANE.ALIGN_STATUS.RX_ALIGNED, LANE.ALIGN_STATUS.FAR_ALIGNED,
    LANE.ALIGN_STATUS.DATA, LANE.ALIGN_STATUS.ALIGN_LOST, LANE.IDLE_STATUS.TX_IDLE, LANE.IDLE_STATUS.RX_IDLE,
    LANE.TEST.CHECK_SYNC].foldl (fun s f => s.set f l 0) s
  if s.get LANE.CFG.MODE l = 0 then s.modLane l fun _ => {}
  else if s.get LANE.CFG.TX_SOURCE l = 2 then (s.modLane l fun _ => { tx := .test }).sendTest l
  else if s.laneL425 l then (s.modLane l fun _ => { tx := .tp6 }).sendTp6 l false
  else
    let s := s.modLane l fun _ => { tx := .data }
    if s.flag LANE.CFG.IEEE_TRAIN_EN l then s.startTraining l else s

/-- What an image says of a lane: the port that owns it, with its mode and lanes. -/
def lanePlan (im : Image) (l : Nat) : Option (Nat × Nat × Nat) :=
  (im.ports.find? fun p => p.port ≤ l && decide (l < p.port + p.lanes)).map fun p => (p.port, p.mode, p.lanes)

/-- After a full image, the lanes whose plan is not the one before start, and the ports that own them (R122, R143). -/
def State.placeLanes (s : State) (old : Image) : State :=
  (List.range 512).foldl (fun s l =>
    if lanePlan old l = lanePlan s.image l then s
    else match s.laneOwner l with
      | none => s.startLane l
      | some x => ((s.startLane l).set PORT.STATUS.DESKEW_OK x 0).refreshClear x) s

/-- IEEE_TRAINING_REQUEST: the partner asks for a value of tap −1, 0 or 1 of a standard-mode lane in training; any
other tap is answered as at its limit (R141). -/
def execIeeeTrainingRequest (lane : LaneNo) (tap : Int) (want : Nat) (s : State) : Answer :=
  let l := lane.val
  if s.laneStandard l && s.flag LANE.CFG.IEEE_TRAIN_EN l then
    let s := s.startTraining l
    if tap = -1 then .next (s.answerTraining LANE.TX_FIR.C_PRE l 0 16 want)
    else if tap = 0 then .next (s.answerTraining LANE.TX_FIR.C_MAIN l 32 64 want)
    else if tap = 1 then .next (s.answerTraining LANE.TX_FIR.C_POST l 0 24 want)
    else .next (s.emit (.answer "LINK_TRAINING" [0, 1]))
  else .next s

/-- IEEE_LINK_TRAINING_END: link training of a standard-mode lane ends (R141). -/
def execIeeeLinkTrainingEnd (lane : LaneNo) (s : State) : Answer :=
  .next (s.modLane lane fun v => { v with training := false })

/-- RX_CFG_WRITE: a write of LANE.RX_CFG; a change of CURSOR_POS, DFE_EN or SEQ_DET_EN restarts adaptation, which is then
not done (R142; log entry 91). -/
def execRxCfgWrite (lane : LaneNo) (value : Word) (s : State) : Answer :=
  if !s.hostReach 0 false then .next s else
  let l := lane.val
  let shape := fun (s : State) => (min (s.get LANE.RX_CFG.CURSOR_POS l) 23, s.get LANE.RX_CFG.DFE_EN l,
    s.get LANE.RX_CFG.SEQ_DET_EN l)
  let old := shape s
  let s := Reg.LANE_RX_CFG.fields.foldl (fun s f => s.set f l (bitsOf value f.lo f.width)) s
  if shape s == old then .next s
  else .next (s.set LANE.RX_STATUS.ADAPT_DONE l 0)

/-- CDR_LOCK: a lane sees signal and locks; a SyncE output that it squelched runs again (R161, R385). -/
def execCdrLock (lane : LaneNo) (s : State) : Answer :=
  let l := lane.val
  if s.get LANE.CFG.MODE l = 0 then .next s
  else
    let s := s.set LANE.RX_STATUS.SIGNAL l 1
    let s := s.set LANE.RX_STATUS.CDR_LOCK l 1
    let s := (s.synceRelease 0).synceRelease 1
    .next (s.refreshLanePort l)

/-- ADAPT_DONE: the initial adaptation of a lane completes, with the taps and the signal-to-noise ratio it reaches in
0.25 dB. It stands still without ADAPT_EN, while FREEZE holds every tap, and in notified idle (R138, R142). -/
def execAdaptDone (lane : LaneNo) (result : AdaptResult) (s : State) : Answer :=
  let l := lane.val
  if s.flag LANE.RX_CFG.ADAPT_EN l && !s.flag LANE.RX_CFG.FREEZE l && s.flag LANE.RX_STATUS.CDR_LOCK l &&
      !s.flag LANE.IDLE_STATUS.RX_IDLE l then
    let s := s.modLane l fun v => { v with
      ffe := result.ffe.take 24, dfe := if s.flag LANE.RX_CFG.DFE_EN l then result.dfe else 0 }
    .next ((s.set LANE.RX_STATUS.ADAPT_DONE l 1).set LANE.RX_STATUS.SNR l result.snr)
  else .next s

/-- ALIGNMENT_MARKER_LOCK: a standard-mode lane locks to its markers, and its port is deskewed once every lane has
(R144). -/
def execAlignmentMarkerLock (lane : LaneNo) (s : State) : Answer :=
  let l := lane.val
  if s.laneStandard l then
    let s := s.modLane l fun v => { v with markerLock := true }
    match s.laneOwner l with
    | none => .next s
    | some x =>
      let s := if (s.lanesOf x).all fun m => (s.lane m).markerLock then s.set PORT.STATUS.DESKEW_OK x 1 else s
      .next (s.refreshClear x)
  else .next s

/-- CHECK_SYNC: the raw test-mode checker of a lane synchronises to its pattern, and counts the bit errors it has found
since. In L425 it does so once SLIP has set the pair boundary (R134). -/
def execCheckSync (run : CheckRun) (s : State) : Answer :=
  let l := run.lane.val
  if !s.flag LANE.TEST.CHECK_EN l then .next s
  else if s.flag LANE.TEST.CHECK_SYNC l then .next (s.addSat LANE.TEST.ERRORS l run.errors)
  else if s.laneL425 l && ((s.lane l).pos + run.phase.val) % 2 == 1 then .next s
  else .next (s.set LANE.TEST.CHECK_SYNC l 1)

end Sys2Proof.Machine
end

