-- ==== Sys2Proof/Machine/Mac.lean ====
section
/-!
DEFINITION. The receive side of a port (chapters 1 and 4): the ingress elastic FIFO and its pauses (R44 to R50), the
checks of received frames (R146), their priority and stamp (R147, R158), and priority flow control (R151 to R157).
-/

namespace Sys2Proof.Machine

/-! ## The ingress elastic FIFO (R45 to R49) -/

/-- Bytes of an ingress elastic FIFO. -/
def ififoBytes : Nat := 1048576

/-- XOFF_LEVEL and XON_LEVEL of a pipe in bytes, within their limits. -/
def State.xoffLevel (s : State) (p : Nat) : Nat := clampN 64 960 (s.get PIPE.IFIFO_CFG.XOFF_LEVEL p) * 1024
def State.xonLevel (s : State) (p : Nat) : Nat :=
  let on := s.get PIPE.IFIFO_CFG.XON_LEVEL p * 1024
  if on < s.xoffLevel p then on else s.xoffLevel p - 65536

/-- Sets the bytes of a FIFO and what its status shows. -/
def State.setFill (s : State) (p n : Nat) : State :=
  let s := s.modPipe p fun v => { v with fill := n }
  let k := (n + 1023) / 1024
  let s := s.set PIPE.IFIFO_STATUS.FILL p k
  if s.get PIPE.IFIFO_STATUS.HIGH_WATER p < k then s.set PIPE.IFIFO_STATUS.HIGH_WATER p k else s

/-- Bytes that are neither filled nor reserved (R47). -/
def State.ififoSpace (s : State) (p : Nat) : Nat :=
  ififoBytes - ((s.pipe p).fill + ((s.pipe p).reserved.map Prod.snd).sum)

/-- The ports that begin in a pipe's lane range (R185). -/
def State.pipePorts (s : State) (p : Nat) : List Nat := (s.image.ports.map (·.port)).filter fun x => portPipe x == p

/-- IFIFO_XOFF: the fill has reached XOFF_LEVEL (R45). -/
def execIfifoXoff (pipe : PipeNo) (s : State) : Answer :=
  let p := pipe.val
  if decide (s.xoffLevel p ≤ (s.pipe p).fill) && !s.flag PIPE.IFIFO_STATUS.XOFF_ACTIVE p then
    let s := s.set PIPE.IFIFO_STATUS.XOFF_ACTIVE p 1
    let s := s.addSat PIPE.IFIFO_STATUS.EPISODES p 1
    .next (if s.flag PIPE.IFIFO_CFG.INT_EN p then s.raise PIPE.INT_CAUSE.IFIFO else s)
  else .next s

/-- IFIFO_XON: the fill has fallen below XON_LEVEL (R48). -/
def execIfifoXon (pipe : PipeNo) (s : State) : Answer :=
  let p := pipe.val
  if s.flag PIPE.IFIFO_STATUS.XOFF_ACTIVE p && decide ((s.pipe p).fill < s.xonLevel p) then
    .next (s.set PIPE.IFIFO_STATUS.XOFF_ACTIVE p 0)
  else .next s

/-! ## Priority and stamp of a received frame (R147, R158, R159) -/

/-- A byte of a frame, 0 past its end. -/
def byteAt (bs : List Byte) (i : Nat) : Nat := ((bs[i]?).getD 0).toNat

/-- Two bytes of a frame in transmission order. -/
def be16 (bs : List Byte) (i : Nat) : Nat := byteAt bs i * 256 + byteAt bs (i + 1)

/-- Ethertypes of 802.1Q tags. -/
def isTag (t : Nat) : Bool := t == 0x8100 || t == 0x88A8

/-- The DSCP of an IPv4 or IPv6 header that follows the Ethernet header. -/
def dscpOf (bs : List Byte) : Option Nat :=
  let t := be16 bs 12
  if t == 0x0800 && byteAt bs 14 / 16 == 4 && decide (34 ≤ bs.length) then some (byteAt bs 15 / 4)
  else if t == 0x86DD && byteAt bs 14 / 16 == 6 && decide (54 ≤ bs.length) then
    some ((byteAt bs 14 % 16 * 16 + byteAt bs 15 / 16) / 4)
  else none

/-- The entry of PORT.DSCP_MAP for a DSCP. -/
def State.dscpPrio (s : State) (x d : Nat) : Nat := bitsOf (rfGet s.regs .PORT_DSCP_MAP (x * 4 + d / 16)) (4 * (d % 16)) 3

/-- The PFC priority of a received frame (R147). -/
def State.framePrio (s : State) (x : Nat) (bs : List Byte) : Nat :=
  if isTag (be16 bs 12) then byteAt bs 14 / 32
  else if s.flag PORT.PFC_CFG.DSCP_MAP_EN x then
    match dscpOf bs with
    | some d => s.dscpPrio x d
    | none => s.get PORT.PFC_CFG.DEFAULT_PRIO x
  else s.get PORT.PFC_CFG.DEFAULT_PRIO x

/-- Picoseconds, signed in 16 bits, in units of 2^-16 ns. -/
def psStamp (v : Nat) : Int := signedOf 16 v * 65536 / 1000

/-- A stamp rounded down to the resolution of 0.125 ns (R158). -/
def stampRound (t : Int) : Int := t / 8192 * 8192

/-- The ingress stamp of a frame whose first byte reaches its FIFO now, `phase` eighths of a nanosecond after the
tick: the fixed 110 ns of the ingress side are removed and RX_CORR_PS is added (R158, R159). -/
def State.rxStamp (s : State) (x : Nat) (phase : Nat) : Int :=
  stampRound ((s.netTime + (phase : Int) * (2 ^ 52 + s.tim.rate) / 4) / 2 ^ 37 - s.get PORT.TS_INFO.RX_FIXED_PS x * 65536 / 1000 +
    psStamp (s.get PORT.TS_CFG.RX_CORR_PS x))

/-! ## Frames received (R47, R146) -/

/-- A port takes frames from the wire. -/
def State.portUp (s : State) (x : Nat) : Bool := s.portExists x && s.flag PORT.STATUS.LINK_UP x

/-- A frame that its FIFO refuses: dropped whole with CADENCE_DEFICIT (R49). -/
def State.refuseRx (s : State) (x p : Nat) (lossless : Bool) (bytes : List Byte) : State :=
  let s := s.addSat (if lossless then PIPE.IFIFO_DROPS.LOSSLESS_DROPS else PIPE.IFIFO_DROPS.LOSSY_DROPS) p 1
  let s := s.countDropOf x (s.portTroupe x) dropCadence none bytes
  s.modPort x fun v => { v with rxRefused := true, rxBytes := bytes }

/-- RX_FRAME_START: a frame's first byte reaches the ingress elastic FIFO, which admits it with a reservation of
MAX_FRAME or refuses it whole (R45, R47, R49). `bytes` is the frame from its destination address to its FCS, and
`arrived` how much of it the FIFO holds when the command has run. MAC control frames never enter (R155). -/
def execRxFrameStart (port : PortNo) (bytes : List Byte) (arrived : Nat) (phase : Fin 4) (s : State) : Answer :=
  let x := port.val
  let p := portPipe x
  if !s.portUp x || (s.port x).rx.isSome || (s.port x).rxRefused || be16 bytes 12 == 0x8808 then .next s
  else
    let prio := s.framePrio x bytes
    let lossless := s.lossless x prio
    let full := decide (s.ififoSpace p < s.maxFrame x)
    let s := if full then s.set PIPE.IFIFO_STATUS.FULL_SEEN p 1 else s
    let tail := s.flag PIPE.IFIFO_STATUS.XOFF_ACTIVE p && s.flag PIPE.IFIFO_CFG.LOSSY_DROP_EN p && !lossless
    if full || tail then .next (s.refuseRx x p lossless bytes)
    else
      let k := s.sw.nextPacket
      let held := min arrived (min bytes.length (s.maxFrame x))
      let pkt : Packet :=
        { port := x, pipe := p, troupe := s.portTroupe x, prio := prio, head := bytes.take 256,
          body := bytes.drop 256, len := bytes.length, arrived := held, stamp := s.rxStamp x phase, raw := 4 * s.now + phase,
          unlocked := !s.ready rdyTime, inFifo := held }
      let s := { s with sw := { s.sw with nextPacket := k + 1 } }
      let s := s.putPacket k pkt
      let s := s.modPort x fun v => { v with rx := some k, rxBytes := bytes }
      let s := s.modPipe p fun v => { v with
        fifo := v.fifo ++ [k]
        reserved := tabPut v.reserved k (s.maxFrame x - held) }
      .next (s.setFill p ((s.pipe p).fill + held))

/-- The first row of R146 that applies to a frame with the bytes received: its counter and its drop reason. The FCS is
checked over them (R145). -/
def rxCheck (e : RxEnd) (got : List Byte) (maxFrame : Nat) : Option (Nat × Nat) :=
  if e.pcsError then some (cntRxPcsErr, dropPcsError)
  else if e.lost then some (cntRxTruncated, dropTruncated)
  else if maxFrame < got.length then some (cntRxTooLong, dropTooLong)
  else if got.length < 64 then some (cntRxTooShort, dropTooShort)
  else match fcsCheck got with
    | .good => none
    | .stomped => some (cntRxStomped, dropStomped)
    | .wrong => some (cntRxFcsErr, dropFcs)

/-- More of a packet has arrived: its bytes enter the FIFO against its reservation, or those of a resubmitted packet the
segment assembler (R213, R215). -/
def State.arrive (s : State) (k n : Nat) : State :=
  match s.packet k with
  | none => s
  | some v =>
    if v.whole || v.injected || decide (n ≤ v.arrived) then s
    else
      let more := min n v.len - v.arrived
      let held := if v.md.passes = 0 then more else 0
      let s := s.putPacket k { v with arrived := v.arrived + more, inFifo := v.inFifo + held }
      let s := s.modPipe v.pipe fun q => { q with
        reserved := tabMod 0 q.reserved k fun r => r - more }
      s.setFill v.pipe ((s.pipe v.pipe).fill + held)

/-- Bytes of a packet leave the FIFO. -/
def State.leaveFifo (s : State) (k n : Nat) : State :=
  match s.packet k with
  | none => s
  | some v =>
    let m := min n v.inFifo
    let s := s.putPacket k { v with inFifo := v.inFifo - m }
    if m = 0 then s else s.setFill v.pipe ((s.pipe v.pipe).fill - m)

/-- A packet that is gone: the rest of its bytes leave the FIFO, and a packet received whole leaves the part, unless its bytes
are still to be added to its flow (R419) or its end still owes a debit or a count (R282, R198). -/
def State.discard (s : State) (k : Nat) : State :=
  let s := s.leaveFifo k ififoBytes
  match s.packet k with
  | none => s
  | some v =>
    if v.whole && !v.flowDue && v.lateDebits.isEmpty && v.lateCounts.isEmpty then s.delPacket k else s.putPacket k { v with place := .discard, desc := none }

/-- A frame has turned out bad: every copy of it that an egress MAC has started is to end with a stomped FCS (R149,
R150). -/
def State.stompCopies (s : State) (k : Nat) : State :=
  (s.sw.flights.filter fun f => f.2.packet == k && f.2.started).foldl
    (fun s f => s.modFlight f.1 fun v => { v with stomp := true }) s

/-- The bytes of a frame that have been received at its end: all, or those before the loss of link. -/
def State.rxGot (s : State) (x : Nat) (e : RxEnd) : List Byte :=
  if e.lost then (s.port x).rxBytes.take e.length else (s.port x).rxBytes

/-- The end of a received frame: its checks, its counters, and the release of its reservation (R47, R146, R150). -/
def State.rxEnd (s : State) (x : Nat) (e : RxEnd) : State :=
  let mf := s.maxFrame x
  let got := s.rxGot x e
  let row := rxCheck e got mf
  let s := match row with
    | some (cnt, _) => s.portCount x cnt 1
    | none => (s.portCount x cntRxFrames 1).portCount x cntRxBytes got.length
  let s := s.spend 10 (pipeDie (portPipe x)) (some (s.portTroupe x)) (some x) none (words64 got.length)
  let s := s.modPort x fun v => { v with rxBytes := [] }
  if (s.port x).rxRefused then s.modPort x fun v => { v with rxRefused := false }
  else match (s.port x).rx with
    | none => s
    | some k =>
      let s := s.modPort x fun v => { v with rx := none }
      let total := min got.length mf
      let s := s.arrive k total
      let s := s.modPipe (portPipe x) fun v => { v with reserved := tabDel v.reserved k }
      let s := s.modPacket k fun v => { v with
        head := if v.place == .ififo then v.head.take total else v.head
        body := v.body.take (total - 256)
        len := total
        arrived := total
        whole := true
        bad := row.map Prod.snd }
      let s := match row with
        | some (_, reason) => (s.dropPacket k reason).stompCopies k
        | none => s
      match s.packet k with
      | none => s
      | some v => if v.place == .discard then s.discard k else s

/-- RX_FRAME_END: a frame that is being received ends (R146). -/
def execRxFrameEnd (port : PortNo) (e : RxEnd) (s : State) : Answer :=
  let x := port.val
  if (s.port x).rx.isSome || (s.port x).rxRefused then .next (s.rxEnd x e) else .next s

/-! ## Priority flow control (R50, R151 to R157) -/

/-- The priorities that a port must hold paused toward its partner (R45, R50, R293). -/
def State.pfcWants (s : State) (x : Nat) : Nat :=
  let fifo := if s.flag PIPE.IFIFO_STATUS.XOFF_ACTIVE (portPipe x) then 255 else 0
  (fifo ||| s.get CELL.PP_STATUS.XOFF_ADM x) &&& s.get PORT.PFC_CFG.LOSSLESS x

/-- The priorities that the next PFC frame names: those whose pause must change, and those due for a refresh. -/
def State.pfcPending (s : State) (x : Nat) : Nat :=
  (s.pfcWants x ^^^ s.get PORT.PFC_STATUS.TX_PAUSING x) ||| ((s.port x).refreshDue &&& s.pfcWants x)

/-- QUANTA, 0 treated as 1; REFRESH_QUANTA within its limits. -/
def State.quanta (s : State) (x : Nat) : Nat := max 1 (s.get PORT.PFC_CFG.QUANTA x)
def State.refreshQuanta (s : State) (x : Nat) : Nat :=
  let r := s.get PORT.PFC_CFG.REFRESH_QUANTA x
  if r = 0 || decide (s.quanta x ≤ r) then max 1 (s.quanta x / 2) else r

/-- Quanta of 512 bit times of a port in ticks, rounded down. -/
def State.quantaTicks (s : State) (x q : Nat) : Nat :=
  let r := rateMbps (s.rateCode x)
  if r = 0 then 0 else q * 1024000 / r

/-- A port's lanes are in electrical idle. -/
def State.portIdle (s : State) (x : Nat) : Bool := s.flag LANE.IDLE_STATUS.TX_IDLE x

/-- A PFC frame waits for the next frame boundary of a port (R151 to R153, R163). -/
def State.pfcReady (s : State) (x : Nat) : Bool := s.flag PORT.PFC_CFG.TX_EN x && s.pfcPending x != 0

/-- A PFC frame (IEEE 802.1Qbb, R151): destination 01-80-C2-00-00-01, the port's source address, Ethertype 0x8808, opcode
0x0101, the class-enable vector and eight times, padded to 60 bytes, and the FCS. -/
def pfcFrame (sa enable : Nat) (times : List Nat) : List Byte :=
  let bs := padTo 60 ([0x01, 0x80, 0xC2, 0x00, 0x00, 0x01] ++ leBytes sa 6 ++ beBytes 0x8808 2 ++ beBytes 0x0101 2 ++
    beBytes enable 2 ++ times.flatMap fun t => beBytes t 2)
  bs ++ fcsOf bs

/-- PFC_FRAME_TX: at a frame boundary a port with TX_EN sends one frame that carries every pending change (R151 to
R153). -/
def execPfcFrameTx (port : PortNo) (s : State) : Answer :=
  let x := port.val
  let pend := s.pfcPending x
  if s.portUp x && s.pfcReady x && (s.port x).sending.isNone && !s.portIdle x then
    let wants := s.pfcWants x
    let xoff := fun p => natBit pend p && natBit wants p
    let times := (List.range 8).map fun p => if xoff p then s.quanta x else 0
    let s := s.sendFrame x (pfcFrame (s.get PORT.SA.ADDR x) pend times)
    let s := s.set PORT.PFC_STATUS.TX_PAUSING x wants
    let s := s.modPort x fun v => { v with
      refreshDue := 0
      lastTx := s.now
      lastXoff := (List.range 8).foldl (fun t p => if xoff p then tabPut t p s.now else t) v.lastXoff }
    .next (s.portCount x cntTxPfc 1)
  else .next s

/-- PFC_REFRESH: REFRESH_QUANTA have passed since the last XOFF of a priority whose pause is still called for, and
the XOFF is due again (R152). -/
def execPfcRefresh (port : PortNo) (prio : Fin 8) (s : State) : Answer :=
  let x := port.val
  let due := tabGet 0 (s.port x).lastXoff prio + s.quantaTicks x (s.refreshQuanta x)
  if natBit (s.pfcWants x) prio && natBit (s.get PORT.PFC_STATUS.TX_PAUSING x) prio && decide (due ≤ s.now) then
    .next (s.modPort x fun v => { v with refreshDue := natSetBit v.refreshDue prio true })
  else .next s

/-- A partner's pause of one priority ends. -/
def State.unpause (s : State) (x p : Nat) : State :=
  let s := s.set PORT.PFC_STATUS.RX_PAUSED x (natSetBit (s.get PORT.PFC_STATUS.RX_PAUSED x) p false)
  s.modPort x fun v => { v with
    pauseFrom := tabDel v.pauseFrom p, pauseUntil := tabDel v.pauseUntil p, pausedSince := tabDel v.pausedSince p }

/-- A partner's pause of one priority starts or is replaced: it acts from 100 ns after the frame (R154). -/
def State.pause (s : State) (x p ticks : Nat) : State :=
  let was := natBit (s.get PORT.PFC_STATUS.RX_PAUSED x) p
  let s := s.set PORT.PFC_STATUS.RX_PAUSED x (natSetBit (s.get PORT.PFC_STATUS.RX_PAUSED x) p true)
  s.modPort x fun v => { v with
    pauseFrom := if was then v.pauseFrom else tabPut v.pauseFrom p (s.now + 200)
    pauseUntil := tabPut v.pauseUntil p (s.now + ticks)
    pausedSince := if was then v.pausedSince else tabPut v.pausedSince p s.now }

/-- PFC_RX: a PFC frame is received; with RX_EN it starts or releases the timers of its enabled priorities, and
without it is ignored (R154, R155). -/
def execPfcRx (port : PortNo) (enable : BitVec 8) (times : List Nat) (s : State) : Answer :=
  let x := port.val
  if !s.portUp x then .next s
  else if !s.flag PORT.PFC_CFG.RX_EN x then .next (s.portCount x cntRxIgnored 1)
  else
    let s := s.portCount x cntRxPfc 1
    .next ((List.range 8).foldl (fun s p =>
      if !natBit enable.toNat p then s
      else
        let q := (times[p]?).getD 0
        if q = 0 then s.unpause x p else s.pause x p (s.quantaTicks x q)) s)

/-- PAUSE_TIMER_EXPIRY: a partner's pause timer has run out (R154). -/
def execPauseTimerExpiry (port : PortNo) (prio : Fin 8) (s : State) : Answer :=
  match tabFind (s.port port).pauseUntil prio with
  | none => .next s
  | some t => if t ≤ s.now then .next (s.unpause port prio) else .next s

/-- MAC_CONTROL_IGNORED: a MAC control frame that has no effect is counted and discarded (R155). -/
def execMacControlIgnored (port : PortNo) (s : State) : Answer :=
  if s.portUp port then .next (s.portCount port cntRxIgnored 1) else .next s

/-- PFC_WATCHDOG: the partner has paused a priority for longer than WD_MS (R156). -/
def execPfcWatchdog (port : PortNo) (prio : Fin 8) (s : State) : Answer :=
  let x := port.val
  let wd := s.get PORT.PFC_CFG.WD_MS x
  match tabFind (s.port x).pausedSince prio with
  | none => .next s
  | some t =>
    if wd != 0 && decide (t + wd * msTicks < s.now) then
      let s := s.set PORT.PFC_STATUS.WD_PRIOS x (natSetBit (s.get PORT.PFC_STATUS.WD_PRIOS x) prio true)
      .next (s.portEvent PORT.EVENT.PFC_WD x)
    else .next s

end Sys2Proof.Machine
end

