-- ==== Sys2Proof/Machine/Ports.lean ====
section
/-!
DEFINITION. The state of a port's link (chapter 4, R161 to R164), its faults, and the electrical idle of its lanes
(R135 to R139).
-/

namespace Sys2Proof.Machine

/-! ## Faults (R161) -/

/-- A fault condition begins on a lane of port x, or on the port (R161). -/
def State.faultLane (s : State) (x l : Nat) : FaultKind → State
  | .lossOfSignal => s.set LANE.RX_STATUS.SIGNAL l 0
  | .cdrLock => s.set LANE.RX_STATUS.CDR_LOCK l 0
  | .codewordLock => (s.set LANE.ALIGN_STATUS.DATA l 0).modLane l fun v => { v with markerLock := false }
  | .deskew => s.set PORT.STATUS.DESKEW_OK x 0
  | .alignLost => s.setAlignLost l
  | .highError => s.modLane l fun v => { v with highError := true }
  | .remote => s.modPort x fun p => { p with remote := true }

/-- A fault condition of a lane or of its port ends (R161). Codewords and markers come back with their own locks, and
ALIGN_LOST when software clears it. -/
def State.healLane (s : State) (x l : Nat) : FaultKind → State
  | .lossOfSignal => s.set LANE.RX_STATUS.SIGNAL l 1
  | .cdrLock => s.set LANE.RX_STATUS.CDR_LOCK l 1
  | .deskew => s.set PORT.STATUS.DESKEW_OK x 1
  | .highError => s.modLane l fun v => { v with highError := false }
  | .remote => s.modPort x fun p => { p with remote := false }
  | .codewordLock => s
  | .alignLost => s

/-- PORT_FAULT: a local fault of a lane's port, or a remote fault, begins. Loss of signal after LPI codewords is
notified idle and no fault (R137); SIGNAL stays as it was, which the spec leaves open (DESIGN CHOICE, log entry 88). -/
def execPortFault (lane : LaneNo) (kind : FaultKind) (s : State) : Answer :=
  let l := lane.val
  match s.laneOwner l with
  | none => .next s
  | some x =>
    if kind == .lossOfSignal && (s.lane l).lpiSeen then
      let s := s.set LANE.IDLE_STATUS.RX_IDLE l 1
      let s := s.modLane l fun v => { v with burstAt := s.now }
      .next ((s.refreshRxIdle x).refreshClear x)
    else .next ((s.faultLane x l kind).refreshClear x)

/-- PORT_FAULT_END: a fault of a lane's port ends, and the fault-free time starts once no lane has one. -/
def execPortFaultEnd (lane : LaneNo) (kind : FaultKind) (s : State) : Answer :=
  match s.laneOwner lane with
  | none => .next s
  | some x => .next ((s.healLane x lane kind).refreshClear x)

/-! ## Link down and up (R162 to R164) -/

/-- A flight leaves the part: its entry, its bytes in flight, and its copy (R323). -/
def State.endFlight (s : State) (k : Nat) : State :=
  match s.flight k with
  | none => s
  | some f =>
    let s := { s with sw := { s.sw with flights := tabDel s.sw.flights k } }
    let s := s.modPort f.port fun p => { p with
      efifo := p.efifo.filter fun j => j != k
      sending := if p.sending == some k then none else p.sending
      flight := p.flight - f.charge }
    s.copyDone f.desc f.copy true

/-- The frame being sent is cut off without an FCS (R162). -/
def State.abortTx (s : State) (x : Nat) : State :=
  match (s.port x).sending with
  | none => s
  | some k =>
    let s := match s.flight k with
      | some f => s.emit (.aborted x f.head)
      | none => s
    (s.portCount x cntTxAborted 1).endFlight k

/-- A port goes down: what it sends and receives ends, the partner's pauses are forgotten, and the queue manager
holds its queues (R162). -/
def State.portDown (s : State) (x : Nat) : State :=
  let s := s.abortTx x
  let s := if (s.port x).rx.isSome || (s.port x).rxRefused then
      let got := match (s.port x).rx with
        | some k => ((s.packet k).map (·.arrived)).getD 0
        | none => 0
      s.rxEnd x { pcsError := false, lost := true, length := got }
    else s
  let s := (List.range 8).foldl (fun s p => s.unpause x p) s
  let s := s.holdStart x
  if !s.flag PORT.STATUS.LINK_UP x then s
  else
    let s := s.set PORT.STATUS.LINK_UP x 0
    let s := s.set PORT.STATUS.LINK_DOWN_SEEN x 1
    let s := s.addSat PORT.STATUS.FLAPS x 1
    let s := s.portEvent PORT.EVENT.LINK_DOWN x
    let (kind, s) := s.draw
    s.recordLimited 0 0x0801 (0x080100000 + x) 1 secTicks (leBytes x 2 ++ leBytes kind 1)

/-- LINK_DOWN: a fault has lasted DOWN_DEBOUNCE_US (R161, R162). -/
def execLinkDown (port : PortNo) (s : State) : Answer :=
  let x := port.val
  match (s.port x).faultSince with
  | none => .next s
  | some t =>
    if s.portUp x && decide (t + s.get PORT.CFG.DOWN_DEBOUNCE_US x * usTicks ≤ s.now) then .next (s.portDown x)
    else .next s

/-- The cage of a port's octet holds a module. -/
def State.hasModule (s : State) (x : Nat) : Bool := 
  s.get MOD.CAGE_STATUS.STATE (x / 8) != 0 || (tabGet {} s.mod.cages (x / 8)).present

/-- A port's link may come up: it is enabled, its rim die is ready, it has been free of faults for UP_DEBOUNCE_US,
and a cage with a module has MOD for the first time (R118, R161, R164). -/
def State.mayComeUp (s : State) (x : Nat) : Bool :=
  s.portExists x && s.flag PORT.CFG.ENABLE x && !s.flag PORT.STATUS.LINK_UP x && s.ready (rdyRim (x / 128)) &&
    (match (s.port x).clearSince with
      | none => false
      | some t => decide (t + s.get PORT.CFG.UP_DEBOUNCE_US x * usTicks ≤ s.now)) &&
    ((s.port x).firstUpDone || s.ready rdyMod || !s.hasModule x)

/-- LINK_UP: a port's link comes up; every pause still called for is sent first (R163, R164). -/
def execLinkUp (port : PortNo) (s : State) : Answer :=
  let x := port.val
  if !s.mayComeUp x then .next s
  else
    let s := s.set PORT.STATUS.LINK_UP x 1
    let s := s.set PORT.STATUS.LINK_UP_SEEN x 1
    let s := s.set PORT.STATUS.READY x 1
    let s := s.set PORT.PFC_STATUS.TX_PAUSING x 0
    let s := s.modPort x fun p => { p with firstUpDone := true, lastTx := s.now, refreshDue := 0 }
    .next ((s.queuesUp x).portEvent PORT.EVENT.LINK_UP x)

/-- The fields of PORT.CFG but ENABLE, from a write. -/
def State.writePortCfg (s : State) (x : Nat) (value : Word) : State :=
  let s := s.set PORT.CFG.MAX_FRAME x (bitsOf value 8 14)
  let s := s.set PORT.CFG.DOWN_DEBOUNCE_US x (bitsOf value 32 16)
  s.set PORT.CFG.UP_DEBOUNCE_US x (bitsOf value 48 16)

/-- A port takes PORT.CFG with ENABLE = 1 (R164). -/
def State.enablePort (s : State) (x : Nat) (value : Word) : State :=
  let s := s.writePortCfg x value
  if s.flag PORT.CFG.ENABLE x then s
  else (s.set PORT.CFG.ENABLE x 1).modPort x fun p => { p with firstUpDone := false }

/-- A port takes PORT.CFG with ENABLE = 0: it goes down and is not ready (R162, R164). -/
def State.disablePort (s : State) (x : Nat) (value : Word) : State :=
  (((s.writePortCfg x value).set PORT.CFG.ENABLE x 0).set PORT.STATUS.READY x 0).portDown x

/-- PORT_ENABLE: a write of PORT.CFG with ENABLE = 1; the other fields are those of `value` (R164). -/
def execPortEnable (port : PortNo) (value : Word) (s : State) : Answer :=
  if !s.hostReach 0 false then .next s else
  let x := port.val
  .next (if s.portExists x then s.enablePort x value else s)

/-- PORT_DISABLE: a write of PORT.CFG with ENABLE = 0; the port goes down and is not ready (R162, R164). -/
def execPortDisable (port : PortNo) (value : Word) (s : State) : Answer :=
  if !s.hostReach 0 false then .next s else
  let x := port.val
  .next (if s.portExists x then s.disablePort x value else s)

/-! ## Electrical idle (R135 to R139) -/

/-- The first lane's idle settings, within their limits. -/
def State.entryNs (s : State) (x : Nat) : Nat := max 100 (s.get LANE.IDLE_CFG.ENTRY_NS x)
def State.refreshUs (s : State) (l : Nat) : Nat := max 10 (s.get LANE.IDLE_CFG.REFRESH_US l)
def State.relockCw (s : State) (x : Nat) : Nat := clampN 4 12 (s.get LANE.IDLE_CFG.RELOCK_CW x)

/-- A frame or a PFC frame is ready at a port. -/
def State.portHasWork (s : State) (x : Nat) : Bool :=
  !(s.port x).efifo.isEmpty || (s.port x).sending.isSome || s.pfcReady x

/-- The cadence mode is Freewheel (R474). -/
def State.freewheel (s : State) : Bool := s.get PACE.CADENCE_SET.MODE 0 == 3

/-- Ticks of four codewords of 12.8 ns, rounded up. -/
def lpiTicks : Nat := 103

/-- The conditions of R135, from ENTRY_NS before the four LPI codewords to their end: a frame that becomes ready before
then keeps the port from idle (R136). -/
def State.mayIdle (s : State) (x : Nat) : Bool :=
  let ls := s.lanesOf x
  s.freewheel && s.portUp x && ls.all (fun l => s.laneL425 l && s.flag LANE.IDLE_CFG.IDLE_EN l && (s.lane l).tx == .data) &&
    !(List.range 16).any (fun g => s.windowed (16 * x + g)) && !s.portHasWork x &&
    decide ((s.port x).lastTx + 2 * s.entryNs x + lpiTicks ≤ s.now)

/-- IDLE_ENTRY: an eligible port has sent four LPI codewords and stops driving at their end (R135, R136). -/
def execIdleEntry (port : PortNo) (s : State) : Answer :=
  let x := port.val
  if !s.mayIdle x then .next s
  else
    let s := (s.lanesOf x).foldl (fun s l =>
      (s.set LANE.IDLE_STATUS.TX_IDLE l 1).modLane l fun v => { v with tx := .idle }) s
    .next ((s.modPort x fun p => { p with lastRefresh := s.now }).emit (.lpi x))

/-- Every lane of a port sends a burst: one period of TP6 with S.WAKE and S.RX_ALIGNED (R137, R138). -/
def State.burst (s : State) (x : Nat) : State := (s.lanesOf x).foldl (fun s l => s.sendTp6 l true) s

/-- IDLE_REFRESH: an idle transmitter sends a burst, relock codewords and LPI codewords every REFRESH_US (R137). Lanes that
are in idle when Freewheel is left, or when a class group of the port becomes windowed, are not woken for it and go on so
until a frame is ready: R60 says only when lanes may enter idle (DESIGN CHOICE, log entry 86). -/
def execIdleRefresh (port : PortNo) (s : State) : Answer :=
  let x := port.val
  if s.portIdle x && decide ((s.port x).lastRefresh + s.refreshUs x * usTicks ≤ s.now) then
    .next (((s.modPort x fun p => { p with lastRefresh := s.now }).burst x).emit (.refresh x (s.relockCw x)))
  else .next s

/-- IDLE_REFRESH_TIMEOUT: a receiver in notified idle has seen no burst for 4 × REFRESH_US and declares a local
fault (R137). -/
def execIdleRefreshTimeout (lane : LaneNo) (s : State) : Answer :=
  let l := lane.val
  if s.flag LANE.IDLE_STATUS.RX_IDLE l && decide ((s.lane l).burstAt + 4 * s.refreshUs l * usTicks ≤ s.now) then
    let s := s.set LANE.IDLE_STATUS.RX_IDLE l 0
    let s := s.modLane l fun v => { v with lpiSeen := false }
    let s := s.set LANE.RX_STATUS.SIGNAL l 0
    match s.laneOwner l with
    | none => .next s
    | some x => .next ((s.refreshRxIdle x).refreshClear x)
  else .next s

/-- The lanes of an idle port send a wake burst, relock codewords and then data (R138). -/
def State.wakePort (s : State) (x : Nat) : State :=
  let s := (s.lanesOf x).foldl (fun s l =>
    let s := s.set LANE.IDLE_STATUS.TX_IDLE l 0
    (s.addSat LANE.IDLE_STATUS.WAKES l 1).modLane l fun v => { v with tx := .data }) s
  (s.burst x).emit (.wake x (s.relockCw x))

/-- WAKE: a frame or PFC frame is ready at an idle port (R138). -/
def execWake (port : PortNo) (s : State) : Answer :=
  let x := port.val
  .next (if s.portIdle x && s.portHasWork x then s.wakePort x else s)

/-- WAKE_BURST_RX: a receiver in notified idle sees a burst and finds the marker, or sets ALIGN_LOST (R138). -/
def execWakeBurstRx (lane : LaneNo) (found : Bool) (s : State) : Answer :=
  let l := lane.val
  if !s.flag LANE.IDLE_STATUS.RX_IDLE l then .next s
  else
    let s := s.set LANE.IDLE_STATUS.RX_IDLE l 0
    let s := s.modLane l fun v => { v with burstAt := s.now, lpiSeen := false, goodRun := 0, badRun := 0 }
    let s := match s.laneOwner l with
      | some x => s.refreshRxIdle x
      | none => s
    if found then .next (s.refreshLanePort l) else .next (s.setAlignLost l)

end Sys2Proof.Machine
end

