-- ==== Sys2Proof/Machine/Pipes.lean ====
section
/-!
DEFINITION. Wavefronts in the pipes (chapters 1 and 6): launch, parser, stages, the ends of the ingress and egress
pipes with the auxiliary entry, and the depth map.
-/

namespace Sys2Proof.Machine

/-! ## Wavefronts (R36 to R39, R186) -/

/-- The position of the deparser in a pipe: after the parser and 32 or 16 stages. -/
def lastPos (p : Nat) : Nat := if p < 16 then 33 else 17

/-- A position of a pipe holds no wavefront. -/
def State.posFree (s : State) (p pos : Nat) : Bool := !(s.pipe p).waves.any fun w => w.pos == pos

/-- The wavefront at a position of a pipe. -/
def State.waveAt (s : State) (p pos : Nat) : Option Wave := (s.pipe p).waves.find? fun w => w.pos == pos

/-- The wavefront at a position moves on. -/
def State.advance (s : State) (p pos : Nat) : State :=
  s.modPipe p fun v => { v with waves := v.waves.map fun w => if w.pos = pos then { w with pos := pos + 1 } else w }

/-- A head of a wavefront as a packet: in an egress pipe, the flight's own head and metadata. -/
def State.headOf (s : State) (p k : Nat) : Option Packet :=
  if p < 16 then s.packet k
  else match s.flight k with
    | none => none
    | some f => (s.packet f.packet).map fun v => { v with head := f.head, md := f.md, epoch := f.epoch }

/-- Puts a head back, with what its frame's end still owes. -/
def State.putHead (s : State) (p k : Nat) (v : Packet) : State :=
  if p < 16 then s.putPacket k v
  else match s.flight k with
    | none => s
    | some f =>
      (s.putFlight k { f with head := v.head, md := v.md }).modPacket f.packet fun u => { u with lateCounts := v.lateCounts }

/-- Applies a function to each head of a wavefront in order. -/
def State.eachHead (s : State) (p : Nat) (w : Wave) (f : State → Packet → State × Packet) : State :=
  w.heads.foldl (fun s k =>
    match s.headOf p k with
    | none => s
    | some v =>
      let (s', v') := f s v
      s'.putHead p k v') s

/-! ## Launch (R37, R39, R86, R196, R214) -/

/-- AUX_HEAD_TAKE: the credits of one wavefront and the heads it takes from the auxiliary entry (R214). -/
def State.auxTake (s : State) (p : Nat) : List Nat × State :=
  let share := clampN 1 64 (s.get PIPE.IP_CTRL.AUX_SHARE p)
  let credits := min 512 ((s.pipe p).credits + 8 * share)
  let heads := (s.pipe p).aux.take (min 8 (credits / 64))
  (heads, s.modPipe p fun v => { v with aux := v.aux.drop heads.length, credits := credits - 64 * heads.length })

/-- Bytes that a packet takes in the auxiliary entry: a resubmitted head with its metadata, or a whole frame. -/
def Packet.auxSize (v : Packet) : Nat := if v.md.resubmit then v.head.length + 512 else v.head.length + v.body.length

/-- A packet is launched: an arrival takes its troupe's epoch bit, and LEN_VALID says whether it has been received
whole (R80, R196). -/
def State.launchHead (s : State) (p : Nat) (aux : Bool) (k : Nat) : State :=
  match s.packet k with
  | none => s
  | some v =>
    let size := v.auxSize
    let v := if aux then { v with md := { v.md with lenValid := v.whole, resubmit := false } }
      else { v with epoch := natBit (s.pipe p).epochs v.troupe, md := { lenValid := v.whole } }
    let s := s.putPacket k { v with place := .ingress }
    if aux then s.modPipe p fun q => { q with auxBytes := q.auxBytes - size }
    else s.leaveFifo k 256

/-- The launch of an ingress pipe. -/
def State.launchIngress (s : State) (p : Nat) : State :=
  let s := s.epochSwitch p
  let (auxHeads, s) := s.auxTake p
  let fifoHeads := s.readyHeads p (8 - auxHeads.length)
  let s := s.modPipe p fun v => { v with fifo := v.fifo.drop fifoHeads.length }
  let s := auxHeads.foldl (fun s k => s.launchHead p true k) s
  let s := fifoHeads.foldl (fun s k => s.launchHead p false k) s
  let heads := auxHeads ++ fifoHeads
  let s := s.modPipe p fun v => { v with
    tokens := v.tokens - 1
    waves := v.waves ++ [{ heads := heads, pos := 0, launchedAt := s.now, map := v.map, mapStale := v.mapStale }]
    idleSince := if heads.isEmpty then v.idleSince else s.now }
  (s.addSat PIPE.IP_COUNT.WAVEFRONTS p 1).addSat PIPE.IP_COUNT.HEADS p heads.length

/-- A copy enters its egress pipe: QUEUE_ID is its own queue, MC_COPY its place among the copies (R365), and LEN_VALID
is 1 unless its frame has not ended (R196). A copy that a session makes of a dropped packet carries no drop (R210). -/
def State.launchFlight (s : State) (k : Nat) : State :=
  match s.flight k with
  | none => s
  | some f =>
    match s.packet f.packet with
    | none => s
    | some v =>
      let mc := match f.copy.kind with
        | .multicast => f.copy.replId % 65536 + 65536 * (f.copy.copyNo % 4) + 2 ^ 31
        | _ => 0
      let m := { v.md with drop := false, dropReason := 0, queueId := some f.queue, mcValid := false, mcCopy := mc, lenValid := v.whole }
      s.putFlight k { f with head := v.head, md := m }

/-- The launch of an egress pipe: the heads that the hub has handed it (R337). -/
def State.launchEgress (s : State) (p : Nat) : State :=
  let heads := (s.pipe p).forming
  let s := heads.foldl (fun s k => s.launchFlight k) s
  let s := s.modPipe p fun v => { v with
    forming := [], picks := 0, tokens := v.tokens - 1
    waves := v.waves ++ [{ heads := heads, pos := 0, launchedAt := s.now, map := v.map, mapStale := v.mapStale }]
    idleSince := if heads.isEmpty then v.idleSince else s.now }
  (s.addSat PIPE.EP_COUNT.WAVEFRONTS (p - 16) 1).addSat PIPE.EP_COUNT.HEADS (p - 16) heads.length

/-- Wavefronts launched by a pipe in the present cadence window (R471). -/
def State.countLaunch (s : State) (p : Nat) : State := s.modPipe p fun v => { v with launches := v.launches + 1 }

/-- Heads in the wavefronts of a pipe. -/
def State.headsLaunched (s : State) (p : Nat) : Nat := ((s.pipe p).waves.map fun w => w.heads.length).sum

/-- WAVEFRONT_LAUNCH: a pipe that holds a pace token and whose first stage is free launches what is at its entry,
zero to eight heads (R36, R37). -/
def execWavefrontLaunch (pipe : AnyPipe) (s : State) : Answer :=
  let p := pipe.val
  if (s.pipe p).tokens = 0 || !s.posFree p 0 then .next s
  else
    let s := s.takePairs p
    let n := s.headsLaunched p
    let s := if p < 16 then s.launchIngress p else s.launchEgress p
    let n := s.headsLaunched p - n
    let s := s.spend (if p < 16 then 3 else 4) (pipeDie p) none none (some p) 1
    let s := if p < 16 && decide (0 < n) then
        { s with pace := { s.pace with heads := (s.now, s.netNs, n) :: s.pace.heads } }
      else s
    .next (s.countLaunch p)

/-! ## Parser and stages -/

/-- PARSER_PASS: the parser of a pipe walks the states of every head of the wavefront it holds (R192, R193). -/
def execParserPass (pipe : AnyPipe) (s : State) : Answer :=
  let p := pipe.val
  match s.waveAt p 0 with
  | none => .next s
  | some w =>
    if !s.posFree p 1 then .next s
    else
      let s := s.eachHead p w fun s v =>
        let v' := s.parse p v
        (if v'.md.parseTrunc && decide (p < 16) then s.addSat PIPE.IP_EXC.PARSE_TRUNCS p 1 else s, v')
      .next (s.advance p 0)

/-- STAGE_EXECUTE: a stage applies its program's actions to every head of its wavefront, in order (R189, R198). -/
def execStageExecute (pipe : AnyPipe) (stage : Fin 32) (s : State) : Answer :=
  let p := pipe.val
  let pos := stage.val + 1
  match s.waveAt p pos with
  | none => .next s
  | some w =>
    if lastPos p ≤ pos || !s.posFree p (pos + 1) then .next s
    else
      let s := s.eachHead p w fun s v =>
        match s.program p v with
        | none => (s, v)
        | some g => s.actAll p w v ((g.stages[stage.val]?).getD [])
      .next (s.advance p pos)

/-! ## The auxiliary entry (R213, R215) -/

/-- MAX_PASSES of a pipe for a packet. -/
def State.maxPasses (s : State) (p : Nat) (v : Packet) : Nat :=
  clampN 1 7 (s.getFor v.troupe v.epoch PIPE.IP_CTRL.MAX_PASSES p)

/-- Bytes of an auxiliary entry. -/
def auxCapacity : Nat := 65536

/-- A packet enters the auxiliary entry of a pipe for another pass: none where it may not pass again or finds the
queue full, with the reason. -/
def State.auxCheck (s : State) (p : Nat) (v : Packet) : Option Nat :=
  if s.maxPasses p v < v.md.passes + 1 then some dropRecirc
  else if auxCapacity < (s.pipe p).auxBytes + v.auxSize then some dropAuxFull
  else none

/-- Puts a packet into the auxiliary entry: it leaves the elastic FIFO, and what is still to arrive of its body waits in the
segment assembler (R213, R215). -/
def State.auxPut (s : State) (p k : Nat) (v : Packet) : State :=
  let s := s.putPacket k v
  let s := s.leaveFifo k ififoBytes
  let v := { v with inFifo := 0 }
  let s := s.putPacket k { v with place := .aux, pipe := p, md := { v.md with passes := v.md.passes + 1 } }
  s.modPipe p fun q => { q with aux := q.aux ++ [k], auxBytes := q.auxBytes + v.auxSize }

/-- What a drop at the end of an ingress pipe counts beside its reason. -/
def State.countExc (s : State) (p reason : Nat) : State :=
  if reason = dropParse then (s.addSat PIPE.IP_EXC.PARSE_REJECTS p 1).raise PIPE.INT_CAUSE.PARSE_REJECT
  else if reason = dropAuxFull then (s.addSat PIPE.IP_EXC.AUX_DROPS p 1).raise PIPE.INT_CAUSE.AUX_DROP
  else if reason = dropBounds then (s.addSat PIPE.IP_EXC.BOUNDS_DROPS p 1).raise PIPE.INT_CAUSE.BOUNDS
  else s

/-! ## The end of the ingress pipe (R199 to R201) -/

/-- A troupe owns a mirror session. -/
def State.mirrorOwned (s : State) (n session : Nat) : Bool := tabFind s.image.mirrorOwner session == some n

/-- The reason for which the device drops a packet that its program has not dropped: its destination lies outside its
troupe, or it has none (R201, R335, R525). -/
def State.boundsCheck (s : State) (v : Packet) : Option Nat :=
  let m := v.md
  if m.toCpu then
    match m.queueId with
    | some q => if tabFind s.image.rxOwner (q % 512) == some v.troupe then none else some dropBounds
    | none => some dropNoDest
  else if m.mcValid then (if tabFind s.image.mcOwner m.mcGroup == some v.troupe then none else some dropBounds)
  else match m.queueId with
    | some q => if s.queueTroupe q == some v.troupe then none else some dropBounds
    | none => some dropNoDest

/-- Removes the mirror requests of sessions of another troupe (R201). -/
def State.checkMirrors (s : State) (v : Packet) : State × Packet :=
  let bad := fun b => decide (128 ≤ b) && !s.mirrorOwned v.troupe (b % 64)
  if v.md.mirror.any bad then
    (s.raise PIPE.INT_CAUSE.BOUNDS, { v with md := { v.md with mirror := v.md.mirror.map fun b => if bad b then 0 else b } })
  else (s, v)

/-- The sessions a packet names, in the order of MIRROR's bytes. -/
def Packet.sessions (v : Packet) : List Nat := (v.md.mirror.filter fun b => decide (128 ≤ b)).map (· % 64)

/-- A session copies a packet at its enqueue, or at its drop where `dropped` (R210, R211). -/
def State.sessionEligible (s : State) (v : Packet) (egress dropped : Bool) (m : Nat) : Bool :=
  let g := fun f => s.getFor v.troupe v.epoch f m
  g PIPE.MIRROR_CFG.ENABLE == 1 && (g PIPE.MIRROR_CFG.EGRESS == 1) == egress &&
    (!dropped || g PIPE.MIRROR_CFG.ON_DROP == 1)

/-- A packet that the pipe drops: it is stored for its mirror copies alone, or discarded (R200, R210). -/
def State.pipeDrop (s : State) (p k : Nat) (v : Packet) (reason : Nat) : State :=
  let v := { v with md := { v.md with drop := true, dropReason := reason } }
  let s := s.putPacket k v
  let s := s.flowUpdate k true
  let s := s.countExc p reason
  let s := s.dropPacket k reason
  if v.sessions.any (s.sessionEligible v false true) then
    let s := s.modPacket k fun v => { v with dropped := true, place := .hub }
    s.modPipe p fun q => { q with asm := q.asm ++ [k] }
  else
    let s := if v.cells.isEmpty then s else s.freeInjected v
    (s.modPacket k fun v => { v with cells := [] }).discard k

/-- One head at the end of its ingress pipe: the deparser, the drop decision, the checks of R201, a further pass, or the
crossing to the hub. -/
def State.ingressEnd (s : State) (p k : Nat) : State :=
  match s.packet k with
  | none => s
  | some v =>
    let s := s.spend 0 (pipeDie p) (some v.troupe) none (some p) 1
    let v := v.deparse
    let (s, v) := s.checkMirrors v
    let v := { v with md := { v.md with flowHash := crc32c 0xFFFFFFFF v.flowKey } }
    if v.md.drop then s.pipeDrop p k v v.md.dropReason
    else if v.md.resubmit then
      match s.auxCheck p v with
      | some r => s.pipeDrop p k v r
      | none => s.auxPut p k v
    else
      match s.boundsCheck v with
      | some r => s.pipeDrop p k v r
      | none =>
        let s := (s.putPacket k { v with place := .hub }).flowUpdate k false
        s.modPipe p fun q => { q with asm := q.asm ++ [k] }

/-- INGRESS_PIPE_END: the wavefront at the end of an ingress pipe leaves it (R199 to R201, R213, R215, R418). -/
def execIngressPipeEnd (pipe : PipeNo) (s : State) : Answer :=
  let p := pipe.val
  match s.waveAt p (lastPos p) with
  | none => .next s
  | some w =>
    let s := w.heads.foldl (fun s k => s.ingressEnd p k) s
    .next (s.modPipe p fun v => { v with waves := v.waves.filter fun u => u.pos != lastPos p })

/-! ## The end of the egress pipe (R217, R218) -/

/-- The offset of the outermost IP header of a head and whether it is IPv4 (R300). -/
def ipHeader (bs : List Byte) : Option (Nat × Bool) :=
  let off := if isTag (be16 bs 12) then (if isTag (be16 bs 16) then 20 else 16) else 12
  let t := be16 bs off
  let o := off + 2
  if t = 0x0800 && byteAt bs o / 16 = 4 then
    let len := byteAt bs o % 16 * 4
    if 20 ≤ len && o + len ≤ min 256 bs.length then some (o, true) else none
  else if t = 0x86DD && byteAt bs o / 16 = 6 && o + 40 ≤ min 256 bs.length then some (o, false)
  else none

/-- The ECN field of the outermost IP header, none for a frame that is not IP (R300). -/
def ecnOf (bs : List Byte) : Option Nat :=
  match ipHeader bs with
  | none => none
  | some (o, true) => some (byteAt bs (o + 1) % 4)
  | some (o, false) => some (byteAt bs (o + 1) / 16 % 4)

/-- Ones'-complement sum of 16 bits. -/
def onesAdd (a b : Nat) : Nat :=
  let t := a + b
  if 65536 ≤ t then t % 65536 + 1 else t

/-- A checksum corrected for a word that changed from `a` to `b` (RFC 1624). -/
def fixSum (sum a b : Nat) : Nat := 65535 - onesAdd (onesAdd (65535 - sum) (65535 - a % 65536)) b

/-- Sets the ECN field to CE and corrects the IPv4 header checksum (R300). -/
def markCe (bs : List Byte) : List Byte :=
  match ipHeader bs with
  | none => bs
  | some (o, true) =>
    let old := be16 bs o
    let new := old - old % 4 + 3
    putBytes (putBytes bs o (beBytes new 2)) (o + 10) (beBytes (fixSum (be16 bs (o + 10)) old new) 2)
  | some (o, false) =>
    let b := byteAt bs (o + 1)
    putBytes bs (o + 1) [BitVec.ofNat 8 (b - b / 16 % 4 * 16 + 48)]

/-- An egress pipe drops a copy (R218): counted, and released as if it had been sent. -/
def State.egressDrop (s : State) (k reason : Nat) : State :=
  match s.flight k with
  | none => s
  | some f =>
    let s := match s.desc f.desc with
      | some d => s.countCopyDrop d f.queue reason
      | none => s
    s.endFlight k

/-- The metadata that a recirculation keeps (R197). -/
def Meta.recirculated (m : Meta) (carry : Bool) : Meta :=
  { m with
    drop := false, dropReason := 0, mirror := [0, 0, 0, 0], recirculate := false, mcCopy := 0
    prog := if carry then m.prog.filter fun e => decide (e.1 < 128) else [] }

/-- A recirculated frame enters the auxiliary entry of the ingress pipe of the same number, as a new arrival with its
ingress port and stamp, and with FRAME_LEN and LEN_DELTA as they stand (R197, R213, R215). -/
def State.recirculate (s : State) (p k : Nat) (v : Packet) : State :=
  let carry := ((s.program p v).map (·.carry)).getD false
  let v := { v with
    md := v.md.recirculated carry, recirculated := true, whole := true, desc := none, inFifo := 0, stored := 0
    arrived := v.head.length + v.body.length, flow := none, flowDue := false
    lateDebits := [], lateCounts := [], counted := false }
  match s.auxCheck (p - 16) v with
  | some r =>
    let s := if r = dropAuxFull then s.countExc (p - 16) r else s
    s.egressDrop k r
  | none =>
    let j := s.sw.nextPacket
    let s := { s with sw := { s.sw with nextPacket := j + 1 } }
    let s := s.auxPut (p - 16) j v
    (s.addSat PIPE.EP_EXC.RECIRCS (p - 16) 1).endFlight k

/-- One copy at the end of its egress pipe. -/
def State.egressEnd (s : State) (p k : Nat) : State :=
  match s.flight k, s.headOf p k with
  | some f, some v =>
    let s := s.spend 1 (pipeDie p) (some v.troupe) none (some p) 1
    let v := v.deparse
    let v := if f.copy.ce then { v with head := markCe v.head } else v
    let s := s.putHead p k v
    if v.md.drop then
      let s := if v.md.dropReason = dropParse then
          (s.addSat PIPE.EP_EXC.PARSE_REJECTS (p - 16) 1).raise PIPE.INT_CAUSE.PARSE_REJECT else s
      s.egressDrop k v.md.dropReason
    else if v.md.recirculate then
      (if (s.desc f.desc).any (·.complete) then s.recirculate p k v else s.modFlight k fun f => { f with recirc := true })
    else if v.md.lenValid && decide ((s.maxFrame f.port : Int) < v.len + v.md.lenDelta) then
      (s.addSat PIPE.EP_EXC.MTU_DROPS (p - 16) 1).egressDrop k dropMtu
    else
      let s := s.modFlight k fun f => { f with inFifo := true }
      s.modPort f.port fun q => { q with efifo := q.efifo ++ [k] }
  | _, _ => s

/-- A frame has ended with a good verdict: its copies that were to be recirculated before its end are so now, whole (R213). -/
def State.recirculateEnded (s : State) (packet : Nat) : State :=
  (s.sw.flights.filter fun f => f.2.recirc && f.2.packet == packet).foldl (fun s f =>
    let p := portPipe f.2.port + 16
    match s.headOf p f.1 with
    | some v => s.recirculate p f.1 v
    | none => s) s

/-- EGRESS_PIPE_END: the wavefront at the end of an egress pipe leaves it: each frame is dropped, dropped for EGRESS_MTU,
recirculated, or passed to the egress elastic FIFO (R213, R217, R218). -/
def execEgressPipeEnd (pipe : PipeNo) (s : State) : Answer :=
  let p := pipe.val + 16
  match s.waveAt p (lastPos p) with
  | none => .next s
  | some w =>
    let s := w.heads.foldl (fun s k => s.egressEnd p k) s
    .next (s.modPipe p fun v => { v with waves := v.waves.filter fun u => u.pos != lastPos p })

/-! ## The depth map (R204 to R207) -/

/-- The bytes of a port's queues that count toward its depth. -/
def State.portDepth (s : State) (x : Nat) : Nat :=
  let mask := s.get PIPE.DEPTH_MAP_CFG.CLASS_MASK 0
  ((s.portQueues x).map fun q => if natBit mask (queueGroup q) then (s.queueDepth q).1 + (s.queueDepth q).2 else 0).sum

/-- A port's entry of the depth map (R204). -/
def State.depthEntry (s : State) (x : Nat) : Nat :=
  if !s.portUp x || s.qmState x != qmActive then 255
  else min 254 (s.portDepth x >>> clampN 8 21 (s.get PIPE.DEPTH_MAP_CFG.UNIT_LOG2 0))

/-- The field of PIPE.DEPTH_MAP of port x. -/
def depthField (x : Nat) : Fld := { PIPE.DEPTH_MAP.ENTRY_0 with lo := 8 * (x % 8) }

/-- DEPTH_MAP_BROADCAST: every 64 ns the hub broadcasts the map; a rim die of `missed` does not receive it (R204, R207). -/
def execDepthMapBroadcast (missed : BitVec 4) (s : State) : Answer :=
  let due := match s.sw.mapSent with
    | none => true
    | some t => decide (t + 128 ≤ s.now)
  if !due then .next s
  else
    let map := s.image.ports.foldl (fun t (p : PortPlan) => tabPut t p.port (s.depthEntry p.port)) []
    let s := { s with sw := { s.sw with mapSent := some s.now } }
    let s := map.foldl (fun s e => s.set (depthField e.1) (e.1 / 8) e.2) s
    .next ((List.range 4).foldl (fun s d =>
      if natBit missed.toNat d then s.addSat PIPE.DEPTH_MAP_STATUS.MISSED d 1
      else
        let s := (List.range 4).foldl (fun s j =>
          s.modPipe (4 * d + j) fun v => { v with map := map, mapAt := s.now, mapStale := false }) s
        s.set PIPE.DEPTH_MAP_STATUS.STALE d 0) s)

/-- DEPTH_MAP_STALE: a pipe has received no broadcast for STALE_PERIODS periods (R207). -/
def execDepthMapStale (pipe : PipeNo) (s : State) : Answer :=
  let p := pipe.val
  let periods := max 2 (s.get PIPE.DEPTH_MAP_CFG.STALE_PERIODS 0)
  if (s.pipe p).mapStale || decide (s.now < (s.pipe p).mapAt + periods * 128) then .next s
  else
    let was := s.flag PIPE.DEPTH_MAP_STATUS.STALE (pipeDie p)
    let s := s.modPipe p fun v => { v with mapStale := true }
    let s := s.set PIPE.DEPTH_MAP_STATUS.STALE (pipeDie p) 1
    .next (if was then s else s.raise PIPE.INT_CAUSE.DEPTH_STALE)

/-- FLOWLET_FLUSH: a write of PIPE.ADAPT_CFG with FLOWLET_FLUSH = 1 invalidates every flowlet entry of every pipe; the
other fields of `value` go to their staging copies (R206). -/
def execFlowletFlush (value : Word) (s : State) : Answer :=
  if !s.hostReach 0 false then .next s else
  let s := [PIPE.ADAPT_CFG.CANDIDATES, PIPE.ADAPT_CFG.GAP_US].foldl
    (fun s g => s.setStaged g 0 (bitsOf value g.lo g.width)) s
  if natBit value.toNat 32 then
    .next ((List.range 16).foldl (fun s p => s.modPipe p fun v => { v with flowlets := [] }) s)
  else .next s

end Sys2Proof.Machine
end

