-- ==== Sys2Proof/Machine/Hub.lean ====
section
/-!
DEFINITION. The hub from a head's arrival to the enqueue of its copies (chapters 8 and 9): admission, the writing of
segments, the verdict at the frame's end, multicast, leases, data integrity and the queue query.
-/

namespace Sys2Proof.Machine

/-! ## The copies that a frame asks for (R210, R211, R363, R525) -/

/-- The walk of a multicast group (R363): the copies made so far, last first, and the counters. -/
def State.walkMembers (s : State) (v : Packet) (g : Nat) : List Nat → List Copy → State × List Copy
  | [], acc => (s, acc.reverse)
  | m :: ms, acc =>
    let q := s.get MC.MEMBER.QUEUE m
    let mine := acc.filter fun c => queuePort c.queue == queuePort q
    if !s.flag MC.MEMBER.VALID m then s.walkMembers v g ms acc
    else if s.queueTroupe q != tabFind s.image.mcOwner g || (s.queueTroupe q).isNone then (s.addSat MC.STATS2.BOUNDS 0 1).walkMembers v g ms acc
    else if s.flag MC.GROUP.PRUNE_SRC g && queuePort q == v.port then
      (s.addSat MC.STATS.PRUNED 0 1).walkMembers v g ms acc
    else if 4 ≤ mine.length then (s.addSat MC.STATS.PORT_LIMIT 0 1).walkMembers v g ms acc
    else s.walkMembers v g ms
      ({ kind := .multicast, queue := q, replId := s.get MC.MEMBER.REPL_ID m, copyNo := mine.length } :: acc)

/-- MULTICAST_REPLICATION: the members of the group of a frame, in index order. -/
def State.groupCopies (s : State) (v : Packet) : State × List Copy :=
  let g := v.md.mcGroup
  let base := s.get MC.GROUP.BASE g
  s.walkMembers v g ((List.range (min 2048 (s.get MC.GROUP.COUNT g))).map (base + ·)) []

/-- MIRROR_COPY: the copies that a packet's sessions of one side make: each session counts its eligible packets per
ingress pipe and copies one in 2^SAMPLE_LOG2, starting with the first (R211). -/
def State.mirrorCopies (s : State) (v : Packet) (egress : Bool) : State × List Copy :=
  (v.sessions.filter fun m => s.sessionEligible v egress v.dropped m).foldl (fun a m =>
    let s := a.1
    let n := tabGet 0 (s.pipe v.pipe).mirrorCount m
    let s := s.modPipe v.pipe fun p => { p with mirrorCount := tabPut p.mirrorCount m (n + 1) }
    let g := fun f => s.getFor v.troupe v.epoch f m
    let trunc := g PIPE.MIRROR_CFG.TRUNC_LEN
    let trunc := if trunc = 0 then 0 else max 64 trunc
    if n % 2 ^ g PIPE.MIRROR_CFG.SAMPLE_LOG2 = 0 then
      (s, a.2 ++ [{ kind := .mirror m, queue := g PIPE.MIRROR_CFG.DEST_QUEUE, trunc := trunc }])
    else (s, a.2)) (s, [])

/-- The copies of a frame for its own destination. -/
def State.ownCopies (s : State) (v : Packet) : State × List Copy :=
  if v.dropped then (s, [])
  else if v.md.toCpu then (s, [{ kind := .unicast, queue := v.md.queueId.getD 0 % 512, ring := true }])
  else if v.md.mcValid then s.groupCopies v
  else (s, [{ kind := .unicast, queue := v.md.queueId.getD 0 }])

/-! ## Admission (R287 to R300) -/

/-- The key of a copy's queue in the accounts and among the queues: receive queues lie above the queue IDs (R526). -/
def Copy.key (c : Copy) : Nat := if c.ring then 2 ^ 20 + c.queue else c.queue

/-- The admission profile of a copy's queue (R526). -/
def State.copyProfile (s : State) (c : Copy) : Nat :=
  if c.ring then s.get HIF.RX_CFG.PROFILE c.queue else s.get QM.Q_PROFILE.PROFILE c.queue

/-- The troupe test of R291. -/
def State.troupeTest (s : State) (n : Nat) : Bool :=
  !s.flag QM.TROUPE_ADM.EN n ||
    decide (tabGet 0 s.sw.useTroupeShared n < alphaThreshold s.freeSpace (s.get QM.TROUPE_ADM.ALPHA_LOG2 n))

/-- The outcome of admission for one copy. -/
inductive Admit where
  | inRegion (r : Region)
  | refused (reason : Nat)
deriving DecidableEq, Repr

/-- The tests of R291 of a copy of a lossy frame. -/
def State.admitLossy (s : State) (troupe : Nat) (c : Copy) : Admit :=
  let k := s.copyProfile c
  let f := s.freeSpace
  let x := queuePort c.queue
  if tabGet 0 s.sw.useQueueMin c.key < s.get QM.ADM_PROFILE_A.MIN_UNITS k then .inRegion .queueMin
  else if alphaThreshold f (s.get QM.ADM_PROFILE_A.ALPHA_LOG2 k) ≤ tabGet 0 s.sw.useQueueShared c.key then
    .refused dropQueue
  else if !c.ring && s.flag QM.PORT_ADM.EN x &&
      decide (alphaThreshold f (s.get QM.PORT_ADM.ALPHA_LOG2 x) ≤ tabGet 0 s.sw.usePortShared x) then .refused dropPort
  else if !s.troupeTest troupe then .refused dropTroupe
  else .inRegion .shared

/-- The tests of R292 of a lossless frame of port x and priority p. -/
def State.admitLossless (s : State) (x p : Nat) : Admit :=
  let k := x * 8 + p
  if tabGet 0 s.sw.usePpMin k < s.get QM.PP_ADM.MIN_UNITS k then .inRegion .ppMin
  else if tabGet 0 s.sw.usePpShared k < s.ppThreshold x p then .inRegion .shared
  else if tabGet 0 s.sw.usePpHeadroom k < s.get QM.PP_ADM.HEADROOM_UNITS k then .inRegion .headroom
  else .refused dropHeadroom

/-- A frame is lossless: its priority is, on the port it came in on (R291). -/
def State.frameLossless (s : State) (v : Packet) : Bool := decide (v.port < 512) && s.lossless v.port v.prio

/-- The tests of one copy: the states of R294 and R528 first. -/
def State.admitCopy (s : State) (v : Packet) (c : Copy) : Admit :=
  if c.ring && !s.ready rdyPcie then .refused dropHostDown
  else if !c.ring && s.qmState (queuePort c.queue) != qmActive then .refused dropPortDown
  else if s.frameLossless v then s.admitLossless v.port v.prio
  else s.admitLossy v.troupe c

/-- Units of a stored length (R308). -/
def unitsOf (len : Nat) : Nat :=
  let n := (len + 255) / 256
  let r := len - 256 * (n - 1)
  if n = 0 then 0 else 4 * (n - 1) + (if 64 < r then 4 else 1)

/-- The lengths of the segments of a stored length (R308). -/
def segmentLens (len : Nat) : List Nat :=
  let n := (len + 255) / 256
  (List.range n).map fun j => if j + 1 = n then len - 256 * j else 256

/-- The depth of a queue in units, on the die and spilled (R299). -/
def State.depthUnits (s : State) (q : Nat) : Nat :=
  ((s.queue q).map fun e => match e with
    | .copy d _ _ _ => ((s.desc d).map (·.units)).getD 0
    | .run fs => (fs.map fun f => unitsOf (((tabFind s.sw.spilled f).map (·.len)).getD 0)).sum).sum

/-- P16 of R299. -/
def ecnP16 (lo hi pMax d : Nat) : Nat :=
  if hi ≤ lo then (if lo ≤ d then 65536 else 0)
  else if d < lo then 0
  else if hi ≤ d then 65536
  else pMax * 256 * (d - lo) / (hi - lo)

/-- What the ECN test makes of an admitted copy (R299, R300). -/
inductive EcnOutcome where
  | sent | marked | dropped
deriving DecidableEq, Repr

/-- ECN_MARK: the test of R299 of an admitted copy, with the quadrant's random value. -/
def State.ecnTest (s : State) (v : Packet) (c : Copy) : EcnOutcome × State :=
  let k := s.copyProfile c
  if c.ring || !s.flag QM.ADM_PROFILE_A.ECN_EN k then (.sent, s)
  else
    let (r, s) := s.draw
    let p := ecnP16 (s.get QM.ADM_PROFILE_B.ECN_MIN_UNITS k) (s.get QM.ADM_PROFILE_B.ECN_MAX_UNITS k)
      (s.get QM.ADM_PROFILE_B.P_MAX k) (s.depthUnits c.key)
    if p ≤ r % 65536 then (.sent, s)
    else match ecnOf v.head with
      | some 1 => (.marked, s)
      | some 2 => (.marked, s)
      | some 3 => (.sent, s)
      | _ =>
        if s.flag QM.ADM_PROFILE_A.NOT_ECT_DROP k && !s.frameLossless v then (.dropped, s) else (.sent, s)

/-- A copy refused at admission counts under its own reason, unless the frame's drop has been counted (R296, R301). -/
def State.refuseAtHead (s : State) (k : Nat) (v : Packet) (c : Copy) (reason : Nat) : State :=
  let s := if reason = dropHeadroom then
      s.set CELL.PP_STATUS.EXHAUSTED_SEEN v.port (natSetBit (s.get CELL.PP_STATUS.EXHAUSTED_SEEN v.port) v.prio true)
    else s
  match c.kind with
  | .unicast => s.dropPacket k reason
  | _ => if v.counted then s else s.countDropOf v.port v.troupe reason (some c.queue) v.head

/-- Admission of the copies of a frame in their order, each against the counts before the frame (R290, R296): the
copies admitted, each with its region. -/
def State.admitAll (before : State) (k : Nat) (v : Packet) : List Copy → State → List (Copy × Region) →
    State × List (Copy × Region)
  | [], s, acc => (s, acc.reverse)
  | c :: cs, s, acc =>
    match before.admitCopy v c with
    | .refused r => before.admitAll k v cs (s.refuseAtHead k v c r) acc
    | .inRegion g =>
      let (e, s) := s.ecnTest v c
      match e with
      | .dropped => before.admitAll k v cs (s.refuseAtHead k v c dropEcn) acc
      | .marked =>
        before.admitAll k v cs (s.sendFate v .ce) (({ c with ce := true, inMin := g == .queueMin }, g) :: acc)
      | .sent => before.admitAll k v cs s (({ c with inMin := g == .queueMin }, g) :: acc)

/-- The bytes of a frame laid over the cells that an injection handed over, each filled to its size. -/
def layOver : List Nat → Nat → List (Nat × Nat)
  | [], _ => []
  | a :: cs, left =>
    let n := min left (poolBytes (cellPool a))
    (a, n) :: layOver cs (left - n)

/-- A packet leaves the assembler of its pipe. -/
def State.leaveAsm (s : State) (k : Nat) : State :=
  match s.packet k with
  | none => s
  | some v =>
    let s := s.modPipe v.pipe fun p => { p with asm := p.asm.filter fun j => j != k }
    { s with sw := { s.sw with replicating := s.sw.replicating.filter fun j => j != k } }

/-- A frame that no copy of which was admitted: it takes no cell, and the assembler discards it (R310). -/
def State.refuseFrame (s : State) (k : Nat) : State :=
  match s.packet k with
  | none => s
  | some v =>
    let s := s.leaveAsm k
    let s := if v.dropped then s else s.sendFate v .drop
    let s := if v.cells.isEmpty then s else s.freeInjected v
    (s.modPacket k fun v => { v with counted := true, cells := [] }).discard k

/-- The lowest number that no descriptor has. -/
def State.newDesc (s : State) : Nat := tabFresh s.sw.descs

/-- An admitted frame: its descriptor, its region, which is the first admitted copy's, and its copies, which wait for
its first cell or its end (R296, R312). -/
def State.admitFrame (s : State) (k : Nat) (v : Packet) (copies : List (Copy × Region)) (r : Region) : State :=
  let d := s.newDesc
  let cs := copies.map Prod.fst
  let total := v.head.length + v.body.length
  let desc : Desc :=
    { packet := k, troupe := v.troupe, epoch := v.epoch, port := v.port, prio := v.prio, region := r, copies := cs,
      waiting := cs, lossless := s.frameLossless v, cells := layOver v.cells total }
  let taken := (desc.cells.map Prod.snd).sum
  let s := s.putPacket k { v with place := .store, desc := some d, stored := taken, cells := [] }
  let s := s.putDesc d desc
  let s := if cs.any fun c => c.kind == .multicast then
      { s with sw := { s.sw with replicating := s.sw.replicating ++ [k] } } else s
  if v.cells.isEmpty then s
  else
    let s := s.chargeLease v.troupe (-(cellUnits v.cells : Int))
    v.cells.foldl (fun s a => s.chargeCell d (poolUnits (cellPool a))) s

/-- A frame's troupe refuses frames while its image is being replaced (R103, R294). -/
def State.reloading (s : State) (v : Packet) : Bool := !s.troupeReady v.troupe

/-- A troupe is being removed or is removed (R515). -/
def State.leaving (s : State) (n : Nat) : Bool := decide (2 ≤ s.get HIF.TROUPE_STATE.STATE n)

/-- ADMISSION: the first head of an ingress pipe that waits to cross to the hub is tested once for each of its copies, against
the counts as they stand before the frame (R290 to R300). It crosses only over a link that is UP (R27, R33). -/
def execAdmission (pipe : PipeNo) (s : State) : Answer :=
  let p := pipe.val
  match (s.pipe p).asm.find? fun k => ((s.packet k).map (·.place)) == some .hub with
  | none => .next s
  | some k =>
    match s.packet k with
    | none => .next s
    | some v =>
      if !s.dieJoined (pipeDie p) then .next s
      else
        let s := s.sendTransfer (pipeDie p)
        if s.leaving v.troupe then
          .next ((s.dropPacket k (if v.md.toCpu then dropRing else dropPortDown)).refuseFrame k)
        else if s.reloading v then .next ((s.dropPacket k dropReload).refuseFrame k)
        else
          let (s, own) := s.ownCopies v
          let (s, mirrors) := s.mirrorCopies v false
          let s := if own.isEmpty && !v.dropped then s.dropPacket k dropNoDest else s
          let (s, copies) := s.admitAll k v (own ++ mirrors) s []
          match s.packet k, copies with
          | some v, (c, r) :: rest =>
            let s := if (copies.any fun e => match e.1.kind with | .mirror _ => false | _ => true) || v.dropped then s
              else s.sendFate v .drop
            .next (s.admitFrame k v ((c, r) :: rest) r)
          | _, _ => .next (s.refuseFrame k)

/-! ## The writing of segments (R308 to R314) -/

/-- Bytes of a frame that the assembler can write: those the deparser has written and those received after the head. -/
def Packet.available (v : Packet) : Nat :=
  if v.whole then v.head.length + v.body.length else v.head.length + (v.arrived - 256)

/-- The length of the next segment: 256 bytes, or the rest once the frame is whole; 0 where it must wait. -/
def Packet.nextSegment (v : Packet) : Nat :=
  let left := v.available - v.stored
  if 256 ≤ left then 256 else if v.whole then left else 0

/-- The enqueue of every earlier frame of the assembler is complete (R311). -/
def State.asmTurn (s : State) (p k : Nat) : Bool :=
  (s.pipe p).asm.takeWhile (fun j => j != k) |>.all fun j =>
    match s.packet j with
    | none => true
    | some v => match v.desc.bind fun d => s.desc d with
      | none => v.place != .hub
      | some d => d.waiting.isEmpty

/-- A copy may be enqueued in progress (R312). -/
def State.cutThrough (s : State) (v : Packet) (c : Copy) : Bool :=
  !c.ring && s.get QM.CG_CFG.FWD_MODE (queueCg c.queue) == 0 &&
    decide (s.rateCode (queuePort c.queue) ≤ s.rateCode v.port) && (s.queue c.queue).isEmpty &&
    !v.injected && !v.recirculated && !v.whole

/-- ENQUEUE_IN_PROGRESS: at the first cell, every copy that meets R312 enters its queue; the decisions are taken
together, each for itself. -/
def State.enqueueInProgress (s : State) (k d : Nat) : State :=
  match s.packet k, s.desc d with
  | some v, some e =>
    (e.waiting.filter fun c => s.cutThrough v c).foldl (fun s c =>
      if s.cutThrough v c then s.tryEnqueue d c true else s) s
  | _, _ => s

/-- The copies in progress of a frame that turned out bad: those that no MAC has started are removed, those that one
has started are stomped (R148, R149, R313). -/
def State.stopCopies (s : State) (d : Nat) : State :=
  let entries := s.sw.queues.flatMap fun q => q.2.filterMap fun e => match e with
    | .copy d' c _ _ => if d' = d then some (q.1, c) else none
    | .run _ => none
  let s := entries.foldl (fun s e =>
    let s := s.setQueue e.1 ((s.queue e.1).filter fun en => match en with
      | .copy d' _ _ _ => d' != d
      | .run _ => true)
    (s.addSat CELL.CT_COUNT.CT_BAD 0 1).copyDone d e.2 true) s
  let mine := s.sw.flights.filter fun f => f.2.desc == d && f.2.inProgress
  mine.foldl (fun s f =>
    let s := s.addSat CELL.CT_COUNT.CT_BAD 0 1
    if f.2.started then s.modFlight f.1 fun v => { v with stomp := true } else s.endFlight f.1) s

/-- A frame whose verdict is bad (R313): waiting copies go, copies in progress are stopped, and the packet leaves the
assembler. -/
def State.badVerdict (s : State) (k : Nat) : State :=
  let s := s.leaveAsm k
  match (s.packet k).bind (·.desc) with
  | none => s.discard k
  | some d =>
    let s := s.leaveFifo k ififoBytes
    let s := s.modPacket k fun v => { v with place := .discard }
    let s := s.modDesc d fun e => { e with badFrame := true }
    let s := s.stopCopies d
    match s.desc d with
    | none => s
    | some e => e.waiting.foldl (fun s c => s.copyDone d c false) (if e.copies.isEmpty then s.freeFrame d else s)

/-- A cell request of a frame failed (R314, R319). -/
def State.segmentFails (s : State) (k : Nat) (quota : Bool) : State :=
  let s := if quota then (s.addSat CELL.EXHAUST.QUOTA 0 1).raise CELL.INT_CAUSE.QUOTA
    else (s.addSat CELL.EXHAUST.POOL_EMPTY 0 1).raise CELL.INT_CAUSE.POOL_EMPTY
  let reason := if quota then dropQuota else dropPool
  let s := match s.packet k with
    | some v => if v.counted then s else s.sendFate v .drop
    | none => s
  ((s.dropPacket k reason).modPacket k fun v => { v with bad := some (v.bad.getD reason) }).badVerdict k

/-- A segment of `n` bytes of a frame is written to a cell and linked (R310). -/
def State.writeSegment (s : State) (k d a n : Nat) : State :=
  match s.packet k with
  | none => s
  | some v =>
    let bytes := ((v.head ++ v.body).drop v.stored).take n
    let s := { s with sw := { s.sw with mem := memWrite s.sw.mem (s.cellBase a) bytes } }
    let first := v.stored = 0
    let s := s.putPacket k { v with stored := v.stored + n }
    let s := (s.modDesc d fun e => { e with cells := e.cells ++ [(a, n)] }).chargeCell d (poolUnits (cellPool a))
    let s := s.leaveFifo k n
    let s := s.spend 5 (pipeDie v.pipe) (some v.troupe) none none (words64 n)
    let s := s.spend 6 4 (some v.troupe) none none (words64 n)
    if first then s.enqueueInProgress k d else s

/-- SEGMENT_WRITE: the assembler of a pipe writes the next segment of an admitted packet. `arrived` says how many bytes
of the frame have been received by now, and `rivals` which requesters ask the bank at the same instant (R310 to R314,
R317, R318). Nothing crosses from a die without a link UP (R33). -/
def execSegmentWrite (pipe : PipeNo) (packet arrived : Nat) (rivals : List (Fin 18)) (s : State) : Answer :=
  let p := pipe.val
  let s := s.arrive packet arrived
  match s.packet packet with
  | none => .next s
  | some v =>
    match v.desc with
    | none => .next s
    | some d =>
      let n := v.nextSegment
      if v.pipe != p || v.place != .store || n = 0 || !s.asmTurn p packet || !s.dieJoined (pipeDie p) then .next s
      else match (s.sendTransfer (pipeDie p)).requestSegment p v.troupe n 0 false rivals with
        | (.cell a, s) => .next (s.writeSegment packet d a n)
        | (.poolEmpty, s) => .next (s.segmentFails packet false)
        | (.quota, s) => .next (s.segmentFails packet true)

/-! ## The verdict (R313) -/

/-- The shapers that a copy in progress was charged to receive back what its frame did not take (R348). -/
def State.creditBack (s : State) (d len : Nat) : State :=
  (s.sw.flights.filter fun f => f.2.desc == d && f.2.lenUnknown).foldl (fun s f =>
    let s := s.modFlight f.1 fun v => { v with lenUnknown := false }
    let diff := s.maxFrame f.2.port - len
    (s.shapersOf f.2.queue).foldl (fun s i =>
      if s.shaperOn i then
        let v := s.shaper i
        s.putShaper i { v with credit := v.credit + diff * byteTok }
      else s) s) s

/-- A frame whose verdict is good: its descriptor is COMPLETE and its waiting copies are enqueued in order (R313, R322,
R364). -/
def State.goodVerdict (s : State) (k d : Nat) : State :=
  let s := s.leaveAsm k
  let s := s.modDesc d fun e => { e with complete := true, len := (e.cells.map Prod.snd).sum }
  match s.desc d with
  | none => s
  | some e => (e.waiting).foldl (fun s c => s.tryEnqueue d c false) s

/-- What a frame's end owes: the later debits of policers (R282) and the bytes of counters (R198) that had met it before its
length was known. -/
def State.frameOwes (s : State) (packet : Nat) : State :=
  match s.packet packet with
  | none => s
  | some v =>
    let s := v.lateDebits.foldl (fun s i => s.lateDebit i (v.len - 256)) s
    let s := v.lateCounts.foldl (fun s k => s.countBytes k 0 v.len) s
    s.modPacket packet fun v => { v with lateDebits := [], lateCounts := [] }

/-- FRAME_VERDICT: a packet's frame has ended and the assembler knows its verdict (R313). -/
def execFrameVerdict (packet : Nat) (s : State) : Answer :=
  match s.packet packet with
  | none => .next s
  | some v =>
    if !v.whole then .next s
    else if v.place == .discard then
      let s := (s.flowBytes packet).frameOwes packet
      .next (if v.desc.isNone then s.discard packet else s)
    else match v.desc with
      | none => .next s
      | some d =>
        if v.place != .store || (s.desc d).all (fun e => e.complete || e.badFrame) then .next s
        else if v.bad.isNone && decide (v.stored < v.available) then .next s
        else
          let s := (s.flowBytes packet).frameOwes packet
          let s := s.creditBack d v.available
          .next (if v.bad.isSome then s.badVerdict packet else (s.goodVerdict packet d).recirculateEnded packet)

/-! ## Multicast registers (R366, R367) -/

/-- MC_GROUP_WRITE: a write of a group header replaces it whole, or is ignored where its range leaves the troupe's
member entries (R366). -/
def execMcGroupWrite (group : Fin 65536) (value : Word) (s : State) : Answer :=
  if !s.hostReach 0 false then .next s else
  let g := group.val
  let n := s.get MC.GROUP.TROUPE g
  let base := bitsOf value 0 20
  let count := bitsOf value 20 12
  let first := s.get MC.TROUPE_RANGE.FIRST n
  let room := s.get MC.TROUPE_RANGE.COUNT n
  if 2048 < count || (decide (0 < count) && (decide (base < first) || decide (first + room < base + count))) then
    .next (s.addSat MC.STATS2.REJECTED_WRITES 0 1)
  else
    let s := s.set MC.GROUP.BASE g base
    let s := s.set MC.GROUP.COUNT g count
    .next (s.set MC.GROUP.PRUNE_SRC g (bitsOf value 32 1))

/-- MC_SYNC: a write of 1 to MC.SYNC.REQ clears DONE (R367). -/
def execMcSync (value : Word) (s : State) : Answer :=
  if !s.hostReach 0 false then .next s else
  if natBit value.toNat 0 then
    let s := s.set MC.SYNC.DONE 0 0
    .next { s with sw := { s.sw with sync := { before := s.sw.replicating, pending := true } } }
  else .next s

/-- MC_SYNC_DONE: every replication that had begun before the request has finished (R367). -/
def execMcSyncDone (s : State) : Answer :=
  if s.sw.sync.pending && s.sw.sync.before.all fun k => !s.sw.replicating.contains k then
    let s := { s with sw := { s.sw with sync := {} } }
    .next (s.set MC.SYNC.DONE 0 1)
  else .next s

/-! ## Leases (R324 to R331) -/

/-- Lease statuses (CELL.LEASE_CTRL.STATUS). -/
def leaseOk : Nat := 0
def leaseNone : Nat := 1
def leaseQuota : Nat := 2
def leaseLimit : Nat := 3
def leaseNotReady : Nat := 4

/-- Up to `count` cells of one pool for the lease engine, requester 17, until the first failure (R316, R325). The rivals
reach the bank together with its first request. -/
def State.leaseCells (s : State) (n pool source : Nat) (rivals : List (Fin 18)) :
    Nat → List Nat → State × List Nat × Nat
  | 0, acc => (s, acc.reverse, leaseOk)
  | count + 1, acc =>
    match s.requestPool 17 n pool source false rivals with
    | (.cell a, s) => (s.chargeLease n (poolUnits pool)).leaseCells n pool source [] count (a :: acc)
    | (.quota, s) => (s.raise CELL.INT_CAUSE.QUOTA, acc.reverse, leaseQuota)
    | (.poolEmpty, s) => (s.raise CELL.INT_CAUSE.POOL_EMPTY, acc.reverse, leaseNone)

/-- Leased cells go back to the free store with their charges (R325, R328). -/
def State.returnCells (s : State) (n : Nat) (cs : List Nat) : State :=
  let u := cellUnits cs
  let s := s.chargeLease n (-(u : Int))
  let s := s.set CELL.TROUPE_QUOTA.USE_UNITS n (s.get CELL.TROUPE_QUOTA.USE_UNITS n - u)
  cs.foldl (fun s a => s.freeCell a) s

/-- LEASE_REQUEST: a write of CELL.LEASE_CTRL by a function (R325). The cells are granted here and reported when the
request ends. -/
def execLeaseRequest (fn : FnNo) (ask : LeaseAsk) (s : State) : Answer :=
  if !s.hostReach fn.val false then .next s else
  let n := fn.val
  if s.flag CELL.LEASE_CTRL.BUSY n then .next s
  else
    let s := s.set CELL.LEASE_CTRL.POOL n (bitsOf ask.value 0 1)
    let s := s.set CELL.LEASE_CTRL.COUNT n (bitsOf ask.value 1 4)
    if !natBit ask.value.toNat 5 then .next s
    else
      let s := s.set CELL.LEASE_CTRL.BUSY n 1
      let count := clampN 1 8 (s.get CELL.LEASE_CTRL.COUNT n)
      let put := fun (s : State) (r : List Nat × Nat) =>
        { s with sw := { s.sw with leases := tabPut s.sw.leases n r } }
      if !s.ready rdyCell then .next (put s ([], leaseNotReady))
      else if s.get CELL.LEASE_STATUS.MAX n < s.get CELL.LEASE_STATUS.LEASED n + count then .next (put s ([], leaseLimit))
      else
        let (s, cells, status) := s.leaseCells n (s.get CELL.LEASE_CTRL.POOL n) 1 ask.rivals count []
        .next (put s (cells, status))

/-- LEASE_COMPLETE: a function's lease request ends: all its cells and status OK, or none and its first failure
(R325). -/
def execLeaseComplete (fn : FnNo) (s : State) : Answer :=
  let n := fn.val
  match tabFind s.sw.leases n with
  | none => .next s
  | some (cells, status) =>
    let s := { s with sw := { s.sw with leases := tabDel s.sw.leases n } }
    let s := s.set CELL.LEASE_CTRL.BUSY n 0
    let s := s.set CELL.LEASE_CTRL.STATUS n status
    let good := if status = leaseOk then cells else []
    let s := (List.range 8).foldl (fun s i =>
      let s := s.set CELL.LEASE_RESULT.VALID (fnIdx fn 8 i) (b2n (decide (i < good.length)))
      match good[i]? with
      | some a => s.set CELL.LEASE_RESULT.CELL (fnIdx fn 8 i) a
      | none => s) s
    .next (if status = leaseOk then s.addWrap CELL.LEASE_STATUS.LEASED n cells.length else s.returnCells n cells)

/-- The first check of R328 that a free by function n fails: 1 DOUBLE, 2 FOREIGN, 3 RANGE. -/
def State.freeCheck (s : State) (n a : Nat) : Option Nat :=
  if !s.cellExists a then some 3
  else match tabFind s.sw.cells a with
    | none => if s.sw.withdrawn.contains a then some 2 else some 1
    | some tag => if tag / 64 == 1 && (n == 0 || tag % 64 == n) then none else some 2

/-- LEASE_FREE: a write of CELL.LEASE_FREE by a function (R328, R329). -/
def execLeaseFree (fn : FnNo) (value : Word) (s : State) : Answer :=
  if !s.hostReach fn.val false then .next s else
  let n := fn.val
  let a := bitsOf value 0 25
  if !s.ready rdyCell then .next (s.set CELL.LEASE_CTRL.FREE_STATUS n 4)
  else match s.freeCheck n a with
    | some kind =>
      let tag := (tabFind s.sw.cells a).getD (tabGet 0 s.sw.oldTags a)
      .next ((s.freeFault n kind a tag).set CELL.LEASE_CTRL.FREE_STATUS n kind)
    | none =>
      let owner := tabGet 0 s.sw.cells a % 64
      let s := s.returnCells owner [a]
      let s := s.set CELL.LEASE_STATUS.LEASED owner (s.get CELL.LEASE_STATUS.LEASED owner - 1)
      .next (s.set CELL.LEASE_CTRL.FREE_STATUS n 0)

/-- Every cell that a troupe leases is freed without any fault (R331). -/
def State.freeLeases (s : State) (n : Nat) : State :=
  let cs := (s.sw.cells.filter fun c => c.2 == ownerTag n 1).map Prod.fst
  let s := { s with sw := { s.sw with leases := tabDel s.sw.leases n } }
  (s.returnCells n cs).set CELL.LEASE_STATUS.LEASED n 0

/-! ## Data integrity (R332, R333) -/

/-- Cells are withdrawn from use (R333). -/
def State.withdraw (s : State) (cs : List Nat) : State :=
  let new := cs.filter fun a => !s.sw.withdrawn.contains a
  let s := { s with sw := { s.sw with withdrawn := s.sw.withdrawn ++ new } }
  let s := s.addSat CELL.LOST.LOST_CELLS 0 new.length
  (s.refreshPool 0).refreshPool 1

/-- The cells of the bitmap word that holds a cell (R315). -/
def State.wordCells (s : State) (a : Nat) : List Nat :=
  let i := cellIdx a
  ((List.range 64).map fun j => cellAddr (cellPool a) (i % 256 + 256 * (i / 256 / 64 * 64 + j))).filter fun a => s.cellExists a

/-- ECC_UNCORRECTABLE: a read finds bits in error in a word of 64 bits. One is corrected in place and counted (R332);
two or more are uncorrectable (R333). `structure_` is 0 for cell data, 1 for a link word and 2 for the bitmap; `cell` is the
cell. -/
def execEccUncorrectable (structure_ : Fin 3) (cell : Fin 33554432) (word : EccWord) (s : State) : Answer :=
  let a := cell.val
  if word.bits.val ≤ 1 then .next (s.addSat CELL.ECC.DATA_CORR 0 word.bits)
  else
  let s := s.raise CELL.INT_CAUSE.ECC_UNCORR
  let s := s.record 0x0B02 (leBytes structure_ 1 ++ leBytes a 4)
  if structure_.val = 0 then
    .next ((s.addSat CELL.ECC.DATA_UNCORR 0 1).modFlight word.flight fun f => { f with stomp := true })
  else if structure_.val = 1 then
    let s := s.addSat CELL.ECC.LINK_UNCORR 0 1
    match (s.flight word.flight).bind fun f => (s.desc f.desc).map fun d => (f.desc, d) with
    | none => .next s
    | some (k, d) =>
      let keep := d.cells.takeWhile fun c => c.1 != a
      let lost := (d.cells.drop (keep.length + 1)).map Prod.fst
      let kept := d.cells.take (keep.length + 1)
      let s := s.modFlight word.flight fun f => { f with stomp := true, cut := some (kept.map Prod.snd).sum }
      let s := s.modDesc k fun d => { d with cells := kept }
      let s := { s with sw := { s.sw with cells := s.sw.cells.filter fun c => !lost.contains c.1 } }
      .next (s.withdraw lost)
  else .next ((s.addSat CELL.ECC.MAP_UNCORR 0 1).withdraw (s.wordCells a))

/-! ## The queue query (R335) -/

/-- QUERY: a write of QM.QUERY by a function (R335, R369). -/
def execQuery (fn : FnNo) (value : Word) (s : State) : Answer :=
  if !s.hostReach fn.val false then .next s else
  let n := fn.val
  if s.flag QM.QUERY.BUSY n then .next s
  else
    let q := bitsOf value 0 20
    let s := s.set QM.QUERY.QUEUE n q
    if !natBit value.toNat 20 then .next s
    else if !s.ready rdyQm then .next (s.set QM.QUERY.STATUS n 3)
    else match s.queueTroupe q with
      | none => .next (s.set QM.QUERY.STATUS n 1)
      | some t =>
        if n != 0 && t != n then .next (s.set QM.QUERY.STATUS n 2)
        else
          let (die, spilled) := s.queueDepth q
          let es := s.queue q
          let entries := (es.map fun e => match e with | .copy _ _ _ _ => 1 | .run fs => fs.length).sum
          let head := es.head?
          let s := s.set QM.QUERY.STATUS n 0
          let s := s.set QM.QUERY_RESULT0.ONDIE_BYTES n die
          let s := s.set QM.QUERY_RESULT0.SPILLED_KIB n ((spilled + 1023) / 1024)
          let s := s.set QM.QUERY_RESULT1.ENTRIES n entries
          let s := s.set QM.QUERY_RESULT1.HEAD_IN_PROGRESS n
            (match head with | some (.copy _ _ true _) => 1 | _ => 0)
          let s := s.set QM.QUERY_RESULT1.HEAD_SPILLED n (match head with | some (.run _) => 1 | _ => 0)
          .next (s.set QM.QUERY_RESULT1.ELIGIBLE n (b2n (s.queueEligible q)))

end Sys2Proof.Machine
end

