-- ==== Sys2Proof/Machine/Exporter.lean ====
section
/-!
DEFINITION. Messages of the export streams (chapter 12, R437 to R440), and the frames that the device itself builds in
cells and injects.
-/

namespace Sys2Proof.Machine

/-! ## Cells of an injected frame (R309, R319, R326, R533) -/

/-- Cells for the segments of a frame of troupe n through the lease engine, requester 17, with source INGRESS: all, or
none and the status of the first failure. -/
def State.injectCells (s : State) (n : Nat) : List Nat → List Nat → Option (List Nat) × Nat × State
  | [], acc => (some acc.reverse, leaseOk, s)
  | l :: ls, acc =>
    match s.requestSegment 17 n l 0 false [] with
    | (.cell a, s) => (s.chargeLease n (poolUnits (cellPool a))).injectCells n ls (a :: acc)
    | (.quota, s) => (none, leaseQuota, (s.raise CELL.INT_CAUSE.QUOTA).returnCells n acc)
    | (.poolEmpty, s) => (none, leaseNone, (s.raise CELL.INT_CAUSE.POOL_EMPTY).returnCells n acc)

/-- The bytes of a frame are written over cells in order, each filled to its size. -/
def State.layBytes (s : State) : List Nat → List Byte → State
  | [], _ => s
  | a :: cs, bytes =>
    let n := poolBytes (cellPool a)
    State.layBytes { s with sw := { s.sw with mem := memWrite s.sw.mem (s.cellBase a) (bytes.take n) } } cs (bytes.drop n)

/-! ## Header templates (R439) -/

/-- The ones'-complement sum of the 16-bit words of bytes, a last single byte taken as the high half. -/
def sumWords : List Byte → Nat
  | a :: b :: t => onesAdd (a.toNat * 256 + b.toNat) (sumWords t)
  | [a] => a.toNat * 256
  | [] => 0

/-- The first HDR_LEN bytes of troupe n's header template. -/
def State.exportHdr (s : State) (n : Nat) : List Byte :=
  ((List.range 8).flatMap fun j => leBytes (s.get TEL.EXPORT_HDR.BYTES (8 * n + j)) 8).take
    (min 64 (s.get TEL.EXPORT_CFG.HDR_LEN n))

/-- The IP length fields and, for IPv4, the header checksum (R439). -/
def fillIp (v6 : Bool) (ip : Nat) (bs : List Byte) : List Byte :=
  if v6 then putBytes bs (ip + 4) (beBytes (bs.length - ip - 40) 2)
  else
    let bs := putBytes (putBytes bs (ip + 2) (beBytes (bs.length - ip) 2)) (ip + 10) [0, 0]
    let head := (bs.drop ip).take (byteAt bs ip % 16 * 4)
    putBytes bs (ip + 10) (beBytes (65535 - sumWords head) 2)

/-- The UDP length and checksum; a checksum of 0 is written as 0xFFFF (R439). -/
def fillUdp (v6 : Bool) (ip udp : Nat) (bs : List Byte) : List Byte :=
  let len := bs.length - udp
  let bs := putBytes bs (udp + 4) (beBytes len 2 ++ [0, 0])
  let addrs := if v6 then (bs.drop (ip + 8)).take 32 else (bs.drop (ip + 12)).take 8
  let pseudo := addrs ++ beBytes len 4 ++ beBytes 17 4
  let sum := 65535 - onesAdd (sumWords pseudo) (sumWords (bs.drop udp))
  putBytes bs (udp + 6) (beBytes (if sum = 0 then 65535 else sum) 2)

/-- A message of troupe n as a frame, with room for the FCS that the MAC computes (R439). -/
def State.wrapMessage (s : State) (n : Nat) (msg : List Byte) : List Byte :=
  let v6 := s.flag TEL.EXPORT_CFG.IPV6 n
  let ip := s.get TEL.EXPORT_CFG.IP_OFF n
  let udp := s.get TEL.EXPORT_CFG.UDP_OFF n
  fillUdp v6 ip udp (fillIp v6 ip (s.exportHdr n ++ msg)) ++ [0, 0, 0, 0]

/-- A frame that the device itself makes for troupe n takes cells, is admitted at its head for one queue and enqueued;
answers whether it was (R326, R439). -/
def State.enqueueOwn (s : State) (n q : Nat) (bytes : List Byte) : Bool × State :=
  if s.leaving n then (false, s.countDropOf 0x200 n dropPortDown none bytes)
  else if !s.troupeReady n then (false, s.countDropOf 0x200 n dropReload none bytes)
  else match s.injectCells n (segmentLens bytes.length) [] with
  | (none, _, s) => (false, s)
  | (some cells, _, s) =>
    let s := s.layBytes cells bytes
    let k := s.sw.nextPacket
    let v : Packet :=
      { port := 0x200, pipe := 0, troupe := n, epoch := natBit (s.get CFG.EPOCH.BITS 0) n, injected := true,
        head := bytes.take 256, body := bytes.drop 256, len := bytes.length, arrived := bytes.length, whole := true,
        stamp := s.netStamp, raw := 4 * s.now, unlocked := !s.ready rdyTime, place := .hub,
        md := { queueId := some q }, cells := cells }
    let s := { s with sw := { s.sw with nextPacket := k + 1 } }
    let s := s.putPacket k v
    let c : Copy := { kind := .unicast, queue := q }
    match s.admitAll k v [c] s [] with
    | (s, (c, r) :: _) =>
      let s := s.admitFrame k v [(c, r)] r
      match (s.packet k).bind (·.desc) with
      | some d => (true, s.goodVerdict k d)
      | none => (true, s)
    | (s, []) => (false, s.refuseFrame k)

/-! ## Messages (R437 to R440) -/

/-- A message of troupe n is sent to its ring or its queue; answers whether it found room. -/
def State.sendMessage (s : State) (n : Nat) (msg : List Byte) : Bool × State :=
  if s.flag TEL.EXPORT_CFG.DEST n then s.enqueueOwn n (s.get TEL.EXPORT_CFG.QUEUE n) (s.wrapMessage n msg)
  else s.tlmPut n msg

/-- A message of troupe n is full, or its first record has waited FLUSH_US (R439). -/
def State.messageDue (s : State) (n : Nat) : Bool :=
  let v := s.stream n
  let room := s.messageMax n - 16
  !v.records.isEmpty &&
    (decide (v.openedAt + max 1 (s.get TEL.EXPORT_CFG2.FLUSH_US n) * usTicks ≤ s.now) ||
      !(takeRecords room none v.records).2.isEmpty)

/-- EXPORT_MESSAGE_CLOSE: a message of a troupe's stream is closed and sent, or lost with its records counted; the
sequence number advances either way (R437 to R440). -/
def execExportMessageClose (troupe : TroupeNo) (s : State) : Answer :=
  let n := troupe.val
  if !s.flag TEL.EXPORT_CFG.EN n || !s.messageDue n then .next s
  else
    let v := s.stream n
    let templates := if v.templatesAt.isNone then s.templateSet else []
    let (now, later) := takeRecords (s.messageMax n - 16 - templates.length) none v.records
    let msg := s.ipfix n (templates ++ dataSets now)
    let s := s.putStream n { records := later, openedAt := s.now, templatesAt := some (v.templatesAt.getD s.now) }
    let (sent, s) := s.sendMessage n msg
    let s := s.addWrap TEL.EXPORT_SEQ.SEQ n now.length
    .next (if sent then s.addSat TEL.EXPORT_STATUS.RECORDS n now.length else s.exportLost n now.length)

/-- TEMPLATE_RESEND: TEMPLATE_S seconds after the last, a troupe's template sets are sent again (R437). -/
def execTemplateResend (troupe : TroupeNo) (s : State) : Answer :=
  let n := troupe.val
  let v := s.stream n
  match v.templatesAt with
  | none => .next s
  | some t =>
    if s.flag TEL.EXPORT_CFG.EN n && decide (t + max 1 (s.get TEL.EXPORT_CFG2.TEMPLATE_S n) * secTicks ≤ s.now) then
      let s := s.putStream n { v with templatesAt := some s.now }
      .next (s.sendMessage n (s.ipfix n s.templateSet)).2
    else .next s

end Sys2Proof.Machine
end

