-- ==== Sys2Proof/Machine/Pace.lean ====
section
/-!
DEFINITION. The cadence governor (chapter 14): the effective cadence and its limits, the rails, droop, heat, phases and
advisories.
-/

namespace Sys2Proof.Machine

def State.modPace (s : State) (f : PaceBlock → PaceBlock) : State := { s with pace := f s.pace }
def State.dom (s : State) (d : Nat) : Domain := tabGet {} s.pace.domains d
def State.modDom (s : State) (d : Nat) (f : Domain → Domain) : State :=
  s.modPace fun p => { p with domains := tabMod {} p.domains d f }

/-- The five pace domains: rim dies 0 to 3, and 4 for the hub (R469). -/
def paceDomains : List Nat := List.range 5
/-- The regulator of a domain. -/
def domainReg (d : Nat) : Nat := if d = 4 then 0 else d + 1
/-- The domain of a core regulator 0 to 4. -/
def regDomain (r : Nat) : Nat := if r = 0 then 4 else r - 1

/-! ## Settings, within their limits -/

def State.paceMode (s : State) : Nat := s.get PACE.CADENCE_SET.MODE 0
def State.setpoint (s : State) : Nat := clampN 500 2800 (s.get PACE.CADENCE_SET.SETPOINT_MHZ 0)
def State.guardPct (s : State) : Nat := max 1 (s.get PACE.AVS_CFG.GUARD_PCT 0)
def State.droopStep (s : State) : Nat := clampN 1 8 (s.get PACE.DROOP_CFG.STEP 0)

/-- The ceiling and the core-rail range of a mode (R474). -/
def modeCeiling : Nat → Nat
  | 0 => 2800 | 2 => 2000 | _ => 2520
def modeRange : Nat → Nat × Nat
  | 0 => (760, 850) | 2 => (700, 760) | _ => (760, 800)

/-- The allowed range of a domain's rail in mV (R480). -/
def State.railRange (s : State) (d : Nat) : Nat × Nat :=
  let r := domainReg d
  let hi := clampN 700 850 (s.get PACE.RAIL_CFG.VMAX_MV r)
  let lo := min hi (clampN 700 850 (s.get PACE.RAIL_CFG.VMIN_MV r))
  let m := modeRange s.paceMode
  if hi < m.1 then (hi, hi) else if m.2 < lo then (lo, lo) else (max lo m.1, min hi m.2)

def State.volt (s : State) (d : Nat) : Nat := s.get PACE.DOMAIN_STATUS.VOLT_MV d
def State.cap (s : State) (d : Nat) : Nat := s.get PACE.DOMAIN_STATUS.CAP_MHZ d

/-- The capability of a domain less the guard, rounded down to 1 MHz (R480, R482). -/
def State.capLimit (s : State) (d : Nat) : Nat := s.cap d * 100 / (100 + s.guardPct)

/-! ## Limits and the effective cadence (R470, R483) -/

/-- The ceiling of the throttle level (R488); at TRIP no tokens are issued. -/
def State.thermalLimit (s : State) : Option Nat :=
  match s.get PACE.THERMAL_STATUS.LEVEL 0 with
  | 0 => none
  | 1 => some 2381
  | 2 => some 2000
  | 3 => some 1000
  | _ => some 0

/-- The lowest Ce among the senders' entries, with its sender (R504). -/
def lowestSender : List (Nat × Sender) → Option (Nat × Nat)
  | [] => none
  | (m, e) :: es =>
    match lowestSender es with
    | none => some (m, e.ce)
    | some (m', c) => if e.ce ≤ c then some (m, e.ce) else some (m', c)

/-- The FOLLOW limit. -/
def State.followLimit (s : State) : Option Nat :=
  if s.flag PACE.PELOTON_CFG.FOLLOW_EN 0 then
    (lowestSender s.pace.senders).map fun e => max e.2 (clampN 500 2800 (s.get PACE.PELOTON_CFG.FOLLOW_FLOOR_MHZ 0))
  else none

/-- The least of some values that may be absent. -/
def leastOf (vs : List (Option Nat)) : Option Nat :=
  vs.foldl (fun acc v => match acc, v with
    | none, v => v
    | acc, none => acc
    | some a, some b => some (min a b)) none

/-- The limit of the cadence mode: its ceiling, and in Sprint no more than the capability of a domain whose rail stands at
the top of its range (R470, R474). -/
def State.modeLimit (s : State) : Nat :=
  if s.paceMode != 0 then modeCeiling s.paceMode
  else
    (leastOf (some (modeCeiling 0) :: paceDomains.map fun d =>
      if (s.railRange d).2 ≤ s.volt d && s.cap d != 0 && !(s.dom d).frozen then some (s.capLimit d) else none)).getD 0

/-- The target that the rails are set for: the lowest limit other than CAPABILITY, DROOP, RAIL_FAULT and RAMP. -/
def State.wanted (s : State) : Nat :=
  (leastOf [some s.setpoint, some s.modeLimit, s.thermalLimit, s.followLimit]).getD 0

/-- The CAPABILITY limit: a rail at the top of its range that falls short, a lag limit, or a die that wakes (R470,
R472, R478, R480). -/
def State.capabilityLimit (s : State) : Option Nat :=
  leastOf (paceDomains.flatMap fun d =>
    let v := s.dom d
    let short := (s.railRange d).2 ≤ s.volt d && s.cap d != 0 &&
      decide (s.cap d * 100 < s.wanted * (100 + s.guardPct))
    [v.lag, if v.waking || (short && !v.frozen) then some (s.capLimit d) else none])

/-- The RAIL_FAULT limit (R482). -/
def State.railFaultLimit (s : State) : Option Nat :=
  leastOf (paceDomains.map fun d => if (s.dom d).frozen then some (s.capLimit d) else none)

/-- The limits 0 to 4 in the order of R470. -/
def State.limits04 (s : State) : List (Option Nat) :=
  [some s.setpoint, some s.modeLimit, s.capabilityLimit, s.thermalLimit, s.followLimit]

/-- The value that Ce has reached on its way to the goal (R483). -/
def State.rampValue (s : State) : Nat :=
  match s.pace.rampAt with
  | none => s.pace.reached
  | some t =>
    min s.pace.goal (s.pace.reached + max 1 (s.get PACE.AVS_CFG.RAMP_MHZ_US 0) * (s.now - t) / usTicks)

/-- The lowest of a list of limits with its place, the first of equals. -/
def lowestLimit : List (Nat × Option Nat) → Option (Nat × Nat)
  | [] => none
  | (_, none) :: ls => lowestLimit ls
  | (i, some v) :: ls =>
    match lowestLimit ls with
    | none => some (i, v)
    | some (j, w) => if v ≤ w then some (i, v) else some (j, w)

/-- A droop response is in progress (R485). -/
def State.droopOn (s : State) : Bool := s.pace.droopAt.isSome

/-- The FOLLOW limit has begun to bind, or has ceased to (R504). -/
def State.showFollow (s : State) (binds : Bool) : State :=
  let lead := lowestSender s.pace.senders
  let s := s.set PACE.FOLLOW_STATUS.FOLLOW_MHZ 0 ((lead.map Prod.snd).getD 0)
  let s := s.set PACE.FOLLOW_STATUS.LEADER 0 ((lead.map Prod.fst).getD 0)
  let was := s.flag PACE.FOLLOW_STATUS.FOLLOWING 0
  let s := s.set PACE.FOLLOW_STATUS.FOLLOWING 0 (b2n binds)
  if binds && !was then
    (s.raise PACE.INT_CAUSE.FOLLOW).record 0x0406
      (leBytes (s.get PACE.FOLLOW_STATUS.LEADER 0) 1 ++ leBytes ((s.followLimit).getD 0) 2)
  else s

/-- Brings Ce, LIMIT and the status up to date: a lower goal applies at once, a higher one waits for its ramp (R470,
R479, R483, R485). -/
def State.refreshPace (s : State) : State :=
  let l04 := s.limits04
  let low := (leastOf l04).getD 0
  let fault := s.railFaultLimit
  let t := match fault with
    | none => low
    | some f => min low f
  let pv := s.rampValue
  let s :=
    if !s.pace.running then
      s.modPace fun p => { p with reached := t, goal := t, rampAt := none, moved := p.moved || p.goal != t }
    else if t ≤ pv then
      s.modPace fun p => { p with reached := t, goal := t, rampAt := none, moved := p.moved || p.goal != t }
    else if t = s.pace.goal then s
    else s.modPace fun p => { p with reached := pv, goal := t, rampAt := none, moved := true }
  let pv := s.rampValue
  let rising := decide (pv < s.pace.goal)
  let droop := if s.droopOn then some ((16 - s.droopStep) * min low pv / 16) else none
  let all := (l04 ++ [droop, fault, if rising then some pv else none])
  let best := (lowestLimit ((List.range 8).zip all)).getD (0, 0)
  let tokens := s.pace.running && s.get PACE.THERMAL_STATUS.LEVEL 0 != 4
  let old := s.get PACE.STATUS.EFFECTIVE_MHZ 0
  let ce := if tokens then best.2 else 0
  let s := s.set PACE.STATUS.EFFECTIVE_MHZ 0 ce
  let s := s.set PACE.STATUS.LIMIT 0 best.1
  let s := s.set PACE.STATUS.MODE 0 s.paceMode
  let s := s.set PACE.STATUS.RAMPING 0 (b2n s.pace.rampAt.isSome)
  let s := s.set PACE.STATUS.DROOP_RESP 0 (b2n s.droopOn)
  let s := s.set PACE.STATUS.THROTTLE_LEVEL 0 (s.get PACE.THERMAL_STATUS.LEVEL 0)
  let s := if ce = old then s else s.modPace fun p => { p with changed := true }
  s.showFollow ((lowestLimit (((List.range 5).zip l04) ++ [(6, fault)])).map Prod.fst == some 4)

/-! ## The actual cadence and lag (R471, R472, R477) -/

/-- The pipes of a rim die: four of ingress and four of egress. -/
def diePipes (d : Nat) : List Nat := (List.range 4).map (4 * d + ·) ++ (List.range 4).map (16 + 4 * d + ·)

/-- A pipe holds nothing that Freewheel paces it for (R477). -/
def State.pipeEmpty (s : State) (p : Nat) : Bool :=
  let v := s.pipe p
  v.waves.all (fun w => w.heads.isEmpty) &&
    (if p < 16 then v.fifo.isEmpty && v.aux.isEmpty else v.forming.isEmpty)

/-- A pipe is paced: outside Freewheel every pipe is, within it those that hold something, and all while a boost
lasts (R471, R477, R494). -/
def State.paced (s : State) (p : Nat) : Bool :=
  s.paceMode != 3 || !s.pace.boosts.isEmpty || !s.pipeEmpty p

/-- A count of the present window as a rate in MHz: launches in a microsecond (R471). -/
def State.windowRate (s : State) (n : Nat) : Nat := n * usTicks / max usTicks (s.now - s.pace.windowAt)

/-- The actual cadence of a rim die: the launch rate of its slowest pipe in the window, of those that count. -/
def State.dieCadence (s : State) (d : Nat) : Nat :=
  let ps := (diePipes d).filter fun p => s.paced p
  match ps.map fun p => s.windowRate (s.pipe p).launches with
  | [] => s.get PACE.STATUS.EFFECTIVE_MHZ 0
  | x :: xs => xs.foldl min x

/-- LAG_LIMIT: a domain has stayed below 0.99 Ce for a whole window without a change of Ce (R472). -/
def State.lagLimit (s : State) (d : Nat) : State :=
  let a := s.get PACE.DOMAIN_STATUS.ACTUAL_MHZ d
  let ce := s.get PACE.STATUS.EFFECTIVE_MHZ 0
  if s.pace.changed || decide (ce * 99 ≤ a * 100) || (s.dom d).waking || ce = 0 then s
  else
    let s := s.modDom d fun v => { v with lag := some a, coveredSince := none }
    let s := s.set PACE.DOMAIN_STATUS.LAG d 1
    let s := (s.addSat PACE.COUNT.CAD_DROPS 0 1).raise PACE.INT_CAUSE.CAD_DROP
    s.record 0x0401 (leBytes d 1 ++ leBytes a 2)

/-- CADENCE_WINDOW: a window of 1 µs ends. The speed monitors report the capability of the five domains, and the
slowest queue-manager quadrant has launched `quadrants` times, at most once for each of its tokens (R37, R38, R471, R472,
R492). -/
def execCadenceWindow (caps : List Nat) (quadrants : Fin 4096) (s : State) : Answer :=
  if s.now < s.pace.windowAt + usTicks then .next s
  else
    let ce := s.get PACE.STATUS.EFFECTIVE_MHZ 0
    let actual := fun (d : Nat) => if d < 4 then s.dieCadence d else s.windowRate (min quadrants.val s.pace.quadTokens)
    let acts := paceDomains.map actual
    let s := (paceDomains.zip acts).foldl (fun s e => s.set PACE.DOMAIN_STATUS.ACTUAL_MHZ e.1 e.2) s
    let s := s.set PACE.STATUS.ACTUAL_MHZ 0 ((acts.foldl (fun m a => some (min (m.getD a) a)) none).getD 0)
    let s := (List.range 5).foldl (fun s d => s.set PACE.DOMAIN_STATUS.CAP_MHZ d ((caps[d]?).getD 0)) s
    let s := paceDomains.foldl (fun s d =>
      let covers := decide (ce * (100 + s.guardPct) ≤ s.cap d * 100)
      let risen := decide (s.wanted * (100 + s.guardPct) ≤ s.cap d * 100) || decide ((s.railRange d).2 ≤ s.volt d)
      s.modDom d fun v => { v with
        coveredSince := if covers then some (v.coveredSince.getD s.now) else none
        waking := v.waking && !risen }) s
    let s := paceDomains.foldl (fun s d => s.lagLimit d) s
    let s := if ce < min s.setpoint s.modeLimit then
        s.addSat PACE.COUNT.SHORT_US 0 ((s.now - s.pace.windowAt) / usTicks) else s
    let s := (List.range 32).foldl (fun s p => s.modPipe p fun v => { v with launches := 0 }) s
    let s := s.modPace fun p => { p with windowAt := s.now, quadTokens := 0, changed := false }
    .next s.refreshPace

/-- LAG_RECOVER: the capability of a domain has covered Ce for RECOVER_US, and its lag limit is lifted (R472). -/
def execLagRecover (domain : Fin 5) (s : State) : Answer :=
  let d := domain.val
  match (s.dom d).lag, (s.dom d).coveredSince with
  | some _, some t =>
    if t + max 1 (s.get PACE.AVS_CFG.RECOVER_US 0) * usTicks ≤ s.now then
      let s := s.modDom d fun v => { v with lag := none }
      .next (s.set PACE.DOMAIN_STATUS.LAG d 0).refreshPace
    else .next s
  | _, _ => .next s

/-! ## Rails (R480 to R486) -/

/-- A rail may not be lowered: a detector on it is active, or cleared less than 2 µs ago (R486). -/
def State.lowerBlocked (s : State) (d : Nat) : Bool :=
  let v := s.dom d
  decide (0 < v.droops) || match v.clearedAt with
    | none => false
    | some t => decide (s.now < t + 2 * usTicks)

/-- Shows the droop detectors and what they block (R485, R486). -/
def State.showDroop (s : State) : State :=
  let bits := fun (f : Nat → Bool) => bitsToNat (paceDomains.map f)
  let s := s.set PACE.DROOP_STATUS.ACTIVE 0 (bits fun d => decide (0 < (s.dom d).droops))
  s.set PACE.DROOP_STATUS.LOWER_BLOCKED 0 (bits fun d => s.lowerBlocked d)

/-- The voltage that a rail is to have: its R480 value, boosted, idled, or that of TRIP (R478, R490, R494). -/
def State.railWant (s : State) (d : Nat) : Nat :=
  let v := s.dom d
  let range := s.railRange d
  if s.get PACE.THERMAL_STATUS.LEVEL 0 = 4 then 700
  else if !s.pace.boosts.isEmpty then min range.2 (v.base + min 50 (s.get PACE.PHASE_CFG.BOOST_MV 0))
  else if v.idled then
    max (clampN 700 760 (s.get PACE.FREEWHEEL_CFG.IDLE_MV 0)) (clampN 700 850 (s.get PACE.RAIL_CFG.VMIN_MV (domainReg d)))
  else v.base

/-- A rail is commanded to the voltage it is to have; a lowering that R486 blocks waits, and a rail under fault is left
alone (R482). -/
def State.applyRail (s : State) (d : Nat) : State :=
  let w := s.railWant d
  if w = s.volt d || (s.dom d).frozen || (decide (w < s.volt d) && s.lowerBlocked d) then s
  else (s.set PACE.DOMAIN_STATUS.VOLT_MV d w).emit (.rail (domainReg d) w)

def State.applyRails (s : State) : State := paceDomains.foldl (fun s d => s.applyRail d) s

/-- The rails under a new mode: each is brought into the range of the mode (R474, R480), and outside Freewheel none idles; one
that did rises again while the capability of its die limits Ce, as at a wake (R63, R478). -/
def State.railsForMode (s : State) : State :=
  (paceDomains.foldl (fun s d =>
    let range := s.railRange d
    s.modDom d fun v => { v with
      base := clampN range.1 range.2 v.base
      waking := v.waking || (v.idled && s.paceMode != 3)
      idled := v.idled && s.paceMode == 3 }) s).applyRails

/-- CADENCE_SET_WRITE: a write of PACE.CADENCE_SET sets mode and setpoint at once (R473, R479). -/
def execCadenceSetWrite (value : Word) (s : State) : Answer :=
  if !s.hostReach 0 false then .next s else
  let s := s.set PACE.CADENCE_SET.SETPOINT_MHZ 0 (bitsOf value 0 12)
  let was := s.paceMode
  let s := s.set PACE.CADENCE_SET.MODE 0 (bitsOf value 16 2)
  .next (if s.paceMode = was then s else s.refreshPace.railsForMode).refreshPace

/-- The governor's step for one rail that answered (R480). -/
def State.adjustRail (s : State) (d : Nat) (moved : Bool) : State :=
  let v := s.dom d
  let range := s.railRange d
  let goal := s.pace.goal
  let base :=
    if moved then clampN range.1 range.2 ((Config.fusedMv d goal + 4) / 5 * 5)
    else if s.volt d != s.railWant d then clampN range.1 range.2 v.base
    else if s.cap d * 100 < s.wanted * (100 + s.guardPct) then clampN range.1 range.2 (v.base + 10)
    else if s.wanted * (100 + 2 * s.guardPct) ≤ s.cap d * 100 && !s.lowerBlocked d then clampN range.1 range.2 (v.base - 5)
    else clampN range.1 range.2 v.base
  (s.modDom d fun v => { v with base := base, fails := 0 }).applyRail d

/-- RAIL_ADJUST: every 100 µs, or when the target has changed, the governor sets the core rails; bit d of `answers` says
that the AVSBus transaction of domain d's rail went well (R480, R482). -/
def execRailAdjust (answers : BitVec 5) (s : State) : Answer :=
  if !s.pace.moved && decide (s.now < s.pace.adjustAt + 100 * usTicks) then .next s
  else
    let moved := s.pace.moved
    let s := s.modPace fun p => { p with moved := false, adjustAt := s.now }
    let s := paceDomains.foldl (fun s d =>
      if (s.dom d).frozen then s
      else if natBit answers.toNat d then s.adjustRail d moved
      else s.modDom d fun v => { v with fails := v.fails + 1 }) s
    .next s.showDroop.refreshPace

/-- A regulator's fault is shown, raised and recorded (R482). -/
def State.railFault (s : State) (r : Nat) (avs : Bool) : State :=
  let s := if avs then s.set PACE.RAIL_STATUS.AVS_FAULT r 1 else s
  let s := (s.set PACE.RAIL_STATUS.FAULT_SEEN r 1).raise PACE.INT_CAUSE.RAIL_FAULT
  s.record 0x0402 (leBytes r 1 ++ leBytes (tabGet 0 s.pace.statusWords r) 2)

/-- A core rail is frozen by a fault. -/
def State.freezeRail (s : State) (r : Nat) (avs : Bool) : State :=
  (s.modDom (regDomain r) fun v => { v with frozen := true, goodSince := none, retryAt := s.now }).railFault r avs

/-- RAIL_FAULT: three AVSBus failures in a row or a fault that the regulator reports (R482). -/
def execRailFault (rail : Fin 9) (s : State) : Answer :=
  let r := rail.val
  let bad := s.flag PACE.RAIL_STATUS.PMBUS_FAULT r
  if r < 5 then
    let v := s.dom (regDomain r)
    if !v.frozen && (bad || decide (3 ≤ v.fails)) then .next (s.freezeRail r (decide (3 ≤ v.fails))).refreshPace
    else .next s
  else if bad && !s.pace.otherFaults.contains r then
    .next ((s.modPace fun p => { p with otherFaults := r :: p.otherFaults }).railFault r false)
  else .next s

/-- RAIL_RETRY: the retry of a faulted rail, every 1 ms, finds the regulator answering without a fault or not (R482). -/
def execRailRetry (rail : Fin 5) (good : Bool) (s : State) : Answer :=
  let d := regDomain rail.val
  let v := s.dom d
  if !v.frozen || decide (s.now < v.retryAt + msTicks) then .next s
  else if !good then .next (s.modDom d fun v => { v with retryAt := s.now, goodSince := none })
  else
    let since := v.goodSince.getD s.now
    let s := s.modDom d fun v => { v with retryAt := s.now, goodSince := some since }
    if since + 10 * msTicks ≤ s.now then
      let s := s.modDom d fun v => { v with frozen := false, fails := 0, goodSince := none }
      let s := s.set PACE.RAIL_STATUS.AVS_FAULT rail.val 0
      .next ((s.set PACE.RAIL_STATUS.PMBUS_FAULT rail.val 0).modPace fun p => { p with moved := true }).refreshPace
    else .next s

/-- RAMP_START: AVSBus reported at raw time `settled` that every rail has its voltage, and SETTLE_US have passed (R483,
R486). -/
def execRampStart (settled : Nat) (s : State) : Answer :=
  if s.pace.rampAt.isNone && decide (s.pace.reached < s.pace.goal) && !s.pace.moved && !s.droopOn &&
      decide (settled + s.get PACE.AVS_CFG.SETTLE_US 0 * usTicks ≤ s.now) then
    .next (s.modPace fun p => { p with rampAt := some s.now }).refreshPace
  else .next s

/-- RAMP_END: a ramp has reached its target (R483). -/
def execRampEnd (s : State) : Answer :=
  if s.pace.rampAt.isSome && s.rampValue == s.pace.goal then
    .next (s.modPace fun p => { p with reached := p.goal, rampAt := none }).refreshPace
  else .next s

/-! ## Droop (R485 to R487) -/

/-- DROOP_DETECT: a detector of a domain fires; a pending increase of Ce waits for the end of the response (R485 to
R487). -/
def execDroopDetect (domain : Fin 5) (s : State) : Answer :=
  let d := domain.val
  let s := s.modDom d fun v => { v with droops := v.droops + 1 }
  let s := if s.droopOn then s
    else (s.modPace fun p => { p with
      droopAt := some s.now, droopFired := 0, droopLong := false, reached := s.rampValue, rampAt := none }).addSat
        PACE.COUNT.DROOP_EVENTS 0 1
  let s := s.modPace fun p => { p with droopFired := natSetBit p.droopFired d true }
  .next s.showDroop.refreshPace

/-- DROOP_CLEAR: a detector of a domain clears (R485). -/
def execDroopClear (domain : Fin 5) (s : State) : Answer :=
  let d := domain.val
  if (s.dom d).droops = 0 then .next s
  else .next (s.modDom d fun v => { v with droops := v.droops - 1, clearedAt := some s.now }).showDroop

/-- The droop response may end: no detector is active, and the last cleared 2 µs ago (R485). -/
def State.droopOver (s : State) : Bool := paceDomains.all fun d => !s.lowerBlocked d

/-- The droop response has lasted longer than LONG_US (R487). -/
def State.droopIsLong (s : State) : Bool :=
  match s.pace.droopAt with
  | none => false
  | some t => decide (t + max 1 (s.get PACE.DROOP_CFG.LONG_US 0) * usTicks < s.now)

/-- DROOP_LONG: the droop response passes LONG_US (R487). -/
def execDroopLong (s : State) : Answer :=
  if s.droopIsLong && !s.pace.droopLong then
    .next (((s.modPace fun p => { p with droopLong := true }).set PACE.DROOP_STATUS.LONG_SEEN 0 1).raise
      PACE.INT_CAUSE.DROOP_LONG)
  else .next s

/-- DROOP_RESPONSE_END: 2 µs after the last detector cleared (R485 to R487). -/
def execDroopResponseEnd (s : State) : Answer :=
  match s.pace.droopAt with
  | none => .next s
  | some t =>
    if !s.droopOver then .next s
    else
      let us := (s.now - t) / usTicks
      let s := if s.droopIsLong then
          s.record 0x0403 (leBytes s.pace.droopFired 1 ++ leBytes (min us (2 ^ 32 - 1)) 4)
        else s
      let s := s.modPace fun p => { p with droopAt := none, droopFired := 0 }
      .next s.applyRails.showDroop.refreshPace

/-! ## Heat (R488 to R490) -/

/-- The threshold of a throttle level in °C. -/
def State.throttleAt (s : State) (level : Nat) : Nat :=
  let t1 := clampN 70 94 (s.get PACE.THERMAL_CFG.THROTTLE1_C 0)
  match level with
  | 1 => t1
  | 2 => let t2 := clampN 71 95 (s.get PACE.THERMAL_CFG.THROTTLE2_C 0)
    if t2 ≤ t1 then t1 + 1 else t2
  | 3 => 96
  | _ => 102

/-- The level that a temperature reaches. -/
def State.levelAt (s : State) (t : Nat) : Nat :=
  ([4, 3, 2, 1].find? fun l => decide (s.throttleAt l ≤ t)).getD 0

/-- The hottest sensor is below a level's threshold less HYST_C. -/
def State.coolFor (s : State) (level t : Nat) : Bool :=
  decide (t + max 1 (s.get PACE.THERMAL_CFG.HYST_C 0) < s.throttleAt level)

/-- The hottest of a run of sensors, as sensor and temperature, the first of equals. -/
def hottest (ts : List (Nat × Nat)) : Nat × Nat :=
  ts.foldl (fun acc e => if acc.2 < e.2 then e else acc) ((ts.head?).getD (0, 0))

/-- The sensors of a domain (R469). -/
def domainSensors (d : Nat) : Nat × Nat := if d = 4 then (192, 64) else (48 * d, 48)

/-- THERMAL_TRIP: level 4 stops pace tokens, lowers the rails and asserts THERMTRIP_N (R490, R609). -/
def State.thermalTrip (s : State) (sensor t : Nat) : State :=
  let s := s.set PACE.THERMAL_STATUS.TRIP 0 1
  let s : State := { s with pkg := { s.pkg with trip := true } }
  let s := (s.emit (.pin "THERMTRIP_N" 0)).raise PACE.INT_CAUSE.TRIP
  (s.record 0x0405 (leBytes sensor 1 ++ leBytes t 1)).applyRails

/-- THERMAL_SAMPLE: the 256 sensors are sampled, in °C (R488 to R490). -/
def execThermalSample (temps : List Int) (s : State) : Answer :=
  if s.now < s.pace.sampledAt + 20 * usTicks then .next s
  else
    let ts := (List.range 256).map fun i => (i, min 255 ((temps[i]?).getD 0).toNat)
    let s := (List.range 32).foldl (fun s k =>
      s.setReg .PACE_TEMP k (ofLe (((ts.drop (8 * k)).take 8).map fun e => BitVec.ofNat 8 e.2))) s
    let s := paceDomains.foldl (fun s d =>
      let r := domainSensors d
      s.set PACE.DOMAIN_STATUS.HOT_C d (hottest ((ts.drop r.1).take r.2)).2) s
    let hot := hottest ts
    let s := s.set PACE.THERMAL_STATUS.HOTTEST_C 0 hot.2
    let s := s.set PACE.THERMAL_STATUS.HOTTEST_SENSOR 0 hot.1
    let old := s.get PACE.THERMAL_STATUS.LEVEL 0
    let new := max old (s.levelAt hot.2)
    let s := s.modPace fun p => { p with
      sampledAt := s.now
      coolSince := if s.coolFor new hot.2 && new == old then some (p.coolSince.getD s.now) else none }
    if old < new then
      let s := s.set PACE.THERMAL_STATUS.LEVEL 0 new
      let s := (s.set PACE.THERMAL_STATUS.LEVEL_SEEN 0 1).raise PACE.INT_CAUSE.THROTTLE
      let s := s.record 0x0404 (leBytes new 1 ++ leBytes hot.1 1 ++ leBytes hot.2 1)
      .next (if new = 4 then s.thermalTrip hot.1 hot.2 else s).refreshPace
    else .next s

/-- THROTTLE_FALL: the hottest sensor has stayed cool for EXIT_MS, and the level falls by one (R488). -/
def execThrottleFall (s : State) : Answer :=
  let level := s.get PACE.THERMAL_STATUS.LEVEL 0
  match s.pace.coolSince with
  | none => .next s
  | some t =>
    if level = 0 || level = 4 || decide (s.now < t + max 1 (s.get PACE.THERMAL_CFG.EXIT_MS 0) * msTicks) then .next s
    else
      let s := s.set PACE.THERMAL_STATUS.LEVEL 0 (level - 1)
      let cool := s.coolFor (level - 1) (s.get PACE.THERMAL_STATUS.HOTTEST_C 0)
      .next (s.modPace fun p => { p with coolSince := if cool then some s.now else none }).refreshPace

/-! ## Freewheel (R478) -/

/-- FREEWHEEL_IDLE: the eight pipes of a rim die have had no tokens for IDLE_US, and its rail idles (R478). -/
def execFreewheelIdle (die : RimNo) (s : State) : Answer :=
  let d := die.val
  let us := max 1 (s.get PACE.FREEWHEEL_CFG.IDLE_US 0) * usTicks
  if s.paceMode == 3 && !(s.dom d).idled &&
      (diePipes d).all (fun p => !s.paced p && decide ((s.pipe p).idleSince + us ≤ s.now)) then
    .next ((s.modDom d fun v => { v with idled := true }).applyRail d)
  else .next s

/-- FREEWHEEL_WAKE: a head stands at an idled die, whose rail rises again while its capability limits Ce (R478). -/
def execFreewheelWake (die : RimNo) (s : State) : Answer :=
  let d := die.val
  if (s.dom d).idled && (diePipes d).any (fun p => !s.pipeEmpty p) then
    .next ((s.modDom d fun v => { v with idled := false, waking := true }).applyRail d).refreshPace
  else .next s

/-! ## The start of the tokens (R484) -/

/-- The governor starts the pace tokens and sets GOVERNOR. -/
def State.startPace (s : State) : State :=
  let s := s.refreshPace
  ((s.modPace fun p => { p with running := true, windowAt := s.now, changed := true }).refreshPace).setReady rdyGovernor
    true false

/-- GOVERNOR_READY: the governor has read all five core regulators, with the capabilities `caps`, and each domain covers
the Peloton target at the setpoint or has its rail at the top of its range (R484). -/
def execGovernorReady (caps : List Nat) (s : State) : Answer :=
  if s.pace.running then .next s
  else
    let s := (List.range 5).foldl (fun s d => s.set PACE.DOMAIN_STATUS.CAP_MHZ d ((caps[d]?).getD 0)) s
    let target := min s.setpoint 2520
    if paceDomains.all fun d => decide (target ≤ s.cap d) || decide ((s.railRange d).2 ≤ s.volt d) then .next s.startPace
    else .next s

/-- AVS_TIMEOUT: AVSBus has not answered within 10 ms of the hub leaving reset: the rails stay at their boot voltage,
the rules of a fault apply to each, and GOVERNOR still sets (R484). -/
def execAvsTimeout (s : State) : Answer :=
  if s.pace.running || decide (s.now < s.pace.hubAt + 10 * msTicks) then .next s
  else .next ((List.range 5).foldl (fun s r => s.freezeRail r true) s).startPace

/-! ## Phases (R493 to R496) -/

/-- The timebase of a phase entry now, in ns. -/
def State.phaseNow (s : State) (i : Nat) : Int :=
  if s.flag PACE.PHASE_A.TIMEBASE i then s.netNs else (s.now / 2 : Nat)

/-- The occurrence k of an entry whose boost may hold at time t: the last with t_k − LEAD_NS ≤ t (R493, R494). -/
def State.phaseIndex (s : State) (i : Nat) (t : Int) : Int :=
  let period : Int := s.get PACE.PHASE_A.PERIOD_NS i
  if period = 0 then 0
  else (t + s.get PACE.PHASE_B.LEAD_NS i - s.get PACE.PHASE_B.OFFSET_NS i) / period

def State.phaseAt (s : State) (i : Nat) (k : Int) : Int :=
  s.get PACE.PHASE_B.OFFSET_NS i + k * s.get PACE.PHASE_A.PERIOD_NS i

/-- The boost of a source holds now (R494, R495). -/
def State.boostDue (s : State) : BoostBy → Bool
  | .phase i =>
    let t := s.phaseNow i
    s.flag PACE.PHASE_CFG.EN 0 && s.flag PACE.PHASE_A.VALID i.val &&
      decide (t < s.phaseAt i (s.phaseIndex i t) + s.get PACE.PHASE_C.DURATION_NS i)
  | .gate x g =>
    let t := s.netTime
    let lead := (s.get PACE.PHASE_B.LEAD_NS 15 : Nat) * nsUnit
    s.flag PACE.PHASE_CFG.GATE_EN 0 && s.windowed (16 * x.val + g.val) &&
      (natBit (s.gatesAt x.val t).1 g || s.opensIn x.val t (t + lead) (gateFuel lead))

/-- PHASE_BOOST_START: LEAD_NS before a predicted burst or a gate opening, the rails are boosted (R494, R495). -/
def execPhaseBoostStart (by_ : BoostBy) (s : State) : Answer :=
  if s.boostDue by_ && !s.pace.boosts.contains by_ then
    .next (s.modPace fun p => { p with boosts := by_ :: p.boosts }).applyRails
  else .next s

/-- PHASE_BOOST_END: a boost is over, and its end is a lowering under R486 (R494). -/
def execPhaseBoostEnd (by_ : BoostBy) (s : State) : Answer :=
  if !s.boostDue by_ && s.pace.boosts.contains by_ then
    .next (s.modPace fun p => { p with boosts := p.boosts.filter (· != by_) }).applyRails
  else .next s

/-- Heads launched in an interval of an entry's timebase. -/
def State.headsIn (s : State) (i : Nat) (a b : Int) : Nat :=
  (s.pace.heads.map fun h =>
    let t : Int := if s.flag PACE.PHASE_A.TIMEBASE i then h.2.1 else (h.1 / 2 : Nat)
    if a ≤ t && t ≤ b then h.2.2 else 0).foldl (· + ·) 0

/-- PHASE_EVALUATE: the last occurrence of an entry that has ended is judged a hit or a miss (R496). -/
def execPhaseEvaluate (entry : Fin 16) (s : State) : Answer :=
  let i := entry.val
  let period : Int := s.get PACE.PHASE_A.PERIOD_NS i
  if !s.flag PACE.PHASE_A.VALID i || period = 0 then .next s
  else
    let dur : Int := s.get PACE.PHASE_C.DURATION_NS i
    let k := (s.phaseNow i - dur - s.get PACE.PHASE_B.OFFSET_NS i) / period
    if tabFind s.pace.judged i == some k then .next s
    else
      let s := s.modPace fun p => { p with judged := tabPut p.judged i k }
      let t := s.phaseAt i k
      let before := t - s.get PACE.PHASE_B.LEAD_NS i
      if 2 * s.headsIn i (before - dur) before ≤ s.headsIn i t (t + dur) then
        .next ((s.addSat PACE.PHASE_D.HITS i 1).set PACE.PHASE_D.MISSES i 0)
      else
        let s := s.addSat PACE.PHASE_D.MISSES i 1
        if max 1 (s.get PACE.PHASE_CFG.MISS_LIMIT 0) ≤ s.get PACE.PHASE_D.MISSES i then
          .next (((s.set PACE.PHASE_A.VALID i 0).set PACE.PHASE_D.RETIRED i 1).raise PACE.INT_CAUSE.PHASE_RETIRED)
        else .next s

/-- A write of PHASE_A by the party that owns the entry: VALID stays 0 where the period is out of range (R493). -/
def State.writePhaseA (s : State) (i : Nat) (value : Word) : State :=
  let period := bitsOf value 0 34
  let ok := decide (10000 ≤ period) && decide (period ≤ 10000000000)
  let s := s.set PACE.PHASE_A.PERIOD_NS i period
  let s := s.set PACE.PHASE_A.TIMEBASE i (bitsOf value 35 1)
  s.set PACE.PHASE_A.VALID i (if ok then bitsOf value 34 1 else 0)

/-! ## Advisories (R500 to R504) -/

/-- The slowing that an advisory would now tell of, with its cause (R500, R501). A slowing that has been told of lasts, as it
was told, while Ce stays below the bound under DROOP or RAMP, which themselves cause none. -/
def State.slowing (s : State) : Option Advisory :=
  if !s.flag PACE.PELOTON_CFG.SEND_EN 0 then none
  else
    let ce := s.get PACE.STATUS.EFFECTIVE_MHZ 0
    let pct := clampN 1 50 (s.get PACE.PELOTON_CFG.ADV_MIN_PCT 0)
    if s.get PACE.THERMAL_STATUS.LEVEL 0 = 4 then some { kind := 0, ce := ce, cause := 4 }
    else if s.pace.running && decide (ce * 100 < s.setpoint * (100 - pct)) then
      match s.get PACE.STATUS.LIMIT 0 with
      | 3 => some { kind := 0, ce := ce, cause := 1 }
      | 2 => some { kind := 0, ce := ce, cause := 2 }
      | 6 => some { kind := 0, ce := ce, cause := 3 }
      | 5 | 7 => s.pace.sent.filter fun a => a.kind == 0
      | _ => none
    else none

def State.refreshAdvUs (s : State) : Nat := max 10 (s.get PACE.PELOTON_CFG.REFRESH_US 0)

/-- The 12 bytes of an advisory (R501). -/
def State.advisoryBytes (s : State) (a : Advisory) : List Byte :=
  let body := leBytes (1 + 16 * a.kind) 1 ++ leBytes (s.get PACE.PELOTON_CFG.GROUP_ID 0) 1 ++
    leBytes (s.get PACE.PELOTON_CFG.MEMBER_ID 0) 1 ++ leBytes (s.pace.seq % 256) 1 ++ leBytes (a.ce + 4096 * a.cause) 2 ++
    leBytes s.setpoint 2 ++ leBytes s.refreshAdvUs 2
  body ++ leBytes (crc16 0xFFFF body) 2

/-- The 64 B frame of an advisory on a port of another line code, with room for the FCS (R502). -/
def State.advisoryFrame (s : State) (x : Nat) (bytes : List Byte) : List Byte :=
  padTo 64 (leBytes (s.get PACE.ADV_DA.ADDR 0) 6 ++ leBytes (s.get PORT.SA.ADDR x) 6 ++ [0x88, 0xB5] ++ bytes)

/-- The four control blocks of type 0x4B that carry an advisory: block i holds bytes 3i to 3i + 2 in D1 to D3 and the O code
0xA + i (R502). -/
def advisoryBlocks (bytes : List Byte) : List PcsBlock :=
  (List.range 4).map fun i =>
    { control := true, payload := 0x4B + 256 * ofLe ((bytes.drop (3 * i)).take 3) + (0xA + i) * 2 ^ 32 }

/-- An advisory goes out on the ports of ADV_PORTS (R502). -/
def State.sendAdvisory (s : State) (a : Advisory) : State :=
  let s := s.modPace fun p => { p with sent := some a, sentAt := s.now }
  let bytes := s.advisoryBytes a
  ((s.image.ports.map (·.port)).filter fun x => natBit (s.reg .PACE_ADV_PORTS (x / 64)) (x % 64)).foldl (fun s x =>
    if s.laneL425 x then
      let s := if s.portIdle x then s.wakePort x else s
      (s.emit (.advisory x bytes)).sendBlocks x (advisoryBlocks bytes)
    else
      let (ok, s) := s.enqueueOwn 0 (x * 2048 + s.get PACE.PELOTON_CFG.ADV_CG 0 * 128) (s.advisoryFrame x bytes)
      if ok then s else s.addSat PACE.FOLLOW_STATUS.ADV_TX_DROPS 0 1) s

/-- A new advisory takes the next number (R501). -/
def State.newAdvisory (s : State) (a : Advisory) (clears : Nat) : State :=
  (s.modPace fun p => { p with seq := p.seq + 1, clears := clears }).sendAdvisory a

/-- ADVISORY_SEND: a slowing begins, changes or ends (R500). -/
def execAdvisorySend (s : State) : Answer :=
  match s.slowing, s.pace.sent with
  | some a, sent => if sent = some a then .next s else .next (s.newAdvisory a 0)
  | none, some b =>
    if b.kind = 0 && s.flag PACE.PELOTON_CFG.SEND_EN 0 then
      .next (s.newAdvisory { kind := 1, ce := s.get PACE.STATUS.EFFECTIVE_MHZ 0, cause := 0 } 2)
    else .next s
  | none, none => .next s

/-- ADVISORY_REFRESH: REFRESH_US after the last one, a lasting SLOW or a pending CLEAR is sent again (R500). -/
def execAdvisoryRefresh (s : State) : Answer :=
  match s.pace.sent with
  | none => .next s
  | some a =>
    if !s.flag PACE.PELOTON_CFG.SEND_EN 0 || decide (s.now < s.pace.sentAt + s.refreshAdvUs * usTicks) then .next s
    else if a.kind = 0 then (if s.slowing = some a then .next (s.sendAdvisory a) else .next s)
    else if 0 < s.pace.clears then .next ((s.modPace fun p => { p with clears := p.clears - 1 }).sendAdvisory a)
    else .next s

/-- An advisory is accepted or rejected (R503, R504). -/
def State.takeAdvisory (s : State) (bytes : List Byte) (port : Nat) (viaHost : Bool) : State :=
  let b := fun (i : Nat) => ((bytes[i]?).getD 0).toNat
  let member := b 2 % 64
  let good := bytes.length == 12 && b 0 % 16 == 1 && ofLe ((bytes.drop 10).take 2) == crc16 0xFFFF (bytes.take 10) &&
    b 1 == s.get PACE.PELOTON_CFG.GROUP_ID 0 && member != s.get PACE.PELOTON_CFG.MEMBER_ID 0
  if !good then s.addSat PACE.FOLLOW_STATUS.ADV_REJECT 0 1
  else
    let s := s.addSat PACE.FOLLOW_STATUS.ADV_RX 0 1
    let s := s.setReg .PACE_ADV_LAST 0 (ofLe (bytes.take 8))
    let s := s.set PACE.ADV_LAST2.BYTES_HI 0 (ofLe ((bytes.drop 8).take 4))
    let s := s.set PACE.ADV_LAST2.PORT 0 (if viaHost then 0 else port)
    let s := (s.set PACE.ADV_LAST2.VIA_HOST 0 (b2n viaHost)).raise PACE.INT_CAUSE.ADV_RX
    let s := match b 0 / 16 with
      | 0 =>
        let e : Sender := { ce := (b 4 + 256 * b 5) % 4096, refreshUs := b 8 + 256 * b 9, setAt := s.now }
        s.modPace fun p => { p with senders := tabPut p.senders member e }
      | 1 => s.modPace fun p => { p with senders := tabDel p.senders member }
      | _ => s
    s.refreshPace

/-- ADVISORY_RX: four consecutive control blocks with O codes 0xA to 0xD came on an L425 port with these 12 bytes
(R503). -/
def execAdvisoryRx (port : PortNo) (bytes : List Byte) (s : State) : Answer :=
  if s.laneL425 port.val then .next (s.takeAdvisory bytes port.val false) else .next s

/-- ADV_INJECT: a write of PACE.ADV_INJECT2 by the physical function delivers the bytes of ADV_INJECT with its own
(R503). -/
def execAdvInject (value : Word) (s : State) : Answer :=
  if !s.hostReach 0 false then .next s else
  let s := s.set PACE.ADV_INJECT2.BYTES_HI 0 (bitsOf value 0 32)
  .next (s.takeAdvisory (leBytes (s.reg .PACE_ADV_INJECT 0) 8 ++ leBytes (bitsOf value 0 32) 4) 0 true)

/-- ADVISORY_EXPIRY: a sender's entry has not been refreshed for four times its REFRESH_US (R504). -/
def execAdvisoryExpiry (member : Fin 64) (s : State) : Answer :=
  match tabFind s.pace.senders member.val with
  | none => .next s
  | some e =>
    if e.setAt + 4 * e.refreshUs * usTicks < s.now then
      .next (s.modPace fun p => { p with senders := tabDel p.senders member.val }).refreshPace
    else .next s

/-! ## Pace tokens (R37, R470, R477) -/

/-- The pace tokens of one tick of raw time: Ce in MHz against 2,000 ticks in a microsecond, to every pipe that is paced and to
the four queue-manager quadrants (R37). A token that a pipe has not used lapses at the next, so that no window has more
launches than tokens (R38). -/
def State.paceTick (s : State) : State :=
  let acc := s.pace.acc + s.get PACE.STATUS.EFFECTIVE_MHZ 0
  let n := acc / usTicks
  let s := s.modPace fun p => { p with acc := acc % usTicks, quadTokens := p.quadTokens + n }
  if n = 0 then s
  else (List.range 32).foldl (fun s p =>
    if s.paced p then s.modPipe p fun v => { v with tokens := n, idleSince := s.now } else s) s

/-- A rail whose detectors have been clear for 2 µs may be lowered again: a lowering that waits proceeds (R486). -/
def State.lowerTick (s : State) : State :=
  if paceDomains.any fun d => decide ((s.dom d).droops = 0) && (s.dom d).clearedAt == some (s.now - 2 * usTicks) then
    s.applyRails.showDroop
  else s

/-- The hub leaves reset: the rails stand at their boot voltage (R484, R601). -/
def State.hubStartsPace (s : State) : State :=
  let s : State := { s with pace := { hubAt := s.now, adjustAt := s.now } }
  paceDomains.foldl (fun s d => s.set PACE.DOMAIN_STATUS.VOLT_MV d 800) s

end Sys2Proof.Machine
end

