-- ==== Sys2Proof/Machine/Clock.lean ====
section
/-!
DEFINITION. A tick of the part's clocks, which passes while no command waits.
-/

namespace Sys2Proof.Machine

/-- A tick of 0.5 ns (log entry 1): the keeper's time runs while VDD_KEEP is present, and while the hub is out of reset
the raw counter counts (R371), the pace counter makes its tokens (R37), a rail that waited for its detectors is lowered
(R486) and the table writer makes its next writes (R232). -/
def State.tick (s : State) : State :=
  let s := if s.pkg.keep then { s with pkg := { s.pkg with keepNow := s.pkg.keepNow + 1 } } else s
  if s.pkg.hubUp then { s with now := s.now + 1 }.paceTick.lowerTick.opsTick else s

end Sys2Proof.Machine
end

