-- ==== Sys2Proof/Machine/Sched.lean ====
section
/-!
DEFINITION. The queue manager's scheduler (chapter 10): the pick of a frame, the calendar wheels, and the ends of
holds and flushes.
-/

namespace Sys2Proof.Machine

/-! ## The pick (R337 to R343, R347, R397) -/

/-- FLIGHT_KIB of a port in bytes (R337). -/
def State.flightLimit (s : State) (x : Nat) : Nat := max 4 (s.get QM.PORT_CFG.FLIGHT_KIB x) * 1024

/-- The scheduler of a port may pick (R337, R338), the egress pipe's acknowledgement apart. -/
def State.portMayPick (s : State) (x : Nat) : Bool :=
  s.portExists x && s.qmState x == qmActive && !s.shaperBlocks (portShaper x) &&
    decide ((s.port x).flight < s.flightLimit x) && (List.range 16).any fun g => s.cgEligible (16 * x + g)

/-- Head slots free in the wavefront that an egress pipe is forming: eight per pace token (R337). -/
def State.slotsFree (s : State) (p : Nat) : Nat := 8 - max (s.pipe p).forming.length (s.pipe p).picks

/-- It is port x's turn: slots are free for every port that has a pick ready, or x is among the next in rotation over
the port numbers (R337). -/
def State.pickTurn (s : State) (x : Nat) : Bool :=
  let p := 16 + portPipe x
  let ready := ((s.image.ports.map (·.port)).filter fun y => portPipe y == portPipe x && s.portMayPick y)
  let slots := s.slotsFree p
  if slots = 0 then false
  else if ready.length ≤ slots then ready.contains x
  else
    let last := (s.pipe p).lastPort
    let order := (List.range 32).map fun j => portPipe x * 32 + (last + 1 + j) % 32
    (order.find? fun y => ready.contains y) == some x

/-- An entry leaves the front of its queue. -/
def State.dropHead (s : State) (q : Nat) : State := s.setQueue q ((s.queue q).drop 1)

/-- WINDOW_OVERSIZE_REMOVE: head frames of a windowed queue that fit no window it will have are removed (R401). -/
def State.removeOversize (s : State) (q : Nat) : Nat → State
  | 0 => s
  | fuel + 1 =>
    match s.queue q with
    | .copy k c inProgress st :: _ =>
      let x := queuePort q
      let len := s.entryLen q (.copy k c inProgress st) + (if inProgress then 0 else s.growBytes x)
      if s.oversize x (queueGroup q) len then
        let s := match s.desc k with
          | some d => s.countCopyDrop d q dropWindow
          | none => s
        ((s.addSat QM.WIN_STATUS.OVERSIZE x 1).dropHead q).copyDone k c true |>.removeOversize q fuel
      else s
    | _ => s

/-- The windowed queues of a port, each freed of what fits no window. -/
def State.removeOversizes (s : State) (x : Nat) : State :=
  (s.portQueues x).foldl (fun s q =>
    if s.windowed (queueCg q) then s.removeOversize q (s.queue q).length else s) s

/-- EPOCH_STALE_DROP: a stale frame is dropped at its dequeue (R89). -/
def State.staleDrop (s : State) (q k : Nat) (c : Copy) : State :=
  let s := match s.desc k with
    | some d => (s.countCopyDrop d q dropStale)
    | none => s
  let s := (s.dropHead q).copyDone k c true
  let kid := s.kid (kidQueue q)
  s.setKid (kidQueue q) { kid with f := none }

/-- EGRESS_MIRROR_COPY: an original is dequeued for transmission, and its egress sessions make their copies (R210,
R322). The copies of a frame still arriving wait for its end (R312). -/
def State.egressMirrors (s : State) (k : Nat) (c : Copy) : State :=
  match c.kind with
  | .mirror _ => s
  | _ =>
    match s.desc k with
    | none => s
    | some d =>
      match s.packet d.packet with
      | none => s
      | some v =>
        let (s, copies) := s.mirrorCopies v true
        copies.foldl (fun s m =>
          match s.admitCopy v m with
          | .refused r => s.countDropOf v.port v.troupe r (some m.queue) v.head
          | .inRegion g =>
            let m := { m with inMin := g == .queueMin }
            match s.desc k with
            | none => s
            | some d =>
              let s := s.putDesc k { d with
                copies := d.copies ++ [m], waiting := if d.complete then d.waiting else d.waiting ++ [m] }
              let s := s.chargeCopy d m d.units
              if d.complete then s.tryEnqueue k m false else s) s

/-- The first copy of a frame to be dequeued sends its queueing delay back to its flow (R420). -/
def State.delayFate (s : State) (k : Nat) (c : Copy) : State :=
  match s.desc k with
  | none => s
  | some d =>
    if d.delayed then s
    else
      let s := s.putDesc k { d with delayed := true }
      match s.packet d.packet with
      | none => s
      | some v => s.sendFate v (.delay ((s.now - c.enqAt) / 2))

/-- Children of a node whose V has become v (R342, R343). -/
def State.passKids (s : State) (v : Nat) (keys : List Nat) : State :=
  keys.foldl (fun s k => if (tabFind s.sw.children k).isSome then s.setKid k (childPassed v (s.kid k)) else s) s

/-- WFQ state after a pick of queue q in class group c (R340): V takes the finish time of each chosen child, and the
other children of the two nodes see it pass them (R342, R343). -/
def State.wfqPicked (s : State) (c q fc fq : Nat) : State :=
  let x := c / 16
  let peers := ((List.range 16).map (16 * x + ·)).filter fun d => s.cgTier d == s.cgTier c
  let s := (s.setVt (vPort x (s.cgTier c)) fc).passKids fc (peers.map kidCg)
  let s := s.setKid (kidCg c) { fLast := some fc, wasEligible := true }
  let s := (s.setVt (vCg c) fq).passKids fq ((s.cgQueues c).map kidQueue)
  s.setKid (kidQueue q) { fLast := some fq, wasEligible := true }

/-- A copy leaves its queue for its egress pipe: its shapers are charged, the window prediction moves on, its flight
begins, and its sessions and its flow are served. -/
def State.pickCopy (s : State) (x q k : Nat) (c : Copy) (inProgress : Bool) : State :=
  match s.desc k with
  | none => s.dropHead q
  | some d =>
    let len := if inProgress then s.maxFrame x else d.len
    let bound := len + (if inProgress then 0 else s.growBytes x)
    let start := s.predictedStart x
    let win := s.windowed (queueCg q)
    let j := s.sw.nextFlight
    let f : Flight :=
      { desc := k, copy := c, queue := q, port := x, packet := d.packet, troupe := d.troupe, epoch := d.epoch,
        inProgress := inProgress, windowed := win, charge := len, lenUnknown := inProgress && !d.complete,
        predicted := start }
    let s := s.dropHead q
    let s := s.egressMirrors k c
    let s := s.delayFate k c
    let s := (s.shapersOf q).foldl (fun s i => s.chargeShaper len i) s
    let s := { s with sw := { s.sw with nextFlight := j + 1 } }
    let s := (s.putFlight j f).spend 8 4 (some d.troupe) none none 1
    let s := s.modPort x fun p => { p with flight := p.flight + len, ePrev := some (start + s.wireTime x bound) }
    let s := s.modPipe (16 + portPipe x) fun p => { p with
      forming := p.forming ++ [j], picks := p.picks + 1, lastPort := x % 32 }
    s.addSat QM.CG_STATUS.PICKS (queueCg q) 1

/-- SCHEDULER_PICK: the scheduler of a port picks one frame, by tier and then by WFQ among class groups and queues
(R337 to R343), which crosses to the port's rim die over a link that is UP (R27, R33). -/
def execSchedulerPick (port : PortNo) (s : State) : Answer :=
  let x := port.val
  let s := if s.portExists x then s.removeOversizes x else s
  if !s.portMayPick x || !s.pickTurn x || !s.dieJoined (pipeDie (portPipe x)) then .next s
  else
    let s := s.lookCgs x
    match s.pickCg x with
    | none => .next s
    | some (c, fc) =>
      let s := s.lookQueues c
      match s.pickQueue c with
      | none => .next s
      | some (q, fq) =>
        match s.queue q with
        | .copy k cp _ true :: _ => .next ((s.staleDrop q k cp).refreshCgs x)
        | .copy k cp inProgress false :: _ =>
          let s := s.wfqPicked c q fc fq
          let s := s.pickCopy x q k cp inProgress
          .next (((s.computeCgF c).refreshCgs x).sendTransfer (pipeDie (portPipe x)))
        | _ => .next s

/-! ## The calendar wheels (R351 to R353) -/

/-- Sorted by the slot an entry fires at, then by its number. -/
def byFireAt (a b : Nat × Shaper) : Bool :=
  decide (a.2.fireAt < b.2.fireAt) || (a.2.fireAt == b.2.fireAt && decide (a.1 ≤ b.1))

/-- The shapers of a quadrant whose entry on a wheel has fired, in order. -/
def State.firedShapers (s : State) (d : Nat) (w : Wheel) : List (Nat × Shaper) :=
  (s.sw.shapers.filter fun e => e.2.wheel == w && s.shaperQuadrant e.1 == d && decide (e.2.fireAt ≤ s.now)).mergeSort
    byFireAt

/-- Refills that a quadrant can make in a slot of a wheel, at 1,024 per µs (R353). -/
def slotRefills (coarse : Bool) : Nat := if coarse then 1048 else 8

/-- WHEEL_SLOT: a slot of a quadrant's fine or coarse wheel has come; its shapers and those left over from earlier
slots are refilled, the late ones counted (R349, R351, R353). -/
def execWheelSlot (quadrant : RimNo) (coarse : Bool) (s : State) : Answer :=
  let w := if coarse then Wheel.coarse else Wheel.fine
  let slot := if coarse then coarseSlot else fineSlot
  let due := (s.firedShapers quadrant.val w).take (slotRefills coarse)
  .next (due.foldl (fun s e =>
    let s := s.refill e.1
    if e.2.fireAt + slot ≤ s.now then (s.addSat QM.CAL_STATUS.LATE 0 1).raise QM.INT_CAUSE.CAL_LATE else s) s)

/-- OVERFLOW_MIGRATE: once per turn of the coarse wheel, a quadrant moves every overflow entry whose t_e lies within
the next turn onto the coarse wheel (R352). -/
def execOverflowMigrate (quadrant : RimNo) (s : State) : Answer :=
  let turn := coarseSlot * wheelSlots
  .next ((s.sw.shapers.filter fun e =>
      e.2.wheel == .overflow && s.shaperQuadrant e.1 == quadrant.val && decide (e.2.te ≤ s.now + turn)).foldl
    (fun s e => s.putShaper e.1 { e.2 with wheel := .coarse, fireAt := slotAt coarseSlot e.2.te }) s)

/-! ## The ends of holds and flushes (R359, R360) -/

/-- HOLD_EXPIRY: a port's hold timer has run out and its queues are flushed (R359). -/
def execHoldExpiry (port : PortNo) (s : State) : Answer :=
  let x := port.val
  match (s.port x).holdEnd with
  | none => .next s
  | some t => if s.qmState x == qmHeld && decide (t ≤ s.now) then .next (s.startFlush x) else .next s

/-- FLUSH_END: a port's flush has removed every entry; the port is ACTIVE or DOWN (R360). -/
def execFlushEnd (port : PortNo) (s : State) : Answer :=
  let x := port.val
  if s.qmState x == qmFlushing && (s.portQueues x).isEmpty then
    let up := s.flag PORT.STATUS.LINK_UP x && s.flag PORT.CFG.ENABLE x
    .next (s.set QM.PORT_STATUS.STATE x (if up then qmActive else qmDown))
  else .next s

end Sys2Proof.Machine
end

