-- ==== Sys2Proof/Machine/Deep.lean ====
section
/-!
DEFINITION. Deep memory (chapter 13): the stacks and their training, activations and errors, the spilling and refill of
queue tails, the capture ring and its copy engine.
-/

namespace Sys2Proof.Machine

def State.modHbm (s : State) (f : HbmBlock → HbmBlock) : State := { s with hbm := f s.hbm }

/-! ## Spill blocks (R443, R456, R457) -/

/-- Blocks of a spill region (R443), and payload bytes of a block (R457). -/
def regionBlocks : Nat := 23437500
def blockPayload : Nat := 2016

/-- A block by its stack. -/
def blockAt (stack b : Nat) : Nat := stack * 2 ^ 26 + b
def blockStack (b : Nat) : Nat := b / 2 ^ 26

/-- The blocks that hold spilled frames. -/
def State.usedBlocks (s : State) : List Nat := (s.sw.spilled.flatMap fun e => e.2.blocks).eraseDups

/-- The blocks that troupe n holds. -/
def State.troupeBlocks (s : State) (n : Nat) : Nat :=
  ((s.sw.spilled.filter fun e => e.2.packet.troupe == n).flatMap fun e => e.2.blocks).eraseDups.length

/-- Brings the spill status and the use of a troupe up to date. -/
def State.refreshSpill (s : State) (n : Nat) : State :=
  let total := s.spillStacks.length * regionBlocks
  let s := s.set HBM.SPILL_STATUS.FREE_BLOCKS 0 (total - s.usedBlocks.length -
    (s.hbm.lost.filter fun b => !s.usedBlocks.contains b).length)
  let s := s.set HBM.SPILL_STATUS.LOST_BLOCKS 0 s.hbm.lost.length
  s.set HBM.TROUPE_SPILL.USE_BLOCKS n (s.troupeBlocks n)

/-- The lowest free block of a stack. -/
def State.freeBlock (s : State) (taken : List Nat) (stack : Nat) : Option Nat :=
  let busy := (taken ++ s.usedBlocks ++ s.hbm.lost).filter fun b => blockStack b == stack
  ((List.range (min regionBlocks (busy.length + 1))).map fun j => blockAt stack j).find? fun b => !busy.contains b

/-- Blocks for a record, alternately from the stacks that are ready, while the quota and the free list allow (R456,
R457): the blocks and the stack that comes next, or none. -/
def State.takeBlocks (s : State) (n : Nat) : Nat → Nat → List Nat → Option (List Nat × Nat)
  | 0, next, acc => some (acc.reverse, next)
  | count + 1, next, acc =>
    if s.get HBM.TROUPE_SPILL.QUOTA_BLOCKS n ≤ s.troupeBlocks n + acc.length then none
    else
      let ready := s.spillStacks.filter fun h => s.ready (rdyHbm h)
      let order := if ready.contains next then next :: ready.erase next else ready
      match order.findSome? fun h => s.freeBlock acc h with
      | none => none
      | some b => s.takeBlocks n count (1 - blockStack b) (b :: acc)

/-- MD_BYTES of a troupe (R457). -/
def State.mdBytes (s : State) (n : Nat) : Nat := 16 * clampN 8 32 (s.get HBM.TROUPE_SPILL.MD_UNITS n)

/-- Bytes of the record of a frame of length `len` of troupe n (R457). -/
def State.recordLen (s : State) (n len : Nat) : Nat := (16 + s.mdBytes n + len + 15) / 16 * 16

/-- The spill run that ends just before a descriptor's entry in a queue, as its last frame. -/
def runBefore (d : Nat) : List QEntry → Option Nat
  | .run fs :: .copy d' c p st :: rest => if d' = d then fs.getLast? else runBefore d (.copy d' c p st :: rest)
  | _ :: rest => runBefore d rest
  | [] => none

/-- A descriptor's entry becomes part of the run before it, or a new run (R368, R455). -/
def spillEntry (d f : Nat) : List QEntry → List QEntry
  | .run fs :: .copy d' c p st :: rest =>
    if d' = d then .run (fs ++ [f]) :: rest else .run fs :: spillEntry d f (.copy d' c p st :: rest)
  | .copy d' c p st :: rest => if d' = d then .run [f] :: rest else .copy d' c p st :: spillEntry d f rest
  | .run fs :: rest => .run fs :: spillEntry d f rest
  | [] => []

/-- The copy and stale mark of a descriptor's entry in a queue. -/
def entryOf (d : Nat) (es : List QEntry) : Option (Copy × Bool) :=
  es.findSome? fun e => match e with
    | .copy d' c false st => if d' = d then some (c, st) else none
    | _ => none

/-- A marked frame moves to deep memory (R455 to R457). -/
def State.spillFrame (s : State) (k : Nat) (d : Desc) (v : Packet) (c : Copy) (stale : Bool) : State :=
  let q := c.queue
  let last := (runBefore k (s.queue q)).bind fun f => tabFind s.sw.spilled f
  let shared := match last with
    | some l => if l.stop < blockPayload && l.packet.troupe == v.troupe then l.blocks.getLast?.map fun b => (b, l.stop)
                else none
    | none => none
  let start := (shared.map Prod.snd).getD 0
  let total := start + s.recordLen v.troupe d.len
  let need := (total + blockPayload - 1) / blockPayload
  let have_ := (shared.map fun _ => 1).getD 0
  match s.takeBlocks v.troupe (need - have_) s.hbm.nextStack [] with
  | none =>
    let s := s.modDesc k fun d => { d with marked := false }
    (s.addSat HBM.SPILL_COUNT2.NOT_SPILLED 0 1).raise HBM.INT_CAUSE.SPILL_FULL
  | some (new, next) =>
    let f := s.sw.nextSpill
    let blocks := (shared.map fun e => [e.1]).getD [] ++ new
    let rec_ : SpillFrame :=
      { packet := v, copy := c, queue := q, len := d.len, lossless := d.lossless, blocks := blocks, addr := start,
        stop := total - (need - 1) * blockPayload, stale := stale }
    let s := s.modHbm fun h => { h with nextStack := next }
    let s := { s with sw := { s.sw with spilled := tabPut s.sw.spilled f rec_, nextSpill := f + 1 } }
    let s := s.setQueue q (spillEntry k f (s.queue q))
    let s := (s.copyDone k c true).spend 9 4 (some v.troupe) none none (words64 d.len)
    (s.addSat HBM.SPILL_COUNT.SPILLED 0 1).refreshSpill v.troupe

/-- SPILL_MOVE: the spill writer moves the first marked frame that still stands in its queue (R455). -/
def execSpillMove (s : State) : Answer :=
  match s.hbm.marked with
  | [] => .next s
  | k :: rest =>
    let s := s.modHbm fun h => { h with marked := rest }
    match s.desc k with
    | none => .next s
    | some d =>
      match s.packet d.packet, d.copies with
      | some v, [c] =>
        match entryOf k (s.queue c.queue) with
        | some (c, stale) => if d.marked && d.refs == 1 then .next (s.spillFrame k d v c stale) else .next s
        | none => .next s
      | _, _ => .next s

/-! ## Refill (R459 to R461) -/

/-- On-die bytes of a queue ahead of its first spill run, and that run. -/
def State.aheadOfRun (s : State) : List QEntry → Nat × List Nat
  | [] => (0, [])
  | .run fs :: _ => (0, fs)
  | .copy d _ _ _ :: rest =>
    let r := s.aheadOfRun rest
    (s.descBytes d + r.1, r.2)

/-- A queue's refill runs or starts (R459). -/
def State.refillDue (s : State) (q : Nat) : Bool :=
  let (ahead, run) := s.aheadOfRun (s.queue q)
  let (_, _, refill) := s.spillProfile q
  !run.isEmpty && (decide (ahead < refill * 1024) || (s.hbm.refilling.contains q && decide (ahead < 2 * refill * 1024)))

/-- The cells of a refilled frame for requester 16, exempt from the quota; none where a request fails, with what was
granted given back (R316, R318, R319, R461). -/
def State.refillCells (s : State) (n : Nat) (rivals : List (Fin 18)) : List Nat → List (Nat × Nat) → Option (List (Nat × Nat)) × State
  | [], acc => (some acc.reverse, s)
  | l :: ls, acc =>
    match s.requestSegment 16 n l 2 true rivals with
    | (.cell a, s) => s.refillCells n [] ls ((a, l) :: acc)
    | (_, s) => (none, acc.foldl (fun s c => s.freeCell c.1) s)

/-- The first frame of the first run of a queue's entries is placed ahead of the run as a descriptor (R459). -/
def refillEntry (e : QEntry) : List QEntry → List QEntry
  | .run (_ :: f :: fs) :: rest => e :: .run (f :: fs) :: rest
  | .run _ :: rest => e :: rest
  | x :: rest => x :: refillEntry e rest
  | [] => []

/-- A refilled frame's bytes are written to its cells. -/
def State.fillCells (s : State) (bytes : List Byte) : List (Nat × Nat) → State
  | [] => s
  | (a, n) :: cs =>
    State.fillCells { s with sw := { s.sw with mem := memWrite s.sw.mem (s.cellBase a) (bytes.take n) } } (bytes.drop n) cs

/-- A refill that lacks a cell or a descriptor waits RETRY_NS (R461). -/
def State.refillWait (s : State) (q : Nat) : State :=
  let s := s.addSat HBM.SPILL_COUNT2.REFILL_WAITS 0 1
  s.modHbm fun h => { h with retryAt := tabPut h.retryAt q (s.now + 2 * max 16 (s.get HBM.SPILL_CFG.RETRY_NS 0)) }

/-- The first frame of a queue's first run is written back into cells (R459, R460). -/
def State.refillFrame (s : State) (q : Nat) (rivals : List (Fin 18)) : State :=
  match (s.aheadOfRun (s.queue q)).2 with
  | [] => s.modHbm fun h => { h with retryAt := tabDel h.retryAt q }
  | f :: _ =>
    match tabFind s.sw.spilled f with
    | none => s
    | some v =>
      if 4194304 ≤ s.descsUsed then s.refillWait q
      else match s.refillCells v.packet.troupe rivals (segmentLens v.len) [] with
        | (none, s) => s.refillWait q
        | (some cells, s) =>
          let d := s.newDesc
          let j := s.sw.nextPacket
          let units := cellUnits (cells.map Prod.fst)
          let c := { v.copy with inMin := false }
          let desc : Desc :=
            { packet := j, troupe := v.packet.troupe, epoch := v.packet.epoch, port := v.packet.port,
              prio := v.packet.prio, cells := cells, len := v.len, complete := true, region := .shared, units := units,
              held := true, copies := [c], refs := 1, lossless := v.lossless, source := 2 }
          let s := { s with sw := { s.sw with nextPacket := j + 1, spilled := tabDel s.sw.spilled f } }
          let s := s.putPacket j { v.packet with desc := some d, place := .store }
          let s := s.putDesc d desc
          let s := (s.chargeRegion desc units).chargeCopy desc c units
          let s := s.addWrap CELL.TROUPE_QUOTA.USE_UNITS v.packet.troupe units
          let s := s.fillCells (v.packet.head ++ v.packet.body) cells
          let s := s.setQueue q (refillEntry (.copy d c false v.stale) (s.queue q))
          let s := s.addSat HBM.SPILL_COUNT.REFILLED 0 1
          let s := s.spend 9 4 (some v.packet.troupe) none none (words64 v.len)
          let s := s.modHbm fun h => { h with retryAt := tabDel h.retryAt q }
          (s.refreshPauses.refreshRecords).refreshSpill v.packet.troupe

/-- REFILL: the refill engine serves the next queue in rotation whose tail is to come back (R459). -/
def execRefill (rivals : List (Fin 18)) (s : State) : Answer :=
  let qs := (s.sw.queues.map Prod.fst).filter fun q => s.refillDue q && (tabFind s.hbm.retryAt q).isNone
  match (qs.find? fun q => decide (s.hbm.lastRefill < q)).or qs.head? with
  | none => .next s
  | some q =>
    let s := s.modHbm fun h => { h with
      lastRefill := q, refilling := if h.refilling.contains q then h.refilling else q :: h.refilling }
    let s := s.refillFrame q rivals
    .next (if s.refillDue q then s else s.modHbm fun h => { h with refilling := h.refilling.filter fun r => r != q })

/-- REFILL_RETRY: RETRY_NS after a refill of a queue found no cell or descriptor, the same frame is tried again (R461). -/
def execRefillRetry (queue : QueueNo) (rivals : List (Fin 18)) (s : State) : Answer :=
  let q := queue.val
  match tabFind s.hbm.retryAt q with
  | none => .next s
  | some t => if t ≤ s.now then .next (s.refillFrame q rivals) else .next s

/-! ## The stacks (R444 to R447) -/

/-- HBM.STATUS.STATE. -/
def hbmOff : Nat := 0
def hbmTraining : Nat := 1
def hbmReady : Nat := 2
def hbmPowerDown : Nat := 3
def hbmFailed : Nat := 4

def State.hbmState (s : State) (k : Nat) : Nat := s.get HBM.STATUS.STATE k

/-- A stack starts training (R444). -/
def State.trainStack (s : State) (k : Nat) : State :=
  let s := s.modHbm fun h => { h with tries := tabPut h.tries k 1 }
  (s.set HBM.STATUS.STATE k hbmTraining).addSat HBM.STATUS.TRAIN_ATTEMPTS k 1

/-- A full image in force uses the stacks (R445). -/
def State.hbmUsed (s : State) : Bool := s.cf.image.isSome && s.image.memMode != 0

/-- A stack's bit of TOP.READY sets: a ledger that now has all its stacks starts afresh (R59, R421). -/
def State.stackReady (s : State) (k : Nat) : State :=
  let was := s.ledgerOn
  let s := s.setReady (rdyHbm k) true false
  let s := if s.ledgerOn && !was then
      s.modTel fun t => { t with lines := [], ledger := [], locator := [], updates := [] } else s
  (s.refreshFlows 0).refreshSpill 0

/-- A spilled frame is dropped under HBM_UNCORR, at its ingress port, or at the port of its queue where its header
cannot be read (R454). -/
def State.dropSpilled (s : State) (known : Bool) (f : Nat) : State :=
  match tabFind s.sw.spilled f with
  | none => s
  | some v =>
    let s := s.countDropOf (if known then v.packet.port else queuePort v.queue) v.packet.troupe dropHbm (some v.queue)
      (if known then v.packet.head else [])
    let s := s.setQueue v.queue ((s.queue v.queue).filterMap fun e => match e with
      | .run fs => if fs.all fun g => g == f then none else some (.run (fs.filter fun g => g != f))
      | e => some e)
    let s := { s with sw := { s.sw with spilled := tabDel s.sw.spilled f } }
    (s.refreshRecords).refreshSpill v.packet.troupe

/-- Every run that has a block on a stack (R447). -/
def State.runsOn (s : State) (stack : Nat) : List Nat :=
  (s.sw.queues.flatMap fun q => q.2.flatMap fun e => match e with
    | .run fs => if fs.any fun f => ((tabFind s.sw.spilled f).map fun v => v.blocks.any fun b => blockStack b == stack) == some true
                 then fs else []
    | _ => [])

/-- A stack fails (R447). -/
def State.failStack (s : State) (k : Nat) : State :=
  let ledger := s.ledgerOn && s.ledgerStacks.contains k
  let s := s.setReady (rdyHbm k) false false
  let s := s.set HBM.STATUS.STATE k hbmFailed
  let s := s.set HBM.STATUS.FAIL_SEEN k 1
  let s := s.raise HBM.INT_CAUSE.STACK_FAIL
  let s := (s.runsOn k).foldl (fun s f => s.dropSpilled true f) s
  let s := if ledger then s.ledgerLost k else s.refreshFlows 0
  let s := s.modHbm fun h => { h with
    zeroed := h.zeroed.filter (fun j => j != k)
    ring := if s.ledgerStacks.contains k then [] else h.ring }
  s.record 0x0D01 (leBytes k 1 ++ leBytes hbmFailed 1)

/-- STACK_TRAINING_END: an attempt of a stack's training ends (R444 to R446). -/
def execStackTrainingEnd (stack : Fin 2) (ok : Bool) (repairs : Fin 256) (s : State) : Answer :=
  let k := stack.val
  if s.hbmState k != hbmTraining then .next s
  else if ok then
    let s := s.set HBM.STATUS.LANE_REPAIRS k repairs
    let s := s.raise HBM.INT_CAUSE.STACK_READY
    if s.hbmUsed then
      let s := s.set HBM.STATUS.STATE k hbmReady
      .next (if s.ledgerStacks.contains k then s else s.stackReady k)
    else .next ((s.set HBM.STATUS.STATE k hbmPowerDown).stackReady k)
  else if tabGet 1 s.hbm.tries k < 3 then
    let s := s.modHbm fun h => { h with tries := tabMod 1 h.tries k (· + 1) }
    .next (s.addSat HBM.STATUS.TRAIN_ATTEMPTS k 1)
  else .next (s.failStack k)

/-- ZERO_FILL_DONE: the locator and entry regions of a stack that reached READY after the apply are zeroed, and its
bit sets (R446). -/
def execZeroFillDone (stack : Fin 2) (s : State) : Answer :=
  let k := stack.val
  if s.hbmState k == hbmReady && s.ledgerStacks.contains k && !s.ready (rdyHbm k) then
    .next ((s.modHbm fun h => { h with zeroed := if h.zeroed.contains k then h.zeroed else k :: h.zeroed }).stackReady k)
  else .next s

/-- HBM_RETRAIN: a write of HBM.CTRL (R447). -/
def execHbmRetrain (value : Word) (s : State) : Answer :=
  if !s.hostReach 0 false then .next s else
  let k := bitsOf value 0 1
  if natBit value.toNat 1 && s.hbmState k == hbmFailed then .next (s.trainStack k) else .next s

/-- STACK_FAIL: a stack has reached FAIL_UNCORR uncorrectable words within one second (R447). -/
def execStackFail (stack : Fin 2) (s : State) : Answer :=
  let k := stack.val
  let recent := (tabGet [] s.hbm.uncorrAt k).filter fun t => decide (s.now < t + secTicks)
  if s.hbmState k == hbmReady && decide (max 1 (s.get HBM.FAIL_CFG.FAIL_UNCORR 0) ≤ recent.length) then
    .next (s.failStack k)
  else .next s

/-! ## Activations, scrubbing and errors (R448 to R454) -/

/-- NRR_LOG2, within its limits. -/
def State.nrrLog2 (s : State) : Nat := clampN 6 13 (s.get HBM.NRR_CFG.NRR_LOG2 0)

/-- HBM_ACTIVATION: an activation draws a random value, and with probability 2^-NRR_LOG2 refreshes the two rows next to
the activated one (R448, R449). -/
def execHbmActivation (stack : Fin 2) (s : State) : Answer :=
  if s.hbmState stack.val != hbmReady then .next s
  else
    let (r, s) := s.draw
    .next (if r % 2 ^ s.nrrLog2 = 0 then s.addSat HBM.NRR_CFG.ISSUED 0 2 else s)

/-- SCRUB: the scrubber reads a word of a stack, corrects it where it must, and writes the correction back unless newer
data has reached the row (R451, R453). -/
def execScrub (stack : Fin 2) (inError newer : Bool) (s : State) : Answer :=
  let k := stack.val
  let s := if s.hbmState k != hbmReady then s else s.spend 9 4 none none none 1
  if s.hbmState k != hbmReady || !inError then .next s
  else
    let s := s.addSat HBM.ECC.CORRECTED k 1
    .next (if newer then s else s.addSat HBM.ECC.SCRUB_FIXED k 1)

/-- The frames of a run from one of them on. -/
def State.runFrom (s : State) (f : Nat) : List Nat :=
  (s.sw.queues.flatMap fun q => q.2.flatMap fun e => match e with
    | .run fs => fs.dropWhile fun g => g != f
    | _ => [])

/-- A block is withdrawn from use until the next full image (R454). -/
def State.loseBlock (s : State) (b : Nat) : State :=
  (s.modHbm fun h => { h with lost := if h.lost.contains b then h.lost else b :: h.lost }).refreshSpill 0

/-- The oldest write-back of a flow that waits, served by the ledger engine (R464). -/
def State.serveWriteback (s : State) (w : WriteBack) : State :=
  let s := s.modTel fun t => { t with updates := t.updates.map fun e => (e.1, e.2.erase w) }
  s.addSat HBM.LEDGER_STATUS.WRITEBACKS 0 1

/-- The changes of the write-back that met an uncorrectable entry go to the aggregate as approximate, and the entry is
rewritten with the new changes only (R428, R454). -/
def State.loseEntry (s : State) (i : Nat) : State :=
  match tabFind s.tel.ledger i with
  | none => s
  | some e =>
    let ws := (s.tel.updates.flatMap Prod.snd).filter fun w => w.flow.key == e.flow.key
    match ws with
    | [] => s.modTel fun t => { t with ledger := tabPut t.ledger i { e with flow := { e.flow.zeroed with approx := true } } }
    | w :: _ =>
      let s := s.aggAdd w.flow.pipe w.flow.troupe w.flow.packets w.flow.bytes w.flow.packets
      let s := (s.set TEL.FLOW_STATUS.APPROX_SEEN 0 1).raise TEL.INT_CAUSE.APPROX
      (s.serveWriteback w).modTel fun t => { t with
        ledger := tabPut t.ledger i { e with flow := { w.flow with approx := true } } }

/-- HBM_UNCORR: an uncorrectable word of a stack, marked so by the stack's report where `reported` (R453, R454). -/
def execHbmUncorr (stack : Fin 2) (place : HbmPlace) (addr : Fin 18446744073709551616) (reported : Bool) (s : State) : Answer :=
  let k := stack.val
  if s.hbmState k != hbmReady then .next s
  else
    let s := s.addSat HBM.ECC.UNCORR k 1
    let s := if reported then s.addSat HBM.ECC.STACK_UNCORR k 1 else s
    let s := s.raise HBM.INT_CAUSE.UNCORR
    let (region, s) := s.draw
    let s := s.recordLimited 0 0x0D02 (0x0D0200 + k) 16 secTicks (leBytes k 1 ++ leBytes region 1 ++ leBytes addr 8)
    let s := s.modHbm fun h => { h with
      uncorrAt := tabMod [] h.uncorrAt k (fun ts => s.now :: ts.filter fun t => decide (s.now < t + secTicks)) }
    match place with
    | .frameBytes f block =>
      .next ((s.dropSpilled true f).loseBlock (blockAt k block))
    | .frameHeader f block =>
      .next (((s.runFrom f).foldl (fun s g => s.dropSpilled false g) s).loseBlock (blockAt k block))
    | .locator slot =>
      let s := s.addSat HBM.LEDGER_STATUS.UNCORR_ENTRIES 0 1
      match tabFind s.tel.locator slot with
      | none => .next s
      | some (i, _) =>
        let s := s.locClear slot
        .next ((s.modTel fun t => { t with ledger := tabDel t.ledger i }).refreshFlows 0)
    | .entry i => .next ((s.addSat HBM.LEDGER_STATUS.UNCORR_ENTRIES 0 1).loseEntry i)
    | .capture word => .next (s.modHbm fun h => { h with
        poisoned := if h.poisoned.contains word then h.poisoned else word :: h.poisoned })

/-! ## The capture ring (R465 to R467) -/

/-- Bytes of the capture ring. -/
def State.captureSize (s : State) : Nat := s.get HBM.CAPTURE_CFG.SIZE_GB 0 * 10 ^ 9

/-- CAP_BYTES, within its limits. -/
def State.capBytes (s : State) : Nat := clampN 64 16352 (s.get HBM.CAPTURE_CFG.CAP_BYTES 0)

/-- The header of a capture record (R466). -/
def captureHeader (len bytes port session flags queue : Nat) (stamp : List Byte) : List Byte :=
  leBytes len 2 ++ leBytes bytes 2 ++ leBytes port 2 ++ leBytes session 1 ++ leBytes flags 1 ++ leBytes queue 4 ++
    leBytes 0 4 ++ stamp

/-- Bytes are written to the capture ring at an offset: the words they fill are readable again. -/
def State.ringWrite (s : State) (off : Nat) (bytes : List Byte) : State :=
  s.modHbm fun h => { h with
    ring := memWrite h.ring off bytes
    poisoned := h.poisoned.filter (fun w => !(decide (off / 16 ≤ w) && decide (w < (off + bytes.length + 15) / 16)))
    capWritten := h.capWritten + bytes.length }

/-- The stacks that hold the capture ring are ready (R443). -/
def State.captureReady (s : State) : Bool :=
  !s.ledgerStacks.isEmpty && s.ledgerStacks.all fun k => s.ready (rdyHbm k)

/-- The capture queue whose turn it is, with its first copy: of a queue of an ACTIVE port whose frame has ended. -/
def State.captureNext (s : State) : Option (Nat × Nat × Copy) :=
  let ready := fun q => match s.queue q with
    | .copy k c _ _ :: _ =>
      if s.qmState (queuePort q) == qmActive && ((s.desc k).map (·.complete)) == some true then some (q, k, c) else none
    | _ => none
  let qs := s.image.hbm.captureQueues
  let order := (qs.filter fun q => decide (s.hbm.lastCapture < q)) ++ qs.filter fun q => decide (q ≤ s.hbm.lastCapture)
  order.findSome? ready

/-- The first entry of a queue is stale (R89). -/
def State.staleHead (s : State) (q : Nat) : Bool :=
  match s.queue q with
  | .copy _ _ _ stale :: _ => stale
  | _ => false

/-- CAPTURE_WRITE: the capture writer writes the first copy of a capture queue as a ring record, or stops where it would
pass a record not yet released; a stale one is dropped at its dequeue (R89, R465 to R467). -/
def execCaptureWrite (s : State) : Answer :=
  let size := s.captureSize
  if !s.flag HBM.CAPTURE_CFG.EN 0 || size = 0 || !s.captureReady then .next s
  else match s.captureNext with
    | none => .next s
    | some (q, k, c) =>
      match s.desc k with
      | none => .next s
      | some d =>
        match s.packet d.packet with
        | none => .next s
        | some v =>
          if s.staleHead q then .next (s.staleDrop q k c) else
          let n := min d.len s.capBytes
          let body := padTo ((n + 31) / 32 * 32) ((v.head ++ v.body).take n)
          let session := match c.kind with | .mirror m => m | _ => 0xFF
          let head := captureHeader d.len n v.port session (b2n v.unlocked + 2 * b2n (decide (n < d.len))) q
            (timeBytes v.stamp v.unlocked)
          let off := s.get HBM.CAPTURE_STATUS.WRITE_OFF 0
          let left := size - off
          let pad := if left < 32 + body.length then left else 0
          let used := s.hbm.capWritten - s.hbm.capReleased
          if !s.flag HBM.CAPTURE_CFG.WRAP 0 && decide (size < used + pad + 32 + body.length) then
            if s.hbm.stalled then .next s
            else .next (((s.modHbm fun h => { h with stalled := true }).addSat HBM.CAPTURE_COUNT.STALLS 0 1).raise
              HBM.INT_CAUSE.CAPTURE_STALL)
          else
            let s := s.modHbm fun h => { h with stalled := false, lastCapture := q }
            let s := if pad = 0 then s else
              let s := s.ringWrite off (padTo pad (captureHeader 0 pad 0 0 0 0 []))
              s.addWrap HBM.CAPTURE_STATUS.WRAPS 0 1
            let off := if pad = 0 then off else 0
            let s := s.ringWrite off (head ++ body)
            let s := s.set HBM.CAPTURE_STATUS.WRITE_OFF 0 ((off + 32 + body.length) % size)
            let s := s.addSat HBM.CAPTURE_COUNT.RECORDS 0 1
            let s := s.spend 9 4 (some d.troupe) none none (words64 (32 + body.length))
            let s := s.delayFate k c
            .next ((s.dropHead q).copyDone k c true)

/-- A write of HBM.CAPTURE_RELEASE: the records before the offset are released (R467). -/
def State.captureRelease (s : State) (off : Nat) : State :=
  let size := s.captureSize
  let s := s.set HBM.CAPTURE_RELEASE.OFF 0 off
  if size = 0 then s
  else
    let back := (s.get HBM.CAPTURE_STATUS.WRITE_OFF 0 + size - off % size) % size
    s.modHbm fun h => { h with capReleased := max h.capReleased (h.capWritten - back) }

/-! ## The copy engine (R468) -/

/-- LEN of the copy engine, within its limits. -/
def State.copyLen (s : State) : Nat := clampN 1 262144 (s.get HBM.COPY_CTRL.LEN 0)

/-- CAPTURE_COPY: a write of HBM.COPY_CTRL by the physical function or by that of the ring's troupe (R468). -/
def execCaptureCopy (write : FnWrite) (s : State) : Answer :=
  let f := write.fn.val
  if !s.hostReach f false || (f != 0 && f != s.get HBM.CAPTURE_CFG.TROUPE 0) then .next s else
  if s.flag HBM.COPY_CTRL.BUSY 0 then .next s
  else
    let s := s.set HBM.COPY_CTRL.LEN 0 (bitsOf write.value 0 19)
    if !natBit write.value.toNat 20 then .next s
    else .next ((s.modHbm fun h => { h with copyBy := f }).set HBM.COPY_CTRL.BUSY 0 1)

/-- CAPTURE_COPY_DONE: a request of the copy engine ends, with a DMA error where `dmaError` or where its function may not
master the bus (R454, R468, R508). -/
def execCaptureCopyDone (dmaError : Bool) (s : State) : Answer :=
  if !s.flag HBM.COPY_CTRL.BUSY 0 then .next s
  else
    let off := s.get HBM.COPY_OFF.OFF 0 * 64
    let n := s.copyLen * 64
    let s := s.set HBM.COPY_CTRL.BUSY 0 0
    let done := fun (s : State) (status poisoned : Nat) =>
      ((s.set HBM.COPY_CTRL.STATUS 0 status).set HBM.COPY_CTRL.POISONED 0 poisoned).raise HBM.INT_CAUSE.COPY_DONE
    if !s.captureReady then .next (done s 3 0)
    else if s.captureSize < off + n then .next (done s 1 0)
    else if dmaError || !s.busMaster s.hbm.copyBy then .next (done s 2 0)
    else
      let bad := s.hbm.poisoned.filter fun w => decide (off / 16 ≤ w) && decide (w < (off + n) / 16)
      let words := (memRead s.hbm.ring off n).zipIdx.map fun b => if bad.contains ((off + b.2) / 16) then 0 else b.1
      let s := s.emit (.dma (s.get HBM.COPY_ADDR.ADDR 0 * 64) words)
      .next (done s 0 (bad.map fun w => w / 4).eraseDups.length)

end Sys2Proof.Machine
end

