-- ==== Sys2Proof/Machine/Ecdsa.lean ====
section
/-!
DEFINITION. The verification of an ECDSA signature on the curve P-384 with SHA-384 (R66, R69, R583, R586), as FIPS 186
lays it down: the parameters of the curve, its points in Jacobian coordinates, and the test of a signature (r, s). The
standard is named by the spec and not given there (PRESUMED, log entry 78).
-/

namespace Sys2Proof.Machine

/-- The prime of the field, the order of the base point, the coefficient b and the base point. -/
def p384P : Nat :=
  0xFFFFFFFFFFFFFFFFFFFFFFFFFFFFFFFFFFFFFFFFFFFFFFFFFFFFFFFFFFFFFFFEFFFFFFFF0000000000000000FFFFFFFF
def p384N : Nat :=
  0xFFFFFFFFFFFFFFFFFFFFFFFFFFFFFFFFFFFFFFFFFFFFFFFFC7634D81F4372DDF581A0DB248B0A77AECEC196ACCC52973
def p384B : Nat :=
  0xB3312FA7E23EE7E4988E056BE3F82D19181D9C6EFE8141120314088F5013875AC656398D8A2ED19D2A85C8EDD3EC2AEF
def p384Gx : Nat :=
  0xAA87CA22BE8B05378EB1C71EF320AD746E1D3B628BA79B9859F741E082542A385502F25DBF55296C3A545E3872760AB7
def p384Gy : Nat :=
  0x3617DE4A96262C6F5D9E98BF9292DC29F8F41DBD289A147CE9DA3113B5F0B8C00A60B1CE1D7E819D7A431D7C90EA0E5F

/-- A point (x : y : z) that stands for (x / z², y / z³), the point at infinity where z is 0. -/
structure JPoint where
  x : Nat
  y : Nat
  z : Nat
deriving DecidableEq, Repr

/-- A difference in the field. -/
def fieldSub (a b : Nat) : Nat := (a + (p384P - b)) % p384P

/-- Twice a point (a = -3). -/
def JPoint.double (q : JPoint) : JPoint :=
  let zz := q.z * q.z % p384P
  let yy := q.y * q.y % p384P
  let beta := q.x * yy % p384P
  let alpha := 3 * (fieldSub q.x zz * ((q.x + zz) % p384P)) % p384P
  let x := fieldSub (alpha * alpha % p384P) (8 * beta % p384P)
  let z := 2 * (q.y * q.z) % p384P
  ⟨x, fieldSub (alpha * fieldSub (4 * beta % p384P) x % p384P) (8 * (yy * yy) % p384P), z⟩

/-- The sum of two points. -/
def JPoint.add (q r : JPoint) : JPoint :=
  if q.z = 0 then r
  else if r.z = 0 then q
  else
    let z1 := q.z * q.z % p384P
    let z2 := r.z * r.z % p384P
    let u1 := q.x * z2 % p384P
    let u2 := r.x * z1 % p384P
    let s1 := q.y * (r.z * z2 % p384P) % p384P
    let s2 := r.y * (q.z * z1 % p384P) % p384P
    if u1 = u2 then (if s1 = s2 then q.double else ⟨1, 1, 0⟩)
    else
      let h := fieldSub u2 u1
      let d := fieldSub s2 s1
      let hh := h * h % p384P
      let hhh := h * hh % p384P
      let v := u1 * hh % p384P
      let x := fieldSub (fieldSub (d * d % p384P) hhh) (2 * v % p384P)
      ⟨x, fieldSub (d * fieldSub v x % p384P) (s1 * hhh % p384P), h * (q.z * r.z % p384P) % p384P⟩

/-- a·q + b·r over the low `n` bits of a and b, with q + r at hand. -/
def twoMul (q r both : JPoint) (a b : Nat) : Nat → JPoint → JPoint
  | 0, acc => acc
  | n + 1, acc =>
    let d := acc.double
    twoMul q r both a b n
      (match Nat.testBit a n, Nat.testBit b n with
        | true, true => d.add both
        | true, false => d.add q
        | false, true => d.add r
        | false, false => d)

/-- A power modulo m, over the low `n` bits of the exponent. -/
def powMod (a e m : Nat) : Nat → Nat → Nat
  | 0, acc => acc
  | n + 1, acc =>
    let d := acc * acc % m
    powMod a e m n (if Nat.testBit e n then d * a % m else d)

/-- A public key in SEC 1 uncompressed form lies on the curve. -/
def keyPoint (key : List Byte) : Option JPoint :=
  let x := ofBe ((key.drop 1).take 48)
  let y := ofBe ((key.drop 49).take 48)
  if key.length = 97 && ofBe (key.take 1) = 4 && decide (x < p384P) && decide (y < p384P) &&
      y * y % p384P = (x * x * x + (p384P - 3) * x + p384B) % p384P then some ⟨x, y, 1⟩
  else none

/-- The signature (r, s) over bytes is valid under a public key. -/
def ecdsaValid (key message : List Byte) (r s : Nat) : Bool :=
  match keyPoint key with
  | none => false
  | some q =>
    if r = 0 || p384N ≤ r || s = 0 || p384N ≤ s then false
    else
      let w := powMod s (p384N - 2) p384N 384 1
      let g : JPoint := ⟨p384Gx, p384Gy, 1⟩
      let c := twoMul g q (g.add q) (ofBe (sha384 message) * w % p384N) (r * w % p384N) 384 ⟨1, 1, 0⟩
      let zz := c.z * c.z % p384P
      c.z != 0 && (c.x == r * zz % p384P || (decide (r + p384N < p384P) && c.x == (r + p384N) * zz % p384P))

end Sys2Proof.Machine
end

