-- ==== Sys2Proof/Machine/Records.lean ====
section
/-!
DEFINITION. The black box (chapter 16, R562 to R571): the writing of records, the scan, sealed readouts, host notes and
the keeper port's commands.
-/

namespace Sys2Proof.Machine

def State.modBbx (s : State) (f : BlackBox → BlackBox) : State := { s with bbx := f s.bbx }
def State.modPkg (s : State) (f : PkgBlock → PkgBlock) : State := { s with pkg := f s.pkg }

/-! ## Records (R563, R566, R568) -/

/-- The codes that take pinned slots. -/
def pinnedCodes : List Nat :=
  [0x0101, 0x0105, 0x0301, 0x0302, 0x0303, 0x0405, 0x0601, 0x0602, 0x0802, 0x0A02, 0x0D01, 0x0F01]

/-- Bytes 0x00 to 0x37 of a record. -/
def BbxRecord.body (r : BbxRecord) : List Byte :=
  leBytes r.seq 6 ++ leBytes r.code 2 ++ leBytes r.boot 4 ++ leBytes r.source 1 ++
    leBytes (b2n r.rawTime + 2 * b2n r.keeperTime + 4 * b2n r.pinned + 8 * b2n r.loss) 1 ++ leBytes r.suppressed 2 ++
    leBytes r.time 8 ++ padTo 32 r.data

/-- The 64 bytes of a record. -/
def BbxRecord.bytes (r : BbxRecord) : List Byte := r.body ++ padTo 8 r.chain

/-- The CHAIN of a record after another. -/
def BbxRecord.chainAfter (r : BbxRecord) (before : List Byte) : List Byte := (sha384 (r.body ++ padTo 8 before)).take 8

/-- Puts a record among others in the order of their numbers. -/
def insertSeq (e : Nat × BbxRecord) : List (Nat × BbxRecord) → List (Nat × BbxRecord)
  | [] => [e]
  | x :: xs => if e.2.seq < x.2.seq then e :: x :: xs else x :: insertSeq e xs

/-- The records retained, with their slots, in the order of their numbers. -/
def BlackBox.retained (b : BlackBox) : List (Nat × BbxRecord) := (b.pinned ++ b.ring).foldr insertSeq []

/-- Shows what the black box holds. -/
def State.showBbx (s : State) : State :=
  let rs := s.bbx.retained
  let s := s.set BBX.STATUS.NEWEST_SEQ 0 ((rs.getLast?.map fun e => e.2.seq).getD 0)
  let s := s.set BBX.STATUS.PINNED_USED 0 s.bbx.pinned.length
  let s := s.set BBX.STATUS2.OLDEST_SEQ 0 (((rs.filter fun e => decide (2048 ≤ e.1)).head?.map fun e => e.2.seq).getD 0)
  s.set BBX.LOSS.QUEUE_FILL 0 s.bbx.queue.length

/-- KEEP_ALERT_N is low while a record written since the keeper port last read BBX.STATUS has not been read over it
(R613). -/
def State.refreshAlert (s : State) : State :=
  let low := s.bbx.retained.any fun e => decide (s.pkg.alertFrom ≤ e.2.seq) && !s.pkg.alertRead.contains e.2.seq
  if low == s.pkg.alertLow then s
  else (s.modPkg fun p => { p with alertLow := low }).emit (.pin "KEEP_ALERT_N" (b2n !low))

/-- A record takes its number, slot and chain (R563, R566). -/
def State.writeRecord (s : State) (r : BbxRecord) : State :=
  let b := s.bbx
  let pin := pinnedCodes.contains r.code && decide (b.pinned.length < 2048)
  let r := { r with seq := b.nextSeq, pinned := pin, loss := b.lossDue }
  let r := { r with chain := r.chainAfter b.lastChain }
  let s := s.modBbx fun b =>
    { b with
      pinned := if pin then tabPut b.pinned b.pinned.length r else b.pinned
      ring := if pin then b.ring else tabPut b.ring b.nextRing r
      nextRing := if pin then b.nextRing else if b.nextRing = 131071 then 2048 else b.nextRing + 1
      nextSeq := b.nextSeq + 1, lastChain := r.chain, lossDue := false }
  let full := pin && s.bbx.pinned.length == 2048
  let s := if full then
      ((s.set BBX.STATUS.PINNED_FULL 0 1).raise BBX.INT_CAUSE.PINNED_FULL).record 0x0106 []
    else s
  s.showBbx.refreshAlert

/-- BBX_RECORD_WRITE: the oldest record of the queue is written, once the scan has ended (R565 to R567). -/
def execBbxRecordWrite (s : State) : Answer :=
  match s.bbx.queue with
  | [] => .next s
  | r :: rs =>
    if !s.pkg.keep || !s.bbx.scanned then .next s
    else .next ((s.modBbx fun b => { b with queue := rs }).writeRecord r)

/-! ## The scan (R567) -/

/-- The record of a number among those retained. -/
def seqFind (rs : List (Nat × BbxRecord)) (seq : Nat) : Option BbxRecord :=
  (rs.find? fun e => e.2.seq == seq).map (·.2)

/-- A record verifies against its predecessor, or has none retained to be checked against. -/
def chainHolds (rs : List (Nat × BbxRecord)) (r : BbxRecord) : Bool :=
  if r.seq = 1 then r.chain == r.chainAfter []
  else match seqFind rs (r.seq - 1) with
    | none => true
    | some p => r.chain == r.chainAfter p.chain

/-- The newest record is torn. -/
def tornNewest (rs : List (Nat × BbxRecord)) : Option (Nat × BbxRecord) :=
  match rs.getLast? with
  | some e => if chainHolds rs e.2 then none else some e
  | none => none

/-- Chain breaks: records that do not verify, against which a later one does. -/
def chainBreaks (rs : List (Nat × BbxRecord)) : List Nat :=
  (rs.filter fun e => !chainHolds rs e.2 &&
    ((seqFind rs (e.2.seq + 1)).any fun n => n.chain == n.chainAfter e.2.chain)).map fun e => e.2.seq

/-- BBX_SCAN: the scan ends. A torn newest record is absent, breaks are counted and recorded, and the BBX bit sets
(R567). The KEEPER_ON record that waits takes the scan's result. -/
def execBbxScan (s : State) : Answer :=
  if !s.pkg.keep || s.bbx.scanned then .next s
  else
    let s := match tornNewest s.bbx.retained with
      | none => s
      | some e => s.modBbx fun b => { b with pinned := tabDel b.pinned e.1, ring := tabDel b.ring e.1 }
    let rs := s.bbx.retained
    let breaks := chainBreaks rs
    let newest := (rs.getLast?.map fun e => e.2.seq).getD 0
    let lastRing := (rs.filter fun e => decide (2048 ≤ e.1)).getLast?.map (·.1)
    let result := leBytes newest 6 ++ leBytes breaks.length 2
    let s := s.modBbx fun b =>
      { b with
        scanned := true, nextSeq := newest + 1, lastChain := (rs.getLast?.map fun e => e.2.chain).getD []
        nextRing := match lastRing with | none => 2048 | some i => if i = 131071 then 2048 else i + 1
        queue := b.queue.map fun r => if r.code = 0x0101 then { r with data := result } else r }
    let s := s.set BBX.STATUS.SCANNED 0 1
    let s := s.set BBX.STATUS.PINNED_FULL 0 (b2n (s.bbx.pinned.length == 2048))
    let s := s.addSat BBX.STATUS2.BREAKS 0 breaks.length
    let s := if breaks.isEmpty then s else s.raise BBX.INT_CAUSE.CHAIN_BREAK
    let s := breaks.foldl (fun s n => s.record 0x0105 (leBytes n 6)) s
    .next ((s.showBbx.refreshAlert).setReady rdyBbx true false)

/-! ## Seals (R569) -/

/-- The retained records from a number on, at most `count`. -/
def State.recordsFrom (s : State) (first count : Nat) : List BbxRecord :=
  ((s.bbx.retained.filter fun e => decide (first ≤ e.2.seq)).map (·.2)).take count

/-- The seal over records. -/
def State.seal (s : State) (rs : List BbxRecord) (nonce : List Byte) : List Byte × State :=
  let head := leBytes 0x53584242 4 ++ leBytes rs.length 4 ++ leBytes ((rs.head?.map (·.seq)).getD 0) 8 ++
    leBytes (s.get BBX.STATUS.NEWEST_SEQ 0) 8 ++ padTo 32 nonce ++ sha384 (rs.flatMap BbxRecord.bytes)
  let (_, t) := s.draw
  (padTo 256 (head ++ padTo 96 (Config.signature s.drawn head)), t)

/-- SEALED_READOUT: a write of BBX.READ_CTRL (R569). -/
def execSealedReadout (value : Word) (s : State) : Answer :=
  if !s.hostReach 0 true then .next s else
  let s := s.set BBX.READ_CTRL.COUNT 0 (bitsOf value 0 13)
  if bitsOf value 13 1 = 0 || s.flag BBX.READ_CTRL.BUSY 0 then .next s
  else
    let ready := s.ready rdyIdentity && s.ready rdyBbx
    let count := clampN 1 4096 (s.get BBX.READ_CTRL.COUNT 0)
    let s := s.modBbx fun b => { b with reading := some (s.get BBX.READ_FIRST.SEQ 0, count, if ready then 0 else 1) }
    .next (s.set BBX.READ_CTRL.BUSY 0 1)

/-- Host-memory writes of pieces one after the other. -/
def State.dmaList (s : State) (addr : Nat) : List (List Byte) → State
  | [] => s
  | b :: bs => (s.emit (.dma addr b)).dmaList (addr + b.length) bs

/-- SEALED_READOUT_DONE: the readout ends with its records and its seal, or its STATUS (R569). `dmaError`: a write to
host memory fails. -/
def execSealedReadoutDone (dmaError : Bool) (s : State) : Answer :=
  match s.bbx.reading with
  | none => .next s
  | some (first, count, st) =>
    let rs := s.recordsFrom first count
    let st := if st ≠ 0 then st else if rs.isEmpty then 3 else if dmaError || !s.busMaster 0 then 2 else 0
    let s := if st = 0 then
        let nonce := (List.range 4).flatMap fun k => leBytes (s.get BBX.NONCE.BYTES k) 8
        let (sl, s) := s.seal rs nonce
        s.dmaList (s.get BBX.READ_ADDR.ADDR 0 * 64) (rs.map BbxRecord.bytes ++ [sl])
      else s
    let s := s.modBbx fun b => { b with reading := none }
    let s := (s.set BBX.READ_CTRL.BUSY 0 0).set BBX.READ_CTRL.STATUS 0 st
    .next (s.raise BBX.INT_CAUSE.READ_DONE)

/-! ## Host notes (R571) -/

/-- HOST_NOTE: a write of BBX.HOST_NOTE_CTRL writes a record of the note, or is refused after 16 notes in one second
(R571). -/
def execHostNote (value : Word) (s : State) : Answer :=
  if !s.hostReach 0 true then .next s else
  let s := if bitsOf value 1 1 = 1 then s.set BBX.HOST_NOTE_CTRL.REFUSED 0 0 else s
  if bitsOf value 0 1 = 0 then .next s
  else
    let at_ := (tabGet [] s.bbx.rateAt 0x0103).filter fun t => decide (s.pkg.keepNow < t + secTicks)
    if 16 ≤ at_.length then .next (s.set BBX.HOST_NOTE_CTRL.REFUSED 0 1)
    else
      let s := s.modBbx fun b => { b with rateAt := tabPut b.rateAt 0x0103 (s.pkg.keepNow :: at_) }
      .next (s.recordFrom 2 0x0103 ((List.range 4).flatMap fun k => leBytes (s.get BBX.HOST_NOTE.BYTES k) 8))

/-! ## The keeper port (R570, R613) -/

/-- Command 0x01: BBX.STATUS and STATUS2. -/
def State.keeperStatus (s : State) : List Byte := leBytes (s.reg .BBX_STATUS 0) 8 ++ leBytes (s.reg .BBX_STATUS2 0) 8

/-- Command 0x02: up to eight records. -/
def State.keeperRecords (s : State) (first count : Nat) : List BbxRecord := s.recordsFrom first (clampN 1 8 count)

/-- Command 0x03: the seal over the records named. -/
def State.keeperSeal (s : State) (first count : Nat) (nonce : List Byte) : List Byte × State :=
  s.seal (s.recordsFrom first (clampN 1 4096 count)) nonce

/-- TOP.IDENT and TOP.READY over the keeper port: with only VDD_KEEP present, bits 3 to 63 of TOP.READY are 0 (R112). The
spec gives this read no command of the port (log entry 95). -/
def State.keeperTop (s : State) : List Byte :=
  let ready := s.get TOP.READY.BITS 0
  leBytes (s.reg .TOP_IDENT 0) 8 ++ leBytes (if s.pkg.hubUp then ready else ready % 8) 8

/-- KEEPER_GET_STATUS: BBX.STATUS and STATUS2 over the keeper port, from KEEPER on (R570), and beside them TOP.IDENT and
TOP.READY (R112). -/
def execKeeperGetStatus (s : State) : Answer :=
  if !s.ready rdyKeeper then .next s
  else
    let s := (s.emit (.answer "KEEPER" s.keeperStatus)).emit (.answer "KEEPER_TOP" s.keeperTop)
    .next (s.modPkg fun p => { p with alertFrom := s.bbx.nextSeq, alertRead := [] }).refreshAlert

/-- KEEPER_GET_RECORDS: up to eight records from FIRST_SEQ over the keeper port (R570). -/
def execKeeperGetRecords (first : Nat) (count : Fin 256) (s : State) : Answer :=
  if !s.ready rdyKeeper then .next s
  else
    let rs := s.keeperRecords first count.val
    let s := s.emit (.answer "KEEPER" (rs.flatMap BbxRecord.bytes))
    .next (s.modPkg fun p => { p with alertRead := rs.map (·.seq) ++ p.alertRead }).refreshAlert

/-- KEEPER_GET_SEAL: the seal over the records named, as they stand (R570). -/
def execKeeperGetSeal (first : Nat) (count : Fin 65536) (nonce : List Byte) (s : State) : Answer :=
  if !s.ready rdyKeeper then .next s
  else
    let (sl, s) := s.keeperSeal first count.val nonce
    .next (s.emit (.answer "KEEPER" sl))

end Sys2Proof.Machine
end

