-- ==== Sys2Proof/Machine/LoadState.lean ====
section
/-!
DEFINITION. The beginning and the end of an image load: its status, its record, and the flash slots tried at boot (R71
to R74).
-/

namespace Sys2Proof.Machine

/-- CFG.LOAD_STATUS.STATE. -/
def loadFetch : Nat := 1
def loadVerify : Nat := 2
def loadApply : Nat := 3
def loadIsDone : Nat := 4
def loadRejected : Nat := 5

/-- A load is in progress. -/
def State.loading (s : State) : Bool := s.cf.load.isSome

def State.setLoad (s : State) (l : Option LoadRec) : State := { s with cf := { s.cf with load := l } }

/-- Begins a load from a source: 0 host memory, 1 slot A, 2 slot B. A host load first reads the image's header, or the first
entry of its scatter list, at CFG.LOAD_ADDR (R72). -/
def State.startLoad (s : State) (source : Nat) (verifyOnly list : Bool) : State :=
  let s := s.set CFG.LOAD_STATUS.STATE 0 loadFetch
  let s := s.set CFG.LOAD_STATUS.CAUSE 0 0
  let s := s.set CFG.LOAD_STATUS.SECTION 0 255
  let s := s.set CFG.LOAD_STATUS.KIB_DONE 0 0
  let addr := s.get CFG.LOAD_ADDR.ADDR 0
  let s := if source = 0 then s.emit (.fetch addr (if list then 16 else 256)) else s
  s.setLoad (some { source := source, verifyOnly := verifyOnly, list := list, addr := addr })

/-- What every rejection reports: the cause, the section, the event and the record CFG_IMAGE_REJECT (R73, R74). -/
def State.rejectReport (s : State) (cause section_ source serial : Nat) : State :=
  let s := s.set CFG.LOAD_STATUS.CAUSE 0 cause
  let s := s.set CFG.LOAD_STATUS.SECTION 0 section_
  let s := s.set CFG.LOAD_STATUS.REJECT_SEEN 0 1
  let s := s.record 0x0202 (leBytes cause 1 ++ leBytes section_ 1 ++ leBytes source 1 ++ leBytes serial 8)
  s.raise CFG.INT_CAUSE.LOAD_REJECT

/-- The load in progress is rejected. At boot, the other flash slot is tried next (R71, R73, R74). -/
def State.rejectLoad (s : State) (cause section_ : Nat) : State :=
  match s.cf.load with
  | none => s
  | some l =>
    let s := (s.setLoad none).set CFG.LOAD_STATUS.STATE 0 loadRejected
    let s := s.rejectReport cause section_ l.source l.serial
    match s.cf.bootSlots with
    | [] => s
    | k :: ks => { s with cf := { s.cf with bootSlots := ks } }.startLoad k false false

/-- The load in progress reaches DONE. -/
def State.loadDone (s : State) : State :=
  let s := (s.setLoad none).set CFG.LOAD_STATUS.STATE 0 loadIsDone
  let s := s.set CFG.LOAD_STATUS.DONE_SEEN 0 1
  let s := { s with cf := { s.cf with bootSlots := [] } }
  s.raise CFG.INT_CAUSE.LOAD_DONE

/-- CFG_IMAGE_APPLIED, the record of an image applied (R74). -/
def State.imageRecord (s : State) (l : LoadRec) : State :=
  s.record 0x0201 (leBytes l.serial 8 ++ leBytes l.kind 1 ++ leBytes l.troupe 1 ++ leBytes l.keySlot 1 ++ leBytes l.source 1)

/-- The load in progress is in FETCH or VERIFY. -/
def State.loadOpen (s : State) : Bool := s.loading && s.get CFG.LOAD_STATUS.STATE 0 != loadApply

end Sys2Proof.Machine
end

