-- ==== Sys2Proof/Machine/Identity.lean ====
section
/-!
DEFINITION. Identity and trust (chapter 17): measurements, the alias key, the SPDM responder, and the owner keys (R572 to
R584).
-/

namespace Sys2Proof.Machine

def State.modSec (s : State) (f : SecBlock → SecBlock) : State := { s with sec := f s.sec }

/-! ## Measurements and the alias key (R575 to R577) -/

/-- 48 zero bytes, a measurement whose source is absent. -/
def zeroDigest : List Byte := List.replicate 48 0

/-- Measurement 1: the ROMs. -/
def measurement1 : List Byte := (List.range 48).map fun i => BitVec.ofNat 8 (Config.romDigest i)

/-- Measurement 4: SHA-384 over the digests of the troupe images in force, in troupe order. It is 48 zero bytes while
only VDD_KEEP is present (R580). -/
def State.measurement4 (s : State) : List Byte :=
  if s.pkg.mainPg then sha384 ((List.range 64).flatMap fun n => tabGet zeroDigest s.sec.troupeImages n) else zeroDigest

/-- Measurement 5: the security state. -/
def State.measurement5 (s : State) : List Byte :=
  Config.securityDigest
    (((List.range 4).flatMap fun k => ((List.range 6).map fun i => s.get SEC.OWNER_HASH.BYTES (6 * k + i)) ++
      [s.get SEC.OWNER_SLOT.REVOKED k]) ++
     [s.get SEC.STATUS.VENDOR_REVOKED 0, s.get SEC.STATUS.SVN 0, s.get CFG.SERIAL_FLOOR.FLOOR 0])

/-- The five measurements by index. -/
def State.measurements (s : State) : List (Nat × List Byte) :=
  [(1, measurement1), (2, s.sec.meas2), (3, s.sec.meas3), (4, s.measurement4), (5, s.measurement5)]

/-- A derivation of the alias key begins, or is due after the one that runs (R577). -/
def State.derive (s : State) : State :=
  if s.flag SEC.STATUS.DERIVING 0 then s.modSec fun c => { c with again := true } else s.set SEC.STATUS.DERIVING 0 1

/-- Measurement 2 takes a value; a change begins a derivation. -/
def State.setMeas2 (s : State) (d : List Byte) : State :=
  if s.sec.meas2 = d then s else (s.modSec fun c => { c with meas2 := d }).derive

/-- Measurement 3 takes a value; a change begins a derivation. -/
def State.setMeas3 (s : State) (d : List Byte) : State :=
  if s.sec.meas3 = d then s else (s.modSec fun c => { c with meas3 := d }).derive

/-- The signed-region digest of the troupe image in force for troupe n, or none (R575). -/
def State.measureTroupe (s : State) (n : Nat) (d : Option (List Byte)) : State :=
  s.modSec fun c => { c with troupeImages := match d with
    | some d => tabPut c.troupeImages n d
    | none => tabDel c.troupeImages n }

/-- ALIAS_DERIVE_DONE: a derivation ends with a new alias certificate (R577); the first sets IDENTITY (R574). -/
def execAliasDeriveDone (s : State) : Answer :=
  if !s.flag SEC.STATUS.DERIVING 0 then .next s
  else
    let again := s.sec.again
    let s := s.modSec fun c => { c with alias_ := some (c.meas2, c.meas3), again := false }
    let s := s.set SEC.STATUS.ALIAS_VALID 0 1
    let s := s.set SEC.STATUS.DERIVING 0 (b2n again)
    let s := s.addWrap SEC.STATUS.ALIAS_EPOCH 0 1
    let s := s.raise SEC.INT_CAUSE.ALIAS_CHANGED
    .next (if s.sec.chainLoaded then s.setReady rdyIdentity true false else s)

/-! ## SPDM (R578 to R580) -/

/-- A transport of the responder: 0 Data Object Exchange on the physical function, 1 MCTP on the keeper port. -/
abbrev Transport := Fin 2

def spdmUnsupported : Nat := 1
def spdmBusy : Nat := 2
def spdmInvalid : Nat := 3
def spdmUnexpected : Nat := 4

def State.spdmConn (s : State) (t : Nat) : SpdmConn := tabGet {} s.sec.spdm t

def State.setSpdm (s : State) (t : Nat) (c : SpdmConn) : State :=
  s.modSec fun b => { b with spdm := tabPut b.spdm t c }

/-- The transport is there: PCIE for Data Object Exchange, IDENTITY for the keeper port (R112, R578). -/
def State.spdmReach (s : State) (t : Nat) : Bool := if t = 0 then s.ready rdyPcie else s.ready rdyIdentity

/-- Answers a request: with Busy during a derivation (R577), with UnexpectedRequest where its transport has not
negotiated what the request needs (DSP0274, log entry 28), else as `f` says. -/
def State.spdmAnswer (s : State) (t : Nat) (allowed : Bool) (f : State → SpdmAnswer × State) : State :=
  if !s.spdmReach t then s
  else if s.flag SEC.STATUS.DERIVING 0 then s.emit (.spdm t (.error spdmBusy))
  else if !allowed then s.emit (.spdm t (.error spdmUnexpected))
  else
    let (a, s) := f s
    s.emit (.spdm t a)

/-- The chain of slot 0: the unit's certificates and the alias certificate in force (R574). -/
def State.certChain (s : State) : List Byte :=
  Config.unitChain () ++ match s.sec.alias_ with
    | some (m2, m3) => Config.aliasCertificate (measurement1 ++ m2 ++ m3)
    | none => []

/-- A signature by the alias key. -/
def State.sign (s : State) (message : List Byte) : List Byte × State :=
  (padTo 96 (Config.signature s.drawn message), s.draw.2)

/-- GET_VERSION: versions 1.2 and 1.3; the transport's negotiation begins anew. -/
def execGetVersion (transport : Transport) (s : State) : Answer :=
  .next (s.spdmAnswer transport.val true fun s =>
    (.version [0x12, 0x13], s.setSpdm transport.val { version := true }))

/-- GET_CAPABILITIES: the device's capabilities, with CTExponent 17. -/
def execGetCapabilities (transport : Transport) (s : State) : Answer :=
  .next (s.spdmAnswer transport.val (s.spdmConn transport.val).version fun s =>
    (.capabilities true true 2 true 17, s.setSpdm transport.val { version := true, capabilities := true }))

/-- NEGOTIATE_ALGORITHMS: ECDSA P-384, SHA-384 and the DMTF measurement specification, where the requester offers them. -/
def execNegotiateAlgorithms (transport : Transport) (offered : Bool) (s : State) : Answer :=
  .next (s.spdmAnswer transport.val (s.spdmConn transport.val).capabilities fun s =>
    (.algorithms offered, s.setSpdm transport.val { version := true, capabilities := true, algorithms := offered }))

/-- GET_DIGESTS: the digest of the chain of slot 0. -/
def execGetDigests (transport : Transport) (s : State) : Answer :=
  .next (s.spdmAnswer transport.val (s.spdmConn transport.val).algorithms fun s => (.digests (sha384 s.certChain), s))

/-- GET_CERTIFICATE: a portion of the chain of slot 0, root first. -/
def execGetCertificate (transport : Transport) (slot : Fin 8) (offset length : Fin 65536) (s : State) : Answer :=
  .next (s.spdmAnswer transport.val (s.spdmConn transport.val).algorithms fun s =>
    if slot.val ≠ 0 then (.error spdmInvalid, s)
    else
      let part := (s.certChain.drop offset.val).take length.val
      (.certificate part (s.certChain.length - offset.val - part.length), s))

/-- CHALLENGE: answered with a signature by the alias key over the nonce, the chain's digest and the measurements. -/
def execChallenge (transport : Transport) (slot : Fin 8) (nonce : List Byte) (s : State) : Answer :=
  .next (s.spdmAnswer transport.val (s.spdmConn transport.val).algorithms fun s =>
    if slot.val ≠ 0 then (.error spdmInvalid, s)
    else
      let (sig, s') := s.sign (nonce ++ sha384 s.certChain ++ s.measurements.flatMap (·.2))
      (.challengeAuth nonce sig, s'))

/-- GET_MEASUREMENTS: one of the measurements 1 to 5, or all (0xFF), signed where asked. Index 0 asks how many there
are. -/
def execGetMeasurements (transport : Transport) (index : Fin 256) (nonce : List Byte) (signed : Bool) (s : State) :
    Answer :=
  .next (s.spdmAnswer transport.val (s.spdmConn transport.val).algorithms fun s =>
    if 5 < index.val && index.val ≠ 255 then (.error spdmInvalid, s)
    else
      let blocks := s.measurements.filter fun m => index.val = 255 || m.1 = index.val
      if signed then
        let (sig, s') := s.sign (nonce ++ blocks.flatMap (·.2))
        (.measurements blocks (some sig), s')
      else (.measurements blocks none, s))

/-- SPDM_UNSUPPORTED_REQUEST: any other request is answered with UnsupportedRequest, and during a derivation with Busy
(R577, R579). -/
def execSpdmUnsupportedRequest (transport : Transport) (s : State) : Answer :=
  .next (s.spdmAnswer transport.val true fun s => (.error spdmUnsupported, s))

/-! ## Owner keys (R581 to R584) -/

/-- A slot is usable: provisioned and not revoked. -/
def State.slotUsable (s : State) (k : Nat) : Bool :=
  s.flag SEC.OWNER_SLOT.PROVISIONED k && !s.flag SEC.OWNER_SLOT.REVOKED k

/-- The 48 bytes of a slot's hash. -/
def State.ownerHash (s : State) (k : Nat) : List Byte :=
  (List.range 6).flatMap fun i => leBytes (s.get SEC.OWNER_HASH.BYTES (6 * k + i)) 8

/-- The 208 bytes of SEC.KEY_BUF. -/
def State.keyBuf (s : State) : List Byte := (List.range 26).flatMap fun i => leBytes (s.get SEC.KEY_BUF.BYTES i) 8

/-- A byte of a list. -/
def byteN (bs : List Byte) (i : Nat) : Nat := (bs.getD i 0).toNat

/-- Bytes `off` to `off + n - 1` are 0. -/
def zeroAt (bs : List Byte) (off n : Nat) : Bool := ((bs.drop off).take n).all fun b => b == 0

/-- An owner-key command as SEC.KEY_BUF holds it (R582). -/
structure KeyCommand where
  op : Nat
  target : Nat
  auth : Nat
  key : List Byte
  reserved : Bool
deriving DecidableEq, Repr

def State.keyCommand (s : State) : KeyCommand :=
  let b := s.keyBuf
  { op := byteN b 0, target := byteN b 1, auth := byteN b 2, key := (b.drop 8).take 97
    reserved := zeroAt b 3 5 && zeroAt b 0x69 7 && (byteN b 0 != 2 || zeroAt b 8 97) }

/-- The 16 bytes of the unit identifier (R573). -/
def State.unitId (s : State) : List Byte := leBytes (s.get SEC.UNIT_ID_LO.ID 0) 8 ++ leBytes (s.get SEC.UNIT_ID_HI.ID 0) 8

/-- The signature of the command in SEC.KEY_BUF over its bytes 0x00 to 0x6F and the unit identifier, under the key that AUTH
names, or under NEW_KEY for a first provision (R582, R583). -/
def State.keySigned (s : State) (c : KeyCommand) : Bool :=
  let b := s.keyBuf
  ecdsaValid (if c.auth = 255 then c.key else tabGet [] s.sec.ownerKeys c.auth) (b.take 0x70 ++ s.unitId)
    (ofBe ((b.drop 0x70).take 48)) (ofBe ((b.drop 0xA0).take 48))

/-- The first check of R583 that fails, by its STATUS. -/
def State.keyStatus (s : State) (c : KeyCommand) : Nat :=
  let some_ := (List.range 4).any fun k => s.flag SEC.OWNER_SLOT.PROVISIONED k
  if !s.ready rdyIdentity then 1
  else if s.flag SEC.KEY_CTRL.BUSY 0 then 2
  else if (c.op ≠ 1 && c.op ≠ 2) || 3 < c.target || (3 < c.auth && c.auth ≠ 255) || !c.reserved then 3
  else if (c.auth = 255 && (some_ || c.op = 2)) || (c.auth ≠ 255 && !s.slotUsable c.auth) then 4
  else if !s.keySigned c then 5
  else if (c.op = 1 && s.flag SEC.OWNER_SLOT.PROVISIONED c.target) || (c.op = 2 && !s.slotUsable c.target) then 6
  else if c.op = 2 && !((List.range 4).any fun k => k != c.target && s.slotUsable k) then 7
  else 0

/-- An owner-key command of the operation `op` is checked, and carried out or refused. A revocation takes effect at
once (R584). -/
def State.runKeyCommand (s : State) (op : Nat) (value : Word) : State :=
  let c := s.keyCommand
  if bitsOf value 0 1 = 0 || bitsOf value 16 16 ≠ 0x2048 || (c.op ≠ op && (c.op = 1 || c.op = 2)) then s
  else
    let st := s.keyStatus c
    if st ≠ 0 then s.set SEC.KEY_CTRL.STATUS 0 st
    else
      let s := (s.set SEC.KEY_CTRL.BUSY 0 1).modSec fun b => { b with keyCmd := some (c.op == 2, c.target, c.auth, c.key) }
      if c.op = 2 then
        let s := s.set SEC.OWNER_SLOT.REVOKED c.target 1
        if s.loadOpen && s.cf.load.any (fun l => l.checked && l.keySlot == c.target) then s.rejectLoad 0x07 255 else s
      else s

/-- PROVISION: a write of SEC.KEY_CTRL by the physical function with a PROVISION command in the buffer (R582, R583). -/
def execProvision (fn : FnNo) (value : Word) (s : State) : Answer :=
  if fn.val ≠ 0 || !s.hostReach 0 true then .next s else
  .next (s.runKeyCommand 1 value)

/-- REVOKE: a write of SEC.KEY_CTRL by the physical function with a REVOKE command in the buffer (R582 to R584). -/
def execRevoke (fn : FnNo) (value : Word) (s : State) : Answer :=
  if fn.val ≠ 0 || !s.hostReach 0 true then .next s else
  .next (s.runKeyCommand 2 value)

/-- The fuses of a slot take a key. -/
def State.fuseKey (s : State) (k : Nat) (key : List Byte) : State :=
  let h := sha384 key
  let s := (s.set SEC.OWNER_SLOT.PROVISIONED k 1).modSec fun b => { b with ownerKeys := tabPut b.ownerKeys k key }
  (List.range 6).foldl (fun s i => s.set SEC.OWNER_HASH.BYTES (6 * k + i) (ofLe ((h.drop (8 * i)).take 8))) s

/-- OWNER_KEY_COMMAND_DONE: the fuses are written, STATUS is OK, and the record and KEY_DONE follow (R583). -/
def execOwnerKeyCommandDone (s : State) : Answer :=
  match s.sec.keyCmd with
  | none => .next s
  | some (revoke, target, auth, key) =>
    let s := if revoke then s else s.fuseKey target key
    let s := s.modSec fun b => { b with keyCmd := none }
    let s := (s.set SEC.KEY_CTRL.BUSY 0 0).set SEC.KEY_CTRL.STATUS 0 0
    let s := s.record (if revoke then 0x0302 else 0x0303)
      (leBytes target 1 ++ leBytes auth 1 ++ (s.ownerHash target).take 24)
    .next (s.raise SEC.INT_CAUSE.KEY_DONE)

end Sys2Proof.Machine
end

