-- ==== Sys2Proof/Machine/Time.lean ====
section
/-!
DEFINITION. Network time (chapter 11, R371 to R385): its snapshots, its steps and its servo, the 1PPS input and output,
and the time reference.
-/

namespace Sys2Proof.Machine

def State.modTim (s : State) (f : TimeBlock → TimeBlock) : State := { s with tim := f s.tim }

/-! ## Rate and offset (R372 to R377) -/

/-- A new RATE takes effect: OFFSET changes so that network time does not move (R373). -/
def State.setRate (s : State) (rate : Int) : State :=
  let s := s.modTim fun t => { t with offset := t.offset + (s.now : Int) * (t.rate - rate), rate := rate }
  s.set TIME.RATE.RATE 0 (ofSigned 48 rate)

/-- A signed number held within 48 bits. -/
def clamp48 (v : Int) : Int := max (-(2 ^ 47)) (min (2 ^ 47 - 1) v)

/-! ## The servo's states (R380, R381) -/

def timeFree : Nat := 0
def timeAcquiring : Nat := 1
def timeLocked : Nat := 2
def timeHoldover : Nat := 3

def State.servoState (s : State) : Nat := s.get TIME.STATUS.STATE 0

/-- The ports with an active bank show what the TIME bit makes of it (R408). -/
def State.refreshUnsynced (s : State) : State :=
  ((s.sw.ports.filter fun e => e.2.winActive.isSome).map Prod.fst).foldl (fun s x => s.refreshWin x) s

/-- A move of the servo to another state, with the TIME bit (R380, R381). -/
def State.enterServo (s : State) (new : Nat) : State :=
  let old := s.servoState
  if new = old then s
  else
    let s := s.set TIME.STATUS.STATE 0 new
    let lost := (old == timeLocked || old == timeHoldover) && (new == timeFree || new == timeAcquiring)
    let s := if lost then
        let s := s.set TIME.STATUS.LOCK_LOST_SEEN 0 1
        (s.raise TIME.INT_CAUSE.LOCK_LOST).record 0x0502 (leBytes new 1)
      else s
    let s := if new = timeFree then s.modTim fun t => { t with good := 0 } else s
    let s := if new = timeLocked then s.raise TIME.INT_CAUSE.LOCKED else s
    let s := if new = timeHoldover then
        let s := s.raise TIME.INT_CAUSE.HOLDOVER
        (s.setRate (clamp48 (-s.tim.integ))).modTim fun t => { t with holdAt := s.now }
      else s
    (s.setReady rdyTime (new == timeLocked || new == timeHoldover) false).refreshUnsynced

/-- The second of network time that the 1PPS output is in (R384). -/
def State.ppsSecond (s : State) : Int := (s.netNs - signedOf 16 (s.get TIME.PPS_OUT.CORR_NS 0)) / 10 ^ 9

/-- TIME_STEP: a step of network time, in units of 2^-16 ns, is applied, counted and recorded (R377, R378). The window
predictions of every port are taken afresh from its next pick, and a pending switch whose instant the step passes takes
effect (R407). The 1PPS output waits for the next whole second of the new time. -/
def State.timeStep (s : State) (units : Int) : State :=
  let s := s.modTim fun t => { t with offset := t.offset + units * 2 ^ 37, good := 0 }
  let s := s.modTim fun t => { t with pulse := s.ppsSecond }
  let s := (s.sw.ports.map Prod.fst).foldl (fun s x => (s.modPort x fun p => { p with ePrev := none }).bankSwitch x) s
  let s := s.addSat TIME.STATUS.STEPS 0 1
  let s := s.set TIME.STATUS.STEP_SEEN 0 1
  let s := s.raise TIME.INT_CAUSE.STEP
  s.record 0x0501 (leBytes (ofSigned 64 (units.tdiv 65536)) 8)

/-- A pair of RATE and STEP_NS takes effect (R377, R378). -/
def State.timePair (s : State) (rate step : Int) : State :=
  let s := (s.setRate rate).modTim fun t => { t with integ := -rate }
  let s := s.set TIME.STEP_NS.STEP 0 (ofSigned 64 step)
  if step = 0 then s
  else
    let s := s.timeStep (step * 65536)
    if s.servoState == timeLocked || s.servoState == timeHoldover then s.enterServo timeAcquiring else s

/-- A sample of the servo, in units of 2^-16 ns (R378, R380). -/
def State.servo (s : State) (e : Int) : State :=
  let s := s.addSat TIME.SERVO_STATUS.SAMPLES 0 1
  let s := s.set TIME.SERVO_STATUS.LAST_ERR_NS 0 (ofSigned 32 (max (-(2 ^ 31)) (min (2 ^ 31 - 1) (e / 65536))))
  let s := s.modTim fun t => { t with sampleAt := s.now }
  let s := if s.servoState == timeFree then s.enterServo timeAcquiring else s
  let mag := e.natAbs
  if max 1 (s.get TIME.SERVO_CFG2.STEP_NS 0) * 65536 < mag then (s.timeStep (-e)).enterServo timeAcquiring
  else
    let err := e * 2 ^ 36
    let integ := clamp48 (s.tim.integ + err / 2 ^ s.get TIME.SERVO_CFG.KI_SHIFT 0)
    let s := s.modTim fun t => { t with integ := integ }
    let s := s.setRate (clamp48 (-(integ + err / 2 ^ s.get TIME.SERVO_CFG.KP_SHIFT 0)))
    let good := if mag ≤ s.get TIME.SERVO_CFG.LOCK_NS 0 * 65536 then s.tim.good + 1 else 0
    let s := s.modTim fun t => { t with good := good }
    let st := s.servoState
    if s.get TIME.SERVO_CFG.UNLOCK_NS 0 * 65536 < mag && (st == timeLocked || st == timeHoldover) then
      s.enterServo timeAcquiring
    else if st == timeHoldover then s.enterServo timeLocked
    else if st == timeAcquiring && decide (max 1 (s.get TIME.SERVO_CFG.LOCK_COUNT 0) ≤ good) then s.enterServo timeLocked
    else s

/-! ## The commands -/

/-- TIME_SNAPSHOT: a read of TIME.NOW_SUB by a function that includes its low half (R376). -/
def execTimeSnapshot (fn : FnNo) (s : State) : Answer :=
  if !s.hostReach fn.val true then .next s else
  .next (s.modTim fun t => { t with snaps := tabPut t.snaps fn.val (s.netStamp, s.now) })

/-- A sample offered to the servo, as a signed offset in 2^-16 ns: ignored while SRC takes the 1PPS input, and without
effect while EN is 0 (R378, R379). -/
def State.servoSample (s : State) (value : Word) : State :=
  if s.flag TIME.SERVO_CFG.SRC 0 then s.addSat TIME.SERVO_STATUS.IGNORED 0 1
  else if s.flag TIME.SERVO_CFG.EN 0 then s.servo value.toInt
  else s

/-- SERVO_SAMPLE: a write of TIME.SERVO_OFFSET (R378, R379). -/
def execServoSample (value : Word) (s : State) : Answer :=
  if !s.hostReach 0 true then .next s else .next (s.servoSample value)

/-- PPS_EDGE: an edge of the 1PPS input. One of the polarity of PPS_IN.RISING, 0.9 s or more after the last accepted
edge, is stamped, and is a sample where SRC is 1 (R379, R382). -/
def execPpsEdge (rising : Bool) (phase : Fin 4) (s : State) : Answer :=
  let early := match s.tim.ppsAt with
    | none => false
    | some t => decide (s.now < t + 1800000000)
  if rising != s.flag TIME.PPS_IN.RISING 0 || early then .next s
  else
    let t := stampRound ((s.netTime + (phase.val : Int) * (2 ^ 52 + s.tim.rate) / 4) / 2 ^ 37) -
      signedOf 16 (s.get TIME.PPS_IN.CORR_NS 0) * 65536
    let s := s.modTim fun v => { v with ppsAt := some s.now, ppsMissed := false }
    let s := s.set TIME.PPS_IN.SEEN 0 1
    let sec := 10 ^ 9 * 65536
    let sub := t % sec
    let s := s.set TIME.PPS_STAMP_SUB.FRAC 0 (sub % 65536).toNat
    let s := s.set TIME.PPS_STAMP_SUB.NS 0 (sub / 65536).toNat
    let s := s.set TIME.PPS_STAMP_SEC.SEC 0 (ofSigned 64 (t / sec))
    .next (if s.flag TIME.SERVO_CFG.EN 0 && s.flag TIME.SERVO_CFG.SRC 0 then
      s.servo (if sub < sec / 2 then sub else sub - sec) else s)

/-- PPS_MISSED: no edge has come within 1.1 s of the last accepted one (R382). -/
def execPpsMissed (s : State) : Answer :=
  match s.tim.ppsAt with
  | none => .next s
  | some t =>
    if s.tim.ppsMissed || decide (s.now < t + 2200000000) then .next s
    else
      let s := s.modTim fun v => { v with ppsMissed := true }
      .next ((s.addSat TIME.PPS_IN.MISSED 0 1).raise TIME.INT_CAUSE.PPS_MISSED)

/-- SERVO_TIMEOUT: no sample has come for TIMEOUT_MS in LOCKED (R380). -/
def execServoTimeout (s : State) : Answer :=
  if s.servoState == timeLocked &&
      decide (s.tim.sampleAt + max 1 (s.get TIME.SERVO_CFG2.TIMEOUT_MS 0) * msTicks ≤ s.now) then
    .next (s.enterServo timeHoldover)
  else .next s

/-- HOLDOVER_EXPIRY: HOLDOVER has lasted longer than HOLDOVER_S (R380). -/
def execHoldoverExpiry (s : State) : Answer :=
  if s.servoState == timeHoldover &&
      decide (s.tim.holdAt + max 1 (s.get TIME.SERVO_CFG2.HOLDOVER_S 0) * secTicks < s.now) then
    .next (s.enterServo timeFree)
  else .next s

/-- The fields of TIME.SERVO_CFG from a write. -/
def State.writeServoCfg (s : State) (value : Word) : State :=
  [TIME.SERVO_CFG.EN, TIME.SERVO_CFG.SRC, TIME.SERVO_CFG.KP_SHIFT, TIME.SERVO_CFG.KI_SHIFT, TIME.SERVO_CFG.LOCK_NS,
    TIME.SERVO_CFG.UNLOCK_NS, TIME.SERVO_CFG.LOCK_COUNT].foldl (fun s f => s.set f 0 (bitsOf value f.lo f.width)) s

/-- SERVO_DISABLE: a write of TIME.SERVO_CFG with EN = 0 moves the servo to FREE (R380); the other fields are those of
`value`. One with EN = 1 only writes the fields. -/
def execServoDisable (value : Word) (s : State) : Answer :=
  if !s.hostReach 0 true then .next s else
  let s := s.writeServoCfg value
  .next (if s.flag TIME.SERVO_CFG.EN 0 then s else s.enterServo timeFree)

/-- The time reference is lost (R383). -/
def State.refLost (s : State) : State :=
  if !s.flag TIME.STATUS.REF_PRESENT 0 then s
  else
    let s := s.set TIME.STATUS.REF_PRESENT 0 0
    let s := s.set TIME.STATUS.PLL_LOCK 0 0
    let s := s.set TIME.STATUS.REF_LOST_SEEN 0 1
    (s.raise TIME.INT_CAUSE.REF_LOST).record 0x0503 []

/-- REF_LOST: the time reference is lost (R383). -/
def execRefLost (s : State) : Answer := .next s.refLost

/-- REF_RETURN: the time reference returns (R383). -/
def execRefReturn (s : State) : Answer := .next (s.set TIME.STATUS.REF_PRESENT 0 1)

/-- PLL_RELOCK: the counter PLL has locked to the reference again (R383). -/
def execPllRelock (s : State) : Answer :=
  if s.flag TIME.STATUS.REF_PRESENT 0 then .next (s.set TIME.STATUS.PLL_LOCK 0 1) else .next s

/-- PPS_OUT_PULSE: network time has reached a whole second plus CORR_NS, and the output rises for WIDTH_US (R384). -/
def execPpsOutPulse (s : State) : Answer :=
  let sec := s.ppsSecond
  if sec = s.tim.pulse then .next s
  else
    let s := s.modTim fun t => { t with pulse := sec }
    if s.flag TIME.PPS_OUT.EN 0 && (!s.flag TIME.PPS_OUT.ONLY_LOCKED 0 || s.ready rdyTime) then
      .next (s.emit (.pulse "PPS_OUT" (clampN 1 999999 (s.get TIME.PPS_OUT.WIDTH_US 0))))
    else .next s

/-! ## Windows of a port (R394 to R408) -/

/-- WIN_GO: a write of QM.WIN_CTRL of a port (R404, R405). -/
def execWinGo (port : PortNo) (value : Word) (s : State) : Answer :=
  if !s.hostReach 0 false then .next s else
  .next (s.winGo port.val value.toNat)

/-- BANK_SWITCH: the pending bank of a port becomes active at its switch instant (R405, R407). -/
def execBankSwitch (port : PortNo) (s : State) : Answer := .next (s.bankSwitch port.val)

/-- WIN_WRITE_REFUSED: a write to a gate-list bank of a port that is active or pending is ignored and sets WRITE_REFUSED
(R403). -/
def execWinWriteRefused (port : PortNo) (bank : Fin 2) (s : State) : Answer :=
  if !s.hostReach 0 false then .next s else
  if s.bankBusy port.val bank.val then .next (s.set QM.WIN_STATUS.WRITE_REFUSED port.val 1) else .next s

/-- GATE_CHANGE: the gates of a port stand as its timeline now says, and its class groups show what that makes of their
windows (R395, R398, R408). -/
def execGateChange (port : PortNo) (s : State) : Answer := .next ((s.gateChange port.val).refreshCgs port.val)

end Sys2Proof.Machine
end

