-- ==== Sys2Proof/Machine/Tandem.lean ====
section
/-!
DEFINITION. The wardens (chapter 16, R542 to R561): inputs, commands and eliminators, resignation, restart and resync,
and the mailbox.
-/

namespace Sys2Proof.Machine

def State.modTnd (s : State) (f : TndBlock → TndBlock) : State := { s with tnd := f s.tnd }

/-! ## States (R542) -/

def wOff : Nat := 0
def wLoading : Nat := 1
def wSelftest : Nat := 2
def wResync : Nat := 3
def wActive : Nat := 4
def wStandby : Nat := 5
def wResigned : Nat := 6
def wFailed : Nat := 7

def State.wst (s : State) (w : Nat) : Nat := s.get TND.WARDEN.STATE w

/-- The warden is ACTIVE or STANDBY. -/
def State.inService (s : State) (w : Nat) : Bool := s.wst w == wActive || s.wst w == wStandby

def State.warden (s : State) (w : Nat) : Warden := tabGet {} s.tnd.wardens w

def State.modWarden (s : State) (w : Nat) (f : Warden → Warden) : State :=
  s.modTnd fun t => { t with wardens := tabMod {} t.wardens w f }

/-- The warden that is ACTIVE, or that in STANDBY. -/
def State.wardenIn (s : State) (st : Nat) : Option Nat := [0, 1].find? fun w => s.wst w == st

/-- A warden enters a state; the TOP.READY bits, ACTIVE_W and SOLE follow (R112, R542, R552). -/
def State.setWarden (s : State) (w st : Nat) : State :=
  let s := s.set TND.WARDEN.STATE w st
  let s := (s.setReady (rdyWarden w) (s.inService w) false).refreshMod
  let s := match s.wardenIn wActive with
    | some a => s.set TND.STATUS.ACTIVE_W 0 a
    | none => s
  s.set TND.STATUS.SOLE 0 (b2n (s.inService 0 != s.inService 1))

/-- Inputs that the standby has yet to take beyond the active. -/
def State.showLag (s : State) : State :=
  match s.wardenIn wActive, s.wardenIn wStandby with
  | some a, some b => s.set TND.INPUT_STATUS.LAG 0 ((s.warden b).buffer.length - (s.warden a).buffer.length)
  | _, _ => s.set TND.INPUT_STATUS.LAG 0 0

/-- A warden enters service: its timers begin. -/
def State.enterService (s : State) (w st : Nat) : State :=
  (s.modWarden w fun v => { v with
    timerAt := s.now, testAt := s.now, fullTest := none, together := false, passed := false, copied := false }).setWarden w st

/-! ## The mailbox's reply (R559) -/

/-- The request's words. -/
def State.mbxRequest (s : State) : List Byte := (List.range 32).flatMap fun i => leBytes (s.get TND.MBX_REQ.BYTES i) 8

/-- A reply is written to the buffer; BUSY clears, and the event is raised (R559). -/
def State.mbxReply (s : State) (status : Nat) (payload : List Byte) : State :=
  let tag := ((s.mbxRequest.drop 4).take 4)
  let bytes := padTo 256 (leBytes status 2 ++ leBytes payload.length 2 ++ tag ++ payload)
  let s := (List.range 32).foldl (fun s i => s.set TND.MBX_REPLY.BYTES i (ofLe ((bytes.drop (8 * i)).take 8))) s
  let s := (s.set TND.MBX_CTRL.BUSY 0 0).set TND.MBX_CTRL.REPLY_SEEN 0 1
  (s.modTnd fun t => { t with mbxAt := none }).raise TND.INT_CAUSE.MBX_REPLY

/-! ## Commands and eliminators (R546 to R550) -/

def State.elim (s : State) (e : Nat) : Eliminator := tabGet {} s.tnd.elims e

def State.modElim (s : State) (e : Nat) (f : Eliminator → Eliminator) : State :=
  s.modTnd fun t => { t with elims := tabMod {} t.elims e f }

/-- s is later than t (R547). -/
def seqLater (a b : Nat) : Bool := 1 ≤ (a + 2 ^ 32 - b) % 2 ^ 32 && (a + 2 ^ 32 - b) % 2 ^ 32 < 2 ^ 31

/-- A command acts on its eliminator's target. -/
def State.actCommand (s : State) (e : Nat) (c : WardenCmd) : State :=
  match e, c with
  | 0, .learning v =>
    [TBL.LEARN_CFG.FLAP_MOVES, TBL.LEARN_CFG.FLAP_WINDOW_MS, TBL.LEARN_CFG.PIN_HOLD_S, TBL.LEARN_CFG.FLAP_EN,
      TBL.LEARN_CFG.FILTER_US].foldl (fun s f => s.set f 0 (bitsOf v f.lo f.width)) s
  | 0, .aging t v =>
    [TBL.AGE_CFG.ACTION, TBL.AGE_CFG.TICK_MS, TBL.AGE_CFG.LIMIT_TICKS].foldl
      (fun s f => s.set f t.val (bitsOf v f.lo f.width)) s
  | 0, .promenade v => s.promWrite v
  | 2, .offset v => s.servoSample v
  | 3, .phase i v => s.writePhaseA i.val v
  | 4, .record code data => s.recordFrom 1 code.val data
  | 5, .reply st payload => if s.flag TND.MBX_CTRL.BUSY 0 then s.mbxReply st.val payload else s
  | _, _ => s

/-- A divergence: counted, latched, raised and recorded; with both wardens in service both run the full self-test
(R550). -/
def State.divergence (s : State) (e seq d0 d1 : Nat) (gone : Bool) : State :=
  let s := s.addSat TND.ELIM_COUNT.DIVERGENCES 0 1
  let s := s.set TND.DIVERGE_INFO.ELIMINATOR 0 e
  let s := s.set TND.DIVERGE_INFO.PARTNER_GONE 0 (b2n gone)
  let s := s.set TND.DIVERGE_INFO.SEQ 0 seq
  let s := (s.set TND.DIVERGE_DIGEST.DIGEST 0 d0).set TND.DIVERGE_DIGEST.DIGEST 1 d1
  let s := s.raise TND.INT_CAUSE.DIVERGE
  let s := s.record 0x0602 (leBytes e 1 ++ leBytes seq 4 ++ leBytes d0 8 ++ leBytes d1 8)
  if !gone && s.inService 0 && s.inService 1 && s.tnd.divergeAt.isNone then
    s.modTnd fun t => { t with divergeAt := some s.now }
  else s

/-- A copy that is missing: counted, raised, recorded, and handled as a divergence whose second digest is open (R549). -/
def State.missing (s : State) (e : Nat) (p : ElimEntry) : State :=
  let s := (s.addSat TND.ELIM_COUNT.MISSING 0 1).raise TND.INT_CAUSE.MISSING
  let s := s.record 0x0603 (leBytes e 1 ++ leBytes p.seq 4)
  let (free, s) := s.draw
  s.divergence e p.seq p.digest free false

/-- The first copy of a command acts, and waits for its partner's while that is in service. -/
def State.acceptCopy (s : State) (w e seq digest : Nat) (c : WardenCmd) : State :=
  let s := s.actCommand e c
  let s := s.set TND.STATUS.CMD_SEQ 0 seq
  let s := s.modElim e fun v => { v with last := seq }
  if !s.inService (1 - w) then s
  else
    let old := if 1024 ≤ (s.elim e).entries.length then (s.elim e).entries.head? else none
    let s := s.modElim e fun v => { v with
      entries := (if old.isSome then v.entries.drop 1 else v.entries) ++ [{ seq := seq, digest := digest, warden := w, at_ := s.now }] }
    match old with
    | some p => s.missing e p
    | none => s

/-- A copy of a command from a warden in service. A second copy is compared and never acts; a copy that is not later than
the last accepted is stale; any other acts (R547, R553). -/
def State.takeCopy (s : State) (copy : CommandCopy) : State :=
  let w := copy.warden.val
  let e := copy.eliminator.val
  let seq := copy.seq.toNat
  if !s.inService w then s
  else match (s.elim e).entries.find? fun p => p.seq == seq && p.warden != w with
    | some p =>
      let s := s.modElim e fun v => { v with entries := v.entries.erase p }
      if p.digest = copy.digest.toNat then s
      else s.divergence e seq p.digest copy.digest.toNat (!s.inService p.warden)
    | none =>
      if seqLater seq (s.elim e).last then s.acceptCopy w e seq copy.digest.toNat copy.cmd
      else s.addSat TND.ELIM_COUNT.STALE 0 1

/-- The pause of a resync ends, and the commands that waited go on in their order (R557). -/
def State.resume (s : State) : State :=
  s.tnd.waiting.foldl State.takeCopy (s.modTnd fun t => { t with paused := false, waiting := [] })

/-! ## Resignation and takeover (R551, R552, R627) -/

/-- A warden that runs. -/
def State.wardenRuns (s : State) (w : Nat) : Bool := wLoading ≤ s.wst w && s.wst w ≤ wStandby

/-- RESIGN_TAKEOVER: a warden that runs resigns with a cause. Entries that wait for its copies are freed, an active one
hands over to the standby, and a partner that has passed its test beside it starts alone. -/
def State.resign (s : State) (w cause : Nat) : State :=
  if !s.wardenRuns w then s
  else
    let o := 1 - w
    let wasActive := s.wst w == wActive
    let s := s.modTnd fun t => { t with
      elims := t.elims.map fun e => (e.1, { e.2 with entries := e.2.entries.filter fun p => p.warden == w }) }
    let s := s.modWarden w fun v => { v with
      buffer := [], resignedAt := s.now, fullTest := none, together := false, passed := false, copied := false }
    let s := (s.setWarden w wResigned).set TND.WARDEN.RESIGN_CAUSE w cause
    let s := (s.addSat TND.WARDEN.RESIGNATIONS w 1).raise TND.INT_CAUSE.RESIGN
    let s := if wasActive && s.wst o == wStandby then (s.setWarden o wActive).raise TND.INT_CAUSE.TAKEOVER else s
    let s := if (s.warden o).together && (s.warden o).passed then s.enterService o wActive else s
    let s := s.resume
    let (free, s) := s.draw
    let now_ := (s.wardenIn wActive).getD (free % 256)
    (s.record 0x0601 (leBytes w 1 ++ leBytes cause 1 ++ leBytes now_ 1)).showLag

/-! ## Inputs (R544, R545) -/

/-- Room for an input in each warden's buffer. -/
def inputRoom : Nat := 65536

/-- A warden takes inputs from its buffer: `n` of them, none while it is paused or in a full self-test. -/
def State.takeInputs (s : State) (w n : Nat) : State :=
  if !s.inService w || (s.tnd.paused && s.wst w == wActive) || s.tnd.divergeAt.isSome || (s.warden w).fullTest.isSome then s
  else
    let taken := (s.warden w).buffer.take n
    let s := s.modWarden w fun v => { v with
      buffer := v.buffer.drop n, timerAt := if taken.any (fun i => i.kind == 0) then s.now else v.timerAt }
    s.showLag

/-- A warden's inputs are buffered: it is in service, or catches up after a resync began (R557). -/
def State.hears (s : State) (w : Nat) : Bool := s.inService w || s.wst w == wResync

/-- An input is numbered and delivered to the wardens; a standby without room resigns with LAG; with one warden in
service and no room, or none in service, it waits at its source and merges with what waits there. -/
def State.sequence (s : State) (kind : Nat) (payload : List Nat) : State :=
  let s := match s.wardenIn wStandby with
    | some b => if inputRoom ≤ (s.warden b).buffer.length then s.resign b 4 else s
    | none => s
  let full := [0, 1].any fun w => s.hears w && decide (inputRoom ≤ (s.warden w).buffer.length)
  if full || !(s.inService 0 || s.inService 1) then
    let s := if (tabFind s.tnd.held kind).isSome then s.addSat TND.INPUT_STATUS.COALESCED 0 1 else s
    s.modTnd fun t => { t with held := tabPut t.held kind payload }
  else
    let i : WInput := { seq := s.tnd.nextInput, kind := kind, payload := payload }
    let s := s.modTnd fun t => { t with nextInput := (t.nextInput + 1) % 2 ^ 64 }
    let s := [0, 1].foldl (fun s w => if s.hears w then s.modWarden w fun v => { v with buffer := v.buffer ++ [i] } else s) s
    (s.emit (.wardenInput i.seq kind payload)).showLag

/-- Inputs that waited at their sources are sequenced as soon as there is room. -/
def State.sequenceHeld (s : State) : State :=
  s.tnd.held.foldl (fun s e => { s with tnd := { s.tnd with held := tabDel s.tnd.held e.1 } }.sequence e.1 e.2) s

/-- WARDEN_INPUT: an input of a kind (1 doorbell, 2 cause register, 3 table report) is sequenced. `takenA` and `takenB`
are the inputs that the wardens have taken since the last event. -/
def execWardenInput (kind : Fin 4) (payload : List Nat) (takenA takenB : Nat) (s : State) : Answer :=
  .next ((((s.takeInputs 0 takenA).takeInputs 1 takenB).sequenceHeld).sequence kind.val payload)

/-- TIMER_INPUT: every 10 µs an input carries the raw counter and network time. -/
def execTimerInput (takenA takenB : Nat) (s : State) : Answer :=
  let s := (s.takeInputs 0 takenA).takeInputs 1 takenB
  if s.now < s.tnd.tickAt + 10 * usTicks then .next s
  else
    let s := (s.modTnd fun t => { t with tickAt := s.now }).sequenceHeld
    .next (s.sequence 0 [s.now, (s.netNs % 2 ^ 64).toNat])

/-! ## Command copies (R547, R548) -/

/-- A copy reaches its eliminator, or waits for the end of the pause of a resync. -/
def State.copyArrives (s : State) (copy : CommandCopy) : State :=
  if s.tnd.paused then s.modTnd fun t => { t with waiting := t.waiting ++ [copy] } else s.takeCopy copy

/-- COMMAND_COPY: a copy of a command reaches its eliminator, and with it at the same instant perhaps another: of the two the
active warden's is taken first (R547, R548). In the pause of a resync commands wait (R557). -/
def execCommandCopy (copies : CopyArrival) (s : State) : Answer :=
  match copies.same with
  | none => .next (s.copyArrives copies.copy)
  | some other =>
    if s.wst other.warden.val = wActive && s.wst copies.copy.warden.val != wActive then
      .next ((s.copyArrives other).copyArrives copies.copy)
    else .next ((s.copyArrives copies.copy).copyArrives other)

/-- ELIMINATOR_WINDOW_EXPIRY: entries of an eliminator whose partner copy has not come within ELIM_WINDOW_US (R549). -/
def execEliminatorWindowExpiry (eliminator : Fin 6) (s : State) : Answer :=
  let e := eliminator.val
  let window := max 10 (s.get TND.CFG.ELIM_WINDOW_US 0) * usTicks
  let late := (s.elim e).entries.filter fun p => decide (p.at_ + window ≤ s.now) && s.inService (1 - p.warden)
  let s := s.modElim e fun v => { v with entries := v.entries.filter fun p => !late.contains p }
  .next (late.foldl (fun s p => s.missing e p) s)

/-! ## Self-tests and their ends (R550, R551, R554) -/

/-- DIVERGENCE_SELFTEST_END: each warden that fails resigns with SELFTEST; if both pass, the standby resigns with DIVERGE
(R550). -/
def execDivergenceSelftestEnd (failA failB : Bool) (s : State) : Answer :=
  match s.tnd.divergeAt with
  | none => .next s
  | some _ =>
    let s := s.modTnd fun t => { t with divergeAt := none }
    let s := [0, 1].foldl (fun s w => s.modWarden w fun v => { v with timerAt := s.now }) s
    let standby := s.wardenIn wStandby
    let s := if failA then s.resign 0 2 else s
    let s := if failB then s.resign 1 2 else s
    match failA || failB, standby with
    | false, some b => .next (s.resign b 5)
    | _, _ => .next s

/-- LOCKSTEP_MISMATCH: a warden's cores disagree and it resigns. -/
def execLockstepMismatch (warden : Fin 2) (s : State) : Answer := .next (s.resign warden.val 1)

/-- WATCHDOG_EXPIRY: no timer input taken for 1 ms outside a full self-test, or a full self-test not ended within 6 ms
(R551). -/
def execWatchdogExpiry (warden : Fin 2) (s : State) : Answer :=
  let w := warden.val
  let test := match (s.warden w).fullTest with | some t => some t | none => if s.inService w then s.tnd.divergeAt else none
  let late := match test with
    | some t => s.wardenRuns w && decide (t + 6 * msTicks ≤ s.now)
    | none => s.inService w && decide ((s.warden w).timerAt + msTicks ≤ s.now)
  .next (if late then s.resign w 3 else s)

/-- PERIODIC_SELFTEST: every SELFTEST_MS a warden in service runs a sliced self-test, and resigns if it fails (R554). -/
def execPeriodicSelftest (warden : Fin 2) (pass : Bool) (s : State) : Answer :=
  let w := warden.val
  let every := max 10 (s.get TND.CFG.SELFTEST_MS 0) * msTicks
  if !s.inService w || s.now < (s.warden w).testAt + every then .next s
  else
    let s := s.modWarden w fun v => { v with testAt := s.now }
    .next (if pass then s else s.resign w 2)

/-! ## Restart and resync (R543, R556 to R558) -/

/-- A warden begins to load its firmware. -/
def State.startWarden (s : State) (w : Nat) (together : Bool) : State :=
  (s.modWarden w fun _ => { together := together, resignedAt := (s.warden w).resignedAt, autoAt := (s.warden w).autoAt }).setWarden
    w wLoading

/-- Both wardens start together with a verified package (R543, R558): what waited for their copies is freed; measurement 2 is that package's (R575). -/
def State.startBoth (s : State) (f : Firmware) : State :=
  let s := s.modSec fun c => { c with verified := some f }
  let s := s.modTnd fun t => { t with
    paused := false, divergeAt := none, waiting := [], elims := t.elims.map fun e => (e.1, { e.2 with entries := [] }) }
  let s := s.set SEC.FW_BOOT.RUNNING_VERSION 0 f.version
  ((s.setMeas2 f.digest).startWarden 0 true).startWarden 1 true

/-- AUTO_RESTART: 10 ms after its resignation a warden restarts; one that resigned again within RESTART_HOLD_S of an
automatic restart is FAILED (R556). -/
def execAutoRestart (warden : Fin 2) (s : State) : Answer :=
  let w := warden.val
  let v := s.warden w
  if s.wst w ≠ wResigned || !s.flag TND.CFG.AUTO_RESTART 0 || s.now < v.resignedAt + 10 * msTicks then .next s
  else if v.autoAt.any fun t => decide (v.resignedAt ≤ t + s.get TND.CFG.RESTART_HOLD_S 0 * secTicks) then
    .next ((s.setWarden w wFailed).raise TND.INT_CAUSE.FAILED)
  else .next ((s.modWarden w fun v => { v with autoAt := some s.now }).startWarden w false)

/-- WARDEN_LOAD_DONE: a starting warden has loaded its firmware and enters SELFTEST. -/
def execWardenLoadDone (warden : Fin 2) (s : State) : Answer :=
  let w := warden.val
  match s.sec.verified with
  | none => .next s
  | some f =>
    if s.wst w ≠ wLoading then .next s
    else
      let s := s.set TND.WARDEN.FW_VERSION w f.version
      .next ((s.modWarden w fun v => { v with fullTest := some s.now }).setWarden w wSelftest)

/-- A warden without a source starts its firmware from the beginning and is the one in service (R556). -/
def State.startSole (s : State) (w : Nat) : State := (s.enterService w wActive).record 0x0604 (leBytes w 1)

/-- WARDEN_SELFTEST_DONE: a starting warden ends its full self-test. Both together become ACTIVE (A) and STANDBY (B); one
alone takes a resync from the active warden, or is ACTIVE and alone (R543, R556, R557, R627). -/
def execWardenSelftestDone (warden : Fin 2) (pass : Bool) (s : State) : Answer :=
  let w := warden.val
  let o := 1 - w
  if s.wst w ≠ wSelftest || (s.warden w).passed then .next s
  else if !pass then .next (s.resign w 2)
  else if (s.warden w).together then
    let s := s.modWarden w fun v => { v with passed := true, fullTest := none }
    if (s.warden o).together then
      if (s.warden o).passed then .next ((s.enterService 0 wActive).enterService 1 wStandby) else .next s
    else .next (s.enterService w wActive)
  else if (s.wardenIn wActive).isSome then
    let s := (s.modWarden w fun v => { v with fullTest := none, copied := false, buffer := [] }).setWarden w wResync
    .next (s.modTnd fun t => { t with paused := true })
  else .next (s.startSole w)

/-- RESYNC_COPY_DONE: the copy to the rejoining warden is complete, and the active warden resumes (R557). -/
def execResyncCopyDone (s : State) : Answer :=
  match s.wardenIn wResync with
  | none => .next s
  | some w => .next (s.modWarden w fun v => { v with copied := true }).resume

/-- RESYNC_DONE: the rejoining warden has caught up and is STANDBY (R557); with no warden ACTIVE it is in service alone. -/
def execResyncDone (warden : Fin 2) (s : State) : Answer :=
  let w := warden.val
  if s.wst w ≠ wResync then .next s
  else if (s.wardenIn wActive).isNone then .next (s.startSole w)
  else if !(s.warden w).copied then .next s
  else
    let s := (s.modWarden w fun v => { v with buffer := [] }).enterService w wStandby
    let s := s.raise TND.INT_CAUSE.STANDBY_READY
    .next ((s.record 0x0604 (leBytes w 1)).showLag)

/-! ## TND.CTRL (R556, R558, R627) -/

/-- The operation that a write of TND.CTRL carries out, none without GO and KEY. -/
def ctrlOp (value : Word) : Option Nat :=
  if bitsOf value 3 1 = 1 && bitsOf value 16 16 = 0x2048 then some (bitsOf value 1 2) else none

/-- RESTART: a RESIGNED or FAILED warden loads again. -/
def execRestart (value : Word) (s : State) : Answer :=
  if !s.hostReach 0 false then .next s else
  if ctrlOp value ≠ some 1 then .next s
  else
    let w := bitsOf value 0 1
    if s.wst w = wResigned || s.wst w = wFailed then .next ((s.set TND.CTRL.STATUS 0 0).startWarden w false)
    else .next (s.set TND.CTRL.STATUS 0 1)

/-- RESIGN: a warden that runs resigns with cause HOST. -/
def execResign (value : Word) (s : State) : Answer :=
  if !s.hostReach 0 false then .next s else
  if ctrlOp value ≠ some 2 then .next s
  else
    let w := bitsOf value 0 1
    if s.wardenRuns w then .next ((s.set TND.CTRL.STATUS 0 0).resign w 6) else .next (s.set TND.CTRL.STATUS 0 1)

/-- A restart of both wardens is under way. -/
def State.bothStarting (s : State) : Bool := (s.warden 0).together || (s.warden 1).together

/-- RESTART_BOTH: both wardens load the pending copy, or the verified copy where none is pending, and start together
(R558, R588). -/
def execRestartBoth (value : Word) (s : State) : Answer :=
  if !s.hostReach 0 false then .next s else
  if ctrlOp value ≠ some 3 then .next s
  else if s.sec.fwLoading || s.bothStarting then .next (s.set TND.CTRL.STATUS 0 2)
  else
    match (match s.sec.pendingFw with | some f => some f | none => s.sec.verified) with
    | none => .next (s.set TND.CTRL.STATUS 0 1)
    | some f =>
      let s := (s.set TND.CTRL.STATUS 0 0).set SEC.FW_STATUS.PENDING_VALID 0 0
      let s := s.modSec fun c => { c with pendingFw := none }
      .next (s.startBoth f)

/-! ## The mailbox (R559 to R561) -/

/-- MAILBOX_DOORBELL: a write of MBX_CTRL. While BUSY is 0, DOORBELL sends the request as an input; with no warden in
service the hardware answers NO_WARDEN. -/
def execMailboxDoorbell (value : Word) (s : State) : Answer :=
  if !s.hostReach 0 false then .next s else
  let s := if bitsOf value 2 1 = 1 then s.set TND.MBX_CTRL.REPLY_SEEN 0 0 else s
  let s := if bitsOf value 3 1 = 1 then s.set TND.MBX_CTRL.TIMED_OUT 0 0 else s
  if bitsOf value 0 1 = 0 || s.flag TND.MBX_CTRL.BUSY 0 then .next s
  else if !s.wardenUp then .next (s.mbxReply 0xFFFF [])
  else
    let s := (s.set TND.MBX_CTRL.BUSY 0 1).modTnd fun t => { t with mbxAt := some s.now }
    .next (s.sequence 1 ((List.range 32).map fun i => s.get TND.MBX_REQ.BYTES i))

/-- The opcode of the request that waits for its reply, while firmware services run. -/
def State.mbxOpcode (s : State) : Option Nat :=
  if s.flag TND.MBX_CTRL.BUSY 0 && s.firmwareRuns then
    some (ofLe (s.mbxRequest.take 2)) else none

/-- GET_INFO: opcode 0x0001 returns the firmware version, the active warden and both states (R560). -/
def execGetInfo (s : State) : Answer :=
  if s.mbxOpcode ≠ some 1 then .next s
  else
    let a := s.get TND.STATUS.ACTIVE_W 0
    .next (s.mbxReply 0 (leBytes (s.get TND.WARDEN.FW_VERSION a) 4 ++ leBytes a 1 ++ leBytes (s.wst 0) 1 ++ leBytes (s.wst 1) 1))

/-- ECHO: opcode 0x0002 returns its payload (R560). -/
def execEcho (s : State) : Answer :=
  if s.mbxOpcode ≠ some 2 then .next s
  else
    let r := s.mbxRequest
    .next (s.mbxReply 0 ((r.drop 8).take (min 248 (ofLe ((r.drop 2).take 2)))))

/-- UNKNOWN_OP: an opcode that is neither fixed nor of the firmware's returns STATUS 1 (R560). -/
def execUnknownOp (s : State) : Answer :=
  match s.mbxOpcode with
  | none => .next s
  | some op => if op = 1 || op = 2 || 0x100 ≤ op then .next s else .next (s.mbxReply 1 [])

/-- MAILBOX_TIMEOUT: a request without a reply for 100 ms (R561). -/
def execMailboxTimeout (s : State) : Answer :=
  match s.tnd.mbxAt with
  | none => .next s
  | some t =>
    if s.now < t + 100 * msTicks then .next s
    else
      let s := (s.set TND.MBX_CTRL.BUSY 0 0).set TND.MBX_CTRL.TIMED_OUT 0 1
      .next (s.modTnd fun t => { t with mbxAt := none })

end Sys2Proof.Machine
end

