-- ==== Sys2Proof/Machine/Firmware.lean ====
section
/-!
DEFINITION. The warden firmware's packages: their checks, the loads from host memory and from flash, and the security
version (R585 to R589).
-/

namespace Sys2Proof.Machine

/-! ## The package (R585, R586) -/

/-- Little-endian field of a header. -/
def leField (bytes : List Byte) (off n : Nat) : Nat := ofLe ((bytes.drop off).take n)

/-- A range of bytes is all 0. -/
def zeroSpan (bytes : List Byte) (off n : Nat) : Bool := ((bytes.drop off).take n).all (· == 0)

/-- BAD_HEADER: MAGIC, FORMAT, LENGTH and the reserved bytes; SVN is at most 63. -/
def fwHeaderGood (h : List Byte) : Bool :=
  h.length == 512 && leField h 0 4 == 0x5746574D && leField h 4 2 == 1 && leField h 9 1 ≤ 63 &&
  leField h 0x0A 1 < 2 && zeroSpan h 0x0B 1 && 1 ≤ leField h 0x10 4 && leField h 0x10 4 ≤ 3145728 &&
  zeroSpan h 0x14 4 && zeroSpan h 0xA9 7 && zeroSpan h 0x110 240

/-- The firmware key that a package names, if its hash is fused and not revoked. -/
def State.fwKey (s : State) (h : List Byte) : Option Nat :=
  let hash := sha384 ((h.drop 0x48).take 97)
  [0, 1].find? fun k => s.sec.vendorHash[k]? == some hash && !natBit (s.get SEC.STATUS.VENDOR_REVOKED 0) k

/-- The signature of a package over bytes 0x00 to 0xAF, under the key that it carries (R585, R586). -/
def fwSigned (h : List Byte) : Bool :=
  ecdsaValid ((h.drop 0x48).take 97) (h.take 0xB0) (ofBe ((h.drop 0xB0).take 48)) (ofBe ((h.drop 0xE0).take 48))

/-- The first check of R586 that a package fails, 0 where it passes. A read of the header or of the payload that
failed is found where its bytes are first needed; `readCause` is DMA_ERROR or FLASH_ERROR (log entry 29). -/
def State.fwCause (s : State) (header payload : List Byte) (noHeader noPayload : Bool) (readCause : Nat) : Nat :=
  if noHeader then readCause
  else if !fwHeaderGood header then 1
  else if leField header 6 2 ≠ s.get TOP.IDENT.PART 0 || leField header 8 1 ≠ s.get TOP.IDENT.STEPPING 0 then 2
  else if (s.fwKey header).isNone then 3
  else if !fwSigned header then 4
  else if leField header 9 1 < s.get SEC.STATUS.SVN 0 then 5
  else if noPayload then readCause
  else if payload.length ≠ leField header 0x10 4 || sha384 payload ≠ (header.drop 0x18).take 48 then 6
  else 0

/-- A rejected package: its cause, its record and its event (R586). -/
def State.fwReject (s : State) (cause : Nat) (header : List Byte) : State :=
  let s := (s.set SEC.FW_STATUS.STATE 0 3).set SEC.FW_STATUS.CAUSE 0 cause
  let s := s.record 0x0301 (leBytes cause 1 ++ leBytes (leField header 0x0C 4) 4 ++ padTo 24 ((header.drop 0x18).take 24))
  s.raise SEC.INT_CAUSE.FW_REJECT

/-- A package that passes: REVOKE_OTHER revokes the other key first (R586). -/
def State.fwAccept (s : State) (header payload : List Byte) : Firmware × State :=
  let f : Firmware :=
    { version := leField header 0x0C 4, svn := leField header 9 1, digest := sha384 (header ++ payload) }
  let s := if bitsOf (BitVec.ofNat 64 (leField header 0x0A 1)) 0 1 = 1 then
      match s.fwKey header with
      | some k => s.set SEC.STATUS.VENDOR_REVOKED 0 (natSetBit (s.get SEC.STATUS.VENDOR_REVOKED 0) (1 - k) true)
      | none => s
    else s
  (f, s)

/-! ## Loads -/

/-- FW_LOAD: a write of SEC.FW_CTRL with LOAD begins a load from FW_ADDR, unless one runs or both wardens restart
(R588). -/
def execFwLoad (value : Word) (s : State) : Answer :=
  if !s.hostReach 0 true then .next s else
  if bitsOf value 0 1 = 0 then .next s
  else if s.sec.fwLoading || s.bothStarting then .next (s.set SEC.FW_STATUS.STATE 0 2)
  else
    let s := (s.set SEC.FW_STATUS.STATE 0 1).set SEC.FW_STATUS.CAUSE 0 0
    let s := if s.busMaster 0 then s.emit (.fetch (s.get SEC.FW_ADDR.ADDR 0 * 64) 512) else s
    .next (s.modSec fun c => { c with fwLoading := true })

/-- FW_LOAD_DONE: the package is pending, or rejected. `header` and `payload` are the bytes read, unless that read
failed; with the physical function's Bus Master Enable at 0 nothing is read, and the first read fails (R508). -/
def execFwLoadDone (header payload : List Byte) (noHeader noPayload : Bool) (s : State) : Answer :=
  if !s.sec.fwLoading then .next s
  else
    let s := s.modSec fun c => { c with fwLoading := false }
    let noHeader := noHeader || !s.busMaster 0
    let header := if noHeader then [] else header
    match s.fwCause header payload noHeader noPayload 7 with
    | 0 =>
      let (f, s) := s.fwAccept header payload
      let s := s.modSec fun c => { c with pendingFw := some f }
      let s := (s.set SEC.FW_STATUS.STATE 0 0).set SEC.FW_STATUS.CAUSE 0 0
      let s := (s.set SEC.FW_STATUS.PENDING_VALID 0 1).set SEC.FW_STATUS.PENDING_VERSION 0 f.version
      .next (s.raise SEC.INT_CAUSE.FW_DONE)
    | cause => .next (s.fwReject cause header)

/-- COMMIT_SVN: with KEY, the fused version rises to that of the firmware that both wardens run; refused with BUSY while
either is not in service (R589). -/
def execCommitSvn (value : Word) (s : State) : Answer :=
  if !s.hostReach 0 true then .next s else
  if bitsOf value 1 1 = 0 || bitsOf value 16 16 ≠ 0x2048 then .next s
  else if !s.inService 0 || !s.inService 1 then .next (s.set SEC.FW_STATUS.STATE 0 2)
  else
    match s.sec.verified with
    | none => .next s
    | some f => .next (s.set SEC.STATUS.SVN 0 (max (s.get SEC.STATUS.SVN 0) f.svn))

/-- FW_BOOT_READ: the next flash slot to try at a main-domain reset is read and verified. One that passes is started by
both wardens; with both rejected they stay OFF (R587). -/
def execFwBootRead (header payload : List Byte) (noHeader noPayload : Bool) (s : State) : Answer :=
  let header := if noHeader then [] else header
  match s.sec.fwSlots with
  | [] => .next s
  | slot :: rest =>
    match s.fwCause header payload noHeader noPayload 8 with
    | 0 =>
      let (f, s) := s.fwAccept header payload
      let s := s.modSec fun c => { c with fwSlots := [] }
      .next ((s.set SEC.FW_BOOT.LAST_SLOT 0 slot).startBoth f)
    | cause => .next ((s.modSec fun c => { c with fwSlots := rest }).fwReject cause header)

end Sys2Proof.Machine
end

