-- ==== Sys2Proof/Machine/Address.lean ====
section
/-!
DEFINITION. The address maps: BAR0 of the physical function (R621 to R623) and the window of a troupe (R518, R519,
R622). Each gives the register, its instance and the byte of it that an offset names.
-/

namespace Sys2Proof.Machine

/-- A place in a register: register, instance, and the byte within its eight. -/
structure Target where
  reg : Reg
  idx : Nat
  byte : Nat
deriving DecidableEq, Repr

/-- The instance and the byte of an offset in an array of registers. -/
def arrayAt : List (Nat × Nat) → Nat → Nat → Option (Nat × Nat)
  | [], rel, i => if rel < 8 then some (i, rel) else none
  | (n, stride) :: ds, rel, i => if rel / stride < n then arrayAt ds (rel % stride) (i * n + rel / stride) else none

/-- The register of a block at an offset from its base, none where none lies there (R14). -/
def slotFind : List Slot → Nat → Option Target
  | [], _ => none
  | sl :: sls, rel =>
    match if sl.off ≤ rel then arrayAt sl.dims (rel - sl.off) 0 else none with
    | some (i, b) => some ⟨sl.reg, i, b⟩
    | none => slotFind sls rel

/-- A block of the physical function: base, last offset and registers (R621). -/
structure Block where
  base : Nat
  last : Nat
  slots : List Slot
deriving DecidableEq, Repr

def baseHIF : Nat := 0x1000000
def basePIPE : Nat := 0x3000000
def baseTBL : Nat := 0x4000000
def basePOL : Nat := 0x5000000
def baseHBM : Nat := 0x9000000
def baseTEL : Nat := 0xA000000

/-- The twenty blocks (R621). -/
def blocks : List Block :=
  [ ⟨0x0, 0xFFFFF, slotsTOP⟩, ⟨0x100000, 0x1FFFFF, slotsCFG⟩, ⟨0x200000, 0x2FFFFF, slotsSEC⟩,
    ⟨0x300000, 0x3FFFFF, slotsBBX⟩, ⟨0x400000, 0x4FFFFF, slotsPACE⟩, ⟨0x500000, 0x5FFFFF, slotsTIME⟩,
    ⟨0x600000, 0x6FFFFF, slotsTND⟩, ⟨baseHIF, 0x1FFFFFF, slotsHIF⟩, ⟨0x2000000, 0x23FFFFF, slotsLANE⟩,
    ⟨0x2400000, 0x27FFFFF, slotsPORT⟩, ⟨0x2800000, 0x2FFFFFF, slotsMOD⟩, ⟨basePIPE, 0x3FFFFFF, slotsPIPE⟩,
    ⟨baseTBL, 0x4FFFFFF, slotsTBL⟩, ⟨basePOL, 0x5FFFFFF, slotsPOL⟩, ⟨0x6000000, 0x6FFFFFF, slotsCELL⟩,
    ⟨0x7000000, 0x7FFFFFF, slotsQM⟩, ⟨0x8000000, 0x8FFFFFF, slotsMC⟩, ⟨baseHBM, 0x9FFFFFF, slotsHBM⟩,
    ⟨baseTEL, 0xAFFFFFF, slotsTEL⟩, ⟨0xB000000, 0xBFFFFFF, slotsLNK⟩ ]

/-- The block of an offset of the physical function, none outside every block (R13, R621). -/
def blockOf (off : Nat) : Option Block := blocks.find? fun b => decide (b.base ≤ off) && decide (off ≤ b.last)

/-- The register at an offset of the physical function. -/
def pfTarget (off : Nat) : Option Target :=
  match blockOf off with
  | none => none
  | some b => slotFind b.slots (off - b.base)

/-- Blocks that stay within reach while a full image is applied: TOP, CFG, SEC, BBX, TIME and HIF (R76). -/
def openInApply (off : Nat) : Bool :=
  match blockOf off with
  | none => true
  | some b => [0x0, 0x100000, 0x200000, 0x300000, 0x500000, baseHIF].contains b.base

/-! ## A troupe's window (R518, R519) -/

/-- Rings or command blocks of troupe n in ascending global number (R519). -/
def ownedBy (owners : List (Nat × Nat)) (count n : Nat) : List Nat :=
  (List.range count).filter fun r => tabGet 0 owners r == n

/-- Ports of troupe n in ascending global number. -/
def State.ownPorts (s : State) (n : Nat) : List Nat :=
  (List.range 512).filter fun x => (s.portPlan x).any fun p => p.troupe == n

/-- The registers of a window that are copies per function, with how many instances each function has. -/
def perFn (sl : Slot) : Nat := sl.dims.foldl (fun n d => n * d.1) 1

/-- The register of a function's own copy at a window offset. -/
def windowOwn (n off : Nat) : Option Target :=
  (slotsWindow.findSome? fun sl =>
    match if sl.off ≤ off then arrayAt sl.dims (off - sl.off) 0 else none with
    | some (i, b) => some ⟨sl.reg, n * perFn sl + i, b⟩
    | none => none)

/-- The local numbers of a window array that begins at `start`: the global one and the rest of the offset. -/
def localAt (start stride off : Nat) (owned : List Nat) : Option (Nat × Nat) :=
  if off < start then none
  else match owned[(off - start) / stride]? with
    | none => none
    | some g => some (g, (off - start) % stride)

/-- The offset of the physical function at which a troupe's window shows a register of another block. -/
def State.windowElsewhere (s : State) (n off : Nat) : Option Nat :=
  if off < 8 then some off
  else if 0x400 ≤ off && off < 0x408 then some (0x400000 + 0x8 + (off - 0x400))
  else if 0x408 ≤ off && off < 0x410 then some (0x400000 + 0x1000 + n * 8 + (off - 0x408))
  else if 0x580 ≤ off && off < 0x588 then
    some (0x6000000 + 0x800 + n * 8 + (off - 0x580))
  else if 0xA00 ≤ off && off < 0xA38 then some (baseTEL + 0x1000 + n * 0x40 + (off - 0xA00))
  else if 0xA40 ≤ off && off < 0xA80 then
    some (baseTEL + 0x2000 + n * 0x40 + (off - 0xA40))
  else if 0xB00 ≤ off && off < 0xB38 then
    if s.image.hbm.captureTroupe == n && !s.image.hbm.captureQueues.isEmpty then some (baseHBM + (off - 0x800)) else none
  else if off < 0x18000 then
    (localAt 0x10000 0x100 off (ownedBy s.image.rxOwner 512 n)).map fun g => baseHIF + 0x100000 + g.1 * 0x100 + g.2
  else if off < 0x20000 then
    (localAt 0x18000 0x100 off (ownedBy s.image.txOwner 512 n)).map fun g => baseHIF + 0x200000 + g.1 * 0x100 + g.2
  else if off < 0x20100 then some (baseHIF + 0x300000 + n * 0x100 + (off - 0x20000))
  else if off < 0x23000 then
    (localAt 0x21000 0x100 off (ownedBy s.image.rptOwner 32 n)).map fun g => baseHIF + 0x310000 + g.1 * 0x100 + g.2
  else if off < 0x42000 then
    (localAt 0x40000 0x100 off (ownedBy s.image.cmdOwner 32 n)).map fun g => baseTBL + 0x10000 + g.1 * 0x100 + g.2
  else if 0xA0000 ≤ off && off < 0xA0000 + 129 * 0x800 then
    let j := (off - 0xA0000) / 0x800
    let rest := (off - 0xA0000) % 0x800
    let row := if j = 128 then some (512 + n) else (s.ownPorts n)[j]?
    row.map fun x => baseTEL + 0x100000 + x * 0x800 + rest
  else if 0x100000 ≤ off && off < 0x180000 then
    let i := (off - 0x100000) / 8
    if tabFind s.image.pregOwner i == some n then some (basePIPE + off) else none
  else if 0x180000 ≤ off && off < 0x200000 then
    let j := (off - 0x180000) / 0x20
    match s.troupePlan n with
    | some t =>
      if j < t.policerCount then some (basePOL + 0x100000 + (t.policerFirst + j) * 0x20 + (off - 0x180000) % 0x20)
      else none
    | none => none
  else none

/-- The register at an offset of troupe n's window. -/
def State.winTarget (s : State) (n off : Nat) : Option Target :=
  match windowOwn n off with
  | some t => some t
  | none =>
    match s.windowElsewhere n off with
    | none => none
    | some pf => pfTarget pf

/-- The register at an offset of a function's BAR0. -/
def State.target (s : State) (fn off : Nat) : Option Target :=
  if fn = 0 then pfTarget off else s.winTarget fn off

/-- The size of a function's BAR0, as far as its accesses are proper (R13, R621, R622). -/
def inBlocks (fn off : Nat) : Bool := if fn = 0 then (blockOf off).isSome else decide (off < 0x200000)

end Sys2Proof.Machine
end

