-- ==== Sys2Proof/Machine/ImageBuild.lean ====
section
/-!
DEFINITION. The image that section bodies build, in the model's own form of them (log entry 6): a full image (R64, R70), a
troupe image within it (R101 to R104), and what a restore gives back (R517).
-/

namespace Sys2Proof.Machine

def secStructure : Nat := 0x01
def secBreakout : Nat := 0x02
def secParser : Nat := 0x10
def secIprog : Nat := 0x11
def secEprog : Nat := 0x12
def secTables : Nat := 0x20
def secPolicer : Nat := 0x30
def secBuffer : Nat := 0x40
def secQueue : Nat := 0x41
def secHbm : Nat := 0x50
def secTroupe : Nat := 0x60
def secRegInit : Nat := 0x70
def secNote : Nat := 0xF0

/-- The troupe of a port that the image places. -/
def imagePort (im : Image) (x : Nat) : Option Nat := (im.ports.find? fun p => p.port == x).map (·.troupe)

/-- A troupe that the image reserves; troupe 0 always exists. -/
def imageTroupe (im : Image) (n : Nat) : Option Nat :=
  if n = 0 || im.troupes.any fun t => t.troupe == n then some n else none

/-- A queue belongs to a troupe. -/
def imageQueue (im : Image) (q n : Nat) : Bool := imagePort im (queuePort q) == some n

/-- The entries of a list whose owner is n are those of another list. -/
def swapOwned {α : Type} (mine : Nat × α → Bool) (cur new : List (Nat × α)) : List (Nat × α) :=
  (new.filter mine).foldl (fun t e => tabPut t e.1 e.2) (cur.filter fun e => !mine e)

/-- An image in which troupe n has the contents that another image gives it: all that a troupe image may replace within
the reservation (R70, R101). -/
def withTroupe (cur new : Image) (n : Nat) : Image :=
  { cur with
    programs := swapOwned (fun e => e.1 % 64 == n) cur.programs new.programs,
    tables := swapOwned (fun e => e.2.troupe == n) cur.tables new.tables,
    policers := swapOwned (fun e => e.2.2 == n) cur.policers new.policers,
    cgTier := swapOwned (fun e => imagePort new (e.1 / 16) == some n) cur.cgTier new.cgTier,
    qshaperQueue := swapOwned (fun e => imageQueue new e.2 n) cur.qshaperQueue new.qshaperQueue,
    troupes := cur.troupes.map fun t =>
      if t.troupe = n then ((new.troupes.find? fun u => u.troupe == n).getD t) else t }

/-- The type of the section that a body belongs to, none for one that no section's type has. -/
def bodyType : SectionBody → Option Nat
  | .structure_ _ => some secStructure
  | .breakout _ => some secBreakout
  | .parser _ => some secParser
  | .iprog _ _ _ _ => some secIprog
  | .eprog _ => some secEprog
  | .tableCarve _ => some secTables
  | .policerBind _ => some secPolicer
  | .buffer _ _ => some secBuffer
  | .queue _ _ => some secQueue
  | .hbmPlan _ => some secHbm
  | .troupe _ _ _ _ _ _ _ _ _ => some secTroupe
  | .regInit _ => some secRegInit
  | .note => some secNote
  | .unknown => none

/-- Policers of troupe n: the first number and how many. -/
def policerRange (ps : List (Nat × (Nat × Nat))) (n : Nat) : Nat × Nat :=
  let mine := (ps.filter fun e => e.2.2 == n).map (·.1)
  (mine.foldl min (mine.headD 0), mine.length)

/-- The records of a REG_INIT body, 16 bytes each: BAR0 offset and value, of 8 bytes (R70). -/
def regInitRecords : Nat → List Byte → List (Nat × Nat)
  | 0, _ => []
  | n + 1, bs => (ofLe (bs.take 8), ofLe ((bs.drop 8).take 8)) :: regInitRecords n (bs.drop 16)

/-- Records of the REG_INIT sections, in ascending OFFSET. -/
def regRecords (bs : List SectionBody) : List (Nat × Nat) :=
  bs.flatMap fun b => match b with | .regInit bytes => regInitRecords (bytes.length / 16) bytes | _ => []

/-- Bodies of POLICER_BIND sections. -/
def policerEntries (bs : List SectionBody) : List (Nat × (Nat × Nat)) :=
  bs.flatMap fun b => match b with | .policerBind ps => ps | _ => []

/-- A body's part of a full image. -/
def addBody (im : Image) : SectionBody → Image
  | .structure_ progId => { im with progId := progId }
  | .breakout ports => { im with ports := ports.map fun p => { p with troupe := 0 } }
  | .parser ps => { im with parsers := ps }
  | .iprog ps count owner partner =>
    { im with programs := ps.foldl (fun t e => tabPut t e.1 e.2) im.programs, pregCount := count, pregOwner := owner,
              pregPartner := partner }
  | .eprog ps => { im with programs := ps.foldl (fun t e => tabPut t e.1 e.2) im.programs }
  | .tableCarve ts => { im with tables := ts }
  | .policerBind ps => { im with policers := ps.foldl (fun t e => tabPut t e.1 e.2) im.policers }
  | .buffer steps _ => { im with bodySteps := steps }
  | .queue tiers shapers => { im with cgTier := tiers, qshaperQueue := shapers }
  | .hbmPlan plan => { im with hbm := plan }
  | .troupe ts _ mirror mc rx tx txp rpt cmd =>
    { im with troupes := if ts.any (fun t => t.troupe == 0) then ts else { troupe := 0 } :: ts, mirrorOwner := mirror,
              mcOwner := mc, rxOwner := rx, txOwner := tx, txPipe := txp, rptOwner := rpt, cmdOwner := cmd }
  | .regInit bytes => { im with regInit := im.regInit ++ regInitRecords (bytes.length / 16) bytes }
  | .note => im
  | .unknown => im

/-- Owners of ports that a troupe map names. -/
def portOwners (bs : List SectionBody) : List (Nat × Nat) :=
  (bs.findSome? fun b => match b with | .troupe _ ports _ _ _ _ _ _ _ => some ports | _ => none).getD []

/-- Buffer quotas that a BUFFER section gives. -/
def bufferQuotas (bs : List SectionBody) : List (Nat × Nat) :=
  (bs.findSome? fun b => match b with | .buffer _ q => some q | _ => none).getD []

/-- Ingress programs run under the parser graph of their pipe (R191). -/
def withParsers (im : Image) : Image :=
  { im with programs := im.programs.map fun e =>
      if e.1 / 64 < 16 then (e.1, { e.2 with parser := (tabFind im.parsers (e.1 / 64)).getD [] }) else e }

/-- The full image of a memory mode that bodies build. -/
def buildFull (memMode : Nat) (bs : List SectionBody) : Image :=
  let im : Image := bs.foldl addBody { memMode := memMode }
  let im : Image := { im with ports := im.ports.map fun p => { p with troupe := tabGet 0 (portOwners bs) p.port } }
  let im : Image := { im with troupes := im.troupes.map fun t =>
    { t with quotaUnits := tabGet 0 (bufferQuotas bs) t.troupe, policerFirst := (policerRange im.policers t.troupe).1,
             policerCount := (policerRange im.policers t.troupe).2 } }
  withParsers im

/-- A queue of troupe n under an image. -/
def ownQueue (im : Image) (n q : Nat) : Bool := imageQueue im q n

/-- A body's part of a troupe image for n, in an image where n has what the full image gives it. -/
def addTroupeBody (n : Nat) (im : Image) : SectionBody → Image
  | .iprog ps _ _ _ =>
    { im with programs := swapOwned (fun e => e.1 % 64 == n && decide (e.1 / 64 < 16)) im.programs ps }
  | .eprog ps =>
    { im with programs := swapOwned (fun e => e.1 % 64 == n && decide (16 ≤ e.1 / 64)) im.programs ps }
  | .tableCarve ts => { im with tables := swapOwned (fun e => e.2.troupe == n) im.tables ts }
  | .buffer _ quotas =>
    { im with troupes := im.troupes.map fun t =>
        if t.troupe = n then { t with quotaUnits := tabGet t.quotaUnits quotas n } else t }
  | .queue tiers shapers =>
    { im with cgTier := tiers.foldl (fun t e => tabPut t e.1 e.2) im.cgTier,
              qshaperQueue := swapOwned (fun e => ownQueue im n e.2) im.qshaperQueue shapers }
  | _ => im

/-- A troupe image carries a POLICER_BIND section. -/
def bindsPolicers (bs : List SectionBody) : Bool := bs.any fun b => match b with | .policerBind _ => true | _ => false

/-- The image that a troupe image for n puts in force: what an earlier one held for n has gone (R104), what its sections do
not carry is as the full image has it, and its POLICER_BIND sections together bind n's policers (R70). -/
def buildTroupe (cur full : Image) (n : Nat) (bs : List SectionBody) : Image :=
  let im : Image := bs.foldl (addTroupeBody n) (withTroupe cur full n)
  let im : Image :=
    if bindsPolicers bs then { im with policers := swapOwned (fun e => e.2.2 == n) im.policers (policerEntries bs) } else im
  let im : Image := { im with troupes := im.troupes.map fun t =>
    if t.troupe = n then
      { t with policerFirst := (policerRange im.policers n).1, policerCount := (policerRange im.policers n).2 } else t }
  withParsers im

/-- What an image change of a troupe makes of the image in force (R102, R104, R517). -/
def ImageChange.apply (cur full : Image) : ImageChange → Image
  | .load n bodies => buildTroupe cur full n bodies
  | .restore n => withTroupe cur full n

end Sys2Proof.Machine
end

