-- ==== Sys2Proof/Machine/Shows.lean ====
section
/-!
DEFINITION. What registers show of the image in force, and the clearing of registers.
-/

namespace Sys2Proof.Machine

/-! ## Clearing registers -/

/-- One instance of a register takes its reset value in force, but for the fields kept. -/
def State.clearReg (s : State) (r : Reg) (i : Nat) (keep : List Fld) : State :=
  keep.foldl (fun t f => t.set f i (s.get f i)) { s with regs := rfPut s.regs r i (regReset r i) }

/-- The instances `base` to `base + n - 1` of a register take their reset values. -/
def State.clearSpan (s : State) (r : Reg) (base n : Nat) : State :=
  (List.range n).foldl (fun s i => s.clearReg r (base + i) []) s

/-- Registers of blocks take their reset values, in force and staged, but for the fields kept. -/
def State.clearBlocks (s : State) (rs : List Reg) (keep : List Fld) : State :=
  let hit := fun (e : Nat × Word) => rs.any fun r => r.ctorIdx == e.1 % 1024
  let t := { s with regs := s.regs.filter fun e => !hit e, staging := s.staging.filter fun e => !hit e }
  keep.foldl (fun t f =>
    (s.regs.filter fun e => e.1 % 1024 == f.reg.ctorIdx).foldl (fun t e => t.set f (e.1 / 1024) (s.get f (e.1 / 1024))) t) t

/-! ## What registers show of an image -/

/-- Sets a field at each of the instances of a list. -/
def State.setEach (s : State) {α : Type} (f : Fld) (l : List α) (at_ v : α → Nat) : State :=
  l.foldl (fun s e => s.set f (at_ e) (v e)) s

/-- What PORT, LANE, PIPE, TBL and POL show of an image. -/
def State.showPlans (s : State) (im : Image) : State :=
  let s := s.clearBlocks [.PORT_INFO] []
  let s := s.setEach LANE.CFG.MODE (List.range 512) id fun _ => 0
  let s := s.setEach PORT.INFO.RATE im.ports (·.port) (·.rate)
  let s := s.setEach PORT.INFO.LANE_MODE im.ports (·.port) (·.mode)
  let s := s.setEach PORT.INFO.LANES im.ports (·.port) (·.lanes)
  let s := s.setEach PORT.INFO.TROUPE im.ports (·.port) (·.troupe)
  let s := im.ports.foldl (fun s p => s.setEach LANE.CFG.MODE (List.range p.lanes) (p.port + ·) fun _ => p.mode) s
  let s := (s.set PIPE.PROG_INFO.PREG_COUNT 0 im.pregCount).set PIPE.PROG_INFO.PROG_ID 0 im.progId
  let s := s.setEach PIPE.MIRROR_CFG.TROUPE im.mirrorOwner (·.1) (·.2)
  let exact := (im.tables.filter fun e => e.2.kind == 1).length
  let s := (s.set TBL.INFO.TABLES 0 im.tables.length).set TBL.INFO.EXACT_TABLES 0 exact
  let s := s.set TBL.INFO.SRAM_TILES 0 (im.tables.map (·.2.tiles)).sum
  let s := s.set TBL.INFO.TERN_TILES 0 (im.tables.map (·.2.ternTiles)).sum
  let s := s.setEach TBL.TABLE_INFO.KIND im.tables (·.1) (·.2.kind)
  let s := s.setEach TBL.TABLE_INFO.WIDTH im.tables (·.1) (·.2.width)
  let s := s.setEach TBL.TABLE_INFO.TWIN_CARVED im.tables (·.1) (b2n ·.2.twin)
  let s := s.setEach TBL.TABLE_INFO.KEY_BYTES im.tables (·.1) (·.2.keyBytes)
  let s := s.setEach TBL.TABLE_INFO.TROUPE im.tables (·.1) (·.2.troupe)
  let s := s.setEach TBL.TABLE_INFO.POSITIONS im.tables (·.1) (·.2.positions)
  let s := s.setEach TBL.TABLE_INFO.RESULT_TABLE im.tables (·.1) (·.2.resultTable)
  let s := s.setEach TBL.CMD_CTRL.TROUPE im.cmdOwner (·.1) (·.2)
  let s := s.set POL.INFO.BOUND 0 im.policers.length
  let s := s.setEach POL.BIND.PIPE_MASK im.policers (·.1) (·.2.1)
  s.setEach POL.BIND.TROUPE im.policers (·.1) (·.2.2)

/-- The seeds that an image gives its tables' twins. -/
def State.showSeeds (s : State) (tables : List (Nat × TablePlan)) : State :=
  [0, 1].foldl (fun s w =>
    let s := s.setEach TBL.TABLE_SEED.SEED0 tables (fun e => 2 * e.1 + w) fun e => e.2.seeds.getD (2 * w) 0
    s.setEach TBL.TABLE_SEED.SEED1 tables (fun e => 2 * e.1 + w) fun e => e.2.seeds.getD (2 * w + 1) 0) s

/-- What CELL, QM, MC and HBM show of an image. -/
def State.showStores (s : State) (im : Image) : State :=
  let s := (s.set CELL.INFO.BODY_STEPS 0 im.bodySteps).set CELL.INFO.BODY_CELLS 0 (s.poolCells 0)
  let s := s.set CELL.INFO.TAIL_CELLS 0 (s.poolCells 1)
  let s := s.setEach CELL.TROUPE_QUOTA.QUOTA_UNITS im.troupes (·.troupe) (·.quotaUnits)
  let s := (s.set QM.INFO.QUEUES 0 (2048 * im.ports.length)).set QM.INFO.QSHAPERS 0 im.qshaperQueue.length
  let s := s.setEach QM.CG_CFG.TIER im.cgTier (·.1) (·.2)
  let s := s.setEach QM.QSHAPER_STATE.BOUND im.qshaperQueue (·.1) fun _ => 1
  let s := s.setEach QM.QSHAPER_STATE.QUEUE im.qshaperQueue (·.1) (·.2)
  let s := (s.set MC.INFO.GROUPS 0 im.mcOwner.length).set MC.INFO.MEMBERS 0 (im.troupes.map (·.memberCount)).sum
  let s := s.setEach MC.TROUPE_RANGE.FIRST im.troupes (·.troupe) (·.memberFirst)
  let s := s.setEach MC.TROUPE_RANGE.COUNT im.troupes (·.troupe) (·.memberCount)
  let s := s.setEach MC.GROUP.TROUPE im.mcOwner (·.1) (·.2)
  let mask := fun (ks : List Nat) => ks.foldl (fun v k => natSetBit v k true) 0
  let s := (s.set HBM.INFO.SPILL_STACKS 0 (mask s.spillStacks)).set HBM.INFO.LEDGER_STACKS 0 (mask s.ledgerStacks)
  let s := s.setEach HBM.TROUPE_SPILL.QUOTA_BLOCKS im.hbm.spillQuota (·.1) (·.2)
  let s := s.setEach HBM.TROUPE_SPILL.MD_UNITS im.hbm.mdUnits (·.1) (·.2)
  (s.set HBM.CAPTURE_CFG.TROUPE 0 im.hbm.captureTroupe).set HBM.CAPTURE_CFG.SIZE_GB 0 im.hbm.captureGb

/-- What registers show of troupe n's tables, policers and queue shapers under an image that another replaces is
cleared. -/
def State.unshow (s : State) (im : Image) (n : Nat) : State :=
  let s := (im.tables.filter fun e => e.2.troupe == n).foldl (fun s e => s.clearReg .TBL_TABLE_INFO e.1 []) s
  let s := (im.policers.filter fun e => e.2.2 == n).foldl (fun s e => s.clearReg .POL_BIND e.1 []) s
  (im.qshaperQueue.filter fun e => s.queueTroupe e.2 == some n).foldl (fun s e =>
    (s.set QM.QSHAPER_STATE.BOUND e.1 0).set QM.QSHAPER_STATE.QUEUE e.1 0) s

end Sys2Proof.Machine
end

