-- ==== Sys2Proof/Machine/Commits.lean ====
section
/-!
DEFINITION. Commits: staging copies, the pending set, the checks, the fence and the drain (R79 to R89), and the end of
a troupe image's apply at the fence of its closing commit (R102, R103).
-/

namespace Sys2Proof.Machine

/-! ## Scopes (R82) -/

/-- The registers that hold RWS fields. -/
def rwsRegs : List Reg :=
  [ .PORT_PFC_CFG, .PORT_DSCP_MAP, .PIPE_ADAPT_CFG, .PIPE_HASH_SEED, .PIPE_IP_CTRL, .PIPE_MIRROR_CFG, .TBL_TABLE_CTRL,
    .QM_ADM_PROFILE_A, .QM_ADM_PROFILE_B, .QM_Q_PROFILE, .QM_PORT_ADM, .QM_TROUPE_ADM, .QM_PP_ADM, .QM_PORT_HOLD,
    .QM_CG_CFG, .QM_Q_WEIGHT, .TEL_KEY_FIELD, .TEL_TROUPE_FLOW, .TEL_EXPORT_CFG, .TEL_EXPORT_HDR, .HBM_SPILL_PROFILE,
    .PIPE_PROG_REG ]

/-- The register of a key that holds RWS fields. -/
def rwsOfKey (k : Nat) : Option Reg := rwsRegs.find? fun r => r.ctorIdx == k % 1024

/-- The bits of a register that its RWS fields cover. -/
def rwsMask (r : Reg) : Word :=
  r.fields.foldl (fun w f => if f.acc = .rws then withBits w f.lo f.width (2 ^ f.width - 1) else w) 0

/-- What a staged register belongs to: the package, a troupe, or a structure that the image did not build. -/
inductive Scope where
  | package
  | troupe (n : Nat)
  | unbuilt
deriving DecidableEq, Repr

/-- The troupe of a structure, if the image built it. -/
def Scope.of : Option Nat → Scope
  | some n => .troupe n
  | none => .unbuilt

/-- The scope that an instance of a staged register lies in under an image (R82). -/
def rwsScope (im : Image) : Reg → Nat → Scope
  | .PORT_PFC_CFG, i => .of (imagePort im i)
  | .PORT_DSCP_MAP, i => .of (imagePort im (i / 4))
  | .QM_PORT_HOLD, i => .of (imagePort im i)
  | .QM_PORT_ADM, i => .of (imagePort im i)
  | .QM_PP_ADM, i => .of (imagePort im (i / 8))
  | .QM_CG_CFG, i => .of (imagePort im (i / 16))
  | .QM_Q_PROFILE, i => .of (imagePort im (queuePort i))
  | .QM_Q_WEIGHT, i => .of (imagePort im (queuePort (2 * i)))
  | .TBL_TABLE_CTRL, i => .of ((tabFind im.tables i).map (·.troupe))
  | .PIPE_MIRROR_CFG, i => .of (tabFind im.mirrorOwner i)
  | .PIPE_PROG_REG, i => if i < im.pregCount then .of (some (tabGet 0 im.pregOwner i)) else .unbuilt
  | .QM_TROUPE_ADM, i => .of (imageTroupe im i)
  | .TEL_TROUPE_FLOW, i => .of (imageTroupe im i)
  | .TEL_EXPORT_CFG, i => .of (imageTroupe im i)
  | .TEL_EXPORT_HDR, i => .of (imageTroupe im (i / 8))
  | _, _ => .package

/-- A register of the pending set is in the scope of a commit. A paired program register is never staged (R98, R220). -/
def State.inScope (s : State) (im : Image) (c : CommitRec) (r : Reg) (i : Nat) : Bool :=
  if r = .PIPE_PROG_REG && (tabFind im.pregPartner i).isSome then false
  else match rwsScope im r i with
    | .package => c.scope.isNone
    | .unbuilt => c.scope.isNone
    | .troupe n => match c.scope with
      | none => s.troupeExists n
      | some m => n == m

/-- The instances of staged registers in the scope of a commit that a file lists. -/
def State.scopeKeys (s : State) (im : Image) (c : CommitRec) (rf : RegFile) : List (Reg × Nat) :=
  rf.filterMap fun e => match rwsOfKey e.1 with
    | some r => if s.inScope im c r (e.1 / 1024) then some (r, e.1 / 1024) else none
    | none => none

/-- The image under which a commit is made: the one in force, with the change that its fence brings (R102). -/
def State.commitImage (s : State) (c : CommitRec) : Image :=
  match c.change with
  | none => s.image
  | some g => g.apply s.image (s.cf.full.getD {})

/-- A staged word of the pending set, with the fields that are not staged as they are in force. -/
def State.mergeStaged (s : State) (c : CommitRec) (r : Reg) (i : Nat) : Word :=
  let mask := rwsMask r
  (rfGet s.regs r i &&& ~~~mask) ||| (rfGet c.pendingSet r i &&& mask)

/-- COMMIT_DEFER_WINDOWED: a class group that would become Windowed while the TIME bit is 0 takes Store-and-forward
(R84). -/
def State.becomesWindowed (s : State) (c : CommitRec) (i : Nat) : Bool :=
  rfFld c.pendingSet QM.CG_CFG.FWD_MODE i == 2 && s.get QM.CG_CFG.FWD_MODE i != 2

/-- The registers in force once the commit's pending set has taken effect. -/
def State.committed (s : State) (c : CommitRec) : RegFile :=
  let im := s.commitImage c
  (s.scopeKeys im c (c.pendingSet ++ s.regs)).foldl (fun rf e =>
    let w := s.mergeStaged c e.1 e.2
    let w := if e.1 = .QM_CG_CFG && !s.ready rdyTime && s.becomesWindowed c e.2
      then withBits w QM.CG_CFG.FWD_MODE.lo QM.CG_CFG.FWD_MODE.width 1 else w
    rfPut rf e.1 e.2 w) s.regs

/-! ## The checks (R83) -/

/-- A class group in scope would become Windowed. -/
def State.windowsWanted (s : State) (c : CommitRec) : Bool :=
  (s.scopeKeys (s.commitImage c) c c.pendingSet).any fun e => e.1 == .QM_CG_CFG && s.becomesWindowed c e.2

/-- A staged value names what the image did not build, or exceeds what it built (R83, R335, R440). A mirror session that is
wholly at its reset value names nothing, though its DEST_QUEUE reads 0 (DESIGN CHOICE, log entry 82). -/
def outOfRange (im : Image) (c : CommitRec) (r : Reg) (i : Nat) : Bool :=
  let g := fun f => rfFld c.pendingSet f i
  match rwsScope im r i, r with
  | .unbuilt, _ => rfGet c.pendingSet r i != regReset r i
  | .troupe n, .PIPE_MIRROR_CFG => (rfGet c.pendingSet r i != regReset r i) &&
      !imageQueue im (g PIPE.MIRROR_CFG.DEST_QUEUE) n
  | .troupe n, .TEL_EXPORT_CFG => g TEL.EXPORT_CFG.DEST == 1 && !imageQueue im (g TEL.EXPORT_CFG.QUEUE) n
  | .package, .TEL_KEY_FIELD => g TEL.KEY_FIELD.LEN != 0 && decide (48 < g TEL.KEY_FIELD.OFF + g TEL.KEY_FIELD.LEN)
  | .troupe _, .TBL_TABLE_CTRL => g TBL.TABLE_CTRL.ACTIVE_TWIN == 1 && !((tabFind im.tables i).any (·.twin))
  | _, _ => false

/-- The reservations a commit would leave under the floor of the shared region (R288). -/
def State.floorFails (s : State) (c : CommitRec) : Bool :=
  let im := s.commitImage c
  let rf := s.committed c
  (minReserved rf im != minReserved s.regs s.image || headroomReserved rf im != headroomReserved s.regs s.image) &&
    decide (sharedUnitsOf rf im < sharedFloor)

/-- The first check that fails, by its cause; the closing commit of an apply is never refused (R85). -/
def State.commitCause (s : State) (c : CommitRec) : Option Nat :=
  match c.by_ with
  | .imageApply => none
  | .troupeApply _ => none
  | _ =>
    if s.windowsWanted c && !s.ready rdyTime && !c.defer then some 1
    else if (s.scopeKeys s.image c c.pendingSet).any (fun e => outOfRange s.image c e.1 e.2) || s.floorFails c then some 2
    else if c.scope.any fun n => !s.troupeExists n then some 3
    else if !s.ready rdyImage then some 4
    else if s.fullApply then some 5
    else none

/-! ## Requests and ends -/

/-- A commit is refused with a cause (R83). -/
def State.refuseCommit (s : State) (c : CommitRec) (cause : Nat) : State :=
  let s := s.setCommit c CFG.COMMIT_STATUS.STATE csRefused
  let s := s.setCommit c CFG.COMMIT_STATUS.CAUSE cause
  let s := s.setCommit c CFG.COMMIT_STATUS.REFUSED_SEEN 1
  s.raiseCommit c CFG.INT_CAUSE.COMMIT_REFUSED WIN.INT_CAUSE.COMMIT_REFUSED

/-- A commit is in CHECK or FENCE, or one waits in WAIT_DRAIN (R83). -/
def State.commitBusy (s : State) : Bool := s.cf.commits.any fun c => c.phase != .draining

/-- Opens a commit with the staging copies of this instant, or refuses it BUSY (R82, R83). -/
def State.openCommit (s : State) (by_ : CommitBy) (scope : Option Nat) (defer : Bool) : State :=
  let c : CommitRec := { by_ := by_, scope := scope, defer := defer, phase := .check, pendingSet := s.staging }
  let s := s.setCommit c CFG.COMMIT_STATUS.SCOPE (b2n scope.isSome)
  let s := s.setCommit c CFG.COMMIT_STATUS.TROUPE (scope.getD (c.fn.map (fun n => s.get CFG.COMMIT_STATUS.TROUPE n) |>.getD 0))
  let s := s.setCommit c CFG.COMMIT_STATUS.DEFERRED 0
  if s.fullApply then s.refuseCommit c 5
  else if s.commitBusy then s.refuseCommit c 6
  else
    let s := s.setCommit c CFG.COMMIT_STATUS.CAUSE 0
    let s := s.setCommit c CFG.COMMIT_STATUS.STATE csCheck
    { s with cf := { s.cf with commits := s.cf.commits ++ [c] } }

/-- COMMIT: a write of CFG.COMMIT. Without GO it does nothing. -/
def execCommit (value : Word) (s : State) : Answer :=
  if !s.hostReach 0 true then .next s else
  if bitsOf value 0 1 = 0 then .next s
  else .next (s.openCommit .cfg (if bitsOf value 1 1 = 1 then some (bitsOf value 8 6) else none) (bitsOf value 2 1 == 1))

/-- WIN_COMMIT: a write of a window's WIN.COMMIT (R520). -/
def execWinCommit (fn : FnNo) (value : Word) (s : State) : Answer :=
  if !s.hostReach fn.val true then .next s else
  if bitsOf value 0 1 = 0 || fn.val = 0 then .next s
  else .next (s.openCommit (.window fn.val) (some fn.val) (bitsOf value 1 1 == 1))

/-! ## The end of a troupe image's apply -/

/-- Tables of a troupe whose carving an image changes. -/
def recarved (old new : Image) (n : Nat) : List Nat :=
  ((old.tables ++ new.tables).filter fun e => e.2.troupe == n && tabFind old.tables e.1 != tabFind new.tables e.1).map (·.1)

/-- At the fence of its closing commit a troupe image is in force: the tables that it carves anew are empty and not ready
(R102), the troupe is ready again, and the load is DONE (R103). The spec places these last two after the closing commit and
names no instant; they come with its fence here (DESIGN CHOICE, log entry 81). -/
def State.takeTroupeImage (s : State) (n : Nat) (im : Image) : State :=
  let tables := recarved s.image im n
  let s := s.unshow s.image n
  let s := tables.foldl (fun s t => s.emptyTable t) { s with cf := { s.cf with image := some im } }
  let s := ((s.showPlans im).showSeeds (im.tables.filter fun e => tables.contains e.1)).showStores im
  let plan := im.troupes.find? fun t => t.troupe == n
  let s := (s.set WIN.RES0.POL_FIRST n ((plan.map (·.policerFirst)).getD 0)).set WIN.RES0.POL_COUNT n
    ((plan.map (·.policerCount)).getD 0)
  let s := tables.foldl (fun s t => s.set TBL.STATUS.READY t 0) s
  let s := s.setTroupeReady n true
  match s.cf.load with
  | none => s
  | some l =>
    if l.kind = 1 && l.troupe = n && s.get CFG.LOAD_STATUS.STATE 0 = loadApply then
      (((s.set CFG.TROUPE_SERIAL.SERIAL n l.serial).measureTroupe n (some l.digest)).imageRecord l).loadDone
    else s

/-! ## The fence (R86) -/

/-- Ports and what is shown of them follow the registers in force. -/
def State.refreshCommitted (s : State) : State :=
  let s := s.refreshReserved.refreshPauses
  let s := s.image.ports.foldl (fun s p => (s.refreshCgs p.port).gateChange p.port) s
  s.image.tables.foldl (fun s e => s.refreshTable e.1) s

/-- The fence of a commit: a pipe that has no wavefront ready, no whole head at its entries, switches at once (R86). The epoch bits of its troupes toggle, the old packet-scoped configuration is kept for the
packets that hold the old bit, and the pending set is in force (R81, R86 to R88). -/
def State.fence (s : State) (c : CommitRec) : State :=
  let ts := s.scopeTroupes c
  let deferred := s.windowsWanted c && !s.ready rdyTime
  let old := ts.foldl (fun o n => tabPut o n { regs := s.regs, programs := s.image.programs }) s.cf.old
  let bits := ts.foldl (fun v n => natSetBit v n (!natBit v n)) (s.get CFG.EPOCH.BITS 0)
  let s := { s with regs := s.committed c, cf := { s.cf with old := old, fenceFirst := none, fenceFn := c.fn } }
  let s := s.set CFG.EPOCH.BITS 0 bits
  let s := s.setCommit c CFG.COMMIT_STATUS.STATE csFence
  let s := s.setCommit c CFG.COMMIT_STATUS.DEFERRED (b2n deferred)
  let s := (List.range 16).foldl (fun s p => s.modPipe p fun v => { v with fencePending := true }) s
  let s := match c.change, c.by_ with
    | some g, .troupeApply n => s.takeTroupeImage n (g.apply s.image (s.cf.full.getD {}))
    | _, _ => s
  let s := (List.range 16).foldl (fun s p =>
    if (s.readyHeads p 8).isEmpty && (s.pipe p).aux.isEmpty then s.epochSwitch p else s) s
  s.fenceDone.refreshCommitted.refreshDrain

/-- The first commit that may go to its fence, and those before and after it: one in CHECK, or one in WAIT_DRAIN whose
troupes have drained, while no other is in FENCE (R85, R89). -/
def State.nextFence (s : State) : Option CommitRec :=
  if s.cf.commits.any fun c => c.phase == .fence then none
  else s.cf.commits.find? fun c =>
    c.phase == .check || (c.phase == .waitDrain && (c.forced || !(s.scopeTroupes c).any s.draining))

/-- Replaces a commit by what becomes of it. -/
def State.replaceCommit (s : State) (c : CommitRec) (c' : Option CommitRec) : State :=
  { s with cf := { s.cf with commits := s.cf.commits.flatMap fun d => if d = c then c'.toList else [d] } }

/-- A commit goes on: it waits for a drain, is refused, or takes its fence. -/
def State.passCommit (s : State) (c : CommitRec) : State :=
  if !c.forced && (s.scopeTroupes c).any s.draining then
    let limit := max 1 (s.get CFG.DRAIN_CFG.LIMIT_US 0) * usTicks
    (s.replaceCommit c (some { c with phase := .waitDrain, waitUntil := s.now + limit })).setCommit c
      CFG.COMMIT_STATUS.STATE csWait
  else match s.commitCause c with
    | some cause => (s.replaceCommit c none).refuseCommit c cause
    | none =>
      (s.replaceCommit c (some { c with phase := .fence, troupes := s.scopeTroupes c })).fence c

/-- COMMIT_FENCE: the next commit in CHECK, or one that has waited for its drain, is checked and takes its fence
(R83 to R86, R89). -/
def execCommitFence (s : State) : Answer :=
  match s.nextFence with
  | none => .next s
  | some c => .next (s.passCommit c)

/-- Tables of troupe n that were carved anew are ready once their carving is in place, when no packet needs the old one any
more: at the end of the closing commit's drain (R102; log entry 81). -/
def State.carvingDone (s : State) (n : Nat) : State :=
  if (List.range 4).all fun d => s.ready (rdyRim d) then
    (s.image.tables.filter fun e => e.2.troupe == n).foldl (fun s e => s.set TBL.STATUS.READY e.1 1) s
  else s

/-- COMMIT_DRAIN_END: no packet of the old epoch bit of a commit's troupes remains, and the commit is DONE (R88). -/
def execCommitDrainEnd (s : State) : Answer :=
  let s := s.refreshDrain
  match s.cf.commits.find? fun c => c.phase == .draining && !c.troupes.any s.draining with
  | none => .next s
  | some c =>
    let s := s.replaceCommit c none
    let s := match c.by_ with
      | .troupeApply n => s.carvingDone n
      | _ => s
    let s := s.setCommit c CFG.COMMIT_STATUS.STATE csDone
    let s := s.setCommit c CFG.COMMIT_STATUS.DONE_SEEN 1
    .next (s.raiseCommit c CFG.INT_CAUSE.COMMIT_DONE WIN.INT_CAUSE.COMMIT_DONE)

/-! ## The drain limit (R89) -/

/-- Marks the frames of a troupe that hold its old epoch bit stale. -/
def State.markStale (s : State) (n : Nat) : State :=
  let old := (s.sw.packets.filter fun e => s.oldPacket n e.2).map (·.1)
  let packets := s.sw.packets.map fun e => if old.contains e.1 then (e.1, { e.2 with stale := true }) else e
  let queues := s.sw.queues.map fun e => (e.1, e.2.map fun q => match q with
    | .copy k c inProgress st => .copy k c inProgress (st || (s.desc k).any fun d => old.contains d.packet)
    | .run fs => .run fs)
  let spilled := s.sw.spilled.map fun e => if s.oldPacket n e.2.packet then (e.1, { e.2 with stale := true }) else e
  { s with sw := { s.sw with packets := packets, queues := queues, spilled := spilled } }

/-- DRAIN_LIMIT_EXPIRY: a commit that has waited LIMIT_US goes on with the stale frames marked, or is refused with cause
DRAINING (R89). The closing commit of an apply always goes on (R85). -/
def execDrainLimitExpiry (s : State) : Answer :=
  match s.cf.commits.find? fun c => c.phase == .waitDrain && !c.forced && decide (c.waitUntil ≤ s.now) with
  | none => .next s
  | some c =>
    let ts := (s.scopeTroupes c).filter s.draining
    if ts.isEmpty then .next s
    else if s.flag CFG.DRAIN_CFG.STALE_DROP_EN 0 || c.fn.isNone then
      let s := ts.foldl State.markStale s
      let s := s.setCommit c CFG.COMMIT_STATUS.STALE_SEEN 1
      let s := s.raise CFG.INT_CAUSE.STALE_DROP
      let c' := { c with forced := true }
      let s := s.replaceCommit c (some c')
      if s.cf.commits.any fun c => c.phase == .fence then .next s else .next (s.passCommit c')
    else .next ((s.replaceCommit c none).refuseCommit c 7)

end Sys2Proof.Machine
end

