-- ==== Sys2Proof/Machine/Transmit.lean ====
section
/-!
DEFINITION. The egress MAC (chapters 1, 4, 11 and 12): the start and end of a frame, underruns, the PTP and in-situ
OAM actions made from the egress stamp.
-/

namespace Sys2Proof.Machine

/-! ## Lengths and stamps -/

/-- The bytes of a flight as its egress pipe wrote them, so far as they have been received. -/
def State.flightBytes (s : State) (f : Flight) : List Byte :=
  match s.packet f.packet with
  | none => f.head
  | some v => f.head ++ (if v.whole then v.body else v.body.take (v.arrived - 256))

/-- A flight's whole frame is in the part. -/
def State.flightWhole (s : State) (f : Flight) : Bool := ((s.packet f.packet).map (·.whole)).getD true

/-- The bytes that a copy carries before its FCS: truncated by its session, and padded to 60 (R211, R216). -/
def sentBytes (f : Flight) (all : List Byte) : List Byte :=
  let body := all.take (all.length - 4)
  let body := if f.copy.trunc = 0 then body else body.take f.copy.trunc
  body ++ List.replicate (60 - body.length) 0

/-- The egress stamp of a frame that starts now, `phase` eighths of a nanosecond after the tick, in units of 2^-16 ns:
the fixed 70 ns of the egress side and TX_CORR_PS are added (R158, R159). -/
def State.txStamp (s : State) (x phase : Nat) : Int :=
  stampRound ((s.netTime + (phase : Int) * (2 ^ 52 + s.tim.rate) / 4) / 2 ^ 37 +
    s.get PORT.TS_INFO.TX_FIXED_PS x * 65536 / 1000 + psStamp (s.get PORT.TS_CFG.TX_CORR_PS x))

/-- The residence time of a frame in units of 2^-16 ns, from its two raw values at the rate in force (R390). -/
def State.residence (s : State) (v : Packet) (f : Flight) : Int :=
  let raw : Int := (f.raw : Int) - v.raw
  let fixed := (s.get PORT.TS_INFO.TX_FIXED_PS f.port + (if v.port < 512 then s.get PORT.TS_INFO.RX_FIXED_PS v.port else 0) : Nat)
  let corr := psStamp (s.get PORT.TS_CFG.TX_CORR_PS f.port) -
    (if v.port < 512 then psStamp (s.get PORT.TS_CFG.RX_CORR_PS v.port) else 0)
  raw * 8192 * (2 ^ 52 + s.tim.rate) / 2 ^ 52 + (fixed : Int) * 65536 / 1000 + corr

/-! ## Changing bytes of a frame -/

/-- The IPv6 UDP checksum corrected for every 16-bit word from the UDP header on that differs (R392). -/
def fixUdp (old new : List Byte) (udp : Nat) : List Byte :=
  let words := (List.range ((new.length - udp + 1) / 2)).filter fun j => j != 3
  let sum := words.foldl (fun c j =>
    let a := be16 old (udp + 2 * j)
    let b := be16 new (udp + 2 * j)
    if a = b then c else fixSum c a b) (be16 old (udp + 6))
  putBytes new (udp + 6) (beBytes (if sum = 0 then 65535 else sum) 2)

/-- The UDP checksum after a change of a frame: 1 zeroed, 2 corrected (R392). -/
def udpAfter (kind udp : Nat) (old new : List Byte) : List Byte :=
  match kind with
  | 1 => putBytes new (udp + 6) [0, 0]
  | 2 => fixUdp old new udp
  | _ => new

/-- A number of 64 bits of a frame in transmission order, signed. -/
def beInt64 (bs : List Byte) (off : Nat) : Int := signedOf 64 (ofBe ((bs.drop off).take 8))

/-- correctionField with an amount added, held at its largest value (R390). -/
def addCorrection (bs : List Byte) (ptp : Nat) (amount : Int) : List Byte :=
  putBytes bs (ptp + 8) (beBytes (ofSigned 64 (min (2 ^ 63 - 1) (beInt64 bs (ptp + 8) + amount))) 8)

/-! ## The PTP actions (R387 to R393) -/

/-- TIME_ACT of the metadata (R388). -/
def Meta.timeAct (m : Meta) : Nat := m.telCtrl % 2 ^ 32

/-- ACT of TIME_ACT, 3 treated as 0. -/
def Meta.timeKind (m : Meta) : Nat := if m.timeAct % 4 = 3 then 0 else m.timeAct % 4

/-- The conditions of R389 for an action. -/
def ptpAllowed (m : Meta) (bs : List Byte) (injected : Bool) : Bool :=
  let act := m.timeKind
  let off := m.timeAct / 256 % 256
  let udp := m.timeAct / 65536 % 256
  let l4 := m.timeAct / 8 % 4
  let ends := off + (if act = 1 then 16 else 44)
  let kind := byteAt bs off % 16
  decide (ends ≤ 256) && decide (ends ≤ bs.length - 4) && decide (kind ≤ 3) && byteAt bs (off + 1) % 16 == 2 &&
    (act != 2 || (kind == 0 && injected)) && (!(l4 == 1 || l4 == 2) || decide (udp + 8 ≤ off))

/-- The time action of a frame that starts (R388 to R393): PTP_CORRECT or PTP_ONE_STEP_SYNC. -/
def State.ptpAction (s : State) (v : Packet) (f : Flight) : State × List Byte :=
  let m := f.md
  let bs := f.head
  let off := m.timeAct / 256 % 256
  let udp := m.timeAct / 65536 % 256
  let l4 := m.timeAct / 8 % 4
  if m.timeKind = 0 then (s, bs)
  else if !ptpAllowed m bs v.injected then (s.addSat TIME.PTP_STATS.SKIPPED 0 1, bs)
  else if m.timeKind = 1 then
    let kind := byteAt bs off % 16
    if (kind == 0 || kind == 3) && byteAt bs (off + 6) / 2 % 2 == 1 then (s.addSat TIME.PTP_STATS.TWO_STEP 0 1, bs)
    else
      let peer : Int := if m.timeAct / 4 % 2 = 1 && v.port < 512 then s.get TIME.PTP_PEER.DELAY v.port else 0
      let new := addCorrection bs off (s.residence v f + peer)
      (s.addSat TIME.PTP_STATS.CORRECTED 0 1, udpAfter l4 udp bs new)
  else
    let sec := f.stamp / 65536 / 10 ^ 9
    let ns := f.stamp / 65536 % 10 ^ 9
    let new := putBytes bs (off + 34) (beBytes (sec % 2 ^ 48).toNat 6 ++ beBytes ns.toNat 4)
    let new := addCorrection new off (f.stamp % 65536)
    (s.addSat TIME.PTP_STATS.CORRECTED 0 1, udpAfter l4 udp bs new)

/-! ## In-situ OAM (R431 to R436) -/

/-- Lengths of the node data fields of trace-type bits 0 to 11 (R433). -/
def ioamLens : List Nat := [4, 4, 4, 4, 4, 4, 4, 4, 8, 8, 8, 4]

/-- Bit i of a trace type, bit 0 the most significant of 24. -/
def traceBit (t i : Nat) : Bool := natBit t (23 - i)

/-- The length of the node data that R433 gives for a trace type. -/
def nodeDataLen (t : Nat) : Nat :=
  ((List.range 12).map fun i => if traceBit t i then (ioamLens[i]?).getD 0 else 0).sum

/-- The node data of a trace type (R433). -/
def State.nodeData (s : State) (v : Packet) (f : Flight) (t : Nat) : List Byte :=
  let hop := f.md.telAct / 2 ^ 24 % 256
  let res := s.residence v f / 65536
  let ones := fun n => List.replicate n (255 : Byte)
  let field := fun i => match i with
    | 0 => beBytes (hop * 2 ^ 24 + s.get TEL.IOAM_CFG.NODE_ID 0) 4
    | 1 => beBytes v.port 2 ++ beBytes f.port 2
    | 2 => beBytes (v.stamp / 65536 / 10 ^ 9 % 2 ^ 32).toNat 4
    | 3 => beBytes (v.stamp / 65536 % 10 ^ 9).toNat 4
    | 4 => beBytes ((res % 2 ^ 31).toNat + (if 2 ^ 31 ≤ res then 2 ^ 31 else 0)) 4
    | 5 => beBytes (s.get TEL.IOAM_CFG.NS_DATA 0) 4
    | 6 => beBytes (min (f.copy.depth / 64) (2 ^ 32 - 1)) 4
    | 8 => beBytes (hop * 2 ^ 56 + s.get TEL.IOAM_CFG2.NODE_ID_WIDE 0) 8
    | 9 => beBytes v.port 4 ++ beBytes f.port 4
    | 10 => beBytes (s.get TEL.IOAM_CFG3.NS_DATA_WIDE 0) 8
    | _ => ones 4
  (List.range 12).flatMap fun i => if traceBit t i then field i else []

/-- An action that is skipped (R432, R434). -/
def State.ioamSkip (s : State) : State := (s.addSat TEL.IOAM_STATS.SKIPPED 0 1).raise TEL.INT_CAUSE.IOAM_SKIP

/-- The trace type is one that the MAC fills: none of bits 12 to 22 is set (R434). -/
def traceAllowed (t : Nat) : Bool := (List.range 11).all fun i => !traceBit t (12 + i)

/-- IOAM_TRACE: node data is written at its place, or Overflow is set (R434, R435). -/
def State.ioamTrace (s : State) (v : Packet) (f : Flight) (bs : List Byte) : State × List Byte :=
  let act := f.md.telAct / 2 % 4
  let off := f.md.telAct / 256 % 256
  let word := be16 bs (off + 2)
  let nodeLen := word / 2048
  let left := word % 128
  let t := ofBe ((bs.drop (off + 4)).take 3)
  let at_ := off + 8 + (if act = 1 then 4 * (left - nodeLen) else 0)
  let room := min 256 (bs.length - 4)
  let udp := f.md.telAct / 65536 % 256
  let kind := f.md.telAct / 8 % 4
  if room < off + 8 || !traceAllowed t || nodeLen * 4 != nodeDataLen t then (s.ioamSkip, bs)
  else if left < nodeLen then
    let new := putBytes bs (off + 2) (beBytes (if natBit word 10 then word else word + 1024) 2)
    (s.addSat TEL.IOAM_STATS.OVERFLOWED 0 1, udpAfter kind udp bs new)
  else if room < at_ + nodeLen * 4 then (s.ioamSkip, bs)
  else
    let new := putBytes (putBytes bs at_ (s.nodeData v f t)) (off + 2) (beBytes (word - nodeLen) 2)
    (s.addSat TEL.IOAM_STATS.WRITTEN 0 1, udpAfter kind udp bs new)

/-- IOAM_DEX: the frame is sent unchanged and a DEX record is made for export (R436, R438, R441). A Flow ID or
Sequence Number that the option does not carry is open in its record. -/
def State.ioamDex (s : State) (v : Packet) (f : Flight) (bs : List Byte) : State :=
  let off := f.md.telAct / 256 % 256
  let ext := byteAt bs (off + 3)
  let t := ofBe ((bs.drop (off + 4)).take 3)
  let hasFlow := natBit ext 7
  let hasSeq := natBit ext 6
  let flowAt := off + 8
  let seqAt := flowAt + (if hasFlow then 4 else 0)
  let ends := seqAt + (if hasSeq then 4 else 0)
  if min 256 (bs.length - 4) < ends || !traceAllowed t then s.ioamSkip
  else if !s.sampleBudget v.troupe 256 then s
  else
    let s := s.spendSample v.troupe 256
    let (open1, s) := s.draw
    let (open2, s) := s.draw
    let flow := if hasFlow then ofBe ((bs.drop flowAt).take 4) else open1
    let seq := if hasSeq then ofBe ((bs.drop seqAt).take 4) else open2
    let bytes := s.ieTime f.stamp ++ beBytes v.port 4 ++ beBytes f.port 4 ++ beBytes flow 4 ++ beBytes seq 4 ++
      beBytes t 4 ++ varBytes (s.nodeData v f t) ++ telFlags false (!s.ready rdyTime)
    (s.addSat TEL.IOAM_STATS.WRITTEN 0 1).exportRecord v.troupe 258 bytes

/-- The in-situ OAM action of a frame that starts; a time action goes before it (R432). -/
def State.ioamAction (s : State) (v : Packet) (f : Flight) (bs : List Byte) : State × List Byte :=
  let act := f.md.telAct / 2 % 4
  if act = 0 then (s, bs)
  else if f.md.timeKind != 0 then (s.ioamSkip, bs)
  else if act = 3 then (s.ioamDex v f bs, bs)
  else s.ioamTrace v f bs

/-! ## The start of a frame (R51, R148, R154, R399) -/

/-- The egress elastic FIFO holds enough of a frame (R51). -/
def State.enoughHeld (s : State) (f : Flight) (held : Nat) : Bool :=
  let all := (s.flightBytes f).length
  let held := min held all
  if s.flightWhole f then decide (all ≤ held) || (f.inProgress && decide (1024 ≤ held))
  else f.inProgress && decide (1024 ≤ held)

/-- The window of a windowed frame lets it start at an instant of network time (R399). -/
def State.macWindow (s : State) (x : Nat) (f : Flight) (t : Int) : Bool :=
  !f.windowed ||
    (s.flightWhole f &&
      (let d := s.wireTime x ((sentBytes f (s.flightBytes f)).length + 4)
       s.openOver x (queueGroup f.queue) t (t + d) (gateFuel d)))

/-- TX_FRAME_START: the MAC of a port starts the frame at the front of its egress elastic FIFO, which holds `held` bytes
of it, `phase` eighths of a nanosecond after the tick (R51, R148, R158, R399). A PFC frame that is ready goes first (R153,
R163). -/
def execTxFrameStart (port : PortNo) (held : Nat) (phase : Fin 4) (s : State) : Answer :=
  let x := port.val
  match (s.port x).efifo with
  | [] => .next s
  | k :: _ =>
    match s.flight k with
    | none => .next s
    | some f =>
      if !s.portUp x || (s.port x).sending.isSome || s.portIdle x || s.pfcReady x || f.started then .next s
      else match s.packet f.packet with
        | none => .next s
        | some v =>
          if f.inProgress && v.bad.isSome then .next ((s.addSat CELL.CT_COUNT.CT_BAD 0 1).endFlight k)
          else
            let stamp := s.txStamp x phase
            let instant : Int := stamp * 2 ^ 37
            if !s.enoughHeld f held || s.cgPaused (queueCg f.queue) || !s.macWindow x f instant then .next s
            else
              let f := { f with started := true, stamp := stamp, raw := 4 * s.now + phase.val }
              let (s, bs) := s.ptpAction v f
              let (s, bs) := s.ioamAction v f bs
              let s := s.putFlight k { f with head := bs }
              let s := s.modPort x fun p => { p with sending := some k, lastTx := s.now }
              let byteTime : Int := (8 * 1000 * 2 ^ 53 : Nat) / (max 1 (rateMbps (s.rateCode x)) : Nat)
              .next (if f.windowed && decide (f.predicted + byteTime < instant) then
                s.addSat QM.WIN_STATUS.MAC_HELD x 1 else s)

/-! ## The end of a frame (R145, R149, R217, R323, R413) -/

/-- The energy events of a frame's bytes on their way out: read from the cells, across a link, through the MAC (R497). -/
def State.spendSent (s : State) (x n : Nat) : State :=
  let t := some (s.portTroupe x)
  let s := s.spend 7 4 t none none (words64 n)
  let s := s.spend 5 (pipeDie (portPipe x)) t none none (words64 n)
  s.spend 10 (pipeDie (portPipe x)) t (some x) none (words64 n)

/-- A frame that ends with a stomped FCS over the bytes sent (R149). -/
def State.endStomped (s : State) (x k : Nat) (bytes : List Byte) (underrun : Bool) : State :=
  let s := s.spendSent x bytes.length
  let s := s.sendFrame x (bytes ++ stompedFcs bytes)
  let s := s.portCount x cntTxStomped 1
  let s := if underrun then s.portCount x cntTxUnderrun 1 else s
  let s := s.modPort x fun p => { p with lastTx := s.now }
  s.endFlight k

/-- A frame that ends whole with a fresh FCS (R145): its counters and the latency of its copy (R413). -/
def State.endGood (s : State) (x k : Nat) (f : Flight) : State :=
  let bytes := sentBytes f (s.flightBytes f)
  let s := s.spendSent x (bytes.length + 4)
  let s := s.sendFrame x (bytes ++ fcsOf bytes)
  let s := (s.portCount x cntTxFrames 1).portCount x cntTxBytes (bytes.length + 4)
  let s := match s.packet f.packet with
    | none => s
    | some v => s.histAdd (queueCg f.queue) 0 ((s.residence v f / 65536).toNat >>> s.get TEL.HIST_CFG.LAT_SHIFT 0)
  let s := s.modPort x fun p => { p with lastTx := s.now }
  s.endFlight k

/-- A frame that cuts through with a length not known in its egress pipe has reached MAX_FRAME (R217). -/
def State.overMtu (s : State) (x : Nat) (f : Flight) : Bool :=
  f.inProgress && !f.md.lenValid && decide (s.maxFrame x < (s.flightBytes f).length)

/-- The bytes of a stomped frame that the MAC holds up to the point of failure, without an FCS that they end with (R149,
R314, R333): those before an unreadable link word, those stored before a cell was refused, those received before the link was
lost, or all. -/
def State.stompedBytes (s : State) (f : Flight) (bad : Option Nat) : List Byte :=
  let all := s.flightBytes f
  match f.cut, bad with
  | some c, _ => all.take (min c (all.length - 4))
  | none, some r =>
    if r = dropPool || r = dropQuota then all.take (((s.packet f.packet).map (·.stored)).getD 0)
    else if r = dropTruncated then all
    else all.take (all.length - 4)
  | none, none => all.take (all.length - 4)

/-- TX_FRAME_END: the MAC of a port ends the frame it sends: with a fresh FCS where it is whole and good, stomped where
it turned out bad, or cut at MAX_FRAME (R145, R149, R217, R314, R333). `idles` blocks of idles follow beside the one
that always does. -/
def execTxFrameEnd (port : PortNo) (idles : Fin 64) (s : State) : Answer :=
  let x := port.val
  match (s.port x).sending with
  | none => .next s
  | some k =>
    match s.flight k with
    | none => .next s
    | some f =>
      let bad := (s.packet f.packet).bind (·.bad)
      if s.overMtu x f then
        let s := match s.desc f.desc with
          | some d => s.countCopyDrop d f.queue dropMtu
          | none => s
        let s := s.addSat PIPE.EP_EXC.MTU_DROPS (portPipe x) 1
        .next ((s.endStomped x k ((s.flightBytes f).take (s.maxFrame x - 4)) false).sendIdles x idles)
      else if f.stomp then
        .next ((s.endStomped x k (s.stompedBytes f bad) (bad == some dropPool || bad == some dropQuota)).sendIdles x idles)
      else if s.flightWhole f then .next ((s.endGood x k f).sendIdles x idles)
      else .next s

/-- TX_UNDERRUN: the egress elastic FIFO of a port runs empty after `sent` bytes, before the end of the frame it sends
(R51, R53, R149, R314). -/
def execTxUnderrun (port : PortNo) (sent : Nat) (s : State) : Answer :=
  let x := port.val
  match (s.port x).sending with
  | none => .next s
  | some k =>
    match s.flight k with
    | none => .next s
    | some f =>
      if f.inProgress then .next (s.endStomped x k ((s.flightBytes f).take sent) true) else .next s

end Sys2Proof.Machine
end

