-- ==== Sys2Proof/Machine/Cpu.lean ====
section
/-!
DEFINITION. The CPU port: the enabling and the doorbells of rings, delivery to receive rings, injection from transmit
rings, and the functions' interrupts (chapter 15, R521 to R541).
-/

namespace Sys2Proof.Machine

/-! ## Rings (R521, R522, R527) -/

/-- Rings of a kind. -/
def ringTotal : RingKind → Nat
  | .rx => 512 | .tx => 512 | .tlm => 64 | .rpt => 32

/-- A function reaches a ring: the physical function every one, a virtual function those of its troupe (R518). -/
def State.ringReach (s : State) (fn : Nat) (k : RingKind) (r : Nat) : Bool :=
  decide (r < ringTotal k) && (fn == 0 || s.ringOwner k r == fn)

/-- WAIT_US of a kind of ring. -/
def ringWaitUs : RingKind → Fld
  | .rx => HIF.RX_CFG.WAIT_US | .tx => HIF.TX_CFG.WAIT_US | .tlm => HIF.TLM_CFG.WAIT_US | .rpt => HIF.RPT_CFG.WAIT_US

/-- Bytes of the buffers of pool k of a receive ring. -/
def State.bufSize (s : State) (r k : Nat) : Nat :=
  64 * clampN 1 256 (s.get (match k with
    | 0 => HIF.RX_BUF_SIZE.UNITS_0 | 1 => HIF.RX_BUF_SIZE.UNITS_1 | 2 => HIF.RX_BUF_SIZE.UNITS_2
    | _ => HIF.RX_BUF_SIZE.UNITS_3) r)

/-- The enabled pools of a receive ring, smallest number first. -/
def State.poolsOn (s : State) (r : Nat) : List Nat := (List.range 4).filter fun k => s.flag HIF.RX_POOL.EN (4 * r + k)

/-- A list of numbers that rises strictly. -/
def risingNats : List Nat → Bool
  | a :: b :: t => decide (a < b) && risingNats (b :: t)
  | _ => true

/-- The sizes of a receive ring's enabled pools rise strictly with their numbers (R527). -/
def State.poolsRise (s : State) (r : Nat) : Bool := risingNats ((s.poolsOn r).map (s.bufSize r))

/-- A write of a ring's configuration register: EN from 0 to 1 sets both counts to 0 (R522); a receive ring whose pools
do not rise is not enabled, and the write is ignored (R527). PROFILE is read only through a window. -/
def State.writeRingCfg (s : State) (fn : Nat) (k : RingKind) (r : Nat) (value : Word) : State :=
  let g := ringRegs k
  let en := bitsOf value 0 1
  if k = .rx && en = 1 && !s.poolsRise r then s.ringError .rx r 3
  else
    let s := if en = 1 && !s.flag g.en r then (s.set g.prod r 0).set g.cons r 0 else s
    let s := ((s.set g.en r en).set g.vector r (bitsOf value 1 11)).set g.coalN r (bitsOf value 24 8)
    let s := (s.set g.coalUs r (bitsOf value 32 16)).set (ringWaitUs k) r (bitsOf value 48 16)
    if k = .rx && fn = 0 then s.set HIF.RX_CFG.PROFILE r (bitsOf value 16 8) else s

/-- RING_ENABLE: a write of a ring's configuration register by a function. -/
def execRingEnable (fn : FnNo) (kind : RingKind) (ring : Fin 512) (value : Word) (s : State) : Answer :=
  if !s.hostReach fn.val true then .next s else
  .next (if s.ringReach fn.val kind ring.val then s.writeRingCfg fn.val kind ring.val value else s)

/-- A count moves forward by no more than it may. -/
def countMoves (old new room : Nat) : Bool := decide ((new + 2 ^ 32 - old) % 2 ^ 32 ≤ room)

/-- A host write of a ring's count: of its producer for a transmit ring, else of its consumer (R521). -/
def State.ringBell (s : State) (k : RingKind) (r count : Nat) : State :=
  let g := ringRegs k
  let fill := s.ringFill k r
  let (f, room) := if k = .tx then (g.prod, s.ringSize k r - fill) else (g.cons, fill)
  if countMoves (s.get f r) count room then s.set f r count else s.ringError k r 1

/-- Entries of a buffer pool. -/
def State.poolEntries (s : State) (r k : Nat) : Nat := 2 ^ clampN 6 16 (s.get HIF.RX_POOL.SIZE_LOG2 (4 * r + k))

/-- Buffers that the host has posted in a pool and the device has not taken. -/
def State.poolAvail (s : State) (r k : Nat) : Nat :=
  (s.get HIF.RX_POOL_IDX.TAIL (4 * r + k) + 2 ^ 32 - s.get HIF.RX_POOL_IDX.HEAD (4 * r + k)) % 2 ^ 32

/-- A host write of a pool's TAIL. -/
def State.poolBell (s : State) (r k count : Nat) : State :=
  let i := 4 * r + k
  if countMoves (s.get HIF.RX_POOL_IDX.TAIL i) count (s.poolEntries r k - s.poolAvail r k) then
    s.set HIF.RX_POOL_IDX.TAIL i count
  else s.ringError .rx r 1

/-- RING_DOORBELL: a host write of a ring's count, or of the TAIL of one of a receive ring's pools. -/
def execRingDoorbell (fn : FnNo) (kind : RingKind) (ring : Fin 512) (pool : Option (Fin 4)) (count : BitVec 32)
    (s : State) : Answer :=
  if !s.hostReach fn.val true then .next s else
  if !s.ringReach fn.val kind ring.val then .next s
  else match kind, pool with
    | .rx, some k => .next (s.poolBell ring.val k.val count.toNat)
    | k, _ => .next (s.ringBell k ring.val count.toNat)

/-- INTERRUPT_COALESCE: COAL_US after the first unsignalled entry the ring's vector is sent (R524). -/
def execInterruptCoalesce (kind : RingKind) (ring : Fin 512) (s : State) : Answer :=
  match tabFind s.hif.coal (kind.code * 1024 + ring.val) with
  | none => .next s
  | some (_, since) =>
    .next (if since + s.get (ringRegs kind).coalUs ring.val * usTicks ≤ s.now then s.ringSignal kind ring.val else s)

/-! ## Receiving (R525 to R530) -/

/-- The queue of a receive ring on the hub. -/
def rxQueue (r : Nat) : Nat := 2 ^ 20 + r

/-- The placement of a frame of d bytes in a ring's pools: the pool and how many of its buffers (R527). -/
def State.placement (s : State) (r d : Nat) : Option (Nat × Nat) :=
  let have_ := (s.poolsOn r).filter fun k => decide (0 < s.poolAvail r k)
  match have_.find? fun k => decide (d ≤ s.bufSize r k) with
  | some k => some (k, 1)
  | none =>
    match have_.getLast? with
    | none => none
    | some k =>
      let n := (d + s.bufSize r k - 1) / s.bufSize r k
      if n ≤ 16 && n ≤ s.poolAvail r k then some (k, n) else none

/-- The head frame of a receive ring's queue: its descriptor and copy. -/
def State.rxHead (s : State) (r : Nat) : Option (Nat × Copy) :=
  match s.queue (rxQueue r) with
  | .copy d c _ _ :: _ => some (d, c)
  | _ => none

/-- The frame that a ring can be given now: its descriptor, its copy, the pool and the number of buffers (R528). -/
def State.rxReady (s : State) (r : Nat) : Option (Nat × Copy × Nat × Nat) :=
  match s.rxHead r with
  | none => none
  | some (k, c) =>
    match s.desc k with
    | none => none
    | some d =>
      if !s.ringOn .rx r then none
      else match s.placement r (d.len - 4) with
        | none => none
        | some (p, n) => if s.ringSize .rx r - s.ringFill .rx r < n then none else some (k, c, p, n)

/-- Rings in rotation after the one served last. -/
def rotated (last : Nat) (rs : List Nat) : List Nat := (rs.filter fun r => decide (last < r)) ++ rs.filter fun r => decide (r ≤ last)

/-- Receive rings whose queue holds a frame. -/
def State.rxWaiting (s : State) : List Nat :=
  ((s.sw.queues.filter fun e => decide (2 ^ 20 ≤ e.1) && !e.2.isEmpty).map (·.1 - 2 ^ 20))

/-- The metadata bytes 508 to 511 (R530, R531). -/
def Meta.user (m : Meta) : List Byte := (List.range 4).map fun i => BitVec.ofNat 8 (tabGet 0 m.prog (380 + i))

/-- A completion entry (R530). -/
def completion (v : Packet) (d : Desc) (pool len : Nat) (first last : Bool) (buf : BitVec 32) : List Byte :=
  leBytes len 2 ++ leBytes (b2n first + 2 * b2n last + 4 * pool + 16 * b2n v.unlocked) 1 ++ leBytes (d.prio % 8) 1 ++
    leBytes buf.toNat 4 ++ leBytes v.port 2 ++ [0, 0] ++ v.md.user ++ timeBytes v.stamp v.unlocked

/-- Writes a frame's bytes into buffers, each followed by its completion entry and the writeback (R529). -/
def State.rxWrite (s : State) (r pool size : Nat) (v : Packet) (d : Desc) :
    List PoolEntry → List Byte → Bool → State
  | [], _, _ => s
  | e :: es, bytes, first =>
    let part := bytes.take size
    let s := s.emit (.dma (e.addr.toNat / 64 * 64) part)
    let s := s.ringPut .rx r 32 (completion v d pool part.length first es.isEmpty e.bufId)
    s.rxWrite r pool size v d es (bytes.drop size) false

/-- The head frame of a receive ring's queue leaves it. -/
def State.rxLeave (s : State) (r k : Nat) (c : Copy) : State :=
  let s := { s with hif := { s.hif with rxWait := tabPut s.hif.rxWait r s.now } }
  (s.dropHead (rxQueue r)).copyDone k c true

/-- The frame at the head of a receive ring's queue is marked stale (R89). -/
def State.rxStale (s : State) (r : Nat) : Bool :=
  match s.queue (rxQueue r) with
  | .copy _ _ _ st :: _ => st
  | _ => false

/-- Stale frames at the heads of receive rings' queues are dropped with EPOCH_STALE as they are dequeued (R89). -/
def State.rxDropStale (s : State) : State :=
  s.rxWaiting.foldl (fun s r => match s.rxStale r, s.rxHead r with
    | true, some (k, c) =>
      let s := match s.desc k with
        | some d => s.countCopyDrop d c.queue dropStale
        | none => s
      s.rxLeave r k c
    | _, _ => s) s

/-- RX_DELIVER: the next ring in rotation whose head frame can be delivered. `entries` are the pool entries read, and
`dmaError` says that a read or write of host memory failed, which leaves the frame and disables the ring (R522, R529).
Stale frames at the heads are dropped first. -/
def execRxDeliver (entries : List PoolEntry) (dmaError : Bool) (s : State) : Answer :=
  let s := s.rxDropStale
  match (rotated s.hif.lastRx s.rxWaiting).findSome? fun r => (s.rxReady r).map fun x => (r, x) with
  | none => .next s
  | some (r, k, c, p, n) =>
    let s := { s with hif := { s.hif with lastRx := r } }
    if dmaError then .next (s.ringError .rx r 2)
    else match s.desc k with
      | none => .next s
      | some d =>
        match s.packet d.packet with
        | none => .next s
        | some v =>
          let es := (entries ++ List.replicate n (PoolEntry.mk 0 0)).take n
          let s := s.set HIF.RX_POOL_IDX.HEAD (4 * r + p) (s.get HIF.RX_POOL_IDX.HEAD (4 * r + p) + n)
          let s := s.rxWrite r p (s.bufSize r p) v d es ((v.head ++ v.body).take (d.len - 4)) true
          let s := s.spend 7 4 (some d.troupe) none none (words64 d.len)
          .next ((s.delayFate k c).rxLeave r k c)

/-- RX_WAIT_EXPIRY: a frame that has waited WAIT_US at the head of a receive queue is dropped (R528). -/
def execRxWaitExpiry (ring : Fin 512) (s : State) : Answer :=
  let r := ring.val
  match s.rxHead r with
  | none => .next s
  | some (k, c) =>
    let since := max c.enqAt (tabGet 0 s.hif.rxWait r)
    if (s.rxReady r).isSome || s.now < since + s.get HIF.RX_CFG.WAIT_US r * usTicks then .next s
    else
      let s := match s.desc k with
        | some d => s.countCopyDrop d c.queue dropRing
        | none => s
      .next ((s.addSat HIF.RX_STATUS.COUNT r 1).rxLeave r k c)

/-- Every frame of a receive queue is removed under a reason (R515, R528). -/
def State.flushRx (s : State) (r reason : Nat) : State :=
  let es := s.queue (rxQueue r)
  let s := s.setQueue (rxQueue r) []
  es.foldl (fun s e => match e with
    | .copy k c _ _ =>
      let s := match s.desc k with
        | some d => s.countCopyDrop d c.queue reason
        | none => s
      s.copyDone k c true
    | .run _ => s) s

/-! ## Transmitting (R531 to R535) -/

/-- Transmit rings with descriptors that the device may take. -/
def State.txWaiting (s : State) : List Nat :=
  (List.range 512).filter fun r => s.ringOn .tx r && decide (0 < s.ringFill .tx r)

/-- The descriptors of one frame: the first alone, or for CELLS all up to the first without MORE. -/
def txChain : List TxDesc → List TxDesc
  | [] => []
  | d :: ds => if d.kind.val = 2 && d.more then d :: txChain ds else [d]

/-- The chain has its last descriptor. -/
def txEnded (ch : List TxDesc) : Bool := ch.getLast?.all fun d => !(d.kind.val = 2 && d.more)

/-- The valid cells of a chain, in order. -/
def txCells (ch : List TxDesc) : List Nat := ch.flatMap fun d => (d.cells.filter (·.2)).map (·.1.val)

/-- The pool that R308 gives a segment. -/
def segmentPool (n : Nat) : Nat := if 64 < n then 0 else 1

/-- BAD_DESC: the kinds, LEN, the chain's length, and the cells of a CELLS frame. -/
def txBad (ch : List TxDesc) : Bool :=
  match ch with
  | [] => true
  | d :: ds =>
    match d.kind.val with
    | 0 => !(decide (60 ≤ d.len.val) && decide (d.len.val ≤ 16348))
    | 1 => !(decide (1 ≤ d.len.val) && decide (d.len.val ≤ 256)) ||
        (match d.cells.head? with
         | some c => decide (poolBytes (cellPool c.1.val) < d.len.val)
         | none => true)
    | 2 => !(decide (60 ≤ d.len.val) && decide (d.len.val ≤ 16348)) || decide (22 < ch.length) ||
        ds.any (fun e => e.kind.val ≠ 2) ||
        (txCells ch).map cellPool ≠ (segmentLens (d.len.val + 4)).map segmentPool
    | _ => true

/-- Cells that a descriptor uses: CELL0 of FILL, the chain's of CELLS. -/
def txNamed (ch : List TxDesc) : List Nat :=
  match ch with
  | d :: _ => if d.kind.val = 1 then (d.cells.take 1).map (·.1.val) else if d.kind.val = 2 then txCells ch else []
  | [] => []

/-- A list names something twice. -/
def dupFree : List Nat → Bool
  | [] => true
  | a :: t => !t.contains a && dupFree t

/-- The first named cell that is not leased by troupe n; a cell named twice is handed over by its first naming. -/
def State.foreignCell (s : State) (n : Nat) (cs : List Nat) : Option Nat :=
  match cs.find? fun a => tabFind s.sw.cells a != some (ownerTag n 1) with
  | some a => some a
  | none => if dupFree cs then none else cs.head?

/-- The status of the first check of R534 that a chain fails before any cell is taken, 0 where it passes. -/
def State.txStatus (s : State) (n : Nat) (ch : List TxDesc) (data : Option (List Byte)) : Nat :=
  let reads := ch.head?.any fun d => d.kind.val = 0 || d.kind.val = 1
  if !s.troupeReady n || !s.ready rdyCell then 6
  else if txBad ch then 4
  else if reads && data.isNone then 5
  else if (s.foreignCell n (txNamed ch)).isSome then 3
  else 0

/-- The DONE words of a chain, the consumer's count and its writeback; one entry for each descriptor. A refused chain
counts in TX_STATUS.COUNT (R534). -/
def State.txDone (s : State) (r status : Nat) (ch : List TxDesc) : State :=
  let g := ringRegs .tx
  let c := s.get g.cons r
  let s := (List.range ch.length).foldl (fun s i =>
    s.emit (.dma (s.get g.base r * 4096 + (c + i) % s.ringSize .tx r * 32 + 0x1C) (leBytes (status + 2 ^ 31) 4))) s
  let s := s.set g.cons r (c + ch.length)
  let s := if status = 0 then s else s.addSat HIF.TX_STATUS.COUNT r ch.length
  let s := (s.ringWriteback .tx r)
  (List.range ch.length).foldl (fun s _ => s.ringCount .tx r) s

/-- An accepted frame of S bytes in cells enters the auxiliary entry of its pipe (R213, R531). -/
def State.injectFrame (s : State) (r n : Nat) (user : BitVec 32) (bytes : List Byte) (cells : List Nat) : State :=
  let p := s.get HIF.TX_CFG.PIPE r
  let k := s.sw.nextPacket
  let prog := (List.range 4).foldl (fun t i => tabPut t (380 + i) (user.toNat / 256 ^ i % 256)) []
  let v : Packet :=
    { port := 0x200, pipe := p, troupe := n, epoch := natBit (s.get CFG.EPOCH.BITS 0) n, injected := true,
      head := bytes.take 256, body := bytes.drop 256,
      len := bytes.length, arrived := bytes.length, whole := true, stamp := s.netStamp, raw := 4 * s.now,
      unlocked := !s.ready rdyTime, md := { lenValid := true, prog := prog }, cells := cells }
  let s := { s with sw := { s.sw with nextPacket := k + 1 } }
  if auxCapacity < (s.pipe p).auxBytes + v.auxSize then
    let s := (s.countExc p dropAuxFull).countDropOf 0x200 n dropAuxFull none v.head
    s.freeInjected v
  else (s.auxPut p k v).modPacket k fun v => { v with md := { v.md with passes := 0 } }

/-- COPY: the bytes go into cells of the lease engine and are injected (R533). -/
def State.txCopy (s : State) (r n : Nat) (d : TxDesc) (data : List Byte) : Nat × State :=
  let bytes := padTo (d.len.val + 4) (data.take d.len.val)
  match s.injectCells n (segmentLens bytes.length) [] with
  | (none, status, s) => (status, s)
  | (some cells, _, s) =>
    let s := (s.layBytes cells bytes).spend 6 4 (some n) none none (words64 bytes.length)
    (0, s.injectFrame r n d.user bytes cells)

/-- FILL: the bytes go to offset 0 of CELL0, which stays leased (R533). -/
def State.txFill (s : State) (n : Nat) (ch : List TxDesc) (data : List Byte) : State :=
  match ch.head?, txNamed ch with
  | some d, a :: _ =>
    let bytes := padTo d.len.val (data.take d.len.val)
    let s := { s with sw := { s.sw with mem := memWrite s.sw.mem (s.cellBase a) bytes } }
    s.spend 6 4 (some n) none none (words64 d.len.val)
  | _, _ => s

/-- CELLS: the cells change from leased to the frame's, and the frame is injected (R326, R533). -/
def State.txInject (s : State) (r n : Nat) (ch : List TxDesc) : State :=
  match ch.head? with
  | none => s
  | some d =>
    let cs := txCells ch
    let lens := segmentLens (d.len.val + 4)
    let bytes := (cs.zip lens).flatMap fun e => memRead s.sw.mem (s.cellBase e.1) e.2
    let s := { s with sw := { s.sw with cells := cs.foldl (fun t a => tabPut t a (ownerTag n 0)) s.sw.cells } }
    let s := s.set CELL.LEASE_STATUS.LEASED n (s.get CELL.LEASE_STATUS.LEASED n - cs.length)
    s.injectFrame r n d.user (padTo (d.len.val + 4) (bytes.take d.len.val)) cs

/-- A refused injection that names a cell of another is a FOREIGN fault of its troupe (R327, R329). -/
def State.txForeign (s : State) (n : Nat) (ch : List TxDesc) : State :=
  match s.foreignCell n (txNamed ch) with
  | some a => s.freeFault n 2 a ((tabFind s.sw.cells a).getD (tabGet 0 s.sw.oldTags a))
  | none => s

/-- What becomes of a transmit chain, by its status (R534): a good one does what its kind says. -/
def State.txRun (s : State) (r n : Nat) (d : TxDesc) (ch : List TxDesc) (data : List Byte) (status : Nat) : State :=
  if status = 0 then
    if d.kind.val = 0 then
      let (status, s) := s.txCopy r n d data
      s.txDone r status ch
    else if d.kind.val = 1 then (s.txFill n ch data).txDone r 0 ch
    else (s.txInject r n ch).txDone r 0 ch
  else if status = 5 then (s.txDone r 5 ch).ringError .tx r 2
  else if status = 3 then (if d.kind.val = 2 then s.txForeign n ch else s).txDone r 3 ch
  else s.txDone r status ch

/-- A ring's chain is taken where `mine` says that its first descriptor is of the command's kind. A CELLS chain whose last
descriptor is not posted yet waits; a ring that could not be read, or whose first descriptor could not, is in error
(R532, R533). -/
def State.txChainTake (s : State) (mine : Nat → Bool) (data : Option (List Byte)) (r : Nat) : List TxDesc → State
  | [] => { s with hif := { s.hif with lastTx := r } }.ringError .tx r 2
  | d :: ds =>
    if !mine d.kind.val || (!txEnded (d :: ds) && ds.length ≤ 21) then s
    else
      let s := { s with hif := { s.hif with lastTx := r } }
      s.txRun r (s.ringOwner .tx r) d (d :: ds) (data.getD []) (s.txStatus (s.ringOwner .tx r) (d :: ds) data)

/-- The transmit engine takes the chain at the front of the ring whose turn it is. `chain` are the ring's descriptors as
read, from its consumer on, empty where that read failed; `data` the bytes read from ADDR, none where that read
failed. -/
def State.txTake (s : State) (mine : Nat → Bool) (chain : List TxDesc) (data : Option (List Byte)) : State :=
  match (rotated s.hif.lastTx s.txWaiting).head? with
  | none => s
  | some r => s.txChainTake mine data r (txChain (chain.take (s.ringFill .tx r)))

/-- COPY: a transmit descriptor of KIND COPY, or of a KIND that does not exist, which is refused. -/
def execCopy (chain : List TxDesc) (data : Option (List Byte)) (s : State) : Answer :=
  .next (s.txTake (fun k => k ≠ 1 && k ≠ 2) chain data)

/-- FILL: a transmit descriptor of KIND FILL. -/
def execFill (chain : List TxDesc) (data : Option (List Byte)) (s : State) : Answer :=
  .next (s.txTake (fun k => k = 1) chain data)

/-- CELLS: a chain of transmit descriptors of KIND CELLS. -/
def execCells (chain : List TxDesc) (s : State) : Answer := .next (s.txTake (fun k => k = 2) chain none)

/-! ## Vectors (R538 to R540) -/

/-- The vectors of a function's division: the first, and one past the last. -/
def State.msixRange (s : State) (f : Nat) : Nat × Nat :=
  (s.get HIF.MSIX_ALLOC.BASE f, s.get HIF.MSIX_ALLOC.BASE f + max 1 (s.get HIF.MSIX_ALLOC.COUNT f))

/-- A division of function f that passes vector 2,047 or overlaps another's. -/
def State.msixBad (s : State) (f base count : Nat) : Bool :=
  decide (2048 < base + max 1 count) ||
    (List.range 64).any fun g => g != f &&
      decide (base < (s.msixRange g).2) && decide ((s.msixRange g).1 < base + max 1 count)

/-- MSIX_ALLOC_WRITE: a write of HIF.MSIX_ALLOC[f] by the physical function (R540). -/
def execMsixAllocWrite (f : FnNo) (value : Word) (s : State) : Answer :=
  if !s.hostReach 0 true then .next s else
  let f := f.val
  let base := bitsOf value 0 11
  let count := bitsOf value 12 12
  let s := if bitsOf value 24 1 = 1 then s.set HIF.MSIX_ALLOC.REJECTED f 0 else s
  if s.hif.vfEnable || s.msixBad f base count then
    .next ((s.set HIF.MSIX_ALLOC.REJECTED f 1).raise HIF.INT_CAUSE.MSIX_REJECT)
  else .next ((s.set HIF.MSIX_ALLOC.BASE f base).set HIF.MSIX_ALLOC.COUNT f count)

/-- INT_REARM: a write of a function's INT_REARM: vector 0 is sent again while causes are pending. -/
def execIntRearm (fn : FnNo) (value : Word) (s : State) : Answer :=
  if !s.hostReach fn.val true then .next s else
  let n := fn.val
  if bitsOf value 0 1 = 0 then .next s
  else
    let on := if n = 0 then (s.reg .TOP_INT_CAUSE 0 &&& s.get TOP.INT_MASK.MASK 0) != 0
      else (s.reg .WIN_INT_CAUSE n &&& s.reg .WIN_INT_EN n) != 0
    .next (if on then s.sendMsix n 0 else s)

end Sys2Proof.Machine
end

