-- ==== Sys2Proof/Machine/Pairs.lean ====
section
/-!
DEFINITION. Paired fields: the pending latches of each function, their completion and their discards (R90 to R100).
-/

namespace Sys2Proof.Machine

/-- A paired field: its register, instance, low bit and width. -/
structure PairField where
  reg : Reg
  idx : Nat
  lo : Nat
  width : Nat
deriving DecidableEq, Repr

/-- The partner of a paired field; a program register's is the one that the image names (R220). -/
def State.partner (s : State) (f : PairField) : Option PairField :=
  match f.reg with
  | .POL_CFG => some (if f.lo = 0 then { f with lo := 32, width := 24 } else { f with lo := 0, width := 32 })
  | .QM_PORT_SHAPER => some (if f.lo = 0 then { f with lo := 32, width := 24 } else { f with lo := 0, width := 32 })
  | .QM_CG_SHAPER => some (if f.lo = 0 then { f with lo := 32, width := 24 } else { f with lo := 0, width := 32 })
  | .QM_QSHAPER => some (if f.lo = 0 then { f with lo := 32, width := 24 } else { f with lo := 0, width := 32 })
  | .TIME_RATE => some ⟨.TIME_STEP_NS, 0, 0, 64⟩
  | .TIME_STEP_NS => some ⟨.TIME_RATE, 0, 0, 48⟩
  | .PIPE_PROG_REG => (tabFind s.image.pregPartner f.idx).map fun j => ⟨.PIPE_PROG_REG, j, 0, 64⟩
  | _ => none

/-- The field of a latch. -/
def PairLatch.isOn (l : PairLatch) (f : PairField) : Bool := l.reg == f.reg.ctorIdx && l.idx == f.idx && l.lo == f.lo

/-- Shows the latches that a function has in use. -/
def State.showPending (s : State) (fn : Nat) : State :=
  s.set CFG.PAIR_STATUS.PENDING fn (s.cf.latches.filter fun l => l.fn == fn).length

/-- Replaces the latches. -/
def State.setLatches (s : State) (ls : List PairLatch) : State := { s with cf := { s.cf with latches := ls } }

/-- Causes of a discard. -/
def pairTimeout : Nat := 1
def pairFull : Nat := 2
def pairForeign : Nat := 3
def pairReload : Nat := 4

/-- A paired write of a function is discarded with a cause (R100). -/
def State.pairDiscard (s : State) (fn cause offset lo written : Nat) : State :=
  let s := s.addSat CFG.PAIR_STATUS.DISCARDS fn 1
  let s := s.set CFG.PAIR_STATUS.LAST_CAUSE fn cause
  let s := s.set CFG.PAIR_STATUS.DISCARD_SEEN fn 1
  let s := s.set CFG.PAIR_DISCARD.OFFSET fn offset
  let s := s.set CFG.PAIR_DISCARD.LSB fn lo
  let s := s.set CFG.PAIR_DISCARD_VALUE.VALUE fn written
  if fn = 0 then s.raise CFG.INT_CAUSE.PAIR_DISCARD else s.raiseWin WIN.INT_CAUSE.PAIR_DISCARD fn

/-- A pending latch is discarded with a cause. -/
def State.dropLatch (s : State) (l : PairLatch) (cause : Nat) : State :=
  ((s.setLatches (s.cf.latches.erase l)).showPending l.fn).pairDiscard l.fn cause l.offset l.lo l.written

/-- The shaper of a shaper register. -/
def shaperOf : Reg → Nat → Option Nat
  | .QM_PORT_SHAPER, i => some (portShaper i)
  | .QM_CG_SHAPER, i => some (cgShaper i)
  | .QM_QSHAPER, i => some (queueShaper i)
  | _, _ => none

/-- A completed pair waits for the next wavefront launch of its pace domain (R91). -/
def State.pairDue (s : State) (d : PairDue) : State := { s with cf := { s.cf with due := s.cf.due ++ [d] } }

/-- Both new values of a pair take effect together (R91): those of a self-timed block, policers and program registers, at
the next wavefront launch of the pace domain that uses them (R220, R286), a shaper at its next refill (R349), network time
in one cycle (R377). -/
def State.pairTake (s : State) (f g : PairField) (v w : Nat) : State :=
  match f.reg with
  | .TIME_RATE => s.timePair (signedOf 48 v) (signedOf 64 w)
  | .TIME_STEP_NS => s.timePair (signedOf 48 w) (signedOf 64 v)
  | .POL_CFG => s.pairDue (if f.lo = 0 then .policer f.idx v w else .policer f.idx w v)
  | .PIPE_PROG_REG => s.pairDue (.program f.idx g.idx v w)
  | r =>
    let s := s.set ⟨f.reg, f.lo, f.width, .rwp⟩ f.idx v
    let s := s.set ⟨g.reg, g.lo, g.width, .rwp⟩ g.idx w
    match shaperOf r f.idx with
    | some k => s.pairRefill k
    | none => s

/-- PAIRED_WRITE: a function writes one field of a pair. Another function's latch on the pair makes it FOREIGN; its own
is replaced or completed; with none it opens a latch, or is FULL (R90, R91, R94, R96, R97). -/
def State.pairWrite (s : State) (fn : Nat) (f : PairField) (v written offset : Nat) : State :=
  match s.partner f with
  | none => s
  | some g =>
    match s.cf.latches.find? fun l => l.isOn f || l.isOn g with
    | some l =>
      if l.fn != fn then s.pairDiscard fn pairForeign offset f.lo written
      else if l.isOn f then
        s.setLatches (s.cf.latches.map fun m => if m = l then { l with value := v, written := written } else m)
      else ((s.setLatches (s.cf.latches.erase l)).showPending fn).pairTake f g v l.value
    | none =>
      if 4 ≤ (s.cf.latches.filter fun l => l.fn == fn).length then s.pairDiscard fn pairFull offset f.lo written
      else
        let l : PairLatch := { fn := fn, reg := f.reg.ctorIdx, idx := f.idx, lo := f.lo, width := f.width, value := v,
                               written := written, offset := offset, at_ := s.now }
        (s.setLatches (s.cf.latches ++ [l])).showPending fn

/-- PAIR_TIMEOUT: pending latches whose partner was not written within 1 ms are discarded (R95). -/
def execPairTimeout (s : State) : Answer :=
  .next ((s.cf.latches.filter fun l => decide (l.at_ + msTicks ≤ s.now)).foldl (fun s l => s.dropLatch l pairTimeout) s)

end Sys2Proof.Machine
end

