-- ==== Sys2Proof/Machine/Troupes.lean ====
section
/-!
DEFINITION. Troupes: their removal and restore (R514 to R517); the resets of functions and of the host interface (R108,
R110, R509, R523, R630), and the PCI Express link (R505, R506).
-/

namespace Sys2Proof.Machine

/-! ## Rings of a troupe -/

/-- The registers of a ring take their reset values; which ring it is, and a transmit ring's pipe, come from the image
(R523). -/
def State.ringReset (s : State) (k : RingKind) (r : Nat) : State :=
  let s := { s with hif := { s.hif with coal := tabDel s.hif.coal (k.code * 1024 + r) } }
  match k with
  | .rx =>
    let s := ((s.clearReg .HIF_RX_CFG r []).clearReg .HIF_RX_CQ r []).clearReg .HIF_RX_CQ_WB r []
    let s := ((s.clearReg .HIF_RX_CQ_IDX r []).clearSpan .HIF_RX_POOL (4 * r) 4).clearSpan .HIF_RX_POOL_IDX (4 * r) 4
    (s.clearReg .HIF_RX_BUF_SIZE r []).clearReg .HIF_RX_STATUS r [HIF.RX_STATUS.RING, HIF.RX_STATUS.TROUPE]
  | .tx =>
    let s := ((s.clearReg .HIF_TX_CFG r [HIF.TX_CFG.PIPE]).clearReg .HIF_TX_RING r []).clearReg .HIF_TX_WB r []
    (s.clearReg .HIF_TX_IDX r []).clearReg .HIF_TX_STATUS r [HIF.TX_STATUS.RING, HIF.TX_STATUS.TROUPE]
  | .tlm =>
    let s := ((s.clearReg .HIF_TLM_CFG r []).clearReg .HIF_TLM_RING r []).clearReg .HIF_TLM_WB r []
    (s.clearReg .HIF_TLM_IDX r []).clearReg .HIF_TLM_STATUS r [HIF.TLM_STATUS.RING, HIF.TLM_STATUS.TROUPE]
  | .rpt =>
    let s := ((s.clearReg .HIF_RPT_CFG r []).clearReg .HIF_RPT_RING r []).clearReg .HIF_RPT_WB r []
    (s.clearReg .HIF_RPT_IDX r []).clearReg .HIF_RPT_STATUS r [HIF.RPT_STATUS.RING, HIF.RPT_STATUS.TROUPE]

/-- The rings of a troupe. -/
def State.ringsOf (s : State) (n : Nat) : List (RingKind × Nat) :=
  [RingKind.rx, .tx, .tlm, .rpt].flatMap fun k =>
    ((List.range (ringTotal k)).filter fun r => s.ringOwner k r == n).map fun r => (k, r)

/-! ## Removal (R514, R515) -/

/-- A keyed write of HIF.TROUPE_CTRL with GO: the operation and the troupe. -/
def troupeOp (value : Word) : Option (Nat × Nat) :=
  if bitsOf value 8 1 = 1 && bitsOf value 16 16 = 0x2048 then some (bitsOf value 6 2, bitsOf value 0 6) else none

/-- Troupe n is reserved by the full image in force. -/
def State.reserved (s : State) (n : Nat) : Bool := s.cf.full.any fun im => im.troupes.any fun t => t.troupe == n

/-- A troupe image for n is in APPLY. -/
def State.troupeApplying (s : State) (n : Nat) : Bool :=
  s.get CFG.LOAD_STATUS.STATE 0 == loadApply && s.cf.load.any fun l => l.kind == 1 && l.troupe == n

/-- Why a removal or restore of troupe n is refused: the first of the cases of R514 that holds, 0 where none does. -/
def State.troupeStatus (s : State) (remove : Bool) (n : Nat) : Nat :=
  if s.hif.moving.isSome || s.troupeApplying n then 1
  else if n = 0 then 2
  else if remove != s.troupeExists n then 3
  else if s.fullApply then 4
  else if !s.reserved n then 5
  else 0

/-- Commits scoped to troupe n that wait for a drain are refused with TROUPE_ABSENT (R515). -/
def State.refuseWaiting (s : State) (n : Nat) : State :=
  (s.cf.commits.filter fun c => c.scope == some n && c.phase == .waitDrain).foldl
    (fun s c => (s.replaceCommit c none).refuseCommit c 3) s

/-- A port goes down with its queues flushed at once, without a hold (R359, R515). -/
def State.removePort (s : State) (x : Nat) : State :=
  let s := (s.set PORT.CFG.ENABLE x 0).set PORT.STATUS.READY x 0
  let s := if s.qmState x == qmActive then (s.flushFlights x).startFlush x
    else if s.qmState x == qmHeld then s.startFlush x else s
  s.portDown x

/-- Steps 1 to 4 of a removal. -/
def State.removeTroupe (s : State) (n : Nat) : State :=
  let s := (s.setTroupeReady n false).setTroupeState n 2
  let s := s.refuseWaiting n
  let s := if s.loadOpen && s.cf.load.any (fun l => l.checked && l.kind == 1 && l.troupe == n)
    then s.rejectLoad 0x0E 255 else s
  let s := (s.ownPorts n).foldl State.removePort s
  let s := (s.ringsOf n).foldl (fun s e =>
    let s := if e.1 = .rx then s.flushRx e.2 dropHold else s
    s.set (ringRegs e.1).en e.2 0) s
  let s := (s.freeLeases n).forceFlows n
  let s := (s.image.tables.filter fun e => e.2.troupe == n).foldl (fun s e => s.emptyTable e.1) s
  (s.set CFG.TROUPE_SERIAL.SERIAL n 0).measureTroupe n none

/-- REMOVE: a write of HIF.TROUPE_CTRL with OP = REMOVE: refused, or the removal runs its steps 1 to 4. -/
def execRemove (value : Word) (s : State) : Answer :=
  if !s.hostReach 0 true then .next s else
  match troupeOp value with
  | some (1, n) =>
    let status := s.troupeStatus true n
    let s := s.set HIF.TROUPE_CTRL.STATUS 0 status
    if status ≠ 0 then .next s
    else
      let s := { s with hif := { s.hif with moving := some (n, false) } }
      .next ((s.set HIF.TROUPE_CTRL.BUSY 0 1).removeTroupe n)
  | _ => .next s

/-- The end of a removal or restore: BUSY clears and TROUPE_DONE is raised. -/
def State.troupeDone (s : State) : State :=
  let s := { s with hif := { s.hif with moving := none } }
  (s.set HIF.TROUPE_CTRL.BUSY 0 0).raise HIF.INT_CAUSE.TROUPE_DONE

/-- TROUPE_REMOVE_DONE: step 5 of a removal. -/
def execTroupeRemoveDone (s : State) : Answer :=
  match s.hif.moving with
  | some (n, false) =>
    let s := (s.setTroupeState n 3).addSat HIF.TROUPE_STATE.REMOVALS n 1
    .next (s.troupeDone.record 0x1001 (leBytes n 1))
  | _ => .next s

/-! ## Restore (R517) -/

/-- A REG_INIT record by its register (R70): its RWS fields go to the staging copy, its other configuration fields take
the value. -/
def State.regInit (s : State) (off : Nat) (w : Word) : State :=
  match pfTarget off with
  | none => s
  | some t => t.reg.fields.foldl (fun s f =>
      match f.acc with
      | .rws => s.setStaged f t.idx (bitsOf w f.lo f.width)
      | .rw => s.set f t.idx (bitsOf w f.lo f.width)
      | .rwp => s.set f t.idx (bitsOf w f.lo f.width)
      | .rwk => s.set f t.idx (bitsOf w f.lo f.width)
      | _ => s) s

/-- The RWS fields of troupe n take their REG_INIT values of an image, or their reset values, in staging (R517). -/
def State.stageTroupe (s : State) (im : Image) (n : Nat) : State :=
  let mine := fun r i => rwsScope im r i == .troupe n
  let s := { s with staging := s.staging.filter fun e => !((rwsOfKey e.1).any fun r => mine r (e.1 / 1024)) }
  im.regInit.foldl (fun s e => match pfTarget e.1 with
    | some t =>
      if (rwsRegs.contains t.reg) && mine t.reg t.idx then
        t.reg.fields.foldl (fun s f => if f.acc = .rws then s.setStaged f t.idx (bitsOf (BitVec.ofNat 64 e.2) f.lo f.width) else s) s
      else s
    | none => s) s

/-- RESTORE: a write of HIF.TROUPE_CTRL with OP = RESTORE: refused, or the troupe's staged fields take the values of the
full image. -/
def execRestore (value : Word) (s : State) : Answer :=
  if !s.hostReach 0 true then .next s else
  match troupeOp value with
  | some (2, n) =>
    let status := s.troupeStatus false n
    let s := s.set HIF.TROUPE_CTRL.STATUS 0 status
    if status ≠ 0 then .next s
    else
      let s := { s with hif := { s.hif with moving := some (n, true) } }
      .next ((s.set HIF.TROUPE_CTRL.BUSY 0 1).stageTroupe (s.cf.full.getD {}) n)
  | _ => .next s

/-- TROUPE_RESTORE_DONE: the restore ends with a commit scoped to the troupe, at whose fence the full image's contents
are in force for it (R517). It waits while another commit is in its fence. -/
def execTroupeRestoreDone (s : State) : Answer :=
  match s.hif.moving with
  | some (n, true) =>
    if s.cf.commits.any fun c => c.phase == .fence then .next s
    else
      let im := withTroupe s.image (s.cf.full.getD {}) n
      let c : CommitRec :=
        { by_ := .troupeApply n, scope := some n, defer := true, phase := .fence, pendingSet := s.staging,
          troupes := [n], change := some (.restore n) }
      let s := { s with cf := { s.cf with commits := s.cf.commits ++ [c] } }
      let s := (im.tables.filter fun e => e.2.troupe == n).foldl (fun s e => s.emptyTable e.1) s
      .next ((s.fence c).setTroupeState n 1).troupeDone
  | _ => .next s

/-! ## Functions (R506, R509, R523) -/

/-- Bus Master Enable of a function. -/
def State.setBusMaster (s : State) (f : Nat) (on : Bool) : State :=
  let s := if f = 0 then { s with hif := { s.hif with pfBme := on } } else s
  s.set HIF.TROUPE_STATE.BME f (b2n on)

/-- Which VFs exist: VF n while VFs are enabled and NumVFs is n or more (R506). -/
def State.refreshVfs (s : State) : State :=
  (List.range 64).foldl (fun s n =>
    if n = 0 then s
    else
      let there := s.hif.vfEnable && decide (n ≤ s.hif.numVfs)
      let s := s.set HIF.TROUPE_STATE.VF_PRESENT n (b2n there)
      if there then s else s.setBusMaster n false) s

/-- A function's pending latches are discarded without a record (R509, R523). -/
def State.forgetLatches (s : State) (fn : Nat) : State :=
  (s.setLatches (s.cf.latches.filter fun l => l.fn != fn)).showPending fn

/-- The rings of a troupe are reset (R509, R523). -/
def State.resetRings (s : State) (n : Nat) : State := (s.ringsOf n).foldl (fun s e => s.ringReset e.1 e.2) s

/-- FLR of virtual function n: its window's registers that hold state of the function, its latches, its rings and its
leased cells (R523). -/
def State.vfReset (s : State) (n : Nat) : State :=
  let s := ((s.resetRings n).setBusMaster n false).resetMsix n
  let s := (s.forgetLatches n).freeLeases n
  let s := [Reg.CFG_VIEW, .CFG_COMMIT_STATUS, .CFG_PAIR_STATUS, .CFG_PAIR_DISCARD, .CFG_PAIR_DISCARD_VALUE,
      .CELL_LEASE_CTRL, .QM_QUERY, .QM_QUERY_RESULT0, .QM_QUERY_RESULT1, .TEL_HIST_CTRL, .WIN_INT_CAUSE, .WIN_INT_EN,
      .WIN_CMD_DONE, .HIF_BAD_ACCESS, .HIF_BAD_ACCESS_ADDR].foldl (fun s r => s.clearReg r n []) s
  (s.clearSpan .CELL_LEASE_RESULT (8 * n) 8).clearSpan .TEL_HIST_BIN (64 * n) 64

/-- FLR: a function-level reset of virtual function n (R523). -/
def execFlr (fn : FnNo) (s : State) : Answer := .next (if fn.val = 0 then s else s.vfReset fn.val)

/-- PF_FLR: VFs are disabled and reset, and troupe 0's rings, the physical function's interrupts, view and latches
(R509). -/
def execPfFlr (s : State) : Answer :=
  let s := { s with hif := { s.hif with vfEnable := false } }
  let s := ((List.range 64).foldl (fun s n => if n = 0 then s else s.vfReset n) s).refreshVfs
  let s := (s.resetRings 0).setBusMaster 0 false
  .next (((s.resetMsix 0).clearReg .CFG_VIEW 0 []).forgetLatches 0)

/-- A function answers configuration requests: the physical function, and the virtual functions that exist (R506). -/
def State.functionHere (s : State) (fn : Nat) : Bool := fn == 0 || s.flag HIF.TROUPE_STATE.VF_PRESENT fn

/-- What a function reports of itself in configuration space: VENDOR, PART (0x2049 for a virtual function) and STEPPING of
TOP.IDENT, and the class code (R106, R506). -/
def State.identity (s : State) (fn : Nat) : Out :=
  .identity fn (s.get TOP.IDENT.VENDOR 0) (if fn = 0 then s.get TOP.IDENT.PART 0 else 0x2049) (s.get TOP.IDENT.STEPPING 0)
    0x028000

/-- What a function reports of its capabilities in configuration space (R506, R507, R540). -/
def State.capabilities (s : State) (fn : Nat) : Out :=
  let pf := fn == 0
  .capabilities fn
    { bar0 := if pf then 256 * 2 ^ 20 else 2 * 2 ^ 20
      bar2 := 64 * 2 ^ 10
      totalVfs := if pf then 63 else 0
      initialVfs := if pf then 63 else 0
      vfOffset := if pf then 1 else 0
      vfStride := if pf then 1 else 0
      tableSize := s.get HIF.MSIX_ALLOC.COUNT fn - 1
      tableAt := 0
      pbaAt := 0x8000
      maxPayload := 512
      maxReadRequest := 4096
      tagBits := 14
      flr := true
      doe := pf }

/-- CONFIGURATION_REQUEST: a configuration write of VF Enable, NumVFs (only while VFs are disabled, as SR-IOV requires) or
Bus Master Enable, a read of a function's identity or capabilities, or what programs its MSI-X. -/
def execConfigurationRequest (w : ConfigWrite) (s : State) : Answer :=
  match w with
  | .vfEnable on => .next (State.refreshVfs { s with hif := { s.hif with vfEnable := on } })
  | .numVfs n =>
    if s.hif.vfEnable then .next s else .next (State.refreshVfs { s with hif := { s.hif with numVfs := n.val } })
  | .busMaster fn on => .next (if s.functionHere fn.val then s.setBusMaster fn.val on else s)
  | .readIdentity fn => .next (if s.functionHere fn.val then s.emit (s.identity fn.val) else s)
  | .readCapabilities fn => .next (if s.functionHere fn.val then s.emit (s.capabilities fn.val) else s)
  | .msixControl fn enable mask =>
    if !s.functionHere fn.val then .next s
    else .next ((s.modMsix fn.val fun m => { m with enabled := enable, funcMask := mask }).releaseMsix fn.val)
  | .msixEntry fn vector addr data mask =>
    if !s.functionHere fn.val || s.get HIF.MSIX_ALLOC.COUNT fn.val ≤ vector.val then .next s
    else
      let e : MsixEntry := { addr := addr.toNat, data := data.toNat, masked := mask }
      .next ((s.modMsix fn.val fun m => { m with entries := tabPut m.entries vector.val e }).releaseMsix fn.val)

/-! ## The host interface (R108, R110, R505, R528, R630) -/

/-- The configuration of every function, every ring and the link go (R108); `inReset` where a main-domain reset causes
it. -/
def State.hostDown (s : State) (inReset : Bool) : State :=
  let s := { s with hif := { s.hif with vfEnable := false, numVfs := 0, msix := [] } }
  let s := (s.setBusMaster 0 false).refreshVfs
  let s := (List.range 64).foldl State.resetRings s
  let s := s.rxWaiting.foldl (fun s r => s.flushRx r dropHostDown) s
  let s := { s with pkg := { s.pkg with pcieTraining := false } }
  let s := ((s.set HIF.LINK_STATUS.SPEED 0 0).set HIF.LINK_STATUS.WIDTH 0 0).set HIF.LINK_STATUS.FLIT 0 0
  s.setReady rdyPcie false inReset

/-- HOST_RESET: PERST# low, a hot reset or a link-down. A host load in FETCH or VERIFY is rejected with DMA_ERROR (R110).
After a hot reset or a link-down the link trains again. -/
def execHostReset (cause : HostDown) (s : State) : Answer :=
  let s := s.hostDown true
  let s := if s.loadOpen && s.cf.load.any (fun l => l.source == 0) then s.rejectLoad 0x11 255 else s
  let low := cause == .perst
  let s := { s with pkg := { s.pkg with perstN := s.pkg.perstN && !low } }
  .next { s with pkg := { s.pkg with pcieTraining := s.pkg.perstN && s.pkg.hubUp } }

/-- PERST_DEASSERT: PERST# rises; with the hub out of reset the link trains (R630). -/
def execPerstDeassert (s : State) : Answer :=
  .next { s with pkg := { s.pkg with perstN := true, pcieTraining := s.pkg.hubUp && !s.ready rdyPcie } }

/-- PCIE_LINK_UP: training ends at a speed (1 2.5 to 6 64 GT/s) and a width, as their codes from 0; a link below 64 GT/s or
x16 is downgraded (R505, R630). -/
def execPcieLinkUp (speed : Fin 6) (widthLog2 : Fin 5) (s : State) : Answer :=
  if !s.pkg.pcieTraining then .next s
  else
    let s := { s with pkg := { s.pkg with pcieTraining := false } }
    let s := (s.set HIF.LINK_STATUS.SPEED 0 (speed.val + 1)).set HIF.LINK_STATUS.WIDTH 0 (2 ^ widthLog2.val)
    let s := s.set HIF.LINK_STATUS.FLIT 0 (b2n (speed.val = 5))
    let s := if speed.val < 5 || widthLog2.val < 4 then
        (s.set HIF.LINK_STATUS.DOWNGRADED 0 1).raise HIF.INT_CAUSE.LINK_DOWNGRADE else s
    .next (s.setReady rdyPcie true false)

end Sys2Proof.Machine
end

