-- ==== Sys2Proof/Machine/Images.lean ====
section
/-!
DEFINITION. The container of an image and its checks (R66 to R73), and the image that its section bodies build, in the
model's own form of them (log entry 6).
-/

namespace Sys2Proof.Machine

/-! ## Header, section table and signature block (R67 to R69) -/

/-- Entries of the section table. -/
def sectionEntry (h : List Byte) (off : Nat) : SectionEntry :=
  { type := leField h off 2, flags := leField h (off + 2) 2, offset := leField h (off + 8) 8,
    length := leField h (off + 0x10) 8, digest := (h.drop (off + 0x18)).take 48 }

/-- The section table of a header. -/
def sectionTable (h : List Byte) : List SectionEntry :=
  (List.range (min 64 (leField h 0x28 4))).map fun i => sectionEntry h (leField h 0x2C 4 + 80 * i)

/-- Step 1. -/
def headerGood (h : List Byte) : Bool :=
  let kind := leField h 0x14 1
  let troupe := leField h 0x15 1
  let mode := leField h 0x16 1
  256 ≤ h.length && leField h 0 4 == 0x534D4E4F && leField h 4 2 == 1 && leField h 6 2 == 256 &&
    ((kind == 0 && troupe == 0 && mode ≤ 3) || (kind == 1 && 1 ≤ troupe && troupe ≤ 63 && mode == 0xFF)) &&
    leField h 0x17 1 ≤ 3 && zeroSpan h 0x48 184

/-- Step 2, `short` for a scatter list that does not cover TOTAL_LEN. -/
def lengthGood (h : List Byte) (short : Bool) : Bool :=
  let total := leField h 8 8
  let sig := leField h 0x30 8
  8192 ≤ total && total ≤ 120 * 2 ^ 20 && sig % 64 == 0 && sig + 256 == total && !short

/-- Steps 1 to 5, which the header alone decides: the cause, 0 where they pass. -/
def State.headerCause (s : State) (h : List Byte) (short : Bool) : Nat :=
  if !headerGood h then 0x01
  else if !lengthGood h short then 0x02
  else if leField h 0x10 2 ≠ s.get TOP.IDENT.PART 0 then 0x03
  else if leField h 0x12 1 ≠ s.get TOP.IDENT.STEPPING 0 then 0x04
  else if !natBit (leField h 0x13 1) (s.get TOP.IDENT.PKG 0) then 0x05
  else 0

/-- The bytes that the signature covers: 0 to the end of the section table (R69). -/
def signedRegion (h : List Byte) : List Byte := h.take (leField h 0x2C 4 + 80 * leField h 0x28 4)

/-- The signature of an image, r and s as big-endian numbers of 48 bytes, under an owner key (R66, R69). -/
def imageSigned (key h sig : List Byte) : Bool :=
  ecdsaValid key (signedRegion h) (ofBe ((sig.drop 0x38).take 48)) (ofBe ((sig.drop 0x68).take 48))

/-- Step 6's first part: the signature block is well formed. -/
def sigGood (sig : List Byte) (slot : Nat) : Bool :=
  sig.length == 256 && leField sig 0 4 == 0x4749534F && leField sig 4 1 == 1 && leField sig 5 1 == slot &&
    zeroSpan sig 6 2 && zeroSpan sig 0x98 104

/-- Steps 6 to 9. -/
def State.keyCause (s : State) (h sig : List Byte) : Nat :=
  let slot := leField h 0x17 1
  if !sigGood sig slot then 0x08
  else if !s.flag SEC.OWNER_SLOT.PROVISIONED slot || (sig.drop 8).take 48 ≠ s.ownerHash slot then 0x06
  else if s.flag SEC.OWNER_SLOT.REVOKED slot then 0x07
  else if !imageSigned (tabGet [] s.sec.ownerKeys slot) h sig then 0x08
  else if leField h 0x18 8 = 0 || leField h 0x18 8 < s.get CFG.SERIAL_FLOOR.FLOOR 0 then 0x09
  else 0

/-! ### Sections (R70) -/

/-- Types marked Mandatory in the full-image column, HBM_PLAN apart. -/
def mandatory : List Nat :=
  [secStructure, secBreakout, secParser, secIprog, secEprog, secTables, secBuffer, secQueue, secTroupe]

/-- Types allowed in a troupe image. -/
def troupeTypes : List Nat := [secIprog, secEprog, secTables, secPolicer, secBuffer, secQueue, secRegInit, secNote]

/-- The limit of a section of a known type, in bytes. -/
def sectionLimit (type : Nat) : Option Nat :=
  ([(secStructure, 64), (secBreakout, 16), (secParser, 4096), (secIprog, 49152), (secEprog, 24576), (secTables, 1024),
    (secPolicer, 2048), (secBuffer, 64), (secQueue, 8192), (secHbm, 64), (secTroupe, 256), (secRegInit, 4096),
    (secNote, 64)].find? fun e => e.1 == type).map fun e => e.2 * 1024

/-- Indexes of a list sorted by a key. -/
def insertIdx (key : Nat → Nat) (i : Nat) : List Nat → List Nat
  | [] => [i]
  | j :: js => if key i < key j then i :: j :: js else j :: insertIdx key i js

/-- Indexes of the sections in ascending OFFSET. -/
def byOffset (t : List SectionEntry) : List Nat :=
  (List.range t.length).foldl (fun l i => insertIdx (fun j => ((t[j]?).map (·.offset)).getD 0) i l) []

/-- Step 10 for the entries in ascending OFFSET, from an end that the next body may not begin before: the index that
fails. -/
def tableScan (h : List Byte) (t : List SectionEntry) (sigOff : Nat) : List Nat → Nat → List Nat → Option Nat
  | [], _, _ => none
  | i :: is, low, seen =>
    match t[i]? with
    | none => some i
    | some e =>
      let at_ := leField h 0x2C 4 + 80 * i
      let bad := 1 < e.flags || !zeroSpan h (at_ + 4) 4 || !zeroSpan h (at_ + 0x48) 8 || e.offset % 64 ≠ 0 ||
        e.offset < low || sigOff < e.offset + e.length ||
        (sectionLimit e.type).any (fun l => decide (l < e.length)) ||
        ((mandatory.contains e.type || e.type == secHbm) && seen.contains e.type)
      if bad then some i else tableScan h t sigOff is (e.offset + e.length) (e.type :: seen)

/-- Step 10: the cause with the section index. -/
def tableCause (h : List Byte) : Option Nat :=
  let n := leField h 0x28 4
  let off := leField h 0x2C 4
  let sig := leField h 0x30 8
  let stop := off + 80 * n
  if !(1 ≤ n && n ≤ 64 && 256 ≤ off && off % 64 == 0 && stop ≤ sig && stop ≤ h.length) then some 255
  else
    let t := sectionTable h
    tableScan h t sig (byOffset t) stop []

/-- Step 11: the section index that fails, 255 for a section that is missing. -/
def setCause (h : List Byte) : Option Nat :=
  let t := sectionTable h
  let full := leField h 0x14 1 == 0
  let needed := if full then mandatory ++ (if leField h 0x16 1 = 0 then [] else [secHbm]) else []
  if needed.any fun m => !t.any fun e => e.type == m then some 255
  else
    (List.range t.length).find? fun i => match t[i]? with
      | none => true
      | some e =>
        if (sectionLimit e.type).isNone then e.flags % 2 == 0 else !full && !troupeTypes.contains e.type

/-- Steps 1 to 11 and 14: the cause and the section index, `short` for a scatter list that does not cover TOTAL_LEN. A read that failed is found where its bytes are first needed
(log entry 29). -/
def State.imageCause (s : State) (h sig : List Byte) (failed short : Bool) (readCause : Nat) : Nat × Nat :=
  if failed && h.length < 256 then (readCause, 255)
  else match s.headerCause h short with
    | 0 =>
      if failed then (readCause, 255)
      else match s.keyCause h sig with
        | 0 =>
          match tableCause h, setCause h with
          | some i, _ => (0x0A, i)
          | none, some i => (0x0B, i)
          | none, none =>
            let n := leField h 0x15 1
            if leField h 0x14 1 = 1 && !(s.reserved n && s.troupeExists n) then (0x0E, 255) else (0, 255)
        | c => (c, 255)
    | c => (c, 255)

/-! ## The image that bodies build -/

/-! ## Resources (steps 12 and 13) -/

/-- Lane counts of the ports of a rate code and a lane mode code (R143): 0 where there is no such port. -/
def breakoutLanes : Nat → Nat → Nat
  | 1, 5 => 1 | 2, 4 => 1 | 3, 5 => 4 | 3, 4 => 2 | 3, 3 => 1
  | 4, 4 => 4 | 4, 3 => 2 | 4, 2 => 1
  | 5, 4 => 8 | 5, 3 => 4 | 5, 2 => 2 | 5, 1 => 1
  | 6, 3 => 8 | 6, 2 => 4 | 6, 1 => 2
  | 7, 2 => 8 | 7, 1 => 4
  | 8, 1 => 8
  | _, _ => 0

/-- Every port is one of R143, no two share a lane, and an octet has one lane mode (R24, R122). -/
def portsGood : List PortPlan → Bool
  | [] => true
  | p :: ps =>
    decide (p.port < 512) && breakoutLanes p.rate p.mode == p.lanes && decide (0 < p.lanes) && p.port % 8 % p.lanes == 0 &&
      (ps.all fun q => q.port / 8 != p.port / 8 ||
        (q.mode == p.mode && (decide (p.port + p.lanes ≤ q.port) || decide (q.port + q.lanes ≤ p.port)))) &&
      portsGood ps

/-- A troupe that the image names. -/
def namesTroupe (im : Image) (n : Nat) : Bool := im.troupes.any fun t => t.troupe == n

/-- Things that a list of owners gives a troupe. -/
def ownedCount (owners : List (Nat × Nat)) (n : Nat) : Nat := (owners.filter fun e => e.2 == n).length

/-- Numbers that no two entries share. -/
def keysOnce (t : List (Nat × Nat)) : Bool := dupFree (t.map (·.1))

/-- Member ranges that lie in the member memory and do not overlap (R362). -/
def membersGood : List TroupePlan → Bool
  | [] => true
  | t :: ts =>
    decide (t.memberFirst + t.memberCount ≤ 1048576) &&
      (ts.all fun u => t.memberCount == 0 || u.memberCount == 0 ||
        decide (t.memberFirst + t.memberCount ≤ u.memberFirst) || decide (u.memberFirst + u.memberCount ≤ t.memberFirst)) &&
      membersGood ts

/-- The troupe map: troupes 0 to 63 once each, owners that it names, and the limits of R511. -/
def troupeMapGood (im : Image) (bs : List SectionBody) : Bool :=
  let owners := [portOwners bs, im.mirrorOwner, im.mcOwner, im.rxOwner, im.txOwner, im.rptOwner, im.cmdOwner]
  dupFree (im.troupes.map (·.troupe)) && (im.troupes.all fun t => decide (t.troupe < 64)) &&
    owners.all (fun o => keysOnce o && o.all fun e => namesTroupe im e.2) && membersGood im.troupes &&
    (List.range 64).all fun n => n == 0 ||
      (decide (ownedCount (portOwners bs) n ≤ 128) && decide (ownedCount im.rxOwner n ≤ 128) &&
        decide (ownedCount im.txOwner n ≤ 128))

/-- The body/tail split of R306: 32 MiB to 736 MiB. -/
def splitGood (im : Image) : Bool := decide (1 ≤ im.bodySteps) && decide (im.bodySteps ≤ 23)

/-- Tiers of existing class groups, and queue shapers with one queue each (R336, R345). -/
def queuesGood (im : Image) : Bool :=
  (im.cgTier.all fun e => decide (e.2 < 4) && (imagePort im (e.1 / 16)).isSome) && keysOnce im.qshaperQueue &&
    dupFree (im.qshaperQueue.map (·.2)) &&
    im.qshaperQueue.all fun e => decide (e.1 < 131072) && decide (e.2 < 1048576) && (imagePort im (queuePort e.2)).isSome

/-- Policers that exist, once each, on one to four pipes of their own die (R70, R280). -/
def policersGood (bs : List SectionBody) : Bool :=
  dupFree ((policerEntries bs).map (·.1)) &&
    (policerEntries bs).all fun e => decide (e.1 < 262144) && decide (1 ≤ e.2.1) && decide (e.2.1 ≤ 15)

/-- Each troupe's policers: at most 16,384 in one range (R511). -/
def policerOwnersGood (im : Image) : Bool :=
  (im.policers.all fun e => namesTroupe im e.2.2) &&
    (List.range 64).all fun n => n == 0 ||
      (decide ((policerRange im.policers n).2 ≤ 16384) &&
        im.policers.all fun e => e.2.2 != n ||
          decide (e.1 < (policerRange im.policers n).1 + (policerRange im.policers n).2))

/-- SRAM tiles that the nodes of a longest-prefix table take: its first level's 8, and of each pool 32 nodes of 256 slots or
an eighth of a node of 65,536 slots to a tile (R246). -/
def TablePlan.trieTiles (p : TablePlan) : Nat :=
  8 + ((p.nodes.zip (p.strides.drop 1)).map fun e => (e.1 * 2 ^ e.2 * 8 + 65535) / 65536).sum

/-- A table holds no more than its tiles do (R223, R224, R233, R246, R253): the buckets of an exact-match table, whose twin
takes as many tiles again; the nodes of a trie, with 2,048 ternary entries to a tile; the entries of an index table. -/
def TablePlan.fits (p : TablePlan) : Bool :=
  match p.kind with
  | 1 => p.positions == 4 * p.buckets && decide (1 ≤ p.keyBytes) && decide (p.keyBytes ≤ 60) &&
      decide (8 * p.keyBytes + 32 ≤ p.bits)
  | 2 => decide (p.trieTiles ≤ p.sramTiles) && p.positions == 65536 && p.nodes.length == 2 && p.ternPositions == 0
  | 3 => decide (p.trieTiles ≤ p.sramTiles) && p.positions == 65536 && p.nodes.length == 5 &&
      decide (p.ternPositions ≤ 2048 * p.ternTiles)
  | 4 => decide (p.positions ≤ 2048 * p.ternTiles) && decide (p.keyBytes ≤ 20)
  | 5 => decide (p.positions * p.bits ≤ p.sramTiles * 65536 * 8)
  | _ => false

/-- Tables that carve no more than a die holds: at most 256, of them 64 exact-match, 1,024 SRAM tiles and 128 ternary
tiles, each of a kind and a width of R224 and no larger than its tiles (R223). -/
def tablesGood (im : Image) : Bool :=
  dupFree (im.tables.map (·.1)) &&
    (im.tables.all fun e => decide (e.1 < 256) && decide (e.2.width < 4) && e.2.fits && (!e.2.twin || e.2.kind == 1)) &&
    decide ((im.tables.filter fun e => e.2.kind == 1).length ≤ 64) &&
    decide ((im.tables.map (·.2.tiles)).sum ≤ 1024) && decide ((im.tables.map (·.2.ternTiles)).sum ≤ 128)

/-- What an HBM plan defines suits the memory mode (R58, R443, R631). -/
def planMode (im : Image) : Bool :=
  match im.memMode with
  | 0 =>
    !im.hbm.defines && im.hbm.captureGb == 0 && im.hbm.captureQueues.isEmpty &&
      (im.hbm.spillQuota.all fun e => e.2 == 0) && im.hbm.mdUnits.all fun e => e.2 == 0
  | 1 => im.hbm.captureGb == 0
  | _ => true

/-- A capture ring of 0 to 32 GB, even in Ledger mode (R443). -/
def planSize (im : Image) : Bool := decide (im.hbm.captureGb ≤ 32) && (im.memMode != 2 || im.hbm.captureGb % 2 == 0)

/-- A parser state within R191: at most 64 bytes extracted, a lookahead within 16 bytes of its position, and forward movement
where it does not end the parse. -/
def stateGood (g : ParserState) : Bool :=
  decide (g.extract ≤ 64) && (g.lookLen == 0 || decide (g.lookOff + g.lookLen ≤ 16)) &&
    (g.accept || g.reject || decide (1 ≤ g.extract + g.skip))

/-- Parser graphs of at most 256 states (R191). -/
def parsersGood (im : Image) : Bool :=
  im.parsers.all fun e => decide (e.1 < 16) && decide (e.2.length ≤ 256) && e.2.all stateGood

/-- The actions of a stage that need a resource. -/
def stageUses (f : Action → Bool) (stage : List Guarded) : Nat := (stage.filter fun g => f g.act).length

/-- The kind of the table that a lookup names. -/
def lookupKind (im : Image) : Action → Option Nat
  | .lookup t _ _ => (tabFind im.tables t).map (·.kind)
  | _ => none

/-- A stage keeps within what it offers every head (R188). -/
def stageGood (im : Image) (ingress : Bool) (stage : List Guarded) : Bool :=
  let two := if ingress then 2 else 1
  decide (stageUses (fun a => (lookupKind im a).any fun k => k != kindTernary && k != kindIndex) stage ≤ 2 * two) &&
    decide (stageUses (fun a => lookupKind im a == some kindTernary) stage ≤ two) &&
    decide (stageUses (fun a => match a with | .hash _ _ _ _ => true | _ => false) stage ≤ two) &&
    decide (stageUses (fun a => match a with | .alu _ _ _ _ => true | _ => false) stage ≤ 32) &&
    decide (stageUses (fun a => match a with | .stateful _ _ _ _ _ => true | _ => false) stage ≤ 2) &&
    decide (stageUses (fun a => match a with | .count _ => true | _ => false) stage ≤ 4) &&
    decide (stageUses (fun a => match a with | .police _ => true | _ => false) stage ≤ b2n ingress)

/-- Programs of named troupes in ingress or egress pipes, with at most 32 and 16 stages, each within its resources (R187,
R188), and an egress parser within its limits (R191). -/
def programsGood (im : Image) : Bool :=
  im.programs.all fun e =>
    decide (e.1 < 2048) && namesTroupe im (e.1 % 64) &&
      decide (e.2.stages.length ≤ (if e.1 / 64 < 16 then 32 else 16)) &&
      e.2.stages.all (stageGood im (decide (e.1 / 64 < 16))) &&
      (decide (e.1 / 64 < 16) || (decide (e.2.parser.length ≤ 128) && e.2.parser.all stateGood))

/-- A Police action of a program names a policer bound to its pipe and its troupe (R280). -/
def policeGood (im : Image) : Bool :=
  im.programs.all fun e => e.2.stages.all fun st => st.all fun g =>
    match g.act with
    | .police (.imm i) =>
      (tabFind im.policers i).any fun b =>
        b.2 == e.1 % 64 && i / 65536 == e.1 / 64 / 4 && natBit b.1 (e.1 / 64 % 4) && decide (e.1 / 64 < 16)
    | _ => true

/-! ### REG_INIT (R85, R626) -/

/-- The troupe of the structure that an instance of a register configures, for the registers of R626: none where the
image does not build that structure, and `none` outside them. -/
def regTroupe (im : Image) (r : Reg) (i : Nat) : Option (Option Nat) :=
  let port := fun x => some (imagePort im x)
  let table := fun t => some ((tabFind im.tables t).map (·.troupe))
  match r with
  | .PORT_CFG | .PORT_STATUS | .PORT_INFO | .PORT_SA | .PORT_PFC_CFG | .PORT_PFC_STATUS | .PORT_TS_CFG | .PORT_TS_INFO
  | .PORT_EVENT | .PORT_EVENT_EN => port i
  | .PORT_DSCP_MAP => port (i / 4)
  | .PORT_COUNTER => port (i / 20)
  | .LANE_CFG | .LANE_TX_FIR | .LANE_RX_CFG | .LANE_RX_STATUS | .LANE_ALIGN_CTRL | .LANE_ALIGN_STATUS | .LANE_IDLE_CFG
  | .LANE_IDLE_STATUS | .LANE_ERR | .LANE_TEST =>
    some ((im.ports.find? fun p => p.port ≤ i && decide (i < p.port + p.lanes)).map (·.troupe))
  | .QM_PORT_ADM | .QM_PORT_HOLD | .QM_PORT_CFG | .QM_PORT_STATUS | .QM_PORT_FLUSHED | .QM_PORT_SHAPER
  | .QM_PORT_SHAPER_STATE | .QM_WIN_CTRL | .QM_WIN_STATUS => port i
  | .QM_WIN_BANK | .QM_WIN_BASE_SEC | .QM_WIN_BASE_NS => port (i / 2)
  | .QM_WIN_GCL => port (i / 256)
  | .QM_PP_ADM => port (i / 8)
  | .QM_CG_CFG | .QM_CG_STATUS | .QM_CG_SHAPER | .QM_CG_SHAPER_STATE => port (i / 16)
  | .QM_Q_PROFILE => port (queuePort i)
  | .QM_Q_WEIGHT => port (queuePort (2 * i))
  | .QM_QSHAPER | .QM_QSHAPER_STATE => some ((tabFind im.qshaperQueue i).bind fun q => imagePort im (queuePort q))
  | .QM_TROUPE_ADM => some (imageTroupe im i)
  | .TBL_TABLE_INFO | .TBL_STATUS | .TBL_TABLE_CTRL | .TBL_TABLE_COUNT | .TBL_AGE_CFG => table i
  | .TBL_TABLE_SEED => table (i / 2)
  | .TBL_CMD_CTRL | .TBL_CMD_LOC | .TBL_CMD_RESULT => some (some (tabGet 0 im.cmdOwner i))
  | .TBL_CMD_ENTRY => some (some (tabGet 0 im.cmdOwner (i / 8)))
  | .POL_CFG => some ((tabFind im.policers i).map (·.2))
  | .PIPE_MIRROR_CFG => some (tabFind im.mirrorOwner i)
  | .PIPE_PROG_REG => some (if i < im.pregCount then some (tabGet 0 im.pregOwner i) else none)
  | .MC_GROUP => some (some (tabGet 0 im.mcOwner i))
  | .MC_MEMBER =>
    some ((im.troupes.find? fun t => t.memberFirst ≤ i && decide (i < t.memberFirst + t.memberCount)).map (·.troupe))
  | .HIF_RX_CFG | .HIF_RX_CQ | .HIF_RX_CQ_WB | .HIF_RX_CQ_IDX | .HIF_RX_BUF_SIZE | .HIF_RX_STATUS =>
    some (some (tabGet 0 im.rxOwner i))
  | .HIF_RX_POOL | .HIF_RX_POOL_IDX => some (some (tabGet 0 im.rxOwner (i / 4)))
  | .HIF_TX_CFG | .HIF_TX_RING | .HIF_TX_WB | .HIF_TX_IDX | .HIF_TX_STATUS => some (some (tabGet 0 im.txOwner i))
  | .HIF_TLM_CFG | .HIF_TLM_RING | .HIF_TLM_WB | .HIF_TLM_IDX | .HIF_TLM_STATUS => some (some i)
  | .HIF_RPT_CFG | .HIF_RPT_RING | .HIF_RPT_WB | .HIF_RPT_IDX | .HIF_RPT_STATUS => some (some (tabGet 0 im.rptOwner i))
  | .TEL_TROUPE_FLOWS | .TEL_EXPORT_CFG | .TEL_EXPORT_CFG2 | .TEL_DROP_CFG | .TEL_EXPORT_STATUS | .TEL_EXPORT_SEQ =>
    some (imageTroupe im i)
  | .TEL_EXPORT_HDR => some (imageTroupe im (i / 8))
  | _ => none

/-- A multicast group's range lies in the member range of its troupe and holds at most 2,048 members (R362, R366). -/
def groupInRange (im : Image) (g : Nat) (w : Word) : Bool :=
  let base := bitsOf w MC.GROUP.BASE.lo MC.GROUP.BASE.width
  let count := bitsOf w MC.GROUP.COUNT.lo MC.GROUP.COUNT.width
  count == 0 || (decide (count ≤ 2048) && im.troupes.any fun t => t.troupe == tabGet 0 im.mcOwner g &&
    decide (t.memberFirst ≤ base) && decide (base + count ≤ t.memberFirst + t.memberCount))

/-- A member of a troupe's range names a queue of the troupe (R335, R362). -/
def memberInRange (im : Image) (i : Nat) (w : Word) : Bool :=
  let q := bitsOf w MC.MEMBER.QUEUE.lo MC.MEMBER.QUEUE.width
  w == regReset .MC_MEMBER i || im.troupes.any fun t =>
    decide (t.memberFirst ≤ i) && decide (i < t.memberFirst + t.memberCount) && imageQueue im q t.troupe

/-- A register's value within what the image builds (R85): a staged one as a commit would test it, a multicast group and a
member as the image assigns them. -/
def recordInRange (im : Image) (r : Reg) (i : Nat) (w : Word) : Bool :=
  let c : CommitRec := { by_ := .cfg, scope := none, defer := true, phase := .check, pendingSet := rfPut [] r i w }
  match r with
  | .MC_GROUP => groupInRange im i w
  | .MC_MEMBER => memberInRange im i w
  | _ => !rwsRegs.contains r || !outOfRange im c r i

/-- A REG_INIT record of a full image (`only` none) or of a troupe image. -/
def recordGood (im : Image) (only : Option Nat) (e : Nat × Nat) : Bool :=
  match pfTarget e.1 with
  | none => false
  | some t =>
    t.byte == 0 && recordInRange im t.reg t.idx (BitVec.ofNat 64 e.2) &&
      match regTroupe im t.reg t.idx, only with
      | some none, _ => false
      | some (some m), some n => m == n
      | some (some _), none => true
      | none, some _ => false
      | none, none => true

/-- The registers that admission's reservations rest on once REG_INIT records have been written over others. -/
def withRecords (rf : RegFile) (rs : List (Nat × Nat)) : RegFile :=
  rs.foldl (fun rf e => match pfTarget e.1 with
    | some t => rfPut rf t.reg t.idx (BitVec.ofNat 64 e.2)
    | none => rf) rf

/-- SHARED_UNITS does not fall below its floor (R288). -/
def floorGood (rf : RegFile) (im : Image) : Bool := decide (sharedFloor ≤ sharedUnitsOf rf im)

/-! ### The checks in order -/

/-- REG_INIT bodies hold whole records of 16 bytes (R70; log entry 79). -/
def recordsWhole (bs : List SectionBody) : Bool :=
  bs.all fun b => match b with | .regInit bytes => bytes.length % 16 == 0 | _ => true

/-- A check of step 12 or 13: the section types whose bodies it needs, its cause, and what it came to. -/
structure BodyCheck where
  needs : List Nat
  cause : Nat
  good : Bool

/-- The checks of a full image over the bodies that have passed. -/
def fullChecks (rf : RegFile) (memMode : Nat) (bs : List SectionBody) : List BodyCheck :=
  let im := buildFull memMode bs
  [ ⟨[secHbm], 0x0C, planMode im⟩,
    ⟨[secBreakout], 0x0D, portsGood im.ports⟩,
    ⟨[secTroupe], 0x0D, troupeMapGood im bs⟩,
    ⟨[secBreakout, secTroupe], 0x0D, (portOwners bs).all fun e => (imagePort im e.1).isSome⟩,
    ⟨[secBuffer], 0x0D, splitGood im && (bufferQuotas bs).all fun e => decide (e.2 ≤ storeUnits)⟩,
    ⟨[secBuffer, secTroupe], 0x0D, (bufferQuotas bs).all fun e => namesTroupe im e.1⟩,
    ⟨[secQueue, secBreakout], 0x0D, queuesGood im⟩,
    ⟨[secPolicer], 0x0D, policersGood bs⟩,
    ⟨[secPolicer, secTroupe], 0x0D, policerOwnersGood im⟩,
    ⟨[secTables], 0x0D, tablesGood im⟩,
    ⟨[secTables, secTroupe], 0x0D, im.tables.all fun e => namesTroupe im e.2.troupe⟩,
    ⟨[secHbm], 0x0D, planSize im⟩,
    ⟨[secParser], 0x0D, parsersGood im⟩,
    ⟨[secIprog, secEprog, secTroupe], 0x0D, programsGood im⟩,
    ⟨[secIprog, secPolicer], 0x0D, policeGood im⟩,
    ⟨[secRegInit, secBreakout, secTroupe, secTables, secIprog, secPolicer, secQueue], 0x0D,
      im.regInit.all (recordGood im none)⟩,
    ⟨[secRegInit], 0x0D, recordsWhole bs⟩,
    ⟨[secRegInit, secBreakout], 0x0D, floorGood (withRecords rf im.regInit) im⟩ ]

/-- Tiles of troupe n's tables: SRAM and ternary. -/
def troupeTiles (im : Image) (n : Nat) : Nat × Nat :=
  let mine := (im.tables.filter fun e => e.2.troupe == n).map (·.2)
  ((mine.map (·.tiles)).sum, (mine.map (·.ternTiles)).sum)

/-- What a troupe image's TABLE_CARVE names is the troupe's own, a table number that neither the full image nor another
troupe's image in force gives another troupe, and within the tiles that the full image reserves. -/
def carveAllowed (cur full im : Image) (n : Nat) (bs : List SectionBody) : Bool :=
  let own := bs.flatMap fun b => match b with | .tableCarve ts => ts | _ => []
  (own.all fun e => e.2.troupe == n && ((tabFind full.tables e.1).all fun p => p.troupe == n) &&
      (tabFind cur.tables e.1).all fun p => p.troupe == n) && tablesGood im &&
    decide ((troupeTiles im n).1 ≤ (troupeTiles full n).1) && decide ((troupeTiles im n).2 ≤ (troupeTiles full n).2)

/-- What a troupe image's QUEUE names is the troupe's own: tiers of its class groups, and shapers that the full image
binds to its queues. -/
def queueAllowed (full : Image) (n : Nat) (bs : List SectionBody) : Bool :=
  bs.all fun b => match b with
    | .queue tiers shapers =>
      (tiers.all fun e => imagePort full (e.1 / 16) == some n) &&
        shapers.all fun e => ownQueue full n e.2 && (tabFind full.qshaperQueue e.1).any fun q => ownQueue full n q
    | _ => true

/-- What a troupe image's BUFFER names: the same split, and a quota within the full image's (R306). -/
def bufferAllowed (full : Image) (n : Nat) (bs : List SectionBody) : Bool :=
  bs.all fun b => match b with
    | .buffer steps quotas => (steps == 0 || steps == full.bodySteps) &&
        quotas.all fun e => e.1 == n && (full.troupes.find? fun t => t.troupe == n).any fun t => decide (e.2 ≤ t.quotaUnits)
    | _ => true

/-- The checks of a troupe image for n over the bodies that have passed. -/
def troupeChecks (rf : RegFile) (cur full : Image) (n : Nat) (bs : List SectionBody) : List BodyCheck :=
  let im := buildTroupe cur full n bs
  let mine := fun (ps : List (Nat × Program)) (low high : Nat) =>
    ps.all fun e => e.1 % 64 == n && decide (low ≤ e.1 / 64) && decide (e.1 / 64 < high)
  [ ⟨[secIprog], 0x0D, bs.all fun b => match b with | .iprog ps _ _ _ => mine ps 0 16 | _ => true⟩,
    ⟨[secEprog], 0x0D, bs.all fun b => match b with | .eprog ps => mine ps 16 32 | _ => true⟩,
    ⟨[secIprog, secEprog], 0x0D, programsGood im⟩,
    ⟨[secTables], 0x0D, carveAllowed cur full im n bs⟩,
    ⟨[secPolicer], 0x0D, policersGood bs && policerOwnersGood im &&
      (policerEntries bs).all fun e => e.2.2 == n && (tabFind full.policers e.1).any fun b => b.2 == n⟩,
    ⟨[secBuffer], 0x0D, bufferAllowed full n bs⟩,
    ⟨[secQueue], 0x0D, queueAllowed full n bs && queuesGood im⟩,
    ⟨[secIprog, secPolicer], 0x0D, policeGood im⟩,
    ⟨[secRegInit, secTables, secPolicer, secQueue], 0x0D, (regRecords bs).all (recordGood im (some n))⟩,
    ⟨[secRegInit], 0x0D, recordsWhole bs && floorGood (withRecords rf (regRecords bs)) im⟩ ]

end Sys2Proof.Machine
end

