-- ==== Sys2Proof/Machine/Modules.lean ====
section
/-!
DEFINITION. Optical modules (chapter 5): the sideband chains, the states of a cage, laser life and the host's transfers.
-/

namespace Sys2Proof.Machine

def State.modMod (s : State) (f : ModBlock → ModBlock) : State := { s with mod := f s.mod }
def State.cage (s : State) (k : Nat) : Cage := tabGet {} s.mod.cages k
def State.modCage (s : State) (k : Nat) (f : Cage → Cage) : State :=
  s.modMod fun m => { m with cages := tabMod {} m.cages k f }
def State.chain (s : State) (c : Nat) : Chain := tabGet {} s.mod.chains c
def State.modChain (s : State) (c : Nat) (f : Chain → Chain) : State :=
  s.modMod fun m => { m with chains := tabMod {} m.chains c f }
def State.bus (s : State) (b : Nat) : ModBus := tabGet {} s.mod.buses b
def State.modBus (s : State) (b : Nat) (f : ModBus → ModBus) : State :=
  s.modMod fun m => { m with buses := tabMod {} m.buses b f }

/-! ## Cages (R166, R174) -/

/-- The management bus and the sideband chain of a cage (R166). -/
def cageBus (k : Nat) : Nat := k / 8
def cageChain (k : Nat) : Nat := k / 32

/-- MOD.CAGE_STATUS.STATE. -/
def cageEmpty : Nat := 0
def cagePowering : Nat := 1
def cageReset : Nat := 2
def cageIdentify : Nat := 3
def cageLowPower : Nat := 4
def cageActive : Nat := 5
def cageMismatch : Nat := 6
def cageHeld : Nat := 7
def cageFault : Nat := 8

def State.cageState (s : State) (k : Nat) : Nat := s.get MOD.CAGE_STATUS.STATE k

/-- A cage is managed only while the MOD bit is set (R174, R177), not while its chain is at fault (R173), and not while
firmware services pause (R550). -/
def State.cageManaged (s : State) (k : Nat) : Bool :=
  s.ready rdyMod && !s.tnd.paused && s.tnd.divergeAt.isNone && !s.flag MOD.CHAIN_STATUS.CHAIN_FAULT (cageChain k)

/-- The speed of a bus: I3C only where every module present advertises it, else an I2C rate (R167). With BUS_MODE 2 the
spec names no I2C rate to fall back to, so that the rate is a free value (log entry 25). -/
def State.refreshBus (s : State) (b : Nat) : State :=
  match s.get MOD.CFG.BUS_MODE 0 with
  | 0 => s.set MOD.BUS_STATUS.MODE b 0
  | 2 =>
    let here := ((List.range 8).map (8 * b + ·)).filter fun k => s.cageState k != cageEmpty
    if here.all fun k => ((s.cage k).ident.map (·.i3c)).getD false then s.set MOD.BUS_STATUS.MODE b 2
    else
      let (v, s) := s.draw
      s.set MOD.BUS_STATUS.MODE b (v % 2)
  | _ => s.set MOD.BUS_STATUS.MODE b 1

/-- A cage enters a state. -/
def State.enterCage (s : State) (k new : Nat) : State :=
  let s := (s.set MOD.CAGE_STATUS.STATE k new).modCage k fun c => { c with enteredAt := s.now }
  if new = cageFault || new = cageMismatch || new = cageHeld then s.raise MOD.INT_CAUSE.FAULT else s

/-- The ports of the octet that a cage serves (R166). -/
def State.octetPorts (s : State) (k : Nat) : List PortPlan := s.image.ports.filter fun p => p.port / 8 == k

/-- An advertised application fits each port of the octet (log entry 23). -/
def State.matchesOctet (s : State) (k : Nat) (id : ModuleId) : Bool :=
  (s.octetPorts k).all fun p => id.apps.contains (p.rate, p.lanes)

/-! ## Life records (R181 to R183) -/

/-- The lane of greatest wear and its wear. -/
def worst (ws : List Nat) : Nat × Nat :=
  (ws.zip (List.range ws.length)).foldl (fun acc e => if acc.2 < e.1 then (e.2, e.1) else acc) (0, 0)

/-- Rated life in hours: advertised, or the default (R180). -/
def State.ratedHours (s : State) (id : ModuleId) : Nat :=
  match id.rated with
  | some h => h
  | none => max 1 (s.get MOD.CFG.DEFAULT_LIFE_KH 0) * 1000

/-- The data of a MOD_LIFE record (R182). -/
def State.lifeData (s : State) (k : Nat) (id : ModuleId) : List Byte :=
  let w := worst (s.cage k).wear
  leBytes id.oui.toNat 3 ++ padTo 16 id.serial ++ leBytes k 1 ++ leBytes w.1 1 ++ leBytes 0 3 ++
    leBytes (min (w.2 / 2 ^ 64) (2 ^ 32 - 1)) 4 ++ leBytes (min (s.ratedHours id) (2 ^ 32 - 1)) 4

/-- Writes the MOD_LIFE record of a cage with an identified module (R182). -/
def State.lifeRecord (s : State) (k : Nat) : State :=
  match (s.cage k).ident with
  | none => s
  | some id => (s.record 0x0906 (s.lifeData k id)).modCage k fun c => { c with lifeAt := s.now }

/-- Data of the records that name a module: cage, vendor OUI and serial number (R568). -/
def moduleData (k : Nat) (id : ModuleId) : List Byte :=
  leBytes k 1 ++ leBytes id.oui.toNat 3 ++ padTo 16 id.serial

/-- Every record that stands, the newest first: those that wait, then those written, by number. -/
def State.newestRecord (s : State) (p : BbxRecord → Bool) : Option BbxRecord :=
  match (s.bbx.queue.reverse).find? p with
  | some r => some r
  | none =>
    ((s.bbx.ring.map Prod.snd ++ s.bbx.pinned.map Prod.snd).filter p).foldl
      (fun acc r => match acc with
        | none => some r
        | some a => if a.seq < r.seq then some r else some a) none

/-- The wear that the black box holds for a module, in hours (R183). -/
def State.storedWear (s : State) (id : ModuleId) : Option Nat :=
  let key := leBytes id.oui.toNat 3 ++ padTo 16 id.serial
  (s.newestRecord fun r => r.code == 0x0906 && r.data.take 19 == key).map fun r => ofLe ((r.data.drop 24).take 4)

/-- Remaining life in percent times the rated life, from the device's account, and against the module's own
observable where it has one (R180): percent in whole numbers, rounded down. -/
def remainPct (wornFix rated : Nat) (age : Option Nat) : Nat :=
  let left := rated * 2 ^ 64 - wornFix
  let own := if rated = 0 then 0 else min 100 (left * 100 / (rated * 2 ^ 64))
  match age with
  | none => own
  | some a => min own a

/-- Remaining life is at or below a threshold in percent (R181). -/
def lifeAtMost (pct wornFix rated : Nat) (age : Option Nat) : Bool :=
  decide ((rated * 2 ^ 64 - wornFix) * 100 ≤ pct * (rated * 2 ^ 64)) ||
    match age with
    | none => false
    | some a => decide (a ≤ pct)

/-- Shows the life of a cage's module. -/
def State.showLife (s : State) (k : Nat) (id : ModuleId) (age : Option Nat) : State :=
  let w := (worst (s.cage k).wear).2
  let l := s.ratedHours id
  let s := s.set MOD.LIFE.WORN_H k (min (w / 2 ^ 64) (2 ^ 32 - 1))
  let s := s.set MOD.LIFE.RATED_KH k (min (l / 1000) 65535)
  s.set MOD.LIFE.REMAIN_PCT k (remainPct w l age)

/-- LIFE_WARN: the thresholds of R181. -/
def State.lifeWarn (s : State) (k : Nat) (id : ModuleId) (age : Option Nat) : State :=
  let w := (worst (s.cage k).wear).2
  let l := s.ratedHours id
  let s := if lifeAtMost (s.get MOD.CFG.WARN_PCT 0) w l age && !s.flag MOD.LIFE.WARN k then
      ((s.set MOD.LIFE.WARN k 1).record 0x0904 (s.lifeData k id)).raise MOD.INT_CAUSE.LIFE
    else s
  if lifeAtMost (s.get MOD.CFG.RETIRE_PCT 0) w l age && !s.flag MOD.LIFE.RETIRE k then
    ((s.set MOD.LIFE.RETIRE k 1).record 0x0905 (s.lifeData k id)).raise MOD.INT_CAUSE.LIFE
  else s

/-! ## The management buses (R167, R168, R174, R184) -/

/-- Every module answers at this CMIS address (R167). -/
def cmisAddress : Nat := 0x50

/-- The cages of a bus. -/
def busCages (b : Nat) : List Nat := (List.range 8).map (8 * b + ·)

/-- LIFE_SAMPLE_S has passed since the last sample of a module whose life is kept (R179). -/
def State.lifeKept (s : State) (k : Nat) : Bool :=
  s.ready rdyMod && (s.cage k).ident.isSome && s.cageState k != cageEmpty

def State.lifeDue (s : State) (k : Nat) : Bool :=
  s.lifeKept k && decide ((s.cage k).sampledAt + max 1 (s.get MOD.CFG.LIFE_SAMPLE_S 0) * secTicks ≤ s.now)

/-- What the device itself wants a cage's bus for: a life sample, the data path of an ACTIVE module, which is a write of
its own and stops while the host owns the cage (R184), identification, or the Module State of a module out of reset. -/
def State.deviceUse (s : State) (k : Nat) : Option BusUse :=
  if s.lifeDue k then some .life
  else if !s.cageManaged k then none
  else if (s.cage k).pathDue && !s.flag MOD.CAGE_CTRL.HOST_OWNED k then some .dataPath
  else if s.cageState k == cageIdentify then some .identify
  else if s.cageState k == cageReset && (s.cage k).latch.resetL then some .poll
  else none

/-- What a free bus serves next: the host before the device's own transfers (R184), and of the cages that the device wants
it for, the first after the one it served last (log entry 96). -/
def State.busPick (s : State) (b : Nat) : Option (BusUse × Nat) :=
  match s.mod.cmd.filter (fun c => cageBus c.cage == b) with
  | some c => some (.host, c.cage)
  | none =>
    ((List.range 8).map fun i => 8 * b + ((s.bus b).last + 1 + i) % 8).findSome? fun k =>
      (s.deviceUse k).map fun u => (u, k)

/-- A transfer on a bus, nine clocks and a STOP first where the last was abandoned (R168). -/
def State.busOut (s : State) (b : Nat) (o : Out) : State :=
  let s := if (s.bus b).recover then (s.emit (.busRecovery b)).modBus b fun v => { v with recover := false } else s
  s.emit o

/-- The pages that identification reads: lower page 00h, then upper pages 00h, 01h, 02h and 11h (R174). -/
def identifyPages : List (Nat × Nat) := [(0x00, 0), (0x00, 128), (0x01, 128), (0x02, 128), (0x11, 128)]

/-- Identification reads its pages and, where the host does not own the cage, writes a fresh nonce to page C0h, at a place
that the spec does not give (R174, R178, R184; log entry 97). -/
def State.identifyOut (s : State) (b k : Nat) : State :=
  let s := identifyPages.foldl (fun s p => s.busOut b (.moduleBus b cmisAddress k false 0 p.1 p.2 128 [])) s
  if s.flag MOD.CAGE_CTRL.HOST_OWNED k then s.modCage k fun c => { c with nonce := [] }
  else
    let (at_, s) := s.draw
    let (nonce, s) := s.freeBytes 4
    (s.busOut b (.moduleBus b cmisAddress k true 0 0xC0 (at_ % 256) 32 nonce)).modCage k fun c => { c with nonce := nonce }

/-- The transfer of a bus goes out. -/
def State.busStart (s : State) (b : Nat) (u : BusUse) (k : Nat) : State :=
  let s := s.modBus b fun v => { v with running := true, last := if u = .host then v.last else k % 8 }
  match u with
  | .host =>
    match s.mod.cmd with
    | none => s
    | some c => s.busOut b (.moduleBus b cmisAddress k c.write c.bank c.page c.offset c.len c.bytes)
  | .poll => s.busOut b (.moduleBus b cmisAddress k false 0 0 3 1 [])
  | .identify => s.identifyOut b k
  | .dataPath => s.busOut b (.dataPath b cmisAddress k ((s.octetPorts k).map fun p => (p.rate, p.lanes)))
  | .life => s.busOut b (.moduleBus b cmisAddress k false 0 0x11 128 128 [])

/-- The transfer of a bus is over: its cage is deselected. -/
def State.busFree (s : State) (b : Nat) : State :=
  match (s.bus b).cur with
  | none => s
  | some (_, k) =>
    (s.modBus b fun v => { v with cur := none, running := false }).modCage k
      fun c => { c with want := { c.want with selL := true } }

/-- A transfer that waits for its cage to be selected is still wanted. -/
def State.busWants (s : State) (u : BusUse) (k : Nat) : Bool :=
  if u = .host then s.mod.cmd.any fun c => c.cage == k else s.deviceUse k == some u

/-- A bus moves on: one that serves nobody and whose cages are all deselected in their nodes selects the cage it serves
next, and one whose cage alone is selected sends the transfer (R167), unless nothing wants it any more. -/
def State.busStep (s : State) (b : Nat) : State :=
  match (s.bus b).cur with
  | none =>
    if (busCages b).all fun k => (s.cage k).latch.selL && (s.cage k).want.selL then
      match s.busPick b with
      | none => s
      | some (u, k) =>
        (s.modBus b fun v => { v with cur := some (u, k) }).modCage k
          fun c => { c with want := { c.want with selL := false } }
    else s
  | some (u, k) =>
    if (s.bus b).running then s
    else if !s.busWants u k then s.busFree b
    else if (busCages b).all fun j => (s.cage j).latch.selL == (j != k) then s.busStart b u k
    else s

/-- An SB_LD has set the nodes: a state read and a data path end with the frame, and every bus moves on (log entry 96). -/
def State.busFrame (s : State) (b : Nat) : State :=
  let s := match (s.bus b).cur, (s.bus b).running with
    | some (.poll, _), true => s.busFree b
    | some (.dataPath, k), true => (s.busFree b).modCage k fun c => { c with pathDue := false }
    | _, _ => s
  s.busStep b

/-- The bus of a cage is making this transfer for it. -/
def State.busDoes (s : State) (u : BusUse) (k : Nat) : Bool :=
  (s.bus (cageBus k)).running && (s.bus (cageBus k)).cur == some (u, k)

/-- The host's transfer ends with a status (R184). -/
def State.endModCmd (s : State) (status : Nat) : State :=
  match s.mod.cmd with
  | none => s
  | some _ => ((s.modMod fun m => { m with cmd := none }).set MOD.CMD.BUSY 0 0).set MOD.CMD.STATUS 0 status

/-- The transfer of a bus is abandoned: counted, and nine clocks and a STOP come before the next; the host's ends with a
status (R168). -/
def State.abandon (s : State) (b status : Nat) : State :=
  match (s.bus b).cur with
  | none => s
  | some (u, _) =>
    let s := if (s.bus b).running then (s.addSat MOD.BUS_STATUS.ERRORS b 1).modBus b fun v => { v with recover := true }
      else s
    (if u = .host then s.endModCmd status else s).busFree b

/-! ## The sideband chains (R169 to R173) -/

/-- The check word of a frame, most significant byte first (R171). -/
def checkWord : List Byte := [0x5A, 0x3C]

/-- A byte of the chain has odd parity of bits [7:1] in bit 0. -/
def sideParity (v : Nat) : Nat :=
  (1 + natParity (v / 2)) % 2
where
  /-- The number of ones of seven bits. -/
  natParity (v : Nat) : Nat := ((List.range 7).filter fun i => natBit v i).length

def sideOk (b : Byte) : Bool := b.toNat % 2 == sideParity b.toNat

/-- The byte that the device sends to a node (R169). -/
def sideByte (o : NodeOut) : Byte :=
  let v := 128 * b2n o.resetL + 64 * b2n o.lpMode + 32 * b2n o.selL + 16 * b2n o.pwrEn + 8 + 4
  BitVec.ofNat 8 (v + sideParity v)

/-- A node's inputs are used (R173, R174): presence, supply and interrupt. -/
def State.useInputs (s : State) (k : Nat) (b : Byte) : State :=
  let present := !natBit b.toNat 3
  let int := !natBit b.toNat 2
  let was := s.flag MOD.CAGE_STATUS.INT_PENDING k
  let s := s.set MOD.CAGE_STATUS.INT_PENDING k (b2n int)
  let s := s.set MOD.CAGE_STATUS.PWR_GOOD k (b2n (natBit b.toNat 1))
  s.modCage k fun c => { c with
    present := present
    presentSince := if present && !c.present then s.now else c.presentSince
    intDue := c.intDue || (int && !was) }

/-- Cages that what held them holds no more: a module that AUTH_REQUIRED held once the bit is 0, and one whose octet a new
image has made to match (R174). No module moves while MOD is 0 or its chain is at fault. -/
def State.reviewCage (s : State) (k : Nat) : State :=
  match (s.cage k).ident with
  | none => s
  | some id =>
    if !s.cageManaged k then s
    else if s.cageState k == cageHeld && !s.flag MOD.CFG.AUTH_REQUIRED 0 then
      s.enterCage k (if s.matchesOctet k id then cageLowPower else cageMismatch)
    else if s.cageState k == cageMismatch && s.matchesOctet k id then s.enterCage k cageLowPower
    else s

def State.reviewCages (s : State) : State := (List.range 64).foldl State.reviewCage s

/-- What a good frame with SB_LD does: the nodes' latches, CHAIN_FAULT, the inputs where the frame before was loaded too,
and the buses of the chain (R172, R173). `bytes` are those of nodes 31 to 0. -/
def State.frameLoaded (s : State) (c : Nat) (bytes : List Byte) : State :=
  let ch := s.chain c
  let cages := (List.range 32).map (32 * c + ·)
  let s := s.modChain c fun v => { v with begun := true, loaded := true, badRun := 0, goodRun := v.goodRun + 1 }
  let s := cages.foldl (fun s k => s.modCage k fun g => { g with latch := g.want }) s
  let s := if 16 ≤ ch.goodRun + 1 then s.set MOD.CHAIN_STATUS.CHAIN_FAULT c 0 else s
  let s := if ch.loaded && !s.flag MOD.CHAIN_STATUS.CHAIN_FAULT c then
      (cages.zip bytes.reverse).foldl (fun s e => s.useInputs e.1 e.2) s
    else s
  let s := cages.foldl State.reviewCage s
  ((List.range 4).map (4 * c + ·)).foldl State.busFrame s

/-- SIDEBAND_FRAME: a frame of a started chain ends. Sent are the check word and the bytes for nodes 31 to 0; returned,
in the order of the wire, `bytes` of nodes 31 to 0 and then the check word (R171 to R173). The record of a chain fault is
firmware's and needs a warden (R116, R568). -/
def execSidebandFrame (chain : Fin 2) (bytes : List Byte) (check : BitVec 16) (s : State) : Answer :=
  let c := chain.val
  let ch := s.chain c
  if !ch.started then .next s
  else
    let cages := (List.range 32).map (32 * c + ·)
    let ok := bytes.length == 32 && check == 0x5A3C && bytes.all sideOk
    let s := s.emit (.sideband c (checkWord ++ cages.reverse.map fun k => sideByte (s.cage k).want) ok)
    if !ok then
      let s := if ch.begun then s.addSat MOD.CHAIN_STATUS.FRAME_ERRORS c 1 else s
      let s := s.modChain c fun v => { v with begun := true, loaded := false, badRun := v.badRun + 1, goodRun := 0 }
      if 3 ≤ ch.badRun + 1 && !s.flag MOD.CHAIN_STATUS.CHAIN_FAULT c then
        let s := (s.set MOD.CHAIN_STATUS.CHAIN_FAULT c 1).raise MOD.INT_CAUSE.CHAIN
        .next (if s.wardenUp then s.record 0x0901 (leBytes c 1) else s)
      else .next s
    else .next (s.frameLoaded c bytes)

/-- MODULE_INTERRUPT: a module has asserted INT_L and MODULE_INT is raised (R169). -/
def execModuleInterrupt (cage : Fin 64) (s : State) : Answer :=
  if (s.cage cage.val).intDue then
    .next ((s.modCage cage.val fun c => { c with intDue := false }).raise MOD.INT_CAUSE.MODULE_INT)
  else .next s

/-! ## Bringing a module up (R174, R175) -/

/-- CAGE_PRESENCE_DEBOUNCED: PRESENT_L has been low for 100 ms in EMPTY (R174). -/
def execCagePresenceDebounced (cage : Fin 64) (s : State) : Answer :=
  let k := cage.val
  let c := s.cage k
  if s.cageManaged k && s.cageState k == cageEmpty && c.present && decide (c.presentSince + 100 * msTicks ≤ s.now) then
    let s := s.set MOD.CAGE_STATUS.PRESENT k 1
    let s := s.addSat MOD.CAGE_STATUS.INSERTIONS k 1
    let s := s.modCage k fun c => { c with want := { c.want with pwrEn := true } }
    .next (((s.enterCage k cagePowering).refreshBus (cageBus k)).raise MOD.INT_CAUSE.INSERT)
  else .next s

/-- CAGE_PWR_GOOD: the supply of a cage in POWERING is good (R174). -/
def execCagePwrGood (cage : Fin 64) (s : State) : Answer :=
  let k := cage.val
  if s.cageManaged k && s.cageState k == cagePowering && s.flag MOD.CAGE_STATUS.PWR_GOOD k then
    .next ((s.modCage k fun c => { c with want := { c.want with resetL := false } }).enterCage k cageReset)
  else .next s

/-- CAGE_RESET_RELEASE: RESET_L has been low for 10 ms in RESET (R174). -/
def execCageResetRelease (cage : Fin 64) (s : State) : Answer :=
  let k := cage.val
  if s.cageManaged k && s.cageState k == cageReset && decide ((s.cage k).enteredAt + 10 * msTicks ≤ s.now) then
    .next (s.modCage k fun c => { c with want := { c.want with resetL := true } })
  else .next s

/-- MODULE_LOW_POWER_REACHED: the module out of reset reports ModuleLowPwr to the state read under way (R174). -/
def execModuleLowPowerReached (cage : Fin 64) (s : State) : Answer :=
  let k := cage.val
  if s.cageManaged k && s.cageState k == cageReset && s.busDoes .poll k then
    .next (((s.busFree (cageBus k)).enterCage k cageIdentify).busStep (cageBus k))
  else .next s

/-- MOD.CAGE_STATUS.AUTH. -/
def authUntried : Nat := 0
def authUnsupported : Nat := 1
def authPassed : Nat := 2
def authFailed : Nat := 3

/-- A chain from a module's certificate to that of the root holds: each certificate is signed under the key of the next,
what is signed holds the key, and the root's key has the digest in fuses (R178, R590; X.509 itself is outside the spec,
log entry 97). -/
def moduleChainHolds (root : List Byte) : List Cert → Bool
  | [] => false
  | [c] => sha384 c.key == root
  | c :: d :: rest =>
    (List.range (c.signed.length + 1)).any (fun i => (c.signed.drop i).take 97 == c.key) &&
      ecdsaValid d.key c.signed c.r.toNat c.s.toNat && moduleChainHolds root (d :: rest)

/-- The result of the challenge (R178): untried where no nonce was written, since the host owns the cage (R184). -/
def authOf (root nonce : List Byte) (id : ModuleId) : Nat :=
  if nonce.isEmpty then authUntried
  else match id.answer with
    | none => authUnsupported
    | some p =>
      match p.chain with
      | [] => authFailed
      | c :: _ =>
        let message := nonce ++ leBytes id.oui.toNat 3 ++ padTo 16 id.serial ++ id.firmware
        if ecdsaValid c.key message p.r.toNat p.s.toNat && moduleChainHolds root p.chain then authPassed else authFailed

/-- CAGE_IDENTIFY_DONE: identification has read `id`, run the challenge and restored the life account (R174, R178,
R182, R183). A module that AUTH_REQUIRED holds is in AUTH_HELD whether or not it matches (log entry 27). -/
def execCageIdentifyDone (cage : Fin 64) (id : ModuleId) (s : State) : Answer :=
  let k := cage.val
  if !s.cageManaged k || s.cageState k != cageIdentify || !s.busDoes .identify k then .next s
  else
    let s := s.busFree (cageBus k)
    let auth := authOf s.sec.moduleRoot (s.cage k).nonce id
    let serial := padTo 16 id.serial
    let s := s.set MOD.IDENT.OUI k id.oui.toNat
    let s := s.set MOD.IDENT.CMIS_REV k id.cmisRev.toNat
    let s := s.set MOD.IDENT.SERIAL_CRC k (crc32 (2 ^ 32 - 1) serial)
    let s := s.set MOD.CAGE_STATUS.AUTH k auth
    let s := if auth = authFailed then s.record 0x0903 (moduleData k id) else s
    let stored := s.storedWear id
    let w := stored.getD 0 * 2 ^ 64
    let s := s.modCage k fun c => { c with
      ident := some id, wear := List.replicate 8 w, firstBias := [], sampledAt := s.now }
    let s := s.set MOD.LIFE.FROM_ZERO k (b2n stored.isNone)
    let s := (s.showLife k id none).lifeRecord k
    let s := s.refreshBus (cageBus k)
    let s := s.enterCage k (if s.flag MOD.CFG.AUTH_REQUIRED 0 && auth != authPassed then cageHeld
      else if !s.matchesOctet k id then cageMismatch
      else cageLowPower)
    .next (s.busStep (cageBus k))

/-- The port of the octet whose first lane is lowest is enabled (R175). -/
def State.octetEnabled (s : State) (k : Nat) : Bool :=
  match (s.octetPorts k).map (·.port) with
  | [] => false
  | x :: xs => s.flag PORT.CFG.ENABLE (xs.foldl min x)

/-- The lanes of an octet that ports use, where all of them are L425 lanes and there is one (R175). -/
def State.octetL425 (s : State) (k : Nat) : List Nat :=
  let lanes := (List.range 8).map (8 * k + ·)
  if lanes.any (fun l => s.laneStandard l) then [] else lanes.filter fun l => s.laneL425 l

/-- CAGE_ACTIVATE: a cage in LOW_POWER whose lowest port is enabled and that nothing holds loads its taps and leaves low
power, and its data path is to be initialised (R174, R175). The host's ownership stops the device's own CMIS writes, and
taps are no such write (R184). -/
def execCageActivate (cage : Fin 64) (s : State) : Answer :=
  let k := cage.val
  if s.cageManaged k && s.cageState k == cageLowPower && s.octetEnabled k &&
      !s.flag MOD.CAGE_CTRL.HOLD_LOW_POWER k then
    let taps := ((s.cage k).ident.map (·.taps)).getD []
    let s := if s.flag MOD.CFG.APPLY_TAPS 0 then
        (s.octetL425 k).foldl (fun s l => match taps[l % 8]? with
          | some t => s.writeFir l (t &&& 0xFFFFFFFF)
          | none => s) s
      else s
    let s := s.modCage k fun c => { c with want := { c.want with lpMode := false }, pathDue := true }
    .next ((s.enterCage k cageActive).busStep (cageBus k))
  else .next s

/-- The timeout of a cage's state in ticks (R174). -/
def cageLimit (st : Nat) : Option Nat :=
  match st with
  | 1 => some (50 * msTicks)
  | 2 => some (2 * secTicks)
  | 3 => some (5 * secTicks)
  | _ => none

/-- CAGE_TIMEOUT: the state of a cage has exceeded its timeout, or its step has failed (R174). -/
def execCageTimeout (cage : Fin 64) (failed : Bool) (s : State) : Answer :=
  let k := cage.val
  let st := s.cageState k
  let late := match cageLimit st with
    | none => false
    | some d => decide ((s.cage k).enteredAt + d ≤ s.now)
  if s.cageManaged k && decide (cagePowering ≤ st) && decide (st ≤ cageActive) && (failed || late) then
    let s := match (s.bus (cageBus k)).cur with
      | some (u, j) => if j == k && u != BusUse.host then s.busFree (cageBus k) else s
      | none => s
    let s := s.modCage k fun c => { c with want := { c.want with lpMode := true, resetL := false }, pathDue := false }
    .next ((s.set MOD.CAGE_STATUS.FAULT_CAUSE k st).enterCage k cageFault)
  else .next s

/-- A transfer of a cage that is removed ends: the one on its bus is abandoned (R168), and a host command for it ends with
the same status. -/
def State.dropTransfers (s : State) (k status : Nat) : State :=
  let s := match (s.bus (cageBus k)).cur with
    | some (_, j) => if j = k then s.abandon (cageBus k) status else s
    | none => s
  if (s.mod.cmd.map (·.cage)) = some k then s.endModCmd status else s

/-- The STATUS of a host transfer that a removal ends, EMPTY or BUS_FAULT: the spec leaves it open (log entry 26). -/
def State.removalStatus (s : State) : Nat × State :=
  let (v, s) := s.draw
  (if v % 2 = 0 then 2 else 5, s)

/-- MODULE_REMOVE: PRESENT_L of a cage that is not EMPTY has risen (R176). The cage's identity and life fields clear with
it (log entry 24), and a host transfer to it ends. -/
def execModuleRemove (cage : Fin 64) (s : State) : Answer :=
  let k := cage.val
  if !s.cageManaged k || s.cageState k == cageEmpty || (s.cage k).present then .next s
  else
    let (status, s) := s.removalStatus
    let s := s.dropTransfers k status
    let data := match (s.cage k).ident with
      | some id => moduleData k id
      | none => leBytes k 1
    let s := (s.lifeRecord k).record 0x0902 data
    let s := s.modCage k fun c => { present := false, latch := c.latch, want := { selL := c.want.selL } }
    let s := (s.setReg .MOD_IDENT k 0).setReg .MOD_LIFE k 0
    let s := s.set MOD.CAGE_STATUS.PRESENT k 0
    let s := (s.set MOD.CAGE_STATUS.AUTH k 0).set MOD.CAGE_STATUS.FAULT_CAUSE k 0
    .next ((((s.enterCage k cageEmpty).refreshBus (cageBus k)).busStep (cageBus k)).raise MOD.INT_CAUSE.REMOVE)

/-- MOD_BUS_ERROR: the transfer on a bus ends in a bus error, or is interrupted as its module is removed, and is abandoned; a
host's ends with BUS_FAULT on a bus error (R168, R184). -/
def execModBusError (bus : Fin 8) (removed : Bool) (s : State) : Answer :=
  if !(s.bus bus.val).running then .next s
  else if removed then
    let (status, s) := s.removalStatus
    .next ((s.abandon bus.val status).busStep bus.val)
  else .next ((s.abandon bus.val 5).busStep bus.val)

/-! ## Laser life (R179 to R182) -/

/-- Wear that one sample adds to a lane, in 2^-64 hours: temperature in 1/256 °C, biases in one unit (R179). -/
def wearOf (seconds : Nat) (temp : Int) (bias nominal : Nat) : Nat :=
  if nominal = 0 then 0
  else seconds * pow2Fix (temp - 50 * 256) 2560 * bias ^ 2 / (3600 * nominal ^ 2)

/-- LIFE_SAMPLE: the sample interval of a module has passed, and its temperature (1/256 °C) and the biases of its lanes
have been read, with its laser-age observable in percent where it has one (R179 to R181). -/
def execLifeSample (cage : Fin 64) (temp : Int) (bias : List Nat) (age : Option (Fin 101)) (s : State) : Answer :=
  let k := cage.val
  let dt := max 1 (s.get MOD.CFG.LIFE_SAMPLE_S 0)
  match (s.cage k).ident with
  | none => .next s
  | some id =>
    if !s.lifeDue k || !s.busDoes .life k then .next s
    else
      let s := s.busFree (cageBus k)
      let s := s.modCage k fun c =>
        let first := if c.firstBias.isEmpty then bias else c.firstBias
        let nom := fun i => match id.nominal with
          | some v => v
          | none => (first[i]?).getD 0
        { c with
          firstBias := first
          wear := (c.wear.zip (List.range c.wear.length)).map fun e => match bias[e.2]? with
            | none => e.1
            | some b => e.1 + wearOf dt temp b (nom e.2)
          sampledAt := s.now }
      let a := age.map (·.val)
      .next (((s.showLife k id a).lifeWarn k id a).busStep (cageBus k))

/-- LIFE_CHECKPOINT: 24 h have passed since the last MOD_LIFE record of a present module (R182). -/
def execLifeCheckpoint (cage : Fin 64) (s : State) : Answer :=
  let k := cage.val
  if s.lifeKept k && decide ((s.cage k).lifeAt + 86400 * secTicks ≤ s.now) then .next (s.lifeRecord k) else .next s

/-! ## Host transfers (R184) -/

/-- MOD_CMD: a write of MOD.CMD. With GO, and no transfer under way, it starts one, or ends at once as NOT_READY, EMPTY
or NOT_OWNED. The order of these three, and that the other fields take a write while BUSY, are the model's (log entry
92). The transfer waits for the one already on the bus (R184). -/
def execModCmd (value : Word) (s : State) : Answer :=
  if !s.hostReach 0 false then .next s else
  let s := [ MOD.CMD.CAGE, MOD.CMD.PAGE, MOD.CMD.BANK, MOD.CMD.OFFSET, MOD.CMD.LEN, MOD.CMD.WRITE].foldl
    (fun s f => s.set f 0 (bitsOf value f.lo f.width)) s
  if !natBit value.toNat 37 || s.flag MOD.CMD.BUSY 0 then .next s
  else
    let k := s.get MOD.CMD.CAGE 0
    let wr := s.flag MOD.CMD.WRITE 0
    if !s.ready rdyMod then .next (s.set MOD.CMD.STATUS 0 1)
    else if s.cageState k == cageEmpty then .next (s.set MOD.CMD.STATUS 0 2)
    else if wr && !s.flag MOD.CAGE_CTRL.HOST_OWNED k then .next (s.set MOD.CMD.STATUS 0 6)
    else
      let len := clampN 1 8 (s.get MOD.CMD.LEN 0)
      let cmd : ModCmd :=
        { cage := k, write := wr, bank := s.get MOD.CMD.BANK 0, page := s.get MOD.CMD.PAGE 0,
          offset := s.get MOD.CMD.OFFSET 0, len := len,
          bytes := if wr then leBytes (s.get MOD.CMD_DATA.DATA 0) len else [] }
      let s := (s.modMod fun m => { m with cmd := some cmd }).set MOD.CMD.BUSY 0 1
      .next (s.busStep (cageBus k))

/-- MOD_CMD_DONE: the host's transfer, once on its bus, ends; a read that went well puts its bytes into CMD_DATA (R184). -/
def execModCmdDone (outcome : BusEnd) (data : List Byte) (s : State) : Answer :=
  match s.mod.cmd with
  | none => .next s
  | some c =>
    if !s.busDoes .host c.cage then .next s
    else
      let s := if outcome = .ok && !c.write then
          let old := leBytes (s.get MOD.CMD_DATA.DATA 0) 8
          s.set MOD.CMD_DATA.DATA 0 (ofLe (padTo c.len data ++ old.drop c.len))
        else s
      let s := (s.busFree (cageBus c.cage)).endModCmd (match outcome with
        | .ok => 0
        | .nack => 3
        | .timeout => 4)
      .next (s.busStep (cageBus c.cage))

/-! ## What other blocks do to the cages -/

/-- The hub leaves reset: the chains start (R172). -/
def State.startChains (s : State) : State := { s with mod := { chains := [(0, { started := true }), (1, { started := true })] } }

end Sys2Proof.Machine
end

