-- ==== Sys2Proof/Machine/Loads.lean ====
section
/-!
DEFINITION. The load of an image: its start, its checks as its bytes arrive, and its apply (R71 to R78, R101 to R104,
R629).
-/

namespace Sys2Proof.Machine

/-! ## Start and abort (R72, R73) -/

/-- A write of CFG.LOAD_CTRL: its RW fields, then ABORT, which abandons a load before APPLY, then START, which is BUSY
while a load is in progress; SOURCE 3 is rejected with LENGTH. -/
def State.writeLoadCtrl (s : State) (value : Word) : State :=
  let s := (s.set CFG.LOAD_CTRL.SOURCE 0 (bitsOf value 2 2)).set CFG.LOAD_CTRL.LIST 0 (bitsOf value 4 1)
  let s := s.set CFG.LOAD_CTRL.VERIFY_ONLY 0 (bitsOf value 8 1)
  let s := if bitsOf value 1 1 = 1 && s.loadOpen then s.rejectLoad 0x13 255 else s
  if bitsOf value 0 1 = 0 then s
  else
    let source := bitsOf value 2 2
    if s.loading then s.rejectReport 0x10 255 source 0
    else
      let s := s.startLoad source (bitsOf value 8 1 == 1) (bitsOf value 4 1 == 1)
      if source = 3 then s.rejectLoad 0x02 255 else s

/-- HOST_LOAD_START: a write of CFG.LOAD_CTRL with START. -/
def execHostLoadStart (value : Word) (s : State) : Answer :=
  if !s.hostReach 0 true then .next s else
  .next (s.writeLoadCtrl value)

/-- LOAD_ABORT: a write of CFG.LOAD_CTRL with ABORT. -/
def execLoadAbort (value : Word) (s : State) : Answer :=
  if !s.hostReach 0 true then .next s else
  .next (s.writeLoadCtrl value)

/-! ## Checks (R73) -/

/-- Registers cleared at the start of APPLY: those of PIPE, TBL but for TABLE_SEED, POL, CELL, QM, MC, TEL, HBM but for
STATUS, ECC and FAIL_CFG, and the port counters. -/
def applyRegs : List Reg :=
  ((slotsPIPE ++ slotsTBL ++ slotsPOL ++ slotsCELL ++ slotsQM ++ slotsMC ++ slotsTEL ++ slotsHBM).map (·.reg)).filter
    (fun r => !([Reg.TBL_TABLE_SEED, .HBM_STATUS, .HBM_ECC, .HBM_FAIL_CFG].contains r)) ++ [Reg.PORT_COUNTER]


/-- The cause of a read that failed: DMA_ERROR or FLASH_ERROR. -/
def LoadRec.readCause (l : LoadRec) : Nat := if l.source = 0 then 0x11 else 0x12

/-- A host load cannot read while the physical function's Bus Master Enable is 0 (R508). -/
def State.loadFailed (s : State) (l : LoadRec) (readFailed : Bool) : Bool := readFailed || (l.source == 0 && !s.hif.pfBme)

/-- A scatter list of at most `n` entries of 16 bytes, address, length and flags: its parts up to the one that flags bit 0
marks as the last. Every length but the last is a multiple of 4 KiB; a list that is not so, or that no entry ends, gives
none (R72; log entry 80). -/
def scatterList : Nat → List Byte → Option (List (Nat × Nat))
  | 0, _ => none
  | n + 1, bs =>
    let part := (leField bs 0 8, leField bs 8 4)
    if bs.length < 16 then none
    else if leField bs 12 4 % 2 = 1 then some [part]
    else if part.2 % 4096 ≠ 0 then none
    else (scatterList n (bs.drop 16)).map fun ps => part :: ps

/-- The parts of host memory that hold the image: those of its scatter list, or TOTAL_LEN bytes from LOAD_ADDR. -/
def LoadRec.parts (l : LoadRec) (h list : List Byte) : List (Nat × Nat) :=
  if l.list then (scatterList (list.length / 16) list).getD [] else [(l.addr, leField h 8 8)]

/-- The scatter list of a host load does not cover TOTAL_LEN (step 2). -/
def LoadRec.short (l : LoadRec) (h list : List Byte) : Bool :=
  l.source == 0 && l.list && decide (((l.parts h list).map (·.2)).sum < leField h 8 8)

/-- The parts of host memory that hold `n` bytes of the image from an offset. -/
def partsOf : List (Nat × Nat) → Nat → Nat → List (Nat × Nat)
  | [], _, _ => []
  | (a, len) :: ps, off, n =>
    if n = 0 then []
    else if len ≤ off then partsOf ps (off - len) n
    else
      let m := min n (len - off)
      (a + off, m) :: partsOf ps 0 (n - m)

/-- The device asks for the next body of a host load. -/
def State.fetchNext (s : State) (l : LoadRec) : State :=
  match l.toCome with
  | [] => s
  | i :: _ => match l.sections[i]? with
    | none => s
    | some e => if l.source = 0 then (partsOf l.extents e.offset e.length).foldl (fun s p => s.emit (.fetch p.1 p.2)) s else s

/-- IMAGE_HEADER_CHECK: `head` are the bytes of the image up to the end of the section table, `sig` the signature block,
`list` those of the scatter list; steps 1 to 11 and 14. -/
def execImageHeaderCheck (head sig list : List Byte) (readFailed : Bool) (s : State) : Answer :=
  match s.cf.load with
  | none => .next s
  | some l =>
    if l.checked then .next s
    else
      let l := { l with
        kind := leField head 0x14 1, troupe := leField head 0x15 1, memMode := leField head 0x16 1,
        keySlot := leField head 0x17 1, serial := leField head 0x18 8, bytes := head.length + sig.length,
        extents := l.parts head list }
      let s := (s.setLoad (some l)).set CFG.LOAD_STATUS.KIB_DONE 0 (l.bytes / 1024)
      match s.imageCause head sig (s.loadFailed l readFailed) (l.short head list) l.readCause with
      | (0, _) =>
        let t := sectionTable head
        let l := { l with checked := true, sections := t, toCome := byOffset t, digest := sha384 (signedRegion head) }
        .next (((s.setLoad (some l)).set CFG.LOAD_STATUS.STATE 0 loadVerify).fetchNext l)
      | (cause, section_) => .next (s.rejectLoad cause section_)

/-- Section types of which a body is still to come. -/
def LoadRec.missing (l : LoadRec) : List Nat := l.toCome.filterMap fun i => (l.sections[i]?).map (·.type)

/-- The registers in force with troupe n's staged values in their place, as the closing commit of a troupe image finds
them (R82, R102). -/
def State.troupeStaged (s : State) (n : Nat) : RegFile :=
  s.committed { by_ := .troupeApply n, scope := some n, defer := true, phase := .check, pendingSet := s.staging }

/-- The first check of steps 12 and 13 that fails, of those that the body just passed completes. What a full image's apply
does not clear, PORT.PFC_CFG among it, counts with its staged value, which the closing commit puts in force (R77, R288). -/
def State.bodyCause (s : State) (l : LoadRec) (type : Nat) : Option Nat :=
  let bs := l.bodies.map (·.2)
  let checks := if l.kind = 0 then fullChecks (s.staging.filter fun e => !(applyRegs.any fun r => e.1 % 1024 == r.ctorIdx))
      l.memMode bs
    else troupeChecks (s.troupeStaged l.troupe) s.image (s.cf.full.getD {}) l.troupe bs
  (checks.find? fun c => c.needs.contains type && !(c.needs.any fun t => l.missing.contains t) && !c.good).map (·.cause)

/-- A body as a section of a length holds it, and its digest: that of a REG_INIT body's own bytes, and of a body whose
encoding the spec does not give the digest that its bytes have (log entry 6). -/
def sizedBody (n : Nat) : SectionBody → SectionBody
  | .regInit bytes => .regInit (padTo n bytes)
  | b => b
def bodyDigest (given : List Byte) : SectionBody → List Byte
  | .regInit bytes => sha384 bytes
  | _ => given

/-- SECTION_BODY_CHECK: the next body, in ascending OFFSET, has streamed in: its digest, then the checks of steps 12 and
13 that it completes. A section of unknown type has its digest checked and is skipped. After the last, a load that only
verifies is DONE. -/
def execSectionBodyCheck (digest : List Byte) (body : SectionBody) (readFailed : Bool) (s : State) : Answer :=
  match s.cf.load with
  | none => .next s
  | some l =>
    if !l.checked || l.verified then .next s
    else match l.toCome with
      | [] => .next s
      | i :: rest =>
        match l.sections[i]? with
        | none => .next s
        | some e =>
          let known := (sectionLimit e.type).isSome
          let body := sizedBody e.length body
          let l := { l with
            toCome := rest, bodies := if known then l.bodies ++ [(i, body)] else l.bodies, bytes := l.bytes + e.length }
          if s.loadFailed l readFailed then .next (s.rejectLoad l.readCause 255)
          else
            let s := (s.setLoad (some l)).set CFG.LOAD_STATUS.KIB_DONE 0 (l.bytes / 1024)
            if bodyDigest digest body ≠ e.digest then .next (s.rejectLoad 0x0F i)
            else if known && bodyType body != some e.type then .next (s.rejectLoad 0x0D i)
            else match s.bodyCause l e.type with
              | some cause => .next (s.rejectLoad cause i)
              | none =>
                if !rest.isEmpty then .next (s.fetchNext l)
                else if l.verifyOnly then .next s.loadDone
                else .next (s.setLoad (some { l with verified := true }))

/-! ## The apply of a full image (R75, R76, R629) -/

/-- Packets, flights, descriptors, queues, cells and everything counted over them are discarded; lanes, links and what the
ports know of their partners stay. -/
def State.clearSwitch (s : State) : State :=
  let pipes := s.sw.pipes.map fun e => (e.1, ({ tokens := e.2.tokens, epochs := e.2.epochs, idleSince := s.now } : Pipe))
  let ports := s.sw.ports.map fun e => (e.1, { e.2 with
    rx := none, rxRefused := false, rxBytes := [], efifo := [], sending := none, flight := 0, holdEnd := none, winActive := none,
    winPending := none, gates := 0, ePrev := none })
  let sw : Switch :=
    { links := s.sw.links, nextTransfer := s.sw.nextTransfer, lastLink := s.sw.lastLink, lanes := s.sw.lanes, ports := ports, pipes := pipes, nextPacket := s.sw.nextPacket,
      nextFlight := s.sw.nextFlight, nextSpill := s.sw.nextSpill }
  { s with sw := sw, tb := {}, tel := {}, hbm := { tries := s.hbm.tries, uncorrAt := s.hbm.uncorrAt } }

/-- Commits at the start of APPLY: one that waits is refused with LOAD_ACTIVE, one that drains is DONE (R629). -/
def State.endCommits (s : State) : State :=
  let s := s.cf.commits.foldl (fun s c =>
    if c.phase == .waitDrain then s.refuseCommit c 5
    else
      let s := (s.setCommit c CFG.COMMIT_STATUS.STATE csDone).setCommit c CFG.COMMIT_STATUS.DONE_SEEN 1
      s.raiseCommit c CFG.INT_CAUSE.COMMIT_DONE WIN.INT_CAUSE.COMMIT_DONE) s
  { s with cf := { s.cf with commits := [], old := [], due := [], fenceFirst := none, fenceFn := none } }.set
    CFG.DRAIN_STATUS.DRAINING 0 0

/-- The bits of TOP.READY that the start of APPLY clears. -/
def applyBits : List Nat := [rdyImage, rdyRim 0, rdyRim 1, rdyRim 2, rdyRim 3, rdyQm, rdyCell, rdyMod]

/-- What HIF and the windows show of an image. -/
def State.showTroupes (s : State) (im : Image) : State :=
  let s := s.setEach HIF.TX_CFG.PIPE im.txPipe (·.1) (·.2)
  let s := [RingKind.rx, .tx, .tlm, .rpt].foldl (fun s k =>
    let (ring, owner) := match k with
      | .rx => (HIF.RX_STATUS.RING, HIF.RX_STATUS.TROUPE) | .tx => (HIF.TX_STATUS.RING, HIF.TX_STATUS.TROUPE)
      | .tlm => (HIF.TLM_STATUS.RING, HIF.TLM_STATUS.TROUPE) | .rpt => (HIF.RPT_STATUS.RING, HIF.RPT_STATUS.TROUPE)
    (s.setEach ring (List.range (ringTotal k)) id id).setEach owner (List.range (ringTotal k)) id (s.ringOwner k)) s
  (List.range 64).foldl (fun s n =>
    let plan := im.troupes.find? fun t => t.troupe == n
    let s := s.setTroupeState n (b2n (n == 0 || plan.isSome))
    let ports := s.ownPorts n
    let s := (s.set WIN.RES0.POL_FIRST n ((plan.map (·.policerFirst)).getD 0)).set WIN.RES0.POL_COUNT n
      ((plan.map (·.policerCount)).getD 0)
    let s := ((s.clearReg .WIN_RES1 n []).set WIN.RES1.PORTS n ports.length).set WIN.RES1.RX_RINGS n
      (ownedBy im.rxOwner 512 n).length
    let s := (s.set WIN.RES1.TX_RINGS n (ownedBy im.txOwner 512 n).length).set WIN.RES1.RPT_RINGS n
      (ownedBy im.rptOwner 32 n).length
    let s := s.set WIN.RES1.CMD_BLOCKS n (ownedBy im.cmdOwner 32 n).length
    let s := s.set WIN.RES1.CAPTURE n (b2n (im.hbm.captureGb != 0 && im.hbm.captureTroupe == n))
    (List.range 128).foldl (fun s j =>
      let s := s.clearReg .WIN_PORT_MAP (128 * n + j) []
      match ports[j]? with
      | some x => (s.set WIN.PORT_MAP.PORT (128 * n + j) x).set WIN.PORT_MAP.VALID (128 * n + j) 1
      | none => s) s) s

/-- The contents of a full image are written: its structures, what registers show of them, and its REG_INIT records in
order (R77). -/
def State.writeImage (s : State) (im : Image) : State :=
  let old := s.image
  let s := { s with cf := { s.cf with image := some im, full := some im } }
  let s := ((((s.showPlans im).placeLanes old).showSeeds im.tables).showStores im).showTroupes im
  im.regInit.foldl (fun s e => s.regInit e.1 (BitVec.ofNat 64 e.2)) s

/-- A port is taken down without a hold: its queues have gone (R75). -/
def State.applyPortDown (s : State) (x : Nat) : State :=
  ((s.set QM.PORT_STATUS.STATE x qmDown).set PORT.STATUS.READY x 0).portDown x

/-- IMAGE_APPLY: a verified full image enters APPLY, once no commit is in CHECK or FENCE (R75, R629). -/
def execImageApply (s : State) : Answer :=
  match s.cf.load with
  | none => .next s
  | some l =>
    if !l.verified || l.kind ≠ 0 || s.get CFG.LOAD_STATUS.STATE 0 = loadApply ||
        s.cf.commits.any (fun c => c.phase == .check || c.phase == .fence) then .next s
    else
      let s := s.set CFG.LOAD_STATUS.STATE 0 loadApply
      let s := s.image.ports.foldl (fun s p => s.applyPortDown p.port) s
      let s := s.endCommits
      let s := s.cf.latches.foldl (fun s p => s.dropLatch p pairReload) s
      let s := (List.range 64).foldl (fun s n => if n = 0 then s else s.vfReset n) s
      let s := applyBits.foldl (fun s b => s.setReady b false false) s
      let s := (List.range 64).foldl (fun s n => (s.setTroupeReady n false).measureTroupe n none) s
      let s := s.clearSwitch.clearBlocks applyRegs [CELL.LEASE_STATUS.MAX, TEL.TROUPE_FLOW.MAX_FLOWS]
      let s := (List.range 64).foldl State.resetRings s
      let s := { s with hif := { s.hif with coal := [], rxWait := [], moving := none } }
      let s := s.set HIF.TROUPE_CTRL.BUSY 0 0
      let s := (s.clearBlocks [.CFG_TROUPE_SERIAL, .CFG_IMAGE_INFO, .CFG_IMAGE_MODE] []).setMeas3 zeroDigest
      .next ((s.writeImage (buildFull l.memMode (l.bodies.map (·.2)))).refreshInts)

/-- The stacks after an apply: those that the memory mode uses wake, those of a ledger are zeroed, and with Shallow both
go to power-down (R445, R446). -/
def State.applyStacks (s : State) : State :=
  [0, 1].foldl (fun s k =>
    if s.hbmState k == hbmReady || s.hbmState k == hbmPowerDown then
      if s.image.memMode = 0 then s.set HBM.STATUS.STATE k hbmPowerDown
      else
        let s := s.set HBM.STATUS.STATE k hbmReady
        s.modHbm fun h => { h with zeroed := if s.ledgerStacks.contains k then k :: h.zeroed else h.zeroed }
    else s) s

/-- The device's closing package commit of a full image's apply: no packet is there to hold an old bit (R77, R85). -/
def State.closingCommit (s : State) : State :=
  let c : CommitRec := { by_ := .imageApply, scope := none, defer := true, phase := .fence, pendingSet := s.staging }
  let c := { c with troupes := s.scopeTroupes c }
  let s := { s with cf := { s.cf with commits := s.cf.commits ++ [c] } }
  let s := s.fence c
  { s with cf := { s.cf with commits := s.cf.commits.filter fun d => d.by_ != .imageApply } }

/-- Pools as carved: every cell is free, and LOW_WATER begins there (R331). -/
def State.carvePools (s : State) : State :=
  let s := (s.refreshPool 0).refreshPool 1
  let s := [0, 1].foldl (fun s k => s.set CELL.POOL_STATUS.LOW_WATER k (s.get CELL.POOL_STATUS.FREE_CELLS k)) s
  s.refreshReserved.refreshRecords

/-- IMAGE_APPLY_END: the apply of a full image ends (R77, R112, R117, R286). -/
def execImageApplyEnd (s : State) : Answer :=
  match s.cf.load with
  | none => .next s
  | some l =>
    if !s.fullApply then .next s
    else
      let im := s.image
      let s := s.carvePools.closingCommit.polReset
      let s := (s.applyStacks.setReady rdyImage true false).setReady rdyQm true false
      let s := s.setReady rdyCell true false
      let s := ((List.range 4).foldl State.refreshRim s).refreshMod
      let s := im.troupes.foldl (fun s t => s.setTroupeReady t.troupe true) s
      let s := (List.range 64).foldl (fun s n => (s.refreshFlows n).refreshSpill n) s
      let s := (s.set CFG.IMAGE_INFO.SERIAL 0 l.serial).set CFG.IMAGE_MODE.MEM_MODE 0 im.memMode
      let s := (s.set CFG.IMAGE_MODE.KEY_SLOT 0 l.keySlot).set CFG.IMAGE_MODE.LOADED 0 1
      let s := s.set CFG.IMAGE_MODE.SOURCE 0 l.source
      let s := if l.source = 0 then s else s.set CFG.BOOT.LAST_BOOT_SLOT 0 (l.source - 1)
      .next (((s.setMeas3 l.digest).imageRecord l).loadDone.reviewCages)

/-! ## The apply of a troupe image (R101 to R103) -/

/-- The queues of a troupe's ports are flushed, and the ports go on (R103). The copies count as those that a hold's expiry
flushes, under HOLD_FLUSH and in PORT_FLUSHED, and the queues of its receive rings are not among them: the spec says neither
(DESIGN CHOICE, log entry 83). -/
def State.flushTroupe (s : State) (n : Nat) : State :=
  (s.ownPorts n).foldl (fun s x =>
    let es := (s.portQueues x).flatMap fun q => (s.queue q).map fun e => (q, e)
    let s := (s.portQueues x).foldl (fun s q => s.setQueue q []) s
    es.foldl (fun s e => s.flushEntry x e.1 e.2) s) s

/-- A REG_INIT record of a troupe image acts on structures that are at work, as a write of its register does: a port is
enabled or goes down (R162, R164), a policer and a shaper take their pairs (R286, R349), transmit settings reach the
lane (R140), and a ring is enabled or disabled (R522). -/
def State.regInitLive (s : State) (off : Nat) (w : Word) : State :=
  match pfTarget off with
  | none => s
  | some t =>
    let i := t.idx
    let shaper := fun (k : Nat) => ((s.regInit off w).pairRefill k).shaperEnable k (s.shaperOn k)
    match t.reg with
    | .PORT_CFG => if bitsOf w 0 1 = 1 then s.enablePort i w else s.disablePort i w
    | .POL_CFG => (s.regInit off w).polPair i (s.get POL.CFG.RATE_KBPS i) (s.get POL.CFG.CBS_BYTES i)
    | .QM_PORT_SHAPER => shaper (portShaper i)
    | .QM_CG_SHAPER => shaper (cgShaper i)
    | .QM_QSHAPER => shaper (queueShaper i)
    | .LANE_TX_FIR => s.writeFir i w
    | .HIF_RX_CFG => s.writeRingCfg 0 .rx i w
    | .HIF_TX_CFG => s.writeRingCfg 0 .tx i w
    | .HIF_TLM_CFG => s.writeRingCfg 0 .tlm i w
    | .HIF_RPT_CFG => s.writeRingCfg 0 .rpt i w
    | _ => s.regInit off w

/-- TROUPE_IMAGE_APPLY: a verified troupe image is written to the inactive copy of the troupe's region, or with the troupe
halted, and its REG_INIT records to the staging copies; its closing commit then waits for its turn (R102, R103). -/
def execTroupeImageApply (s : State) : Answer :=
  match s.cf.load with
  | none => .next s
  | some l =>
    if !l.verified || l.kind ≠ 1 || s.get CFG.LOAD_STATUS.STATE 0 = loadApply then .next s
    else
      let n := l.troupe
      let bs := l.bodies.map (·.2)
      let s := s.set CFG.LOAD_STATUS.STATE 0 loadApply
      let twin := (s.troupePlan n).any (·.doubleBuffer)
      let s := if twin then s else (s.setTroupeReady n false).flushTroupe n
      let s := (regRecords bs).foldl (fun s e => s.regInitLive e.1 (BitVec.ofNat 64 e.2)) s
      let c : CommitRec :=
        { by_ := .troupeApply n, scope := some n, defer := true, phase := .check, pendingSet := s.staging,
          change := some (.load n bs) }
      .next ({ s with cf := { s.cf with commits := s.cf.commits ++ [c] } }.forceFlows n)

end Sys2Proof.Machine
end

