-- ==== Sys2Proof/Machine/Package.lean ====
section
/-!
DEFINITION. The package: power, the resets and what survives them (R108, R109, R606 to R610), the monitors (R618,
R619) and the JTAG port (R616, R617).
-/

namespace Sys2Proof.Machine

/-! ## What survives a reset (R108) -/

/-- Registers of the keeper domain that a main-domain reset keeps whole: the boot count, the monitors, BBX.STATUS and
STATUS2, the floor of image serials, and the SEC block. -/
def mainKept : List Reg :=
  [.TOP_BOOT_INFO, .TOP_MON_STATUS, .TOP_MON_READING, .BBX_STATUS, .BBX_STATUS2, .CFG_SERIAL_FLOOR,
   .SEC_UNIT_ID_LO, .SEC_UNIT_ID_HI, .SEC_STATUS, .SEC_OWNER_SLOT, .SEC_OWNER_HASH, .SEC_KEY_CTRL, .SEC_KEY_BUF,
   .SEC_FW_CTRL, .SEC_FW_ADDR, .SEC_FW_STATUS, .SEC_FW_BOOT, .SEC_INT_CAUSE, .SEC_INT_EN]

/-- Registers that live in fuses, which every reset keeps whole. -/
def fuseRegs : List Reg := [.SEC_UNIT_ID_LO, .SEC_UNIT_ID_HI, .SEC_OWNER_SLOT, .SEC_OWNER_HASH]

/-- The entries of a register file that belong to the registers of a list. -/
def keepRegs (rs : List Reg) (rf : RegFile) : RegFile := rf.filter fun e => rs.any fun r => e.1 % 1024 == r.ctorIdx

/-- A field of another state is taken over. -/
def State.carry (s old : State) (f : Fld) : State := s.set f 0 (old.get f 0)

/-- A main-domain reset (R108, R630): everything outside the keeper domain. The keeper domain, the RWK fields, the SEC
block and the black box stay; measurements 2 and 3 have no source any more (R575). The model's own counter, its log and
the queue of commands stay. -/
def State.mainReset (s : State) : State :=
  let t : State :=
    { regs := keepRegs mainKept s.regs, bbx := { s.bbx with reading := none },
      sec := { s.sec with troupeImages := [], verified := none, fwSlots := [], spdm := tabDel s.sec.spdm 0 },
      pkg := { s.pkg with hubUp := false, pcieTraining := false },
      drawn := s.drawn, out := s.out, pending := s.pending }
  let t := (t.carry s CFG.BOOT.PREFERRED_SLOT).carry s CFG.BOOT.FLASH_BOOT_EN
  let t := t.set TOP.READY.BITS 0 (s.get TOP.READY.BITS 0 % 8)
  let t := (t.set BBX.LOSS.QUEUE_FILL 0 s.bbx.queue.length).set SEC.FW_BOOT.RUNNING_VERSION 0 0
  let t := t.setReg .TOP_INT_CAUSE 0 (bitsToNat t.topSources)
  ((t.setMeas2 zeroDigest).setMeas3 zeroDigest).emit (.pin "SPI_RESET_N" 0)

/-- The hub leaves a main-domain reset (R606, R608): the governor, the sideband chains, the HBM stacks, the Lerar links,
the flash reads of firmware and image and, with PERST# deasserted, the PCI Express link start (R71, R172, R444, R587,
R630); TIME_REF_SEL is sampled (R610). -/
def State.hubStart (s : State) (ref25 : Bool) : State :=
  let s := { s with pkg := { s.pkg with hubUp := true, ref25 := ref25, pcieTraining := s.pkg.perstN } }
  let s := (s.set TIME.STATUS.REF_25M 0 (b2n ref25)).record 0x0102 (leBytes (s.get TOP.BOOT_INFO.LAST_RESET 0) 1)
  let s := ((s.hubStartsPace.startChains).trainStack 0).trainStack 1
  let s := (List.range 64).foldl State.trainLink s
  let fw := s.get SEC.FW_BOOT.PREFERRED 0
  let s := (s.modSec fun c => { c with fwSlots := [fw, 1 - fw] }).emit (.pin "SPI_RESET_N" 1)
  if s.flag CFG.BOOT.FLASH_BOOT_EN 0 then
    let slot := s.get CFG.BOOT.PREFERRED_SLOT 0
    State.startLoad { s with cf := { s.cf with bootSlots := [2 - slot] } } (slot + 1) false false
  else s

/-- The boot is counted with its cause (R109). -/
def State.countBoot (s : State) (cause : Nat) : State :=
  (s.addWrap TOP.BOOT_INFO.BOOT_COUNT 0 1).set TOP.BOOT_INFO.LAST_RESET 0 cause

/-! ## Monitors (R618, R619) -/

/-- The ports of a rim die have no reference: their lanes lose clock recovery (R161, R619). -/
def State.dieNoRef (s : State) (d : Nat) : State :=
  (s.image.ports.filter fun p => p.port / 128 == d).foldl (fun s p =>
    let s := (s.lanesOf p.port).foldl (fun s l => s.faultLane p.port l .cdrLock) s
    s.refreshClear p.port) s

/-- A monitor trips: ACTIVE and SEEN, READING and the count, and one MON_TRIP within its limit, or what R383 says of the
time reference. -/
def State.monitorTrip (s : State) (mon reading : Nat) : State :=
  let s := s.set TOP.MON_STATUS.ACTIVE 0 (natSetBit (s.get TOP.MON_STATUS.ACTIVE 0) mon true)
  let s := s.set TOP.MON_STATUS.SEEN 0 (natSetBit (s.get TOP.MON_STATUS.SEEN 0) mon true)
  let s := (s.set TOP.MON_READING.READING mon reading).addSat TOP.MON_READING.TRIPS mon 1
  if mon = 17 then s.refLost
  else
    let boot := s.get TOP.BOOT_INFO.BOOT_COUNT 0
    let last := tabFind s.pkg.monRecord mon
    let free := if mon = 10 || mon = 11 then last.isNone else last != some boot
    let s := if free then
        (s.modPkg fun p => { p with monRecord := tabPut p.monRecord mon boot }).record 0x0F01
          (leBytes mon 1 ++ leBytes reading 4)
      else s
    if 12 ≤ mon && mon ≤ 15 then s.dieNoRef (mon - 12) else s

/-- MONITOR_TRIP: a monitor that is not active trips with a reading (R619). -/
def execMonitorTrip (monitor : Fin 22) (reading : BitVec 32) (s : State) : Answer :=
  if !s.pkg.keep || natBit (s.get TOP.MON_STATUS.ACTIVE 0) monitor.val then .next s
  else .next (s.monitorTrip monitor.val reading.toNat)

/-- MONITOR_CLEAR: a monitor's quantity has been back in range for 1 ms (R618). -/
def execMonitorClear (monitor : Fin 22) (s : State) : Answer :=
  .next (s.set TOP.MON_STATUS.ACTIVE 0 (natSetBit (s.get TOP.MON_STATUS.ACTIVE 0) monitor.val false))

/-! ## Keeper power (R108, R112, R565, R604) -/

/-- What is left while VDD_KEEP is away: fuses and the black box's records (R108, R565). BOOT_COUNT counts from the
first application of VDD_KEEP on and is kept in the keeper domain, so it is lost with it (R109). -/
def State.keeperLost (s : State) : State :=
  let t : State :=
    { regs := keepRegs fuseRegs s.regs
      bbx := { pinned := s.bbx.pinned, ring := s.bbx.ring }
      sec := { chainLoaded := false, ownerKeys := s.sec.ownerKeys, vendorHash := s.sec.vendorHash,
               moduleRoot := s.sec.moduleRoot }
      pkg := { keep := false, perstN := s.pkg.perstN, sysResetN := s.pkg.sysResetN }
      drawn := s.drawn, out := s.out, pending := s.pending }
  ((t.carry s SEC.STATUS.SVN).carry s SEC.STATUS.VENDOR_REVOKED).carry s BBX.STATUS2.BREAKS

/-- VDD_KEEP_LOSS: VDD_KEEP, and with it every rail, goes (R565, R604, R607). `torn`: it goes in the middle of the write
of the oldest queued record, whose slot is left with a CHAIN that nothing states (R567). -/
def execVddKeepLoss (torn : Bool) (s : State) : Answer :=
  let s := match torn && s.bbx.scanned, s.bbx.queue with
    | true, r :: _ =>
      let (v, s) := s.draw
      let r := { r with seq := s.bbx.nextSeq, chain := leBytes v 8 }
      if pinnedCodes.contains r.code && decide (s.bbx.pinned.length < 2048) then
        s.modBbx fun b => { b with pinned := tabPut b.pinned b.pinned.length { r with pinned := true } }
      else s.modBbx fun b => { b with ring := tabPut b.ring b.nextRing r }
    | _, _ => s
  .next s.keeperLost

/-- KEEPER_POWER_ON: VDD_KEEP rises into tolerance (R108): all takes its reset value but fuses and records; the chain is
loaded, the alias key is derived and KEEPER_ON waits for the scan (R567, R574, R577). -/
def execKeeperPowerOn (s : State) : Answer :=
  if s.pkg.keep then .next s
  else
    let s := s.keeperLost
    let s := s.modPkg fun p => { p with keep := true, keepNow := 0 }
    let s := (s.modSec fun c => { c with chainLoaded := true }).derive
    .next ((s.modBbx fun b => { b with queue := [keeperOnRecord] }).set BBX.LOSS.QUEUE_FILL 0 1)

/-- KEEPER_RUNNING: 5 ms after VDD_KEEP the KEEPER bit sets (R112). -/
def execKeeperRunning (s : State) : Answer :=
  if s.pkg.keep && decide (5 * msTicks ≤ s.pkg.keepNow) then .next (s.setReady rdyKeeper true false) else .next s

/-! ## Main power and device resets (R606 to R609) -/

/-- MAIN_POWER_ON: MAIN_PG rises with TIME_REF_SEL (`ref25`: high) and TEST_EN at their levels. THERMTRIP_N rises (R609),
the boot is counted as a main power-on, and the hub leaves reset (R606), unless SYS_RESET_N holds it (R608; log entry
108). -/
def execMainPowerOn (ref25 testEn : Bool) (s : State) : Answer :=
  if !s.pkg.keep || s.pkg.mainPg then .next s
  else
    let s := s.mainReset.countBoot 2
    let s := if s.pkg.trip then (s.modPkg fun p => { p with trip := false }).emit (.pin "THERMTRIP_N" 1) else s
    let s := s.modPkg fun p => { p with mainPg := true }
    let s := if s.pkg.sysResetN then s.hubStart ref25 else s
    .next (if testEn && !natBit (s.get TOP.MON_STATUS.ACTIVE 0) 21 then s.monitorTrip 21 1 else s)

/-- MAIN_PG_FALL: MAIN_PG falls and a main-domain reset begins (R606). -/
def execMainPgFall (s : State) : Answer :=
  if !s.pkg.mainPg then .next s else .next (s.mainReset.modPkg fun p => { p with mainPg := false })

/-- SYS_RESET: SYS_RESET_N has been low for so many ticks: from 1 µs on a device reset, shorter ignored (R608). -/
def execSysReset (lowTicks : Nat) (s : State) : Answer :=
  if lowTicks < usTicks || !s.pkg.sysResetN then .next s
  else
    let s := if s.pkg.mainPg then s.mainReset.countBoot 3 else s
    .next (s.modPkg fun p => { p with sysResetN := false })

/-- SYS_RESET_N_RELEASE: SYS_RESET_N rises; with MAIN_PG high the hub leaves its device reset, sampling TIME_REF_SEL
(R608, R610). -/
def execSysResetNRelease (ref25 : Bool) (s : State) : Answer :=
  if s.pkg.sysResetN then .next s
  else
    let s := s.modPkg fun p => { p with sysResetN := true }
    .next (if s.pkg.mainPg && !s.pkg.hubUp then s.hubStart ref25 else s)

/-- RESET_CTRL_WRITE: a 64-bit write of TOP.RESET_CTRL by a function. With DEVICE and KEY, from the physical function, it
starts a device reset, which the hub leaves at once; TIME_REF_SEL is sampled at the edges of MAIN_PG and SYS_RESET_N
alone (R111, R610). -/
def execResetCtrlWrite (fn : FnNo) (value : Word) (s : State) : Answer :=
  if !s.hostReach fn.val true then .next s else
  if fn.val ≠ 0 || bitsOf value 0 1 ≠ 1 || bitsOf value 16 16 ≠ 0x2048 || !s.pkg.mainPg then .next s
  else
    let s := s.mainReset.countBoot 4
    .next (if s.pkg.sysResetN then s.hubStart s.pkg.ref25 else s)

/-! ## JTAG (R616, R617) -/

/-- The instruction register takes a code. -/
def State.jtag (s : State) (code : Nat) : State := s.modPkg fun p => { p with jtagIr := code }

/-- EXTEST: boundary scan of the lands on VDD_IO is selected, and drives while the main rails are good. -/
def execExtest (s : State) : Answer := .next (if s.pkg.keep then s.jtag 0x00 else s)

/-- IDCODE: the data register returns 0x1204_86B7. -/
def execIdcode (s : State) : Answer :=
  .next (if s.pkg.keep then (s.jtag 0x01).emit (.answer "JTAG" (leBytes 0x120486B7 4)) else s)

/-- SAMPLE_PRELOAD: boundary scan is selected. -/
def execSamplePreload (s : State) : Answer := .next (if s.pkg.keep then s.jtag 0x02 else s)

/-- BYPASS: the 1-bit register is selected, by its own code or by any that R616 does not list. -/
def execBypass (code : Fin 256) (s : State) : Answer :=
  .next (if s.pkg.keep && !([0x00, 0x01, 0x02, 0x3C].contains code.val) then s.jtag 0xFF else s)

/-- The data register of BBX_DATA as a capture returns it: STATUS, the command, the length of the response, four bytes of
0, and the response from bit 64 on. -/
def bbxCapture (status cmd : Nat) (response : List Byte) : List Byte :=
  padTo 520 (leBytes status 1 ++ leBytes cmd 1 ++ leBytes response.length 2 ++ leBytes 0 4 ++ response)

/-- The outcome of a black-box command over JTAG: its STATUS and its response. The commands are those of R570, from KEEPER
on; a seal also waits for what R569 waits for. -/
def State.bbxCommand (s : State) (cmd : Nat) (args : List Byte) : Nat × List Byte × State :=
  let first := ofLe (args.take 8)
  if !s.ready rdyKeeper then (2, [], s)
  else if cmd = 1 then (0, s.keeperStatus, s)
  else if cmd = 2 then
    match s.keeperRecords first (ofLe ((args.drop 8).take 1)) with
    | [] => (4, [], s)
    | rs => (0, rs.flatMap BbxRecord.bytes, s)
  else if cmd = 3 then
    let count := ofLe ((args.drop 8).take 2)
    if !s.ready rdyIdentity || !s.ready rdyBbx then (2, [], s)
    else if (s.recordsFrom first (clampN 1 4096 count)).isEmpty then (4, [], s)
    else
      let (sl, t) := s.keeperSeal first count (padTo 32 ((args.drop 10).take 32))
      (0, sl, t)
  else (3, [], s)

/-- BBX_DATA: an Update-DR of the black-box data register with its bytes, first the command. The capture that follows
returns the outcome (R617). -/
def execBbxData (bytes : List Byte) (s : State) : Answer :=
  if !s.pkg.keep then .next s
  else
    let cmd := ofLe (bytes.take 1)
    let (st, resp, s) := (s.jtag 0x3C).bbxCommand cmd (bytes.drop 1)
    let s := s.modPkg fun p => { p with jtagData := (st, cmd, resp) }
    .next (s.emit (.answer "JTAG" (bbxCapture st cmd resp)))

end Sys2Proof.Machine
end

