-- ==== Sys2Proof/Machine/Bus.lean ====
section
/-!
DEFINITION. Register accesses by a PCI Express function (R11 to R18, R76, R79, R90 to R97, R516, R522, R541): which are
improper, what a write does to each field by its access code, and what a read returns and clears. A write of a register
that has a command of its own is that command.
-/

namespace Sys2Proof.Machine

/-! ## Improper accesses (R12, R13, R541) -/

/-- A field that spans bit 31 and bit 32. -/
def spansHalves (f : Fld) : Bool := decide (f.lo < 32) && decide (32 < f.lo + f.width)

/-- The width and place of an access: 64 bits, or the lower or the upper half of a register. -/
inductive Lanes where
  | all | low | high
deriving DecidableEq, Repr

/-- The part of a register that an access of four or eight bytes reaches. -/
def accessLanes (off size : Nat) : Lanes := if size = 8 then .all else if off % 8 = 0 then .low else .high

/-- The first bit of an access and the first bit past it. -/
def Lanes.range : Lanes → Nat × Nat
  | .all => (0, 64) | .low => (0, 32) | .high => (32, 64)

/-- A write through an access takes a field: it lies wholly within it. -/
def Lanes.takes (l : Lanes) (f : Fld) : Bool := decide (l.range.1 ≤ f.lo) && decide (f.lo + f.width ≤ l.range.2)

/-- A write's value in its place in the register. -/
def Lanes.place (l : Lanes) (value : Word) : Word := match l with
  | .all => value
  | .low => BitVec.ofNat 64 (value.toNat % 2 ^ 32)
  | .high => BitVec.ofNat 64 (value.toNat % 2 ^ 32 * 2 ^ 32)

/-- An RWS field, or a program register that the image does not pair (R220). -/
def State.isStaged (s : State) (t : Target) (f : Fld) : Bool :=
  f.acc == .rws && !(t.reg == .PIPE_PROG_REG && (tabFind s.image.pregPartner t.idx).isSome)

/-- An RWP field, or a program register that the image pairs (R220). -/
def State.isPaired (s : State) (t : Target) (f : Fld) : Bool :=
  f.acc == .rwp || (t.reg == .PIPE_PROG_REG && (tabFind s.image.pregPartner t.idx).isSome)

/-- The value of a field that a write would change: the staging copy of an RWS field, else the value in force. -/
def State.fieldNow (s : State) (t : Target) (f : Fld) : Nat :=
  if s.isStaged t f then s.getStaged f t.idx else s.get f t.idx

/-- A 32-bit write would change part of a field that spans both halves; any write of part of a WO field counts as
changing it, and none of an RO or RC field does (R12). -/
def State.changesPart (s : State) (t : Target) (l : Lanes) (w : Word) (f : Fld) : Bool :=
  spansHalves f && l != .all &&
    (match f.acc with
      | .ro | .rc => false
      | .wo => true
      | _ =>
        let lo := max f.lo l.range.1
        let n := min (f.lo + f.width) l.range.2 - lo
        bitsOf w lo n != bitsOf (BitVec.ofNat 64 (s.fieldNow t f * 2 ^ f.lo)) lo n)

/-- An instance of a register that the image makes is there: PORT registers of a port it places, TBL registers of a table it
carves, queues and their weights, queue shapers it binds, and program registers it declares. Elsewhere no register lies
(R14, R26, R219). -/
def State.present (s : State) (t : Target) : Bool :=
  let i := t.idx
  match t.reg with
  | .PORT_CFG | .PORT_STATUS | .PORT_INFO | .PORT_SA | .PORT_PFC_CFG | .PORT_PFC_STATUS | .PORT_TS_CFG | .PORT_TS_INFO
  | .PORT_EVENT | .PORT_EVENT_EN => s.portExists i
  | .PORT_DSCP_MAP => s.portExists (i / 4)
  | .PORT_COUNTER => s.portExists (i / 20)
  | .TBL_TABLE_INFO | .TBL_STATUS | .TBL_TABLE_CTRL | .TBL_TABLE_COUNT | .TBL_AGE_CFG => (tabFind s.image.tables i).isSome
  | .TBL_TABLE_SEED => (tabFind s.image.tables (i / 2)).isSome
  | .QM_Q_PROFILE => s.queueExists i
  | .QM_Q_WEIGHT => s.queueExists (2 * i)
  | .QM_QSHAPER | .QM_QSHAPER_STATE => (tabFind s.image.qshaperQueue i).isSome
  | .PIPE_PROG_REG => decide (i < s.image.pregCount)
  | _ => true

/-- Whether a block is open while a full image is applied: by the block that lays the register down (R76). -/
def State.openReg (t : Target) : Bool :=
  (slotsTOP ++ slotsCFG ++ slotsSEC ++ slotsBBX ++ slotsTIME ++ slotsHIF).any (fun sl => sl.reg == t.reg) ||
    [Reg.WIN_STATE, .WIN_INT_CAUSE, .WIN_INT_EN, .WIN_CMD_DONE, .WIN_COMMIT, .WIN_RES0, .WIN_RES1, .WIN_PORT_MAP].contains t.reg

/-- Fields that only the physical function writes, though a window shows them (R70). -/
def windowReadOnly (f : Fld) : Bool := f == TEL.TROUPE_FLOW.MAX_FLOWS || f == CELL.LEASE_STATUS.MAX

/-- The base, size and writeback registers of rings, with the kind of ring. -/
def ringSetup : Reg → Option RingKind
  | .HIF_RX_CQ | .HIF_RX_CQ_WB => some .rx
  | .HIF_TX_RING | .HIF_TX_WB => some .tx
  | .HIF_TLM_RING | .HIF_TLM_WB => some .tlm
  | .HIF_RPT_RING | .HIF_RPT_WB => some .rpt
  | _ => none

/-- A write of a function changes nothing of a field, whatever it carries: a window's read-only limits (R510), phase entries
of the wardens (R493), and what an enabled ring or buffer pool holds fast (R522, R527). -/
def State.ignores (s : State) (fn : Nat) (t : Target) (f : Fld) : Bool :=
  (fn != 0 && windowReadOnly f) ||
  match t.reg with
  | .PACE_PHASE_A | .PACE_PHASE_B | .PACE_PHASE_C | .PACE_PHASE_D => decide (t.idx < 8)
  | .HIF_RX_POOL => f != HIF.RX_POOL.EN && s.flag HIF.RX_POOL.EN t.idx
  | r => match ringSetup r with
    | some k => s.flag (ringRegs k).en t.idx
    | none => false

/-- The part that a write of a function is for takes it: a register lies there, and its block can be reached (R14, R76, R114,
R516). -/
def State.reaches (s : State) (fn : Nat) (t : Target) : Bool := s.present t && s.hostReach fn (State.openReg t)

/-- What is wrong with an access, as KIND of BAD_ACCESS names it: 1 not aligned, 2 not of 32 or 64 bits, 3 outside every
block, 4 a write that would change part of a field; 0 where it is proper (R13). -/
def State.accessKind (s : State) (fn off size : Nat) (write : Bool) (value : Word) : Nat :=
  if off % size ≠ 0 then 1
  else if size ≠ 4 && size ≠ 8 then 2
  else if !inBlocks fn off then 3
  else match s.target fn off with
    | none => 0
    | some t =>
      let l := accessLanes off size
      if write && s.reaches fn t &&
          t.reg.fields.any (fun f => s.changesPart t l (l.place value) f && !s.ignores fn t f) then 4 else 0

/-- An improper access is counted; the first one is latched (R13, R541). -/
def State.badAccess (s : State) (fn off kind : Nat) (write : Bool) : State :=
  let s := s.addSat HIF.BAD_ACCESS.COUNT fn 1
  let s := if s.flag HIF.BAD_ACCESS.LATCHED fn then s
    else
      let s := (s.set HIF.BAD_ACCESS.LATCHED fn 1).set HIF.BAD_ACCESS.KIND fn kind
      (s.set HIF.BAD_ACCESS.WRITE fn (b2n write)).set HIF.BAD_ACCESS_ADDR.OFFSET fn off
  if fn = 0 then s.raise HIF.INT_CAUSE.BAD_ACCESS else s.raiseWin WIN.INT_CAUSE.BAD_ACCESS fn

/-! ## Registers with a command of their own -/

/-- The state that an answer leads to. -/
def answered (s : State) : Answer → State
  | .next t => t
  | _ => s

/-- The value that a command takes from a write: fields that the access reaches as written, other RW fields as they
stand, and 0 elsewhere. -/
def State.merged (s : State) (t : Target) (l : Lanes) (w : Word) : Word :=
  t.reg.fields.foldl (fun v f =>
    if l.takes f then withBits v f.lo f.width (bitsOf w f.lo f.width)
    else match f.acc with
      | .rw => withBits v f.lo f.width (s.get f t.idx)
      | .rwk => withBits v f.lo f.width (s.get f t.idx)
      | .rws => withBits v f.lo f.width (s.getStaged f t.idx)
      | _ => v) 0

/-- Two commands of one register, one after the other. -/
def State.both (s : State) (a b : State → Answer) : State :=
  let s := answered s (a s)
  answered s (b s)

/-- A write of TBL.CMD_CTRL: the operation that OPCODE names, BAD_OP for another, or without GO its fields alone (R257 to
R260). -/
def State.writeCmdCtrl (s : State) (b : Fin 32) (v : Word) : State :=
  if s.flag TBL.CMD_CTRL.BUSY b then s.set TBL.CMD_CTRL.WRITE_WHILE_BUSY b 1
  else if !natBit v.toNat 16 then
    let s := if natBit v.toNat 28 then s.set TBL.CMD_CTRL.WRITE_WHILE_BUSY b 0 else s
    [TBL.CMD_CTRL.OPCODE, TBL.CMD_CTRL.TABLE, TBL.CMD_CTRL.STATIC, TBL.CMD_CTRL.TWIN, TBL.CMD_CTRL.INT].foldl
      (fun s f => s.set f b (bitsOf v f.lo f.width)) s
  else match bitsOf v 0 8 with
    | 0x01 => answered s (execLookup b v s)
    | 0x02 => answered s (execRead b v s)
    | 0x03 => answered s (execInsert b v s)
    | 0x04 => answered s (execUpdate b v s)
    | 0x05 => answered s (execUpsert b v s)
    | 0x06 => answered s (execDelete b v s)
    | 0x07 => answered s (execWriteAt b v s)
    | 0x08 => answered s (execClearAt b v s)
    | 0x09 => answered s (execMove b v s)
    | 0x0A => answered s (execLpmAdd b v s)
    | 0x0B => answered s (execLpmDelete b v s)
    | 0x0C => answered s (execUnpin b v s)
    | 0x0D => answered s (execClearTable b v s)
    | op => s.cmdGo b op v

/-- A write of a buffer pool's register: BASE and SIZE_LOG2 are ignored while EN is 1, and EN from 0 to 1 sets both counts
to 0 (R522, R527; log entry 31). -/
def State.writePool (s : State) (i : Nat) (v : Word) : State :=
  let was := s.flag HIF.RX_POOL.EN i
  let s := if was then s
    else (s.set HIF.RX_POOL.SIZE_LOG2 i (bitsOf v 0 5)).set HIF.RX_POOL.BASE i (bitsOf v 12 52)
  let s := if !was && bitsOf v 5 1 = 1 then (s.set HIF.RX_POOL_IDX.TAIL i 0).set HIF.RX_POOL_IDX.HEAD i 0 else s
  s.set HIF.RX_POOL.EN i (bitsOf v 5 1)

/-- A match count that a bus write does not carry is a free value (log entry 2). -/
def State.freeBelow (s : State) (n : Nat) : Nat × State :=
  let (v, s) := s.draw
  (v % n, s)

/-- A write of a function to a register that has a command of its own: what it does; none for any other register.
`v` is the value merged with what the access leaves, `low` and `high` whether the access reaches that half. -/
def State.rowWrite (s : State) (fn : FnNo) (t : Target) (l : Lanes) (v : Word) : Option State :=
  let i := t.idx
  let low := l != .high
  let high := l != .low
  match t.reg with
  | .LNK_CTRL => some (answered s (execRetrain v s))
  | .CFG_LOAD_CTRL => some (s.writeLoadCtrl v)
  | .CFG_COMMIT => some (answered s (execCommit v s))
  | .WIN_COMMIT => some (answered s (execWinCommit fn v s))
  | .TOP_RESET_CTRL => some (if l = .all then answered s (execResetCtrlWrite fn v s) else s)
  | .TOP_INT_REARM => some (answered s (execIntRearm fn v s))
  | .LANE_TX_FIR => some (s.writeFir i v)
  | .LANE_RX_CFG => some (answered s (execRxCfgWrite (Fin.ofNat 512 i) v s))
  | .LANE_ALIGN_CTRL =>
    if low then
      let (m, s) := s.freeBelow 1021
      some (answered s (execSlip (Fin.ofNat 512 i) v (Fin.ofNat 1021 m) s))
    else some s
  | .PORT_CFG => some (answered s ((if bitsOf v 0 1 = 1 then execPortEnable else execPortDisable) (Fin.ofNat 512 i) v s))
  | .MOD_CMD => some (answered s (execModCmd v s))
  | .PIPE_ADAPT_CFG => some (answered s (execFlowletFlush v s))
  | .TBL_PROM_CTRL =>
    if natBit v.toNat 10 then some (if natBit v.toNat 9 then s.both (execPromenadeAbort v) (execPromenadeGo v)
      else answered s (execPromenadeAbort v s))
    else if natBit v.toNat 9 then some (answered s (execPromenadeGo v s))
    else none
  | .TBL_CMD_CTRL => some (s.writeCmdCtrl (Fin.ofNat 32 i) v)
  | .TBL_CMD_LOC | .TBL_CMD_RESULT =>
    if s.flag TBL.CMD_CTRL.BUSY i then some (answered s (execCmdWriteWhileBusy (Fin.ofNat 32 i) s)) else none
  | .TBL_CMD_ENTRY =>
    if s.flag TBL.CMD_CTRL.BUSY (i / 8) then some (answered s (execCmdWriteWhileBusy (Fin.ofNat 32 (i / 8)) s)) else none
  | .TBL_TABLE_SEED => some (answered s (execTableSeedWrite (Fin.ofNat 256 (i / 2)) (Fin.ofNat 2 i) v s))
  | .CELL_LEASE_CTRL => some (answered s (execLeaseRequest fn ⟨v, []⟩ s))
  | .CELL_LEASE_FREE => some (if low then answered s (execLeaseFree fn v s) else s)
  | .QM_QUERY => some (answered s (execQuery fn v s))
  | .MC_GROUP => some (answered s (execMcGroupWrite (Fin.ofNat 65536 i) v s))
  | .MC_SYNC => some (answered s (execMcSync v s))
  | .TIME_SERVO_CFG => some (answered s (execServoDisable v s))
  | .TIME_SERVO_OFFSET => some (s.servoSample v)
  | .QM_WIN_CTRL => some (s.winGo i v.toNat)
  | .QM_WIN_BANK => some (s.winWrite (i / 2) (i % 2) t.reg i v.toNat)
  | .QM_WIN_BASE_SEC => some (s.winWrite (i / 2) (i % 2) t.reg i v.toNat)
  | .QM_WIN_BASE_NS => some (s.winWrite (i / 2) (i % 2) t.reg i v.toNat)
  | .QM_WIN_GCL => some (s.winWrite (i / 256) (i / 128 % 2) t.reg i v.toNat)
  | .TEL_HIST_CTRL => some (answered s (execHistSnapshot fn v s))
  | .HBM_CTRL => some (answered s (execHbmRetrain v s))
  | .HBM_CAPTURE_RELEASE => some (if l = .all then s.captureRelease (bitsOf v 0 36) else s)
  | .HBM_COPY_CTRL => some (answered s (execCaptureCopy ⟨fn, v⟩ s))
  | .PACE_CADENCE_SET => some (answered s (execCadenceSetWrite v s))
  | .PACE_PHASE_A => some (if i < 8 then s else s.writePhaseA i v)
  | .PACE_PHASE_B => if i < 8 then some s else none
  | .PACE_PHASE_C => if i < 8 then some s else none
  | .PACE_PHASE_D => if i < 8 then some s else none
  | .PACE_ADV_INJECT => some (s.setReg .PACE_ADV_INJECT 0 v.toNat)
  | .PACE_ADV_INJECT2 => some (if low then answered s (execAdvInject v s) else s)
  | .CFG_SERIAL_FLOOR =>
    some (if l = .all && s.get CFG.SERIAL_FLOOR.FLOOR 0 ≤ v.toNat then s.set CFG.SERIAL_FLOOR.FLOOR 0 v.toNat else s)
  | .HIF_MSIX_ALLOC => some (if i < 64 then answered s (execMsixAllocWrite (Fin.ofNat 64 i) v s) else s)
  | .HIF_TROUPE_CTRL => some (if l = .all then s.both (execRemove v) (execRestore v) else s)
  | .HIF_RX_CFG => some (s.writeRingCfg fn.val .rx i v)
  | .HIF_TX_CFG => some (s.writeRingCfg fn.val .tx i v)
  | .HIF_TLM_CFG => some (s.writeRingCfg fn.val .tlm i v)
  | .HIF_RPT_CFG => some (s.writeRingCfg fn.val .rpt i v)
  | .HIF_RX_POOL => some (s.writePool i v)
  | .HIF_RX_CQ_IDX => some (if high then s.ringBell .rx i (bitsOf v 32 32) else s)
  | .HIF_TLM_IDX => some (if high then s.ringBell .tlm i (bitsOf v 32 32) else s)
  | .HIF_RPT_IDX => some (if high then s.ringBell .rpt i (bitsOf v 32 32) else s)
  | .HIF_TX_IDX => some (if low then s.ringBell .tx i (bitsOf v 0 32) else s)
  | .HIF_RX_POOL_IDX => some (if low then s.poolBell (i / 4) (i % 4) (bitsOf v 0 32) else s)
  | .TND_CTRL => some ((s.both (execRestart v) (execResign v)).both (execRestartBoth v) fun s => .next s)
  | .TND_MBX_CTRL => some (answered s (execMailboxDoorbell v s))
  | .BBX_READ_CTRL => some (answered s (execSealedReadout v s))
  | .BBX_HOST_NOTE_CTRL => some (answered s (execHostNote v s))
  | .SEC_KEY_CTRL =>
    some (if l ≠ .all then s else answered s (if s.keyCommand.op = 2 then execRevoke fn v s else execProvision fn v s))
  | .SEC_FW_CTRL => some (s.both (execFwLoad v) (execCommitSvn v))
  | r => match ringSetup r with
    | some k => if s.flag (ringRegs k).en i then some s else none
    | none => none

/-! ## Fields by access code (R16) -/

/-- Paired fields of a register that a write reaches. Both fields of one register in a 64-bit write take effect at once
(R92); in a 32-bit write a field takes part only when it changes (R93); a field alone in its register always does. `off` is
the register's offset. A latch that the same function holds on one of the two fields stays pending through such a 64-bit
write, as R92 says of another function's (DESIGN CHOICE, log entry 77). -/
def State.pairedFields (s : State) (fn : Nat) (t : Target) (off : Nat) (l : Lanes) (w : Word) : State :=
  match t.reg.fields.filter (fun f => s.isPaired t f && l.takes f) with
  | [] => s
  | [f] =>
    let v := bitsOf w f.lo f.width
    let alone := (t.reg.fields.filter fun g => s.isPaired t g).length == 1
    if !alone && v = s.get f t.idx then s else s.pairWrite fn ⟨t.reg, t.idx, f.lo, f.width⟩ v w.toNat off
  | f :: g :: _ =>
    s.pairTake ⟨t.reg, t.idx, f.lo, f.width⟩ ⟨t.reg, t.idx, g.lo, g.width⟩ (bitsOf w f.lo f.width) (bitsOf w g.lo g.width)

/-- One field of a write, by its access code; paired fields are taken together elsewhere. -/
def State.writeField (s : State) (fn : Nat) (t : Target) (l : Lanes) (w : Word) (f : Fld) : State :=
  let v := bitsOf w f.lo f.width
  if !l.takes f || s.isPaired t f || (fn ≠ 0 && windowReadOnly f) then s
  else match f.acc with
    | .rw | .rwk => s.set f t.idx v
    | .w1c => s.set f t.idx (s.get f t.idx &&& (2 ^ f.width - 1 - v))
    | .rws => s.setStaged f t.idx v
    | _ => s

/-- What follows from a write of a register, given the state before it. -/
def State.afterWrite (old s : State) (t : Target) : State :=
  let i := t.idx
  match t.reg with
  | .TOP_INT_MASK =>
    let c := s.reg .TOP_INT_CAUSE 0
    if rises (c &&& old.reg .TOP_INT_MASK 0) (c &&& s.reg .TOP_INT_MASK 0) then s.sendMsix 0 0 else s
  | .WIN_INT_EN =>
    let c := s.reg .WIN_INT_CAUSE i
    if rises (c &&& old.reg .WIN_INT_EN i) (c &&& s.reg .WIN_INT_EN i) then s.sendMsix i 0 else s
  | .PORT_EVENT => s.refreshPortInt i
  | .PORT_EVENT_EN => s.refreshPortInt i
  | .LANE_CFG =>
    let test := s.get LANE.CFG.TX_SOURCE i == 2
    if (s.lane i).tx == .off then s
    else if test then (s.modLane i fun v => { v with tx := .test }).sendTest i
    else if (s.lane i).tx == .test then
      (if s.laneL425 i then (s.modLane i fun v => { v with tx := .tp6 }).sendTp6 i false
       else s.modLane i fun v => { v with tx := .data })
    else if !s.laneStandard i then s
    else if !s.flag LANE.CFG.IEEE_TRAIN_EN i then s.modLane i fun v => { v with training := false }
    else if old.flag LANE.CFG.IEEE_TRAIN_EN i then s
    else s.startTraining i
  | .LANE_ALIGN_STATUS => s.refreshLanePort i
  | .LANE_TEST => if s.flag LANE.TEST.CHECK_EN i then s else s.set LANE.TEST.CHECK_SYNC i 0
  | .MOD_CFG =>
    let s := (List.range 8).foldl State.refreshBus s
    if old.flag MOD.CFG.AUTH_REQUIRED 0 && !s.flag MOD.CFG.AUTH_REQUIRED 0 then s.reviewCages else s
  | .TIME_SYNCE => s.synceRelease i
  | .QM_PORT_SHAPER => s.shaperEnable (portShaper i) (old.shaperOn (portShaper i))
  | .QM_CG_SHAPER => s.shaperEnable (cgShaper i) (old.shaperOn (cgShaper i))
  | .QM_QSHAPER => s.shaperEnable (queueShaper i) (old.shaperOn (queueShaper i))
  | .PACE_AVS_CFG | .PACE_DROOP_CFG | .PACE_THERMAL_CFG | .PACE_PELOTON_CFG | .PACE_FREEWHEEL_CFG
  | .PACE_RAIL_CFG => s.refreshPace
  | _ => s.refreshInts

/-- A write of a function: `size` bytes at an offset of its BAR0. Nothing is reached before PCIE sets (R114). -/
def State.busWrite (s : State) (fn : FnNo) (off size : Nat) (value : Word) : State :=
  if !s.hostReach 0 true then s
  else match s.accessKind fn.val off size true value with
    | 0 =>
      match s.target fn.val off with
      | none => s
      | some t =>
        if !s.reaches fn.val t then s
        else
          let l := accessLanes off size
          let w := l.place value
          match s.rowWrite fn t l (s.merged t l w) with
          | some s => s
          | none =>
            let u := t.reg.fields.foldl (fun u f => u.writeField fn.val t l w f) s
            s.afterWrite (u.pairedFields fn.val t (off - t.byte) l w) t
    | k => s.badAccess fn.val off k true

/-! ## Reads -/

/-- The hold that is left of a port, in µs. -/
def State.holdLeft (s : State) (x : Nat) : Nat := match (s.port x).holdEnd with
  | none => 0
  | some e => (e - s.now) / usTicks

/-- Brings up to date what a register shows of quantities that move by themselves. The store's bandwidth follows the
actual cadence, rounded down (R52). -/
def State.freshen (s : State) (fn : Nat) (t : Target) : State :=
  let i := t.idx
  let snap := tabGet (0, 0) s.tim.snaps fn
  match t.reg with
  | .QM_PORT_STATUS => (s.refreshCgs i).set QM.PORT_STATUS.HOLD_LEFT_US i (s.holdLeft i)
  | .QM_CG_STATUS => (s.refreshCgs (i / 16)).gateChange (i / 16)
  | .QM_WIN_STATUS => s.refreshWin i
  | .CFG_DRAIN_STATUS => s.refreshDrain
  | .POL_TOKENS => s.set POL.TOKENS.BYTES i (ofSigned 48 ((s.policer i).tok / byteTok))
  | .CELL_BW_STATUS => s.set CELL.BW_STATUS.BW_TBPS 0 (540 * s.get PACE.STATUS.ACTUAL_MHZ 0 / 2520)
  | .TIME_NOW_SUB =>
    let ns := (snap.1 / 65536 % 1000000000).toNat
    (s.set TIME.NOW_SUB.FRAC 0 (snap.1 % 65536).toNat).set TIME.NOW_SUB.NS 0 ns
  | .TIME_NOW_SEC => s.set TIME.NOW_SEC.SEC 0 (ofSigned 64 (snap.1 / 65536 / 1000000000))
  | .TIME_RAW_LO => s.set TIME.RAW_LO.RAW 0 (snap.2 % 2 ^ 64)
  | .TIME_RAW_HI => s.set TIME.RAW_HI.RAW 0 (snap.2 / 2 ^ 64)
  | _ => s

/-- A field as a function reads it: 0 of a WO field, the staging copy of an RWS field unless the function views the values
in force (R79), else the value in force (R99). -/
def State.readField (s : State) (fn : Nat) (t : Target) (f : Fld) : Nat :=
  match f.acc with
  | .wo => 0
  | _ => if s.isStaged t f && !s.flag CFG.VIEW.INFORCE fn then s.getStaged f t.idx else s.get f t.idx

/-- A whole register as a function reads it. Seen through a window, TOP.IDENT.PART is 0x2049. -/
def State.readReg (s : State) (fn : Nat) (t : Target) : Word :=
  let w := t.reg.fields.foldl (fun w f => withBits w f.lo f.width (s.readField fn t f)) 0
  if fn ≠ 0 && t.reg == .TOP_IDENT then withBits w 16 16 0x2049 else w

/-- What the read of an RC field leaves: FILL and FREE_CELLS reload their marks, every other field clears. -/
def State.reload (s : State) (t : Target) (f : Fld) : Nat :=
  if f == PIPE.IFIFO_STATUS.HIGH_WATER then s.get PIPE.IFIFO_STATUS.FILL t.idx
  else if f == CELL.POOL_STATUS.LOW_WATER then s.get CELL.POOL_STATUS.FREE_CELLS t.idx
  else 0

/-- The bits of an RC field that a read returns are cleared, or reloaded (R16). -/
def State.readClears (s : State) (t : Target) (l : Lanes) (f : Fld) : State :=
  if f.acc != .rc then s
  else
    let lo := max f.lo l.range.1
    let hi := min (f.lo + f.width) l.range.2
    if hi ≤ lo then s
    else
      let v := BitVec.ofNat 64 (s.reload t f * 2 ^ f.lo)
      s.set { f with lo := lo, width := hi - lo } t.idx (bitsOf v lo (hi - lo))

/-- The data of a read, in an output. -/
def State.returns (s : State) (fn off size value : Nat) : State := s.emit (.readData fn off size value)

/-- A read of a function: `size` bytes at an offset of its BAR0. A removed troupe's window shows WIN.STATE alone (R516).
A read of TIME.NOW_SUB that includes its low half takes a snapshot (R376). -/
def State.busRead (s : State) (fn : FnNo) (off size : Nat) : State :=
  if !s.hostReach 0 true then s
  else match s.accessKind fn.val off size false 0 with
    | 0 =>
      match s.target fn.val off with
      | none => s.returns fn.val off size 0
      | some t =>
        if !s.present t || !(s.hostReach fn.val (State.openReg t) || t.reg == .WIN_STATE) then s.returns fn.val off size 0
        else
          let l := accessLanes off size
          let s := if t.reg == .TIME_NOW_SUB && l != .high then answered s (execTimeSnapshot fn s) else s
          let s := s.freshen fn.val t
          let v := s.readReg fn.val t
          let s := t.reg.fields.foldl (fun u f => u.readClears t l f) s
          s.returns fn.val off size (bitsOf v l.range.1 (l.range.2 - l.range.1))
    | k => (s.badAccess fn.val off k false).returns fn.val off size (2 ^ (8 * size) - 1)

/-! ## The commands -/

/-- REGISTER_WRITE: a write of `size` bytes by a function at an offset of its BAR0. -/
def execRegisterWrite (fn : FnNo) (off : BarOffset) (size : Fin 65) (value : Word) (s : State) : Answer :=
  .next (s.busWrite fn off.val size.val value)

/-- A register at an offset of a function has a field of a kind. -/
def State.hasField (s : State) (fn : FnNo) (off : Nat) (kind : Target → Fld → Bool) : Bool :=
  match s.target fn.val off with
  | none => false
  | some t => t.reg.fields.any (kind t)

/-- STAGING_WRITE: a write of a register that holds RWS fields (R79, R82). -/
def execStagingWrite (fn : FnNo) (off : BarOffset) (size : Fin 65) (value : Word) (s : State) : Answer :=
  .next (if s.hasField fn off.val s.isStaged then s.busWrite fn off.val size.val value else s)

/-- PAIRED_WRITE: a write of a register that holds paired fields (R90 to R97). -/
def execPairedWrite (fn : FnNo) (off : BarOffset) (size : Fin 65) (value : Word) (s : State) : Answer :=
  .next (if s.hasField fn off.val s.isPaired then s.busWrite fn off.val size.val value else s)

/-- CLEAR_ON_READ: a read of `size` bytes by a function; the RC bits that it returns are cleared (R16). -/
def execClearOnRead (fn : FnNo) (off : BarOffset) (size : Fin 65) (s : State) : Answer :=
  .next (s.busRead fn off.val size.val)

/-- IMPROPER_ACCESS: a read or write that R13 calls improper. -/
def execImproperAccess (fn : FnNo) (off : BarOffset) (size : Fin 65) (write : Bool) (value : Word) (s : State) : Answer :=
  if s.accessKind fn.val off.val size.val write value = 0 then .next s
  else .next (if write then s.busWrite fn off.val size.val value else s.busRead fn off.val size.val)

end Sys2Proof.Machine
end

