-- ==== Sys2Proof/Machine/Energy.lean ====
section
/-!
DEFINITION. Energy attribution (chapter 14, R481, R497 to R499). Energies are held in units of 10^-14 J divided by
2 × 760^3 × 2^64, in which every product of R497 is whole, but for the power of two of the leakage, which is taken in
steps of 2^-64 (log entry 21).
-/

namespace Sys2Proof.Machine

/-- Units in 10^-14 J, and in a microjoule. -/
def energyUnit : Nat := 2 * 760 ^ 3 * 2 ^ 64
def unitsPerUj : Nat := 10 ^ 8 * energyUnit

/-- Places of the counters. -/
def accTroupe (n : Nat) : Nat := n
def accPipe (p : Nat) : Nat := 64 + p
def accPort (x : Nat) : Nat := 128 + x
def accShared (g : Nat) : Nat := 1024 + g
def accMeasured (g : Nat) : Nat := 1040 + g
def accModelled (g : Nat) : Nat := 1056 + g

def State.energyAt (s : State) (k : Nat) : Nat := tabGet 0 s.pace.energy k

/-- Adds to a counter, and shows it in its register (R499). -/
def State.addEnergy (s : State) (k n : Nat) (f : Option (Fld × Nat)) : State :=
  let v := s.energyAt k + n
  let s := s.modPace fun p => { p with energy := tabPut p.energy k v }
  match f with
  | none => s
  | some (f, i) => s.set f i (v / unitsPerUj)

def State.chargeTroupe (s : State) (n e : Nat) : State :=
  s.addEnergy (accTroupe n) e (some (PACE.ENERGY_TROUPE.UJ, n))
def State.chargePipe (s : State) (p e : Nat) : State := s.addEnergy (accPipe p) e (some (PACE.ENERGY_PIPE.UJ, p))
def State.chargePort (s : State) (x e : Nat) : State := s.addEnergy (accPort x) e (some (PACE.ENERGY_PORT.UJ, x))
def State.chargeShared (s : State) (g e : Nat) : State :=
  s.addEnergy (accShared g) e (some (PACE.ENERGY_SHARED.UJ, g))

/-- The set voltage of a rail group in mV (R497). -/
def State.groupVolt (s : State) (g : Nat) : Nat :=
  if g = 0 then s.volt 4 else if g < 5 then s.volt (g - 1) else 760

/-- The rail groups that an event of a kind draws from, with its half or whole share (R497). -/
def eventGroups (kind die : Nat) : List (Nat × Nat) :=
  let rim := if die < 4 then die + 1 else 0
  match kind with
  | 5 => [(rim, 1), (0, 1)]
  | 6 | 7 | 8 => [(0, 2)]
  | 9 => [(6, 2)]
  | 11 | 12 | 13 => [(5, 2)]
  | _ => [(rim, 2)]

/-- The energy of some events on a group: COEF × N × (V / 0.76 V)², in halves of it. -/
def State.eventEnergy (s : State) (kind g halves count : Nat) : Nat :=
  s.get PACE.COEF.ENERGY kind * count * s.groupVolt g ^ 2 * 760 * halves * 2 ^ 64

/-- One entry of activity is charged (R497): to its troupe, or else to the group's SHARED; and in its port and pipe. -/
def State.chargeActivity (s : State) (a : Activity) : State :=
  (eventGroups a.kind a.die).foldl (fun s g =>
    let e := s.eventEnergy a.kind g.1 g.2 a.count
    let s := s.addEnergy (accModelled g.1) e none
    let s := match a.troupe with
      | some n => s.chargeTroupe n e
      | none => s.chargeShared g.1 e
    let s := match a.port with
      | some x => s.chargePort x e
      | none => s
    match a.pipe with
    | some p => s.chargePipe p e
    | none => s) s

/-- The lanes of the part in a tick of 10 µs: ten lane-microseconds for each, by their line code or electrical idle. -/
def State.laneActivity (s : State) : List Activity :=
  s.image.ports.flatMap fun p => ((List.range p.lanes).map (p.port + ·)).map fun l =>
    let kind := if s.flag LANE.IDLE_STATUS.TX_IDLE l then 13 else if s.laneL425 l then 11 else 12
    { kind := kind, die := pipeDie (portPipe l), troupe := some p.troupe, port := some p.port, pipe := none, count := 10 }

/-- The sum of a group's sensors and their number. -/
def State.groupSensors (s : State) (g : Nat) : Nat × Nat :=
  let r := domainSensors (if g = 0 then 4 else g - 1)
  let t := fun (i : Nat) => s.reg .PACE_TEMP (i / 8) / 2 ^ (8 * (i % 8)) % 256
  (((List.range r.2).map fun i => t (r.1 + i)).foldl (· + ·) 0, r.2)

/-- Static energy of a group in 10 µs (R497). -/
def State.staticEnergy (s : State) (g : Nat) : Nat :=
  let dt := s.get PACE.LEAK.LEAK_DT_C g
  let (sum, n) := if g < 5 then s.groupSensors g else (50, 1)
  let scale := if dt = 0 then 2 ^ 64 else pow2Fix ((sum : Int) - 50 * n) (n * dt)
  s.get PACE.LEAK.LEAK_MW g * 10 ^ 6 * s.groupVolt g ^ 3 * scale * 2

/-- ENERGY_TICK: every 10 µs the energy of the events since the last tick and the static energy are added (R497). -/
def execEnergyTick (s : State) : Answer :=
  if s.now < s.pace.tickAt + 10 * usTicks then .next s
  else
    let acts := s.pace.acts ++ s.laneActivity
    let s := s.modPace fun p => { p with acts := [], tickAt := s.now }
    let s := acts.foldl (fun s a => s.chargeActivity a) s
    .next ((List.range 7).foldl (fun s g =>
      let e := s.staticEnergy g
      (s.addEnergy (accModelled g) e none).chargeShared g e) s)

/-- The regulators of a group. -/
def groupRegs (g : Nat) : List Nat := match g with
  | 5 => [5, 6]
  | 6 => [7, 8]
  | g => [g]

/-- A reading of a regulator is shown (R481). -/
def State.showRail (s : State) (r : Nat) (v : RailReading) : State :=
  let s := s.set PACE.RAIL_STATUS.VOUT_MV r v.vout.val
  let s := s.set PACE.RAIL_STATUS.IOUT_DA r v.iout.val
  let s := s.set PACE.RAIL_STATUS.POUT_W r v.pout.val
  let s := s.set PACE.RAIL_STATUS.TEMP_C r v.temp.val
  let s := s.set PACE.RAIL_STATUS.PMBUS_FAULT r (b2n v.fault)
  s.modPace fun p => { p with
    statusWords := tabPut p.statusWords r v.status.val
    otherFaults := if v.fault then p.otherFaults else p.otherFaults.filter (· != r) }

/-- PMBUS_MEASURE: every MEAS_MS the enabled regulators are read, and the measured energy of each group and what the
model leaves of it are added (R481, R498). -/
def execPmbusMeasure (readings : List RailReading) (s : State) : Answer :=
  let ticks := s.now - s.pace.measuredAt
  if ticks < clampN 1 100 (s.get PACE.ENERGY_CFG.MEAS_MS 0) * msTicks then .next s
  else
    let pout := fun (s : State) (g : Nat) =>
      ((groupRegs g).map fun r => s.get PACE.RAIL_STATUS.POUT_W r).foldl (· + ·) 0
    let old := (List.range 7).map (pout s)
    let s := ((List.range 9).zip readings).foldl (fun s e =>
      if s.flag PACE.RAIL_CFG.PMBUS_EN e.1 then s.showRail e.1 e.2 else s) s
    let s := ((List.range 7).zip old).foldl (fun s e =>
      let g := e.1
      let measured := (e.2 + pout s g) * ticks * 25000 * energyUnit
      let s := s.addEnergy (accMeasured g) measured (some (PACE.ENERGY_MEASURED.UJ, g))
      let model := s.energyAt (accModelled g)
      let diff := tabGet 0 s.pace.unattr g + (measured : Int) - (model - tabGet 0 s.pace.atMeasure g : Nat)
      let s := s.modPace fun p => { p with
        unattr := tabPut p.unattr g diff, atMeasure := tabPut p.atMeasure g model }
      s.set PACE.ENERGY_UNATTR.UJ g (ofSigned 64 (diff / (unitsPerUj : Int)))) s
    let watts := ((List.range 9).map fun r => s.get PACE.RAIL_STATUS.POUT_W r).foldl (· + ·) 0
    let s := (List.range 64).foldl (fun s n => if n = 0 then s else s.set WIN.STATE.PKG_POWER_W n watts) s
    .next (s.modPace fun p => { p with measuredAt := s.now })

end Sys2Proof.Machine
end

