-- ==== Sys2Proof/Machine/Dispatch.lean ====
section
/-!
DEFINITION. The dispatcher: one arm for each command, each one call of the command's meaning.
-/

namespace Sys2Proof.Machine

/-- What a command does to the part, everything but the queue of waiting commands. -/
def exec (i : Instr) (s : State) : Host.Outcome State Fault Refusal :=
  match i with
  | .improperAccess fn off size write value => Sys2Proof.Machine.execImproperAccess fn off size write value s
  | .registerWrite fn off size value => Sys2Proof.Machine.execRegisterWrite fn off size value s
  | .stagingWrite fn off size value => Sys2Proof.Machine.execStagingWrite fn off size value s
  | .clearOnRead fn off size => Sys2Proof.Machine.execClearOnRead fn off size s
  | .pairedWrite fn off size value => Sys2Proof.Machine.execPairedWrite fn off size value s
  | .pairTimeout => Sys2Proof.Machine.execPairTimeout s
  | .lerarReplay link transfer => Sys2Proof.Machine.execLerarReplay link transfer s
  | .linkRetire link => Sys2Proof.Machine.execLinkRetire link s
  | .linkAutoRetrain link => Sys2Proof.Machine.execLinkAutoRetrain link s
  | .linkTrainingEnd link up => Sys2Proof.Machine.execLinkTrainingEnd link up s
  | .retrain value => Sys2Proof.Machine.execRetrain value s
  | .wavefrontLaunch pipe => Sys2Proof.Machine.execWavefrontLaunch pipe s
  | .parserPass pipe => Sys2Proof.Machine.execParserPass pipe s
  | .stageExecute pipe stage => Sys2Proof.Machine.execStageExecute pipe stage s
  | .ingressPipeEnd pipe => Sys2Proof.Machine.execIngressPipeEnd pipe s
  | .egressPipeEnd pipe => Sys2Proof.Machine.execEgressPipeEnd pipe s
  | .depthMapBroadcast missed => Sys2Proof.Machine.execDepthMapBroadcast missed s
  | .depthMapStale pipe => Sys2Proof.Machine.execDepthMapStale pipe s
  | .flowletFlush value => Sys2Proof.Machine.execFlowletFlush value s
  | .rxFrameStart port bytes arrived phase => Sys2Proof.Machine.execRxFrameStart port bytes arrived phase s
  | .ififoXoff pipe => Sys2Proof.Machine.execIfifoXoff pipe s
  | .ififoXon pipe => Sys2Proof.Machine.execIfifoXon pipe s
  | .rxFrameEnd port e => Sys2Proof.Machine.execRxFrameEnd port e s
  | .rxCodeword lane cw => Sys2Proof.Machine.execRxCodeword lane cw s
  | .slip lane value matchPairs => Sys2Proof.Machine.execSlip lane value matchPairs s
  | .rxAlignedSet lane seen => Sys2Proof.Machine.execRxAlignedSet lane seen s
  | .txSwitchToData port received => Sys2Proof.Machine.execTxSwitchToData port received s
  | .dataLock lane start => Sys2Proof.Machine.execDataLock lane start s
  | .alignLost lane => Sys2Proof.Machine.execAlignLost lane s
  | .realign lane found => Sys2Proof.Machine.execRealign lane found s
  | .txFirWrite lane value => Sys2Proof.Machine.execTxFirWrite lane value s
  | .ieeeTrainingRequest lane tap want => Sys2Proof.Machine.execIeeeTrainingRequest lane tap want s
  | .rxCfgWrite lane value => Sys2Proof.Machine.execRxCfgWrite lane value s
  | .idleEntry port => Sys2Proof.Machine.execIdleEntry port s
  | .idleRefresh port => Sys2Proof.Machine.execIdleRefresh port s
  | .idleRefreshTimeout lane => Sys2Proof.Machine.execIdleRefreshTimeout lane s
  | .wake port => Sys2Proof.Machine.execWake port s
  | .wakeBurstRx lane found => Sys2Proof.Machine.execWakeBurstRx lane found s
  | .pfcFrameTx port => Sys2Proof.Machine.execPfcFrameTx port s
  | .pfcRefresh port prio => Sys2Proof.Machine.execPfcRefresh port prio s
  | .pfcRx port enable times => Sys2Proof.Machine.execPfcRx port enable times s
  | .pauseTimerExpiry port prio => Sys2Proof.Machine.execPauseTimerExpiry port prio s
  | .macControlIgnored port => Sys2Proof.Machine.execMacControlIgnored port s
  | .pfcWatchdog port prio => Sys2Proof.Machine.execPfcWatchdog port prio s
  | .txFrameStart port held phase => Sys2Proof.Machine.execTxFrameStart port held phase s
  | .txFrameEnd port idles => Sys2Proof.Machine.execTxFrameEnd port idles s
  | .txUnderrun port sent => Sys2Proof.Machine.execTxUnderrun port sent s
  | .portFault lane kind => Sys2Proof.Machine.execPortFault lane kind s
  | .linkDown port => Sys2Proof.Machine.execLinkDown port s
  | .linkUp port => Sys2Proof.Machine.execLinkUp port s
  | .portEnable port value => Sys2Proof.Machine.execPortEnable port value s
  | .portDisable port value => Sys2Proof.Machine.execPortDisable port value s
  | .sidebandFrame chain bytes check => Sys2Proof.Machine.execSidebandFrame chain bytes check s
  | .cagePresenceDebounced cage => Sys2Proof.Machine.execCagePresenceDebounced cage s
  | .cagePwrGood cage => Sys2Proof.Machine.execCagePwrGood cage s
  | .cageResetRelease cage => Sys2Proof.Machine.execCageResetRelease cage s
  | .moduleLowPowerReached cage => Sys2Proof.Machine.execModuleLowPowerReached cage s
  | .cageIdentifyDone cage id => Sys2Proof.Machine.execCageIdentifyDone cage id s
  | .cageActivate cage => Sys2Proof.Machine.execCageActivate cage s
  | .cageTimeout cage failed => Sys2Proof.Machine.execCageTimeout cage failed s
  | .moduleRemove cage => Sys2Proof.Machine.execModuleRemove cage s
  | .moduleInterrupt cage => Sys2Proof.Machine.execModuleInterrupt cage s
  | .modBusError bus removed => Sys2Proof.Machine.execModBusError bus removed s
  | .lifeSample cage temp bias age => Sys2Proof.Machine.execLifeSample cage temp bias age s
  | .lifeCheckpoint cage => Sys2Proof.Machine.execLifeCheckpoint cage s
  | .modCmd value => Sys2Proof.Machine.execModCmd value s
  | .modCmdDone outcome data => Sys2Proof.Machine.execModCmdDone outcome data s
  | .lookup block value => Sys2Proof.Machine.execLookup block value s
  | .read block value => Sys2Proof.Machine.execRead block value s
  | .insert block value => Sys2Proof.Machine.execInsert block value s
  | .update block value => Sys2Proof.Machine.execUpdate block value s
  | .upsert block value => Sys2Proof.Machine.execUpsert block value s
  | .delete block value => Sys2Proof.Machine.execDelete block value s
  | .writeAt block value => Sys2Proof.Machine.execWriteAt block value s
  | .clearAt block value => Sys2Proof.Machine.execClearAt block value s
  | .move block value => Sys2Proof.Machine.execMove block value s
  | .lpmAdd block value => Sys2Proof.Machine.execLpmAdd block value s
  | .lpmDelete block value => Sys2Proof.Machine.execLpmDelete block value s
  | .unpin block value => Sys2Proof.Machine.execUnpin block value s
  | .clearTable block value => Sys2Proof.Machine.execClearTable block value s
  | .tableOpDone block => Sys2Proof.Machine.execTableOpDone block s
  | .cmdWriteWhileBusy block => Sys2Proof.Machine.execCmdWriteWhileBusy block s
  | .tableSeedWrite table twin value => Sys2Proof.Machine.execTableSeedWrite table twin value s
  | .learnEventArrival => Sys2Proof.Machine.execLearnEventArrival s
  | .learnEventProcess => Sys2Proof.Machine.execLearnEventProcess s
  | .flapWindowClose table key => Sys2Proof.Machine.execFlapWindowClose table key s
  | .pinHoldExpiry table key => Sys2Proof.Machine.execPinHoldExpiry table key s
  | .ageClockTick table => Sys2Proof.Machine.execAgeClockTick table s
  | .agingSweepVisit => Sys2Proof.Machine.execAgingSweepVisit s
  | .promenadeGo value => Sys2Proof.Machine.execPromenadeGo value s
  | .promenadeAbort value => Sys2Proof.Machine.execPromenadeAbort value s
  | .promenadeCompare image => Sys2Proof.Machine.execPromenadeCompare image s
  | .promenadeCensus => Sys2Proof.Machine.execPromenadeCensus s
  | .admission pipe => Sys2Proof.Machine.execAdmission pipe s
  | .segmentWrite pipe packet arrived rivals => Sys2Proof.Machine.execSegmentWrite pipe packet arrived rivals s
  | .frameVerdict packet => Sys2Proof.Machine.execFrameVerdict packet s
  | .leaseRequest fn ask => Sys2Proof.Machine.execLeaseRequest fn ask s
  | .leaseComplete fn => Sys2Proof.Machine.execLeaseComplete fn s
  | .leaseFree fn value => Sys2Proof.Machine.execLeaseFree fn value s
  | .eccUncorrectable structure_ cell word => Sys2Proof.Machine.execEccUncorrectable structure_ cell word s
  | .schedulerPick port => Sys2Proof.Machine.execSchedulerPick port s
  | .wheelSlot quadrant coarse => Sys2Proof.Machine.execWheelSlot quadrant coarse s
  | .overflowMigrate quadrant => Sys2Proof.Machine.execOverflowMigrate quadrant s
  | .holdExpiry port => Sys2Proof.Machine.execHoldExpiry port s
  | .flushEnd port => Sys2Proof.Machine.execFlushEnd port s
  | .mcGroupWrite group value => Sys2Proof.Machine.execMcGroupWrite group value s
  | .mcSync value => Sys2Proof.Machine.execMcSync value s
  | .mcSyncDone => Sys2Proof.Machine.execMcSyncDone s
  | .query fn value => Sys2Proof.Machine.execQuery fn value s
  | .spillMove => Sys2Proof.Machine.execSpillMove s
  | .refill rivals => Sys2Proof.Machine.execRefill rivals s
  | .refillRetry queue rivals => Sys2Proof.Machine.execRefillRetry queue rivals s
  | .timeSnapshot fn => Sys2Proof.Machine.execTimeSnapshot fn s
  | .servoSample value => Sys2Proof.Machine.execServoSample value s
  | .ppsEdge rising phase => Sys2Proof.Machine.execPpsEdge rising phase s
  | .ppsMissed => Sys2Proof.Machine.execPpsMissed s
  | .servoTimeout => Sys2Proof.Machine.execServoTimeout s
  | .holdoverExpiry => Sys2Proof.Machine.execHoldoverExpiry s
  | .servoDisable value => Sys2Proof.Machine.execServoDisable value s
  | .refLost => Sys2Proof.Machine.execRefLost s
  | .refReturn => Sys2Proof.Machine.execRefReturn s
  | .pllRelock => Sys2Proof.Machine.execPllRelock s
  | .ppsOutPulse => Sys2Proof.Machine.execPpsOutPulse s
  | .synceSquelch out => Sys2Proof.Machine.execSynceSquelch out s
  | .winGo port value => Sys2Proof.Machine.execWinGo port value s
  | .bankSwitch port => Sys2Proof.Machine.execBankSwitch port s
  | .winWriteRefused port bank => Sys2Proof.Machine.execWinWriteRefused port bank s
  | .gateChange port => Sys2Proof.Machine.execGateChange port s
  | .histSnapshot fn value => Sys2Proof.Machine.execHistSnapshot fn value s
  | .fateUpdate => Sys2Proof.Machine.execFateUpdate s
  | .flowWriteback die line => Sys2Proof.Machine.execFlowWriteback die line s
  | .ledgerWriteback => Sys2Proof.Machine.execLedgerWriteback s
  | .exportSweepVisit => Sys2Proof.Machine.execExportSweepVisit s
  | .overflowEpisodeEnd => Sys2Proof.Machine.execOverflowEpisodeEnd s
  | .refusedLineRetry die line => Sys2Proof.Machine.execRefusedLineRetry die line s
  | .exportMessageClose troupe => Sys2Proof.Machine.execExportMessageClose troupe s
  | .templateResend troupe => Sys2Proof.Machine.execTemplateResend troupe s
  | .dropInterval troupe => Sys2Proof.Machine.execDropInterval troupe s
  | .stackTrainingEnd stack ok repairs => Sys2Proof.Machine.execStackTrainingEnd stack ok repairs s
  | .hbmRetrain value => Sys2Proof.Machine.execHbmRetrain value s
  | .stackFail stack => Sys2Proof.Machine.execStackFail stack s
  | .hbmActivation stack => Sys2Proof.Machine.execHbmActivation stack s
  | .scrub stack inError newer => Sys2Proof.Machine.execScrub stack inError newer s
  | .hbmUncorr stack place addr reported => Sys2Proof.Machine.execHbmUncorr stack place addr reported s
  | .captureWrite => Sys2Proof.Machine.execCaptureWrite s
  | .captureCopy write => Sys2Proof.Machine.execCaptureCopy write s
  | .captureCopyDone dmaError => Sys2Proof.Machine.execCaptureCopyDone dmaError s
  | .cadenceSetWrite value => Sys2Proof.Machine.execCadenceSetWrite value s
  | .cadenceWindow caps quadrants => Sys2Proof.Machine.execCadenceWindow caps quadrants s
  | .lagRecover domain => Sys2Proof.Machine.execLagRecover domain s
  | .railAdjust answers => Sys2Proof.Machine.execRailAdjust answers s
  | .rampStart settled => Sys2Proof.Machine.execRampStart settled s
  | .rampEnd => Sys2Proof.Machine.execRampEnd s
  | .droopDetect domain => Sys2Proof.Machine.execDroopDetect domain s
  | .droopClear domain => Sys2Proof.Machine.execDroopClear domain s
  | .droopResponseEnd => Sys2Proof.Machine.execDroopResponseEnd s
  | .droopLong => Sys2Proof.Machine.execDroopLong s
  | .thermalSample temps => Sys2Proof.Machine.execThermalSample temps s
  | .throttleFall => Sys2Proof.Machine.execThrottleFall s
  | .railFault rail => Sys2Proof.Machine.execRailFault rail s
  | .railRetry rail good => Sys2Proof.Machine.execRailRetry rail good s
  | .pmbusMeasure readings => Sys2Proof.Machine.execPmbusMeasure readings s
  | .energyTick => Sys2Proof.Machine.execEnergyTick s
  | .phaseBoostStart by_ => Sys2Proof.Machine.execPhaseBoostStart by_ s
  | .phaseBoostEnd by_ => Sys2Proof.Machine.execPhaseBoostEnd by_ s
  | .phaseEvaluate entry => Sys2Proof.Machine.execPhaseEvaluate entry s
  | .advisorySend => Sys2Proof.Machine.execAdvisorySend s
  | .advisoryRefresh => Sys2Proof.Machine.execAdvisoryRefresh s
  | .advisoryRx port bytes => Sys2Proof.Machine.execAdvisoryRx port bytes s
  | .advInject value => Sys2Proof.Machine.execAdvInject value s
  | .advisoryExpiry member => Sys2Proof.Machine.execAdvisoryExpiry member s
  | .freewheelIdle die => Sys2Proof.Machine.execFreewheelIdle die s
  | .freewheelWake die => Sys2Proof.Machine.execFreewheelWake die s
  | .governorReady caps => Sys2Proof.Machine.execGovernorReady caps s
  | .avsTimeout => Sys2Proof.Machine.execAvsTimeout s
  | .remove value => Sys2Proof.Machine.execRemove value s
  | .restore value => Sys2Proof.Machine.execRestore value s
  | .troupeRemoveDone => Sys2Proof.Machine.execTroupeRemoveDone s
  | .troupeRestoreDone => Sys2Proof.Machine.execTroupeRestoreDone s
  | .ringEnable fn kind ring value => Sys2Proof.Machine.execRingEnable fn kind ring value s
  | .ringDoorbell fn kind ring pool count => Sys2Proof.Machine.execRingDoorbell fn kind ring pool count s
  | .rxDeliver entries dmaError => Sys2Proof.Machine.execRxDeliver entries dmaError s
  | .rxWaitExpiry ring => Sys2Proof.Machine.execRxWaitExpiry ring s
  | .interruptCoalesce kind ring => Sys2Proof.Machine.execInterruptCoalesce kind ring s
  | .copy chain data => Sys2Proof.Machine.execCopy chain data s
  | .fill chain data => Sys2Proof.Machine.execFill chain data s
  | .cells chain => Sys2Proof.Machine.execCells chain s
  | .msixAllocWrite f value => Sys2Proof.Machine.execMsixAllocWrite f value s
  | .intRearm fn value => Sys2Proof.Machine.execIntRearm fn value s
  | .winCommit fn value => Sys2Proof.Machine.execWinCommit fn value s
  | .wardenInput kind payload takenA takenB => Sys2Proof.Machine.execWardenInput kind payload takenA takenB s
  | .timerInput takenA takenB => Sys2Proof.Machine.execTimerInput takenA takenB s
  | .commandCopy copies => Sys2Proof.Machine.execCommandCopy copies s
  | .eliminatorWindowExpiry eliminator => Sys2Proof.Machine.execEliminatorWindowExpiry eliminator s
  | .divergenceSelftestEnd failA failB => Sys2Proof.Machine.execDivergenceSelftestEnd failA failB s
  | .lockstepMismatch warden => Sys2Proof.Machine.execLockstepMismatch warden s
  | .watchdogExpiry warden => Sys2Proof.Machine.execWatchdogExpiry warden s
  | .periodicSelftest warden pass => Sys2Proof.Machine.execPeriodicSelftest warden pass s
  | .autoRestart warden => Sys2Proof.Machine.execAutoRestart warden s
  | .wardenLoadDone warden => Sys2Proof.Machine.execWardenLoadDone warden s
  | .wardenSelftestDone warden pass => Sys2Proof.Machine.execWardenSelftestDone warden pass s
  | .resyncDone warden => Sys2Proof.Machine.execResyncDone warden s
  | .restart value => Sys2Proof.Machine.execRestart value s
  | .resign value => Sys2Proof.Machine.execResign value s
  | .restartBoth value => Sys2Proof.Machine.execRestartBoth value s
  | .mailboxDoorbell value => Sys2Proof.Machine.execMailboxDoorbell value s
  | .getInfo => Sys2Proof.Machine.execGetInfo s
  | .echo => Sys2Proof.Machine.execEcho s
  | .mailboxTimeout => Sys2Proof.Machine.execMailboxTimeout s
  | .bbxRecordWrite => Sys2Proof.Machine.execBbxRecordWrite s
  | .bbxScan => Sys2Proof.Machine.execBbxScan s
  | .sealedReadout value => Sys2Proof.Machine.execSealedReadout value s
  | .sealedReadoutDone dmaError => Sys2Proof.Machine.execSealedReadoutDone dmaError s
  | .hostNote value => Sys2Proof.Machine.execHostNote value s
  | .keeperGetStatus => Sys2Proof.Machine.execKeeperGetStatus s
  | .keeperGetRecords first count => Sys2Proof.Machine.execKeeperGetRecords first count s
  | .keeperGetSeal first count nonce => Sys2Proof.Machine.execKeeperGetSeal first count nonce s
  | .extest => Sys2Proof.Machine.execExtest s
  | .idcode => Sys2Proof.Machine.execIdcode s
  | .samplePreload => Sys2Proof.Machine.execSamplePreload s
  | .bypass code => Sys2Proof.Machine.execBypass code s
  | .bbxData bytes => Sys2Proof.Machine.execBbxData bytes s
  | .getVersion transport => Sys2Proof.Machine.execGetVersion transport s
  | .getCapabilities transport => Sys2Proof.Machine.execGetCapabilities transport s
  | .negotiateAlgorithms transport offered => Sys2Proof.Machine.execNegotiateAlgorithms transport offered s
  | .getDigests transport => Sys2Proof.Machine.execGetDigests transport s
  | .getCertificate transport slot offset length => Sys2Proof.Machine.execGetCertificate transport slot offset length s
  | .challenge transport slot nonce => Sys2Proof.Machine.execChallenge transport slot nonce s
  | .getMeasurements transport index nonce signed => Sys2Proof.Machine.execGetMeasurements transport index nonce signed s
  | .spdmUnsupportedRequest transport => Sys2Proof.Machine.execSpdmUnsupportedRequest transport s
  | .aliasDeriveDone => Sys2Proof.Machine.execAliasDeriveDone s
  | .provision fn value => Sys2Proof.Machine.execProvision fn value s
  | .revoke fn value => Sys2Proof.Machine.execRevoke fn value s
  | .fwLoad value => Sys2Proof.Machine.execFwLoad value s
  | .fwLoadDone header payload noHeader noPayload => Sys2Proof.Machine.execFwLoadDone header payload noHeader noPayload s
  | .commitSvn value => Sys2Proof.Machine.execCommitSvn value s
  | .fwBootRead header payload noHeader noPayload => Sys2Proof.Machine.execFwBootRead header payload noHeader noPayload s
  | .keeperPowerOn => Sys2Proof.Machine.execKeeperPowerOn s
  | .keeperRunning => Sys2Proof.Machine.execKeeperRunning s
  | .vddKeepLoss torn => Sys2Proof.Machine.execVddKeepLoss torn s
  | .mainPowerOn ref25 testEn => Sys2Proof.Machine.execMainPowerOn ref25 testEn s
  | .mainPgFall => Sys2Proof.Machine.execMainPgFall s
  | .sysReset lowTicks => Sys2Proof.Machine.execSysReset lowTicks s
  | .resetCtrlWrite fn value => Sys2Proof.Machine.execResetCtrlWrite fn value s
  | .hostReset cause => Sys2Proof.Machine.execHostReset cause s
  | .pcieLinkUp speed widthLog2 => Sys2Proof.Machine.execPcieLinkUp speed widthLog2 s
  | .flr fn => Sys2Proof.Machine.execFlr fn s
  | .pfFlr => Sys2Proof.Machine.execPfFlr s
  | .monitorTrip monitor reading => Sys2Proof.Machine.execMonitorTrip monitor reading s
  | .monitorClear monitor => Sys2Proof.Machine.execMonitorClear monitor s
  | .hostLoadStart value => Sys2Proof.Machine.execHostLoadStart value s
  | .loadAbort value => Sys2Proof.Machine.execLoadAbort value s
  | .imageHeaderCheck head sig list readFailed => Sys2Proof.Machine.execImageHeaderCheck head sig list readFailed s
  | .sectionBodyCheck digest body readFailed => Sys2Proof.Machine.execSectionBodyCheck digest body readFailed s
  | .imageApply => Sys2Proof.Machine.execImageApply s
  | .imageApplyEnd => Sys2Proof.Machine.execImageApplyEnd s
  | .troupeImageApply => Sys2Proof.Machine.execTroupeImageApply s
  | .commit value => Sys2Proof.Machine.execCommit value s
  | .commitFence => Sys2Proof.Machine.execCommitFence s
  | .commitDrainEnd => Sys2Proof.Machine.execCommitDrainEnd s
  | .drainLimitExpiry => Sys2Proof.Machine.execDrainLimitExpiry s
  | .perstDeassert => Sys2Proof.Machine.execPerstDeassert s
  | .sysResetNRelease ref25 => Sys2Proof.Machine.execSysResetNRelease ref25 s
  | .cdrLock lane => Sys2Proof.Machine.execCdrLock lane s
  | .adaptDone lane result => Sys2Proof.Machine.execAdaptDone lane result s
  | .alignmentMarkerLock lane => Sys2Proof.Machine.execAlignmentMarkerLock lane s
  | .portFaultEnd lane kind => Sys2Proof.Machine.execPortFaultEnd lane kind s
  | .ieeeLinkTrainingEnd lane => Sys2Proof.Machine.execIeeeLinkTrainingEnd lane s
  | .checkSync run => Sys2Proof.Machine.execCheckSync run s
  | .configurationRequest w => Sys2Proof.Machine.execConfigurationRequest w s
  | .resyncCopyDone => Sys2Proof.Machine.execResyncCopyDone s
  | .ownerKeyCommandDone => Sys2Proof.Machine.execOwnerKeyCommandDone s
  | .unknownOp => Sys2Proof.Machine.execUnknownOp s
  | .zeroFillDone stack => Sys2Proof.Machine.execZeroFillDone stack s

end Sys2Proof.Machine
end

