-- ==== Sys2Proof/Machine/Step.lean ====
section
/-!
DEFINITION. One step of the part: the command at the front of the queue, or a tick of the clocks where none waits.
-/

namespace Sys2Proof.Machine

/-- A step: the first waiting command leaves the queue and has its effect; with none waiting, a tick passes (log
entry 1). -/
def step (s : State) : Host.Outcome State Fault Refusal :=
  match s.pending with
  | [] => .next s.tick
  | c :: rest => exec c { s with pending := rest }

/-- The part with the command that a word of the table spells in front of its queue. The table gives no row any bits, so no
word spells a command. -/
def State.withFetchWord (s : State) (_nbits _w : Nat) : State := s

end Sys2Proof.Machine
end

