-- ==== Sys2Proof/Safety.lean ====
section
/-!
DEFINITION. What counts as a safe run and a safe state of the part, and what it means that a command leaves a piece of
the state alone, in the terms its statements use.
-/

namespace Sys2Proof.Machine

/-- A run of `k` steps that never stops. -/
def runs : Nat → State → Prop
  | 0, _ => True
  | k + 1, s => ∃ t, step s = .next t ∧ runs k t

/-- The sparse stores are in their canonical form: the two register files, the bytes of the cells, and the capture
ring. -/
def State.wf (s : State) : Prop :=
  rfWf s.regs = true ∧ rfWf s.staging = true ∧ memWf s.sw.mem = true ∧ memWf s.hbm.ring = true

/-- The parts of the state that a statement about what a command leaves alone can name. -/
inductive Part where
  | now | staging
  /-- The switching core but the bytes of its cells, and those bytes. -/
  | sw | mem
  | cf | tim | tb | hif | tel
  /-- Deep memory but the bytes of its capture ring, and those bytes. -/
  | hbm | ring
  | mod | pace | bbx | sec | tnd | pkg | drawn | out
  /-- A register in force, in each of its instances. -/
  | reg (r : Reg)
deriving DecidableEq, Repr

/-- A part of the state is in `t` as it is in `s`; for registers and memories, every register and every byte reads as
before. -/
def Part.same (s t : State) : Part → Prop
  | .now => t.now = s.now
  | .staging => t.staging = s.staging
  | .sw => { t.sw with mem := [] } = { s.sw with mem := [] }
  | .mem => ∀ a, memByte t.sw.mem a = memByte s.sw.mem a
  | .cf => t.cf = s.cf
  | .tim => t.tim = s.tim
  | .tb => t.tb = s.tb
  | .hif => t.hif = s.hif
  | .tel => t.tel = s.tel
  | .hbm => { t.hbm with ring := [] } = { s.hbm with ring := [] }
  | .ring => ∀ a, memByte t.hbm.ring a = memByte s.hbm.ring a
  | .mod => t.mod = s.mod
  | .pace => t.pace = s.pace
  | .bbx => t.bbx = s.bbx
  | .sec => t.sec = s.sec
  | .tnd => t.tnd = s.tnd
  | .pkg => t.pkg = s.pkg
  | .drawn => t.drawn = s.drawn
  | .out => t.out = s.out
  | .reg r => ∀ i, rfGet t.regs r i = rfGet s.regs r i

/-- From `s` to `t` only the named parts may have changed, and the queue of waiting commands has not. -/
def Only (ps : List Part) (s t : State) : Prop := (∀ p, p ∉ ps → Part.same s t p) ∧ t.pending = s.pending

end Sys2Proof.Machine
end

