-- ==== Sys2Proof/Footprints.lean ====
section
/-!
DEFINITION. The footprint of every command: the parts of the state that it can change at all. What a footprint does not
name a command leaves as it was. The commands are grouped in families, as the spec's chapters group them.
-/

namespace Sys2Proof.Machine

/-- The families of commands. -/
inductive Family where
  | bus | links | lanes | mac | ports | transmit | modules | pipes
  | hub | sched | tables | learning | deepMemory | telemetry | time | power
  | troupes | rings | commits | loads | wardens | blackBox | identity | firmware
  | package
deriving DecidableEq, Repr

/-- The family of a command. -/
def family : Instr → Family
  | .improperAccess _ _ _ _ _ => .bus
  | .registerWrite _ _ _ _ => .bus
  | .stagingWrite _ _ _ _ => .bus
  | .clearOnRead _ _ _ => .bus
  | .pairedWrite _ _ _ _ => .bus
  | .pairTimeout => .bus
  | .lerarReplay _ _ => .links
  | .linkRetire _ => .links
  | .linkAutoRetrain _ => .links
  | .linkTrainingEnd _ _ => .links
  | .retrain _ => .links
  | .wavefrontLaunch _ => .pipes
  | .parserPass _ => .pipes
  | .stageExecute _ _ => .pipes
  | .ingressPipeEnd _ => .pipes
  | .egressPipeEnd _ => .pipes
  | .depthMapBroadcast _ => .pipes
  | .depthMapStale _ => .pipes
  | .flowletFlush _ => .pipes
  | .rxFrameStart _ _ _ _ => .mac
  | .ififoXoff _ => .mac
  | .ififoXon _ => .mac
  | .rxFrameEnd _ _ => .mac
  | .rxCodeword _ _ => .lanes
  | .slip _ _ _ => .lanes
  | .rxAlignedSet _ _ => .lanes
  | .txSwitchToData _ _ => .lanes
  | .dataLock _ _ => .lanes
  | .alignLost _ => .lanes
  | .realign _ _ => .lanes
  | .txFirWrite _ _ => .lanes
  | .ieeeTrainingRequest _ _ _ => .lanes
  | .rxCfgWrite _ _ => .lanes
  | .idleEntry _ => .ports
  | .idleRefresh _ => .ports
  | .idleRefreshTimeout _ => .ports
  | .wake _ => .ports
  | .wakeBurstRx _ _ => .ports
  | .pfcFrameTx _ => .mac
  | .pfcRefresh _ _ => .mac
  | .pfcRx _ _ _ => .mac
  | .pauseTimerExpiry _ _ => .mac
  | .macControlIgnored _ => .mac
  | .pfcWatchdog _ _ => .mac
  | .txFrameStart _ _ _ => .transmit
  | .txFrameEnd _ _ => .transmit
  | .txUnderrun _ _ => .transmit
  | .portFault _ _ => .ports
  | .linkDown _ => .ports
  | .linkUp _ => .ports
  | .portEnable _ _ => .ports
  | .portDisable _ _ => .ports
  | .sidebandFrame _ _ _ => .modules
  | .cagePresenceDebounced _ => .modules
  | .cagePwrGood _ => .modules
  | .cageResetRelease _ => .modules
  | .moduleLowPowerReached _ => .modules
  | .cageIdentifyDone _ _ => .modules
  | .cageActivate _ => .modules
  | .cageTimeout _ _ => .modules
  | .moduleRemove _ => .modules
  | .moduleInterrupt _ => .modules
  | .modBusError _ _ => .modules
  | .lifeSample _ _ _ _ => .modules
  | .lifeCheckpoint _ => .modules
  | .modCmd _ => .modules
  | .modCmdDone _ _ => .modules
  | .lookup _ _ => .tables
  | .read _ _ => .tables
  | .insert _ _ => .tables
  | .update _ _ => .tables
  | .upsert _ _ => .tables
  | .delete _ _ => .tables
  | .writeAt _ _ => .tables
  | .clearAt _ _ => .tables
  | .move _ _ => .tables
  | .lpmAdd _ _ => .tables
  | .lpmDelete _ _ => .tables
  | .unpin _ _ => .tables
  | .clearTable _ _ => .tables
  | .tableOpDone _ => .tables
  | .cmdWriteWhileBusy _ => .tables
  | .tableSeedWrite _ _ _ => .tables
  | .learnEventArrival => .learning
  | .learnEventProcess => .learning
  | .flapWindowClose _ _ => .learning
  | .pinHoldExpiry _ _ => .learning
  | .ageClockTick _ => .learning
  | .agingSweepVisit => .learning
  | .promenadeGo _ => .learning
  | .promenadeAbort _ => .learning
  | .promenadeCompare _ => .learning
  | .promenadeCensus => .learning
  | .admission _ => .hub
  | .segmentWrite _ _ _ _ => .hub
  | .frameVerdict _ => .hub
  | .leaseRequest _ _ => .hub
  | .leaseComplete _ => .hub
  | .leaseFree _ _ => .hub
  | .eccUncorrectable _ _ _ => .hub
  | .schedulerPick _ => .sched
  | .wheelSlot _ _ => .sched
  | .overflowMigrate _ => .sched
  | .holdExpiry _ => .sched
  | .flushEnd _ => .sched
  | .mcGroupWrite _ _ => .hub
  | .mcSync _ => .hub
  | .mcSyncDone => .hub
  | .query _ _ => .hub
  | .spillMove => .deepMemory
  | .refill _ => .deepMemory
  | .refillRetry _ _ => .deepMemory
  | .timeSnapshot _ => .time
  | .servoSample _ => .time
  | .ppsEdge _ _ => .time
  | .ppsMissed => .time
  | .servoTimeout => .time
  | .holdoverExpiry => .time
  | .servoDisable _ => .time
  | .refLost => .time
  | .refReturn => .time
  | .pllRelock => .time
  | .ppsOutPulse => .time
  | .synceSquelch _ => .lanes
  | .winGo _ _ => .time
  | .bankSwitch _ => .time
  | .winWriteRefused _ _ => .time
  | .gateChange _ => .time
  | .histSnapshot _ _ => .telemetry
  | .fateUpdate => .telemetry
  | .flowWriteback _ _ => .telemetry
  | .ledgerWriteback => .telemetry
  | .exportSweepVisit => .telemetry
  | .overflowEpisodeEnd => .telemetry
  | .refusedLineRetry _ _ => .telemetry
  | .exportMessageClose _ => .telemetry
  | .templateResend _ => .telemetry
  | .dropInterval _ => .telemetry
  | .stackTrainingEnd _ _ _ => .deepMemory
  | .hbmRetrain _ => .deepMemory
  | .stackFail _ => .deepMemory
  | .hbmActivation _ => .deepMemory
  | .scrub _ _ _ => .deepMemory
  | .hbmUncorr _ _ _ _ => .deepMemory
  | .captureWrite => .deepMemory
  | .captureCopy _ => .deepMemory
  | .captureCopyDone _ => .deepMemory
  | .cadenceSetWrite _ => .power
  | .cadenceWindow _ _ => .power
  | .lagRecover _ => .power
  | .railAdjust _ => .power
  | .rampStart _ => .power
  | .rampEnd => .power
  | .droopDetect _ => .power
  | .droopClear _ => .power
  | .droopResponseEnd => .power
  | .droopLong => .power
  | .thermalSample _ => .power
  | .throttleFall => .power
  | .railFault _ => .power
  | .railRetry _ _ => .power
  | .pmbusMeasure _ => .power
  | .energyTick => .power
  | .phaseBoostStart _ => .power
  | .phaseBoostEnd _ => .power
  | .phaseEvaluate _ => .power
  | .advisorySend => .power
  | .advisoryRefresh => .power
  | .advisoryRx _ _ => .power
  | .advInject _ => .power
  | .advisoryExpiry _ => .power
  | .freewheelIdle _ => .power
  | .freewheelWake _ => .power
  | .governorReady _ => .power
  | .avsTimeout => .power
  | .remove _ => .troupes
  | .restore _ => .troupes
  | .troupeRemoveDone => .troupes
  | .troupeRestoreDone => .troupes
  | .ringEnable _ _ _ _ => .rings
  | .ringDoorbell _ _ _ _ _ => .rings
  | .rxDeliver _ _ => .rings
  | .rxWaitExpiry _ => .rings
  | .interruptCoalesce _ _ => .rings
  | .copy _ _ => .rings
  | .fill _ _ => .rings
  | .cells _ => .rings
  | .msixAllocWrite _ _ => .rings
  | .intRearm _ _ => .rings
  | .winCommit _ _ => .commits
  | .wardenInput _ _ _ _ => .wardens
  | .timerInput _ _ => .wardens
  | .commandCopy _ => .wardens
  | .eliminatorWindowExpiry _ => .wardens
  | .divergenceSelftestEnd _ _ => .wardens
  | .lockstepMismatch _ => .wardens
  | .watchdogExpiry _ => .wardens
  | .periodicSelftest _ _ => .wardens
  | .autoRestart _ => .wardens
  | .wardenLoadDone _ => .wardens
  | .wardenSelftestDone _ _ => .wardens
  | .resyncDone _ => .wardens
  | .restart _ => .wardens
  | .resign _ => .wardens
  | .restartBoth _ => .wardens
  | .mailboxDoorbell _ => .wardens
  | .getInfo => .wardens
  | .echo => .wardens
  | .mailboxTimeout => .wardens
  | .bbxRecordWrite => .blackBox
  | .bbxScan => .blackBox
  | .sealedReadout _ => .blackBox
  | .sealedReadoutDone _ => .blackBox
  | .hostNote _ => .blackBox
  | .keeperGetStatus => .blackBox
  | .keeperGetRecords _ _ => .blackBox
  | .keeperGetSeal _ _ _ => .blackBox
  | .extest => .package
  | .idcode => .package
  | .samplePreload => .package
  | .bypass _ => .package
  | .bbxData _ => .package
  | .getVersion _ => .identity
  | .getCapabilities _ => .identity
  | .negotiateAlgorithms _ _ => .identity
  | .getDigests _ => .identity
  | .getCertificate _ _ _ _ => .identity
  | .challenge _ _ _ => .identity
  | .getMeasurements _ _ _ _ => .identity
  | .spdmUnsupportedRequest _ => .identity
  | .aliasDeriveDone => .identity
  | .provision _ _ => .identity
  | .revoke _ _ => .identity
  | .fwLoad _ => .firmware
  | .fwLoadDone _ _ _ _ => .firmware
  | .commitSvn _ => .firmware
  | .fwBootRead _ _ _ _ => .firmware
  | .keeperPowerOn => .package
  | .keeperRunning => .package
  | .vddKeepLoss _ => .package
  | .mainPowerOn _ _ => .package
  | .mainPgFall => .package
  | .sysReset _ => .package
  | .resetCtrlWrite _ _ => .package
  | .hostReset _ => .troupes
  | .pcieLinkUp _ _ => .troupes
  | .flr _ => .troupes
  | .pfFlr => .troupes
  | .monitorTrip _ _ => .package
  | .monitorClear _ => .package
  | .hostLoadStart _ => .loads
  | .loadAbort _ => .loads
  | .imageHeaderCheck _ _ _ _ => .loads
  | .sectionBodyCheck _ _ _ => .loads
  | .imageApply => .loads
  | .imageApplyEnd => .loads
  | .troupeImageApply => .loads
  | .commit _ => .commits
  | .commitFence => .commits
  | .commitDrainEnd => .commits
  | .drainLimitExpiry => .commits
  | .perstDeassert => .troupes
  | .sysResetNRelease _ => .package
  | .cdrLock _ => .lanes
  | .adaptDone _ _ => .lanes
  | .alignmentMarkerLock _ => .lanes
  | .portFaultEnd _ _ => .ports
  | .ieeeLinkTrainingEnd _ => .lanes
  | .checkSync _ => .lanes
  | .configurationRequest _ => .troupes
  | .resyncCopyDone => .wardens
  | .ownerKeyCommandDone => .identity
  | .unknownOp => .wardens
  | .zeroFillDone _ => .deepMemory

/-! ## Areas that several commands share -/

/-- A record on its way to the black box (R562 to R566). -/
def areaRecord : List Part :=
  [ .hif, .bbx, .out, .reg .TOP_INT_CAUSE, .reg .BBX_LOSS, .reg .BBX_INT_CAUSE ]

/-- A command copy of a warden acts on its target (R546 to R550). -/
def areaWarden : List Part :=
  [ .sw, .tim, .tb, .hif, .bbx, .tnd, .drawn, .out, .reg .TOP_READY, .reg .TOP_READY_CHANGE, .reg .TBL_INT_CAUSE,
    .reg .TBL_LEARN_CFG, .reg .TBL_REPORT_DROPS, .reg .TBL_PROM_CTRL, .reg .TBL_PROM_STATUS, .reg .TBL_STATUS,
    .reg .TBL_AGE_CFG, .reg .TIME_STATUS, .reg .TIME_RATE, .reg .TIME_SERVO_STATUS, .reg .TIME_INT_CAUSE,
    .reg .QM_WIN_STATUS, .reg .PACE_PHASE_A, .reg .TOP_INT_CAUSE, .reg .HIF_RX_CQ_IDX, .reg .HIF_TX_IDX,
    .reg .HIF_TLM_IDX, .reg .HIF_RPT_IDX, .reg .HIF_RPT_STATUS, .reg .TND_STATUS, .reg .TND_ELIM_COUNT,
    .reg .TND_DIVERGE_INFO, .reg .TND_MBX_CTRL, .reg .TND_DIVERGE_DIGEST, .reg .TND_MBX_REPLY, .reg .TND_INT_CAUSE,
    .reg .BBX_LOSS, .reg .BBX_INT_CAUSE ]

/-- A copy of a frame leaves its queue or its port without being sent. -/
def areaCopyDrop : List Part :=
  [ .sw, .hif, .tel, .bbx, .drawn, .out, .reg .PIPE_IFIFO_STATUS, .reg .CELL_ADM_STATUS, .reg .CELL_TROUPE_QUOTA,
    .reg .CELL_PP_STATUS, .reg .CELL_POOL_STATUS, .reg .CELL_RECORD_STATUS, .reg .CELL_FREE_FAULT,
    .reg .CELL_FREE_FAULT_CELL, .reg .CELL_INT_CAUSE, .reg .TEL_INT_CAUSE, .reg .TEL_EXPORT_STATUS,
    .reg .TEL_DROP_COUNT, .reg .TOP_INT_CAUSE, .reg .WIN_INT_CAUSE, .reg .BBX_LOSS, .reg .BBX_INT_CAUSE ]

/-- A troupe image comes into force (R86, R102). -/
def areaTroupeImage : List Part :=
  [ .staging, .cf, .tb, .hif, .bbx, .sec, .out, .reg .CFG_LOAD_STATUS, .reg .CFG_INT_CAUSE, .reg .CFG_TROUPE_SERIAL,
    .reg .TOP_TROUPE_READY, .reg .LANE_CFG, .reg .PORT_INFO, .reg .PIPE_PROG_INFO, .reg .PIPE_MIRROR_CFG,
    .reg .TBL_INFO, .reg .TBL_CMD_CTRL, .reg .TBL_TABLE_INFO, .reg .TBL_STATUS, .reg .TBL_TABLE_COUNT,
    .reg .TBL_TABLE_SEED, .reg .POL_INFO, .reg .POL_BIND, .reg .CELL_TROUPE_QUOTA, .reg .CELL_INFO, .reg .QM_INFO,
    .reg .QM_QSHAPER_STATE, .reg .QM_CG_CFG, .reg .MC_INFO, .reg .MC_TROUPE_RANGE, .reg .MC_GROUP, .reg .HBM_INFO,
    .reg .HBM_CAPTURE_CFG, .reg .HBM_TROUPE_SPILL, .reg .TOP_INT_CAUSE, .reg .WIN_STATE, .reg .WIN_INT_CAUSE,
    .reg .WIN_RES0, .reg .BBX_LOSS, .reg .BBX_INT_CAUSE ]

/-- The cadence and what limits it (R470 to R504). -/
def areaCadence : List Part :=
  [ .hif, .pace, .bbx, .out, .reg .PACE_STATUS, .reg .PACE_FOLLOW_STATUS, .reg .PACE_INT_CAUSE, .reg .TOP_INT_CAUSE,
    .reg .BBX_LOSS, .reg .BBX_INT_CAUSE ]

/-- A frame is dropped on its way in. -/
def areaFrameDrop : List Part :=
  [ .sw, .hif, .tel, .drawn, .out, .reg .TEL_INT_CAUSE, .reg .TEL_EXPORT_STATUS, .reg .TEL_DROP_COUNT,
    .reg .TOP_INT_CAUSE, .reg .WIN_INT_CAUSE ]

/-- Cells come back to their pool or go to a lease (R315 to R329). -/
def areaCells : List Part :=
  [ .sw, .reg .CELL_ADM_STATUS, .reg .CELL_TROUPE_QUOTA, .reg .CELL_PP_STATUS, .reg .CELL_POOL_STATUS ]

/-- The rings of a troupe are reset (R523). -/
def areaRingReset : List Part :=
  [ .hif, .reg .HIF_RX_CFG, .reg .HIF_TX_CFG, .reg .HIF_TLM_CFG, .reg .HIF_RPT_CFG, .reg .HIF_RX_CQ,
    .reg .HIF_TX_RING, .reg .HIF_TLM_RING, .reg .HIF_RPT_RING, .reg .HIF_RX_CQ_WB, .reg .HIF_TX_WB,
    .reg .HIF_TLM_WB, .reg .HIF_RPT_WB, .reg .HIF_RX_CQ_IDX, .reg .HIF_TX_IDX, .reg .HIF_TLM_IDX, .reg .HIF_RPT_IDX,
    .reg .HIF_RX_STATUS, .reg .HIF_TX_STATUS, .reg .HIF_TLM_STATUS, .reg .HIF_RPT_STATUS, .reg .HIF_RX_POOL,
    .reg .HIF_RX_POOL_IDX, .reg .HIF_RX_BUF_SIZE ]

/-- An error of a ring (R521, R522, R527). -/
def areaRingError : List Part :=
  [ .hif, .out, .reg .TOP_INT_CAUSE, .reg .HIF_INT_CAUSE, .reg .HIF_RX_CFG, .reg .HIF_TX_CFG, .reg .HIF_TLM_CFG,
    .reg .HIF_RPT_CFG, .reg .HIF_RX_STATUS, .reg .HIF_TX_STATUS, .reg .HIF_TLM_STATUS, .reg .HIF_RPT_STATUS,
    .reg .WIN_INT_CAUSE ]

/-- A report of the tables to the host (R278, R279). -/
def areaTableReport : List Part :=
  [ .tb, .hif, .out, .reg .TBL_INT_CAUSE, .reg .TBL_REPORT_DROPS, .reg .TOP_INT_CAUSE, .reg .HIF_RX_CQ_IDX,
    .reg .HIF_TX_IDX, .reg .HIF_TLM_IDX, .reg .HIF_RPT_IDX, .reg .HIF_RPT_STATUS ]

/-- A bit of TOP.READY changes (R112, R119). -/
def areaReady : List Part :=
  [ .hif, .bbx, .out, .reg .TOP_READY, .reg .TOP_READY_CHANGE, .reg .TOP_INT_CAUSE, .reg .BBX_LOSS,
    .reg .BBX_INT_CAUSE ]

/-- The state of a module cage (R174 to R183). -/
def areaCage : List Part :=
  [ .hif, .mod, .out, .reg .MOD_INT_CAUSE, .reg .MOD_CAGE_STATUS, .reg .TOP_INT_CAUSE ]

/-- A copy of a frame enters its queue (R322, R364). -/
def areaEnqueue : List Part :=
  [ .sw, .tel, .hbm, .pace, .reg .PIPE_MIRROR_STATS, .reg .CELL_RECORD_STATUS, .reg .CELL_CT_COUNT, .reg .MC_STATS ]

/-- A port loses its alignment (R133, R161). -/
def areaAlignLost : List Part :=
  [ .sw, .hif, .out, .reg .LANE_ALIGN_STATUS, .reg .PORT_STATUS, .reg .PORT_EVENT, .reg .PORT_INT_CAUSE,
    .reg .TOP_INT_CAUSE ]

/-- A cell is named that is not the troupe's own (R328, R329). -/
def areaCellFault : List Part :=
  [ .hif, .bbx, .out, .reg .CELL_FREE_FAULT, .reg .CELL_FREE_FAULT_CELL, .reg .CELL_INT_CAUSE, .reg .TOP_INT_CAUSE,
    .reg .WIN_INT_CAUSE, .reg .BBX_LOSS, .reg .BBX_INT_CAUSE ]

/-- A shaper and its credit (R349 to R352). -/
def areaShaper : List Part :=
  [ .sw, .reg .QM_CAL_STATUS, .reg .QM_PORT_SHAPER_STATE, .reg .QM_CG_SHAPER_STATE, .reg .QM_QSHAPER_STATE ]

/-! The registers in the order of their numbers, in parts of forty. -/

def regs1 : List Reg :=
  [ .LNK_LINK_STATUS, .LNK_LINK_ERRORS, .LNK_CFG, .LNK_CTRL, .LNK_DIE_STATUS, .PIPE_IFIFO_CFG,
    .PIPE_IFIFO_STATUS, .PIPE_IFIFO_DROPS, .CFG_LOAD_CTRL, .CFG_LOAD_ADDR, .CFG_LOAD_STATUS, .CFG_IMAGE_INFO,
    .CFG_IMAGE_MODE, .CFG_BOOT, .CFG_SERIAL_FLOOR, .CFG_COMMIT, .CFG_EPOCH, .CFG_DRAIN_STATUS,
    .CFG_DRAIN_CFG, .CFG_COMMIT_STATUS, .CFG_VIEW, .CFG_PAIR_STATUS, .CFG_PAIR_DISCARD,
    .CFG_PAIR_DISCARD_VALUE, .CFG_INT_CAUSE, .CFG_INT_EN, .CFG_TROUPE_SERIAL, .TOP_IDENT, .TOP_BOOT_INFO,
    .TOP_RESET_CTRL, .TOP_READY, .TOP_READY_CHANGE, .TOP_READY_INT_EN, .TOP_TROUPE_READY, .LANE_CFG,
    .LANE_TX_FIR, .LANE_RX_CFG, .LANE_RX_STATUS, .LANE_ALIGN_CTRL, .LANE_ALIGN_STATUS ]

def regs2 : List Reg :=
  [ .LANE_IDLE_CFG, .LANE_IDLE_STATUS, .LANE_ERR, .LANE_TEST, .PORT_CFG, .PORT_STATUS, .PORT_INFO, .PORT_SA,
    .PORT_PFC_CFG, .PORT_PFC_STATUS, .PORT_TS_CFG, .PORT_TS_INFO, .PORT_DSCP_MAP, .PORT_EVENT,
    .PORT_EVENT_EN, .PORT_COUNTER, .PORT_INT_CAUSE, .MOD_CFG, .MOD_CHAIN_STATUS, .MOD_BUS_STATUS, .MOD_CMD,
    .MOD_CMD_DATA, .MOD_INT_CAUSE, .MOD_INT_EN, .MOD_CAGE_CTRL, .MOD_CAGE_STATUS, .MOD_IDENT, .MOD_LIFE,
    .PIPE_PROG_INFO, .PIPE_DEPTH_MAP_CFG, .PIPE_ADAPT_CFG, .PIPE_DEPTH_MAP_STATUS, .PIPE_INT_CAUSE,
    .PIPE_INT_EN, .PIPE_HASH_SEED, .PIPE_DEPTH_MAP, .PIPE_IP_CTRL, .PIPE_IP_COUNT, .PIPE_IP_EXC,
    .PIPE_EP_COUNT ]

def regs3 : List Reg :=
  [ .PIPE_EP_EXC, .PIPE_MIRROR_CFG, .PIPE_MIRROR_STATS, .TBL_INFO, .TBL_INT_CAUSE, .TBL_INT_EN,
    .TBL_CMD_DONE, .TBL_LEARN_CFG, .TBL_LEARN_STATUS, .TBL_LEARN_COUNT, .TBL_LEARN_DROPS, .TBL_REPORT_DROPS,
    .TBL_SWEEP_STATUS, .TBL_PROM_CTRL, .TBL_PROM_ADDR, .TBL_PROM_STATUS, .TBL_CMD_CTRL, .TBL_CMD_LOC,
    .TBL_CMD_RESULT, .TBL_CMD_ENTRY, .TBL_TABLE_INFO, .TBL_STATUS, .TBL_TABLE_CTRL, .TBL_TABLE_COUNT,
    .TBL_AGE_CFG, .TBL_TABLE_SEED, .POL_INFO, .POL_CFG, .POL_BIND, .POL_TOKENS, .POL_STATS,
    .QM_ADM_PROFILE_A, .QM_ADM_PROFILE_B, .QM_Q_PROFILE, .QM_PORT_ADM, .QM_TROUPE_ADM, .QM_PP_ADM,
    .CELL_ADM_STATUS, .CELL_ADM_RESERVED, .CELL_TROUPE_QUOTA ]

def regs4 : List Reg :=
  [ .CELL_PP_STATUS, .CELL_INFO, .CELL_POOL_STATUS, .CELL_RECORD_STATUS, .CELL_EXHAUST, .CELL_COPY_STATUS,
    .CELL_CT_COUNT, .CELL_BW_STATUS, .CELL_ECC, .CELL_LOST, .CELL_FREE_FAULT, .CELL_FREE_FAULT_CELL,
    .CELL_INT_CAUSE, .CELL_INT_EN, .CELL_LEASE_CTRL, .CELL_LEASE_FREE, .CELL_LEASE_RESULT,
    .CELL_LEASE_STATUS, .QM_INFO, .QM_CAL_STATUS, .QM_INT_CAUSE, .QM_INT_EN, .QM_QUERY, .QM_QUERY_RESULT0,
    .QM_QUERY_RESULT1, .QM_PORT_HOLD, .QM_PORT_CFG, .QM_PORT_STATUS, .QM_PORT_FLUSHED, .QM_PORT_SHAPER,
    .QM_CG_SHAPER, .QM_QSHAPER, .QM_PORT_SHAPER_STATE, .QM_CG_SHAPER_STATE, .QM_QSHAPER_STATE, .QM_CG_CFG,
    .QM_CG_STATUS, .QM_Q_WEIGHT, .MC_INFO, .MC_SYNC ]

def regs5 : List Reg :=
  [ .MC_STATS, .MC_STATS2, .MC_TROUPE_RANGE, .MC_GROUP, .MC_MEMBER, .TIME_STATUS, .TIME_NOW_SUB,
    .TIME_PPS_STAMP_SUB, .TIME_NOW_SEC, .TIME_PPS_STAMP_SEC, .TIME_RAW_LO, .TIME_RAW_HI, .TIME_RATE,
    .TIME_STEP_NS, .TIME_SERVO_CFG, .TIME_SERVO_CFG2, .TIME_SERVO_OFFSET, .TIME_SERVO_STATUS, .TIME_PPS_IN,
    .TIME_PPS_OUT, .TIME_PTP_STATS, .TIME_SYNCE, .TIME_INT_CAUSE, .TIME_INT_EN, .TIME_PTP_PEER, .QM_WIN_CTRL,
    .QM_WIN_STATUS, .QM_WIN_BANK, .QM_WIN_BASE_SEC, .QM_WIN_BASE_NS, .QM_WIN_GCL, .TEL_HIST_CFG,
    .TEL_HIST_CTRL, .TEL_HIST_BIN, .TEL_FLOW_CFG, .TEL_FLOW_CFG2, .TEL_FLOW_STATUS, .TEL_FLOW_COUNT,
    .TEL_FLOW_COUNT2, .TEL_FLOW_CAP ]

def regs6 : List Reg :=
  [ .TEL_IPFIX_CFG, .TEL_IOAM_STATS, .TEL_KEY_FIELD, .TEL_IOAM_CFG, .TEL_IOAM_CFG2, .TEL_IOAM_CFG3,
    .TEL_INT_CAUSE, .TEL_INT_EN, .TEL_TROUPE_FLOW, .TEL_TROUPE_FLOWS, .TEL_EXPORT_CFG, .TEL_EXPORT_CFG2,
    .TEL_DROP_CFG, .TEL_EXPORT_STATUS, .TEL_EXPORT_SEQ, .TEL_EXPORT_HDR, .TEL_UNTRACKED, .TEL_DROP_COUNT,
    .HBM_INFO, .HBM_STATUS, .HBM_ECC, .HBM_CTRL, .HBM_NRR_CFG, .HBM_FAIL_CFG, .HBM_SPILL_CFG,
    .HBM_SPILL_STATUS, .HBM_SPILL_COUNT, .HBM_SPILL_COUNT2, .HBM_CAPTURE_CFG, .HBM_CAPTURE_STATUS,
    .HBM_CAPTURE_RELEASE, .HBM_CAPTURE_COUNT, .HBM_COPY_ADDR, .HBM_COPY_OFF, .HBM_COPY_CTRL,
    .HBM_LEDGER_STATUS, .HBM_INT_CAUSE, .HBM_INT_EN, .HBM_SPILL_PROFILE, .HBM_TROUPE_SPILL ]

def regs7 : List Reg :=
  [ .PACE_CADENCE_SET, .PACE_STATUS, .PACE_COUNT, .PACE_AVS_CFG, .PACE_DROOP_CFG, .PACE_DROOP_STATUS,
    .PACE_THERMAL_CFG, .PACE_THERMAL_STATUS, .PACE_PHASE_CFG, .PACE_PELOTON_CFG, .PACE_ADV_DA,
    .PACE_FREEWHEEL_CFG, .PACE_FOLLOW_STATUS, .PACE_ENERGY_CFG, .PACE_ADV_LAST, .PACE_ADV_LAST2,
    .PACE_ADV_INJECT, .PACE_ADV_INJECT2, .PACE_INT_CAUSE, .PACE_INT_EN, .PACE_ADV_PORTS, .PACE_DOMAIN_STATUS,
    .PACE_RAIL_CFG, .PACE_RAIL_STATUS, .PACE_TEMP, .PACE_PHASE_A, .PACE_PHASE_B, .PACE_PHASE_C,
    .PACE_PHASE_D, .PACE_COEF, .PACE_LEAK, .PACE_ENERGY_TROUPE, .PACE_ENERGY_PIPE, .PACE_ENERGY_MEASURED,
    .PACE_ENERGY_SHARED, .PACE_ENERGY_UNATTR, .PACE_ENERGY_PORT, .TOP_INT_CAUSE, .TOP_INT_MASK,
    .TOP_INT_REARM ]

def regs8 : List Reg :=
  [ .HIF_LINK_STATUS, .HIF_BAD_ACCESS, .HIF_BAD_ACCESS_ADDR, .HIF_INT_CAUSE, .HIF_INT_EN, .HIF_MSIX_ALLOC,
    .HIF_TROUPE_CTRL, .HIF_TROUPE_STATE, .HIF_RX_CFG, .HIF_TX_CFG, .HIF_TLM_CFG, .HIF_RPT_CFG, .HIF_RX_CQ,
    .HIF_TX_RING, .HIF_TLM_RING, .HIF_RPT_RING, .HIF_RX_CQ_WB, .HIF_TX_WB, .HIF_TLM_WB, .HIF_RPT_WB,
    .HIF_RX_CQ_IDX, .HIF_TX_IDX, .HIF_TLM_IDX, .HIF_RPT_IDX, .HIF_RX_STATUS, .HIF_TX_STATUS, .HIF_TLM_STATUS,
    .HIF_RPT_STATUS, .HIF_RX_POOL, .HIF_RX_POOL_IDX, .HIF_RX_BUF_SIZE, .WIN_STATE, .WIN_INT_CAUSE,
    .WIN_INT_EN, .WIN_CMD_DONE, .WIN_COMMIT, .WIN_RES0, .WIN_RES1, .WIN_PORT_MAP, .TND_STATUS ]

def regs9 : List Reg :=
  [ .TND_WARDEN, .TND_CFG, .TND_CTRL, .TND_ELIM_COUNT, .TND_DIVERGE_INFO, .TND_INPUT_STATUS, .TND_MBX_CTRL,
    .TND_DIVERGE_DIGEST, .TND_MBX_REQ, .TND_MBX_REPLY, .TND_INT_CAUSE, .TND_INT_EN, .BBX_STATUS,
    .BBX_STATUS2, .BBX_LOSS, .BBX_READ_CTRL, .BBX_READ_FIRST, .BBX_READ_ADDR, .BBX_NONCE, .BBX_HOST_NOTE,
    .BBX_HOST_NOTE_CTRL, .BBX_INT_CAUSE, .BBX_INT_EN, .SEC_UNIT_ID_LO, .SEC_UNIT_ID_HI, .SEC_STATUS,
    .SEC_OWNER_SLOT, .SEC_OWNER_HASH, .SEC_KEY_CTRL, .SEC_KEY_BUF, .SEC_FW_CTRL, .SEC_FW_ADDR,
    .SEC_FW_STATUS, .SEC_FW_BOOT, .SEC_INT_CAUSE, .SEC_INT_EN, .TOP_MON_STATUS, .TOP_MON_READING,
    .PIPE_PROG_REG ]

/-- Every register, in the order of their numbers. -/
def everyReg : List Reg :=
  regs1 ++ regs2 ++ regs3 ++ regs4 ++ regs5 ++ regs6 ++ regs7 ++ regs8 ++ regs9

/-- Every register but the named ones. -/
def regsBut (rs : List Reg) : List Part := (everyReg.filter fun r => !rs.contains r).map Part.reg

/-- Every part of the state that is not a register. -/
def everyBlock : List Part :=
  [ .now, .staging, .sw, .mem, .cf, .tim, .tb, .hif, .tel, .hbm, .ring, .mod, .pace, .bbx, .sec, .tnd, .pkg, .drawn, .out ]

/-! ## The footprints -/

/-- What a command can change. -/
def footprint : Instr → List Part
  | .improperAccess _ _ _ _ _ =>
    [.hif, .out, .reg .TOP_INT_CAUSE, .reg .HIF_BAD_ACCESS, .reg .HIF_BAD_ACCESS_ADDR, .reg .HIF_INT_CAUSE,
      .reg .WIN_INT_CAUSE]
  | .registerWrite _ _ _ _ => everyBlock ++ regsBut []
  | .stagingWrite _ _ _ _ => everyBlock ++ regsBut []
  | .clearOnRead _ _ _ =>
    [.sw, .cf, .tim, .hif, .out, .reg .LNK_LINK_ERRORS, .reg .PIPE_IFIFO_STATUS, .reg .PIPE_IFIFO_DROPS,
      .reg .CFG_DRAIN_STATUS, .reg .CFG_PAIR_STATUS, .reg .LANE_ALIGN_STATUS, .reg .LANE_IDLE_STATUS,
      .reg .LANE_ERR, .reg .LANE_TEST, .reg .PORT_STATUS, .reg .MOD_CHAIN_STATUS, .reg .MOD_BUS_STATUS,
      .reg .MOD_CAGE_STATUS, .reg .PIPE_DEPTH_MAP_STATUS, .reg .PIPE_IP_COUNT, .reg .PIPE_IP_EXC,
      .reg .PIPE_EP_COUNT, .reg .PIPE_EP_EXC, .reg .PIPE_MIRROR_STATS, .reg .TBL_LEARN_COUNT, .reg .TBL_LEARN_DROPS,
      .reg .TBL_REPORT_DROPS, .reg .TBL_SWEEP_STATUS, .reg .TBL_PROM_STATUS, .reg .POL_TOKENS, .reg .POL_STATS,
      .reg .CELL_POOL_STATUS, .reg .CELL_EXHAUST, .reg .CELL_COPY_STATUS, .reg .CELL_CT_COUNT, .reg .CELL_BW_STATUS,
      .reg .CELL_ECC, .reg .CELL_FREE_FAULT, .reg .QM_CAL_STATUS, .reg .QM_PORT_STATUS, .reg .QM_PORT_FLUSHED,
      .reg .QM_CG_STATUS, .reg .MC_STATS, .reg .MC_STATS2, .reg .TIME_STATUS, .reg .TIME_NOW_SUB,
      .reg .TIME_NOW_SEC, .reg .TIME_RAW_LO, .reg .TIME_RAW_HI, .reg .TIME_SERVO_STATUS, .reg .TIME_PPS_IN,
      .reg .TIME_PTP_STATS, .reg .QM_WIN_STATUS, .reg .TEL_FLOW_COUNT, .reg .TEL_FLOW_COUNT2, .reg .TEL_IOAM_STATS,
      .reg .TEL_TROUPE_FLOWS, .reg .TEL_EXPORT_STATUS, .reg .HBM_ECC, .reg .HBM_NRR_CFG, .reg .HBM_SPILL_COUNT,
      .reg .HBM_SPILL_COUNT2, .reg .HBM_CAPTURE_COUNT, .reg .HBM_LEDGER_STATUS, .reg .PACE_COUNT,
      .reg .PACE_FOLLOW_STATUS, .reg .PACE_PHASE_D, .reg .TOP_INT_CAUSE, .reg .HIF_BAD_ACCESS,
      .reg .HIF_BAD_ACCESS_ADDR, .reg .HIF_INT_CAUSE, .reg .HIF_TROUPE_STATE, .reg .HIF_RX_STATUS,
      .reg .HIF_TX_STATUS, .reg .HIF_TLM_STATUS, .reg .HIF_RPT_STATUS, .reg .WIN_INT_CAUSE, .reg .TND_WARDEN,
      .reg .TND_ELIM_COUNT, .reg .TND_INPUT_STATUS, .reg .BBX_LOSS, .reg .TOP_MON_READING]
  | .pairedWrite _ _ _ _ => everyBlock ++ regsBut []
  | .pairTimeout =>
    [.cf, .hif, .out, .reg .CFG_PAIR_STATUS, .reg .CFG_PAIR_DISCARD, .reg .CFG_PAIR_DISCARD_VALUE,
      .reg .CFG_INT_CAUSE, .reg .TOP_INT_CAUSE, .reg .WIN_INT_CAUSE]
  | .lerarReplay _ _ => [.sw, .reg .LNK_LINK_ERRORS]
  | .linkRetire _ =>
    areaRecord ++
      [.sw, .reg .LNK_LINK_STATUS, .reg .LNK_DIE_STATUS]
  | .linkAutoRetrain _ => [.sw, .reg .LNK_LINK_STATUS, .reg .LNK_DIE_STATUS]
  | .linkTrainingEnd _ _ =>
    areaReady ++
      [.sw, .reg .LNK_LINK_STATUS, .reg .LNK_DIE_STATUS, .reg .TBL_STATUS]
  | .retrain _ => [.sw, .reg .LNK_LINK_STATUS, .reg .LNK_DIE_STATUS]
  | .wavefrontLaunch _ =>
    [.sw, .cf, .pace, .reg .PIPE_IFIFO_STATUS, .reg .CFG_COMMIT_STATUS, .reg .PIPE_IP_COUNT, .reg .PIPE_EP_COUNT,
      .reg .POL_CFG, .reg .POL_TOKENS, .reg .PIPE_PROG_REG]
  | .parserPass _ => [.sw, .reg .PIPE_IP_EXC]
  | .stageExecute _ _ =>
    areaCopyDrop ++
      [.tb, .pace, .reg .PIPE_DEPTH_MAP_STATUS, .reg .PIPE_INT_CAUSE, .reg .PIPE_IP_EXC, .reg .PIPE_EP_EXC,
      .reg .POL_TOKENS, .reg .POL_STATS]
  | .ingressPipeEnd _ =>
    areaFrameDrop ++ areaCells ++ areaRecord ++
      [.pace, .reg .PIPE_IFIFO_STATUS, .reg .PIPE_INT_CAUSE, .reg .PIPE_IP_EXC, .reg .TEL_FLOW_STATUS,
      .reg .TEL_FLOW_COUNT, .reg .TEL_FLOW_COUNT2, .reg .TEL_FLOW_CAP, .reg .TEL_TROUPE_FLOWS, .reg .TEL_UNTRACKED]
  | .egressPipeEnd _ =>
    areaCopyDrop ++
      [.pace, .reg .PIPE_INT_CAUSE, .reg .PIPE_IP_EXC, .reg .PIPE_EP_EXC]
  | .depthMapBroadcast _ => [.sw, .reg .PIPE_DEPTH_MAP_STATUS, .reg .PIPE_DEPTH_MAP]
  | .depthMapStale _ =>
    [.sw, .hif, .out, .reg .PIPE_DEPTH_MAP_STATUS, .reg .PIPE_INT_CAUSE, .reg .TOP_INT_CAUSE]
  | .flowletFlush _ => [.staging, .sw]
  | .rxFrameStart _ _ _ _ =>
    areaFrameDrop ++
      [.reg .PIPE_IFIFO_STATUS, .reg .PIPE_IFIFO_DROPS]
  | .ififoXoff _ => [.hif, .out, .reg .PIPE_IFIFO_STATUS, .reg .PIPE_INT_CAUSE, .reg .TOP_INT_CAUSE]
  | .ififoXon _ => [.reg .PIPE_IFIFO_STATUS]
  | .rxFrameEnd _ _ =>
    areaFrameDrop ++
      [.pace, .reg .PIPE_IFIFO_STATUS, .reg .PORT_COUNTER]
  | .rxCodeword _ _ =>
    [.sw, .hif, .out, .reg .LANE_ALIGN_STATUS, .reg .LANE_ERR, .reg .PORT_EVENT, .reg .PORT_COUNTER,
      .reg .PORT_INT_CAUSE, .reg .TOP_INT_CAUSE]
  | .slip _ _ _ => [.sw, .reg .LANE_ALIGN_STATUS]
  | .rxAlignedSet _ _ => [.sw, .out, .reg .LANE_ALIGN_STATUS]
  | .txSwitchToData _ _ => [.sw, .reg .LANE_ALIGN_STATUS]
  | .dataLock _ _ => [.sw, .out, .reg .LANE_ALIGN_STATUS, .reg .PORT_STATUS]
  | .alignLost _ =>
    areaAlignLost ++
      [.reg .LANE_IDLE_STATUS]
  | .realign _ _ => [.sw, .out, .reg .LANE_ALIGN_STATUS]
  | .txFirWrite _ _ => [.reg .LANE_TX_FIR]
  | .ieeeTrainingRequest _ _ _ => [.sw, .drawn, .out, .reg .LANE_TX_FIR]
  | .rxCfgWrite _ _ => [.reg .LANE_RX_CFG, .reg .LANE_RX_STATUS]
  | .idleEntry _ => [.sw, .out, .reg .LANE_IDLE_STATUS]
  | .idleRefresh _ => [.sw, .out]
  | .idleRefreshTimeout _ => [.sw, .out, .reg .LANE_RX_STATUS, .reg .LANE_IDLE_STATUS, .reg .PORT_STATUS]
  | .wake _ => [.sw, .out, .reg .LANE_IDLE_STATUS]
  | .wakeBurstRx _ _ =>
    areaAlignLost ++
      [.reg .LANE_IDLE_STATUS]
  | .pfcFrameTx _ => [.sw, .out, .reg .PORT_PFC_STATUS, .reg .PORT_COUNTER]
  | .pfcRefresh _ _ => [.sw]
  | .pfcRx _ _ _ => [.sw, .reg .PORT_PFC_STATUS, .reg .PORT_COUNTER]
  | .pauseTimerExpiry _ _ => [.sw, .reg .PORT_PFC_STATUS]
  | .macControlIgnored _ => [.reg .PORT_COUNTER]
  | .pfcWatchdog _ _ =>
    [.hif, .out, .reg .PORT_PFC_STATUS, .reg .PORT_EVENT, .reg .PORT_INT_CAUSE, .reg .TOP_INT_CAUSE]
  | .txFrameStart _ _ _ =>
    areaCellFault ++ areaCells ++
      [.tel, .drawn, .reg .PIPE_IFIFO_STATUS, .reg .CELL_RECORD_STATUS, .reg .CELL_CT_COUNT, .reg .TIME_PTP_STATS,
      .reg .QM_WIN_STATUS, .reg .TEL_IOAM_STATS, .reg .TEL_INT_CAUSE, .reg .TEL_EXPORT_STATUS]
  | .txFrameEnd _ _ =>
    areaCopyDrop ++
      [.pace, .reg .PORT_COUNTER, .reg .PIPE_EP_EXC]
  | .txUnderrun _ _ =>
    areaCellFault ++ areaCells ++
      [.pace, .reg .PIPE_IFIFO_STATUS, .reg .PORT_COUNTER, .reg .CELL_RECORD_STATUS]
  | .portFault _ _ =>
    areaAlignLost ++
      [.reg .LANE_RX_STATUS, .reg .LANE_IDLE_STATUS]
  | .linkDown _ =>
    areaCopyDrop ++
      [.pace, .reg .PORT_STATUS, .reg .PORT_PFC_STATUS, .reg .PORT_EVENT, .reg .PORT_COUNTER, .reg .PORT_INT_CAUSE,
      .reg .QM_INT_CAUSE, .reg .QM_PORT_STATUS, .reg .QM_PORT_FLUSHED]
  | .linkUp _ =>
    areaShaper ++
      [.hif, .out, .reg .PORT_STATUS, .reg .PORT_PFC_STATUS, .reg .PORT_EVENT, .reg .PORT_INT_CAUSE,
      .reg .QM_INT_CAUSE, .reg .QM_PORT_STATUS, .reg .QM_PORT_FLUSHED, .reg .TOP_INT_CAUSE]
  | .portEnable _ _ => [.sw, .reg .PORT_CFG]
  | .portDisable _ _ =>
    areaCopyDrop ++
      [.pace, .reg .PORT_CFG, .reg .PORT_STATUS, .reg .PORT_PFC_STATUS, .reg .PORT_EVENT, .reg .PORT_COUNTER,
      .reg .PORT_INT_CAUSE, .reg .QM_INT_CAUSE, .reg .QM_PORT_STATUS, .reg .QM_PORT_FLUSHED]
  | .sidebandFrame _ _ _ =>
    areaRecord ++ areaCage ++
      [.drawn, .reg .MOD_CHAIN_STATUS]
  | .cagePresenceDebounced _ =>
    areaCage ++
      [.drawn, .reg .MOD_BUS_STATUS]
  | .cagePwrGood _ => areaCage
  | .cageResetRelease _ => [.mod]
  | .moduleLowPowerReached _ =>
    areaCage ++
      [.drawn]
  | .cageIdentifyDone _ _ =>
    areaRecord ++ areaCage ++
      [.drawn, .reg .MOD_BUS_STATUS, .reg .MOD_IDENT, .reg .MOD_LIFE]
  | .cageActivate _ =>
    areaCage ++
      [.drawn, .reg .LANE_TX_FIR]
  | .cageTimeout _ _ => areaCage
  | .moduleRemove _ =>
    areaRecord ++ areaCage ++
      [.drawn, .reg .MOD_BUS_STATUS, .reg .MOD_CMD, .reg .MOD_IDENT, .reg .MOD_LIFE]
  | .moduleInterrupt _ => [.hif, .mod, .out, .reg .MOD_INT_CAUSE, .reg .TOP_INT_CAUSE]
  | .modBusError _ _ => [.mod, .drawn, .out, .reg .MOD_BUS_STATUS, .reg .MOD_CMD]
  | .lifeSample _ _ _ _ =>
    areaRecord ++
      [.mod, .drawn, .reg .MOD_INT_CAUSE, .reg .MOD_LIFE]
  | .lifeCheckpoint _ =>
    areaRecord ++
      [.mod]
  | .modCmd _ => [.mod, .drawn, .out, .reg .MOD_CMD]
  | .modCmdDone _ _ => [.mod, .drawn, .out, .reg .MOD_CMD, .reg .MOD_CMD_DATA]
  | .lookup _ _ => [.staging, .sw, .cf, .tb, .hif, .drawn, .out] ++ regsBut []
  | .read _ _ => [.staging, .sw, .cf, .tb, .hif, .drawn, .out] ++ regsBut []
  | .insert _ _ => [.staging, .sw, .cf, .tb, .hif, .drawn, .out] ++ regsBut []
  | .update _ _ => [.staging, .sw, .cf, .tb, .hif, .drawn, .out] ++ regsBut []
  | .upsert _ _ => [.staging, .sw, .cf, .tb, .hif, .drawn, .out] ++ regsBut []
  | .delete _ _ => [.staging, .sw, .cf, .tb, .hif, .drawn, .out] ++ regsBut []
  | .writeAt _ _ => [.staging, .sw, .cf, .tb, .hif, .drawn, .out] ++ regsBut []
  | .clearAt _ _ => [.staging, .sw, .cf, .tb, .hif, .drawn, .out] ++ regsBut []
  | .move _ _ => [.staging, .sw, .cf, .tb, .hif, .drawn, .out] ++ regsBut []
  | .lpmAdd _ _ => [.staging, .sw, .cf, .tb, .hif, .drawn, .out] ++ regsBut []
  | .lpmDelete _ _ => [.staging, .sw, .cf, .tb, .hif, .drawn, .out] ++ regsBut []
  | .unpin _ _ => [.staging, .sw, .cf, .tb, .hif, .drawn, .out] ++ regsBut []
  | .clearTable _ _ => [.staging, .sw, .cf, .tb, .hif, .drawn, .out] ++ regsBut []
  | .tableOpDone _ => [.staging, .sw, .cf, .tb, .hif, .drawn, .out] ++ regsBut []
  | .cmdWriteWhileBusy _ => [.reg .TBL_CMD_CTRL]
  | .tableSeedWrite _ _ _ => [.reg .TBL_TABLE_SEED]
  | .learnEventArrival =>
    [.tb, .hif, .out, .reg .TBL_INT_CAUSE, .reg .TBL_LEARN_STATUS, .reg .TBL_LEARN_DROPS, .reg .TOP_INT_CAUSE]
  | .learnEventProcess =>
    areaTableReport ++ areaRecord ++
      [.reg .TBL_LEARN_STATUS, .reg .TBL_LEARN_COUNT, .reg .TBL_LEARN_DROPS, .reg .TBL_STATUS, .reg .TBL_TABLE_COUNT]
  | .flapWindowClose _ _ => [.tb]
  | .pinHoldExpiry _ _ => areaTableReport
  | .ageClockTick _ => [.tb]
  | .agingSweepVisit =>
    areaTableReport ++
      [.reg .TBL_SWEEP_STATUS, .reg .TBL_TABLE_COUNT]
  | .promenadeGo _ => [.tb, .reg .TBL_PROM_CTRL, .reg .TBL_PROM_STATUS]
  | .promenadeAbort _ =>
    areaTableReport ++ areaRecord ++
      [.reg .TBL_PROM_CTRL, .reg .TBL_PROM_STATUS, .reg .TBL_STATUS]
  | .promenadeCompare _ =>
    areaTableReport ++ areaRecord ++
      [.drawn, .reg .TBL_PROM_STATUS, .reg .TBL_STATUS]
  | .promenadeCensus =>
    areaTableReport ++ areaRecord ++
      [.reg .TBL_PROM_STATUS, .reg .TBL_STATUS]
  | .admission _ =>
    areaFrameDrop ++ areaCells ++
      [.reg .PIPE_IFIFO_STATUS, .reg .MC_STATS, .reg .MC_STATS2]
  | .segmentWrite _ _ _ _ =>
    areaCopyDrop ++ areaEnqueue ++
      [.mem, .reg .CELL_EXHAUST, .reg .CELL_COPY_STATUS]
  | .frameVerdict _ =>
    areaCopyDrop ++ areaEnqueue ++ areaShaper ++
      [.reg .PIPE_INT_CAUSE, .reg .PIPE_IP_EXC, .reg .PIPE_EP_EXC, .reg .POL_TOKENS, .reg .CELL_EXHAUST,
      .reg .CELL_COPY_STATUS, .reg .TEL_UNTRACKED]
  | .leaseRequest _ _ =>
    areaCells ++
      [.hif, .out, .reg .CELL_INT_CAUSE, .reg .CELL_LEASE_CTRL, .reg .TOP_INT_CAUSE]
  | .leaseComplete _ =>
    areaCells ++
      [.reg .CELL_LEASE_CTRL, .reg .CELL_LEASE_RESULT, .reg .CELL_LEASE_STATUS]
  | .leaseFree _ _ =>
    areaCellFault ++ areaCells ++
      [.reg .CELL_LEASE_CTRL, .reg .CELL_LEASE_STATUS]
  | .eccUncorrectable _ _ _ =>
    areaRecord ++
      [.sw, .reg .CELL_POOL_STATUS, .reg .CELL_ECC, .reg .CELL_LOST, .reg .CELL_INT_CAUSE]
  | .schedulerPick _ =>
    areaCopyDrop ++ areaEnqueue ++ areaShaper ++
      [.reg .CELL_EXHAUST, .reg .CELL_COPY_STATUS, .reg .QM_PORT_STATUS, .reg .QM_CG_STATUS, .reg .QM_WIN_STATUS]
  | .wheelSlot _ _ =>
    areaShaper ++
      [.hif, .out, .reg .QM_INT_CAUSE, .reg .TOP_INT_CAUSE]
  | .overflowMigrate _ => areaShaper
  | .holdExpiry _ =>
    areaCopyDrop ++
      [.reg .QM_INT_CAUSE, .reg .QM_PORT_STATUS, .reg .QM_PORT_FLUSHED]
  | .flushEnd _ => [.reg .QM_PORT_STATUS]
  | .mcGroupWrite _ _ => [.reg .MC_STATS2, .reg .MC_GROUP]
  | .mcSync _ => [.sw, .reg .MC_SYNC]
  | .mcSyncDone => [.sw, .reg .MC_SYNC]
  | .query _ _ => [.reg .QM_QUERY, .reg .QM_QUERY_RESULT0, .reg .QM_QUERY_RESULT1]
  | .spillMove =>
    areaCellFault ++ areaCells ++
      [.hbm, .pace, .reg .PIPE_IFIFO_STATUS, .reg .CELL_RECORD_STATUS, .reg .HBM_SPILL_STATUS, .reg .HBM_SPILL_COUNT,
      .reg .HBM_SPILL_COUNT2, .reg .HBM_INT_CAUSE, .reg .HBM_TROUPE_SPILL]
  | .refill _ =>
    areaCells ++
      [.mem, .hbm, .pace, .reg .CELL_RECORD_STATUS, .reg .CELL_COPY_STATUS, .reg .HBM_SPILL_STATUS,
      .reg .HBM_SPILL_COUNT, .reg .HBM_SPILL_COUNT2, .reg .HBM_TROUPE_SPILL]
  | .refillRetry _ _ =>
    areaCells ++
      [.mem, .hbm, .pace, .reg .CELL_RECORD_STATUS, .reg .CELL_COPY_STATUS, .reg .HBM_SPILL_STATUS,
      .reg .HBM_SPILL_COUNT, .reg .HBM_SPILL_COUNT2, .reg .HBM_TROUPE_SPILL]
  | .timeSnapshot _ => [.tim]
  | .servoSample _ =>
    areaReady ++
      [.sw, .tim, .reg .TIME_STATUS, .reg .TIME_RATE, .reg .TIME_SERVO_STATUS, .reg .TIME_INT_CAUSE,
      .reg .QM_WIN_STATUS]
  | .ppsEdge _ _ =>
    areaReady ++
      [.sw, .tim, .reg .TIME_STATUS, .reg .TIME_PPS_STAMP_SUB, .reg .TIME_PPS_STAMP_SEC, .reg .TIME_RATE,
      .reg .TIME_SERVO_STATUS, .reg .TIME_PPS_IN, .reg .TIME_INT_CAUSE, .reg .QM_WIN_STATUS]
  | .ppsMissed => [.tim, .hif, .out, .reg .TIME_PPS_IN, .reg .TIME_INT_CAUSE, .reg .TOP_INT_CAUSE]
  | .servoTimeout =>
    areaReady ++
      [.tim, .reg .TIME_STATUS, .reg .TIME_RATE, .reg .TIME_INT_CAUSE, .reg .QM_WIN_STATUS]
  | .holdoverExpiry =>
    areaReady ++
      [.tim, .reg .TIME_STATUS, .reg .TIME_RATE, .reg .TIME_INT_CAUSE, .reg .QM_WIN_STATUS]
  | .servoDisable _ =>
    areaReady ++
      [.tim, .reg .TIME_STATUS, .reg .TIME_RATE, .reg .TIME_SERVO_CFG, .reg .TIME_INT_CAUSE, .reg .QM_WIN_STATUS]
  | .refLost =>
    areaRecord ++
      [.reg .TIME_STATUS, .reg .TIME_INT_CAUSE]
  | .refReturn => [.reg .TIME_STATUS]
  | .pllRelock => [.reg .TIME_STATUS]
  | .ppsOutPulse => [.tim, .out]
  | .synceSquelch _ => [.hif, .out, .reg .TIME_SYNCE, .reg .TIME_INT_CAUSE, .reg .TOP_INT_CAUSE]
  | .winGo _ _ => [.sw, .reg .QM_WIN_CTRL, .reg .QM_WIN_STATUS]
  | .bankSwitch _ => [.sw, .reg .QM_WIN_STATUS]
  | .winWriteRefused _ _ => [.reg .QM_WIN_STATUS]
  | .gateChange _ => [.sw, .reg .QM_PORT_STATUS, .reg .QM_CG_STATUS, .reg .QM_WIN_STATUS]
  | .histSnapshot _ _ => [.tel, .reg .TEL_HIST_CTRL, .reg .TEL_HIST_BIN]
  | .fateUpdate => [.tel, .reg .TEL_FLOW_COUNT2, .reg .TEL_UNTRACKED]
  | .flowWriteback _ _ =>
    [.hif, .tel, .out, .reg .TEL_FLOW_STATUS, .reg .TEL_INT_CAUSE, .reg .TEL_UNTRACKED, .reg .TOP_INT_CAUSE]
  | .ledgerWriteback =>
    areaRecord ++
      [.tel, .pace, .reg .TEL_FLOW_STATUS, .reg .TEL_FLOW_COUNT, .reg .TEL_FLOW_COUNT2, .reg .TEL_FLOW_CAP,
      .reg .TEL_INT_CAUSE, .reg .TEL_TROUPE_FLOWS, .reg .TEL_EXPORT_STATUS, .reg .TEL_UNTRACKED,
      .reg .HBM_LEDGER_STATUS, .reg .WIN_INT_CAUSE]
  | .exportSweepVisit =>
    [.hif, .tel, .out, .reg .TEL_FLOW_STATUS, .reg .TEL_FLOW_CAP, .reg .TEL_INT_CAUSE, .reg .TEL_TROUPE_FLOWS,
      .reg .TEL_EXPORT_STATUS, .reg .TEL_UNTRACKED, .reg .TOP_INT_CAUSE, .reg .WIN_INT_CAUSE]
  | .overflowEpisodeEnd => [.reg .TEL_FLOW_STATUS]
  | .refusedLineRetry _ _ => [.tel]
  | .exportMessageClose _ =>
    areaCopyDrop ++ areaEnqueue ++
      [.mem, .reg .CELL_EXHAUST, .reg .CELL_COPY_STATUS, .reg .TEL_EXPORT_SEQ, .reg .HIF_TLM_IDX]
  | .templateResend _ =>
    areaCopyDrop ++ areaEnqueue ++
      [.mem, .reg .CELL_EXHAUST, .reg .CELL_COPY_STATUS, .reg .HIF_TLM_IDX]
  | .dropInterval _ => [.tel]
  | .stackTrainingEnd _ _ _ =>
    areaFrameDrop ++ areaReady ++
      [.hbm, .ring, .reg .CELL_RECORD_STATUS, .reg .TEL_FLOW_STATUS, .reg .TEL_FLOW_CAP, .reg .TEL_TROUPE_FLOWS,
      .reg .HBM_STATUS, .reg .HBM_SPILL_STATUS, .reg .HBM_INT_CAUSE, .reg .HBM_TROUPE_SPILL]
  | .hbmRetrain _ => [.hbm, .reg .HBM_STATUS]
  | .stackFail _ =>
    areaFrameDrop ++ areaReady ++
      [.hbm, .ring, .reg .CELL_RECORD_STATUS, .reg .TEL_FLOW_STATUS, .reg .TEL_FLOW_CAP, .reg .TEL_TROUPE_FLOWS,
      .reg .HBM_STATUS, .reg .HBM_SPILL_STATUS, .reg .HBM_INT_CAUSE, .reg .HBM_TROUPE_SPILL]
  | .hbmActivation _ => [.drawn, .reg .HBM_NRR_CFG]
  | .scrub _ _ _ => [.pace, .reg .HBM_ECC]
  | .hbmUncorr _ _ _ _ =>
    areaFrameDrop ++ areaRecord ++
      [.hbm, .reg .CELL_RECORD_STATUS, .reg .TEL_FLOW_STATUS, .reg .TEL_FLOW_CAP, .reg .TEL_TROUPE_FLOWS,
      .reg .TEL_UNTRACKED, .reg .HBM_ECC, .reg .HBM_SPILL_STATUS, .reg .HBM_LEDGER_STATUS, .reg .HBM_INT_CAUSE,
      .reg .HBM_TROUPE_SPILL]
  | .captureWrite =>
    areaCopyDrop ++
      [.hbm, .ring, .pace, .reg .HBM_CAPTURE_STATUS, .reg .HBM_CAPTURE_COUNT, .reg .HBM_INT_CAUSE]
  | .captureCopy _ => [.hbm, .reg .HBM_COPY_CTRL]
  | .captureCopyDone _ => [.hif, .out, .reg .HBM_COPY_CTRL, .reg .HBM_INT_CAUSE, .reg .TOP_INT_CAUSE]
  | .cadenceSetWrite _ =>
    areaCadence ++
      [.reg .PACE_CADENCE_SET, .reg .PACE_DOMAIN_STATUS]
  | .cadenceWindow _ _ =>
    areaCadence ++
      [.sw, .reg .PACE_COUNT, .reg .PACE_DOMAIN_STATUS]
  | .lagRecover _ =>
    areaCadence ++
      [.reg .PACE_DOMAIN_STATUS]
  | .railAdjust _ =>
    areaCadence ++
      [.reg .PACE_DROOP_STATUS, .reg .PACE_DOMAIN_STATUS]
  | .rampStart _ => areaCadence
  | .rampEnd => areaCadence
  | .droopDetect _ =>
    areaCadence ++
      [.reg .PACE_COUNT, .reg .PACE_DROOP_STATUS]
  | .droopClear _ => [.pace, .reg .PACE_DROOP_STATUS]
  | .droopResponseEnd =>
    areaCadence ++
      [.reg .PACE_DROOP_STATUS, .reg .PACE_DOMAIN_STATUS]
  | .droopLong =>
    [.hif, .pace, .out, .reg .PACE_DROOP_STATUS, .reg .PACE_INT_CAUSE, .reg .TOP_INT_CAUSE]
  | .thermalSample _ =>
    areaCadence ++
      [.pkg, .reg .PACE_THERMAL_STATUS, .reg .PACE_DOMAIN_STATUS, .reg .PACE_TEMP]
  | .throttleFall =>
    areaCadence ++
      [.reg .PACE_THERMAL_STATUS]
  | .railFault _ =>
    areaCadence ++
      [.reg .PACE_RAIL_STATUS]
  | .railRetry _ _ =>
    areaCadence ++
      [.reg .PACE_RAIL_STATUS]
  | .pmbusMeasure _ =>
    [.pace, .reg .PACE_RAIL_STATUS, .reg .PACE_ENERGY_TROUPE, .reg .PACE_ENERGY_PIPE, .reg .PACE_ENERGY_MEASURED,
      .reg .PACE_ENERGY_SHARED, .reg .PACE_ENERGY_UNATTR, .reg .PACE_ENERGY_PORT, .reg .WIN_STATE]
  | .energyTick =>
    [.pace, .reg .PACE_ENERGY_TROUPE, .reg .PACE_ENERGY_PIPE, .reg .PACE_ENERGY_MEASURED, .reg .PACE_ENERGY_SHARED,
      .reg .PACE_ENERGY_PORT]
  | .phaseBoostStart _ => [.pace, .out, .reg .PACE_DOMAIN_STATUS]
  | .phaseBoostEnd _ => [.pace, .out, .reg .PACE_DOMAIN_STATUS]
  | .phaseEvaluate _ =>
    [.hif, .pace, .out, .reg .PACE_INT_CAUSE, .reg .PACE_PHASE_A, .reg .PACE_PHASE_D, .reg .TOP_INT_CAUSE]
  | .advisorySend =>
    areaCopyDrop ++ areaEnqueue ++
      [.mem, .reg .LANE_IDLE_STATUS, .reg .CELL_EXHAUST, .reg .CELL_COPY_STATUS, .reg .PACE_FOLLOW_STATUS]
  | .advisoryRefresh =>
    areaCopyDrop ++ areaEnqueue ++
      [.mem, .reg .LANE_IDLE_STATUS, .reg .CELL_EXHAUST, .reg .CELL_COPY_STATUS, .reg .PACE_FOLLOW_STATUS]
  | .advisoryRx _ _ =>
    areaCadence ++
      [.reg .PACE_ADV_LAST, .reg .PACE_ADV_LAST2]
  | .advInject _ =>
    areaCadence ++
      [.reg .PACE_ADV_LAST, .reg .PACE_ADV_LAST2, .reg .PACE_ADV_INJECT2]
  | .advisoryExpiry _ => areaCadence
  | .freewheelIdle _ => [.pace, .out, .reg .PACE_DOMAIN_STATUS]
  | .freewheelWake _ =>
    areaCadence ++
      [.reg .PACE_DOMAIN_STATUS]
  | .governorReady _ =>
    areaCadence ++
      [.reg .TOP_READY, .reg .TOP_READY_CHANGE, .reg .PACE_DOMAIN_STATUS]
  | .avsTimeout =>
    areaCadence ++
      [.reg .TOP_READY, .reg .TOP_READY_CHANGE, .reg .PACE_RAIL_STATUS]
  | .remove _ =>
    areaCopyDrop ++
      [.cf, .tb, .pace, .sec, .reg .CFG_LOAD_STATUS, .reg .CFG_COMMIT_STATUS, .reg .CFG_INT_CAUSE,
      .reg .CFG_TROUPE_SERIAL, .reg .TOP_TROUPE_READY, .reg .PORT_CFG, .reg .PORT_STATUS, .reg .PORT_PFC_STATUS,
      .reg .PORT_EVENT, .reg .PORT_COUNTER, .reg .PORT_INT_CAUSE, .reg .TBL_TABLE_COUNT, .reg .CELL_LEASE_STATUS,
      .reg .QM_INT_CAUSE, .reg .QM_PORT_STATUS, .reg .QM_PORT_FLUSHED, .reg .HIF_TROUPE_CTRL,
      .reg .HIF_TROUPE_STATE, .reg .HIF_RX_CFG, .reg .HIF_TX_CFG, .reg .HIF_TLM_CFG, .reg .HIF_RPT_CFG,
      .reg .WIN_STATE]
  | .restore _ => [.staging, .hif, .reg .HIF_TROUPE_CTRL]
  | .troupeRemoveDone =>
    areaRecord ++
      [.reg .HIF_INT_CAUSE, .reg .HIF_TROUPE_CTRL, .reg .HIF_TROUPE_STATE, .reg .WIN_STATE, .reg .WIN_INT_CAUSE]
  | .troupeRestoreDone =>
    areaTroupeImage ++
      [.sw, .reg .CFG_EPOCH, .reg .CFG_DRAIN_STATUS, .reg .CFG_COMMIT_STATUS, .reg .PORT_PFC_CFG,
      .reg .PORT_DSCP_MAP, .reg .PIPE_ADAPT_CFG, .reg .PIPE_HASH_SEED, .reg .PIPE_IP_CTRL, .reg .TBL_TABLE_CTRL,
      .reg .QM_ADM_PROFILE_A, .reg .QM_ADM_PROFILE_B, .reg .QM_Q_PROFILE, .reg .QM_PORT_ADM, .reg .QM_TROUPE_ADM,
      .reg .QM_PP_ADM, .reg .CELL_ADM_STATUS, .reg .CELL_ADM_RESERVED, .reg .CELL_PP_STATUS, .reg .QM_PORT_HOLD,
      .reg .QM_PORT_STATUS, .reg .QM_CG_STATUS, .reg .QM_Q_WEIGHT, .reg .QM_WIN_STATUS, .reg .TEL_KEY_FIELD,
      .reg .TEL_TROUPE_FLOW, .reg .TEL_EXPORT_CFG, .reg .TEL_EXPORT_HDR, .reg .HBM_SPILL_PROFILE,
      .reg .HIF_INT_CAUSE, .reg .HIF_TROUPE_CTRL, .reg .HIF_TROUPE_STATE, .reg .PIPE_PROG_REG]
  | .ringEnable _ _ _ _ =>
    areaRingError ++
      [.reg .HIF_RX_CQ_IDX, .reg .HIF_TX_IDX, .reg .HIF_TLM_IDX, .reg .HIF_RPT_IDX]
  | .ringDoorbell _ _ _ _ _ =>
    areaRingError ++
      [.reg .HIF_RX_CQ_IDX, .reg .HIF_TX_IDX, .reg .HIF_TLM_IDX, .reg .HIF_RPT_IDX, .reg .HIF_RX_POOL_IDX]
  | .rxDeliver _ _ =>
    areaCopyDrop ++ areaRingError ++
      [.pace, .reg .HIF_RX_CQ_IDX, .reg .HIF_TX_IDX, .reg .HIF_TLM_IDX, .reg .HIF_RPT_IDX, .reg .HIF_RX_POOL_IDX]
  | .rxWaitExpiry _ =>
    areaCopyDrop ++
      [.reg .HIF_RX_STATUS]
  | .interruptCoalesce _ _ => [.hif, .out]
  | .copy _ _ =>
    areaRingError ++ areaFrameDrop ++ areaCellFault ++ areaCells ++
      [.mem, .pace, .reg .PIPE_IFIFO_STATUS, .reg .PIPE_INT_CAUSE, .reg .PIPE_IP_EXC, .reg .CELL_COPY_STATUS,
      .reg .CELL_LEASE_STATUS, .reg .HIF_TX_IDX]
  | .fill _ _ =>
    areaRingError ++ areaFrameDrop ++ areaCellFault ++ areaCells ++
      [.mem, .pace, .reg .PIPE_IFIFO_STATUS, .reg .PIPE_INT_CAUSE, .reg .PIPE_IP_EXC, .reg .CELL_COPY_STATUS,
      .reg .CELL_LEASE_STATUS, .reg .HIF_TX_IDX]
  | .cells _ =>
    areaRingError ++ areaFrameDrop ++ areaCellFault ++ areaCells ++
      [.mem, .pace, .reg .PIPE_IFIFO_STATUS, .reg .PIPE_INT_CAUSE, .reg .PIPE_IP_EXC, .reg .CELL_COPY_STATUS,
      .reg .CELL_LEASE_STATUS, .reg .HIF_TX_IDX]
  | .msixAllocWrite _ _ => [.hif, .out, .reg .TOP_INT_CAUSE, .reg .HIF_INT_CAUSE, .reg .HIF_MSIX_ALLOC]
  | .intRearm _ _ => [.hif, .out]
  | .winCommit _ _ =>
    [.cf, .hif, .out, .reg .CFG_COMMIT_STATUS, .reg .CFG_INT_CAUSE, .reg .TOP_INT_CAUSE, .reg .WIN_INT_CAUSE]
  | .wardenInput _ _ _ _ =>
    areaWarden ++
      [.reg .TND_WARDEN, .reg .TND_INPUT_STATUS]
  | .timerInput _ _ =>
    areaWarden ++
      [.reg .TND_WARDEN, .reg .TND_INPUT_STATUS]
  | .commandCopy _ => areaWarden
  | .eliminatorWindowExpiry _ =>
    areaRecord ++
      [.tnd, .drawn, .reg .TND_ELIM_COUNT, .reg .TND_DIVERGE_INFO, .reg .TND_DIVERGE_DIGEST, .reg .TND_INT_CAUSE]
  | .divergenceSelftestEnd _ _ =>
    areaWarden ++
      [.reg .TND_WARDEN, .reg .TND_INPUT_STATUS]
  | .lockstepMismatch _ =>
    areaWarden ++
      [.reg .TND_WARDEN, .reg .TND_INPUT_STATUS]
  | .watchdogExpiry _ =>
    areaWarden ++
      [.reg .TND_WARDEN, .reg .TND_INPUT_STATUS]
  | .periodicSelftest _ _ =>
    areaWarden ++
      [.reg .TND_WARDEN, .reg .TND_INPUT_STATUS]
  | .autoRestart _ =>
    areaReady ++
      [.tnd, .reg .TND_STATUS, .reg .TND_WARDEN, .reg .TND_INT_CAUSE]
  | .wardenLoadDone _ =>
    areaReady ++
      [.tnd, .reg .TND_STATUS, .reg .TND_WARDEN]
  | .wardenSelftestDone _ _ =>
    areaWarden ++
      [.reg .TND_WARDEN, .reg .TND_INPUT_STATUS]
  | .resyncDone _ =>
    areaReady ++
      [.tnd, .reg .TND_STATUS, .reg .TND_WARDEN, .reg .TND_INPUT_STATUS, .reg .TND_INT_CAUSE]
  | .restart _ =>
    areaReady ++
      [.tnd, .reg .TND_STATUS, .reg .TND_WARDEN, .reg .TND_CTRL]
  | .resign _ =>
    areaWarden ++
      [.reg .TND_WARDEN, .reg .TND_CTRL, .reg .TND_INPUT_STATUS]
  | .restartBoth _ =>
    areaReady ++
      [.sec, .tnd, .reg .TND_STATUS, .reg .TND_WARDEN, .reg .TND_CTRL, .reg .SEC_STATUS, .reg .SEC_FW_STATUS,
      .reg .SEC_FW_BOOT]
  | .mailboxDoorbell _ =>
    areaWarden ++
      [.reg .TND_WARDEN, .reg .TND_INPUT_STATUS]
  | .getInfo =>
    [.hif, .tnd, .out, .reg .TOP_INT_CAUSE, .reg .TND_MBX_CTRL, .reg .TND_MBX_REPLY, .reg .TND_INT_CAUSE]
  | .echo =>
    [.hif, .tnd, .out, .reg .TOP_INT_CAUSE, .reg .TND_MBX_CTRL, .reg .TND_MBX_REPLY, .reg .TND_INT_CAUSE]
  | .mailboxTimeout => [.tnd, .reg .TND_MBX_CTRL]
  | .bbxRecordWrite =>
    areaRecord ++
      [.pkg, .reg .BBX_STATUS, .reg .BBX_STATUS2]
  | .bbxScan =>
    areaReady ++
      [.pkg, .reg .BBX_STATUS, .reg .BBX_STATUS2]
  | .sealedReadout _ => [.bbx, .reg .BBX_READ_CTRL]
  | .sealedReadoutDone _ =>
    [.hif, .bbx, .drawn, .out, .reg .TOP_INT_CAUSE, .reg .BBX_READ_CTRL, .reg .BBX_INT_CAUSE]
  | .hostNote _ =>
    areaRecord ++
      [.reg .BBX_HOST_NOTE_CTRL]
  | .keeperGetStatus => [.pkg, .out]
  | .keeperGetRecords _ _ => [.pkg, .out]
  | .keeperGetSeal _ _ _ => [.drawn, .out]
  | .extest => [.pkg]
  | .idcode => [.pkg, .out]
  | .samplePreload => [.pkg]
  | .bypass _ => [.pkg]
  | .bbxData _ => [.pkg, .drawn, .out]
  | .getVersion _ => [.sec, .out]
  | .getCapabilities _ => [.sec, .out]
  | .negotiateAlgorithms _ _ => [.sec, .out]
  | .getDigests _ => [.out]
  | .getCertificate _ _ _ _ => [.out]
  | .challenge _ _ _ => [.drawn, .out]
  | .getMeasurements _ _ _ _ => [.drawn, .out]
  | .spdmUnsupportedRequest _ => [.out]
  | .aliasDeriveDone =>
    areaReady ++
      [.sec, .reg .SEC_STATUS, .reg .SEC_INT_CAUSE]
  | .provision _ _ =>
    areaRecord ++
      [.cf, .sec, .reg .CFG_LOAD_STATUS, .reg .CFG_INT_CAUSE, .reg .SEC_OWNER_SLOT, .reg .SEC_KEY_CTRL]
  | .revoke _ _ =>
    areaRecord ++
      [.cf, .sec, .reg .CFG_LOAD_STATUS, .reg .CFG_INT_CAUSE, .reg .SEC_OWNER_SLOT, .reg .SEC_KEY_CTRL]
  | .fwLoad _ => [.sec, .out, .reg .SEC_FW_STATUS]
  | .fwLoadDone _ _ _ _ =>
    areaRecord ++
      [.sec, .reg .SEC_STATUS, .reg .SEC_FW_STATUS, .reg .SEC_INT_CAUSE]
  | .commitSvn _ => [.reg .SEC_STATUS, .reg .SEC_FW_STATUS]
  | .fwBootRead _ _ _ _ =>
    areaReady ++
      [.sec, .tnd, .reg .TND_STATUS, .reg .TND_WARDEN, .reg .SEC_STATUS, .reg .SEC_FW_STATUS, .reg .SEC_FW_BOOT,
      .reg .SEC_INT_CAUSE]
  | .keeperPowerOn => everyBlock ++ regsBut [.SEC_UNIT_ID_LO, .SEC_UNIT_ID_HI, .SEC_OWNER_SLOT, .SEC_OWNER_HASH]
  | .keeperRunning => areaReady
  | .vddKeepLoss _ => everyBlock ++ regsBut [.SEC_UNIT_ID_LO, .SEC_UNIT_ID_HI, .SEC_OWNER_SLOT, .SEC_OWNER_HASH]
  | .mainPowerOn _ _ =>
    everyBlock ++ regsBut [.CFG_SERIAL_FLOOR, .BBX_STATUS, .BBX_STATUS2, .SEC_UNIT_ID_LO, .SEC_UNIT_ID_HI,
      .SEC_OWNER_SLOT, .SEC_OWNER_HASH, .SEC_KEY_CTRL, .SEC_KEY_BUF, .SEC_FW_CTRL, .SEC_FW_ADDR,
      .SEC_FW_STATUS, .SEC_INT_CAUSE, .SEC_INT_EN]
  | .mainPgFall =>
    everyBlock ++ regsBut [.CFG_SERIAL_FLOOR, .TOP_BOOT_INFO, .BBX_STATUS, .BBX_STATUS2, .SEC_UNIT_ID_LO,
      .SEC_UNIT_ID_HI, .SEC_OWNER_SLOT, .SEC_OWNER_HASH, .SEC_KEY_CTRL, .SEC_KEY_BUF, .SEC_FW_CTRL,
      .SEC_FW_ADDR, .SEC_FW_STATUS, .SEC_INT_CAUSE, .SEC_INT_EN, .TOP_MON_STATUS, .TOP_MON_READING]
  | .sysReset _ =>
    everyBlock ++ regsBut [.CFG_SERIAL_FLOOR, .BBX_STATUS, .BBX_STATUS2, .SEC_UNIT_ID_LO, .SEC_UNIT_ID_HI,
      .SEC_OWNER_SLOT, .SEC_OWNER_HASH, .SEC_KEY_CTRL, .SEC_KEY_BUF, .SEC_FW_CTRL, .SEC_FW_ADDR,
      .SEC_FW_STATUS, .SEC_INT_CAUSE, .SEC_INT_EN, .TOP_MON_STATUS, .TOP_MON_READING]
  | .resetCtrlWrite _ _ =>
    everyBlock ++ regsBut [.CFG_SERIAL_FLOOR, .BBX_STATUS, .BBX_STATUS2, .SEC_UNIT_ID_LO, .SEC_UNIT_ID_HI,
      .SEC_OWNER_SLOT, .SEC_OWNER_HASH, .SEC_KEY_CTRL, .SEC_KEY_BUF, .SEC_FW_CTRL, .SEC_FW_ADDR,
      .SEC_FW_STATUS, .SEC_INT_CAUSE, .SEC_INT_EN, .TOP_MON_STATUS, .TOP_MON_READING]
  | .hostReset _ =>
    areaRingReset ++ areaCopyDrop ++
      [.cf, .pkg, .reg .CFG_LOAD_STATUS, .reg .CFG_INT_CAUSE, .reg .TOP_READY, .reg .TOP_READY_CHANGE,
      .reg .HIF_LINK_STATUS, .reg .HIF_TROUPE_STATE]
  | .pcieLinkUp _ _ =>
    areaReady ++
      [.pkg, .reg .HIF_LINK_STATUS, .reg .HIF_INT_CAUSE]
  | .flr _ =>
    areaRingReset ++ areaCells ++
      [.cf, .reg .CFG_COMMIT_STATUS, .reg .CFG_VIEW, .reg .CFG_PAIR_STATUS, .reg .CFG_PAIR_DISCARD,
      .reg .CFG_PAIR_DISCARD_VALUE, .reg .CELL_LEASE_CTRL, .reg .CELL_LEASE_RESULT, .reg .CELL_LEASE_STATUS,
      .reg .QM_QUERY, .reg .QM_QUERY_RESULT0, .reg .QM_QUERY_RESULT1, .reg .TEL_HIST_CTRL, .reg .TEL_HIST_BIN,
      .reg .HIF_BAD_ACCESS, .reg .HIF_BAD_ACCESS_ADDR, .reg .HIF_TROUPE_STATE, .reg .WIN_INT_CAUSE,
      .reg .WIN_INT_EN, .reg .WIN_CMD_DONE]
  | .pfFlr =>
    areaRingReset ++ areaCells ++
      [.cf, .reg .CFG_COMMIT_STATUS, .reg .CFG_VIEW, .reg .CFG_PAIR_STATUS, .reg .CFG_PAIR_DISCARD,
      .reg .CFG_PAIR_DISCARD_VALUE, .reg .CELL_LEASE_CTRL, .reg .CELL_LEASE_RESULT, .reg .CELL_LEASE_STATUS,
      .reg .QM_QUERY, .reg .QM_QUERY_RESULT0, .reg .QM_QUERY_RESULT1, .reg .TEL_HIST_CTRL, .reg .TEL_HIST_BIN,
      .reg .HIF_BAD_ACCESS, .reg .HIF_BAD_ACCESS_ADDR, .reg .HIF_TROUPE_STATE, .reg .WIN_INT_CAUSE,
      .reg .WIN_INT_EN, .reg .WIN_CMD_DONE]
  | .monitorTrip _ _ =>
    areaAlignLost ++ areaRecord ++
      [.pkg, .reg .LANE_RX_STATUS, .reg .TIME_STATUS, .reg .TIME_INT_CAUSE, .reg .TOP_MON_STATUS,
      .reg .TOP_MON_READING]
  | .monitorClear _ => [.reg .TOP_MON_STATUS]
  | .hostLoadStart _ =>
    areaRecord ++
      [.cf, .reg .CFG_LOAD_CTRL, .reg .CFG_LOAD_STATUS, .reg .CFG_INT_CAUSE]
  | .loadAbort _ =>
    areaRecord ++
      [.cf, .reg .CFG_LOAD_CTRL, .reg .CFG_LOAD_STATUS, .reg .CFG_INT_CAUSE]
  | .imageHeaderCheck _ _ _ _ =>
    areaRecord ++
      [.cf, .reg .CFG_LOAD_STATUS, .reg .CFG_INT_CAUSE]
  | .sectionBodyCheck _ _ _ =>
    areaRecord ++
      [.cf, .reg .CFG_LOAD_STATUS, .reg .CFG_INT_CAUSE]
  | .imageApply =>
    [.staging, .sw, .mem, .cf, .tb, .hif, .tel, .hbm, .ring, .pace, .bbx, .sec, .drawn, .out] ++ regsBut []
  | .imageApplyEnd =>
    areaTroupeImage ++ areaCells ++ areaCage ++
      [.hbm, .reg .CFG_IMAGE_INFO, .reg .CFG_IMAGE_MODE, .reg .CFG_BOOT, .reg .CFG_EPOCH, .reg .CFG_DRAIN_STATUS,
      .reg .CFG_COMMIT_STATUS, .reg .TOP_READY, .reg .TOP_READY_CHANGE, .reg .PORT_PFC_CFG, .reg .PORT_DSCP_MAP,
      .reg .PIPE_ADAPT_CFG, .reg .PIPE_HASH_SEED, .reg .PIPE_IP_CTRL, .reg .TBL_TABLE_CTRL, .reg .POL_TOKENS,
      .reg .QM_ADM_PROFILE_A, .reg .QM_ADM_PROFILE_B, .reg .QM_Q_PROFILE, .reg .QM_PORT_ADM, .reg .QM_TROUPE_ADM,
      .reg .QM_PP_ADM, .reg .CELL_ADM_RESERVED, .reg .CELL_RECORD_STATUS, .reg .QM_PORT_HOLD, .reg .QM_PORT_STATUS,
      .reg .QM_CG_STATUS, .reg .QM_Q_WEIGHT, .reg .QM_WIN_STATUS, .reg .TEL_FLOW_STATUS, .reg .TEL_FLOW_CAP,
      .reg .TEL_KEY_FIELD, .reg .TEL_TROUPE_FLOW, .reg .TEL_TROUPE_FLOWS, .reg .TEL_EXPORT_CFG,
      .reg .TEL_EXPORT_HDR, .reg .HBM_STATUS, .reg .HBM_SPILL_STATUS, .reg .HBM_SPILL_PROFILE, .reg .SEC_STATUS,
      .reg .PIPE_PROG_REG]
  | .troupeImageApply => [.staging, .sw, .cf, .hif, .tel, .pace, .bbx, .drawn, .out] ++ regsBut []
  | .commit _ =>
    [.cf, .hif, .out, .reg .CFG_COMMIT_STATUS, .reg .CFG_INT_CAUSE, .reg .TOP_INT_CAUSE, .reg .WIN_INT_CAUSE]
  | .commitFence =>
    areaTroupeImage ++
      [.sw, .reg .CFG_EPOCH, .reg .CFG_DRAIN_STATUS, .reg .CFG_COMMIT_STATUS, .reg .PORT_PFC_CFG,
      .reg .PORT_DSCP_MAP, .reg .PIPE_ADAPT_CFG, .reg .PIPE_HASH_SEED, .reg .PIPE_IP_CTRL, .reg .TBL_TABLE_CTRL,
      .reg .QM_ADM_PROFILE_A, .reg .QM_ADM_PROFILE_B, .reg .QM_Q_PROFILE, .reg .QM_PORT_ADM, .reg .QM_TROUPE_ADM,
      .reg .QM_PP_ADM, .reg .CELL_ADM_STATUS, .reg .CELL_ADM_RESERVED, .reg .CELL_PP_STATUS, .reg .QM_PORT_HOLD,
      .reg .QM_PORT_STATUS, .reg .QM_CG_STATUS, .reg .QM_Q_WEIGHT, .reg .QM_WIN_STATUS, .reg .TEL_KEY_FIELD,
      .reg .TEL_TROUPE_FLOW, .reg .TEL_EXPORT_CFG, .reg .TEL_EXPORT_HDR, .reg .HBM_SPILL_PROFILE,
      .reg .PIPE_PROG_REG]
  | .commitDrainEnd =>
    [.cf, .hif, .out, .reg .CFG_DRAIN_STATUS, .reg .CFG_COMMIT_STATUS, .reg .CFG_INT_CAUSE, .reg .TBL_STATUS,
      .reg .TOP_INT_CAUSE, .reg .WIN_INT_CAUSE]
  | .drainLimitExpiry =>
    areaTroupeImage ++
      [.sw, .reg .CFG_EPOCH, .reg .CFG_DRAIN_STATUS, .reg .CFG_COMMIT_STATUS, .reg .PORT_PFC_CFG,
      .reg .PORT_DSCP_MAP, .reg .PIPE_ADAPT_CFG, .reg .PIPE_HASH_SEED, .reg .PIPE_IP_CTRL, .reg .TBL_TABLE_CTRL,
      .reg .QM_ADM_PROFILE_A, .reg .QM_ADM_PROFILE_B, .reg .QM_Q_PROFILE, .reg .QM_PORT_ADM, .reg .QM_TROUPE_ADM,
      .reg .QM_PP_ADM, .reg .CELL_ADM_STATUS, .reg .CELL_ADM_RESERVED, .reg .CELL_PP_STATUS, .reg .QM_PORT_HOLD,
      .reg .QM_PORT_STATUS, .reg .QM_CG_STATUS, .reg .QM_Q_WEIGHT, .reg .QM_WIN_STATUS, .reg .TEL_KEY_FIELD,
      .reg .TEL_TROUPE_FLOW, .reg .TEL_EXPORT_CFG, .reg .TEL_EXPORT_HDR, .reg .HBM_SPILL_PROFILE,
      .reg .PIPE_PROG_REG]
  | .perstDeassert => [.pkg]
  | .sysResetNRelease _ =>
    areaRecord ++
      [.sw, .cf, .hbm, .mod, .pace, .sec, .pkg, .reg .LNK_LINK_STATUS, .reg .LNK_DIE_STATUS, .reg .CFG_LOAD_STATUS,
      .reg .TIME_STATUS, .reg .HBM_STATUS, .reg .PACE_DOMAIN_STATUS]
  | .cdrLock _ => [.sw, .out, .reg .LANE_RX_STATUS, .reg .PORT_STATUS, .reg .TIME_SYNCE]
  | .adaptDone _ _ => [.sw, .reg .LANE_RX_STATUS]
  | .alignmentMarkerLock _ => [.sw, .out, .reg .PORT_STATUS]
  | .portFaultEnd _ _ => [.sw, .out, .reg .LANE_RX_STATUS, .reg .PORT_STATUS]
  | .ieeeLinkTrainingEnd _ => [.sw]
  | .checkSync _ => [.reg .LANE_TEST]
  | .configurationRequest _ => [.hif, .out, .reg .HIF_TROUPE_STATE]
  | .resyncCopyDone => areaWarden
  | .ownerKeyCommandDone =>
    areaRecord ++
      [.sec, .reg .SEC_OWNER_SLOT, .reg .SEC_OWNER_HASH, .reg .SEC_KEY_CTRL, .reg .SEC_INT_CAUSE]
  | .unknownOp =>
    [.hif, .tnd, .out, .reg .TOP_INT_CAUSE, .reg .TND_MBX_CTRL, .reg .TND_MBX_REPLY, .reg .TND_INT_CAUSE]
  | .zeroFillDone _ =>
    areaReady ++
      [.tel, .hbm, .reg .TEL_FLOW_STATUS, .reg .TEL_FLOW_CAP, .reg .TEL_TROUPE_FLOWS, .reg .HBM_SPILL_STATUS,
      .reg .HBM_TROUPE_SPILL]

/-- What a write of a register changes beside it, its staging copy and TOP.INT_CAUSE. -/
def afterArea : Reg → List Part
  | .PORT_EVENT | .PORT_EVENT_EN => [.hif, .reg .PORT_INT_CAUSE]
  | .LANE_CFG => [.sw, .drawn]
  | .LANE_ALIGN_STATUS => [.sw, .reg .PORT_STATUS]
  | .MOD_CFG => [.mod, .hif, .drawn, .reg .MOD_BUS_STATUS, .reg .MOD_CAGE_STATUS, .reg .MOD_INT_CAUSE]
  | .QM_PORT_SHAPER | .QM_CG_SHAPER | .QM_QSHAPER =>
    [.sw, .reg .QM_CAL_STATUS, .reg .QM_PORT_SHAPER_STATE, .reg .QM_CG_SHAPER_STATE, .reg .QM_QSHAPER_STATE]
  | .PACE_AVS_CFG | .PACE_DROOP_CFG | .PACE_THERMAL_CFG | .PACE_PELOTON_CFG | .PACE_FREEWHEEL_CFG | .PACE_RAIL_CFG =>
    areaCadence
  | _ => [.hif]

end Sys2Proof.Machine
end

