-- ==== Sys2Proof/Certificates/Slice0/Obligations.lean ====
section
/-!
DEFINITION. The statements for the provers. A command's claim says under which conditions on the state and the operands
alone the command answers a next state, and what that state holds; a statement gathers the claims of a family. The other
statements are about footprints, memory, the queue and the machine as a whole.
-/

namespace Sys2Proof.Claims

open Sys2Proof Sys2Proof.Machine

/-- A table command of a block begins at once: the block is not busy, the table is carved, its checks pass, and no other
operation is under way on it. -/
def CmdStarts (b : Fin 32) (v : Word) (p : TablePlan) (kinds : List Nat) (s : State) : Prop :=
  s.hostReach 0 false = true ∧ s.get TBL.CMD_CTRL.BUSY b = 0 ∧ s.tablePlan (bitsOf v 8 8) = some p ∧
    s.cmdCheck b (bitsOf v 8 8) (bitsOf v 19 1) kinds = none ∧ s.tableBusy (bitsOf v 8 8) = false

/-- The twin that a write of TBL.CMD_CTRL names in state s, as it stands in state t, with its seeds in s. -/
def cmdTwin (v : Word) (s t : State) : Twin := (t.table (bitsOf v 8 8)).twin (s.twinOf (bitsOf v 8 8) (bitsOf v 19 1))
def cmdSeeds (v : Word) (s : State) : Nat × Nat := s.seedsOf (bitsOf v 8 8) (s.twinOf (bitsOf v 8 8) (bitsOf v 19 1))

/-- Where the key of a block's entry stands. -/
def cmdFind (b : Fin 32) (v : Word) (p : TablePlan) (s : State) : Option Where :=
  p.find (cmdTwin v s s) (cmdSeeds v s) 0 (p.keyOf (s.cmdImage b))

/-- The entry that a block's command writes. -/
def cmdNew (b : Fin 32) (v : Word) (p : TablePlan) (pinned : Bool) (s : State) : TEntry :=
  sameEntry { value := p.bodyOf (s.cmdImage b), age := (s.table (bitsOf v 8 8)).clock, static := bitsOf v 18 1 != 0, pinned := pinned }

/-- The place and the writes of a new entry. -/
def cmdPlace (b : Fin 32) (v : Word) (p : TablePlan) (s : State) : Inserted :=
  p.insert (cmdTwin v s s) (cmdSeeds v s) (p.keyOf (s.cmdImage b)) (cmdNew b v p false s)

/-- The prefix that a block names. -/
def cmdPrefix (b : Fin 32) (p : TablePlan) (s : State) : Nat × Nat := (p.prefixOf (s.cmdAddr b p) (s.cmdPlen b), s.cmdPlen b)

/-- IMPROPER_ACCESS (R13). An unaligned, wrongly sized, out-of-block or part-field 32-bit access returns all ones or is
discarded, and is counted and latched per function. -/
def improperAccessDoes : Prop :=
  ∀ (fn : FnNo) (off : BarOffset) (size : Fin 65) (w : Bool) (v : Word) (s : State), s.hostReach 0 true = true →
      s.accessKind fn off size w v ≠ 0 →
    ∃ t, exec (.improperAccess fn off size w v) s = .next t ∧
      t.get HIF.BAD_ACCESS.COUNT fn = min (s.get HIF.BAD_ACCESS.COUNT fn + 1) (2 ^ 32 - 1) ∧
      t.get HIF.BAD_ACCESS.LATCHED fn = 1 ∧
      (s.get HIF.BAD_ACCESS.LATCHED fn = 0 → t.get HIF.BAD_ACCESS.KIND fn =
          (if off.val % size.val ≠ 0 then 1 else if size.val ≠ 4 ∧ size.val ≠ 8 then 2 else if inBlocks fn off = false then 3 else 4) ∧
        t.get HIF.BAD_ACCESS.WRITE fn = b2n w ∧ t.get HIF.BAD_ACCESS_ADDR.OFFSET fn = off.val) ∧
      (s.get HIF.BAD_ACCESS.LATCHED fn ≠ 0 → t.get HIF.BAD_ACCESS.KIND fn = s.get HIF.BAD_ACCESS.KIND fn ∧
        t.get HIF.BAD_ACCESS.WRITE fn = s.get HIF.BAD_ACCESS.WRITE fn ∧
        t.get HIF.BAD_ACCESS_ADDR.OFFSET fn = s.get HIF.BAD_ACCESS_ADDR.OFFSET fn) ∧
      (if fn.val = 0 then t.get HIF.INT_CAUSE.BAD_ACCESS 0 = 1 else t.get WIN.INT_CAUSE.BAD_ACCESS fn = 1) ∧
      (w = false → t.out.head? = some (.readData fn off size (2 ^ (8 * size.val) - 1)))

/-- REGISTER_WRITE (R16). A write to a register field that has no row of its own takes effect according to its access
code. -/
def registerWriteDoes : Prop :=
  ∀ (fn : FnNo) (off : BarOffset) (size : Fin 65) (v : Word) (g : Target) (s : State),
      s.hostReach 0 true = true → s.accessKind fn off size true v = 0 → s.target fn off = some g → s.present g = true →
      s.hostReach fn (State.openReg g) = true →
      g.reg.fields.filter (fun f => s.isPaired g f && (accessLanes off size).takes f) = [] →
    ∃ t, exec (.registerWrite fn off size v) s = .next t ∧
      (∀ u, s.rowWrite fn g (accessLanes off size) (s.merged g (accessLanes off size) ((accessLanes off size).place v)) = some u → t = u) ∧
      (s.rowWrite fn g (accessLanes off size) (s.merged g (accessLanes off size) ((accessLanes off size).place v)) = none →
        ∀ f ∈ g.reg.fields,
          ((accessLanes off size).takes f = true ∧ (fn.val = 0 ∨ windowReadOnly f = false) →
            (f.acc = .rw ∨ f.acc = .rwk → t.get f g.idx = bitsOf ((accessLanes off size).place v) f.lo f.width) ∧
            (f.acc = .w1c → t.get f g.idx =
              s.get f g.idx &&& (2 ^ f.width - 1 - bitsOf ((accessLanes off size).place v) f.lo f.width)) ∧
            (f.acc = .rws → t.getStaged f g.idx = bitsOf ((accessLanes off size).place v) f.lo f.width ∧
              t.get f g.idx = s.get f g.idx)) ∧
          ((accessLanes off size).takes f = false ∨ (fn.val ≠ 0 ∧ windowReadOnly f = true) →
            (f.acc ≠ .ro → t.get f g.idx = s.get f g.idx) ∧ t.getStaged f g.idx = s.getStaged f g.idx) ∧
          (f.acc = .rc → t.get f g.idx = s.get f g.idx) ∧
          (f.acc = .ro → g.reg ≠ .TIME_SYNCE → g.reg ≠ .LANE_TEST → g.reg ≠ .TOP_INT_CAUSE → t.get f g.idx = s.get f g.idx))

/-- STAGING_WRITE (R79). A write to an RWS field goes to its staging copy and acts only at a later commit. -/
def stagingWriteDoes : Prop :=
  ∀ (fn : FnNo) (off : BarOffset) (size : Fin 65) (v : Word) (g : Target) (f : Fld) (s : State),
      s.hostReach 0 true = true → s.accessKind fn off size true v = 0 → s.target fn off = some g → s.present g = true →
      s.hostReach fn (State.openReg g) = true →
      s.rowWrite fn g (accessLanes off size) (s.merged g (accessLanes off size) ((accessLanes off size).place v)) = none →
      g.reg.fields.filter (fun f => s.isPaired g f && (accessLanes off size).takes f) = [] →
      f ∈ g.reg.fields → s.isStaged g f = true →
    ∃ t, exec (.stagingWrite fn off size v) s = .next t ∧ t.get f g.idx = s.get f g.idx ∧
      ((accessLanes off size).takes f = true → fn.val = 0 ∨ windowReadOnly f = false →
        t.getStaged f g.idx = bitsOf ((accessLanes off size).place v) f.lo f.width ∧
        t.readField fn g f = (if s.get CFG.VIEW.INFORCE fn = 0 then bitsOf ((accessLanes off size).place v) f.lo f.width
          else s.get f g.idx)) ∧
      ((accessLanes off size).takes f = false ∨ (fn.val ≠ 0 ∧ windowReadOnly f = true) →
        t.getStaged f g.idx = s.getStaged f g.idx)

/-- CLEAR_ON_READ (R16). A read of an RC field returns it and clears the bits it returns. -/
def clearOnReadDoes : Prop :=
  ∀ (fn : FnNo) (off : BarOffset) (size : Fin 65) (g : Target) (f : Fld) (s : State),
      s.hostReach 0 true = true → s.accessKind fn off size false 0 = 0 → s.target fn off = some g → s.present g = true →
      s.hostReach fn (State.openReg g) = true → f ∈ g.reg.fields → f.acc = .rc → g.reg ≠ .TIME_NOW_SUB →
    ∃ t d, exec (.clearOnRead fn off size) s = .next t ∧ t.out.head? = some (.readData fn off size d) ∧
      ((accessLanes off size).takes f = true →
        d / 2 ^ (f.lo - (accessLanes off size).range.1) % 2 ^ f.width = (s.freshen fn g).get f g.idx ∧
        t.get f g.idx = (if f = PIPE.IFIFO_STATUS.HIGH_WATER then s.get PIPE.IFIFO_STATUS.FILL g.idx
          else if f = CELL.POOL_STATUS.LOW_WATER then s.get CELL.POOL_STATUS.FREE_CELLS g.idx else 0)) ∧
      (f.lo + f.width ≤ (accessLanes off size).range.1 ∨ (accessLanes off size).range.2 ≤ f.lo →
        t.get f g.idx = (s.freshen fn g).get f g.idx)

/-- PAIRED_WRITE (R90). A write to an RWP field opens or replaces a pending latch, completes a pair, or is discarded as
FOREIGN or FULL. -/
def pairedWriteDoes : Prop :=
  ∀ (fn : FnNo) (off : BarOffset) (size : Fin 65) (v : Word) (g : Target) (f : Fld) (p : PairField) (l : PairLatch)
      (s : State), s.hostReach 0 true = true → s.accessKind fn off size true v = 0 → s.target fn off = some g → s.present g = true →
      s.hostReach fn (State.openReg g) = true →
      s.rowWrite fn g (accessLanes off size) (s.merged g (accessLanes off size) ((accessLanes off size).place v)) = none →
      g.reg.fields.filter (fun f => s.isPaired g f && (accessLanes off size).takes f) = [f] →
      s.partner ⟨g.reg, g.idx, f.lo, f.width⟩ = some p →
      (bitsOf ((accessLanes off size).place v) f.lo f.width ≠ s.get f g.idx ∨
        (g.reg.fields.filter fun f => s.isPaired g f).length = 1) →
      s.cf.latches.find? (fun l => l.isOn ⟨g.reg, g.idx, f.lo, f.width⟩ || l.isOn p) = some l → l.fn = fn.val →
      l.isOn ⟨g.reg, g.idx, f.lo, f.width⟩ = false →
    ∃ t, exec (.pairedWrite fn off size v) s = .next t ∧ t.cf.latches = s.cf.latches.erase l ∧
      (g.reg ∈ [.QM_PORT_SHAPER, .QM_CG_SHAPER, .QM_QSHAPER] →
        t.get f g.idx = bitsOf ((accessLanes off size).place v) f.lo f.width ∧
        t.get ⟨p.reg, p.lo, p.width, .rwp⟩ p.idx = l.value % 2 ^ p.width) ∧
      (g.reg ∈ [.TIME_RATE, .TIME_STEP_NS] →
        t.get f g.idx = bitsOf ((accessLanes off size).place v) f.lo f.width ∧
        t.get ⟨p.reg, p.lo, p.width, .rwp⟩ p.idx = l.value % 2 ^ p.width) ∧
      (g.reg = .POL_CFG → t.get f g.idx = s.get f g.idx ∧ t.cf.due = s.cf.due ++
        [if f.lo = 0 then .policer g.idx (bitsOf ((accessLanes off size).place v) f.lo f.width) l.value
          else .policer g.idx l.value (bitsOf ((accessLanes off size).place v) f.lo f.width)]) ∧
      (g.reg = .PIPE_PROG_REG → t.get f g.idx = s.get f g.idx ∧
        t.cf.due = s.cf.due ++ [.program g.idx p.idx (bitsOf ((accessLanes off size).place v) f.lo f.width) l.value])

/-- PAIR_TIMEOUT (R95). A pending latch whose partner is not written within 1 ms is discarded with cause TIMEOUT. -/
def pairTimeoutDoes : Prop :=
  ∀ (l : PairLatch) (s : State), l ∈ s.cf.latches → l.at_ + msTicks ≤ s.now →
    ∃ t, exec .pairTimeout s = .next t ∧ t.cf.latches = s.cf.latches.filter (fun l => decide (s.now < l.at_ + msTicks)) ∧
      t.get CFG.PAIR_STATUS.LAST_CAUSE l.fn = 1 ∧ t.get CFG.PAIR_STATUS.DISCARD_SEEN l.fn = 1 ∧
      ((∀ m ∈ s.cf.latches, m.fn = l.fn → m.at_ + msTicks ≤ s.now) → t.get CFG.PAIR_STATUS.PENDING l.fn = 0) ∧
      (s.cf.latches.filter (fun m => m.fn == l.fn && decide (m.at_ + msTicks ≤ s.now)) = [l] →
        t.get CFG.PAIR_STATUS.DISCARDS l.fn = min (s.get CFG.PAIR_STATUS.DISCARDS l.fn + 1) (2 ^ CFG.PAIR_STATUS.DISCARDS.width - 1) ∧
        t.get CFG.PAIR_DISCARD.OFFSET l.fn = l.offset % 2 ^ CFG.PAIR_DISCARD.OFFSET.width ∧
        t.get CFG.PAIR_DISCARD.LSB l.fn = l.lo % 2 ^ CFG.PAIR_DISCARD.LSB.width ∧
        t.get CFG.PAIR_DISCARD_VALUE.VALUE l.fn = l.written % 2 ^ 64) ∧
      (if l.fn = 0 then t.get CFG.INT_CAUSE.PAIR_DISCARD 0 = 1 else t.get WIN.INT_CAUSE.PAIR_DISCARD l.fn = 1)

/-- LERAR_REPLAY (R30). A Lerar transfer that fails its check is replayed from the sender's replay buffer and counted. -/
def lerarReplayDoes : Prop :=
  ∀ (n : LinkNo) (x : Nat) (s : State), s.get LNK.LINK_STATUS.STATE n = 2 →
    ∃ t, exec (.lerarReplay n x) s = .next t ∧
      t.get LNK.LINK_ERRORS.REPLAYS n = min (s.get LNK.LINK_ERRORS.REPLAYS n + 1) (2 ^ 32 - 1) ∧
      tabGet 0 (t.link n).tries x = tabGet 0 (s.link n).tries x + 1 ∧ x ∈ (t.link n).unacked

/-- LINK_RETIRE (R31). A link that reaches the replay limit in its window, or eight successive replays of one transfer, is
retired and its traffic moved to surviving links. -/
def linkRetireDoes : Prop :=
  ∀ (n : LinkNo) (s : State), s.retireDue n = true →
    ∃ t, exec (.linkRetire n) s = .next t ∧ t.get LNK.LINK_STATUS.STATE n = 3 ∧ t.get LNK.LINK_STATUS.RETIRED_SEEN n = 1 ∧
      ∀ m, s.survivor n = some m → (t.link m).unacked = (s.link m).unacked ++ (s.link n).unacked ∧ (t.link n).unacked = []

/-- LINK_AUTO_RETRAIN (R32). 10 ms after retirement, with AUTO_RETRAIN set, a retired link starts training once. -/
def linkAutoRetrainDoes : Prop :=
  ∀ (n : LinkNo) (a : Nat) (s : State), (s.link n).retiredAt = some a → s.get LNK.CFG.AUTO_RETRAIN 0 = 1 →
      s.get LNK.LINK_STATUS.STATE n = 3 → a + 20000000 ≤ s.now →
    ∃ t, exec (.linkAutoRetrain n) s = .next t ∧ t.get LNK.LINK_STATUS.STATE n = 1 ∧ (t.link n).retiredAt = none

/-- LINK_TRAINING_END (R32). Link training ends with the link UP or in TRAIN_FAILED. -/
def linkTrainingEndDoes : Prop :=
  ∀ (n : LinkNo) (up : Bool) (s : State), s.get LNK.LINK_STATUS.STATE n = 1 →
    ∃ t, exec (.linkTrainingEnd n up) s = .next t ∧ t.get LNK.LINK_STATUS.STATE n = (if up then 2 else 4)

/-- RETRAIN (R32). A write of LNK.CTRL.RETRAIN starts training of a RETIRED or TRAIN_FAILED link. -/
def retrainDoes : Prop :=
  ∀ (v : Word) (s : State), s.hostReach 0 false = true → natBit v.toNat 8 = true →
      s.get LNK.LINK_STATUS.STATE (bitsOf v 0 6) = 3 ∨ s.get LNK.LINK_STATUS.STATE (bitsOf v 0 6) = 4 →
    ∃ t, exec (.retrain v) s = .next t ∧ t.get LNK.LINK_STATUS.STATE (bitsOf v 0 6) = 1

/-- WAVEFRONT_LAUNCH (R37). A pipe holding a pace token with its first stage free launches a wavefront of zero to eight
heads. -/
def wavefrontLaunchDoes : Prop :=
  ∀ (p : AnyPipe) (s : State), (s.pipe p).tokens ≠ 0 → s.posFree p 0 = true →
    ∃ t w, exec (.wavefrontLaunch p) s = .next t ∧ (t.pipe p).tokens = (s.pipe p).tokens - 1 ∧
      (t.pipe p).waves = (s.pipe p).waves ++ [w] ∧ w.pos = 0 ∧ w.launchedAt = s.now ∧ w.heads.length ≤ max 8 (s.pipe p).forming.length ∧
      (if p.val < 16 then
        t.get PIPE.IP_COUNT.WAVEFRONTS p = min (s.get PIPE.IP_COUNT.WAVEFRONTS p + 1) (2 ^ 32 - 1) ∧
        t.get PIPE.IP_COUNT.HEADS p = min (s.get PIPE.IP_COUNT.HEADS p + w.heads.length) (2 ^ 32 - 1)
      else
        t.get PIPE.EP_COUNT.WAVEFRONTS (p - 16) = min (s.get PIPE.EP_COUNT.WAVEFRONTS (p - 16) + 1) (2 ^ 32 - 1) ∧
        t.get PIPE.EP_COUNT.HEADS (p - 16) = min (s.get PIPE.EP_COUNT.HEADS (p - 16) + w.heads.length) (2 ^ 32 - 1)) ∧
      (p.val < 16 → (s.pipe p).fencePending = false → s.cf.due = [] →
        w.heads = (s.auxTake p).1 ++ s.readyHeads p (8 - (s.auxTake p).1.length) ∧
        (t.pipe p).aux = (s.pipe p).aux.drop (s.auxTake p).1.length ∧
        (t.pipe p).fifo = (s.pipe p).fifo.drop (s.readyHeads p (8 - (s.auxTake p).1.length)).length ∧
        ∀ k v, k ∈ s.readyHeads p (8 - (s.auxTake p).1.length) → s.packet k = some v →
          ∃ u, t.packet k = some u ∧ u.place = .ingress ∧ u.head = v.head ∧ u.md.lenValid = v.whole ∧
            u.epoch = natBit (s.pipe p).epochs v.troupe) ∧
      (16 ≤ p.val → s.cf.due = [] → w.heads = (s.pipe p).forming ∧ (t.pipe p).forming = [] ∧
        ∀ k f v, k ∈ (s.pipe p).forming → s.flight k = some f → s.packet f.packet = some v →
          ∃ g, t.flight k = some g ∧ g.head = v.head ∧ g.md.queueId = some f.queue ∧ g.md.drop = false ∧ g.md.lenValid = v.whole)

/-- PARSER_PASS (R192). The parser walks the head's states and ends with status ACCEPT or REJECT, setting PARSE_TRUNC
where a header runs past the head. -/
def parserPassDoes : Prop :=
  ∀ (p : AnyPipe) (w : Wave) (s : State), s.waveAt p 0 = some w → s.posFree p 1 = true →
    ∃ t, exec (.parserPass p) s = .next t ∧
      (t.pipe p).waves = ((s.pipe p).waves.map fun u => if u.pos = 0 then { u with pos := 1 } else u) ∧
      (w.heads.Nodup → ∀ k v, k ∈ w.heads → s.headOf p k = some v →
        ∃ u, t.headOf p k = some u ∧ u.head = v.head ∧ u.md = (s.parse p v).md)

/-- STAGE_EXECUTE (R198). A match-action stage applies its program's actions to every head of a wavefront. -/
def stageExecuteDoes : Prop :=
  ∀ (p : AnyPipe) (k : Fin 32) (w : Wave) (s : State), s.waveAt p (k.val + 1) = some w →
      k.val + 1 < lastPos p → s.posFree p (k.val + 2) = true →
    ∃ t, exec (.stageExecute p k) s = .next t ∧
      (t.pipe p).waves = ((s.pipe p).waves.map fun u => if u.pos = k.val + 1 then { u with pos := k.val + 2 } else u) ∧
      (∀ h v, w.heads = [h] → s.headOf p h = some v → s.program p v = none → ∃ u, t.headOf p h = some u ∧ u.head = v.head ∧ u.md = v.md) ∧
      (∀ h v g, w.heads = [h] → s.headOf p h = some v → s.program p v = some g →
        ∃ u, t.headOf p h = some u ∧ u.head = (s.actAll p w v ((g.stages[k.val]?).getD [])).2.head ∧
          u.md = (s.actAll p w v ((g.stages[k.val]?).getD [])).2.md)

/-- INGRESS_PIPE_END (R199). At the end of the ingress pipe the drop decision is taken and destinations and mirror
sessions are checked against the troupe. -/
def ingressPipeEndDoes : Prop :=
  ∀ (p : PipeNo) (w : Wave) (s : State), s.waveAt p 33 = some w →
    ∃ t, exec (.ingressPipeEnd p) s = .next t ∧ (t.pipe p).waves = ((s.pipe p).waves.filter fun u => u.pos != 33) ∧
      (∀ k v, w.heads = [k] → s.packet k = some v → v.md.drop = false → v.md.resubmit = false → s.boundsCheck v = none →
        (t.pipe p).asm = (s.pipe p).asm ++ [k] ∧
        ∃ u, t.packet k = some u ∧ u.place = .hub ∧ u.head = v.deparse.head ∧ u.md.queueId = v.md.queueId ∧
          u.md.flowHash = crc32c 0xFFFFFFFF v.deparse.flowKey) ∧
      (∀ k v, w.heads = [k] → s.packet k = some v → v.md.drop = false → v.md.resubmit = true →
        v.md.passes + 1 ≤ s.maxPasses p v → (s.pipe p).auxBytes + v.deparse.auxSize ≤ 65536 →
        (t.pipe p).aux = (s.pipe p).aux ++ [k] ∧ (t.pipe p).auxBytes = (s.pipe p).auxBytes + v.deparse.auxSize ∧
        ∃ u, t.packet k = some u ∧ u.place = .aux ∧ u.head = v.deparse.head ∧ u.md.passes = v.md.passes + 1) ∧
      (∀ k v, w.heads = [k] → s.packet k = some v → v.md.drop = true → v.sessions = [] →
        (t.pipe p).asm = (s.pipe p).asm ∧ (t.pipe p).aux = (s.pipe p).aux ∧ ∀ u, t.packet k = some u → u.place = .discard)

/-- EGRESS_PIPE_END (R217). At the end of an egress pipe the frame is dropped, dropped for EGRESS_MTU, or passed to the
egress elastic FIFO. -/
def egressPipeEndDoes : Prop :=
  ∀ (p : PipeNo) (w : Wave) (s : State), s.waveAt (p.val + 16) 17 = some w →
    ∃ t, exec (.egressPipeEnd p) s = .next t ∧
      (t.pipe (p.val + 16)).waves = ((s.pipe (p.val + 16)).waves.filter fun u => u.pos != 17) ∧
      (∀ k f v, w.heads = [k] → s.flight k = some f → s.headOf (p.val + 16) k = some v → v.md.drop = false → v.md.recirculate = false →
        (v.md.lenValid = true → (v.len : Int) + v.deparse.md.lenDelta ≤ s.maxFrame f.port) →
        (t.port f.port).efifo = (s.port f.port).efifo ++ [k] ∧
        ∃ g, t.flight k = some g ∧ g.inFifo = true ∧ g.head = (if f.copy.ce then markCe v.deparse.head else v.deparse.head)) ∧
      (∀ k f v, w.heads = [k] → s.flight k = some f → s.headOf (p.val + 16) k = some v → v.md.drop = true → t.flight k = none) ∧
      (∀ k f v, w.heads = [k] → s.flight k = some f → s.headOf (p.val + 16) k = some v → v.md.drop = false → v.md.recirculate = false →
        v.md.lenValid = true → (s.maxFrame f.port : Int) < v.len + v.deparse.md.lenDelta →
        t.flight k = none ∧ t.get PIPE.EP_EXC.MTU_DROPS p = min (s.get PIPE.EP_EXC.MTU_DROPS p + 1) 65535)

/-- DEPTH_MAP_BROADCAST (R204). Every 64 ns the hub broadcasts the per-port depth map to every rim die. -/
def depthMapBroadcastDoes : Prop :=
  ∀ (m : BitVec 4) (s : State), (∀ a, s.sw.mapSent = some a → a + 128 ≤ s.now) →
    ∃ t, exec (.depthMapBroadcast m) s = .next t ∧ t.sw.mapSent = some s.now ∧
      (∀ x ∈ s.image.ports, t.get (depthField x.port) (x.port / 8) = s.depthEntry x.port) ∧
      (∀ p, p < 16 → natBit m.toNat (p / 4) = false → (t.pipe p).mapAt = s.now ∧ (t.pipe p).mapStale = false ∧
        t.get PIPE.DEPTH_MAP_STATUS.STALE (p / 4) = 0 ∧ ∀ x ∈ s.image.ports, tabFind (t.pipe p).map x.port = some (s.depthEntry x.port)) ∧
      (∀ p, p < 16 → natBit m.toNat (p / 4) = true → (t.pipe p).map = (s.pipe p).map ∧ (t.pipe p).mapAt = (s.pipe p).mapAt ∧
        t.get PIPE.DEPTH_MAP_STATUS.MISSED (p / 4) = min (s.get PIPE.DEPTH_MAP_STATUS.MISSED (p / 4) + 1) 65535)

/-- DEPTH_MAP_STALE (R207). A pipe that has received no broadcast for STALE_PERIODS periods marks its map stale. -/
def depthMapStaleDoes : Prop :=
  ∀ (p : PipeNo) (s : State), (s.pipe p).mapStale = false →
      (s.pipe p).mapAt + max 2 (s.get PIPE.DEPTH_MAP_CFG.STALE_PERIODS 0) * 128 ≤ s.now →
    ∃ t, exec (.depthMapStale p) s = .next t ∧ (t.pipe p).mapStale = true ∧ t.get PIPE.DEPTH_MAP_STATUS.STALE (pipeDie p) = 1 ∧
      (s.get PIPE.DEPTH_MAP_STATUS.STALE (pipeDie p) = 0 → t.get PIPE.INT_CAUSE.DEPTH_STALE 0 = 1)

/-- FLOWLET_FLUSH (R206). A write of PIPE.ADAPT_CFG.FLOWLET_FLUSH invalidates every flowlet entry of every pipe. -/
def flowletFlushDoes : Prop :=
  ∀ (v : Word) (s : State), s.hostReach 0 false = true →
    ∃ t, exec (.flowletFlush v) s = .next t ∧ t.getStaged PIPE.ADAPT_CFG.GAP_US 0 = bitsOf v PIPE.ADAPT_CFG.GAP_US.lo PIPE.ADAPT_CFG.GAP_US.width ∧
      t.getStaged PIPE.ADAPT_CFG.CANDIDATES 0 = bitsOf v PIPE.ADAPT_CFG.CANDIDATES.lo PIPE.ADAPT_CFG.CANDIDATES.width ∧
      (natBit v.toNat 32 = true → ∀ p, p < 16 → (t.pipe p).flowlets = []) ∧
      (natBit v.toNat 32 = false → ∀ p, p < 16 → (t.pipe p).flowlets = (s.pipe p).flowlets)

/-- RX_FRAME_START (R47). At a frame's first byte the ingress elastic FIFO admits it with a MAX_FRAME reservation or
refuses it whole. -/
def rxFrameStartDoes : Prop :=
  ∀ (x : PortNo) (bytes : List Byte) (n : Nat) (ph : Fin 4) (s : State), s.portUp x = true →
      (s.port x).rx = none → (s.port x).rxRefused = false → be16 bytes 12 ≠ 0x8808 →
    ∃ t, exec (.rxFrameStart x bytes n ph) s = .next t ∧ (t.port x).rxBytes = bytes ∧
      (s.maxFrame x ≤ s.ififoSpace (portPipe x) →
        s.get PIPE.IFIFO_STATUS.XOFF_ACTIVE (portPipe x) = 0 ∨ s.get PIPE.IFIFO_CFG.LOSSY_DROP_EN (portPipe x) = 0 ∨
          s.lossless x (s.framePrio x bytes) = true →
        (t.port x).rx = some s.sw.nextPacket ∧ (t.pipe (portPipe x)).fifo = (s.pipe (portPipe x)).fifo ++ [s.sw.nextPacket] ∧
        ∃ v, t.packet s.sw.nextPacket = some v ∧ v.port = x.val ∧ v.head = bytes.take 256 ∧ v.body = bytes.drop 256 ∧
          v.prio = s.framePrio x bytes ∧ v.arrived = min n (min bytes.length (s.maxFrame x))) ∧
      (s.ififoSpace (portPipe x) < s.maxFrame x →
        (t.port x).rx = none ∧ (t.port x).rxRefused = true ∧ t.get PIPE.IFIFO_STATUS.FULL_SEEN (portPipe x) = 1 ∧
        (if s.lossless x (s.framePrio x bytes) then t.get PIPE.IFIFO_DROPS.LOSSLESS_DROPS (portPipe x) =
            min (s.get PIPE.IFIFO_DROPS.LOSSLESS_DROPS (portPipe x) + 1) (2 ^ 32 - 1)
          else t.get PIPE.IFIFO_DROPS.LOSSY_DROPS (portPipe x) = min (s.get PIPE.IFIFO_DROPS.LOSSY_DROPS (portPipe x) + 1) (2 ^ 32 - 1))) ∧
      (s.get PIPE.IFIFO_STATUS.XOFF_ACTIVE (portPipe x) = 1 → s.get PIPE.IFIFO_CFG.LOSSY_DROP_EN (portPipe x) = 1 →
        s.lossless x (s.framePrio x bytes) = false →
        (t.port x).rx = none ∧ (t.port x).rxRefused = true ∧
        t.get PIPE.IFIFO_DROPS.LOSSY_DROPS (portPipe x) = min (s.get PIPE.IFIFO_DROPS.LOSSY_DROPS (portPipe x) + 1) (2 ^ 32 - 1))

/-- IFIFO_XOFF (R45). When the FIFO fill reaches XOFF_LEVEL, the pipe's ports pause lossless priorities and tail-drop
lossy ones. -/
def ififoXoffDoes : Prop :=
  ∀ (p : PipeNo) (s : State), s.xoffLevel p ≤ (s.pipe p).fill → s.get PIPE.IFIFO_STATUS.XOFF_ACTIVE p = 0 →
    ∃ t, exec (.ififoXoff p) s = .next t ∧ t.get PIPE.IFIFO_STATUS.XOFF_ACTIVE p = 1 ∧
      t.get PIPE.IFIFO_STATUS.EPISODES p = min (s.get PIPE.IFIFO_STATUS.EPISODES p + 1) (2 ^ PIPE.IFIFO_STATUS.EPISODES.width - 1) ∧
      (s.get PIPE.IFIFO_CFG.INT_EN p = 1 → t.get PIPE.INT_CAUSE.IFIFO 0 = 1)

/-- IFIFO_XON (R48). When the fill falls below XON_LEVEL, the pauses are released and tail-dropping stops. -/
def ififoXonDoes : Prop :=
  ∀ (p : PipeNo) (s : State), s.get PIPE.IFIFO_STATUS.XOFF_ACTIVE p = 1 → (s.pipe p).fill < s.xonLevel p →
    ∃ t, exec (.ififoXon p) s = .next t ∧ t.get PIPE.IFIFO_STATUS.XOFF_ACTIVE p = 0

/-- RX_FRAME_END (R146). The MAC checks the received frame and counts it as good or drops it under the first failing row. -/
def rxFrameEndDoes : Prop :=
  ∀ (x : PortNo) (e : RxEnd) (s : State), (s.port x).rx.isSome = true ∨ (s.port x).rxRefused = true →
    ∃ t, exec (.rxFrameEnd x e) s = .next t ∧ (t.port x).rxBytes = [] ∧ (t.port x).rxRefused = false ∧
      (rxCheck e (s.rxGot x e) (s.maxFrame x) = none →
        t.get PORT.COUNTER.COUNT (x * 20 + cntRxFrames) = (s.get PORT.COUNTER.COUNT (x * 20 + cntRxFrames) + 1) % 2 ^ 64 ∧
        t.get PORT.COUNTER.COUNT (x * 20 + cntRxBytes) = (s.get PORT.COUNTER.COUNT (x * 20 + cntRxBytes) + (s.rxGot x e).length) % 2 ^ 64) ∧
      (∀ c r, rxCheck e (s.rxGot x e) (s.maxFrame x) = some (c, r) →
        t.get PORT.COUNTER.COUNT (x * 20 + c) = (s.get PORT.COUNTER.COUNT (x * 20 + c) + 1) % 2 ^ 64) ∧
      (∀ k v, (s.port x).rxRefused = false → (s.port x).rx = some k → s.packet k = some v → v.place ≠ .discard →
        (t.port x).rx = none ∧ ∃ u, t.packet k = some u ∧ u.whole = true ∧ u.len = min (s.rxGot x e).length (s.maxFrame x) ∧
          u.bad = (rxCheck e (s.rxGot x e) (s.maxFrame x)).map Prod.snd)

/-- RX_CODEWORD (R125). A received codeword is decoded, correcting up to 15 symbol errors, and counted. -/
def rxCodewordDoes : Prop :=
  ∀ (l : LaneNo) (cw : Codeword) (s : State), s.get LANE.CFG.MODE l ≠ 0 →
    ∃ t, exec (.rxCodeword l cw) s = .next t ∧
      (∀ n, s.corrected l cw = some n →
        t.get LANE.ERR.SYM_CORRECTED l = min (s.get LANE.ERR.SYM_CORRECTED l + n) (2 ^ 32 - 1) ∧
        (t.lane l).goodRun = (s.lane l).goodRun + 1 ∧ (t.lane l).badRun = 0) ∧
      (s.corrected l cw = none → t.get LANE.ERR.CW_UNCORR l = min (s.get LANE.ERR.CW_UNCORR l + 1) (2 ^ 32 - 1) ∧
        (t.lane l).goodRun = 0 ∧ (t.lane l).badRun = (s.lane l).badRun + 1) ∧
      (s.get LANE.CFG.MODE l = 1 → t.get LANE.ALIGN_STATUS.INVALID_PAIRS l =
        min (s.get LANE.ALIGN_STATUS.INVALID_PAIRS l + (cw.levels.filter fun p => isCorner (p.1.val, p.2.val)).length) 65535)

/-- SLIP (R130). A write of LANE.ALIGN_CTRL.SLIP delays the receiver's pattern position and reports MATCH_PAIRS within 50
ns. -/
def slipDoes : Prop :=
  ∀ (l : LaneNo) (v : Word) (m : Fin 1021) (s : State), s.hostReach 0 false = true →
      s.get LANE.ALIGN_STATUS.DATA l = 0 → s.get LANE.CFG.MODE l = 1 →
    ∃ t, exec (.slip l v m) s = .next t ∧ (t.lane l).pos = ((s.lane l).pos + 2048 - bitsOf v 0 11) % 2048 ∧
      t.get LANE.ALIGN_STATUS.MATCH_PAIRS l = m.val ∧ t.get LANE.ALIGN_STATUS.MATCH l = (if 1000 ≤ m.val then 1 else 0)

/-- RX_ALIGNED_SET (R130). RX_ALIGNED sets once MATCH has held for 16 consecutive periods without a slip. -/
def rxAlignedSetDoes : Prop :=
  ∀ (l : LaneNo) (m : Fin 1021) (st : BitVec 20) (s : State), s.get LANE.CFG.MODE l = 1 → 1000 ≤ m.val →
      (∀ a, (s.lane l).slipAt = some a → a + 386 ≤ s.now) → s.get LANE.ALIGN_STATUS.RX_ALIGNED l = 0 →
    ∃ t, exec (.rxAlignedSet l ⟨m, st⟩) s = .next t ∧ t.get LANE.ALIGN_STATUS.RX_ALIGNED l = 1 ∧ t.get LANE.ALIGN_STATUS.MATCH l = 1 ∧
      t.get LANE.ALIGN_STATUS.MATCH_PAIRS l = m.val ∧ t.get LANE.ALIGN_STATUS.FAR_ALIGNED l = b2n (natBit st.toNat 0) ∧
      (t.lane l).lastAligned = some (s.lane l).pos

/-- TX_SWITCH_TO_DATA (R131). Once all lanes are aligned locally and remotely, the port's transmitter switches from TP6 to
codewords at a period boundary. -/
def txSwitchToDataDoes : Prop :=
  ∀ (x : PortNo) (r : List (List (BitVec 20))) (s : State), (s.lanesOf x).length = r.length →
      (∀ a ∈ r, 16 ≤ a.length ∧ ∀ v ∈ a.take 16, natBit v.toNat 0 = true) →
      (∀ l ∈ s.lanesOf x, s.get LANE.CFG.MODE l = 1 ∧ s.get LANE.ALIGN_STATUS.RX_ALIGNED l = 1 ∧
        ((s.lane l).tx = .tp6 ∨ (s.lane l).tx = .data) ∧ s.get LANE.CFG.TX_SOURCE l ≠ 1 ∧ s.get LANE.CFG.TX_SOURCE l ≠ 2) →
      (∃ l ∈ s.lanesOf x, (s.lane l).tx = .tp6) →
    ∃ t, exec (.txSwitchToData x r) s = .next t ∧ (t.port x).nextBlock = 0 ∧
      ∀ l ∈ s.lanesOf x, (t.lane l).tx = .data ∧ (t.lane l).blocks = [] ∧ t.get LANE.ALIGN_STATUS.FAR_ALIGNED l = 1

/-- DATA_LOCK (R132). After the far side switches, the receiver sets DATA after four consecutive decodable codewords. -/
def dataLockDoes : Prop :=
  ∀ (l : LaneNo) (q : Fin 256) (k : Nat) (s : State), s.get LANE.CFG.MODE l = 1 → s.get LANE.ALIGN_STATUS.RX_ALIGNED l = 1 →
      s.get LANE.ALIGN_STATUS.DATA l = 0 → 4 ≤ (s.lane l).goodRun →
    ∃ t, exec (.dataLock l ⟨q, k⟩) s = .next t ∧ t.get LANE.ALIGN_STATUS.DATA l = 1 ∧ (t.lane l).dataStart = some (q.val, k) ∧
      (∀ x, s.laneOwner l = some x → t.deskewed x = true → t.get PORT.STATUS.DESKEW_OK x = 1)

/-- ALIGN_LOST (R133). Eight consecutive uncorrectable codewords clear DATA and RX_ALIGNED and return the transmitter to
TP6. -/
def alignLostDoes : Prop :=
  ∀ (l : LaneNo) (s : State), s.get LANE.ALIGN_STATUS.DATA l = 1 → 8 ≤ (s.lane l).badRun →
    ∃ t, exec (.alignLost l) s = .next t ∧ t.get LANE.ALIGN_STATUS.DATA l = 0 ∧ t.get LANE.ALIGN_STATUS.RX_ALIGNED l = 0 ∧
      t.get LANE.ALIGN_STATUS.ALIGN_LOST l = 1 ∧
      ((s.lane l).tx = .data ∨ (s.lane l).tx = .tp6 → (t.lane l).tx = .tp6) ∧ ((s.lane l).tx = .test → (t.lane l).tx = .test)

/-- REALIGN (R133). TP6 matching within 8 symbols of the last position for four periods restores RX_ALIGNED without
software. -/
def realignDoes : Prop :=
  ∀ (l : LaneNo) (d : Int) (st : BitVec 20) (p : Nat) (s : State), s.get LANE.CFG.MODE l = 1 →
      s.get LANE.ALIGN_STATUS.RX_ALIGNED l = 0 → (s.lane l).lastAligned = some p → -8 ≤ d → d ≤ 8 →
    ∃ t, exec (.realign l ⟨d, st⟩) s = .next t ∧ t.get LANE.ALIGN_STATUS.RX_ALIGNED l = 1 ∧ ((t.lane l).pos : Int) = ((p : Int) + d) % 2048 ∧
      t.get LANE.ALIGN_STATUS.FAR_ALIGNED l = b2n (natBit st.toNat 0)

/-- TX_FIR_WRITE (R140). A write of LANE.TX_FIR takes effect glitch-free within 1 µs, or is ignored and sets REJECTED. -/
def txFirWriteDoes : Prop :=
  ∀ (l : LaneNo) (v : Word) (s : State), s.hostReach 0 false = true → (s.lane l).training = false →
      bitsOf v 0 5 ≤ 16 → 32 ≤ bitsOf v 8 7 → bitsOf v 8 7 ≤ 64 → bitsOf v 16 5 ≤ 24 → bitsOf v 0 5 + bitsOf v 8 7 + bitsOf v 16 5 ≤ 64 →
    ∃ t, exec (.txFirWrite l v) s = .next t ∧ t.get LANE.TX_FIR.C_PRE l = bitsOf v 0 5 ∧ t.get LANE.TX_FIR.C_MAIN l = bitsOf v 8 7 ∧
      t.get LANE.TX_FIR.C_POST l = bitsOf v 16 5

/-- IEEE_TRAINING_REQUEST (R141). A link-training request for a transmit tap is answered with the coefficient or its
limit. -/
def ieeeTrainingRequestDoes : Prop :=
  ∀ (l : LaneNo) (a : Int) (w : Nat) (s : State), 2 ≤ s.get LANE.CFG.MODE l → s.get LANE.CFG.IEEE_TRAIN_EN l = 1 →
    ∃ t b c, exec (.ieeeTrainingRequest l a w) s = .next t ∧ (t.lane l).training = true ∧
      t.out.head? = some (.answer "LINK_TRAINING" [b, c]) ∧
      (a = -1 → w ≤ 16 → s.get LANE.TX_FIR.C_MAIN l + s.get LANE.TX_FIR.C_POST l + w ≤ 64 → t.get LANE.TX_FIR.C_PRE l = w) ∧
      (a = 0 → 32 ≤ w → w ≤ 64 → s.get LANE.TX_FIR.C_PRE l + s.get LANE.TX_FIR.C_POST l + w ≤ 64 → t.get LANE.TX_FIR.C_MAIN l = w) ∧
      (a = 1 → w ≤ 24 → s.get LANE.TX_FIR.C_PRE l + s.get LANE.TX_FIR.C_MAIN l + w ≤ 64 → t.get LANE.TX_FIR.C_POST l = w) ∧
      (a ≠ -1 → a ≠ 0 → a ≠ 1 → b = 0 ∧ c = 1)

/-- RX_CFG_WRITE (R142). A change of CURSOR_POS, DFE_EN or SEQ_DET_EN restarts receive adaptation. -/
def rxCfgWriteDoes : Prop :=
  ∀ (l : LaneNo) (v : Word) (s : State), s.hostReach 0 false = true →
    ∃ t, exec (.rxCfgWrite l v) s = .next t ∧
      (∀ f ∈ Reg.LANE_RX_CFG.fields, t.get f l = bitsOf v f.lo f.width) ∧
      (min (s.get LANE.RX_CFG.CURSOR_POS l) 23 ≠ min (t.get LANE.RX_CFG.CURSOR_POS l) 23 ∨
        s.get LANE.RX_CFG.DFE_EN l ≠ t.get LANE.RX_CFG.DFE_EN l ∨ s.get LANE.RX_CFG.SEQ_DET_EN l ≠ t.get LANE.RX_CFG.SEQ_DET_EN l →
        t.get LANE.RX_STATUS.ADAPT_DONE l = 0) ∧
      (min (s.get LANE.RX_CFG.CURSOR_POS l) 23 = min (t.get LANE.RX_CFG.CURSOR_POS l) 23 →
        s.get LANE.RX_CFG.DFE_EN l = t.get LANE.RX_CFG.DFE_EN l → s.get LANE.RX_CFG.SEQ_DET_EN l = t.get LANE.RX_CFG.SEQ_DET_EN l →
        t.get LANE.RX_STATUS.ADAPT_DONE l = s.get LANE.RX_STATUS.ADAPT_DONE l)

/-- IDLE_ENTRY (R136). After ENTRY_NS without frames, an eligible port sends four LPI codewords and stops driving. -/
def idleEntryDoes : Prop :=
  ∀ (x : PortNo) (s : State), s.mayIdle x = true →
    ∃ t, exec (.idleEntry x) s = .next t ∧ t.out = .lpi x :: s.out ∧ (t.port x).lastRefresh = s.now ∧
      ∀ l ∈ s.lanesOf x, t.get LANE.IDLE_STATUS.TX_IDLE l = 1 ∧ (t.lane l).tx = .idle

/-- IDLE_REFRESH (R137). Every REFRESH_US an idle transmitter sends a burst, relock codewords and LPI codewords. -/
def idleRefreshDoes : Prop :=
  ∀ (x : PortNo) (s : State), s.portIdle x = true → (s.port x).lastRefresh + s.refreshUs x * usTicks ≤ s.now →
    ∃ t, exec (.idleRefresh x) s = .next t ∧ t.out.head? = some (.refresh x (s.relockCw x)) ∧ (t.port x).lastRefresh = s.now ∧
      t.get LANE.IDLE_STATUS.TX_IDLE x = 1

/-- IDLE_REFRESH_TIMEOUT (R137). A receiver in notified idle that sees no burst within 4 × REFRESH_US declares a local
fault. -/
def idleRefreshTimeoutDoes : Prop :=
  ∀ (l : LaneNo) (s : State), s.get LANE.IDLE_STATUS.RX_IDLE l = 1 →
      (s.lane l).burstAt + 4 * s.refreshUs l * usTicks ≤ s.now →
    ∃ t, exec (.idleRefreshTimeout l) s = .next t ∧ t.get LANE.IDLE_STATUS.RX_IDLE l = 0 ∧ t.get LANE.RX_STATUS.SIGNAL l = 0 ∧
      (t.lane l).lpiSeen = false

/-- WAKE (R138). A frame or PFC frame ready at an idle port sends a TP6 wake burst, relock codewords, then data. -/
def wakeDoes : Prop :=
  ∀ (x : PortNo) (s : State), s.portIdle x = true → s.portHasWork x = true →
    ∃ t, exec (.wake x) s = .next t ∧ t.out.head? = some (.wake x (s.relockCw x)) ∧
      ∀ l ∈ s.lanesOf x, t.get LANE.IDLE_STATUS.TX_IDLE l = 0 ∧ (t.lane l).tx = .data

/-- WAKE_BURST_RX (R138). A receiver relocks on a wake burst and resumes codeword counting, or sets ALIGN_LOST. -/
def wakeBurstRxDoes : Prop :=
  ∀ (l : LaneNo) (f : Bool) (s : State), s.get LANE.IDLE_STATUS.RX_IDLE l = 1 →
    ∃ t, exec (.wakeBurstRx l f) s = .next t ∧ t.get LANE.IDLE_STATUS.RX_IDLE l = 0 ∧ (t.lane l).lpiSeen = false ∧
      t.get LANE.ALIGN_STATUS.ALIGN_LOST l = (if f then s.get LANE.ALIGN_STATUS.ALIGN_LOST l else 1)

/-- PFC_FRAME_TX (R151). A PFC frame carrying every pending pause change is inserted at the next frame boundary. -/
def pfcFrameTxDoes : Prop :=
  ∀ (x : PortNo) (s : State), s.portUp x = true → s.get PORT.PFC_CFG.TX_EN x = 1 → (s.port x).sending = none →
      s.portIdle x = false → s.pfcPending x ≠ 0 →
    ∃ t, exec (.pfcFrameTx x) s = .next t ∧ t.get PORT.PFC_STATUS.TX_PAUSING x = s.pfcWants x % 256 ∧ (t.port x).refreshDue = 0 ∧
      .frame x (pfcFrame (s.get PORT.SA.ADDR x) (s.pfcPending x) ((List.range 8).map fun p =>
        if natBit (s.pfcPending x) p && natBit (s.pfcWants x) p then s.quanta x else 0)) ∈ t.out ∧
      (∀ p, p < 8 → natBit (s.pfcPending x) p = true → natBit (s.pfcWants x) p = true → tabGet 0 (t.port x).lastXoff p = s.now) ∧
      t.get PORT.COUNTER.COUNT (x * 20 + cntTxPfc) = (s.get PORT.COUNTER.COUNT (x * 20 + cntTxPfc) + 1) % 2 ^ 64

/-- PFC_REFRESH (R152). While a pause is still called for, the port resends XOFF each REFRESH_QUANTA quanta. -/
def pfcRefreshDoes : Prop :=
  ∀ (x : PortNo) (p : Fin 8) (s : State), natBit (s.pfcWants x) p = true →
      natBit (s.get PORT.PFC_STATUS.TX_PAUSING x) p = true →
      tabGet 0 (s.port x).lastXoff p + s.quantaTicks x (s.refreshQuanta x) ≤ s.now →
    ∃ t, exec (.pfcRefresh x p) s = .next t ∧ (t.port x).refreshDue = natSetBit (s.port x).refreshDue p true

/-- PFC_RX (R154). A received PFC frame with RX_EN set starts or releases pause timers for its enabled priorities. -/
def pfcRxDoes : Prop :=
  ∀ (x : PortNo) (en : BitVec 8) (times : List Nat) (s : State), s.portUp x = true →
    ∃ t, exec (.pfcRx x en times) s = .next t ∧
      (s.get PORT.PFC_CFG.RX_EN x = 1 →
        t.get PORT.COUNTER.COUNT (x * 20 + cntRxPfc) = (s.get PORT.COUNTER.COUNT (x * 20 + cntRxPfc) + 1) % 2 ^ 64 ∧
        ∀ p, p < 8 → natBit (t.get PORT.PFC_STATUS.RX_PAUSED x) p =
          (if natBit en.toNat p then decide ((times[p]?).getD 0 ≠ 0) else natBit (s.get PORT.PFC_STATUS.RX_PAUSED x) p)) ∧
      (s.get PORT.PFC_CFG.RX_EN x = 0 →
        t.get PORT.COUNTER.COUNT (x * 20 + cntRxIgnored) = (s.get PORT.COUNTER.COUNT (x * 20 + cntRxIgnored) + 1) % 2 ^ 64 ∧
        t.get PORT.PFC_STATUS.RX_PAUSED x = s.get PORT.PFC_STATUS.RX_PAUSED x)

/-- PAUSE_TIMER_EXPIRY (R154). A partner pause timer runs out and the priority is released. -/
def pauseTimerExpiryDoes : Prop :=
  ∀ (x : PortNo) (p : Fin 8) (a : Nat) (s : State), tabFind (s.port x).pauseUntil p = some a → a ≤ s.now →
    ∃ t, exec (.pauseTimerExpiry x p) s = .next t ∧ t.get PORT.PFC_STATUS.RX_PAUSED x = natSetBit (s.get PORT.PFC_STATUS.RX_PAUSED x) p false ∧
      (t.port x).pauseUntil = tabDel (s.port x).pauseUntil p

/-- MAC_CONTROL_IGNORED (R155). A PAUSE, disabled PFC or other MAC control frame is counted in RX_PAUSE_IGNORED and
discarded. -/
def macControlIgnoredDoes : Prop :=
  ∀ (x : PortNo) (s : State), s.portUp x = true →
    ∃ t, exec (.macControlIgnored x) s = .next t ∧
      t.get PORT.COUNTER.COUNT (x * 20 + cntRxIgnored) = (s.get PORT.COUNTER.COUNT (x * 20 + cntRxIgnored) + 1) % 2 ^ 64

/-- PFC_WATCHDOG (R156). A priority paused by the partner longer than WD_MS sets WD_PRIOS and raises PFC_WD. -/
def pfcWatchdogDoes : Prop :=
  ∀ (x : PortNo) (p : Fin 8) (a : Nat) (s : State), tabFind (s.port x).pausedSince p = some a →
      s.get PORT.PFC_CFG.WD_MS x ≠ 0 → a + s.get PORT.PFC_CFG.WD_MS x * msTicks < s.now →
    ∃ t, exec (.pfcWatchdog x p) s = .next t ∧ t.get PORT.EVENT.PFC_WD x = 1 ∧
      t.get PORT.PFC_STATUS.WD_PRIOS x = natSetBit (s.get PORT.PFC_STATUS.WD_PRIOS x) p true % 256

/-- TX_FRAME_START (R51). The egress MAC starts a frame once the FIFO holds enough of it and, for windowed frames, the
gate fits. -/
def txFrameStartDoes : Prop :=
  ∀ (x : PortNo) (n : Nat) (ph : Fin 4) (k : Nat) (r : List Nat) (f : Flight) (v : Packet) (s : State),
      (s.port x).efifo = k :: r → s.flight k = some f → s.packet f.packet = some v → s.portUp x = true → (s.port x).sending = none →
      s.portIdle x = false → s.pfcReady x = false → f.started = false → (f.inProgress = true → v.bad = none) → s.enoughHeld f n = true →
      s.cgPaused (queueCg f.queue) = false → s.macWindow x f (s.txStamp x ph * 2 ^ 37) = true →
    ∃ t g, exec (.txFrameStart x n ph) s = .next t ∧ (t.port x).sending = some k ∧ (t.port x).lastTx = s.now ∧
      t.flight k = some g ∧ g.started = true ∧ g.stamp = s.txStamp x ph ∧
      (f.md.timeKind = 0 → f.md.telAct / 2 % 4 = 0 → g.head = f.head)

/-- TX_FRAME_END (R145). The MAC ends a frame with a fresh FCS and counts it as sent. -/
def txFrameEndDoes : Prop :=
  ∀ (x : PortNo) (i : Fin 64) (k : Nat) (f : Flight) (s : State), (s.port x).sending = some k → s.flight k = some f →
      s.overMtu x f = true ∨ f.stomp = true ∨ s.flightWhole f = true →
    ∃ t, exec (.txFrameEnd x i) s = .next t ∧ t.flight k = none ∧
      (s.overMtu x f = false → f.stomp = false →
        .frame x (sentBytes f (s.flightBytes f) ++ fcsOf (sentBytes f (s.flightBytes f))) ∈ t.out ∧
        t.get PORT.COUNTER.COUNT (x * 20 + cntTxFrames) = (s.get PORT.COUNTER.COUNT (x * 20 + cntTxFrames) + 1) % 2 ^ 64 ∧
        t.get PORT.COUNTER.COUNT (x * 20 + cntTxBytes) =
          (s.get PORT.COUNTER.COUNT (x * 20 + cntTxBytes) + (sentBytes f (s.flightBytes f)).length + 4) % 2 ^ 64) ∧
      (s.overMtu x f = true ∨ f.stomp = true →
        (∃ b, .frame x (b ++ stompedFcs b) ∈ t.out ∧ b.isPrefixOf (s.flightBytes f) = true) ∧
        t.get PORT.COUNTER.COUNT (x * 20 + cntTxStomped) = (s.get PORT.COUNTER.COUNT (x * 20 + cntTxStomped) + 1) % 2 ^ 64) ∧
      (s.overMtu x f = true →
        t.get PIPE.EP_EXC.MTU_DROPS (portPipe x) = min (s.get PIPE.EP_EXC.MTU_DROPS (portPipe x) + 1) 65535)

/-- TX_UNDERRUN (R51). The egress FIFO runs empty during a started frame, which is ended with a stomped FCS. -/
def txUnderrunDoes : Prop :=
  ∀ (x : PortNo) (n k : Nat) (f : Flight) (s : State), (s.port x).sending = some k → s.flight k = some f →
      f.inProgress = true →
    ∃ t, exec (.txUnderrun x n) s = .next t ∧ t.flight k = none ∧
      .frame x ((s.flightBytes f).take n ++ stompedFcs ((s.flightBytes f).take n)) ∈ t.out ∧
      t.get PORT.COUNTER.COUNT (x * 20 + cntTxStomped) = (s.get PORT.COUNTER.COUNT (x * 20 + cntTxStomped) + 1) % 2 ^ 64 ∧
      t.get PORT.COUNTER.COUNT (x * 20 + cntTxUnderrun) = (s.get PORT.COUNTER.COUNT (x * 20 + cntTxUnderrun) + 1) % 2 ^ 64

/-- PORT_FAULT (R161). A local fault condition or a received remote-fault sequence begins on a port. -/
def portFaultDoes : Prop :=
  ∀ (l : LaneNo) (k : FaultKind) (x : Nat) (s : State), s.laneOwner l = some x → l.val ∈ s.lanesOf x →
      (k = .lossOfSignal → (s.lane l).lpiSeen = true ∨ s.get LANE.IDLE_STATUS.RX_IDLE l = 0) →
    ∃ t, exec (.portFault l k) s = .next t ∧
      (k = .lossOfSignal → (s.lane l).lpiSeen = true → t.get LANE.IDLE_STATUS.RX_IDLE l = 1 ∧ (t.lane l).burstAt = s.now ∧
        t.get LANE.RX_STATUS.SIGNAL l = s.get LANE.RX_STATUS.SIGNAL l) ∧
      (k = .lossOfSignal → (s.lane l).lpiSeen = false → t.get LANE.RX_STATUS.SIGNAL l = 0) ∧
      (k = .cdrLock → t.get LANE.RX_STATUS.CDR_LOCK l = 0) ∧ (k = .deskew → t.get PORT.STATUS.DESKEW_OK x = 0) ∧
      (k = .alignLost → t.get LANE.ALIGN_STATUS.ALIGN_LOST l = 1) ∧ (k = .remote → t.get PORT.STATUS.REMOTE_FAULT x = 1) ∧
      (k ≠ .remote → k ≠ .lossOfSignal ∨ (s.lane l).lpiSeen = false → t.get PORT.STATUS.LOCAL_FAULT x = 1) ∧
      (k ≠ .lossOfSignal ∨ (s.lane l).lpiSeen = false → (t.port x).faultSince = some ((s.port x).faultSince.getD s.now))

/-- LINK_DOWN (R162). A fault lasting DOWN_DEBOUNCE_US clears LINK_UP, aborts transmission and notifies the queue manager. -/
def linkDownDoes : Prop :=
  ∀ (x : PortNo) (a : Nat) (s : State), (s.port x).faultSince = some a → s.portUp x = true →
      a + s.get PORT.CFG.DOWN_DEBOUNCE_US x * usTicks ≤ s.now →
    ∃ t, exec (.linkDown x) s = .next t ∧ t.get PORT.STATUS.LINK_UP x = 0 ∧ t.get PORT.STATUS.LINK_DOWN_SEEN x = 1 ∧
      t.get PORT.STATUS.FLAPS x = min (s.get PORT.STATUS.FLAPS x + 1) (2 ^ PORT.STATUS.FLAPS.width - 1) ∧ t.get PORT.EVENT.LINK_DOWN x = 1 ∧
      t.get PORT.PFC_STATUS.RX_PAUSED x = 0 ∧
      (∀ k f, (s.port x).sending = some k → s.flight k = some f → f.port = x.val → (t.port x).sending = none ∧ .aborted x f.head ∈ t.out)

/-- LINK_UP (R163). After UP_DEBOUNCE_US free of faults LINK_UP sets and needed XOFFs are sent first. -/
def linkUpDoes : Prop :=
  ∀ (x : PortNo) (s : State), s.mayComeUp x = true →
    ∃ t, exec (.linkUp x) s = .next t ∧ t.get PORT.STATUS.LINK_UP x = 1 ∧ t.get PORT.STATUS.LINK_UP_SEEN x = 1 ∧
      t.get PORT.STATUS.READY x = 1 ∧ t.get PORT.PFC_STATUS.TX_PAUSING x = 0 ∧ t.get PORT.EVENT.LINK_UP x = 1

/-- PORT_ENABLE (R164). A write of PORT.CFG.ENABLE = 1 enables the port, whose READY sets at its first link-up. -/
def portEnableDoes : Prop :=
  ∀ (x : PortNo) (v : Word) (s : State), s.hostReach 0 false = true → s.portExists x = true →
    ∃ t, exec (.portEnable x v) s = .next t ∧ t.get PORT.CFG.MAX_FRAME x = bitsOf v 8 14 ∧ t.get PORT.CFG.DOWN_DEBOUNCE_US x = bitsOf v 32 16 ∧
      t.get PORT.CFG.UP_DEBOUNCE_US x = bitsOf v 48 16 ∧ t.get PORT.CFG.ENABLE x = 1 ∧
      (s.get PORT.CFG.ENABLE x = 0 → (t.port x).firstUpDone = false)

/-- PORT_DISABLE (R162). A write of ENABLE = 0 clears READY and takes the port down as at link down. -/
def portDisableDoes : Prop :=
  ∀ (x : PortNo) (v : Word) (s : State), s.hostReach 0 false = true → s.portExists x = true →
    ∃ t, exec (.portDisable x v) s = .next t ∧ t.get PORT.CFG.ENABLE x = 0 ∧ t.get PORT.STATUS.READY x = 0 ∧ t.get PORT.STATUS.LINK_UP x = 0 ∧
      t.get PORT.CFG.MAX_FRAME x = bitsOf v 8 14 ∧ t.get PORT.CFG.DOWN_DEBOUNCE_US x = bitsOf v 32 16 ∧
      t.get PORT.CFG.UP_DEBOUNCE_US x = bitsOf v 48 16

/-- SIDEBAND_FRAME (R172). A 272-clock chain frame ends; SB_LD is pulsed if the check word and parity pass, and the inputs
are used. -/
def sidebandFrameDoes : Prop :=
  ∀ (c : Fin 2) (bs : List Byte) (ck : BitVec 16) (s : State), (s.chain c).started = true →
    ∃ t, exec (.sidebandFrame c bs ck) s = .next t ∧
      (bs.length = 32 → ck = 0x5A3C → bs.all sideOk = true →
        (t.chain c).goodRun = (s.chain c).goodRun + 1 ∧ (t.chain c).badRun = 0 ∧ (t.chain c).loaded = true ∧
        .sideband c ([0x5A, 0x3C] ++ ((List.range 32).map fun i => sideByte (s.cage (32 * c.val + 31 - i)).want)) true ∈ t.out ∧
        (∀ i, i < 32 → (t.cage (32 * c.val + i)).latch = (s.cage (32 * c.val + i)).want) ∧
        ((s.chain c).loaded = true → s.get MOD.CHAIN_STATUS.CHAIN_FAULT c = 0 →
          ∀ i b, i < 32 → bs[31 - i]? = some b → (t.cage (32 * c.val + i)).present = !natBit b.toNat 3 ∧
            t.get MOD.CAGE_STATUS.PWR_GOOD (32 * c.val + i) = b2n (natBit b.toNat 1))) ∧
      (bs.length ≠ 32 ∨ ck ≠ 0x5A3C ∨ bs.all sideOk = false →
        (t.chain c).goodRun = 0 ∧ (t.chain c).badRun = (s.chain c).badRun + 1 ∧ (t.chain c).loaded = false ∧
        ((s.chain c).begun = true → t.get MOD.CHAIN_STATUS.FRAME_ERRORS c = min (s.get MOD.CHAIN_STATUS.FRAME_ERRORS c + 1) (2 ^ 32 - 1)) ∧
        (2 ≤ (s.chain c).badRun → t.get MOD.CHAIN_STATUS.CHAIN_FAULT c = 1))

/-- CAGE_PRESENCE_DEBOUNCED (R174). PRESENT_L low for 100 ms moves the cage to POWERING and sets PWR_EN. -/
def cagePresenceDebouncedDoes : Prop :=
  ∀ (k : Fin 64) (s : State), s.cageManaged k = true → s.cageState k = cageEmpty → (s.cage k).present = true →
      (s.cage k).presentSince + 100 * msTicks ≤ s.now →
    ∃ t, exec (.cagePresenceDebounced k) s = .next t ∧ t.cageState k = cagePowering ∧ t.get MOD.CAGE_STATUS.PRESENT k = 1 ∧
      t.get MOD.CAGE_STATUS.INSERTIONS k = min (s.get MOD.CAGE_STATUS.INSERTIONS k + 1) (2 ^ MOD.CAGE_STATUS.INSERTIONS.width - 1) ∧
      (t.cage k).want.pwrEn = true ∧ t.get MOD.INT_CAUSE.INSERT 0 = 1

/-- CAGE_PWR_GOOD (R174). PWR_GOOD moves the cage to RESET and holds RESET_L low. -/
def cagePwrGoodDoes : Prop :=
  ∀ (k : Fin 64) (s : State), s.cageManaged k = true → s.cageState k = cagePowering → s.get MOD.CAGE_STATUS.PWR_GOOD k = 1 →
    ∃ t, exec (.cagePwrGood k) s = .next t ∧ t.cageState k = cageReset ∧ (t.cage k).want.resetL = false ∧ (t.cage k).enteredAt = s.now

/-- CAGE_RESET_RELEASE (R174). After 10 ms the device releases RESET_L. -/
def cageResetReleaseDoes : Prop :=
  ∀ (k : Fin 64) (s : State), s.cageManaged k = true → s.cageState k = cageReset →
      (s.cage k).enteredAt + 10 * msTicks ≤ s.now →
    ∃ t, exec (.cageResetRelease k) s = .next t ∧ (t.cage k).want.resetL = true

/-- MODULE_LOW_POWER_REACHED (R174). The module reports ModuleLowPwr and the cage enters IDENTIFY. -/
def moduleLowPowerReachedDoes : Prop :=
  ∀ (k : Fin 64) (s : State), s.cageManaged k = true → s.cageState k = cageReset → s.busDoes .poll k = true →
    ∃ t, exec (.moduleLowPowerReached k) s = .next t ∧ t.cageState k = cageIdentify ∧ (t.cage k).enteredAt = s.now

/-- CAGE_IDENTIFY_DONE (R174). Identification ends and the cage enters LOW_POWER, MISMATCH or AUTH_HELD. -/
def cageIdentifyDoneDoes : Prop :=
  ∀ (k : Fin 64) (id : ModuleId) (s : State), s.cageManaged k = true → s.cageState k = cageIdentify → s.busDoes .identify k = true →
    ∃ t, exec (.cageIdentifyDone k id) s = .next t ∧ (t.cage k).ident = some id ∧ t.get MOD.IDENT.OUI k = id.oui.toNat ∧
      t.get MOD.IDENT.SERIAL_CRC k = crc32 (2 ^ 32 - 1) (padTo 16 id.serial) % 2 ^ MOD.IDENT.SERIAL_CRC.width ∧
      t.get MOD.CAGE_STATUS.AUTH k = authOf s.sec.moduleRoot (s.cage k).nonce id ∧
      t.cageState k = (if s.flag MOD.CFG.AUTH_REQUIRED 0 && authOf s.sec.moduleRoot (s.cage k).nonce id != authPassed then cageHeld
        else if s.matchesOctet k id then cageLowPower else cageMismatch)

/-- CAGE_ACTIVATE (R175). With the lowest port enabled and no hold, the device writes L425 taps and releases LPMODE. -/
def cageActivateDoes : Prop :=
  ∀ (k : Fin 64) (s : State), s.cageManaged k = true → s.cageState k = cageLowPower → s.octetEnabled k = true →
      s.get MOD.CAGE_CTRL.HOLD_LOW_POWER k = 0 →
    ∃ t, exec (.cageActivate k) s = .next t ∧ t.cageState k = cageActive ∧ (t.cage k).want.lpMode = false ∧ (t.cage k).pathDue = true

/-- CAGE_TIMEOUT (R174). A cage state that exceeds its timeout, or fails, sends the cage to FAULT. -/
def cageTimeoutDoes : Prop :=
  ∀ (k : Fin 64) (failed : Bool) (d : Nat) (s : State), s.cageManaged k = true → cagePowering ≤ s.cageState k →
      s.cageState k ≤ cageActive → (failed = true ∨ cageLimit (s.cageState k) = some d ∧ (s.cage k).enteredAt + d ≤ s.now) →
    ∃ t, exec (.cageTimeout k failed) s = .next t ∧ t.cageState k = cageFault ∧ t.get MOD.CAGE_STATUS.FAULT_CAUSE k = s.cageState k ∧
      (t.cage k).want.lpMode = true ∧ (t.cage k).want.resetL = false

/-- MODULE_REMOVE (R176). PRESENT_L rising returns the cage to EMPTY, abandons transfers and writes the life checkpoint
and MOD_REMOVE. -/
def moduleRemoveDoes : Prop :=
  ∀ (k : Fin 64) (s : State), s.cageManaged k = true → s.cageState k ≠ cageEmpty → (s.cage k).present = false →
    ∃ t, exec (.moduleRemove k) s = .next t ∧ t.cageState k = cageEmpty ∧ (t.cage k).ident = none ∧ t.get MOD.CAGE_STATUS.PRESENT k = 0 ∧
      t.get MOD.CAGE_STATUS.AUTH k = 0 ∧ t.get MOD.INT_CAUSE.REMOVE 0 = 1 ∧
      (∀ c, s.mod.cmd = some c → c.cage = k.val →
        t.mod.cmd = none ∧ t.get MOD.CMD.BUSY 0 = 0 ∧ (t.get MOD.CMD.STATUS 0 = 2 ∨ t.get MOD.CMD.STATUS 0 = 5))

/-- MODULE_INTERRUPT (R169). A module asserts INT_L and MODULE_INT is raised. -/
def moduleInterruptDoes : Prop :=
  ∀ (k : Fin 64) (s : State), (s.cage k).intDue = true →
    ∃ t, exec (.moduleInterrupt k) s = .next t ∧ (t.cage k).intDue = false ∧ t.get MOD.INT_CAUSE.MODULE_INT 0 = 1

/-- MOD_BUS_ERROR (R168). A transfer ends in a bus error or removal, is abandoned, and the bus is recovered with nine
clocks and STOP. -/
def modBusErrorDoes : Prop :=
  ∀ (b : Fin 8) (rm : Bool) (u : BusUse) (k : Nat) (s : State), (s.bus b).cur = some (u, k) → (s.bus b).running = true →
    ∃ t, exec (.modBusError b rm) s = .next t ∧
      t.get MOD.BUS_STATUS.ERRORS b = min (s.get MOD.BUS_STATUS.ERRORS b + 1) (2 ^ MOD.BUS_STATUS.ERRORS.width - 1) ∧
      (t.bus b).recover = true ∧ (t.bus b).running = false ∧
      (u = .host → s.mod.cmd ≠ none → t.get MOD.CMD.BUSY 0 = 0 ∧ t.mod.cmd = none ∧
        (t.get MOD.CMD.STATUS 0 = 5 ∨ rm = true ∧ t.get MOD.CMD.STATUS 0 = 2))

/-- LIFE_SAMPLE (R179). Every LIFE_SAMPLE_S the device adds laser wear from temperature and bias. -/
def lifeSampleDoes : Prop :=
  ∀ (k : Fin 64) (temp : Int) (bias : List Nat) (age : Option (Fin 101)) (id : ModuleId) (s : State),
      (s.cage k).ident = some id → s.lifeDue k = true → s.busDoes .life k = true →
    ∃ t, exec (.lifeSample k temp bias age) s = .next t ∧ (t.cage k).sampledAt = s.now ∧
      (∀ i w b n : Nat, (s.cage k).wear[i]? = some w → bias[i]? = some b → id.nominal = some n →
        (t.cage k).wear[i]? = some (w + wearOf (max 1 (s.get MOD.CFG.LIFE_SAMPLE_S 0)) temp b n)) ∧
      (∀ i w b : Nat, (s.cage k).wear[i]? = some w → bias[i]? = some b → id.nominal = none → (s.cage k).firstBias = [] →
        (t.cage k).firstBias = bias ∧
        (t.cage k).wear[i]? = some (w + wearOf (max 1 (s.get MOD.CFG.LIFE_SAMPLE_S 0)) temp b b)) ∧
      t.get MOD.LIFE.WORN_H k = min ((worst (t.cage k).wear).2 / 2 ^ 64) (2 ^ 32 - 1) % 2 ^ MOD.LIFE.WORN_H.width

/-- LIFE_CHECKPOINT (R182). Every 24 h a MOD_LIFE record is written for each present module. -/
def lifeCheckpointDoes : Prop :=
  ∀ (k : Fin 64) (s : State), s.lifeKept k = true → (s.cage k).lifeAt + 86400 * secTicks ≤ s.now →
    ∃ t, exec (.lifeCheckpoint k) s = .next t ∧ (t.cage k).lifeAt = s.now

/-- MOD_CMD (R184). A write of MOD.CMD.GO starts a host transfer of 1–8 bytes to a cage. -/
def modCmdDoes : Prop :=
  ∀ (v : Word) (s : State), s.hostReach 0 false = true → natBit v.toNat 37 = true → s.get MOD.CMD.BUSY 0 = 0 →
    ∃ t, exec (.modCmd v) s = .next t ∧ t.get MOD.CMD.CAGE 0 = bitsOf v MOD.CMD.CAGE.lo MOD.CMD.CAGE.width ∧
      (s.ready rdyMod = true → s.cageState (bitsOf v MOD.CMD.CAGE.lo MOD.CMD.CAGE.width) ≠ cageEmpty →
        bitsOf v MOD.CMD.WRITE.lo MOD.CMD.WRITE.width = 0 ∨ s.get MOD.CAGE_CTRL.HOST_OWNED (bitsOf v MOD.CMD.CAGE.lo MOD.CMD.CAGE.width) = 1 →
        t.get MOD.CMD.BUSY 0 = 1 ∧ ∃ c, t.mod.cmd = some c ∧ c.cage = bitsOf v MOD.CMD.CAGE.lo MOD.CMD.CAGE.width ∧
          c.write = (bitsOf v MOD.CMD.WRITE.lo MOD.CMD.WRITE.width != 0) ∧
          c.len = clampN 1 8 (bitsOf v MOD.CMD.LEN.lo MOD.CMD.LEN.width) ∧
          c.page = bitsOf v MOD.CMD.PAGE.lo MOD.CMD.PAGE.width ∧ c.offset = bitsOf v MOD.CMD.OFFSET.lo MOD.CMD.OFFSET.width) ∧
      (s.ready rdyMod = false → t.get MOD.CMD.BUSY 0 = 0 ∧ t.get MOD.CMD.STATUS 0 = 1) ∧
      (s.ready rdyMod = true → s.cageState (bitsOf v MOD.CMD.CAGE.lo MOD.CMD.CAGE.width) = cageEmpty →
        t.get MOD.CMD.BUSY 0 = 0 ∧ t.get MOD.CMD.STATUS 0 = 2) ∧
      (s.ready rdyMod = true → s.cageState (bitsOf v MOD.CMD.CAGE.lo MOD.CMD.CAGE.width) ≠ cageEmpty →
        bitsOf v MOD.CMD.WRITE.lo MOD.CMD.WRITE.width = 1 → s.get MOD.CAGE_CTRL.HOST_OWNED (bitsOf v MOD.CMD.CAGE.lo MOD.CMD.CAGE.width) = 0 →
        t.get MOD.CMD.BUSY 0 = 0 ∧ t.get MOD.CMD.STATUS 0 = 6)

/-- MOD_CMD_DONE (R184). A host module transfer ends with its STATUS. -/
def modCmdDoneDoes : Prop :=
  ∀ (o : BusEnd) (bs : List Byte) (c : ModCmd) (s : State), s.mod.cmd = some c → s.busDoes .host c.cage = true → c.len ≤ 8 →
    ∃ t, exec (.modCmdDone o bs) s = .next t ∧ t.get MOD.CMD.BUSY 0 = 0 ∧ t.mod.cmd = none ∧
      t.get MOD.CMD.STATUS 0 = (match o with | .ok => 0 | .nack => 3 | .timeout => 4) ∧
      (o = .ok → c.write = false → t.get MOD.CMD_DATA.DATA 0 =
        ofLe (padTo c.len bs ++ (leBytes (s.get MOD.CMD_DATA.DATA 0) 8).drop c.len)) ∧
      (o ≠ .ok ∨ c.write = true → t.get MOD.CMD_DATA.DATA 0 = s.get MOD.CMD_DATA.DATA 0)

/-- LOOKUP (R258). Command LOOKUP searches by key or address and returns image, position and prefix data. -/
def lookupDoes : Prop :=
  ∀ (b : Fin 32) (v : Word) (p : TablePlan) (s : State), CmdStarts b v p [kindExact, kindTernary, kindLpm4, kindLpm6] s →
    ∃ t, exec (.lookup b v) s = .next t ∧ t.get TBL.CMD_CTRL.BUSY b = 1 ∧ t.tb.tables = s.tb.tables ∧
      (∀ i, p.kind = kindExact → cmdFind b v p s = some i → t.get TBL.CMD_CTRL.STATUS b = stOk ∧
        t.get TBL.CMD_RESULT.INDEX b = i.index % 2 ^ TBL.CMD_RESULT.INDEX.width ∧ t.get TBL.CMD_RESULT.STASH b = b2n i.stash ∧
        t.cmdImage b = p.readImage (s.table (bitsOf v 8 8)).clock ((cmdTwin v s s).at_ i) % 2 ^ 512) ∧
      (∀ i e, p.kind = kindTernary → ternFind (cmdTwin v s s).slots 0 (s.cmdImage b) = some (i, e) →
        t.get TBL.CMD_CTRL.STATUS b = stOk ∧ t.get TBL.CMD_RESULT.INDEX b = i % 2 ^ TBL.CMD_RESULT.INDEX.width) ∧
      (∀ r, p.isLpm = true → p.lpmFind (cmdTwin v s s) 0 (if p.kind = kindLpm4 then s.cmdImage b % 2 ^ 32 else s.cmdImage b % 2 ^ 128) = some r →
        t.get TBL.CMD_CTRL.STATUS b = stOk ∧ t.get TBL.CMD_RESULT.PLEN b = r.2 % 2 ^ TBL.CMD_RESULT.PLEN.width ∧
        t.get TBL.CMD_ENTRY.DATA (8 * b.val + 2) % 2 ^ 32 = r.1 % 2 ^ 32) ∧
      (p.kind = kindExact → cmdFind b v p s = none → t.get TBL.CMD_CTRL.STATUS b = stNotFound) ∧
      (p.kind = kindTernary → ternFind (cmdTwin v s s).slots 0 (s.cmdImage b) = none → t.get TBL.CMD_CTRL.STATUS b = stNotFound) ∧
      (p.isLpm = true → p.lpmFind (cmdTwin v s s) 0 (if p.kind = kindLpm4 then s.cmdImage b % 2 ^ 32 else s.cmdImage b % 2 ^ 128) = none →
        t.get TBL.CMD_CTRL.STATUS b = stNotFound)

/-- READ (R258). Command READ returns the entry image at INDEX or a stash index. -/
def readDoes : Prop :=
  ∀ (b : Fin 32) (v : Word) (p : TablePlan) (s : State), CmdStarts b v p [kindExact, kindTernary, kindIndex] s →
    ∃ t, exec (.read b v) s = .next t ∧ t.get TBL.CMD_CTRL.BUSY b = 1 ∧ t.tb.tables = s.tb.tables ∧
      (∀ w, w = ⟨s.flag TBL.CMD_LOC.STASH b, s.cmdIndex b⟩ →
        (if w.stash then p.kind = kindExact ∧ w.index < 1024 else w.index < p.positions) →
        p.kind ≠ kindExact ∨ ((cmdTwin v s s).at_ w).isEmpty = false →
        t.get TBL.CMD_CTRL.STATUS b = stOk ∧ t.get TBL.CMD_RESULT.INDEX b = w.index % 2 ^ TBL.CMD_RESULT.INDEX.width ∧
        t.cmdImage b = p.readImage (s.table (bitsOf v 8 8)).clock ((cmdTwin v s s).at_ w) % 2 ^ 512) ∧
      (∀ w, w = ⟨s.flag TBL.CMD_LOC.STASH b, s.cmdIndex b⟩ → p.kind = kindExact →
        w.index < (if w.stash then 1024 else p.positions) → ((cmdTwin v s s).at_ w).isEmpty = true →
        t.get TBL.CMD_CTRL.STATUS b = stNotFound ∧ t.cmdImage b = 0) ∧
      (s.get TBL.CMD_LOC.STASH b = 0 → p.positions ≤ s.cmdIndex b → t.get TBL.CMD_CTRL.STATUS b = stRange) ∧
      (s.get TBL.CMD_LOC.STASH b = 1 → p.kind ≠ kindExact ∨ 1024 ≤ s.cmdIndex b → t.get TBL.CMD_CTRL.STATUS b = stRange)

/-- INSERT (R237). Command INSERT places a new exact-match entry, relocating entries or using the stash. -/
def insertDoes : Prop :=
  ∀ (b : Fin 32) (v : Word) (p : TablePlan) (s : State), CmdStarts b v p [kindExact] s →
    ∃ t, exec (.insert b v) s = .next t ∧ t.get TBL.CMD_CTRL.BUSY b = 1 ∧
      (∀ i, cmdFind b v p s = none → (cmdPlace b v p s).place = some i →
        t.get TBL.CMD_CTRL.STATUS b = stOk ∧ t.get TBL.CMD_RESULT.INDEX b = i.index % 2 ^ TBL.CMD_RESULT.INDEX.width ∧
        t.get TBL.CMD_RESULT.STASH b = b2n i.stash ∧
        ((cmdPlace b v p s).steps.length = 1 → (cmdTwin v s t).at_ i = cmdNew b v p false s) ∧
        ((cmdPlace b v p s).steps.length ≠ 1 → ∃ o ∈ t.tb.ops, o.block = b.val ∧ o.steps = (cmdPlace b v p s).steps)) ∧
      (cmdFind b v p s = none → (cmdPlace b v p s).place = none → t.get TBL.CMD_CTRL.STATUS b = stFull ∧
        t.get TBL.STATUS.FULL_SEEN (bitsOf v 8 8) = 1) ∧
      (∀ i, cmdFind b v p s = some i → t.get TBL.CMD_CTRL.STATUS b = stExists ∧ t.tb.tables = s.tb.tables ∧
        t.get TBL.CMD_RESULT.INDEX b = i.index % 2 ^ TBL.CMD_RESULT.INDEX.width)

/-- UPDATE (R258). Command UPDATE replaces the data of a present key in place. -/
def updateDoes : Prop :=
  ∀ (b : Fin 32) (v : Word) (p : TablePlan) (s : State), CmdStarts b v p [kindExact] s →
    ∃ t, exec (.update b v) s = .next t ∧ t.get TBL.CMD_CTRL.BUSY b = 1 ∧
      (∀ i c, cmdFind b v p s = some i → entryOn ((cmdTwin v s s).at_ i) 0 = some c →
        t.get TBL.CMD_CTRL.STATUS b = stOk ∧ t.get TBL.CMD_RESULT.INDEX b = i.index % 2 ^ TBL.CMD_RESULT.INDEX.width ∧
        (cmdTwin v s t).at_ i = cmdNew b v p c.pinned s) ∧
      (cmdFind b v p s = none → t.get TBL.CMD_CTRL.STATUS b = stNotFound ∧ t.tb.tables = s.tb.tables)

/-- UPSERT (R258). Command UPSERT updates a present key or inserts it. -/
def upsertDoes : Prop :=
  ∀ (b : Fin 32) (v : Word) (p : TablePlan) (s : State), CmdStarts b v p [kindExact] s →
    ∃ t, exec (.upsert b v) s = .next t ∧ t.get TBL.CMD_CTRL.BUSY b = 1 ∧
      (∀ i c, cmdFind b v p s = some i → entryOn ((cmdTwin v s s).at_ i) 0 = some c →
        t.get TBL.CMD_CTRL.STATUS b = stOk ∧ t.get TBL.CMD_RESULT.INDEX b = i.index % 2 ^ TBL.CMD_RESULT.INDEX.width ∧
        (cmdTwin v s t).at_ i = cmdNew b v p c.pinned s) ∧
      (∀ i, cmdFind b v p s = none → (cmdPlace b v p s).place = some i →
        t.get TBL.CMD_CTRL.STATUS b = stOk ∧ t.get TBL.CMD_RESULT.INDEX b = i.index % 2 ^ TBL.CMD_RESULT.INDEX.width ∧
        t.get TBL.CMD_RESULT.STASH b = b2n i.stash ∧
        ((cmdPlace b v p s).steps.length = 1 → (cmdTwin v s t).at_ i = cmdNew b v p false s) ∧
        ((cmdPlace b v p s).steps.length ≠ 1 → ∃ o ∈ t.tb.ops, o.block = b.val ∧ o.steps = (cmdPlace b v p s).steps)) ∧
      (cmdFind b v p s = none → (cmdPlace b v p s).place = none → t.get TBL.CMD_CTRL.STATUS b = stFull ∧
        t.get TBL.STATUS.FULL_SEEN (bitsOf v 8 8) = 1)

/-- DELETE (R258). Command DELETE clears the key's entry and refills from the stash. -/
def deleteDoes : Prop :=
  ∀ (b : Fin 32) (v : Word) (p : TablePlan) (s : State), CmdStarts b v p [kindExact] s →
    ∃ t, exec (.delete b v) s = .next t ∧ t.get TBL.CMD_CTRL.BUSY b = 1 ∧
      (∀ i, cmdFind b v p s = some i → t.get TBL.CMD_CTRL.STATUS b = stOk ∧ (cmdTwin v s t).at_ i = [] ∧
        t.get TBL.CMD_RESULT.INDEX b = i.index % 2 ^ TBL.CMD_RESULT.INDEX.width ∧
        ∀ q ∈ t.tb.pins, q.table = bitsOf v 8 8 → q.twin = s.twinOf (bitsOf v 8 8) (bitsOf v 19 1) → q.key ≠ p.keyOf (s.cmdImage b)) ∧
      (cmdFind b v p s = none → t.get TBL.CMD_CTRL.STATUS b = stNotFound ∧ t.tb.tables = s.tb.tables)

/-- WRITE_AT (R255). Command WRITE_AT writes a whole entry at INDEX. -/
def writeAtDoes : Prop :=
  ∀ (b : Fin 32) (v : Word) (p : TablePlan) (s : State), CmdStarts b v p [kindTernary, kindIndex] s →
    ∃ t, exec (.writeAt b v) s = .next t ∧ t.get TBL.CMD_CTRL.BUSY b = 1 ∧
      (s.cmdIndex b < p.positions → t.get TBL.CMD_CTRL.STATUS b = stOk ∧
        (cmdTwin v s t).at_ ⟨false, s.cmdIndex b⟩ =
          (if p.writeImage (s.cmdImage b) = 0 then [] else sameEntry { value := p.writeImage (s.cmdImage b) })) ∧
      (p.positions ≤ s.cmdIndex b → t.get TBL.CMD_CTRL.STATUS b = stRange ∧ t.tb.tables = s.tb.tables)

/-- CLEAR_AT (R255). Command CLEAR_AT clears the entry at INDEX. -/
def clearAtDoes : Prop :=
  ∀ (b : Fin 32) (v : Word) (p : TablePlan) (s : State), CmdStarts b v p [kindTernary, kindIndex] s →
    ∃ t, exec (.clearAt b v) s = .next t ∧ t.get TBL.CMD_CTRL.BUSY b = 1 ∧
      (s.cmdIndex b < p.positions → t.get TBL.CMD_CTRL.STATUS b = stOk ∧ (cmdTwin v s t).at_ ⟨false, s.cmdIndex b⟩ = []) ∧
      (p.positions ≤ s.cmdIndex b → t.get TBL.CMD_CTRL.STATUS b = stRange ∧ t.tb.tables = s.tb.tables)

/-- MOVE (R254). Command MOVE copies a ternary entry to TARGET and then clears its source. -/
def moveDoes : Prop :=
  ∀ (b : Fin 32) (v : Word) (p : TablePlan) (s : State), CmdStarts b v p [kindTernary] s →
    ∃ t, exec (.move b v) s = .next t ∧ t.get TBL.CMD_CTRL.BUSY b = 1 ∧
      (s.cmdIndex b < p.positions → s.get TBL.CMD_LOC.TARGET b < p.positions →
        (cmdTwin v s s).ternValid (s.get TBL.CMD_LOC.TARGET b) = false → (cmdTwin v s s).ternValid (s.cmdIndex b) = true →
        t.get TBL.CMD_CTRL.STATUS b = stOk ∧ t.get TBL.CMD_CTRL.MOVES b = 1 ∧
        t.get TBL.CMD_RESULT.INDEX b = s.get TBL.CMD_LOC.TARGET b % 2 ^ TBL.CMD_RESULT.INDEX.width ∧
        (cmdTwin v s t).at_ ⟨false, s.get TBL.CMD_LOC.TARGET b⟩ = (cmdTwin v s s).at_ ⟨false, s.cmdIndex b⟩ ∧
        ∃ o ∈ t.tb.ops, o.block = b.val ∧ o.steps = [.clear ⟨false, s.cmdIndex b⟩]) ∧
      (p.positions ≤ s.cmdIndex b ∨ p.positions ≤ s.get TBL.CMD_LOC.TARGET b → t.get TBL.CMD_CTRL.STATUS b = stRange ∧ t.tb.tables = s.tb.tables) ∧
      (s.cmdIndex b < p.positions → s.get TBL.CMD_LOC.TARGET b < p.positions →
        (cmdTwin v s s).ternValid (s.get TBL.CMD_LOC.TARGET b) = true → t.get TBL.CMD_CTRL.STATUS b = stExists ∧ t.tb.tables = s.tb.tables) ∧
      (s.cmdIndex b < p.positions → s.get TBL.CMD_LOC.TARGET b < p.positions →
        (cmdTwin v s s).ternValid (s.get TBL.CMD_LOC.TARGET b) = false → (cmdTwin v s s).ternValid (s.cmdIndex b) = false →
        t.get TBL.CMD_CTRL.STATUS b = stNotFound ∧ t.tb.tables = s.tb.tables)

/-- LPM_ADD (R250). Command LPM_ADD allocates nodes, writes the prefix's result leaf-pushed, and links new nodes
bottom-up. -/
def lpmAddDoes : Prop :=
  ∀ (b : Fin 32) (v : Word) (p : TablePlan) (s : State), CmdStarts b v p [kindLpm4, kindLpm6] s →
    ∃ t, exec (.lpmAdd b v) s = .next t ∧ t.get TBL.CMD_CTRL.BUSY b = 1 ∧
      (∀ r, s.cmdPlen b ≤ p.maxLen → s.cmdPlen b ≤ 64 → r = p.trieAdd (p.trieAddr (cmdPrefix b p s).1) (s.cmdPlen b)
          (resultSlot (s.cmdPlen b) (s.cmdWord b 2 % 2 ^ 32)) p.strides 0 0 0 (s.table (bitsOf v 8 8)) →
        if r.nodeFull then t.get TBL.CMD_CTRL.STATUS b = stNodeFull ∧ t.get TBL.STATUS.NODE_FULL_SEEN (bitsOf v 8 8) = 1 ∧ t.tb.tables = s.tb.tables
        else t.get TBL.CMD_CTRL.STATUS b = stOk ∧ t.get TBL.CMD_RESULT.PLEN b = s.cmdPlen b ∧
          (t.table (bitsOf v 8 8)).twin0 = r.st.twin0 ∧ cmdPrefix b p s ∈ (t.table (bitsOf v 8 8)).prefixes) ∧
      (∀ x, s.cmdPlen b ≤ p.maxLen → 64 < s.cmdPlen b →
          regionFind (s.table (bitsOf v 8 8)).twin0.tern (cmdPrefix b p s).1 (s.cmdPlen b) = none →
          regionAdd p.ternPositions (s.table (bitsOf v 8 8)).twin0.tern (cmdPrefix b p s).1 (s.cmdPlen b) (s.cmdWord b 2 % 2 ^ 32) = some x →
        t.get TBL.CMD_CTRL.STATUS b = stOk ∧ t.get TBL.CMD_RESULT.PLEN b = s.cmdPlen b ∧
          (t.table (bitsOf v 8 8)).twin0.tern = x.1 ∧ t.get TBL.CMD_CTRL.MOVES b = min x.2.2 64 ∧
          cmdPrefix b p s ∈ (t.table (bitsOf v 8 8)).prefixes) ∧
      (s.cmdPlen b ≤ p.maxLen → 64 < s.cmdPlen b →
          regionFind (s.table (bitsOf v 8 8)).twin0.tern (cmdPrefix b p s).1 (s.cmdPlen b) = none →
          regionAdd p.ternPositions (s.table (bitsOf v 8 8)).twin0.tern (cmdPrefix b p s).1 (s.cmdPlen b) (s.cmdWord b 2 % 2 ^ 32) = none →
        t.get TBL.CMD_CTRL.STATUS b = stFull ∧ t.tb.tables = s.tb.tables) ∧
      (∀ i, s.cmdPlen b ≤ p.maxLen → 64 < s.cmdPlen b →
          regionFind (s.table (bitsOf v 8 8)).twin0.tern (cmdPrefix b p s).1 (s.cmdPlen b) = some i →
        t.get TBL.CMD_CTRL.STATUS b = stOk ∧ tabFind (t.table (bitsOf v 8 8)).twin0.tern i =
          some (sameEntry { value := ternPrefix (cmdPrefix b p s).1 (s.cmdPlen b) (s.cmdWord b 2 % 2 ^ 32) })) ∧
      (p.maxLen < s.cmdPlen b → t.get TBL.CMD_CTRL.STATUS b = stRange ∧ t.tb.tables = s.tb.tables)

/-- LPM_DELETE (R251). Command LPM_DELETE rewrites covered slots with the cover and collapses uniform nodes. -/
def lpmDeleteDoes : Prop :=
  ∀ (b : Fin 32) (v : Word) (p : TablePlan) (s : State), CmdStarts b v p [kindLpm4, kindLpm6] s →
    ∃ t, exec (.lpmDelete b v) s = .next t ∧ t.get TBL.CMD_CTRL.BUSY b = 1 ∧
      (s.cmdPlen b ≤ p.maxLen → cmdPrefix b p s ∈ (s.table (bitsOf v 8 8)).prefixes →
        t.get TBL.CMD_CTRL.STATUS b = stOk ∧ t.get TBL.CMD_RESULT.PLEN b = s.cmdPlen b ∧
        (64 < s.cmdPlen b → (t.table (bitsOf v 8 8)).prefixes = (s.table (bitsOf v 8 8)).prefixes.erase (cmdPrefix b p s) ∧
          ∀ i, regionFind (s.table (bitsOf v 8 8)).twin0.tern (cmdPrefix b p s).1 (s.cmdPlen b) = some i →
            tabFind (t.table (bitsOf v 8 8)).twin0.tern i = none) ∧
        (s.cmdPlen b ≤ 64 → t.table (bitsOf v 8 8) = (p.collapse { s.table (bitsOf v 8 8) with
          twin0 := (p.trieReplace (p.trieAddr (cmdPrefix b p s).1) (s.cmdPlen b)
            (if natBit (s.cmdWord b 3) 39 then resultSlot (s.cmdWord b 3 / 2 ^ 32 % 128) (s.cmdWord b 3 % 2 ^ 32) else 0)
            p.strides 0 0 0 (s.table (bitsOf v 8 8)).twin0).1
          prefixes := (s.table (bitsOf v 8 8)).prefixes.erase (cmdPrefix b p s) }).1)) ∧
      (s.cmdPlen b ≤ p.maxLen → cmdPrefix b p s ∉ (s.table (bitsOf v 8 8)).prefixes →
        t.get TBL.CMD_CTRL.STATUS b = stNotFound ∧ t.tb.tables = s.tb.tables) ∧
      (p.maxLen < s.cmdPlen b → t.get TBL.CMD_CTRL.STATUS b = stRange ∧ t.tb.tables = s.tb.tables)

/-- UNPIN (R258). Command UNPIN clears PINNED of a key's entry. -/
def unpinDoes : Prop :=
  ∀ (b : Fin 32) (v : Word) (p : TablePlan) (s : State), CmdStarts b v p [kindExact] s →
    ∃ t, exec (.unpin b v) s = .next t ∧ t.get TBL.CMD_CTRL.BUSY b = 1 ∧
      (∀ i, cmdFind b v p s = some i → t.get TBL.CMD_CTRL.STATUS b = stOk ∧
        (cmdTwin v s t).at_ i = (((cmdTwin v s s).at_ i).map fun c =>
          (c.1, { c.2 with pinned := false, age := (s.table (bitsOf v 8 8)).clock, old := false })) ∧
        ∀ q ∈ t.tb.pins, q.table = bitsOf v 8 8 → q.twin = s.twinOf (bitsOf v 8 8) (bitsOf v 19 1) → q.key ≠ p.keyOf (s.cmdImage b)) ∧
      (cmdFind b v p s = none → t.get TBL.CMD_CTRL.STATUS b = stNotFound ∧ t.tb.tables = s.tb.tables)

/-- CLEAR_TABLE (R258). Command CLEAR_TABLE invalidates every entry of the named twin. -/
def clearTableDoes : Prop :=
  ∀ (b : Fin 32) (v : Word) (p : TablePlan) (s : State), CmdStarts b v p [kindExact, kindLpm4, kindLpm6, kindTernary, kindIndex] s →
    ∃ t, exec (.clearTable b v) s = .next t ∧ t.get TBL.CMD_CTRL.BUSY b = 1 ∧
      (bitsOf v 19 1 = 0 ∨ s.draining p.troupe = false → t.get TBL.CMD_CTRL.STATUS b = stOk ∧
        (if p.isLpm then (t.table (bitsOf v 8 8)).twin0 = {} ∧ (t.table (bitsOf v 8 8)).nodes = [] ∧ (t.table (bitsOf v 8 8)).prefixes = []
          else cmdTwin v s t = {}) ∧
        ∀ q ∈ t.tb.pins, q.table = bitsOf v 8 8 → q.twin ≠ s.twinOf (bitsOf v 8 8) (bitsOf v 19 1)) ∧
      (bitsOf v 19 1 = 1 → s.draining p.troupe = true → t.get TBL.CMD_CTRL.STATUS b = stNotReady ∧ t.tb.tables = s.tb.tables)

/-- TABLE_OP_DONE (R260). A table operation ends when all four copies have changed; BUSY clears and CMD_DONE may set. -/
def tableOpDoneDoes : Prop :=
  ∀ (b : Fin 32) (s : State), s.get TBL.CMD_CTRL.BUSY b = 1 → b.val ∉ s.tb.waiting →
    ∃ t, exec (.tableOpDone b) s = .next t ∧ t.get TBL.CMD_CTRL.BUSY b = 0 ∧ (∀ o ∈ t.tb.ops, o.block ≠ b.val) ∧
      (s.get TBL.CMD_CTRL.INT b = 1 → t.get TBL.INT_CAUSE.CMD_DONE 0 = 1 ∧
        t.get TBL.CMD_DONE.BLOCKS 0 = natSetBit (s.get TBL.CMD_DONE.BLOCKS 0) b true % 2 ^ TBL.CMD_DONE.BLOCKS.width)

/-- CMD_WRITE_WHILE_BUSY (R260). A write to a busy command block is ignored and sets WRITE_WHILE_BUSY. -/
def cmdWriteWhileBusyDoes : Prop :=
  ∀ (b : Fin 32) (s : State), s.hostReach 0 false = true → s.get TBL.CMD_CTRL.BUSY b = 1 →
    ∃ t, exec (.cmdWriteWhileBusy b) s = .next t ∧ t.get TBL.CMD_CTRL.WRITE_WHILE_BUSY b = 1 ∧ t.get TBL.CMD_CTRL.BUSY b = 1

/-- TABLE_SEED_WRITE (R243). A write of TBL.TABLE_SEED takes effect only for an empty standby twin. -/
def tableSeedWriteDoes : Prop :=
  ∀ (n : Fin 256) (w : Fin 2) (v : Word) (p : TablePlan) (s : State), s.hostReach 0 false = true →
      s.tablePlan n = some p → p.kind = kindExact → p.twin = true →
    ∃ t, exec (.tableSeedWrite n w v) s = .next t ∧
      (s.get TBL.TABLE_CTRL.ACTIVE_TWIN n ≠ w.val → ((s.table n).twin w).slots = [] → ((s.table n).twin w).stash = [] →
        t.seedsOf n w = (bitsOf v 0 32, bitsOf v 32 32)) ∧
      (s.get TBL.TABLE_CTRL.ACTIVE_TWIN n = w.val ∨ ((s.table n).twin w).slots ≠ [] ∨ ((s.table n).twin w).stash ≠ [] →
        t.seedsOf n w = s.seedsOf n w)

/-- LEARN_EVENT_ARRIVAL (R265). A learn event reaches the sequencer queue, or is discarded when the queue is full. -/
def learnEventArrivalDoes : Prop :=
  ∀ (a e : LearnEvent) (r : List LearnEvent) (s : State), s.tb.inFlight = a :: r → e = r.foldl learnFirst a →
    ∃ t, exec .learnEventArrival s = .next t ∧ t.tb.inFlight = s.tb.inFlight.erase e ∧
      (s.tb.queue.length < 65536 → t.tb.queue = s.tb.queue ++ [e] ∧
        t.get TBL.LEARN_STATUS.QUEUE_FILL 0 = (s.tb.queue.length + 1) % 2 ^ TBL.LEARN_STATUS.QUEUE_FILL.width) ∧
      (65536 ≤ s.tb.queue.length → t.tb.queue = s.tb.queue ∧ t.get TBL.LEARN_STATUS.QUEUE_FULL_SEEN 0 = 1 ∧
        t.get TBL.INT_CAUSE.LEARN_DROP 0 = 1 ∧
        t.get TBL.LEARN_DROPS.QUEUE_FULL 0 = min (s.get TBL.LEARN_DROPS.QUEUE_FULL 0 + 1) 65535)

/-- LEARN_EVENT_PROCESS (R266). The sequencer applies the first matching outcome for the event: insert, refuse, count or
station move. -/
def learnEventProcessDoes : Prop :=
  ∀ (e : LearnEvent) (r : List LearnEvent) (s : State), s.tb.queue = e :: r → s.tableBusy e.table = false →
    ∃ t, exec .learnEventProcess s = .next t ∧ t.tb.queue = r ∧
      t.get TBL.LEARN_COUNT.EVENTS 0 = min (s.get TBL.LEARN_COUNT.EVENTS 0 + 1) (2 ^ 32 - 1) ∧
      (s.tablePlan e.table = none ∨ s.get TBL.TABLE_CTRL.LEARN_EN e.table = 0 ∨
          (∃ p, s.tablePlan e.table = some p ∧ (p.troupe ≠ e.troupe ∨ p.kind ≠ kindExact)) →
        t.get TBL.LEARN_DROPS.REFUSED 0 = min (s.get TBL.LEARN_DROPS.REFUSED 0 + 1) 65535 ∧ t.tb.tables = s.tb.tables) ∧
      (∀ p x, s.tablePlan e.table = some p → p.troupe = e.troupe → p.kind = kindExact → s.get TBL.TABLE_CTRL.LEARN_EN e.table = 1 →
        s.get TBL.TABLE_CTRL.DUAL_WRITE e.table = 0 →
        p.find ((s.table e.table).twin (s.twinOf e.table 0)) (s.seedsOf e.table (s.twinOf e.table 0)) 0 (p.keyOf e.image) = none →
        x = p.insert ((s.table e.table).twin (s.twinOf e.table 0)) (s.seedsOf e.table (s.twinOf e.table 0)) (p.keyOf e.image)
          (sameEntry { value := p.bodyOf e.image, age := (s.table e.table).clock, learned := true }) →
        (∀ i, x.place = some i → ((t.table e.table).twin (s.twinOf e.table 0)).at_ i =
          sameEntry { value := p.bodyOf e.image, age := (s.table e.table).clock, learned := true }) ∧
        (x.place = none → t.get TBL.LEARN_DROPS.TABLE_FULL 0 = min (s.get TBL.LEARN_DROPS.TABLE_FULL 0 + 1) 65535 ∧
          t.get TBL.INT_CAUSE.LEARN_DROP 0 = 1)) ∧
      (∀ p i c, s.tablePlan e.table = some p → p.troupe = e.troupe → p.kind = kindExact → s.get TBL.TABLE_CTRL.LEARN_EN e.table = 1 →
        p.find ((s.table e.table).twin (s.twinOf e.table 0)) (s.seedsOf e.table (s.twinOf e.table 0)) 0 (p.keyOf e.image) = some i →
        entryOn (((s.table e.table).twin (s.twinOf e.table 0)).at_ i) 0 = some c →
        (c.static = true ∨ c.static = false ∧ c.pinned = false ∧ c.value ≠ p.bodyOf e.image ∧ s.get TBL.TABLE_CTRL.MOVE_EN e.table = 0 →
          t.get TBL.LEARN_DROPS.REFUSED 0 = min (s.get TBL.LEARN_DROPS.REFUSED 0 + 1) 65535 ∧ t.tb.tables = s.tb.tables) ∧
        (c.static = false → c.pinned = true →
          t.get TBL.LEARN_DROPS.PINNED 0 = min (s.get TBL.LEARN_DROPS.PINNED 0 + 1) 65535 ∧ t.tb.tables = s.tb.tables) ∧
        (c.static = false → c.pinned = false → c.value = p.bodyOf e.image → t.tb.tables = s.tb.tables) ∧
        (c.static = false → c.pinned = false → c.value ≠ p.bodyOf e.image → s.get TBL.TABLE_CTRL.MOVE_EN e.table = 1 →
          s.get TBL.LEARN_CFG.FLAP_EN 0 = 0 →
          t.get TBL.LEARN_COUNT.MOVES 0 = min (s.get TBL.LEARN_COUNT.MOVES 0 + 1) (2 ^ 32 - 1)) ∧
        (∀ f, c.static = false → c.pinned = false → c.value ≠ p.bodyOf e.image → s.get TBL.TABLE_CTRL.MOVE_EN e.table = 1 →
          s.get TBL.LEARN_CFG.FLAP_EN 0 = 1 → s.flapOf e.table (p.keyOf e.image) = some f → s.flapMoves ≤ f.moves →
          t.get TBL.LEARN_STATUS.FLAP 0 = 1 ∧ t.get TBL.INT_CAUSE.FLAP 0 = 1 ∧
            { table := e.table, twin := s.twinOf e.table 0, key := p.keyOf e.image, at_ := s.now } ∈ t.tb.pins))

/-- FLAP_WINDOW_CLOSE (R267). A flap window that ends without pinning frees its tracker entry. -/
def flapWindowCloseDoes : Prop :=
  ∀ (n : Fin 256) (key : Nat) (s : State),
    ∃ t, exec (.flapWindowClose n key) s = .next t ∧
      ∀ f, f ∈ t.tb.flaps ↔ f ∈ s.tb.flaps ∧ ¬(f.table = n.val ∧ f.key = key ∧ f.openedAt + s.flapWindow ≤ s.now)

/-- PIN_HOLD_EXPIRY (R268). PIN_HOLD_S after pinning the entry is unpinned and an UNPINNED report written. -/
def pinHoldExpiryDoes : Prop :=
  ∀ (n : Fin 256) (key : Nat) (q : Pin) (p : TablePlan) (s : State), s.tablePlan n = some p →
      q ∈ s.tb.pins → q.table = n.val → q.key = key → s.get TBL.LEARN_CFG.PIN_HOLD_S 0 ≠ 0 →
      q.at_ + s.get TBL.LEARN_CFG.PIN_HOLD_S 0 * secTicks ≤ s.now → s.tableBusy n = false →
    ∃ t, exec (.pinHoldExpiry n key) s = .next t ∧
      (∀ r ∈ t.tb.pins, ¬(r.table = n.val ∧ r.key = key ∧ r.twin = q.twin)) ∧
      (∀ i, p.find ((s.table n).twin q.twin) (s.seedsOf n q.twin) 0 key = some i →
        ∀ c ∈ ((t.table n).twin q.twin).at_ i, c.2.pinned = false)

/-- AGE_CLOCK_TICK (R269). Every TICK_MS a table's age clock advances and is broadcast to the rim dies. -/
def ageClockTickDoes : Prop :=
  ∀ (n : Fin 256) (p : TablePlan) (s : State), s.tablePlan n = some p → p.kind = kindExact →
      (s.table n).tickAt + max 1 (s.get TBL.AGE_CFG.TICK_MS n) * msTicks ≤ s.now →
    ∃ t, exec (.ageClockTick n) s = .next t ∧ t.table n = { s.table n with clock := ((s.table n).clock + 1) % 65536, tickAt := s.now }

/-- AGING_SWEEP_VISIT (R271). The sweep visits a position, sets OLD on copies of age 32,768 or more, and acts on idle
entries. -/
def agingSweepVisitDoes : Prop :=
  ∀ (n : Nat) (p : TablePlan) (s : State), s.exactTables.find? (fun e => e.1 == s.tb.sweepTable) = some (n, p) →
      s.tableBusy n = false →
    ∃ t, exec .agingSweepVisit s = .next t ∧
      (s.tb.sweepPos + 1 < p.positions + 1024 →
        t.tb.sweepPos = s.tb.sweepPos + 1 ∧ t.tb.sweepTable = s.tb.sweepTable ∧ t.tb.sweepTwin = s.tb.sweepTwin) ∧
      (p.positions + 1024 ≤ s.tb.sweepPos + 1 → p.twin = true → s.tb.sweepTwin = 0 →
        t.tb.sweepPos = 0 ∧ t.tb.sweepTable = s.tb.sweepTable ∧ t.tb.sweepTwin = 1) ∧
      (∀ m, p.positions + 1024 ≤ s.tb.sweepPos + 1 → p.twin = false ∨ s.tb.sweepTwin ≠ 0 → s.exactFrom (s.tb.sweepTable + 1) = some m →
        t.tb.sweepPos = 0 ∧ t.tb.sweepTable = m ∧ t.tb.sweepTwin = 0) ∧
      (p.positions + 1024 ≤ s.tb.sweepPos + 1 → p.twin = false ∨ s.tb.sweepTwin ≠ 0 → s.exactFrom (s.tb.sweepTable + 1) = none →
        t.tb.sweepPos = 0 ∧ t.tb.sweepAt = s.now ∧
        t.get TBL.SWEEP_STATUS.PASSES 0 = min (s.get TBL.SWEEP_STATUS.PASSES 0 + 1) (2 ^ 32 - 1)) ∧
      (∀ i, s.get TBL.AGE_CFG.ACTION n = 0 →
        i = (if s.tb.sweepPos < p.positions then ⟨false, s.tb.sweepPos⟩ else ⟨true, s.tb.sweepPos - p.positions⟩ : Where) →
        ((t.table n).twin s.tb.sweepTwin).at_ i = (((s.table n).twin s.tb.sweepTwin).at_ i).map fun c =>
          if 32768 ≤ copyAge (s.table n).clock c.2 then (c.1, { c.2 with old := true }) else c)

/-- PROMENADE_GO (R277). A write of PROM_CTRL.GO starts a Promenade pass, or is refused. -/
def promenadeGoDoes : Prop :=
  ∀ (v : Word) (s : State), s.hostReach 0 false = true →
    ∃ t, exec (.promenadeGo v) s = .next t ∧
      (s.promRuns = false → s.wardenUp = true → s.tableReady (bitsOf v TBL.PROM_CTRL.TABLE.lo TBL.PROM_CTRL.TABLE.width) = true →
        t.get TBL.PROM_STATUS.STATE 0 = promForward ∧ t.get TBL.PROM_STATUS.RECORDS_DONE 0 = 0 ∧ t.promState = promForward ∧
        t.tb.prom.count = 0 ∧ t.tb.prom.sum = 0 ∧ t.promTable = bitsOf v TBL.PROM_CTRL.TABLE.lo TBL.PROM_CTRL.TABLE.width) ∧
      (s.promRuns = true ∨ s.wardenUp = false ∨ s.tableReady (bitsOf v TBL.PROM_CTRL.TABLE.lo TBL.PROM_CTRL.TABLE.width) = false →
        t.get TBL.PROM_STATUS.STATE 0 = promRefused ∧ t.promState = s.promState)

/-- PROMENADE_ABORT (R277). A write of PROM_CTRL.ABORT ends the running pass. -/
def promenadeAbortDoes : Prop :=
  ∀ (v : Word) (s : State), s.hostReach 0 false = true →
    ∃ t, exec (.promenadeAbort v) s = .next t ∧
      (s.promRuns = true → t.get TBL.PROM_STATUS.STATE 0 = promAborted ∧ t.promState = 0 ∧ t.get TBL.INT_CAUSE.PROM_DONE 0 = 1 ∧
        ∀ i, s.tb.prom.skewAt = some i → t.get TBL.STATUS.SKEW_SEEN s.promTable = 1 ∧ t.get TBL.INT_CAUSE.SKEW 0 = 1) ∧
      (s.promRuns = false → t.promTable = bitsOf v TBL.PROM_CTRL.TABLE.lo TBL.PROM_CTRL.TABLE.width ∧
        t.get TBL.PROM_STATUS.STATE 0 = s.get TBL.PROM_STATUS.STATE 0)

/-- PROMENADE_COMPARE (R274). A shadow record or position is compared with the table copies, writing MISSING, DIFFERENT or
SKEW reports. -/
def promenadeCompareDoes : Prop :=
  ∀ (image : Nat) (p : TablePlan) (s : State), s.tablePlan s.promTable = some p → s.promState = promForward →
      s.firmwareRuns = true → (p.isLpm = true ∨ s.busMaster 0 = true) → s.get TBL.PROM_STATUS.RECORDS_DONE 0 < s.promLength p →
      s.promLength p < 2 ^ TBL.PROM_STATUS.RECORDS_DONE.width →
    ∃ t, exec (.promenadeCompare image) s = .next t ∧
      t.get TBL.PROM_STATUS.RECORDS_DONE 0 = s.get TBL.PROM_STATUS.RECORDS_DONE 0 + 1 ∧
      (s.get TBL.PROM_STATUS.RECORDS_DONE 0 + 1 < s.promLength p → t.promState = promForward) ∧
      (s.get TBL.PROM_STATUS.RECORDS_DONE 0 + 1 = s.promLength p →
        t.get TBL.PROM_STATUS.STATE 0 = (if p.kind = kindExact then promCensus else promDone)) ∧
      (p.kind = kindExact → t.tb.prom.count = s.tb.prom.count + 1 ∧
        t.tb.prom.sum = (s.tb.prom.sum + crc64 (p.censusImage image (natBit image (p.bits - 32 + 17)))) % 2 ^ 64) ∧
      (p.kind = kindExact → (∀ d, d < 4 → ∃ i c, p.find ((s.table s.promTable).twin s.promTwin) (s.seedsOf s.promTable s.promTwin) d
            (p.keyOf image) = some i ∧ entryOn (((s.table s.promTable).twin s.promTwin).at_ i) d = some c ∧
            c.value = p.bodyOf image ∧ c.static = natBit image (p.bits - 32 + 17)) →
        t.get TBL.PROM_STATUS.MISMATCHES 0 = s.get TBL.PROM_STATUS.MISMATCHES 0) ∧
      (∀ d, p.kind = kindExact → d < 4 → p.find ((s.table s.promTable).twin s.promTwin) (s.seedsOf s.promTable s.promTwin) d (p.keyOf image) = none →
        s.get TBL.PROM_STATUS.MISMATCHES 0 < 2 ^ 32 - 1 →
        s.get TBL.PROM_STATUS.MISMATCHES 0 < t.get TBL.PROM_STATUS.MISMATCHES 0 ∧ t.get TBL.INT_CAUSE.PROM_MISMATCH 0 = 1)

/-- PROMENADE_CENSUS (R275). An EXACT pass ends with a census of count and CRC sum and a PROM_CENSUS report. -/
def promenadeCensusDoes : Prop :=
  ∀ (p : TablePlan) (s : State), s.tablePlan s.promTable = some p → s.promState = promCensus → s.firmwareRuns = true →
    ∃ t, exec .promenadeCensus s = .next t ∧ t.get TBL.PROM_STATUS.STATE 0 = promDone ∧ t.get TBL.INT_CAUSE.PROM_DONE 0 = 1 ∧
      t.promState = 0 ∧
      (((s.table s.promTable).twin s.promTwin).slots = [] → ((s.table s.promTable).twin s.promTwin).stash = [] →
        t.get TBL.PROM_STATUS.MISMATCHES 0 = (if s.tb.prom.count = 0 ∧ s.tb.prom.sum = 0 then s.get TBL.PROM_STATUS.MISMATCHES 0
          else min (s.get TBL.PROM_STATUS.MISMATCHES 0 + 1) (2 ^ 32 - 1)))

/-- ADMISSION (R290). A head at a hub quadrant is tested against counts before the frame and assigned a region or dropped. -/
def admissionDoes : Prop :=
  ∀ (p : PipeNo) (k : Nat) (v : Packet) (s : State),
      (s.pipe p).asm.find? (fun k => ((s.packet k).map (·.place)) == some .hub) = some k → s.packet k = some v →
      s.dieJoined (pipeDie p) = true →
    ∃ t, exec (.admission p) s = .next t ∧
      (∀ q r, s.leaving v.troupe = false → s.reloading v = false → v.dropped = false → v.md.toCpu = false → v.md.mcValid = false →
        v.sessions = [] → v.md.queueId = some q → s.get QM.ADM_PROFILE_A.ECN_EN (s.get QM.Q_PROFILE.PROFILE q) = 0 →
        s.admitCopy v { kind := .unicast, queue := q } = .inRegion r →
        ∃ u d e, t.packet k = some u ∧ u.place = .store ∧ u.desc = some d ∧ t.desc d = some e ∧ e.packet = k ∧ e.region = r ∧
          e.copies = [{ kind := .unicast, queue := q, inMin := r == .queueMin }]) ∧
      (∀ q r, s.leaving v.troupe = false → s.reloading v = false → v.dropped = false → v.md.toCpu = false → v.md.mcValid = false →
        v.sessions = [] → v.md.queueId = some q → s.admitCopy v { kind := .unicast, queue := q } = .refused r →
        (∀ u, t.packet k = some u → u.place = .discard) ∧
        (v.counted = false → reasonCounted r = true → t.get TEL.DROP_COUNT.COUNT (dropRow v.port v.troupe * 256 + r) =
          (s.get TEL.DROP_COUNT.COUNT (dropRow v.port v.troupe * 256 + r) + 1) % 2 ^ TEL.DROP_COUNT.COUNT.width)) ∧
      (∀ own mirrors c r rest w s1 s2 s3, s.leaving v.troupe = false → s.reloading v = false →
        (s.sendTransfer (pipeDie p)).ownCopies v = (s1, own) → s1.mirrorCopies v false = (s2, mirrors) → own ≠ [] →
        s2.admitAll k v (own ++ mirrors) s2 [] = (s3, (c, r) :: rest) → s3.packet k = some w →
        ∃ u d e, t.packet k = some u ∧ u.place = .store ∧ u.desc = some d ∧ t.desc d = some e ∧ e.packet = k ∧ e.region = r ∧
          e.copies = c :: rest.map Prod.fst) ∧
      (s.leaving v.troupe = true ∨ s.reloading v = true → ∀ u, t.packet k = some u → u.place = .discard)

/-- SEGMENT_WRITE (R310). A full segment, or the last at frame end, requests a cell and is written and linked. -/
def segmentWriteDoes : Prop :=
  ∀ (p : PipeNo) (k n : Nat) (rv : List (Fin 18)) (v : Packet) (d : Nat) (s : State), (s.arrive k n).packet k = some v →
      v.desc = some d → v.pipe = p.val → v.place = .store → v.nextSegment ≠ 0 → (s.arrive k n).asmTurn p k = true →
      s.dieJoined (pipeDie p) = true →
    ∃ t, exec (.segmentWrite p k n rv) s = .next t ∧
      (∀ a u, ((s.arrive k n).sendTransfer (pipeDie p)).requestSegment p v.troupe v.nextSegment 0 false rv = (.cell a, u) →
        t.sw.mem = memWrite s.sw.mem (s.cellBase a) (((v.head ++ v.body).drop v.stored).take v.nextSegment) ∧
        ∃ w, t.packet k = some w ∧ w.stored = v.stored + v.nextSegment) ∧
      (∀ u, ((s.arrive k n).sendTransfer (pipeDie p)).requestSegment p v.troupe v.nextSegment 0 false rv = (.poolEmpty, u) →
        t.get CELL.INT_CAUSE.POOL_EMPTY 0 = 1 ∧ t.get CELL.EXHAUST.POOL_EMPTY 0 = min (u.get CELL.EXHAUST.POOL_EMPTY 0 + 1) 65535 ∧
        ∀ w, t.packet k = some w → w.bad = some (v.bad.getD dropPool)) ∧
      (∀ u, ((s.arrive k n).sendTransfer (pipeDie p)).requestSegment p v.troupe v.nextSegment 0 false rv = (.quota, u) →
        t.get CELL.INT_CAUSE.QUOTA 0 = 1 ∧ t.get CELL.EXHAUST.QUOTA 0 = min (u.get CELL.EXHAUST.QUOTA 0 + 1) 65535 ∧
        ∀ w, t.packet k = some w → w.bad = some (v.bad.getD dropQuota))

/-- FRAME_VERDICT (R313). At the frame's end the verdict enqueues waiting copies or removes and stomps in-progress ones. -/
def frameVerdictDoes : Prop :=
  ∀ (k : Nat) (v : Packet) (s : State), s.packet k = some v → v.whole = true →
      (∀ f ∈ s.sw.flights, f.2.packet = k → f.2.recirc = false) →
    ∃ t, exec (.frameVerdict k) s = .next t ∧
      (∀ d e, v.place = .store → v.desc = some d → s.desc d = some e → e.complete = false → e.badFrame = false → v.bad = none →
        v.available ≤ v.stored → e.waiting = [] →
        ∃ g, t.desc d = some g ∧ g.complete = true ∧ g.len = (e.cells.map Prod.snd).sum) ∧
      (∀ d e c, v.place = .store → v.desc = some d → s.desc d = some e → e.complete = false → e.badFrame = false → v.bad = none →
        v.available ≤ v.stored → e.waiting = [c] → c.kind = .unicast → c.ring = false → s.descsUsed < 4194304 → e.refs < 1023 →
        (c.isToken = true → s.sw.tokens < 1048576) →
        ∃ g c' st, t.desc d = some g ∧ g.complete = true ∧ c'.queue = c.queue ∧
          t.queue c.queue = s.queue c.queue ++ [.copy d c' false st]) ∧
      (∀ d e, v.place = .store → v.desc = some d → s.desc d = some e → e.complete = false → e.badFrame = false → v.bad ≠ none →
        (∀ g, t.desc d = some g → g.badFrame = true) ∧ ∀ u, t.packet k = some u → u.place = .discard) ∧
      (v.place = .discard → v.desc = none → t.packet k = none)

/-- LEASE_REQUEST (R325). A write of CELL.LEASE_CTRL.GO requests 1–8 cells of one pool, all or nothing. -/
def leaseRequestDoes : Prop :=
  ∀ (fn : FnNo) (v : Word) (rv : List (Fin 18)) (s : State), s.hostReach fn false = true → s.get CELL.LEASE_CTRL.BUSY fn = 0 →
      natBit v.toNat 5 = true →
    ∃ t cells st, exec (.leaseRequest fn ⟨v, rv⟩) s = .next t ∧ t.get CELL.LEASE_CTRL.BUSY fn = 1 ∧
      t.get CELL.LEASE_CTRL.POOL fn = bitsOf v 0 1 ∧ t.get CELL.LEASE_CTRL.COUNT fn = bitsOf v 1 4 ∧
      tabFind t.sw.leases fn = some (cells, st) ∧
      (s.ready rdyCell = false → cells = [] ∧ st = leaseNotReady) ∧
      (s.ready rdyCell = true → s.get CELL.LEASE_STATUS.MAX fn < s.get CELL.LEASE_STATUS.LEASED fn + clampN 1 8 (bitsOf v 1 4) →
        cells = [] ∧ st = leaseLimit) ∧
      (s.ready rdyCell = true → s.get CELL.LEASE_STATUS.LEASED fn + clampN 1 8 (bitsOf v 1 4) ≤ s.get CELL.LEASE_STATUS.MAX fn →
        (st = leaseOk ∨ st = leaseQuota ∨ st = leaseNone) ∧ (st = leaseOk → cells.length = clampN 1 8 (bitsOf v 1 4)) ∧
        ∀ a ∈ cells, tabFind t.sw.cells a = some (ownerTag fn 1))

/-- LEASE_COMPLETE (R325). A lease request ends with OK and valid results, or returns every cell and reports its first
failure. -/
def leaseCompleteDoes : Prop :=
  ∀ (fn : FnNo) (cells : List Nat) (st : Nat) (s : State), tabFind s.sw.leases fn = some (cells, st) →
    ∃ t, exec (.leaseComplete fn) s = .next t ∧ t.get CELL.LEASE_CTRL.BUSY fn = 0 ∧
      t.get CELL.LEASE_CTRL.STATUS fn = st % 2 ^ CELL.LEASE_CTRL.STATUS.width ∧ tabFind t.sw.leases fn = none ∧
      (∀ i, i < 8 → t.get CELL.LEASE_RESULT.VALID (fnIdx fn 8 i) = b2n (st == leaseOk && decide (i < cells.length))) ∧
      (st = leaseOk → (∀ i a, i < 8 → cells[i]? = some a → t.get CELL.LEASE_RESULT.CELL (fnIdx fn 8 i) = a % 2 ^ CELL.LEASE_RESULT.CELL.width) ∧
        t.get CELL.LEASE_STATUS.LEASED fn = (s.get CELL.LEASE_STATUS.LEASED fn + cells.length) % 2 ^ CELL.LEASE_STATUS.LEASED.width) ∧
      (st ≠ leaseOk → t.get CELL.LEASE_STATUS.LEASED fn = s.get CELL.LEASE_STATUS.LEASED fn ∧
        ∀ a ∈ cells, tabFind t.sw.cells a = none)

/-- LEASE_FREE (R328). A write of CELL.LEASE_FREE frees a leased cell after its checks, or records a free fault. -/
def leaseFreeDoes : Prop :=
  ∀ (fn : FnNo) (v : Word) (s : State), s.hostReach fn false = true →
    ∃ t, exec (.leaseFree fn v) s = .next t ∧
      (s.ready rdyCell = false → t.get CELL.LEASE_CTRL.FREE_STATUS fn = 4) ∧
      (s.ready rdyCell = true → s.freeCheck fn (bitsOf v 0 25) = none →
        t.get CELL.LEASE_CTRL.FREE_STATUS fn = 0 ∧ tabFind t.sw.cells (bitsOf v 0 25) = none ∧
        t.get CELL.LEASE_STATUS.LEASED (tabGet 0 s.sw.cells (bitsOf v 0 25) % 64) =
          s.get CELL.LEASE_STATUS.LEASED (tabGet 0 s.sw.cells (bitsOf v 0 25) % 64) - 1) ∧
      (∀ kind, s.ready rdyCell = true → s.freeCheck fn (bitsOf v 0 25) = some kind →
        t.get CELL.LEASE_CTRL.FREE_STATUS fn = kind ∧ t.sw.cells = s.sw.cells ∧ t.get CELL.FREE_FAULT.KIND 0 = kind ∧
        t.get CELL.FREE_FAULT.FAULT_SEEN 0 = 1 ∧ t.get CELL.FREE_FAULT_CELL.CELL 0 = bitsOf v 0 25)

/-- ECC_UNCORRECTABLE (R333). An uncorrectable word in cell data, a link word or the bitmap stomps copies and withdraws
cells. -/
def eccUncorrectableDoes : Prop :=
  ∀ (k : Fin 3) (a : Fin 33554432) (j : Nat) (n : Fin 65) (s : State),
    ∃ t, exec (.eccUncorrectable k a ⟨j, n⟩) s = .next t ∧
      (n.val ≤ 1 → t.get CELL.ECC.DATA_CORR 0 = min (s.get CELL.ECC.DATA_CORR 0 + n.val) 65535) ∧
      (2 ≤ n.val → t.get CELL.INT_CAUSE.ECC_UNCORR 0 = 1) ∧
      (2 ≤ n.val → k = 0 → t.get CELL.ECC.DATA_UNCORR 0 = min (s.get CELL.ECC.DATA_UNCORR 0 + 1) 65535 ∧
        ∀ f, s.flight j = some f → t.flight j = some { f with stomp := true }) ∧
      (2 ≤ n.val → k = 1 → t.get CELL.ECC.LINK_UNCORR 0 = min (s.get CELL.ECC.LINK_UNCORR 0 + 1) 65535) ∧
      (2 ≤ n.val → k = 2 → t.get CELL.ECC.MAP_UNCORR 0 = min (s.get CELL.ECC.MAP_UNCORR 0 + 1) 65535 ∧
        ∀ c ∈ s.wordCells a, c ∈ t.sw.withdrawn)

/-- SCHEDULER_PICK (R337). With the egress pipe acknowledging and flight room, the port scheduler picks one eligible frame
by tier and WFQ. -/
def schedulerPickDoes : Prop :=
  ∀ (x : PortNo) (c q k : Nat) (fc fq : Nat) (cp : Copy) (ip stale : Bool) (r : List QEntry) (d : Desc) (s u v w : State),
      s.portExists x = true → u = s.removeOversizes x → u.portMayPick x = true → u.pickTurn x = true →
      u.dieJoined (pipeDie (portPipe x)) = true → v = u.lookCgs x → v.pickCg x = some (c, fc) → w = v.lookQueues c →
      w.pickQueue c = some (q, fq) → w.queue q = .copy k cp ip stale :: r → w.desc k = some d →
    ∃ t, exec (.schedulerPick x) s = .next t ∧
      (stale = false → t.sw.nextFlight = s.sw.nextFlight + 1 ∧ s.sw.nextFlight ∈ (t.pipe (16 + portPipe x)).forming ∧
        (t.port x).flight = (u.port x).flight + (if ip then s.maxFrame x else d.len) ∧
        t.get QM.CG_STATUS.PICKS (queueCg q) = min (s.get QM.CG_STATUS.PICKS (queueCg q) + 1) (2 ^ QM.CG_STATUS.PICKS.width - 1) ∧
        ∃ f, t.flight s.sw.nextFlight = some f ∧ f.desc = k ∧ f.queue = q ∧ f.port = x.val ∧ f.packet = d.packet ∧ f.copy = cp) ∧
      (stale = true → t.queue q = r ∧ t.sw.nextFlight = s.sw.nextFlight)

/-- WHEEL_SLOT (R351). A calendar-wheel slot fires and its shapers are refilled, late ones counted. -/
def wheelSlotDoes : Prop :=
  ∀ (d : RimNo) (coarse : Bool) (e : Nat × Shaper) (s : State),
      e ∈ (s.firedShapers d (if coarse then .coarse else .fine)).take (slotRefills coarse) →
      (((s.firedShapers d (if coarse then .coarse else .fine)).take (slotRefills coarse)).map Prod.fst).Nodup →
    ∃ t, exec (.wheelSlot d coarse) s = .next t ∧ (t.shaper e.1).bucket.last = s.now ∧ (t.shaper e.1).rate = s.shaperRate e.1 ∧
      (t.shaper e.1).burst = s.shaperBurst e.1 ∧
      (e.2.fireAt + (if coarse then coarseSlot else fineSlot) ≤ s.now → t.get QM.INT_CAUSE.CAL_LATE 0 = 1)

/-- OVERFLOW_MIGRATE (R352). Once per coarse-wheel turn, overflow entries due in the next turn move onto the coarse wheel. -/
def overflowMigrateDoes : Prop :=
  ∀ (d : RimNo) (e : Nat × Shaper) (s : State),
      e ∈ s.sw.shapers → e.2.wheel = .overflow → s.shaperQuadrant e.1 = d.val → e.2.te ≤ s.now + coarseSlot * wheelSlots →
      (s.sw.shapers.map Prod.fst).Nodup →
    ∃ t, exec (.overflowMigrate d) s = .next t ∧
      tabFind t.sw.shapers e.1 = some { e.2 with wheel := .coarse, fireAt := slotAt coarseSlot e.2.te }

/-- HOLD_EXPIRY (R359). The hold timer expires and the port's queues are flushed with HOLD_FLUSH. -/
def holdExpiryDoes : Prop :=
  ∀ (x : PortNo) (a : Nat) (s : State), (s.port x).holdEnd = some a → s.qmState x = qmHeld → a ≤ s.now →
    ∃ t, exec (.holdExpiry x) s = .next t ∧ t.qmState x = qmFlushing ∧ t.get QM.PORT_STATUS.FLUSH_SEEN x = 1 ∧ t.get QM.INT_CAUSE.FLUSH 0 = 1 ∧
      (t.port x).holdEnd = none ∧ t.get QM.PORT_STATUS.HOLD_LEFT_US x = 0 ∧ (∀ q ∈ s.portQueues x, t.queue q = [])

/-- FLUSH_END (R360). A flush ends and the port becomes ACTIVE or DOWN. -/
def flushEndDoes : Prop :=
  ∀ (x : PortNo) (s : State), s.qmState x = qmFlushing → s.portQueues x = [] →
    ∃ t, exec (.flushEnd x) s = .next t ∧
      t.qmState x = (if s.flag PORT.STATUS.LINK_UP x && s.flag PORT.CFG.ENABLE x then qmActive else qmDown)

/-- MC_GROUP_WRITE (R366). A write of MC.GROUP replaces the header whole, or is ignored and counted when out of range. -/
def mcGroupWriteDoes : Prop :=
  ∀ (g : Fin 65536) (v : Word) (s : State), s.hostReach 0 false = true →
    ∃ t, exec (.mcGroupWrite g v) s = .next t ∧
      (bitsOf v 20 12 ≤ 2048 →
        (bitsOf v 20 12 = 0 ∨ s.get MC.TROUPE_RANGE.FIRST (s.get MC.GROUP.TROUPE g) ≤ bitsOf v 0 20 ∧ bitsOf v 0 20 + bitsOf v 20 12 ≤
          s.get MC.TROUPE_RANGE.FIRST (s.get MC.GROUP.TROUPE g) + s.get MC.TROUPE_RANGE.COUNT (s.get MC.GROUP.TROUPE g)) →
        t.get MC.GROUP.BASE g = bitsOf v 0 20 ∧ t.get MC.GROUP.COUNT g = bitsOf v 20 12 ∧ t.get MC.GROUP.PRUNE_SRC g = bitsOf v 32 1) ∧
      (2048 < bitsOf v 20 12 ∨ (bitsOf v 20 12 ≠ 0 ∧ (bitsOf v 0 20 < s.get MC.TROUPE_RANGE.FIRST (s.get MC.GROUP.TROUPE g) ∨
          s.get MC.TROUPE_RANGE.FIRST (s.get MC.GROUP.TROUPE g) + s.get MC.TROUPE_RANGE.COUNT (s.get MC.GROUP.TROUPE g) <
            bitsOf v 0 20 + bitsOf v 20 12)) →
        t.get MC.GROUP.BASE g = s.get MC.GROUP.BASE g ∧ t.get MC.GROUP.COUNT g = s.get MC.GROUP.COUNT g ∧
        t.get MC.STATS2.REJECTED_WRITES 0 = min (s.get MC.STATS2.REJECTED_WRITES 0 + 1) (2 ^ MC.STATS2.REJECTED_WRITES.width - 1))

/-- MC_SYNC (R367). A write of MC.SYNC.REQ clears DONE and starts a sync. -/
def mcSyncDoes : Prop :=
  ∀ (v : Word) (s : State), s.hostReach 0 false = true → natBit v.toNat 0 = true →
    ∃ t, exec (.mcSync v) s = .next t ∧ t.get MC.SYNC.DONE 0 = 0 ∧ t.sw.sync = { before := s.sw.replicating, pending := true }

/-- MC_SYNC_DONE (R367). DONE sets once every replication begun before the request has finished. -/
def mcSyncDoneDoes : Prop :=
  ∀ (s : State), s.sw.sync.pending = true → (∀ k ∈ s.sw.sync.before, k ∉ s.sw.replicating) →
    ∃ t, exec .mcSyncDone s = .next t ∧ t.get MC.SYNC.DONE 0 = 1 ∧ t.sw.sync = {}

/-- QUERY (R335). A write of QM.QUERY.GO reports a queue's depth and state, or ABSENT, TROUPE or NOT_READY. -/
def queryDoes : Prop :=
  ∀ (fn : FnNo) (v : Word) (s : State), s.hostReach fn false = true → s.get QM.QUERY.BUSY fn = 0 → natBit v.toNat 20 = true →
    ∃ t, exec (.query fn v) s = .next t ∧ t.get QM.QUERY.QUEUE fn = bitsOf v 0 20 ∧
      (∀ n, s.ready rdyQm = true → s.queueTroupe (bitsOf v 0 20) = some n → fn.val = 0 ∨ n = fn.val →
        t.get QM.QUERY.STATUS fn = 0 ∧
        t.get QM.QUERY_RESULT0.ONDIE_BYTES fn = (s.queueDepth (bitsOf v 0 20)).1 % 2 ^ QM.QUERY_RESULT0.ONDIE_BYTES.width ∧
        t.get QM.QUERY_RESULT0.SPILLED_KIB fn = ((s.queueDepth (bitsOf v 0 20)).2 + 1023) / 1024 % 2 ^ QM.QUERY_RESULT0.SPILLED_KIB.width ∧
        t.get QM.QUERY_RESULT1.ELIGIBLE fn = b2n (s.queueEligible (bitsOf v 0 20))) ∧
      (∀ n, s.ready rdyQm = true → s.queueTroupe (bitsOf v 0 20) = some n → fn.val ≠ 0 → n ≠ fn.val → t.get QM.QUERY.STATUS fn = 2) ∧
      (s.ready rdyQm = true → s.queueTroupe (bitsOf v 0 20) = none → t.get QM.QUERY.STATUS fn = 1) ∧
      (s.ready rdyQm = false → t.get QM.QUERY.STATUS fn = 3)

/-- SPILL_MOVE (R455). The spill writer packs a marked frame into HBM blocks, links them and frees its cells. -/
def spillMoveDoes : Prop :=
  ∀ (k : Nat) (r : List Nat) (d : Desc) (v : Packet) (c c' : Copy) (stale : Bool) (s : State),
      s.hbm.marked = k :: r → s.desc k = some d → s.packet d.packet = some v → d.copies = [c] → entryOf k (s.queue c.queue) = some (c', stale) →
      d.marked = true → d.refs = 1 → runBefore k (s.queue c'.queue) = none →
    ∃ t, exec .spillMove s = .next t ∧ t.hbm.marked = r ∧
      (∀ bs nx, s.takeBlocks v.troupe ((s.recordLen v.troupe d.len + blockPayload - 1) / blockPayload) s.hbm.nextStack [] = some (bs, nx) →
        t.sw.nextSpill = s.sw.nextSpill + 1 ∧ t.hbm.nextStack = nx ∧ t.queue c'.queue = spillEntry k s.sw.nextSpill (s.queue c'.queue) ∧
        t.get HBM.SPILL_COUNT.SPILLED 0 = min (s.get HBM.SPILL_COUNT.SPILLED 0 + 1) (2 ^ HBM.SPILL_COUNT.SPILLED.width - 1) ∧
        ∃ f, tabFind t.sw.spilled s.sw.nextSpill = some f ∧ f.packet = v ∧ f.copy = c' ∧ f.queue = c'.queue ∧ f.len = d.len ∧
          f.blocks = bs ∧ f.addr = 0 ∧ f.stale = stale) ∧
      (s.takeBlocks v.troupe ((s.recordLen v.troupe d.len + blockPayload - 1) / blockPayload) s.hbm.nextStack [] = none →
        t.queue c'.queue = s.queue c'.queue ∧ t.sw.spilled = s.sw.spilled ∧ t.desc k = some { d with marked := false } ∧
        t.get HBM.SPILL_COUNT2.NOT_SPILLED 0 = min (s.get HBM.SPILL_COUNT2.NOT_SPILLED 0 + 1) (2 ^ HBM.SPILL_COUNT2.NOT_SPILLED.width - 1) ∧
        t.get HBM.INT_CAUSE.SPILL_FULL 0 = 1)

/-- REFILL (R459). The refill engine writes a spilled frame back into cells ahead of its spill run. -/
def refillDoes : Prop :=
  ∀ (rivals : List (Fin 18)) (q f : Nat) (r : List Nat) (v : SpillFrame) (s : State),
      (s.sw.queues.map Prod.fst).filter (fun q => s.refillDue q && (tabFind s.hbm.retryAt q).isNone) = [q] →
      (s.aheadOfRun (s.queue q)).2 = f :: r → tabFind s.sw.spilled f = some v → s.descsUsed < 4194304 →
    ∃ t, exec (.refill rivals) s = .next t ∧ t.hbm.lastRefill = q ∧
      ((({ s with hbm := { s.hbm with lastRefill := q } } : State).refillCells v.packet.troupe rivals (segmentLens v.len) []).1.isSome = true →
        tabFind t.sw.spilled f = none ∧ tabFind t.hbm.retryAt q = none ∧
        t.get HBM.SPILL_COUNT.REFILLED 0 = min (s.get HBM.SPILL_COUNT.REFILLED 0 + 1) (2 ^ HBM.SPILL_COUNT.REFILLED.width - 1) ∧
        ∃ k d, t.queue q = refillEntry (.copy k { v.copy with inMin := false } false v.stale) (s.queue q) ∧ t.desc k = some d ∧
          d.len = v.len ∧ d.troupe = v.packet.troupe ∧ d.lossless = v.lossless ∧ d.refs = 1 ∧ d.cells.map Prod.snd = segmentLens v.len) ∧
      ((({ s with hbm := { s.hbm with lastRefill := q } } : State).refillCells v.packet.troupe rivals (segmentLens v.len) []).1.isSome = false →
        tabFind t.sw.spilled f = some v ∧ t.queue q = s.queue q ∧
        tabFind t.hbm.retryAt q = some (s.now + 2 * max 16 (s.get HBM.SPILL_CFG.RETRY_NS 0)) ∧
        t.get HBM.SPILL_COUNT2.REFILL_WAITS 0 = min (s.get HBM.SPILL_COUNT2.REFILL_WAITS 0 + 1) (2 ^ HBM.SPILL_COUNT2.REFILL_WAITS.width - 1))

/-- REFILL_RETRY (R461). A refill lacking a cell or descriptor retries after RETRY_NS. -/
def refillRetryDoes : Prop :=
  ∀ (q : QueueNo) (rivals : List (Fin 18)) (a f : Nat) (r : List Nat) (v : SpillFrame) (s : State),
      tabFind s.hbm.retryAt q = some a → a ≤ s.now → (s.aheadOfRun (s.queue q)).2 = f :: r → tabFind s.sw.spilled f = some v →
      s.descsUsed < 4194304 →
    ∃ t, exec (.refillRetry q rivals) s = .next t ∧
      ((s.refillCells v.packet.troupe rivals (segmentLens v.len) []).1.isSome = true →
        tabFind t.sw.spilled f = none ∧ tabFind t.hbm.retryAt q = none ∧
        t.get HBM.SPILL_COUNT.REFILLED 0 = min (s.get HBM.SPILL_COUNT.REFILLED 0 + 1) (2 ^ HBM.SPILL_COUNT.REFILLED.width - 1) ∧
        ∃ k d, t.queue q = refillEntry (.copy k { v.copy with inMin := false } false v.stale) (s.queue q) ∧ t.desc k = some d ∧
          d.len = v.len ∧ d.troupe = v.packet.troupe ∧ d.cells.map Prod.snd = segmentLens v.len) ∧
      ((s.refillCells v.packet.troupe rivals (segmentLens v.len) []).1.isSome = false →
        tabFind t.sw.spilled f = some v ∧ tabFind t.hbm.retryAt q = some (s.now + 2 * max 16 (s.get HBM.SPILL_CFG.RETRY_NS 0)) ∧
        t.get HBM.SPILL_COUNT2.REFILL_WAITS 0 = min (s.get HBM.SPILL_COUNT2.REFILL_WAITS 0 + 1) (2 ^ HBM.SPILL_COUNT2.REFILL_WAITS.width - 1))

/-- TIME_SNAPSHOT (R376). A read of TIME.NOW_SUB bits [31:0] snapshots network time and the raw counter for the function. -/
def timeSnapshotDoes : Prop :=
  ∀ (fn : FnNo) (s : State), s.hostReach fn true = true →
    ∃ t, exec (.timeSnapshot fn) s = .next t ∧ tabFind t.tim.snaps fn = some (s.netStamp, s.now) ∧
      ∀ f, f ≠ fn.val → tabFind t.tim.snaps f = tabFind s.tim.snaps f

/-- SERVO_SAMPLE (R378). A write of TIME.SERVO_OFFSET is a servo sample that steps or steers the rate. -/
def servoSampleDoes : Prop :=
  ∀ (v : Word) (s : State), s.hostReach 0 true = true →
    ∃ t, exec (.servoSample v) s = .next t ∧
      (s.get TIME.SERVO_CFG.SRC 0 = 1 → t.tim = s.tim ∧ t.get TIME.SERVO_STATUS.IGNORED 0 =
        min (s.get TIME.SERVO_STATUS.IGNORED 0 + 1) (2 ^ TIME.SERVO_STATUS.IGNORED.width - 1)) ∧
      (s.get TIME.SERVO_CFG.SRC 0 = 0 → s.get TIME.SERVO_CFG.EN 0 = 1 → t.tim.sampleAt = s.now ∧
        t.get TIME.SERVO_STATUS.LAST_ERR_NS 0 = ofSigned 32 (max (-(2 ^ 31)) (min (2 ^ 31 - 1) (v.toInt / 65536))) ∧
        t.get TIME.SERVO_STATUS.SAMPLES 0 = min (s.get TIME.SERVO_STATUS.SAMPLES 0 + 1) (2 ^ TIME.SERVO_STATUS.SAMPLES.width - 1) ∧
        (max 1 (s.get TIME.SERVO_CFG2.STEP_NS 0) * 65536 < v.toInt.natAbs → t.servoState = timeAcquiring ∧ t.tim.integ = s.tim.integ) ∧
        (v.toInt.natAbs ≤ max 1 (s.get TIME.SERVO_CFG2.STEP_NS 0) * 65536 →
          t.tim.integ = clamp48 (s.tim.integ + v.toInt * 2 ^ 36 / 2 ^ s.get TIME.SERVO_CFG.KI_SHIFT 0) ∧
          t.tim.rate = clamp48 (-(t.tim.integ + v.toInt * 2 ^ 36 / 2 ^ s.get TIME.SERVO_CFG.KP_SHIFT 0)) ∧
          (s.servoState = timeAcquiring → v.toInt.natAbs ≤ s.get TIME.SERVO_CFG.LOCK_NS 0 * 65536 →
            t.tim.good = s.tim.good + 1 ∧
            (s.get TIME.SERVO_CFG.LOCK_COUNT 0 ≤ s.tim.good + 1 →
              t.servoState = timeLocked ∧ t.ready rdyTime = true ∧ t.get TIME.INT_CAUSE.LOCKED 0 = 1) ∧
            (s.tim.good + 1 < s.get TIME.SERVO_CFG.LOCK_COUNT 0 → t.servoState = timeAcquiring)) ∧
          (s.servoState = timeLocked → s.get TIME.SERVO_CFG.UNLOCK_NS 0 * 65536 < v.toInt.natAbs →
            t.servoState = timeAcquiring ∧ t.get TIME.STATUS.LOCK_LOST_SEEN 0 = 1 ∧ t.get TIME.INT_CAUSE.LOCK_LOST 0 = 1 ∧
            t.ready rdyTime = false)))

/-- PPS_EDGE (R382). An accepted 1PPS edge is stamped and used as a servo sample. -/
def ppsEdgeDoes : Prop :=
  ∀ (rising : Bool) (ph : Fin 4) (s : State), s.flag TIME.PPS_IN.RISING 0 = rising → (∀ a, s.tim.ppsAt = some a → a + 1800000000 ≤ s.now) →
    ∃ t, exec (.ppsEdge rising ph) s = .next t ∧ t.tim.ppsAt = some s.now ∧ t.tim.ppsMissed = false ∧ t.get TIME.PPS_IN.SEEN 0 = 1 ∧
      (∀ p : Int, p = stampRound ((s.netTime + (ph.val : Int) * (2 ^ 52 + s.tim.rate) / 4) / 2 ^ 37) -
          signedOf 16 (s.get TIME.PPS_IN.CORR_NS 0) * 65536 →
        t.get TIME.PPS_STAMP_SEC.SEC 0 = ofSigned 64 (p / (10 ^ 9 * 65536)) ∧
        t.get TIME.PPS_STAMP_SUB.NS 0 = (p % (10 ^ 9 * 65536) / 65536).toNat ∧
        t.get TIME.PPS_STAMP_SUB.FRAC 0 = (p % (10 ^ 9 * 65536) % 65536).toNat) ∧
      (s.get TIME.SERVO_CFG.EN 0 = 1 → s.get TIME.SERVO_CFG.SRC 0 = 1 → t.tim.sampleAt = s.now ∧
        t.get TIME.SERVO_STATUS.SAMPLES 0 = min (s.get TIME.SERVO_STATUS.SAMPLES 0 + 1) (2 ^ TIME.SERVO_STATUS.SAMPLES.width - 1)) ∧
      (s.get TIME.SERVO_CFG.SRC 0 = 0 → t.tim.integ = s.tim.integ ∧ t.get TIME.SERVO_STATUS.SAMPLES 0 = s.get TIME.SERVO_STATUS.SAMPLES 0)

/-- PPS_MISSED (R382). No edge within 1.1 s increments MISSED and raises PPS_MISSED. -/
def ppsMissedDoes : Prop :=
  ∀ (a : Nat) (s : State), s.tim.ppsAt = some a → s.tim.ppsMissed = false → a + 2200000000 ≤ s.now →
    ∃ t, exec .ppsMissed s = .next t ∧ t.tim.ppsMissed = true ∧ t.get TIME.INT_CAUSE.PPS_MISSED 0 = 1 ∧
      t.get TIME.PPS_IN.MISSED 0 = min (s.get TIME.PPS_IN.MISSED 0 + 1) (2 ^ TIME.PPS_IN.MISSED.width - 1)

/-- SERVO_TIMEOUT (R380). No sample for TIMEOUT_MS in LOCKED moves the servo to HOLDOVER. -/
def servoTimeoutDoes : Prop :=
  ∀ (s : State), s.servoState = timeLocked → s.tim.sampleAt + max 1 (s.get TIME.SERVO_CFG2.TIMEOUT_MS 0) * msTicks ≤ s.now →
    ∃ t, exec .servoTimeout s = .next t ∧ t.servoState = timeHoldover ∧ t.get TIME.INT_CAUSE.HOLDOVER 0 = 1 ∧ t.tim.holdAt = s.now ∧
      t.tim.rate = clamp48 (-s.tim.integ) ∧ t.ready rdyTime = true

/-- HOLDOVER_EXPIRY (R380). HOLDOVER longer than HOLDOVER_S moves the servo to FREE. -/
def holdoverExpiryDoes : Prop :=
  ∀ (s : State), s.servoState = timeHoldover →
      s.tim.holdAt + max 1 (s.get TIME.SERVO_CFG2.HOLDOVER_S 0) * secTicks < s.now →
    ∃ t, exec .holdoverExpiry s = .next t ∧ t.servoState = timeFree ∧ t.get TIME.STATUS.LOCK_LOST_SEEN 0 = 1 ∧
      t.get TIME.INT_CAUSE.LOCK_LOST 0 = 1 ∧ t.ready rdyTime = false ∧ t.tim.good = 0 ∧ t.tim.rate = s.tim.rate

/-- SERVO_DISABLE (R380). A write of SERVO_CFG.EN = 0 moves the servo to FREE. -/
def servoDisableDoes : Prop :=
  ∀ (v : Word) (s : State), s.hostReach 0 true = true →
    ∃ t, exec (.servoDisable v) s = .next t ∧ t.get TIME.SERVO_CFG.EN 0 = bitsOf v TIME.SERVO_CFG.EN.lo TIME.SERVO_CFG.EN.width ∧
      t.get TIME.SERVO_CFG.SRC 0 = bitsOf v TIME.SERVO_CFG.SRC.lo TIME.SERVO_CFG.SRC.width ∧
      (bitsOf v TIME.SERVO_CFG.EN.lo TIME.SERVO_CFG.EN.width = 0 → t.servoState = timeFree ∧
        (s.servoState = timeLocked ∨ s.servoState = timeHoldover → t.ready rdyTime = false ∧ t.get TIME.STATUS.LOCK_LOST_SEEN 0 = 1 ∧
          t.get TIME.INT_CAUSE.LOCK_LOST 0 = 1)) ∧
      (bitsOf v TIME.SERVO_CFG.EN.lo TIME.SERVO_CFG.EN.width = 1 → t.servoState = s.servoState)

/-- REF_LOST (R383). Loss of the time reference clears REF_PRESENT and PLL_LOCK and writes TIME_REF_LOST. -/
def refLostDoes : Prop :=
  ∀ (s : State), s.get TIME.STATUS.REF_PRESENT 0 = 1 →
    ∃ t, exec .refLost s = .next t ∧ t.get TIME.STATUS.REF_PRESENT 0 = 0 ∧ t.get TIME.STATUS.PLL_LOCK 0 = 0 ∧
      t.get TIME.STATUS.REF_LOST_SEEN 0 = 1 ∧ t.get TIME.INT_CAUSE.REF_LOST 0 = 1

/-- REF_RETURN (R383). The time reference returns and REF_PRESENT sets. -/
def refReturnDoes : Prop :=
  ∀ (s : State),
    ∃ t, exec .refReturn s = .next t ∧ t.get TIME.STATUS.REF_PRESENT 0 = 1 ∧ t.get TIME.STATUS.PLL_LOCK 0 = s.get TIME.STATUS.PLL_LOCK 0

/-- PLL_RELOCK (R383). The counter PLL locks again and PLL_LOCK sets. -/
def pllRelockDoes : Prop :=
  ∀ (s : State), s.get TIME.STATUS.REF_PRESENT 0 = 1 →
    ∃ t, exec .pllRelock s = .next t ∧ t.get TIME.STATUS.PLL_LOCK 0 = 1

/-- PPS_OUT_PULSE (R384). At each whole second plus CORR_NS the 1PPS output rises for WIDTH_US. -/
def ppsOutPulseDoes : Prop :=
  ∀ (s : State), (s.netNs - signedOf 16 (s.get TIME.PPS_OUT.CORR_NS 0)) / 10 ^ 9 ≠ s.tim.pulse →
    ∃ t, exec .ppsOutPulse s = .next t ∧ t.tim.pulse = (s.netNs - signedOf 16 (s.get TIME.PPS_OUT.CORR_NS 0)) / 10 ^ 9 ∧
      (s.get TIME.PPS_OUT.EN 0 = 1 → s.get TIME.PPS_OUT.ONLY_LOCKED 0 = 0 ∨ s.ready rdyTime = true →
        t.out = .pulse "PPS_OUT" (clampN 1 999999 (s.get TIME.PPS_OUT.WIDTH_US 0)) :: s.out) ∧
      (s.get TIME.PPS_OUT.EN 0 = 0 ∨ s.get TIME.PPS_OUT.ONLY_LOCKED 0 = 1 ∧ s.ready rdyTime = false → t.out = s.out)

/-- SYNCE_SQUELCH (R385). A SyncE output is squelched when its source lane or settings become unusable. -/
def synceSquelchDoes : Prop :=
  ∀ (k : Fin 2) (s : State), s.synceUsable k = false → s.get TIME.SYNCE.SQUELCHED k = 0 →
    ∃ t, exec (.synceSquelch k) s = .next t ∧ t.get TIME.SYNCE.SQUELCHED k = 1 ∧ t.get TIME.SYNCE.SQUELCH_SEEN k = 1 ∧
      t.get TIME.INT_CAUSE.SYNCE_SQUELCH 0 = 1 ∧ Out.pin (if k.val = 0 then "SYNCE_OUT0" else "SYNCE_OUT1") 0 ∈ t.out

/-- WIN_GO (R405). A write of WIN_CTRL.GO makes the named bank pending at a computed switch instant, cancels, or is
refused. -/
def winGoDoes : Prop :=
  ∀ (x : PortNo) (v : Word) (s : State), s.hostReach 0 false = true →
    ∃ t, exec (.winGo x v) s = .next t ∧ t.get QM.WIN_CTRL.NEXT_BANK x = bitsOf v QM.WIN_CTRL.NEXT_BANK.lo QM.WIN_CTRL.NEXT_BANK.width ∧
      t.get QM.WIN_CTRL.GUARD_NS x = bitsOf v QM.WIN_CTRL.GUARD_NS.lo QM.WIN_CTRL.GUARD_NS.width ∧
      (natBit v.toNat 0 = false → (t.port x).winPending = (s.port x).winPending) ∧
      (natBit v.toNat 0 = true → s.bankValid x (bitsOf v QM.WIN_CTRL.NEXT_BANK.lo QM.WIN_CTRL.NEXT_BANK.width) = false →
        t.get QM.WIN_STATUS.BAD_BANK x = 1 ∧ (t.port x).winPending = (s.port x).winPending) ∧
      (natBit v.toNat 0 = true → s.bankValid x (bitsOf v QM.WIN_CTRL.NEXT_BANK.lo QM.WIN_CTRL.NEXT_BANK.width) = true → (s.port x).winActive.map Prod.fst = some (bitsOf v QM.WIN_CTRL.NEXT_BANK.lo QM.WIN_CTRL.NEXT_BANK.width) →
        (t.port x).winPending = none ∧ t.get QM.WIN_STATUS.PENDING x = 0 ∧ (t.port x).winActive = (s.port x).winActive) ∧
      (natBit v.toNat 0 = true → s.bankValid x (bitsOf v QM.WIN_CTRL.NEXT_BANK.lo QM.WIN_CTRL.NEXT_BANK.width) = true → (s.port x).winActive.map Prod.fst ≠ some (bitsOf v QM.WIN_CTRL.NEXT_BANK.lo QM.WIN_CTRL.NEXT_BANK.width) →
        t.get QM.WIN_STATUS.PENDING x = 1 ∧ (t.port x).winPending = some (bitsOf v QM.WIN_CTRL.NEXT_BANK.lo QM.WIN_CTRL.NEXT_BANK.width, s.switchInstant x (bitsOf v QM.WIN_CTRL.NEXT_BANK.lo QM.WIN_CTRL.NEXT_BANK.width)) ∧
        (t.port x).winActive = (s.port x).winActive)

/-- BANK_SWITCH (R405). At t_s the pending bank becomes active and the old bank inactive. -/
def bankSwitchDoes : Prop :=
  ∀ (x : PortNo) (b : Nat) (a : Int) (s : State), (s.port x).winPending = some (b, a) → a ≤ s.netTime →
    ∃ t, exec (.bankSwitch x) s = .next t ∧ (t.port x).winActive = some (b, a) ∧ (t.port x).winPending = none ∧
      t.get QM.WIN_STATUS.SWITCH_SEEN x = 1 ∧ t.get QM.WIN_STATUS.ACTIVE_VALID x = 1 ∧ t.get QM.WIN_STATUS.PENDING x = 0 ∧
      t.get QM.WIN_STATUS.ACTIVE_BANK x = b % 2 ^ QM.WIN_STATUS.ACTIVE_BANK.width ∧
      t.get QM.WIN_STATUS.UNSYNCED x = b2n (!s.ready rdyTime)

/-- WIN_WRITE_REFUSED (R403). A write to an active or pending bank is ignored and sets WRITE_REFUSED. -/
def winWriteRefusedDoes : Prop :=
  ∀ (x : PortNo) (b : Fin 2) (s : State), s.hostReach 0 false = true →
    ∃ t, exec (.winWriteRefused x b) s = .next t ∧ (s.bankBusy x b = true → t.get QM.WIN_STATUS.WRITE_REFUSED x = 1) ∧
      (s.bankBusy x b = false → t = s) ∧
      (∀ i, t.get QM.WIN_GCL.INTERVAL_NS i = s.get QM.WIN_GCL.INTERVAL_NS i ∧ t.get QM.WIN_GCL.GATES i = s.get QM.WIN_GCL.GATES i ∧
        t.get QM.WIN_BANK.ENTRIES i = s.get QM.WIN_BANK.ENTRIES i ∧ t.get QM.WIN_BANK.CYCLE_NS i = s.get QM.WIN_BANK.CYCLE_NS i)

/-- GATE_CHANGE (R395). A gate-list entry boundary opens or closes class-group gates. -/
def gateChangeDoes : Prop :=
  ∀ (x : PortNo) (s : State),
    ∃ t, exec (.gateChange x) s = .next t ∧ (t.port x).gates = (s.gatesAt x s.netTime).1 ∧
      t.get QM.WIN_STATUS.UNSYNCED x = b2n ((s.port x).winActive.isSome && !s.ready rdyTime) ∧
      ∀ g, g < 16 → t.get QM.CG_STATUS.WINDOW_HELD (16 * x + g) =
        b2n (s.windowed (16 * x + g) && !natBit (s.gatesAt x s.netTime).1 g)

/-- HIST_SNAPSHOT (R415). A write of TEL.HIST_CTRL.GO copies a histogram at one instant, optionally clearing it. -/
def histSnapshotDoes : Prop :=
  ∀ (fn : FnNo) (v : Word) (s : State), s.hostReach fn false = true →
    ∃ t, exec (.histSnapshot fn v) s = .next t ∧ t.get TEL.HIST_CTRL.PORT fn = bitsOf v TEL.HIST_CTRL.PORT.lo TEL.HIST_CTRL.PORT.width ∧
      t.get TEL.HIST_CTRL.CLEAR fn = bitsOf v TEL.HIST_CTRL.CLEAR.lo TEL.HIST_CTRL.CLEAR.width ∧
      (natBit v.toNat 18 = false → t.tel.hist = s.tel.hist ∧ t.get TEL.HIST_CTRL.STATUS fn = s.get TEL.HIST_CTRL.STATUS fn) ∧
      (natBit v.toNat 18 = true → s.portExists (bitsOf v TEL.HIST_CTRL.PORT.lo TEL.HIST_CTRL.PORT.width) = false → t.get TEL.HIST_CTRL.STATUS fn = 1 ∧ t.tel.hist = s.tel.hist) ∧
      (natBit v.toNat 18 = true → s.portExists (bitsOf v TEL.HIST_CTRL.PORT.lo TEL.HIST_CTRL.PORT.width) = true → fn.val ≠ 0 → s.portTroupe (bitsOf v TEL.HIST_CTRL.PORT.lo TEL.HIST_CTRL.PORT.width) ≠ fn.val →
        t.get TEL.HIST_CTRL.STATUS fn = 2 ∧ t.tel.hist = s.tel.hist) ∧
      (natBit v.toNat 18 = true → s.portExists (bitsOf v TEL.HIST_CTRL.PORT.lo TEL.HIST_CTRL.PORT.width) = true → fn.val = 0 ∨ s.portTroupe (bitsOf v TEL.HIST_CTRL.PORT.lo TEL.HIST_CTRL.PORT.width) = fn.val →
        t.get TEL.HIST_CTRL.STATUS fn = 0 ∧ ∀ i, i < 64 →
          t.get TEL.HIST_BIN.COUNT (fnIdx fn 64 i) = tabGet 0 s.tel.hist (((16 * bitsOf v TEL.HIST_CTRL.PORT.lo TEL.HIST_CTRL.PORT.width + bitsOf v TEL.HIST_CTRL.CG.lo TEL.HIST_CTRL.CG.width) * 2 +
          bitsOf v TEL.HIST_CTRL.KIND.lo TEL.HIST_CTRL.KIND.width) * 64 + i) % 2 ^ TEL.HIST_BIN.COUNT.width ∧
          tabGet 0 t.tel.hist (((16 * bitsOf v TEL.HIST_CTRL.PORT.lo TEL.HIST_CTRL.PORT.width + bitsOf v TEL.HIST_CTRL.CG.lo TEL.HIST_CTRL.CG.width) * 2 +
          bitsOf v TEL.HIST_CTRL.KIND.lo TEL.HIST_CTRL.KIND.width) * 64 + i) = (if natBit v.toNat TEL.HIST_CTRL.CLEAR.lo then 0 else tabGet 0 s.tel.hist (((16 * bitsOf v TEL.HIST_CTRL.PORT.lo TEL.HIST_CTRL.PORT.width + bitsOf v TEL.HIST_CTRL.CG.lo TEL.HIST_CTRL.CG.width) * 2 +
          bitsOf v TEL.HIST_CTRL.KIND.lo TEL.HIST_CTRL.KIND.width) * 64 + i)))

/-- FATE_UPDATE (R420). An outcome at the hub is carried back to the flow's line, or folded into the aggregate. -/
def fateUpdateDoes : Prop :=
  ∀ (f : Fate) (r : List Fate) (s : State), s.tel.fates = f :: r →
    ∃ t, exec .fateUpdate s = .next t ∧ t.tel.fates = r ∧
      (∀ l, tabFind s.tel.lines f.line = some l → l.gen = f.gen →
        tabFind t.tel.lines f.line = some { l with flow := l.flow.fate f.kind } ∧
        t.get TEL.FLOW_COUNT2.STALE_FATE 0 = s.get TEL.FLOW_COUNT2.STALE_FATE 0) ∧
      ((∀ l, tabFind s.tel.lines f.line = some l → l.gen ≠ f.gen) → t.tel.lines = s.tel.lines ∧
        t.get TEL.UNTRACKED.COUNT (aggKey f.pipe f.troupe 2) =
          (s.get TEL.UNTRACKED.COUNT (aggKey f.pipe f.troupe 2) + 1) % 2 ^ TEL.UNTRACKED.COUNT.width ∧
        t.get TEL.FLOW_COUNT2.STALE_FATE 0 = min (s.get TEL.FLOW_COUNT2.STALE_FATE 0 + 1) (2 ^ TEL.FLOW_COUNT2.STALE_FATE.width - 1))

/-- FLOW_WRITEBACK (R422). A die writes a cache line back to the ledger, or adds it approximately to the aggregate when
the queue is full. -/
def flowWritebackDoes : Prop :=
  ∀ (d : RimNo) (n : Fin 65536) (l : FlowLine) (s : State), tabFind s.tel.lines (65536 * d.val + n.val) = some l →
      s.ledgerOn = true → l.refusedUntil = none → l.wbAt + msTicks ≤ s.now →
    ∃ t, exec (.flowWriteback d n) s = .next t ∧
      tabFind t.tel.lines (65536 * d.val + n.val) = some { l with flow := l.flow.zeroed, wbAt := s.now } ∧
      ((tabGet [] s.tel.updates d).length < 4096 → ∃ w, tabGet [] t.tel.updates d = tabGet [] s.tel.updates d ++ [w] ∧
        w.line = 65536 * d.val + n.val ∧ w.gen = l.gen ∧ w.flow.key = l.flow.key ∧ w.flow.packets = l.flow.packets ∧
        w.flow.bytes = l.flow.bytes ∧ w.flow.drops = l.flow.drops) ∧
      (4096 ≤ (tabGet [] s.tel.updates d).length → t.tel.updates = s.tel.updates ∧ t.get TEL.FLOW_STATUS.APPROX_SEEN 0 = 1 ∧
        t.get TEL.INT_CAUSE.APPROX 0 = 1 ∧ crc32c 0xFFFFFFFF l.flow.key % 65536 ∈ tabGet [] t.tel.approx d ∧
        t.get TEL.UNTRACKED.COUNT (aggKey l.flow.pipe l.flow.troupe 0) =
          (s.get TEL.UNTRACKED.COUNT (aggKey l.flow.pipe l.flow.troupe 0) + l.flow.packets) % 2 ^ TEL.UNTRACKED.COUNT.width)

/-- LEDGER_WRITEBACK (R464). The ledger engine serves a write-back, allocating an entry or answering with refusal. -/
def ledgerWritebackDoes : Prop :=
  ∀ (d : Nat) (w : WriteBack) (r : List WriteBack) (s : State),
      ((List.range 4).map fun j => (s.tel.lastDie + 1 + j) % 4).find? (fun d => !(tabGet [] s.tel.updates d).isEmpty) = some d →
      tabGet [] s.tel.updates d = w :: r → s.ledgerOn = true →
    ∃ t, exec .ledgerWriteback s = .next t ∧ tabGet [] t.tel.updates d = r ∧ t.tel.lastDie = d ∧
      t.get HBM.LEDGER_STATUS.WRITEBACKS 0 = min (s.get HBM.LEDGER_STATUS.WRITEBACKS 0 + 1) (2 ^ HBM.LEDGER_STATUS.WRITEBACKS.width - 1) ∧
      (∀ j i e, s.locate w.flow.key = (j, some i) → tabFind s.tel.ledger i = some e →
        tabFind t.tel.ledger i = some { e with flow := e.flow.merge w.flow }) ∧
      (∀ j, s.locate w.flow.key = (j, none) → s.tel.ledger.length < s.flowCapacity → s.troupeRoom w.flow.troupe = true →
        tabFind t.tel.locator j = some (tabFresh s.tel.ledger, crc32c 0xFFFFFFFF w.flow.key) ∧
        tabFind t.tel.ledger (tabFresh s.tel.ledger) = some { flow := w.flow, exportAt := s.now }) ∧
      (∀ j, s.locate w.flow.key = (j, none) → s.flowCapacity ≤ s.tel.ledger.length → s.get TEL.FLOW_CFG.AGE_EVICT 0 = 0 →
        t.tel.ledger = s.tel.ledger ∧ t.get TEL.FLOW_STATUS.OVERFLOW 0 = 1 ∧ t.tel.refusedAt = s.now ∧
        ∀ l, tabFind s.tel.lines w.line = some l → l.gen = w.gen → tabFind t.tel.lines w.line =
          some { l with flow := l.flow.zeroed, refusedUntil := some (s.now + max 1 (s.get TEL.FLOW_CFG2.RETRY_US 0) * usTicks) })

/-- EXPORT_SWEEP_VISIT (R429). The export sweep merges and exports an entry on idle or active timeout. -/
def exportSweepVisitDoes : Prop :=
  ∀ (s : State),
    ∃ t, exec .exportSweepVisit s = .next t ∧
      (∀ i e, s.ledgerOn = true → s.tel.ledger.find? (fun e => decide (s.tel.sweepNext ≤ e.1)) = some (i, e) → t.tel.sweepNext = i + 1 ∧
        ((∀ l ∈ s.tel.lines, l.2.flow.key ≠ e.flow.key) →
          (s.sweepReason e.flow e.exportAt = none → t.tel.ledger = s.tel.ledger) ∧
          (∀ r, s.sweepReason e.flow e.exportAt = some (r, true) → tabFind t.tel.ledger i = none) ∧
          (∀ r, s.sweepReason e.flow e.exportAt = some (r, false) →
            tabFind t.tel.ledger i = some { e with flow := e.flow.zeroed, exportAt := s.now }))) ∧
      (s.ledgerOn = true → s.tel.ledger.find? (fun e => decide (s.tel.sweepNext ≤ e.1)) = none → t.tel.sweepNext = 0 ∧ t.tel.approx = []) ∧
      (∀ k l, s.ledgerOn = false → s.tel.lines.find? (fun e => decide (s.tel.sweepNext ≤ e.1)) = some (k, l) → t.tel.sweepNext = k + 1 ∧
        (s.sweepReason l.flow l.exportAt = none → t.tel.lines = s.tel.lines) ∧
        (∀ r, s.sweepReason l.flow l.exportAt = some (r, true) → tabFind t.tel.lines k = none) ∧
        (∀ r, s.sweepReason l.flow l.exportAt = some (r, false) →
          tabFind t.tel.lines k = some { l with flow := l.flow.zeroed, exportAt := s.now })) ∧
      (s.ledgerOn = false → s.tel.lines.find? (fun e => decide (s.tel.sweepNext ≤ e.1)) = none → t.tel.sweepNext = 0 ∧ t.tel.approx = [])

/-- OVERFLOW_EPISODE_END (R427). No refusal for QUIET_MS ends the episode and clears OVERFLOW. -/
def overflowEpisodeEndDoes : Prop :=
  ∀ (s : State), s.get TEL.FLOW_STATUS.OVERFLOW 0 = 1 →
      s.tel.refusedAt + max 1 (s.get TEL.FLOW_CFG2.QUIET_MS 0) * msTicks ≤ s.now →
    ∃ t, exec .overflowEpisodeEnd s = .next t ∧ t.get TEL.FLOW_STATUS.OVERFLOW 0 = 0 ∧
      t.get TEL.FLOW_STATUS.OVERFLOW_SEEN 0 = s.get TEL.FLOW_STATUS.OVERFLOW_SEEN 0 ∧ t.get TEL.FLOW_COUNT.EPISODES 0 = s.get TEL.FLOW_COUNT.EPISODES 0

/-- REFUSED_LINE_RETRY (R425). After RETRY_US a refused line's flow asks again for an entry. -/
def refusedLineRetryDoes : Prop :=
  ∀ (d : RimNo) (n : Fin 65536) (l : FlowLine) (a : Nat) (s : State), tabFind s.tel.lines (65536 * d.val + n.val) = some l →
      l.refusedUntil = some a → a ≤ s.now →
    ∃ t, exec (.refusedLineRetry d n) s = .next t ∧ tabFind t.tel.lines (65536 * d.val + n.val) = none ∧
      ∀ k, k ≠ 65536 * d.val + n.val → tabFind t.tel.lines k = tabFind s.tel.lines k

/-- EXPORT_MESSAGE_CLOSE (R439). An IPFIX message is closed and sent to its ring or queue, or lost. -/
def exportMessageCloseDoes : Prop :=
  ∀ (n : TroupeNo) (s : State), s.get TEL.EXPORT_CFG.EN n = 1 → s.messageDue n = true →
    ∃ t, exec (.exportMessageClose n) s = .next t ∧
      (∀ x, x = takeRecords (s.messageMax n - 16 - (if (s.stream n).templatesAt.isNone then s.templateSet else []).length) none
          (s.stream n).records →
        t.get TEL.EXPORT_SEQ.SEQ n = (s.get TEL.EXPORT_SEQ.SEQ n + x.1.length) % 2 ^ TEL.EXPORT_SEQ.SEQ.width ∧
        (s.get TEL.EXPORT_CFG.DEST n = 0 → (t.stream n).records = x.2 ∧ (t.stream n).openedAt = s.now ∧
          (t.stream n).templatesAt = some ((s.stream n).templatesAt.getD s.now)))

/-- TEMPLATE_RESEND (R437). Every TEMPLATE_S the template sets are resent. -/
def templateResendDoes : Prop :=
  ∀ (n : TroupeNo) (a : Nat) (s : State), (s.stream n).templatesAt = some a → s.get TEL.EXPORT_CFG.EN n = 1 →
      a + max 1 (s.get TEL.EXPORT_CFG2.TEMPLATE_S n) * secTicks ≤ s.now →
    ∃ t, exec (.templateResend n) s = .next t ∧ (t.stream n).templatesAt = some s.now ∧
      (s.get TEL.EXPORT_CFG.DEST n = 0 → (t.stream n).records = (s.stream n).records) ∧
      t.get TEL.EXPORT_SEQ.SEQ n = s.get TEL.EXPORT_SEQ.SEQ n

/-- DROP_INTERVAL (R441). A drop-record interval ends and per-reason budgets restart. -/
def dropIntervalDoes : Prop :=
  ∀ (n : TroupeNo) (s : State), tabGet 0 s.tel.interval n ≠ s.now / (max 1 (s.get TEL.DROP_CFG.INTERVAL_MS n) * msTicks) →
    ∃ t, exec (.dropInterval n) s = .next t ∧ tabGet 0 t.tel.interval n = s.now / (max 1 (s.get TEL.DROP_CFG.INTERVAL_MS n) * msTicks) ∧
      t.tel.made = (s.tel.made.filter fun e => e.1 / 512 != n.val) ∧ (∀ r, r < 512 → tabGet 0 t.tel.made (512 * n.val + r) = 0)

/-- STACK_TRAINING_END (R444). An HBM stack ends training READY, retries, or FAILED after three attempts. -/
def stackTrainingEndDoes : Prop :=
  ∀ (k : Fin 2) (ok : Bool) (n : Fin 256) (s : State), s.hbmState k = hbmTraining →
    ∃ t, exec (.stackTrainingEnd k ok n) s = .next t ∧
      (if ok then t.get HBM.STATUS.LANE_REPAIRS k = n.val ∧ t.get HBM.INT_CAUSE.STACK_READY 0 = 1 ∧
          t.hbmState k = (if s.hbmUsed then hbmReady else hbmPowerDown) ∧
          (s.hbmUsed = false ∨ s.ledgerStacks.contains k.val = false → t.ready (rdyHbm k) = true)
        else if tabGet 1 s.hbm.tries k < 3 then tabGet 1 t.hbm.tries k = tabGet 1 s.hbm.tries k + 1 ∧ t.hbmState k = hbmTraining ∧
          t.get HBM.STATUS.TRAIN_ATTEMPTS k = min (s.get HBM.STATUS.TRAIN_ATTEMPTS k + 1) (2 ^ HBM.STATUS.TRAIN_ATTEMPTS.width - 1)
        else t.hbmState k = hbmFailed ∧ t.get HBM.STATUS.FAIL_SEEN k = 1 ∧ t.get HBM.INT_CAUSE.STACK_FAIL 0 = 1 ∧ t.ready (rdyHbm k) = false)

/-- HBM_RETRAIN (R447). A write of HBM.CTRL.RETRAIN restarts training of a FAILED stack. -/
def hbmRetrainDoes : Prop :=
  ∀ (v : Word) (s : State), s.hostReach 0 false = true → natBit v.toNat 1 = true → s.hbmState (bitsOf v 0 1) = hbmFailed →
    ∃ t, exec (.hbmRetrain v) s = .next t ∧ t.hbmState (bitsOf v 0 1) = hbmTraining ∧ tabGet 1 t.hbm.tries (bitsOf v 0 1) = 1 ∧
      t.get HBM.STATUS.TRAIN_ATTEMPTS (bitsOf v 0 1) =
        min (s.get HBM.STATUS.TRAIN_ATTEMPTS (bitsOf v 0 1) + 1) (2 ^ HBM.STATUS.TRAIN_ATTEMPTS.width - 1)

/-- STACK_FAIL (R447). A stack reaching FAIL_UNCORR uncorrectable words in one second fails and its spill runs are
removed. -/
def stackFailDoes : Prop :=
  ∀ (k : Fin 2) (s : State), s.hbmState k = hbmReady →
      max 1 (s.get HBM.FAIL_CFG.FAIL_UNCORR 0) ≤ ((tabGet [] s.hbm.uncorrAt k).filter fun a => decide (s.now < a + secTicks)).length →
    ∃ t, exec (.stackFail k) s = .next t ∧ t.hbmState k = hbmFailed ∧ t.get HBM.STATUS.FAIL_SEEN k = 1 ∧ t.get HBM.INT_CAUSE.STACK_FAIL 0 = 1 ∧
      t.ready (rdyHbm k) = false ∧ (s.ledgerStacks.contains k.val = true → t.hbm.ring = []) ∧
      (s.ledgerStacks.contains k.val = false → t.hbm.ring = s.hbm.ring)

/-- HBM_ACTIVATION (R448). The controller serves a request with one activation and a closed row. -/
def hbmActivationDoes : Prop :=
  ∀ (k : Fin 2) (s : State), s.hbmState k = hbmReady →
    ∃ t, exec (.hbmActivation k) s = .next t ∧ t.drawn = s.drawn + 1 ∧
      t.get HBM.NRR_CFG.ISSUED 0 = (if Config.free s.drawn % 2 ^ s.nrrLog2 = 0 then
        min (s.get HBM.NRR_CFG.ISSUED 0 + 2) (2 ^ HBM.NRR_CFG.ISSUED.width - 1) else s.get HBM.NRR_CFG.ISSUED 0)

/-- SCRUB (R453). The scrubber reads a word and writes back a correction unless newer data arrived. -/
def scrubDoes : Prop :=
  ∀ (k : Fin 2) (inError newer : Bool) (s : State), s.hbmState k = hbmReady →
    ∃ t, exec (.scrub k inError newer) s = .next t ∧
      t.get HBM.ECC.CORRECTED k = (if inError then min (s.get HBM.ECC.CORRECTED k + 1) (2 ^ HBM.ECC.CORRECTED.width - 1)
        else s.get HBM.ECC.CORRECTED k) ∧
      t.get HBM.ECC.SCRUB_FIXED k = (if inError && !newer then min (s.get HBM.ECC.SCRUB_FIXED k + 1) (2 ^ HBM.ECC.SCRUB_FIXED.width - 1)
        else s.get HBM.ECC.SCRUB_FIXED k)

/-- HBM_UNCORR (R454). An uncorrectable HBM word drops spilled frames, loses ledger data or poisons capture data. -/
def hbmUncorrDoes : Prop :=
  ∀ (k : Fin 2) (pl : HbmPlace) (a : Fin 18446744073709551616) (rep : Bool) (s : State), s.hbmState k = hbmReady →
    ∃ t, exec (.hbmUncorr k pl a rep) s = .next t ∧ t.get HBM.ECC.UNCORR k = min (s.get HBM.ECC.UNCORR k + 1) (2 ^ HBM.ECC.UNCORR.width - 1) ∧
      t.get HBM.INT_CAUSE.UNCORR 0 = 1 ∧ s.now ∈ tabGet [] t.hbm.uncorrAt k ∧
      t.get HBM.ECC.STACK_UNCORR k = (if rep then min (s.get HBM.ECC.STACK_UNCORR k + 1) (2 ^ HBM.ECC.STACK_UNCORR.width - 1)
        else s.get HBM.ECC.STACK_UNCORR k) ∧
      (∀ n, pl = .capture n → n ∈ t.hbm.poisoned) ∧
      (∀ f b, pl = .frameBytes f b → tabFind t.sw.spilled f = none ∧ blockAt k b ∈ t.hbm.lost) ∧
      (∀ f b, pl = .frameHeader f b → blockAt k b ∈ t.hbm.lost ∧ ∀ g ∈ s.runFrom f, tabFind t.sw.spilled g = none) ∧
      (∀ n i o, pl = .locator n → tabFind s.tel.locator n = some (i, o) → tabFind t.tel.ledger i = none ∧
        (tabFind s.tel.locator ((n + 1) % s.locSlots) = none → tabFind t.tel.locator n = none)) ∧
      (∀ i e, pl = .entry i → tabFind s.tel.ledger i = some e → (s.tel.updates.flatMap Prod.snd).filter (fun w => w.flow.key == e.flow.key) = [] →
        tabFind t.tel.ledger i = some { e with flow := { e.flow.zeroed with approx := true } })

/-- CAPTURE_WRITE (R465). The capture writer writes a capture queue copy as a ring record, wrapping or stalling. -/
def captureWriteDoes : Prop :=
  ∀ (q k : Nat) (c : Copy) (d : Desc) (v : Packet) (s : State), s.get HBM.CAPTURE_CFG.EN 0 = 1 → s.captureSize ≠ 0 →
      s.captureReady = true → s.captureNext = some (q, k, c) → s.desc k = some d → s.packet d.packet = some v →
    ∃ t, exec .captureWrite s = .next t ∧
      (s.staleHead q = false → s.get HBM.CAPTURE_CFG.WRAP 0 = 1 ∨ s.hbm.capWritten + 65536 ≤ s.captureSize → s.hbm.capReleased ≤ s.hbm.capWritten →
        s.get HBM.CAPTURE_STATUS.WRITE_OFF 0 + 65536 ≤ s.captureSize →
        t.hbm.lastCapture = q ∧ t.hbm.stalled = false ∧
        t.get HBM.CAPTURE_COUNT.RECORDS 0 = min (s.get HBM.CAPTURE_COUNT.RECORDS 0 + 1) (2 ^ HBM.CAPTURE_COUNT.RECORDS.width - 1) ∧
        t.queue q = (s.queue q).tail ∧
        memRead t.hbm.ring (s.get HBM.CAPTURE_STATUS.WRITE_OFF 0) 4 = leBytes d.len 2 ++ leBytes (min d.len s.capBytes) 2 ∧
        t.get HBM.CAPTURE_STATUS.WRITE_OFF 0 =
          (s.get HBM.CAPTURE_STATUS.WRITE_OFF 0 + 32 + (min d.len s.capBytes + 31) / 32 * 32) % s.captureSize) ∧
      (s.staleHead q = true → t.queue q = (s.queue q).tail ∧ t.hbm.ring = s.hbm.ring ∧
        t.get HBM.CAPTURE_COUNT.RECORDS 0 = s.get HBM.CAPTURE_COUNT.RECORDS 0) ∧
      (s.staleHead q = false → s.get HBM.CAPTURE_CFG.WRAP 0 = 0 → s.captureSize ≤ s.hbm.capWritten - s.hbm.capReleased →
        t.hbm.stalled = true ∧ t.queue q = s.queue q ∧ t.hbm.ring = s.hbm.ring ∧
        (s.hbm.stalled = false → t.get HBM.INT_CAUSE.CAPTURE_STALL 0 = 1 ∧
          t.get HBM.CAPTURE_COUNT.STALLS 0 = min (s.get HBM.CAPTURE_COUNT.STALLS 0 + 1) (2 ^ HBM.CAPTURE_COUNT.STALLS.width - 1)))

/-- CAPTURE_COPY (R468). A write of HBM.COPY_CTRL.GO starts a DMA copy from the capture ring. -/
def captureCopyDoes : Prop :=
  ∀ (fn : FnNo) (v : Word) (s : State), s.hostReach fn.val false = true → fn.val = 0 ∨ fn.val = s.get HBM.CAPTURE_CFG.TROUPE 0 →
      s.get HBM.COPY_CTRL.BUSY 0 = 0 →
    ∃ t, exec (.captureCopy ⟨fn, v⟩) s = .next t ∧ t.get HBM.COPY_CTRL.LEN 0 = bitsOf v 0 19 ∧
      t.get HBM.COPY_CTRL.BUSY 0 = b2n (natBit v.toNat 20) ∧ (natBit v.toNat 20 = true → t.hbm.copyBy = fn.val)

/-- CAPTURE_COPY_DONE (R468). A copy-engine request ends with its STATUS and COPY_DONE. -/
def captureCopyDoneDoes : Prop :=
  ∀ (dmaError : Bool) (s : State), s.get HBM.COPY_CTRL.BUSY 0 = 1 →
    ∃ t, exec (.captureCopyDone dmaError) s = .next t ∧ t.get HBM.COPY_CTRL.BUSY 0 = 0 ∧ t.get HBM.INT_CAUSE.COPY_DONE 0 = 1 ∧
      (if s.captureReady = false then t.get HBM.COPY_CTRL.STATUS 0 = 3 ∧ t.get HBM.COPY_CTRL.POISONED 0 = 0
        else if s.captureSize < s.get HBM.COPY_OFF.OFF 0 * 64 + s.copyLen * 64 then
          t.get HBM.COPY_CTRL.STATUS 0 = 1 ∧ t.get HBM.COPY_CTRL.POISONED 0 = 0
        else if dmaError = true ∨ s.busMaster s.hbm.copyBy = false then
          t.get HBM.COPY_CTRL.STATUS 0 = 2 ∧ t.get HBM.COPY_CTRL.POISONED 0 = 0
        else t.get HBM.COPY_CTRL.STATUS 0 = 0 ∧
          (s.hbm.poisoned = [] → t.get HBM.COPY_CTRL.POISONED 0 = 0 ∧
            .dma (s.get HBM.COPY_ADDR.ADDR 0 * 64) (memRead s.hbm.ring (s.get HBM.COPY_OFF.OFF 0 * 64) (s.copyLen * 64)) ∈ t.out) ∧
          (∀ w, s.hbm.poisoned = [w] → s.get HBM.COPY_OFF.OFF 0 * 4 ≤ w → w < (s.get HBM.COPY_OFF.OFF 0 + s.copyLen) * 4 →
            t.get HBM.COPY_CTRL.POISONED 0 = 1))

/-- CADENCE_SET_WRITE (R473). A write of PACE.CADENCE_SET sets the mode and setpoint and a new target Ce. -/
def cadenceSetWriteDoes : Prop :=
  ∀ (v : Word) (s : State), s.hostReach 0 false = true →
    ∃ t, exec (.cadenceSetWrite v) s = .next t ∧ t.get PACE.CADENCE_SET.SETPOINT_MHZ 0 = bitsOf v 0 12 ∧ t.get PACE.CADENCE_SET.MODE 0 = bitsOf v 16 2 ∧
      t.get PACE.STATUS.MODE 0 = bitsOf v 16 2 ∧ t.get PACE.STATUS.EFFECTIVE_MHZ 0 ≤ clampN 500 2800 (bitsOf v 0 12) ∧
      t.get PACE.STATUS.EFFECTIVE_MHZ 0 ≤ modeCeiling (bitsOf v 16 2) ∧
      (bitsOf v 16 2 = s.paceMode → ∀ d, d < 5 → t.volt d = s.volt d ∧ t.dom d = s.dom d) ∧
      (bitsOf v 16 2 ≠ s.paceMode → bitsOf v 16 2 ≠ 3 → ∀ d, d < 5 → (t.dom d).idled = false ∧
        ((s.dom d).idled = true → (t.dom d).waking = true) ∧ (t.dom d).base = clampN (t.railRange d).1 (t.railRange d).2 (s.dom d).base)

/-- CADENCE_WINDOW (R471). Each 1 µs window measures the actual cadence of each domain. -/
def cadenceWindowDoes : Prop :=
  ∀ (caps : List Nat) (q : Fin 4096) (s : State), s.pace.windowAt + usTicks ≤ s.now →
    ∃ t, exec (.cadenceWindow caps q) s = .next t ∧ t.pace.windowAt = s.now ∧ t.pace.quadTokens = 0 ∧
      (∀ d, d < 5 → t.get PACE.DOMAIN_STATUS.CAP_MHZ d = (caps[d]?).getD 0 % 2 ^ PACE.DOMAIN_STATUS.CAP_MHZ.width) ∧
      (∀ d, d < 4 → t.get PACE.DOMAIN_STATUS.ACTUAL_MHZ d = s.dieCadence d % 2 ^ PACE.DOMAIN_STATUS.ACTUAL_MHZ.width) ∧
      t.get PACE.DOMAIN_STATUS.ACTUAL_MHZ 4 = s.windowRate (min q.val s.pace.quadTokens) % 2 ^ PACE.DOMAIN_STATUS.ACTUAL_MHZ.width ∧
      (∀ p, p < 32 → (t.pipe p).launches = 0) ∧
      (s.pace.changed = false → s.get PACE.STATUS.EFFECTIVE_MHZ 0 ≠ 0 → ∀ d, d < 5 → (s.dom d).waking = false →
        t.get PACE.DOMAIN_STATUS.ACTUAL_MHZ d * 100 < s.get PACE.STATUS.EFFECTIVE_MHZ 0 * 99 →
        (t.dom d).lag = some (t.get PACE.DOMAIN_STATUS.ACTUAL_MHZ d) ∧ t.get PACE.DOMAIN_STATUS.LAG d = 1 ∧ t.get PACE.INT_CAUSE.CAD_DROP 0 = 1) ∧
      (s.paceMode ≠ 0 → s.get PACE.STATUS.EFFECTIVE_MHZ 0 < min s.setpoint (modeCeiling s.paceMode) →
        t.get PACE.COUNT.SHORT_US 0 =
          min (s.get PACE.COUNT.SHORT_US 0 + (s.now - s.pace.windowAt) / usTicks) (2 ^ PACE.COUNT.SHORT_US.width - 1))

/-- LAG_RECOVER (R472). A lag limit is lifted after CAP_MHZ has covered Ce for RECOVER_US. -/
def lagRecoverDoes : Prop :=
  ∀ (d : Fin 5) (a b : Nat) (s : State), (s.dom d).lag = some a → (s.dom d).coveredSince = some b →
      b + max 1 (s.get PACE.AVS_CFG.RECOVER_US 0) * usTicks ≤ s.now →
    ∃ t, exec (.lagRecover d) s = .next t ∧ (t.dom d).lag = none ∧ t.get PACE.DOMAIN_STATUS.LAG d = 0 ∧
      ∀ e, e ≠ d.val → t.dom e = s.dom e ∧ t.get PACE.DOMAIN_STATUS.LAG e = s.get PACE.DOMAIN_STATUS.LAG e

/-- RAIL_ADJUST (R480). Every 100 µs or at a target change the governor raises, lowers or sets each core rail. -/
def railAdjustDoes : Prop :=
  ∀ (ans : BitVec 5) (s : State), (s.pace.moved = true ∨ s.pace.adjustAt + 100 * usTicks ≤ s.now) →
    ∃ t, exec (.railAdjust ans) s = .next t ∧ t.pace.adjustAt = s.now ∧
      (∀ d, d < 5 → (s.dom d).frozen = true → t.dom d = s.dom d ∧ t.volt d = s.volt d) ∧
      (∀ d, d < 5 → (s.dom d).frozen = false → (t.dom d).fails = (if natBit ans.toNat d then 0 else (s.dom d).fails + 1)) ∧
      (∀ d, d < 5 → (s.dom d).frozen = false → natBit ans.toNat d = true → s.pace.moved = true →
        (t.dom d).base = clampN (s.railRange d).1 (s.railRange d).2 ((Config.fusedMv d s.pace.goal + 4) / 5 * 5)) ∧
      (∀ d, d < 5 → (s.dom d).frozen = false → natBit ans.toNat d = true → s.pace.moved = false → s.paceMode ≠ 0 → s.volt d = s.railWant d →
        s.cap d * 100 < s.wanted * (100 + s.guardPct) →
        (t.dom d).base = clampN (s.railRange d).1 (s.railRange d).2 ((s.dom d).base + 10)) ∧
      (∀ d, d < 5 → (s.dom d).frozen = false → natBit ans.toNat d = true → s.pace.moved = false → s.paceMode ≠ 0 → s.volt d = s.railWant d →
        s.wanted * (100 + 2 * s.guardPct) ≤ s.cap d * 100 → s.lowerBlocked d = false →
        (t.dom d).base = clampN (s.railRange d).1 (s.railRange d).2 ((s.dom d).base - 5))

/-- RAMP_START (R483). After rails reach their voltage and SETTLE_US, Ce starts rising at RAMP_MHZ_US. -/
def rampStartDoes : Prop :=
  ∀ (a : Nat) (s : State), s.pace.rampAt = none → s.pace.reached < s.pace.goal → s.pace.moved = false → s.pace.droopAt = none →
      a + s.get PACE.AVS_CFG.SETTLE_US 0 * usTicks ≤ s.now →
    ∃ t, exec (.rampStart a) s = .next t ∧ t.get PACE.STATUS.RAMPING 0 = b2n t.pace.rampAt.isSome ∧
      (s.pace.running = true → s.railFaultLimit = none → leastOf s.limits04 = some s.pace.goal →
        t.pace.rampAt = some s.now ∧ t.pace.goal = s.pace.goal ∧ t.pace.reached = s.pace.reached) ∧
      (s.pace.running = true → s.railFaultLimit = none → leastOf s.limits04 = some s.pace.reached →
        t.pace.rampAt = none ∧ t.pace.goal = s.pace.reached)

/-- RAMP_END (R483). A ramp reaches its target Ce. -/
def rampEndDoes : Prop :=
  ∀ (a : Nat) (s : State), s.pace.rampAt = some a → s.rampValue = s.pace.goal →
    ∃ t, exec .rampEnd s = .next t ∧ t.pace.rampAt = none ∧ t.get PACE.STATUS.RAMPING 0 = 0 ∧
      (s.pace.running = true → s.railFaultLimit = none → leastOf s.limits04 = some s.pace.goal →
        t.pace.reached = s.pace.goal ∧ t.pace.goal = s.pace.goal)

/-- DROOP_DETECT (R485). A droop detector fires and the pace drops to (16 − STEP)/16 within 5 ns. -/
def droopDetectDoes : Prop :=
  ∀ (d : Fin 5) (s : State),
    ∃ t, exec (.droopDetect d) s = .next t ∧ (t.dom d).droops = (s.dom d).droops + 1 ∧
      t.pace.droopAt = some (s.pace.droopAt.getD s.now) ∧ natBit t.pace.droopFired d = true ∧ t.get PACE.STATUS.DROOP_RESP 0 = 1 ∧
      natBit (t.get PACE.DROOP_STATUS.ACTIVE 0) d = true ∧ natBit (t.get PACE.DROOP_STATUS.LOWER_BLOCKED 0) d = true ∧
      t.get PACE.COUNT.DROOP_EVENTS 0 = (if s.pace.droopAt.isSome then s.get PACE.COUNT.DROOP_EVENTS 0
        else min (s.get PACE.COUNT.DROOP_EVENTS 0 + 1) (2 ^ PACE.COUNT.DROOP_EVENTS.width - 1))

/-- DROOP_CLEAR (R485). A droop detector clears. -/
def droopClearDoes : Prop :=
  ∀ (d : Fin 5) (s : State), (s.dom d).droops ≠ 0 →
    ∃ t, exec (.droopClear d) s = .next t ∧ (t.dom d).droops = (s.dom d).droops - 1 ∧ (t.dom d).clearedAt = some s.now ∧
      natBit (t.get PACE.DROOP_STATUS.ACTIVE 0) d = decide (1 < (s.dom d).droops) ∧
      natBit (t.get PACE.DROOP_STATUS.LOWER_BLOCKED 0) d = true ∧ t.pace.droopAt = s.pace.droopAt

/-- DROOP_RESPONSE_END (R485). 2 µs after the last detector clears the droop response ends and a long-droop record may be
written. -/
def droopResponseEndDoes : Prop :=
  ∀ (a : Nat) (s : State), s.pace.droopAt = some a → s.droopOver = true →
    ∃ t, exec .droopResponseEnd s = .next t ∧ t.pace.droopAt = none ∧ t.pace.droopFired = 0 ∧ t.get PACE.STATUS.DROOP_RESP 0 = 0 ∧
      t.get PACE.DROOP_STATUS.LOWER_BLOCKED 0 = 0

/-- DROOP_LONG (R487). A droop response passing LONG_US sets LONG_SEEN and raises DROOP_LONG. -/
def droopLongDoes : Prop :=
  ∀ (s : State), s.droopIsLong = true → s.pace.droopLong = false →
    ∃ t, exec .droopLong s = .next t ∧ t.pace.droopLong = true ∧ t.get PACE.DROOP_STATUS.LONG_SEEN 0 = 1 ∧ t.get PACE.INT_CAUSE.DROOP_LONG 0 = 1 ∧
      t.pace.droopAt = s.pace.droopAt

/-- THERMAL_SAMPLE (R488). Every 20 µs the hottest sensor may raise the throttle level and its limit. -/
def thermalSampleDoes : Prop :=
  ∀ (temps : List Int) (h : Nat × Nat) (s : State), s.pace.sampledAt + 20 * usTicks ≤ s.now →
      h = hottest ((List.range 256).map fun i => (i, min 255 ((temps[i]?).getD 0).toNat)) →
    ∃ t, exec (.thermalSample temps) s = .next t ∧ t.pace.sampledAt = s.now ∧
      t.get PACE.THERMAL_STATUS.HOTTEST_C 0 = h.2 ∧ t.get PACE.THERMAL_STATUS.HOTTEST_SENSOR 0 = h.1 ∧
      t.get PACE.THERMAL_STATUS.LEVEL 0 = max (s.get PACE.THERMAL_STATUS.LEVEL 0) (s.levelAt h.2) ∧
      (s.get PACE.THERMAL_STATUS.LEVEL 0 < s.levelAt h.2 → t.get PACE.THERMAL_STATUS.LEVEL_SEEN 0 = 1 ∧ t.get PACE.INT_CAUSE.THROTTLE 0 = 1 ∧
        t.get PACE.STATUS.THROTTLE_LEVEL 0 = s.levelAt h.2) ∧
      (s.get PACE.THERMAL_STATUS.LEVEL 0 < 4 → s.levelAt h.2 = 4 → t.get PACE.THERMAL_STATUS.TRIP 0 = 1 ∧ t.pkg.trip = true ∧
        t.get PACE.STATUS.EFFECTIVE_MHZ 0 = 0 ∧ t.get PACE.INT_CAUSE.TRIP 0 = 1 ∧ .pin "THERMTRIP_N" 0 ∈ t.out) ∧
      (∀ k, k < 32 → t.reg .PACE_TEMP k = ofLe ((List.range 8).map fun j => BitVec.ofNat 8 (min 255 ((temps[8 * k + j]?).getD 0).toNat)))

/-- THROTTLE_FALL (R488). After EXIT_MS below threshold less HYST_C the level falls by one. -/
def throttleFallDoes : Prop :=
  ∀ (a : Nat) (s : State), s.pace.coolSince = some a → s.get PACE.THERMAL_STATUS.LEVEL 0 ≠ 0 → s.get PACE.THERMAL_STATUS.LEVEL 0 ≠ 4 →
      a + max 1 (s.get PACE.THERMAL_CFG.EXIT_MS 0) * msTicks ≤ s.now →
    ∃ t, exec .throttleFall s = .next t ∧ t.get PACE.THERMAL_STATUS.LEVEL 0 = s.get PACE.THERMAL_STATUS.LEVEL 0 - 1 ∧
      t.get PACE.STATUS.THROTTLE_LEVEL 0 = s.get PACE.THERMAL_STATUS.LEVEL 0 - 1 ∧
      t.pace.coolSince = (if s.coolFor (s.get PACE.THERMAL_STATUS.LEVEL 0 - 1) (s.get PACE.THERMAL_STATUS.HOTTEST_C 0) then some s.now else none)

/-- RAIL_FAULT (R482). Three AVSBus failures or a regulator fault freeze the rail, set the RAIL_FAULT limit and write a
record. -/
def railFaultDoes : Prop :=
  ∀ (r : Fin 9) (s : State),
      (r.val < 5 → (s.dom (regDomain r)).frozen = false ∧ (s.get PACE.RAIL_STATUS.PMBUS_FAULT r = 1 ∨ 3 ≤ (s.dom (regDomain r)).fails)) →
      (5 ≤ r.val → s.get PACE.RAIL_STATUS.PMBUS_FAULT r = 1 ∧ r.val ∉ s.pace.otherFaults) →
    ∃ t, exec (.railFault r) s = .next t ∧ t.get PACE.RAIL_STATUS.FAULT_SEEN r = 1 ∧ t.get PACE.INT_CAUSE.RAIL_FAULT 0 = 1 ∧
      (if r.val < 5 then (t.dom (regDomain r)).frozen = true ∧ (t.dom (regDomain r)).retryAt = s.now ∧
          (3 ≤ (s.dom (regDomain r)).fails → t.get PACE.RAIL_STATUS.AVS_FAULT r = 1) ∧ t.volt (regDomain r) = s.volt (regDomain r)
        else r.val ∈ t.pace.otherFaults ∧ t.pace.domains = s.pace.domains)

/-- RAIL_RETRY (R482). Every 1 ms a faulted rail is retried and the limit lifted after 10 ms of good retries. -/
def railRetryDoes : Prop :=
  ∀ (r : Fin 5) (good : Bool) (s : State), (s.dom (regDomain r)).frozen = true → (s.dom (regDomain r)).retryAt + msTicks ≤ s.now →
    ∃ t, exec (.railRetry r good) s = .next t ∧ (t.dom (regDomain r)).retryAt = s.now ∧
      (good = false → (t.dom (regDomain r)).frozen = true ∧ (t.dom (regDomain r)).goodSince = none) ∧
      (good = true → (s.dom (regDomain r)).goodSince = none →
        (t.dom (regDomain r)).frozen = true ∧ (t.dom (regDomain r)).goodSince = some s.now) ∧
      (∀ b, good = true → (s.dom (regDomain r)).goodSince = some b → s.now < b + 10 * msTicks →
        (t.dom (regDomain r)).frozen = true ∧ (t.dom (regDomain r)).goodSince = some b) ∧
      (∀ b, good = true → (s.dom (regDomain r)).goodSince = some b → b + 10 * msTicks ≤ s.now →
        (t.dom (regDomain r)).frozen = false ∧ (t.dom (regDomain r)).fails = 0 ∧ t.get PACE.RAIL_STATUS.AVS_FAULT r = 0 ∧
          t.get PACE.RAIL_STATUS.PMBUS_FAULT r = 0 ∧ t.pace.moved = true)

/-- PMBUS_MEASURE (R481). Every MEAS_MS the regulators are read and measured energy and UNATTR updated. -/
def pmbusMeasureDoes : Prop :=
  ∀ (rs : List RailReading) (s : State), clampN 1 100 (s.get PACE.ENERGY_CFG.MEAS_MS 0) * msTicks ≤ s.now - s.pace.measuredAt →
    ∃ t, exec (.pmbusMeasure rs) s = .next t ∧ t.pace.measuredAt = s.now ∧
      (∀ r v, r < 9 → rs[r]? = some v → s.get PACE.RAIL_CFG.PMBUS_EN r = 1 →
        t.get PACE.RAIL_STATUS.VOUT_MV r = v.vout.val % 2 ^ PACE.RAIL_STATUS.VOUT_MV.width ∧
        t.get PACE.RAIL_STATUS.POUT_W r = v.pout.val % 2 ^ PACE.RAIL_STATUS.POUT_W.width ∧
        t.get PACE.RAIL_STATUS.PMBUS_FAULT r = b2n v.fault) ∧
      (∀ r, r < 9 → s.get PACE.RAIL_CFG.PMBUS_EN r = 0 → t.get PACE.RAIL_STATUS.POUT_W r = s.get PACE.RAIL_STATUS.POUT_W r) ∧
      (∀ g, g < 7 → t.energyAt (accMeasured g) = s.energyAt (accMeasured g) +
        (((groupRegs g).map fun r => s.get PACE.RAIL_STATUS.POUT_W r).foldl (· + ·) 0 +
          ((groupRegs g).map fun r => t.get PACE.RAIL_STATUS.POUT_W r).foldl (· + ·) 0) * (s.now - s.pace.measuredAt) * 25000 * energyUnit) ∧
      ∀ n, 0 < n → n < 64 → t.get WIN.STATE.PKG_POWER_W n =
        ((List.range 9).map fun r => t.get PACE.RAIL_STATUS.POUT_W r).foldl (· + ·) 0 % 2 ^ WIN.STATE.PKG_POWER_W.width

/-- ENERGY_TICK (R497). Every 10 µs the energy model adds dynamic and static energy per group. -/
def energyTickDoes : Prop :=
  ∀ (s : State), s.pace.tickAt + 10 * usTicks ≤ s.now →
    ∃ t, exec .energyTick s = .next t ∧ t.pace.tickAt = s.now ∧ t.pace.acts = [] ∧
      (s.pace.acts = [] → s.image.ports = [] → ∀ g, g < 7 →
        t.energyAt (accShared g) = s.energyAt (accShared g) + s.staticEnergy g ∧
        t.energyAt (accModelled g) = s.energyAt (accModelled g) + s.staticEnergy g) ∧
      (∀ a g h n, s.pace.acts = [a] → s.image.ports = [] → a.troupe = some n → n < 64 → eventGroups a.kind a.die = [(g, h)] →
        t.energyAt (accTroupe n) = s.energyAt (accTroupe n) + s.eventEnergy a.kind g h a.count ∧
        t.get PACE.ENERGY_TROUPE.UJ n = t.energyAt (accTroupe n) / unitsPerUj % 2 ^ PACE.ENERGY_TROUPE.UJ.width)

/-- PHASE_BOOST_START (R494). LEAD_NS before a predicted burst or gate opening, rails are boosted. -/
def phaseBoostStartDoes : Prop :=
  ∀ (b : BoostBy) (s : State), s.boostDue b = true → b ∉ s.pace.boosts →
    ∃ t, exec (.phaseBoostStart b) s = .next t ∧ t.pace.boosts = b :: s.pace.boosts ∧
      ∀ d, d < 5 → s.get PACE.THERMAL_STATUS.LEVEL 0 ≠ 4 → (s.dom d).frozen = false →
        s.volt d ≤ min (s.railRange d).2 ((s.dom d).base + min 50 (s.get PACE.PHASE_CFG.BOOST_MV 0)) →
        t.volt d = min (s.railRange d).2 ((s.dom d).base + min 50 (s.get PACE.PHASE_CFG.BOOST_MV 0))

/-- PHASE_BOOST_END (R494). A boost ends and its lowering follows the droop rules. -/
def phaseBoostEndDoes : Prop :=
  ∀ (b : BoostBy) (s : State), s.boostDue b = false → b ∈ s.pace.boosts →
    ∃ t, exec (.phaseBoostEnd b) s = .next t ∧ t.pace.boosts = s.pace.boosts.filter (· != b) ∧
      (s.pace.boosts = [b] → s.get PACE.THERMAL_STATUS.LEVEL 0 ≠ 4 → ∀ d, d < 5 → (s.dom d).frozen = false → (s.dom d).idled = false →
        (s.lowerBlocked d = false → t.volt d = (s.dom d).base % 2 ^ PACE.DOMAIN_STATUS.VOLT_MV.width) ∧
        (s.lowerBlocked d = true → (s.dom d).base < s.volt d → t.volt d = s.volt d))

/-- PHASE_EVALUATE (R496). A prediction is judged hit or miss, retiring the entry at MISS_LIMIT misses. -/
def phaseEvaluateDoes : Prop :=
  ∀ (i : Fin 16) (k : Int) (s : State), s.get PACE.PHASE_A.VALID i = 1 → s.get PACE.PHASE_A.PERIOD_NS i ≠ 0 →
      k = (s.phaseNow i - s.get PACE.PHASE_C.DURATION_NS i - s.get PACE.PHASE_B.OFFSET_NS i) / s.get PACE.PHASE_A.PERIOD_NS i →
      tabFind s.pace.judged i ≠ some k →
    ∃ t, exec (.phaseEvaluate i) s = .next t ∧ tabFind t.pace.judged i = some k ∧
      (2 * s.headsIn i (s.phaseAt i k - s.get PACE.PHASE_B.LEAD_NS i - s.get PACE.PHASE_C.DURATION_NS i)
            (s.phaseAt i k - s.get PACE.PHASE_B.LEAD_NS i) ≤
          s.headsIn i (s.phaseAt i k) (s.phaseAt i k + s.get PACE.PHASE_C.DURATION_NS i) →
        t.get PACE.PHASE_D.MISSES i = 0 ∧ t.get PACE.PHASE_D.HITS i = min (s.get PACE.PHASE_D.HITS i + 1) (2 ^ PACE.PHASE_D.HITS.width - 1) ∧
        t.get PACE.PHASE_A.VALID i = 1) ∧
      (s.headsIn i (s.phaseAt i k) (s.phaseAt i k + s.get PACE.PHASE_C.DURATION_NS i) <
          2 * s.headsIn i (s.phaseAt i k - s.get PACE.PHASE_B.LEAD_NS i - s.get PACE.PHASE_C.DURATION_NS i)
            (s.phaseAt i k - s.get PACE.PHASE_B.LEAD_NS i) →
        t.get PACE.PHASE_D.MISSES i = min (s.get PACE.PHASE_D.MISSES i + 1) (2 ^ PACE.PHASE_D.MISSES.width - 1) ∧
        (max 1 (s.get PACE.PHASE_CFG.MISS_LIMIT 0) ≤ t.get PACE.PHASE_D.MISSES i →
          t.get PACE.PHASE_A.VALID i = 0 ∧ t.get PACE.PHASE_D.RETIRED i = 1 ∧ t.get PACE.INT_CAUSE.PHASE_RETIRED 0 = 1) ∧
        (t.get PACE.PHASE_D.MISSES i < max 1 (s.get PACE.PHASE_CFG.MISS_LIMIT 0) → t.get PACE.PHASE_A.VALID i = 1))

/-- ADVISORY_SEND (R500). A qualifying slowing or its end sends a SLOW or CLEAR advisory on ADV_PORTS. -/
def advisorySendDoes : Prop :=
  ∀ (s : State),
    ∃ t, exec .advisorySend s = .next t ∧
      (∀ a, s.slowing = some a → s.pace.sent ≠ some a →
        t.pace.sent = some a ∧ t.pace.sentAt = s.now ∧ t.pace.seq = s.pace.seq + 1 ∧ t.pace.clears = 0 ∧
        ∀ p ∈ s.image.ports, natBit (s.reg .PACE_ADV_PORTS (p.port / 64)) (p.port % 64) = true → s.laneL425 p.port = true →
          .advisory p.port (State.advisoryBytes { s with pace := { s.pace with seq := s.pace.seq + 1 } } a) ∈ t.out) ∧
      (∀ b, s.slowing = none → s.pace.sent = some b → b.kind = 0 → s.get PACE.PELOTON_CFG.SEND_EN 0 = 1 →
        t.pace.sent = some { kind := 1, ce := s.get PACE.STATUS.EFFECTIVE_MHZ 0, cause := 0 } ∧ t.pace.sentAt = s.now ∧
        t.pace.seq = s.pace.seq + 1 ∧ t.pace.clears = 2)

/-- ADVISORY_REFRESH (R500). Every REFRESH_US a lasting SLOW advisory, or a pending CLEAR, is resent. -/
def advisoryRefreshDoes : Prop :=
  ∀ (a : Advisory) (s : State), s.pace.sent = some a → s.get PACE.PELOTON_CFG.SEND_EN 0 = 1 →
      s.pace.sentAt + s.refreshAdvUs * usTicks ≤ s.now →
    ∃ t, exec .advisoryRefresh s = .next t ∧ t.pace.seq = s.pace.seq ∧ t.pace.sent = some a ∧
      (a.kind = 0 → s.slowing = some a → t.pace.sentAt = s.now ∧
        ∀ p ∈ s.image.ports, natBit (s.reg .PACE_ADV_PORTS (p.port / 64)) (p.port % 64) = true → s.laneL425 p.port = true →
          .advisory p.port (s.advisoryBytes a) ∈ t.out) ∧
      (a.kind ≠ 0 → s.pace.clears ≠ 0 → t.pace.sentAt = s.now ∧ t.pace.clears = s.pace.clears - 1) ∧
      (a.kind ≠ 0 → s.pace.clears = 0 → t.pace.sentAt = s.pace.sentAt ∧ t.out = s.out)

/-- ADVISORY_RX (R503). An advisory received as L425 control blocks is accepted or rejected and updates the sender's
entry. -/
def advisoryRxDoes : Prop :=
  ∀ (x : PortNo) (bs : List Byte) (s : State), s.laneL425 x = true →
    ∃ t, exec (.advisoryRx x bs) s = .next t ∧
      (bs.length = 12 → ((bs[0]?).getD 0).toNat % 16 = 1 →
        ofLe ((bs.drop 10).take 2) = crc16 0xFFFF (bs.take 10) → ((bs[1]?).getD 0).toNat = s.get PACE.PELOTON_CFG.GROUP_ID 0 →
        ((bs[2]?).getD 0).toNat % 64 ≠ s.get PACE.PELOTON_CFG.MEMBER_ID 0 →
        t.get PACE.FOLLOW_STATUS.ADV_RX 0 = min (s.get PACE.FOLLOW_STATUS.ADV_RX 0 + 1) (2 ^ PACE.FOLLOW_STATUS.ADV_RX.width - 1) ∧
        t.reg .PACE_ADV_LAST 0 = ofLe (bs.take 8) ∧ t.get PACE.ADV_LAST2.PORT 0 = x.val ∧ t.get PACE.ADV_LAST2.VIA_HOST 0 = 0 ∧
        t.get PACE.INT_CAUSE.ADV_RX 0 = 1 ∧
        (((bs[0]?).getD 0).toNat / 16 = 0 → tabFind t.pace.senders (((bs[2]?).getD 0).toNat % 64) =
          some { ce := (((bs[4]?).getD 0).toNat + 256 * ((bs[5]?).getD 0).toNat) % 4096,
                 refreshUs := ((bs[8]?).getD 0).toNat + 256 * ((bs[9]?).getD 0).toNat, setAt := s.now }) ∧
        (((bs[0]?).getD 0).toNat / 16 = 1 → tabFind t.pace.senders (((bs[2]?).getD 0).toNat % 64) = none)) ∧
      (ofLe ((bs.drop 10).take 2) ≠ crc16 0xFFFF (bs.take 10) ∨ ((bs[1]?).getD 0).toNat ≠ s.get PACE.PELOTON_CFG.GROUP_ID 0 ∨
          ((bs[2]?).getD 0).toNat % 64 = s.get PACE.PELOTON_CFG.MEMBER_ID 0 →
        t.get PACE.FOLLOW_STATUS.ADV_REJECT 0 = min (s.get PACE.FOLLOW_STATUS.ADV_REJECT 0 + 1) (2 ^ PACE.FOLLOW_STATUS.ADV_REJECT.width - 1) ∧
        t.pace.senders = s.pace.senders ∧ t.get PACE.FOLLOW_STATUS.ADV_RX 0 = s.get PACE.FOLLOW_STATUS.ADV_RX 0)

/-- ADV_INJECT (R503). A write of PACE.ADV_INJECT2 after ADV_INJECT delivers a host advisory. -/
def advInjectDoes : Prop :=
  ∀ (v : Word) (bs : List Byte) (s : State), s.hostReach 0 false = true →
      bs = leBytes (s.reg .PACE_ADV_INJECT 0) 8 ++ leBytes (bitsOf v 0 32) 4 →
    ∃ t, exec (.advInject v) s = .next t ∧ t.get PACE.ADV_INJECT2.BYTES_HI 0 = bitsOf v 0 32 ∧
      (bs.length = 12 → ((bs[0]?).getD 0).toNat % 16 = 1 →
        ofLe ((bs.drop 10).take 2) = crc16 0xFFFF (bs.take 10) → ((bs[1]?).getD 0).toNat = s.get PACE.PELOTON_CFG.GROUP_ID 0 →
        ((bs[2]?).getD 0).toNat % 64 ≠ s.get PACE.PELOTON_CFG.MEMBER_ID 0 →
        t.get PACE.FOLLOW_STATUS.ADV_RX 0 = min (s.get PACE.FOLLOW_STATUS.ADV_RX 0 + 1) (2 ^ PACE.FOLLOW_STATUS.ADV_RX.width - 1) ∧
        t.reg .PACE_ADV_LAST 0 = ofLe (bs.take 8) ∧ t.get PACE.ADV_LAST2.PORT 0 = 0 ∧ t.get PACE.ADV_LAST2.VIA_HOST 0 = 1 ∧
        t.get PACE.INT_CAUSE.ADV_RX 0 = 1 ∧
        (((bs[0]?).getD 0).toNat / 16 = 0 → tabFind t.pace.senders (((bs[2]?).getD 0).toNat % 64) =
          some { ce := (((bs[4]?).getD 0).toNat + 256 * ((bs[5]?).getD 0).toNat) % 4096,
                 refreshUs := ((bs[8]?).getD 0).toNat + 256 * ((bs[9]?).getD 0).toNat, setAt := s.now }) ∧
        (((bs[0]?).getD 0).toNat / 16 = 1 → tabFind t.pace.senders (((bs[2]?).getD 0).toNat % 64) = none)) ∧
      (ofLe ((bs.drop 10).take 2) ≠ crc16 0xFFFF (bs.take 10) ∨ ((bs[1]?).getD 0).toNat ≠ s.get PACE.PELOTON_CFG.GROUP_ID 0 ∨
          ((bs[2]?).getD 0).toNat % 64 = s.get PACE.PELOTON_CFG.MEMBER_ID 0 →
        t.get PACE.FOLLOW_STATUS.ADV_REJECT 0 = min (s.get PACE.FOLLOW_STATUS.ADV_REJECT 0 + 1) (2 ^ PACE.FOLLOW_STATUS.ADV_REJECT.width - 1) ∧
        t.pace.senders = s.pace.senders ∧ t.get PACE.FOLLOW_STATUS.ADV_RX 0 = s.get PACE.FOLLOW_STATUS.ADV_RX 0)

/-- ADVISORY_EXPIRY (R504). A sender entry not refreshed for 4 × its REFRESH_US expires. -/
def advisoryExpiryDoes : Prop :=
  ∀ (m : Fin 64) (e : Sender) (s : State), tabFind s.pace.senders m = some e → e.setAt + 4 * e.refreshUs * usTicks < s.now →
    ∃ t, exec (.advisoryExpiry m) s = .next t ∧ tabFind t.pace.senders m = none ∧
      ∀ k, k ≠ m.val → tabFind t.pace.senders k = tabFind s.pace.senders k

/-- FREEWHEEL_IDLE (R478). A rim die without tokens for IDLE_US has its rail lowered to IDLE_MV. -/
def freewheelIdleDoes : Prop :=
  ∀ (d : RimNo) (s : State), s.paceMode = 3 → (s.dom d).idled = false →
      (∀ p ∈ diePipes d, s.paced p = false ∧ (s.pipe p).idleSince + max 1 (s.get PACE.FREEWHEEL_CFG.IDLE_US 0) * usTicks ≤ s.now) →
    ∃ t, exec (.freewheelIdle d) s = .next t ∧ (t.dom d).idled = true ∧
      (s.get PACE.THERMAL_STATUS.LEVEL 0 ≠ 4 → (s.dom d).frozen = false → s.lowerBlocked d = false →
        t.volt d = max (clampN 700 760 (s.get PACE.FREEWHEEL_CFG.IDLE_MV 0)) (clampN 700 850 (s.get PACE.RAIL_CFG.VMIN_MV (domainReg d)))) ∧
      ∀ e, e ≠ d.val → t.dom e = s.dom e ∧ t.volt e = s.volt e

/-- FREEWHEEL_WAKE (R478). A head at an idled die limits Ce by its capability while its rail rises. -/
def freewheelWakeDoes : Prop :=
  ∀ (d : RimNo) (p : Nat) (s : State), (s.dom d).idled = true → p ∈ diePipes d → s.pipeEmpty p = false →
    ∃ t, exec (.freewheelWake d) s = .next t ∧ (t.dom d).idled = false ∧ (t.dom d).waking = true ∧
      (s.get PACE.THERMAL_STATUS.LEVEL 0 ≠ 4 → s.pace.boosts = [] → (s.dom d).frozen = false → s.volt d ≤ (s.dom d).base →
        t.volt d = (s.dom d).base % 2 ^ PACE.DOMAIN_STATUS.VOLT_MV.width) ∧
      ∀ e, e ≠ d.val → t.dom e = s.dom e ∧ t.volt e = s.volt e

/-- GOVERNOR_READY (R484). Once regulators are read and capability covers the target, pace tokens start and GOVERNOR sets. -/
def governorReadyDoes : Prop :=
  ∀ (caps : List Nat) (s : State), s.pace.running = false →
    ∃ t, exec (.governorReady caps) s = .next t ∧
      (∀ d, d < 5 → t.get PACE.DOMAIN_STATUS.CAP_MHZ d = (caps[d]?).getD 0 % 2 ^ PACE.DOMAIN_STATUS.CAP_MHZ.width) ∧
      ((∀ d, d < 5 → min s.setpoint 2520 ≤ (caps[d]?).getD 0 % 2 ^ PACE.DOMAIN_STATUS.CAP_MHZ.width ∨ (s.railRange d).2 ≤ s.volt d) →
        t.pace.running = true ∧ t.ready rdyGovernor = true ∧ t.pace.windowAt = s.now) ∧
      (∀ d, d < 5 → (caps[d]?).getD 0 % 2 ^ PACE.DOMAIN_STATUS.CAP_MHZ.width < min s.setpoint 2520 → s.volt d < (s.railRange d).2 →
        t.pace.running = false ∧ t.ready rdyGovernor = s.ready rdyGovernor)

/-- AVS_TIMEOUT (R484). No AVSBus answer within 10 ms of reset leaves rails at boot voltage and sets GOVERNOR. -/
def avsTimeoutDoes : Prop :=
  ∀ (s : State), s.pace.running = false → s.pace.hubAt + 10 * msTicks ≤ s.now →
    ∃ t, exec .avsTimeout s = .next t ∧ t.pace.running = true ∧ t.ready rdyGovernor = true ∧ t.pace.windowAt = s.now ∧
      t.get PACE.INT_CAUSE.RAIL_FAULT 0 = 1 ∧
      ∀ r, r < 5 → t.get PACE.RAIL_STATUS.AVS_FAULT r = 1 ∧ t.get PACE.RAIL_STATUS.FAULT_SEEN r = 1 ∧
        (t.dom (regDomain r)).frozen = true ∧ t.volt (regDomain r) = s.volt (regDomain r)

/-- REMOVE (R515). A TROUPE_CTRL REMOVE starts taking a troupe out of service, or is refused. -/
def removeDoes : Prop :=
  ∀ (v : Word) (n : Nat) (s : State), s.hostReach 0 true = true → troupeOp v = some (1, n) →
    ∃ t, exec (.remove v) s = .next t ∧
      (s.troupeStatus true n = 0 → t.get HIF.TROUPE_CTRL.STATUS 0 = 0 ∧ t.get HIF.TROUPE_CTRL.BUSY 0 = 1 ∧
        t.hif.moving = some (n, false) ∧ t.get HIF.TROUPE_STATE.STATE n = 2 ∧ t.troupeReady n = false ∧ t.get CFG.TROUPE_SERIAL.SERIAL n = 0 ∧
        (∀ x ∈ s.ownPorts n, t.get PORT.CFG.ENABLE x = 0 ∧ t.get PORT.STATUS.READY x = 0) ∧
        (∀ r, r < 512 → s.ringOwner .tx r = n → t.get HIF.TX_CFG.EN r = 0) ∧
        (∀ r, r < 512 → s.ringOwner .rx r = n → t.get HIF.RX_CFG.EN r = 0 ∧ t.queue (rxQueue r) = []) ∧
        (∀ f ∈ t.tel.lines, f.2.flow.troupe = n → f.2.flow.forced = true)) ∧
      (s.troupeStatus true n ≠ 0 → t.get HIF.TROUPE_CTRL.STATUS 0 = s.troupeStatus true n ∧ t.hif.moving = s.hif.moving ∧
        t.get HIF.TROUPE_CTRL.BUSY 0 = s.get HIF.TROUPE_CTRL.BUSY 0 ∧ t.troupeReady n = s.troupeReady n ∧ t.sw = s.sw)

/-- RESTORE (R517). A TROUPE_CTRL RESTORE starts returning a troupe with its image contents, or is refused. -/
def restoreDoes : Prop :=
  ∀ (v : Word) (n : Nat) (s : State), s.hostReach 0 true = true → troupeOp v = some (2, n) →
    ∃ t, exec (.restore v) s = .next t ∧ t.cf.commits = s.cf.commits ∧ t.sw = s.sw ∧
      t.get HIF.TROUPE_STATE.STATE n = s.get HIF.TROUPE_STATE.STATE n ∧
      (s.troupeStatus false n = 0 → t.get HIF.TROUPE_CTRL.STATUS 0 = 0 ∧ t.get HIF.TROUPE_CTRL.BUSY 0 = 1 ∧
        t.hif.moving = some (n, true) ∧
        ((s.cf.full.getD {}).regInit = [] → ∀ (f : Fld) (x : Nat), f.reg ∈ rwsRegs → rwsScope (s.cf.full.getD {}) f.reg x = .troupe n →
          t.getStaged f x = State.reset.getStaged f x)) ∧
      (s.troupeStatus false n ≠ 0 → t.get HIF.TROUPE_CTRL.STATUS 0 = s.troupeStatus false n ∧ t.staging = s.staging ∧ t.hif.moving = s.hif.moving)

/-- TROUPE_REMOVE_DONE (R515). Removal ends: STATE REMOVED, TROUPE_DONE raised and HIF_TROUPE_REMOVED written. -/
def troupeRemoveDoneDoes : Prop :=
  ∀ (n : Nat) (s : State), s.hif.moving = some (n, false) → n < 64 →
    ∃ t, exec .troupeRemoveDone s = .next t ∧ t.hif.moving = none ∧ t.get HIF.TROUPE_CTRL.BUSY 0 = 0 ∧
      t.get HIF.TROUPE_STATE.STATE n = 3 ∧ t.get HIF.INT_CAUSE.TROUPE_DONE 0 = 1 ∧ t.troupeReady n = s.troupeReady n ∧
      t.get HIF.TROUPE_STATE.REMOVALS n = min (s.get HIF.TROUPE_STATE.REMOVALS n + 1) (2 ^ HIF.TROUPE_STATE.REMOVALS.width - 1)

/-- TROUPE_RESTORE_DONE (R517). Restore ends with its troupe commit, ready bit set and STATE ACTIVE. -/
def troupeRestoreDoneDoes : Prop :=
  ∀ (n : Nat) (s : State), s.hif.moving = some (n, true) → n < 64 →
    ∃ t, exec .troupeRestoreDone s = .next t ∧
      ((s.cf.commits.any fun c => c.phase == .fence) = false → t.hif.moving = none ∧ t.get HIF.TROUPE_CTRL.BUSY 0 = 0 ∧
        t.get HIF.TROUPE_STATE.STATE n = 1 ∧ t.get HIF.INT_CAUSE.TROUPE_DONE 0 = 1 ∧ t.troupeReady n = true) ∧
      ((s.cf.commits.any fun c => c.phase == .fence) = true → t = s)

/-- RING_ENABLE (R522). A write of a ring's EN enables it with counts reset, or disables it after the entry in progress. -/
def ringEnableDoes : Prop :=
  ∀ (fn : FnNo) (k : RingKind) (ring : Fin 512) (v : Word) (s : State), s.hostReach fn true = true →
    ∃ t, exec (.ringEnable fn k ring v) s = .next t ∧
      (s.ringReach fn k ring = false → t = s) ∧
      (s.ringReach fn k ring = true → (k = .rx → bitsOf v 0 1 = 1 → s.poolsRise ring = true) →
        t.get (ringRegs k).en ring = bitsOf v 0 1 ∧ t.get (ringRegs k).vector ring = bitsOf v 1 11 ∧
        t.get (ringRegs k).coalN ring = bitsOf v 24 8 ∧ t.get (ringRegs k).coalUs ring = bitsOf v 32 16 ∧
        t.get (ringWaitUs k) ring = bitsOf v 48 16 ∧
        (bitsOf v 0 1 = 1 → s.flag (ringRegs k).en ring = false →
          t.get (ringRegs k).prod ring = 0 ∧ t.get (ringRegs k).cons ring = 0)) ∧
      (s.ringReach fn k ring = true → k = .rx → bitsOf v 0 1 = 1 → s.poolsRise ring = false →
        t.get HIF.RX_STATUS.ERR ring = 1 ∧ t.get HIF.RX_STATUS.ERR_CAUSE ring = 3 ∧ t.get HIF.RX_CFG.EN ring = s.get HIF.RX_CFG.EN ring)

/-- RING_DOORBELL (R521). A host write of a ring count moves it forward, or is ignored with OVERRUN. -/
def ringDoorbellDoes : Prop :=
  ∀ (fn : FnNo) (k : RingKind) (ring : Fin 512) (pool : Option (Fin 4)) (count : BitVec 32) (s : State),
      s.hostReach fn true = true →
    ∃ t, exec (.ringDoorbell fn k ring pool count) s = .next t ∧ (s.ringReach fn k ring = false → t = s) ∧
      (s.ringReach fn k ring = true → k = .tx →
        (countMoves (s.get HIF.TX_IDX.PROD ring) count.toNat (s.ringSize .tx ring - s.ringFill .tx ring) = true →
          t.get HIF.TX_IDX.PROD ring = count.toNat) ∧
        (countMoves (s.get HIF.TX_IDX.PROD ring) count.toNat (s.ringSize .tx ring - s.ringFill .tx ring) = false →
          t.get HIF.TX_STATUS.ERR ring = 1 ∧ t.get HIF.TX_STATUS.ERR_CAUSE ring = 1 ∧ t.get HIF.TX_IDX.PROD ring = s.get HIF.TX_IDX.PROD ring)) ∧
      (s.ringReach fn k ring = true → k ≠ .tx → (k = .rx → pool = none) →
        (countMoves (s.get (ringRegs k).cons ring) count.toNat (s.ringFill k ring) = true → t.get (ringRegs k).cons ring = count.toNat) ∧
        (countMoves (s.get (ringRegs k).cons ring) count.toNat (s.ringFill k ring) = false →
          t.get (ringRegs k).err ring = 1 ∧ t.get (ringRegs k).errCause ring = 1 ∧ t.get (ringRegs k).cons ring = s.get (ringRegs k).cons ring)) ∧
      (∀ p, s.ringReach fn k ring = true → k = .rx → pool = some p →
        (countMoves (s.get HIF.RX_POOL_IDX.TAIL (4 * ring.val + p.val)) count.toNat
            (s.poolEntries ring p - s.poolAvail ring p) = true →
          t.get HIF.RX_POOL_IDX.TAIL (4 * ring.val + p.val) = count.toNat) ∧
        (countMoves (s.get HIF.RX_POOL_IDX.TAIL (4 * ring.val + p.val)) count.toNat
            (s.poolEntries ring p - s.poolAvail ring p) = false →
          t.get HIF.RX_STATUS.ERR ring = 1 ∧ t.get HIF.RX_STATUS.ERR_CAUSE ring = 1 ∧
          t.get HIF.RX_POOL_IDX.TAIL (4 * ring.val + p.val) = s.get HIF.RX_POOL_IDX.TAIL (4 * ring.val + p.val)))

/-- RX_DELIVER (R529). The receive engine places a ring's head frame into buffers and writes completions and the producer
count. -/
def rxDeliverDoes : Prop :=
  ∀ (es : List PoolEntry) (err : Bool) (s : State),
    ∃ t, exec (.rxDeliver es err) s = .next t ∧
      (∀ r k c p n d v, (∀ q ∈ s.rxWaiting, s.rxStale q = false) →
        (rotated s.hif.lastRx s.rxWaiting).findSome? (fun r => (s.rxReady r).map fun x => (r, x)) = some (r, k, c, p, n) →
        s.desc k = some d → s.packet d.packet = some v → t.hif.lastRx = r ∧
        (err = true → t.get HIF.RX_CFG.EN r = 0 ∧ t.get HIF.RX_STATUS.ERR r = 1 ∧ t.get HIF.RX_STATUS.ERR_CAUSE r = 2 ∧
          t.get HIF.RX_CQ_IDX.PROD r = s.get HIF.RX_CQ_IDX.PROD r ∧ t.queue (rxQueue r) = s.queue (rxQueue r)) ∧
        (err = false → t.get HIF.RX_POOL_IDX.HEAD (4 * r + p) = (s.get HIF.RX_POOL_IDX.HEAD (4 * r + p) + n) % 2 ^ 32 ∧
          t.get HIF.RX_CQ_IDX.PROD r = (s.get HIF.RX_CQ_IDX.PROD r + n) % 2 ^ 32 ∧ tabFind t.hif.rxWait r = some s.now ∧
          t.queue (rxQueue r) = (s.queue (rxQueue r)).tail ∧
          (∀ e, es = [e] → n = 1 → d.len - 4 ≤ s.bufSize r p →
            .dma (e.addr.toNat / 64 * 64) ((v.head ++ v.body).take (d.len - 4)) ∈ t.out))) ∧
      (∀ r k c, s.rxWaiting = [r] → s.rxStale r = true → s.rxHead r = some (k, c) → (s.queue (rxQueue r)).length = 1 →
        t.queue (rxQueue r) = [] ∧ t.get HIF.RX_CQ_IDX.PROD r = s.get HIF.RX_CQ_IDX.PROD r ∧ tabFind t.hif.rxWait r = some s.now)

/-- RX_WAIT_EXPIRY (R528). A head frame waiting WAIT_US is dropped with RING_FULL. -/
def rxWaitExpiryDoes : Prop :=
  ∀ (ring : Fin 512) (k : Nat) (c : Copy) (d : Desc) (s : State), s.rxHead ring = some (k, c) → s.rxReady ring = none →
      max c.enqAt (tabGet 0 s.hif.rxWait ring) + s.get HIF.RX_CFG.WAIT_US ring * usTicks ≤ s.now → s.desc k = some d →
    ∃ t, exec (.rxWaitExpiry ring) s = .next t ∧ tabFind t.hif.rxWait ring = some s.now ∧
      t.queue (rxQueue ring) = (s.queue (rxQueue ring)).tail ∧
      t.get HIF.RX_STATUS.COUNT ring = min (s.get HIF.RX_STATUS.COUNT ring + 1) (2 ^ HIF.RX_STATUS.COUNT.width - 1) ∧
      t.get TEL.DROP_COUNT.COUNT (dropRow d.port d.troupe * 256 + dropRing) =
        (s.get TEL.DROP_COUNT.COUNT (dropRow d.port d.troupe * 256 + dropRing) + 1) % 2 ^ TEL.DROP_COUNT.COUNT.width

/-- INTERRUPT_COALESCE (R524). COAL_US after the first unsignalled entry the ring's vector is sent. -/
def interruptCoalesceDoes : Prop :=
  ∀ (k : RingKind) (ring : Fin 512) (n since : Nat) (s : State),
      tabFind s.hif.coal (k.code * 1024 + ring.val) = some (n, since) →
    ∃ t, exec (.interruptCoalesce k ring) s = .next t ∧
      (∀ f e, since + s.get (ringRegs k).coalUs ring * usTicks ≤ s.now → f = s.ringOwner k ring →
        e = (if s.get (ringRegs k).vector ring < s.get HIF.MSIX_ALLOC.COUNT f then s.get (ringRegs k).vector ring else 0) →
        tabFind t.hif.coal (k.code * 1024 + ring.val) = none ∧
        ((s.msixOf f).open_ e = true → t.out = .msix f e :: s.out) ∧
        ((s.msixOf f).open_ e = false → t.out = s.out ∧ e ∈ (t.msixOf f).pendingBits)) ∧
      (s.now < since + s.get (ringRegs k).coalUs ring * usTicks → t = s)

/-- COPY (R533). Transmit descriptor COPY reads the frame from host memory into cells and injects it. -/
def copyDoes : Prop :=
  ∀ (chain : List TxDesc) (data : Option (List Byte)) (r : Nat) (d : TxDesc) (ds : List TxDesc) (s : State),
      (rotated s.hif.lastTx s.txWaiting).head? = some r → txChain (chain.take (s.ringFill .tx r)) = d :: ds →
      d.kind.val ≠ 1 → d.kind.val ≠ 2 →
    ∃ t, exec (.copy chain data) s = .next t ∧ t.hif.lastTx = r ∧
      t.get HIF.TX_IDX.CONS r = (s.get HIF.TX_IDX.CONS r + 1) % 2 ^ 32 ∧
      (∀ st, s.txStatus (s.ringOwner .tx r) (d :: ds) data = st → st ≠ 0 →
        t.get HIF.TX_STATUS.COUNT r = min (s.get HIF.TX_STATUS.COUNT r + 1) (2 ^ HIF.TX_STATUS.COUNT.width - 1) ∧
        t.sw.nextPacket = s.sw.nextPacket ∧ .dma (s.get HIF.TX_RING.BASE r * 4096 + s.get HIF.TX_IDX.CONS r % s.ringSize .tx r * 32 + 0x1C) (leBytes (st + 2 ^ 31) 4) ∈ t.out ∧
        (st = 5 → t.get HIF.TX_CFG.EN r = 0 ∧ t.get HIF.TX_STATUS.ERR_CAUSE r = 2)) ∧
      (∀ bs cs st u, data = some bs → s.txStatus (s.ringOwner .tx r) (d :: ds) data = 0 →
        State.injectCells { s with hif := { s.hif with lastTx := r } } (s.ringOwner .tx r) (segmentLens (d.len.val + 4)) [] = (some cs, st, u) →
        (s.pipe (s.get HIF.TX_CFG.PIPE r)).auxBytes = 0 →
        .dma (s.get HIF.TX_RING.BASE r * 4096 + s.get HIF.TX_IDX.CONS r % s.ringSize .tx r * 32 + 0x1C) (leBytes (2 ^ 31) 4) ∈ t.out ∧ t.sw.nextPacket = s.sw.nextPacket + 1 ∧
        (t.pipe (s.get HIF.TX_CFG.PIPE r)).aux = (s.pipe (s.get HIF.TX_CFG.PIPE r)).aux ++ [s.sw.nextPacket] ∧
        ∃ v, t.packet s.sw.nextPacket = some v ∧ v.troupe = s.ringOwner .tx r ∧ v.cells = cs ∧ v.len = d.len.val + 4 ∧ v.port = 0x200 ∧
          v.head ++ v.body = padTo (d.len.val + 4) (bs.take d.len.val)) ∧
      (∀ bs st u, data = some bs → s.txStatus (s.ringOwner .tx r) (d :: ds) data = 0 →
        State.injectCells { s with hif := { s.hif with lastTx := r } } (s.ringOwner .tx r) (segmentLens (d.len.val + 4)) [] = (none, st, u) →
        st ≠ 0 → t.sw.nextPacket = s.sw.nextPacket ∧ .dma (s.get HIF.TX_RING.BASE r * 4096 + s.get HIF.TX_IDX.CONS r % s.ringSize .tx r * 32 + 0x1C) (leBytes (st + 2 ^ 31) 4) ∈ t.out)

/-- FILL (R533). Transmit descriptor FILL copies host bytes into a leased cell. -/
def fillDoes : Prop :=
  ∀ (chain : List TxDesc) (data : Option (List Byte)) (r : Nat) (d : TxDesc) (ds : List TxDesc) (s : State),
      (rotated s.hif.lastTx s.txWaiting).head? = some r → txChain (chain.take (s.ringFill .tx r)) = d :: ds →
      d.kind.val = 1 →
    ∃ t, exec (.fill chain data) s = .next t ∧ t.hif.lastTx = r ∧ t.sw.cells = s.sw.cells ∧
      t.get HIF.TX_IDX.CONS r = (s.get HIF.TX_IDX.CONS r + 1) % 2 ^ 32 ∧
      (∀ a, s.txStatus (s.ringOwner .tx r) (d :: ds) data = 0 → (d.cells.map (·.1.val)).head? = some a →
        t.sw.mem = memWrite s.sw.mem (s.cellBase a) (padTo d.len.val ((data.getD []).take d.len.val)) ∧
        .dma (s.get HIF.TX_RING.BASE r * 4096 + s.get HIF.TX_IDX.CONS r % s.ringSize .tx r * 32 + 0x1C) (leBytes (2 ^ 31) 4) ∈ t.out) ∧
      (∀ st, s.txStatus (s.ringOwner .tx r) (d :: ds) data = st → st ≠ 0 → t.sw.mem = s.sw.mem ∧
        t.get HIF.TX_STATUS.COUNT r = min (s.get HIF.TX_STATUS.COUNT r + 1) (2 ^ HIF.TX_STATUS.COUNT.width - 1) ∧
        .dma (s.get HIF.TX_RING.BASE r * 4096 + s.get HIF.TX_IDX.CONS r % s.ringSize .tx r * 32 + 0x1C) (leBytes (st + 2 ^ 31) 4) ∈ t.out ∧ (st = 5 → t.get HIF.TX_CFG.EN r = 0 ∧ t.get HIF.TX_STATUS.ERR_CAUSE r = 2))

/-- CELLS (R533). Transmit descriptor CELLS injects a frame made of leased cells, after the checks of R534. -/
def cellsDoes : Prop :=
  ∀ (chain : List TxDesc) (r : Nat) (d : TxDesc) (ds : List TxDesc) (s : State),
      (rotated s.hif.lastTx s.txWaiting).head? = some r → txChain (chain.take (s.ringFill .tx r)) = d :: ds →
      d.kind.val = 2 → txEnded (d :: ds) = true ∨ 21 < ds.length →
    ∃ t, exec (.cells chain) s = .next t ∧ t.hif.lastTx = r ∧
      t.get HIF.TX_IDX.CONS r = (s.get HIF.TX_IDX.CONS r + (d :: ds).length) % 2 ^ 32 ∧
      (s.txStatus (s.ringOwner .tx r) (d :: ds) none = 0 → (s.pipe (s.get HIF.TX_CFG.PIPE r)).auxBytes = 0 →
        t.sw.nextPacket = s.sw.nextPacket + 1 ∧ .dma (s.get HIF.TX_RING.BASE r * 4096 + s.get HIF.TX_IDX.CONS r % s.ringSize .tx r * 32 + 0x1C) (leBytes (2 ^ 31) 4) ∈ t.out ∧
        t.get CELL.LEASE_STATUS.LEASED (s.ringOwner .tx r) =
          s.get CELL.LEASE_STATUS.LEASED (s.ringOwner .tx r) - (txCells (d :: ds)).length ∧
        (∀ a ∈ txCells (d :: ds), tabFind t.sw.cells a = some (ownerTag (s.ringOwner .tx r) 0)) ∧
        ∃ v, t.packet s.sw.nextPacket = some v ∧ v.troupe = s.ringOwner .tx r ∧ v.cells = txCells (d :: ds) ∧ v.len = d.len.val + 4) ∧
      (∀ st, s.txStatus (s.ringOwner .tx r) (d :: ds) none = st → st ≠ 0 → t.sw.nextPacket = s.sw.nextPacket ∧ t.sw.cells = s.sw.cells ∧
        t.get HIF.TX_STATUS.COUNT r = min (s.get HIF.TX_STATUS.COUNT r + (d :: ds).length) (2 ^ HIF.TX_STATUS.COUNT.width - 1) ∧
        .dma (s.get HIF.TX_RING.BASE r * 4096 + s.get HIF.TX_IDX.CONS r % s.ringSize .tx r * 32 + 0x1C) (leBytes (st + 2 ^ 31) 4) ∈ t.out)

/-- MSIX_ALLOC_WRITE (R540). A PF write of HIF.MSIX_ALLOC changes a function's vectors, or is ignored and sets REJECTED. -/
def msixAllocWriteDoes : Prop :=
  ∀ (f : FnNo) (v : Word) (s : State), s.hostReach 0 true = true →
    ∃ t, exec (.msixAllocWrite f v) s = .next t ∧
      (s.hif.vfEnable = false → s.msixBad f (bitsOf v 0 11) (bitsOf v 12 12) = false →
        t.get HIF.MSIX_ALLOC.BASE f = bitsOf v 0 11 ∧ t.get HIF.MSIX_ALLOC.COUNT f = bitsOf v 12 12) ∧
      (s.hif.vfEnable = true ∨ s.msixBad f (bitsOf v 0 11) (bitsOf v 12 12) = true →
        t.get HIF.MSIX_ALLOC.REJECTED f = 1 ∧ t.get HIF.INT_CAUSE.MSIX_REJECT 0 = 1 ∧
        t.get HIF.MSIX_ALLOC.BASE f = s.get HIF.MSIX_ALLOC.BASE f ∧ t.get HIF.MSIX_ALLOC.COUNT f = s.get HIF.MSIX_ALLOC.COUNT f)

/-- INT_REARM (R538). A write of INT_REARM resends vector 0 if causes are pending. -/
def intRearmDoes : Prop :=
  ∀ (fn : FnNo) (v : Word) (s : State), s.hostReach fn true = true →
    ∃ t, exec (.intRearm fn v) s = .next t ∧ t.regs = s.regs ∧
      (bitsOf v 0 1 = 0 → t = s) ∧
      (bitsOf v 0 1 = 1 →
        (fn.val = 0 ∧ s.reg .TOP_INT_CAUSE 0 &&& s.get TOP.INT_MASK.MASK 0 ≠ 0) ∨
          (fn.val ≠ 0 ∧ s.reg .WIN_INT_CAUSE fn &&& s.reg .WIN_INT_EN fn ≠ 0) →
        ((s.msixOf fn).open_ 0 = true → t.out = .msix fn 0 :: s.out) ∧
        ((s.msixOf fn).open_ 0 = false → t.out = s.out ∧ 0 ∈ (t.msixOf fn).pendingBits)) ∧
      (bitsOf v 0 1 = 1 → fn.val = 0 → s.reg .TOP_INT_CAUSE 0 &&& s.get TOP.INT_MASK.MASK 0 = 0 → t = s) ∧
      (bitsOf v 0 1 = 1 → fn.val ≠ 0 → s.reg .WIN_INT_CAUSE fn &&& s.reg .WIN_INT_EN fn = 0 → t = s)

/-- WIN_COMMIT (R520). A write of WIN.COMMIT.GO requests a commit scoped to the window's troupe. -/
def winCommitDoes : Prop :=
  ∀ (fn : FnNo) (v : Word) (s : State), s.hostReach fn true = true →
    ∃ t, exec (.winCommit fn v) s = .next t ∧ t.staging = s.staging ∧ (bitsOf v 0 1 = 0 ∨ fn.val = 0 → t = s) ∧
      (bitsOf v 0 1 = 1 → fn.val ≠ 0 → t.get CFG.COMMIT_STATUS.SCOPE fn = 1 ∧ t.get CFG.COMMIT_STATUS.TROUPE fn = fn.val) ∧
      (bitsOf v 0 1 = 1 → fn.val ≠ 0 → s.fullApply = false → s.commitBusy = false →
        t.get CFG.COMMIT_STATUS.STATE fn = csCheck ∧ t.get CFG.COMMIT_STATUS.CAUSE fn = 0 ∧
        ∃ c : CommitRec, t.cf.commits = s.cf.commits ++ [c] ∧ c.by_ = .window fn.val ∧ c.phase = .check ∧ c.pendingSet = s.staging ∧
          c.scope = some fn.val ∧ c.defer = (bitsOf v 1 1 == 1)) ∧
      (∀ cause, bitsOf v 0 1 = 1 → fn.val ≠ 0 →
        (s.fullApply = true ∧ cause = 5) ∨ (s.fullApply = false ∧ s.commitBusy = true ∧ cause = 6) →
        t.get CFG.COMMIT_STATUS.STATE fn = csRefused ∧ t.get CFG.COMMIT_STATUS.CAUSE fn = cause ∧
        t.get CFG.COMMIT_STATUS.REFUSED_SEEN fn = 1 ∧ t.get WIN.INT_CAUSE.COMMIT_REFUSED fn = 1 ∧ t.cf.commits = s.cf.commits)

/-- WARDEN_INPUT (R544). The input sequencer numbers an input and delivers it to both wardens, or coalesces it. -/
def wardenInputDoes : Prop :=
  ∀ (kind : Fin 4) (pl : List Nat) (ta tb : Nat) (s : State), s.tnd.held = [] →
    ∃ t, exec (.wardenInput kind pl ta tb) s = .next t ∧
      ((s.inService 0 || s.inService 1) = true → (∀ w, (s.warden w).buffer.length < inputRoom) →
        t.tnd.nextInput = (s.tnd.nextInput + 1) % 2 ^ 64 ∧ .wardenInput s.tnd.nextInput kind.val pl ∈ t.out ∧ t.tnd.held = [] ∧
        (ta = 0 → tb = 0 → ∀ w, w < 2 → s.hears w = true →
          (t.warden w).buffer = (s.warden w).buffer ++ [{ seq := s.tnd.nextInput, kind := kind.val, payload := pl }])) ∧
      ((s.inService 0 || s.inService 1) = false →
        t.tnd.nextInput = s.tnd.nextInput ∧ tabFind t.tnd.held kind.val = some pl)

/-- TIMER_INPUT (R544). Every 10 µs a timer input carrying raw and network time is sequenced. -/
def timerInputDoes : Prop :=
  ∀ (ta tb : Nat) (s : State), s.tnd.held = [] → s.tnd.tickAt + 10 * usTicks ≤ s.now →
    ∃ t, exec (.timerInput ta tb) s = .next t ∧ t.tnd.tickAt = s.now ∧
      ((s.inService 0 || s.inService 1) = true → (∀ w, (s.warden w).buffer.length < inputRoom) →
        t.tnd.nextInput = (s.tnd.nextInput + 1) % 2 ^ 64 ∧
        .wardenInput s.tnd.nextInput 0 [s.now, (s.netNs % 2 ^ 64).toNat] ∈ t.out) ∧
      ((s.inService 0 || s.inService 1) = false → t.tnd.nextInput = s.tnd.nextInput ∧
        tabFind t.tnd.held 0 = some [s.now, (s.netNs % 2 ^ 64).toNat])

/-- COMMAND_COPY (R547). A warden command copy reaches its eliminator and acts, is compared, or is discarded as stale. -/
def commandCopyDoes : Prop :=
  ∀ (c : CommandCopy) (same : Option CommandCopy) (s : State),
    ∃ t, exec (.commandCopy ⟨c, same⟩) s = .next t ∧
      (s.tnd.paused = true → same = none → t.tnd.waiting = s.tnd.waiting ++ [c] ∧ t.regs = s.regs) ∧
      (∀ p, s.tnd.paused = false → same = none → s.inService c.warden = true → ((s.elim c.eliminator).entries.find? fun p => p.seq == c.seq.toNat && p.warden != c.warden.val) = some p →
        (t.elim c.eliminator).entries = (s.elim c.eliminator).entries.erase p ∧
        (p.digest = c.digest.toNat → t.regs = s.regs) ∧
        (p.digest ≠ c.digest.toNat → t.get TND.INT_CAUSE.DIVERGE 0 = 1 ∧ t.get TND.DIVERGE_INFO.ELIMINATOR 0 = c.eliminator.val ∧
          t.get TND.DIVERGE_INFO.SEQ 0 = p.seq % 2 ^ 32 ∧
          t.get TND.ELIM_COUNT.DIVERGENCES 0 = min (s.get TND.ELIM_COUNT.DIVERGENCES 0 + 1) (2 ^ TND.ELIM_COUNT.DIVERGENCES.width - 1))) ∧
      (s.tnd.paused = false → same = none → s.inService c.warden = true → ((s.elim c.eliminator).entries.find? fun p => p.seq == c.seq.toNat && p.warden != c.warden.val) = none →
        (seqLater c.seq.toNat (s.elim c.eliminator).last = true →
          (t.elim c.eliminator).last = c.seq.toNat ∧ t.get TND.STATUS.CMD_SEQ 0 = c.seq.toNat ∧
          (∀ i v, c.eliminator.val = 3 → c.cmd = .phase i v → t.get PACE.PHASE_A.PERIOD_NS i = bitsOf v 0 34) ∧
          (s.inService (1 - c.warden.val) = true → (s.elim c.eliminator).entries.length < 1024 →
            (t.elim c.eliminator).entries = (s.elim c.eliminator).entries ++
              [{ seq := c.seq.toNat, digest := c.digest.toNat, warden := c.warden.val, at_ := s.now }])) ∧
        (seqLater c.seq.toNat (s.elim c.eliminator).last = false →
          t.get TND.ELIM_COUNT.STALE 0 = min (s.get TND.ELIM_COUNT.STALE 0 + 1) (2 ^ TND.ELIM_COUNT.STALE.width - 1) ∧ t.tnd = s.tnd)) ∧
      (∀ o, s.tnd.paused = false → same = some o → o.eliminator = c.eliminator → o.seq = c.seq →
        s.wst o.warden.val = wActive → s.wst c.warden.val = wStandby → c.warden.val = 1 - o.warden.val →
        (s.elim c.eliminator).entries = [] → seqLater c.seq.toNat (s.elim c.eliminator).last = true →
        (t.elim c.eliminator).entries = [] ∧ (t.elim c.eliminator).last = c.seq.toNat ∧
        (o.digest ≠ c.digest → t.get TND.INT_CAUSE.DIVERGE 0 = 1 ∧ t.get TND.DIVERGE_DIGEST.DIGEST 0 = o.digest.toNat ∧
          t.get TND.DIVERGE_DIGEST.DIGEST 1 = c.digest.toNat))

/-- ELIMINATOR_WINDOW_EXPIRY (R549). A partner copy missing after ELIM_WINDOW_US is counted and handled as a divergence. -/
def eliminatorWindowExpiryDoes : Prop :=
  ∀ (e : Fin 6) (n : Nat) (s : State),
      n = ((s.elim e).entries.filter fun p =>
        decide (p.at_ + max 10 (s.get TND.CFG.ELIM_WINDOW_US 0) * usTicks ≤ s.now) && s.inService (1 - p.warden)).length →
    ∃ t, exec (.eliminatorWindowExpiry e) s = .next t ∧
      (t.elim e).entries = (s.elim e).entries.filter (fun p =>
        !(decide (p.at_ + max 10 (s.get TND.CFG.ELIM_WINDOW_US 0) * usTicks ≤ s.now) && s.inService (1 - p.warden))) ∧
      t.get TND.ELIM_COUNT.MISSING 0 = min (s.get TND.ELIM_COUNT.MISSING 0 + n) (2 ^ TND.ELIM_COUNT.MISSING.width - 1) ∧
      t.get TND.ELIM_COUNT.DIVERGENCES 0 = min (s.get TND.ELIM_COUNT.DIVERGENCES 0 + n) (2 ^ TND.ELIM_COUNT.DIVERGENCES.width - 1) ∧
      (n ≠ 0 → t.get TND.INT_CAUSE.MISSING 0 = 1 ∧ t.get TND.INT_CAUSE.DIVERGE 0 = 1 ∧ t.get TND.DIVERGE_INFO.ELIMINATOR 0 = e.val)

/-- DIVERGENCE_SELFTEST_END (R550). The divergence self-test ends; failing wardens resign, or the standby resigns with
DIVERGE. -/
def divergenceSelftestEndDoes : Prop :=
  ∀ (fa fb : Bool) (a : Nat) (s : State), s.tnd.divergeAt = some a →
    ∃ t, exec (.divergenceSelftestEnd fa fb) s = .next t ∧ t.tnd.divergeAt = none ∧
      (fa = true → s.wardenRuns 0 = true → t.wst 0 = wResigned ∧ t.get TND.WARDEN.RESIGN_CAUSE 0 = 2) ∧
      (fb = true → s.wardenRuns 1 = true → t.wst 1 = wResigned ∧ t.get TND.WARDEN.RESIGN_CAUSE 1 = 2) ∧
      (fa = true → fb = false → s.wst 0 = wActive → s.wst 1 = wStandby → t.wst 1 = wActive ∧ t.get TND.INT_CAUSE.TAKEOVER 0 = 1) ∧
      (∀ b, fa = false → fb = false → s.wardenIn wStandby = some b → t.wst b = wResigned ∧ t.get TND.WARDEN.RESIGN_CAUSE b = 5) ∧
      (fa = false → fb = false → s.wardenIn wStandby = none → t.regs = s.regs)

/-- LOCKSTEP_MISMATCH (R551). A warden's two cores disagree and it resigns with LOCKSTEP. -/
def lockstepMismatchDoes : Prop :=
  ∀ (w : Fin 2) (s : State),
    ∃ t, exec (.lockstepMismatch w) s = .next t ∧ (s.wardenRuns w = false → t = s) ∧
      (s.wardenRuns w = true → t.wst w = wResigned ∧ t.get TND.WARDEN.RESIGN_CAUSE w = 1 ∧
        t.get TND.WARDEN.RESIGNATIONS w = min (s.get TND.WARDEN.RESIGNATIONS w + 1) (2 ^ TND.WARDEN.RESIGNATIONS.width - 1) ∧
        t.get TND.INT_CAUSE.RESIGN 0 = 1 ∧ (t.warden w).buffer = [] ∧ t.tnd.paused = false ∧ t.tnd.waiting = [] ∧
        (∀ e p, s.tnd.waiting = [] → p ∈ (t.elim e).entries → p.warden = w.val) ∧
        (s.wst w = wActive → s.wst (1 - w.val) = wStandby → t.wst (1 - w.val) = wActive ∧ t.get TND.INT_CAUSE.TAKEOVER 0 = 1 ∧
          t.get TND.STATUS.ACTIVE_W 0 = 1 - w.val))

/-- WATCHDOG_EXPIRY (R551). No timer input taken for 1 ms, or a full self-test over 6 ms, resigns the warden. -/
def watchdogExpiryDoes : Prop :=
  ∀ (w : Fin 2) (s : State),
    ∃ t, exec (.watchdogExpiry w) s = .next t ∧
      (∀ a, (s.warden w).fullTest = some a → s.wardenRuns w = true → a + 6 * msTicks ≤ s.now →
        t.wst w = wResigned ∧ t.get TND.WARDEN.RESIGN_CAUSE w = 3) ∧
      (∀ a, (s.warden w).fullTest = some a → s.now < a + 6 * msTicks → t = s) ∧
      (∀ a, (s.warden w).fullTest = none → s.inService w = true → s.tnd.divergeAt = some a → a + 6 * msTicks ≤ s.now →
        t.wst w = wResigned ∧ t.get TND.WARDEN.RESIGN_CAUSE w = 3) ∧
      ((s.warden w).fullTest = none → s.inService w = true → s.tnd.divergeAt = none →
        ((s.warden w).timerAt + msTicks ≤ s.now → t.wst w = wResigned ∧ t.get TND.WARDEN.RESIGN_CAUSE w = 3) ∧
        (s.now < (s.warden w).timerAt + msTicks → t = s))

/-- PERIODIC_SELFTEST (R554). Every SELFTEST_MS a warden runs a sliced self-test and resigns on failure. -/
def periodicSelftestDoes : Prop :=
  ∀ (w : Fin 2) (pass : Bool) (s : State), s.inService w = true →
      (s.warden w).testAt + max 10 (s.get TND.CFG.SELFTEST_MS 0) * msTicks ≤ s.now →
    ∃ t, exec (.periodicSelftest w pass) s = .next t ∧ (pass = true → (t.warden w).testAt = s.now ∧ t.regs = s.regs) ∧
      (pass = false → t.wst w = wResigned ∧ t.get TND.WARDEN.RESIGN_CAUSE w = 2)

/-- AUTO_RESTART (R556). 10 ms after resignation a warden restarts, or becomes FAILED within RESTART_HOLD_S. -/
def autoRestartDoes : Prop :=
  ∀ (w : Fin 2) (s : State), s.wst w = wResigned → s.flag TND.CFG.AUTO_RESTART 0 = true →
      (s.warden w).resignedAt + 10 * msTicks ≤ s.now →
    ∃ t, exec (.autoRestart w) s = .next t ∧
      (∀ a, (s.warden w).autoAt = some a → (s.warden w).resignedAt ≤ a + s.get TND.CFG.RESTART_HOLD_S 0 * secTicks →
        t.wst w = wFailed ∧ t.get TND.INT_CAUSE.FAILED 0 = 1) ∧
      ((∀ a, (s.warden w).autoAt = some a → a + s.get TND.CFG.RESTART_HOLD_S 0 * secTicks < (s.warden w).resignedAt) →
        t.wst w = wLoading ∧ (t.warden w).autoAt = some s.now)

/-- WARDEN_LOAD_DONE (R556). A starting warden finishes loading firmware and enters SELFTEST. -/
def wardenLoadDoneDoes : Prop :=
  ∀ (w : Fin 2) (f : Firmware) (s : State), s.sec.verified = some f → s.wst w = wLoading →
    ∃ t, exec (.wardenLoadDone w) s = .next t ∧ t.wst w = wSelftest ∧ (t.warden w).fullTest = some s.now ∧
      t.get TND.WARDEN.FW_VERSION w = f.version % 2 ^ TND.WARDEN.FW_VERSION.width ∧ t.ready (rdyWarden w) = false ∧
      t.wst (1 - w.val) = s.wst (1 - w.val)

/-- WARDEN_SELFTEST_DONE (R556). A starting warden passes self-test and resynchronises, or becomes sole ACTIVE. -/
def wardenSelftestDoneDoes : Prop :=
  ∀ (w : Fin 2) (pass : Bool) (s : State), s.wst w = wSelftest → (s.warden w).passed = false →
    ∃ t, exec (.wardenSelftestDone w pass) s = .next t ∧
      (pass = false → t.wst w = wResigned ∧ t.get TND.WARDEN.RESIGN_CAUSE w = 2) ∧
      (pass = true → (s.warden w).together = true → (s.warden (1 - w.val)).together = true → (s.warden (1 - w.val)).passed = true →
        t.wst 0 = wActive ∧ t.wst 1 = wStandby ∧ t.ready (rdyWarden 0) = true ∧ t.ready (rdyWarden 1) = true ∧ t.get TND.STATUS.SOLE 0 = 0) ∧
      (pass = true → (s.warden w).together = true → (s.warden (1 - w.val)).together = true → (s.warden (1 - w.val)).passed = false →
        t.wst w = wSelftest ∧ (t.warden w).passed = true ∧ t.regs = s.regs) ∧
      (pass = true → (s.warden w).together = true → (s.warden (1 - w.val)).together = false → t.wst w = wActive) ∧
      (pass = true → (s.warden w).together = false → (s.wardenIn wActive).isSome = true →
        t.wst w = wResync ∧ t.tnd.paused = true ∧ (t.warden w).buffer = []) ∧
      (pass = true → (s.warden w).together = false → s.wardenIn wActive = none → t.wst w = wActive ∧ t.ready (rdyWarden w) = true)

/-- RESYNC_DONE (R557). A rejoining warden catches up, becomes STANDBY and writes TND_RESYNC. -/
def resyncDoneDoes : Prop :=
  ∀ (w : Fin 2) (s : State), s.wst w = wResync →
    ∃ t, exec (.resyncDone w) s = .next t ∧ (s.wardenIn wActive = none → t.wst w = wActive ∧ t.ready (rdyWarden w) = true) ∧
      ((s.wardenIn wActive).isSome = true → (s.warden w).copied = true →
        t.wst w = wStandby ∧ (t.warden w).buffer = [] ∧ t.ready (rdyWarden w) = true ∧ t.get TND.INT_CAUSE.STANDBY_READY 0 = 1) ∧
      ((s.wardenIn wActive).isSome = true → (s.warden w).copied = false → t = s)

/-- RESTART (R556). TND.CTRL OP RESTART restarts a RESIGNED or FAILED warden. -/
def restartDoes : Prop :=
  ∀ (v : Word) (s : State), s.hostReach 0 false = true → ctrlOp v = some 1 →
    ∃ t, exec (.restart v) s = .next t ∧
      (s.wst (bitsOf v 0 1) = wResigned ∨ s.wst (bitsOf v 0 1) = wFailed →
        t.get TND.CTRL.STATUS 0 = 0 ∧ t.wst (bitsOf v 0 1) = wLoading ∧ (t.warden (bitsOf v 0 1)).together = false ∧
        t.wst (1 - bitsOf v 0 1) = s.wst (1 - bitsOf v 0 1)) ∧
      (s.wst (bitsOf v 0 1) ≠ wResigned → s.wst (bitsOf v 0 1) ≠ wFailed →
        t.get TND.CTRL.STATUS 0 = 1 ∧ t.wst (bitsOf v 0 1) = s.wst (bitsOf v 0 1) ∧ t.tnd = s.tnd)

/-- RESIGN (R551). TND.CTRL OP RESIGN makes a running warden resign with cause HOST. -/
def resignDoes : Prop :=
  ∀ (v : Word) (s : State), s.hostReach 0 false = true → ctrlOp v = some 2 →
    ∃ t, exec (.resign v) s = .next t ∧
      (s.wardenRuns (bitsOf v 0 1) = true → t.get TND.CTRL.STATUS 0 = 0 ∧ t.wst (bitsOf v 0 1) = wResigned ∧
        t.get TND.WARDEN.RESIGN_CAUSE (bitsOf v 0 1) = 6 ∧ t.get TND.INT_CAUSE.RESIGN 0 = 1 ∧ (t.warden (bitsOf v 0 1)).resignedAt = s.now) ∧
      (s.wardenRuns (bitsOf v 0 1) = false → t.get TND.CTRL.STATUS 0 = 1 ∧ t.wst (bitsOf v 0 1) = s.wst (bitsOf v 0 1) ∧ t.tnd = s.tnd)

/-- RESTART_BOTH (R558). TND.CTRL OP RESTART_BOTH loads the pending firmware into both wardens and starts them together. -/
def restartBothDoes : Prop :=
  ∀ (v : Word) (s : State), s.hostReach 0 false = true → ctrlOp v = some 3 →
    ∃ t, exec (.restartBoth v) s = .next t ∧
      (s.sec.fwLoading = true ∨ s.bothStarting = true → t.get TND.CTRL.STATUS 0 = 2 ∧ t.tnd = s.tnd) ∧
      (∀ f, s.sec.fwLoading = false → s.bothStarting = false →
          s.sec.pendingFw = some f ∨ (s.sec.pendingFw = none ∧ s.sec.verified = some f) →
        t.get TND.CTRL.STATUS 0 = 0 ∧ t.get SEC.FW_STATUS.PENDING_VALID 0 = 0 ∧ t.sec.pendingFw = none ∧ t.sec.verified = some f ∧
        t.get SEC.FW_BOOT.RUNNING_VERSION 0 = f.version % 2 ^ SEC.FW_BOOT.RUNNING_VERSION.width ∧
        t.wst 0 = wLoading ∧ t.wst 1 = wLoading ∧ (t.warden 0).together = true ∧ (t.warden 1).together = true ∧
        (∀ e, (t.elim e).entries = []) ∧ t.tnd.waiting = []) ∧
      (s.sec.fwLoading = false → s.bothStarting = false → s.sec.pendingFw = none → s.sec.verified = none →
        t.get TND.CTRL.STATUS 0 = 1 ∧ t.tnd = s.tnd)

/-- MAILBOX_DOORBELL (R559). A write of MBX_CTRL.DOORBELL while idle sends the request as a warden input, or the hardware
answers NO_WARDEN. -/
def mailboxDoorbellDoes : Prop :=
  ∀ (v : Word) (s : State), s.hostReach 0 false = true →
    ∃ t, exec (.mailboxDoorbell v) s = .next t ∧
      (bitsOf v 0 1 = 0 ∨ s.flag TND.MBX_CTRL.BUSY 0 = true → t.tnd = s.tnd ∧ t.out = s.out ∧
        t.get TND.MBX_CTRL.BUSY 0 = s.get TND.MBX_CTRL.BUSY 0 ∧ (bitsOf v 2 1 = 1 → t.get TND.MBX_CTRL.REPLY_SEEN 0 = 0) ∧
        (bitsOf v 3 1 = 1 → t.get TND.MBX_CTRL.TIMED_OUT 0 = 0)) ∧
      (bitsOf v 0 1 = 1 → s.flag TND.MBX_CTRL.BUSY 0 = false → s.wardenUp = true →
        t.get TND.MBX_CTRL.BUSY 0 = 1 ∧ t.tnd.mbxAt = some s.now ∧
        ((s.inService 0 || s.inService 1) = true → (∀ w, (s.warden w).buffer.length < inputRoom) →
          t.tnd.nextInput = (s.tnd.nextInput + 1) % 2 ^ 64 ∧
          .wardenInput s.tnd.nextInput 1 ((List.range 32).map fun i => s.get TND.MBX_REQ.BYTES i) ∈ t.out)) ∧
      (bitsOf v 0 1 = 1 → s.flag TND.MBX_CTRL.BUSY 0 = false → s.wardenUp = false →
        t.get TND.MBX_CTRL.BUSY 0 = 0 ∧ t.get TND.MBX_CTRL.REPLY_SEEN 0 = 1 ∧
        t.get TND.INT_CAUSE.MBX_REPLY 0 = 1 ∧ t.get TND.MBX_REPLY.BYTES 0 % 65536 = 0xFFFF)

/-- GET_INFO (R560). Mailbox opcode GET_INFO returns firmware version, active warden and both states. -/
def getInfoDoes : Prop :=
  ∀ (s : State), s.mbxOpcode = some 1 →
    ∃ t, exec .getInfo s = .next t ∧ t.get TND.MBX_CTRL.BUSY 0 = 0 ∧ t.get TND.MBX_CTRL.REPLY_SEEN 0 = 1 ∧
      t.get TND.INT_CAUSE.MBX_REPLY 0 = 1 ∧ t.tnd.mbxAt = none ∧
      (∀ i, i < 32 → t.get TND.MBX_REPLY.BYTES i = ofLe (((padTo 256 (leBytes 0 2 ++ leBytes 7 2 ++ (s.mbxRequest.drop 4).take 4 ++
        (leBytes (s.get TND.WARDEN.FW_VERSION (s.get TND.STATUS.ACTIVE_W 0)) 4 ++ leBytes (s.get TND.STATUS.ACTIVE_W 0) 1 ++
          leBytes (s.wst 0) 1 ++ leBytes (s.wst 1) 1))).drop (8 * i)).take 8))

/-- ECHO (R560). Mailbox opcode ECHO returns its payload. -/
def echoDoes : Prop :=
  ∀ (s : State), s.mbxOpcode = some 2 →
    ∃ t, exec .echo s = .next t ∧ t.get TND.MBX_CTRL.BUSY 0 = 0 ∧ t.get TND.MBX_CTRL.REPLY_SEEN 0 = 1 ∧
      t.get TND.INT_CAUSE.MBX_REPLY 0 = 1 ∧ t.tnd.mbxAt = none ∧
      (∀ i, i < 32 → t.get TND.MBX_REPLY.BYTES i = ofLe (((padTo 256 (leBytes 0 2 ++
        leBytes (min 248 (ofLe ((s.mbxRequest.drop 2).take 2))) 2 ++ (s.mbxRequest.drop 4).take 4 ++
        (s.mbxRequest.drop 8).take (min 248 (ofLe ((s.mbxRequest.drop 2).take 2))))).drop (8 * i)).take 8))

/-- MAILBOX_TIMEOUT (R561). A request without reply for 100 ms clears BUSY and sets TIMED_OUT. -/
def mailboxTimeoutDoes : Prop :=
  ∀ (a : Nat) (s : State), s.tnd.mbxAt = some a →
    ∃ t, exec .mailboxTimeout s = .next t ∧
      (a + 100 * msTicks ≤ s.now → t.get TND.MBX_CTRL.BUSY 0 = 0 ∧ t.get TND.MBX_CTRL.TIMED_OUT 0 = 1 ∧ t.tnd.mbxAt = none ∧
        t.get TND.MBX_CTRL.REPLY_SEEN 0 = s.get TND.MBX_CTRL.REPLY_SEEN 0) ∧
      (s.now < a + 100 * msTicks → t = s)

/-- BBX_RECORD_WRITE (R565). A queued black-box record is written to a pinned or ring slot with its chain value. -/
def bbxRecordWriteDoes : Prop :=
  ∀ (r : BbxRecord) (rs : List BbxRecord) (s : State), s.bbx.queue = r :: rs → s.pkg.keep = true → s.bbx.scanned = true →
    ∃ (t : State) (w : BbxRecord), exec .bbxRecordWrite s = .next t ∧ t.bbx.nextSeq = s.bbx.nextSeq + 1 ∧
      w.seq = s.bbx.nextSeq ∧ w.code = r.code ∧ w.data = r.data ∧ w.loss = s.bbx.lossDue ∧ w.chain = w.chainAfter s.bbx.lastChain ∧
      t.bbx.lastChain = w.chain ∧
      ((pinnedCodes.contains r.code = true ∧ s.bbx.pinned.length < 2048) →
        w.pinned = true ∧ tabFind t.bbx.pinned s.bbx.pinned.length = some w ∧ t.bbx.ring = s.bbx.ring) ∧
      (¬(pinnedCodes.contains r.code = true ∧ s.bbx.pinned.length < 2048) →
        w.pinned = false ∧ tabFind t.bbx.ring s.bbx.nextRing = some w ∧ t.bbx.pinned = s.bbx.pinned)

/-- BBX_SCAN (R567). The keeper power-on scan finds the chain end and breaks and sets the BBX bit. -/
def bbxScanDoes : Prop :=
  ∀ (s : State), s.pkg.keep = true → s.bbx.scanned = false →
    ∃ t, exec .bbxScan s = .next t ∧ t.bbx.scanned = true ∧ t.get BBX.STATUS.SCANNED 0 = 1 ∧ t.ready rdyBbx = true ∧
      (tornNewest s.bbx.retained = none → t.bbx.pinned = s.bbx.pinned ∧ t.bbx.ring = s.bbx.ring ∧
        t.bbx.nextSeq = (s.bbx.retained.getLast?.map fun e => e.2.seq).getD 0 + 1 ∧
        t.bbx.lastChain = (s.bbx.retained.getLast?.map fun e => e.2.chain).getD [] ∧
        t.get BBX.STATUS2.BREAKS 0 =
          min (s.get BBX.STATUS2.BREAKS 0 + (chainBreaks s.bbx.retained).length) (2 ^ BBX.STATUS2.BREAKS.width - 1) ∧
        (chainBreaks s.bbx.retained ≠ [] → t.get BBX.INT_CAUSE.CHAIN_BREAK 0 = 1)) ∧
      (∀ e, tornNewest s.bbx.retained = some e → tabFind t.bbx.pinned e.1 = none ∧ tabFind t.bbx.ring e.1 = none)

/-- SEALED_READOUT (R569). A write of BBX.READ_CTRL.GO starts a sealed readout by DMA. -/
def sealedReadoutDoes : Prop :=
  ∀ (v : Word) (s : State), s.hostReach 0 true = true →
    ∃ t, exec (.sealedReadout v) s = .next t ∧ t.get BBX.READ_CTRL.COUNT 0 = bitsOf v 0 13 ∧
      (bitsOf v 13 1 = 1 → s.flag BBX.READ_CTRL.BUSY 0 = false → t.get BBX.READ_CTRL.BUSY 0 = 1 ∧
        t.bbx.reading = some (s.get BBX.READ_FIRST.SEQ 0, clampN 1 4096 (bitsOf v 0 13),
          if s.ready rdyIdentity && s.ready rdyBbx then 0 else 1)) ∧
      (bitsOf v 13 1 = 0 ∨ s.flag BBX.READ_CTRL.BUSY 0 = true → t.bbx = s.bbx ∧ t.get BBX.READ_CTRL.BUSY 0 = s.get BBX.READ_CTRL.BUSY 0)

/-- SEALED_READOUT_DONE (R569). A sealed readout ends with its records, seal and STATUS. -/
def sealedReadoutDoneDoes : Prop :=
  ∀ (err : Bool) (first count st : Nat) (s : State), s.bbx.reading = some (first, count, st) → st < 2 →
    ∃ t, exec (.sealedReadoutDone err) s = .next t ∧ t.bbx.reading = none ∧ t.get BBX.READ_CTRL.BUSY 0 = 0 ∧
      t.get BBX.INT_CAUSE.READ_DONE 0 = 1 ∧
      t.get BBX.READ_CTRL.STATUS 0 = (if st ≠ 0 then st else if (s.recordsFrom first count).isEmpty then 3
        else if err || !s.busMaster 0 then 2 else 0) ∧
      (∀ r rs, st = 0 → err = false → s.busMaster 0 = true → s.recordsFrom first count = r :: rs →
        .dma (s.get BBX.READ_ADDR.ADDR 0 * 64) r.bytes ∈ t.out)

/-- HOST_NOTE (R571). A write of HOST_NOTE_CTRL.GO writes a HOST_NOTE record, or is refused by the rate limit. -/
def hostNoteDoes : Prop :=
  ∀ (v : Word) (s : State), s.hostReach 0 true = true →
    ∃ t, exec (.hostNote v) s = .next t ∧
      (bitsOf v 0 1 = 0 → t.bbx = s.bbx ∧ (bitsOf v 1 1 = 1 → t.get BBX.HOST_NOTE_CTRL.REFUSED 0 = 0)) ∧
      (bitsOf v 0 1 = 1 → 16 ≤ ((tabGet [] s.bbx.rateAt 0x0103).filter fun a => decide (s.pkg.keepNow < a + secTicks)).length →
        t.get BBX.HOST_NOTE_CTRL.REFUSED 0 = 1 ∧ t.bbx = s.bbx) ∧
      (bitsOf v 0 1 = 1 → ((tabGet [] s.bbx.rateAt 0x0103).filter fun a => decide (s.pkg.keepNow < a + secTicks)).length < 16 →
        s.bbx.queue.length < 256 →
        ∃ r : BbxRecord, t.bbx.queue = s.bbx.queue ++ [r] ∧ r.code = 0x0103 ∧ r.source = 2 ∧
          r.data = (List.range 4).flatMap fun k => leBytes (s.get BBX.HOST_NOTE.BYTES k) 8)

/-- KEEPER_GET_STATUS (R570). Keeper-port command 0x01 returns BBX.STATUS and STATUS2. -/
def keeperGetStatusDoes : Prop :=
  ∀ (s : State), s.ready rdyKeeper = true →
    ∃ t, exec .keeperGetStatus s = .next t ∧ t.regs = s.regs ∧
      .answer "KEEPER" (leBytes (s.reg .BBX_STATUS 0) 8 ++ leBytes (s.reg .BBX_STATUS2 0) 8) ∈ t.out ∧
      .answer "KEEPER_TOP" (leBytes (s.reg .TOP_IDENT 0) 8 ++
        leBytes (if s.pkg.hubUp then s.get TOP.READY.BITS 0 else s.get TOP.READY.BITS 0 % 8) 8) ∈ t.out ∧
      t.pkg.alertFrom = s.bbx.nextSeq ∧ t.pkg.alertRead = []

/-- KEEPER_GET_RECORDS (R570). Keeper-port command 0x02 returns up to 8 records from FIRST_SEQ. -/
def keeperGetRecordsDoes : Prop :=
  ∀ (first : Nat) (count : Fin 256) (s : State), s.ready rdyKeeper = true →
    ∃ t, exec (.keeperGetRecords first count) s = .next t ∧
      .answer "KEEPER" ((s.recordsFrom first (clampN 1 8 count)).flatMap BbxRecord.bytes) ∈ t.out ∧ t.bbx = s.bbx ∧ t.regs = s.regs ∧
      (∀ r ∈ s.recordsFrom first (clampN 1 8 count), r.seq ∈ t.pkg.alertRead)

/-- KEEPER_GET_SEAL (R570). Keeper-port command 0x03 returns a seal over the named records. -/
def keeperGetSealDoes : Prop :=
  ∀ (first : Nat) (count : Fin 65536) (nonce : List Byte) (s : State), s.ready rdyKeeper = true →
    ∃ t, exec (.keeperGetSeal first count nonce) s = .next t ∧
      t.out = .answer "KEEPER" (s.seal (s.recordsFrom first (clampN 1 4096 count)) nonce).1 :: s.out ∧ t.bbx = s.bbx ∧ t.regs = s.regs ∧
      t.pkg = s.pkg ∧ t.drawn = s.drawn + 1

/-- EXTEST (R616). JTAG instruction EXTEST selects boundary scan of the VDD_IO lands. -/
def extestDoes : Prop :=
  ∀ (s : State), ∃ t, exec .extest s = .next t ∧ (s.pkg.keep = true → t.pkg.jtagIr = 0x00 ∧ t.regs = s.regs ∧ t.out = s.out) ∧
      (s.pkg.keep = false → t = s)

/-- IDCODE (R616). JTAG instruction IDCODE returns 0x1204_86B7. -/
def idcodeDoes : Prop :=
  ∀ (s : State),
    ∃ t, exec .idcode s = .next t ∧
      (s.pkg.keep = true → t.pkg.jtagIr = 0x01 ∧ t.out = .answer "JTAG" [0xB7, 0x86, 0x04, 0x12] :: s.out ∧ t.regs = s.regs) ∧
      (s.pkg.keep = false → t = s)

/-- SAMPLE_PRELOAD (R616). JTAG instruction SAMPLE/PRELOAD selects boundary scan. -/
def samplePreloadDoes : Prop :=
  ∀ (s : State),
    ∃ t, exec .samplePreload s = .next t ∧ (s.pkg.keep = true → t.pkg.jtagIr = 0x02 ∧ t.regs = s.regs ∧ t.out = s.out) ∧
      (s.pkg.keep = false → t = s)

/-- BYPASS (R616). JTAG instruction BYPASS, or any unlisted code, selects the 1-bit register. -/
def bypassDoes : Prop :=
  ∀ (code : Fin 256) (s : State), s.pkg.keep = true →
    ∃ t, exec (.bypass code) s = .next t ∧ t.regs = s.regs ∧ t.out = s.out ∧
      ([0x00, 0x01, 0x02, 0x3C].contains code.val = false → t.pkg.jtagIr = 0xFF) ∧
      ([0x00, 0x01, 0x02, 0x3C].contains code.val = true → t = s)

/-- BBX_DATA (R617). A BBX_DATA Update-DR starts a black-box command whose result a later capture returns. -/
def bbxDataDoes : Prop :=
  ∀ (bytes : List Byte) (s : State), s.pkg.keep = true →
    ∃ t, exec (.bbxData bytes) s = .next t ∧ t.pkg.jtagIr = 0x3C ∧ t.regs = s.regs ∧ t.bbx = s.bbx ∧
      (s.ready rdyKeeper = false → t.out = .answer "JTAG" (bbxCapture 2 (ofLe (bytes.take 1)) []) :: s.out) ∧
      (s.ready rdyKeeper = true → ofLe (bytes.take 1) = 1 → t.out = .answer "JTAG" (bbxCapture 0 1 s.keeperStatus) :: s.out) ∧
      (∀ rs, s.ready rdyKeeper = true → ofLe (bytes.take 1) = 2 →
        rs = s.recordsFrom (ofLe ((bytes.drop 1).take 8)) (clampN 1 8 (ofLe ((bytes.drop 9).take 1))) →
        t.out = .answer "JTAG" (if rs = [] then bbxCapture 4 2 [] else bbxCapture 0 2 (rs.flatMap BbxRecord.bytes)) :: s.out) ∧
      (∀ rs, s.ready rdyKeeper = true → ofLe (bytes.take 1) = 3 →
        rs = s.recordsFrom (ofLe ((bytes.drop 1).take 8)) (clampN 1 4096 (ofLe ((bytes.drop 9).take 2))) →
        (s.ready rdyIdentity = false ∨ s.ready rdyBbx = false → t.out = .answer "JTAG" (bbxCapture 2 3 []) :: s.out) ∧
        (s.ready rdyIdentity = true → s.ready rdyBbx = true → rs = [] → t.out = .answer "JTAG" (bbxCapture 4 3 []) :: s.out) ∧
        (s.ready rdyIdentity = true → s.ready rdyBbx = true → rs ≠ [] →
          t.out = .answer "JTAG" (bbxCapture 0 3 (s.seal rs (padTo 32 ((bytes.drop 11).take 32))).1) :: s.out)) ∧
      (s.ready rdyKeeper = true → ofLe (bytes.take 1) = 0 ∨ 3 < ofLe (bytes.take 1) →
        t.out = .answer "JTAG" (bbxCapture 3 (ofLe (bytes.take 1)) []) :: s.out)

/-- GET_VERSION (R579). SPDM GET_VERSION returns versions 1.2 and 1.3. -/
def getVersionDoes : Prop :=
  ∀ (tr : Fin 2) (s : State),
    ∃ t, exec (.getVersion tr) s = .next t ∧
      (s.spdmReach tr = false → t = s) ∧ (s.spdmReach tr = true → s.flag SEC.STATUS.DERIVING 0 = true → t = s.emit (.spdm tr (.error spdmBusy))) ∧
      (s.spdmReach tr = true → s.flag SEC.STATUS.DERIVING 0 = false → t.out = .spdm tr (.version [0x12, 0x13]) :: s.out ∧
        t.spdmConn tr = { version := true } ∧ t.regs = s.regs)

/-- GET_CAPABILITIES (R579). SPDM GET_CAPABILITIES returns the device's capabilities. -/
def getCapabilitiesDoes : Prop :=
  ∀ (tr : Fin 2) (s : State),
    ∃ t, exec (.getCapabilities tr) s = .next t ∧
      (s.spdmReach tr = false → t = s) ∧ (s.spdmReach tr = true → s.flag SEC.STATUS.DERIVING 0 = true → t = s.emit (.spdm tr (.error spdmBusy))) ∧
      (s.spdmReach tr = true → s.flag SEC.STATUS.DERIVING 0 = false → (s.spdmConn tr).version = true →
        t.out = .spdm tr (.capabilities true true 2 true 17) :: s.out ∧ t.spdmConn tr = { version := true, capabilities := true }) ∧
      (s.spdmReach tr = true → s.flag SEC.STATUS.DERIVING 0 = false → (s.spdmConn tr).version = false → t = s.emit (.spdm tr (.error spdmUnexpected)))

/-- NEGOTIATE_ALGORITHMS (R579). SPDM NEGOTIATE_ALGORITHMS selects P-384 and SHA-384. -/
def negotiateAlgorithmsDoes : Prop :=
  ∀ (tr : Fin 2) (offered : Bool) (s : State),
    ∃ t, exec (.negotiateAlgorithms tr offered) s = .next t ∧
      (s.spdmReach tr = false → t = s) ∧ (s.spdmReach tr = true → s.flag SEC.STATUS.DERIVING 0 = true → t = s.emit (.spdm tr (.error spdmBusy))) ∧
      (s.spdmReach tr = true → s.flag SEC.STATUS.DERIVING 0 = false → (s.spdmConn tr).capabilities = true →
        t.out = .spdm tr (.algorithms offered) :: s.out ∧
        t.spdmConn tr = { version := true, capabilities := true, algorithms := offered }) ∧
      (s.spdmReach tr = true → s.flag SEC.STATUS.DERIVING 0 = false → (s.spdmConn tr).capabilities = false → t = s.emit (.spdm tr (.error spdmUnexpected)))

/-- GET_DIGESTS (R579). SPDM GET_DIGESTS returns the slot 0 chain digest. -/
def getDigestsDoes : Prop :=
  ∀ (tr : Fin 2) (s : State),
    ∃ t, exec (.getDigests tr) s = .next t ∧
      (s.spdmReach tr = false → t = s) ∧ (s.spdmReach tr = true → s.flag SEC.STATUS.DERIVING 0 = true → t = s.emit (.spdm tr (.error spdmBusy))) ∧
      (s.spdmReach tr = true → s.flag SEC.STATUS.DERIVING 0 = false → (s.spdmConn tr).algorithms = true → t = s.emit (.spdm tr (.digests (sha384 s.certChain)))) ∧
      (s.spdmReach tr = true → s.flag SEC.STATUS.DERIVING 0 = false → (s.spdmConn tr).algorithms = false → t = s.emit (.spdm tr (.error spdmUnexpected)))

/-- GET_CERTIFICATE (R579). SPDM GET_CERTIFICATE returns the certificate chain, root first. -/
def getCertificateDoes : Prop :=
  ∀ (tr : Fin 2) (slot : Fin 8) (off len : Fin 65536) (s : State),
    ∃ t, exec (.getCertificate tr slot off len) s = .next t ∧
      (s.spdmReach tr = false → t = s) ∧ (s.spdmReach tr = true → s.flag SEC.STATUS.DERIVING 0 = true → t = s.emit (.spdm tr (.error spdmBusy))) ∧
      (s.spdmReach tr = true → s.flag SEC.STATUS.DERIVING 0 = false → (s.spdmConn tr).algorithms = false → t = s.emit (.spdm tr (.error spdmUnexpected))) ∧
      (s.spdmReach tr = true → s.flag SEC.STATUS.DERIVING 0 = false → (s.spdmConn tr).algorithms = true → slot.val ≠ 0 → t = s.emit (.spdm tr (.error spdmInvalid))) ∧
      (s.spdmReach tr = true → s.flag SEC.STATUS.DERIVING 0 = false → (s.spdmConn tr).algorithms = true → slot.val = 0 → ∃ part rest, t = s.emit (.spdm tr (.certificate part rest)) ∧
        part = (s.certChain.drop off.val).take len.val ∧ rest = s.certChain.length - off.val - part.length)

/-- CHALLENGE (R579). SPDM CHALLENGE is answered signed with the alias key. -/
def challengeDoes : Prop :=
  ∀ (tr : Fin 2) (slot : Fin 8) (nonce : List Byte) (s : State),
    ∃ t, exec (.challenge tr slot nonce) s = .next t ∧ t.regs = s.regs ∧
      (s.spdmReach tr = false → t = s) ∧ (s.spdmReach tr = true → s.flag SEC.STATUS.DERIVING 0 = true → t = s.emit (.spdm tr (.error spdmBusy))) ∧
      (s.spdmReach tr = true → s.flag SEC.STATUS.DERIVING 0 = false → (s.spdmConn tr).algorithms = false → t = s.emit (.spdm tr (.error spdmUnexpected))) ∧
      (s.spdmReach tr = true → s.flag SEC.STATUS.DERIVING 0 = false → (s.spdmConn tr).algorithms = true → slot.val ≠ 0 → t = s.emit (.spdm tr (.error spdmInvalid))) ∧
      (s.spdmReach tr = true → s.flag SEC.STATUS.DERIVING 0 = false → (s.spdmConn tr).algorithms = true → slot.val = 0 → t.drawn = s.drawn + 1 ∧ t.out = .spdm tr (.challengeAuth nonce
        (padTo 96 (Config.signature s.drawn (nonce ++ sha384 s.certChain ++ s.measurements.flatMap (·.2))))) :: s.out)

/-- GET_MEASUREMENTS (R579). SPDM GET_MEASUREMENTS returns measurements 1–5, signed when asked. -/
def getMeasurementsDoes : Prop :=
  ∀ (tr : Fin 2) (index : Fin 256) (nonce : List Byte) (signed : Bool) (s : State),
    ∃ t, exec (.getMeasurements tr index nonce signed) s = .next t ∧ t.regs = s.regs ∧
      (s.spdmReach tr = false → t = s) ∧ (s.spdmReach tr = true → s.flag SEC.STATUS.DERIVING 0 = true → t = s.emit (.spdm tr (.error spdmBusy))) ∧
      (s.spdmReach tr = true → s.flag SEC.STATUS.DERIVING 0 = false → (s.spdmConn tr).algorithms = false → t = s.emit (.spdm tr (.error spdmUnexpected))) ∧
      (s.spdmReach tr = true → s.flag SEC.STATUS.DERIVING 0 = false → (s.spdmConn tr).algorithms = true → 5 < index.val → index.val ≠ 255 → t = s.emit (.spdm tr (.error spdmInvalid))) ∧
      (s.spdmReach tr = true → s.flag SEC.STATUS.DERIVING 0 = false → (s.spdmConn tr).algorithms = true → index.val ≤ 5 ∨ index.val = 255 → ∃ sig, t.out = .spdm tr (.measurements
        (s.measurements.filter fun m => index.val = 255 || m.1 = index.val) sig) :: s.out ∧ sig.isSome = signed)

/-- SPDM_UNSUPPORTED_REQUEST (R579). Any other SPDM request, or one during derivation, is answered with an SPDM ERROR. -/
def spdmUnsupportedRequestDoes : Prop :=
  ∀ (tr : Fin 2) (s : State),
    ∃ t, exec (.spdmUnsupportedRequest tr) s = .next t ∧
      (s.spdmReach tr = false → t = s) ∧ (s.spdmReach tr = true → s.flag SEC.STATUS.DERIVING 0 = true → t = s.emit (.spdm tr (.error spdmBusy))) ∧
      (s.spdmReach tr = true → s.flag SEC.STATUS.DERIVING 0 = false → t = s.emit (.spdm tr (.error spdmUnsupported)))

/-- ALIAS_DERIVE_DONE (R577). An alias derivation ends with a new certificate, ALIAS_EPOCH incremented and ALIAS_CHANGED
raised. -/
def aliasDeriveDoneDoes : Prop :=
  ∀ (s : State), s.flag SEC.STATUS.DERIVING 0 = true →
    ∃ t, exec .aliasDeriveDone s = .next t ∧ t.sec.alias_ = some (s.sec.meas2, s.sec.meas3) ∧ t.get SEC.STATUS.ALIAS_VALID 0 = 1 ∧
      t.get SEC.STATUS.DERIVING 0 = b2n s.sec.again ∧ t.sec.again = false ∧
      t.get SEC.STATUS.ALIAS_EPOCH 0 = (s.get SEC.STATUS.ALIAS_EPOCH 0 + 1) % 2 ^ 16 ∧
      t.get SEC.INT_CAUSE.ALIAS_CHANGED 0 = 1 ∧ (s.sec.chainLoaded = true → t.ready rdyIdentity = true) ∧
      (s.sec.chainLoaded = false → t.ready rdyIdentity = s.ready rdyIdentity)

/-- PROVISION (R583). An owner-key command PROVISION is checked and fuses a new key into an empty slot. -/
def provisionDoes : Prop :=
  ∀ (fn : FnNo) (v : Word) (s : State), s.hostReach 0 true = true → s.keyCommand.op = 1 →
    ∃ t, exec (.provision fn v) s = .next t ∧
      (fn.val ≠ 0 ∨ bitsOf v 0 1 = 0 ∨ bitsOf v 16 16 ≠ 0x2048 → t = s) ∧
      (fn.val = 0 → bitsOf v 0 1 = 1 → bitsOf v 16 16 = 0x2048 → s.keyStatus s.keyCommand ≠ 0 →
        t.get SEC.KEY_CTRL.STATUS 0 = s.keyStatus s.keyCommand ∧ t.sec = s.sec ∧ t.get SEC.KEY_CTRL.BUSY 0 = s.get SEC.KEY_CTRL.BUSY 0) ∧
      (fn.val = 0 → bitsOf v 0 1 = 1 → bitsOf v 16 16 = 0x2048 → s.keyStatus s.keyCommand = 0 → t.get SEC.KEY_CTRL.BUSY 0 = 1 ∧
        t.get SEC.OWNER_SLOT.PROVISIONED s.keyCommand.target = s.get SEC.OWNER_SLOT.PROVISIONED s.keyCommand.target ∧
        t.sec.keyCmd = some (false, s.keyCommand.target, s.keyCommand.auth, s.keyCommand.key))

/-- REVOKE (R584). An owner-key command REVOKE is checked and revokes a slot, rejecting loads signed by it. -/
def revokeDoes : Prop :=
  ∀ (fn : FnNo) (v : Word) (s : State), s.hostReach 0 true = true → s.keyCommand.op = 2 →
    ∃ t, exec (.revoke fn v) s = .next t ∧
      (fn.val ≠ 0 ∨ bitsOf v 0 1 = 0 ∨ bitsOf v 16 16 ≠ 0x2048 → t = s) ∧
      (fn.val = 0 → bitsOf v 0 1 = 1 → bitsOf v 16 16 = 0x2048 → s.keyStatus s.keyCommand ≠ 0 →
        t.get SEC.KEY_CTRL.STATUS 0 = s.keyStatus s.keyCommand ∧ t.sec = s.sec ∧ t.get SEC.KEY_CTRL.BUSY 0 = s.get SEC.KEY_CTRL.BUSY 0) ∧
      (fn.val = 0 → bitsOf v 0 1 = 1 → bitsOf v 16 16 = 0x2048 → s.keyStatus s.keyCommand = 0 → t.get SEC.KEY_CTRL.BUSY 0 = 1 ∧ t.get SEC.OWNER_SLOT.REVOKED s.keyCommand.target = 1 ∧
        t.sec.keyCmd = some (true, s.keyCommand.target, s.keyCommand.auth, s.keyCommand.key) ∧
        (∀ l, s.loadOpen = true → s.cf.load = some l → l.checked = true → l.keySlot = s.keyCommand.target → s.cf.bootSlots = [] →
          t.cf.load = none ∧ t.get CFG.LOAD_STATUS.STATE 0 = 5 ∧ t.get CFG.LOAD_STATUS.CAUSE 0 = 7))

/-- FW_LOAD (R588). A write of SEC.FW_CTRL.LOAD starts loading a firmware package from host memory. -/
def fwLoadDoes : Prop :=
  ∀ (v : Word) (s : State), s.hostReach 0 true = true →
    ∃ t, exec (.fwLoad v) s = .next t ∧ (bitsOf v 0 1 = 0 → t = s) ∧
      (bitsOf v 0 1 = 1 → s.sec.fwLoading = true ∨ s.bothStarting = true → t.get SEC.FW_STATUS.STATE 0 = 2 ∧ t.sec = s.sec ∧ t.out = s.out) ∧
      (bitsOf v 0 1 = 1 → s.sec.fwLoading = false → s.bothStarting = false →
        t.get SEC.FW_STATUS.STATE 0 = 1 ∧ t.get SEC.FW_STATUS.CAUSE 0 = 0 ∧ t.sec.fwLoading = true ∧
        (s.busMaster 0 = true → t.out = .fetch (s.get SEC.FW_ADDR.ADDR 0 * 64) 512 :: s.out))

/-- FW_LOAD_DONE (R586). A firmware package is verified and becomes pending, or is rejected with SEC_FW_REJECT. -/
def fwLoadDoneDoes : Prop :=
  ∀ (h p : List Byte) (hf pf : Bool) (s : State), s.sec.fwLoading = true →
    ∃ t, exec (.fwLoadDone h p hf pf) s = .next t ∧ t.sec.fwLoading = false ∧
      (s.busMaster 0 = true → s.fwCause h p hf pf 7 = 0 → t.get SEC.FW_STATUS.STATE 0 = 0 ∧ t.get SEC.FW_STATUS.PENDING_VALID 0 = 1 ∧
        t.get SEC.FW_STATUS.PENDING_VERSION 0 = leField h 0x0C 4 ∧ t.get SEC.INT_CAUSE.FW_DONE 0 = 1 ∧
        t.sec.pendingFw = some { version := leField h 0x0C 4, svn := leField h 9 1, digest := sha384 (h ++ p) }) ∧
      (s.busMaster 0 = true → s.fwCause h p hf pf 7 ≠ 0 → t.get SEC.FW_STATUS.STATE 0 = 3 ∧ t.get SEC.FW_STATUS.CAUSE 0 = s.fwCause h p hf pf 7 ∧
        t.get SEC.INT_CAUSE.FW_REJECT 0 = 1 ∧ t.sec.pendingFw = s.sec.pendingFw) ∧
      (s.busMaster 0 = false → t.get SEC.FW_STATUS.STATE 0 = 3 ∧ t.get SEC.FW_STATUS.CAUSE 0 = 7 ∧ t.sec.pendingFw = s.sec.pendingFw)

/-- COMMIT_SVN (R589). A keyed write of COMMIT_SVN raises the fused security version to that of the running firmware. -/
def commitSvnDoes : Prop :=
  ∀ (v : Word) (f : Firmware) (s : State), s.hostReach 0 true = true → s.sec.verified = some f →
    ∃ t, exec (.commitSvn v) s = .next t ∧
      (bitsOf v 1 1 = 0 ∨ bitsOf v 16 16 ≠ 0x2048 → t = s) ∧
      (bitsOf v 1 1 = 1 → bitsOf v 16 16 = 0x2048 → s.inService 0 = true → s.inService 1 = true →
        t.get SEC.STATUS.SVN 0 = max (s.get SEC.STATUS.SVN 0) f.svn % 64) ∧
      (bitsOf v 1 1 = 1 → bitsOf v 16 16 = 0x2048 → s.inService 0 = false ∨ s.inService 1 = false →
        t.get SEC.FW_STATUS.STATE 0 = 2 ∧ t.get SEC.STATUS.SVN 0 = s.get SEC.STATUS.SVN 0)

/-- FW_BOOT_READ (R587). At main-domain reset the hub reads and verifies firmware from the preferred flash slot, then the
other. -/
def fwBootReadDoes : Prop :=
  ∀ (h p : List Byte) (hf pf : Bool) (slot : Nat) (rest : List Nat) (s : State), s.sec.fwSlots = slot :: rest →
    ∃ t, exec (.fwBootRead h p hf pf) s = .next t ∧
      (s.fwCause h p hf pf 8 = 0 → t.sec.fwSlots = [] ∧ t.wst 0 = wLoading ∧ t.wst 1 = wLoading ∧
        t.get SEC.FW_BOOT.RUNNING_VERSION 0 = leField h 0x0C 4 ∧ t.get SEC.FW_BOOT.LAST_SLOT 0 = slot % 2 ^ SEC.FW_BOOT.LAST_SLOT.width ∧
        t.sec.verified = some { version := leField h 0x0C 4, svn := leField h 9 1, digest := sha384 (h ++ p) } ∧
        (leField h 0x0A 1 = 1 → ∀ k, s.fwKey h = some k → natBit (t.get SEC.STATUS.VENDOR_REVOKED 0) (1 - k) = true)) ∧
      (s.fwCause h p hf pf 8 ≠ 0 → t.sec.fwSlots = rest ∧ t.get SEC.FW_STATUS.STATE 0 = 3 ∧
        t.get SEC.FW_STATUS.CAUSE 0 = s.fwCause h p hf pf 8 ∧ t.get SEC.INT_CAUSE.FW_REJECT 0 = 1 ∧ t.wst 0 = s.wst 0 ∧ t.wst 1 = s.wst 1)

/-- KEEPER_POWER_ON (R108). VDD_KEEP rising into tolerance resets everything and starts the keeper domain and scan. -/
def keeperPowerOnDoes : Prop :=
  ∀ (s : State), s.pkg.keep = false →
    ∃ t, exec .keeperPowerOn s = .next t ∧ t.pkg.keep = true ∧ t.pkg.keepNow = 0 ∧ t.sec.chainLoaded = true ∧
      t.get SEC.STATUS.DERIVING 0 = 1 ∧ t.bbx.queue = [keeperOnRecord] ∧ t.bbx.scanned = false ∧ t.bbx.ring = s.bbx.ring ∧
      t.bbx.pinned = s.bbx.pinned ∧ t.get TOP.BOOT_INFO.BOOT_COUNT 0 = 0 ∧ t.pkg.hubUp = false ∧ t.sec.ownerKeys = s.sec.ownerKeys

/-- KEEPER_RUNNING (R112). 5 ms after VDD_KEEP the KEEPER bit sets. -/
def keeperRunningDoes : Prop :=
  ∀ (s : State),
    ∃ t, exec .keeperRunning s = .next t ∧ (s.pkg.keep = true → 5 * msTicks ≤ s.pkg.keepNow → t.ready rdyKeeper = true) ∧
      (s.pkg.keep = false ∨ s.pkg.keepNow < 5 * msTicks → t = s)

/-- VDD_KEEP_LOSS (R565). Loss of VDD_KEEP discards queued records and every keeper state. -/
def vddKeepLossDoes : Prop :=
  ∀ (torn : Bool) (s : State),
    ∃ t, exec (.vddKeepLoss torn) s = .next t ∧ t.pkg.keep = false ∧ t.pkg.mainPg = false ∧ t.pkg.hubUp = false ∧ t.sw = {} ∧ t.staging = [] ∧
      t.get TOP.READY.BITS 0 = 0 ∧ t.bbx.queue = [] ∧ t.bbx.scanned = false ∧
      t.sec.ownerKeys = s.sec.ownerKeys ∧ t.get SEC.STATUS.SVN 0 = s.get SEC.STATUS.SVN 0 ∧
      (∀ k, t.reg .SEC_OWNER_SLOT k = s.reg .SEC_OWNER_SLOT k) ∧
      (torn = false ∨ s.bbx.scanned = false ∨ s.bbx.queue = [] → t.bbx.ring = s.bbx.ring ∧ t.bbx.pinned = s.bbx.pinned) ∧
      (∀ r rs, torn = true → s.bbx.scanned = true → s.bbx.queue = r :: rs → pinnedCodes.contains r.code = false →
        t.bbx.pinned = s.bbx.pinned ∧ ∃ w, tabFind t.bbx.ring s.bbx.nextRing = some w ∧ w.seq = s.bbx.nextSeq ∧
          w.chain = leBytes (Config.free s.drawn) 8)

/-- MAIN_POWER_ON (R606). MAIN_PG rising takes the hub out of reset, counts the boot and starts training and flash load. -/
def mainPowerOnDoes : Prop :=
  ∀ (ref25 te : Bool) (s : State), s.pkg.keep = true → s.pkg.mainPg = false →
    ∃ t, exec (.mainPowerOn ref25 te) s = .next t ∧ t.pkg.mainPg = true ∧ t.pkg.hubUp = s.pkg.sysResetN ∧ t.pkg.trip = false ∧
      t.get TOP.BOOT_INFO.BOOT_COUNT 0 = (s.get TOP.BOOT_INFO.BOOT_COUNT 0 + 1) % 2 ^ 32 ∧
      t.get TOP.BOOT_INFO.LAST_RESET 0 = 2 ∧ t.sw.packets = [] ∧
      (s.pkg.sysResetN = true → t.pkg.pcieTraining = s.pkg.perstN ∧ t.get TIME.STATUS.REF_25M 0 = b2n ref25 ∧
        t.sec.fwSlots = [s.get SEC.FW_BOOT.PREFERRED 0, 1 - s.get SEC.FW_BOOT.PREFERRED 0] ∧ (∀ k, k < 2 → t.hbmState k = hbmTraining) ∧
        (s.get CFG.BOOT.FLASH_BOOT_EN 0 = 1 → t.get CFG.LOAD_STATUS.STATE 0 = 1 ∧
          ∃ l, t.cf.load = some l ∧ l.source = s.get CFG.BOOT.PREFERRED_SLOT 0 + 1)) ∧
      (s.pkg.sysResetN = false → t.pkg.pcieTraining = false ∧ t.cf.load = none) ∧
      (te = true → natBit (s.get TOP.MON_STATUS.ACTIVE 0) 21 = false → natBit (t.get TOP.MON_STATUS.ACTIVE 0) 21 = true)

/-- MAIN_PG_FALL (R606). MAIN_PG falling begins a main-domain reset within 1 µs. -/
def mainPgFallDoes : Prop :=
  ∀ (s : State),
    ∃ t, exec .mainPgFall s = .next t ∧ (s.pkg.mainPg = false → t = s) ∧
      (s.pkg.mainPg = true → t.pkg.mainPg = false ∧ t.pkg.hubUp = false ∧ t.sw = {} ∧ t.cf = {} ∧ t.staging = [] ∧
        t.get TOP.READY.BITS 0 = s.get TOP.READY.BITS 0 % 8 ∧
        (∀ k, t.reg .SEC_OWNER_SLOT k = s.reg .SEC_OWNER_SLOT k) ∧ t.bbx.ring = s.bbx.ring ∧ t.bbx.queue = s.bbx.queue ∧
        t.get TOP.BOOT_INFO.BOOT_COUNT 0 = s.get TOP.BOOT_INFO.BOOT_COUNT 0 ∧
        t.get CFG.BOOT.PREFERRED_SLOT 0 = s.get CFG.BOOT.PREFERRED_SLOT 0)

/-- SYS_RESET (R608). SYS_RESET_N low for 1 µs or more causes a device reset, left at its rising edge. -/
def sysResetDoes : Prop :=
  ∀ (n : Nat) (s : State),
    ∃ t, exec (.sysReset n) s = .next t ∧ (n < usTicks ∨ s.pkg.sysResetN = false → t = s) ∧
      (usTicks ≤ n → s.pkg.sysResetN = true → t.pkg.sysResetN = false ∧
        (s.pkg.mainPg = true → t.pkg.hubUp = false ∧ t.pkg.mainPg = true ∧ t.sw = {} ∧ t.get TOP.BOOT_INFO.LAST_RESET 0 = 3 ∧
          t.get TOP.BOOT_INFO.BOOT_COUNT 0 = (s.get TOP.BOOT_INFO.BOOT_COUNT 0 + 1) % 2 ^ 32) ∧
        (s.pkg.mainPg = false → t.regs = s.regs))

/-- RESET_CTRL_WRITE (R111). A keyed PF write of TOP.RESET_CTRL.DEVICE starts a device reset. -/
def resetCtrlWriteDoes : Prop :=
  ∀ (fn : FnNo) (v : Word) (s : State), s.hostReach fn true = true →
    ∃ t, exec (.resetCtrlWrite fn v) s = .next t ∧
      (fn.val ≠ 0 ∨ bitsOf v 0 1 = 0 ∨ bitsOf v 16 16 ≠ 0x2048 ∨ s.pkg.mainPg = false → t = s) ∧
      (fn.val = 0 → bitsOf v 0 1 = 1 → bitsOf v 16 16 = 0x2048 → s.pkg.mainPg = true →
        t.get TOP.BOOT_INFO.LAST_RESET 0 = 4 ∧ t.pkg.hubUp = s.pkg.sysResetN ∧
        t.get TOP.BOOT_INFO.BOOT_COUNT 0 = (s.get TOP.BOOT_INFO.BOOT_COUNT 0 + 1) % 2 ^ 32 ∧ t.sw.packets = [] ∧ t.cf.image = none)

/-- HOST_RESET (R108). PERST#, hot reset or link-down clears PCI Express state, DMA rings and the PCIE bit. -/
def hostResetDoes : Prop :=
  ∀ (cause : HostDown) (s : State),
    ∃ t, exec (.hostReset cause) s = .next t ∧ t.ready rdyPcie = false ∧ t.hif.vfEnable = false ∧ t.hif.numVfs = 0 ∧ t.hif.msix = [] ∧
      t.hif.pfBme = false ∧ t.get HIF.TROUPE_STATE.BME 0 = 0 ∧ t.get HIF.LINK_STATUS.SPEED 0 = 0 ∧ t.get HIF.LINK_STATUS.WIDTH 0 = 0 ∧
      (∀ r, r < 512 → tabGet 0 s.image.txOwner r < 64 → t.get HIF.TX_CFG.EN r = 0) ∧
      (∀ r, r < 512 → tabGet 0 s.image.rxOwner r < 64 → t.get HIF.RX_CFG.EN r = 0) ∧
      (cause = .perst → t.pkg.perstN = false ∧ t.pkg.pcieTraining = false) ∧
      (cause ≠ .perst → t.pkg.perstN = s.pkg.perstN ∧ t.pkg.pcieTraining = (s.pkg.perstN && s.pkg.hubUp)) ∧
      (∀ n, n < 64 → 1 ≤ n → t.get HIF.TROUPE_STATE.VF_PRESENT n = 0) ∧
      (∀ l, s.loadOpen = true → s.cf.load = some l → l.source = 0 → s.cf.bootSlots = [] →
        t.cf.load = none ∧ t.get CFG.LOAD_STATUS.STATE 0 = loadRejected)

/-- PCIE_LINK_UP (R630). Link training ends and the PCIE bit sets once BAR0 is accessible. -/
def pcieLinkUpDoes : Prop :=
  ∀ (speed : Fin 6) (w : Fin 5) (s : State), s.pkg.pcieTraining = true →
    ∃ t, exec (.pcieLinkUp speed w) s = .next t ∧ t.ready rdyPcie = true ∧ t.pkg.pcieTraining = false ∧
      t.get HIF.LINK_STATUS.SPEED 0 = speed.val + 1 ∧ t.get HIF.LINK_STATUS.WIDTH 0 = 2 ^ w.val ∧
      t.get HIF.LINK_STATUS.FLIT 0 = b2n (speed.val = 5) ∧
      (speed.val < 5 ∨ w.val < 4 → t.get HIF.LINK_STATUS.DOWNGRADED 0 = 1 ∧ t.get HIF.INT_CAUSE.LINK_DOWNGRADE 0 = 1) ∧
      (speed.val = 5 → w.val = 4 → t.get HIF.LINK_STATUS.DOWNGRADED 0 = s.get HIF.LINK_STATUS.DOWNGRADED 0)

/-- FLR (R523). A function-level reset of VF n resets the troupe's window state, rings and leases. -/
def flrDoes : Prop :=
  ∀ (fn : FnNo) (s : State),
    ∃ t, exec (.flr fn) s = .next t ∧ (fn.val = 0 → t = s) ∧
      (fn.val ≠ 0 → t.get HIF.TROUPE_STATE.BME fn = 0 ∧ t.reg .WIN_INT_EN fn = 0 ∧ t.reg .WIN_INT_CAUSE fn = 0 ∧ t.reg .CFG_VIEW fn = 0 ∧
        (∀ l ∈ t.cf.latches, l.fn ≠ fn.val) ∧ tabFind t.hif.msix fn = none ∧
        (∀ r, r < 512 → s.ringOwner .tx r = fn.val → t.get HIF.TX_CFG.EN r = 0 ∧ t.get HIF.TX_IDX.PROD r = 0 ∧ t.get HIF.TX_IDX.CONS r = 0) ∧
        (∀ r, r < 512 → s.ringOwner .rx r = fn.val → t.get HIF.RX_CFG.EN r = 0) ∧
        (∀ r, r < 512 → s.ringOwner .tx r ≠ fn.val → t.get HIF.TX_CFG.EN r = s.get HIF.TX_CFG.EN r) ∧ t.hif.vfEnable = s.hif.vfEnable)

/-- PF_FLR (R509). A PF FLR resets every VF, troupe 0's rings, the PF's MSI-X state and its latches. -/
def pfFlrDoes : Prop :=
  ∀ (s : State),
    ∃ t, exec .pfFlr s = .next t ∧ t.hif.vfEnable = false ∧ t.hif.pfBme = false ∧ t.get HIF.TROUPE_STATE.BME 0 = 0 ∧
      t.reg .CFG_VIEW 0 = 0 ∧ tabFind t.hif.msix 0 = none ∧ (∀ l ∈ t.cf.latches, 64 ≤ l.fn) ∧
      (∀ r, r < 512 → s.ringOwner .tx r < 64 → t.get HIF.TX_CFG.EN r = 0) ∧
      (∀ n, n < 64 → 1 ≤ n → t.get HIF.TROUPE_STATE.VF_PRESENT n = 0 ∧ t.get HIF.TROUPE_STATE.BME n = 0)

/-- MONITOR_TRIP (R619). A monitor trips, latching READING, counting and writing MON_TRIP within its limit. -/
def monitorTripDoes : Prop :=
  ∀ (m : Fin 22) (r : BitVec 32) (s : State), s.pkg.keep = true →
    ∃ t, exec (.monitorTrip m r) s = .next t ∧ (natBit (s.get TOP.MON_STATUS.ACTIVE 0) m = true → t = s) ∧
      (natBit (s.get TOP.MON_STATUS.ACTIVE 0) m = false → natBit (t.get TOP.MON_STATUS.ACTIVE 0) m = true ∧
        natBit (t.get TOP.MON_STATUS.SEEN 0) m = true ∧ t.get TOP.MON_READING.READING m = r.toNat ∧
        t.get TOP.MON_READING.TRIPS m = min (s.get TOP.MON_READING.TRIPS m + 1) (2 ^ TOP.MON_READING.TRIPS.width - 1) ∧
        (m.val = 17 → t.get TIME.STATUS.REF_PRESENT 0 = 0) ∧
        (m.val ≠ 17 → tabFind s.pkg.monRecord m = none → tabFind t.pkg.monRecord m = some (s.get TOP.BOOT_INFO.BOOT_COUNT 0)) ∧
        (∀ p ∈ s.image.ports, 12 ≤ m.val → m.val ≤ 15 → p.port / 128 = m.val - 12 → ∀ l ∈ s.lanesOf p.port,
          t.get LANE.RX_STATUS.CDR_LOCK l = 0))

/-- MONITOR_CLEAR (R618). A monitor's quantity back in range for 1 ms ends its active state. -/
def monitorClearDoes : Prop :=
  ∀ (m : Fin 22) (s : State),
    ∃ t, exec (.monitorClear m) s = .next t ∧ natBit (t.get TOP.MON_STATUS.ACTIVE 0) m = false ∧
      t.get TOP.MON_STATUS.SEEN 0 = s.get TOP.MON_STATUS.SEEN 0

/-- HOST_LOAD_START (R72). A write of CFG.LOAD_CTRL.START with SOURCE 0 starts fetching an image by DMA, or is refused
BUSY. -/
def hostLoadStartDoes : Prop :=
  ∀ (v : Word) (s : State), s.hostReach 0 true = true → bitsOf v 0 1 = 1 →
    ∃ t, exec (.hostLoadStart v) s = .next t ∧
      (s.cf.load = none → bitsOf v 2 2 ≠ 3 → t.get CFG.LOAD_STATUS.STATE 0 = 1 ∧ t.get CFG.LOAD_STATUS.CAUSE 0 = 0 ∧
        t.get CFG.LOAD_STATUS.SECTION 0 = 255 ∧ t.get CFG.LOAD_STATUS.KIB_DONE 0 = 0 ∧
        (bitsOf v 2 2 = 0 → t.out = .fetch (s.get CFG.LOAD_ADDR.ADDR 0) (if bitsOf v 4 1 = 1 then 16 else 256) :: s.out) ∧
        ∃ l : LoadRec, t.cf.load = some l ∧ l.source = bitsOf v 2 2 ∧ l.verifyOnly = (bitsOf v 8 1 == 1) ∧ l.list = (bitsOf v 4 1 == 1) ∧
          l.addr = s.get CFG.LOAD_ADDR.ADDR 0 ∧ l.checked = false ∧ l.verified = false) ∧
      (s.cf.load = none → bitsOf v 2 2 = 3 → s.cf.bootSlots = [] → t.cf.load = none ∧
        t.get CFG.LOAD_STATUS.STATE 0 = 5 ∧ t.get CFG.LOAD_STATUS.CAUSE 0 = 2 ∧ t.get CFG.LOAD_STATUS.REJECT_SEEN 0 = 1) ∧
      (s.cf.load.isSome = true → bitsOf v 1 1 = 0 → t.cf.load = s.cf.load ∧
        t.get CFG.LOAD_STATUS.CAUSE 0 = 0x10 ∧ t.get CFG.LOAD_STATUS.REJECT_SEEN 0 = 1 ∧
        t.get CFG.LOAD_STATUS.STATE 0 = s.get CFG.LOAD_STATUS.STATE 0)

/-- LOAD_ABORT (R73). A write of CFG.LOAD_CTRL.ABORT abandons a load before APPLY with cause ABORTED. -/
def loadAbortDoes : Prop :=
  ∀ (v : Word) (s : State), s.hostReach 0 true = true → bitsOf v 0 1 = 0 → bitsOf v 1 1 = 1 →
    ∃ t, exec (.loadAbort v) s = .next t ∧
      (s.loadOpen = true → t.get CFG.LOAD_STATUS.REJECT_SEEN 0 = 1 ∧ t.get CFG.INT_CAUSE.LOAD_REJECT 0 = 1 ∧
        (s.cf.bootSlots = [] → t.cf.load = none ∧ t.get CFG.LOAD_STATUS.STATE 0 = 5 ∧ t.get CFG.LOAD_STATUS.CAUSE 0 = 0x13) ∧
        (∀ k ks, s.cf.bootSlots = k :: ks → t.cf.bootSlots = ks ∧ t.get CFG.LOAD_STATUS.STATE 0 = 1 ∧
          ∃ l : LoadRec, t.cf.load = some l ∧ l.source = k)) ∧
      (s.loadOpen = false → t.cf = s.cf ∧ t.get CFG.LOAD_STATUS.STATE 0 = s.get CFG.LOAD_STATUS.STATE 0 ∧
        t.get CFG.LOAD_STATUS.CAUSE 0 = s.get CFG.LOAD_STATUS.CAUSE 0)

/-- IMAGE_HEADER_CHECK (R73). Header, section table and signature block arrive and steps 1–11 and 14 are checked. -/
def imageHeaderCheckDoes : Prop :=
  ∀ (head sig list : List Byte) (rf : Bool) (l : LoadRec) (s : State), s.cf.load = some l → l.checked = false →
    ∃ t, exec (.imageHeaderCheck head sig list rf) s = .next t ∧
      (∀ i, s.imageCause head sig (s.loadFailed l rf) (l.short head list) l.readCause = (0, i) → t.get CFG.LOAD_STATUS.STATE 0 = 2 ∧
        t.get CFG.LOAD_STATUS.KIB_DONE 0 = (head.length + sig.length) / 1024 % 2 ^ CFG.LOAD_STATUS.KIB_DONE.width ∧
        ∃ k : LoadRec, t.cf.load = some k ∧ k.checked = true ∧ k.sections = sectionTable head ∧ k.toCome = byOffset (sectionTable head) ∧
          k.digest = sha384 (signedRegion head) ∧ k.kind = leField head 0x14 1 ∧ k.troupe = leField head 0x15 1 ∧
          k.memMode = leField head 0x16 1 ∧ k.keySlot = leField head 0x17 1 ∧ k.serial = leField head 0x18 8) ∧
      (∀ cause i, s.imageCause head sig (s.loadFailed l rf) (l.short head list) l.readCause = (cause, i) → cause ≠ 0 → s.cf.bootSlots = [] →
        t.cf.load = none ∧ t.get CFG.LOAD_STATUS.STATE 0 = 5 ∧ t.get CFG.LOAD_STATUS.CAUSE 0 = cause % 256 ∧
        t.get CFG.LOAD_STATUS.SECTION 0 = i % 256 ∧ t.get CFG.LOAD_STATUS.REJECT_SEEN 0 = 1 ∧ t.get CFG.INT_CAUSE.LOAD_REJECT 0 = 1)

/-- SECTION_BODY_CHECK (R73). A section body streams in and is checked against its digest, then steps 12 and 13. -/
def sectionBodyCheckDoes : Prop :=
  ∀ (dg : List Byte) (b : SectionBody) (rf : Bool) (l l' : LoadRec) (i : Nat) (rest : List Nat) (e : SectionEntry) (s : State),
      s.cf.load = some l → l.checked = true → l.verified = false → l.toCome = i :: rest → l.sections[i]? = some e →
      l' = { l with toCome := rest, bytes := l.bytes + e.length,
                    bodies := if (sectionLimit e.type).isSome then l.bodies ++ [(i, sizedBody e.length b)] else l.bodies } →
    ∃ t, exec (.sectionBodyCheck dg b rf) s = .next t ∧
      (∀ c j, (s.loadFailed l rf = true ∧ c = l.readCause ∧ j = 255) ∨
          (s.loadFailed l rf = false ∧ bodyDigest dg (sizedBody e.length b) ≠ e.digest ∧ c = 0x0F ∧ j = i) ∨
          (s.loadFailed l rf = false ∧ bodyDigest dg (sizedBody e.length b) = e.digest ∧ (sectionLimit e.type).isSome = true ∧
            bodyType (sizedBody e.length b) ≠ some e.type ∧ c = 0x0D ∧ j = i) →
        s.cf.bootSlots = [] → t.cf.load = none ∧ t.get CFG.LOAD_STATUS.STATE 0 = 5 ∧
          t.get CFG.LOAD_STATUS.CAUSE 0 = c ∧ t.get CFG.LOAD_STATUS.SECTION 0 = j % 256 ∧ t.get CFG.LOAD_STATUS.REJECT_SEEN 0 = 1) ∧
      (s.loadFailed l rf = false → bodyDigest dg (sizedBody e.length b) = e.digest →
        (sectionLimit e.type).isSome = true → bodyType (sizedBody e.length b) = some e.type →
        (∀ c, s.bodyCause l' e.type = some c → s.cf.bootSlots = [] → t.cf.load = none ∧ t.get CFG.LOAD_STATUS.STATE 0 = 5 ∧
          t.get CFG.LOAD_STATUS.CAUSE 0 = c % 256 ∧ t.get CFG.LOAD_STATUS.SECTION 0 = i % 256) ∧
        (s.bodyCause l' e.type = none → rest ≠ [] → t.cf.load = some l' ∧
          t.get CFG.LOAD_STATUS.KIB_DONE 0 = (l.bytes + e.length) / 1024 % 2 ^ CFG.LOAD_STATUS.KIB_DONE.width) ∧
        (s.bodyCause l' e.type = none → rest = [] → l.verifyOnly = false → t.cf.load = some { l' with verified := true }) ∧
        (s.bodyCause l' e.type = none → rest = [] → l.verifyOnly = true →
          t.cf.load = none ∧ t.get CFG.LOAD_STATUS.STATE 0 = 4 ∧ t.get CFG.LOAD_STATUS.DONE_SEEN 0 = 1 ∧ t.cf.image = s.cf.image))

/-- IMAGE_APPLY (R75). A verified full image enters APPLY, taking ports down, flushing queues and clearing tables and
ready bits. -/
def imageApplyDoes : Prop :=
  ∀ (l : LoadRec) (s : State), s.cf.load = some l → l.verified = true → l.kind = 0 → s.get CFG.LOAD_STATUS.STATE 0 ≠ 3 →
      (s.cf.commits.any fun c => c.phase == .check || c.phase == .fence) = false →
    ∃ t, exec .imageApply s = .next t ∧ t.get CFG.LOAD_STATUS.STATE 0 = 3 ∧ t.ready rdyImage = false ∧ t.ready rdyQm = false ∧
      t.ready rdyCell = false ∧ t.ready rdyMod = false ∧ (∀ d, d < 4 → t.ready (rdyRim d) = false) ∧ t.cf.commits = [] ∧
      t.sw.packets = [] ∧ t.sw.flights = [] ∧ t.sw.descs = [] ∧ t.sw.queues = [] ∧ t.sw.cells = [] ∧
      (∀ n, n < 64 → t.troupeReady n = false) ∧ t.hif.moving = none ∧ t.get CFG.IMAGE_MODE.LOADED 0 = 0 ∧
      t.cf.image = some (buildFull l.memMode (l.bodies.map (·.2))) ∧ t.cf.full = t.cf.image

/-- IMAGE_APPLY_END (R77). The apply ends with the device's closing package commit and the IMAGE bit sets. -/
def imageApplyEndDoes : Prop :=
  ∀ (l : LoadRec) (s : State), s.cf.load = some l → s.fullApply = true →
    ∃ t, exec .imageApplyEnd s = .next t ∧ t.cf.load = none ∧ t.get CFG.LOAD_STATUS.STATE 0 = 4 ∧ t.get CFG.LOAD_STATUS.DONE_SEEN 0 = 1 ∧
      t.ready rdyImage = true ∧ t.ready rdyQm = true ∧ t.ready rdyCell = true ∧ t.get CFG.IMAGE_INFO.SERIAL 0 = l.serial % 2 ^ 64 ∧
      t.get CFG.IMAGE_MODE.LOADED 0 = 1 ∧ t.get CFG.IMAGE_MODE.MEM_MODE 0 = s.image.memMode % 2 ^ CFG.IMAGE_MODE.MEM_MODE.width ∧
      t.get CFG.IMAGE_MODE.SOURCE 0 = l.source % 2 ^ CFG.IMAGE_MODE.SOURCE.width ∧ t.get CFG.INT_CAUSE.LOAD_DONE 0 = 1 ∧
      (∀ p ∈ s.image.troupes, p.troupe < 64 → t.troupeReady p.troupe = true)

/-- TROUPE_IMAGE_APPLY (R102). A verified troupe image is written to the inactive region or with the troupe halted, ending
in a troupe commit. -/
def troupeImageApplyDoes : Prop :=
  ∀ (l : LoadRec) (s : State), s.cf.load = some l → l.verified = true → l.kind = 1 → s.get CFG.LOAD_STATUS.STATE 0 ≠ 3 →
    ∃ t, exec .troupeImageApply s = .next t ∧ t.get CFG.LOAD_STATUS.STATE 0 = 3 ∧ t.cf.image = s.cf.image ∧
      (∃ c ∈ t.cf.commits, c.by_ = .troupeApply l.troupe ∧ c.scope = some l.troupe ∧ c.phase = .check ∧ c.pendingSet = t.staging ∧
        c.change = some (.load l.troupe (l.bodies.map (·.2)))) ∧
      ((s.troupePlan l.troupe).any (·.doubleBuffer) = false → l.troupe < 64 → t.troupeReady l.troupe = false ∧
        (regRecords (l.bodies.map (·.2)) = [] → ∀ x ∈ s.ownPorts l.troupe, ∀ q ∈ s.portQueues x, t.queue q = [])) ∧
      ((s.troupePlan l.troupe).any (·.doubleBuffer) = true → regRecords (l.bodies.map (·.2)) = [] →
        t.troupeReady l.troupe = s.troupeReady l.troupe ∧ t.sw = s.sw) ∧
      (∀ f ∈ t.tel.lines, f.2.flow.troupe = l.troupe → f.2.flow.forced = true)

/-- COMMIT (R82). A write of CFG.COMMIT.GO copies the scope's staging values to the pending set, or is refused BUSY. -/
def commitDoes : Prop :=
  ∀ (v : Word) (s : State), s.hostReach 0 true = true →
    ∃ t, exec (.commit v) s = .next t ∧ t.staging = s.staging ∧ (bitsOf v 0 1 = 0 → t = s) ∧
      (bitsOf v 0 1 = 1 → t.get CFG.COMMIT_STATUS.SCOPE 0 = bitsOf v 1 1 ∧
        (bitsOf v 1 1 = 1 → t.get CFG.COMMIT_STATUS.TROUPE 0 = bitsOf v 8 6)) ∧
      (bitsOf v 0 1 = 1 → s.fullApply = false → s.commitBusy = false →
        t.get CFG.COMMIT_STATUS.STATE 0 = csCheck ∧ t.get CFG.COMMIT_STATUS.CAUSE 0 = 0 ∧
        ∃ c : CommitRec, t.cf.commits = s.cf.commits ++ [c] ∧ c.by_ = .cfg ∧ c.phase = .check ∧ c.pendingSet = s.staging ∧
          c.scope = (if bitsOf v 1 1 = 1 then some (bitsOf v 8 6) else none) ∧ c.defer = (bitsOf v 2 1 == 1)) ∧
      (∀ cause, bitsOf v 0 1 = 1 → (s.fullApply = true ∧ cause = 5) ∨ (s.fullApply = false ∧ s.commitBusy = true ∧ cause = 6) →
        t.get CFG.COMMIT_STATUS.STATE 0 = csRefused ∧ t.get CFG.COMMIT_STATUS.CAUSE 0 = cause ∧
        t.get CFG.COMMIT_STATUS.REFUSED_SEEN 0 = 1 ∧ t.get CFG.INT_CAUSE.COMMIT_REFUSED 0 = 1 ∧ t.cf.commits = s.cf.commits)

/-- COMMIT_FENCE (R86). After checks pass, epoch bits toggle and time-scoped values take effect at once. -/
def commitFenceDoes : Prop :=
  ∀ (c : CommitRec) (s : State), s.nextFence = some c →
    ∃ t, exec .commitFence s = .next t ∧
      (c.forced = false → (s.scopeTroupes c).any s.draining = true → t.staging = s.staging ∧ t.get CFG.EPOCH.BITS 0 = s.get CFG.EPOCH.BITS 0 ∧
        (∀ n, c.fn = some n → t.get CFG.COMMIT_STATUS.STATE n = csWait) ∧
        { c with phase := .waitDrain, waitUntil := s.now + max 1 (s.get CFG.DRAIN_CFG.LIMIT_US 0) * usTicks } ∈ t.cf.commits) ∧
      (∀ cause n, (c.forced || !(s.scopeTroupes c).any s.draining) = true → s.commitCause c = some cause → c.fn = some n →
        t.get CFG.COMMIT_STATUS.STATE n = csRefused ∧ t.get CFG.COMMIT_STATUS.CAUSE n = cause % 256 ∧
        t.get CFG.COMMIT_STATUS.REFUSED_SEEN n = 1 ∧ t.get CFG.EPOCH.BITS 0 = s.get CFG.EPOCH.BITS 0 ∧ c ∉ t.cf.commits) ∧
      ((c.forced || !(s.scopeTroupes c).any s.draining) = true → s.commitCause c = none →
        t.get CFG.EPOCH.BITS 0 = (s.scopeTroupes c).foldl (fun v m => natSetBit v m (!natBit v m)) (s.get CFG.EPOCH.BITS 0) % 2 ^ 64 ∧
        (∀ n, c.fn = some n → t.get CFG.COMMIT_STATUS.STATE n = csFence ∨ t.get CFG.COMMIT_STATUS.STATE n = csDraining) ∧
        (c.change = none → ∀ f i, f.acc = .rws → f.reg ∈ rwsRegs → t.get f i = rfFld (s.committed c) f i) ∧
        (∀ m g, c.by_ = .troupeApply m → c.change = some g → m < 64 →
          t.cf.image = some (g.apply s.image (s.cf.full.getD {})) ∧ t.troupeReady m = true))

/-- COMMIT_DRAIN_END (R88). The last old-epoch packet of the scope leaves and the commit reaches DONE. -/
def commitDrainEndDoes : Prop :=
  ∀ (c : CommitRec) (s : State),
      (s.refreshDrain.cf.commits.find? fun c => c.phase == .draining && !c.troupes.any s.refreshDrain.draining) = some c →
    ∃ t, exec .commitDrainEnd s = .next t ∧ c ∉ t.cf.commits ∧
      (∀ n, c.fn = some n → t.get CFG.COMMIT_STATUS.STATE n = csDone ∧ t.get CFG.COMMIT_STATUS.DONE_SEEN n = 1 ∧
        (n = 0 → t.get CFG.INT_CAUSE.COMMIT_DONE 0 = 1) ∧ (n ≠ 0 → t.get WIN.INT_CAUSE.COMMIT_DONE n = 1)) ∧
      (∀ m, c.by_ = .troupeApply m → (∀ d, d < 4 → s.ready (rdyRim d) = true) →
        ∀ e ∈ s.image.tables, e.2.troupe = m → t.get TBL.STATUS.READY e.1 = 1)

/-- DRAIN_LIMIT_EXPIRY (R89). A commit waiting in WAIT_DRAIN past LIMIT_US marks stale frames and proceeds, or is refused
DRAINING. -/
def drainLimitExpiryDoes : Prop :=
  ∀ (c : CommitRec) (s : State),
      (s.cf.commits.find? fun c => c.phase == .waitDrain && !c.forced && decide (c.waitUntil ≤ s.now)) = some c →
      (s.scopeTroupes c).any s.draining = true →
    ∃ t, exec .drainLimitExpiry s = .next t ∧
      (s.flag CFG.DRAIN_CFG.STALE_DROP_EN 0 = true ∨ c.fn = none → t.get CFG.INT_CAUSE.STALE_DROP 0 = 1 ∧
        (∀ n, c.fn = some n → t.get CFG.COMMIT_STATUS.STALE_SEEN n = 1) ∧
        (∀ m k v, m ∈ s.scopeTroupes c → s.draining m = true → s.packet k = some v → s.oldPacket m v = true →
          ∃ u, t.packet k = some u ∧ u.stale = true)) ∧
      (∀ n, s.flag CFG.DRAIN_CFG.STALE_DROP_EN 0 = false → c.fn = some n →
        t.get CFG.COMMIT_STATUS.STATE n = csRefused ∧ t.get CFG.COMMIT_STATUS.CAUSE n = 7 ∧
        t.get CFG.COMMIT_STATUS.REFUSED_SEEN n = 1 ∧ c ∉ t.cf.commits ∧ t.sw = s.sw)

/-- PERST_DEASSERT (R630). PERST# rising with the hub out of reset starts PCI Express link training. -/
def perstDeassertDoes : Prop :=
  ∀ (s : State),
    ∃ t, exec .perstDeassert s = .next t ∧ t.pkg.perstN = true ∧ t.pkg.pcieTraining = (s.pkg.hubUp && !s.ready rdyPcie) ∧ t.regs = s.regs

/-- SYS_RESET_N_RELEASE (R608). The rising edge of SYS_RESET_N, with MAIN_PG high, takes the hub out of a device reset and
samples TIME_REF_SEL. -/
def sysResetNReleaseDoes : Prop :=
  ∀ (ref25 : Bool) (s : State), s.pkg.sysResetN = false →
    ∃ t, exec (.sysResetNRelease ref25) s = .next t ∧ t.pkg.sysResetN = true ∧
      (s.pkg.mainPg = true → s.pkg.hubUp = false → t.pkg.hubUp = true ∧ t.pkg.pcieTraining = s.pkg.perstN ∧
        t.get TIME.STATUS.REF_25M 0 = b2n ref25 ∧ t.sec.fwSlots = [s.get SEC.FW_BOOT.PREFERRED 0, 1 - s.get SEC.FW_BOOT.PREFERRED 0] ∧
        t.get TOP.BOOT_INFO.BOOT_COUNT 0 = s.get TOP.BOOT_INFO.BOOT_COUNT 0) ∧
      (s.pkg.mainPg = false → t.regs = s.regs ∧ t.pkg.hubUp = s.pkg.hubUp)

/-- CDR_LOCK (R161). A lane sees signal and its clock recovery locks, setting SIGNAL and CDR_LOCK and ending any SyncE
squelch caused by the lane. -/
def cdrLockDoes : Prop :=
  ∀ (l : LaneNo) (s : State), s.get LANE.CFG.MODE l ≠ 0 → 
    ∃ t, exec (.cdrLock l) s = .next t ∧ t.get LANE.RX_STATUS.SIGNAL l = 1 ∧ t.get LANE.RX_STATUS.CDR_LOCK l = 1

/-- ADAPT_DONE (R142). A lane's initial receive adaptation completes and ADAPT_DONE sets. -/
def adaptDoneDoes : Prop :=
  ∀ (l : LaneNo) (q : Fin 256) (ffe : List Int) (dfe : Int) (s : State), s.get LANE.RX_CFG.ADAPT_EN l = 1 →
      s.get LANE.RX_CFG.FREEZE l = 0 → s.get LANE.RX_STATUS.CDR_LOCK l = 1 → s.get LANE.IDLE_STATUS.RX_IDLE l = 0 →
    ∃ t, exec (.adaptDone l ⟨q, ffe, dfe⟩) s = .next t ∧ t.get LANE.RX_STATUS.ADAPT_DONE l = 1 ∧ t.get LANE.RX_STATUS.SNR l = q.val ∧
      (t.lane l).ffe = ffe.take 24 ∧ (t.lane l).dfe = (if s.get LANE.RX_CFG.DFE_EN l = 0 then 0 else dfe)

/-- ALIGNMENT_MARKER_LOCK (R144). A standard-mode lane locks to the alignment markers of its clause, and the port deskews
and sets DESKEW_OK. -/
def alignmentMarkerLockDoes : Prop :=
  ∀ (l : LaneNo) (s : State), 2 ≤ s.get LANE.CFG.MODE l →
    ∃ t, exec (.alignmentMarkerLock l) s = .next t ∧ (t.lane l).markerLock = true

/-- PORT_FAULT_END (R161). A port's local or remote fault condition ends, for example when remote-fault sequences stop or
the high error-rate condition clears, and the UP_DEBOUNCE_US timer starts. -/
def portFaultEndDoes : Prop :=
  ∀ (l : LaneNo) (k : FaultKind) (x : Nat) (s : State), s.laneOwner l = some x →
    ∃ t, exec (.portFaultEnd l k) s = .next t ∧
      (k = .lossOfSignal → t.get LANE.RX_STATUS.SIGNAL l = 1) ∧ (k = .cdrLock → t.get LANE.RX_STATUS.CDR_LOCK l = 1) ∧
      (k = .deskew → t.get PORT.STATUS.DESKEW_OK x = 1) ∧ (k = .remote → t.get PORT.STATUS.REMOTE_FAULT x = 0) ∧
      t.get PORT.STATUS.LOCAL_FAULT x = b2n (t.localFault x) ∧ t.get PORT.STATUS.REMOTE_FAULT x = b2n (t.port x).remote ∧
      (t.localFault x = false → (t.port x).remote = false →
        (t.port x).faultSince = none ∧ (t.port x).clearSince = some ((s.port x).clearSince.getD s.now))

/-- IEEE_LINK_TRAINING_END (R141). IEEE 802.3 link training of a standard-mode lane ends, and LANE.TX_FIR writes are
accepted again. -/
def ieeeLinkTrainingEndDoes : Prop :=
  ∀ (l : LaneNo) (s : State), 
    ∃ t, exec (.ieeeLinkTrainingEnd l) s = .next t ∧ (t.lane l).training = false

/-- CHECK_SYNC (R134). The raw test-mode checker of a lane synchronises to its pattern and CHECK_SYNC sets. -/
def checkSyncDoes : Prop :=
  ∀ (l : LaneNo) (ph : Fin 2) (n : Nat) (s : State), s.get LANE.TEST.CHECK_EN l = 1 →
    ∃ t, exec (.checkSync ⟨l, ph, n⟩) s = .next t ∧
      (s.get LANE.TEST.CHECK_SYNC l = 0 → s.get LANE.CFG.MODE l ≠ 1 ∨ ((s.lane l).pos + ph.val) % 2 = 0 → t.get LANE.TEST.CHECK_SYNC l = 1) ∧
      (s.get LANE.TEST.CHECK_SYNC l = 0 → s.get LANE.CFG.MODE l = 1 → ((s.lane l).pos + ph.val) % 2 = 1 → t.get LANE.TEST.CHECK_SYNC l = 0) ∧
      (s.get LANE.TEST.CHECK_SYNC l = 1 → t.get LANE.TEST.CHECK_SYNC l = 1 ∧
        t.get LANE.TEST.ERRORS l = min (s.get LANE.TEST.ERRORS l + n) (2 ^ 32 - 1))

/-- CONFIGURATION_REQUEST (R506). A PCI Express configuration write changes VF Enable, NumVFs or Bus Master Enable of a
function. -/
def configurationRequestDoes : Prop :=
  ∀ (w : ConfigWrite) (s : State),
    ∃ t, exec (.configurationRequest w) s = .next t ∧
      (∀ on, w = .vfEnable on → t.hif.vfEnable = on ∧ ∀ n, n < 64 → 1 ≤ n →
        t.get HIF.TROUPE_STATE.VF_PRESENT n = b2n (on && decide (n ≤ s.hif.numVfs))) ∧
      (∀ k, w = .numVfs k → t.hif.numVfs = if s.hif.vfEnable then s.hif.numVfs else k.val) ∧
      (∀ fn on, w = .busMaster fn on → (s.functionHere fn = true → t.get HIF.TROUPE_STATE.BME fn = b2n on) ∧
        (s.functionHere fn = false → t = s)) ∧
      (∀ fn, w = .readIdentity fn → s.functionHere fn = true → t.out = .identity fn (s.get TOP.IDENT.VENDOR 0)
        (if fn.val = 0 then s.get TOP.IDENT.PART 0 else 0x2049) (s.get TOP.IDENT.STEPPING 0) 0x028000 :: s.out) ∧
      (∀ fn, w = .readCapabilities fn → s.functionHere fn = true → ∃ c, t.out = .capabilities fn c :: s.out ∧
        c.totalVfs = (if fn.val = 0 then 63 else 0) ∧ c.tableSize = s.get HIF.MSIX_ALLOC.COUNT fn - 1 ∧ c.flr = true) ∧
      (∀ fn on mask, w = .msixControl fn on mask → s.functionHere fn = true →
        (t.msixOf fn).enabled = on ∧ (t.msixOf fn).funcMask = mask ∧
        (on = true → mask = false → ∀ e, (s.msixOf fn).pendingBits = [e] → (tabGet {} (s.msixOf fn).entries e).masked = false →
          (t.msixOf fn).pendingBits = [] ∧ t.out = .msix fn e :: s.out)) ∧
      (∀ fn k addr data mask, w = .msixEntry fn k addr data mask → s.functionHere fn = true → k.val < s.get HIF.MSIX_ALLOC.COUNT fn →
        tabFind (t.msixOf fn).entries k = some { addr := addr.toNat, data := data.toNat, masked := mask })

/-- RESYNC_COPY_DONE (R557). The copy of the active warden's SRAM and sequence number to the rejoining warden completes,
and the active warden resumes. -/
def resyncCopyDoneDoes : Prop :=
  ∀ (w : Nat) (s : State), s.wardenIn wResync = some w →
    ∃ t, exec .resyncCopyDone s = .next t ∧ (t.warden w).copied = true ∧ t.tnd.paused = false ∧ t.tnd.waiting = [] ∧
      (s.tnd.waiting = [] → t.regs = s.regs ∧ t.tnd.elims = s.tnd.elims) ∧
      (∀ c, s.tnd.waiting = [c] → s.inService c.warden = true → (s.elim c.eliminator).entries = [] →
        seqLater c.seq.toNat (s.elim c.eliminator).last = true →
        (t.elim c.eliminator).last = c.seq.toNat ∧ t.get TND.STATUS.CMD_SEQ 0 = c.seq.toNat)

/-- OWNER_KEY_COMMAND_DONE (R583). An owner-key command that passed its checks finishes its fuse write within 20 ms,
reports STATUS OK, writes its pinned record and raises KEY_DONE. -/
def ownerKeyCommandDoneDoes : Prop :=
  ∀ (rev : Bool) (target auth : Nat) (key : List Byte) (s : State), s.sec.keyCmd = some (rev, target, auth, key) →
    ∃ t, exec .ownerKeyCommandDone s = .next t ∧ t.sec.keyCmd = none ∧ t.get SEC.KEY_CTRL.BUSY 0 = 0 ∧ t.get SEC.KEY_CTRL.STATUS 0 = 0 ∧
      t.get SEC.INT_CAUSE.KEY_DONE 0 = 1 ∧
      (rev = false → t.get SEC.OWNER_SLOT.PROVISIONED target = 1 ∧ tabFind t.sec.ownerKeys target = some key ∧
        ∀ i, i < 6 → t.get SEC.OWNER_HASH.BYTES (6 * target + i) = ofLe (((sha384 key).drop (8 * i)).take 8)) ∧
      (rev = true → t.sec.ownerKeys = s.sec.ownerKeys)

/-- UNKNOWN_OP (R560). A mailbox request whose opcode is neither fixed nor defined by the firmware is answered with STATUS
1, UNKNOWN_OP. -/
def unknownOpDoes : Prop :=
  ∀ (op : Nat) (s : State), s.mbxOpcode = some op → op ≠ 1 → op ≠ 2 → op < 0x100 →
    ∃ t, exec .unknownOp s = .next t ∧ t.get TND.MBX_CTRL.BUSY 0 = 0 ∧ t.get TND.MBX_CTRL.REPLY_SEEN 0 = 1 ∧
      t.get TND.MBX_REPLY.BYTES 0 % 65536 = 1

/-- ZERO_FILL_DONE (R446). Zeroing of the locator and entry regions of a stack that reached READY after the apply
completes, and its TOP.READY bit then sets. -/
def zeroFillDoneDoes : Prop :=
  ∀ (k : Fin 2) (s : State), s.hbmState k = hbmReady → s.ledgerStacks.contains k.val = true → s.ready (rdyHbm k) = false →
    ∃ t, exec (.zeroFillDone k) s = .next t ∧ t.ready (rdyHbm k) = true ∧ k.val ∈ t.hbm.zeroed

end Sys2Proof.Claims

section
open Sys2Proof Sys2Proof.Machine

/-- A step runs the command at the front of the queue. -/
def Obligations.StepRunsTheFrontCommand : Prop :=
  ∀ (c : Instr) (s : State), step { s with pending := c :: s.pending } = exec c s

/-- With no command waiting, a step is one tick of the clocks. -/
def Obligations.IdleStepIsATick : Prop :=
  ∀ s : State, s.pending = [] →
    ∃ t, step s = .next t ∧ t.now = s.now + b2n s.pkg.hubUp ∧ t.pkg.keepNow = s.pkg.keepNow + b2n s.pkg.keep ∧
      (s.pkg.hubUp = false → Only [.pkg] s t) ∧
      Only [.now, .sw, .tb, .pace, .pkg, .out, .reg .PACE_DROOP_STATUS, .reg .PACE_DOMAIN_STATUS] s t

/-- No command ends in a fault or a refusal. -/
def Obligations.NoCommandStops : Prop :=
  ∀ (c : Instr) (s : State), ∃ t, exec c s = .next t

/-- Every step keeps the canonical form of registers and memories. -/
def Obligations.StepsKeepTheCanonicalForm : Prop :=
  ∀ s t : State, s.wf → step s = .next t → t.wf

/-- After reset the registers and memories are in canonical form. -/
def Obligations.ResetIsInCanonicalForm : Prop :=
  State.reset.wf ∧ State.reset.pending = []

/-- After reset every register but two reads as its reset value. -/
def Obligations.ResetRegistersHoldTheirResetValues : Prop :=
  (∀ r i, r ≠ .SEC_STATUS → r ≠ .BBX_LOSS → State.reset.reg r i = regReset r i) ∧
  State.reset.get SEC.STATUS.DERIVING 0 = 1 ∧ State.reset.get BBX.LOSS.QUEUE_FILL 0 = 1 ∧ State.reset.staging = [] ∧
  (∀ a, memByte State.reset.sw.mem a = 0) ∧ (∀ a, memByte State.reset.hbm.ring a = 0) ∧ State.reset.out = []

/-- No command changes the queue of waiting commands. -/
def Obligations.CommandsLeaveTheQueue : Prop :=
  ∀ (c : Instr) (s t : State), exec c s = .next t → t.pending = s.pending

/-- TOP.IDENT reports part 0x2048, stepping 0x10, after reset and after every step. -/
def Obligations.TheIdentityRegisterIsFixed : Prop :=
  (State.reset.get TOP.IDENT.PART 0 = 0x2048 ∧ State.reset.get TOP.IDENT.STEPPING 0 = 0x10) ∧
  (∀ s t : State, s.get TOP.IDENT.PART 0 = 0x2048 → s.get TOP.IDENT.STEPPING 0 = 0x10 → step s = .next t →
    t.get TOP.IDENT.PART 0 = 0x2048 ∧ t.get TOP.IDENT.STEPPING 0 = 0x10) ∧
  (∀ s : State, s.get TOP.IDENT.PART 0 = 0x2048 → s.get TOP.IDENT.STEPPING 0 = 0x10 →
    bitsOf (s.readReg 0 { reg := .TOP_IDENT, idx := 0, byte := 0 }) 16 16 = 0x2048 ∧
    bitsOf (s.readReg 0 { reg := .TOP_IDENT, idx := 0, byte := 0 }) 32 8 = 0x10)

/-- An offset of a block with no register reads 0 and ignores writes, and is not improper. -/
def Obligations.HolesOfABlockReadZero : Prop :=
  ∀ (fn : FnNo) (off : BarOffset) (size : Fin 65) (v : Word) (s : State), s.hostReach 0 true = true →
      inBlocks fn off = true → s.target fn off = none → (size.val = 4 ∨ size.val = 8) → off.val % size.val = 0 →
    s.accessKind fn off size true v = 0 ∧ s.accessKind fn off size false 0 = 0 ∧
    exec (.registerWrite fn off size v) s = .next s ∧
    exec (.clearOnRead fn off size) s = .next { s with out := .readData fn off size 0 :: s.out }

/-- Bit 24 of a cell address names the pool and bits 23 to 0 the index. -/
def Obligations.CellAddressesNamePoolAndIndex : Prop :=
  ∀ (s : State) (a : Nat), a < 2 ^ 25 →
    a = cellPool a * 2 ^ 24 + cellIdx a ∧ cellPool a < 2 ∧ cellIdx a < 2 ^ 24 ∧ cellPool a = b2n (natBit a 24) ∧
    (s.cellExists a = true ↔ cellIdx a < s.poolCells (cellPool a)) ∧ poolBytes 0 = 256 ∧ poolBytes 1 = 64

/-- A commit takes the staged values of that instant; later staging writes do not reach it. -/
def Obligations.CommitTakesTheStagedValues : Prop :=
  (∀ (v : Word) (s : State), s.hostReach 0 true = true → bitsOf v 0 1 = 1 → s.fullApply = false → s.commitBusy = false →
    ∃ t c, exec (.commit v) s = .next t ∧ t.cf.commits = s.cf.commits ++ [c] ∧ c.pendingSet = s.staging ∧
      c.scope = (if bitsOf v 1 1 = 1 then some (bitsOf v 8 6) else none)) ∧
  (∀ (fn : FnNo) (off : BarOffset) (size : Fin 65) (v : Word) (g : Target) (s t : State), s.hostReach 0 true = true → s.accessKind fn off size true v = 0 → s.target fn off = some g → s.present g = true →
      s.hostReach fn (State.openReg g) = true →
      s.rowWrite fn g (accessLanes off size) (s.merged g (accessLanes off size) ((accessLanes off size).place v)) = none →
      exec (.stagingWrite fn off size v) s = .next t → t.cf.commits = s.cf.commits)

/-- The first write of a pair waits in a latch, and reads show the old pair. -/
def Obligations.FirstWriteOfAPairWaits : Prop :=
  ∀ (fn : FnNo) (off : BarOffset) (size : Fin 65) (v : Word) (g : Target) (f : Fld) (p : PairField) (s : State),
      s.hostReach 0 true = true → s.accessKind fn off size true v = 0 → s.target fn off = some g → s.present g = true →
      s.hostReach fn (State.openReg g) = true →
      s.rowWrite fn g (accessLanes off size) (s.merged g (accessLanes off size) ((accessLanes off size).place v)) = none →
      g.reg.fields.filter (fun f => s.isPaired g f && (accessLanes off size).takes f) = [f] →
      s.partner ⟨g.reg, g.idx, f.lo, f.width⟩ = some p →
      (bitsOf ((accessLanes off size).place v) f.lo f.width ≠ s.get f g.idx ∨
        (g.reg.fields.filter fun f => s.isPaired g f).length = 1) →
      s.cf.latches.find? (fun l => l.isOn ⟨g.reg, g.idx, f.lo, f.width⟩ || l.isOn p) = none →
      (s.cf.latches.filter fun l => l.fn == fn.val).length < 4 →
    ∃ t l, exec (.pairedWrite fn off size v) s = .next t ∧ t.cf.latches = s.cf.latches ++ [l] ∧ l.fn = fn.val ∧
      l.isOn ⟨g.reg, g.idx, f.lo, f.width⟩ = true ∧ l.value = bitsOf ((accessLanes off size).place v) f.lo f.width ∧
      l.at_ = s.now ∧ t.get f g.idx = s.get f g.idx ∧
      t.get ⟨p.reg, p.lo, p.width, .rwp⟩ p.idx = s.get ⟨p.reg, p.lo, p.width, .rwp⟩ p.idx ∧
      t.readField fn g f = s.get f g.idx

/-- A second write to a pending field replaces its value and keeps its timer. -/
def Obligations.SecondWriteReplacesThePendingValue : Prop :=
  ∀ (fn : FnNo) (off : BarOffset) (size : Fin 65) (v : Word) (g : Target) (f : Fld) (p : PairField) (l : PairLatch) (s : State),
      s.hostReach 0 true = true → s.accessKind fn off size true v = 0 → s.target fn off = some g → s.present g = true →
      s.hostReach fn (State.openReg g) = true →
      s.rowWrite fn g (accessLanes off size) (s.merged g (accessLanes off size) ((accessLanes off size).place v)) = none →
      g.reg.fields.filter (fun f => s.isPaired g f && (accessLanes off size).takes f) = [f] →
      s.partner ⟨g.reg, g.idx, f.lo, f.width⟩ = some p →
      (bitsOf ((accessLanes off size).place v) f.lo f.width ≠ s.get f g.idx ∨
        (g.reg.fields.filter fun f => s.isPaired g f).length = 1) →
      s.cf.latches.find? (fun l => l.isOn ⟨g.reg, g.idx, f.lo, f.width⟩ || l.isOn p) = some l → l.fn = fn.val →
      l.isOn ⟨g.reg, g.idx, f.lo, f.width⟩ = true →
    ∃ t l', exec (.pairedWrite fn off size v) s = .next t ∧
      t.cf.latches = s.cf.latches.map (fun m => if m = l then l' else m) ∧
      l'.value = bitsOf ((accessLanes off size).place v) f.lo f.width ∧ l'.at_ = l.at_ ∧ l'.fn = l.fn ∧
      l'.reg = l.reg ∧ l'.idx = l.idx ∧ l'.lo = l.lo ∧ t.get f g.idx = s.get f g.idx ∧
      t.get ⟨p.reg, p.lo, p.width, .rwp⟩ p.idx = s.get ⟨p.reg, p.lo, p.width, .rwp⟩ p.idx

/-- A pending value whose partner is not written within 1 ms is discarded, and the old pair stays. -/
def Obligations.PendingValuesTimeOut : Prop :=
  ∀ s : State, ∃ t, exec .pairTimeout s = .next t ∧
    t.cf.latches = s.cf.latches.filter (fun l => decide (s.now < l.at_ + msTicks)) ∧
    (∀ l ∈ s.cf.latches, l.at_ + msTicks ≤ s.now →
      t.get CFG.PAIR_STATUS.LAST_CAUSE l.fn = 1 ∧ t.get CFG.PAIR_STATUS.DISCARD_SEEN l.fn = 1) ∧
    (∀ f i, f ∈ f.reg.fields → f.acc = .rwp ∨ f.reg = .PIPE_PROG_REG → t.get f i = s.get f i)

/-- Every main power-on and device reset is counted, with its cause, and the count outlives the main rails. -/
def Obligations.BootsAreCounted : Prop :=
  (∀ (ref25 te : Bool) (s : State), s.pkg.keep = true → s.pkg.mainPg = false →
    ∃ t, exec (.mainPowerOn ref25 te) s = .next t ∧ t.get TOP.BOOT_INFO.LAST_RESET 0 = 2 ∧
      t.get TOP.BOOT_INFO.BOOT_COUNT 0 = (s.get TOP.BOOT_INFO.BOOT_COUNT 0 + 1) % 2 ^ 32) ∧
  (∀ (n : Nat) (s : State), usTicks ≤ n → s.pkg.sysResetN = true → s.pkg.mainPg = true →
    ∃ t, exec (.sysReset n) s = .next t ∧ t.get TOP.BOOT_INFO.LAST_RESET 0 = 3 ∧
      t.get TOP.BOOT_INFO.BOOT_COUNT 0 = (s.get TOP.BOOT_INFO.BOOT_COUNT 0 + 1) % 2 ^ 32) ∧
  (∀ (v : Word) (s : State), s.hostReach 0 true = true → bitsOf v 0 1 = 1 → bitsOf v 16 16 = 0x2048 → s.pkg.mainPg = true →
    ∃ t, exec (.resetCtrlWrite 0 v) s = .next t ∧ t.get TOP.BOOT_INFO.LAST_RESET 0 = 4 ∧
      t.get TOP.BOOT_INFO.BOOT_COUNT 0 = (s.get TOP.BOOT_INFO.BOOT_COUNT 0 + 1) % 2 ^ 32) ∧
  (∀ s t : State, exec .mainPgFall s = .next t →
    t.get TOP.BOOT_INFO.BOOT_COUNT 0 = s.get TOP.BOOT_INFO.BOOT_COUNT 0 ∧
    t.get TOP.BOOT_INFO.LAST_RESET 0 = s.get TOP.BOOT_INFO.LAST_RESET 0)

/-- Only one 64-bit write of the physical function with DEVICE and KEY starts a device reset. -/
def Obligations.OnlyTheKeyedWriteResets : Prop :=
  (∀ (v : Word) (s : State), s.hostReach 0 true = true → s.pkg.mainPg = true → bitsOf v 0 1 = 1 → bitsOf v 16 16 = 0x2048 →
    ∃ t, exec (.resetCtrlWrite 0 v) s = .next t ∧ t.get TOP.BOOT_INFO.LAST_RESET 0 = 4 ∧ t.sw.packets = [] ∧
      t.get TOP.BOOT_INFO.BOOT_COUNT 0 = (s.get TOP.BOOT_INFO.BOOT_COUNT 0 + 1) % 2 ^ 32) ∧
  (∀ (fn : FnNo) (v : Word) (s : State), fn.val ≠ 0 ∨ bitsOf v 0 1 ≠ 1 ∨ bitsOf v 16 16 ≠ 0x2048 →
    exec (.resetCtrlWrite fn v) s = .next s) ∧
  (∀ (fn : FnNo) (off : BarOffset) (size : Fin 65) (v : Word) (g : Target) (s : State), s.hostReach 0 true = true →
      s.accessKind fn off size true v = 0 → s.target fn off = some g → g.reg = .TOP_RESET_CTRL → accessLanes off size ≠ .all →
    exec (.registerWrite fn off size v) s = .next s)

/-- A commit does not move the end of a hold already running. -/
def Obligations.HoldsKeepTheirTimer : Prop :=
  ∀ (s t : State) (x : Nat), exec .commitFence s = .next t → (t.port x).holdEnd = (s.port x).holdEnd

/-- Links, lanes, MAC, ports and transmission: commands change nothing outside their footprints. -/
def Obligations.LaneAndPortCommandsKeepTheRest : Prop :=
  ∀ (c : Instr) (s t : State), family c ∈ [.links, .lanes, .mac, .ports, .transmit] → exec c s = .next t → Only (footprint c) s t

/-- Module cages and modules: commands change nothing outside their footprints. -/
def Obligations.ModuleCommandsKeepTheRest : Prop :=
  ∀ (c : Instr) (s t : State), family c ∈ [.modules] → exec c s = .next t → Only (footprint c) s t

/-- Pipes, the hub and scheduling: commands change nothing outside their footprints. -/
def Obligations.SwitchingCommandsKeepTheRest : Prop :=
  ∀ (c : Instr) (s t : State), family c ∈ [.pipes, .hub, .sched] → exec c s = .next t → Only (footprint c) s t

/-- Table commands, learning and register accesses: commands change nothing outside their footprints. -/
def Obligations.TableAndReadCommandsKeepTheRest : Prop :=
  ∀ (c : Instr) (s t : State), family c ∈ [.tables, .learning, .bus] → exec c s = .next t → Only (footprint c) s t

/-- Deep memory, flows and the export: commands change nothing outside their footprints. -/
def Obligations.MemoryAndTelemetryCommandsKeepTheRest : Prop :=
  ∀ (c : Instr) (s t : State), family c ∈ [.deepMemory, .telemetry] → exec c s = .next t → Only (footprint c) s t

/-- Time, windows, cadence and power: commands change nothing outside their footprints. -/
def Obligations.TimeAndPowerCommandsKeepTheRest : Prop :=
  ∀ (c : Instr) (s t : State), family c ∈ [.time, .power] → exec c s = .next t → Only (footprint c) s t

/-- Troupes, rings, commits and image loads: commands change nothing outside their footprints. -/
def Obligations.HostCommandsKeepTheRest : Prop :=
  ∀ (c : Instr) (s t : State), family c ∈ [.troupes, .rings, .commits, .loads] → exec c s = .next t → Only (footprint c) s t

/-- Wardens, the black box, identity, firmware and the package: commands change nothing outside their footprints. -/
def Obligations.KeeperAndTrustCommandsKeepTheRest : Prop :=
  ∀ (c : Instr) (s t : State), family c ∈ [.wardens, .blackBox, .identity, .firmware, .package] → exec c s = .next t → Only (footprint c) s t

/-- A plain register write changes one register, its staging copy, and what follows from it by name. -/
def Obligations.BusWritesTouchOneRegister : Prop :=
  (∀ (fn : FnNo) (off : BarOffset) (size : Fin 65) (v : Word) (g : Target) (s t : State),
      s.hostReach 0 true = true → s.accessKind fn off size true v = 0 → s.target fn off = some g → s.present g = true →
      s.hostReach fn (State.openReg g) = true →
      s.rowWrite fn g (accessLanes off size) (s.merged g (accessLanes off size) ((accessLanes off size).place v)) = none →
      g.reg.fields.filter (fun f => s.isPaired g f && (accessLanes off size).takes f) = [] →
      exec (.registerWrite fn off size v) s = .next t →
    Only ([.staging, .out, .reg g.reg, .reg .TOP_INT_CAUSE] ++ afterArea g.reg) s t ∧
    (∀ i, i ≠ g.idx → g.reg ≠ .TOP_INT_CAUSE → t.reg g.reg i = s.reg g.reg i) ∧
    (∀ f i, f.reg ≠ g.reg ∨ i ≠ g.idx → t.getStaged f i = s.getStaged f i)) ∧
  (∀ (fn : FnNo) (off : BarOffset) (size : Fin 65) (w : Bool) (v : Word) (s t : State),
      exec (.improperAccess fn off size w v) s = .next t →
    Only [.hif, .out, .reg .HIF_BAD_ACCESS, .reg .HIF_BAD_ACCESS_ADDR, .reg .HIF_INT_CAUSE, .reg .TOP_INT_CAUSE,
      .reg .WIN_INT_CAUSE] s t)

/-- Commands that write cells write the bytes of the cells they take, and no others. -/
def Obligations.CellsKeepTheirBytes : Prop :=
  (∀ (p : PipeNo) (k arrived : Nat) (rivals : List (Fin 18)) (s t : State) (a : Nat),
      exec (.segmentWrite p k arrived rivals) s = .next t →
      (∀ v x u, (s.arrive k arrived).packet k = some v →
        ((s.arrive k arrived).sendTransfer (pipeDie p)).requestSegment p v.troupe v.nextSegment 0 false rivals = (.cell x, u) →
        ¬(s.cellBase x ≤ a ∧ a < s.cellBase x + v.nextSegment)) →
    memByte t.sw.mem a = memByte s.sw.mem a) ∧
  (∀ (chain : List TxDesc) (data : Option (List Byte)) (s t : State) (a : Nat), exec (.fill chain data) s = .next t →
      (∀ r d ds x, (rotated s.hif.lastTx s.txWaiting).head? = some r →
        txChain (chain.take (s.ringFill .tx r)) = d :: ds → (d.cells.map (·.1.val)).head? = some x →
        ¬(s.cellBase x ≤ a ∧ a < s.cellBase x + d.len.val)) →
    memByte t.sw.mem a = memByte s.sw.mem a) ∧
  (∀ (chain : List TxDesc) (s t : State) (a : Nat), exec (.cells chain) s = .next t →
    memByte t.sw.mem a = memByte s.sw.mem a) ∧
  (∀ (c : Instr) (s t : State) (a : Nat),
      (∃ rivals, c = .refill rivals) ∨ (∃ q rivals, c = .refillRetry q rivals) ∨ (∃ n, c = .exportMessageClose n) ∨
        (∃ n, c = .templateResend n) ∨ c = .advisorySend ∨ c = .advisoryRefresh ∨ (∃ chain data, c = .copy chain data) →
      exec c s = .next t →
      (∀ x, s.cellTaken x = false → s.cellExists x = true →
        ¬(s.cellBase x ≤ a ∧ a < s.cellBase x + poolBytes (cellPool x))) →
    memByte t.sw.mem a = memByte s.sw.mem a)

/-- A capture writes its record and padding, and a stack's end clears the ring only if the ring is on it. -/
def Obligations.CaptureRingKeepsItsBytes : Prop :=
  (∀ (s t : State) (q k n off : Nat) (c : Copy) (d : Desc) (a : Nat), s.captureNext = some (q, k, c) → s.desc k = some d →
      n = 32 + (min d.len s.capBytes + 31) / 32 * 32 → off = s.get HBM.CAPTURE_STATUS.WRITE_OFF 0 →
      exec .captureWrite s = .next t →
      (n ≤ s.captureSize - off → ¬(off ≤ a ∧ a < off + n)) →
      (s.captureSize - off < n → ¬(off ≤ a ∧ a < s.captureSize) ∧ (off < s.captureSize → ¬a < n) ∧
        (s.captureSize ≤ off → ¬(off ≤ a ∧ a < off + n))) →
    memByte t.hbm.ring a = memByte s.hbm.ring a) ∧
  (∀ (k : Fin 2) (ok : Bool) (rep : Fin 256) (s t : State) (a : Nat), s.ledgerStacks.contains k.val = false →
      exec (.stackTrainingEnd k ok rep) s = .next t → memByte t.hbm.ring a = memByte s.hbm.ring a) ∧
  (∀ (k : Fin 2) (s t : State) (a : Nat), s.ledgerStacks.contains k.val = false →
      exec (.stackFail k) s = .next t → memByte t.hbm.ring a = memByte s.hbm.ring a)

/-- Register accesses take effect: fields by their access code, staging, clear on read, paired fields, latches timing out.
Derived from 00_scope.md, 02_onmus_image.md; log entries 1, 5 and 7 give the model's own choices it rests on. -/
def Obligations.BusAccessesTakeEffect : Prop :=
  Sys2Proof.Claims.improperAccessDoes ∧
  Sys2Proof.Claims.registerWriteDoes ∧
  Sys2Proof.Claims.stagingWriteDoes ∧
  Sys2Proof.Claims.clearOnReadDoes ∧
  Sys2Proof.Claims.pairedWriteDoes ∧
  Sys2Proof.Claims.pairTimeoutDoes

/-- The events of the die-to-die links take effect. Derived from 01_eight_dies_one_part.md; log entries 1, 5 and 7 give
the model's own choices it rests on. -/
def Obligations.LinkEventsTakeEffect : Prop :=
  Sys2Proof.Claims.lerarReplayDoes ∧
  Sys2Proof.Claims.linkRetireDoes ∧
  Sys2Proof.Claims.linkAutoRetrainDoes ∧
  Sys2Proof.Claims.linkTrainingEndDoes ∧
  Sys2Proof.Claims.retrainDoes

/-- Lanes: codewords, slip, alignment, data lock and the transmit FIR take effect. Derived from 04_lanes_and_ports.md; log
entries 1, 5 and 7 give the model's own choices it rests on. -/
def Obligations.LaneEventsTakeEffect : Prop :=
  Sys2Proof.Claims.rxCodewordDoes ∧
  Sys2Proof.Claims.slipDoes ∧
  Sys2Proof.Claims.rxAlignedSetDoes ∧
  Sys2Proof.Claims.txSwitchToDataDoes ∧
  Sys2Proof.Claims.dataLockDoes ∧
  Sys2Proof.Claims.alignLostDoes ∧
  Sys2Proof.Claims.realignDoes ∧
  Sys2Proof.Claims.txFirWriteDoes

/-- Lanes: training, receiver settings, markers, clocks and test patterns take effect. Derived from 04_lanes_and_ports.md,
11_time_and_windows.md; log entries 1, 5 and 7 give the model's own choices it rests on. -/
def Obligations.LaneTrainingEventsTakeEffect : Prop :=
  Sys2Proof.Claims.ieeeTrainingRequestDoes ∧
  Sys2Proof.Claims.rxCfgWriteDoes ∧
  Sys2Proof.Claims.synceSquelchDoes ∧
  Sys2Proof.Claims.cdrLockDoes ∧
  Sys2Proof.Claims.adaptDoneDoes ∧
  Sys2Proof.Claims.alignmentMarkerLockDoes ∧
  Sys2Proof.Claims.ieeeLinkTrainingEndDoes ∧
  Sys2Proof.Claims.checkSyncDoes

/-- The events of the MAC and of PFC take effect. Derived from 01_eight_dies_one_part.md, 04_lanes_and_ports.md; log
entries 1, 5 and 7 give the model's own choices it rests on. -/
def Obligations.MacEventsTakeEffect : Prop :=
  Sys2Proof.Claims.rxFrameStartDoes ∧
  Sys2Proof.Claims.ififoXoffDoes ∧
  Sys2Proof.Claims.ififoXonDoes ∧
  Sys2Proof.Claims.rxFrameEndDoes ∧
  Sys2Proof.Claims.pfcFrameTxDoes ∧
  Sys2Proof.Claims.pfcRefreshDoes ∧
  Sys2Proof.Claims.pfcRxDoes ∧
  Sys2Proof.Claims.pauseTimerExpiryDoes ∧
  Sys2Proof.Claims.macControlIgnoredDoes ∧
  Sys2Proof.Claims.pfcWatchdogDoes

/-- The events of ports take effect: link up and down, faults, enable and disable, hold and flush. Derived from
04_lanes_and_ports.md; log entries 1, 5 and 7 give the model's own choices it rests on. -/
def Obligations.PortEventsTakeEffect : Prop :=
  Sys2Proof.Claims.idleEntryDoes ∧
  Sys2Proof.Claims.idleRefreshDoes ∧
  Sys2Proof.Claims.idleRefreshTimeoutDoes ∧
  Sys2Proof.Claims.wakeDoes ∧
  Sys2Proof.Claims.wakeBurstRxDoes ∧
  Sys2Proof.Claims.portFaultDoes ∧
  Sys2Proof.Claims.linkDownDoes ∧
  Sys2Proof.Claims.linkUpDoes ∧
  Sys2Proof.Claims.portEnableDoes ∧
  Sys2Proof.Claims.portDisableDoes ∧
  Sys2Proof.Claims.portFaultEndDoes

/-- Module cages: presence, power, reset, identification take effect. Derived from 05_modules.md; log entries 1, 5 and 7
give the model's own choices it rests on. -/
def Obligations.CageEventsTakeEffect : Prop :=
  Sys2Proof.Claims.sidebandFrameDoes ∧
  Sys2Proof.Claims.cagePresenceDebouncedDoes ∧
  Sys2Proof.Claims.cagePwrGoodDoes ∧
  Sys2Proof.Claims.cageResetReleaseDoes ∧
  Sys2Proof.Claims.moduleLowPowerReachedDoes ∧
  Sys2Proof.Claims.cageIdentifyDoneDoes ∧
  Sys2Proof.Claims.cageActivateDoes ∧
  Sys2Proof.Claims.cageTimeoutDoes

/-- Module commands, life samples and sideband frames take effect. Derived from 05_modules.md; log entries 1, 5 and 7 give
the model's own choices it rests on. -/
def Obligations.ModuleEventsTakeEffect : Prop :=
  Sys2Proof.Claims.moduleRemoveDoes ∧
  Sys2Proof.Claims.moduleInterruptDoes ∧
  Sys2Proof.Claims.modBusErrorDoes ∧
  Sys2Proof.Claims.lifeSampleDoes ∧
  Sys2Proof.Claims.lifeCheckpointDoes ∧
  Sys2Proof.Claims.modCmdDoes ∧
  Sys2Proof.Claims.modCmdDoneDoes

/-- The events of the pipes take effect: wavefronts, parser, stages, mirrors, depth map. Derived from
01_eight_dies_one_part.md, 06_pipelines.md; log entries 1, 5 and 7 give the model's own choices it rests on. -/
def Obligations.PipeEventsTakeEffect : Prop :=
  Sys2Proof.Claims.wavefrontLaunchDoes ∧
  Sys2Proof.Claims.parserPassDoes ∧
  Sys2Proof.Claims.stageExecuteDoes ∧
  Sys2Proof.Claims.ingressPipeEndDoes ∧
  Sys2Proof.Claims.egressPipeEndDoes ∧
  Sys2Proof.Claims.depthMapBroadcastDoes ∧
  Sys2Proof.Claims.depthMapStaleDoes ∧
  Sys2Proof.Claims.flowletFlushDoes

/-- Admission, segments, verdicts, leases, cells and replication take effect. Derived from 08_admission.md,
09_cell_store.md, 10_queues_and_scheduling.md; log entries 1, 5 and 7 give the model's own choices it rests on. -/
def Obligations.HubEventsTakeEffect : Prop :=
  Sys2Proof.Claims.admissionDoes ∧
  Sys2Proof.Claims.segmentWriteDoes ∧
  Sys2Proof.Claims.frameVerdictDoes ∧
  Sys2Proof.Claims.leaseRequestDoes ∧
  Sys2Proof.Claims.leaseCompleteDoes ∧
  Sys2Proof.Claims.leaseFreeDoes ∧
  Sys2Proof.Claims.eccUncorrectableDoes ∧
  Sys2Proof.Claims.mcGroupWriteDoes ∧
  Sys2Proof.Claims.mcSyncDoes ∧
  Sys2Proof.Claims.mcSyncDoneDoes ∧
  Sys2Proof.Claims.queryDoes

/-- Scheduling, the timing wheels and transmission take effect. Derived from 01_eight_dies_one_part.md,
04_lanes_and_ports.md, 10_queues_and_scheduling.md; log entries 1, 5 and 7 give the model's own choices it rests on. -/
def Obligations.SchedulerEventsTakeEffect : Prop :=
  Sys2Proof.Claims.txFrameStartDoes ∧
  Sys2Proof.Claims.txFrameEndDoes ∧
  Sys2Proof.Claims.txUnderrunDoes ∧
  Sys2Proof.Claims.schedulerPickDoes ∧
  Sys2Proof.Claims.wheelSlotDoes ∧
  Sys2Proof.Claims.overflowMigrateDoes ∧
  Sys2Proof.Claims.holdExpiryDoes ∧
  Sys2Proof.Claims.flushEndDoes

/-- Table commands on entries take effect: look up, read, insert, update, delete, write. Derived from 07_tables.md; log
entries 1, 5 and 7 give the model's own choices it rests on. -/
def Obligations.TableEntryCommandsTakeEffect : Prop :=
  Sys2Proof.Claims.lookupDoes ∧
  Sys2Proof.Claims.readDoes ∧
  Sys2Proof.Claims.insertDoes ∧
  Sys2Proof.Claims.updateDoes ∧
  Sys2Proof.Claims.upsertDoes ∧
  Sys2Proof.Claims.deleteDoes ∧
  Sys2Proof.Claims.writeAtDoes ∧
  Sys2Proof.Claims.clearAtDoes

/-- Table moves, prefixes, clears, seeds and the command interface take effect. Derived from 07_tables.md; log entries 1,
5 and 7 give the model's own choices it rests on. -/
def Obligations.TableControlCommandsTakeEffect : Prop :=
  Sys2Proof.Claims.moveDoes ∧
  Sys2Proof.Claims.lpmAddDoes ∧
  Sys2Proof.Claims.lpmDeleteDoes ∧
  Sys2Proof.Claims.unpinDoes ∧
  Sys2Proof.Claims.clearTableDoes ∧
  Sys2Proof.Claims.tableOpDoneDoes ∧
  Sys2Proof.Claims.cmdWriteWhileBusyDoes ∧
  Sys2Proof.Claims.tableSeedWriteDoes

/-- Learning, aging, the promenade and table seeds take effect. Derived from 07_tables.md; log entries 1, 5 and 7 give the
model's own choices it rests on. -/
def Obligations.LearningEventsTakeEffect : Prop :=
  Sys2Proof.Claims.learnEventArrivalDoes ∧
  Sys2Proof.Claims.learnEventProcessDoes ∧
  Sys2Proof.Claims.flapWindowCloseDoes ∧
  Sys2Proof.Claims.pinHoldExpiryDoes ∧
  Sys2Proof.Claims.ageClockTickDoes ∧
  Sys2Proof.Claims.agingSweepVisitDoes ∧
  Sys2Proof.Claims.promenadeGoDoes ∧
  Sys2Proof.Claims.promenadeAbortDoes ∧
  Sys2Proof.Claims.promenadeCompareDoes ∧
  Sys2Proof.Claims.promenadeCensusDoes

/-- Spill, refill, stacks, scrub and the capture ring take effect. Derived from 13_deep_memory.md; log entries 1, 5 and 7
give the model's own choices it rests on. -/
def Obligations.DeepMemoryEventsTakeEffect : Prop :=
  Sys2Proof.Claims.spillMoveDoes ∧
  Sys2Proof.Claims.refillDoes ∧
  Sys2Proof.Claims.refillRetryDoes ∧
  Sys2Proof.Claims.stackTrainingEndDoes ∧
  Sys2Proof.Claims.hbmRetrainDoes ∧
  Sys2Proof.Claims.stackFailDoes ∧
  Sys2Proof.Claims.hbmActivationDoes ∧
  Sys2Proof.Claims.scrubDoes ∧
  Sys2Proof.Claims.hbmUncorrDoes ∧
  Sys2Proof.Claims.captureWriteDoes ∧
  Sys2Proof.Claims.captureCopyDoes ∧
  Sys2Proof.Claims.captureCopyDoneDoes ∧
  Sys2Proof.Claims.zeroFillDoneDoes

/-- Flows, the ledger, histograms and the export take effect. Derived from 12_telemetry.md, 13_deep_memory.md; log entries
1, 5 and 7 give the model's own choices it rests on. -/
def Obligations.TelemetryEventsTakeEffect : Prop :=
  Sys2Proof.Claims.histSnapshotDoes ∧
  Sys2Proof.Claims.fateUpdateDoes ∧
  Sys2Proof.Claims.flowWritebackDoes ∧
  Sys2Proof.Claims.ledgerWritebackDoes ∧
  Sys2Proof.Claims.exportSweepVisitDoes ∧
  Sys2Proof.Claims.overflowEpisodeEndDoes ∧
  Sys2Proof.Claims.refusedLineRetryDoes ∧
  Sys2Proof.Claims.exportMessageCloseDoes ∧
  Sys2Proof.Claims.templateResendDoes ∧
  Sys2Proof.Claims.dropIntervalDoes

/-- Snapshots, the servo, PPS and the reference take effect. Derived from 11_time_and_windows.md; log entries 1, 5 and 7
give the model's own choices it rests on. -/
def Obligations.TimeEventsTakeEffect : Prop :=
  Sys2Proof.Claims.timeSnapshotDoes ∧
  Sys2Proof.Claims.servoSampleDoes ∧
  Sys2Proof.Claims.ppsEdgeDoes ∧
  Sys2Proof.Claims.ppsMissedDoes ∧
  Sys2Proof.Claims.servoTimeoutDoes ∧
  Sys2Proof.Claims.holdoverExpiryDoes ∧
  Sys2Proof.Claims.servoDisableDoes ∧
  Sys2Proof.Claims.refLostDoes ∧
  Sys2Proof.Claims.refReturnDoes

/-- The PLL, the PPS output and the banks of windows take effect. Derived from 11_time_and_windows.md; log entries 1, 5
and 7 give the model's own choices it rests on. -/
def Obligations.WindowEventsTakeEffect : Prop :=
  Sys2Proof.Claims.pllRelockDoes ∧
  Sys2Proof.Claims.ppsOutPulseDoes ∧
  Sys2Proof.Claims.winGoDoes ∧
  Sys2Proof.Claims.bankSwitchDoes ∧
  Sys2Proof.Claims.winWriteRefusedDoes ∧
  Sys2Proof.Claims.gateChangeDoes

/-- The cadence, what sets it, its ramps and droop take effect. Derived from 14_cadence_and_power.md; log entries 1, 5 and
7 give the model's own choices it rests on. -/
def Obligations.CadenceEventsTakeEffect : Prop :=
  Sys2Proof.Claims.cadenceSetWriteDoes ∧
  Sys2Proof.Claims.cadenceWindowDoes ∧
  Sys2Proof.Claims.lagRecoverDoes ∧
  Sys2Proof.Claims.railAdjustDoes ∧
  Sys2Proof.Claims.rampStartDoes ∧
  Sys2Proof.Claims.rampEndDoes ∧
  Sys2Proof.Claims.droopDetectDoes ∧
  Sys2Proof.Claims.droopClearDoes ∧
  Sys2Proof.Claims.droopResponseEndDoes ∧
  Sys2Proof.Claims.droopLongDoes

/-- Thermal samples, rails, energy and phases take effect. Derived from 14_cadence_and_power.md; log entries 1, 5 and 7
give the model's own choices it rests on. -/
def Obligations.ThermalRailAndEnergyEventsTakeEffect : Prop :=
  Sys2Proof.Claims.thermalSampleDoes ∧
  Sys2Proof.Claims.throttleFallDoes ∧
  Sys2Proof.Claims.railFaultDoes ∧
  Sys2Proof.Claims.railRetryDoes ∧
  Sys2Proof.Claims.pmbusMeasureDoes ∧
  Sys2Proof.Claims.energyTickDoes ∧
  Sys2Proof.Claims.phaseBoostStartDoes ∧
  Sys2Proof.Claims.phaseBoostEndDoes ∧
  Sys2Proof.Claims.phaseEvaluateDoes

/-- Advisories, freewheel, the governor and the AVS bus take effect. Derived from 14_cadence_and_power.md; log entries 1,
5 and 7 give the model's own choices it rests on. -/
def Obligations.AdvisoryAndGovernorEventsTakeEffect : Prop :=
  Sys2Proof.Claims.advisorySendDoes ∧
  Sys2Proof.Claims.advisoryRefreshDoes ∧
  Sys2Proof.Claims.advisoryRxDoes ∧
  Sys2Proof.Claims.advInjectDoes ∧
  Sys2Proof.Claims.advisoryExpiryDoes ∧
  Sys2Proof.Claims.freewheelIdleDoes ∧
  Sys2Proof.Claims.freewheelWakeDoes ∧
  Sys2Proof.Claims.governorReadyDoes ∧
  Sys2Proof.Claims.avsTimeoutDoes

/-- Removal and restore of troupes and the events of PCIe take effect. Derived from 03_bring_up.md,
15_host_and_troupes.md; log entries 1, 5 and 7 give the model's own choices it rests on. -/
def Obligations.TroupeAndFunctionEventsTakeEffect : Prop :=
  Sys2Proof.Claims.removeDoes ∧
  Sys2Proof.Claims.restoreDoes ∧
  Sys2Proof.Claims.troupeRemoveDoneDoes ∧
  Sys2Proof.Claims.troupeRestoreDoneDoes ∧
  Sys2Proof.Claims.hostResetDoes ∧
  Sys2Proof.Claims.pcieLinkUpDoes ∧
  Sys2Proof.Claims.flrDoes ∧
  Sys2Proof.Claims.pfFlrDoes ∧
  Sys2Proof.Claims.perstDeassertDoes ∧
  Sys2Proof.Claims.configurationRequestDoes

/-- The rings between host and device, their doorbells, deliveries and interrupts take effect. Derived from
15_host_and_troupes.md; log entries 1, 5 and 7 give the model's own choices it rests on. -/
def Obligations.RingEventsTakeEffect : Prop :=
  Sys2Proof.Claims.ringEnableDoes ∧
  Sys2Proof.Claims.ringDoorbellDoes ∧
  Sys2Proof.Claims.rxDeliverDoes ∧
  Sys2Proof.Claims.rxWaitExpiryDoes ∧
  Sys2Proof.Claims.interruptCoalesceDoes ∧
  Sys2Proof.Claims.copyDoes ∧
  Sys2Proof.Claims.fillDoes ∧
  Sys2Proof.Claims.cellsDoes ∧
  Sys2Proof.Claims.msixAllocWriteDoes ∧
  Sys2Proof.Claims.intRearmDoes

/-- Commits take effect: request, checks, fence, drain, limit. Derived from 02_onmus_image.md, 15_host_and_troupes.md; log
entries 1, 5 and 7 give the model's own choices it rests on. -/
def Obligations.CommitEventsTakeEffect : Prop :=
  Sys2Proof.Claims.winCommitDoes ∧
  Sys2Proof.Claims.commitDoes ∧
  Sys2Proof.Claims.commitFenceDoes ∧
  Sys2Proof.Claims.commitDrainEndDoes ∧
  Sys2Proof.Claims.drainLimitExpiryDoes

/-- Inputs, command copies, eliminators and resignations of the wardens take effect. Derived from
16_tandem_and_black_box.md; log entries 1, 5 and 7 give the model's own choices it rests on. -/
def Obligations.WardenEventsTakeEffect : Prop :=
  Sys2Proof.Claims.wardenInputDoes ∧
  Sys2Proof.Claims.timerInputDoes ∧
  Sys2Proof.Claims.commandCopyDoes ∧
  Sys2Proof.Claims.eliminatorWindowExpiryDoes ∧
  Sys2Proof.Claims.divergenceSelftestEndDoes ∧
  Sys2Proof.Claims.lockstepMismatchDoes ∧
  Sys2Proof.Claims.watchdogExpiryDoes ∧
  Sys2Proof.Claims.periodicSelftestDoes ∧
  Sys2Proof.Claims.autoRestartDoes ∧
  Sys2Proof.Claims.wardenLoadDoneDoes ∧
  Sys2Proof.Claims.wardenSelftestDoneDoes

/-- Restarts, resynchronisation and the mailbox of the wardens take effect. Derived from 16_tandem_and_black_box.md; log
entries 1, 5 and 7 give the model's own choices it rests on. -/
def Obligations.WardenRestartEventsTakeEffect : Prop :=
  Sys2Proof.Claims.resyncDoneDoes ∧
  Sys2Proof.Claims.restartDoes ∧
  Sys2Proof.Claims.resignDoes ∧
  Sys2Proof.Claims.restartBothDoes ∧
  Sys2Proof.Claims.mailboxDoorbellDoes ∧
  Sys2Proof.Claims.getInfoDoes ∧
  Sys2Proof.Claims.echoDoes ∧
  Sys2Proof.Claims.mailboxTimeoutDoes ∧
  Sys2Proof.Claims.resyncCopyDoneDoes ∧
  Sys2Proof.Claims.unknownOpDoes

/-- The black box, its sealed readout, host notes and the keeper commands take effect. Derived from
16_tandem_and_black_box.md; log entries 1, 5 and 7 give the model's own choices it rests on. -/
def Obligations.BlackBoxEventsTakeEffect : Prop :=
  Sys2Proof.Claims.bbxRecordWriteDoes ∧
  Sys2Proof.Claims.bbxScanDoes ∧
  Sys2Proof.Claims.sealedReadoutDoes ∧
  Sys2Proof.Claims.sealedReadoutDoneDoes ∧
  Sys2Proof.Claims.hostNoteDoes ∧
  Sys2Proof.Claims.keeperGetStatusDoes ∧
  Sys2Proof.Claims.keeperGetRecordsDoes ∧
  Sys2Proof.Claims.keeperGetSealDoes

/-- SPDM requests, the alias key and owner key commands take effect. Derived from 17_identity_and_trust.md; log entries 1,
5 and 7 give the model's own choices it rests on. -/
def Obligations.IdentityEventsTakeEffect : Prop :=
  Sys2Proof.Claims.getVersionDoes ∧
  Sys2Proof.Claims.getCapabilitiesDoes ∧
  Sys2Proof.Claims.negotiateAlgorithmsDoes ∧
  Sys2Proof.Claims.getDigestsDoes ∧
  Sys2Proof.Claims.getCertificateDoes ∧
  Sys2Proof.Claims.challengeDoes ∧
  Sys2Proof.Claims.getMeasurementsDoes ∧
  Sys2Proof.Claims.spdmUnsupportedRequestDoes ∧
  Sys2Proof.Claims.aliasDeriveDoneDoes ∧
  Sys2Proof.Claims.provisionDoes ∧
  Sys2Proof.Claims.revokeDoes ∧
  Sys2Proof.Claims.ownerKeyCommandDoneDoes

/-- Firmware loads, the boot read and the SVN take effect. Derived from 17_identity_and_trust.md; log entries 1, 5 and 7
give the model's own choices it rests on. -/
def Obligations.FirmwareEventsTakeEffect : Prop :=
  Sys2Proof.Claims.fwLoadDoes ∧
  Sys2Proof.Claims.fwLoadDoneDoes ∧
  Sys2Proof.Claims.commitSvnDoes ∧
  Sys2Proof.Claims.fwBootReadDoes

/-- Power, resets and monitors of the package take effect. Derived from 03_bring_up.md, 16_tandem_and_black_box.md,
18_package_and_electrical.md; log entries 1, 5 and 7 give the model's own choices it rests on. -/
def Obligations.ResetEventsTakeEffect : Prop :=
  Sys2Proof.Claims.keeperPowerOnDoes ∧
  Sys2Proof.Claims.keeperRunningDoes ∧
  Sys2Proof.Claims.vddKeepLossDoes ∧
  Sys2Proof.Claims.mainPowerOnDoes ∧
  Sys2Proof.Claims.mainPgFallDoes ∧
  Sys2Proof.Claims.sysResetDoes ∧
  Sys2Proof.Claims.resetCtrlWriteDoes ∧
  Sys2Proof.Claims.monitorTripDoes ∧
  Sys2Proof.Claims.monitorClearDoes ∧
  Sys2Proof.Claims.sysResetNReleaseDoes

/-- The JTAG instructions take effect. Derived from 18_package_and_electrical.md; log entries 1, 5 and 7 give the model's
own choices it rests on. -/
def Obligations.JtagInstructionsTakeEffect : Prop :=
  Sys2Proof.Claims.extestDoes ∧
  Sys2Proof.Claims.idcodeDoes ∧
  Sys2Proof.Claims.samplePreloadDoes ∧
  Sys2Proof.Claims.bypassDoes ∧
  Sys2Proof.Claims.bbxDataDoes

/-- The load and the apply of images take effect. Derived from 02_onmus_image.md; log entries 1, 5 and 7 give the model's
own choices it rests on. -/
def Obligations.ImageEventsTakeEffect : Prop :=
  Sys2Proof.Claims.hostLoadStartDoes ∧
  Sys2Proof.Claims.loadAbortDoes ∧
  Sys2Proof.Claims.imageHeaderCheckDoes ∧
  Sys2Proof.Claims.sectionBodyCheckDoes ∧
  Sys2Proof.Claims.imageApplyDoes ∧
  Sys2Proof.Claims.imageApplyEndDoes ∧
  Sys2Proof.Claims.troupeImageApplyDoes

end
end

