-- ==== Sys2Proof/Laws/Registers.lean ====
section
/-!
SUPPORT. Laws of the sparse stores: a read after a write, what a write leaves alone, and the canonical form that every
operation keeps. They hold of tables, of register files and their fields, and of memories.
-/

namespace Sys2Proof.Machine

/-! ## Tables by number -/

theorem tabFind_tabPut_same {α : Type} (t : List (Nat × α)) (k : Nat) (v : α) : tabFind (tabPut t k v) k = some v := by
  induction t with
  | nil => simp [tabPut, tabFind]
  | cons e t ih =>
    obtain ⟨k', v'⟩ := e
    simp only [tabPut]
    split
    · simp [tabFind]
    · split
      · simp [tabFind]
      · simp [tabFind, *]

theorem tabFind_tabPut_ne {α : Type} (t : List (Nat × α)) {k j : Nat} (v : α) (h : k ≠ j) :
    tabFind (tabPut t k v) j = tabFind t j := by
  induction t with
  | nil => simp [tabPut, tabFind, h]
  | cons e t ih =>
    obtain ⟨k', v'⟩ := e
    simp only [tabPut]
    split
    · simp [tabFind, h]
    · split
      · subst_vars; simp [tabFind, h]
      · simp [tabFind, ih]

theorem tabFind_tabDel_same {α : Type} (t : List (Nat × α)) (k : Nat) : tabFind (tabDel t k) k = none := by
  induction t with
  | nil => simp [tabDel, tabFind]
  | cons e t ih =>
    obtain ⟨k', v'⟩ := e
    simp only [tabDel]
    split
    · exact ih
    · simp [tabFind, *]

theorem tabFind_tabDel_ne {α : Type} (t : List (Nat × α)) {k j : Nat} (h : k ≠ j) :
    tabFind (tabDel t k) j = tabFind t j := by
  induction t with
  | nil => simp [tabDel, tabFind]
  | cons e t ih =>
    obtain ⟨k', v'⟩ := e
    simp only [tabDel]
    split
    · subst_vars; simp [tabFind, h, ih]
    · simp [tabFind, ih]

@[simp] theorem tabGet_tabPut_same {α : Type} (d : α) (t : List (Nat × α)) (k : Nat) (v : α) :
    tabGet d (tabPut t k v) k = v := by
  simp [tabGet, tabFind_tabPut_same]

theorem tabGet_tabPut_ne {α : Type} (d : α) (t : List (Nat × α)) {k j : Nat} (v : α) (h : k ≠ j) :
    tabGet d (tabPut t k v) j = tabGet d t j := by
  simp [tabGet, tabFind_tabPut_ne t v h]

theorem tabGet_tabPut {α : Type} (d : α) (t : List (Nat × α)) (k j : Nat) (v : α) :
    tabGet d (tabPut t k v) j = if k = j then v else tabGet d t j := by
  split
  · subst_vars; simp
  · exact tabGet_tabPut_ne d t v ‹_›

@[simp] theorem tabGet_tabMod_same {α : Type} (d : α) (t : List (Nat × α)) (k : Nat) (f : α → α) :
    tabGet d (tabMod d t k f) k = f (tabGet d t k) := by
  simp [tabMod]

theorem tabGet_tabMod_ne {α : Type} (d : α) (t : List (Nat × α)) {k j : Nat} (f : α → α) (h : k ≠ j) :
    tabGet d (tabMod d t k f) j = tabGet d t j := by
  simp [tabMod, tabGet_tabPut_ne d t _ h]

/-! ## Sparse stores -/

@[simp] theorem sparsePut_same {α : Type} [DecidableEq α] (d : α) (t : List (Nat × α)) (k : Nat) (v : α) :
    tabGet d (sparsePut d t k v) k = v := by
  unfold sparsePut
  split
  · subst_vars; simp [tabGet, tabFind_tabDel_same]
  · simp

theorem sparsePut_ne {α : Type} [DecidableEq α] (d e : α) (t : List (Nat × α)) {k j : Nat} (v : α) (h : k ≠ j) :
    tabGet e (sparsePut d t k v) j = tabGet e t j := by
  unfold sparsePut
  split
  · simp [tabGet, tabFind_tabDel_ne t h]
  · exact tabGet_tabPut_ne e t v h

/-! ### The canonical form -/

/-- A lower bound that the keys of a table may rise from. -/
theorem tabRising_weaken {α : Type} {t : List (Nat × α)} {b : Option Nat} {lo : Nat} (h : tabRising (some lo) t = true)
    (hb : ∀ x, b = some x → x ≤ lo) : tabRising b t = true := by
  cases t with
  | nil => simp [tabRising]
  | cons e t =>
    obtain ⟨k, v⟩ := e
    cases b with
    | none => simp [tabRising] at h ⊢; exact h.2
    | some x =>
      have := hb x rfl
      simp [tabRising] at h ⊢
      exact ⟨by omega, h.2⟩

theorem tabRising_tabPut {α : Type} (t : List (Nat × α)) (k : Nat) (v : α) :
    ∀ b : Option Nat, tabRising b t = true → (∀ x, b = some x → x < k) → tabRising b (tabPut t k v) = true := by
  induction t with
  | nil =>
    intro b _ hb
    cases b with
    | none => simp [tabPut, tabRising]
    | some x => simp [tabPut, tabRising, hb x rfl]
  | cons e t ih =>
    obtain ⟨k', v'⟩ := e
    intro b h hb
    have ht : tabRising (some k') t = true := by cases b <;> simp_all [tabRising]
    simp only [tabPut]
    split
    · cases b with
      | none => simp [tabRising, *]
      | some x => simp [tabRising, *, hb x rfl]
    · split
      · subst_vars
        cases b <;> simp_all [tabRising]
      · have := ih (some k') ht (by intro x hx; cases hx; omega)
        cases b <;> simp_all [tabRising]

theorem tabRising_tabDel {α : Type} (t : List (Nat × α)) (k : Nat) :
    ∀ b : Option Nat, tabRising b t = true → tabRising b (tabDel t k) = true := by
  induction t with
  | nil => intro b _; cases b <;> simp [tabDel, tabRising]
  | cons e t ih =>
    obtain ⟨k', v'⟩ := e
    intro b h
    have ht : tabRising (some k') t = true := by cases b <;> simp_all [tabRising]
    simp only [tabDel]
    split
    · refine ih b (tabRising_weaken ht ?_)
      intro x hx; subst hx; simp [tabRising] at h; omega
    · have := ih (some k') ht
      cases b <;> simp_all [tabRising]

theorem tabDel_all {α : Type} {p : Nat × α → Bool} (t : List (Nat × α)) (k : Nat) (h : t.all p = true) :
    (tabDel t k).all p = true := by
  induction t with
  | nil => simp [tabDel]
  | cons e t ih =>
    obtain ⟨k', v'⟩ := e
    simp only [List.all_cons, Bool.and_eq_true] at h
    simp only [tabDel]
    split
    · exact ih h.2
    · simp [h.1, ih h.2]

theorem tabPut_all {α : Type} {p : Nat × α → Bool} (t : List (Nat × α)) (k : Nat) (v : α) (h : t.all p = true)
    (hv : p (k, v) = true) : (tabPut t k v).all p = true := by
  induction t with
  | nil => simp [tabPut, hv]
  | cons e t ih =>
    obtain ⟨k', v'⟩ := e
    simp only [List.all_cons, Bool.and_eq_true] at h
    simp only [tabPut]
    split
    · simp [hv, h.1]; simpa using h.2
    · split
      · simp [hv]; simpa using h.2
      · simp only [List.all_cons, Bool.and_eq_true]; exact ⟨h.1, ih h.2⟩

/-! ## Memories -/

@[simp] theorem memByte_memPutByte_same (m : List Host.Cell) (a : Nat) (b : Byte) :
    memByte (memPutByte m a b) a = b := by
  simp [memByte, memPutByte]

theorem memByte_memPutByte_ne (m : List Host.Cell) {a c : Nat} (b : Byte) (h : a ≠ c) :
    memByte (memPutByte m a b) c = memByte m c := by
  simp [memByte, memPutByte, sparsePut_ne _ _ _ _ h]

/-- A write of bytes leaves every byte outside them as it was. -/
theorem memByte_memWrite_out (bs : List Byte) : ∀ (m : List Host.Cell) (a c : Nat), c < a ∨ a + bs.length ≤ c →
    memByte (memWrite m a bs) c = memByte m c := by
  induction bs with
  | nil => intro m a c _; rfl
  | cons b bs ih =>
    intro m a c h
    simp only [List.length_cons] at h
    rw [memWrite, ih _ _ _ (by omega), memByte_memPutByte_ne _ _ (by omega)]

/-- A read after a write of the same bytes gives them. -/
theorem memByte_memWrite_in (bs : List Byte) : ∀ (m : List Host.Cell) (a j : Nat) (h : j < bs.length),
    memByte (memWrite m a bs) (a + j) = bs[j] := by
  induction bs with
  | nil => intro m a j h; simp at h
  | cons b bs ih =>
    intro m a j h
    cases j with
    | zero => rw [memWrite, memByte_memWrite_out _ _ _ _ (by omega)]; simp
    | succ j =>
      have : a + (j + 1) = (a + 1) + j := by omega
      rw [this, memWrite, ih _ _ _ (by simpa using h)]; simp

theorem memWf_memPutByte {m : List Host.Cell} (a : Nat) (b : Byte) (h : memWf m = true) :
    memWf (memPutByte m a b) = true := by
  simp only [memWf, Bool.and_eq_true] at h ⊢
  unfold memPutByte sparsePut
  split
  · exact ⟨tabRising_tabDel _ _ _ h.1, tabDel_all _ _ h.2⟩
  · exact ⟨tabRising_tabPut _ _ _ _ h.1 (by intro x hx; cases hx), tabPut_all _ _ _ h.2 (by simpa)⟩

theorem memWf_memWrite (bs : List Byte) : ∀ (m : List Host.Cell) (a : Nat), memWf m = true →
    memWf (memWrite m a bs) = true := by
  induction bs with
  | nil => intro m a h; exact h
  | cons b bs ih => intro m a h; exact ih _ _ (memWf_memPutByte _ _ h)

/-! ## Register files -/

theorem ctorIdx_lt (r : Reg) : r.ctorIdx < 1024 := by cases r <;> decide

theorem ofNat_ctorIdx (r : Reg) : Reg.ofNat r.ctorIdx = r := by cases r <;> rfl

theorem ctorIdx_inj {r q : Reg} (h : r.ctorIdx = q.ctorIdx) : r = q := by
  rw [← ofNat_ctorIdx r, ← ofNat_ctorIdx q, h]

theorem regKey_inj {r q : Reg} {i j : Nat} : regKey r i = regKey q j ↔ r = q ∧ i = j := by
  constructor
  · intro h
    have hr := ctorIdx_lt r
    have hq := ctorIdx_lt q
    unfold regKey at h
    have hi : i = j := by omega
    exact ⟨ctorIdx_inj (by omega), hi⟩
  · rintro ⟨rfl, rfl⟩; rfl

@[simp] theorem rfGet_rfPut_same (rf : List (Nat × Word)) (r : Reg) (i : Nat) (w : Word) :
    rfGet (rfPut rf r i w) r i = w := by
  simp [rfGet, rfPut]

theorem rfGet_rfPut_ne (rf : List (Nat × Word)) {r q : Reg} {i j : Nat} (w : Word) (h : ¬(r = q ∧ i = j)) :
    rfGet (rfPut rf r i w) q j = rfGet rf q j := by
  simp only [rfGet, rfPut]
  exact sparsePut_ne _ _ _ _ (fun e => h (regKey_inj.mp e))

theorem rfWf_rfPut {rf : List (Nat × Word)} (r : Reg) (i : Nat) (w : Word) (h : rfWf rf = true) :
    rfWf (rfPut rf r i w) = true := by
  simp only [rfWf, Bool.and_eq_true] at h ⊢
  unfold rfPut sparsePut
  split
  · exact ⟨tabRising_tabDel _ _ _ h.1, tabDel_all _ _ h.2⟩
  · refine ⟨tabRising_tabPut _ _ _ _ h.1 (by intro x hx; cases hx), tabPut_all _ _ _ h.2 ?_⟩
    have h1 : regKey r i % 1024 = r.ctorIdx := by have := ctorIdx_lt r; unfold regKey; omega
    have h2 : regKey r i / 1024 = i := by have := ctorIdx_lt r; unfold regKey; omega
    simp only [h1, h2, ofNat_ctorIdx]
    simpa using ‹¬ w = regReset r i›

theorem rfWf_rfSet {rf : List (Nat × Word)} (f : Fld) (i v : Nat) (h : rfWf rf = true) :
    rfWf (rfSet rf f i v) = true := rfWf_rfPut _ _ _ h

/-! ### Registers kept and dropped by their keys -/

theorem tabFind_filter {α : Type} {p : Nat × α → Bool} (t : List (Nat × α)) {k : Nat} (h : ∀ v, p (k, v) = true) :
    tabFind (t.filter p) k = tabFind t k := by
  induction t with
  | nil => rfl
  | cons e t ih =>
    obtain ⟨k', v'⟩ := e
    by_cases hk : k' = k
    · subst hk; simp [List.filter, h, tabFind]
    · cases hp : p (k', v') <;> simp [List.filter, hp, tabFind, hk, ih]

theorem tabRising_filter {α : Type} (p : Nat × α → Bool) (t : List (Nat × α)) :
    ∀ b : Option Nat, tabRising b t = true → tabRising b (t.filter p) = true := by
  induction t with
  | nil => intro b h; exact h
  | cons e t ih =>
    obtain ⟨k, v⟩ := e
    intro b h
    have ht : tabRising (some k) t = true := by cases b <;> simp_all [tabRising]
    cases hp : p (k, v) with
    | true =>
      have := ih (some k) ht
      cases b <;> simp_all [tabRising, List.filter]
    | false =>
      simp only [List.filter, hp]
      refine ih b (tabRising_weaken ht ?_)
      intro x hx; subst hx; simp [tabRising] at h; omega

theorem rfWf_filter {rf : List (Nat × Word)} (p : Nat × Word → Bool) (h : rfWf rf = true) : rfWf (rf.filter p) = true := by
  simp only [rfWf, Bool.and_eq_true] at h ⊢
  refine ⟨tabRising_filter _ _ _ h.1, ?_⟩
  rw [List.all_eq_true] at h ⊢
  exact fun e he => h.2 e (List.mem_filter.mp he).1

theorem rfGet_filter {rf : List (Nat × Word)} {p : Nat × Word → Bool} {r : Reg} {i : Nat}
    (h : ∀ w, p (regKey r i, w) = true) : rfGet (rf.filter p) r i = rfGet rf r i := by
  simp only [rfGet, tabGet, tabFind_filter _ h]

theorem regKey_mod (r : Reg) (i : Nat) : regKey r i % 1024 = r.ctorIdx := by
  have := ctorIdx_lt r
  unfold regKey
  omega

/-! ### Fields -/

/-- Bit j of a word with a field replaced. -/
theorem getLsbD_withBits (w : Word) (lo width v j : Nat) (h : lo + width ≤ 64) :
    (withBits w lo width v).getLsbD j =
      if lo ≤ j ∧ j < lo + width then v.testBit (j - lo) else w.getLsbD j := by
  simp only [withBits, BitVec.getLsbD_or, BitVec.getLsbD_and, BitVec.getLsbD_not, BitVec.getLsbD_shiftLeft,
    BitVec.getLsbD_ofNat, Nat.testBit_mod_two_pow, Nat.testBit_two_pow_sub_one]
  by_cases hj : j < 64
  · by_cases h1 : lo ≤ j
    · by_cases h2 : j < lo + width
      · have a : j - lo < width := by omega
        have b : j - lo < 64 := by omega
        simp [hj, h1, h2, a, b, Nat.not_lt.mpr h1]
      · have a : ¬ j - lo < width := by omega
        simp [hj, h1, h2, a]
    · have a : j < lo := by omega
      simp [hj, h1, a]
  · have a : ¬ (lo ≤ j ∧ j < lo + width) := by omega
    rw [if_neg a]
    have : w.getLsbD j = false := BitVec.getLsbD_of_ge w j (by omega)
    simp [hj, this]

theorem testBit_bitsOf (w : Word) (lo width j : Nat) :
    (bitsOf w lo width).testBit j = (decide (j < width) && w.getLsbD (lo + j)) := by
  simp [bitsOf, Nat.testBit_mod_two_pow, Nat.testBit_shiftRight, BitVec.getLsbD]

/-- A field reads what was written to it, cut to its width. -/
theorem bitsOf_withBits_same (w : Word) (lo width v : Nat) (h : lo + width ≤ 64) :
    bitsOf (withBits w lo width v) lo width = v % 2 ^ width := by
  apply Nat.eq_of_testBit_eq
  intro j
  rw [testBit_bitsOf, getLsbD_withBits _ _ _ _ _ h, Nat.testBit_mod_two_pow]
  by_cases hj : j < width
  · simp [hj]
  · simp [hj]

/-- A field that shares no bit with the one written keeps its value. -/
theorem bitsOf_withBits_other (w : Word) (lo width v lo' width' : Nat) (h : lo + width ≤ 64)
    (d : lo' + width' ≤ lo ∨ lo + width ≤ lo') : bitsOf (withBits w lo width v) lo' width' = bitsOf w lo' width' := by
  apply Nat.eq_of_testBit_eq
  intro j
  rw [testBit_bitsOf, testBit_bitsOf, getLsbD_withBits _ _ _ _ _ h]
  by_cases hj : j < width'
  · rw [if_neg (by omega)]
  · simp [hj]

end Sys2Proof.Machine
end

