-- ==== Sys2Proof/Laws/Touches.lean ====
section
/-!
SUPPORT. What an operation can touch. `Touches m s t` says of an operation from `s` to `t` everything at once: which
parts of the state it may have changed (the bits of `m`), that it keeps the sparse stores canonical, and that it leaves
the queue of waiting commands alone. One lemma for each operation follows in the files beside this one.
-/

namespace Sys2Proof

/-- The bit of a register. -/
def Reg.bit (r : Reg) : Nat := 19 + r.ctorIdx

end Sys2Proof

namespace Sys2Proof.Machine

/-- The bit of a part. -/
def Part.bit : Part → Nat
  | .now => 0 | .staging => 1 | .sw => 2 | .mem => 3 | .cf => 4 | .tim => 5 | .tb => 6 | .hif => 7 | .tel => 8
  | .hbm => 9 | .ring => 10 | .mod => 11 | .pace => 12 | .bbx => 13 | .sec => 14 | .tnd => 15 | .pkg => 16
  | .drawn => 17 | .out => 18 | .reg r => r.bit

/-- What an operation that touches the parts of `m` can do. -/
structure Touches (m : Nat) (s t : State) : Prop where
  same : ∀ p : Part, m.testBit p.bit = false → Part.same s t p
  wf : s.wf → t.wf
  pending : t.pending = s.pending

/-- A meaning ends in a next state, having touched the parts of `m`. -/
def Ends (m : Nat) (s : State) (a : Answer) : Prop := ∃ t, a = .next t ∧ Touches m s t

theorem Part.same_refl (s : State) (p : Part) : Part.same s s p := by
  cases p <;> simp [Part.same]

theorem Part.same_trans {s t u : State} {p : Part} (h : Part.same s t p) (k : Part.same t u p) : Part.same s u p := by
  cases p <;> simp_all [Part.same]

theorem Touches.refl (m : Nat) (s : State) : Touches m s s := ⟨fun p _ => Part.same_refl s p, id, rfl⟩

/-- One operation more, which touches no other part. -/
theorem Touches.step {k m : Nat} {s t u : State} (b : Touches k t u) (hk : k ||| m = m) (a : Touches m s t) :
    Touches m s u := by
  refine ⟨fun p hp => Part.same_trans (a.same p hp) (b.same p ?_), fun h => b.wf (a.wf h), b.pending.trans a.pending⟩
  have : (k ||| m).testBit p.bit = false := by rw [hk]; exact hp
  rw [Nat.testBit_or] at this
  simp at this
  exact this.1

theorem Touches.cut {m : Nat} {s t u : State} (h : Touches m s t) (k : Touches m s t → Touches m s u) :
    Touches m s u := k h
theorem Ends.cut {m : Nat} {s t : State} {a : Answer} (h : Touches m s t) (k : Touches m s t → Ends m s a) :
    Ends m s a := k h
theorem Ends.step {k m : Nat} {s t : State} {a : Answer} (b : Ends k t a) (hk : k ||| m = m) (h : Touches m s t) :
    Ends m s a := by
  obtain ⟨u, e, b⟩ := b
  exact ⟨u, e, Touches.step b hk h⟩
theorem Ends.next {m : Nat} {s t : State} (h : Touches m s t) : Ends m s (.next t) := ⟨t, rfl, h⟩

/-- The state of a pair that was taken apart. -/
theorem Touches.snd {α : Type} {m : Nat} {s t : State} {p : α × State} {a : α} (e : p = (a, t))
    (h : Touches m s p.2) : Touches m s t := by subst e; exact h
theorem Touches.fst {α : Type} {m : Nat} {s t : State} {p : State × α} {a : α} (e : p = (t, a))
    (h : Touches m s p.1) : Touches m s t := by subst e; exact h
theorem Touches.thd {α β : Type} {m : Nat} {s t : State} {p : α × β × State} {a : α} {b : β} (e : p = (a, b, t))
    (h : Touches m s p.2.2) : Touches m s t := by subst e; exact h
theorem Touches.fst3 {α β : Type} {m : Nat} {s t : State} {p : State × α × β} {a : α} {b : β} (e : p = (t, a, b))
    (h : Touches m s p.1) : Touches m s t := by subst e; exact h

theorem Touches.foldl {α : Type} {m : Nat} {s0 s : State} {l : List α} {f : State → α → State}
    (hf : ∀ s a, Touches m s0 s → Touches m s0 (f s a)) (h : Touches m s0 s) : Touches m s0 (l.foldl f s) := by
  induction l generalizing s with
  | nil => exact h
  | cons a l ih => exact ih (hf s a h)

theorem Touches.foldl_fst {α β : Type} {m : Nat} {s0 : State} {f : State × β → α → State × β} {l : List α}
    {a : State × β} (hf : ∀ (a : State × β) x, Touches m s0 a.1 → Touches m s0 (f a x).1) (h : Touches m s0 a.1) :
    Touches m s0 (l.foldl f a).1 := by
  induction l generalizing a with
  | nil => exact h
  | cons x xs ih => exact ih (hf a x h)

theorem Touches.foldl_snd {α β : Type} {m : Nat} {s0 : State} {f : β × State → α → β × State} {l : List α}
    {a : β × State} (hf : ∀ (a : β × State) x, Touches m s0 a.2 → Touches m s0 (f a x).2) (h : Touches m s0 a.2) :
    Touches m s0 (l.foldl f a).2 := by
  induction l generalizing a with
  | nil => exact h
  | cons x xs ih => exact ih (hf a x h)

/-- As `Touches.foldl`, of what the list holds. -/
theorem Touches.foldl_mem {α : Type} {m : Nat} {s0 s : State} {l : List α} {f : State → α → State}
    (hf : ∀ s, ∀ a ∈ l, Touches m s0 s → Touches m s0 (f s a)) (h : Touches m s0 s) :
    Touches m s0 (l.foldl f s) := by
  induction l generalizing s with
  | nil => exact h
  | cons a l ih =>
    exact ih (fun s b hb => hf s b (List.mem_cons_of_mem a hb)) (hf s a List.mem_cons_self h)

theorem answered_touches {m : Nat} {s0 s : State} {a : Answer} (h : Ends m s0 a) : Touches m s0 (answered s a) := by
  obtain ⟨t, rfl, h⟩ := h
  exact h

/-! ## The parts one by one -/

theorem Touches.upd_sw {m : Nat} {s0 s : State} {x : Switch} (hb : m.testBit Part.sw.bit = true)
    (hm : x.mem = s.sw.mem) (h : Touches m s0 s) : Touches m s0 { s with sw := x } := by
  refine ⟨fun p hp => ?_, fun w => ?_, h.pending⟩
  · have a := h.same p hp
    cases p <;> first | exact a | skip
    · rw [hp] at hb; cases hb
    · simp only [Part.same] at a ⊢; rw [hm]; exact a
  · have := h.wf w
    exact ⟨this.1, this.2.1, by rw [hm]; exact this.2.2.1, this.2.2.2⟩

theorem Touches.upd_mem {m : Nat} {s0 s : State} {x : Switch} {a : Nat} {bs : List Byte}
    (hb : m.testBit Part.sw.bit = true) (hc : m.testBit Part.mem.bit = true) (hm : x.mem = memWrite s.sw.mem a bs)
    (h : Touches m s0 s) : Touches m s0 { s with sw := x } := by
  refine ⟨fun p hp => ?_, fun w => ?_, h.pending⟩
  · have a := h.same p hp
    cases p <;> first | exact a | skip
    · rw [hp] at hb; cases hb
    · rw [hp] at hc; cases hc
  · have := h.wf w
    exact ⟨this.1, this.2.1, by rw [hm]; exact memWf_memWrite _ _ _ this.2.2.1, this.2.2.2⟩

theorem Touches.upd_hbm {m : Nat} {s0 s : State} {x : HbmBlock} (hb : m.testBit Part.hbm.bit = true)
    (hm : x.ring = s.hbm.ring) (h : Touches m s0 s) : Touches m s0 { s with hbm := x } := by
  refine ⟨fun p hp => ?_, fun w => ?_, h.pending⟩
  · have a := h.same p hp
    cases p <;> first | exact a | skip
    · rw [hp] at hb; cases hb
    · simp only [Part.same] at a ⊢; rw [hm]; exact a
  · have := h.wf w
    exact ⟨this.1, this.2.1, this.2.2.1, by rw [hm]; exact this.2.2.2⟩

theorem Touches.upd_ring {m : Nat} {s0 s : State} {x : HbmBlock} (hb : m.testBit Part.hbm.bit = true)
    (hc : m.testBit Part.ring.bit = true) (hm : memWf s.hbm.ring = true → memWf x.ring = true)
    (h : Touches m s0 s) : Touches m s0 { s with hbm := x } := by
  refine ⟨fun p hp => ?_, fun w => ?_, h.pending⟩
  · have a := h.same p hp
    cases p <;> first | exact a | skip
    · rw [hp] at hb; cases hb
    · rw [hp] at hc; cases hc
  · have := h.wf w
    exact ⟨this.1, this.2.1, this.2.2.1, hm this.2.2.2⟩

theorem Touches.upd_regs {m : Nat} {s0 s : State} {x : RegFile} (hw : rfWf s.regs = true → rfWf x = true)
    (hs : ∀ r i, m.testBit r.bit = false → rfGet x r i = rfGet s.regs r i) (h : Touches m s0 s) :
    Touches m s0 { s with regs := x } := by
  refine ⟨fun p hp => ?_, fun w => ?_, h.pending⟩
  · have a := h.same p hp
    cases p <;> first | exact a | skip
    rename_i r
    intro i
    rw [← a i]
    exact hs r i hp
  · have := h.wf w
    exact ⟨hw this.1, this.2⟩

theorem Touches.upd_staging {m : Nat} {s0 s : State} {x : RegFile} (hb : m.testBit Part.staging.bit = true)
    (hw : rfWf s.staging = true → rfWf x = true) (h : Touches m s0 s) : Touches m s0 { s with staging := x } := by
  refine ⟨fun p hp => ?_, fun w => ?_, h.pending⟩
  · have a := h.same p hp
    cases p <;> first | exact a | skip
    rw [hp] at hb; cases hb
  · have := h.wf w
    exact ⟨this.1, hw this.2.1, this.2.2⟩

theorem Touches.upd_now {m : Nat} {s0 s : State} {x : Nat} (hb : m.testBit Part.now.bit = true)
    (h : Touches m s0 s) : Touches m s0 { s with now := x } := by
  refine ⟨fun p hp => ?_, fun w => h.wf w, h.pending⟩
  have a := h.same p hp
  cases p <;> first | exact a | skip
  rw [hp] at hb; cases hb

theorem Touches.upd_cf {m : Nat} {s0 s : State} {x : CfgBlock} (hb : m.testBit Part.cf.bit = true)
    (h : Touches m s0 s) : Touches m s0 { s with cf := x } := by
  refine ⟨fun p hp => ?_, fun w => h.wf w, h.pending⟩
  have a := h.same p hp
  cases p <;> first | exact a | skip
  rw [hp] at hb; cases hb

theorem Touches.upd_tim {m : Nat} {s0 s : State} {x : TimeBlock} (hb : m.testBit Part.tim.bit = true)
    (h : Touches m s0 s) : Touches m s0 { s with tim := x } := by
  refine ⟨fun p hp => ?_, fun w => h.wf w, h.pending⟩
  have a := h.same p hp
  cases p <;> first | exact a | skip
  rw [hp] at hb; cases hb

theorem Touches.upd_tb {m : Nat} {s0 s : State} {x : TableBlock} (hb : m.testBit Part.tb.bit = true)
    (h : Touches m s0 s) : Touches m s0 { s with tb := x } := by
  refine ⟨fun p hp => ?_, fun w => h.wf w, h.pending⟩
  have a := h.same p hp
  cases p <;> first | exact a | skip
  rw [hp] at hb; cases hb

theorem Touches.upd_hif {m : Nat} {s0 s : State} {x : HostBlock} (hb : m.testBit Part.hif.bit = true)
    (h : Touches m s0 s) : Touches m s0 { s with hif := x } := by
  refine ⟨fun p hp => ?_, fun w => h.wf w, h.pending⟩
  have a := h.same p hp
  cases p <;> first | exact a | skip
  rw [hp] at hb; cases hb

theorem Touches.upd_tel {m : Nat} {s0 s : State} {x : TelBlock} (hb : m.testBit Part.tel.bit = true)
    (h : Touches m s0 s) : Touches m s0 { s with tel := x } := by
  refine ⟨fun p hp => ?_, fun w => h.wf w, h.pending⟩
  have a := h.same p hp
  cases p <;> first | exact a | skip
  rw [hp] at hb; cases hb

theorem Touches.upd_mod {m : Nat} {s0 s : State} {x : ModBlock} (hb : m.testBit Part.mod.bit = true)
    (h : Touches m s0 s) : Touches m s0 { s with mod := x } := by
  refine ⟨fun p hp => ?_, fun w => h.wf w, h.pending⟩
  have a := h.same p hp
  cases p <;> first | exact a | skip
  rw [hp] at hb; cases hb

theorem Touches.upd_pace {m : Nat} {s0 s : State} {x : PaceBlock} (hb : m.testBit Part.pace.bit = true)
    (h : Touches m s0 s) : Touches m s0 { s with pace := x } := by
  refine ⟨fun p hp => ?_, fun w => h.wf w, h.pending⟩
  have a := h.same p hp
  cases p <;> first | exact a | skip
  rw [hp] at hb; cases hb

theorem Touches.upd_bbx {m : Nat} {s0 s : State} {x : BlackBox} (hb : m.testBit Part.bbx.bit = true)
    (h : Touches m s0 s) : Touches m s0 { s with bbx := x } := by
  refine ⟨fun p hp => ?_, fun w => h.wf w, h.pending⟩
  have a := h.same p hp
  cases p <;> first | exact a | skip
  rw [hp] at hb; cases hb

theorem Touches.upd_sec {m : Nat} {s0 s : State} {x : SecBlock} (hb : m.testBit Part.sec.bit = true)
    (h : Touches m s0 s) : Touches m s0 { s with sec := x } := by
  refine ⟨fun p hp => ?_, fun w => h.wf w, h.pending⟩
  have a := h.same p hp
  cases p <;> first | exact a | skip
  rw [hp] at hb; cases hb

theorem Touches.upd_tnd {m : Nat} {s0 s : State} {x : TndBlock} (hb : m.testBit Part.tnd.bit = true)
    (h : Touches m s0 s) : Touches m s0 { s with tnd := x } := by
  refine ⟨fun p hp => ?_, fun w => h.wf w, h.pending⟩
  have a := h.same p hp
  cases p <;> first | exact a | skip
  rw [hp] at hb; cases hb

theorem Touches.upd_pkg {m : Nat} {s0 s : State} {x : PkgBlock} (hb : m.testBit Part.pkg.bit = true)
    (h : Touches m s0 s) : Touches m s0 { s with pkg := x } := by
  refine ⟨fun p hp => ?_, fun w => h.wf w, h.pending⟩
  have a := h.same p hp
  cases p <;> first | exact a | skip
  rw [hp] at hb; cases hb

theorem Touches.upd_drawn {m : Nat} {s0 s : State} {x : Nat} (hb : m.testBit Part.drawn.bit = true)
    (h : Touches m s0 s) : Touches m s0 { s with drawn := x } := by
  refine ⟨fun p hp => ?_, fun w => h.wf w, h.pending⟩
  have a := h.same p hp
  cases p <;> first | exact a | skip
  rw [hp] at hb; cases hb

theorem Touches.upd_out {m : Nat} {s0 s : State} {x : List Out} (hb : m.testBit Part.out.bit = true)
    (h : Touches m s0 s) : Touches m s0 { s with out := x } := by
  refine ⟨fun p hp => ?_, fun w => h.wf w, h.pending⟩
  have a := h.same p hp
  cases p <;> first | exact a | skip
  rw [hp] at hb; cases hb

/-! ## Registers -/

theorem Touches.set {m : Nat} {s0 s : State} {f : Fld} {i v : Nat} (hb : m.testBit f.reg.bit = true)
    (h : Touches m s0 s) : Touches m s0 (s.set f i v) := by
  refine Touches.upd_regs (rfWf_rfSet f i v) (fun r j hr => ?_) h
  refine rfGet_rfPut_ne _ _ ?_
  rintro ⟨rfl, _⟩
  rw [hr] at hb; cases hb

theorem Touches.setReg {m : Nat} {s0 s : State} {r : Reg} {i v : Nat} (hb : m.testBit r.bit = true)
    (h : Touches m s0 s) : Touches m s0 (s.setReg r i v) := by
  refine Touches.upd_regs (rfWf_rfPut r i _) (fun q j hq => ?_) h
  refine rfGet_rfPut_ne _ _ ?_
  rintro ⟨rfl, _⟩
  rw [hq] at hb; cases hb

theorem Touches.addSat {m : Nat} {s0 s : State} {f : Fld} {i n : Nat} (hb : m.testBit f.reg.bit = true)
    (h : Touches m s0 s) : Touches m s0 (s.addSat f i n) := Touches.set hb h

theorem Touches.addWrap {m : Nat} {s0 s : State} {f : Fld} {i n : Nat} (hb : m.testBit f.reg.bit = true)
    (h : Touches m s0 s) : Touches m s0 (s.addWrap f i n) := Touches.set hb h

theorem Touches.setStaged {m : Nat} {s0 s : State} {f : Fld} {i v : Nat} (hb : m.testBit Part.staging.bit = true)
    (h : Touches m s0 s) : Touches m s0 (s.setStaged f i v) := Touches.upd_staging hb (rfWf_rfSet f i v) h

theorem Touches.emit {m : Nat} {s0 s : State} {o : Out} (hb : m.testBit Part.out.bit = true)
    (h : Touches m s0 s) : Touches m s0 (s.emit o) := Touches.upd_out hb h

theorem State.draw_touches {m : Nat} {s0 s : State} (hk : 0x20000 ||| m = m) (h : Touches m s0 s) :
    Touches m s0 s.draw.2 :=
  Touches.upd_drawn (by rw [← hk, Nat.testBit_or]; rfl) h

theorem State.draw_touches_eq {m : Nat} {s0 t s : State} {a : Nat} (e : s.draw = (a, t)) (hk : 0x20000 ||| m = m)
    (h : Touches m s0 s) : Touches m s0 t := Touches.snd e (State.draw_touches hk h)

theorem Touches.modHbm {m : Nat} {s0 s : State} {f : HbmBlock → HbmBlock} (hb : m.testBit Part.hbm.bit = true)
    (hm : ∀ b, (f b).ring = b.ring) (h : Touches m s0 s) : Touches m s0 (s.modHbm f) := Touches.upd_hbm hb (hm _) h

theorem Touches.modHbm_ring {m : Nat} {s0 s : State} {f : HbmBlock → HbmBlock} (hb : m.testBit Part.hbm.bit = true)
    (hc : m.testBit Part.ring.bit = true) (hm : ∀ b, memWf b.ring = true → memWf (f b).ring = true)
    (h : Touches m s0 s) : Touches m s0 (s.modHbm f) := Touches.upd_ring hb hc (hm _) h

/-- Every register is among the parts. -/
theorem all_regs {m : Nat} (hk : 0x3FFFFFFFFFFFFFFFFFFFFFFFFFFFFFFFFFFFFFFFFFFFFFFFFFFFFFFFFFFFFFFFFFFFFFFFFFFFFFFFFFFFFFFFFF80000 ||| m = m) (r : Reg) : m.testBit r.bit = true := by
  rw [← hk, Nat.testBit_or]
  cases r <;> rfl

theorem Touches.upd_all_regs {m : Nat} {s0 s : State} {x : RegFile} (hk : 0x3FFFFFFFFFFFFFFFFFFFFFFFFFFFFFFFFFFFFFFFFFFFFFFFFFFFFFFFFFFFFFFFFFFFFFFFFFFFFFFFFFFFFFFFFF80000 ||| m = m)
    (hw : rfWf s.regs = true → rfWf x = true) (h : Touches m s0 s) : Touches m s0 { s with regs := x } :=
  Touches.upd_regs hw (fun r i hr => by rw [all_regs hk r] at hr; cases hr) h

/-- What an operation leaves alone, by the names of the parts. -/
theorem Touches.only {m : Nat} {s t : State} (h : Touches m s t) (ps : List Part)
    (hp : ∀ p : Part, m.testBit p.bit = true → p ∈ ps) : Only ps s t :=
  ⟨fun p hn => h.same p (by cases hb : m.testBit p.bit with | false => rfl | true => exact absurd (hp p hb) hn), h.pending⟩

end Sys2Proof.Machine
end

