-- ==== Sys2Proof/Laws/State.lean ====
section
/-!
SUPPORT. What the small operations over the state leave as it was, one lemma for each operation and field, and what a
register field reads after it is written.
-/

namespace Sys2Proof.Machine

/-! ## Fields of registers -/

theorem State.get_set_same {s : State} {f : Fld} {i v : Nat} (h : f.lo + f.width ≤ 64) :
    (s.set f i v).get f i = v % 2 ^ f.width := by
  simp only [State.get, State.set, rfFld, rfSet, rfGet_rfPut_same]
  exact bitsOf_withBits_same _ _ _ _ h

theorem State.get_set_ne {s : State} {f g : Fld} {i j v : Nat} (h : f.reg ≠ g.reg ∨ i ≠ j) :
    (s.set f i v).get g j = s.get g j := by
  simp only [State.get, State.set, rfFld, rfSet]
  rw [rfGet_rfPut_ne]
  rintro ⟨a, b⟩
  exact h.elim (fun k => k a) fun k => k b

theorem State.get_set_apart {s : State} {f g : Fld} {i j v : Nat} (h : f.lo + f.width ≤ 64)
    (hd : g.lo + g.width ≤ f.lo ∨ f.lo + f.width ≤ g.lo) : (s.set f i v).get g j = s.get g j := by
  by_cases hr : f.reg = g.reg ∧ i = j
  · obtain ⟨hr, rfl⟩ := hr
    simp only [State.get, State.set, rfFld, rfSet, hr, rfGet_rfPut_same]
    exact bitsOf_withBits_other _ _ _ _ _ _ h hd
  · exact State.get_set_ne (by by_cases e : f.reg = g.reg <;> simp_all)

theorem State.reg_set_ne {s : State} {f : Fld} {r : Reg} {i j v : Nat} (h : f.reg ≠ r ∨ i ≠ j) :
    (s.set f i v).reg r j = s.reg r j := by
  simp only [State.reg, State.set, rfSet]
  rw [rfGet_rfPut_ne]
  rintro ⟨a, b⟩
  exact h.elim (fun k => k a) fun k => k b

theorem State.reg_setReg_same {s : State} {r : Reg} {i v : Nat} : (s.setReg r i v).reg r i = v % 2 ^ 64 := by
  simp [State.reg, State.setReg]

theorem State.reg_setReg_ne {s : State} {r q : Reg} {i j v : Nat} (h : r ≠ q ∨ i ≠ j) :
    (s.setReg r i v).reg q j = s.reg q j := by
  simp only [State.reg, State.setReg]
  rw [rfGet_rfPut_ne]
  rintro ⟨a, b⟩
  exact h.elim (fun k => k a) fun k => k b

theorem State.get_setReg_ne {s : State} {r : Reg} {g : Fld} {i j v : Nat} (h : r ≠ g.reg ∨ i ≠ j) :
    (s.setReg r i v).get g j = s.get g j := by
  simp only [State.get, State.setReg, rfFld]
  rw [rfGet_rfPut_ne]
  rintro ⟨a, b⟩
  exact h.elim (fun k => k a) fun k => k b

theorem State.get_lt (s : State) (f : Fld) (i : Nat) : s.get f i < 2 ^ f.width :=
  Nat.mod_lt _ (Nat.two_pow_pos _)

/-! ## The parts that an operation does not touch -/

theorem Touches.get {m : Nat} {s t : State} {g : Fld} {i : Nat} (h : Touches m s t)
    (hb : m.testBit g.reg.bit = false) : t.get g i = s.get g i := by
  have := h.same (.reg g.reg) hb i
  simp only [State.get, rfFld, this]

theorem Touches.reg {m : Nat} {s t : State} {r : Reg} {i : Nat} (h : Touches m s t)
    (hb : m.testBit r.bit = false) : t.reg r i = s.reg r i := by
  have := h.same (.reg r) hb i
  simp only [State.reg, this]

theorem Touches.flag {m : Nat} {s t : State} {g : Fld} {i : Nat} (h : Touches m s t)
    (hb : m.testBit g.reg.bit = false) : t.flag g i = s.flag g i := by
  simp only [State.flag, h.get hb]

theorem Touches.now_same {m : Nat} {s t : State} (h : Touches m s t) (hb : m.testBit Part.now.bit = false) : t.now = s.now :=
  h.same .now hb

theorem Touches.staging_same {m : Nat} {s t : State} (h : Touches m s t) (hb : m.testBit Part.staging.bit = false) : t.staging = s.staging :=
  h.same .staging hb

theorem Touches.cf_same {m : Nat} {s t : State} (h : Touches m s t) (hb : m.testBit Part.cf.bit = false) : t.cf = s.cf :=
  h.same .cf hb

theorem Touches.tim_same {m : Nat} {s t : State} (h : Touches m s t) (hb : m.testBit Part.tim.bit = false) : t.tim = s.tim :=
  h.same .tim hb

theorem Touches.tb_same {m : Nat} {s t : State} (h : Touches m s t) (hb : m.testBit Part.tb.bit = false) : t.tb = s.tb :=
  h.same .tb hb

theorem Touches.hif_same {m : Nat} {s t : State} (h : Touches m s t) (hb : m.testBit Part.hif.bit = false) : t.hif = s.hif :=
  h.same .hif hb

theorem Touches.tel_same {m : Nat} {s t : State} (h : Touches m s t) (hb : m.testBit Part.tel.bit = false) : t.tel = s.tel :=
  h.same .tel hb

theorem Touches.mod_same {m : Nat} {s t : State} (h : Touches m s t) (hb : m.testBit Part.mod.bit = false) : t.mod = s.mod :=
  h.same .mod hb

theorem Touches.pace_same {m : Nat} {s t : State} (h : Touches m s t) (hb : m.testBit Part.pace.bit = false) : t.pace = s.pace :=
  h.same .pace hb

theorem Touches.bbx_same {m : Nat} {s t : State} (h : Touches m s t) (hb : m.testBit Part.bbx.bit = false) : t.bbx = s.bbx :=
  h.same .bbx hb

theorem Touches.sec_same {m : Nat} {s t : State} (h : Touches m s t) (hb : m.testBit Part.sec.bit = false) : t.sec = s.sec :=
  h.same .sec hb

theorem Touches.tnd_same {m : Nat} {s t : State} (h : Touches m s t) (hb : m.testBit Part.tnd.bit = false) : t.tnd = s.tnd :=
  h.same .tnd hb

theorem Touches.pkg_same {m : Nat} {s t : State} (h : Touches m s t) (hb : m.testBit Part.pkg.bit = false) : t.pkg = s.pkg :=
  h.same .pkg hb

theorem Touches.drawn_same {m : Nat} {s t : State} (h : Touches m s t) (hb : m.testBit Part.drawn.bit = false) : t.drawn = s.drawn :=
  h.same .drawn hb

theorem Touches.out_same {m : Nat} {s t : State} (h : Touches m s t) (hb : m.testBit Part.out.bit = false) : t.out = s.out :=
  h.same .out hb

/-! ## Updates and the fields they leave -/

@[simp] theorem State.now_set {s : State} {f : Fld} {i v : Nat} : (s.set f i v).now = s.now := rfl
@[simp] theorem State.staging_set {s : State} {f : Fld} {i v : Nat} : (s.set f i v).staging = s.staging := rfl
@[simp] theorem State.sw_set {s : State} {f : Fld} {i v : Nat} : (s.set f i v).sw = s.sw := rfl
@[simp] theorem State.cf_set {s : State} {f : Fld} {i v : Nat} : (s.set f i v).cf = s.cf := rfl
@[simp] theorem State.tim_set {s : State} {f : Fld} {i v : Nat} : (s.set f i v).tim = s.tim := rfl
@[simp] theorem State.tb_set {s : State} {f : Fld} {i v : Nat} : (s.set f i v).tb = s.tb := rfl
@[simp] theorem State.hif_set {s : State} {f : Fld} {i v : Nat} : (s.set f i v).hif = s.hif := rfl
@[simp] theorem State.tel_set {s : State} {f : Fld} {i v : Nat} : (s.set f i v).tel = s.tel := rfl
@[simp] theorem State.hbm_set {s : State} {f : Fld} {i v : Nat} : (s.set f i v).hbm = s.hbm := rfl
@[simp] theorem State.mod_set {s : State} {f : Fld} {i v : Nat} : (s.set f i v).mod = s.mod := rfl
@[simp] theorem State.pace_set {s : State} {f : Fld} {i v : Nat} : (s.set f i v).pace = s.pace := rfl
@[simp] theorem State.bbx_set {s : State} {f : Fld} {i v : Nat} : (s.set f i v).bbx = s.bbx := rfl
@[simp] theorem State.sec_set {s : State} {f : Fld} {i v : Nat} : (s.set f i v).sec = s.sec := rfl
@[simp] theorem State.tnd_set {s : State} {f : Fld} {i v : Nat} : (s.set f i v).tnd = s.tnd := rfl
@[simp] theorem State.pkg_set {s : State} {f : Fld} {i v : Nat} : (s.set f i v).pkg = s.pkg := rfl
@[simp] theorem State.drawn_set {s : State} {f : Fld} {i v : Nat} : (s.set f i v).drawn = s.drawn := rfl
@[simp] theorem State.out_set {s : State} {f : Fld} {i v : Nat} : (s.set f i v).out = s.out := rfl
@[simp] theorem State.pending_set {s : State} {f : Fld} {i v : Nat} : (s.set f i v).pending = s.pending := rfl

@[simp] theorem State.now_setReg {s : State} {r : Reg} {i v : Nat} : (s.setReg r i v).now = s.now := rfl
@[simp] theorem State.staging_setReg {s : State} {r : Reg} {i v : Nat} : (s.setReg r i v).staging = s.staging := rfl
@[simp] theorem State.sw_setReg {s : State} {r : Reg} {i v : Nat} : (s.setReg r i v).sw = s.sw := rfl
@[simp] theorem State.cf_setReg {s : State} {r : Reg} {i v : Nat} : (s.setReg r i v).cf = s.cf := rfl
@[simp] theorem State.tim_setReg {s : State} {r : Reg} {i v : Nat} : (s.setReg r i v).tim = s.tim := rfl
@[simp] theorem State.tb_setReg {s : State} {r : Reg} {i v : Nat} : (s.setReg r i v).tb = s.tb := rfl
@[simp] theorem State.hif_setReg {s : State} {r : Reg} {i v : Nat} : (s.setReg r i v).hif = s.hif := rfl
@[simp] theorem State.tel_setReg {s : State} {r : Reg} {i v : Nat} : (s.setReg r i v).tel = s.tel := rfl
@[simp] theorem State.hbm_setReg {s : State} {r : Reg} {i v : Nat} : (s.setReg r i v).hbm = s.hbm := rfl
@[simp] theorem State.mod_setReg {s : State} {r : Reg} {i v : Nat} : (s.setReg r i v).mod = s.mod := rfl
@[simp] theorem State.pace_setReg {s : State} {r : Reg} {i v : Nat} : (s.setReg r i v).pace = s.pace := rfl
@[simp] theorem State.bbx_setReg {s : State} {r : Reg} {i v : Nat} : (s.setReg r i v).bbx = s.bbx := rfl
@[simp] theorem State.sec_setReg {s : State} {r : Reg} {i v : Nat} : (s.setReg r i v).sec = s.sec := rfl
@[simp] theorem State.tnd_setReg {s : State} {r : Reg} {i v : Nat} : (s.setReg r i v).tnd = s.tnd := rfl
@[simp] theorem State.pkg_setReg {s : State} {r : Reg} {i v : Nat} : (s.setReg r i v).pkg = s.pkg := rfl
@[simp] theorem State.drawn_setReg {s : State} {r : Reg} {i v : Nat} : (s.setReg r i v).drawn = s.drawn := rfl
@[simp] theorem State.out_setReg {s : State} {r : Reg} {i v : Nat} : (s.setReg r i v).out = s.out := rfl
@[simp] theorem State.pending_setReg {s : State} {r : Reg} {i v : Nat} : (s.setReg r i v).pending = s.pending := rfl

@[simp] theorem State.now_setStaged {s : State} {f : Fld} {i v : Nat} : (s.setStaged f i v).now = s.now := rfl
@[simp] theorem State.regs_setStaged {s : State} {f : Fld} {i v : Nat} : (s.setStaged f i v).regs = s.regs := rfl
@[simp] theorem State.sw_setStaged {s : State} {f : Fld} {i v : Nat} : (s.setStaged f i v).sw = s.sw := rfl
@[simp] theorem State.cf_setStaged {s : State} {f : Fld} {i v : Nat} : (s.setStaged f i v).cf = s.cf := rfl
@[simp] theorem State.tim_setStaged {s : State} {f : Fld} {i v : Nat} : (s.setStaged f i v).tim = s.tim := rfl
@[simp] theorem State.tb_setStaged {s : State} {f : Fld} {i v : Nat} : (s.setStaged f i v).tb = s.tb := rfl
@[simp] theorem State.hif_setStaged {s : State} {f : Fld} {i v : Nat} : (s.setStaged f i v).hif = s.hif := rfl
@[simp] theorem State.tel_setStaged {s : State} {f : Fld} {i v : Nat} : (s.setStaged f i v).tel = s.tel := rfl
@[simp] theorem State.hbm_setStaged {s : State} {f : Fld} {i v : Nat} : (s.setStaged f i v).hbm = s.hbm := rfl
@[simp] theorem State.mod_setStaged {s : State} {f : Fld} {i v : Nat} : (s.setStaged f i v).mod = s.mod := rfl
@[simp] theorem State.pace_setStaged {s : State} {f : Fld} {i v : Nat} : (s.setStaged f i v).pace = s.pace := rfl
@[simp] theorem State.bbx_setStaged {s : State} {f : Fld} {i v : Nat} : (s.setStaged f i v).bbx = s.bbx := rfl
@[simp] theorem State.sec_setStaged {s : State} {f : Fld} {i v : Nat} : (s.setStaged f i v).sec = s.sec := rfl
@[simp] theorem State.tnd_setStaged {s : State} {f : Fld} {i v : Nat} : (s.setStaged f i v).tnd = s.tnd := rfl
@[simp] theorem State.pkg_setStaged {s : State} {f : Fld} {i v : Nat} : (s.setStaged f i v).pkg = s.pkg := rfl
@[simp] theorem State.drawn_setStaged {s : State} {f : Fld} {i v : Nat} : (s.setStaged f i v).drawn = s.drawn := rfl
@[simp] theorem State.out_setStaged {s : State} {f : Fld} {i v : Nat} : (s.setStaged f i v).out = s.out := rfl
@[simp] theorem State.pending_setStaged {s : State} {f : Fld} {i v : Nat} : (s.setStaged f i v).pending = s.pending := rfl

@[simp] theorem State.now_addSat {s : State} {f : Fld} {i n : Nat} : (s.addSat f i n).now = s.now := rfl
@[simp] theorem State.staging_addSat {s : State} {f : Fld} {i n : Nat} : (s.addSat f i n).staging = s.staging := rfl
@[simp] theorem State.sw_addSat {s : State} {f : Fld} {i n : Nat} : (s.addSat f i n).sw = s.sw := rfl
@[simp] theorem State.cf_addSat {s : State} {f : Fld} {i n : Nat} : (s.addSat f i n).cf = s.cf := rfl
@[simp] theorem State.tim_addSat {s : State} {f : Fld} {i n : Nat} : (s.addSat f i n).tim = s.tim := rfl
@[simp] theorem State.tb_addSat {s : State} {f : Fld} {i n : Nat} : (s.addSat f i n).tb = s.tb := rfl
@[simp] theorem State.hif_addSat {s : State} {f : Fld} {i n : Nat} : (s.addSat f i n).hif = s.hif := rfl
@[simp] theorem State.tel_addSat {s : State} {f : Fld} {i n : Nat} : (s.addSat f i n).tel = s.tel := rfl
@[simp] theorem State.hbm_addSat {s : State} {f : Fld} {i n : Nat} : (s.addSat f i n).hbm = s.hbm := rfl
@[simp] theorem State.mod_addSat {s : State} {f : Fld} {i n : Nat} : (s.addSat f i n).mod = s.mod := rfl
@[simp] theorem State.pace_addSat {s : State} {f : Fld} {i n : Nat} : (s.addSat f i n).pace = s.pace := rfl
@[simp] theorem State.bbx_addSat {s : State} {f : Fld} {i n : Nat} : (s.addSat f i n).bbx = s.bbx := rfl
@[simp] theorem State.sec_addSat {s : State} {f : Fld} {i n : Nat} : (s.addSat f i n).sec = s.sec := rfl
@[simp] theorem State.tnd_addSat {s : State} {f : Fld} {i n : Nat} : (s.addSat f i n).tnd = s.tnd := rfl
@[simp] theorem State.pkg_addSat {s : State} {f : Fld} {i n : Nat} : (s.addSat f i n).pkg = s.pkg := rfl
@[simp] theorem State.drawn_addSat {s : State} {f : Fld} {i n : Nat} : (s.addSat f i n).drawn = s.drawn := rfl
@[simp] theorem State.out_addSat {s : State} {f : Fld} {i n : Nat} : (s.addSat f i n).out = s.out := rfl
@[simp] theorem State.pending_addSat {s : State} {f : Fld} {i n : Nat} : (s.addSat f i n).pending = s.pending := rfl

@[simp] theorem State.now_addWrap {s : State} {f : Fld} {i n : Nat} : (s.addWrap f i n).now = s.now := rfl
@[simp] theorem State.staging_addWrap {s : State} {f : Fld} {i n : Nat} : (s.addWrap f i n).staging = s.staging := rfl
@[simp] theorem State.sw_addWrap {s : State} {f : Fld} {i n : Nat} : (s.addWrap f i n).sw = s.sw := rfl
@[simp] theorem State.cf_addWrap {s : State} {f : Fld} {i n : Nat} : (s.addWrap f i n).cf = s.cf := rfl
@[simp] theorem State.tim_addWrap {s : State} {f : Fld} {i n : Nat} : (s.addWrap f i n).tim = s.tim := rfl
@[simp] theorem State.tb_addWrap {s : State} {f : Fld} {i n : Nat} : (s.addWrap f i n).tb = s.tb := rfl
@[simp] theorem State.hif_addWrap {s : State} {f : Fld} {i n : Nat} : (s.addWrap f i n).hif = s.hif := rfl
@[simp] theorem State.tel_addWrap {s : State} {f : Fld} {i n : Nat} : (s.addWrap f i n).tel = s.tel := rfl
@[simp] theorem State.hbm_addWrap {s : State} {f : Fld} {i n : Nat} : (s.addWrap f i n).hbm = s.hbm := rfl
@[simp] theorem State.mod_addWrap {s : State} {f : Fld} {i n : Nat} : (s.addWrap f i n).mod = s.mod := rfl
@[simp] theorem State.pace_addWrap {s : State} {f : Fld} {i n : Nat} : (s.addWrap f i n).pace = s.pace := rfl
@[simp] theorem State.bbx_addWrap {s : State} {f : Fld} {i n : Nat} : (s.addWrap f i n).bbx = s.bbx := rfl
@[simp] theorem State.sec_addWrap {s : State} {f : Fld} {i n : Nat} : (s.addWrap f i n).sec = s.sec := rfl
@[simp] theorem State.tnd_addWrap {s : State} {f : Fld} {i n : Nat} : (s.addWrap f i n).tnd = s.tnd := rfl
@[simp] theorem State.pkg_addWrap {s : State} {f : Fld} {i n : Nat} : (s.addWrap f i n).pkg = s.pkg := rfl
@[simp] theorem State.drawn_addWrap {s : State} {f : Fld} {i n : Nat} : (s.addWrap f i n).drawn = s.drawn := rfl
@[simp] theorem State.out_addWrap {s : State} {f : Fld} {i n : Nat} : (s.addWrap f i n).out = s.out := rfl
@[simp] theorem State.pending_addWrap {s : State} {f : Fld} {i n : Nat} : (s.addWrap f i n).pending = s.pending := rfl

@[simp] theorem State.now_emit {s : State} {o : Out} : (s.emit o).now = s.now := rfl
@[simp] theorem State.regs_emit {s : State} {o : Out} : (s.emit o).regs = s.regs := rfl
@[simp] theorem State.staging_emit {s : State} {o : Out} : (s.emit o).staging = s.staging := rfl
@[simp] theorem State.sw_emit {s : State} {o : Out} : (s.emit o).sw = s.sw := rfl
@[simp] theorem State.cf_emit {s : State} {o : Out} : (s.emit o).cf = s.cf := rfl
@[simp] theorem State.tim_emit {s : State} {o : Out} : (s.emit o).tim = s.tim := rfl
@[simp] theorem State.tb_emit {s : State} {o : Out} : (s.emit o).tb = s.tb := rfl
@[simp] theorem State.hif_emit {s : State} {o : Out} : (s.emit o).hif = s.hif := rfl
@[simp] theorem State.tel_emit {s : State} {o : Out} : (s.emit o).tel = s.tel := rfl
@[simp] theorem State.hbm_emit {s : State} {o : Out} : (s.emit o).hbm = s.hbm := rfl
@[simp] theorem State.mod_emit {s : State} {o : Out} : (s.emit o).mod = s.mod := rfl
@[simp] theorem State.pace_emit {s : State} {o : Out} : (s.emit o).pace = s.pace := rfl
@[simp] theorem State.bbx_emit {s : State} {o : Out} : (s.emit o).bbx = s.bbx := rfl
@[simp] theorem State.sec_emit {s : State} {o : Out} : (s.emit o).sec = s.sec := rfl
@[simp] theorem State.tnd_emit {s : State} {o : Out} : (s.emit o).tnd = s.tnd := rfl
@[simp] theorem State.pkg_emit {s : State} {o : Out} : (s.emit o).pkg = s.pkg := rfl
@[simp] theorem State.drawn_emit {s : State} {o : Out} : (s.emit o).drawn = s.drawn := rfl
@[simp] theorem State.pending_emit {s : State} {o : Out} : (s.emit o).pending = s.pending := rfl

@[simp] theorem State.out_emit {s : State} {o : Out} : (s.emit o).out = o :: s.out := rfl
@[simp] theorem State.get_emit {s : State} {o : Out} {g : Fld} {i : Nat} : (s.emit o).get g i = s.get g i := rfl
@[simp] theorem State.get_setStaged {s : State} {f g : Fld} {i j v : Nat} : (s.setStaged f i v).get g j = s.get g j := rfl

@[simp] theorem State.link_modLink_same {s : State} {k : Nat} {f : Link → Link} : (s.modLink k f).link k = f (s.link k) := by
  simp [State.link, State.modLink, tabMod, tabGet, tabFind_tabPut_same]
theorem State.link_modLink_ne {s : State} {k j : Nat} {f : Link → Link} (h : k ≠ j) : (s.modLink k f).link j = s.link j := by
  simp only [State.link, State.modLink]
  exact tabGet_tabMod_ne _ _ _ h
@[simp] theorem State.get_modLink {s : State} {k : Nat} {f : Link → Link} {g : Fld} {i : Nat} : (s.modLink k f).get g i = s.get g i := rfl

@[simp] theorem State.pipe_modPipe_same {s : State} {k : Nat} {f : Pipe → Pipe} : (s.modPipe k f).pipe k = f (s.pipe k) := by
  simp [State.pipe, State.modPipe, tabMod, tabGet, tabFind_tabPut_same]
theorem State.pipe_modPipe_ne {s : State} {k j : Nat} {f : Pipe → Pipe} (h : k ≠ j) : (s.modPipe k f).pipe j = s.pipe j := by
  simp only [State.pipe, State.modPipe]
  exact tabGet_tabMod_ne _ _ _ h
@[simp] theorem State.get_modPipe {s : State} {k : Nat} {f : Pipe → Pipe} {g : Fld} {i : Nat} : (s.modPipe k f).get g i = s.get g i := rfl

@[simp] theorem State.lane_modLane_same {s : State} {k : Nat} {f : Lane → Lane} : (s.modLane k f).lane k = f (s.lane k) := by
  simp [State.lane, State.modLane, tabMod, tabGet, tabFind_tabPut_same]
theorem State.lane_modLane_ne {s : State} {k j : Nat} {f : Lane → Lane} (h : k ≠ j) : (s.modLane k f).lane j = s.lane j := by
  simp only [State.lane, State.modLane]
  exact tabGet_tabMod_ne _ _ _ h
@[simp] theorem State.get_modLane {s : State} {k : Nat} {f : Lane → Lane} {g : Fld} {i : Nat} : (s.modLane k f).get g i = s.get g i := rfl

@[simp] theorem State.port_modPort_same {s : State} {k : Nat} {f : Port → Port} : (s.modPort k f).port k = f (s.port k) := by
  simp [State.port, State.modPort, tabMod, tabGet, tabFind_tabPut_same]
theorem State.port_modPort_ne {s : State} {k j : Nat} {f : Port → Port} (h : k ≠ j) : (s.modPort k f).port j = s.port j := by
  simp only [State.port, State.modPort]
  exact tabGet_tabMod_ne _ _ _ h
@[simp] theorem State.get_modPort {s : State} {k : Nat} {f : Port → Port} {g : Fld} {i : Nat} : (s.modPort k f).get g i = s.get g i := rfl

@[simp] theorem State.msixOf_modMsix_same {s : State} {k : Nat} {f : MsixState → MsixState} :
    (s.modMsix k f).msixOf k = f (s.msixOf k) := by
  simp [State.msixOf, State.modMsix, tabMod, tabGet, tabFind_tabPut_same]
theorem State.msixOf_modMsix_ne {s : State} {k j : Nat} {f : MsixState → MsixState} (h : k ≠ j) :
    (s.modMsix k f).msixOf j = s.msixOf j := by
  simp only [State.msixOf, State.modMsix]
  exact tabGet_tabMod_ne _ _ _ h
@[simp] theorem State.get_modMsix {s : State} {k : Nat} {f : MsixState → MsixState} {g : Fld} {i : Nat} :
    (s.modMsix k f).get g i = s.get g i := rfl

end Sys2Proof.Machine
end

