-- ==== Sys2Proof/Laws/ModuleState.lean ====
section
/-!
SUPPORT. What a read of a cage, chain or bus gives after one of them is changed.
-/

namespace Sys2Proof.Machine

@[simp] theorem State.cage_modCage_same {s : State} {k : Nat} {f : Cage → Cage} : (s.modCage k f).cage k = f (s.cage k) := by
  simp [State.cage, State.modCage, State.modMod, tabMod, tabGet, tabFind_tabPut_same]
theorem State.cage_modCage_ne {s : State} {k j : Nat} {f : Cage → Cage} (h : k ≠ j) :
    (s.modCage k f).cage j = s.cage j := by
  simp only [State.cage, State.modCage, State.modMod]
  exact tabGet_tabMod_ne _ _ _ h
@[simp] theorem State.get_modCage {s : State} {k : Nat} {f : Cage → Cage} {g : Fld} {i : Nat} :
    (s.modCage k f).get g i = s.get g i := rfl
@[simp] theorem State.chain_modCage {s : State} {k j : Nat} {f : Cage → Cage} : (s.modCage k f).chain j = s.chain j := rfl
@[simp] theorem State.bus_modCage {s : State} {k j : Nat} {f : Cage → Cage} : (s.modCage k f).bus j = s.bus j := rfl

@[simp] theorem State.chain_modChain_same {s : State} {k : Nat} {f : Chain → Chain} : (s.modChain k f).chain k = f (s.chain k) := by
  simp [State.chain, State.modChain, State.modMod, tabMod, tabGet, tabFind_tabPut_same]
theorem State.chain_modChain_ne {s : State} {k j : Nat} {f : Chain → Chain} (h : k ≠ j) :
    (s.modChain k f).chain j = s.chain j := by
  simp only [State.chain, State.modChain, State.modMod]
  exact tabGet_tabMod_ne _ _ _ h
@[simp] theorem State.get_modChain {s : State} {k : Nat} {f : Chain → Chain} {g : Fld} {i : Nat} :
    (s.modChain k f).get g i = s.get g i := rfl
@[simp] theorem State.cage_modChain {s : State} {k j : Nat} {f : Chain → Chain} : (s.modChain k f).cage j = s.cage j := rfl
@[simp] theorem State.bus_modChain {s : State} {k j : Nat} {f : Chain → Chain} : (s.modChain k f).bus j = s.bus j := rfl

@[simp] theorem State.bus_modBus_same {s : State} {k : Nat} {f : ModBus → ModBus} : (s.modBus k f).bus k = f (s.bus k) := by
  simp [State.bus, State.modBus, State.modMod, tabMod, tabGet, tabFind_tabPut_same]
theorem State.bus_modBus_ne {s : State} {k j : Nat} {f : ModBus → ModBus} (h : k ≠ j) :
    (s.modBus k f).bus j = s.bus j := by
  simp only [State.bus, State.modBus, State.modMod]
  exact tabGet_tabMod_ne _ _ _ h
@[simp] theorem State.get_modBus {s : State} {k : Nat} {f : ModBus → ModBus} {g : Fld} {i : Nat} :
    (s.modBus k f).get g i = s.get g i := rfl
@[simp] theorem State.cage_modBus {s : State} {k j : Nat} {f : ModBus → ModBus} : (s.modBus k f).cage j = s.cage j := rfl
@[simp] theorem State.chain_modBus {s : State} {k j : Nat} {f : ModBus → ModBus} : (s.modBus k f).chain j = s.chain j := rfl

end Sys2Proof.Machine
end

