-- ==== Sys2Proof/Laws/TouchesOps.lean ====
section
/-!
SUPPORT. What the operations of Ops.lean can touch.
-/

namespace Sys2Proof.Machine

set_option linter.all false

theorem State.freeBytes_touches {m : Nat} {s0 : State} {s : State} {z0 : Nat} (hk : 0x20000 ||| m = m)
    (h : Touches m s0 s) : Touches m s0 (State.freeBytes s z0).2 := by
  refine Touches.step (k := 0x20000) (t := s) ?_ hk h
  clear hk h
  have h0 := Touches.refl 0x20000 s
  suffices key : ∀ a, Touches 0x20000 a s → Touches 0x20000 a (State.freeBytes s z0).2 from key _ h0
  clear h0
  intro a h0
  induction z0 generalizing s with
  | zero => unfold State.freeBytes; exact h0
  | succ n ih =>
    unfold State.freeBytes
    repeat' first
      | with_reducible assumption
      | with_reducible refine ih ?_
      | (extract_lets +onlyGivenNames s'; with_reducible refine Touches.cut (t := s') ?_ ?_; subst s'; rotate_left; clear_value s'; intro hs; rotate_left)
      | (extract_lets +onlyGivenNames s'; first | (have _e : State → _ := s'; clear _e; subst s') | clear_value s')
      | with_reducible refine State.draw_touches_eq (by assumption) (by decide) ?_
      | with_reducible refine State.draw_touches (by decide) ?_
      | split

theorem State.freeBytes_touches_eq {m : Nat} {s0 t₁ : State} {s : State} {z0 : Nat} {a₁ : List Byte} (e₁ : State.freeBytes s z0 = (a₁, t₁))
    (hk : 0x20000 ||| m = m) (h : Touches m s0 s) : Touches m s0 t₁ := Touches.snd e₁ (State.freeBytes_touches hk h)


theorem State.modMsix_touches {m : Nat} {s0 : State} {s : State} {f : Nat} {g : MsixState → MsixState} (hk : 0x80 ||| m = m)
    (h : Touches m s0 s) : Touches m s0 (State.modMsix s f g) := by
  refine Touches.step (k := 0x80) (t := s) ?_ hk h
  clear hk h
  unfold State.modMsix
  have h0 := Touches.refl 0x80 s
  repeat' first
    | with_reducible assumption
    | (extract_lets +onlyGivenNames s'; with_reducible refine Touches.cut (t := s') ?_ ?_; subst s'; rotate_left; clear_value s'; intro hs; rotate_left)
    | (extract_lets +onlyGivenNames s'; first | (have _e : State → _ := s'; clear _e; subst s') | (have _e : HostBlock := s'; clear _e; subst s') | clear_value s')
    | split
    | with_reducible refine Touches.upd_hif (by decide) ?_


theorem State.resetMsix_touches {m : Nat} {s0 : State} {s : State} {f : Nat} (hk : 0x80 ||| m = m)
    (h : Touches m s0 s) : Touches m s0 (State.resetMsix s f) := by
  refine Touches.step (k := 0x80) (t := s) ?_ hk h
  clear hk h
  unfold State.resetMsix
  have h0 := Touches.refl 0x80 s
  repeat' first
    | with_reducible assumption
    | (extract_lets +onlyGivenNames s'; with_reducible refine Touches.cut (t := s') ?_ ?_; subst s'; rotate_left; clear_value s'; intro hs; rotate_left)
    | (extract_lets +onlyGivenNames s'; first | (have _e : State → _ := s'; clear _e; subst s') | (have _e : HostBlock := s'; clear _e; subst s') | clear_value s')
    | split
    | with_reducible refine Touches.upd_hif (by decide) ?_


theorem State.sendMsix_touches {m : Nat} {s0 : State} {s : State} {f v : Nat} (hk : 0x40080 ||| m = m)
    (h : Touches m s0 s) : Touches m s0 (State.sendMsix s f v) := by
  refine Touches.step (k := 0x40080) (t := s) ?_ hk h
  clear hk h
  unfold State.sendMsix
  have h0 := Touches.refl 0x40080 s
  repeat' first
    | with_reducible assumption
    | (extract_lets +onlyGivenNames s'; with_reducible refine Touches.cut (t := s') ?_ ?_; subst s'; rotate_left; clear_value s'; intro hs; rotate_left)
    | (extract_lets +onlyGivenNames s'; first | (have _e : State → _ := s'; clear _e; subst s') | clear_value s')
    | with_reducible refine State.modMsix_touches (by decide) ?_
    | with_reducible refine Touches.emit (by decide) ?_
    | split


theorem State.releaseMsix_touches {m : Nat} {s0 : State} {s : State} {f : Nat} (hk : 0x40080 ||| m = m)
    (h : Touches m s0 s) : Touches m s0 (State.releaseMsix s f) := by
  refine Touches.step (k := 0x40080) (t := s) ?_ hk h
  clear hk h
  unfold State.releaseMsix
  have h0 := Touches.refl 0x40080 s
  repeat' first
    | with_reducible assumption
    | (extract_lets +onlyGivenNames s'; with_reducible refine Touches.cut (t := s') ?_ ?_; subst s'; rotate_left; clear_value s'; intro hs; rotate_left)
    | (extract_lets +onlyGivenNames s'; first | (have _e : State → _ := s'; clear _e; subst s') | clear_value s')
    | with_reducible refine Touches.foldl (fun _ _ _ => ?_) ?_
    | with_reducible refine State.modMsix_touches (by decide) ?_
    | with_reducible refine Touches.emit (by decide) ?_
    | split


theorem State.refreshInts_touches {m : Nat} {s0 : State} {s : State} (hk : 0x100000000000000000000000000000000000000000000000000000000000000000000040080 ||| m = m)
    (h : Touches m s0 s) : Touches m s0 (State.refreshInts s) := by
  refine Touches.step (k := 0x100000000000000000000000000000000000000000000000000000000000000000000040080) (t := s) ?_ hk h
  clear hk h
  unfold State.refreshInts
  have h0 := Touches.refl 0x100000000000000000000000000000000000000000000000000000000000000000000040080 s
  repeat' first
    | with_reducible assumption
    | (extract_lets +onlyGivenNames s'; with_reducible refine Touches.cut (t := s') ?_ ?_; subst s'; rotate_left; clear_value s'; intro hs; rotate_left)
    | (extract_lets +onlyGivenNames s'; first | (have _e : State → _ := s'; clear _e; subst s') | clear_value s')
    | with_reducible refine State.sendMsix_touches (by decide) ?_
    | with_reducible refine Touches.setReg (by first | decide | assumption | (split <;> decide)) ?_
    | split


theorem State.refreshPortInt_touches {m : Nat} {s0 : State} {s : State} {x : Nat} (hk : 0x100000000000000000000000000000000000000000000000000000008000000000000040080 ||| m = m)
    (h : Touches m s0 s) : Touches m s0 (State.refreshPortInt s x) := by
  refine Touches.step (k := 0x100000000000000000000000000000000000000000000000000000008000000000000040080) (t := s) ?_ hk h
  clear hk h
  unfold State.refreshPortInt
  have h0 := Touches.refl 0x100000000000000000000000000000000000000000000000000000008000000000000040080 s
  repeat' first
    | with_reducible assumption
    | (extract_lets +onlyGivenNames s'; with_reducible refine Touches.cut (t := s') ?_ ?_; subst s'; rotate_left; clear_value s'; intro hs; rotate_left)
    | (extract_lets +onlyGivenNames s'; first | (have _e : State → _ := s'; clear _e; subst s') | clear_value s')
    | with_reducible refine State.refreshInts_touches (by decide) ?_
    | with_reducible refine Touches.setReg (by first | decide | assumption | (split <;> decide)) ?_
    | split



theorem Touches.raise {m : Nat} {s0 s : State} {f : Fld} (hb : m.testBit f.reg.bit = true)
    (hk : 0x100000000000000000000000000000000000000000000000000000000000000000000040080 ||| m = m) (h : Touches m s0 s) : Touches m s0 (s.raise f) :=
  State.refreshInts_touches hk (Touches.set hb h)

theorem Touches.raiseWin {m : Nat} {s0 s : State} {f : Fld} {n : Nat} (hb : m.testBit f.reg.bit = true)
    (hk : 0x40080 ||| m = m) (h : Touches m s0 s) : Touches m s0 (s.raiseWin f n) := by
  unfold State.raiseWin
  extract_lets old t new
  have ht : Touches m s0 t := Touches.set hb h
  split
  · exact State.sendMsix_touches hk ht
  · exact ht

theorem Touches.portEvent {m : Nat} {s0 s : State} {f : Fld} {x : Nat} (hb : m.testBit f.reg.bit = true)
    (hk : 0x100000000000000000000000000000000000000000000000000000008000000000000040080 ||| m = m) (h : Touches m s0 s) : Touches m s0 (s.portEvent f x) :=
  State.refreshPortInt_touches hk (Touches.set hb h)

theorem State.setTroupeReady_touches {m : Nat} {s0 : State} {s : State} {n : Nat} {b : Bool} (hk : 0xC0000000000000000000000000000000000000000000000000000000000000000000010000000040080 ||| m = m)
    (h : Touches m s0 s) : Touches m s0 (State.setTroupeReady s n b) := by
  refine Touches.step (k := 0xC0000000000000000000000000000000000000000000000000000000000000000000010000000040080) (t := s) ?_ hk h
  clear hk h
  unfold State.setTroupeReady
  have h0 := Touches.refl 0xC0000000000000000000000000000000000000000000000000000000000000000000010000000040080 s
  repeat' first
    | with_reducible assumption
    | (extract_lets +onlyGivenNames s'; with_reducible refine Touches.cut (t := s') ?_ ?_; subst s'; rotate_left; clear_value s'; intro hs; rotate_left)
    | (extract_lets +onlyGivenNames s'; first | (have _e : State → _ := s'; clear _e; subst s') | clear_value s')
    | with_reducible refine Touches.set (by first | decide | assumption | (split <;> decide)) ?_
    | with_reducible refine Touches.raiseWin (by first | decide | assumption | (split <;> decide)) (by decide) ?_
    | split


theorem State.setTroupeState_touches {m : Nat} {s0 : State} {s : State} {n v : Nat} (hk : 0xC0000040000000000000000000000000000000000000000000000000000000000000000000000040080 ||| m = m)
    (h : Touches m s0 s) : Touches m s0 (State.setTroupeState s n v) := by
  refine Touches.step (k := 0xC0000040000000000000000000000000000000000000000000000000000000000000000000000040080) (t := s) ?_ hk h
  clear hk h
  unfold State.setTroupeState
  have h0 := Touches.refl 0xC0000040000000000000000000000000000000000000000000000000000000000000000000000040080 s
  repeat' first
    | with_reducible assumption
    | (extract_lets +onlyGivenNames s'; with_reducible refine Touches.cut (t := s') ?_ ?_; subst s'; rotate_left; clear_value s'; intro hs; rotate_left)
    | (extract_lets +onlyGivenNames s'; first | (have _e : State → _ := s'; clear _e; subst s') | clear_value s')
    | with_reducible refine Touches.set (by first | decide | assumption | (split <;> decide)) ?_
    | with_reducible refine Touches.raiseWin (by first | decide | assumption | (split <;> decide)) (by decide) ?_
    | split


theorem State.recordFrom_touches {m : Nat} {s0 : State} {s : State} {source code : Nat} {data : List Byte} (hk : 0x1020000000000000100000000000000000000000000000000000000000000000000000000000000000000042080 ||| m = m)
    (h : Touches m s0 s) : Touches m s0 (State.recordFrom s source code data) := by
  refine Touches.step (k := 0x1020000000000000100000000000000000000000000000000000000000000000000000000000000000000042080) (t := s) ?_ hk h
  clear hk h
  unfold State.recordFrom
  have h0 := Touches.refl 0x1020000000000000100000000000000000000000000000000000000000000000000000000000000000000042080 s
  repeat' first
    | with_reducible assumption
    | (extract_lets +onlyGivenNames s'; with_reducible refine Touches.cut (t := s') ?_ ?_; subst s'; rotate_left; clear_value s'; intro hs; rotate_left)
    | (extract_lets +onlyGivenNames s'; first | (have _e : State → _ := s'; clear _e; subst s') | (have _e : BlackBox := s'; clear _e; subst s') | clear_value s')
    | with_reducible refine Touches.set (by first | decide | assumption | (split <;> decide)) ?_
    | with_reducible refine Touches.addSat (by first | decide | assumption | (split <;> decide)) ?_
    | with_reducible refine Touches.raise (by first | decide | assumption | (split <;> decide)) (by decide) ?_
    | split
    | with_reducible refine Touches.upd_bbx (by decide) ?_


theorem State.record_touches {m : Nat} {s0 : State} {s : State} {code : Nat} {data : List Byte} (hk : 0x1020000000000000100000000000000000000000000000000000000000000000000000000000000000000042080 ||| m = m)
    (h : Touches m s0 s) : Touches m s0 (State.record s code data) := by
  refine Touches.step (k := 0x1020000000000000100000000000000000000000000000000000000000000000000000000000000000000042080) (t := s) ?_ hk h
  clear hk h
  unfold State.record
  have h0 := Touches.refl 0x1020000000000000100000000000000000000000000000000000000000000000000000000000000000000042080 s
  repeat' first
    | with_reducible assumption
    | (extract_lets +onlyGivenNames s'; with_reducible refine Touches.cut (t := s') ?_ ?_; subst s'; rotate_left; clear_value s'; intro hs; rotate_left)
    | (extract_lets +onlyGivenNames s'; first | (have _e : State → _ := s'; clear _e; subst s') | clear_value s')
    | with_reducible refine State.recordFrom_touches (by decide) ?_
    | split


theorem State.recordLimited_touches {m : Nat} {s0 : State} {s : State} {source code key n span : Nat} {data : List Byte} (hk : 0x1020000000000000100000000000000000000000000000000000000000000000000000000000000000000042080 ||| m = m)
    (h : Touches m s0 s) : Touches m s0 (State.recordLimited s source code key n span data) := by
  refine Touches.step (k := 0x1020000000000000100000000000000000000000000000000000000000000000000000000000000000000042080) (t := s) ?_ hk h
  clear hk h
  unfold State.recordLimited
  have h0 := Touches.refl 0x1020000000000000100000000000000000000000000000000000000000000000000000000000000000000042080 s
  repeat' first
    | with_reducible assumption
    | (extract_lets +onlyGivenNames s'; with_reducible refine Touches.cut (t := s') ?_ ?_; subst s'; rotate_left; clear_value s'; intro hs; rotate_left)
    | (extract_lets +onlyGivenNames s'; first | (have _e : State → _ := s'; clear _e; subst s') | (have _e : BlackBox := s'; clear _e; subst s') | clear_value s')
    | with_reducible refine State.recordFrom_touches (by decide) ?_
    | split
    | with_reducible refine Touches.upd_bbx (by decide) ?_


theorem State.setReady_touches {m : Nat} {s0 : State} {s : State} {n : Nat} {b inReset : Bool} (hk : 0x1020000000000000100000000000000000000000000000000000000000000000000000000000006000000042080 ||| m = m)
    (h : Touches m s0 s) : Touches m s0 (State.setReady s n b inReset) := by
  refine Touches.step (k := 0x1020000000000000100000000000000000000000000000000000000000000000000000000000006000000042080) (t := s) ?_ hk h
  clear hk h
  unfold State.setReady
  have h0 := Touches.refl 0x1020000000000000100000000000000000000000000000000000000000000000000000000000006000000042080 s
  repeat' first
    | with_reducible assumption
    | (extract_lets +onlyGivenNames s'; with_reducible refine Touches.cut (t := s') ?_ ?_; subst s'; rotate_left; clear_value s'; intro hs; rotate_left)
    | (extract_lets +onlyGivenNames s'; first | (have _e : State → _ := s'; clear _e; subst s') | clear_value s')
    | with_reducible refine State.refreshInts_touches (by decide) ?_
    | with_reducible refine State.record_touches (by decide) ?_
    | with_reducible refine Touches.set (by first | decide | assumption | (split <;> decide)) ?_
    | split


theorem State.refreshMod_touches {m : Nat} {s0 : State} {s : State} (hk : 0x1020000000000000100000000000000000000000000000000000000000000000000000000000006000000042080 ||| m = m)
    (h : Touches m s0 s) : Touches m s0 (State.refreshMod s) := by
  refine Touches.step (k := 0x1020000000000000100000000000000000000000000000000000000000000000000000000000006000000042080) (t := s) ?_ hk h
  clear hk h
  unfold State.refreshMod
  have h0 := Touches.refl 0x1020000000000000100000000000000000000000000000000000000000000000000000000000006000000042080 s
  repeat' first
    | with_reducible assumption
    | (extract_lets +onlyGivenNames s'; with_reducible refine Touches.cut (t := s') ?_ ?_; subst s'; rotate_left; clear_value s'; intro hs; rotate_left)
    | (extract_lets +onlyGivenNames s'; first | (have _e : State → _ := s'; clear _e; subst s') | clear_value s')
    | with_reducible refine State.setReady_touches (by decide) ?_
    | split


theorem State.portCount_touches {m : Nat} {s0 : State} {s : State} {x k n : Nat} (hk : 0x4000000000000000000 ||| m = m)
    (h : Touches m s0 s) : Touches m s0 (State.portCount s x k n) := by
  refine Touches.step (k := 0x4000000000000000000) (t := s) ?_ hk h
  clear hk h
  unfold State.portCount
  have h0 := Touches.refl 0x4000000000000000000 s
  repeat' first
    | with_reducible assumption
    | (extract_lets +onlyGivenNames s'; with_reducible refine Touches.cut (t := s') ?_ ?_; subst s'; rotate_left; clear_value s'; intro hs; rotate_left)
    | (extract_lets +onlyGivenNames s'; first | (have _e : State → _ := s'; clear _e; subst s') | clear_value s')
    | with_reducible refine Touches.addWrap (by first | decide | assumption | (split <;> decide)) ?_
    | split


theorem State.modLink_touches {m : Nat} {s0 : State} {s : State} {n : Nat} {f : Link → Link} (hk : 0x4 ||| m = m)
    (h : Touches m s0 s) : Touches m s0 (State.modLink s n f) := by
  refine Touches.step (k := 0x4) (t := s) ?_ hk h
  clear hk h
  unfold State.modLink
  have h0 := Touches.refl 0x4 s
  repeat' first
    | with_reducible assumption
    | (extract_lets +onlyGivenNames s'; with_reducible refine Touches.cut (t := s') ?_ ?_; subst s'; rotate_left; clear_value s'; intro hs; rotate_left)
    | (extract_lets +onlyGivenNames s'; first | (have _e : State → _ := s'; clear _e; subst s') | (have _e : Switch := s'; clear _e; subst s') | clear_value s')
    | split
    | with_reducible refine Touches.upd_sw (by decide) rfl ?_


theorem State.modPipe_touches {m : Nat} {s0 : State} {s : State} {p : Nat} {f : Pipe → Pipe} (hk : 0x4 ||| m = m)
    (h : Touches m s0 s) : Touches m s0 (State.modPipe s p f) := by
  refine Touches.step (k := 0x4) (t := s) ?_ hk h
  clear hk h
  unfold State.modPipe
  have h0 := Touches.refl 0x4 s
  repeat' first
    | with_reducible assumption
    | (extract_lets +onlyGivenNames s'; with_reducible refine Touches.cut (t := s') ?_ ?_; subst s'; rotate_left; clear_value s'; intro hs; rotate_left)
    | (extract_lets +onlyGivenNames s'; first | (have _e : State → _ := s'; clear _e; subst s') | (have _e : Switch := s'; clear _e; subst s') | clear_value s')
    | split
    | with_reducible refine Touches.upd_sw (by decide) rfl ?_


theorem State.modLane_touches {m : Nat} {s0 : State} {s : State} {l : Nat} {f : Lane → Lane} (hk : 0x4 ||| m = m)
    (h : Touches m s0 s) : Touches m s0 (State.modLane s l f) := by
  refine Touches.step (k := 0x4) (t := s) ?_ hk h
  clear hk h
  unfold State.modLane
  have h0 := Touches.refl 0x4 s
  repeat' first
    | with_reducible assumption
    | (extract_lets +onlyGivenNames s'; with_reducible refine Touches.cut (t := s') ?_ ?_; subst s'; rotate_left; clear_value s'; intro hs; rotate_left)
    | (extract_lets +onlyGivenNames s'; first | (have _e : State → _ := s'; clear _e; subst s') | (have _e : Switch := s'; clear _e; subst s') | clear_value s')
    | split
    | with_reducible refine Touches.upd_sw (by decide) rfl ?_


theorem State.modPort_touches {m : Nat} {s0 : State} {s : State} {x : Nat} {f : Port → Port} (hk : 0x4 ||| m = m)
    (h : Touches m s0 s) : Touches m s0 (State.modPort s x f) := by
  refine Touches.step (k := 0x4) (t := s) ?_ hk h
  clear hk h
  unfold State.modPort
  have h0 := Touches.refl 0x4 s
  repeat' first
    | with_reducible assumption
    | (extract_lets +onlyGivenNames s'; with_reducible refine Touches.cut (t := s') ?_ ?_; subst s'; rotate_left; clear_value s'; intro hs; rotate_left)
    | (extract_lets +onlyGivenNames s'; first | (have _e : State → _ := s'; clear _e; subst s') | (have _e : Switch := s'; clear _e; subst s') | clear_value s')
    | split
    | with_reducible refine Touches.upd_sw (by decide) rfl ?_


theorem State.putPacket_touches {m : Nat} {s0 : State} {s : State} {k : Nat} {p : Packet} (hk : 0x4 ||| m = m)
    (h : Touches m s0 s) : Touches m s0 (State.putPacket s k p) := by
  refine Touches.step (k := 0x4) (t := s) ?_ hk h
  clear hk h
  unfold State.putPacket
  have h0 := Touches.refl 0x4 s
  repeat' first
    | with_reducible assumption
    | (extract_lets +onlyGivenNames s'; with_reducible refine Touches.cut (t := s') ?_ ?_; subst s'; rotate_left; clear_value s'; intro hs; rotate_left)
    | (extract_lets +onlyGivenNames s'; first | (have _e : State → _ := s'; clear _e; subst s') | (have _e : Switch := s'; clear _e; subst s') | clear_value s')
    | split
    | with_reducible refine Touches.upd_sw (by decide) rfl ?_


theorem State.delPacket_touches {m : Nat} {s0 : State} {s : State} {k : Nat} (hk : 0x4 ||| m = m)
    (h : Touches m s0 s) : Touches m s0 (State.delPacket s k) := by
  refine Touches.step (k := 0x4) (t := s) ?_ hk h
  clear hk h
  unfold State.delPacket
  have h0 := Touches.refl 0x4 s
  repeat' first
    | with_reducible assumption
    | (extract_lets +onlyGivenNames s'; with_reducible refine Touches.cut (t := s') ?_ ?_; subst s'; rotate_left; clear_value s'; intro hs; rotate_left)
    | (extract_lets +onlyGivenNames s'; first | (have _e : State → _ := s'; clear _e; subst s') | (have _e : Switch := s'; clear _e; subst s') | clear_value s')
    | split
    | with_reducible refine Touches.upd_sw (by decide) rfl ?_


theorem State.modPacket_touches {m : Nat} {s0 : State} {s : State} {k : Nat} {f : Packet → Packet} (hk : 0x4 ||| m = m)
    (h : Touches m s0 s) : Touches m s0 (State.modPacket s k f) := by
  refine Touches.step (k := 0x4) (t := s) ?_ hk h
  clear hk h
  unfold State.modPacket
  have h0 := Touches.refl 0x4 s
  repeat' first
    | with_reducible assumption
    | (extract_lets +onlyGivenNames s'; with_reducible refine Touches.cut (t := s') ?_ ?_; subst s'; rotate_left; clear_value s'; intro hs; rotate_left)
    | (extract_lets +onlyGivenNames s'; first | (have _e : State → _ := s'; clear _e; subst s') | clear_value s')
    | with_reducible refine State.putPacket_touches (by decide) ?_
    | split


theorem State.putDesc_touches {m : Nat} {s0 : State} {s : State} {d : Nat} {v : Desc} (hk : 0x4 ||| m = m)
    (h : Touches m s0 s) : Touches m s0 (State.putDesc s d v) := by
  refine Touches.step (k := 0x4) (t := s) ?_ hk h
  clear hk h
  unfold State.putDesc
  have h0 := Touches.refl 0x4 s
  repeat' first
    | with_reducible assumption
    | (extract_lets +onlyGivenNames s'; with_reducible refine Touches.cut (t := s') ?_ ?_; subst s'; rotate_left; clear_value s'; intro hs; rotate_left)
    | (extract_lets +onlyGivenNames s'; first | (have _e : State → _ := s'; clear _e; subst s') | (have _e : Switch := s'; clear _e; subst s') | clear_value s')
    | split
    | with_reducible refine Touches.upd_sw (by decide) rfl ?_


theorem State.modDesc_touches {m : Nat} {s0 : State} {s : State} {d : Nat} {f : Desc → Desc} (hk : 0x4 ||| m = m)
    (h : Touches m s0 s) : Touches m s0 (State.modDesc s d f) := by
  refine Touches.step (k := 0x4) (t := s) ?_ hk h
  clear hk h
  unfold State.modDesc
  have h0 := Touches.refl 0x4 s
  repeat' first
    | with_reducible assumption
    | (extract_lets +onlyGivenNames s'; with_reducible refine Touches.cut (t := s') ?_ ?_; subst s'; rotate_left; clear_value s'; intro hs; rotate_left)
    | (extract_lets +onlyGivenNames s'; first | (have _e : State → _ := s'; clear _e; subst s') | clear_value s')
    | with_reducible refine State.putDesc_touches (by decide) ?_
    | split


theorem State.setQueue_touches {m : Nat} {s0 : State} {s : State} {q : Nat} {es : List QEntry} (hk : 0x4 ||| m = m)
    (h : Touches m s0 s) : Touches m s0 (State.setQueue s q es) := by
  refine Touches.step (k := 0x4) (t := s) ?_ hk h
  clear hk h
  unfold State.setQueue
  have h0 := Touches.refl 0x4 s
  repeat' first
    | with_reducible assumption
    | (extract_lets +onlyGivenNames s'; with_reducible refine Touches.cut (t := s') ?_ ?_; subst s'; rotate_left; clear_value s'; intro hs; rotate_left)
    | (extract_lets +onlyGivenNames s'; first | (have _e : State → _ := s'; clear _e; subst s') | (have _e : Switch := s'; clear _e; subst s') | clear_value s')
    | split
    | with_reducible refine Touches.upd_sw (by decide) rfl ?_


theorem State.putFlight_touches {m : Nat} {s0 : State} {s : State} {k : Nat} {v : Flight} (hk : 0x4 ||| m = m)
    (h : Touches m s0 s) : Touches m s0 (State.putFlight s k v) := by
  refine Touches.step (k := 0x4) (t := s) ?_ hk h
  clear hk h
  unfold State.putFlight
  have h0 := Touches.refl 0x4 s
  repeat' first
    | with_reducible assumption
    | (extract_lets +onlyGivenNames s'; with_reducible refine Touches.cut (t := s') ?_ ?_; subst s'; rotate_left; clear_value s'; intro hs; rotate_left)
    | (extract_lets +onlyGivenNames s'; first | (have _e : State → _ := s'; clear _e; subst s') | (have _e : Switch := s'; clear _e; subst s') | clear_value s')
    | split
    | with_reducible refine Touches.upd_sw (by decide) rfl ?_


theorem State.modFlight_touches {m : Nat} {s0 : State} {s : State} {k : Nat} {f : Flight → Flight} (hk : 0x4 ||| m = m)
    (h : Touches m s0 s) : Touches m s0 (State.modFlight s k f) := by
  refine Touches.step (k := 0x4) (t := s) ?_ hk h
  clear hk h
  unfold State.modFlight
  have h0 := Touches.refl 0x4 s
  repeat' first
    | with_reducible assumption
    | (extract_lets +onlyGivenNames s'; with_reducible refine Touches.cut (t := s') ?_ ?_; subst s'; rotate_left; clear_value s'; intro hs; rotate_left)
    | (extract_lets +onlyGivenNames s'; first | (have _e : State → _ := s'; clear _e; subst s') | clear_value s')
    | with_reducible refine State.putFlight_touches (by decide) ?_
    | split


theorem State.spend_touches {m : Nat} {s0 : State} {s : State} {kind die : Nat} {troupe port pipe : Option Nat} {n : Nat} (hk : 0x1000 ||| m = m)
    (h : Touches m s0 s) : Touches m s0 (State.spend s kind die troupe port pipe n) := by
  refine Touches.step (k := 0x1000) (t := s) ?_ hk h
  clear hk h
  unfold State.spend
  have h0 := Touches.refl 0x1000 s
  repeat' first
    | with_reducible assumption
    | (extract_lets +onlyGivenNames s'; with_reducible refine Touches.cut (t := s') ?_ ?_; subst s'; rotate_left; clear_value s'; intro hs; rotate_left)
    | (extract_lets +onlyGivenNames s'; first | (have _e : State → _ := s'; clear _e; subst s') | (have _e : PaceBlock := s'; clear _e; subst s') | clear_value s')
    | split
    | with_reducible refine Touches.upd_pace (by decide) ?_


end Sys2Proof.Machine
end

