-- ==== Sys2Proof/Laws/TouchesLineCode.lean ====
section
/-!
SUPPORT. What the operations of LineCode.lean can touch.
-/

namespace Sys2Proof.Machine

set_option linter.all false

theorem State.sendPairs_touches {m : Nat} {s0 : State} {s : State} {l : Nat} {values : List Nat} (hk : 0x40000 ||| m = m)
    (h : Touches m s0 s) : Touches m s0 (State.sendPairs s l values) := by
  refine Touches.step (k := 0x40000) (t := s) ?_ hk h
  clear hk h
  unfold State.sendPairs
  have h0 := Touches.refl 0x40000 s
  repeat' first
    | with_reducible assumption
    | (extract_lets +onlyGivenNames s'; with_reducible refine Touches.cut (t := s') ?_ ?_; subst s'; rotate_left; clear_value s'; intro hs; rotate_left)
    | (extract_lets +onlyGivenNames s'; first | (have _e : State → _ := s'; clear _e; subst s') | clear_value s')
    | with_reducible refine Touches.emit (by decide) ?_
    | split


theorem State.sendTp6_touches {m : Nat} {s0 : State} {s : State} {l : Nat} {burst : Bool} (hk : 0x40000 ||| m = m)
    (h : Touches m s0 s) : Touches m s0 (State.sendTp6 s l burst) := by
  refine Touches.step (k := 0x40000) (t := s) ?_ hk h
  clear hk h
  unfold State.sendTp6
  have h0 := Touches.refl 0x40000 s
  repeat' first
    | with_reducible assumption
    | (extract_lets +onlyGivenNames s'; with_reducible refine Touches.cut (t := s') ?_ ?_; subst s'; rotate_left; clear_value s'; intro hs; rotate_left)
    | (extract_lets +onlyGivenNames s'; first | (have _e : State → _ := s'; clear _e; subst s') | clear_value s')
    | with_reducible refine State.sendPairs_touches (by decide) ?_
    | split


theorem State.sendTest_touches {m : Nat} {s0 : State} {s : State} {l : Nat} (hk : 0x40000 ||| m = m)
    (h : Touches m s0 s) : Touches m s0 (State.sendTest s l) := by
  refine Touches.step (k := 0x40000) (t := s) ?_ hk h
  clear hk h
  unfold State.sendTest
  have h0 := Touches.refl 0x40000 s
  repeat' first
    | with_reducible assumption
    | (extract_lets +onlyGivenNames s'; with_reducible refine Touches.cut (t := s') ?_ ?_; subst s'; rotate_left; clear_value s'; intro hs; rotate_left)
    | (extract_lets +onlyGivenNames s'; first | (have _e : State → _ := s'; clear _e; subst s') | clear_value s')
    | with_reducible refine Touches.emit (by decide) ?_
    | split


theorem State.laneBlock_touches {m : Nat} {s0 : State} {s : State} {l b : Nat} (hk : 0x40004 ||| m = m)
    (h : Touches m s0 s) : Touches m s0 (State.laneBlock s l b) := by
  refine Touches.step (k := 0x40004) (t := s) ?_ hk h
  clear hk h
  unfold State.laneBlock
  have h0 := Touches.refl 0x40004 s
  repeat' first
    | with_reducible assumption
    | (extract_lets +onlyGivenNames s'; with_reducible refine Touches.cut (t := s') ?_ ?_; subst s'; rotate_left; clear_value s'; intro hs; rotate_left)
    | (extract_lets +onlyGivenNames s'; first | (have _e : State → _ := s'; clear _e; subst s') | clear_value s')
    | with_reducible refine State.modLane_touches (by decide) ?_
    | with_reducible refine State.sendPairs_touches (by decide) ?_
    | split


theorem State.portBlocks_touches {m : Nat} {s0 : State} {s : State} {x n : Nat} {bs : List Nat} (hk : 0x40004 ||| m = m)
    (h : Touches m s0 s) : Touches m s0 (State.portBlocks s x n bs) := by
  refine Touches.step (k := 0x40004) (t := s) ?_ hk h
  clear hk h
  unfold State.portBlocks
  have h0 := Touches.refl 0x40004 s
  repeat' first
    | with_reducible assumption
    | (extract_lets +onlyGivenNames s'; with_reducible refine Touches.cut (t := s') ?_ ?_; subst s'; rotate_left; clear_value s'; intro hs; rotate_left)
    | (extract_lets +onlyGivenNames s'; first | (have _e : State → _ := s'; clear _e; subst s') | clear_value s')
    | with_reducible refine Touches.foldl (fun _ _ _ => ?_) ?_
    | with_reducible refine State.modPort_touches (by decide) ?_
    | with_reducible refine State.laneBlock_touches (by decide) ?_
    | split


theorem State.sendBlocks_touches {m : Nat} {s0 : State} {s : State} {x : Nat} {bs : List PcsBlock} (hk : 0x40004 ||| m = m)
    (h : Touches m s0 s) : Touches m s0 (State.sendBlocks s x bs) := by
  refine Touches.step (k := 0x40004) (t := s) ?_ hk h
  clear hk h
  unfold State.sendBlocks
  have h0 := Touches.refl 0x40004 s
  repeat' first
    | with_reducible assumption
    | (extract_lets +onlyGivenNames s'; with_reducible refine Touches.cut (t := s') ?_ ?_; subst s'; rotate_left; clear_value s'; intro hs; rotate_left)
    | (extract_lets +onlyGivenNames s'; first | (have _e : State → _ := s'; clear _e; subst s') | clear_value s')
    | with_reducible refine Touches.foldl (fun _ _ _ => ?_) ?_
    | with_reducible refine State.modPort_touches (by decide) ?_
    | with_reducible refine State.portBlocks_touches (by decide) ?_
    | split


theorem State.sendFrame_touches {m : Nat} {s0 : State} {s : State} {x : Nat} {frame : List Byte} (hk : 0x40004 ||| m = m)
    (h : Touches m s0 s) : Touches m s0 (State.sendFrame s x frame) := by
  refine Touches.step (k := 0x40004) (t := s) ?_ hk h
  clear hk h
  unfold State.sendFrame
  have h0 := Touches.refl 0x40004 s
  repeat' first
    | with_reducible assumption
    | (extract_lets +onlyGivenNames s'; with_reducible refine Touches.cut (t := s') ?_ ?_; subst s'; rotate_left; clear_value s'; intro hs; rotate_left)
    | (extract_lets +onlyGivenNames s'; first | (have _e : State → _ := s'; clear _e; subst s') | clear_value s')
    | with_reducible refine State.sendBlocks_touches (by decide) ?_
    | with_reducible refine Touches.emit (by decide) ?_
    | split

theorem State.sendIdles_touches {m : Nat} {s0 : State} {s : State} {x : Nat} {n : Nat} (hk : 0x40004 ||| m = m)
    (h : Touches m s0 s) : Touches m s0 (State.sendIdles s x n) := by
  refine Touches.step (k := 0x40004) (t := s) ?_ hk h
  clear hk h
  unfold State.sendIdles
  have h0 := Touches.refl 0x40004 s
  repeat' first
    | with_reducible assumption
    | (extract_lets +onlyGivenNames s'; with_reducible refine Touches.cut (t := s') ?_ ?_; subst s'; rotate_left; clear_value s'; intro hs; rotate_left)
    | (extract_lets +onlyGivenNames s'; first | (have _e : State → _ := s'; clear _e; subst s') | clear_value s')
    | with_reducible refine State.sendBlocks_touches (by decide) ?_
    | split


end Sys2Proof.Machine
end

