-- ==== Sys2Proof/Laws/TouchesRings.lean ====
section
/-!
SUPPORT. What the operations of Rings.lean can touch.
-/

namespace Sys2Proof.Machine

set_option linter.all false

theorem State.ringError_touches {m : Nat} {s0 : State} {s : State} {k : RingKind} {r cause : Nat} (hk : 0x87800784100000000000000000000000000000000000000000000000000000000000000000000040080 ||| m = m)
    (h : Touches m s0 s) : Touches m s0 (State.ringError s k r cause) := by
  refine Touches.step (k := 0x87800784100000000000000000000000000000000000000000000000000000000000000000000040080) (t := s) ?_ hk h
  clear hk h
  unfold State.ringError
  have h0 := Touches.refl 0x87800784100000000000000000000000000000000000000000000000000000000000000000000040080 s
  repeat' first
    | with_reducible assumption
    | (extract_lets +onlyGivenNames s'; with_reducible refine Touches.cut (t := s') ?_ ?_; subst s'; rotate_left; clear_value s'; intro hs; rotate_left)
    | (extract_lets +onlyGivenNames s'; first | (have _e : State → _ := s'; clear _e; subst s') | subst s')
    | with_reducible refine Touches.set (by first | decide | (cases k <;> decide)) ?_
    | with_reducible refine Touches.raise (by first | decide | (cases k <;> decide)) (by decide) ?_
    | with_reducible refine Touches.raiseWin (by first | decide | (cases k <;> decide)) (by decide) ?_
    | split


theorem State.sendVector_touches {m : Nat} {s0 : State} {s : State} {f v : Nat} (hk : 0x40080 ||| m = m)
    (h : Touches m s0 s) : Touches m s0 (State.sendVector s f v) := by
  refine Touches.step (k := 0x40080) (t := s) ?_ hk h
  clear hk h
  unfold State.sendVector
  have h0 := Touches.refl 0x40080 s
  repeat' first
    | with_reducible assumption
    | (extract_lets +onlyGivenNames s'; with_reducible refine Touches.cut (t := s') ?_ ?_; subst s'; rotate_left; clear_value s'; intro hs; rotate_left)
    | (extract_lets +onlyGivenNames s'; first | (have _e : State → _ := s'; clear _e; subst s') | clear_value s')
    | with_reducible refine State.sendMsix_touches (by decide) ?_
    | split


theorem State.ringSignal_touches {m : Nat} {s0 : State} {s : State} {k : RingKind} {r : Nat} (hk : 0x40080 ||| m = m)
    (h : Touches m s0 s) : Touches m s0 (State.ringSignal s k r) := by
  refine Touches.step (k := 0x40080) (t := s) ?_ hk h
  clear hk h
  unfold State.ringSignal
  have h0 := Touches.refl 0x40080 s
  repeat' first
    | with_reducible assumption
    | (extract_lets +onlyGivenNames s'; with_reducible refine Touches.cut (t := s') ?_ ?_; subst s'; rotate_left; clear_value s'; intro hs; rotate_left)
    | (extract_lets +onlyGivenNames s'; first | (have _e : State → _ := s'; clear _e; subst s') | (have _e : HostBlock := s'; clear _e; subst s') | clear_value s')
    | with_reducible refine State.sendVector_touches (by decide) ?_
    | split
    | with_reducible refine Touches.upd_hif (by decide) ?_


theorem State.ringCount_touches {m : Nat} {s0 : State} {s : State} {k : RingKind} {r : Nat} (hk : 0x40080 ||| m = m)
    (h : Touches m s0 s) : Touches m s0 (State.ringCount s k r) := by
  refine Touches.step (k := 0x40080) (t := s) ?_ hk h
  clear hk h
  unfold State.ringCount
  have h0 := Touches.refl 0x40080 s
  repeat' first
    | with_reducible assumption
    | (extract_lets +onlyGivenNames s'; with_reducible refine Touches.cut (t := s') ?_ ?_; subst s'; rotate_left; clear_value s'; intro hs; rotate_left)
    | (extract_lets +onlyGivenNames s'; first | (have _e : State → _ := s'; clear _e; subst s') | (have _e : HostBlock := s'; clear _e; subst s') | clear_value s')
    | with_reducible refine State.ringSignal_touches (by decide) ?_
    | split
    | with_reducible refine Touches.upd_hif (by decide) ?_


theorem State.ringWriteback_touches {m : Nat} {s0 : State} {s : State} {k : RingKind} {r : Nat} (hk : 0x40000 ||| m = m)
    (h : Touches m s0 s) : Touches m s0 (State.ringWriteback s k r) := by
  refine Touches.step (k := 0x40000) (t := s) ?_ hk h
  clear hk h
  unfold State.ringWriteback
  have h0 := Touches.refl 0x40000 s
  repeat' first
    | with_reducible assumption
    | (extract_lets +onlyGivenNames s'; with_reducible refine Touches.cut (t := s') ?_ ?_; subst s'; rotate_left; clear_value s'; intro hs; rotate_left)
    | (extract_lets +onlyGivenNames s'; first | (have _e : State → _ := s'; clear _e; subst s') | clear_value s')
    | with_reducible refine Touches.emit (by decide) ?_
    | split


theorem State.ringPut_touches {m : Nat} {s0 : State} {s : State} {k : RingKind} {r n : Nat} {bytes : List Byte} (hk : 0x780000000000000000000000000000000000000000000000000000000000000000000000000040080 ||| m = m)
    (h : Touches m s0 s) : Touches m s0 (State.ringPut s k r n bytes) := by
  refine Touches.step (k := 0x780000000000000000000000000000000000000000000000000000000000000000000000000040080) (t := s) ?_ hk h
  clear hk h
  unfold State.ringPut
  have h0 := Touches.refl 0x780000000000000000000000000000000000000000000000000000000000000000000000000040080 s
  repeat' first
    | with_reducible assumption
    | (extract_lets +onlyGivenNames s'; with_reducible refine Touches.cut (t := s') ?_ ?_; subst s'; rotate_left; clear_value s'; intro hs; rotate_left)
    | (extract_lets +onlyGivenNames s'; first | (have _e : State → _ := s'; clear _e; subst s') | subst s')
    | with_reducible refine State.ringCount_touches (by decide) ?_
    | with_reducible refine State.ringWriteback_touches (by decide) ?_
    | with_reducible refine Touches.set (by first | decide | (cases k <;> decide)) ?_
    | with_reducible refine Touches.emit (by decide) ?_
    | split


theorem State.tableReport_touches {m : Nat} {s0 : State} {s : State} {ring : Nat} {r : Report} (hk : 0x47800001000000000000000000000000000000000000000000000040800000000000000000000400C0 ||| m = m)
    (h : Touches m s0 s) : Touches m s0 (State.tableReport s ring r) := by
  refine Touches.step (k := 0x47800001000000000000000000000000000000000000000000000040800000000000000000000400C0) (t := s) ?_ hk h
  clear hk h
  unfold State.tableReport
  have h0 := Touches.refl 0x47800001000000000000000000000000000000000000000000000040800000000000000000000400C0 s
  repeat' first
    | with_reducible assumption
    | (extract_lets +onlyGivenNames s'; with_reducible refine Touches.cut (t := s') ?_ ?_; subst s'; rotate_left; clear_value s'; intro hs; rotate_left)
    | (extract_lets +onlyGivenNames s'; first | (have _e : State → _ := s'; clear _e; subst s') | (have _e : TableBlock := s'; clear _e; subst s') | clear_value s')
    | with_reducible refine State.ringPut_touches (by decide) ?_
    | with_reducible refine Touches.addSat (by first | decide | assumption | (split <;> decide)) ?_
    | with_reducible refine Touches.raise (by first | decide | assumption | (split <;> decide)) (by decide) ?_
    | split
    | with_reducible refine Touches.upd_tb (by decide) ?_


end Sys2Proof.Machine
end

