-- ==== Sys2Proof/Laws/TouchesExport.lean ====
section
/-!
SUPPORT. What the operations of Export.lean can touch.
-/

namespace Sys2Proof.Machine

set_option linter.all false

theorem State.modTel_touches {m : Nat} {s0 : State} {s : State} {f : TelBlock → TelBlock} (hk : 0x100 ||| m = m)
    (h : Touches m s0 s) : Touches m s0 (State.modTel s f) := by
  refine Touches.step (k := 0x100) (t := s) ?_ hk h
  clear hk h
  unfold State.modTel
  have h0 := Touches.refl 0x100 s
  repeat' first
    | with_reducible assumption
    | (extract_lets +onlyGivenNames s'; with_reducible refine Touches.cut (t := s') ?_ ?_; subst s'; rotate_left; clear_value s'; intro hs; rotate_left)
    | (extract_lets +onlyGivenNames s'; first | (have _e : State → _ := s'; clear _e; subst s') | (have _e : TelBlock := s'; clear _e; subst s') | clear_value s')
    | split
    | with_reducible refine Touches.upd_tel (by decide) ?_


theorem State.putStream_touches {m : Nat} {s0 : State} {s : State} {n : Nat} {v : Stream} (hk : 0x100 ||| m = m)
    (h : Touches m s0 s) : Touches m s0 (State.putStream s n v) := by
  refine Touches.step (k := 0x100) (t := s) ?_ hk h
  clear hk h
  unfold State.putStream
  have h0 := Touches.refl 0x100 s
  repeat' first
    | with_reducible assumption
    | (extract_lets +onlyGivenNames s'; with_reducible refine Touches.cut (t := s') ?_ ?_; subst s'; rotate_left; clear_value s'; intro hs; rotate_left)
    | (extract_lets +onlyGivenNames s'; first | (have _e : State → _ := s'; clear _e; subst s') | clear_value s')
    | with_reducible refine State.modTel_touches (by decide) ?_
    | split


theorem State.exportLost_touches {m : Nat} {s0 : State} {s : State} {n k : Nat} (hk : 0x80000000100000000000000010200000000000000000000000000000000000000000000000000040080 ||| m = m)
    (h : Touches m s0 s) : Touches m s0 (State.exportLost s n k) := by
  refine Touches.step (k := 0x80000000100000000000000010200000000000000000000000000000000000000000000000000040080) (t := s) ?_ hk h
  clear hk h
  unfold State.exportLost
  have h0 := Touches.refl 0x80000000100000000000000010200000000000000000000000000000000000000000000000000040080 s
  repeat' first
    | with_reducible assumption
    | (extract_lets +onlyGivenNames s'; with_reducible refine Touches.cut (t := s') ?_ ?_; subst s'; rotate_left; clear_value s'; intro hs; rotate_left)
    | (extract_lets +onlyGivenNames s'; first | (have _e : State → _ := s'; clear _e; subst s') | clear_value s')
    | with_reducible refine Touches.addSat (by first | decide | assumption | (split <;> decide)) ?_
    | with_reducible refine Touches.raise (by first | decide | assumption | (split <;> decide)) (by decide) ?_
    | with_reducible refine Touches.raiseWin (by first | decide | assumption | (split <;> decide)) (by decide) ?_
    | split


theorem State.recordBudget_touches {m : Nat} {s0 : State} {s : State} (hk : 0x100 ||| m = m)
    (h : Touches m s0 s) : Touches m s0 (State.recordBudget s).2 := by
  refine Touches.step (k := 0x100) (t := s) ?_ hk h
  clear hk h
  unfold State.recordBudget
  have h0 := Touches.refl 0x100 s
  repeat' first
    | with_reducible assumption
    | (extract_lets +onlyGivenNames s'; with_reducible refine Touches.cut (t := s') ?_ ?_; subst s'; rotate_left; clear_value s'; intro hs; rotate_left)
    | (extract_lets +onlyGivenNames s'; first | (have _e : State → _ := s'; clear _e; subst s') | clear_value s')
    | with_reducible refine State.modTel_touches (by decide) ?_
    | split

theorem State.recordBudget_touches_eq {m : Nat} {s0 t₁ : State} {s : State} {a₁ : Bool} (e₁ : State.recordBudget s = (a₁, t₁))
    (hk : 0x100 ||| m = m) (h : Touches m s0 s) : Touches m s0 t₁ := Touches.snd e₁ (State.recordBudget_touches hk h)


theorem State.exportRecord_touches {m : Nat} {s0 : State} {s : State} {n template : Nat} {bytes : List Byte} (hk : 0x80000000100000000000000010200000000000000000000000000000000000000000000000000040180 ||| m = m)
    (h : Touches m s0 s) : Touches m s0 (State.exportRecord s n template bytes) := by
  refine Touches.step (k := 0x80000000100000000000000010200000000000000000000000000000000000000000000000000040180) (t := s) ?_ hk h
  clear hk h
  unfold State.exportRecord
  have h0 := Touches.refl 0x80000000100000000000000010200000000000000000000000000000000000000000000000000040180 s
  repeat' first
    | with_reducible assumption
    | (extract_lets +onlyGivenNames s'; with_reducible refine Touches.cut (t := s') ?_ ?_; subst s'; rotate_left; clear_value s'; intro hs; rotate_left)
    | (extract_lets +onlyGivenNames s'; first | (have _e : State → _ := s'; clear _e; subst s') | clear_value s')
    | with_reducible refine State.putStream_touches (by decide) ?_
    | with_reducible refine State.exportLost_touches (by decide) ?_
    | with_reducible refine State.recordBudget_touches_eq (by assumption) (by decide) ?_
    | with_reducible refine State.recordBudget_touches (by decide) ?_
    | with_reducible refine Touches.addSat (by first | decide | assumption | (split <;> decide)) ?_
    | split


theorem State.rollInterval_touches {m : Nat} {s0 : State} {s : State} {n : Nat} (hk : 0x100 ||| m = m)
    (h : Touches m s0 s) : Touches m s0 (State.rollInterval s n) := by
  refine Touches.step (k := 0x100) (t := s) ?_ hk h
  clear hk h
  unfold State.rollInterval
  have h0 := Touches.refl 0x100 s
  repeat' first
    | with_reducible assumption
    | (extract_lets +onlyGivenNames s'; with_reducible refine Touches.cut (t := s') ?_ ?_; subst s'; rotate_left; clear_value s'; intro hs; rotate_left)
    | (extract_lets +onlyGivenNames s'; first | (have _e : State → _ := s'; clear _e; subst s') | clear_value s')
    | with_reducible refine State.modTel_touches (by decide) ?_
    | split


theorem State.spendSample_touches {m : Nat} {s0 : State} {s : State} {n reason : Nat} (hk : 0x100 ||| m = m)
    (h : Touches m s0 s) : Touches m s0 (State.spendSample s n reason) := by
  refine Touches.step (k := 0x100) (t := s) ?_ hk h
  clear hk h
  unfold State.spendSample
  have h0 := Touches.refl 0x100 s
  repeat' first
    | with_reducible assumption
    | (extract_lets +onlyGivenNames s'; with_reducible refine Touches.cut (t := s') ?_ ?_; subst s'; rotate_left; clear_value s'; intro hs; rotate_left)
    | (extract_lets +onlyGivenNames s'; first | (have _e : State → _ := s'; clear _e; subst s') | clear_value s')
    | with_reducible refine State.modTel_touches (by decide) ?_
    | with_reducible refine State.rollInterval_touches (by decide) ?_
    | split


theorem State.dropRecord_touches {m : Nat} {s0 : State} {s : State} {port n reason : Nat} {queue : Option Nat} {head : List Byte} (hk : 0x80000000100000000000000010200000000000000000000000000000000000000000000000000060180 ||| m = m)
    (h : Touches m s0 s) : Touches m s0 (State.dropRecord s port n reason queue head) := by
  refine Touches.step (k := 0x80000000100000000000000010200000000000000000000000000000000000000000000000000060180) (t := s) ?_ hk h
  clear hk h
  unfold State.dropRecord
  have h0 := Touches.refl 0x80000000100000000000000010200000000000000000000000000000000000000000000000000060180 s
  repeat' first
    | with_reducible assumption
    | (extract_lets +onlyGivenNames s'; with_reducible refine Touches.cut (t := s') ?_ ?_; subst s'; rotate_left; clear_value s'; intro hs; rotate_left)
    | (extract_lets +onlyGivenNames s'; first | (have _e : State → _ := s'; clear _e; subst s') | clear_value s')
    | with_reducible refine State.draw_touches_eq (by assumption) (by decide) ?_
    | with_reducible refine State.draw_touches (by decide) ?_
    | with_reducible refine State.exportRecord_touches (by decide) ?_
    | with_reducible refine State.spendSample_touches (by decide) ?_
    | split


theorem State.countDropOf_touches {m : Nat} {s0 : State} {s : State} {port troupe reason : Nat} {queue : Option Nat} {head : List Byte} (hk : 0x80000000100000000000000110200000000000000000000000000000000000000000000000000060180 ||| m = m)
    (h : Touches m s0 s) : Touches m s0 (State.countDropOf s port troupe reason queue head) := by
  refine Touches.step (k := 0x80000000100000000000000110200000000000000000000000000000000000000000000000000060180) (t := s) ?_ hk h
  clear hk h
  unfold State.countDropOf
  have h0 := Touches.refl 0x80000000100000000000000110200000000000000000000000000000000000000000000000000060180 s
  repeat' first
    | with_reducible assumption
    | (extract_lets +onlyGivenNames s'; with_reducible refine Touches.cut (t := s') ?_ ?_; subst s'; rotate_left; clear_value s'; intro hs; rotate_left)
    | (extract_lets +onlyGivenNames s'; first | (have _e : State → _ := s'; clear _e; subst s') | clear_value s')
    | with_reducible refine State.dropRecord_touches (by decide) ?_
    | with_reducible refine Touches.addWrap (by first | decide | assumption | (split <;> decide)) ?_
    | split


theorem State.countDrop_touches {m : Nat} {s0 : State} {s : State} {port troupe reason : Nat} (hk : 0x80000000100000000000000110200000000000000000000000000000000000000000000000000060180 ||| m = m)
    (h : Touches m s0 s) : Touches m s0 (State.countDrop s port troupe reason) := by
  refine Touches.step (k := 0x80000000100000000000000110200000000000000000000000000000000000000000000000000060180) (t := s) ?_ hk h
  clear hk h
  unfold State.countDrop
  have h0 := Touches.refl 0x80000000100000000000000110200000000000000000000000000000000000000000000000000060180 s
  repeat' first
    | with_reducible assumption
    | (extract_lets +onlyGivenNames s'; with_reducible refine Touches.cut (t := s') ?_ ?_; subst s'; rotate_left; clear_value s'; intro hs; rotate_left)
    | (extract_lets +onlyGivenNames s'; first | (have _e : State → _ := s'; clear _e; subst s') | clear_value s')
    | with_reducible refine State.countDropOf_touches (by decide) ?_
    | split


theorem execDropInterval_touches {m : Nat} {s0 : State} {troupe : TroupeNo} {s : State} (hk : 0x100 ||| m = m)
    (h : Touches m s0 s) : Ends m s0 (execDropInterval troupe s) := by
  refine Ends.step (k := 0x100) (t := s) ?_ hk h
  clear hk h
  unfold execDropInterval
  have h0 := Touches.refl 0x100 s
  repeat' first
    | with_reducible assumption
    | (extract_lets +onlyGivenNames s'; with_reducible refine Touches.cut (t := s') ?_ ?_; subst s'; rotate_left; clear_value s'; intro hs; rotate_left)
    | (extract_lets +onlyGivenNames s'; with_reducible refine Ends.cut (t := s') ?_ ?_; subst s'; rotate_left; clear_value s'; intro hs; rotate_left)
    | with_reducible refine Ends.next ?_
    | (extract_lets +onlyGivenNames s'; first | (have _e : State → _ := s'; clear _e; subst s') | clear_value s')
    | with_reducible refine State.rollInterval_touches (by decide) ?_
    | split


theorem State.tlmEntry_touches {m : Nat} {s0 : State} {s : State} {n : Nat} {pad : Bool} {size : Nat} {bytes : List Byte} (hk : 0x200000000000000000000000000000000000000000000000000000000000000000000000000040000 ||| m = m)
    (h : Touches m s0 s) : Touches m s0 (State.tlmEntry s n pad size bytes) := by
  refine Touches.step (k := 0x200000000000000000000000000000000000000000000000000000000000000000000000000040000) (t := s) ?_ hk h
  clear hk h
  unfold State.tlmEntry
  have h0 := Touches.refl 0x200000000000000000000000000000000000000000000000000000000000000000000000000040000 s
  repeat' first
    | with_reducible assumption
    | (extract_lets +onlyGivenNames s'; with_reducible refine Touches.cut (t := s') ?_ ?_; subst s'; rotate_left; clear_value s'; intro hs; rotate_left)
    | (extract_lets +onlyGivenNames s'; first | (have _e : State → _ := s'; clear _e; subst s') | clear_value s')
    | with_reducible refine Touches.set (by first | decide | assumption | (split <;> decide)) ?_
    | with_reducible refine Touches.emit (by decide) ?_
    | split


theorem State.tlmPut_touches {m : Nat} {s0 : State} {s : State} {n : Nat} {msg : List Byte} (hk : 0x200000000000000000000000000000000000000000000000000000000000000000000000000040080 ||| m = m)
    (h : Touches m s0 s) : Touches m s0 (State.tlmPut s n msg).2 := by
  refine Touches.step (k := 0x200000000000000000000000000000000000000000000000000000000000000000000000000040080) (t := s) ?_ hk h
  clear hk h
  unfold State.tlmPut
  have h0 := Touches.refl 0x200000000000000000000000000000000000000000000000000000000000000000000000000040080 s
  repeat' first
    | with_reducible assumption
    | (extract_lets +onlyGivenNames s'; with_reducible refine Touches.cut (t := s') ?_ ?_; subst s'; rotate_left; clear_value s'; intro hs; rotate_left)
    | (extract_lets +onlyGivenNames s'; first | (have _e : State → _ := s'; clear _e; subst s') | clear_value s')
    | with_reducible refine State.ringCount_touches (by decide) ?_
    | with_reducible refine State.ringWriteback_touches (by decide) ?_
    | with_reducible refine State.tlmEntry_touches (by decide) ?_
    | split

theorem State.tlmPut_touches_eq {m : Nat} {s0 t₁ : State} {s : State} {n : Nat} {msg : List Byte} {a₁ : Bool} (e₁ : State.tlmPut s n msg = (a₁, t₁))
    (hk : 0x200000000000000000000000000000000000000000000000000000000000000000000000000040080 ||| m = m) (h : Touches m s0 s) : Touches m s0 t₁ := Touches.snd e₁ (State.tlmPut_touches hk h)


end Sys2Proof.Machine
end

