-- ==== Sys2Proof/Laws/TouchesStore.lean ====
section
/-!
SUPPORT. What the operations of Store.lean can touch.
-/

namespace Sys2Proof.Machine

set_option linter.all false

theorem State.refreshPool_touches {m : Nat} {s0 : State} {s : State} {k : Nat} (hk : 0x200000000000000000000000000000000000 ||| m = m)
    (h : Touches m s0 s) : Touches m s0 (State.refreshPool s k) := by
  refine Touches.step (k := 0x200000000000000000000000000000000000) (t := s) ?_ hk h
  clear hk h
  unfold State.refreshPool
  have h0 := Touches.refl 0x200000000000000000000000000000000000 s
  repeat' first
    | with_reducible assumption
    | (extract_lets +onlyGivenNames s'; with_reducible refine Touches.cut (t := s') ?_ ?_; subst s'; rotate_left; clear_value s'; intro hs; rotate_left)
    | (extract_lets +onlyGivenNames s'; first | (have _e : State → _ := s'; clear _e; subst s') | clear_value s')
    | with_reducible refine Touches.set (by first | decide | assumption | (split <;> decide)) ?_
    | split


theorem State.takeCell_touches {m : Nat} {s0 : State} {s : State} {requester k b a tag : Nat} (hk : 0x200000000000000000000000000000000004 ||| m = m)
    (h : Touches m s0 s) : Touches m s0 (State.takeCell s requester k b a tag) := by
  refine Touches.step (k := 0x200000000000000000000000000000000004) (t := s) ?_ hk h
  clear hk h
  unfold State.takeCell
  have h0 := Touches.refl 0x200000000000000000000000000000000004 s
  repeat' first
    | with_reducible assumption
    | (extract_lets +onlyGivenNames s'; with_reducible refine Touches.cut (t := s') ?_ ?_; subst s'; rotate_left; clear_value s'; intro hs; rotate_left)
    | (extract_lets +onlyGivenNames s'; first | (have _e : State → _ := s'; clear _e; subst s') | (have _e : Switch := s'; clear _e; subst s') | clear_value s')
    | with_reducible refine State.refreshPool_touches (by decide) ?_
    | split
    | with_reducible refine Touches.upd_sw (by decide) rfl ?_


theorem State.requestPool_touches {m : Nat} {s0 : State} {s : State} {requester troupe k source : Nat} {exempt : Bool} {rivals : List (Fin 18)} (hk : 0x240000000000000000000000000000000004 ||| m = m)
    (h : Touches m s0 s) : Touches m s0 (State.requestPool s requester troupe k source exempt rivals).2 := by
  refine Touches.step (k := 0x240000000000000000000000000000000004) (t := s) ?_ hk h
  clear hk h
  unfold State.requestPool
  have h0 := Touches.refl 0x240000000000000000000000000000000004 s
  repeat' first
    | with_reducible assumption
    | (extract_lets +onlyGivenNames s'; with_reducible refine Touches.cut (t := s') ?_ ?_; subst s'; rotate_left; clear_value s'; intro hs; rotate_left)
    | (extract_lets +onlyGivenNames s'; first | (have _e : State → _ := s'; clear _e; subst s') | (have _e : Switch := s'; clear _e; subst s') | clear_value s')
    | with_reducible refine State.takeCell_touches (by decide) ?_
    | with_reducible refine Touches.addWrap (by first | decide | assumption | (split <;> decide)) ?_
    | split
    | with_reducible refine Touches.upd_sw (by decide) rfl ?_

theorem State.requestPool_touches_eq {m : Nat} {s0 t₁ : State} {s : State} {requester troupe k source : Nat} {exempt : Bool} {rivals : List (Fin 18)} {a₁ : CellGrant} (e₁ : State.requestPool s requester troupe k source exempt rivals = (a₁, t₁))
    (hk : 0x240000000000000000000000000000000004 ||| m = m) (h : Touches m s0 s) : Touches m s0 t₁ := Touches.snd e₁ (State.requestPool_touches hk h)


theorem State.requestSegment_touches {m : Nat} {s0 : State} {s : State} {requester troupe n source : Nat} {exempt : Bool} {rivals : List (Fin 18)} (hk : 0x1240000000000000000000000000000000004 ||| m = m)
    (h : Touches m s0 s) : Touches m s0 (State.requestSegment s requester troupe n source exempt rivals).2 := by
  refine Touches.step (k := 0x1240000000000000000000000000000000004) (t := s) ?_ hk h
  clear hk h
  unfold State.requestSegment
  have h0 := Touches.refl 0x1240000000000000000000000000000000004 s
  repeat' first
    | with_reducible assumption
    | (extract_lets +onlyGivenNames s'; with_reducible refine Touches.cut (t := s') ?_ ?_; subst s'; rotate_left; clear_value s'; intro hs; rotate_left)
    | (extract_lets +onlyGivenNames s'; first | (have _e : State → _ := s'; clear _e; subst s') | clear_value s')
    | with_reducible refine State.requestPool_touches_eq (by assumption) (by decide) ?_
    | with_reducible refine State.requestPool_touches (by decide) ?_
    | with_reducible refine Touches.addSat (by first | decide | assumption | (split <;> decide)) ?_
    | split

theorem State.requestSegment_touches_eq {m : Nat} {s0 t₁ : State} {s : State} {requester troupe n source : Nat} {exempt : Bool} {rivals : List (Fin 18)} {a₁ : CellGrant} (e₁ : State.requestSegment s requester troupe n source exempt rivals = (a₁, t₁))
    (hk : 0x1240000000000000000000000000000000004 ||| m = m) (h : Touches m s0 s) : Touches m s0 t₁ := Touches.snd e₁ (State.requestSegment_touches hk h)


theorem State.freeCell_touches {m : Nat} {s0 : State} {s : State} {a : Nat} (hk : 0x200000000000000000000000000000000004 ||| m = m)
    (h : Touches m s0 s) : Touches m s0 (State.freeCell s a) := by
  refine Touches.step (k := 0x200000000000000000000000000000000004) (t := s) ?_ hk h
  clear hk h
  unfold State.freeCell
  have h0 := Touches.refl 0x200000000000000000000000000000000004 s
  repeat' first
    | with_reducible assumption
    | (extract_lets +onlyGivenNames s'; with_reducible refine Touches.cut (t := s') ?_ ?_; subst s'; rotate_left; clear_value s'; intro hs; rotate_left)
    | (extract_lets +onlyGivenNames s'; first | (have _e : State → _ := s'; clear _e; subst s') | (have _e : Switch := s'; clear _e; subst s') | clear_value s')
    | with_reducible refine State.refreshPool_touches (by decide) ?_
    | split
    | with_reducible refine Touches.upd_sw (by decide) rfl ?_


theorem State.refreshReserved_touches {m : Nat} {s0 : State} {s : State} (hk : 0x30000000000000000000000000000000000 ||| m = m)
    (h : Touches m s0 s) : Touches m s0 (State.refreshReserved s) := by
  refine Touches.step (k := 0x30000000000000000000000000000000000) (t := s) ?_ hk h
  clear hk h
  unfold State.refreshReserved
  have h0 := Touches.refl 0x30000000000000000000000000000000000 s
  repeat' first
    | with_reducible assumption
    | (extract_lets +onlyGivenNames s'; with_reducible refine Touches.cut (t := s') ?_ ?_; subst s'; rotate_left; clear_value s'; intro hs; rotate_left)
    | (extract_lets +onlyGivenNames s'; first | (have _e : State → _ := s'; clear _e; subst s') | clear_value s')
    | with_reducible refine Touches.set (by first | decide | assumption | (split <;> decide)) ?_
    | split


theorem State.refreshPause_touches {m : Nat} {s0 : State} {s : State} {x p : Nat} (hk : 0x80000000000000000000000000000000000 ||| m = m)
    (h : Touches m s0 s) : Touches m s0 (State.refreshPause s x p) := by
  refine Touches.step (k := 0x80000000000000000000000000000000000) (t := s) ?_ hk h
  clear hk h
  unfold State.refreshPause
  have h0 := Touches.refl 0x80000000000000000000000000000000000 s
  repeat' first
    | with_reducible assumption
    | (extract_lets +onlyGivenNames s'; with_reducible refine Touches.cut (t := s') ?_ ?_; subst s'; rotate_left; clear_value s'; intro hs; rotate_left)
    | (extract_lets +onlyGivenNames s'; first | (have _e : State → _ := s'; clear _e; subst s') | clear_value s')
    | with_reducible refine Touches.set (by first | decide | assumption | (split <;> decide)) ?_
    | split


theorem State.refreshPauses_touches {m : Nat} {s0 : State} {s : State} (hk : 0x90000000000000000000000000000000000 ||| m = m)
    (h : Touches m s0 s) : Touches m s0 (State.refreshPauses s) := by
  refine Touches.step (k := 0x90000000000000000000000000000000000) (t := s) ?_ hk h
  clear hk h
  unfold State.refreshPauses
  have h0 := Touches.refl 0x90000000000000000000000000000000000 s
  repeat' first
    | with_reducible assumption
    | (extract_lets +onlyGivenNames s'; with_reducible refine Touches.cut (t := s') ?_ ?_; subst s'; rotate_left; clear_value s'; intro hs; rotate_left)
    | (extract_lets +onlyGivenNames s'; first | (have _e : State → _ := s'; clear _e; subst s') | clear_value s')
    | with_reducible refine Touches.foldl (fun _ _ _ => ?_) ?_
    | with_reducible refine State.refreshPause_touches (by decide) ?_
    | with_reducible refine Touches.set (by first | decide | assumption | (split <;> decide)) ?_
    | split


theorem State.chargeCopy_touches {m : Nat} {s0 : State} {s : State} {d : Desc} {c : Copy} {n : Int} (hk : 0x4 ||| m = m)
    (h : Touches m s0 s) : Touches m s0 (State.chargeCopy s d c n) := by
  refine Touches.step (k := 0x4) (t := s) ?_ hk h
  clear hk h
  unfold State.chargeCopy
  have h0 := Touches.refl 0x4 s
  repeat' first
    | with_reducible assumption
    | (extract_lets +onlyGivenNames s'; with_reducible refine Touches.cut (t := s') ?_ ?_; subst s'; rotate_left; clear_value s'; intro hs; rotate_left)
    | (extract_lets +onlyGivenNames s'; first | (have _e : State → _ := s'; clear _e; subst s') | (have _e : Switch := s'; clear _e; subst s') | clear_value s')
    | split
    | with_reducible refine Touches.upd_sw (by decide) rfl ?_


theorem State.chargeRegion_touches {m : Nat} {s0 : State} {s : State} {d : Desc} {n : Int} (hk : 0x4 ||| m = m)
    (h : Touches m s0 s) : Touches m s0 (State.chargeRegion s d n) := by
  refine Touches.step (k := 0x4) (t := s) ?_ hk h
  clear hk h
  unfold State.chargeRegion
  have h0 := Touches.refl 0x4 s
  repeat' first
    | with_reducible assumption
    | (extract_lets +onlyGivenNames s'; with_reducible refine Touches.cut (t := s') ?_ ?_; subst s'; rotate_left; clear_value s'; intro hs; rotate_left)
    | (extract_lets +onlyGivenNames s'; first | (have _e : State → _ := s'; clear _e; subst s') | (have _e : Switch := s'; clear _e; subst s') | clear_value s')
    | split
    | with_reducible refine Touches.upd_sw (by decide) rfl ?_


theorem State.chargeCell_touches {m : Nat} {s0 : State} {s : State} {k : Nat} {n : Nat} (hk : 0x90000000000000000000000000000000004 ||| m = m)
    (h : Touches m s0 s) : Touches m s0 (State.chargeCell s k n) := by
  refine Touches.step (k := 0x90000000000000000000000000000000004) (t := s) ?_ hk h
  clear hk h
  unfold State.chargeCell
  have h0 := Touches.refl 0x90000000000000000000000000000000004 s
  repeat' first
    | with_reducible assumption
    | (extract_lets +onlyGivenNames s'; with_reducible refine Touches.cut (t := s') ?_ ?_; subst s'; rotate_left; clear_value s'; intro hs; rotate_left)
    | (extract_lets +onlyGivenNames s'; first | (have _e : State → _ := s'; clear _e; subst s') | clear_value s')
    | with_reducible refine Touches.foldl (fun _ _ _ => ?_) ?_
    | with_reducible refine State.putDesc_touches (by decide) ?_
    | with_reducible refine State.refreshPauses_touches (by decide) ?_
    | with_reducible refine State.chargeCopy_touches (by decide) ?_
    | with_reducible refine State.chargeRegion_touches (by decide) ?_
    | split


theorem State.refreshRecords_touches {m : Nat} {s0 : State} {s : State} (hk : 0x400000000000000000000000000000000000 ||| m = m)
    (h : Touches m s0 s) : Touches m s0 (State.refreshRecords s) := by
  refine Touches.step (k := 0x400000000000000000000000000000000000) (t := s) ?_ hk h
  clear hk h
  unfold State.refreshRecords
  have h0 := Touches.refl 0x400000000000000000000000000000000000 s
  repeat' first
    | with_reducible assumption
    | (extract_lets +onlyGivenNames s'; with_reducible refine Touches.cut (t := s') ?_ ?_; subst s'; rotate_left; clear_value s'; intro hs; rotate_left)
    | (extract_lets +onlyGivenNames s'; first | (have _e : State → _ := s'; clear _e; subst s') | clear_value s')
    | with_reducible refine Touches.set (by first | decide | assumption | (split <;> decide)) ?_
    | split


theorem State.freeFault_touches {m : Nat} {s0 : State} {s : State} {offender kind cell tag : Nat} (hk : 0x10200000800000001000000000000000000000000000000000000E0000000000000000000000000000000042080 ||| m = m)
    (h : Touches m s0 s) : Touches m s0 (State.freeFault s offender kind cell tag) := by
  refine Touches.step (k := 0x10200000800000001000000000000000000000000000000000000E0000000000000000000000000000000042080) (t := s) ?_ hk h
  clear hk h
  unfold State.freeFault
  have h0 := Touches.refl 0x10200000800000001000000000000000000000000000000000000E0000000000000000000000000000000042080 s
  repeat' first
    | with_reducible assumption
    | (extract_lets +onlyGivenNames s'; with_reducible refine Touches.cut (t := s') ?_ ?_; subst s'; rotate_left; clear_value s'; intro hs; rotate_left)
    | (extract_lets +onlyGivenNames s'; first | (have _e : State → _ := s'; clear _e; subst s') | clear_value s')
    | with_reducible refine State.recordLimited_touches (by decide) ?_
    | with_reducible refine Touches.set (by first | decide | assumption | (split <;> decide)) ?_
    | with_reducible refine Touches.addSat (by first | decide | assumption | (split <;> decide)) ?_
    | with_reducible refine Touches.raise (by first | decide | assumption | (split <;> decide)) (by decide) ?_
    | with_reducible refine Touches.raiseWin (by first | decide | assumption | (split <;> decide)) (by decide) ?_
    | split


theorem State.ownFree_touches {m : Nat} {s0 : State} {s : State} {d : Desc} {a : Nat} (hk : 0x10200000800000001000000000000000000000000000000000000E0200000000000000000000000000000042084 ||| m = m)
    (h : Touches m s0 s) : Touches m s0 (State.ownFree s d a) := by
  refine Touches.step (k := 0x10200000800000001000000000000000000000000000000000000E0200000000000000000000000000000042084) (t := s) ?_ hk h
  clear hk h
  unfold State.ownFree
  have h0 := Touches.refl 0x10200000800000001000000000000000000000000000000000000E0200000000000000000000000000000042084 s
  repeat' first
    | with_reducible assumption
    | (extract_lets +onlyGivenNames s'; with_reducible refine Touches.cut (t := s') ?_ ?_; subst s'; rotate_left; clear_value s'; intro hs; rotate_left)
    | (extract_lets +onlyGivenNames s'; first | (have _e : State → _ := s'; clear _e; subst s') | clear_value s')
    | with_reducible refine State.freeCell_touches (by decide) ?_
    | with_reducible refine State.freeFault_touches (by decide) ?_
    | split


theorem State.freeFrame_touches {m : Nat} {s0 : State} {s : State} {k : Nat} (hk : 0x10200000800000001000000000000000000000000000000000000E06D0000000000000000000000000002042084 ||| m = m)
    (h : Touches m s0 s) : Touches m s0 (State.freeFrame s k) := by
  refine Touches.step (k := 0x10200000800000001000000000000000000000000000000000000E06D0000000000000000000000000002042084) (t := s) ?_ hk h
  clear hk h
  unfold State.freeFrame
  have h0 := Touches.refl 0x10200000800000001000000000000000000000000000000000000E06D0000000000000000000000000002042084 s
  repeat' first
    | with_reducible assumption
    | (extract_lets +onlyGivenNames s'; with_reducible refine Touches.cut (t := s') ?_ ?_; subst s'; rotate_left; clear_value s'; intro hs; rotate_left)
    | (extract_lets +onlyGivenNames s'; first | (have _e : State → _ := s'; clear _e; subst s') | (have _e : Switch := s'; clear _e; subst s') | clear_value s')
    | with_reducible refine Touches.foldl (fun _ _ _ => ?_) ?_
    | with_reducible refine State.putPacket_touches (by decide) ?_
    | with_reducible refine State.delPacket_touches (by decide) ?_
    | with_reducible refine State.refreshPauses_touches (by decide) ?_
    | with_reducible refine State.chargeRegion_touches (by decide) ?_
    | with_reducible refine State.refreshRecords_touches (by decide) ?_
    | with_reducible refine State.ownFree_touches (by decide) ?_
    | with_reducible refine State.discard_touches (by decide) ?_
    | with_reducible refine Touches.set (by first | decide | assumption | (split <;> decide)) ?_
    | split
    | with_reducible refine Touches.upd_sw (by decide) rfl ?_


theorem State.copyDone_touches {m : Nat} {s0 : State} {s : State} {k : Nat} {c : Copy} {counted : Bool} (hk : 0x10200000800000001000000000000000000000000000000000000E06D0000000000000000000000000002042084 ||| m = m)
    (h : Touches m s0 s) : Touches m s0 (State.copyDone s k c counted) := by
  refine Touches.step (k := 0x10200000800000001000000000000000000000000000000000000E06D0000000000000000000000000002042084) (t := s) ?_ hk h
  clear hk h
  unfold State.copyDone
  have h0 := Touches.refl 0x10200000800000001000000000000000000000000000000000000E06D0000000000000000000000000002042084 s
  repeat' first
    | with_reducible assumption
    | (extract_lets +onlyGivenNames s'; with_reducible refine Touches.cut (t := s') ?_ ?_; subst s'; rotate_left; clear_value s'; intro hs; rotate_left)
    | (extract_lets +onlyGivenNames s'; first | (have _e : State → _ := s'; clear _e; subst s') | (have _e : Switch := s'; clear _e; subst s') | clear_value s')
    | with_reducible refine State.putDesc_touches (by decide) ?_
    | with_reducible refine State.refreshPauses_touches (by decide) ?_
    | with_reducible refine State.chargeCopy_touches (by decide) ?_
    | with_reducible refine State.refreshRecords_touches (by decide) ?_
    | with_reducible refine State.freeFrame_touches (by decide) ?_
    | split
    | with_reducible refine Touches.upd_sw (by decide) rfl ?_


theorem State.dropPacket_touches {m : Nat} {s0 : State} {s : State} {k reason : Nat} (hk : 0x80000000100000000000000110200000000000000000000000000000000000000000000000000060184 ||| m = m)
    (h : Touches m s0 s) : Touches m s0 (State.dropPacket s k reason) := by
  refine Touches.step (k := 0x80000000100000000000000110200000000000000000000000000000000000000000000000000060184) (t := s) ?_ hk h
  clear hk h
  unfold State.dropPacket
  have h0 := Touches.refl 0x80000000100000000000000110200000000000000000000000000000000000000000000000000060184 s
  repeat' first
    | with_reducible assumption
    | (extract_lets +onlyGivenNames s'; with_reducible refine Touches.cut (t := s') ?_ ?_; subst s'; rotate_left; clear_value s'; intro hs; rotate_left)
    | (extract_lets +onlyGivenNames s'; first | (have _e : State → _ := s'; clear _e; subst s') | clear_value s')
    | with_reducible refine State.putPacket_touches (by decide) ?_
    | with_reducible refine State.countDropOf_touches (by decide) ?_
    | split


theorem State.chargeLease_touches {m : Nat} {s0 : State} {s : State} {n : Nat} {units : Int} (hk : 0x90000000000000000000000000000000004 ||| m = m)
    (h : Touches m s0 s) : Touches m s0 (State.chargeLease s n units) := by
  refine Touches.step (k := 0x90000000000000000000000000000000004) (t := s) ?_ hk h
  clear hk h
  unfold State.chargeLease
  have h0 := Touches.refl 0x90000000000000000000000000000000004 s
  repeat' first
    | with_reducible assumption
    | (extract_lets +onlyGivenNames s'; with_reducible refine Touches.cut (t := s') ?_ ?_; subst s'; rotate_left; clear_value s'; intro hs; rotate_left)
    | (extract_lets +onlyGivenNames s'; first | (have _e : State → _ := s'; clear _e; subst s') | (have _e : Switch := s'; clear _e; subst s') | clear_value s')
    | with_reducible refine State.refreshPauses_touches (by decide) ?_
    | split
    | with_reducible refine Touches.upd_sw (by decide) rfl ?_


theorem State.freeInjected_touches {m : Nat} {s0 : State} {s : State} {v : Packet} (hk : 0x2D0000000000000000000000000000000004 ||| m = m)
    (h : Touches m s0 s) : Touches m s0 (State.freeInjected s v) := by
  refine Touches.step (k := 0x2D0000000000000000000000000000000004) (t := s) ?_ hk h
  clear hk h
  unfold State.freeInjected
  have h0 := Touches.refl 0x2D0000000000000000000000000000000004 s
  repeat' first
    | with_reducible assumption
    | (extract_lets +onlyGivenNames s'; with_reducible refine Touches.cut (t := s') ?_ ?_; subst s'; rotate_left; clear_value s'; intro hs; rotate_left)
    | (extract_lets +onlyGivenNames s'; first | (have _e : State → _ := s'; clear _e; subst s') | clear_value s')
    | with_reducible refine Touches.foldl (fun _ _ _ => ?_) ?_
    | with_reducible refine State.freeCell_touches (by decide) ?_
    | with_reducible refine State.chargeLease_touches (by decide) ?_
    | with_reducible refine Touches.set (by first | decide | assumption | (split <;> decide)) ?_
    | split


end Sys2Proof.Machine
end

