-- ==== Sys2Proof/Laws/TouchesWindows.lean ====
section
/-!
SUPPORT. What the operations of Windows.lean can touch.
-/

namespace Sys2Proof.Machine

set_option linter.all false

theorem State.refreshWin_touches {m : Nat} {s0 : State} {s : State} {x : Nat} (hk : 0x2000000000000000000000000000000000000000000000000000 ||| m = m)
    (h : Touches m s0 s) : Touches m s0 (State.refreshWin s x) := by
  refine Touches.step (k := 0x2000000000000000000000000000000000000000000000000000) (t := s) ?_ hk h
  clear hk h
  unfold State.refreshWin
  have h0 := Touches.refl 0x2000000000000000000000000000000000000000000000000000 s
  repeat' first
    | with_reducible assumption
    | (extract_lets +onlyGivenNames s'; with_reducible refine Touches.cut (t := s') ?_ ?_; subst s'; rotate_left; clear_value s'; intro hs; rotate_left)
    | (extract_lets +onlyGivenNames s'; first | (have _e : State → _ := s'; clear _e; subst s') | clear_value s')
    | with_reducible refine Touches.set (by first | decide | assumption | (split <;> decide)) ?_
    | split


theorem State.bankSwitch_touches {m : Nat} {s0 : State} {s : State} {x : Nat} (hk : 0x2000000000000000000000000000000000000000000000000004 ||| m = m)
    (h : Touches m s0 s) : Touches m s0 (State.bankSwitch s x) := by
  refine Touches.step (k := 0x2000000000000000000000000000000000000000000000000004) (t := s) ?_ hk h
  clear hk h
  unfold State.bankSwitch
  have h0 := Touches.refl 0x2000000000000000000000000000000000000000000000000004 s
  repeat' first
    | with_reducible assumption
    | (extract_lets +onlyGivenNames s'; with_reducible refine Touches.cut (t := s') ?_ ?_; subst s'; rotate_left; clear_value s'; intro hs; rotate_left)
    | (extract_lets +onlyGivenNames s'; first | (have _e : State → _ := s'; clear _e; subst s') | clear_value s')
    | with_reducible refine State.modPort_touches (by decide) ?_
    | with_reducible refine State.refreshWin_touches (by decide) ?_
    | with_reducible refine Touches.set (by first | decide | assumption | (split <;> decide)) ?_
    | split


theorem State.gateChange_touches {m : Nat} {s0 : State} {s : State} {x : Nat} (hk : 0x2000000000000000000000000000000000000000000000000004 ||| m = m)
    (h : Touches m s0 s) : Touches m s0 (State.gateChange s x) := by
  refine Touches.step (k := 0x2000000000000000000000000000000000000000000000000004) (t := s) ?_ hk h
  clear hk h
  unfold State.gateChange
  have h0 := Touches.refl 0x2000000000000000000000000000000000000000000000000004 s
  repeat' first
    | with_reducible assumption
    | (extract_lets +onlyGivenNames s'; with_reducible refine Touches.cut (t := s') ?_ ?_; subst s'; rotate_left; clear_value s'; intro hs; rotate_left)
    | (extract_lets +onlyGivenNames s'; first | (have _e : State → _ := s'; clear _e; subst s') | clear_value s')
    | with_reducible refine State.modPort_touches (by decide) ?_
    | with_reducible refine State.refreshWin_touches (by decide) ?_
    | split


theorem Reg.fields_reg (r : Reg) : ∀ f ∈ r.fields, f.reg = r := by
  have h : ((List.range 1024).all fun n =>
      decide (Reg.ctorIdx (Reg.ofNat n) ≠ n) || (Reg.ofNat n).fields.all fun f => f.reg == Reg.ofNat n) = true := by
    decide +kernel
  have := List.all_eq_true.mp h r.ctorIdx (List.mem_range.mpr (ctorIdx_lt r))
  rw [ofNat_ctorIdx] at this
  simpa using this

theorem State.winWrite_touches {m : Nat} {s0 s : State} {x b : Nat} {r : Reg} {i v : Nat}
    (hr : m.testBit r.bit = true) (hk : 0x2000000000000000000000000000000000000000000000000000 ||| m = m) (h : Touches m s0 s) :
    Touches m s0 (State.winWrite s x b r i v) := by
  unfold State.winWrite
  split
  · exact Touches.set (by rw [← hk, Nat.testBit_or]; rfl) h
  · refine Touches.foldl_mem (fun s f hf hs => ?_) h
    exact Touches.set (by rw [Reg.fields_reg r f hf]; exact hr) hs


theorem State.winGo_touches {m : Nat} {s0 : State} {s : State} {x v : Nat} (hk : 0x3000000000000000000000000000000000000000000000000004 ||| m = m)
    (h : Touches m s0 s) : Touches m s0 (State.winGo s x v) := by
  refine Touches.step (k := 0x3000000000000000000000000000000000000000000000000004) (t := s) ?_ hk h
  clear hk h
  unfold State.winGo
  have h0 := Touches.refl 0x3000000000000000000000000000000000000000000000000004 s
  repeat' first
    | with_reducible assumption
    | (extract_lets +onlyGivenNames s'; with_reducible refine Touches.cut (t := s') ?_ ?_; subst s'; rotate_left; clear_value s'; intro hs; rotate_left)
    | (extract_lets +onlyGivenNames s'; first | (have _e : State → _ := s'; clear _e; subst s') | clear_value s')
    | with_reducible refine Touches.foldl_mem (fun s'' f'' hf'' hs'' => ?_) ?_
    | with_reducible refine Touches.foldl (fun _ _ _ => ?_) ?_
    | with_reducible refine State.modPort_touches (by decide) ?_
    | with_reducible refine State.refreshWin_touches (by decide) ?_
    | with_reducible refine Touches.set (by first | decide | (clear hs''; revert f''; decide)) ?_
    | split


end Sys2Proof.Machine
end

