-- ==== Sys2Proof/Laws/TouchesQueues.lean ====
section
/-!
SUPPORT. What the operations of Queues.lean can touch.
-/

namespace Sys2Proof.Machine

set_option linter.all false

theorem State.putShaper_touches {m : Nat} {s0 s : State} {k : Nat} {v : Shaper} (hk : 0x38004000000000000000000000000000000000000004 ||| m = m)
    (h : Touches m s0 s) : Touches m s0 (State.putShaper s k v) := by
  refine Touches.step (k := 0x38004000000000000000000000000000000000000004) (t := s) ?_ hk h
  clear hk h
  have h0 := Touches.refl 0x38004000000000000000000000000000000000000004 s
  unfold State.putShaper
  extract_lets r t u w x
  refine Touches.set (by decide) (Touches.set ?_ (Touches.set ?_ (Touches.set ?_ (Touches.set ?_ (Touches.upd_sw (by decide) rfl h0)))))
  all_goals
    unfold r shaperRegs
    split
    · show Nat.testBit _ (Reg.bit .QM_PORT_SHAPER_STATE) = true
      decide
    · split
      · show Nat.testBit _ (Reg.bit .QM_CG_SHAPER_STATE) = true
        decide
      · show Nat.testBit _ (Reg.bit .QM_QSHAPER_STATE) = true
        decide


theorem State.refill_touches {m : Nat} {s0 : State} {s : State} {k : Nat} (hk : 0x38004000000000000000000000000000000000040004 ||| m = m)
    (h : Touches m s0 s) : Touches m s0 (State.refill s k) := by
  refine Touches.step (k := 0x38004000000000000000000000000000000000040004) (t := s) ?_ hk h
  clear hk h
  unfold State.refill
  have h0 := Touches.refl 0x38004000000000000000000000000000000000040004 s
  repeat' first
    | with_reducible assumption
    | (extract_lets +onlyGivenNames s'; with_reducible refine Touches.cut (t := s') ?_ ?_; subst s'; rotate_left; clear_value s'; intro hs; rotate_left)
    | (extract_lets +onlyGivenNames s'; first | (have _e : State → _ := s'; clear _e; subst s') | clear_value s')
    | with_reducible refine State.putShaper_touches (by decide) ?_
    | with_reducible refine State.burst_touches (by decide) ?_
    | split


theorem State.pairRefill_touches {m : Nat} {s0 : State} {s : State} {k : Nat} (hk : 0x38004000000000000000000000000000000000000004 ||| m = m)
    (h : Touches m s0 s) : Touches m s0 (State.pairRefill s k) := by
  refine Touches.step (k := 0x38004000000000000000000000000000000000000004) (t := s) ?_ hk h
  clear hk h
  unfold State.pairRefill
  have h0 := Touches.refl 0x38004000000000000000000000000000000000000004 s
  repeat' first
    | with_reducible assumption
    | (extract_lets +onlyGivenNames s'; with_reducible refine Touches.cut (t := s') ?_ ?_; subst s'; rotate_left; clear_value s'; intro hs; rotate_left)
    | (extract_lets +onlyGivenNames s'; first | (have _e : State → _ := s'; clear _e; subst s') | clear_value s')
    | with_reducible refine State.putShaper_touches (by decide) ?_
    | split


theorem State.shaperEnable_touches {m : Nat} {s0 : State} {s : State} {k : Nat} {was : Bool} (hk : 0x38004000000000000000000000000000000000000004 ||| m = m)
    (h : Touches m s0 s) : Touches m s0 (State.shaperEnable s k was) := by
  refine Touches.step (k := 0x38004000000000000000000000000000000000000004) (t := s) ?_ hk h
  clear hk h
  unfold State.shaperEnable
  have h0 := Touches.refl 0x38004000000000000000000000000000000000000004 s
  repeat' first
    | with_reducible assumption
    | (extract_lets +onlyGivenNames s'; with_reducible refine Touches.cut (t := s') ?_ ?_; subst s'; rotate_left; clear_value s'; intro hs; rotate_left)
    | (extract_lets +onlyGivenNames s'; first | (have _e : State → _ := s'; clear _e; subst s') | (have _e : Switch := s'; clear _e; subst s') | clear_value s')
    | with_reducible refine State.putShaper_touches (by decide) ?_
    | split
    | with_reducible refine Touches.upd_sw (by decide) rfl ?_


theorem State.chargeShaper_touches {m : Nat} {s0 : State} {s : State} {bytes k : Nat} (hk : 0x38004000000000000000000000000000000000040004 ||| m = m)
    (h : Touches m s0 s) : Touches m s0 (State.chargeShaper s bytes k) := by
  refine Touches.step (k := 0x38004000000000000000000000000000000000040004) (t := s) ?_ hk h
  clear hk h
  unfold State.chargeShaper
  have h0 := Touches.refl 0x38004000000000000000000000000000000000040004 s
  repeat' first
    | with_reducible assumption
    | (extract_lets +onlyGivenNames s'; with_reducible refine Touches.cut (t := s') ?_ ?_; subst s'; rotate_left; clear_value s'; intro hs; rotate_left)
    | (extract_lets +onlyGivenNames s'; first | (have _e : State → _ := s'; clear _e; subst s') | clear_value s')
    | with_reducible refine State.putShaper_touches (by decide) ?_
    | with_reducible refine State.refill_touches (by decide) ?_
    | split


theorem State.refreshCgs_touches {m : Nat} {s0 : State} {s : State} {x : Nat} (hk : 0x80400000000000000000000000000000000000000000 ||| m = m)
    (h : Touches m s0 s) : Touches m s0 (State.refreshCgs s x) := by
  refine Touches.step (k := 0x80400000000000000000000000000000000000000000) (t := s) ?_ hk h
  clear hk h
  unfold State.refreshCgs
  have h0 := Touches.refl 0x80400000000000000000000000000000000000000000 s
  repeat' first
    | with_reducible assumption
    | (extract_lets +onlyGivenNames s'; with_reducible refine Touches.cut (t := s') ?_ ?_; subst s'; rotate_left; clear_value s'; intro hs; rotate_left)
    | (extract_lets +onlyGivenNames s'; first | (have _e : State → _ := s'; clear _e; subst s') | clear_value s')
    | with_reducible refine Touches.foldl (fun _ _ _ => ?_) ?_
    | with_reducible refine Touches.set (by first | decide | assumption | (split <;> decide)) ?_
    | split


theorem State.setVt_touches {m : Nat} {s0 : State} {s : State} {k v : Nat} (hk : 0x4 ||| m = m)
    (h : Touches m s0 s) : Touches m s0 (State.setVt s k v) := by
  refine Touches.step (k := 0x4) (t := s) ?_ hk h
  clear hk h
  unfold State.setVt
  have h0 := Touches.refl 0x4 s
  repeat' first
    | with_reducible assumption
    | (extract_lets +onlyGivenNames s'; with_reducible refine Touches.cut (t := s') ?_ ?_; subst s'; rotate_left; clear_value s'; intro hs; rotate_left)
    | (extract_lets +onlyGivenNames s'; first | (have _e : State → _ := s'; clear _e; subst s') | (have _e : Switch := s'; clear _e; subst s') | clear_value s')
    | split
    | with_reducible refine Touches.upd_sw (by decide) rfl ?_


theorem State.setKid_touches {m : Nat} {s0 : State} {s : State} {k : Nat} {c : Child} (hk : 0x4 ||| m = m)
    (h : Touches m s0 s) : Touches m s0 (State.setKid s k c) := by
  refine Touches.step (k := 0x4) (t := s) ?_ hk h
  clear hk h
  unfold State.setKid
  have h0 := Touches.refl 0x4 s
  repeat' first
    | with_reducible assumption
    | (extract_lets +onlyGivenNames s'; with_reducible refine Touches.cut (t := s') ?_ ?_; subst s'; rotate_left; clear_value s'; intro hs; rotate_left)
    | (extract_lets +onlyGivenNames s'; first | (have _e : State → _ := s'; clear _e; subst s') | (have _e : Switch := s'; clear _e; subst s') | clear_value s')
    | split
    | with_reducible refine Touches.upd_sw (by decide) rfl ?_


theorem State.lookQueues_touches {m : Nat} {s0 : State} {s : State} {c : Nat} (hk : 0x4 ||| m = m)
    (h : Touches m s0 s) : Touches m s0 (State.lookQueues s c) := by
  refine Touches.step (k := 0x4) (t := s) ?_ hk h
  clear hk h
  unfold State.lookQueues
  have h0 := Touches.refl 0x4 s
  repeat' first
    | with_reducible assumption
    | (extract_lets +onlyGivenNames s'; with_reducible refine Touches.cut (t := s') ?_ ?_; subst s'; rotate_left; clear_value s'; intro hs; rotate_left)
    | (extract_lets +onlyGivenNames s'; first | (have _e : State → _ := s'; clear _e; subst s') | clear_value s')
    | with_reducible refine Touches.foldl (fun _ _ _ => ?_) ?_
    | with_reducible refine State.setKid_touches (by decide) ?_
    | split


theorem State.computeCgF_touches {m : Nat} {s0 : State} {s : State} {c : Nat} (hk : 0x4 ||| m = m)
    (h : Touches m s0 s) : Touches m s0 (State.computeCgF s c) := by
  refine Touches.step (k := 0x4) (t := s) ?_ hk h
  clear hk h
  unfold State.computeCgF
  have h0 := Touches.refl 0x4 s
  repeat' first
    | with_reducible assumption
    | (extract_lets +onlyGivenNames s'; with_reducible refine Touches.cut (t := s') ?_ ?_; subst s'; rotate_left; clear_value s'; intro hs; rotate_left)
    | (extract_lets +onlyGivenNames s'; first | (have _e : State → _ := s'; clear _e; subst s') | clear_value s')
    | with_reducible refine State.setKid_touches (by decide) ?_
    | split


theorem State.lookCgs_touches {m : Nat} {s0 : State} {s : State} {x : Nat} (hk : 0x4 ||| m = m)
    (h : Touches m s0 s) : Touches m s0 (State.lookCgs s x) := by
  refine Touches.step (k := 0x4) (t := s) ?_ hk h
  clear hk h
  unfold State.lookCgs
  have h0 := Touches.refl 0x4 s
  repeat' first
    | with_reducible assumption
    | (extract_lets +onlyGivenNames s'; with_reducible refine Touches.cut (t := s') ?_ ?_; subst s'; rotate_left; clear_value s'; intro hs; rotate_left)
    | (extract_lets +onlyGivenNames s'; first | (have _e : State → _ := s'; clear _e; subst s') | clear_value s')
    | with_reducible refine Touches.foldl (fun _ _ _ => ?_) ?_
    | with_reducible refine State.setKid_touches (by decide) ?_
    | split


theorem State.countCopyDrop_touches {m : Nat} {s0 : State} {s : State} {d : Desc} {q reason : Nat} (hk : 0x80000000100000000000000110200000000000000000000000000000000000000000000000000060180 ||| m = m)
    (h : Touches m s0 s) : Touches m s0 (State.countCopyDrop s d q reason) := by
  refine Touches.step (k := 0x80000000100000000000000110200000000000000000000000000000000000000000000000000060180) (t := s) ?_ hk h
  clear hk h
  unfold State.countCopyDrop
  have h0 := Touches.refl 0x80000000100000000000000110200000000000000000000000000000000000000000000000000060180 s
  repeat' first
    | with_reducible assumption
    | (extract_lets +onlyGivenNames s'; with_reducible refine Touches.cut (t := s') ?_ ?_; subst s'; rotate_left; clear_value s'; intro hs; rotate_left)
    | (extract_lets +onlyGivenNames s'; first | (have _e : State → _ := s'; clear _e; subst s') | clear_value s')
    | with_reducible refine State.countDropOf_touches (by decide) ?_
    | split


theorem State.histAdd_touches {m : Nat} {s0 : State} {s : State} {c kind v : Nat} (hk : 0x100 ||| m = m)
    (h : Touches m s0 s) : Touches m s0 (State.histAdd s c kind v) := by
  refine Touches.step (k := 0x100) (t := s) ?_ hk h
  clear hk h
  unfold State.histAdd
  have h0 := Touches.refl 0x100 s
  repeat' first
    | with_reducible assumption
    | (extract_lets +onlyGivenNames s'; with_reducible refine Touches.cut (t := s') ?_ ?_; subst s'; rotate_left; clear_value s'; intro hs; rotate_left)
    | (extract_lets +onlyGivenNames s'; first | (have _e : State → _ := s'; clear _e; subst s') | clear_value s')
    | with_reducible refine State.modTel_touches (by decide) ?_
    | split


theorem State.markSpill_touches {m : Nat} {s0 : State} {s : State} {k : Nat} {c : Copy} {inProgress : Bool} {depth : Nat} (hk : 0x204 ||| m = m)
    (h : Touches m s0 s) : Touches m s0 (State.markSpill s k c inProgress depth) := by
  refine Touches.step (k := 0x204) (t := s) ?_ hk h
  clear hk h
  unfold State.markSpill
  have h0 := Touches.refl 0x204 s
  repeat' first
    | with_reducible assumption
    | (extract_lets +onlyGivenNames s'; with_reducible refine Touches.cut (t := s') ?_ ?_; subst s'; rotate_left; clear_value s'; intro hs; rotate_left)
    | (extract_lets +onlyGivenNames s'; first | (have _e : State → _ := s'; clear _e; subst s') | (have _e : HbmBlock := s'; clear _e; subst s') | clear_value s')
    | with_reducible refine State.putDesc_touches (by decide) ?_
    | split
    | with_reducible refine Touches.upd_hbm (by decide) rfl ?_


theorem State.enqueueCopy_touches {m : Nat} {s0 : State} {s : State} {k : Nat} {c : Copy} {inProgress : Bool} (hk : 0x800000002400000000020000000000000000000001304 ||| m = m)
    (h : Touches m s0 s) : Touches m s0 (State.enqueueCopy s k c inProgress) := by
  refine Touches.step (k := 0x800000002400000000020000000000000000000001304) (t := s) ?_ hk h
  clear hk h
  unfold State.enqueueCopy
  have h0 := Touches.refl 0x800000002400000000020000000000000000000001304 s
  repeat' first
    | with_reducible assumption
    | (extract_lets +onlyGivenNames s'; with_reducible refine Touches.cut (t := s') ?_ ?_; subst s'; rotate_left; clear_value s'; intro hs; rotate_left)
    | (extract_lets +onlyGivenNames s'; first | (have _e : State → _ := s'; clear _e; subst s') | (have _e : Switch := s'; clear _e; subst s') | clear_value s')
    | with_reducible refine State.putDesc_touches (by decide) ?_
    | with_reducible refine State.setQueue_touches (by decide) ?_
    | with_reducible refine State.spend_touches (by decide) ?_
    | with_reducible refine State.refreshRecords_touches (by decide) ?_
    | with_reducible refine State.computeCgF_touches (by decide) ?_
    | with_reducible refine State.histAdd_touches (by decide) ?_
    | with_reducible refine State.markSpill_touches (by decide) ?_
    | with_reducible refine Touches.addSat (by first | decide | assumption | (split <;> decide)) ?_
    | split
    | with_reducible refine Touches.upd_sw (by decide) rfl ?_


theorem State.refuseCopy_touches {m : Nat} {s0 : State} {s : State} {k : Nat} {c : Copy} {reason : Option Nat} (hk : 0x10200000800000001000000000000001102000000000000000000E06D0000000000000000000000000002062184 ||| m = m)
    (h : Touches m s0 s) : Touches m s0 (State.refuseCopy s k c reason) := by
  refine Touches.step (k := 0x10200000800000001000000000000001102000000000000000000E06D0000000000000000000000000002062184) (t := s) ?_ hk h
  clear hk h
  unfold State.refuseCopy
  have h0 := Touches.refl 0x10200000800000001000000000000001102000000000000000000E06D0000000000000000000000000002062184 s
  repeat' first
    | with_reducible assumption
    | (extract_lets +onlyGivenNames s'; with_reducible refine Touches.cut (t := s') ?_ ?_; subst s'; rotate_left; clear_value s'; intro hs; rotate_left)
    | (extract_lets +onlyGivenNames s'; first | (have _e : State → _ := s'; clear _e; subst s') | clear_value s')
    | with_reducible refine State.copyDone_touches (by decide) ?_
    | with_reducible refine State.countCopyDrop_touches (by decide) ?_
    | split


theorem State.tryEnqueue_touches {m : Nat} {s0 : State} {s : State} {k : Nat} {c : Copy} {inProgress : Bool} (hk : 0x10200000800000001000000000000001102000000000008000000E3ED0000000020000000000000000002063384 ||| m = m)
    (h : Touches m s0 s) : Touches m s0 (State.tryEnqueue s k c inProgress) := by
  refine Touches.step (k := 0x10200000800000001000000000000001102000000000008000000E3ED0000000020000000000000000002063384) (t := s) ?_ hk h
  clear hk h
  unfold State.tryEnqueue
  have h0 := Touches.refl 0x10200000800000001000000000000001102000000000008000000E3ED0000000020000000000000000002063384 s
  repeat' first
    | with_reducible assumption
    | (extract_lets +onlyGivenNames s'; with_reducible refine Touches.cut (t := s') ?_ ?_; subst s'; rotate_left; clear_value s'; intro hs; rotate_left)
    | (extract_lets +onlyGivenNames s'; first | (have _e : State → _ := s'; clear _e; subst s') | clear_value s')
    | with_reducible refine Touches.foldl (fun _ _ _ => ?_) ?_
    | with_reducible refine State.copyDone_touches (by decide) ?_
    | with_reducible refine State.dropPacket_touches (by decide) ?_
    | with_reducible refine State.enqueueCopy_touches (by decide) ?_
    | with_reducible refine State.refuseCopy_touches (by decide) ?_
    | with_reducible refine Touches.addSat (by first | decide | assumption | (split <;> decide)) ?_
    | with_reducible refine Touches.raise (by first | decide | assumption | (split <;> decide)) (by decide) ?_
    | split


theorem State.flushEntry_touches {m : Nat} {s0 : State} {s : State} {x q : Nat} {z0 : QEntry} (hk : 0x10200000800000001000000000000001102000000000000008000E06D0000000000000000000000000002062184 ||| m = m)
    (h : Touches m s0 s) : Touches m s0 (State.flushEntry s x q z0) := by
  refine Touches.step (k := 0x10200000800000001000000000000001102000000000000008000E06D0000000000000000000000000002062184) (t := s) ?_ hk h
  clear hk h
  unfold State.flushEntry
  have h0 := Touches.refl 0x10200000800000001000000000000001102000000000000008000E06D0000000000000000000000000002062184 s
  repeat' first
    | with_reducible assumption
    | (extract_lets +onlyGivenNames s'; with_reducible refine Touches.cut (t := s') ?_ ?_; subst s'; rotate_left; clear_value s'; intro hs; rotate_left)
    | (extract_lets +onlyGivenNames s'; first | (have _e : State → _ := s'; clear _e; subst s') | (have _e : Switch := s'; clear _e; subst s') | clear_value s')
    | with_reducible refine Touches.foldl (fun _ _ _ => ?_) ?_
    | with_reducible refine State.countDropOf_touches (by decide) ?_
    | with_reducible refine State.copyDone_touches (by decide) ?_
    | with_reducible refine State.countCopyDrop_touches (by decide) ?_
    | with_reducible refine Touches.addSat (by first | decide | assumption | (split <;> decide)) ?_
    | split
    | with_reducible refine Touches.upd_sw (by decide) rfl ?_


theorem State.flushFlights_touches {m : Nat} {s0 : State} {s : State} {x : Nat} (hk : 0x10200000800000001000000000000001102000000000000008000E06D0000000000000000000000000002062184 ||| m = m)
    (h : Touches m s0 s) : Touches m s0 (State.flushFlights s x) := by
  refine Touches.step (k := 0x10200000800000001000000000000001102000000000000008000E06D0000000000000000000000000002062184) (t := s) ?_ hk h
  clear hk h
  unfold State.flushFlights
  have h0 := Touches.refl 0x10200000800000001000000000000001102000000000000008000E06D0000000000000000000000000002062184 s
  repeat' first
    | with_reducible assumption
    | (extract_lets +onlyGivenNames s'; with_reducible refine Touches.cut (t := s') ?_ ?_; subst s'; rotate_left; clear_value s'; intro hs; rotate_left)
    | (extract_lets +onlyGivenNames s'; first | (have _e : State → _ := s'; clear _e; subst s') | (have _e : Switch := s'; clear _e; subst s') | clear_value s')
    | with_reducible refine Touches.foldl (fun _ _ _ => ?_) ?_
    | with_reducible refine State.modPipe_touches (by decide) ?_
    | with_reducible refine State.modPort_touches (by decide) ?_
    | with_reducible refine State.copyDone_touches (by decide) ?_
    | with_reducible refine State.countCopyDrop_touches (by decide) ?_
    | with_reducible refine Touches.addSat (by first | decide | assumption | (split <;> decide)) ?_
    | split
    | with_reducible refine Touches.upd_sw (by decide) rfl ?_


theorem State.startFlush_touches {m : Nat} {s0 : State} {s : State} {x : Nat} (hk : 0x1020000080000000100000000000000110200000000000000C080E06D0000000000000000000000000002062184 ||| m = m)
    (h : Touches m s0 s) : Touches m s0 (State.startFlush s x) := by
  refine Touches.step (k := 0x1020000080000000100000000000000110200000000000000C080E06D0000000000000000000000000002062184) (t := s) ?_ hk h
  clear hk h
  unfold State.startFlush
  have h0 := Touches.refl 0x1020000080000000100000000000000110200000000000000C080E06D0000000000000000000000000002062184 s
  repeat' first
    | with_reducible assumption
    | (extract_lets +onlyGivenNames s'; with_reducible refine Touches.cut (t := s') ?_ ?_; subst s'; rotate_left; clear_value s'; intro hs; rotate_left)
    | (extract_lets +onlyGivenNames s'; first | (have _e : State → _ := s'; clear _e; subst s') | clear_value s')
    | with_reducible refine Touches.foldl (fun _ _ _ => ?_) ?_
    | with_reducible refine State.record_touches (by decide) ?_
    | with_reducible refine State.modPort_touches (by decide) ?_
    | with_reducible refine State.setQueue_touches (by decide) ?_
    | with_reducible refine State.flushEntry_touches (by decide) ?_
    | with_reducible refine Touches.set (by first | decide | assumption | (split <;> decide)) ?_
    | with_reducible refine Touches.raise (by first | decide | assumption | (split <;> decide)) (by decide) ?_
    | split


theorem State.holdStart_touches {m : Nat} {s0 : State} {s : State} {x : Nat} (hk : 0x1020000080000000100000000000000110200000000000000C080E06D0000000000000000000000000002062184 ||| m = m)
    (h : Touches m s0 s) : Touches m s0 (State.holdStart s x) := by
  refine Touches.step (k := 0x1020000080000000100000000000000110200000000000000C080E06D0000000000000000000000000002062184) (t := s) ?_ hk h
  clear hk h
  unfold State.holdStart
  have h0 := Touches.refl 0x1020000080000000100000000000000110200000000000000C080E06D0000000000000000000000000002062184 s
  repeat' first
    | with_reducible assumption
    | (extract_lets +onlyGivenNames s'; with_reducible refine Touches.cut (t := s') ?_ ?_; subst s'; rotate_left; clear_value s'; intro hs; rotate_left)
    | (extract_lets +onlyGivenNames s'; first | (have _e : State → _ := s'; clear _e; subst s') | clear_value s')
    | with_reducible refine State.modPort_touches (by decide) ?_
    | with_reducible refine State.flushFlights_touches (by decide) ?_
    | with_reducible refine State.startFlush_touches (by decide) ?_
    | with_reducible refine Touches.set (by first | decide | assumption | (split <;> decide)) ?_
    | with_reducible refine Touches.raise (by first | decide | assumption | (split <;> decide)) (by decide) ?_
    | split


theorem State.forgive_touches {m : Nat} {s0 : State} {s : State} {k : Nat} (hk : 0x38004000000000000000000000000000000000040004 ||| m = m)
    (h : Touches m s0 s) : Touches m s0 (State.forgive s k) := by
  refine Touches.step (k := 0x38004000000000000000000000000000000000040004) (t := s) ?_ hk h
  clear hk h
  unfold State.forgive
  have h0 := Touches.refl 0x38004000000000000000000000000000000000040004 s
  repeat' first
    | with_reducible assumption
    | (extract_lets +onlyGivenNames s'; with_reducible refine Touches.cut (t := s') ?_ ?_; subst s'; rotate_left; clear_value s'; intro hs; rotate_left)
    | (extract_lets +onlyGivenNames s'; first | (have _e : State → _ := s'; clear _e; subst s') | clear_value s')
    | with_reducible refine State.putShaper_touches (by decide) ?_
    | with_reducible refine State.refill_touches (by decide) ?_
    | split


theorem State.queuesUp_touches {m : Nat} {s0 : State} {s : State} {x : Nat} (hk : 0x100000000000000000000000000000038C0C000000000000000000000000000000000040084 ||| m = m)
    (h : Touches m s0 s) : Touches m s0 (State.queuesUp s x) := by
  refine Touches.step (k := 0x100000000000000000000000000000038C0C000000000000000000000000000000000040084) (t := s) ?_ hk h
  clear hk h
  unfold State.queuesUp
  have h0 := Touches.refl 0x100000000000000000000000000000038C0C000000000000000000000000000000000040084 s
  repeat' first
    | with_reducible assumption
    | (extract_lets +onlyGivenNames s'; with_reducible refine Touches.cut (t := s') ?_ ?_; subst s'; rotate_left; clear_value s'; intro hs; rotate_left)
    | (extract_lets +onlyGivenNames s'; first | (have _e : State → _ := s'; clear _e; subst s') | clear_value s')
    | with_reducible refine Touches.foldl (fun _ _ _ => ?_) ?_
    | with_reducible refine State.modPort_touches (by decide) ?_
    | with_reducible refine State.forgive_touches (by decide) ?_
    | with_reducible refine Touches.set (by first | decide | assumption | (split <;> decide)) ?_
    | with_reducible refine Touches.addSat (by first | decide | assumption | (split <;> decide)) ?_
    | with_reducible refine Touches.raise (by first | decide | assumption | (split <;> decide)) (by decide) ?_
    | split


end Sys2Proof.Machine
end

