-- ==== Sys2Proof/Laws/TouchesLinks.lean ====
section
/-!
SUPPORT. What the operations of Links.lean can touch.
-/

namespace Sys2Proof.Machine

set_option linter.all false

theorem State.refreshDie_touches {m : Nat} {s0 : State} {s : State} {d : Nat} (hk : 0x800000 ||| m = m)
    (h : Touches m s0 s) : Touches m s0 (State.refreshDie s d) := by
  refine Touches.step (k := 0x800000) (t := s) ?_ hk h
  clear hk h
  unfold State.refreshDie
  have h0 := Touches.refl 0x800000 s
  repeat' first
    | with_reducible assumption
    | (extract_lets +onlyGivenNames s'; with_reducible refine Touches.cut (t := s') ?_ ?_; subst s'; rotate_left; clear_value s'; intro hs; rotate_left)
    | (extract_lets +onlyGivenNames s'; first | (have _e : State → _ := s'; clear _e; subst s') | clear_value s')
    | with_reducible refine Touches.set (by first | decide | assumption | (split <;> decide)) ?_
    | split


theorem State.tablesReady_touches {m : Nat} {s0 : State} {s : State} (hk : 0x1000000000000000000000000000000 ||| m = m)
    (h : Touches m s0 s) : Touches m s0 (State.tablesReady s) := by
  refine Touches.step (k := 0x1000000000000000000000000000000) (t := s) ?_ hk h
  clear hk h
  unfold State.tablesReady
  have h0 := Touches.refl 0x1000000000000000000000000000000 s
  repeat' first
    | with_reducible assumption
    | (extract_lets +onlyGivenNames s'; with_reducible refine Touches.cut (t := s') ?_ ?_; subst s'; rotate_left; clear_value s'; intro hs; rotate_left)
    | (extract_lets +onlyGivenNames s'; first | (have _e : State → _ := s'; clear _e; subst s') | clear_value s')
    | with_reducible refine Touches.foldl (fun _ _ _ => ?_) ?_
    | with_reducible refine Touches.set (by first | decide | assumption | (split <;> decide)) ?_
    | split


theorem State.refreshRim_touches {m : Nat} {s0 : State} {s : State} {d : Nat} (hk : 0x1020000000000000100000000000000000000000000000000000000000001000000000000000006000000042080 ||| m = m)
    (h : Touches m s0 s) : Touches m s0 (State.refreshRim s d) := by
  refine Touches.step (k := 0x1020000000000000100000000000000000000000000000000000000000001000000000000000006000000042080) (t := s) ?_ hk h
  clear hk h
  unfold State.refreshRim
  have h0 := Touches.refl 0x1020000000000000100000000000000000000000000000000000000000001000000000000000006000000042080 s
  repeat' first
    | with_reducible assumption
    | (extract_lets +onlyGivenNames s'; with_reducible refine Touches.cut (t := s') ?_ ?_; subst s'; rotate_left; clear_value s'; intro hs; rotate_left)
    | (extract_lets +onlyGivenNames s'; first | (have _e : State → _ := s'; clear _e; subst s') | clear_value s')
    | with_reducible refine State.setReady_touches (by decide) ?_
    | with_reducible refine State.tablesReady_touches (by decide) ?_
    | split


theorem State.trainLink_touches {m : Nat} {s0 : State} {s : State} {n : Nat} (hk : 0x880004 ||| m = m)
    (h : Touches m s0 s) : Touches m s0 (State.trainLink s n) := by
  refine Touches.step (k := 0x880004) (t := s) ?_ hk h
  clear hk h
  unfold State.trainLink
  have h0 := Touches.refl 0x880004 s
  repeat' first
    | with_reducible assumption
    | (extract_lets +onlyGivenNames s'; with_reducible refine Touches.cut (t := s') ?_ ?_; subst s'; rotate_left; clear_value s'; intro hs; rotate_left)
    | (extract_lets +onlyGivenNames s'; first | (have _e : State → _ := s'; clear _e; subst s') | clear_value s')
    | with_reducible refine State.modLink_touches (by decide) ?_
    | with_reducible refine State.refreshDie_touches (by decide) ?_
    | with_reducible refine Touches.set (by first | decide | assumption | (split <;> decide)) ?_
    | with_reducible refine Touches.addSat (by first | decide | assumption | (split <;> decide)) ?_
    | split


theorem State.sendTransfer_touches {m : Nat} {s0 : State} {s : State} {d : Nat} (hk : 0x4 ||| m = m)
    (h : Touches m s0 s) : Touches m s0 (State.sendTransfer s d) := by
  refine Touches.step (k := 0x4) (t := s) ?_ hk h
  clear hk h
  unfold State.sendTransfer
  have h0 := Touches.refl 0x4 s
  repeat' first
    | with_reducible assumption
    | (extract_lets +onlyGivenNames s'; with_reducible refine Touches.cut (t := s') ?_ ?_; subst s'; rotate_left; clear_value s'; intro hs; rotate_left)
    | (extract_lets +onlyGivenNames s'; first | (have _e : State → _ := s'; clear _e; subst s') | (have _e : Switch := s'; clear _e; subst s') | clear_value s')
    | with_reducible refine State.modLink_touches (by decide) ?_
    | split
    | with_reducible refine Touches.upd_sw (by decide) rfl ?_


theorem execLerarReplay_touches {m : Nat} {s0 : State} {link : LinkNo} {transfer : Nat} {s : State} (hk : 0x100004 ||| m = m)
    (h : Touches m s0 s) : Ends m s0 (execLerarReplay link transfer s) := by
  refine Ends.step (k := 0x100004) (t := s) ?_ hk h
  clear hk h
  unfold execLerarReplay
  have h0 := Touches.refl 0x100004 s
  repeat' first
    | with_reducible assumption
    | (extract_lets +onlyGivenNames s'; with_reducible refine Touches.cut (t := s') ?_ ?_; subst s'; rotate_left; clear_value s'; intro hs; rotate_left)
    | (extract_lets +onlyGivenNames s'; with_reducible refine Ends.cut (t := s') ?_ ?_; subst s'; rotate_left; clear_value s'; intro hs; rotate_left)
    | with_reducible refine Ends.next ?_
    | (extract_lets +onlyGivenNames s'; first | (have _e : State → _ := s'; clear _e; subst s') | clear_value s')
    | with_reducible refine State.modLink_touches (by decide) ?_
    | with_reducible refine Touches.addSat (by first | decide | assumption | (split <;> decide)) ?_
    | split


theorem execLinkRetire_touches {m : Nat} {s0 : State} {link : LinkNo} {s : State} (hk : 0x10200000000000001000000000000000000000000000000000000000000000000000000000000000000008C2084 ||| m = m)
    (h : Touches m s0 s) : Ends m s0 (execLinkRetire link s) := by
  refine Ends.step (k := 0x10200000000000001000000000000000000000000000000000000000000000000000000000000000000008C2084) (t := s) ?_ hk h
  clear hk h
  unfold execLinkRetire
  have h0 := Touches.refl 0x10200000000000001000000000000000000000000000000000000000000000000000000000000000000008C2084 s
  repeat' first
    | with_reducible assumption
    | (extract_lets +onlyGivenNames s'; with_reducible refine Touches.cut (t := s') ?_ ?_; subst s'; rotate_left; clear_value s'; intro hs; rotate_left)
    | (extract_lets +onlyGivenNames s'; with_reducible refine Ends.cut (t := s') ?_ ?_; subst s'; rotate_left; clear_value s'; intro hs; rotate_left)
    | with_reducible refine Ends.next ?_
    | (extract_lets +onlyGivenNames s'; first | (have _e : State → _ := s'; clear _e; subst s') | clear_value s')
    | with_reducible refine State.refreshInts_touches (by decide) ?_
    | with_reducible refine State.record_touches (by decide) ?_
    | with_reducible refine State.modLink_touches (by decide) ?_
    | with_reducible refine State.refreshDie_touches (by decide) ?_
    | with_reducible refine Touches.set (by first | decide | assumption | (split <;> decide)) ?_
    | split


theorem execLinkAutoRetrain_touches {m : Nat} {s0 : State} {link : LinkNo} {s : State} (hk : 0x880004 ||| m = m)
    (h : Touches m s0 s) : Ends m s0 (execLinkAutoRetrain link s) := by
  refine Ends.step (k := 0x880004) (t := s) ?_ hk h
  clear hk h
  unfold execLinkAutoRetrain
  have h0 := Touches.refl 0x880004 s
  repeat' first
    | with_reducible assumption
    | (extract_lets +onlyGivenNames s'; with_reducible refine Touches.cut (t := s') ?_ ?_; subst s'; rotate_left; clear_value s'; intro hs; rotate_left)
    | (extract_lets +onlyGivenNames s'; with_reducible refine Ends.cut (t := s') ?_ ?_; subst s'; rotate_left; clear_value s'; intro hs; rotate_left)
    | with_reducible refine Ends.next ?_
    | (extract_lets +onlyGivenNames s'; first | (have _e : State → _ := s'; clear _e; subst s') | clear_value s')
    | with_reducible refine State.trainLink_touches (by decide) ?_
    | split


theorem execLinkTrainingEnd_touches {m : Nat} {s0 : State} {link : LinkNo} {up : Bool} {s : State} (hk : 0x10200000000000001000000000000000000000000000000000000000000010000000000000000060000008C2084 ||| m = m)
    (h : Touches m s0 s) : Ends m s0 (execLinkTrainingEnd link up s) := by
  refine Ends.step (k := 0x10200000000000001000000000000000000000000000000000000000000010000000000000000060000008C2084) (t := s) ?_ hk h
  clear hk h
  unfold execLinkTrainingEnd
  have h0 := Touches.refl 0x10200000000000001000000000000000000000000000000000000000000010000000000000000060000008C2084 s
  repeat' first
    | with_reducible assumption
    | (extract_lets +onlyGivenNames s'; with_reducible refine Touches.cut (t := s') ?_ ?_; subst s'; rotate_left; clear_value s'; intro hs; rotate_left)
    | (extract_lets +onlyGivenNames s'; with_reducible refine Ends.cut (t := s') ?_ ?_; subst s'; rotate_left; clear_value s'; intro hs; rotate_left)
    | with_reducible refine Ends.next ?_
    | (extract_lets +onlyGivenNames s'; first | (have _e : State → _ := s'; clear _e; subst s') | clear_value s')
    | with_reducible refine State.modLink_touches (by decide) ?_
    | with_reducible refine State.refreshDie_touches (by decide) ?_
    | with_reducible refine State.refreshRim_touches (by decide) ?_
    | with_reducible refine Touches.set (by first | decide | assumption | (split <;> decide)) ?_
    | split


theorem execRetrain_touches {m : Nat} {s0 : State} {value : Word} {s : State} (hk : 0x880004 ||| m = m)
    (h : Touches m s0 s) : Ends m s0 (execRetrain value s) := by
  refine Ends.step (k := 0x880004) (t := s) ?_ hk h
  clear hk h
  unfold execRetrain
  have h0 := Touches.refl 0x880004 s
  repeat' first
    | with_reducible assumption
    | (extract_lets +onlyGivenNames s'; with_reducible refine Touches.cut (t := s') ?_ ?_; subst s'; rotate_left; clear_value s'; intro hs; rotate_left)
    | (extract_lets +onlyGivenNames s'; with_reducible refine Ends.cut (t := s') ?_ ?_; subst s'; rotate_left; clear_value s'; intro hs; rotate_left)
    | with_reducible refine Ends.next ?_
    | (extract_lets +onlyGivenNames s'; first | (have _e : State → _ := s'; clear _e; subst s') | clear_value s')
    | with_reducible refine State.trainLink_touches (by decide) ?_
    | split


end Sys2Proof.Machine
end

