-- ==== Sys2Proof/Laws/TouchesLanes.lean ====
section
/-!
SUPPORT. What the operations of Lanes.lean can touch.
-/

namespace Sys2Proof.Machine

set_option linter.all false

theorem State.synceRelease_touches {m : Nat} {s0 : State} {s : State} {k : Nat} (hk : 0x100000000000000000000000000000000000000000000000000 ||| m = m)
    (h : Touches m s0 s) : Touches m s0 (State.synceRelease s k) := by
  refine Touches.step (k := 0x100000000000000000000000000000000000000000000000000) (t := s) ?_ hk h
  clear hk h
  unfold State.synceRelease
  have h0 := Touches.refl 0x100000000000000000000000000000000000000000000000000 s
  repeat' first
    | with_reducible assumption
    | (extract_lets +onlyGivenNames s'; with_reducible refine Touches.cut (t := s') ?_ ?_; subst s'; rotate_left; clear_value s'; intro hs; rotate_left)
    | (extract_lets +onlyGivenNames s'; first | (have _e : State → _ := s'; clear _e; subst s') | clear_value s')
    | with_reducible refine Touches.set (by first | decide | assumption | (split <;> decide)) ?_
    | split


theorem execSynceSquelch_touches {m : Nat} {s0 : State} {out : Fin 2} {s : State} (hk : 0x100000000000000000000000300000000000000000000000000000000000000000000040080 ||| m = m)
    (h : Touches m s0 s) : Ends m s0 (execSynceSquelch out s) := by
  refine Ends.step (k := 0x100000000000000000000000300000000000000000000000000000000000000000000040080) (t := s) ?_ hk h
  clear hk h
  unfold execSynceSquelch
  have h0 := Touches.refl 0x100000000000000000000000300000000000000000000000000000000000000000000040080 s
  repeat' first
    | with_reducible assumption
    | (extract_lets +onlyGivenNames s'; with_reducible refine Touches.cut (t := s') ?_ ?_; subst s'; rotate_left; clear_value s'; intro hs; rotate_left)
    | (extract_lets +onlyGivenNames s'; with_reducible refine Ends.cut (t := s') ?_ ?_; subst s'; rotate_left; clear_value s'; intro hs; rotate_left)
    | with_reducible refine Ends.next ?_
    | (extract_lets +onlyGivenNames s'; first | (have _e : State → _ := s'; clear _e; subst s') | clear_value s')
    | with_reducible refine Touches.set (by first | decide | assumption | (split <;> decide)) ?_
    | with_reducible refine Touches.emit (by decide) ?_
    | with_reducible refine Touches.raise (by first | decide | assumption | (split <;> decide)) (by decide) ?_
    | split


theorem State.refreshClear_touches {m : Nat} {s0 : State} {s : State} {x : Nat} (hk : 0x10000000000040004 ||| m = m)
    (h : Touches m s0 s) : Touches m s0 (State.refreshClear s x) := by
  refine Touches.step (k := 0x10000000000040004) (t := s) ?_ hk h
  clear hk h
  unfold State.refreshClear
  have h0 := Touches.refl 0x10000000000040004 s
  repeat' first
    | with_reducible assumption
    | (extract_lets +onlyGivenNames s'; with_reducible refine Touches.cut (t := s') ?_ ?_; subst s'; rotate_left; clear_value s'; intro hs; rotate_left)
    | (extract_lets +onlyGivenNames s'; first | (have _e : State → _ := s'; clear _e; subst s') | clear_value s')
    | with_reducible refine State.modPort_touches (by decide) ?_
    | with_reducible refine Touches.set (by first | decide | assumption | (split <;> decide)) ?_
    | with_reducible refine Touches.emit (by decide) ?_
    | split


theorem State.refreshLanePort_touches {m : Nat} {s0 : State} {s : State} {l : Nat} (hk : 0x10000000000040004 ||| m = m)
    (h : Touches m s0 s) : Touches m s0 (State.refreshLanePort s l) := by
  refine Touches.step (k := 0x10000000000040004) (t := s) ?_ hk h
  clear hk h
  unfold State.refreshLanePort
  have h0 := Touches.refl 0x10000000000040004 s
  repeat' first
    | with_reducible assumption
    | (extract_lets +onlyGivenNames s'; with_reducible refine Touches.cut (t := s') ?_ ?_; subst s'; rotate_left; clear_value s'; intro hs; rotate_left)
    | (extract_lets +onlyGivenNames s'; first | (have _e : State → _ := s'; clear _e; subst s') | clear_value s')
    | with_reducible refine State.refreshClear_touches (by decide) ?_
    | split


theorem State.refreshRxIdle_touches {m : Nat} {s0 : State} {s : State} {x : Nat} (hk : 0x10000000000000000 ||| m = m)
    (h : Touches m s0 s) : Touches m s0 (State.refreshRxIdle s x) := by
  refine Touches.step (k := 0x10000000000000000) (t := s) ?_ hk h
  clear hk h
  unfold State.refreshRxIdle
  have h0 := Touches.refl 0x10000000000000000 s
  repeat' first
    | with_reducible assumption
    | (extract_lets +onlyGivenNames s'; with_reducible refine Touches.cut (t := s') ?_ ?_; subst s'; rotate_left; clear_value s'; intro hs; rotate_left)
    | (extract_lets +onlyGivenNames s'; first | (have _e : State → _ := s'; clear _e; subst s') | clear_value s')
    | with_reducible refine Touches.set (by first | decide | assumption | (split <;> decide)) ?_
    | split


theorem State.setAlignLost_touches {m : Nat} {s0 : State} {s : State} {l : Nat} (hk : 0x100000000000000000000000000000000000000000000000000000009010400000000040084 ||| m = m)
    (h : Touches m s0 s) : Touches m s0 (State.setAlignLost s l) := by
  refine Touches.step (k := 0x100000000000000000000000000000000000000000000000000000009010400000000040084) (t := s) ?_ hk h
  clear hk h
  unfold State.setAlignLost
  have h0 := Touches.refl 0x100000000000000000000000000000000000000000000000000000009010400000000040084 s
  repeat' first
    | with_reducible assumption
    | (extract_lets +onlyGivenNames s'; with_reducible refine Touches.cut (t := s') ?_ ?_; subst s'; rotate_left; clear_value s'; intro hs; rotate_left)
    | (extract_lets +onlyGivenNames s'; first | (have _e : State → _ := s'; clear _e; subst s') | clear_value s')
    | with_reducible refine State.refreshClear_touches (by decide) ?_
    | with_reducible refine Touches.set (by first | decide | assumption | (split <;> decide)) ?_
    | with_reducible refine Touches.portEvent (by first | decide | assumption | (split <;> decide)) (by decide) ?_
    | split


theorem execRxCodeword_touches {m : Nat} {s0 : State} {lane : LaneNo} {cw : Codeword} {s : State} (hk : 0x10000000000000000000000000000000000000000000000000000000D002400000000040084 ||| m = m)
    (h : Touches m s0 s) : Ends m s0 (execRxCodeword lane cw s) := by
  refine Ends.step (k := 0x10000000000000000000000000000000000000000000000000000000D002400000000040084) (t := s) ?_ hk h
  clear hk h
  unfold execRxCodeword
  have h0 := Touches.refl 0x10000000000000000000000000000000000000000000000000000000D002400000000040084 s
  repeat' first
    | with_reducible assumption
    | (extract_lets +onlyGivenNames s'; with_reducible refine Touches.cut (t := s') ?_ ?_; subst s'; rotate_left; clear_value s'; intro hs; rotate_left)
    | (extract_lets +onlyGivenNames s'; with_reducible refine Ends.cut (t := s') ?_ ?_; subst s'; rotate_left; clear_value s'; intro hs; rotate_left)
    | with_reducible refine Ends.next ?_
    | (extract_lets +onlyGivenNames s'; first | (have _e : State → _ := s'; clear _e; subst s') | clear_value s')
    | with_reducible refine State.portCount_touches (by decide) ?_
    | with_reducible refine State.modLane_touches (by decide) ?_
    | with_reducible refine Touches.addSat (by first | decide | assumption | (split <;> decide)) ?_
    | with_reducible refine Touches.portEvent (by first | decide | assumption | (split <;> decide)) (by decide) ?_
    | split


theorem execSlip_touches {m : Nat} {s0 : State} {lane : LaneNo} {value : Word} {matchPairs : Fin 1021} {s : State} (hk : 0x400000000000004 ||| m = m)
    (h : Touches m s0 s) : Ends m s0 (execSlip lane value matchPairs s) := by
  refine Ends.step (k := 0x400000000000004) (t := s) ?_ hk h
  clear hk h
  unfold execSlip
  have h0 := Touches.refl 0x400000000000004 s
  repeat' first
    | with_reducible assumption
    | (extract_lets +onlyGivenNames s'; with_reducible refine Touches.cut (t := s') ?_ ?_; subst s'; rotate_left; clear_value s'; intro hs; rotate_left)
    | (extract_lets +onlyGivenNames s'; with_reducible refine Ends.cut (t := s') ?_ ?_; subst s'; rotate_left; clear_value s'; intro hs; rotate_left)
    | with_reducible refine Ends.next ?_
    | (extract_lets +onlyGivenNames s'; first | (have _e : State → _ := s'; clear _e; subst s') | clear_value s')
    | with_reducible refine State.modLane_touches (by decide) ?_
    | with_reducible refine Touches.set (by first | decide | assumption | (split <;> decide)) ?_
    | split


theorem State.setAligned_touches {m : Nat} {s0 : State} {s : State} {l pos : Nat} {status : BitVec 20} (hk : 0x400000000040004 ||| m = m)
    (h : Touches m s0 s) : Touches m s0 (State.setAligned s l pos status) := by
  refine Touches.step (k := 0x400000000040004) (t := s) ?_ hk h
  clear hk h
  unfold State.setAligned
  have h0 := Touches.refl 0x400000000040004 s
  repeat' first
    | with_reducible assumption
    | (extract_lets +onlyGivenNames s'; with_reducible refine Touches.cut (t := s') ?_ ?_; subst s'; rotate_left; clear_value s'; intro hs; rotate_left)
    | (extract_lets +onlyGivenNames s'; first | (have _e : State → _ := s'; clear _e; subst s') | clear_value s')
    | with_reducible refine State.modLane_touches (by decide) ?_
    | with_reducible refine State.sendTp6_touches (by decide) ?_
    | with_reducible refine Touches.set (by first | decide | assumption | (split <;> decide)) ?_
    | split


theorem execRxAlignedSet_touches {m : Nat} {s0 : State} {lane : LaneNo} {seen : Tp6Seen} {s : State} (hk : 0x400000000040004 ||| m = m)
    (h : Touches m s0 s) : Ends m s0 (execRxAlignedSet lane seen s) := by
  refine Ends.step (k := 0x400000000040004) (t := s) ?_ hk h
  clear hk h
  unfold execRxAlignedSet
  have h0 := Touches.refl 0x400000000040004 s
  repeat' first
    | with_reducible assumption
    | (extract_lets +onlyGivenNames s'; with_reducible refine Touches.cut (t := s') ?_ ?_; subst s'; rotate_left; clear_value s'; intro hs; rotate_left)
    | (extract_lets +onlyGivenNames s'; with_reducible refine Ends.cut (t := s') ?_ ?_; subst s'; rotate_left; clear_value s'; intro hs; rotate_left)
    | with_reducible refine Ends.next ?_
    | (extract_lets +onlyGivenNames s'; first | (have _e : State → _ := s'; clear _e; subst s') | clear_value s')
    | with_reducible refine State.setAligned_touches (by decide) ?_
    | with_reducible refine Touches.set (by first | decide | assumption | (split <;> decide)) ?_
    | split


theorem State.seeStatus_touches {m : Nat} {s0 : State} {s : State} {ls : List Nat} {received : List (List (BitVec 20))} (hk : 0x400000000000000 ||| m = m)
    (h : Touches m s0 s) : Touches m s0 (State.seeStatus s ls received) := by
  refine Touches.step (k := 0x400000000000000) (t := s) ?_ hk h
  clear hk h
  unfold State.seeStatus
  have h0 := Touches.refl 0x400000000000000 s
  repeat' first
    | with_reducible assumption
    | (extract_lets +onlyGivenNames s'; with_reducible refine Touches.cut (t := s') ?_ ?_; subst s'; rotate_left; clear_value s'; intro hs; rotate_left)
    | (extract_lets +onlyGivenNames s'; first | (have _e : State → _ := s'; clear _e; subst s') | clear_value s')
    | with_reducible refine Touches.foldl (fun _ _ _ => ?_) ?_
    | with_reducible refine Touches.set (by first | decide | assumption | (split <;> decide)) ?_
    | split


theorem execTxSwitchToData_touches {m : Nat} {s0 : State} {port : PortNo} {received : List (List (BitVec 20))} {s : State} (hk : 0x400000000000004 ||| m = m)
    (h : Touches m s0 s) : Ends m s0 (execTxSwitchToData port received s) := by
  refine Ends.step (k := 0x400000000000004) (t := s) ?_ hk h
  clear hk h
  unfold execTxSwitchToData
  have h0 := Touches.refl 0x400000000000004 s
  repeat' first
    | with_reducible assumption
    | (extract_lets +onlyGivenNames s'; with_reducible refine Touches.cut (t := s') ?_ ?_; subst s'; rotate_left; clear_value s'; intro hs; rotate_left)
    | (extract_lets +onlyGivenNames s'; with_reducible refine Ends.cut (t := s') ?_ ?_; subst s'; rotate_left; clear_value s'; intro hs; rotate_left)
    | with_reducible refine Ends.next ?_
    | (extract_lets +onlyGivenNames s'; first | (have _e : State → _ := s'; clear _e; subst s') | clear_value s')
    | with_reducible refine Touches.foldl (fun _ _ _ => ?_) ?_
    | with_reducible refine State.modLane_touches (by decide) ?_
    | with_reducible refine State.modPort_touches (by decide) ?_
    | with_reducible refine State.seeStatus_touches (by decide) ?_
    | split


theorem execDataLock_touches {m : Nat} {s0 : State} {lane : LaneNo} {start : DataStart} {s : State} (hk : 0x10400000000040004 ||| m = m)
    (h : Touches m s0 s) : Ends m s0 (execDataLock lane start s) := by
  refine Ends.step (k := 0x10400000000040004) (t := s) ?_ hk h
  clear hk h
  unfold execDataLock
  have h0 := Touches.refl 0x10400000000040004 s
  repeat' first
    | with_reducible assumption
    | (extract_lets +onlyGivenNames s'; with_reducible refine Touches.cut (t := s') ?_ ?_; subst s'; rotate_left; clear_value s'; intro hs; rotate_left)
    | (extract_lets +onlyGivenNames s'; with_reducible refine Ends.cut (t := s') ?_ ?_; subst s'; rotate_left; clear_value s'; intro hs; rotate_left)
    | with_reducible refine Ends.next ?_
    | (extract_lets +onlyGivenNames s'; first | (have _e : State → _ := s'; clear _e; subst s') | clear_value s')
    | with_reducible refine State.modLane_touches (by decide) ?_
    | with_reducible refine State.refreshClear_touches (by decide) ?_
    | with_reducible refine Touches.set (by first | decide | assumption | (split <;> decide)) ?_
    | split


theorem State.leaveIdle_touches {m : Nat} {s0 : State} {s : State} {l : Nat} (hk : 0x1000000000000004 ||| m = m)
    (h : Touches m s0 s) : Touches m s0 (State.leaveIdle s l) := by
  refine Touches.step (k := 0x1000000000000004) (t := s) ?_ hk h
  clear hk h
  unfold State.leaveIdle
  have h0 := Touches.refl 0x1000000000000004 s
  repeat' first
    | with_reducible assumption
    | (extract_lets +onlyGivenNames s'; with_reducible refine Touches.cut (t := s') ?_ ?_; subst s'; rotate_left; clear_value s'; intro hs; rotate_left)
    | (extract_lets +onlyGivenNames s'; first | (have _e : State → _ := s'; clear _e; subst s') | clear_value s')
    | with_reducible refine Touches.foldl (fun _ _ _ => ?_) ?_
    | with_reducible refine State.modLane_touches (by decide) ?_
    | with_reducible refine Touches.set (by first | decide | assumption | (split <;> decide)) ?_
    | split


theorem State.backToTp6_touches {m : Nat} {s0 : State} {s : State} {l : Nat} (hk : 0x1000000000040004 ||| m = m)
    (h : Touches m s0 s) : Touches m s0 (State.backToTp6 s l) := by
  refine Touches.step (k := 0x1000000000040004) (t := s) ?_ hk h
  clear hk h
  unfold State.backToTp6
  have h0 := Touches.refl 0x1000000000040004 s
  repeat' first
    | with_reducible assumption
    | (extract_lets +onlyGivenNames s'; with_reducible refine Touches.cut (t := s') ?_ ?_; subst s'; rotate_left; clear_value s'; intro hs; rotate_left)
    | (extract_lets +onlyGivenNames s'; first | (have _e : State → _ := s'; clear _e; subst s') | clear_value s')
    | with_reducible refine State.modLane_touches (by decide) ?_
    | with_reducible refine State.sendTp6_touches (by decide) ?_
    | with_reducible refine State.leaveIdle_touches (by decide) ?_
    | split


theorem execAlignLost_touches {m : Nat} {s0 : State} {lane : LaneNo} {s : State} (hk : 0x100000000000000000000000000000000000000000000000000000009011400000000040084 ||| m = m)
    (h : Touches m s0 s) : Ends m s0 (execAlignLost lane s) := by
  refine Ends.step (k := 0x100000000000000000000000000000000000000000000000000000009011400000000040084) (t := s) ?_ hk h
  clear hk h
  unfold execAlignLost
  have h0 := Touches.refl 0x100000000000000000000000000000000000000000000000000000009011400000000040084 s
  repeat' first
    | with_reducible assumption
    | (extract_lets +onlyGivenNames s'; with_reducible refine Touches.cut (t := s') ?_ ?_; subst s'; rotate_left; clear_value s'; intro hs; rotate_left)
    | (extract_lets +onlyGivenNames s'; with_reducible refine Ends.cut (t := s') ?_ ?_; subst s'; rotate_left; clear_value s'; intro hs; rotate_left)
    | with_reducible refine Ends.next ?_
    | (extract_lets +onlyGivenNames s'; first | (have _e : State → _ := s'; clear _e; subst s') | clear_value s')
    | with_reducible refine State.modLane_touches (by decide) ?_
    | with_reducible refine State.setAlignLost_touches (by decide) ?_
    | with_reducible refine State.backToTp6_touches (by decide) ?_
    | with_reducible refine Touches.set (by first | decide | assumption | (split <;> decide)) ?_
    | split


theorem execRealign_touches {m : Nat} {s0 : State} {lane : LaneNo} {found : Tp6Found} {s : State} (hk : 0x400000000040004 ||| m = m)
    (h : Touches m s0 s) : Ends m s0 (execRealign lane found s) := by
  refine Ends.step (k := 0x400000000040004) (t := s) ?_ hk h
  clear hk h
  unfold execRealign
  have h0 := Touches.refl 0x400000000040004 s
  repeat' first
    | with_reducible assumption
    | (extract_lets +onlyGivenNames s'; with_reducible refine Touches.cut (t := s') ?_ ?_; subst s'; rotate_left; clear_value s'; intro hs; rotate_left)
    | (extract_lets +onlyGivenNames s'; with_reducible refine Ends.cut (t := s') ?_ ?_; subst s'; rotate_left; clear_value s'; intro hs; rotate_left)
    | with_reducible refine Ends.next ?_
    | (extract_lets +onlyGivenNames s'; first | (have _e : State → _ := s'; clear _e; subst s') | clear_value s')
    | with_reducible refine State.setAligned_touches (by decide) ?_
    | split


theorem State.writeFir_touches {m : Nat} {s0 : State} {s : State} {l : Nat} {value : Word} (hk : 0x40000000000000 ||| m = m)
    (h : Touches m s0 s) : Touches m s0 (State.writeFir s l value) := by
  refine Touches.step (k := 0x40000000000000) (t := s) ?_ hk h
  clear hk h
  unfold State.writeFir
  have h0 := Touches.refl 0x40000000000000 s
  repeat' first
    | with_reducible assumption
    | (extract_lets +onlyGivenNames s'; with_reducible refine Touches.cut (t := s') ?_ ?_; subst s'; rotate_left; clear_value s'; intro hs; rotate_left)
    | (extract_lets +onlyGivenNames s'; first | (have _e : State → _ := s'; clear _e; subst s') | clear_value s')
    | with_reducible refine Touches.set (by first | decide | assumption | (split <;> decide)) ?_
    | split


theorem execTxFirWrite_touches {m : Nat} {s0 : State} {lane : LaneNo} {value : Word} {s : State} (hk : 0x40000000000000 ||| m = m)
    (h : Touches m s0 s) : Ends m s0 (execTxFirWrite lane value s) := by
  refine Ends.step (k := 0x40000000000000) (t := s) ?_ hk h
  clear hk h
  unfold execTxFirWrite
  have h0 := Touches.refl 0x40000000000000 s
  repeat' first
    | with_reducible assumption
    | (extract_lets +onlyGivenNames s'; with_reducible refine Touches.cut (t := s') ?_ ?_; subst s'; rotate_left; clear_value s'; intro hs; rotate_left)
    | (extract_lets +onlyGivenNames s'; with_reducible refine Ends.cut (t := s') ?_ ?_; subst s'; rotate_left; clear_value s'; intro hs; rotate_left)
    | with_reducible refine Ends.next ?_
    | (extract_lets +onlyGivenNames s'; first | (have _e : State → _ := s'; clear _e; subst s') | clear_value s')
    | with_reducible refine State.writeFir_touches (by decide) ?_
    | split


theorem State.answerTraining_touches {m : Nat} {s0 s : State} {f : Fld} {l lo hi want : Nat}
    (hf : m.testBit f.reg.bit = true) (hk : 0x40000 ||| m = m) (h : Touches m s0 s) :
    Touches m s0 (State.answerTraining s f l lo hi want) :=
  Touches.emit (by rw [← hk, Nat.testBit_or]; rfl) (Touches.set hf h)


theorem State.startTraining_touches {m : Nat} {s0 : State} {s : State} {l : Nat} (hk : 0x60004 ||| m = m)
    (h : Touches m s0 s) : Touches m s0 (State.startTraining s l) := by
  refine Touches.step (k := 0x60004) (t := s) ?_ hk h
  clear hk h
  unfold State.startTraining
  have h0 := Touches.refl 0x60004 s
  repeat' first
    | with_reducible assumption
    | (extract_lets +onlyGivenNames s'; with_reducible refine Touches.cut (t := s') ?_ ?_; subst s'; rotate_left; clear_value s'; intro hs; rotate_left)
    | (extract_lets +onlyGivenNames s'; first | (have _e : State → _ := s'; clear _e; subst s') | clear_value s')
    | with_reducible refine Touches.foldl (fun _ _ _ => ?_) ?_
    | with_reducible refine State.draw_touches_eq (by assumption) (by decide) ?_
    | with_reducible refine State.draw_touches (by decide) ?_
    | with_reducible refine State.modLane_touches (by decide) ?_
    | with_reducible refine Touches.emit (by decide) ?_
    | split


theorem State.startLane_touches {m : Nat} {s0 : State} {s : State} {l : Nat} (hk : 0x5500000000060004 ||| m = m)
    (h : Touches m s0 s) : Touches m s0 (State.startLane s l) := by
  refine Touches.step (k := 0x5500000000060004) (t := s) ?_ hk h
  clear hk h
  unfold State.startLane
  have h0 := Touches.refl 0x5500000000060004 s
  repeat' first
    | with_reducible assumption
    | (extract_lets +onlyGivenNames s'; with_reducible refine Touches.cut (t := s') ?_ ?_; subst s'; rotate_left; clear_value s'; intro hs; rotate_left)
    | (extract_lets +onlyGivenNames s'; first | (have _e : State → _ := s'; clear _e; subst s') | clear_value s')
    | with_reducible refine Touches.foldl_mem (fun s'' f'' hf'' hs'' => ?_) ?_
    | with_reducible refine Touches.foldl (fun _ _ _ => ?_) ?_
    | with_reducible refine State.modLane_touches (by decide) ?_
    | with_reducible refine State.sendTp6_touches (by decide) ?_
    | with_reducible refine State.sendTest_touches (by decide) ?_
    | with_reducible refine State.startTraining_touches (by decide) ?_
    | with_reducible refine Touches.set (by first | decide | (clear hs''; revert f''; decide)) ?_
    | split


theorem State.placeLanes_touches {m : Nat} {s0 : State} {s : State} {old : Image} (hk : 0x15500000000060004 ||| m = m)
    (h : Touches m s0 s) : Touches m s0 (State.placeLanes s old) := by
  refine Touches.step (k := 0x15500000000060004) (t := s) ?_ hk h
  clear hk h
  unfold State.placeLanes
  have h0 := Touches.refl 0x15500000000060004 s
  repeat' first
    | with_reducible assumption
    | (extract_lets +onlyGivenNames s'; with_reducible refine Touches.cut (t := s') ?_ ?_; subst s'; rotate_left; clear_value s'; intro hs; rotate_left)
    | (extract_lets +onlyGivenNames s'; first | (have _e : State → _ := s'; clear _e; subst s') | clear_value s')
    | with_reducible refine Touches.foldl (fun _ _ _ => ?_) ?_
    | with_reducible refine State.refreshClear_touches (by decide) ?_
    | with_reducible refine State.startLane_touches (by decide) ?_
    | with_reducible refine Touches.set (by first | decide | assumption | (split <;> decide)) ?_
    | split


theorem execIeeeTrainingRequest_touches {m : Nat} {s0 : State} {lane : LaneNo} {tap : Int} {want : Nat} {s : State} (hk : 0x40000000060004 ||| m = m)
    (h : Touches m s0 s) : Ends m s0 (execIeeeTrainingRequest lane tap want s) := by
  refine Ends.step (k := 0x40000000060004) (t := s) ?_ hk h
  clear hk h
  unfold execIeeeTrainingRequest
  have h0 := Touches.refl 0x40000000060004 s
  repeat' first
    | with_reducible assumption
    | (extract_lets +onlyGivenNames s'; with_reducible refine Touches.cut (t := s') ?_ ?_; subst s'; rotate_left; clear_value s'; intro hs; rotate_left)
    | (extract_lets +onlyGivenNames s'; with_reducible refine Ends.cut (t := s') ?_ ?_; subst s'; rotate_left; clear_value s'; intro hs; rotate_left)
    | with_reducible refine Ends.next ?_
    | (extract_lets +onlyGivenNames s'; first | (have _e : State → _ := s'; clear _e; subst s') | clear_value s')
    | with_reducible refine State.answerTraining_touches (by first | decide | assumption) (by decide) ?_
    | with_reducible refine State.startTraining_touches (by decide) ?_
    | with_reducible refine Touches.emit (by decide) ?_
    | split


theorem execIeeeLinkTrainingEnd_touches {m : Nat} {s0 : State} {lane : LaneNo} {s : State} (hk : 0x4 ||| m = m)
    (h : Touches m s0 s) : Ends m s0 (execIeeeLinkTrainingEnd lane s) := by
  refine Ends.step (k := 0x4) (t := s) ?_ hk h
  clear hk h
  unfold execIeeeLinkTrainingEnd
  have h0 := Touches.refl 0x4 s
  repeat' first
    | with_reducible assumption
    | (extract_lets +onlyGivenNames s'; with_reducible refine Touches.cut (t := s') ?_ ?_; subst s'; rotate_left; clear_value s'; intro hs; rotate_left)
    | (extract_lets +onlyGivenNames s'; with_reducible refine Ends.cut (t := s') ?_ ?_; subst s'; rotate_left; clear_value s'; intro hs; rotate_left)
    | with_reducible refine Ends.next ?_
    | (extract_lets +onlyGivenNames s'; first | (have _e : State → _ := s'; clear _e; subst s') | clear_value s')
    | with_reducible refine State.modLane_touches (by decide) ?_
    | split


theorem execRxCfgWrite_touches {m : Nat} {s0 : State} {lane : LaneNo} {value : Word} {s : State} (hk : 0x180000000000000 ||| m = m)
    (h : Touches m s0 s) : Ends m s0 (execRxCfgWrite lane value s) := by
  refine Ends.step (k := 0x180000000000000) (t := s) ?_ hk h
  clear hk h
  unfold execRxCfgWrite
  have h0 := Touches.refl 0x180000000000000 s
  repeat' first
    | with_reducible assumption
    | (extract_lets +onlyGivenNames s'; with_reducible refine Touches.cut (t := s') ?_ ?_; subst s'; rotate_left; clear_value s'; intro hs; rotate_left)
    | (extract_lets +onlyGivenNames s'; with_reducible refine Ends.cut (t := s') ?_ ?_; subst s'; rotate_left; clear_value s'; intro hs; rotate_left)
    | with_reducible refine Ends.next ?_
    | (extract_lets +onlyGivenNames s'; first | (have _e : State → _ := s'; clear _e; subst s') | clear_value s')
    | with_reducible refine Touches.foldl_mem (fun s'' f'' hf'' hs'' => ?_) ?_
    | with_reducible refine Touches.foldl (fun _ _ _ => ?_) ?_
    | with_reducible refine Touches.set (by first | decide | (clear hs''; revert f''; decide)) ?_
    | split


theorem execCdrLock_touches {m : Nat} {s0 : State} {lane : LaneNo} {s : State} (hk : 0x100000000000000000000000000000000010100000000040004 ||| m = m)
    (h : Touches m s0 s) : Ends m s0 (execCdrLock lane s) := by
  refine Ends.step (k := 0x100000000000000000000000000000000010100000000040004) (t := s) ?_ hk h
  clear hk h
  unfold execCdrLock
  have h0 := Touches.refl 0x100000000000000000000000000000000010100000000040004 s
  repeat' first
    | with_reducible assumption
    | (extract_lets +onlyGivenNames s'; with_reducible refine Touches.cut (t := s') ?_ ?_; subst s'; rotate_left; clear_value s'; intro hs; rotate_left)
    | (extract_lets +onlyGivenNames s'; with_reducible refine Ends.cut (t := s') ?_ ?_; subst s'; rotate_left; clear_value s'; intro hs; rotate_left)
    | with_reducible refine Ends.next ?_
    | (extract_lets +onlyGivenNames s'; first | (have _e : State → _ := s'; clear _e; subst s') | clear_value s')
    | with_reducible refine State.synceRelease_touches (by decide) ?_
    | with_reducible refine State.refreshLanePort_touches (by decide) ?_
    | with_reducible refine Touches.set (by first | decide | assumption | (split <;> decide)) ?_
    | split


theorem execAdaptDone_touches {m : Nat} {s0 : State} {lane : LaneNo} {result : AdaptResult} {s : State} (hk : 0x100000000000004 ||| m = m)
    (h : Touches m s0 s) : Ends m s0 (execAdaptDone lane result s) := by
  refine Ends.step (k := 0x100000000000004) (t := s) ?_ hk h
  clear hk h
  unfold execAdaptDone
  have h0 := Touches.refl 0x100000000000004 s
  repeat' first
    | with_reducible assumption
    | (extract_lets +onlyGivenNames s'; with_reducible refine Touches.cut (t := s') ?_ ?_; subst s'; rotate_left; clear_value s'; intro hs; rotate_left)
    | (extract_lets +onlyGivenNames s'; with_reducible refine Ends.cut (t := s') ?_ ?_; subst s'; rotate_left; clear_value s'; intro hs; rotate_left)
    | with_reducible refine Ends.next ?_
    | (extract_lets +onlyGivenNames s'; first | (have _e : State → _ := s'; clear _e; subst s') | clear_value s')
    | with_reducible refine State.modLane_touches (by decide) ?_
    | with_reducible refine Touches.set (by first | decide | assumption | (split <;> decide)) ?_
    | split


theorem execAlignmentMarkerLock_touches {m : Nat} {s0 : State} {lane : LaneNo} {s : State} (hk : 0x10000000000040004 ||| m = m)
    (h : Touches m s0 s) : Ends m s0 (execAlignmentMarkerLock lane s) := by
  refine Ends.step (k := 0x10000000000040004) (t := s) ?_ hk h
  clear hk h
  unfold execAlignmentMarkerLock
  have h0 := Touches.refl 0x10000000000040004 s
  repeat' first
    | with_reducible assumption
    | (extract_lets +onlyGivenNames s'; with_reducible refine Touches.cut (t := s') ?_ ?_; subst s'; rotate_left; clear_value s'; intro hs; rotate_left)
    | (extract_lets +onlyGivenNames s'; with_reducible refine Ends.cut (t := s') ?_ ?_; subst s'; rotate_left; clear_value s'; intro hs; rotate_left)
    | with_reducible refine Ends.next ?_
    | (extract_lets +onlyGivenNames s'; first | (have _e : State → _ := s'; clear _e; subst s') | clear_value s')
    | with_reducible refine State.modLane_touches (by decide) ?_
    | with_reducible refine State.refreshClear_touches (by decide) ?_
    | with_reducible refine Touches.set (by first | decide | assumption | (split <;> decide)) ?_
    | split


theorem execCheckSync_touches {m : Nat} {s0 : State} {run : CheckRun} {s : State} (hk : 0x4000000000000000 ||| m = m)
    (h : Touches m s0 s) : Ends m s0 (execCheckSync run s) := by
  refine Ends.step (k := 0x4000000000000000) (t := s) ?_ hk h
  clear hk h
  unfold execCheckSync
  have h0 := Touches.refl 0x4000000000000000 s
  repeat' first
    | with_reducible assumption
    | (extract_lets +onlyGivenNames s'; with_reducible refine Touches.cut (t := s') ?_ ?_; subst s'; rotate_left; clear_value s'; intro hs; rotate_left)
    | (extract_lets +onlyGivenNames s'; with_reducible refine Ends.cut (t := s') ?_ ?_; subst s'; rotate_left; clear_value s'; intro hs; rotate_left)
    | with_reducible refine Ends.next ?_
    | (extract_lets +onlyGivenNames s'; first | (have _e : State → _ := s'; clear _e; subst s') | clear_value s')
    | with_reducible refine Touches.set (by first | decide | assumption | (split <;> decide)) ?_
    | with_reducible refine Touches.addSat (by first | decide | assumption | (split <;> decide)) ?_
    | split


end Sys2Proof.Machine
end

