-- ==== Sys2Proof/Laws/TouchesModules.lean ====
section
/-!
SUPPORT. What the operations of Modules.lean can touch.
-/

namespace Sys2Proof.Machine

set_option linter.all false

theorem State.modMod_touches {m : Nat} {s0 : State} {s : State} {f : ModBlock → ModBlock} (hk : 0x800 ||| m = m)
    (h : Touches m s0 s) : Touches m s0 (State.modMod s f) := by
  refine Touches.step (k := 0x800) (t := s) ?_ hk h
  clear hk h
  unfold State.modMod
  have h0 := Touches.refl 0x800 s
  repeat' first
    | with_reducible assumption
    | (extract_lets +onlyGivenNames s'; with_reducible refine Touches.cut (t := s') ?_ ?_; subst s'; rotate_left; clear_value s'; intro hs; rotate_left)
    | (extract_lets +onlyGivenNames s'; first | (have _e : State → _ := s'; clear _e; subst s') | (have _e : ModBlock := s'; clear _e; subst s') | clear_value s')
    | split
    | with_reducible refine Touches.upd_mod (by decide) ?_


theorem State.modCage_touches {m : Nat} {s0 : State} {s : State} {k : Nat} {f : Cage → Cage} (hk : 0x800 ||| m = m)
    (h : Touches m s0 s) : Touches m s0 (State.modCage s k f) := by
  refine Touches.step (k := 0x800) (t := s) ?_ hk h
  clear hk h
  unfold State.modCage
  have h0 := Touches.refl 0x800 s
  repeat' first
    | with_reducible assumption
    | (extract_lets +onlyGivenNames s'; with_reducible refine Touches.cut (t := s') ?_ ?_; subst s'; rotate_left; clear_value s'; intro hs; rotate_left)
    | (extract_lets +onlyGivenNames s'; first | (have _e : State → _ := s'; clear _e; subst s') | clear_value s')
    | with_reducible refine State.modMod_touches (by decide) ?_
    | split


theorem State.modChain_touches {m : Nat} {s0 : State} {s : State} {c : Nat} {f : Chain → Chain} (hk : 0x800 ||| m = m)
    (h : Touches m s0 s) : Touches m s0 (State.modChain s c f) := by
  refine Touches.step (k := 0x800) (t := s) ?_ hk h
  clear hk h
  unfold State.modChain
  have h0 := Touches.refl 0x800 s
  repeat' first
    | with_reducible assumption
    | (extract_lets +onlyGivenNames s'; with_reducible refine Touches.cut (t := s') ?_ ?_; subst s'; rotate_left; clear_value s'; intro hs; rotate_left)
    | (extract_lets +onlyGivenNames s'; first | (have _e : State → _ := s'; clear _e; subst s') | clear_value s')
    | with_reducible refine State.modMod_touches (by decide) ?_
    | split


theorem State.modBus_touches {m : Nat} {s0 : State} {s : State} {b : Nat} {f : ModBus → ModBus} (hk : 0x800 ||| m = m)
    (h : Touches m s0 s) : Touches m s0 (State.modBus s b f) := by
  refine Touches.step (k := 0x800) (t := s) ?_ hk h
  clear hk h
  unfold State.modBus
  have h0 := Touches.refl 0x800 s
  repeat' first
    | with_reducible assumption
    | (extract_lets +onlyGivenNames s'; with_reducible refine Touches.cut (t := s') ?_ ?_; subst s'; rotate_left; clear_value s'; intro hs; rotate_left)
    | (extract_lets +onlyGivenNames s'; first | (have _e : State → _ := s'; clear _e; subst s') | clear_value s')
    | with_reducible refine State.modMod_touches (by decide) ?_
    | split


theorem State.refreshBus_touches {m : Nat} {s0 : State} {s : State} {b : Nat} (hk : 0x40000000000000020000 ||| m = m)
    (h : Touches m s0 s) : Touches m s0 (State.refreshBus s b) := by
  refine Touches.step (k := 0x40000000000000020000) (t := s) ?_ hk h
  clear hk h
  unfold State.refreshBus
  have h0 := Touches.refl 0x40000000000000020000 s
  repeat' first
    | with_reducible assumption
    | (extract_lets +onlyGivenNames s'; with_reducible refine Touches.cut (t := s') ?_ ?_; subst s'; rotate_left; clear_value s'; intro hs; rotate_left)
    | (extract_lets +onlyGivenNames s'; first | (have _e : State → _ := s'; clear _e; subst s') | clear_value s')
    | with_reducible refine State.draw_touches_eq (by assumption) (by decide) ?_
    | with_reducible refine State.draw_touches (by decide) ?_
    | with_reducible refine Touches.set (by first | decide | assumption | (split <;> decide)) ?_
    | split


theorem State.enterCage_touches {m : Nat} {s0 : State} {s : State} {k new : Nat} (hk : 0x100000000000000000000000000000000000000000000000000001200000000000000040880 ||| m = m)
    (h : Touches m s0 s) : Touches m s0 (State.enterCage s k new) := by
  refine Touches.step (k := 0x100000000000000000000000000000000000000000000000000001200000000000000040880) (t := s) ?_ hk h
  clear hk h
  unfold State.enterCage
  have h0 := Touches.refl 0x100000000000000000000000000000000000000000000000000001200000000000000040880 s
  repeat' first
    | with_reducible assumption
    | (extract_lets +onlyGivenNames s'; with_reducible refine Touches.cut (t := s') ?_ ?_; subst s'; rotate_left; clear_value s'; intro hs; rotate_left)
    | (extract_lets +onlyGivenNames s'; first | (have _e : State → _ := s'; clear _e; subst s') | clear_value s')
    | with_reducible refine State.modCage_touches (by decide) ?_
    | with_reducible refine Touches.set (by first | decide | assumption | (split <;> decide)) ?_
    | with_reducible refine Touches.raise (by first | decide | assumption | (split <;> decide)) (by decide) ?_
    | split


theorem State.lifeRecord_touches {m : Nat} {s0 : State} {s : State} {k : Nat} (hk : 0x1020000000000000100000000000000000000000000000000000000000000000000000000000000000000042880 ||| m = m)
    (h : Touches m s0 s) : Touches m s0 (State.lifeRecord s k) := by
  refine Touches.step (k := 0x1020000000000000100000000000000000000000000000000000000000000000000000000000000000000042880) (t := s) ?_ hk h
  clear hk h
  unfold State.lifeRecord
  have h0 := Touches.refl 0x1020000000000000100000000000000000000000000000000000000000000000000000000000000000000042880 s
  repeat' first
    | with_reducible assumption
    | (extract_lets +onlyGivenNames s'; with_reducible refine Touches.cut (t := s') ?_ ?_; subst s'; rotate_left; clear_value s'; intro hs; rotate_left)
    | (extract_lets +onlyGivenNames s'; first | (have _e : State → _ := s'; clear _e; subst s') | clear_value s')
    | with_reducible refine State.record_touches (by decide) ?_
    | with_reducible refine State.modCage_touches (by decide) ?_
    | split


theorem State.showLife_touches {m : Nat} {s0 : State} {s : State} {k : Nat} {id : ModuleId} {age : Option Nat} (hk : 0x4000000000000000000000 ||| m = m)
    (h : Touches m s0 s) : Touches m s0 (State.showLife s k id age) := by
  refine Touches.step (k := 0x4000000000000000000000) (t := s) ?_ hk h
  clear hk h
  unfold State.showLife
  have h0 := Touches.refl 0x4000000000000000000000 s
  repeat' first
    | with_reducible assumption
    | (extract_lets +onlyGivenNames s'; with_reducible refine Touches.cut (t := s') ?_ ?_; subst s'; rotate_left; clear_value s'; intro hs; rotate_left)
    | (extract_lets +onlyGivenNames s'; first | (have _e : State → _ := s'; clear _e; subst s') | clear_value s')
    | with_reducible refine Touches.set (by first | decide | assumption | (split <;> decide)) ?_
    | split


theorem State.lifeWarn_touches {m : Nat} {s0 : State} {s : State} {k : Nat} {id : ModuleId} {age : Option Nat} (hk : 0x1020000000000000100000000000000000000000000000000000000000000000000004200000000000000042080 ||| m = m)
    (h : Touches m s0 s) : Touches m s0 (State.lifeWarn s k id age) := by
  refine Touches.step (k := 0x1020000000000000100000000000000000000000000000000000000000000000000004200000000000000042080) (t := s) ?_ hk h
  clear hk h
  unfold State.lifeWarn
  have h0 := Touches.refl 0x1020000000000000100000000000000000000000000000000000000000000000000004200000000000000042080 s
  repeat' first
    | with_reducible assumption
    | (extract_lets +onlyGivenNames s'; with_reducible refine Touches.cut (t := s') ?_ ?_; subst s'; rotate_left; clear_value s'; intro hs; rotate_left)
    | (extract_lets +onlyGivenNames s'; first | (have _e : State → _ := s'; clear _e; subst s') | clear_value s')
    | with_reducible refine State.record_touches (by decide) ?_
    | with_reducible refine Touches.set (by first | decide | assumption | (split <;> decide)) ?_
    | with_reducible refine Touches.raise (by first | decide | assumption | (split <;> decide)) (by decide) ?_
    | split


theorem State.busOut_touches {m : Nat} {s0 : State} {s : State} {b : Nat} {o : Out} (hk : 0x40800 ||| m = m)
    (h : Touches m s0 s) : Touches m s0 (State.busOut s b o) := by
  refine Touches.step (k := 0x40800) (t := s) ?_ hk h
  clear hk h
  unfold State.busOut
  have h0 := Touches.refl 0x40800 s
  repeat' first
    | with_reducible assumption
    | (extract_lets +onlyGivenNames s'; with_reducible refine Touches.cut (t := s') ?_ ?_; subst s'; rotate_left; clear_value s'; intro hs; rotate_left)
    | (extract_lets +onlyGivenNames s'; first | (have _e : State → _ := s'; clear _e; subst s') | clear_value s')
    | with_reducible refine State.modBus_touches (by decide) ?_
    | with_reducible refine Touches.emit (by decide) ?_
    | split


theorem State.identifyOut_touches {m : Nat} {s0 : State} {s : State} {b k : Nat} (hk : 0x60800 ||| m = m)
    (h : Touches m s0 s) : Touches m s0 (State.identifyOut s b k) := by
  refine Touches.step (k := 0x60800) (t := s) ?_ hk h
  clear hk h
  unfold State.identifyOut
  have h0 := Touches.refl 0x60800 s
  repeat' first
    | with_reducible assumption
    | (extract_lets +onlyGivenNames s'; with_reducible refine Touches.cut (t := s') ?_ ?_; subst s'; rotate_left; clear_value s'; intro hs; rotate_left)
    | (extract_lets +onlyGivenNames s'; first | (have _e : State → _ := s'; clear _e; subst s') | clear_value s')
    | with_reducible refine Touches.foldl (fun _ _ _ => ?_) ?_
    | with_reducible refine State.draw_touches_eq (by assumption) (by decide) ?_
    | with_reducible refine State.draw_touches (by decide) ?_
    | with_reducible refine State.freeBytes_touches_eq (by assumption) (by decide) ?_
    | with_reducible refine State.freeBytes_touches (by decide) ?_
    | with_reducible refine State.modCage_touches (by decide) ?_
    | with_reducible refine State.busOut_touches (by decide) ?_
    | split


theorem State.busStart_touches {m : Nat} {s0 : State} {s : State} {b : Nat} {u : BusUse} {k : Nat} (hk : 0x60800 ||| m = m)
    (h : Touches m s0 s) : Touches m s0 (State.busStart s b u k) := by
  refine Touches.step (k := 0x60800) (t := s) ?_ hk h
  clear hk h
  unfold State.busStart
  have h0 := Touches.refl 0x60800 s
  repeat' first
    | with_reducible assumption
    | (extract_lets +onlyGivenNames s'; with_reducible refine Touches.cut (t := s') ?_ ?_; subst s'; rotate_left; clear_value s'; intro hs; rotate_left)
    | (extract_lets +onlyGivenNames s'; first | (have _e : State → _ := s'; clear _e; subst s') | clear_value s')
    | with_reducible refine State.modBus_touches (by decide) ?_
    | with_reducible refine State.busOut_touches (by decide) ?_
    | with_reducible refine State.identifyOut_touches (by decide) ?_
    | split


theorem State.busFree_touches {m : Nat} {s0 : State} {s : State} {b : Nat} (hk : 0x800 ||| m = m)
    (h : Touches m s0 s) : Touches m s0 (State.busFree s b) := by
  refine Touches.step (k := 0x800) (t := s) ?_ hk h
  clear hk h
  unfold State.busFree
  have h0 := Touches.refl 0x800 s
  repeat' first
    | with_reducible assumption
    | (extract_lets +onlyGivenNames s'; with_reducible refine Touches.cut (t := s') ?_ ?_; subst s'; rotate_left; clear_value s'; intro hs; rotate_left)
    | (extract_lets +onlyGivenNames s'; first | (have _e : State → _ := s'; clear _e; subst s') | clear_value s')
    | with_reducible refine State.modCage_touches (by decide) ?_
    | with_reducible refine State.modBus_touches (by decide) ?_
    | split


theorem State.busStep_touches {m : Nat} {s0 : State} {s : State} {b : Nat} (hk : 0x60800 ||| m = m)
    (h : Touches m s0 s) : Touches m s0 (State.busStep s b) := by
  refine Touches.step (k := 0x60800) (t := s) ?_ hk h
  clear hk h
  unfold State.busStep
  have h0 := Touches.refl 0x60800 s
  repeat' first
    | with_reducible assumption
    | (extract_lets +onlyGivenNames s'; with_reducible refine Touches.cut (t := s') ?_ ?_; subst s'; rotate_left; clear_value s'; intro hs; rotate_left)
    | (extract_lets +onlyGivenNames s'; first | (have _e : State → _ := s'; clear _e; subst s') | clear_value s')
    | with_reducible refine State.modCage_touches (by decide) ?_
    | with_reducible refine State.modBus_touches (by decide) ?_
    | with_reducible refine State.busStart_touches (by decide) ?_
    | with_reducible refine State.busFree_touches (by decide) ?_
    | split


theorem State.busFrame_touches {m : Nat} {s0 : State} {s : State} {b : Nat} (hk : 0x60800 ||| m = m)
    (h : Touches m s0 s) : Touches m s0 (State.busFrame s b) := by
  refine Touches.step (k := 0x60800) (t := s) ?_ hk h
  clear hk h
  unfold State.busFrame
  have h0 := Touches.refl 0x60800 s
  repeat' first
    | with_reducible assumption
    | (extract_lets +onlyGivenNames s'; with_reducible refine Touches.cut (t := s') ?_ ?_; subst s'; rotate_left; clear_value s'; intro hs; rotate_left)
    | (extract_lets +onlyGivenNames s'; first | (have _e : State → _ := s'; clear _e; subst s') | clear_value s')
    | with_reducible refine State.modCage_touches (by decide) ?_
    | with_reducible refine State.busFree_touches (by decide) ?_
    | with_reducible refine State.busStep_touches (by decide) ?_
    | split


theorem State.endModCmd_touches {m : Nat} {s0 : State} {s : State} {status : Nat} (hk : 0x80000000000000000800 ||| m = m)
    (h : Touches m s0 s) : Touches m s0 (State.endModCmd s status) := by
  refine Touches.step (k := 0x80000000000000000800) (t := s) ?_ hk h
  clear hk h
  unfold State.endModCmd
  have h0 := Touches.refl 0x80000000000000000800 s
  repeat' first
    | with_reducible assumption
    | (extract_lets +onlyGivenNames s'; with_reducible refine Touches.cut (t := s') ?_ ?_; subst s'; rotate_left; clear_value s'; intro hs; rotate_left)
    | (extract_lets +onlyGivenNames s'; first | (have _e : State → _ := s'; clear _e; subst s') | clear_value s')
    | with_reducible refine State.modMod_touches (by decide) ?_
    | with_reducible refine Touches.set (by first | decide | assumption | (split <;> decide)) ?_
    | split


theorem State.abandon_touches {m : Nat} {s0 : State} {s : State} {b status : Nat} (hk : 0xC0000000000000060800 ||| m = m)
    (h : Touches m s0 s) : Touches m s0 (State.abandon s b status) := by
  refine Touches.step (k := 0xC0000000000000060800) (t := s) ?_ hk h
  clear hk h
  unfold State.abandon
  have h0 := Touches.refl 0xC0000000000000060800 s
  repeat' first
    | with_reducible assumption
    | (extract_lets +onlyGivenNames s'; with_reducible refine Touches.cut (t := s') ?_ ?_; subst s'; rotate_left; clear_value s'; intro hs; rotate_left)
    | (extract_lets +onlyGivenNames s'; first | (have _e : State → _ := s'; clear _e; subst s') | clear_value s')
    | with_reducible refine State.modBus_touches (by decide) ?_
    | with_reducible refine State.busFree_touches (by decide) ?_
    | with_reducible refine State.busStep_touches (by decide) ?_
    | with_reducible refine State.endModCmd_touches (by decide) ?_
    | with_reducible refine Touches.addSat (by first | decide | assumption | (split <;> decide)) ?_
    | split


theorem State.useInputs_touches {m : Nat} {s0 : State} {s : State} {k : Nat} {b : Byte} (hk : 0x1000000000000000000800 ||| m = m)
    (h : Touches m s0 s) : Touches m s0 (State.useInputs s k b) := by
  refine Touches.step (k := 0x1000000000000000000800) (t := s) ?_ hk h
  clear hk h
  unfold State.useInputs
  have h0 := Touches.refl 0x1000000000000000000800 s
  repeat' first
    | with_reducible assumption
    | (extract_lets +onlyGivenNames s'; with_reducible refine Touches.cut (t := s') ?_ ?_; subst s'; rotate_left; clear_value s'; intro hs; rotate_left)
    | (extract_lets +onlyGivenNames s'; first | (have _e : State → _ := s'; clear _e; subst s') | clear_value s')
    | with_reducible refine State.modCage_touches (by decide) ?_
    | with_reducible refine Touches.set (by first | decide | assumption | (split <;> decide)) ?_
    | split


theorem State.reviewCage_touches {m : Nat} {s0 : State} {s : State} {k : Nat} (hk : 0x100000000000000000000000000000000000000000000000000001200000000000000040880 ||| m = m)
    (h : Touches m s0 s) : Touches m s0 (State.reviewCage s k) := by
  refine Touches.step (k := 0x100000000000000000000000000000000000000000000000000001200000000000000040880) (t := s) ?_ hk h
  clear hk h
  unfold State.reviewCage
  have h0 := Touches.refl 0x100000000000000000000000000000000000000000000000000001200000000000000040880 s
  repeat' first
    | with_reducible assumption
    | (extract_lets +onlyGivenNames s'; with_reducible refine Touches.cut (t := s') ?_ ?_; subst s'; rotate_left; clear_value s'; intro hs; rotate_left)
    | (extract_lets +onlyGivenNames s'; first | (have _e : State → _ := s'; clear _e; subst s') | clear_value s')
    | with_reducible refine State.enterCage_touches (by decide) ?_
    | split


theorem State.reviewCages_touches {m : Nat} {s0 : State} {s : State} (hk : 0x100000000000000000000000000000000000000000000000000001200000000000000040880 ||| m = m)
    (h : Touches m s0 s) : Touches m s0 (State.reviewCages s) := by
  refine Touches.step (k := 0x100000000000000000000000000000000000000000000000000001200000000000000040880) (t := s) ?_ hk h
  clear hk h
  unfold State.reviewCages
  have h0 := Touches.refl 0x100000000000000000000000000000000000000000000000000001200000000000000040880 s
  repeat' first
    | with_reducible assumption
    | (extract_lets +onlyGivenNames s'; with_reducible refine Touches.cut (t := s') ?_ ?_; subst s'; rotate_left; clear_value s'; intro hs; rotate_left)
    | (extract_lets +onlyGivenNames s'; first | (have _e : State → _ := s'; clear _e; subst s') | clear_value s')
    | with_reducible refine Touches.foldl (fun _ _ _ => ?_) ?_
    | with_reducible refine State.reviewCage_touches (by decide) ?_
    | split


theorem State.frameLoaded_touches {m : Nat} {s0 : State} {s : State} {c : Nat} {bytes : List Byte} (hk : 0x100000000000000000000000000000000000000000000000000001220000000000000060880 ||| m = m)
    (h : Touches m s0 s) : Touches m s0 (State.frameLoaded s c bytes) := by
  refine Touches.step (k := 0x100000000000000000000000000000000000000000000000000001220000000000000060880) (t := s) ?_ hk h
  clear hk h
  unfold State.frameLoaded
  have h0 := Touches.refl 0x100000000000000000000000000000000000000000000000000001220000000000000060880 s
  repeat' first
    | with_reducible assumption
    | (extract_lets +onlyGivenNames s'; with_reducible refine Touches.cut (t := s') ?_ ?_; subst s'; rotate_left; clear_value s'; intro hs; rotate_left)
    | (extract_lets +onlyGivenNames s'; first | (have _e : State → _ := s'; clear _e; subst s') | clear_value s')
    | with_reducible refine Touches.foldl (fun _ _ _ => ?_) ?_
    | with_reducible refine State.modCage_touches (by decide) ?_
    | with_reducible refine State.modChain_touches (by decide) ?_
    | with_reducible refine State.busFrame_touches (by decide) ?_
    | with_reducible refine State.useInputs_touches (by decide) ?_
    | with_reducible refine State.reviewCage_touches (by decide) ?_
    | with_reducible refine Touches.set (by first | decide | assumption | (split <;> decide)) ?_
    | split


theorem execSidebandFrame_touches {m : Nat} {s0 : State} {chain : Fin 2} {bytes : List Byte} {check : BitVec 16} {s : State} (hk : 0x1020000000000000100000000000000000000000000000000000000000000000000001220000000000000062880 ||| m = m)
    (h : Touches m s0 s) : Ends m s0 (execSidebandFrame chain bytes check s) := by
  refine Ends.step (k := 0x1020000000000000100000000000000000000000000000000000000000000000000001220000000000000062880) (t := s) ?_ hk h
  clear hk h
  unfold execSidebandFrame
  have h0 := Touches.refl 0x1020000000000000100000000000000000000000000000000000000000000000000001220000000000000062880 s
  repeat' first
    | with_reducible assumption
    | (extract_lets +onlyGivenNames s'; with_reducible refine Touches.cut (t := s') ?_ ?_; subst s'; rotate_left; clear_value s'; intro hs; rotate_left)
    | (extract_lets +onlyGivenNames s'; with_reducible refine Ends.cut (t := s') ?_ ?_; subst s'; rotate_left; clear_value s'; intro hs; rotate_left)
    | with_reducible refine Ends.next ?_
    | (extract_lets +onlyGivenNames s'; first | (have _e : State → _ := s'; clear _e; subst s') | clear_value s')
    | with_reducible refine State.record_touches (by decide) ?_
    | with_reducible refine State.modChain_touches (by decide) ?_
    | with_reducible refine State.frameLoaded_touches (by decide) ?_
    | with_reducible refine Touches.set (by first | decide | assumption | (split <;> decide)) ?_
    | with_reducible refine Touches.addSat (by first | decide | assumption | (split <;> decide)) ?_
    | with_reducible refine Touches.emit (by decide) ?_
    | with_reducible refine Touches.raise (by first | decide | assumption | (split <;> decide)) (by decide) ?_
    | split


theorem execModuleInterrupt_touches {m : Nat} {s0 : State} {cage : Fin 64} {s : State} (hk : 0x100000000000000000000000000000000000000000000000000000200000000000000040880 ||| m = m)
    (h : Touches m s0 s) : Ends m s0 (execModuleInterrupt cage s) := by
  refine Ends.step (k := 0x100000000000000000000000000000000000000000000000000000200000000000000040880) (t := s) ?_ hk h
  clear hk h
  unfold execModuleInterrupt
  have h0 := Touches.refl 0x100000000000000000000000000000000000000000000000000000200000000000000040880 s
  repeat' first
    | with_reducible assumption
    | (extract_lets +onlyGivenNames s'; with_reducible refine Touches.cut (t := s') ?_ ?_; subst s'; rotate_left; clear_value s'; intro hs; rotate_left)
    | (extract_lets +onlyGivenNames s'; with_reducible refine Ends.cut (t := s') ?_ ?_; subst s'; rotate_left; clear_value s'; intro hs; rotate_left)
    | with_reducible refine Ends.next ?_
    | (extract_lets +onlyGivenNames s'; first | (have _e : State → _ := s'; clear _e; subst s') | clear_value s')
    | with_reducible refine State.modCage_touches (by decide) ?_
    | with_reducible refine Touches.raise (by first | decide | assumption | (split <;> decide)) (by decide) ?_
    | split


theorem execCagePresenceDebounced_touches {m : Nat} {s0 : State} {cage : Fin 64} {s : State} (hk : 0x100000000000000000000000000000000000000000000000000001240000000000000060880 ||| m = m)
    (h : Touches m s0 s) : Ends m s0 (execCagePresenceDebounced cage s) := by
  refine Ends.step (k := 0x100000000000000000000000000000000000000000000000000001240000000000000060880) (t := s) ?_ hk h
  clear hk h
  unfold execCagePresenceDebounced
  have h0 := Touches.refl 0x100000000000000000000000000000000000000000000000000001240000000000000060880 s
  repeat' first
    | with_reducible assumption
    | (extract_lets +onlyGivenNames s'; with_reducible refine Touches.cut (t := s') ?_ ?_; subst s'; rotate_left; clear_value s'; intro hs; rotate_left)
    | (extract_lets +onlyGivenNames s'; with_reducible refine Ends.cut (t := s') ?_ ?_; subst s'; rotate_left; clear_value s'; intro hs; rotate_left)
    | with_reducible refine Ends.next ?_
    | (extract_lets +onlyGivenNames s'; first | (have _e : State → _ := s'; clear _e; subst s') | clear_value s')
    | with_reducible refine State.modCage_touches (by decide) ?_
    | with_reducible refine State.refreshBus_touches (by decide) ?_
    | with_reducible refine State.enterCage_touches (by decide) ?_
    | with_reducible refine Touches.set (by first | decide | assumption | (split <;> decide)) ?_
    | with_reducible refine Touches.addSat (by first | decide | assumption | (split <;> decide)) ?_
    | with_reducible refine Touches.raise (by first | decide | assumption | (split <;> decide)) (by decide) ?_
    | split


theorem execCagePwrGood_touches {m : Nat} {s0 : State} {cage : Fin 64} {s : State} (hk : 0x100000000000000000000000000000000000000000000000000001200000000000000040880 ||| m = m)
    (h : Touches m s0 s) : Ends m s0 (execCagePwrGood cage s) := by
  refine Ends.step (k := 0x100000000000000000000000000000000000000000000000000001200000000000000040880) (t := s) ?_ hk h
  clear hk h
  unfold execCagePwrGood
  have h0 := Touches.refl 0x100000000000000000000000000000000000000000000000000001200000000000000040880 s
  repeat' first
    | with_reducible assumption
    | (extract_lets +onlyGivenNames s'; with_reducible refine Touches.cut (t := s') ?_ ?_; subst s'; rotate_left; clear_value s'; intro hs; rotate_left)
    | (extract_lets +onlyGivenNames s'; with_reducible refine Ends.cut (t := s') ?_ ?_; subst s'; rotate_left; clear_value s'; intro hs; rotate_left)
    | with_reducible refine Ends.next ?_
    | (extract_lets +onlyGivenNames s'; first | (have _e : State → _ := s'; clear _e; subst s') | clear_value s')
    | with_reducible refine State.modCage_touches (by decide) ?_
    | with_reducible refine State.enterCage_touches (by decide) ?_
    | split


theorem execCageResetRelease_touches {m : Nat} {s0 : State} {cage : Fin 64} {s : State} (hk : 0x800 ||| m = m)
    (h : Touches m s0 s) : Ends m s0 (execCageResetRelease cage s) := by
  refine Ends.step (k := 0x800) (t := s) ?_ hk h
  clear hk h
  unfold execCageResetRelease
  have h0 := Touches.refl 0x800 s
  repeat' first
    | with_reducible assumption
    | (extract_lets +onlyGivenNames s'; with_reducible refine Touches.cut (t := s') ?_ ?_; subst s'; rotate_left; clear_value s'; intro hs; rotate_left)
    | (extract_lets +onlyGivenNames s'; with_reducible refine Ends.cut (t := s') ?_ ?_; subst s'; rotate_left; clear_value s'; intro hs; rotate_left)
    | with_reducible refine Ends.next ?_
    | (extract_lets +onlyGivenNames s'; first | (have _e : State → _ := s'; clear _e; subst s') | clear_value s')
    | with_reducible refine State.modCage_touches (by decide) ?_
    | split


theorem execModuleLowPowerReached_touches {m : Nat} {s0 : State} {cage : Fin 64} {s : State} (hk : 0x100000000000000000000000000000000000000000000000000001200000000000000060880 ||| m = m)
    (h : Touches m s0 s) : Ends m s0 (execModuleLowPowerReached cage s) := by
  refine Ends.step (k := 0x100000000000000000000000000000000000000000000000000001200000000000000060880) (t := s) ?_ hk h
  clear hk h
  unfold execModuleLowPowerReached
  have h0 := Touches.refl 0x100000000000000000000000000000000000000000000000000001200000000000000060880 s
  repeat' first
    | with_reducible assumption
    | (extract_lets +onlyGivenNames s'; with_reducible refine Touches.cut (t := s') ?_ ?_; subst s'; rotate_left; clear_value s'; intro hs; rotate_left)
    | (extract_lets +onlyGivenNames s'; with_reducible refine Ends.cut (t := s') ?_ ?_; subst s'; rotate_left; clear_value s'; intro hs; rotate_left)
    | with_reducible refine Ends.next ?_
    | (extract_lets +onlyGivenNames s'; first | (have _e : State → _ := s'; clear _e; subst s') | clear_value s')
    | with_reducible refine State.enterCage_touches (by decide) ?_
    | with_reducible refine State.busFree_touches (by decide) ?_
    | with_reducible refine State.busStep_touches (by decide) ?_
    | split


theorem execCageIdentifyDone_touches {m : Nat} {s0 : State} {cage : Fin 64} {id : ModuleId} {s : State} (hk : 0x1020000000000000100000000000000000000000000000000000000000000000000007240000000000000062880 ||| m = m)
    (h : Touches m s0 s) : Ends m s0 (execCageIdentifyDone cage id s) := by
  refine Ends.step (k := 0x1020000000000000100000000000000000000000000000000000000000000000000007240000000000000062880) (t := s) ?_ hk h
  clear hk h
  unfold execCageIdentifyDone
  have h0 := Touches.refl 0x1020000000000000100000000000000000000000000000000000000000000000000007240000000000000062880 s
  repeat' first
    | with_reducible assumption
    | (extract_lets +onlyGivenNames s'; with_reducible refine Touches.cut (t := s') ?_ ?_; subst s'; rotate_left; clear_value s'; intro hs; rotate_left)
    | (extract_lets +onlyGivenNames s'; with_reducible refine Ends.cut (t := s') ?_ ?_; subst s'; rotate_left; clear_value s'; intro hs; rotate_left)
    | with_reducible refine Ends.next ?_
    | (extract_lets +onlyGivenNames s'; first | (have _e : State → _ := s'; clear _e; subst s') | clear_value s')
    | with_reducible refine State.record_touches (by decide) ?_
    | with_reducible refine State.modCage_touches (by decide) ?_
    | with_reducible refine State.refreshBus_touches (by decide) ?_
    | with_reducible refine State.enterCage_touches (by decide) ?_
    | with_reducible refine State.lifeRecord_touches (by decide) ?_
    | with_reducible refine State.showLife_touches (by decide) ?_
    | with_reducible refine State.busFree_touches (by decide) ?_
    | with_reducible refine State.busStep_touches (by decide) ?_
    | with_reducible refine Touches.set (by first | decide | assumption | (split <;> decide)) ?_
    | split


theorem execCageActivate_touches {m : Nat} {s0 : State} {cage : Fin 64} {s : State} (hk : 0x100000000000000000000000000000000000000000000000000001200000040000000060880 ||| m = m)
    (h : Touches m s0 s) : Ends m s0 (execCageActivate cage s) := by
  refine Ends.step (k := 0x100000000000000000000000000000000000000000000000000001200000040000000060880) (t := s) ?_ hk h
  clear hk h
  unfold execCageActivate
  have h0 := Touches.refl 0x100000000000000000000000000000000000000000000000000001200000040000000060880 s
  repeat' first
    | with_reducible assumption
    | (extract_lets +onlyGivenNames s'; with_reducible refine Touches.cut (t := s') ?_ ?_; subst s'; rotate_left; clear_value s'; intro hs; rotate_left)
    | (extract_lets +onlyGivenNames s'; with_reducible refine Ends.cut (t := s') ?_ ?_; subst s'; rotate_left; clear_value s'; intro hs; rotate_left)
    | with_reducible refine Ends.next ?_
    | (extract_lets +onlyGivenNames s'; first | (have _e : State → _ := s'; clear _e; subst s') | clear_value s')
    | with_reducible refine Touches.foldl (fun _ _ _ => ?_) ?_
    | with_reducible refine State.writeFir_touches (by decide) ?_
    | with_reducible refine State.modCage_touches (by decide) ?_
    | with_reducible refine State.enterCage_touches (by decide) ?_
    | with_reducible refine State.busStep_touches (by decide) ?_
    | split


theorem execCageTimeout_touches {m : Nat} {s0 : State} {cage : Fin 64} {failed : Bool} {s : State} (hk : 0x100000000000000000000000000000000000000000000000000001200000000000000040880 ||| m = m)
    (h : Touches m s0 s) : Ends m s0 (execCageTimeout cage failed s) := by
  refine Ends.step (k := 0x100000000000000000000000000000000000000000000000000001200000000000000040880) (t := s) ?_ hk h
  clear hk h
  unfold execCageTimeout
  have h0 := Touches.refl 0x100000000000000000000000000000000000000000000000000001200000000000000040880 s
  repeat' first
    | with_reducible assumption
    | (extract_lets +onlyGivenNames s'; with_reducible refine Touches.cut (t := s') ?_ ?_; subst s'; rotate_left; clear_value s'; intro hs; rotate_left)
    | (extract_lets +onlyGivenNames s'; with_reducible refine Ends.cut (t := s') ?_ ?_; subst s'; rotate_left; clear_value s'; intro hs; rotate_left)
    | with_reducible refine Ends.next ?_
    | (extract_lets +onlyGivenNames s'; first | (have _e : State → _ := s'; clear _e; subst s') | clear_value s')
    | with_reducible refine State.modCage_touches (by decide) ?_
    | with_reducible refine State.enterCage_touches (by decide) ?_
    | with_reducible refine State.busFree_touches (by decide) ?_
    | with_reducible refine Touches.set (by first | decide | assumption | (split <;> decide)) ?_
    | split


theorem State.dropTransfers_touches {m : Nat} {s0 s : State} {k status : Nat} (hk : 0xC0000000000000060800 ||| m = m)
    (h : Touches m s0 s) : Touches m s0 (State.dropTransfers s k status) := by
  refine Touches.step (k := 0xC0000000000000060800) (t := s) ?_ hk h
  clear hk h
  have h0 := Touches.refl 0xC0000000000000060800 s
  unfold State.dropTransfers
  extract_lets u
  have hu : Touches 0xC0000000000000060800 s u := by
    unfold u
    split
    · split
      · exact State.abandon_touches (by decide) h0
      · exact h0
    · exact h0
  split
  · exact State.endModCmd_touches (by decide) hu
  · exact hu


theorem State.removalStatus_touches {m : Nat} {s0 : State} {s : State} (hk : 0x20000 ||| m = m)
    (h : Touches m s0 s) : Touches m s0 (State.removalStatus s).2 := State.draw_touches hk h

theorem State.removalStatus_touches_eq {m : Nat} {s0 t₁ : State} {s : State} {a₁ : Nat} (e₁ : State.removalStatus s = (a₁, t₁))
    (hk : 0x20000 ||| m = m) (h : Touches m s0 s) : Touches m s0 t₁ := Touches.snd e₁ (State.removalStatus_touches hk h)

theorem execModuleRemove_touches {m : Nat} {s0 : State} {cage : Fin 64} {s : State} (hk : 0x10200000000000001000000000000000000000000000000000000000000000000000072C0000000000000062880 ||| m = m)
    (h : Touches m s0 s) : Ends m s0 (execModuleRemove cage s) := by
  refine Ends.step (k := 0x10200000000000001000000000000000000000000000000000000000000000000000072C0000000000000062880) (t := s) ?_ hk h
  clear hk h
  unfold execModuleRemove
  have h0 := Touches.refl 0x10200000000000001000000000000000000000000000000000000000000000000000072C0000000000000062880 s
  repeat' first
    | with_reducible assumption
    | (extract_lets +onlyGivenNames s'; with_reducible refine Touches.cut (t := s') ?_ ?_; subst s'; rotate_left; clear_value s'; intro hs; rotate_left)
    | (extract_lets +onlyGivenNames s'; with_reducible refine Ends.cut (t := s') ?_ ?_; subst s'; rotate_left; clear_value s'; intro hs; rotate_left)
    | with_reducible refine Ends.next ?_
    | (extract_lets +onlyGivenNames s'; first | (have _e : State → _ := s'; clear _e; subst s') | clear_value s')
    | with_reducible refine State.removalStatus_touches_eq (by assumption) (by decide) ?_
    | with_reducible refine State.removalStatus_touches (by decide) ?_
    | with_reducible refine State.record_touches (by decide) ?_
    | with_reducible refine State.modCage_touches (by decide) ?_
    | with_reducible refine State.refreshBus_touches (by decide) ?_
    | with_reducible refine State.enterCage_touches (by decide) ?_
    | with_reducible refine State.lifeRecord_touches (by decide) ?_
    | with_reducible refine State.dropTransfers_touches (by decide) ?_
    | with_reducible refine Touches.set (by first | decide | assumption | (split <;> decide)) ?_
    | with_reducible refine Touches.setReg (by first | decide | assumption | (split <;> decide)) ?_
    | with_reducible refine Touches.raise (by first | decide | assumption | (split <;> decide)) (by decide) ?_
    | with_reducible refine State.busStep_touches (by decide) ?_
    | split


theorem execModBusError_touches {m : Nat} {s0 : State} {bus : Fin 8} {removed : Bool} {s : State} (hk : 0xC0000000000000060800 ||| m = m)
    (h : Touches m s0 s) : Ends m s0 (execModBusError bus removed s) := by
  refine Ends.step (k := 0xC0000000000000060800) (t := s) ?_ hk h
  clear hk h
  unfold execModBusError
  have h0 := Touches.refl 0xC0000000000000060800 s
  repeat' first
    | with_reducible assumption
    | (extract_lets +onlyGivenNames s'; with_reducible refine Touches.cut (t := s') ?_ ?_; subst s'; rotate_left; clear_value s'; intro hs; rotate_left)
    | (extract_lets +onlyGivenNames s'; with_reducible refine Ends.cut (t := s') ?_ ?_; subst s'; rotate_left; clear_value s'; intro hs; rotate_left)
    | with_reducible refine Ends.next ?_
    | (extract_lets +onlyGivenNames s'; first | (have _e : State → _ := s'; clear _e; subst s') | clear_value s')
    | with_reducible refine State.removalStatus_touches_eq (by assumption) (by decide) ?_
    | with_reducible refine State.removalStatus_touches (by decide) ?_
    | with_reducible refine State.abandon_touches (by decide) ?_
    | with_reducible refine State.busStep_touches (by decide) ?_
    | split


theorem execLifeSample_touches {m : Nat} {s0 : State} {cage : Fin 64} {temp : Int} {bias : List Nat} {age : Option (Fin 101)} {s : State} (hk : 0x1020000000000000100000000000000000000000000000000000000000000000000004200000000000000062880 ||| m = m)
    (h : Touches m s0 s) : Ends m s0 (execLifeSample cage temp bias age s) := by
  refine Ends.step (k := 0x1020000000000000100000000000000000000000000000000000000000000000000004200000000000000062880) (t := s) ?_ hk h
  clear hk h
  unfold execLifeSample
  have h0 := Touches.refl 0x1020000000000000100000000000000000000000000000000000000000000000000004200000000000000062880 s
  repeat' first
    | with_reducible assumption
    | (extract_lets +onlyGivenNames s'; with_reducible refine Touches.cut (t := s') ?_ ?_; subst s'; rotate_left; clear_value s'; intro hs; rotate_left)
    | (extract_lets +onlyGivenNames s'; with_reducible refine Ends.cut (t := s') ?_ ?_; subst s'; rotate_left; clear_value s'; intro hs; rotate_left)
    | with_reducible refine Ends.next ?_
    | (extract_lets +onlyGivenNames s'; first | (have _e : State → _ := s'; clear _e; subst s') | clear_value s')
    | with_reducible refine State.modCage_touches (by decide) ?_
    | with_reducible refine State.showLife_touches (by decide) ?_
    | with_reducible refine State.lifeWarn_touches (by decide) ?_
    | with_reducible refine State.busFree_touches (by decide) ?_
    | with_reducible refine State.busStep_touches (by decide) ?_
    | split


theorem execLifeCheckpoint_touches {m : Nat} {s0 : State} {cage : Fin 64} {s : State} (hk : 0x1020000000000000100000000000000000000000000000000000000000000000000000000000000000000042880 ||| m = m)
    (h : Touches m s0 s) : Ends m s0 (execLifeCheckpoint cage s) := by
  refine Ends.step (k := 0x1020000000000000100000000000000000000000000000000000000000000000000000000000000000000042880) (t := s) ?_ hk h
  clear hk h
  unfold execLifeCheckpoint
  have h0 := Touches.refl 0x1020000000000000100000000000000000000000000000000000000000000000000000000000000000000042880 s
  repeat' first
    | with_reducible assumption
    | (extract_lets +onlyGivenNames s'; with_reducible refine Touches.cut (t := s') ?_ ?_; subst s'; rotate_left; clear_value s'; intro hs; rotate_left)
    | (extract_lets +onlyGivenNames s'; with_reducible refine Ends.cut (t := s') ?_ ?_; subst s'; rotate_left; clear_value s'; intro hs; rotate_left)
    | with_reducible refine Ends.next ?_
    | (extract_lets +onlyGivenNames s'; first | (have _e : State → _ := s'; clear _e; subst s') | clear_value s')
    | with_reducible refine State.lifeRecord_touches (by decide) ?_
    | split


theorem execModCmd_touches {m : Nat} {s0 : State} {value : Word} {s : State} (hk : 0x80000000000000060800 ||| m = m)
    (h : Touches m s0 s) : Ends m s0 (execModCmd value s) := by
  refine Ends.step (k := 0x80000000000000060800) (t := s) ?_ hk h
  clear hk h
  unfold execModCmd
  have h0 := Touches.refl 0x80000000000000060800 s
  repeat' first
    | with_reducible assumption
    | (extract_lets +onlyGivenNames s'; with_reducible refine Touches.cut (t := s') ?_ ?_; subst s'; rotate_left; clear_value s'; intro hs; rotate_left)
    | (extract_lets +onlyGivenNames s'; with_reducible refine Ends.cut (t := s') ?_ ?_; subst s'; rotate_left; clear_value s'; intro hs; rotate_left)
    | with_reducible refine Ends.next ?_
    | (extract_lets +onlyGivenNames s'; first | (have _e : State → _ := s'; clear _e; subst s') | clear_value s')
    | with_reducible refine Touches.foldl_mem (fun s'' f'' hf'' hs'' => ?_) ?_
    | with_reducible refine Touches.foldl (fun _ _ _ => ?_) ?_
    | with_reducible refine State.modMod_touches (by decide) ?_
    | with_reducible refine State.busStep_touches (by decide) ?_
    | with_reducible refine Touches.set (by first | decide | (clear hs''; revert f''; decide)) ?_
    | split


theorem execModCmdDone_touches {m : Nat} {s0 : State} {outcome : BusEnd} {data : List Byte} {s : State} (hk : 0x180000000000000060800 ||| m = m)
    (h : Touches m s0 s) : Ends m s0 (execModCmdDone outcome data s) := by
  refine Ends.step (k := 0x180000000000000060800) (t := s) ?_ hk h
  clear hk h
  unfold execModCmdDone
  have h0 := Touches.refl 0x180000000000000060800 s
  repeat' first
    | with_reducible assumption
    | (extract_lets +onlyGivenNames s'; with_reducible refine Touches.cut (t := s') ?_ ?_; subst s'; rotate_left; clear_value s'; intro hs; rotate_left)
    | (extract_lets +onlyGivenNames s'; with_reducible refine Ends.cut (t := s') ?_ ?_; subst s'; rotate_left; clear_value s'; intro hs; rotate_left)
    | with_reducible refine Ends.next ?_
    | (extract_lets +onlyGivenNames s'; first | (have _e : State → _ := s'; clear _e; subst s') | clear_value s')
    | with_reducible refine State.busFree_touches (by decide) ?_
    | with_reducible refine State.busStep_touches (by decide) ?_
    | with_reducible refine State.endModCmd_touches (by decide) ?_
    | with_reducible refine Touches.set (by first | decide | assumption | (split <;> decide)) ?_
    | split


theorem State.startChains_touches {m : Nat} {s0 : State} {s : State} (hk : 0x800 ||| m = m)
    (h : Touches m s0 s) : Touches m s0 (State.startChains s) := by
  refine Touches.step (k := 0x800) (t := s) ?_ hk h
  clear hk h
  unfold State.startChains
  have h0 := Touches.refl 0x800 s
  repeat' first
    | with_reducible assumption
    | (extract_lets +onlyGivenNames s'; with_reducible refine Touches.cut (t := s') ?_ ?_; subst s'; rotate_left; clear_value s'; intro hs; rotate_left)
    | (extract_lets +onlyGivenNames s'; first | (have _e : State → _ := s'; clear _e; subst s') | (have _e : ModBlock := s'; clear _e; subst s') | clear_value s')
    | split
    | with_reducible refine Touches.upd_mod (by decide) ?_


end Sys2Proof.Machine
end

