-- ==== Sys2Proof/Laws/TouchesMac.lean ====
section
/-!
SUPPORT. What the operations of Mac.lean can touch.
-/

namespace Sys2Proof.Machine

set_option linter.all false

theorem State.setFill_touches {m : Nat} {s0 : State} {s : State} {p n : Nat} (hk : 0x2000004 ||| m = m)
    (h : Touches m s0 s) : Touches m s0 (State.setFill s p n) := by
  refine Touches.step (k := 0x2000004) (t := s) ?_ hk h
  clear hk h
  unfold State.setFill
  have h0 := Touches.refl 0x2000004 s
  repeat' first
    | with_reducible assumption
    | (extract_lets +onlyGivenNames s'; with_reducible refine Touches.cut (t := s') ?_ ?_; subst s'; rotate_left; clear_value s'; intro hs; rotate_left)
    | (extract_lets +onlyGivenNames s'; first | (have _e : State → _ := s'; clear _e; subst s') | clear_value s')
    | with_reducible refine State.modPipe_touches (by decide) ?_
    | with_reducible refine Touches.set (by first | decide | assumption | (split <;> decide)) ?_
    | split


theorem execIfifoXoff_touches {m : Nat} {s0 : State} {pipe : PipeNo} {s : State} (hk : 0x100000000000000000000000000000000000000000000000000080000000000000002040080 ||| m = m)
    (h : Touches m s0 s) : Ends m s0 (execIfifoXoff pipe s) := by
  refine Ends.step (k := 0x100000000000000000000000000000000000000000000000000080000000000000002040080) (t := s) ?_ hk h
  clear hk h
  unfold execIfifoXoff
  have h0 := Touches.refl 0x100000000000000000000000000000000000000000000000000080000000000000002040080 s
  repeat' first
    | with_reducible assumption
    | (extract_lets +onlyGivenNames s'; with_reducible refine Touches.cut (t := s') ?_ ?_; subst s'; rotate_left; clear_value s'; intro hs; rotate_left)
    | (extract_lets +onlyGivenNames s'; with_reducible refine Ends.cut (t := s') ?_ ?_; subst s'; rotate_left; clear_value s'; intro hs; rotate_left)
    | with_reducible refine Ends.next ?_
    | (extract_lets +onlyGivenNames s'; first | (have _e : State → _ := s'; clear _e; subst s') | clear_value s')
    | with_reducible refine Touches.set (by first | decide | assumption | (split <;> decide)) ?_
    | with_reducible refine Touches.addSat (by first | decide | assumption | (split <;> decide)) ?_
    | with_reducible refine Touches.raise (by first | decide | assumption | (split <;> decide)) (by decide) ?_
    | split


theorem execIfifoXon_touches {m : Nat} {s0 : State} {pipe : PipeNo} {s : State} (hk : 0x2000000 ||| m = m)
    (h : Touches m s0 s) : Ends m s0 (execIfifoXon pipe s) := by
  refine Ends.step (k := 0x2000000) (t := s) ?_ hk h
  clear hk h
  unfold execIfifoXon
  have h0 := Touches.refl 0x2000000 s
  repeat' first
    | with_reducible assumption
    | (extract_lets +onlyGivenNames s'; with_reducible refine Touches.cut (t := s') ?_ ?_; subst s'; rotate_left; clear_value s'; intro hs; rotate_left)
    | (extract_lets +onlyGivenNames s'; with_reducible refine Ends.cut (t := s') ?_ ?_; subst s'; rotate_left; clear_value s'; intro hs; rotate_left)
    | with_reducible refine Ends.next ?_
    | (extract_lets +onlyGivenNames s'; first | (have _e : State → _ := s'; clear _e; subst s') | clear_value s')
    | with_reducible refine Touches.set (by first | decide | assumption | (split <;> decide)) ?_
    | split


theorem State.refuseRx_touches {m : Nat} {s0 : State} {s : State} {x p : Nat} {lossless : Bool} {bytes : List Byte} (hk : 0x80000000100000000000000110200000000000000000000000000000000000000000000000004060184 ||| m = m)
    (h : Touches m s0 s) : Touches m s0 (State.refuseRx s x p lossless bytes) := by
  refine Touches.step (k := 0x80000000100000000000000110200000000000000000000000000000000000000000000000004060184) (t := s) ?_ hk h
  clear hk h
  unfold State.refuseRx
  have h0 := Touches.refl 0x80000000100000000000000110200000000000000000000000000000000000000000000000004060184 s
  repeat' first
    | with_reducible assumption
    | (extract_lets +onlyGivenNames s'; with_reducible refine Touches.cut (t := s') ?_ ?_; subst s'; rotate_left; clear_value s'; intro hs; rotate_left)
    | (extract_lets +onlyGivenNames s'; first | (have _e : State → _ := s'; clear _e; subst s') | clear_value s')
    | with_reducible refine State.modPort_touches (by decide) ?_
    | with_reducible refine State.countDropOf_touches (by decide) ?_
    | with_reducible refine Touches.addSat (by first | decide | assumption | (split <;> decide)) ?_
    | split


theorem execRxFrameStart_touches {m : Nat} {s0 : State} {port : PortNo} {bytes : List Byte} {arrived : Nat} {phase : Fin 4} {s : State} (hk : 0x80000000100000000000000110200000000000000000000000000000000000000000000000006060184 ||| m = m)
    (h : Touches m s0 s) : Ends m s0 (execRxFrameStart port bytes arrived phase s) := by
  refine Ends.step (k := 0x80000000100000000000000110200000000000000000000000000000000000000000000000006060184) (t := s) ?_ hk h
  clear hk h
  unfold execRxFrameStart
  have h0 := Touches.refl 0x80000000100000000000000110200000000000000000000000000000000000000000000000006060184 s
  repeat' first
    | with_reducible assumption
    | (extract_lets +onlyGivenNames s'; with_reducible refine Touches.cut (t := s') ?_ ?_; subst s'; rotate_left; clear_value s'; intro hs; rotate_left)
    | (extract_lets +onlyGivenNames s'; with_reducible refine Ends.cut (t := s') ?_ ?_; subst s'; rotate_left; clear_value s'; intro hs; rotate_left)
    | with_reducible refine Ends.next ?_
    | (extract_lets +onlyGivenNames s'; first | (have _e : State → _ := s'; clear _e; subst s') | (have _e : Switch := s'; clear _e; subst s') | clear_value s')
    | with_reducible refine State.modPipe_touches (by decide) ?_
    | with_reducible refine State.modPort_touches (by decide) ?_
    | with_reducible refine State.putPacket_touches (by decide) ?_
    | with_reducible refine State.setFill_touches (by decide) ?_
    | with_reducible refine State.refuseRx_touches (by decide) ?_
    | with_reducible refine Touches.set (by first | decide | assumption | (split <;> decide)) ?_
    | split
    | with_reducible refine Touches.upd_sw (by decide) rfl ?_


theorem State.arrive_touches {m : Nat} {s0 : State} {s : State} {k n : Nat} (hk : 0x2000004 ||| m = m)
    (h : Touches m s0 s) : Touches m s0 (State.arrive s k n) := by
  refine Touches.step (k := 0x2000004) (t := s) ?_ hk h
  clear hk h
  unfold State.arrive
  have h0 := Touches.refl 0x2000004 s
  repeat' first
    | with_reducible assumption
    | (extract_lets +onlyGivenNames s'; with_reducible refine Touches.cut (t := s') ?_ ?_; subst s'; rotate_left; clear_value s'; intro hs; rotate_left)
    | (extract_lets +onlyGivenNames s'; first | (have _e : State → _ := s'; clear _e; subst s') | clear_value s')
    | with_reducible refine State.modPipe_touches (by decide) ?_
    | with_reducible refine State.putPacket_touches (by decide) ?_
    | with_reducible refine State.setFill_touches (by decide) ?_
    | split


theorem State.leaveFifo_touches {m : Nat} {s0 : State} {s : State} {k n : Nat} (hk : 0x2000004 ||| m = m)
    (h : Touches m s0 s) : Touches m s0 (State.leaveFifo s k n) := by
  refine Touches.step (k := 0x2000004) (t := s) ?_ hk h
  clear hk h
  unfold State.leaveFifo
  have h0 := Touches.refl 0x2000004 s
  repeat' first
    | with_reducible assumption
    | (extract_lets +onlyGivenNames s'; with_reducible refine Touches.cut (t := s') ?_ ?_; subst s'; rotate_left; clear_value s'; intro hs; rotate_left)
    | (extract_lets +onlyGivenNames s'; first | (have _e : State → _ := s'; clear _e; subst s') | clear_value s')
    | with_reducible refine State.putPacket_touches (by decide) ?_
    | with_reducible refine State.setFill_touches (by decide) ?_
    | split


theorem State.discard_touches {m : Nat} {s0 : State} {s : State} {k : Nat} (hk : 0x2000004 ||| m = m)
    (h : Touches m s0 s) : Touches m s0 (State.discard s k) := by
  refine Touches.step (k := 0x2000004) (t := s) ?_ hk h
  clear hk h
  unfold State.discard
  have h0 := Touches.refl 0x2000004 s
  repeat' first
    | with_reducible assumption
    | (extract_lets +onlyGivenNames s'; with_reducible refine Touches.cut (t := s') ?_ ?_; subst s'; rotate_left; clear_value s'; intro hs; rotate_left)
    | (extract_lets +onlyGivenNames s'; first | (have _e : State → _ := s'; clear _e; subst s') | clear_value s')
    | with_reducible refine State.putPacket_touches (by decide) ?_
    | with_reducible refine State.delPacket_touches (by decide) ?_
    | with_reducible refine State.leaveFifo_touches (by decide) ?_
    | split


theorem State.stompCopies_touches {m : Nat} {s0 : State} {s : State} {k : Nat} (hk : 0x4 ||| m = m)
    (h : Touches m s0 s) : Touches m s0 (State.stompCopies s k) := by
  refine Touches.step (k := 0x4) (t := s) ?_ hk h
  clear hk h
  unfold State.stompCopies
  have h0 := Touches.refl 0x4 s
  repeat' first
    | with_reducible assumption
    | (extract_lets +onlyGivenNames s'; with_reducible refine Touches.cut (t := s') ?_ ?_; subst s'; rotate_left; clear_value s'; intro hs; rotate_left)
    | (extract_lets +onlyGivenNames s'; first | (have _e : State → _ := s'; clear _e; subst s') | clear_value s')
    | with_reducible refine Touches.foldl (fun _ _ _ => ?_) ?_
    | with_reducible refine State.modFlight_touches (by decide) ?_
    | split


theorem State.rxEnd_touches {m : Nat} {s0 : State} {s : State} {x : Nat} {e : RxEnd} (hk : 0x80000000100000000000000110200000000000000000000000000000000000004000000000002061184 ||| m = m)
    (h : Touches m s0 s) : Touches m s0 (State.rxEnd s x e) := by
  refine Touches.step (k := 0x80000000100000000000000110200000000000000000000000000000000000004000000000002061184) (t := s) ?_ hk h
  clear hk h
  unfold State.rxEnd
  have h0 := Touches.refl 0x80000000100000000000000110200000000000000000000000000000000000004000000000002061184 s
  repeat' first
    | with_reducible assumption
    | (extract_lets +onlyGivenNames s'; with_reducible refine Touches.cut (t := s') ?_ ?_; subst s'; rotate_left; clear_value s'; intro hs; rotate_left)
    | (extract_lets +onlyGivenNames s'; first | (have _e : State → _ := s'; clear _e; subst s') | clear_value s')
    | with_reducible refine State.portCount_touches (by decide) ?_
    | with_reducible refine State.modPipe_touches (by decide) ?_
    | with_reducible refine State.modPort_touches (by decide) ?_
    | with_reducible refine State.modPacket_touches (by decide) ?_
    | with_reducible refine State.spend_touches (by decide) ?_
    | with_reducible refine State.dropPacket_touches (by decide) ?_
    | with_reducible refine State.arrive_touches (by decide) ?_
    | with_reducible refine State.discard_touches (by decide) ?_
    | with_reducible refine State.stompCopies_touches (by decide) ?_
    | split


theorem execRxFrameEnd_touches {m : Nat} {s0 : State} {port : PortNo} {e : RxEnd} {s : State} (hk : 0x80000000100000000000000110200000000000000000000000000000000000004000000000002061184 ||| m = m)
    (h : Touches m s0 s) : Ends m s0 (execRxFrameEnd port e s) := by
  refine Ends.step (k := 0x80000000100000000000000110200000000000000000000000000000000000004000000000002061184) (t := s) ?_ hk h
  clear hk h
  unfold execRxFrameEnd
  have h0 := Touches.refl 0x80000000100000000000000110200000000000000000000000000000000000004000000000002061184 s
  repeat' first
    | with_reducible assumption
    | (extract_lets +onlyGivenNames s'; with_reducible refine Touches.cut (t := s') ?_ ?_; subst s'; rotate_left; clear_value s'; intro hs; rotate_left)
    | (extract_lets +onlyGivenNames s'; with_reducible refine Ends.cut (t := s') ?_ ?_; subst s'; rotate_left; clear_value s'; intro hs; rotate_left)
    | with_reducible refine Ends.next ?_
    | (extract_lets +onlyGivenNames s'; first | (have _e : State → _ := s'; clear _e; subst s') | clear_value s')
    | with_reducible refine State.rxEnd_touches (by decide) ?_
    | split


theorem execPfcFrameTx_touches {m : Nat} {s0 : State} {port : PortNo} {s : State} (hk : 0x4100000000000040004 ||| m = m)
    (h : Touches m s0 s) : Ends m s0 (execPfcFrameTx port s) := by
  refine Ends.step (k := 0x4100000000000040004) (t := s) ?_ hk h
  clear hk h
  unfold execPfcFrameTx
  have h0 := Touches.refl 0x4100000000000040004 s
  repeat' first
    | with_reducible assumption
    | (extract_lets +onlyGivenNames s'; with_reducible refine Touches.cut (t := s') ?_ ?_; subst s'; rotate_left; clear_value s'; intro hs; rotate_left)
    | (extract_lets +onlyGivenNames s'; with_reducible refine Ends.cut (t := s') ?_ ?_; subst s'; rotate_left; clear_value s'; intro hs; rotate_left)
    | with_reducible refine Ends.next ?_
    | (extract_lets +onlyGivenNames s'; first | (have _e : State → _ := s'; clear _e; subst s') | clear_value s')
    | with_reducible refine Touches.foldl (fun _ _ _ => ?_) ?_
    | with_reducible refine State.portCount_touches (by decide) ?_
    | with_reducible refine State.modPort_touches (by decide) ?_
    | with_reducible refine State.sendFrame_touches (by decide) ?_
    | with_reducible refine Touches.set (by first | decide | assumption | (split <;> decide)) ?_
    | split


theorem execPfcRefresh_touches {m : Nat} {s0 : State} {port : PortNo} {prio : Fin 8} {s : State} (hk : 0x4 ||| m = m)
    (h : Touches m s0 s) : Ends m s0 (execPfcRefresh port prio s) := by
  refine Ends.step (k := 0x4) (t := s) ?_ hk h
  clear hk h
  unfold execPfcRefresh
  have h0 := Touches.refl 0x4 s
  repeat' first
    | with_reducible assumption
    | (extract_lets +onlyGivenNames s'; with_reducible refine Touches.cut (t := s') ?_ ?_; subst s'; rotate_left; clear_value s'; intro hs; rotate_left)
    | (extract_lets +onlyGivenNames s'; with_reducible refine Ends.cut (t := s') ?_ ?_; subst s'; rotate_left; clear_value s'; intro hs; rotate_left)
    | with_reducible refine Ends.next ?_
    | (extract_lets +onlyGivenNames s'; first | (have _e : State → _ := s'; clear _e; subst s') | clear_value s')
    | with_reducible refine State.modPort_touches (by decide) ?_
    | split


theorem State.unpause_touches {m : Nat} {s0 : State} {s : State} {x p : Nat} (hk : 0x100000000000000004 ||| m = m)
    (h : Touches m s0 s) : Touches m s0 (State.unpause s x p) := by
  refine Touches.step (k := 0x100000000000000004) (t := s) ?_ hk h
  clear hk h
  unfold State.unpause
  have h0 := Touches.refl 0x100000000000000004 s
  repeat' first
    | with_reducible assumption
    | (extract_lets +onlyGivenNames s'; with_reducible refine Touches.cut (t := s') ?_ ?_; subst s'; rotate_left; clear_value s'; intro hs; rotate_left)
    | (extract_lets +onlyGivenNames s'; first | (have _e : State → _ := s'; clear _e; subst s') | clear_value s')
    | with_reducible refine State.modPort_touches (by decide) ?_
    | with_reducible refine Touches.set (by first | decide | assumption | (split <;> decide)) ?_
    | split


theorem State.pause_touches {m : Nat} {s0 : State} {s : State} {x p ticks : Nat} (hk : 0x100000000000000004 ||| m = m)
    (h : Touches m s0 s) : Touches m s0 (State.pause s x p ticks) := by
  refine Touches.step (k := 0x100000000000000004) (t := s) ?_ hk h
  clear hk h
  unfold State.pause
  have h0 := Touches.refl 0x100000000000000004 s
  repeat' first
    | with_reducible assumption
    | (extract_lets +onlyGivenNames s'; with_reducible refine Touches.cut (t := s') ?_ ?_; subst s'; rotate_left; clear_value s'; intro hs; rotate_left)
    | (extract_lets +onlyGivenNames s'; first | (have _e : State → _ := s'; clear _e; subst s') | clear_value s')
    | with_reducible refine State.modPort_touches (by decide) ?_
    | with_reducible refine Touches.set (by first | decide | assumption | (split <;> decide)) ?_
    | split


theorem execPfcRx_touches {m : Nat} {s0 : State} {port : PortNo} {enable : BitVec 8} {times : List Nat} {s : State} (hk : 0x4100000000000000004 ||| m = m)
    (h : Touches m s0 s) : Ends m s0 (execPfcRx port enable times s) := by
  refine Ends.step (k := 0x4100000000000000004) (t := s) ?_ hk h
  clear hk h
  unfold execPfcRx
  have h0 := Touches.refl 0x4100000000000000004 s
  repeat' first
    | with_reducible assumption
    | with_reducible refine Touches.foldl (fun _ _ _ => ?_) ?_
    | (extract_lets +onlyGivenNames s'; with_reducible refine Touches.cut (t := s') ?_ ?_; subst s'; rotate_left; clear_value s'; intro hs; rotate_left)
    | (extract_lets +onlyGivenNames s'; with_reducible refine Ends.cut (t := s') ?_ ?_; subst s'; rotate_left; clear_value s'; intro hs; rotate_left)
    | with_reducible refine Ends.next ?_
    | (extract_lets +onlyGivenNames s'; first | (have _e : State → _ := s'; clear _e; subst s') | clear_value s')
    | with_reducible refine State.portCount_touches (by decide) ?_
    | with_reducible refine State.unpause_touches (by decide) ?_
    | with_reducible refine State.pause_touches (by decide) ?_
    | split


theorem execPauseTimerExpiry_touches {m : Nat} {s0 : State} {port : PortNo} {prio : Fin 8} {s : State} (hk : 0x100000000000000004 ||| m = m)
    (h : Touches m s0 s) : Ends m s0 (execPauseTimerExpiry port prio s) := by
  refine Ends.step (k := 0x100000000000000004) (t := s) ?_ hk h
  clear hk h
  unfold execPauseTimerExpiry
  have h0 := Touches.refl 0x100000000000000004 s
  repeat' first
    | with_reducible assumption
    | (extract_lets +onlyGivenNames s'; with_reducible refine Touches.cut (t := s') ?_ ?_; subst s'; rotate_left; clear_value s'; intro hs; rotate_left)
    | (extract_lets +onlyGivenNames s'; with_reducible refine Ends.cut (t := s') ?_ ?_; subst s'; rotate_left; clear_value s'; intro hs; rotate_left)
    | with_reducible refine Ends.next ?_
    | (extract_lets +onlyGivenNames s'; first | (have _e : State → _ := s'; clear _e; subst s') | clear_value s')
    | with_reducible refine State.unpause_touches (by decide) ?_
    | split


theorem execMacControlIgnored_touches {m : Nat} {s0 : State} {port : PortNo} {s : State} (hk : 0x4000000000000000000 ||| m = m)
    (h : Touches m s0 s) : Ends m s0 (execMacControlIgnored port s) := by
  refine Ends.step (k := 0x4000000000000000000) (t := s) ?_ hk h
  clear hk h
  unfold execMacControlIgnored
  have h0 := Touches.refl 0x4000000000000000000 s
  repeat' first
    | with_reducible assumption
    | (extract_lets +onlyGivenNames s'; with_reducible refine Touches.cut (t := s') ?_ ?_; subst s'; rotate_left; clear_value s'; intro hs; rotate_left)
    | (extract_lets +onlyGivenNames s'; with_reducible refine Ends.cut (t := s') ?_ ?_; subst s'; rotate_left; clear_value s'; intro hs; rotate_left)
    | with_reducible refine Ends.next ?_
    | (extract_lets +onlyGivenNames s'; first | (have _e : State → _ := s'; clear _e; subst s') | clear_value s')
    | with_reducible refine State.portCount_touches (by decide) ?_
    | split


theorem execPfcWatchdog_touches {m : Nat} {s0 : State} {port : PortNo} {prio : Fin 8} {s : State} (hk : 0x100000000000000000000000000000000000000000000000000000009100000000000040080 ||| m = m)
    (h : Touches m s0 s) : Ends m s0 (execPfcWatchdog port prio s) := by
  refine Ends.step (k := 0x100000000000000000000000000000000000000000000000000000009100000000000040080) (t := s) ?_ hk h
  clear hk h
  unfold execPfcWatchdog
  have h0 := Touches.refl 0x100000000000000000000000000000000000000000000000000000009100000000000040080 s
  repeat' first
    | with_reducible assumption
    | (extract_lets +onlyGivenNames s'; with_reducible refine Touches.cut (t := s') ?_ ?_; subst s'; rotate_left; clear_value s'; intro hs; rotate_left)
    | (extract_lets +onlyGivenNames s'; with_reducible refine Ends.cut (t := s') ?_ ?_; subst s'; rotate_left; clear_value s'; intro hs; rotate_left)
    | with_reducible refine Ends.next ?_
    | (extract_lets +onlyGivenNames s'; first | (have _e : State → _ := s'; clear _e; subst s') | clear_value s')
    | with_reducible refine Touches.set (by first | decide | assumption | (split <;> decide)) ?_
    | with_reducible refine Touches.portEvent (by first | decide | assumption | (split <;> decide)) (by decide) ?_
    | split


end Sys2Proof.Machine
end

