-- ==== Sys2Proof/Laws/TouchesPorts.lean ====
section
/-!
SUPPORT. What the operations of Ports.lean can touch.
-/

namespace Sys2Proof.Machine

set_option linter.all false

theorem State.faultLane_touches {m : Nat} {s0 : State} {s : State} {x l : Nat} {z0 : FaultKind} (hk : 0x100000000000000000000000000000000000000000000000000000009010500000000040084 ||| m = m)
    (h : Touches m s0 s) : Touches m s0 (State.faultLane s x l z0) := by
  refine Touches.step (k := 0x100000000000000000000000000000000000000000000000000000009010500000000040084) (t := s) ?_ hk h
  clear hk h
  unfold State.faultLane
  have h0 := Touches.refl 0x100000000000000000000000000000000000000000000000000000009010500000000040084 s
  repeat' first
    | with_reducible assumption
    | (extract_lets +onlyGivenNames s'; with_reducible refine Touches.cut (t := s') ?_ ?_; subst s'; rotate_left; clear_value s'; intro hs; rotate_left)
    | (extract_lets +onlyGivenNames s'; first | (have _e : State → _ := s'; clear _e; subst s') | clear_value s')
    | with_reducible refine State.modLane_touches (by decide) ?_
    | with_reducible refine State.modPort_touches (by decide) ?_
    | with_reducible refine State.setAlignLost_touches (by decide) ?_
    | with_reducible refine Touches.set (by first | decide | assumption | (split <;> decide)) ?_
    | split


theorem State.healLane_touches {m : Nat} {s0 : State} {s : State} {x l : Nat} {z0 : FaultKind} (hk : 0x10100000000000004 ||| m = m)
    (h : Touches m s0 s) : Touches m s0 (State.healLane s x l z0) := by
  refine Touches.step (k := 0x10100000000000004) (t := s) ?_ hk h
  clear hk h
  unfold State.healLane
  have h0 := Touches.refl 0x10100000000000004 s
  repeat' first
    | with_reducible assumption
    | (extract_lets +onlyGivenNames s'; with_reducible refine Touches.cut (t := s') ?_ ?_; subst s'; rotate_left; clear_value s'; intro hs; rotate_left)
    | (extract_lets +onlyGivenNames s'; first | (have _e : State → _ := s'; clear _e; subst s') | clear_value s')
    | with_reducible refine State.modLane_touches (by decide) ?_
    | with_reducible refine State.modPort_touches (by decide) ?_
    | with_reducible refine Touches.set (by first | decide | assumption | (split <;> decide)) ?_
    | split


theorem execPortFault_touches {m : Nat} {s0 : State} {lane : LaneNo} {kind : FaultKind} {s : State} (hk : 0x100000000000000000000000000000000000000000000000000000009011500000000040084 ||| m = m)
    (h : Touches m s0 s) : Ends m s0 (execPortFault lane kind s) := by
  refine Ends.step (k := 0x100000000000000000000000000000000000000000000000000000009011500000000040084) (t := s) ?_ hk h
  clear hk h
  unfold execPortFault
  have h0 := Touches.refl 0x100000000000000000000000000000000000000000000000000000009011500000000040084 s
  repeat' first
    | with_reducible assumption
    | (extract_lets +onlyGivenNames s'; with_reducible refine Touches.cut (t := s') ?_ ?_; subst s'; rotate_left; clear_value s'; intro hs; rotate_left)
    | (extract_lets +onlyGivenNames s'; with_reducible refine Ends.cut (t := s') ?_ ?_; subst s'; rotate_left; clear_value s'; intro hs; rotate_left)
    | with_reducible refine Ends.next ?_
    | (extract_lets +onlyGivenNames s'; first | (have _e : State → _ := s'; clear _e; subst s') | clear_value s')
    | with_reducible refine State.modLane_touches (by decide) ?_
    | with_reducible refine State.refreshClear_touches (by decide) ?_
    | with_reducible refine State.refreshRxIdle_touches (by decide) ?_
    | with_reducible refine State.faultLane_touches (by decide) ?_
    | with_reducible refine Touches.set (by first | decide | assumption | (split <;> decide)) ?_
    | split


theorem execPortFaultEnd_touches {m : Nat} {s0 : State} {lane : LaneNo} {kind : FaultKind} {s : State} (hk : 0x10100000000040004 ||| m = m)
    (h : Touches m s0 s) : Ends m s0 (execPortFaultEnd lane kind s) := by
  refine Ends.step (k := 0x10100000000040004) (t := s) ?_ hk h
  clear hk h
  unfold execPortFaultEnd
  have h0 := Touches.refl 0x10100000000040004 s
  repeat' first
    | with_reducible assumption
    | (extract_lets +onlyGivenNames s'; with_reducible refine Touches.cut (t := s') ?_ ?_; subst s'; rotate_left; clear_value s'; intro hs; rotate_left)
    | (extract_lets +onlyGivenNames s'; with_reducible refine Ends.cut (t := s') ?_ ?_; subst s'; rotate_left; clear_value s'; intro hs; rotate_left)
    | with_reducible refine Ends.next ?_
    | (extract_lets +onlyGivenNames s'; first | (have _e : State → _ := s'; clear _e; subst s') | clear_value s')
    | with_reducible refine State.refreshClear_touches (by decide) ?_
    | with_reducible refine State.healLane_touches (by decide) ?_
    | split


theorem State.endFlight_touches {m : Nat} {s0 : State} {s : State} {k : Nat} (hk : 0x10200000800000001000000000000000000000000000000000000E06D0000000000000000000000000002042084 ||| m = m)
    (h : Touches m s0 s) : Touches m s0 (State.endFlight s k) := by
  refine Touches.step (k := 0x10200000800000001000000000000000000000000000000000000E06D0000000000000000000000000002042084) (t := s) ?_ hk h
  clear hk h
  unfold State.endFlight
  have h0 := Touches.refl 0x10200000800000001000000000000000000000000000000000000E06D0000000000000000000000000002042084 s
  repeat' first
    | with_reducible assumption
    | (extract_lets +onlyGivenNames s'; with_reducible refine Touches.cut (t := s') ?_ ?_; subst s'; rotate_left; clear_value s'; intro hs; rotate_left)
    | (extract_lets +onlyGivenNames s'; first | (have _e : State → _ := s'; clear _e; subst s') | (have _e : Switch := s'; clear _e; subst s') | clear_value s')
    | with_reducible refine State.modPort_touches (by decide) ?_
    | with_reducible refine State.copyDone_touches (by decide) ?_
    | split
    | with_reducible refine Touches.upd_sw (by decide) rfl ?_


theorem State.abortTx_touches {m : Nat} {s0 : State} {s : State} {x : Nat} (hk : 0x10200000800000001000000000000000000000000000000000000E06D0000000000000004000000000002042084 ||| m = m)
    (h : Touches m s0 s) : Touches m s0 (State.abortTx s x) := by
  refine Touches.step (k := 0x10200000800000001000000000000000000000000000000000000E06D0000000000000004000000000002042084) (t := s) ?_ hk h
  clear hk h
  unfold State.abortTx
  have h0 := Touches.refl 0x10200000800000001000000000000000000000000000000000000E06D0000000000000004000000000002042084 s
  repeat' first
    | with_reducible assumption
    | (extract_lets +onlyGivenNames s'; with_reducible refine Touches.cut (t := s') ?_ ?_; subst s'; rotate_left; clear_value s'; intro hs; rotate_left)
    | (extract_lets +onlyGivenNames s'; first | (have _e : State → _ := s'; clear _e; subst s') | clear_value s')
    | with_reducible refine State.portCount_touches (by decide) ?_
    | with_reducible refine State.endFlight_touches (by decide) ?_
    | with_reducible refine Touches.emit (by decide) ?_
    | split


theorem State.portDown_touches {m : Nat} {s0 : State} {s : State} {x : Nat} (hk : 0x1020000080000000100000000000000110200000000000000C080E06D000000000000000D110000000002063184 ||| m = m)
    (h : Touches m s0 s) : Touches m s0 (State.portDown s x) := by
  refine Touches.step (k := 0x1020000080000000100000000000000110200000000000000C080E06D000000000000000D110000000002063184) (t := s) ?_ hk h
  clear hk h
  unfold State.portDown
  have h0 := Touches.refl 0x1020000080000000100000000000000110200000000000000C080E06D000000000000000D110000000002063184 s
  repeat' first
    | with_reducible assumption
    | (extract_lets +onlyGivenNames s'; with_reducible refine Touches.cut (t := s') ?_ ?_; subst s'; rotate_left; clear_value s'; intro hs; rotate_left)
    | (extract_lets +onlyGivenNames s'; first | (have _e : State → _ := s'; clear _e; subst s') | clear_value s')
    | with_reducible refine Touches.foldl (fun _ _ _ => ?_) ?_
    | with_reducible refine State.draw_touches_eq (by assumption) (by decide) ?_
    | with_reducible refine State.draw_touches (by decide) ?_
    | with_reducible refine State.recordLimited_touches (by decide) ?_
    | with_reducible refine State.holdStart_touches (by decide) ?_
    | with_reducible refine State.rxEnd_touches (by decide) ?_
    | with_reducible refine State.unpause_touches (by decide) ?_
    | with_reducible refine State.abortTx_touches (by decide) ?_
    | with_reducible refine Touches.set (by first | decide | assumption | (split <;> decide)) ?_
    | with_reducible refine Touches.addSat (by first | decide | assumption | (split <;> decide)) ?_
    | with_reducible refine Touches.portEvent (by first | decide | assumption | (split <;> decide)) (by decide) ?_
    | split


theorem execLinkDown_touches {m : Nat} {s0 : State} {port : PortNo} {s : State} (hk : 0x1020000080000000100000000000000110200000000000000C080E06D000000000000000D110000000002063184 ||| m = m)
    (h : Touches m s0 s) : Ends m s0 (execLinkDown port s) := by
  refine Ends.step (k := 0x1020000080000000100000000000000110200000000000000C080E06D000000000000000D110000000002063184) (t := s) ?_ hk h
  clear hk h
  unfold execLinkDown
  have h0 := Touches.refl 0x1020000080000000100000000000000110200000000000000C080E06D000000000000000D110000000002063184 s
  repeat' first
    | with_reducible assumption
    | (extract_lets +onlyGivenNames s'; with_reducible refine Touches.cut (t := s') ?_ ?_; subst s'; rotate_left; clear_value s'; intro hs; rotate_left)
    | (extract_lets +onlyGivenNames s'; with_reducible refine Ends.cut (t := s') ?_ ?_; subst s'; rotate_left; clear_value s'; intro hs; rotate_left)
    | with_reducible refine Ends.next ?_
    | (extract_lets +onlyGivenNames s'; first | (have _e : State → _ := s'; clear _e; subst s') | clear_value s')
    | with_reducible refine State.portDown_touches (by decide) ?_
    | split


theorem execLinkUp_touches {m : Nat} {s0 : State} {port : PortNo} {s : State} (hk : 0x100000000000000000000000000000038C0C000000000000000000009110000000000040084 ||| m = m)
    (h : Touches m s0 s) : Ends m s0 (execLinkUp port s) := by
  refine Ends.step (k := 0x100000000000000000000000000000038C0C000000000000000000009110000000000040084) (t := s) ?_ hk h
  clear hk h
  unfold execLinkUp
  have h0 := Touches.refl 0x100000000000000000000000000000038C0C000000000000000000009110000000000040084 s
  repeat' first
    | with_reducible assumption
    | (extract_lets +onlyGivenNames s'; with_reducible refine Touches.cut (t := s') ?_ ?_; subst s'; rotate_left; clear_value s'; intro hs; rotate_left)
    | (extract_lets +onlyGivenNames s'; with_reducible refine Ends.cut (t := s') ?_ ?_; subst s'; rotate_left; clear_value s'; intro hs; rotate_left)
    | with_reducible refine Ends.next ?_
    | (extract_lets +onlyGivenNames s'; first | (have _e : State → _ := s'; clear _e; subst s') | clear_value s')
    | with_reducible refine State.modPort_touches (by decide) ?_
    | with_reducible refine State.queuesUp_touches (by decide) ?_
    | with_reducible refine Touches.set (by first | decide | assumption | (split <;> decide)) ?_
    | with_reducible refine Touches.portEvent (by first | decide | assumption | (split <;> decide)) (by decide) ?_
    | split


theorem State.writePortCfg_touches {m : Nat} {s0 : State} {s : State} {x : Nat} {value : Word} (hk : 0x8000000000000000 ||| m = m)
    (h : Touches m s0 s) : Touches m s0 (State.writePortCfg s x value) := by
  refine Touches.step (k := 0x8000000000000000) (t := s) ?_ hk h
  clear hk h
  unfold State.writePortCfg
  have h0 := Touches.refl 0x8000000000000000 s
  repeat' first
    | with_reducible assumption
    | (extract_lets +onlyGivenNames s'; with_reducible refine Touches.cut (t := s') ?_ ?_; subst s'; rotate_left; clear_value s'; intro hs; rotate_left)
    | (extract_lets +onlyGivenNames s'; first | (have _e : State → _ := s'; clear _e; subst s') | clear_value s')
    | with_reducible refine Touches.set (by first | decide | assumption | (split <;> decide)) ?_
    | split


theorem State.enablePort_touches {m : Nat} {s0 : State} {s : State} {x : Nat} {value : Word} (hk : 0x8000000000000004 ||| m = m)
    (h : Touches m s0 s) : Touches m s0 (State.enablePort s x value) := by
  refine Touches.step (k := 0x8000000000000004) (t := s) ?_ hk h
  clear hk h
  unfold State.enablePort
  have h0 := Touches.refl 0x8000000000000004 s
  repeat' first
    | with_reducible assumption
    | (extract_lets +onlyGivenNames s'; with_reducible refine Touches.cut (t := s') ?_ ?_; subst s'; rotate_left; clear_value s'; intro hs; rotate_left)
    | (extract_lets +onlyGivenNames s'; first | (have _e : State → _ := s'; clear _e; subst s') | clear_value s')
    | with_reducible refine State.modPort_touches (by decide) ?_
    | with_reducible refine State.writePortCfg_touches (by decide) ?_
    | with_reducible refine Touches.set (by first | decide | assumption | (split <;> decide)) ?_
    | split


theorem State.disablePort_touches {m : Nat} {s0 : State} {s : State} {x : Nat} {value : Word} (hk : 0x1020000080000000100000000000000110200000000000000C080E06D000000000000000D118000000002063184 ||| m = m)
    (h : Touches m s0 s) : Touches m s0 (State.disablePort s x value) := by
  refine Touches.step (k := 0x1020000080000000100000000000000110200000000000000C080E06D000000000000000D118000000002063184) (t := s) ?_ hk h
  clear hk h
  unfold State.disablePort
  have h0 := Touches.refl 0x1020000080000000100000000000000110200000000000000C080E06D000000000000000D118000000002063184 s
  repeat' first
    | with_reducible assumption
    | (extract_lets +onlyGivenNames s'; with_reducible refine Touches.cut (t := s') ?_ ?_; subst s'; rotate_left; clear_value s'; intro hs; rotate_left)
    | (extract_lets +onlyGivenNames s'; first | (have _e : State → _ := s'; clear _e; subst s') | clear_value s')
    | with_reducible refine State.portDown_touches (by decide) ?_
    | with_reducible refine State.writePortCfg_touches (by decide) ?_
    | with_reducible refine Touches.set (by first | decide | assumption | (split <;> decide)) ?_
    | split


theorem execPortEnable_touches {m : Nat} {s0 : State} {port : PortNo} {value : Word} {s : State} (hk : 0x8000000000000004 ||| m = m)
    (h : Touches m s0 s) : Ends m s0 (execPortEnable port value s) := by
  refine Ends.step (k := 0x8000000000000004) (t := s) ?_ hk h
  clear hk h
  unfold execPortEnable
  have h0 := Touches.refl 0x8000000000000004 s
  repeat' first
    | with_reducible assumption
    | (extract_lets +onlyGivenNames s'; with_reducible refine Touches.cut (t := s') ?_ ?_; subst s'; rotate_left; clear_value s'; intro hs; rotate_left)
    | (extract_lets +onlyGivenNames s'; with_reducible refine Ends.cut (t := s') ?_ ?_; subst s'; rotate_left; clear_value s'; intro hs; rotate_left)
    | with_reducible refine Ends.next ?_
    | (extract_lets +onlyGivenNames s'; first | (have _e : State → _ := s'; clear _e; subst s') | clear_value s')
    | with_reducible refine State.enablePort_touches (by decide) ?_
    | split


theorem execPortDisable_touches {m : Nat} {s0 : State} {port : PortNo} {value : Word} {s : State} (hk : 0x1020000080000000100000000000000110200000000000000C080E06D000000000000000D118000000002063184 ||| m = m)
    (h : Touches m s0 s) : Ends m s0 (execPortDisable port value s) := by
  refine Ends.step (k := 0x1020000080000000100000000000000110200000000000000C080E06D000000000000000D118000000002063184) (t := s) ?_ hk h
  clear hk h
  unfold execPortDisable
  have h0 := Touches.refl 0x1020000080000000100000000000000110200000000000000C080E06D000000000000000D118000000002063184 s
  repeat' first
    | with_reducible assumption
    | (extract_lets +onlyGivenNames s'; with_reducible refine Touches.cut (t := s') ?_ ?_; subst s'; rotate_left; clear_value s'; intro hs; rotate_left)
    | (extract_lets +onlyGivenNames s'; with_reducible refine Ends.cut (t := s') ?_ ?_; subst s'; rotate_left; clear_value s'; intro hs; rotate_left)
    | with_reducible refine Ends.next ?_
    | (extract_lets +onlyGivenNames s'; first | (have _e : State → _ := s'; clear _e; subst s') | clear_value s')
    | with_reducible refine State.disablePort_touches (by decide) ?_
    | split


theorem execIdleEntry_touches {m : Nat} {s0 : State} {port : PortNo} {s : State} (hk : 0x1000000000040004 ||| m = m)
    (h : Touches m s0 s) : Ends m s0 (execIdleEntry port s) := by
  refine Ends.step (k := 0x1000000000040004) (t := s) ?_ hk h
  clear hk h
  unfold execIdleEntry
  have h0 := Touches.refl 0x1000000000040004 s
  repeat' first
    | with_reducible assumption
    | (extract_lets +onlyGivenNames s'; with_reducible refine Touches.cut (t := s') ?_ ?_; subst s'; rotate_left; clear_value s'; intro hs; rotate_left)
    | (extract_lets +onlyGivenNames s'; with_reducible refine Ends.cut (t := s') ?_ ?_; subst s'; rotate_left; clear_value s'; intro hs; rotate_left)
    | with_reducible refine Ends.next ?_
    | (extract_lets +onlyGivenNames s'; first | (have _e : State → _ := s'; clear _e; subst s') | clear_value s')
    | with_reducible refine Touches.foldl (fun _ _ _ => ?_) ?_
    | with_reducible refine State.modLane_touches (by decide) ?_
    | with_reducible refine State.modPort_touches (by decide) ?_
    | with_reducible refine Touches.set (by first | decide | assumption | (split <;> decide)) ?_
    | with_reducible refine Touches.emit (by decide) ?_
    | split


theorem State.burst_touches {m : Nat} {s0 : State} {s : State} {x : Nat} (hk : 0x40000 ||| m = m)
    (h : Touches m s0 s) : Touches m s0 (State.burst s x) := by
  refine Touches.step (k := 0x40000) (t := s) ?_ hk h
  clear hk h
  unfold State.burst
  have h0 := Touches.refl 0x40000 s
  repeat' first
    | with_reducible assumption
    | (extract_lets +onlyGivenNames s'; with_reducible refine Touches.cut (t := s') ?_ ?_; subst s'; rotate_left; clear_value s'; intro hs; rotate_left)
    | (extract_lets +onlyGivenNames s'; first | (have _e : State → _ := s'; clear _e; subst s') | clear_value s')
    | with_reducible refine Touches.foldl (fun _ _ _ => ?_) ?_
    | with_reducible refine State.sendTp6_touches (by decide) ?_
    | split


theorem execIdleRefresh_touches {m : Nat} {s0 : State} {port : PortNo} {s : State} (hk : 0x40004 ||| m = m)
    (h : Touches m s0 s) : Ends m s0 (execIdleRefresh port s) := by
  refine Ends.step (k := 0x40004) (t := s) ?_ hk h
  clear hk h
  unfold execIdleRefresh
  have h0 := Touches.refl 0x40004 s
  repeat' first
    | with_reducible assumption
    | (extract_lets +onlyGivenNames s'; with_reducible refine Touches.cut (t := s') ?_ ?_; subst s'; rotate_left; clear_value s'; intro hs; rotate_left)
    | (extract_lets +onlyGivenNames s'; with_reducible refine Ends.cut (t := s') ?_ ?_; subst s'; rotate_left; clear_value s'; intro hs; rotate_left)
    | with_reducible refine Ends.next ?_
    | (extract_lets +onlyGivenNames s'; first | (have _e : State → _ := s'; clear _e; subst s') | clear_value s')
    | with_reducible refine State.modPort_touches (by decide) ?_
    | with_reducible refine State.burst_touches (by decide) ?_
    | with_reducible refine Touches.emit (by decide) ?_
    | split


theorem execIdleRefreshTimeout_touches {m : Nat} {s0 : State} {lane : LaneNo} {s : State} (hk : 0x11100000000040004 ||| m = m)
    (h : Touches m s0 s) : Ends m s0 (execIdleRefreshTimeout lane s) := by
  refine Ends.step (k := 0x11100000000040004) (t := s) ?_ hk h
  clear hk h
  unfold execIdleRefreshTimeout
  have h0 := Touches.refl 0x11100000000040004 s
  repeat' first
    | with_reducible assumption
    | (extract_lets +onlyGivenNames s'; with_reducible refine Touches.cut (t := s') ?_ ?_; subst s'; rotate_left; clear_value s'; intro hs; rotate_left)
    | (extract_lets +onlyGivenNames s'; with_reducible refine Ends.cut (t := s') ?_ ?_; subst s'; rotate_left; clear_value s'; intro hs; rotate_left)
    | with_reducible refine Ends.next ?_
    | (extract_lets +onlyGivenNames s'; first | (have _e : State → _ := s'; clear _e; subst s') | clear_value s')
    | with_reducible refine State.modLane_touches (by decide) ?_
    | with_reducible refine State.refreshClear_touches (by decide) ?_
    | with_reducible refine State.refreshRxIdle_touches (by decide) ?_
    | with_reducible refine Touches.set (by first | decide | assumption | (split <;> decide)) ?_
    | split


theorem State.wakePort_touches {m : Nat} {s0 : State} {s : State} {x : Nat} (hk : 0x1000000000040004 ||| m = m)
    (h : Touches m s0 s) : Touches m s0 (State.wakePort s x) := by
  refine Touches.step (k := 0x1000000000040004) (t := s) ?_ hk h
  clear hk h
  unfold State.wakePort
  have h0 := Touches.refl 0x1000000000040004 s
  repeat' first
    | with_reducible assumption
    | (extract_lets +onlyGivenNames s'; with_reducible refine Touches.cut (t := s') ?_ ?_; subst s'; rotate_left; clear_value s'; intro hs; rotate_left)
    | (extract_lets +onlyGivenNames s'; first | (have _e : State → _ := s'; clear _e; subst s') | clear_value s')
    | with_reducible refine Touches.foldl (fun _ _ _ => ?_) ?_
    | with_reducible refine State.modLane_touches (by decide) ?_
    | with_reducible refine State.burst_touches (by decide) ?_
    | with_reducible refine Touches.set (by first | decide | assumption | (split <;> decide)) ?_
    | with_reducible refine Touches.addSat (by first | decide | assumption | (split <;> decide)) ?_
    | with_reducible refine Touches.emit (by decide) ?_
    | split


theorem execWake_touches {m : Nat} {s0 : State} {port : PortNo} {s : State} (hk : 0x1000000000040004 ||| m = m)
    (h : Touches m s0 s) : Ends m s0 (execWake port s) := by
  refine Ends.step (k := 0x1000000000040004) (t := s) ?_ hk h
  clear hk h
  unfold execWake
  have h0 := Touches.refl 0x1000000000040004 s
  repeat' first
    | with_reducible assumption
    | (extract_lets +onlyGivenNames s'; with_reducible refine Touches.cut (t := s') ?_ ?_; subst s'; rotate_left; clear_value s'; intro hs; rotate_left)
    | (extract_lets +onlyGivenNames s'; with_reducible refine Ends.cut (t := s') ?_ ?_; subst s'; rotate_left; clear_value s'; intro hs; rotate_left)
    | with_reducible refine Ends.next ?_
    | (extract_lets +onlyGivenNames s'; first | (have _e : State → _ := s'; clear _e; subst s') | clear_value s')
    | with_reducible refine State.wakePort_touches (by decide) ?_
    | split


theorem execWakeBurstRx_touches {m : Nat} {s0 : State} {lane : LaneNo} {found : Bool} {s : State} (hk : 0x100000000000000000000000000000000000000000000000000000009011400000000040084 ||| m = m)
    (h : Touches m s0 s) : Ends m s0 (execWakeBurstRx lane found s) := by
  refine Ends.step (k := 0x100000000000000000000000000000000000000000000000000000009011400000000040084) (t := s) ?_ hk h
  clear hk h
  unfold execWakeBurstRx
  have h0 := Touches.refl 0x100000000000000000000000000000000000000000000000000000009011400000000040084 s
  repeat' first
    | with_reducible assumption
    | (extract_lets +onlyGivenNames s'; with_reducible refine Touches.cut (t := s') ?_ ?_; subst s'; rotate_left; clear_value s'; intro hs; rotate_left)
    | (extract_lets +onlyGivenNames s'; with_reducible refine Ends.cut (t := s') ?_ ?_; subst s'; rotate_left; clear_value s'; intro hs; rotate_left)
    | with_reducible refine Ends.next ?_
    | (extract_lets +onlyGivenNames s'; first | (have _e : State → _ := s'; clear _e; subst s') | clear_value s')
    | with_reducible refine State.modLane_touches (by decide) ?_
    | with_reducible refine State.refreshLanePort_touches (by decide) ?_
    | with_reducible refine State.refreshRxIdle_touches (by decide) ?_
    | with_reducible refine State.setAlignLost_touches (by decide) ?_
    | with_reducible refine Touches.set (by first | decide | assumption | (split <;> decide)) ?_
    | split


end Sys2Proof.Machine
end

