-- ==== Sys2Proof/Laws/TouchesEpochs.lean ====
section
/-!
SUPPORT. What the operations of Epochs.lean can touch.
-/

namespace Sys2Proof.Machine

set_option linter.all false

theorem State.setCommit_touches {m : Nat} {s0 s : State} {c : CommitRec} {f : Fld} {v : Nat}
    (hf : m.testBit f.reg.bit = true) (h : Touches m s0 s) : Touches m s0 (State.setCommit s c f v) := by
  unfold State.setCommit
  split
  · exact h
  · exact Touches.set hf h


theorem State.raiseCommit_touches {m : Nat} {s0 s : State} {c : CommitRec} {pf win : Fld}
    (hf : m.testBit pf.reg.bit = true) (hw : m.testBit win.reg.bit = true) (hk : 0x100000000000000000000000000000000000000000000000000000000000000000000040080 ||| m = m)
    (h : Touches m s0 s) : Touches m s0 (State.raiseCommit s c pf win) := by
  unfold State.raiseCommit
  split
  · exact h
  · exact Touches.raise hf hk h
  · refine Touches.raiseWin hw ?_ h
    have : (0x40080 ||| 0x100000000000000000000000000000000000000000000000000000000000000000000040080 : Nat) = 0x100000000000000000000000000000000000000000000000000000000000000000000040080 := by decide
    rw [← hk, ← Nat.or_assoc, this]


theorem State.refreshDrain_touches {m : Nat} {s0 : State} {s : State} (hk : 0x1000000010 ||| m = m)
    (h : Touches m s0 s) : Touches m s0 (State.refreshDrain s) := by
  refine Touches.step (k := 0x1000000010) (t := s) ?_ hk h
  clear hk h
  unfold State.refreshDrain
  have h0 := Touches.refl 0x1000000010 s
  repeat' first
    | with_reducible assumption
    | (extract_lets +onlyGivenNames s'; with_reducible refine Touches.cut (t := s') ?_ ?_; subst s'; rotate_left; clear_value s'; intro hs; rotate_left)
    | (extract_lets +onlyGivenNames s'; first | (have _e : State → _ := s'; clear _e; subst s') | (have _e : CfgBlock := s'; clear _e; subst s') | clear_value s')
    | with_reducible refine Touches.foldl (fun _ _ _ => ?_) ?_
    | with_reducible refine Touches.set (by first | decide | assumption | (split <;> decide)) ?_
    | split
    | with_reducible refine Touches.upd_cf (by decide) ?_


theorem State.fenceDone_touches {m : Nat} {s0 : State} {s : State} (hk : 0x3FFFFFFFFFFFFFFFFFFFFFFFFFFFFFFFFFFFFFFFFFFFFFFFFFFFFFFFFFFFFFFFFFFFFFFFFFFFFFFFFFFFFFFFFFC60D6 ||| m = m)
    (h : Touches m s0 s) : Touches m s0 (State.fenceDone s) := by
  refine Touches.step (k := 0x3FFFFFFFFFFFFFFFFFFFFFFFFFFFFFFFFFFFFFFFFFFFFFFFFFFFFFFFFFFFFFFFFFFFFFFFFFFFFFFFFFFFFFFFFFC60D6) (t := s) ?_ hk h
  clear hk h
  unfold State.fenceDone
  have h0 := Touches.refl 0x3FFFFFFFFFFFFFFFFFFFFFFFFFFFFFFFFFFFFFFFFFFFFFFFFFFFFFFFFFFFFFFFFFFFFFFFFFFFFFFFFFFFFFFFFFC60D6 s
  repeat' first
    | with_reducible assumption
    | (extract_lets +onlyGivenNames s'; with_reducible refine Touches.cut (t := s') ?_ ?_; subst s'; rotate_left; clear_value s'; intro hs; rotate_left)
    | (extract_lets +onlyGivenNames s'; first | (have _e : State → _ := s'; clear _e; subst s') | (have _e : CfgBlock := s'; clear _e; subst s') | clear_value s')
    | with_reducible refine Touches.foldl (fun _ _ _ => ?_) ?_
    | with_reducible refine State.setCommit_touches (by first | decide | assumption) ?_
    | with_reducible refine State.fence_touches (by decide) ?_
    | split
    | with_reducible refine Touches.upd_cf (by decide) ?_


theorem State.epochSwitch_touches {m : Nat} {s0 : State} {s : State} {p : Nat} (hk : 0x3FFFFFFFFFFFFFFFFFFFFFFFFFFFFFFFFFFFFFFFFFFFFFFFFFFFFFFFFFFFFFFFFFFFFFFFFFFFFFFFFFFFFFFFFFC60D6 ||| m = m)
    (h : Touches m s0 s) : Touches m s0 (State.epochSwitch s p) := by
  refine Touches.step (k := 0x3FFFFFFFFFFFFFFFFFFFFFFFFFFFFFFFFFFFFFFFFFFFFFFFFFFFFFFFFFFFFFFFFFFFFFFFFFFFFFFFFFFFFFFFFFC60D6) (t := s) ?_ hk h
  clear hk h
  unfold State.epochSwitch
  have h0 := Touches.refl 0x3FFFFFFFFFFFFFFFFFFFFFFFFFFFFFFFFFFFFFFFFFFFFFFFFFFFFFFFFFFFFFFFFFFFFFFFFFFFFFFFFFFFFFFFFFC60D6 s
  repeat' first
    | with_reducible assumption
    | (extract_lets +onlyGivenNames s'; with_reducible refine Touches.cut (t := s') ?_ ?_; subst s'; rotate_left; clear_value s'; intro hs; rotate_left)
    | (extract_lets +onlyGivenNames s'; first | (have _e : State → _ := s'; clear _e; subst s') | (have _e : CfgBlock := s'; clear _e; subst s') | clear_value s')
    | with_reducible refine State.modPipe_touches (by decide) ?_
    | with_reducible refine State.fenceDone_touches (by decide) ?_
    | with_reducible refine Touches.set (by first | decide | assumption | (split <;> decide)) ?_
    | split
    | with_reducible refine Touches.upd_cf (by decide) ?_


end Sys2Proof.Machine
end

