-- ==== Sys2Proof/Laws/TouchesTables.lean ====
section
/-!
SUPPORT. What the operations of Tables.lean can touch.
-/

namespace Sys2Proof.Machine

set_option linter.all false

theorem State.putTable_touches {m : Nat} {s0 : State} {s : State} {t : Nat} {v : TableSt} (hk : 0x40 ||| m = m)
    (h : Touches m s0 s) : Touches m s0 (State.putTable s t v) := by
  refine Touches.step (k := 0x40) (t := s) ?_ hk h
  clear hk h
  unfold State.putTable
  have h0 := Touches.refl 0x40 s
  repeat' first
    | with_reducible assumption
    | (extract_lets +onlyGivenNames s'; with_reducible refine Touches.cut (t := s') ?_ ?_; subst s'; rotate_left; clear_value s'; intro hs; rotate_left)
    | (extract_lets +onlyGivenNames s'; first | (have _e : State → _ := s'; clear _e; subst s') | (have _e : TableBlock := s'; clear _e; subst s') | clear_value s')
    | split
    | with_reducible refine Touches.upd_tb (by decide) ?_


theorem State.opSteps_touches {m : Nat} {s0 : State} {s : State} {o : TableOp} {n : Nat} (hk : 0x40 ||| m = m)
    (h : Touches m s0 s) : Touches m s0 (State.opSteps s o n) := by
  refine Touches.step (k := 0x40) (t := s) ?_ hk h
  clear hk h
  unfold State.opSteps
  have h0 := Touches.refl 0x40 s
  repeat' first
    | with_reducible assumption
    | (extract_lets +onlyGivenNames s'; with_reducible refine Touches.cut (t := s') ?_ ?_; subst s'; rotate_left; clear_value s'; intro hs; rotate_left)
    | (extract_lets +onlyGivenNames s'; first | (have _e : State → _ := s'; clear _e; subst s') | (have _e : TableBlock := s'; clear _e; subst s') | clear_value s')
    | with_reducible refine State.putTable_touches (by decide) ?_
    | split
    | with_reducible refine Touches.upd_tb (by decide) ?_


theorem State.opsTick_touches {m : Nat} {s0 : State} {s : State} (hk : 0x40 ||| m = m)
    (h : Touches m s0 s) : Touches m s0 (State.opsTick s) := by
  refine Touches.step (k := 0x40) (t := s) ?_ hk h
  clear hk h
  unfold State.opsTick
  have h0 := Touches.refl 0x40 s
  repeat' first
    | with_reducible assumption
    | (extract_lets +onlyGivenNames s'; with_reducible refine Touches.cut (t := s') ?_ ?_; subst s'; rotate_left; clear_value s'; intro hs; rotate_left)
    | (extract_lets +onlyGivenNames s'; first | (have _e : State → _ := s'; clear _e; subst s') | clear_value s')
    | with_reducible refine Touches.foldl (fun _ _ _ => ?_) ?_
    | with_reducible refine State.opSteps_touches (by decide) ?_
    | split


theorem State.refreshTable_touches {m : Nat} {s0 : State} {s : State} {t : Nat} (hk : 0x4000000000000000000000000000000 ||| m = m)
    (h : Touches m s0 s) : Touches m s0 (State.refreshTable s t) := by
  refine Touches.step (k := 0x4000000000000000000000000000000) (t := s) ?_ hk h
  clear hk h
  unfold State.refreshTable
  have h0 := Touches.refl 0x4000000000000000000000000000000 s
  repeat' first
    | with_reducible assumption
    | (extract_lets +onlyGivenNames s'; with_reducible refine Touches.cut (t := s') ?_ ?_; subst s'; rotate_left; clear_value s'; intro hs; rotate_left)
    | (extract_lets +onlyGivenNames s'; first | (have _e : State → _ := s'; clear _e; subst s') | clear_value s')
    | with_reducible refine Touches.set (by first | decide | assumption | (split <;> decide)) ?_
    | split


theorem State.rehashReq_touches {m : Nat} {s0 : State} {s : State} {t w : Nat} (hk : 0x47800001000000000000000000000000000000000000000000010040800000000000000000000400C0 ||| m = m)
    (h : Touches m s0 s) : Touches m s0 (State.rehashReq s t w) := by
  refine Touches.step (k := 0x47800001000000000000000000000000000000000000000000010040800000000000000000000400C0) (t := s) ?_ hk h
  clear hk h
  unfold State.rehashReq
  have h0 := Touches.refl 0x47800001000000000000000000000000000000000000000000010040800000000000000000000400C0 s
  repeat' first
    | with_reducible assumption
    | (extract_lets +onlyGivenNames s'; with_reducible refine Touches.cut (t := s') ?_ ?_; subst s'; rotate_left; clear_value s'; intro hs; rotate_left)
    | (extract_lets +onlyGivenNames s'; first | (have _e : State → _ := s'; clear _e; subst s') | clear_value s')
    | with_reducible refine State.tableReport_touches (by decide) ?_
    | with_reducible refine Touches.set (by first | decide | assumption | (split <;> decide)) ?_
    | with_reducible refine Touches.raise (by first | decide | assumption | (split <;> decide)) (by decide) ?_
    | split


theorem State.afterInsert_touches {m : Nat} {s0 : State} {s : State} {t w : Nat} {r : Inserted} (hk : 0x47800001000000000000000000000000000000000000000000050040800000000000000000000400C0 ||| m = m)
    (h : Touches m s0 s) : Touches m s0 (State.afterInsert s t w r) := by
  refine Touches.step (k := 0x47800001000000000000000000000000000000000000000000050040800000000000000000000400C0) (t := s) ?_ hk h
  clear hk h
  unfold State.afterInsert
  have h0 := Touches.refl 0x47800001000000000000000000000000000000000000000000050040800000000000000000000400C0 s
  repeat' first
    | with_reducible assumption
    | (extract_lets +onlyGivenNames s'; with_reducible refine Touches.cut (t := s') ?_ ?_; subst s'; rotate_left; clear_value s'; intro hs; rotate_left)
    | (extract_lets +onlyGivenNames s'; first | (have _e : State → _ := s'; clear _e; subst s') | clear_value s')
    | with_reducible refine State.refreshTable_touches (by decide) ?_
    | with_reducible refine State.rehashReq_touches (by decide) ?_
    | with_reducible refine Touches.set (by first | decide | assumption | (split <;> decide)) ?_
    | split


end Sys2Proof.Machine
end

