-- ==== Sys2Proof/Laws/TouchesTableCmds.lean ====
section
/-!
SUPPORT. What the operations of TableCmds.lean can touch.
-/

namespace Sys2Proof.Machine

set_option linter.all false

theorem State.setCmdImage_touches {m : Nat} {s0 : State} {s : State} {n image : Nat} (hk : 0x400000000000000000000000000000 ||| m = m)
    (h : Touches m s0 s) : Touches m s0 (State.setCmdImage s n image) := by
  refine Touches.step (k := 0x400000000000000000000000000000) (t := s) ?_ hk h
  clear hk h
  unfold State.setCmdImage
  have h0 := Touches.refl 0x400000000000000000000000000000 s
  repeat' first
    | with_reducible assumption
    | (extract_lets +onlyGivenNames s'; with_reducible refine Touches.cut (t := s') ?_ ?_; subst s'; rotate_left; clear_value s'; intro hs; rotate_left)
    | (extract_lets +onlyGivenNames s'; first | (have _e : State → _ := s'; clear _e; subst s') | clear_value s')
    | with_reducible refine Touches.foldl (fun _ _ _ => ?_) ?_
    | with_reducible refine Touches.set (by first | decide | assumption | (split <;> decide)) ?_
    | split


theorem State.cmdFinish_touches {m : Nat} {s0 : State} {s : State} {n t : Nat} {r : CmdResult} (hk : 0x1680000000000000000000000000000 ||| m = m)
    (h : Touches m s0 s) : Touches m s0 (State.cmdFinish s n t r) := by
  refine Touches.step (k := 0x1680000000000000000000000000000) (t := s) ?_ hk h
  clear hk h
  unfold State.cmdFinish
  have h0 := Touches.refl 0x1680000000000000000000000000000 s
  repeat' first
    | with_reducible assumption
    | (extract_lets +onlyGivenNames s'; with_reducible refine Touches.cut (t := s') ?_ ?_; subst s'; rotate_left; clear_value s'; intro hs; rotate_left)
    | (extract_lets +onlyGivenNames s'; first | (have _e : State → _ := s'; clear _e; subst s') | clear_value s')
    | with_reducible refine State.setCmdImage_touches (by decide) ?_
    | with_reducible refine Touches.set (by first | decide | assumption | (split <;> decide)) ?_
    | split


theorem State.opLookup_touches {m : Nat} {s0 : State} {s : State} {b t : Nat} {p : TablePlan} {w : Nat} (hk : 0x0 ||| m = m)
    (h : Touches m s0 s) : Touches m s0 (State.opLookup s b t p w).1 := by
  refine Touches.step (k := 0x0) (t := s) ?_ hk h
  clear hk h
  unfold State.opLookup
  have h0 := Touches.refl 0x0 s
  repeat' first
    | with_reducible assumption
    | (extract_lets +onlyGivenNames s'; with_reducible refine Touches.cut (t := s') ?_ ?_; subst s'; rotate_left; clear_value s'; intro hs; rotate_left)
    | (extract_lets +onlyGivenNames s'; first | (have _e : State → _ := s'; clear _e; subst s') | clear_value s')
    | split

theorem State.opLookup_touches_eq {m : Nat} {s0 t₁ : State} {s : State} {b t : Nat} {p : TablePlan} {w : Nat} {a₁ : CmdResult} (e₁ : State.opLookup s b t p w = (t₁, a₁))
    (hk : 0x0 ||| m = m) (h : Touches m s0 s) : Touches m s0 t₁ := Touches.fst e₁ (State.opLookup_touches hk h)


theorem State.opRead_touches {m : Nat} {s0 : State} {s : State} {b t : Nat} {p : TablePlan} {w : Nat} (hk : 0x0 ||| m = m)
    (h : Touches m s0 s) : Touches m s0 (State.opRead s b t p w).1 := by
  refine Touches.step (k := 0x0) (t := s) ?_ hk h
  clear hk h
  unfold State.opRead
  have h0 := Touches.refl 0x0 s
  repeat' first
    | with_reducible assumption
    | (extract_lets +onlyGivenNames s'; with_reducible refine Touches.cut (t := s') ?_ ?_; subst s'; rotate_left; clear_value s'; intro hs; rotate_left)
    | (extract_lets +onlyGivenNames s'; first | (have _e : State → _ := s'; clear _e; subst s') | clear_value s')
    | split

theorem State.opRead_touches_eq {m : Nat} {s0 t₁ : State} {s : State} {b t : Nat} {p : TablePlan} {w : Nat} {a₁ : CmdResult} (e₁ : State.opRead s b t p w = (t₁, a₁))
    (hk : 0x0 ||| m = m) (h : Touches m s0 s) : Touches m s0 t₁ := Touches.fst e₁ (State.opRead_touches hk h)


theorem State.cmdInsert_touches {m : Nat} {s0 : State} {s : State} {b t : Nat} {p : TablePlan} {w : Nat} (hk : 0x47800001000000000000000000000000000000000000000000050040800000000000000000000400C0 ||| m = m)
    (h : Touches m s0 s) : Touches m s0 (State.cmdInsert s b t p w).1 := by
  refine Touches.step (k := 0x47800001000000000000000000000000000000000000000000050040800000000000000000000400C0) (t := s) ?_ hk h
  clear hk h
  unfold State.cmdInsert
  have h0 := Touches.refl 0x47800001000000000000000000000000000000000000000000050040800000000000000000000400C0 s
  repeat' first
    | with_reducible assumption
    | (extract_lets +onlyGivenNames s'; with_reducible refine Touches.cut (t := s') ?_ ?_; subst s'; rotate_left; clear_value s'; intro hs; rotate_left)
    | (extract_lets +onlyGivenNames s'; first | (have _e : State → _ := s'; clear _e; subst s') | clear_value s')
    | with_reducible refine State.putTable_touches (by decide) ?_
    | with_reducible refine State.afterInsert_touches (by decide) ?_
    | split

theorem State.cmdInsert_touches_eq {m : Nat} {s0 t₁ : State} {s : State} {b t : Nat} {p : TablePlan} {w : Nat} {a₁ : CmdResult} (e₁ : State.cmdInsert s b t p w = (t₁, a₁))
    (hk : 0x47800001000000000000000000000000000000000000000000050040800000000000000000000400C0 ||| m = m) (h : Touches m s0 s) : Touches m s0 t₁ := Touches.fst e₁ (State.cmdInsert_touches hk h)


theorem State.cmdUpdate_touches {m : Nat} {s0 : State} {s : State} {b t : Nat} {p : TablePlan} {w : Nat} {i : Where} (hk : 0x40 ||| m = m)
    (h : Touches m s0 s) : Touches m s0 (State.cmdUpdate s b t p w i).1 := by
  refine Touches.step (k := 0x40) (t := s) ?_ hk h
  clear hk h
  unfold State.cmdUpdate
  have h0 := Touches.refl 0x40 s
  repeat' first
    | with_reducible assumption
    | (extract_lets +onlyGivenNames s'; with_reducible refine Touches.cut (t := s') ?_ ?_; subst s'; rotate_left; clear_value s'; intro hs; rotate_left)
    | (extract_lets +onlyGivenNames s'; first | (have _e : State → _ := s'; clear _e; subst s') | clear_value s')
    | with_reducible refine State.putTable_touches (by decide) ?_
    | split

theorem State.cmdUpdate_touches_eq {m : Nat} {s0 t₁ : State} {s : State} {b t : Nat} {p : TablePlan} {w : Nat} {i : Where} {a₁ : CmdResult} (e₁ : State.cmdUpdate s b t p w i = (t₁, a₁))
    (hk : 0x40 ||| m = m) (h : Touches m s0 s) : Touches m s0 t₁ := Touches.fst e₁ (State.cmdUpdate_touches hk h)


theorem State.opInsert_touches {m : Nat} {s0 : State} {s : State} {b t : Nat} {p : TablePlan} {w : Nat} (hk : 0x47800001000000000000000000000000000000000000000000050040800000000000000000000400C0 ||| m = m)
    (h : Touches m s0 s) : Touches m s0 (State.opInsert s b t p w).1 := by
  refine Touches.step (k := 0x47800001000000000000000000000000000000000000000000050040800000000000000000000400C0) (t := s) ?_ hk h
  clear hk h
  unfold State.opInsert
  have h0 := Touches.refl 0x47800001000000000000000000000000000000000000000000050040800000000000000000000400C0 s
  repeat' first
    | with_reducible assumption
    | (extract_lets +onlyGivenNames s'; with_reducible refine Touches.cut (t := s') ?_ ?_; subst s'; rotate_left; clear_value s'; intro hs; rotate_left)
    | (extract_lets +onlyGivenNames s'; first | (have _e : State → _ := s'; clear _e; subst s') | clear_value s')
    | with_reducible refine State.cmdInsert_touches_eq (by assumption) (by decide) ?_
    | with_reducible refine State.cmdInsert_touches (by decide) ?_
    | split

theorem State.opInsert_touches_eq {m : Nat} {s0 t₁ : State} {s : State} {b t : Nat} {p : TablePlan} {w : Nat} {a₁ : CmdResult} (e₁ : State.opInsert s b t p w = (t₁, a₁))
    (hk : 0x47800001000000000000000000000000000000000000000000050040800000000000000000000400C0 ||| m = m) (h : Touches m s0 s) : Touches m s0 t₁ := Touches.fst e₁ (State.opInsert_touches hk h)


theorem State.opUpdate_touches {m : Nat} {s0 : State} {s : State} {b t : Nat} {p : TablePlan} {w : Nat} (hk : 0x40 ||| m = m)
    (h : Touches m s0 s) : Touches m s0 (State.opUpdate s b t p w).1 := by
  refine Touches.step (k := 0x40) (t := s) ?_ hk h
  clear hk h
  unfold State.opUpdate
  have h0 := Touches.refl 0x40 s
  repeat' first
    | with_reducible assumption
    | (extract_lets +onlyGivenNames s'; with_reducible refine Touches.cut (t := s') ?_ ?_; subst s'; rotate_left; clear_value s'; intro hs; rotate_left)
    | (extract_lets +onlyGivenNames s'; first | (have _e : State → _ := s'; clear _e; subst s') | clear_value s')
    | with_reducible refine State.cmdUpdate_touches_eq (by assumption) (by decide) ?_
    | with_reducible refine State.cmdUpdate_touches (by decide) ?_
    | split

theorem State.opUpdate_touches_eq {m : Nat} {s0 t₁ : State} {s : State} {b t : Nat} {p : TablePlan} {w : Nat} {a₁ : CmdResult} (e₁ : State.opUpdate s b t p w = (t₁, a₁))
    (hk : 0x40 ||| m = m) (h : Touches m s0 s) : Touches m s0 t₁ := Touches.fst e₁ (State.opUpdate_touches hk h)


theorem State.opUpsert_touches {m : Nat} {s0 : State} {s : State} {b t : Nat} {p : TablePlan} {w : Nat} (hk : 0x47800001000000000000000000000000000000000000000000050040800000000000000000000400C0 ||| m = m)
    (h : Touches m s0 s) : Touches m s0 (State.opUpsert s b t p w).1 := by
  refine Touches.step (k := 0x47800001000000000000000000000000000000000000000000050040800000000000000000000400C0) (t := s) ?_ hk h
  clear hk h
  unfold State.opUpsert
  have h0 := Touches.refl 0x47800001000000000000000000000000000000000000000000050040800000000000000000000400C0 s
  repeat' first
    | with_reducible assumption
    | (extract_lets +onlyGivenNames s'; with_reducible refine Touches.cut (t := s') ?_ ?_; subst s'; rotate_left; clear_value s'; intro hs; rotate_left)
    | (extract_lets +onlyGivenNames s'; first | (have _e : State → _ := s'; clear _e; subst s') | clear_value s')
    | with_reducible refine State.cmdInsert_touches_eq (by assumption) (by decide) ?_
    | with_reducible refine State.cmdInsert_touches (by decide) ?_
    | with_reducible refine State.cmdUpdate_touches_eq (by assumption) (by decide) ?_
    | with_reducible refine State.cmdUpdate_touches (by decide) ?_
    | split

theorem State.opUpsert_touches_eq {m : Nat} {s0 t₁ : State} {s : State} {b t : Nat} {p : TablePlan} {w : Nat} {a₁ : CmdResult} (e₁ : State.opUpsert s b t p w = (t₁, a₁))
    (hk : 0x47800001000000000000000000000000000000000000000000050040800000000000000000000400C0 ||| m = m) (h : Touches m s0 s) : Touches m s0 t₁ := Touches.fst e₁ (State.opUpsert_touches hk h)


theorem State.forgetPin_touches {m : Nat} {s0 : State} {s : State} {t w key : Nat} (hk : 0x40 ||| m = m)
    (h : Touches m s0 s) : Touches m s0 (State.forgetPin s t w key) := by
  refine Touches.step (k := 0x40) (t := s) ?_ hk h
  clear hk h
  unfold State.forgetPin
  have h0 := Touches.refl 0x40 s
  repeat' first
    | with_reducible assumption
    | (extract_lets +onlyGivenNames s'; with_reducible refine Touches.cut (t := s') ?_ ?_; subst s'; rotate_left; clear_value s'; intro hs; rotate_left)
    | (extract_lets +onlyGivenNames s'; first | (have _e : State → _ := s'; clear _e; subst s') | (have _e : TableBlock := s'; clear _e; subst s') | clear_value s')
    | split
    | with_reducible refine Touches.upd_tb (by decide) ?_


theorem State.opDelete_touches {m : Nat} {s0 : State} {s : State} {b t : Nat} {p : TablePlan} {w : Nat} (hk : 0x4000000000000000000000000000040 ||| m = m)
    (h : Touches m s0 s) : Touches m s0 (State.opDelete s b t p w).1 := by
  refine Touches.step (k := 0x4000000000000000000000000000040) (t := s) ?_ hk h
  clear hk h
  unfold State.opDelete
  have h0 := Touches.refl 0x4000000000000000000000000000040 s
  repeat' first
    | with_reducible assumption
    | (extract_lets +onlyGivenNames s'; with_reducible refine Touches.cut (t := s') ?_ ?_; subst s'; rotate_left; clear_value s'; intro hs; rotate_left)
    | (extract_lets +onlyGivenNames s'; first | (have _e : State → _ := s'; clear _e; subst s') | clear_value s')
    | with_reducible refine State.putTable_touches (by decide) ?_
    | with_reducible refine State.refreshTable_touches (by decide) ?_
    | with_reducible refine State.forgetPin_touches (by decide) ?_
    | split

theorem State.opDelete_touches_eq {m : Nat} {s0 t₁ : State} {s : State} {b t : Nat} {p : TablePlan} {w : Nat} {a₁ : CmdResult} (e₁ : State.opDelete s b t p w = (t₁, a₁))
    (hk : 0x4000000000000000000000000000040 ||| m = m) (h : Touches m s0 s) : Touches m s0 t₁ := Touches.fst e₁ (State.opDelete_touches hk h)


theorem State.opUnpin_touches {m : Nat} {s0 : State} {s : State} {b t : Nat} {p : TablePlan} {w : Nat} (hk : 0x40 ||| m = m)
    (h : Touches m s0 s) : Touches m s0 (State.opUnpin s b t p w).1 := by
  refine Touches.step (k := 0x40) (t := s) ?_ hk h
  clear hk h
  unfold State.opUnpin
  have h0 := Touches.refl 0x40 s
  repeat' first
    | with_reducible assumption
    | (extract_lets +onlyGivenNames s'; with_reducible refine Touches.cut (t := s') ?_ ?_; subst s'; rotate_left; clear_value s'; intro hs; rotate_left)
    | (extract_lets +onlyGivenNames s'; first | (have _e : State → _ := s'; clear _e; subst s') | clear_value s')
    | with_reducible refine State.putTable_touches (by decide) ?_
    | with_reducible refine State.forgetPin_touches (by decide) ?_
    | split

theorem State.opUnpin_touches_eq {m : Nat} {s0 t₁ : State} {s : State} {b t : Nat} {p : TablePlan} {w : Nat} {a₁ : CmdResult} (e₁ : State.opUnpin s b t p w = (t₁, a₁))
    (hk : 0x40 ||| m = m) (h : Touches m s0 s) : Touches m s0 t₁ := Touches.fst e₁ (State.opUnpin_touches hk h)


theorem State.opWriteAt_touches {m : Nat} {s0 : State} {s : State} {b t : Nat} {p : TablePlan} {w : Nat} (hk : 0x3FFFFFFFFFFFFFFFFFFFFFFFFFFFFFFFFFFFFFFFFFFFFFFFFFFFFFFFFFFFFFFFFFFFFFFFFFFFFFFFFFFFFFFFFFE00D6 ||| m = m)
    (h : Touches m s0 s) : Touches m s0 (State.opWriteAt s b t p w).1 := by
  refine Touches.step (k := 0x3FFFFFFFFFFFFFFFFFFFFFFFFFFFFFFFFFFFFFFFFFFFFFFFFFFFFFFFFFFFFFFFFFFFFFFFFFFFFFFFFFFFFFFFFFE00D6) (t := s) ?_ hk h
  clear hk h
  unfold State.opWriteAt
  have h0 := Touches.refl 0x3FFFFFFFFFFFFFFFFFFFFFFFFFFFFFFFFFFFFFFFFFFFFFFFFFFFFFFFFFFFFFFFFFFFFFFFFFFFFFFFFFFFFFFFFFE00D6 s
  repeat' first
    | with_reducible assumption
    | (extract_lets +onlyGivenNames s'; with_reducible refine Touches.cut (t := s') ?_ ?_; subst s'; rotate_left; clear_value s'; intro hs; rotate_left)
    | (extract_lets +onlyGivenNames s'; first | (have _e : State → _ := s'; clear _e; subst s') | clear_value s')
    | with_reducible refine State.putTable_touches (by decide) ?_
    | with_reducible refine State.refreshTable_touches (by decide) ?_
    | with_reducible refine State.writeImage_touches (by decide) ?_
    | split

theorem State.opWriteAt_touches_eq {m : Nat} {s0 t₁ : State} {s : State} {b t : Nat} {p : TablePlan} {w : Nat} {a₁ : CmdResult} (e₁ : State.opWriteAt s b t p w = (t₁, a₁))
    (hk : 0x3FFFFFFFFFFFFFFFFFFFFFFFFFFFFFFFFFFFFFFFFFFFFFFFFFFFFFFFFFFFFFFFFFFFFFFFFFFFFFFFFFFFFFFFFFE00D6 ||| m = m) (h : Touches m s0 s) : Touches m s0 t₁ := Touches.fst e₁ (State.opWriteAt_touches hk h)


theorem State.opClearAt_touches {m : Nat} {s0 : State} {s : State} {b t : Nat} {p : TablePlan} {w : Nat} (hk : 0x4000000000000000000000000000040 ||| m = m)
    (h : Touches m s0 s) : Touches m s0 (State.opClearAt s b t p w).1 := by
  refine Touches.step (k := 0x4000000000000000000000000000040) (t := s) ?_ hk h
  clear hk h
  unfold State.opClearAt
  have h0 := Touches.refl 0x4000000000000000000000000000040 s
  repeat' first
    | with_reducible assumption
    | (extract_lets +onlyGivenNames s'; with_reducible refine Touches.cut (t := s') ?_ ?_; subst s'; rotate_left; clear_value s'; intro hs; rotate_left)
    | (extract_lets +onlyGivenNames s'; first | (have _e : State → _ := s'; clear _e; subst s') | clear_value s')
    | with_reducible refine State.putTable_touches (by decide) ?_
    | with_reducible refine State.refreshTable_touches (by decide) ?_
    | split

theorem State.opClearAt_touches_eq {m : Nat} {s0 t₁ : State} {s : State} {b t : Nat} {p : TablePlan} {w : Nat} {a₁ : CmdResult} (e₁ : State.opClearAt s b t p w = (t₁, a₁))
    (hk : 0x4000000000000000000000000000040 ||| m = m) (h : Touches m s0 s) : Touches m s0 t₁ := Touches.fst e₁ (State.opClearAt_touches hk h)


theorem State.opMove_touches {m : Nat} {s0 : State} {s : State} {b t : Nat} {p : TablePlan} {w : Nat} (hk : 0x40 ||| m = m)
    (h : Touches m s0 s) : Touches m s0 (State.opMove s b t p w).1 := by
  refine Touches.step (k := 0x40) (t := s) ?_ hk h
  clear hk h
  unfold State.opMove
  have h0 := Touches.refl 0x40 s
  repeat' first
    | with_reducible assumption
    | (extract_lets +onlyGivenNames s'; with_reducible refine Touches.cut (t := s') ?_ ?_; subst s'; rotate_left; clear_value s'; intro hs; rotate_left)
    | (extract_lets +onlyGivenNames s'; first | (have _e : State → _ := s'; clear _e; subst s') | clear_value s')
    | with_reducible refine State.putTable_touches (by decide) ?_
    | split

theorem State.opMove_touches_eq {m : Nat} {s0 t₁ : State} {s : State} {b t : Nat} {p : TablePlan} {w : Nat} {a₁ : CmdResult} (e₁ : State.opMove s b t p w = (t₁, a₁))
    (hk : 0x40 ||| m = m) (h : Touches m s0 s) : Touches m s0 t₁ := Touches.fst e₁ (State.opMove_touches hk h)


theorem State.opLpmAdd_touches {m : Nat} {s0 : State} {s : State} {b t : Nat} {p : TablePlan} {_w : Nat} (hk : 0x4000000000000000000000000000040 ||| m = m)
    (h : Touches m s0 s) : Touches m s0 (State.opLpmAdd s b t p _w).1 := by
  refine Touches.step (k := 0x4000000000000000000000000000040) (t := s) ?_ hk h
  clear hk h
  unfold State.opLpmAdd
  have h0 := Touches.refl 0x4000000000000000000000000000040 s
  repeat' first
    | with_reducible assumption
    | (extract_lets +onlyGivenNames s'; with_reducible refine Touches.cut (t := s') ?_ ?_; subst s'; rotate_left; clear_value s'; intro hs; rotate_left)
    | (extract_lets +onlyGivenNames s'; first | (have _e : State → _ := s'; clear _e; subst s') | clear_value s')
    | with_reducible refine State.putTable_touches (by decide) ?_
    | with_reducible refine State.refreshTable_touches (by decide) ?_
    | split

theorem State.opLpmAdd_touches_eq {m : Nat} {s0 t₁ : State} {s : State} {b t : Nat} {p : TablePlan} {_w : Nat} {a₁ : CmdResult} (e₁ : State.opLpmAdd s b t p _w = (t₁, a₁))
    (hk : 0x4000000000000000000000000000040 ||| m = m) (h : Touches m s0 s) : Touches m s0 t₁ := Touches.fst e₁ (State.opLpmAdd_touches hk h)


theorem State.opLpmDelete_touches {m : Nat} {s0 : State} {s : State} {b t : Nat} {p : TablePlan} {_w : Nat} (hk : 0x4000000000000000000000000000040 ||| m = m)
    (h : Touches m s0 s) : Touches m s0 (State.opLpmDelete s b t p _w).1 := by
  refine Touches.step (k := 0x4000000000000000000000000000040) (t := s) ?_ hk h
  clear hk h
  unfold State.opLpmDelete
  have h0 := Touches.refl 0x4000000000000000000000000000040 s
  repeat' first
    | with_reducible assumption
    | (extract_lets +onlyGivenNames s'; with_reducible refine Touches.cut (t := s') ?_ ?_; subst s'; rotate_left; clear_value s'; intro hs; rotate_left)
    | (extract_lets +onlyGivenNames s'; first | (have _e : State → _ := s'; clear _e; subst s') | clear_value s')
    | with_reducible refine State.putTable_touches (by decide) ?_
    | with_reducible refine State.refreshTable_touches (by decide) ?_
    | split

theorem State.opLpmDelete_touches_eq {m : Nat} {s0 t₁ : State} {s : State} {b t : Nat} {p : TablePlan} {_w : Nat} {a₁ : CmdResult} (e₁ : State.opLpmDelete s b t p _w = (t₁, a₁))
    (hk : 0x4000000000000000000000000000040 ||| m = m) (h : Touches m s0 s) : Touches m s0 t₁ := Touches.fst e₁ (State.opLpmDelete_touches hk h)


theorem State.emptyTable_touches {m : Nat} {s0 : State} {s : State} {t : Nat} (hk : 0x4000000000000000000000000000040 ||| m = m)
    (h : Touches m s0 s) : Touches m s0 (State.emptyTable s t) := by
  refine Touches.step (k := 0x4000000000000000000000000000040) (t := s) ?_ hk h
  clear hk h
  unfold State.emptyTable
  have h0 := Touches.refl 0x4000000000000000000000000000040 s
  repeat' first
    | with_reducible assumption
    | (extract_lets +onlyGivenNames s'; with_reducible refine Touches.cut (t := s') ?_ ?_; subst s'; rotate_left; clear_value s'; intro hs; rotate_left)
    | (extract_lets +onlyGivenNames s'; first | (have _e : State → _ := s'; clear _e; subst s') | (have _e : TableBlock := s'; clear _e; subst s') | clear_value s')
    | with_reducible refine State.putTable_touches (by decide) ?_
    | with_reducible refine State.refreshTable_touches (by decide) ?_
    | split
    | with_reducible refine Touches.upd_tb (by decide) ?_


theorem State.opClearTable_touches {m : Nat} {s0 : State} {s : State} {b t : Nat} {p : TablePlan} {w : Nat} (hk : 0x4000000000000000000000000000040 ||| m = m)
    (h : Touches m s0 s) : Touches m s0 (State.opClearTable s b t p w).1 := by
  refine Touches.step (k := 0x4000000000000000000000000000040) (t := s) ?_ hk h
  clear hk h
  unfold State.opClearTable
  have h0 := Touches.refl 0x4000000000000000000000000000040 s
  repeat' first
    | with_reducible assumption
    | (extract_lets +onlyGivenNames s'; with_reducible refine Touches.cut (t := s') ?_ ?_; subst s'; rotate_left; clear_value s'; intro hs; rotate_left)
    | (extract_lets +onlyGivenNames s'; first | (have _e : State → _ := s'; clear _e; subst s') | (have _e : TableBlock := s'; clear _e; subst s') | clear_value s')
    | with_reducible refine State.putTable_touches (by decide) ?_
    | with_reducible refine State.refreshTable_touches (by decide) ?_
    | split
    | with_reducible refine Touches.upd_tb (by decide) ?_

theorem State.opClearTable_touches_eq {m : Nat} {s0 t₁ : State} {s : State} {b t : Nat} {p : TablePlan} {w : Nat} {a₁ : CmdResult} (e₁ : State.opClearTable s b t p w = (t₁, a₁))
    (hk : 0x4000000000000000000000000000040 ||| m = m) (h : Touches m s0 s) : Touches m s0 t₁ := Touches.fst e₁ (State.opClearTable_touches hk h)


theorem State.opRun_touches {m : Nat} {s0 : State} {s : State} {op b t : Nat} {p : TablePlan} {w : Nat} (hk : 0x3FFFFFFFFFFFFFFFFFFFFFFFFFFFFFFFFFFFFFFFFFFFFFFFFFFFFFFFFFFFFFFFFFFFFFFFFFFFFFFFFFFFFFFFFFE00D6 ||| m = m)
    (h : Touches m s0 s) : Touches m s0 (State.opRun s op b t p w).1 := by
  refine Touches.step (k := 0x3FFFFFFFFFFFFFFFFFFFFFFFFFFFFFFFFFFFFFFFFFFFFFFFFFFFFFFFFFFFFFFFFFFFFFFFFFFFFFFFFFFFFFFFFFE00D6) (t := s) ?_ hk h
  clear hk h
  unfold State.opRun
  have h0 := Touches.refl 0x3FFFFFFFFFFFFFFFFFFFFFFFFFFFFFFFFFFFFFFFFFFFFFFFFFFFFFFFFFFFFFFFFFFFFFFFFFFFFFFFFFFFFFFFFFE00D6 s
  repeat' first
    | with_reducible assumption
    | (extract_lets +onlyGivenNames s'; with_reducible refine Touches.cut (t := s') ?_ ?_; subst s'; rotate_left; clear_value s'; intro hs; rotate_left)
    | (extract_lets +onlyGivenNames s'; first | (have _e : State → _ := s'; clear _e; subst s') | clear_value s')
    | with_reducible refine State.opLookup_touches_eq (by assumption) (by decide) ?_
    | with_reducible refine State.opLookup_touches (by decide) ?_
    | with_reducible refine State.opRead_touches_eq (by assumption) (by decide) ?_
    | with_reducible refine State.opRead_touches (by decide) ?_
    | with_reducible refine State.opInsert_touches_eq (by assumption) (by decide) ?_
    | with_reducible refine State.opInsert_touches (by decide) ?_
    | with_reducible refine State.opUpdate_touches_eq (by assumption) (by decide) ?_
    | with_reducible refine State.opUpdate_touches (by decide) ?_
    | with_reducible refine State.opUpsert_touches_eq (by assumption) (by decide) ?_
    | with_reducible refine State.opUpsert_touches (by decide) ?_
    | with_reducible refine State.opDelete_touches_eq (by assumption) (by decide) ?_
    | with_reducible refine State.opDelete_touches (by decide) ?_
    | with_reducible refine State.opUnpin_touches_eq (by assumption) (by decide) ?_
    | with_reducible refine State.opUnpin_touches (by decide) ?_
    | with_reducible refine State.opWriteAt_touches_eq (by assumption) (by decide) ?_
    | with_reducible refine State.opWriteAt_touches (by decide) ?_
    | with_reducible refine State.opClearAt_touches_eq (by assumption) (by decide) ?_
    | with_reducible refine State.opClearAt_touches (by decide) ?_
    | with_reducible refine State.opMove_touches_eq (by assumption) (by decide) ?_
    | with_reducible refine State.opMove_touches (by decide) ?_
    | with_reducible refine State.opLpmAdd_touches_eq (by assumption) (by decide) ?_
    | with_reducible refine State.opLpmAdd_touches (by decide) ?_
    | with_reducible refine State.opLpmDelete_touches_eq (by assumption) (by decide) ?_
    | with_reducible refine State.opLpmDelete_touches (by decide) ?_
    | with_reducible refine State.opClearTable_touches_eq (by assumption) (by decide) ?_
    | with_reducible refine State.opClearTable_touches (by decide) ?_
    | split

theorem State.opRun_touches_eq {m : Nat} {s0 t₁ : State} {s : State} {op b t : Nat} {p : TablePlan} {w : Nat} {a₁ : CmdResult} (e₁ : State.opRun s op b t p w = (t₁, a₁))
    (hk : 0x3FFFFFFFFFFFFFFFFFFFFFFFFFFFFFFFFFFFFFFFFFFFFFFFFFFFFFFFFFFFFFFFFFFFFFFFFFFFFFFFFFFFFFFFFFE00D6 ||| m = m) (h : Touches m s0 s) : Touches m s0 t₁ := Touches.fst e₁ (State.opRun_touches hk h)


theorem State.opStart_touches {m : Nat} {s0 : State} {s : State} {b : Nat} (hk : 0x3FFFFFFFFFFFFFFFFFFFFFFFFFFFFFFFFFFFFFFFFFFFFFFFFFFFFFFFFFFFFFFFFFFFFFFFFFFFFFFFFFFFFFFFFFE00D6 ||| m = m)
    (h : Touches m s0 s) : Touches m s0 (State.opStart s b) := by
  refine Touches.step (k := 0x3FFFFFFFFFFFFFFFFFFFFFFFFFFFFFFFFFFFFFFFFFFFFFFFFFFFFFFFFFFFFFFFFFFFFFFFFFFFFFFFFFFFFFFFFFE00D6) (t := s) ?_ hk h
  clear hk h
  unfold State.opStart
  have h0 := Touches.refl 0x3FFFFFFFFFFFFFFFFFFFFFFFFFFFFFFFFFFFFFFFFFFFFFFFFFFFFFFFFFFFFFFFFFFFFFFFFFFFFFFFFFFFFFFFFFE00D6 s
  repeat' first
    | with_reducible assumption
    | (extract_lets +onlyGivenNames s'; with_reducible refine Touches.cut (t := s') ?_ ?_; subst s'; rotate_left; clear_value s'; intro hs; rotate_left)
    | (extract_lets +onlyGivenNames s'; first | (have _e : State → _ := s'; clear _e; subst s') | (have _e : TableBlock := s'; clear _e; subst s') | clear_value s')
    | with_reducible refine State.cmdFinish_touches (by decide) ?_
    | with_reducible refine State.opRun_touches_eq (by assumption) (by decide) ?_
    | with_reducible refine State.opRun_touches (by decide) ?_
    | split
    | with_reducible refine Touches.upd_tb (by decide) ?_


theorem State.cmdGo_touches {m : Nat} {s0 : State} {s : State} {b op : Nat} {value : Word} (hk : 0x3FFFFFFFFFFFFFFFFFFFFFFFFFFFFFFFFFFFFFFFFFFFFFFFFFFFFFFFFFFFFFFFFFFFFFFFFFFFFFFFFFFFFFFFFFE00D6 ||| m = m)
    (h : Touches m s0 s) : Touches m s0 (State.cmdGo s b op value) := by
  refine Touches.step (k := 0x3FFFFFFFFFFFFFFFFFFFFFFFFFFFFFFFFFFFFFFFFFFFFFFFFFFFFFFFFFFFFFFFFFFFFFFFFFFFFFFFFFFFFFFFFFE00D6) (t := s) ?_ hk h
  clear hk h
  unfold State.cmdGo
  have h0 := Touches.refl 0x3FFFFFFFFFFFFFFFFFFFFFFFFFFFFFFFFFFFFFFFFFFFFFFFFFFFFFFFFFFFFFFFFFFFFFFFFFFFFFFFFFFFFFFFFFE00D6 s
  repeat' first
    | with_reducible assumption
    | (extract_lets +onlyGivenNames s'; with_reducible refine Touches.cut (t := s') ?_ ?_; subst s'; rotate_left; clear_value s'; intro hs; rotate_left)
    | (extract_lets +onlyGivenNames s'; first | (have _e : State → _ := s'; clear _e; subst s') | (have _e : TableBlock := s'; clear _e; subst s') | clear_value s')
    | with_reducible refine State.opStart_touches (by decide) ?_
    | with_reducible refine Touches.set (by first | decide | assumption | (split <;> decide)) ?_
    | split
    | with_reducible refine Touches.upd_tb (by decide) ?_


theorem execLookup_touches {m : Nat} {s0 : State} {block : Fin 32} {value : Word} {s : State} (hk : 0x3FFFFFFFFFFFFFFFFFFFFFFFFFFFFFFFFFFFFFFFFFFFFFFFFFFFFFFFFFFFFFFFFFFFFFFFFFFFFFFFFFFFFFFFFFE00D6 ||| m = m)
    (h : Touches m s0 s) : Ends m s0 (execLookup block value s) := by
  refine Ends.step (k := 0x3FFFFFFFFFFFFFFFFFFFFFFFFFFFFFFFFFFFFFFFFFFFFFFFFFFFFFFFFFFFFFFFFFFFFFFFFFFFFFFFFFFFFFFFFFE00D6) (t := s) ?_ hk h
  clear hk h
  unfold execLookup
  have h0 := Touches.refl 0x3FFFFFFFFFFFFFFFFFFFFFFFFFFFFFFFFFFFFFFFFFFFFFFFFFFFFFFFFFFFFFFFFFFFFFFFFFFFFFFFFFFFFFFFFFE00D6 s
  repeat' first
    | with_reducible assumption
    | (extract_lets +onlyGivenNames s'; with_reducible refine Touches.cut (t := s') ?_ ?_; subst s'; rotate_left; clear_value s'; intro hs; rotate_left)
    | (extract_lets +onlyGivenNames s'; with_reducible refine Ends.cut (t := s') ?_ ?_; subst s'; rotate_left; clear_value s'; intro hs; rotate_left)
    | with_reducible refine Ends.next ?_
    | (extract_lets +onlyGivenNames s'; first | (have _e : State → _ := s'; clear _e; subst s') | clear_value s')
    | with_reducible refine State.cmdGo_touches (by decide) ?_
    | split


theorem execRead_touches {m : Nat} {s0 : State} {block : Fin 32} {value : Word} {s : State} (hk : 0x3FFFFFFFFFFFFFFFFFFFFFFFFFFFFFFFFFFFFFFFFFFFFFFFFFFFFFFFFFFFFFFFFFFFFFFFFFFFFFFFFFFFFFFFFFE00D6 ||| m = m)
    (h : Touches m s0 s) : Ends m s0 (execRead block value s) := by
  refine Ends.step (k := 0x3FFFFFFFFFFFFFFFFFFFFFFFFFFFFFFFFFFFFFFFFFFFFFFFFFFFFFFFFFFFFFFFFFFFFFFFFFFFFFFFFFFFFFFFFFE00D6) (t := s) ?_ hk h
  clear hk h
  unfold execRead
  have h0 := Touches.refl 0x3FFFFFFFFFFFFFFFFFFFFFFFFFFFFFFFFFFFFFFFFFFFFFFFFFFFFFFFFFFFFFFFFFFFFFFFFFFFFFFFFFFFFFFFFFE00D6 s
  repeat' first
    | with_reducible assumption
    | (extract_lets +onlyGivenNames s'; with_reducible refine Touches.cut (t := s') ?_ ?_; subst s'; rotate_left; clear_value s'; intro hs; rotate_left)
    | (extract_lets +onlyGivenNames s'; with_reducible refine Ends.cut (t := s') ?_ ?_; subst s'; rotate_left; clear_value s'; intro hs; rotate_left)
    | with_reducible refine Ends.next ?_
    | (extract_lets +onlyGivenNames s'; first | (have _e : State → _ := s'; clear _e; subst s') | clear_value s')
    | with_reducible refine State.cmdGo_touches (by decide) ?_
    | split


theorem execInsert_touches {m : Nat} {s0 : State} {block : Fin 32} {value : Word} {s : State} (hk : 0x3FFFFFFFFFFFFFFFFFFFFFFFFFFFFFFFFFFFFFFFFFFFFFFFFFFFFFFFFFFFFFFFFFFFFFFFFFFFFFFFFFFFFFFFFFE00D6 ||| m = m)
    (h : Touches m s0 s) : Ends m s0 (execInsert block value s) := by
  refine Ends.step (k := 0x3FFFFFFFFFFFFFFFFFFFFFFFFFFFFFFFFFFFFFFFFFFFFFFFFFFFFFFFFFFFFFFFFFFFFFFFFFFFFFFFFFFFFFFFFFE00D6) (t := s) ?_ hk h
  clear hk h
  unfold execInsert
  have h0 := Touches.refl 0x3FFFFFFFFFFFFFFFFFFFFFFFFFFFFFFFFFFFFFFFFFFFFFFFFFFFFFFFFFFFFFFFFFFFFFFFFFFFFFFFFFFFFFFFFFE00D6 s
  repeat' first
    | with_reducible assumption
    | (extract_lets +onlyGivenNames s'; with_reducible refine Touches.cut (t := s') ?_ ?_; subst s'; rotate_left; clear_value s'; intro hs; rotate_left)
    | (extract_lets +onlyGivenNames s'; with_reducible refine Ends.cut (t := s') ?_ ?_; subst s'; rotate_left; clear_value s'; intro hs; rotate_left)
    | with_reducible refine Ends.next ?_
    | (extract_lets +onlyGivenNames s'; first | (have _e : State → _ := s'; clear _e; subst s') | clear_value s')
    | with_reducible refine State.cmdGo_touches (by decide) ?_
    | split


theorem execUpdate_touches {m : Nat} {s0 : State} {block : Fin 32} {value : Word} {s : State} (hk : 0x3FFFFFFFFFFFFFFFFFFFFFFFFFFFFFFFFFFFFFFFFFFFFFFFFFFFFFFFFFFFFFFFFFFFFFFFFFFFFFFFFFFFFFFFFFE00D6 ||| m = m)
    (h : Touches m s0 s) : Ends m s0 (execUpdate block value s) := by
  refine Ends.step (k := 0x3FFFFFFFFFFFFFFFFFFFFFFFFFFFFFFFFFFFFFFFFFFFFFFFFFFFFFFFFFFFFFFFFFFFFFFFFFFFFFFFFFFFFFFFFFE00D6) (t := s) ?_ hk h
  clear hk h
  unfold execUpdate
  have h0 := Touches.refl 0x3FFFFFFFFFFFFFFFFFFFFFFFFFFFFFFFFFFFFFFFFFFFFFFFFFFFFFFFFFFFFFFFFFFFFFFFFFFFFFFFFFFFFFFFFFE00D6 s
  repeat' first
    | with_reducible assumption
    | (extract_lets +onlyGivenNames s'; with_reducible refine Touches.cut (t := s') ?_ ?_; subst s'; rotate_left; clear_value s'; intro hs; rotate_left)
    | (extract_lets +onlyGivenNames s'; with_reducible refine Ends.cut (t := s') ?_ ?_; subst s'; rotate_left; clear_value s'; intro hs; rotate_left)
    | with_reducible refine Ends.next ?_
    | (extract_lets +onlyGivenNames s'; first | (have _e : State → _ := s'; clear _e; subst s') | clear_value s')
    | with_reducible refine State.cmdGo_touches (by decide) ?_
    | split


theorem execUpsert_touches {m : Nat} {s0 : State} {block : Fin 32} {value : Word} {s : State} (hk : 0x3FFFFFFFFFFFFFFFFFFFFFFFFFFFFFFFFFFFFFFFFFFFFFFFFFFFFFFFFFFFFFFFFFFFFFFFFFFFFFFFFFFFFFFFFFE00D6 ||| m = m)
    (h : Touches m s0 s) : Ends m s0 (execUpsert block value s) := by
  refine Ends.step (k := 0x3FFFFFFFFFFFFFFFFFFFFFFFFFFFFFFFFFFFFFFFFFFFFFFFFFFFFFFFFFFFFFFFFFFFFFFFFFFFFFFFFFFFFFFFFFE00D6) (t := s) ?_ hk h
  clear hk h
  unfold execUpsert
  have h0 := Touches.refl 0x3FFFFFFFFFFFFFFFFFFFFFFFFFFFFFFFFFFFFFFFFFFFFFFFFFFFFFFFFFFFFFFFFFFFFFFFFFFFFFFFFFFFFFFFFFE00D6 s
  repeat' first
    | with_reducible assumption
    | (extract_lets +onlyGivenNames s'; with_reducible refine Touches.cut (t := s') ?_ ?_; subst s'; rotate_left; clear_value s'; intro hs; rotate_left)
    | (extract_lets +onlyGivenNames s'; with_reducible refine Ends.cut (t := s') ?_ ?_; subst s'; rotate_left; clear_value s'; intro hs; rotate_left)
    | with_reducible refine Ends.next ?_
    | (extract_lets +onlyGivenNames s'; first | (have _e : State → _ := s'; clear _e; subst s') | clear_value s')
    | with_reducible refine State.cmdGo_touches (by decide) ?_
    | split


theorem execDelete_touches {m : Nat} {s0 : State} {block : Fin 32} {value : Word} {s : State} (hk : 0x3FFFFFFFFFFFFFFFFFFFFFFFFFFFFFFFFFFFFFFFFFFFFFFFFFFFFFFFFFFFFFFFFFFFFFFFFFFFFFFFFFFFFFFFFFE00D6 ||| m = m)
    (h : Touches m s0 s) : Ends m s0 (execDelete block value s) := by
  refine Ends.step (k := 0x3FFFFFFFFFFFFFFFFFFFFFFFFFFFFFFFFFFFFFFFFFFFFFFFFFFFFFFFFFFFFFFFFFFFFFFFFFFFFFFFFFFFFFFFFFE00D6) (t := s) ?_ hk h
  clear hk h
  unfold execDelete
  have h0 := Touches.refl 0x3FFFFFFFFFFFFFFFFFFFFFFFFFFFFFFFFFFFFFFFFFFFFFFFFFFFFFFFFFFFFFFFFFFFFFFFFFFFFFFFFFFFFFFFFFE00D6 s
  repeat' first
    | with_reducible assumption
    | (extract_lets +onlyGivenNames s'; with_reducible refine Touches.cut (t := s') ?_ ?_; subst s'; rotate_left; clear_value s'; intro hs; rotate_left)
    | (extract_lets +onlyGivenNames s'; with_reducible refine Ends.cut (t := s') ?_ ?_; subst s'; rotate_left; clear_value s'; intro hs; rotate_left)
    | with_reducible refine Ends.next ?_
    | (extract_lets +onlyGivenNames s'; first | (have _e : State → _ := s'; clear _e; subst s') | clear_value s')
    | with_reducible refine State.cmdGo_touches (by decide) ?_
    | split


theorem execWriteAt_touches {m : Nat} {s0 : State} {block : Fin 32} {value : Word} {s : State} (hk : 0x3FFFFFFFFFFFFFFFFFFFFFFFFFFFFFFFFFFFFFFFFFFFFFFFFFFFFFFFFFFFFFFFFFFFFFFFFFFFFFFFFFFFFFFFFFE00D6 ||| m = m)
    (h : Touches m s0 s) : Ends m s0 (execWriteAt block value s) := by
  refine Ends.step (k := 0x3FFFFFFFFFFFFFFFFFFFFFFFFFFFFFFFFFFFFFFFFFFFFFFFFFFFFFFFFFFFFFFFFFFFFFFFFFFFFFFFFFFFFFFFFFE00D6) (t := s) ?_ hk h
  clear hk h
  unfold execWriteAt
  have h0 := Touches.refl 0x3FFFFFFFFFFFFFFFFFFFFFFFFFFFFFFFFFFFFFFFFFFFFFFFFFFFFFFFFFFFFFFFFFFFFFFFFFFFFFFFFFFFFFFFFFE00D6 s
  repeat' first
    | with_reducible assumption
    | (extract_lets +onlyGivenNames s'; with_reducible refine Touches.cut (t := s') ?_ ?_; subst s'; rotate_left; clear_value s'; intro hs; rotate_left)
    | (extract_lets +onlyGivenNames s'; with_reducible refine Ends.cut (t := s') ?_ ?_; subst s'; rotate_left; clear_value s'; intro hs; rotate_left)
    | with_reducible refine Ends.next ?_
    | (extract_lets +onlyGivenNames s'; first | (have _e : State → _ := s'; clear _e; subst s') | clear_value s')
    | with_reducible refine State.cmdGo_touches (by decide) ?_
    | split


theorem execClearAt_touches {m : Nat} {s0 : State} {block : Fin 32} {value : Word} {s : State} (hk : 0x3FFFFFFFFFFFFFFFFFFFFFFFFFFFFFFFFFFFFFFFFFFFFFFFFFFFFFFFFFFFFFFFFFFFFFFFFFFFFFFFFFFFFFFFFFE00D6 ||| m = m)
    (h : Touches m s0 s) : Ends m s0 (execClearAt block value s) := by
  refine Ends.step (k := 0x3FFFFFFFFFFFFFFFFFFFFFFFFFFFFFFFFFFFFFFFFFFFFFFFFFFFFFFFFFFFFFFFFFFFFFFFFFFFFFFFFFFFFFFFFFE00D6) (t := s) ?_ hk h
  clear hk h
  unfold execClearAt
  have h0 := Touches.refl 0x3FFFFFFFFFFFFFFFFFFFFFFFFFFFFFFFFFFFFFFFFFFFFFFFFFFFFFFFFFFFFFFFFFFFFFFFFFFFFFFFFFFFFFFFFFE00D6 s
  repeat' first
    | with_reducible assumption
    | (extract_lets +onlyGivenNames s'; with_reducible refine Touches.cut (t := s') ?_ ?_; subst s'; rotate_left; clear_value s'; intro hs; rotate_left)
    | (extract_lets +onlyGivenNames s'; with_reducible refine Ends.cut (t := s') ?_ ?_; subst s'; rotate_left; clear_value s'; intro hs; rotate_left)
    | with_reducible refine Ends.next ?_
    | (extract_lets +onlyGivenNames s'; first | (have _e : State → _ := s'; clear _e; subst s') | clear_value s')
    | with_reducible refine State.cmdGo_touches (by decide) ?_
    | split


theorem execMove_touches {m : Nat} {s0 : State} {block : Fin 32} {value : Word} {s : State} (hk : 0x3FFFFFFFFFFFFFFFFFFFFFFFFFFFFFFFFFFFFFFFFFFFFFFFFFFFFFFFFFFFFFFFFFFFFFFFFFFFFFFFFFFFFFFFFFE00D6 ||| m = m)
    (h : Touches m s0 s) : Ends m s0 (execMove block value s) := by
  refine Ends.step (k := 0x3FFFFFFFFFFFFFFFFFFFFFFFFFFFFFFFFFFFFFFFFFFFFFFFFFFFFFFFFFFFFFFFFFFFFFFFFFFFFFFFFFFFFFFFFFE00D6) (t := s) ?_ hk h
  clear hk h
  unfold execMove
  have h0 := Touches.refl 0x3FFFFFFFFFFFFFFFFFFFFFFFFFFFFFFFFFFFFFFFFFFFFFFFFFFFFFFFFFFFFFFFFFFFFFFFFFFFFFFFFFFFFFFFFFE00D6 s
  repeat' first
    | with_reducible assumption
    | (extract_lets +onlyGivenNames s'; with_reducible refine Touches.cut (t := s') ?_ ?_; subst s'; rotate_left; clear_value s'; intro hs; rotate_left)
    | (extract_lets +onlyGivenNames s'; with_reducible refine Ends.cut (t := s') ?_ ?_; subst s'; rotate_left; clear_value s'; intro hs; rotate_left)
    | with_reducible refine Ends.next ?_
    | (extract_lets +onlyGivenNames s'; first | (have _e : State → _ := s'; clear _e; subst s') | clear_value s')
    | with_reducible refine State.cmdGo_touches (by decide) ?_
    | split


theorem execLpmAdd_touches {m : Nat} {s0 : State} {block : Fin 32} {value : Word} {s : State} (hk : 0x3FFFFFFFFFFFFFFFFFFFFFFFFFFFFFFFFFFFFFFFFFFFFFFFFFFFFFFFFFFFFFFFFFFFFFFFFFFFFFFFFFFFFFFFFFE00D6 ||| m = m)
    (h : Touches m s0 s) : Ends m s0 (execLpmAdd block value s) := by
  refine Ends.step (k := 0x3FFFFFFFFFFFFFFFFFFFFFFFFFFFFFFFFFFFFFFFFFFFFFFFFFFFFFFFFFFFFFFFFFFFFFFFFFFFFFFFFFFFFFFFFFE00D6) (t := s) ?_ hk h
  clear hk h
  unfold execLpmAdd
  have h0 := Touches.refl 0x3FFFFFFFFFFFFFFFFFFFFFFFFFFFFFFFFFFFFFFFFFFFFFFFFFFFFFFFFFFFFFFFFFFFFFFFFFFFFFFFFFFFFFFFFFE00D6 s
  repeat' first
    | with_reducible assumption
    | (extract_lets +onlyGivenNames s'; with_reducible refine Touches.cut (t := s') ?_ ?_; subst s'; rotate_left; clear_value s'; intro hs; rotate_left)
    | (extract_lets +onlyGivenNames s'; with_reducible refine Ends.cut (t := s') ?_ ?_; subst s'; rotate_left; clear_value s'; intro hs; rotate_left)
    | with_reducible refine Ends.next ?_
    | (extract_lets +onlyGivenNames s'; first | (have _e : State → _ := s'; clear _e; subst s') | clear_value s')
    | with_reducible refine State.cmdGo_touches (by decide) ?_
    | split


theorem execLpmDelete_touches {m : Nat} {s0 : State} {block : Fin 32} {value : Word} {s : State} (hk : 0x3FFFFFFFFFFFFFFFFFFFFFFFFFFFFFFFFFFFFFFFFFFFFFFFFFFFFFFFFFFFFFFFFFFFFFFFFFFFFFFFFFFFFFFFFFE00D6 ||| m = m)
    (h : Touches m s0 s) : Ends m s0 (execLpmDelete block value s) := by
  refine Ends.step (k := 0x3FFFFFFFFFFFFFFFFFFFFFFFFFFFFFFFFFFFFFFFFFFFFFFFFFFFFFFFFFFFFFFFFFFFFFFFFFFFFFFFFFFFFFFFFFE00D6) (t := s) ?_ hk h
  clear hk h
  unfold execLpmDelete
  have h0 := Touches.refl 0x3FFFFFFFFFFFFFFFFFFFFFFFFFFFFFFFFFFFFFFFFFFFFFFFFFFFFFFFFFFFFFFFFFFFFFFFFFFFFFFFFFFFFFFFFFE00D6 s
  repeat' first
    | with_reducible assumption
    | (extract_lets +onlyGivenNames s'; with_reducible refine Touches.cut (t := s') ?_ ?_; subst s'; rotate_left; clear_value s'; intro hs; rotate_left)
    | (extract_lets +onlyGivenNames s'; with_reducible refine Ends.cut (t := s') ?_ ?_; subst s'; rotate_left; clear_value s'; intro hs; rotate_left)
    | with_reducible refine Ends.next ?_
    | (extract_lets +onlyGivenNames s'; first | (have _e : State → _ := s'; clear _e; subst s') | clear_value s')
    | with_reducible refine State.cmdGo_touches (by decide) ?_
    | split


theorem execUnpin_touches {m : Nat} {s0 : State} {block : Fin 32} {value : Word} {s : State} (hk : 0x3FFFFFFFFFFFFFFFFFFFFFFFFFFFFFFFFFFFFFFFFFFFFFFFFFFFFFFFFFFFFFFFFFFFFFFFFFFFFFFFFFFFFFFFFFE00D6 ||| m = m)
    (h : Touches m s0 s) : Ends m s0 (execUnpin block value s) := by
  refine Ends.step (k := 0x3FFFFFFFFFFFFFFFFFFFFFFFFFFFFFFFFFFFFFFFFFFFFFFFFFFFFFFFFFFFFFFFFFFFFFFFFFFFFFFFFFFFFFFFFFE00D6) (t := s) ?_ hk h
  clear hk h
  unfold execUnpin
  have h0 := Touches.refl 0x3FFFFFFFFFFFFFFFFFFFFFFFFFFFFFFFFFFFFFFFFFFFFFFFFFFFFFFFFFFFFFFFFFFFFFFFFFFFFFFFFFFFFFFFFFE00D6 s
  repeat' first
    | with_reducible assumption
    | (extract_lets +onlyGivenNames s'; with_reducible refine Touches.cut (t := s') ?_ ?_; subst s'; rotate_left; clear_value s'; intro hs; rotate_left)
    | (extract_lets +onlyGivenNames s'; with_reducible refine Ends.cut (t := s') ?_ ?_; subst s'; rotate_left; clear_value s'; intro hs; rotate_left)
    | with_reducible refine Ends.next ?_
    | (extract_lets +onlyGivenNames s'; first | (have _e : State → _ := s'; clear _e; subst s') | clear_value s')
    | with_reducible refine State.cmdGo_touches (by decide) ?_
    | split


theorem execClearTable_touches {m : Nat} {s0 : State} {block : Fin 32} {value : Word} {s : State} (hk : 0x3FFFFFFFFFFFFFFFFFFFFFFFFFFFFFFFFFFFFFFFFFFFFFFFFFFFFFFFFFFFFFFFFFFFFFFFFFFFFFFFFFFFFFFFFFE00D6 ||| m = m)
    (h : Touches m s0 s) : Ends m s0 (execClearTable block value s) := by
  refine Ends.step (k := 0x3FFFFFFFFFFFFFFFFFFFFFFFFFFFFFFFFFFFFFFFFFFFFFFFFFFFFFFFFFFFFFFFFFFFFFFFFFFFFFFFFFFFFFFFFFE00D6) (t := s) ?_ hk h
  clear hk h
  unfold execClearTable
  have h0 := Touches.refl 0x3FFFFFFFFFFFFFFFFFFFFFFFFFFFFFFFFFFFFFFFFFFFFFFFFFFFFFFFFFFFFFFFFFFFFFFFFFFFFFFFFFFFFFFFFFE00D6 s
  repeat' first
    | with_reducible assumption
    | (extract_lets +onlyGivenNames s'; with_reducible refine Touches.cut (t := s') ?_ ?_; subst s'; rotate_left; clear_value s'; intro hs; rotate_left)
    | (extract_lets +onlyGivenNames s'; with_reducible refine Ends.cut (t := s') ?_ ?_; subst s'; rotate_left; clear_value s'; intro hs; rotate_left)
    | with_reducible refine Ends.next ?_
    | (extract_lets +onlyGivenNames s'; first | (have _e : State → _ := s'; clear _e; subst s') | clear_value s')
    | with_reducible refine State.cmdGo_touches (by decide) ?_
    | split


theorem State.opEnd_touches {m : Nat} {s0 : State} {s : State} {b : Nat} (hk : 0x280000000100000000000000000000000000000000000000000000080280000000000000000000040080 ||| m = m)
    (h : Touches m s0 s) : Touches m s0 (State.opEnd s b) := by
  refine Touches.step (k := 0x280000000100000000000000000000000000000000000000000000080280000000000000000000040080) (t := s) ?_ hk h
  clear hk h
  unfold State.opEnd
  have h0 := Touches.refl 0x280000000100000000000000000000000000000000000000000000080280000000000000000000040080 s
  repeat' first
    | with_reducible assumption
    | (extract_lets +onlyGivenNames s'; with_reducible refine Touches.cut (t := s') ?_ ?_; subst s'; rotate_left; clear_value s'; intro hs; rotate_left)
    | (extract_lets +onlyGivenNames s'; first | (have _e : State → _ := s'; clear _e; subst s') | clear_value s')
    | with_reducible refine Touches.set (by first | decide | assumption | (split <;> decide)) ?_
    | with_reducible refine Touches.raise (by first | decide | assumption | (split <;> decide)) (by decide) ?_
    | with_reducible refine Touches.raiseWin (by first | decide | assumption | (split <;> decide)) (by decide) ?_
    | split


theorem State.opNext_touches {m : Nat} {s0 : State} {s : State} {t : Nat} (hk : 0x3FFFFFFFFFFFFFFFFFFFFFFFFFFFFFFFFFFFFFFFFFFFFFFFFFFFFFFFFFFFFFFFFFFFFFFFFFFFFFFFFFFFFFFFFFE00D6 ||| m = m)
    (h : Touches m s0 s) : Touches m s0 (State.opNext s t) := by
  refine Touches.step (k := 0x3FFFFFFFFFFFFFFFFFFFFFFFFFFFFFFFFFFFFFFFFFFFFFFFFFFFFFFFFFFFFFFFFFFFFFFFFFFFFFFFFFFFFFFFFFE00D6) (t := s) ?_ hk h
  clear hk h
  unfold State.opNext
  have h0 := Touches.refl 0x3FFFFFFFFFFFFFFFFFFFFFFFFFFFFFFFFFFFFFFFFFFFFFFFFFFFFFFFFFFFFFFFFFFFFFFFFFFFFFFFFFFFFFFFFFE00D6 s
  repeat' first
    | with_reducible assumption
    | (extract_lets +onlyGivenNames s'; with_reducible refine Touches.cut (t := s') ?_ ?_; subst s'; rotate_left; clear_value s'; intro hs; rotate_left)
    | (extract_lets +onlyGivenNames s'; first | (have _e : State → _ := s'; clear _e; subst s') | (have _e : TableBlock := s'; clear _e; subst s') | clear_value s')
    | with_reducible refine State.opStart_touches (by decide) ?_
    | split
    | with_reducible refine Touches.upd_tb (by decide) ?_


theorem execTableOpDone_touches {m : Nat} {s0 : State} {block : Fin 32} {s : State} (hk : 0x3FFFFFFFFFFFFFFFFFFFFFFFFFFFFFFFFFFFFFFFFFFFFFFFFFFFFFFFFFFFFFFFFFFFFFFFFFFFFFFFFFFFFFFFFFE00D6 ||| m = m)
    (h : Touches m s0 s) : Ends m s0 (execTableOpDone block s) := by
  refine Ends.step (k := 0x3FFFFFFFFFFFFFFFFFFFFFFFFFFFFFFFFFFFFFFFFFFFFFFFFFFFFFFFFFFFFFFFFFFFFFFFFFFFFFFFFFFFFFFFFFE00D6) (t := s) ?_ hk h
  clear hk h
  unfold execTableOpDone
  have h0 := Touches.refl 0x3FFFFFFFFFFFFFFFFFFFFFFFFFFFFFFFFFFFFFFFFFFFFFFFFFFFFFFFFFFFFFFFFFFFFFFFFFFFFFFFFFFFFFFFFFE00D6 s
  repeat' first
    | with_reducible assumption
    | (extract_lets +onlyGivenNames s'; with_reducible refine Touches.cut (t := s') ?_ ?_; subst s'; rotate_left; clear_value s'; intro hs; rotate_left)
    | (extract_lets +onlyGivenNames s'; with_reducible refine Ends.cut (t := s') ?_ ?_; subst s'; rotate_left; clear_value s'; intro hs; rotate_left)
    | with_reducible refine Ends.next ?_
    | (extract_lets +onlyGivenNames s'; first | (have _e : State → _ := s'; clear _e; subst s') | (have _e : TableBlock := s'; clear _e; subst s') | clear_value s')
    | with_reducible refine State.opSteps_touches (by decide) ?_
    | with_reducible refine State.refreshTable_touches (by decide) ?_
    | with_reducible refine State.opEnd_touches (by decide) ?_
    | with_reducible refine State.opNext_touches (by decide) ?_
    | split
    | with_reducible refine Touches.upd_tb (by decide) ?_


theorem execCmdWriteWhileBusy_touches {m : Nat} {s0 : State} {block : Fin 32} {s : State} (hk : 0x80000000000000000000000000000 ||| m = m)
    (h : Touches m s0 s) : Ends m s0 (execCmdWriteWhileBusy block s) := by
  refine Ends.step (k := 0x80000000000000000000000000000) (t := s) ?_ hk h
  clear hk h
  unfold execCmdWriteWhileBusy
  have h0 := Touches.refl 0x80000000000000000000000000000 s
  repeat' first
    | with_reducible assumption
    | (extract_lets +onlyGivenNames s'; with_reducible refine Touches.cut (t := s') ?_ ?_; subst s'; rotate_left; clear_value s'; intro hs; rotate_left)
    | (extract_lets +onlyGivenNames s'; with_reducible refine Ends.cut (t := s') ?_ ?_; subst s'; rotate_left; clear_value s'; intro hs; rotate_left)
    | with_reducible refine Ends.next ?_
    | (extract_lets +onlyGivenNames s'; first | (have _e : State → _ := s'; clear _e; subst s') | clear_value s')
    | with_reducible refine Touches.set (by first | decide | assumption | (split <;> decide)) ?_
    | split


theorem execTableSeedWrite_touches {m : Nat} {s0 : State} {table : Fin 256} {twin : Fin 2} {value : Word} {s : State} (hk : 0x10000000000000000000000000000000 ||| m = m)
    (h : Touches m s0 s) : Ends m s0 (execTableSeedWrite table twin value s) := by
  refine Ends.step (k := 0x10000000000000000000000000000000) (t := s) ?_ hk h
  clear hk h
  unfold execTableSeedWrite
  have h0 := Touches.refl 0x10000000000000000000000000000000 s
  repeat' first
    | with_reducible assumption
    | (extract_lets +onlyGivenNames s'; with_reducible refine Touches.cut (t := s') ?_ ?_; subst s'; rotate_left; clear_value s'; intro hs; rotate_left)
    | (extract_lets +onlyGivenNames s'; with_reducible refine Ends.cut (t := s') ?_ ?_; subst s'; rotate_left; clear_value s'; intro hs; rotate_left)
    | with_reducible refine Ends.next ?_
    | (extract_lets +onlyGivenNames s'; first | (have _e : State → _ := s'; clear _e; subst s') | clear_value s')
    | with_reducible refine Touches.set (by first | decide | assumption | (split <;> decide)) ?_
    | split


end Sys2Proof.Machine
end

