-- ==== Sys2Proof/Laws/TouchesLearn.lean ====
section
/-!
SUPPORT. What the operations of Learn.lean can touch.
-/

namespace Sys2Proof.Machine

set_option linter.all false

theorem State.modTb_touches {m : Nat} {s0 : State} {s : State} {f : TableBlock → TableBlock} (hk : 0x40 ||| m = m)
    (h : Touches m s0 s) : Touches m s0 (State.modTb s f) := by
  refine Touches.step (k := 0x40) (t := s) ?_ hk h
  clear hk h
  unfold State.modTb
  have h0 := Touches.refl 0x40 s
  repeat' first
    | with_reducible assumption
    | (extract_lets +onlyGivenNames s'; with_reducible refine Touches.cut (t := s') ?_ ?_; subst s'; rotate_left; clear_value s'; intro hs; rotate_left)
    | (extract_lets +onlyGivenNames s'; first | (have _e : State → _ := s'; clear _e; subst s') | (have _e : TableBlock := s'; clear _e; subst s') | clear_value s')
    | split
    | with_reducible refine Touches.upd_tb (by decide) ?_


theorem State.learnSend_touches {m : Nat} {s0 : State} {s : State} {pipe troupe t image : Nat} (hk : 0x44 ||| m = m)
    (h : Touches m s0 s) : Touches m s0 (State.learnSend s pipe troupe t image) := by
  refine Touches.step (k := 0x44) (t := s) ?_ hk h
  clear hk h
  unfold State.learnSend
  have h0 := Touches.refl 0x44 s
  repeat' first
    | with_reducible assumption
    | (extract_lets +onlyGivenNames s'; with_reducible refine Touches.cut (t := s') ?_ ?_; subst s'; rotate_left; clear_value s'; intro hs; rotate_left)
    | (extract_lets +onlyGivenNames s'; first | (have _e : State → _ := s'; clear _e; subst s') | clear_value s')
    | with_reducible refine State.modPipe_touches (by decide) ?_
    | with_reducible refine State.modTb_touches (by decide) ?_
    | split


theorem State.refreshLearn_touches {m : Nat} {s0 : State} {s : State} (hk : 0x800000000000000000000000000 ||| m = m)
    (h : Touches m s0 s) : Touches m s0 (State.refreshLearn s) := by
  refine Touches.step (k := 0x800000000000000000000000000) (t := s) ?_ hk h
  clear hk h
  unfold State.refreshLearn
  have h0 := Touches.refl 0x800000000000000000000000000 s
  repeat' first
    | with_reducible assumption
    | (extract_lets +onlyGivenNames s'; with_reducible refine Touches.cut (t := s') ?_ ?_; subst s'; rotate_left; clear_value s'; intro hs; rotate_left)
    | (extract_lets +onlyGivenNames s'; first | (have _e : State → _ := s'; clear _e; subst s') | clear_value s')
    | with_reducible refine Touches.set (by first | decide | assumption | (split <;> decide)) ?_
    | split


theorem execLearnEventArrival_touches {m : Nat} {s0 : State} {s : State} (hk : 0x1000000000000000000000000000000000000000000000028800000000000000000000400C0 ||| m = m)
    (h : Touches m s0 s) : Ends m s0 (execLearnEventArrival s) := by
  refine Ends.step (k := 0x1000000000000000000000000000000000000000000000028800000000000000000000400C0) (t := s) ?_ hk h
  clear hk h
  unfold execLearnEventArrival
  have h0 := Touches.refl 0x1000000000000000000000000000000000000000000000028800000000000000000000400C0 s
  repeat' first
    | with_reducible assumption
    | (extract_lets +onlyGivenNames s'; with_reducible refine Touches.cut (t := s') ?_ ?_; subst s'; rotate_left; clear_value s'; intro hs; rotate_left)
    | (extract_lets +onlyGivenNames s'; with_reducible refine Ends.cut (t := s') ?_ ?_; subst s'; rotate_left; clear_value s'; intro hs; rotate_left)
    | with_reducible refine Ends.next ?_
    | (extract_lets +onlyGivenNames s'; first | (have _e : State → _ := s'; clear _e; subst s') | clear_value s')
    | with_reducible refine Touches.foldl (fun _ _ _ => ?_) ?_
    | with_reducible refine State.modTb_touches (by decide) ?_
    | with_reducible refine State.refreshLearn_touches (by decide) ?_
    | with_reducible refine Touches.set (by first | decide | assumption | (split <;> decide)) ?_
    | with_reducible refine Touches.addSat (by first | decide | assumption | (split <;> decide)) ?_
    | with_reducible refine Touches.raise (by first | decide | assumption | (split <;> decide)) (by decide) ?_
    | split


theorem State.entryReport_touches {m : Nat} {s0 : State} {s : State} {type t w : Nat} {p : TablePlan} {i : Where} {detail : Nat} (hk : 0x47800001000000000000000000000000000000000000000000000040800000000000000000000400C0 ||| m = m)
    (h : Touches m s0 s) : Touches m s0 (State.entryReport s type t w p i detail) := by
  refine Touches.step (k := 0x47800001000000000000000000000000000000000000000000000040800000000000000000000400C0) (t := s) ?_ hk h
  clear hk h
  unfold State.entryReport
  have h0 := Touches.refl 0x47800001000000000000000000000000000000000000000000000040800000000000000000000400C0 s
  repeat' first
    | with_reducible assumption
    | (extract_lets +onlyGivenNames s'; with_reducible refine Touches.cut (t := s') ?_ ?_; subst s'; rotate_left; clear_value s'; intro hs; rotate_left)
    | (extract_lets +onlyGivenNames s'; first | (have _e : State → _ := s'; clear _e; subst s') | clear_value s')
    | with_reducible refine State.tableReport_touches (by decide) ?_
    | split


theorem State.dualWrite_touches {m : Nat} {s0 s : State} {t : Nat} {p : TablePlan} {f : State → Nat → State}
    (hf : ∀ s w, Touches m s0 s → Touches m s0 (f s w)) (h : Touches m s0 s) :
    Touches m s0 (State.dualWrite s t p f) := by
  unfold State.dualWrite
  extract_lets w u
  split
  · exact hf _ _ (hf _ _ h)
  · exact hf _ _ h


theorem State.learnInsert_touches {m : Nat} {s0 : State} {s : State} {t image : Nat} {p : TablePlan} {w : Nat} (hk : 0x47800001000000000000000000000000000000000000000000050040800000000000000000000400C0 ||| m = m)
    (h : Touches m s0 s) : Touches m s0 (State.learnInsert s t image p w).1 := by
  refine Touches.step (k := 0x47800001000000000000000000000000000000000000000000050040800000000000000000000400C0) (t := s) ?_ hk h
  clear hk h
  unfold State.learnInsert
  have h0 := Touches.refl 0x47800001000000000000000000000000000000000000000000050040800000000000000000000400C0 s
  repeat' first
    | with_reducible assumption
    | (extract_lets +onlyGivenNames s'; with_reducible refine Touches.cut (t := s') ?_ ?_; subst s'; rotate_left; clear_value s'; intro hs; rotate_left)
    | (extract_lets +onlyGivenNames s'; first | (have _e : State → _ := s'; clear _e; subst s') | clear_value s')
    | with_reducible refine State.putTable_touches (by decide) ?_
    | with_reducible refine State.afterInsert_touches (by decide) ?_
    | split

theorem State.learnInsert_touches_eq {m : Nat} {s0 t₁ : State} {s : State} {t image : Nat} {p : TablePlan} {w : Nat} {a₁ : Inserted} (e₁ : State.learnInsert s t image p w = (t₁, a₁))
    (hk : 0x47800001000000000000000000000000000000000000000000050040800000000000000000000400C0 ||| m = m) (h : Touches m s0 s) : Touches m s0 t₁ := Touches.fst e₁ (State.learnInsert_touches hk h)


theorem State.replaceBody_touches {m : Nat} {s0 : State} {s : State} {t body : Nat} {p : TablePlan} {pinned : Bool} {w : Nat} (hk : 0x40 ||| m = m)
    (h : Touches m s0 s) : Touches m s0 (State.replaceBody s t body p pinned w) := by
  refine Touches.step (k := 0x40) (t := s) ?_ hk h
  clear hk h
  unfold State.replaceBody
  have h0 := Touches.refl 0x40 s
  repeat' first
    | with_reducible assumption
    | (extract_lets +onlyGivenNames s'; with_reducible refine Touches.cut (t := s') ?_ ?_; subst s'; rotate_left; clear_value s'; intro hs; rotate_left)
    | (extract_lets +onlyGivenNames s'; first | (have _e : State → _ := s'; clear _e; subst s') | clear_value s')
    | with_reducible refine State.putTable_touches (by decide) ?_
    | split


theorem State.putFlap_touches {m : Nat} {s0 : State} {s : State} {f : Flap} (hk : 0x40 ||| m = m)
    (h : Touches m s0 s) : Touches m s0 (State.putFlap s f) := by
  refine Touches.step (k := 0x40) (t := s) ?_ hk h
  clear hk h
  unfold State.putFlap
  have h0 := Touches.refl 0x40 s
  repeat' first
    | with_reducible assumption
    | (extract_lets +onlyGivenNames s'; with_reducible refine Touches.cut (t := s') ?_ ?_; subst s'; rotate_left; clear_value s'; intro hs; rotate_left)
    | (extract_lets +onlyGivenNames s'; first | (have _e : State → _ := s'; clear _e; subst s') | clear_value s')
    | with_reducible refine Touches.foldl (fun _ _ _ => ?_) ?_
    | with_reducible refine State.modTb_touches (by decide) ?_
    | split


theorem State.stationMove_touches {m : Nat} {s0 : State} {s : State} {t image oldBody : Nat} {p : TablePlan} {i : Where} (hk : 0x10200000047800001000000000000000000000000000000000000000000000058800000000000000000000420C0 ||| m = m)
    (h : Touches m s0 s) : Touches m s0 (State.stationMove s t image oldBody p i) := by
  refine Touches.step (k := 0x10200000047800001000000000000000000000000000000000000000000000058800000000000000000000420C0) (t := s) ?_ hk h
  clear hk h
  unfold State.stationMove
  have h0 := Touches.refl 0x10200000047800001000000000000000000000000000000000000000000000058800000000000000000000420C0 s
  repeat' first
    | with_reducible assumption
    | (extract_lets +onlyGivenNames s'; with_reducible refine Touches.cut (t := s') ?_ ?_; subst s'; rotate_left; clear_value s'; intro hs; rotate_left)
    | (extract_lets +onlyGivenNames s'; first | (have _e : State → _ := s'; clear _e; subst s') | clear_value s')
    | with_reducible refine State.record_touches (by decide) ?_
    | with_reducible refine State.modTb_touches (by decide) ?_
    | with_reducible refine State.entryReport_touches (by decide) ?_
    | with_reducible refine State.dualWrite_touches (fun _ _ _ => ?_) ?_
    | with_reducible refine State.replaceBody_touches (by decide) ?_
    | with_reducible refine State.putFlap_touches (by decide) ?_
    | with_reducible refine Touches.set (by first | decide | assumption | (split <;> decide)) ?_
    | with_reducible refine Touches.addSat (by first | decide | assumption | (split <;> decide)) ?_
    | with_reducible refine Touches.raise (by first | decide | assumption | (split <;> decide)) (by decide) ?_
    | split


theorem State.learnRefused_touches {m : Nat} {s0 : State} {s : State} (hk : 0x2000000000000000000000000000 ||| m = m)
    (h : Touches m s0 s) : Touches m s0 (State.learnRefused s) := by
  refine Touches.step (k := 0x2000000000000000000000000000) (t := s) ?_ hk h
  clear hk h
  unfold State.learnRefused
  have h0 := Touches.refl 0x2000000000000000000000000000 s
  repeat' first
    | with_reducible assumption
    | (extract_lets +onlyGivenNames s'; with_reducible refine Touches.cut (t := s') ?_ ?_; subst s'; rotate_left; clear_value s'; intro hs; rotate_left)
    | (extract_lets +onlyGivenNames s'; first | (have _e : State → _ := s'; clear _e; subst s') | clear_value s')
    | with_reducible refine Touches.addSat (by first | decide | assumption | (split <;> decide)) ?_
    | split


theorem execLearnEventProcess_touches {m : Nat} {s0 : State} {s : State} (hk : 0x10200000047800001000000000000000000000000000000000000000000050078800000000000000000000420C0 ||| m = m)
    (h : Touches m s0 s) : Ends m s0 (execLearnEventProcess s) := by
  refine Ends.step (k := 0x10200000047800001000000000000000000000000000000000000000000050078800000000000000000000420C0) (t := s) ?_ hk h
  clear hk h
  unfold execLearnEventProcess
  have h0 := Touches.refl 0x10200000047800001000000000000000000000000000000000000000000050078800000000000000000000420C0 s
  repeat' first
    | with_reducible assumption
    | (extract_lets +onlyGivenNames s'; with_reducible refine Touches.cut (t := s') ?_ ?_; subst s'; rotate_left; clear_value s'; intro hs; rotate_left)
    | (extract_lets +onlyGivenNames s'; with_reducible refine Ends.cut (t := s') ?_ ?_; subst s'; rotate_left; clear_value s'; intro hs; rotate_left)
    | with_reducible refine Ends.next ?_
    | (extract_lets +onlyGivenNames s'; first | (have _e : State → _ := s'; clear _e; subst s') | clear_value s')
    | with_reducible refine State.modTb_touches (by decide) ?_
    | with_reducible refine State.refreshLearn_touches (by decide) ?_
    | with_reducible refine State.entryReport_touches (by decide) ?_
    | with_reducible refine State.learnInsert_touches_eq (by assumption) (by decide) ?_
    | with_reducible refine State.learnInsert_touches (by decide) ?_
    | with_reducible refine State.stationMove_touches (by decide) ?_
    | with_reducible refine State.learnRefused_touches (by decide) ?_
    | with_reducible refine Touches.addSat (by first | decide | assumption | (split <;> decide)) ?_
    | with_reducible refine Touches.raise (by first | decide | assumption | (split <;> decide)) (by decide) ?_
    | split


theorem execFlapWindowClose_touches {m : Nat} {s0 : State} {table : Fin 256} {key : Nat} {s : State} (hk : 0x40 ||| m = m)
    (h : Touches m s0 s) : Ends m s0 (execFlapWindowClose table key s) := by
  refine Ends.step (k := 0x40) (t := s) ?_ hk h
  clear hk h
  unfold execFlapWindowClose
  have h0 := Touches.refl 0x40 s
  repeat' first
    | with_reducible assumption
    | (extract_lets +onlyGivenNames s'; with_reducible refine Touches.cut (t := s') ?_ ?_; subst s'; rotate_left; clear_value s'; intro hs; rotate_left)
    | (extract_lets +onlyGivenNames s'; with_reducible refine Ends.cut (t := s') ?_ ?_; subst s'; rotate_left; clear_value s'; intro hs; rotate_left)
    | with_reducible refine Ends.next ?_
    | (extract_lets +onlyGivenNames s'; first | (have _e : State → _ := s'; clear _e; subst s') | clear_value s')
    | with_reducible refine State.modTb_touches (by decide) ?_
    | split


theorem State.unpin_touches {m : Nat} {s0 : State} {s : State} {t w key : Nat} {p : TablePlan} (hk : 0x40 ||| m = m)
    (h : Touches m s0 s) : Touches m s0 (State.unpin s t w key p) := by
  refine Touches.step (k := 0x40) (t := s) ?_ hk h
  clear hk h
  unfold State.unpin
  have h0 := Touches.refl 0x40 s
  repeat' first
    | with_reducible assumption
    | (extract_lets +onlyGivenNames s'; with_reducible refine Touches.cut (t := s') ?_ ?_; subst s'; rotate_left; clear_value s'; intro hs; rotate_left)
    | (extract_lets +onlyGivenNames s'; first | (have _e : State → _ := s'; clear _e; subst s') | clear_value s')
    | with_reducible refine State.putTable_touches (by decide) ?_
    | with_reducible refine State.forgetPin_touches (by decide) ?_
    | split


theorem execPinHoldExpiry_touches {m : Nat} {s0 : State} {table : Fin 256} {key : Nat} {s : State} (hk : 0x47800001000000000000000000000000000000000000000000000040800000000000000000000400C0 ||| m = m)
    (h : Touches m s0 s) : Ends m s0 (execPinHoldExpiry table key s) := by
  refine Ends.step (k := 0x47800001000000000000000000000000000000000000000000000040800000000000000000000400C0) (t := s) ?_ hk h
  clear hk h
  unfold execPinHoldExpiry
  have h0 := Touches.refl 0x47800001000000000000000000000000000000000000000000000040800000000000000000000400C0 s
  repeat' first
    | with_reducible assumption
    | (extract_lets +onlyGivenNames s'; with_reducible refine Touches.cut (t := s') ?_ ?_; subst s'; rotate_left; clear_value s'; intro hs; rotate_left)
    | (extract_lets +onlyGivenNames s'; with_reducible refine Ends.cut (t := s') ?_ ?_; subst s'; rotate_left; clear_value s'; intro hs; rotate_left)
    | with_reducible refine Ends.next ?_
    | (extract_lets +onlyGivenNames s'; first | (have _e : State → _ := s'; clear _e; subst s') | clear_value s')
    | with_reducible refine Touches.foldl (fun _ _ _ => ?_) ?_
    | with_reducible refine State.entryReport_touches (by decide) ?_
    | with_reducible refine State.unpin_touches (by decide) ?_
    | split


theorem State.ageHit_touches {m : Nat} {s0 : State} {s : State} {t w d : Nat} {i : Where} (hk : 0x40 ||| m = m)
    (h : Touches m s0 s) : Touches m s0 (State.ageHit s t w d i) := by
  refine Touches.step (k := 0x40) (t := s) ?_ hk h
  clear hk h
  unfold State.ageHit
  have h0 := Touches.refl 0x40 s
  repeat' first
    | with_reducible assumption
    | (extract_lets +onlyGivenNames s'; with_reducible refine Touches.cut (t := s') ?_ ?_; subst s'; rotate_left; clear_value s'; intro hs; rotate_left)
    | (extract_lets +onlyGivenNames s'; first | (have _e : State → _ := s'; clear _e; subst s') | clear_value s')
    | with_reducible refine State.putTable_touches (by decide) ?_
    | split


theorem execAgeClockTick_touches {m : Nat} {s0 : State} {table : Fin 256} {s : State} (hk : 0x40 ||| m = m)
    (h : Touches m s0 s) : Ends m s0 (execAgeClockTick table s) := by
  refine Ends.step (k := 0x40) (t := s) ?_ hk h
  clear hk h
  unfold execAgeClockTick
  have h0 := Touches.refl 0x40 s
  repeat' first
    | with_reducible assumption
    | (extract_lets +onlyGivenNames s'; with_reducible refine Touches.cut (t := s') ?_ ?_; subst s'; rotate_left; clear_value s'; intro hs; rotate_left)
    | (extract_lets +onlyGivenNames s'; with_reducible refine Ends.cut (t := s') ?_ ?_; subst s'; rotate_left; clear_value s'; intro hs; rotate_left)
    | with_reducible refine Ends.next ?_
    | (extract_lets +onlyGivenNames s'; first | (have _e : State → _ := s'; clear _e; subst s') | clear_value s')
    | with_reducible refine State.putTable_touches (by decide) ?_
    | split


theorem State.agedAct_touches {m : Nat} {s0 : State} {s : State} {t w : Nat} {p : TablePlan} {i : Where} (hk : 0x47800001000000000000000000000000000000000000000000040040800000000000000000000400C0 ||| m = m)
    (h : Touches m s0 s) : Touches m s0 (State.agedAct s t w p i) := by
  refine Touches.step (k := 0x47800001000000000000000000000000000000000000000000040040800000000000000000000400C0) (t := s) ?_ hk h
  clear hk h
  unfold State.agedAct
  have h0 := Touches.refl 0x47800001000000000000000000000000000000000000000000040040800000000000000000000400C0 s
  repeat' first
    | with_reducible assumption
    | (extract_lets +onlyGivenNames s'; with_reducible refine Touches.cut (t := s') ?_ ?_; subst s'; rotate_left; clear_value s'; intro hs; rotate_left)
    | dsimp only
    | (extract_lets +onlyGivenNames s'; first | (have _e : State → _ := s'; clear _e; subst s') | clear_value s')
    | with_reducible refine State.putTable_touches (by decide) ?_
    | with_reducible refine State.refreshTable_touches (by decide) ?_
    | with_reducible refine State.entryReport_touches (by decide) ?_
    | with_reducible refine State.dualWrite_touches (fun _ _ _ => ?_) ?_
    | split


theorem State.sweepAtPlace_touches {m : Nat} {s0 : State} {s : State} {t w : Nat} {p : TablePlan} {i : Where} (hk : 0x47800001000000000000000000000000000000000000000000040040800000000000000000000400C0 ||| m = m)
    (h : Touches m s0 s) : Touches m s0 (State.sweepAtPlace s t w p i) := by
  refine Touches.step (k := 0x47800001000000000000000000000000000000000000000000040040800000000000000000000400C0) (t := s) ?_ hk h
  clear hk h
  unfold State.sweepAtPlace
  have h0 := Touches.refl 0x47800001000000000000000000000000000000000000000000040040800000000000000000000400C0 s
  repeat' first
    | with_reducible assumption
    | (extract_lets +onlyGivenNames s'; with_reducible refine Touches.cut (t := s') ?_ ?_; subst s'; rotate_left; clear_value s'; intro hs; rotate_left)
    | (extract_lets +onlyGivenNames s'; first | (have _e : State → _ := s'; clear _e; subst s') | clear_value s')
    | with_reducible refine State.putTable_touches (by decide) ?_
    | with_reducible refine State.agedAct_touches (by decide) ?_
    | split


theorem execAgingSweepVisit_touches {m : Nat} {s0 : State} {s : State} (hk : 0x478000010000000000000000000000000000000000000000000400C0800000000000000000000400C0 ||| m = m)
    (h : Touches m s0 s) : Ends m s0 (execAgingSweepVisit s) := by
  refine Ends.step (k := 0x478000010000000000000000000000000000000000000000000400C0800000000000000000000400C0) (t := s) ?_ hk h
  clear hk h
  unfold execAgingSweepVisit
  have h0 := Touches.refl 0x478000010000000000000000000000000000000000000000000400C0800000000000000000000400C0 s
  repeat' first
    | with_reducible assumption
    | (extract_lets +onlyGivenNames s'; with_reducible refine Touches.cut (t := s') ?_ ?_; subst s'; rotate_left; clear_value s'; intro hs; rotate_left)
    | (extract_lets +onlyGivenNames s'; with_reducible refine Ends.cut (t := s') ?_ ?_; subst s'; rotate_left; clear_value s'; intro hs; rotate_left)
    | with_reducible refine Ends.next ?_
    | (extract_lets +onlyGivenNames s'; first | (have _e : State → _ := s'; clear _e; subst s') | clear_value s')
    | with_reducible refine State.modTb_touches (by decide) ?_
    | with_reducible refine State.sweepAtPlace_touches (by decide) ?_
    | with_reducible refine Touches.set (by first | decide | assumption | (split <;> decide)) ?_
    | with_reducible refine Touches.addSat (by first | decide | assumption | (split <;> decide)) ?_
    | split


theorem State.setProm_touches {m : Nat} {s0 : State} {s : State} {st : Nat} (hk : 0x40000000000000000000000000040 ||| m = m)
    (h : Touches m s0 s) : Touches m s0 (State.setProm s st) := by
  refine Touches.step (k := 0x40000000000000000000000000040) (t := s) ?_ hk h
  clear hk h
  unfold State.setProm
  have h0 := Touches.refl 0x40000000000000000000000000040 s
  repeat' first
    | with_reducible assumption
    | (extract_lets +onlyGivenNames s'; with_reducible refine Touches.cut (t := s') ?_ ?_; subst s'; rotate_left; clear_value s'; intro hs; rotate_left)
    | (extract_lets +onlyGivenNames s'; first | (have _e : State → _ := s'; clear _e; subst s') | clear_value s')
    | with_reducible refine State.modTb_touches (by decide) ?_
    | with_reducible refine Touches.set (by first | decide | assumption | (split <;> decide)) ?_
    | split


theorem State.writePromCtrl_touches {m : Nat} {s0 : State} {s : State} {value : Word} (hk : 0x10000000000000000000000000000 ||| m = m)
    (h : Touches m s0 s) : Touches m s0 (State.writePromCtrl s value) := by
  refine Touches.step (k := 0x10000000000000000000000000000) (t := s) ?_ hk h
  clear hk h
  unfold State.writePromCtrl
  have h0 := Touches.refl 0x10000000000000000000000000000 s
  repeat' first
    | with_reducible assumption
    | (extract_lets +onlyGivenNames s'; with_reducible refine Touches.cut (t := s') ?_ ?_; subst s'; rotate_left; clear_value s'; intro hs; rotate_left)
    | (extract_lets +onlyGivenNames s'; first | (have _e : State → _ := s'; clear _e; subst s') | clear_value s')
    | with_reducible refine Touches.foldl_mem (fun s'' f'' hf'' hs'' => ?_) ?_
    | with_reducible refine Touches.foldl (fun _ _ _ => ?_) ?_
    | with_reducible refine Touches.set (by first | decide | (clear hs''; revert f''; decide)) ?_
    | split


theorem State.promReport_touches {m : Nat} {s0 : State} {s : State} {r : Report} (hk : 0x47800001000000000000000000000000000000000000000000000040800000000000000000000400C0 ||| m = m)
    (h : Touches m s0 s) : Touches m s0 (State.promReport s r) := by
  refine Touches.step (k := 0x47800001000000000000000000000000000000000000000000000040800000000000000000000400C0) (t := s) ?_ hk h
  clear hk h
  unfold State.promReport
  have h0 := Touches.refl 0x47800001000000000000000000000000000000000000000000000040800000000000000000000400C0 s
  repeat' first
    | with_reducible assumption
    | (extract_lets +onlyGivenNames s'; with_reducible refine Touches.cut (t := s') ?_ ?_; subst s'; rotate_left; clear_value s'; intro hs; rotate_left)
    | (extract_lets +onlyGivenNames s'; first | (have _e : State → _ := s'; clear _e; subst s') | clear_value s')
    | with_reducible refine State.tableReport_touches (by decide) ?_
    | with_reducible refine Touches.raise (by first | decide | assumption | (split <;> decide)) (by decide) ?_
    | split


theorem State.promMismatch_touches {m : Nat} {s0 : State} {s : State} {r : Report} (hk : 0x47800001000000000000000000000000000000000000000000000440800000000000000000000400C0 ||| m = m)
    (h : Touches m s0 s) : Touches m s0 (State.promMismatch s r) := by
  refine Touches.step (k := 0x47800001000000000000000000000000000000000000000000000440800000000000000000000400C0) (t := s) ?_ hk h
  clear hk h
  unfold State.promMismatch
  have h0 := Touches.refl 0x47800001000000000000000000000000000000000000000000000440800000000000000000000400C0 s
  repeat' first
    | with_reducible assumption
    | (extract_lets +onlyGivenNames s'; with_reducible refine Touches.cut (t := s') ?_ ?_; subst s'; rotate_left; clear_value s'; intro hs; rotate_left)
    | (extract_lets +onlyGivenNames s'; first | (have _e : State → _ := s'; clear _e; subst s') | clear_value s')
    | with_reducible refine State.promReport_touches (by decide) ?_
    | with_reducible refine Touches.addSat (by first | decide | assumption | (split <;> decide)) ?_
    | split


theorem State.promSkewAt_touches {m : Nat} {s0 : State} {s : State} {i : Nat} (hk : 0x40 ||| m = m)
    (h : Touches m s0 s) : Touches m s0 (State.promSkewAt s i) := by
  refine Touches.step (k := 0x40) (t := s) ?_ hk h
  clear hk h
  unfold State.promSkewAt
  have h0 := Touches.refl 0x40 s
  repeat' first
    | with_reducible assumption
    | (extract_lets +onlyGivenNames s'; with_reducible refine Touches.cut (t := s') ?_ ?_; subst s'; rotate_left; clear_value s'; intro hs; rotate_left)
    | (extract_lets +onlyGivenNames s'; first | (have _e : State → _ := s'; clear _e; subst s') | clear_value s')
    | with_reducible refine State.modTb_touches (by decide) ?_
    | split


theorem State.promEnd_touches {m : Nat} {s0 : State} {s : State} {st : Nat} (hk : 0x10200000047800001000000000000000000000000000000000000000000010440800000000000000000000420C0 ||| m = m)
    (h : Touches m s0 s) : Touches m s0 (State.promEnd s st) := by
  refine Touches.step (k := 0x10200000047800001000000000000000000000000000000000000000000010440800000000000000000000420C0) (t := s) ?_ hk h
  clear hk h
  unfold State.promEnd
  have h0 := Touches.refl 0x10200000047800001000000000000000000000000000000000000000000010440800000000000000000000420C0 s
  repeat' first
    | with_reducible assumption
    | (extract_lets +onlyGivenNames s'; with_reducible refine Touches.cut (t := s') ?_ ?_; subst s'; rotate_left; clear_value s'; intro hs; rotate_left)
    | (extract_lets +onlyGivenNames s'; first | (have _e : State → _ := s'; clear _e; subst s') | clear_value s')
    | with_reducible refine State.record_touches (by decide) ?_
    | with_reducible refine State.setProm_touches (by decide) ?_
    | with_reducible refine State.promReport_touches (by decide) ?_
    | with_reducible refine Touches.set (by first | decide | assumption | (split <;> decide)) ?_
    | with_reducible refine Touches.raise (by first | decide | assumption | (split <;> decide)) (by decide) ?_
    | split


theorem State.promGo_touches {m : Nat} {s0 : State} {s : State} {value : Word} (hk : 0x50000000000000000000000000040 ||| m = m)
    (h : Touches m s0 s) : Touches m s0 (State.promGo s value) := by
  refine Touches.step (k := 0x50000000000000000000000000040) (t := s) ?_ hk h
  clear hk h
  unfold State.promGo
  have h0 := Touches.refl 0x50000000000000000000000000040 s
  repeat' first
    | with_reducible assumption
    | (extract_lets +onlyGivenNames s'; with_reducible refine Touches.cut (t := s') ?_ ?_; subst s'; rotate_left; clear_value s'; intro hs; rotate_left)
    | (extract_lets +onlyGivenNames s'; first | (have _e : State → _ := s'; clear _e; subst s') | clear_value s')
    | with_reducible refine State.modTb_touches (by decide) ?_
    | with_reducible refine State.setProm_touches (by decide) ?_
    | with_reducible refine State.writePromCtrl_touches (by decide) ?_
    | with_reducible refine Touches.set (by first | decide | assumption | (split <;> decide)) ?_
    | split


theorem State.promAbort_touches {m : Nat} {s0 : State} {s : State} {value : Word} (hk : 0x10200000047800001000000000000000000000000000000000000000000010540800000000000000000000420C0 ||| m = m)
    (h : Touches m s0 s) : Touches m s0 (State.promAbort s value) := by
  refine Touches.step (k := 0x10200000047800001000000000000000000000000000000000000000000010540800000000000000000000420C0) (t := s) ?_ hk h
  clear hk h
  unfold State.promAbort
  have h0 := Touches.refl 0x10200000047800001000000000000000000000000000000000000000000010540800000000000000000000420C0 s
  repeat' first
    | with_reducible assumption
    | (extract_lets +onlyGivenNames s'; with_reducible refine Touches.cut (t := s') ?_ ?_; subst s'; rotate_left; clear_value s'; intro hs; rotate_left)
    | (extract_lets +onlyGivenNames s'; first | (have _e : State → _ := s'; clear _e; subst s') | clear_value s')
    | with_reducible refine State.writePromCtrl_touches (by decide) ?_
    | with_reducible refine State.promEnd_touches (by decide) ?_
    | split


theorem execPromenadeGo_touches {m : Nat} {s0 : State} {value : Word} {s : State} (hk : 0x50000000000000000000000000040 ||| m = m)
    (h : Touches m s0 s) : Ends m s0 (execPromenadeGo value s) := by
  refine Ends.step (k := 0x50000000000000000000000000040) (t := s) ?_ hk h
  clear hk h
  unfold execPromenadeGo
  have h0 := Touches.refl 0x50000000000000000000000000040 s
  repeat' first
    | with_reducible assumption
    | (extract_lets +onlyGivenNames s'; with_reducible refine Touches.cut (t := s') ?_ ?_; subst s'; rotate_left; clear_value s'; intro hs; rotate_left)
    | (extract_lets +onlyGivenNames s'; with_reducible refine Ends.cut (t := s') ?_ ?_; subst s'; rotate_left; clear_value s'; intro hs; rotate_left)
    | with_reducible refine Ends.next ?_
    | (extract_lets +onlyGivenNames s'; first | (have _e : State → _ := s'; clear _e; subst s') | clear_value s')
    | with_reducible refine State.promGo_touches (by decide) ?_
    | split


theorem execPromenadeAbort_touches {m : Nat} {s0 : State} {value : Word} {s : State} (hk : 0x10200000047800001000000000000000000000000000000000000000000010540800000000000000000000420C0 ||| m = m)
    (h : Touches m s0 s) : Ends m s0 (execPromenadeAbort value s) := by
  refine Ends.step (k := 0x10200000047800001000000000000000000000000000000000000000000010540800000000000000000000420C0) (t := s) ?_ hk h
  clear hk h
  unfold execPromenadeAbort
  have h0 := Touches.refl 0x10200000047800001000000000000000000000000000000000000000000010540800000000000000000000420C0 s
  repeat' first
    | with_reducible assumption
    | (extract_lets +onlyGivenNames s'; with_reducible refine Touches.cut (t := s') ?_ ?_; subst s'; rotate_left; clear_value s'; intro hs; rotate_left)
    | (extract_lets +onlyGivenNames s'; with_reducible refine Ends.cut (t := s') ?_ ?_; subst s'; rotate_left; clear_value s'; intro hs; rotate_left)
    | with_reducible refine Ends.next ?_
    | (extract_lets +onlyGivenNames s'; first | (have _e : State → _ := s'; clear _e; subst s') | clear_value s')
    | with_reducible refine State.promAbort_touches (by decide) ?_
    | split


theorem State.promWrite_touches {m : Nat} {s0 : State} {s : State} {value : Word} (hk : 0x10200000047800001000000000000000000000000000000000000000000010540800000000000000000000420C0 ||| m = m)
    (h : Touches m s0 s) : Touches m s0 (State.promWrite s value) := by
  refine Touches.step (k := 0x10200000047800001000000000000000000000000000000000000000000010540800000000000000000000420C0) (t := s) ?_ hk h
  clear hk h
  unfold State.promWrite
  have h0 := Touches.refl 0x10200000047800001000000000000000000000000000000000000000000010540800000000000000000000420C0 s
  repeat' first
    | with_reducible assumption
    | (extract_lets +onlyGivenNames s'; with_reducible refine Touches.cut (t := s') ?_ ?_; subst s'; rotate_left; clear_value s'; intro hs; rotate_left)
    | (extract_lets +onlyGivenNames s'; first | (have _e : State → _ := s'; clear _e; subst s') | clear_value s')
    | with_reducible refine State.writePromCtrl_touches (by decide) ?_
    | with_reducible refine State.promGo_touches (by decide) ?_
    | with_reducible refine State.promAbort_touches (by decide) ?_
    | split


theorem State.compareExact_touches {m : Nat} {s0 : State} {s : State} {t w image : Nat} {p : TablePlan} (hk : 0x47800001000000000000000000000000000000000000000000000440800000000000000000000600C0 ||| m = m)
    (h : Touches m s0 s) : Touches m s0 (State.compareExact s t w image p) := by
  refine Touches.step (k := 0x47800001000000000000000000000000000000000000000000000440800000000000000000000600C0) (t := s) ?_ hk h
  clear hk h
  unfold State.compareExact
  have h0 := Touches.refl 0x47800001000000000000000000000000000000000000000000000440800000000000000000000600C0 s
  repeat' first
    | with_reducible assumption
    | (extract_lets +onlyGivenNames s'; with_reducible refine Touches.cut (t := s') ?_ ?_; subst s'; rotate_left; clear_value s'; intro hs; rotate_left)
    | (extract_lets +onlyGivenNames s'; first | (have _e : State → _ := s'; clear _e; subst s') | clear_value s')
    | with_reducible refine State.freeBytes_touches_eq (by assumption) (by decide) ?_
    | with_reducible refine State.freeBytes_touches (by decide) ?_
    | with_reducible refine State.modTb_touches (by decide) ?_
    | with_reducible refine State.promMismatch_touches (by decide) ?_
    | with_reducible refine State.promSkewAt_touches (by decide) ?_
    | split


theorem State.comparePosition_touches {m : Nat} {s0 : State} {s : State} {t w image : Nat} {p : TablePlan} (hk : 0x47800001000000000000000000000000000000000000000000000440800000000000000000000400C0 ||| m = m)
    (h : Touches m s0 s) : Touches m s0 (State.comparePosition s t w image p) := by
  refine Touches.step (k := 0x47800001000000000000000000000000000000000000000000000440800000000000000000000400C0) (t := s) ?_ hk h
  clear hk h
  unfold State.comparePosition
  have h0 := Touches.refl 0x47800001000000000000000000000000000000000000000000000440800000000000000000000400C0 s
  repeat' first
    | with_reducible assumption
    | (extract_lets +onlyGivenNames s'; with_reducible refine Touches.cut (t := s') ?_ ?_; subst s'; rotate_left; clear_value s'; intro hs; rotate_left)
    | (extract_lets +onlyGivenNames s'; first | (have _e : State → _ := s'; clear _e; subst s') | clear_value s')
    | with_reducible refine State.promMismatch_touches (by decide) ?_
    | split


theorem State.compareCopies_touches {m : Nat} {s0 : State} {s : State} {t : Nat} {p : TablePlan} (hk : 0x47800001000000000000000000000000000000000000000000000440800000000000000000000400C0 ||| m = m)
    (h : Touches m s0 s) : Touches m s0 (State.compareCopies s t p) := by
  refine Touches.step (k := 0x47800001000000000000000000000000000000000000000000000440800000000000000000000400C0) (t := s) ?_ hk h
  clear hk h
  unfold State.compareCopies
  have h0 := Touches.refl 0x47800001000000000000000000000000000000000000000000000440800000000000000000000400C0 s
  repeat' first
    | with_reducible assumption
    | (extract_lets +onlyGivenNames s'; with_reducible refine Touches.cut (t := s') ?_ ?_; subst s'; rotate_left; clear_value s'; intro hs; rotate_left)
    | (extract_lets +onlyGivenNames s'; first | (have _e : State → _ := s'; clear _e; subst s') | clear_value s')
    | with_reducible refine State.promMismatch_touches (by decide) ?_
    | with_reducible refine State.promSkewAt_touches (by decide) ?_
    | split


theorem State.promFetch_touches {m : Nat} {s0 : State} {s : State} {i : Nat} (hk : 0x40000 ||| m = m)
    (h : Touches m s0 s) : Touches m s0 (State.promFetch s i) := by
  refine Touches.step (k := 0x40000) (t := s) ?_ hk h
  clear hk h
  unfold State.promFetch
  have h0 := Touches.refl 0x40000 s
  repeat' first
    | with_reducible assumption
    | (extract_lets +onlyGivenNames s'; with_reducible refine Touches.cut (t := s') ?_ ?_; subst s'; rotate_left; clear_value s'; intro hs; rotate_left)
    | (extract_lets +onlyGivenNames s'; first | (have _e : State → _ := s'; clear _e; subst s') | clear_value s')
    | with_reducible refine Touches.emit (by decide) ?_
    | split


theorem execPromenadeCompare_touches {m : Nat} {s0 : State} {image : Nat} {s : State} (hk : 0x10200000047800001000000000000000000000000000000000000000000010440800000000000000000000620C0 ||| m = m)
    (h : Touches m s0 s) : Ends m s0 (execPromenadeCompare image s) := by
  refine Ends.step (k := 0x10200000047800001000000000000000000000000000000000000000000010440800000000000000000000620C0) (t := s) ?_ hk h
  clear hk h
  unfold execPromenadeCompare
  have h0 := Touches.refl 0x10200000047800001000000000000000000000000000000000000000000010440800000000000000000000620C0 s
  repeat' first
    | with_reducible assumption
    | (extract_lets +onlyGivenNames s'; with_reducible refine Touches.cut (t := s') ?_ ?_; subst s'; rotate_left; clear_value s'; intro hs; rotate_left)
    | (extract_lets +onlyGivenNames s'; with_reducible refine Ends.cut (t := s') ?_ ?_; subst s'; rotate_left; clear_value s'; intro hs; rotate_left)
    | with_reducible refine Ends.next ?_
    | (extract_lets +onlyGivenNames s'; first | (have _e : State → _ := s'; clear _e; subst s') | clear_value s')
    | with_reducible refine State.setProm_touches (by decide) ?_
    | with_reducible refine State.promEnd_touches (by decide) ?_
    | with_reducible refine State.compareExact_touches (by decide) ?_
    | with_reducible refine State.comparePosition_touches (by decide) ?_
    | with_reducible refine State.compareCopies_touches (by decide) ?_
    | with_reducible refine State.promFetch_touches (by decide) ?_
    | with_reducible refine Touches.set (by first | decide | assumption | (split <;> decide)) ?_
    | split


theorem execPromenadeCensus_touches {m : Nat} {s0 : State} {s : State} (hk : 0x10200000047800001000000000000000000000000000000000000000000010440800000000000000000000420C0 ||| m = m)
    (h : Touches m s0 s) : Ends m s0 (execPromenadeCensus s) := by
  refine Ends.step (k := 0x10200000047800001000000000000000000000000000000000000000000010440800000000000000000000420C0) (t := s) ?_ hk h
  clear hk h
  unfold execPromenadeCensus
  have h0 := Touches.refl 0x10200000047800001000000000000000000000000000000000000000000010440800000000000000000000420C0 s
  repeat' first
    | with_reducible assumption
    | (extract_lets +onlyGivenNames s'; with_reducible refine Touches.cut (t := s') ?_ ?_; subst s'; rotate_left; clear_value s'; intro hs; rotate_left)
    | (extract_lets +onlyGivenNames s'; with_reducible refine Ends.cut (t := s') ?_ ?_; subst s'; rotate_left; clear_value s'; intro hs; rotate_left)
    | with_reducible refine Ends.next ?_
    | (extract_lets +onlyGivenNames s'; first | (have _e : State → _ := s'; clear _e; subst s') | clear_value s')
    | with_reducible refine State.promReport_touches (by decide) ?_
    | with_reducible refine State.promEnd_touches (by decide) ?_
    | with_reducible refine Touches.addSat (by first | decide | assumption | (split <;> decide)) ?_
    | split


end Sys2Proof.Machine
end

