-- ==== Sys2Proof/Laws/TouchesPolicers.lean ====
section
/-!
SUPPORT. What the operations of Policers.lean can touch.
-/

namespace Sys2Proof.Machine

set_option linter.all false

theorem State.putPolicer_touches {m : Nat} {s0 : State} {s : State} {i : Nat} {b : Bucket} (hk : 0x100000000000000000000000000000004 ||| m = m)
    (h : Touches m s0 s) : Touches m s0 (State.putPolicer s i b) := by
  refine Touches.step (k := 0x100000000000000000000000000000004) (t := s) ?_ hk h
  clear hk h
  unfold State.putPolicer
  have h0 := Touches.refl 0x100000000000000000000000000000004 s
  repeat' first
    | with_reducible assumption
    | (extract_lets +onlyGivenNames s'; with_reducible refine Touches.cut (t := s') ?_ ?_; subst s'; rotate_left; clear_value s'; intro hs; rotate_left)
    | (extract_lets +onlyGivenNames s'; first | (have _e : State → _ := s'; clear _e; subst s') | (have _e : Switch := s'; clear _e; subst s') | clear_value s')
    | with_reducible refine Touches.set (by first | decide | assumption | (split <;> decide)) ?_
    | split
    | with_reducible refine Touches.upd_sw (by decide) rfl ?_


theorem State.police_touches {m : Nat} {s0 : State} {s : State} {i charge : Nat} (hk : 0x300000000000000000000000000000004 ||| m = m)
    (h : Touches m s0 s) : Touches m s0 (State.police s i charge).2 := by
  refine Touches.step (k := 0x300000000000000000000000000000004) (t := s) ?_ hk h
  clear hk h
  unfold State.police
  have h0 := Touches.refl 0x300000000000000000000000000000004 s
  repeat' first
    | with_reducible assumption
    | (extract_lets +onlyGivenNames s'; with_reducible refine Touches.cut (t := s') ?_ ?_; subst s'; rotate_left; clear_value s'; intro hs; rotate_left)
    | (extract_lets +onlyGivenNames s'; first | (have _e : State → _ := s'; clear _e; subst s') | clear_value s')
    | with_reducible refine State.putPolicer_touches (by decide) ?_
    | with_reducible refine Touches.addSat (by first | decide | assumption | (split <;> decide)) ?_
    | split

theorem State.police_touches_eq {m : Nat} {s0 t₁ : State} {s : State} {i charge : Nat} {a₁ : Bool} (e₁ : State.police s i charge = (a₁, t₁))
    (hk : 0x300000000000000000000000000000004 ||| m = m) (h : Touches m s0 s) : Touches m s0 t₁ := Touches.snd e₁ (State.police_touches hk h)


theorem State.lateDebit_touches {m : Nat} {s0 : State} {s : State} {i bytes : Nat} (hk : 0x100000000000000000000000000000004 ||| m = m)
    (h : Touches m s0 s) : Touches m s0 (State.lateDebit s i bytes) := by
  refine Touches.step (k := 0x100000000000000000000000000000004) (t := s) ?_ hk h
  clear hk h
  unfold State.lateDebit
  have h0 := Touches.refl 0x100000000000000000000000000000004 s
  repeat' first
    | with_reducible assumption
    | (extract_lets +onlyGivenNames s'; with_reducible refine Touches.cut (t := s') ?_ ?_; subst s'; rotate_left; clear_value s'; intro hs; rotate_left)
    | (extract_lets +onlyGivenNames s'; first | (have _e : State → _ := s'; clear _e; subst s') | clear_value s')
    | with_reducible refine State.putPolicer_touches (by decide) ?_
    | split


theorem State.polPair_touches {m : Nat} {s0 : State} {s : State} {i oldRate oldBurst : Nat} (hk : 0x100000000000000000000000000000004 ||| m = m)
    (h : Touches m s0 s) : Touches m s0 (State.polPair s i oldRate oldBurst) := by
  refine Touches.step (k := 0x100000000000000000000000000000004) (t := s) ?_ hk h
  clear hk h
  unfold State.polPair
  have h0 := Touches.refl 0x100000000000000000000000000000004 s
  repeat' first
    | with_reducible assumption
    | (extract_lets +onlyGivenNames s'; with_reducible refine Touches.cut (t := s') ?_ ?_; subst s'; rotate_left; clear_value s'; intro hs; rotate_left)
    | (extract_lets +onlyGivenNames s'; first | (have _e : State → _ := s'; clear _e; subst s') | clear_value s')
    | with_reducible refine State.putPolicer_touches (by decide) ?_
    | split


theorem State.takeDue_touches {m : Nat} {s0 : State} {s : State} {z0 : PairDue} (hk : 0x20000000000000000000000000000000000000000000000000000000000000140000000000000000000000000000004 ||| m = m)
    (h : Touches m s0 s) : Touches m s0 (State.takeDue s z0) := by
  refine Touches.step (k := 0x20000000000000000000000000000000000000000000000000000000000000140000000000000000000000000000004) (t := s) ?_ hk h
  clear hk h
  unfold State.takeDue
  have h0 := Touches.refl 0x20000000000000000000000000000000000000000000000000000000000000140000000000000000000000000000004 s
  repeat' first
    | with_reducible assumption
    | (extract_lets +onlyGivenNames s'; with_reducible refine Touches.cut (t := s') ?_ ?_; subst s'; rotate_left; clear_value s'; intro hs; rotate_left)
    | (extract_lets +onlyGivenNames s'; first | (have _e : State → _ := s'; clear _e; subst s') | clear_value s')
    | with_reducible refine State.polPair_touches (by decide) ?_
    | with_reducible refine Touches.set (by first | decide | assumption | (split <;> decide)) ?_
    | with_reducible refine Touches.setReg (by first | decide | assumption | (split <;> decide)) ?_
    | split


theorem State.takePairs_touches {m : Nat} {s0 : State} {s : State} {p : Nat} (hk : 0x20000000000000000000000000000000000000000000000000000000000000140000000000000000000000000000014 ||| m = m)
    (h : Touches m s0 s) : Touches m s0 (State.takePairs s p) := by
  refine Touches.step (k := 0x20000000000000000000000000000000000000000000000000000000000000140000000000000000000000000000014) (t := s) ?_ hk h
  clear hk h
  unfold State.takePairs
  have h0 := Touches.refl 0x20000000000000000000000000000000000000000000000000000000000000140000000000000000000000000000014 s
  repeat' first
    | with_reducible assumption
    | (extract_lets +onlyGivenNames s'; with_reducible refine Touches.cut (t := s') ?_ ?_; subst s'; rotate_left; clear_value s'; intro hs; rotate_left)
    | (extract_lets +onlyGivenNames s'; first | (have _e : State → _ := s'; clear _e; subst s') | (have _e : CfgBlock := s'; clear _e; subst s') | clear_value s')
    | with_reducible refine Touches.foldl (fun _ _ _ => ?_) ?_
    | with_reducible refine State.takeDue_touches (by decide) ?_
    | split
    | with_reducible refine Touches.upd_cf (by decide) ?_


theorem State.polReset_touches {m : Nat} {s0 : State} {s : State} (hk : 0x100000000000000000000000000000004 ||| m = m)
    (h : Touches m s0 s) : Touches m s0 (State.polReset s) := by
  refine Touches.step (k := 0x100000000000000000000000000000004) (t := s) ?_ hk h
  clear hk h
  unfold State.polReset
  have h0 := Touches.refl 0x100000000000000000000000000000004 s
  repeat' first
    | with_reducible assumption
    | (extract_lets +onlyGivenNames s'; with_reducible refine Touches.cut (t := s') ?_ ?_; subst s'; rotate_left; clear_value s'; intro hs; rotate_left)
    | (extract_lets +onlyGivenNames s'; first | (have _e : State → _ := s'; clear _e; subst s') | (have _e : Switch := s'; clear _e; subst s') | clear_value s')
    | with_reducible refine Touches.foldl (fun _ _ _ => ?_) ?_
    | with_reducible refine State.putPolicer_touches (by decide) ?_
    | split
    | with_reducible refine Touches.upd_sw (by decide) rfl ?_


end Sys2Proof.Machine
end

