-- ==== Sys2Proof/Laws/TouchesPrograms.lean ====
section
/-!
SUPPORT. What the operations of Programs.lean can touch.
-/

namespace Sys2Proof.Machine

set_option linter.all false

theorem State.ecmpPick_touches {m : Nat} {s0 : State} {s : State} {pipe : Nat} {w : Wave} {p : Packet} {g count : Nat} {queue : Nat → Option Nat} {adaptive : Bool} (hk : 0x40000000000000000000004 ||| m = m)
    (h : Touches m s0 s) : Touches m s0 (State.ecmpPick s pipe w p g count queue adaptive).2.2 := by
  refine Touches.step (k := 0x40000000000000000000004) (t := s) ?_ hk h
  clear hk h
  unfold State.ecmpPick
  have h0 := Touches.refl 0x40000000000000000000004 s
  repeat' first
    | with_reducible assumption
    | (extract_lets +onlyGivenNames s'; with_reducible refine Touches.cut (t := s') ?_ ?_; subst s'; rotate_left; clear_value s'; intro hs; rotate_left)
    | (extract_lets +onlyGivenNames s'; first | (have _e : State → _ := s'; clear _e; subst s') | clear_value s')
    | with_reducible refine State.modPipe_touches (by decide) ?_
    | with_reducible refine Touches.addSat (by first | decide | assumption | (split <;> decide)) ?_
    | split

theorem State.ecmpPick_touches_eq {m : Nat} {s0 t₁ : State} {s : State} {pipe : Nat} {w : Wave} {p : Packet} {g count : Nat} {queue : Nat → Option Nat} {adaptive : Bool} {a₁ : Nat} {b₁ : Bool} (e₁ : State.ecmpPick s pipe w p g count queue adaptive = (a₁, b₁, t₁))
    (hk : 0x40000000000000000000004 ||| m = m) (h : Touches m s0 s) : Touches m s0 t₁ := Touches.thd e₁ (State.ecmpPick_touches hk h)


theorem State.countBytes_touches {m : Nat} {s0 : State} {s : State} {k packets bytes : Nat} (hk : 0x4 ||| m = m)
    (h : Touches m s0 s) : Touches m s0 (State.countBytes s k packets bytes) := by
  refine Touches.step (k := 0x4) (t := s) ?_ hk h
  clear hk h
  unfold State.countBytes
  have h0 := Touches.refl 0x4 s
  repeat' first
    | with_reducible assumption
    | (extract_lets +onlyGivenNames s'; with_reducible refine Touches.cut (t := s') ?_ ?_; subst s'; rotate_left; clear_value s'; intro hs; rotate_left)
    | (extract_lets +onlyGivenNames s'; first | (have _e : State → _ := s'; clear _e; subst s') | (have _e : Switch := s'; clear _e; subst s') | clear_value s')
    | split
    | with_reducible refine Touches.upd_sw (by decide) rfl ?_


set_option maxHeartbeats 2000000 in
theorem State.act_touches {m : Nat} {s0 : State} {s : State} {pipe : Nat} {w : Wave} {p : Packet} {z0 : Action} (hk : 0x10200000800000001000000000000001102000000000000000000E06D030000000A0C00000000000000020631C4 ||| m = m)
    (h : Touches m s0 s) : Touches m s0 (State.act s pipe w p z0).1 := by
  refine Touches.step (k := 0x10200000800000001000000000000001102000000000000000000E06D030000000A0C00000000000000020631C4) (t := s) ?_ hk h
  clear hk h
  unfold State.act
  have h0 := Touches.refl 0x10200000800000001000000000000001102000000000000000000E06D030000000A0C00000000000000020631C4 s
  repeat' first
    | with_reducible assumption
    | (extract_lets +onlyGivenNames s'; with_reducible refine Touches.cut (t := s') ?_ ?_; subst s'; rotate_left; clear_value s'; intro hs; rotate_left)
    | (extract_lets +onlyGivenNames s'; first | (have _e : State → _ := s'; clear _e; subst s') | (have _e : Switch := s'; clear _e; subst s') | clear_value s')
    | with_reducible refine State.draw_touches_eq (by assumption) (by decide) ?_
    | with_reducible refine State.draw_touches (by decide) ?_
    | with_reducible refine State.spend_touches (by decide) ?_
    | with_reducible refine State.learnSend_touches (by decide) ?_
    | with_reducible refine State.ageHit_touches (by decide) ?_
    | with_reducible refine State.police_touches_eq (by assumption) (by decide) ?_
    | with_reducible refine State.police_touches (by decide) ?_
    | with_reducible refine State.ecmpPick_touches_eq (by assumption) (by decide) ?_
    | with_reducible refine State.ecmpPick_touches (by decide) ?_
    | with_reducible refine State.countBytes_touches (by decide) ?_
    | with_reducible refine State.recirculate_touches (by decide) ?_
    | split
    | with_reducible refine Touches.upd_sw (by decide) rfl ?_

theorem State.act_touches_eq {m : Nat} {s0 t₁ : State} {s : State} {pipe : Nat} {w : Wave} {p : Packet} {z0 : Action} {a₁ : Packet} (e₁ : State.act s pipe w p z0 = (t₁, a₁))
    (hk : 0x10200000800000001000000000000001102000000000000000000E06D030000000A0C00000000000000020631C4 ||| m = m) (h : Touches m s0 s) : Touches m s0 t₁ := Touches.fst e₁ (State.act_touches hk h)


theorem State.actAll_touches {m : Nat} {s0 s : State} {pipe : Nat} {w : Wave} {p : Packet} {z0 : List Guarded}
    (hk : 0x10200000800000001000000000000001102000000000000000000E06D030000000A0C00000000000000020631C4 ||| m = m) (h : Touches m s0 s) : Touches m s0 (State.actAll s pipe w p z0).1 := by
  induction z0 generalizing s p with
  | nil => exact h
  | cons g gs ih =>
    unfold State.actAll
    split
    · exact ih h
    · exact ih (State.act_touches hk h)

theorem State.actAll_touches_eq {m : Nat} {s0 t₁ s : State} {pipe : Nat} {w : Wave} {p : Packet} {z0 : List Guarded}
    {a₁ : Packet} (e₁ : State.actAll s pipe w p z0 = (t₁, a₁)) (hk : 0x10200000800000001000000000000001102000000000000000000E06D030000000A0C00000000000000020631C4 ||| m = m)
    (h : Touches m s0 s) : Touches m s0 t₁ := Touches.fst e₁ (State.actAll_touches hk h)


end Sys2Proof.Machine
end

