-- ==== Sys2Proof/Laws/TouchesFlows.lean ====
section
/-!
SUPPORT. What the operations of Flows.lean can touch.
-/

namespace Sys2Proof.Machine

set_option linter.all false

theorem State.locShift_touches {m : Nat} {s0 s : State} {hole at_ z0 : Nat} (hk : 0x100 ||| m = m)
    (h : Touches m s0 s) : Touches m s0 (State.locShift s hole at_ z0) := by
  induction z0 generalizing s hole at_ with
  | zero => exact h
  | succ n ih =>
    unfold State.locShift
    extract_lets size j
    split
    · exact h
    · split
      · exact ih (Touches.upd_tel (by rw [← hk, Nat.testBit_or]; rfl) h)
      · exact ih h


theorem State.locClear_touches {m : Nat} {s0 : State} {s : State} {slot : Nat} (hk : 0x100 ||| m = m)
    (h : Touches m s0 s) : Touches m s0 (State.locClear s slot) := by
  refine Touches.step (k := 0x100) (t := s) ?_ hk h
  clear hk h
  unfold State.locClear
  have h0 := Touches.refl 0x100 s
  repeat' first
    | with_reducible assumption
    | (extract_lets +onlyGivenNames s'; with_reducible refine Touches.cut (t := s') ?_ ?_; subst s'; rotate_left; clear_value s'; intro hs; rotate_left)
    | (extract_lets +onlyGivenNames s'; first | (have _e : State → _ := s'; clear _e; subst s') | (have _e : TelBlock := s'; clear _e; subst s') | clear_value s')
    | with_reducible refine State.locShift_touches (by decide) ?_
    | split
    | with_reducible refine Touches.upd_tel (by decide) ?_


theorem State.freeEntry_touches {m : Nat} {s0 : State} {s : State} {i : Nat} (hk : 0x100 ||| m = m)
    (h : Touches m s0 s) : Touches m s0 (State.freeEntry s i) := by
  refine Touches.step (k := 0x100) (t := s) ?_ hk h
  clear hk h
  unfold State.freeEntry
  have h0 := Touches.refl 0x100 s
  repeat' first
    | with_reducible assumption
    | (extract_lets +onlyGivenNames s'; with_reducible refine Touches.cut (t := s') ?_ ?_; subst s'; rotate_left; clear_value s'; intro hs; rotate_left)
    | (extract_lets +onlyGivenNames s'; first | (have _e : State → _ := s'; clear _e; subst s') | (have _e : TelBlock := s'; clear _e; subst s') | clear_value s')
    | with_reducible refine State.locClear_touches (by decide) ?_
    | split
    | with_reducible refine Touches.upd_tel (by decide) ?_


theorem State.refreshFlows_touches {m : Nat} {s0 : State} {s : State} {n : Nat} (hk : 0x1004800000000000000000000000000000000000000000000000000000 ||| m = m)
    (h : Touches m s0 s) : Touches m s0 (State.refreshFlows s n) := by
  refine Touches.step (k := 0x1004800000000000000000000000000000000000000000000000000000) (t := s) ?_ hk h
  clear hk h
  unfold State.refreshFlows
  have h0 := Touches.refl 0x1004800000000000000000000000000000000000000000000000000000 s
  repeat' first
    | with_reducible assumption
    | (extract_lets +onlyGivenNames s'; with_reducible refine Touches.cut (t := s') ?_ ?_; subst s'; rotate_left; clear_value s'; intro hs; rotate_left)
    | (extract_lets +onlyGivenNames s'; first | (have _e : State → _ := s'; clear _e; subst s') | clear_value s')
    | with_reducible refine Touches.set (by first | decide | assumption | (split <;> decide)) ?_
    | split


theorem State.exportFlow_touches {m : Nat} {s0 : State} {s : State} {f : FlowRec} {reason : Nat} (hk : 0x80000000100000000000000010200000000000000000000000000000000000000000000000000040180 ||| m = m)
    (h : Touches m s0 s) : Touches m s0 (State.exportFlow s f reason) := by
  refine Touches.step (k := 0x80000000100000000000000010200000000000000000000000000000000000000000000000000040180) (t := s) ?_ hk h
  clear hk h
  unfold State.exportFlow
  have h0 := Touches.refl 0x80000000100000000000000010200000000000000000000000000000000000000000000000000040180 s
  repeat' first
    | with_reducible assumption
    | (extract_lets +onlyGivenNames s'; with_reducible refine Touches.cut (t := s') ?_ ?_; subst s'; rotate_left; clear_value s'; intro hs; rotate_left)
    | (extract_lets +onlyGivenNames s'; first | (have _e : State → _ := s'; clear _e; subst s') | clear_value s')
    | with_reducible refine State.exportRecord_touches (by decide) ?_
    | split


theorem State.aggAdd_touches {m : Nat} {s0 : State} {s : State} {pipe n packets bytes approx : Nat} (hk : 0x80000000000000000000000000000000000000000000000000000000000 ||| m = m)
    (h : Touches m s0 s) : Touches m s0 (State.aggAdd s pipe n packets bytes approx) := by
  refine Touches.step (k := 0x80000000000000000000000000000000000000000000000000000000000) (t := s) ?_ hk h
  clear hk h
  unfold State.aggAdd
  have h0 := Touches.refl 0x80000000000000000000000000000000000000000000000000000000000 s
  repeat' first
    | with_reducible assumption
    | (extract_lets +onlyGivenNames s'; with_reducible refine Touches.cut (t := s') ?_ ?_; subst s'; rotate_left; clear_value s'; intro hs; rotate_left)
    | (extract_lets +onlyGivenNames s'; first | (have _e : State → _ := s'; clear _e; subst s') | clear_value s')
    | with_reducible refine Touches.addWrap (by first | decide | assumption | (split <;> decide)) ?_
    | split


theorem State.flowRefusal_touches {m : Nat} {s0 : State} {s : State} {pipe n : Nat} (hk : 0x1020000000000000100000000000000000201800000000000000000000000000000000000000000000000042180 ||| m = m)
    (h : Touches m s0 s) : Touches m s0 (State.flowRefusal s pipe n) := by
  refine Touches.step (k := 0x1020000000000000100000000000000000201800000000000000000000000000000000000000000000000042180) (t := s) ?_ hk h
  clear hk h
  unfold State.flowRefusal
  have h0 := Touches.refl 0x1020000000000000100000000000000000201800000000000000000000000000000000000000000000000042180 s
  repeat' first
    | with_reducible assumption
    | (extract_lets +onlyGivenNames s'; with_reducible refine Touches.cut (t := s') ?_ ?_; subst s'; rotate_left; clear_value s'; intro hs; rotate_left)
    | (extract_lets +onlyGivenNames s'; first | (have _e : State → _ := s'; clear _e; subst s') | clear_value s')
    | with_reducible refine State.record_touches (by decide) ?_
    | with_reducible refine State.modTel_touches (by decide) ?_
    | with_reducible refine Touches.set (by first | decide | assumption | (split <;> decide)) ?_
    | with_reducible refine Touches.addSat (by first | decide | assumption | (split <;> decide)) ?_
    | with_reducible refine Touches.raise (by first | decide | assumption | (split <;> decide)) (by decide) ?_
    | split


theorem State.refusePackets_touches {m : Nat} {s0 : State} {s : State} {pipe n packets bytes : Nat} (hk : 0x81001000000000000000000000000000000000000000000000000000000 ||| m = m)
    (h : Touches m s0 s) : Touches m s0 (State.refusePackets s pipe n packets bytes) := by
  refine Touches.step (k := 0x81001000000000000000000000000000000000000000000000000000000) (t := s) ?_ hk h
  clear hk h
  unfold State.refusePackets
  have h0 := Touches.refl 0x81001000000000000000000000000000000000000000000000000000000 s
  repeat' first
    | with_reducible assumption
    | (extract_lets +onlyGivenNames s'; with_reducible refine Touches.cut (t := s') ?_ ?_; subst s'; rotate_left; clear_value s'; intro hs; rotate_left)
    | (extract_lets +onlyGivenNames s'; first | (have _e : State → _ := s'; clear _e; subst s') | clear_value s')
    | with_reducible refine State.aggAdd_touches (by decide) ?_
    | with_reducible refine Touches.addSat (by first | decide | assumption | (split <;> decide)) ?_
    | split


theorem execOverflowEpisodeEnd_touches {m : Nat} {s0 : State} {s : State} (hk : 0x800000000000000000000000000000000000000000000000000000 ||| m = m)
    (h : Touches m s0 s) : Ends m s0 (execOverflowEpisodeEnd s) := by
  refine Ends.step (k := 0x800000000000000000000000000000000000000000000000000000) (t := s) ?_ hk h
  clear hk h
  unfold execOverflowEpisodeEnd
  have h0 := Touches.refl 0x800000000000000000000000000000000000000000000000000000 s
  repeat' first
    | with_reducible assumption
    | (extract_lets +onlyGivenNames s'; with_reducible refine Touches.cut (t := s') ?_ ?_; subst s'; rotate_left; clear_value s'; intro hs; rotate_left)
    | (extract_lets +onlyGivenNames s'; with_reducible refine Ends.cut (t := s') ?_ ?_; subst s'; rotate_left; clear_value s'; intro hs; rotate_left)
    | with_reducible refine Ends.next ?_
    | (extract_lets +onlyGivenNames s'; first | (have _e : State → _ := s'; clear _e; subst s') | clear_value s')
    | with_reducible refine Touches.set (by first | decide | assumption | (split <;> decide)) ?_
    | split


theorem State.giveLine_touches {m : Nat} {s0 : State} {s : State} {k : Nat} {f : FlowRec} (hk : 0x100 ||| m = m)
    (h : Touches m s0 s) : Touches m s0 (State.giveLine s k f) := by
  refine Touches.step (k := 0x100) (t := s) ?_ hk h
  clear hk h
  unfold State.giveLine
  have h0 := Touches.refl 0x100 s
  repeat' first
    | with_reducible assumption
    | (extract_lets +onlyGivenNames s'; with_reducible refine Touches.cut (t := s') ?_ ?_; subst s'; rotate_left; clear_value s'; intro hs; rotate_left)
    | (extract_lets +onlyGivenNames s'; first | (have _e : State → _ := s'; clear _e; subst s') | clear_value s')
    | with_reducible refine State.modTel_touches (by decide) ?_
    | split


theorem State.writeBack_touches {m : Nat} {s0 : State} {s : State} {k : Nat} (hk : 0x100000000000000080200800000000000000000000000000000000000000000000000040180 ||| m = m)
    (h : Touches m s0 s) : Touches m s0 (State.writeBack s k) := by
  refine Touches.step (k := 0x100000000000000080200800000000000000000000000000000000000000000000000040180) (t := s) ?_ hk h
  clear hk h
  unfold State.writeBack
  have h0 := Touches.refl 0x100000000000000080200800000000000000000000000000000000000000000000000040180 s
  repeat' first
    | with_reducible assumption
    | (extract_lets +onlyGivenNames s'; with_reducible refine Touches.cut (t := s') ?_ ?_; subst s'; rotate_left; clear_value s'; intro hs; rotate_left)
    | (extract_lets +onlyGivenNames s'; first | (have _e : State → _ := s'; clear _e; subst s') | clear_value s')
    | with_reducible refine State.modTel_touches (by decide) ?_
    | with_reducible refine State.aggAdd_touches (by decide) ?_
    | with_reducible refine Touches.set (by first | decide | assumption | (split <;> decide)) ?_
    | with_reducible refine Touches.raise (by first | decide | assumption | (split <;> decide)) (by decide) ?_
    | split


theorem State.takeLine_touches {m : Nat} {s0 : State} {s : State} {d : Nat} {f : FlowRec} (hk : 0x80000000100000000000000090202800000000000000000000000000000000000000000000000040180 ||| m = m)
    (h : Touches m s0 s) : Touches m s0 (State.takeLine s d f).2 := by
  refine Touches.step (k := 0x80000000100000000000000090202800000000000000000000000000000000000000000000000040180) (t := s) ?_ hk h
  clear hk h
  unfold State.takeLine
  have h0 := Touches.refl 0x80000000100000000000000090202800000000000000000000000000000000000000000000000040180 s
  repeat' first
    | with_reducible assumption
    | (extract_lets +onlyGivenNames s'; with_reducible refine Touches.cut (t := s') ?_ ?_; subst s'; rotate_left; clear_value s'; intro hs; rotate_left)
    | (extract_lets +onlyGivenNames s'; first | (have _e : State → _ := s'; clear _e; subst s') | clear_value s')
    | with_reducible refine State.exportFlow_touches (by decide) ?_
    | with_reducible refine State.giveLine_touches (by decide) ?_
    | with_reducible refine State.writeBack_touches (by decide) ?_
    | with_reducible refine Touches.addSat (by first | decide | assumption | (split <;> decide)) ?_
    | split

theorem State.takeLine_touches_eq {m : Nat} {s0 t₁ : State} {s : State} {d : Nat} {f : FlowRec} {a₁ : Option Nat} (e₁ : State.takeLine s d f = (a₁, t₁))
    (hk : 0x80000000100000000000000090202800000000000000000000000000000000000000000000000040180 ||| m = m) (h : Touches m s0 s) : Touches m s0 t₁ := Touches.snd e₁ (State.takeLine_touches hk h)


theorem State.flowUpdate_touches {m : Nat} {s0 : State} {s : State} {k : Nat} {dropped : Bool} (hk : 0x1020000080000000100000000000000091207800000000000000000000000000000000000000000000000042184 ||| m = m)
    (h : Touches m s0 s) : Touches m s0 (State.flowUpdate s k dropped) := by
  refine Touches.step (k := 0x1020000080000000100000000000000091207800000000000000000000000000000000000000000000000042184) (t := s) ?_ hk h
  clear hk h
  unfold State.flowUpdate
  have h0 := Touches.refl 0x1020000080000000100000000000000091207800000000000000000000000000000000000000000000000042184 s
  repeat' first
    | with_reducible assumption
    | (extract_lets +onlyGivenNames s'; with_reducible refine Touches.cut (t := s') ?_ ?_; subst s'; rotate_left; clear_value s'; intro hs; rotate_left)
    | (extract_lets +onlyGivenNames s'; first | (have _e : State → _ := s'; clear _e; subst s') | clear_value s')
    | with_reducible refine State.putPacket_touches (by decide) ?_
    | with_reducible refine State.modTel_touches (by decide) ?_
    | with_reducible refine State.refreshFlows_touches (by decide) ?_
    | with_reducible refine State.flowRefusal_touches (by decide) ?_
    | with_reducible refine State.refusePackets_touches (by decide) ?_
    | with_reducible refine State.takeLine_touches_eq (by assumption) (by decide) ?_
    | with_reducible refine State.takeLine_touches (by decide) ?_
    | split


theorem State.flowBytes_touches {m : Nat} {s0 : State} {s : State} {k : Nat} (hk : 0x80000000000000000000000000000000000000000000000000000000104 ||| m = m)
    (h : Touches m s0 s) : Touches m s0 (State.flowBytes s k) := by
  refine Touches.step (k := 0x80000000000000000000000000000000000000000000000000000000104) (t := s) ?_ hk h
  clear hk h
  unfold State.flowBytes
  have h0 := Touches.refl 0x80000000000000000000000000000000000000000000000000000000104 s
  repeat' first
    | with_reducible assumption
    | (extract_lets +onlyGivenNames s'; with_reducible refine Touches.cut (t := s') ?_ ?_; subst s'; rotate_left; clear_value s'; intro hs; rotate_left)
    | (extract_lets +onlyGivenNames s'; first | (have _e : State → _ := s'; clear _e; subst s') | clear_value s')
    | with_reducible refine State.putPacket_touches (by decide) ?_
    | with_reducible refine State.modTel_touches (by decide) ?_
    | with_reducible refine State.aggAdd_touches (by decide) ?_
    | split


theorem State.sendFate_touches {m : Nat} {s0 : State} {s : State} {p : Packet} {kind : FateKind} (hk : 0x100 ||| m = m)
    (h : Touches m s0 s) : Touches m s0 (State.sendFate s p kind) := by
  refine Touches.step (k := 0x100) (t := s) ?_ hk h
  clear hk h
  unfold State.sendFate
  have h0 := Touches.refl 0x100 s
  repeat' first
    | with_reducible assumption
    | (extract_lets +onlyGivenNames s'; with_reducible refine Touches.cut (t := s') ?_ ?_; subst s'; rotate_left; clear_value s'; intro hs; rotate_left)
    | (extract_lets +onlyGivenNames s'; first | (have _e : State → _ := s'; clear _e; subst s') | clear_value s')
    | with_reducible refine State.modTel_touches (by decide) ?_
    | split


theorem execFateUpdate_touches {m : Nat} {s0 : State} {s : State} (hk : 0x80002000000000000000000000000000000000000000000000000000100 ||| m = m)
    (h : Touches m s0 s) : Ends m s0 (execFateUpdate s) := by
  refine Ends.step (k := 0x80002000000000000000000000000000000000000000000000000000100) (t := s) ?_ hk h
  clear hk h
  unfold execFateUpdate
  have h0 := Touches.refl 0x80002000000000000000000000000000000000000000000000000000100 s
  repeat' first
    | with_reducible assumption
    | (extract_lets +onlyGivenNames s'; with_reducible refine Touches.cut (t := s') ?_ ?_; subst s'; rotate_left; clear_value s'; intro hs; rotate_left)
    | (extract_lets +onlyGivenNames s'; with_reducible refine Ends.cut (t := s') ?_ ?_; subst s'; rotate_left; clear_value s'; intro hs; rotate_left)
    | with_reducible refine Ends.next ?_
    | (extract_lets +onlyGivenNames s'; first | (have _e : State → _ := s'; clear _e; subst s') | clear_value s')
    | with_reducible refine State.modTel_touches (by decide) ?_
    | with_reducible refine State.aggAdd_touches (by decide) ?_
    | with_reducible refine Touches.addSat (by first | decide | assumption | (split <;> decide)) ?_
    | split


theorem execFlowWriteback_touches {m : Nat} {s0 : State} {die : RimNo} {line : Fin 65536} {s : State} (hk : 0x100000000000000080200800000000000000000000000000000000000000000000000040180 ||| m = m)
    (h : Touches m s0 s) : Ends m s0 (execFlowWriteback die line s) := by
  refine Ends.step (k := 0x100000000000000080200800000000000000000000000000000000000000000000000040180) (t := s) ?_ hk h
  clear hk h
  unfold execFlowWriteback
  have h0 := Touches.refl 0x100000000000000080200800000000000000000000000000000000000000000000000040180 s
  repeat' first
    | with_reducible assumption
    | (extract_lets +onlyGivenNames s'; with_reducible refine Touches.cut (t := s') ?_ ?_; subst s'; rotate_left; clear_value s'; intro hs; rotate_left)
    | (extract_lets +onlyGivenNames s'; with_reducible refine Ends.cut (t := s') ?_ ?_; subst s'; rotate_left; clear_value s'; intro hs; rotate_left)
    | with_reducible refine Ends.next ?_
    | (extract_lets +onlyGivenNames s'; first | (have _e : State → _ := s'; clear _e; subst s') | clear_value s')
    | with_reducible refine State.writeBack_touches (by decide) ?_
    | split


theorem State.ledgerRefuse_touches {m : Nat} {s0 : State} {s : State} {w : WriteBack} (hk : 0x1020000000000000100000000000000081201800000000000000000000000000000000000000000000000042180 ||| m = m)
    (h : Touches m s0 s) : Touches m s0 (State.ledgerRefuse s w) := by
  refine Touches.step (k := 0x1020000000000000100000000000000081201800000000000000000000000000000000000000000000000042180) (t := s) ?_ hk h
  clear hk h
  unfold State.ledgerRefuse
  have h0 := Touches.refl 0x1020000000000000100000000000000081201800000000000000000000000000000000000000000000000042180 s
  repeat' first
    | with_reducible assumption
    | (extract_lets +onlyGivenNames s'; with_reducible refine Touches.cut (t := s') ?_ ?_; subst s'; rotate_left; clear_value s'; intro hs; rotate_left)
    | (extract_lets +onlyGivenNames s'; first | (have _e : State → _ := s'; clear _e; subst s') | clear_value s')
    | with_reducible refine State.modTel_touches (by decide) ?_
    | with_reducible refine State.flowRefusal_touches (by decide) ?_
    | with_reducible refine State.refusePackets_touches (by decide) ?_
    | split


theorem execLedgerWriteback_touches {m : Nat} {s0 : State} {s : State} (hk : 0x1020000080000000100000000004000091207800000000000000000000000000000000000000000000000043180 ||| m = m)
    (h : Touches m s0 s) : Ends m s0 (execLedgerWriteback s) := by
  refine Ends.step (k := 0x1020000080000000100000000004000091207800000000000000000000000000000000000000000000000043180) (t := s) ?_ hk h
  clear hk h
  unfold execLedgerWriteback
  have h0 := Touches.refl 0x1020000080000000100000000004000091207800000000000000000000000000000000000000000000000043180 s
  repeat' first
    | with_reducible assumption
    | (extract_lets +onlyGivenNames s'; with_reducible refine Touches.cut (t := s') ?_ ?_; subst s'; rotate_left; clear_value s'; intro hs; rotate_left)
    | (extract_lets +onlyGivenNames s'; with_reducible refine Ends.cut (t := s') ?_ ?_; subst s'; rotate_left; clear_value s'; intro hs; rotate_left)
    | with_reducible refine Ends.next ?_
    | (extract_lets +onlyGivenNames s'; first | (have _e : State → _ := s'; clear _e; subst s') | clear_value s')
    | with_reducible refine State.spend_touches (by decide) ?_
    | with_reducible refine State.modTel_touches (by decide) ?_
    | with_reducible refine State.freeEntry_touches (by decide) ?_
    | with_reducible refine State.refreshFlows_touches (by decide) ?_
    | with_reducible refine State.exportFlow_touches (by decide) ?_
    | with_reducible refine State.ledgerRefuse_touches (by decide) ?_
    | with_reducible refine Touches.addSat (by first | decide | assumption | (split <;> decide)) ?_
    | split


theorem execRefusedLineRetry_touches {m : Nat} {s0 : State} {die : RimNo} {line : Fin 65536} {s : State} (hk : 0x100 ||| m = m)
    (h : Touches m s0 s) : Ends m s0 (execRefusedLineRetry die line s) := by
  refine Ends.step (k := 0x100) (t := s) ?_ hk h
  clear hk h
  unfold execRefusedLineRetry
  have h0 := Touches.refl 0x100 s
  repeat' first
    | with_reducible assumption
    | (extract_lets +onlyGivenNames s'; with_reducible refine Touches.cut (t := s') ?_ ?_; subst s'; rotate_left; clear_value s'; intro hs; rotate_left)
    | (extract_lets +onlyGivenNames s'; with_reducible refine Ends.cut (t := s') ?_ ?_; subst s'; rotate_left; clear_value s'; intro hs; rotate_left)
    | with_reducible refine Ends.next ?_
    | (extract_lets +onlyGivenNames s'; first | (have _e : State → _ := s'; clear _e; subst s') | clear_value s')
    | with_reducible refine State.modTel_touches (by decide) ?_
    | split


theorem State.sweepAggregate_touches {m : Nat} {s0 : State} {s : State} {pipe n : Nat} (hk : 0x80000000100000000000000090200000000000000000000000000000000000000000000000000040180 ||| m = m)
    (h : Touches m s0 s) : Touches m s0 (State.sweepAggregate s pipe n) := by
  refine Touches.step (k := 0x80000000100000000000000090200000000000000000000000000000000000000000000000000040180) (t := s) ?_ hk h
  clear hk h
  unfold State.sweepAggregate
  have h0 := Touches.refl 0x80000000100000000000000090200000000000000000000000000000000000000000000000000040180 s
  repeat' first
    | with_reducible assumption
    | (extract_lets +onlyGivenNames s'; with_reducible refine Touches.cut (t := s') ?_ ?_; subst s'; rotate_left; clear_value s'; intro hs; rotate_left)
    | (extract_lets +onlyGivenNames s'; first | (have _e : State → _ := s'; clear _e; subst s') | clear_value s')
    | with_reducible refine Touches.foldl (fun _ _ _ => ?_) ?_
    | with_reducible refine State.modTel_touches (by decide) ?_
    | with_reducible refine State.exportRecord_touches (by decide) ?_
    | with_reducible refine Touches.set (by first | decide | assumption | (split <;> decide)) ?_
    | split


theorem State.sweepEnd_touches {m : Nat} {s0 : State} {s : State} (hk : 0x80000000100000000000000090200000000000000000000000000000000000000000000000000040180 ||| m = m)
    (h : Touches m s0 s) : Touches m s0 (State.sweepEnd s) := by
  refine Touches.step (k := 0x80000000100000000000000090200000000000000000000000000000000000000000000000000040180) (t := s) ?_ hk h
  clear hk h
  unfold State.sweepEnd
  have h0 := Touches.refl 0x80000000100000000000000090200000000000000000000000000000000000000000000000000040180 s
  repeat' first
    | with_reducible assumption
    | (extract_lets +onlyGivenNames s'; with_reducible refine Touches.cut (t := s') ?_ ?_; subst s'; rotate_left; clear_value s'; intro hs; rotate_left)
    | (extract_lets +onlyGivenNames s'; first | (have _e : State → _ := s'; clear _e; subst s') | clear_value s')
    | with_reducible refine Touches.foldl (fun _ _ _ => ?_) ?_
    | with_reducible refine State.modTel_touches (by decide) ?_
    | with_reducible refine State.sweepAggregate_touches (by decide) ?_
    | split


theorem State.mergeLine_touches {m : Nat} {s0 : State} {s : State} {i : Nat} {e : LedgerEntry} (hk : 0x100 ||| m = m)
    (h : Touches m s0 s) : Touches m s0 (State.mergeLine s i e).1 := by
  refine Touches.step (k := 0x100) (t := s) ?_ hk h
  clear hk h
  unfold State.mergeLine
  have h0 := Touches.refl 0x100 s
  repeat' first
    | with_reducible assumption
    | (extract_lets +onlyGivenNames s'; with_reducible refine Touches.cut (t := s') ?_ ?_; subst s'; rotate_left; clear_value s'; intro hs; rotate_left)
    | (extract_lets +onlyGivenNames s'; first | (have _e : State → _ := s'; clear _e; subst s') | clear_value s')
    | with_reducible refine State.modTel_touches (by decide) ?_
    | split

theorem State.mergeLine_touches_eq {m : Nat} {s0 t₁ : State} {s : State} {i : Nat} {e : LedgerEntry} {a₁ : LedgerEntry} (e₁ : State.mergeLine s i e = (t₁, a₁))
    (hk : 0x100 ||| m = m) (h : Touches m s0 s) : Touches m s0 t₁ := Touches.fst e₁ (State.mergeLine_touches hk h)


theorem execExportSweepVisit_touches {m : Nat} {s0 : State} {s : State} (hk : 0x80000000100000000000000091204800000000000000000000000000000000000000000000000040180 ||| m = m)
    (h : Touches m s0 s) : Ends m s0 (execExportSweepVisit s) := by
  refine Ends.step (k := 0x80000000100000000000000091204800000000000000000000000000000000000000000000000040180) (t := s) ?_ hk h
  clear hk h
  unfold execExportSweepVisit
  have h0 := Touches.refl 0x80000000100000000000000091204800000000000000000000000000000000000000000000000040180 s
  repeat' first
    | with_reducible assumption
    | (extract_lets +onlyGivenNames s'; with_reducible refine Touches.cut (t := s') ?_ ?_; subst s'; rotate_left; clear_value s'; intro hs; rotate_left)
    | (extract_lets +onlyGivenNames s'; with_reducible refine Ends.cut (t := s') ?_ ?_; subst s'; rotate_left; clear_value s'; intro hs; rotate_left)
    | with_reducible refine Ends.next ?_
    | (extract_lets +onlyGivenNames s'; first | (have _e : State → _ := s'; clear _e; subst s') | clear_value s')
    | with_reducible refine State.modTel_touches (by decide) ?_
    | with_reducible refine State.freeEntry_touches (by decide) ?_
    | with_reducible refine State.refreshFlows_touches (by decide) ?_
    | with_reducible refine State.exportFlow_touches (by decide) ?_
    | with_reducible refine State.sweepEnd_touches (by decide) ?_
    | with_reducible refine State.mergeLine_touches_eq (by assumption) (by decide) ?_
    | with_reducible refine State.mergeLine_touches (by decide) ?_
    | split


theorem State.forceFlows_touches {m : Nat} {s0 : State} {s : State} {n : Nat} (hk : 0x100 ||| m = m)
    (h : Touches m s0 s) : Touches m s0 (State.forceFlows s n) := by
  refine Touches.step (k := 0x100) (t := s) ?_ hk h
  clear hk h
  unfold State.forceFlows
  have h0 := Touches.refl 0x100 s
  repeat' first
    | with_reducible assumption
    | (extract_lets +onlyGivenNames s'; with_reducible refine Touches.cut (t := s') ?_ ?_; subst s'; rotate_left; clear_value s'; intro hs; rotate_left)
    | (extract_lets +onlyGivenNames s'; first | (have _e : State → _ := s'; clear _e; subst s') | clear_value s')
    | with_reducible refine State.modTel_touches (by decide) ?_
    | split


theorem State.ledgerLost_touches {m : Nat} {s0 : State} {s : State} {stack : Nat} (hk : 0x1020000000000000100000000000000001004800000000000000000000000000000000000000000000000042180 ||| m = m)
    (h : Touches m s0 s) : Touches m s0 (State.ledgerLost s stack) := by
  refine Touches.step (k := 0x1020000000000000100000000000000001004800000000000000000000000000000000000000000000000042180) (t := s) ?_ hk h
  clear hk h
  unfold State.ledgerLost
  have h0 := Touches.refl 0x1020000000000000100000000000000001004800000000000000000000000000000000000000000000000042180 s
  repeat' first
    | with_reducible assumption
    | (extract_lets +onlyGivenNames s'; with_reducible refine Touches.cut (t := s') ?_ ?_; subst s'; rotate_left; clear_value s'; intro hs; rotate_left)
    | (extract_lets +onlyGivenNames s'; first | (have _e : State → _ := s'; clear _e; subst s') | clear_value s')
    | with_reducible refine Touches.foldl (fun _ _ _ => ?_) ?_
    | with_reducible refine State.record_touches (by decide) ?_
    | with_reducible refine State.modTel_touches (by decide) ?_
    | with_reducible refine State.refreshFlows_touches (by decide) ?_
    | with_reducible refine Touches.set (by first | decide | assumption | (split <;> decide)) ?_
    | split


theorem execHistSnapshot_touches {m : Nat} {s0 : State} {fn : FnNo} {value : Word} {s : State} (hk : 0x180000000000000000000000000000000000000000000000000100 ||| m = m)
    (h : Touches m s0 s) : Ends m s0 (execHistSnapshot fn value s) := by
  refine Ends.step (k := 0x180000000000000000000000000000000000000000000000000100) (t := s) ?_ hk h
  clear hk h
  unfold execHistSnapshot
  have h0 := Touches.refl 0x180000000000000000000000000000000000000000000000000100 s
  repeat' first
    | with_reducible assumption
    | (extract_lets +onlyGivenNames s'; with_reducible refine Touches.cut (t := s') ?_ ?_; subst s'; rotate_left; clear_value s'; intro hs; rotate_left)
    | (extract_lets +onlyGivenNames s'; with_reducible refine Ends.cut (t := s') ?_ ?_; subst s'; rotate_left; clear_value s'; intro hs; rotate_left)
    | with_reducible refine Ends.next ?_
    | (extract_lets +onlyGivenNames s'; first | (have _e : State → _ := s'; clear _e; subst s') | clear_value s')
    | with_reducible refine Touches.foldl_mem (fun s'' f'' hf'' hs'' => ?_) ?_
    | with_reducible refine Touches.foldl (fun _ _ _ => ?_) ?_
    | with_reducible refine State.modTel_touches (by decide) ?_
    | with_reducible refine Touches.set (by first | decide | (clear hs''; revert f''; decide)) ?_
    | split


end Sys2Proof.Machine
end

