-- ==== Sys2Proof/Laws/TouchesPipes.lean ====
section
/-!
SUPPORT. What the operations of Pipes.lean can touch.
-/

namespace Sys2Proof.Machine

set_option linter.all false

theorem State.advance_touches {m : Nat} {s0 : State} {s : State} {p pos : Nat} (hk : 0x4 ||| m = m)
    (h : Touches m s0 s) : Touches m s0 (State.advance s p pos) := by
  refine Touches.step (k := 0x4) (t := s) ?_ hk h
  clear hk h
  unfold State.advance
  have h0 := Touches.refl 0x4 s
  repeat' first
    | with_reducible assumption
    | (extract_lets +onlyGivenNames s'; with_reducible refine Touches.cut (t := s') ?_ ?_; subst s'; rotate_left; clear_value s'; intro hs; rotate_left)
    | (extract_lets +onlyGivenNames s'; first | (have _e : State → _ := s'; clear _e; subst s') | clear_value s')
    | with_reducible refine State.modPipe_touches (by decide) ?_
    | split


theorem State.putHead_touches {m : Nat} {s0 : State} {s : State} {p k : Nat} {v : Packet} (hk : 0x4 ||| m = m)
    (h : Touches m s0 s) : Touches m s0 (State.putHead s p k v) := by
  refine Touches.step (k := 0x4) (t := s) ?_ hk h
  clear hk h
  unfold State.putHead
  have h0 := Touches.refl 0x4 s
  repeat' first
    | with_reducible assumption
    | (extract_lets +onlyGivenNames s'; with_reducible refine Touches.cut (t := s') ?_ ?_; subst s'; rotate_left; clear_value s'; intro hs; rotate_left)
    | (extract_lets +onlyGivenNames s'; first | (have _e : State → _ := s'; clear _e; subst s') | clear_value s')
    | with_reducible refine State.putPacket_touches (by decide) ?_
    | with_reducible refine State.modPacket_touches (by decide) ?_
    | with_reducible refine State.putFlight_touches (by decide) ?_
    | split


theorem State.eachHead_touches {m : Nat} {s0 s : State} {p : Nat} {w : Wave} {f : State → Packet → State × Packet}
    (hk : 0x4 ||| m = m) (hf : ∀ s v, Touches m s0 s → Touches m s0 (f s v).1) (h : Touches m s0 s) :
    Touches m s0 (State.eachHead s p w f) := by
  unfold State.eachHead
  refine Touches.foldl (fun s k hs => ?_) h
  split
  · exact hs
  · exact State.putHead_touches hk (hf _ _ hs)


theorem State.auxTake_touches {m : Nat} {s0 : State} {s : State} {p : Nat} (hk : 0x4 ||| m = m)
    (h : Touches m s0 s) : Touches m s0 (State.auxTake s p).2 := by
  refine Touches.step (k := 0x4) (t := s) ?_ hk h
  clear hk h
  unfold State.auxTake
  have h0 := Touches.refl 0x4 s
  repeat' first
    | with_reducible assumption
    | (extract_lets +onlyGivenNames s'; with_reducible refine Touches.cut (t := s') ?_ ?_; subst s'; rotate_left; clear_value s'; intro hs; rotate_left)
    | (extract_lets +onlyGivenNames s'; first | (have _e : State → _ := s'; clear _e; subst s') | clear_value s')
    | with_reducible refine State.modPipe_touches (by decide) ?_
    | split

theorem State.auxTake_touches_eq {m : Nat} {s0 t₁ : State} {s : State} {p : Nat} {a₁ : List Nat} (e₁ : State.auxTake s p = (a₁, t₁))
    (hk : 0x4 ||| m = m) (h : Touches m s0 s) : Touches m s0 t₁ := Touches.snd e₁ (State.auxTake_touches hk h)


theorem State.launchHead_touches {m : Nat} {s0 : State} {s : State} {p : Nat} {aux : Bool} {k : Nat} (hk : 0x2000004 ||| m = m)
    (h : Touches m s0 s) : Touches m s0 (State.launchHead s p aux k) := by
  refine Touches.step (k := 0x2000004) (t := s) ?_ hk h
  clear hk h
  unfold State.launchHead
  have h0 := Touches.refl 0x2000004 s
  repeat' first
    | with_reducible assumption
    | (extract_lets +onlyGivenNames s'; with_reducible refine Touches.cut (t := s') ?_ ?_; subst s'; rotate_left; clear_value s'; intro hs; rotate_left)
    | (extract_lets +onlyGivenNames s'; first | (have _e : State → _ := s'; clear _e; subst s') | clear_value s')
    | with_reducible refine State.modPipe_touches (by decide) ?_
    | with_reducible refine State.putPacket_touches (by decide) ?_
    | with_reducible refine State.leaveFifo_touches (by decide) ?_
    | split


theorem State.launchIngress_touches {m : Nat} {s0 : State} {s : State} {p : Nat} (hk : 0x3FFFFFFFFFFFFFFFFFFFFFFFFFFFFFFFFFFFFFFFFFFFFFFFFFFFFFFFFFFFFFFFFFFFFFFFFFFFFFFFFFFFFFFFFFC60D6 ||| m = m)
    (h : Touches m s0 s) : Touches m s0 (State.launchIngress s p) := by
  refine Touches.step (k := 0x3FFFFFFFFFFFFFFFFFFFFFFFFFFFFFFFFFFFFFFFFFFFFFFFFFFFFFFFFFFFFFFFFFFFFFFFFFFFFFFFFFFFFFFFFFC60D6) (t := s) ?_ hk h
  clear hk h
  unfold State.launchIngress
  have h0 := Touches.refl 0x3FFFFFFFFFFFFFFFFFFFFFFFFFFFFFFFFFFFFFFFFFFFFFFFFFFFFFFFFFFFFFFFFFFFFFFFFFFFFFFFFFFFFFFFFFC60D6 s
  repeat' first
    | with_reducible assumption
    | (extract_lets +onlyGivenNames s'; with_reducible refine Touches.cut (t := s') ?_ ?_; subst s'; rotate_left; clear_value s'; intro hs; rotate_left)
    | (extract_lets +onlyGivenNames s'; first | (have _e : State → _ := s'; clear _e; subst s') | clear_value s')
    | with_reducible refine Touches.foldl (fun _ _ _ => ?_) ?_
    | with_reducible refine State.modPipe_touches (by decide) ?_
    | with_reducible refine State.epochSwitch_touches (by decide) ?_
    | with_reducible refine State.auxTake_touches_eq (by assumption) (by decide) ?_
    | with_reducible refine State.auxTake_touches (by decide) ?_
    | with_reducible refine State.launchHead_touches (by decide) ?_
    | with_reducible refine Touches.addSat (by first | decide | assumption | (split <;> decide)) ?_
    | split


theorem State.launchFlight_touches {m : Nat} {s0 : State} {s : State} {k : Nat} (hk : 0x4 ||| m = m)
    (h : Touches m s0 s) : Touches m s0 (State.launchFlight s k) := by
  refine Touches.step (k := 0x4) (t := s) ?_ hk h
  clear hk h
  unfold State.launchFlight
  have h0 := Touches.refl 0x4 s
  repeat' first
    | with_reducible assumption
    | (extract_lets +onlyGivenNames s'; with_reducible refine Touches.cut (t := s') ?_ ?_; subst s'; rotate_left; clear_value s'; intro hs; rotate_left)
    | (extract_lets +onlyGivenNames s'; first | (have _e : State → _ := s'; clear _e; subst s') | clear_value s')
    | with_reducible refine State.putFlight_touches (by decide) ?_
    | split


theorem State.launchEgress_touches {m : Nat} {s0 : State} {s : State} {p : Nat} (hk : 0x4000000000000000000000004 ||| m = m)
    (h : Touches m s0 s) : Touches m s0 (State.launchEgress s p) := by
  refine Touches.step (k := 0x4000000000000000000000004) (t := s) ?_ hk h
  clear hk h
  unfold State.launchEgress
  have h0 := Touches.refl 0x4000000000000000000000004 s
  repeat' first
    | with_reducible assumption
    | (extract_lets +onlyGivenNames s'; with_reducible refine Touches.cut (t := s') ?_ ?_; subst s'; rotate_left; clear_value s'; intro hs; rotate_left)
    | (extract_lets +onlyGivenNames s'; first | (have _e : State → _ := s'; clear _e; subst s') | clear_value s')
    | with_reducible refine Touches.foldl (fun _ _ _ => ?_) ?_
    | with_reducible refine State.modPipe_touches (by decide) ?_
    | with_reducible refine State.launchFlight_touches (by decide) ?_
    | with_reducible refine Touches.addSat (by first | decide | assumption | (split <;> decide)) ?_
    | split


theorem State.countLaunch_touches {m : Nat} {s0 : State} {s : State} {p : Nat} (hk : 0x4 ||| m = m)
    (h : Touches m s0 s) : Touches m s0 (State.countLaunch s p) := by
  refine Touches.step (k := 0x4) (t := s) ?_ hk h
  clear hk h
  unfold State.countLaunch
  have h0 := Touches.refl 0x4 s
  repeat' first
    | with_reducible assumption
    | (extract_lets +onlyGivenNames s'; with_reducible refine Touches.cut (t := s') ?_ ?_; subst s'; rotate_left; clear_value s'; intro hs; rotate_left)
    | (extract_lets +onlyGivenNames s'; first | (have _e : State → _ := s'; clear _e; subst s') | clear_value s')
    | with_reducible refine State.modPipe_touches (by decide) ?_
    | split


theorem execWavefrontLaunch_touches {m : Nat} {s0 : State} {pipe : AnyPipe} {s : State} (hk : 0x3FFFFFFFFFFFFFFFFFFFFFFFFFFFFFFFFFFFFFFFFFFFFFFFFFFFFFFFFFFFFFFFFFFFFFFFFFFFFFFFFFFFFFFFFFC70D6 ||| m = m)
    (h : Touches m s0 s) : Ends m s0 (execWavefrontLaunch pipe s) := by
  refine Ends.step (k := 0x3FFFFFFFFFFFFFFFFFFFFFFFFFFFFFFFFFFFFFFFFFFFFFFFFFFFFFFFFFFFFFFFFFFFFFFFFFFFFFFFFFFFFFFFFFC70D6) (t := s) ?_ hk h
  clear hk h
  unfold execWavefrontLaunch
  have h0 := Touches.refl 0x3FFFFFFFFFFFFFFFFFFFFFFFFFFFFFFFFFFFFFFFFFFFFFFFFFFFFFFFFFFFFFFFFFFFFFFFFFFFFFFFFFFFFFFFFFC70D6 s
  repeat' first
    | with_reducible assumption
    | (extract_lets +onlyGivenNames s'; with_reducible refine Touches.cut (t := s') ?_ ?_; subst s'; rotate_left; clear_value s'; intro hs; rotate_left)
    | (extract_lets +onlyGivenNames s'; with_reducible refine Ends.cut (t := s') ?_ ?_; subst s'; rotate_left; clear_value s'; intro hs; rotate_left)
    | with_reducible refine Ends.next ?_
    | (extract_lets +onlyGivenNames s'; first | (have _e : State → _ := s'; clear _e; subst s') | (have _e : PaceBlock := s'; clear _e; subst s') | clear_value s')
    | with_reducible refine State.spend_touches (by decide) ?_
    | with_reducible refine State.takePairs_touches (by decide) ?_
    | with_reducible refine State.launchIngress_touches (by decide) ?_
    | with_reducible refine State.launchEgress_touches (by decide) ?_
    | with_reducible refine State.countLaunch_touches (by decide) ?_
    | split
    | with_reducible refine Touches.upd_pace (by decide) ?_


theorem execParserPass_touches {m : Nat} {s0 : State} {pipe : AnyPipe} {s : State} (hk : 0x2000000000000000000000004 ||| m = m)
    (h : Touches m s0 s) : Ends m s0 (execParserPass pipe s) := by
  refine Ends.step (k := 0x2000000000000000000000004) (t := s) ?_ hk h
  clear hk h
  unfold execParserPass
  have h0 := Touches.refl 0x2000000000000000000000004 s
  repeat' first
    | with_reducible assumption
    | (extract_lets +onlyGivenNames s'; with_reducible refine Touches.cut (t := s') ?_ ?_; subst s'; rotate_left; clear_value s'; intro hs; rotate_left)
    | (extract_lets +onlyGivenNames s'; with_reducible refine Ends.cut (t := s') ?_ ?_; subst s'; rotate_left; clear_value s'; intro hs; rotate_left)
    | with_reducible refine Ends.next ?_
    | (extract_lets +onlyGivenNames s'; first | (have _e : State → _ := s'; clear _e; subst s') | clear_value s')
    | with_reducible refine State.advance_touches (by decide) ?_
    | with_reducible refine State.eachHead_touches (by decide) (fun _ _ _ => ?_) ?_
    | with_reducible refine Touches.addSat (by first | decide | assumption | (split <;> decide)) ?_
    | split


theorem execStageExecute_touches {m : Nat} {s0 : State} {pipe : AnyPipe} {stage : Fin 32} {s : State} (hk : 0x10200000800000001000000000000001102000000000000000000E06D030000000A0C00000000000000020631C4 ||| m = m)
    (h : Touches m s0 s) : Ends m s0 (execStageExecute pipe stage s) := by
  refine Ends.step (k := 0x10200000800000001000000000000001102000000000000000000E06D030000000A0C00000000000000020631C4) (t := s) ?_ hk h
  clear hk h
  unfold execStageExecute
  have h0 := Touches.refl 0x10200000800000001000000000000001102000000000000000000E06D030000000A0C00000000000000020631C4 s
  repeat' first
    | with_reducible assumption
    | (extract_lets +onlyGivenNames s'; with_reducible refine Touches.cut (t := s') ?_ ?_; subst s'; rotate_left; clear_value s'; intro hs; rotate_left)
    | (extract_lets +onlyGivenNames s'; with_reducible refine Ends.cut (t := s') ?_ ?_; subst s'; rotate_left; clear_value s'; intro hs; rotate_left)
    | with_reducible refine Ends.next ?_
    | (extract_lets +onlyGivenNames s'; first | (have _e : State → _ := s'; clear _e; subst s') | clear_value s')
    | with_reducible refine State.actAll_touches_eq (by assumption) (by decide) ?_
    | with_reducible refine State.actAll_touches (by decide) ?_
    | with_reducible refine State.advance_touches (by decide) ?_
    | with_reducible refine State.eachHead_touches (by decide) (fun _ _ _ => ?_) ?_
    | split


theorem State.auxPut_touches {m : Nat} {s0 : State} {s : State} {p k : Nat} {v : Packet} (hk : 0x2000004 ||| m = m)
    (h : Touches m s0 s) : Touches m s0 (State.auxPut s p k v) := by
  refine Touches.step (k := 0x2000004) (t := s) ?_ hk h
  clear hk h
  unfold State.auxPut
  have h0 := Touches.refl 0x2000004 s
  repeat' first
    | with_reducible assumption
    | (extract_lets +onlyGivenNames s'; with_reducible refine Touches.cut (t := s') ?_ ?_; subst s'; rotate_left; clear_value s'; intro hs; rotate_left)
    | (extract_lets +onlyGivenNames s'; first | (have _e : State → _ := s'; clear _e; subst s') | clear_value s')
    | with_reducible refine State.modPipe_touches (by decide) ?_
    | with_reducible refine State.putPacket_touches (by decide) ?_
    | with_reducible refine State.leaveFifo_touches (by decide) ?_
    | split


theorem State.countExc_touches {m : Nat} {s0 : State} {s : State} {p reason : Nat} (hk : 0x100000000000000000000000000000000000000000000000002080000000000000000040080 ||| m = m)
    (h : Touches m s0 s) : Touches m s0 (State.countExc s p reason) := by
  refine Touches.step (k := 0x100000000000000000000000000000000000000000000000002080000000000000000040080) (t := s) ?_ hk h
  clear hk h
  unfold State.countExc
  have h0 := Touches.refl 0x100000000000000000000000000000000000000000000000002080000000000000000040080 s
  repeat' first
    | with_reducible assumption
    | (extract_lets +onlyGivenNames s'; with_reducible refine Touches.cut (t := s') ?_ ?_; subst s'; rotate_left; clear_value s'; intro hs; rotate_left)
    | (extract_lets +onlyGivenNames s'; first | (have _e : State → _ := s'; clear _e; subst s') | clear_value s')
    | with_reducible refine Touches.addSat (by first | decide | assumption | (split <;> decide)) ?_
    | with_reducible refine Touches.raise (by first | decide | assumption | (split <;> decide)) (by decide) ?_
    | split


theorem State.checkMirrors_touches {m : Nat} {s0 : State} {s : State} {v : Packet} (hk : 0x100000000000000000000000000000000000000000000000000080000000000000000040080 ||| m = m)
    (h : Touches m s0 s) : Touches m s0 (State.checkMirrors s v).1 := by
  refine Touches.step (k := 0x100000000000000000000000000000000000000000000000000080000000000000000040080) (t := s) ?_ hk h
  clear hk h
  unfold State.checkMirrors
  have h0 := Touches.refl 0x100000000000000000000000000000000000000000000000000080000000000000000040080 s
  repeat' first
    | with_reducible assumption
    | (extract_lets +onlyGivenNames s'; with_reducible refine Touches.cut (t := s') ?_ ?_; subst s'; rotate_left; clear_value s'; intro hs; rotate_left)
    | (extract_lets +onlyGivenNames s'; first | (have _e : State → _ := s'; clear _e; subst s') | clear_value s')
    | with_reducible refine Touches.raise (by first | decide | assumption | (split <;> decide)) (by decide) ?_
    | split

theorem State.checkMirrors_touches_eq {m : Nat} {s0 t₁ : State} {s : State} {v : Packet} {a₁ : Packet} (e₁ : State.checkMirrors s v = (t₁, a₁))
    (hk : 0x100000000000000000000000000000000000000000000000000080000000000000000040080 ||| m = m) (h : Touches m s0 s) : Touches m s0 t₁ := Touches.fst e₁ (State.checkMirrors_touches hk h)


theorem State.pipeDrop_touches {m : Nat} {s0 : State} {s : State} {p k : Nat} {v : Packet} {reason : Nat} (hk : 0x10200000800000001000000000000001912078000000000000000002D0000000002080000000000000002062184 ||| m = m)
    (h : Touches m s0 s) : Touches m s0 (State.pipeDrop s p k v reason) := by
  refine Touches.step (k := 0x10200000800000001000000000000001912078000000000000000002D0000000002080000000000000002062184) (t := s) ?_ hk h
  clear hk h
  unfold State.pipeDrop
  have h0 := Touches.refl 0x10200000800000001000000000000001912078000000000000000002D0000000002080000000000000002062184 s
  repeat' first
    | with_reducible assumption
    | (extract_lets +onlyGivenNames s'; with_reducible refine Touches.cut (t := s') ?_ ?_; subst s'; rotate_left; clear_value s'; intro hs; rotate_left)
    | (extract_lets +onlyGivenNames s'; first | (have _e : State → _ := s'; clear _e; subst s') | clear_value s')
    | with_reducible refine State.modPipe_touches (by decide) ?_
    | with_reducible refine State.putPacket_touches (by decide) ?_
    | with_reducible refine State.modPacket_touches (by decide) ?_
    | with_reducible refine State.dropPacket_touches (by decide) ?_
    | with_reducible refine State.freeInjected_touches (by decide) ?_
    | with_reducible refine State.discard_touches (by decide) ?_
    | with_reducible refine State.flowUpdate_touches (by decide) ?_
    | with_reducible refine State.countExc_touches (by decide) ?_
    | split


theorem State.ingressEnd_touches {m : Nat} {s0 : State} {s : State} {p k : Nat} (hk : 0x10200000800000001000000000000001912078000000000000000002D0000000002080000000000000002063184 ||| m = m)
    (h : Touches m s0 s) : Touches m s0 (State.ingressEnd s p k) := by
  refine Touches.step (k := 0x10200000800000001000000000000001912078000000000000000002D0000000002080000000000000002063184) (t := s) ?_ hk h
  clear hk h
  unfold State.ingressEnd
  have h0 := Touches.refl 0x10200000800000001000000000000001912078000000000000000002D0000000002080000000000000002063184 s
  repeat' first
    | with_reducible assumption
    | (extract_lets +onlyGivenNames s'; with_reducible refine Touches.cut (t := s') ?_ ?_; subst s'; rotate_left; clear_value s'; intro hs; rotate_left)
    | (extract_lets +onlyGivenNames s'; first | (have _e : State → _ := s'; clear _e; subst s') | clear_value s')
    | with_reducible refine State.modPipe_touches (by decide) ?_
    | with_reducible refine State.putPacket_touches (by decide) ?_
    | with_reducible refine State.spend_touches (by decide) ?_
    | with_reducible refine State.flowUpdate_touches (by decide) ?_
    | with_reducible refine State.auxPut_touches (by decide) ?_
    | with_reducible refine State.checkMirrors_touches_eq (by assumption) (by decide) ?_
    | with_reducible refine State.checkMirrors_touches (by decide) ?_
    | with_reducible refine State.pipeDrop_touches (by decide) ?_
    | split


theorem execIngressPipeEnd_touches {m : Nat} {s0 : State} {pipe : PipeNo} {s : State} (hk : 0x10200000800000001000000000000001912078000000000000000002D0000000002080000000000000002063184 ||| m = m)
    (h : Touches m s0 s) : Ends m s0 (execIngressPipeEnd pipe s) := by
  refine Ends.step (k := 0x10200000800000001000000000000001912078000000000000000002D0000000002080000000000000002063184) (t := s) ?_ hk h
  clear hk h
  unfold execIngressPipeEnd
  have h0 := Touches.refl 0x10200000800000001000000000000001912078000000000000000002D0000000002080000000000000002063184 s
  repeat' first
    | with_reducible assumption
    | (extract_lets +onlyGivenNames s'; with_reducible refine Touches.cut (t := s') ?_ ?_; subst s'; rotate_left; clear_value s'; intro hs; rotate_left)
    | (extract_lets +onlyGivenNames s'; with_reducible refine Ends.cut (t := s') ?_ ?_; subst s'; rotate_left; clear_value s'; intro hs; rotate_left)
    | with_reducible refine Ends.next ?_
    | (extract_lets +onlyGivenNames s'; first | (have _e : State → _ := s'; clear _e; subst s') | clear_value s')
    | with_reducible refine Touches.foldl (fun _ _ _ => ?_) ?_
    | with_reducible refine State.modPipe_touches (by decide) ?_
    | with_reducible refine State.ingressEnd_touches (by decide) ?_
    | split


theorem State.egressDrop_touches {m : Nat} {s0 : State} {s : State} {k reason : Nat} (hk : 0x10200000800000001000000000000001102000000000000000000E06D0000000000000000000000000002062184 ||| m = m)
    (h : Touches m s0 s) : Touches m s0 (State.egressDrop s k reason) := by
  refine Touches.step (k := 0x10200000800000001000000000000001102000000000000000000E06D0000000000000000000000000002062184) (t := s) ?_ hk h
  clear hk h
  unfold State.egressDrop
  have h0 := Touches.refl 0x10200000800000001000000000000001102000000000000000000E06D0000000000000000000000000002062184 s
  repeat' first
    | with_reducible assumption
    | (extract_lets +onlyGivenNames s'; with_reducible refine Touches.cut (t := s') ?_ ?_; subst s'; rotate_left; clear_value s'; intro hs; rotate_left)
    | (extract_lets +onlyGivenNames s'; first | (have _e : State → _ := s'; clear _e; subst s') | clear_value s')
    | with_reducible refine State.countCopyDrop_touches (by decide) ?_
    | with_reducible refine State.endFlight_touches (by decide) ?_
    | split


theorem State.recirculate_touches {m : Nat} {s0 : State} {s : State} {p k : Nat} {v : Packet} (hk : 0x10200000800000001000000000000001102000000000000000000E06D000000000A080000000000000002062184 ||| m = m)
    (h : Touches m s0 s) : Touches m s0 (State.recirculate s p k v) := by
  refine Touches.step (k := 0x10200000800000001000000000000001102000000000000000000E06D000000000A080000000000000002062184) (t := s) ?_ hk h
  clear hk h
  unfold State.recirculate
  have h0 := Touches.refl 0x10200000800000001000000000000001102000000000000000000E06D000000000A080000000000000002062184 s
  repeat' first
    | with_reducible assumption
    | (extract_lets +onlyGivenNames s'; with_reducible refine Touches.cut (t := s') ?_ ?_; subst s'; rotate_left; clear_value s'; intro hs; rotate_left)
    | (extract_lets +onlyGivenNames s'; first | (have _e : State → _ := s'; clear _e; subst s') | (have _e : Switch := s'; clear _e; subst s') | clear_value s')
    | with_reducible refine State.endFlight_touches (by decide) ?_
    | with_reducible refine State.auxPut_touches (by decide) ?_
    | with_reducible refine State.countExc_touches (by decide) ?_
    | with_reducible refine State.egressDrop_touches (by decide) ?_
    | with_reducible refine State.carry_touches (by decide) ?_
    | with_reducible refine Touches.addSat (by first | decide | assumption | (split <;> decide)) ?_
    | split
    | with_reducible refine Touches.upd_sw (by decide) rfl ?_


theorem State.egressEnd_touches {m : Nat} {s0 : State} {s : State} {p k : Nat} (hk : 0x10200000800000001000000000000001102000000000000000000E06D000000000A080000000000000002063184 ||| m = m)
    (h : Touches m s0 s) : Touches m s0 (State.egressEnd s p k) := by
  refine Touches.step (k := 0x10200000800000001000000000000001102000000000000000000E06D000000000A080000000000000002063184) (t := s) ?_ hk h
  clear hk h
  unfold State.egressEnd
  have h0 := Touches.refl 0x10200000800000001000000000000001102000000000000000000E06D000000000A080000000000000002063184 s
  repeat' first
    | with_reducible assumption
    | (extract_lets +onlyGivenNames s'; with_reducible refine Touches.cut (t := s') ?_ ?_; subst s'; rotate_left; clear_value s'; intro hs; rotate_left)
    | (extract_lets +onlyGivenNames s'; first | (have _e : State → _ := s'; clear _e; subst s') | clear_value s')
    | with_reducible refine State.modPort_touches (by decide) ?_
    | with_reducible refine State.modFlight_touches (by decide) ?_
    | with_reducible refine State.spend_touches (by decide) ?_
    | with_reducible refine State.putHead_touches (by decide) ?_
    | with_reducible refine State.egressDrop_touches (by decide) ?_
    | with_reducible refine State.recirculate_touches (by decide) ?_
    | with_reducible refine Touches.addSat (by first | decide | assumption | (split <;> decide)) ?_
    | with_reducible refine Touches.raise (by first | decide | assumption | (split <;> decide)) (by decide) ?_
    | split


theorem State.recirculateEnded_touches {m : Nat} {s0 : State} {s : State} {packet : Nat} (hk : 0x10200000800000001000000000000001102000000000000000000E06D000000000A080000000000000002062184 ||| m = m)
    (h : Touches m s0 s) : Touches m s0 (State.recirculateEnded s packet) := by
  refine Touches.step (k := 0x10200000800000001000000000000001102000000000000000000E06D000000000A080000000000000002062184) (t := s) ?_ hk h
  clear hk h
  unfold State.recirculateEnded
  have h0 := Touches.refl 0x10200000800000001000000000000001102000000000000000000E06D000000000A080000000000000002062184 s
  repeat' first
    | with_reducible assumption
    | (extract_lets +onlyGivenNames s'; with_reducible refine Touches.cut (t := s') ?_ ?_; subst s'; rotate_left; clear_value s'; intro hs; rotate_left)
    | (extract_lets +onlyGivenNames s'; first | (have _e : State → _ := s'; clear _e; subst s') | clear_value s')
    | with_reducible refine Touches.foldl (fun _ _ _ => ?_) ?_
    | with_reducible refine State.recirculate_touches (by decide) ?_
    | split


theorem execEgressPipeEnd_touches {m : Nat} {s0 : State} {pipe : PipeNo} {s : State} (hk : 0x10200000800000001000000000000001102000000000000000000E06D000000000A080000000000000002063184 ||| m = m)
    (h : Touches m s0 s) : Ends m s0 (execEgressPipeEnd pipe s) := by
  refine Ends.step (k := 0x10200000800000001000000000000001102000000000000000000E06D000000000A080000000000000002063184) (t := s) ?_ hk h
  clear hk h
  unfold execEgressPipeEnd
  have h0 := Touches.refl 0x10200000800000001000000000000001102000000000000000000E06D000000000A080000000000000002063184 s
  repeat' first
    | with_reducible assumption
    | (extract_lets +onlyGivenNames s'; with_reducible refine Touches.cut (t := s') ?_ ?_; subst s'; rotate_left; clear_value s'; intro hs; rotate_left)
    | (extract_lets +onlyGivenNames s'; with_reducible refine Ends.cut (t := s') ?_ ?_; subst s'; rotate_left; clear_value s'; intro hs; rotate_left)
    | with_reducible refine Ends.next ?_
    | (extract_lets +onlyGivenNames s'; first | (have _e : State → _ := s'; clear _e; subst s') | clear_value s')
    | with_reducible refine Touches.foldl (fun _ _ _ => ?_) ?_
    | with_reducible refine State.modPipe_touches (by decide) ?_
    | with_reducible refine State.egressEnd_touches (by decide) ?_
    | split


theorem depthField_reg (x : Nat) : (depthField x).reg = .PIPE_DEPTH_MAP := rfl

theorem execDepthMapBroadcast_touches {m : Nat} {s0 : State} {missed : BitVec 4} {s : State} (hk : 0x440000000000000000000004 ||| m = m)
    (h : Touches m s0 s) : Ends m s0 (execDepthMapBroadcast missed s) := by
  refine Ends.step (k := 0x440000000000000000000004) (t := s) ?_ hk h
  clear hk h
  unfold execDepthMapBroadcast
  have h0 := Touches.refl 0x440000000000000000000004 s
  repeat' first
    | with_reducible assumption
    | (extract_lets +onlyGivenNames s'; with_reducible refine Touches.cut (t := s') ?_ ?_; subst s'; rotate_left; clear_value s'; intro hs; rotate_left)
    | (extract_lets +onlyGivenNames s'; with_reducible refine Ends.cut (t := s') ?_ ?_; subst s'; rotate_left; clear_value s'; intro hs; rotate_left)
    | with_reducible refine Ends.next ?_
    | (extract_lets +onlyGivenNames s'; first | (have _e : State → _ := s'; clear _e; subst s') | (have _e : Switch := s'; clear _e; subst s') | clear_value s')
    | with_reducible refine Touches.foldl (fun _ _ _ => ?_) ?_
    | with_reducible refine State.modPipe_touches (by decide) ?_
    | with_reducible refine Touches.set (by first | decide | (rw [depthField_reg]; decide)) ?_
    | with_reducible refine Touches.addSat (by first | decide | (rw [depthField_reg]; decide)) ?_
    | split
    | with_reducible refine Touches.upd_sw (by decide) rfl ?_


theorem execDepthMapStale_touches {m : Nat} {s0 : State} {pipe : PipeNo} {s : State} (hk : 0x1000000000000000000000000000000000000000000000000000C0000000000000000040084 ||| m = m)
    (h : Touches m s0 s) : Ends m s0 (execDepthMapStale pipe s) := by
  refine Ends.step (k := 0x1000000000000000000000000000000000000000000000000000C0000000000000000040084) (t := s) ?_ hk h
  clear hk h
  unfold execDepthMapStale
  have h0 := Touches.refl 0x1000000000000000000000000000000000000000000000000000C0000000000000000040084 s
  repeat' first
    | with_reducible assumption
    | (extract_lets +onlyGivenNames s'; with_reducible refine Touches.cut (t := s') ?_ ?_; subst s'; rotate_left; clear_value s'; intro hs; rotate_left)
    | (extract_lets +onlyGivenNames s'; with_reducible refine Ends.cut (t := s') ?_ ?_; subst s'; rotate_left; clear_value s'; intro hs; rotate_left)
    | with_reducible refine Ends.next ?_
    | (extract_lets +onlyGivenNames s'; first | (have _e : State → _ := s'; clear _e; subst s') | clear_value s')
    | with_reducible refine State.modPipe_touches (by decide) ?_
    | with_reducible refine Touches.set (by first | decide | assumption | (split <;> decide)) ?_
    | with_reducible refine Touches.raise (by first | decide | assumption | (split <;> decide)) (by decide) ?_
    | split


theorem execFlowletFlush_touches {m : Nat} {s0 : State} {value : Word} {s : State} (hk : 0x6 ||| m = m)
    (h : Touches m s0 s) : Ends m s0 (execFlowletFlush value s) := by
  refine Ends.step (k := 0x6) (t := s) ?_ hk h
  clear hk h
  unfold execFlowletFlush
  have h0 := Touches.refl 0x6 s
  repeat' first
    | with_reducible assumption
    | (extract_lets +onlyGivenNames s'; with_reducible refine Touches.cut (t := s') ?_ ?_; subst s'; rotate_left; clear_value s'; intro hs; rotate_left)
    | (extract_lets +onlyGivenNames s'; with_reducible refine Ends.cut (t := s') ?_ ?_; subst s'; rotate_left; clear_value s'; intro hs; rotate_left)
    | with_reducible refine Ends.next ?_
    | (extract_lets +onlyGivenNames s'; first | (have _e : State → _ := s'; clear _e; subst s') | clear_value s')
    | with_reducible refine Touches.foldl (fun _ _ _ => ?_) ?_
    | with_reducible refine State.modPipe_touches (by decide) ?_
    | with_reducible refine Touches.setStaged (by decide) ?_
    | split


end Sys2Proof.Machine
end

