-- ==== Sys2Proof/Laws/TouchesHub.lean ====
section
/-!
SUPPORT. What the operations of Hub.lean can touch.
-/

namespace Sys2Proof.Machine

set_option linter.all false

theorem State.walkMembers_touches {m : Nat} {s0 : State} {s : State} {v : Packet} {g : Nat} {z0 : List Nat} {z1 : List Copy} (hk : 0x1800000000000000000000000000000000000000000000 ||| m = m)
    (h : Touches m s0 s) : Touches m s0 (State.walkMembers s v g z0 z1).1 := by
  refine Touches.step (k := 0x1800000000000000000000000000000000000000000000) (t := s) ?_ hk h
  clear hk h
  have h0 := Touches.refl 0x1800000000000000000000000000000000000000000000 s
  suffices key : ∀ a, Touches 0x1800000000000000000000000000000000000000000000 a s → Touches 0x1800000000000000000000000000000000000000000000 a (State.walkMembers s v g z0 z1).1 from key _ h0
  clear h0
  intro a h0
  induction z0 generalizing s z1 with
  | nil => unfold State.walkMembers; exact h0
  | cons x xs ih =>
    unfold State.walkMembers
    repeat' first
      | with_reducible assumption
      | with_reducible refine ih ?_
      | (extract_lets +onlyGivenNames s'; with_reducible refine Touches.cut (t := s') ?_ ?_; subst s'; rotate_left; clear_value s'; intro hs; rotate_left)
      | (extract_lets +onlyGivenNames s'; first | (have _e : State → _ := s'; clear _e; subst s') | clear_value s')
      | with_reducible refine Touches.addSat (by first | decide | assumption | (split <;> decide)) ?_
      | split

theorem State.walkMembers_touches_eq {m : Nat} {s0 t₁ : State} {s : State} {v : Packet} {g : Nat} {z0 : List Nat} {z1 : List Copy} {a₁ : List Copy} (e₁ : State.walkMembers s v g z0 z1 = (t₁, a₁))
    (hk : 0x1800000000000000000000000000000000000000000000 ||| m = m) (h : Touches m s0 s) : Touches m s0 t₁ := Touches.fst e₁ (State.walkMembers_touches hk h)


theorem State.groupCopies_touches {m : Nat} {s0 : State} {s : State} {v : Packet} (hk : 0x1800000000000000000000000000000000000000000000 ||| m = m)
    (h : Touches m s0 s) : Touches m s0 (State.groupCopies s v).1 := by
  refine Touches.step (k := 0x1800000000000000000000000000000000000000000000) (t := s) ?_ hk h
  clear hk h
  unfold State.groupCopies
  have h0 := Touches.refl 0x1800000000000000000000000000000000000000000000 s
  repeat' first
    | with_reducible assumption
    | (extract_lets +onlyGivenNames s'; with_reducible refine Touches.cut (t := s') ?_ ?_; subst s'; rotate_left; clear_value s'; intro hs; rotate_left)
    | (extract_lets +onlyGivenNames s'; first | (have _e : State → _ := s'; clear _e; subst s') | clear_value s')
    | with_reducible refine State.walkMembers_touches_eq (by assumption) (by decide) ?_
    | with_reducible refine State.walkMembers_touches (by decide) ?_
    | split

theorem State.groupCopies_touches_eq {m : Nat} {s0 t₁ : State} {s : State} {v : Packet} {a₁ : List Copy} (e₁ : State.groupCopies s v = (t₁, a₁))
    (hk : 0x1800000000000000000000000000000000000000000000 ||| m = m) (h : Touches m s0 s) : Touches m s0 t₁ := Touches.fst e₁ (State.groupCopies_touches hk h)


theorem State.mirrorCopies_touches {m : Nat} {s0 : State} {s : State} {v : Packet} {egress : Bool} (hk : 0x4 ||| m = m)
    (h : Touches m s0 s) : Touches m s0 (State.mirrorCopies s v egress).1 := by
  refine Touches.step (k := 0x4) (t := s) ?_ hk h
  clear hk h
  unfold State.mirrorCopies
  have h0 := Touches.refl 0x4 s
  repeat' first
    | with_reducible assumption
    | with_reducible refine Touches.foldl_fst (fun _ _ _ => ?_) ?_
    | (extract_lets +onlyGivenNames s'; with_reducible refine Touches.cut (t := s') ?_ ?_; subst s'; rotate_left; clear_value s'; intro hs; rotate_left)
    | (extract_lets +onlyGivenNames s'; first | (have _e : State → _ := s'; clear _e; subst s') | clear_value s')
    | with_reducible refine Touches.foldl (fun _ _ _ => ?_) ?_
    | with_reducible refine State.modPipe_touches (by decide) ?_
    | split

theorem State.mirrorCopies_touches_eq {m : Nat} {s0 t₁ : State} {s : State} {v : Packet} {egress : Bool} {a₁ : List Copy} (e₁ : State.mirrorCopies s v egress = (t₁, a₁))
    (hk : 0x4 ||| m = m) (h : Touches m s0 s) : Touches m s0 t₁ := Touches.fst e₁ (State.mirrorCopies_touches hk h)


theorem State.ownCopies_touches {m : Nat} {s0 : State} {s : State} {v : Packet} (hk : 0x1800000000000000000000000000000000000000000400 ||| m = m)
    (h : Touches m s0 s) : Touches m s0 (State.ownCopies s v).1 := by
  refine Touches.step (k := 0x1800000000000000000000000000000000000000000400) (t := s) ?_ hk h
  clear hk h
  unfold State.ownCopies
  have h0 := Touches.refl 0x1800000000000000000000000000000000000000000400 s
  repeat' first
    | with_reducible assumption
    | (extract_lets +onlyGivenNames s'; with_reducible refine Touches.cut (t := s') ?_ ?_; subst s'; rotate_left; clear_value s'; intro hs; rotate_left)
    | (extract_lets +onlyGivenNames s'; first | (have _e : State → _ := s'; clear _e; subst s') | clear_value s')
    | with_reducible refine State.groupCopies_touches_eq (by assumption) (by decide) ?_
    | with_reducible refine State.groupCopies_touches (by decide) ?_
    | split

theorem State.ownCopies_touches_eq {m : Nat} {s0 t₁ : State} {s : State} {v : Packet} {a₁ : List Copy} (e₁ : State.ownCopies s v = (t₁, a₁))
    (hk : 0x1800000000000000000000000000000000000000000400 ||| m = m) (h : Touches m s0 s) : Touches m s0 t₁ := Touches.fst e₁ (State.ownCopies_touches hk h)


theorem State.ecnTest_touches {m : Nat} {s0 : State} {s : State} {v : Packet} {c : Copy} (hk : 0x20000 ||| m = m)
    (h : Touches m s0 s) : Touches m s0 (State.ecnTest s v c).2 := by
  refine Touches.step (k := 0x20000) (t := s) ?_ hk h
  clear hk h
  unfold State.ecnTest
  have h0 := Touches.refl 0x20000 s
  repeat' first
    | with_reducible assumption
    | (extract_lets +onlyGivenNames s'; with_reducible refine Touches.cut (t := s') ?_ ?_; subst s'; rotate_left; clear_value s'; intro hs; rotate_left)
    | (extract_lets +onlyGivenNames s'; first | (have _e : State → _ := s'; clear _e; subst s') | clear_value s')
    | with_reducible refine State.draw_touches_eq (by assumption) (by decide) ?_
    | with_reducible refine State.draw_touches (by decide) ?_
    | split

theorem State.ecnTest_touches_eq {m : Nat} {s0 t₁ : State} {s : State} {v : Packet} {c : Copy} {a₁ : EcnOutcome} (e₁ : State.ecnTest s v c = (a₁, t₁))
    (hk : 0x20000 ||| m = m) (h : Touches m s0 s) : Touches m s0 t₁ := Touches.snd e₁ (State.ecnTest_touches hk h)


theorem State.refuseAtHead_touches {m : Nat} {s0 : State} {s : State} {k : Nat} {v : Packet} {c : Copy} {reason : Nat} (hk : 0x80000000100000000000000110200000000000000000000080000000000000000000000000000060184 ||| m = m)
    (h : Touches m s0 s) : Touches m s0 (State.refuseAtHead s k v c reason) := by
  refine Touches.step (k := 0x80000000100000000000000110200000000000000000000080000000000000000000000000000060184) (t := s) ?_ hk h
  clear hk h
  unfold State.refuseAtHead
  have h0 := Touches.refl 0x80000000100000000000000110200000000000000000000080000000000000000000000000000060184 s
  repeat' first
    | with_reducible assumption
    | (extract_lets +onlyGivenNames s'; with_reducible refine Touches.cut (t := s') ?_ ?_; subst s'; rotate_left; clear_value s'; intro hs; rotate_left)
    | (extract_lets +onlyGivenNames s'; first | (have _e : State → _ := s'; clear _e; subst s') | clear_value s')
    | with_reducible refine State.countDropOf_touches (by decide) ?_
    | with_reducible refine State.dropPacket_touches (by decide) ?_
    | with_reducible refine Touches.set (by first | decide | assumption | (split <;> decide)) ?_
    | split


theorem State.admitAll_touches {m : Nat} {s0 : State} {before : State} {k : Nat} {v : Packet} {z0 : List Copy} {z1 : State} {z2 : List (Copy × Region)} (hk : 0x80000000100000000000000110200000000000000000000080000000000000000000000000000060184 ||| m = m)
    (h : Touches m s0 z1) : Touches m s0 (State.admitAll before k v z0 z1 z2).1 := by
  refine Touches.step (k := 0x80000000100000000000000110200000000000000000000080000000000000000000000000000060184) (t := z1) ?_ hk h
  clear hk h
  have h0 := Touches.refl 0x80000000100000000000000110200000000000000000000080000000000000000000000000000060184 z1
  suffices key : ∀ a, Touches 0x80000000100000000000000110200000000000000000000080000000000000000000000000000060184 a z1 → Touches 0x80000000100000000000000110200000000000000000000080000000000000000000000000000060184 a (State.admitAll before k v z0 z1 z2).1 from key _ h0
  clear h0
  intro a h0
  induction z0 generalizing z1 z2 with
  | nil => unfold State.admitAll; exact h0
  | cons x xs ih =>
    unfold State.admitAll
    repeat' first
      | with_reducible assumption
      | with_reducible refine ih ?_
      | (extract_lets +onlyGivenNames s'; with_reducible refine Touches.cut (t := s') ?_ ?_; subst s'; rotate_left; clear_value s'; intro hs; rotate_left)
      | (extract_lets +onlyGivenNames s'; first | (have _e : State → _ := s'; clear _e; subst s') | clear_value s')
      | with_reducible refine State.sendFate_touches (by decide) ?_
      | with_reducible refine State.ecnTest_touches_eq (by assumption) (by decide) ?_
      | with_reducible refine State.ecnTest_touches (by decide) ?_
      | with_reducible refine State.refuseAtHead_touches (by decide) ?_
      | split

theorem State.admitAll_touches_eq {m : Nat} {s0 t₁ : State} {before : State} {k : Nat} {v : Packet} {z0 : List Copy} {z1 : State} {z2 : List (Copy × Region)} {a₁ : List (Copy × Region)} (e₁ : State.admitAll before k v z0 z1 z2 = (t₁, a₁))
    (hk : 0x80000000100000000000000110200000000000000000000080000000000000000000000000000060184 ||| m = m) (h : Touches m s0 z1) : Touches m s0 t₁ := Touches.fst e₁ (State.admitAll_touches hk h)


theorem State.leaveAsm_touches {m : Nat} {s0 : State} {s : State} {k : Nat} (hk : 0x4 ||| m = m)
    (h : Touches m s0 s) : Touches m s0 (State.leaveAsm s k) := by
  refine Touches.step (k := 0x4) (t := s) ?_ hk h
  clear hk h
  unfold State.leaveAsm
  have h0 := Touches.refl 0x4 s
  repeat' first
    | with_reducible assumption
    | (extract_lets +onlyGivenNames s'; with_reducible refine Touches.cut (t := s') ?_ ?_; subst s'; rotate_left; clear_value s'; intro hs; rotate_left)
    | (extract_lets +onlyGivenNames s'; first | (have _e : State → _ := s'; clear _e; subst s') | (have _e : Switch := s'; clear _e; subst s') | clear_value s')
    | with_reducible refine State.modPipe_touches (by decide) ?_
    | split
    | with_reducible refine Touches.upd_sw (by decide) rfl ?_


theorem State.refuseFrame_touches {m : Nat} {s0 : State} {s : State} {k : Nat} (hk : 0x2D0000000000000000000000000002000104 ||| m = m)
    (h : Touches m s0 s) : Touches m s0 (State.refuseFrame s k) := by
  refine Touches.step (k := 0x2D0000000000000000000000000002000104) (t := s) ?_ hk h
  clear hk h
  unfold State.refuseFrame
  have h0 := Touches.refl 0x2D0000000000000000000000000002000104 s
  repeat' first
    | with_reducible assumption
    | (extract_lets +onlyGivenNames s'; with_reducible refine Touches.cut (t := s') ?_ ?_; subst s'; rotate_left; clear_value s'; intro hs; rotate_left)
    | (extract_lets +onlyGivenNames s'; first | (have _e : State → _ := s'; clear _e; subst s') | clear_value s')
    | with_reducible refine State.modPacket_touches (by decide) ?_
    | with_reducible refine State.freeInjected_touches (by decide) ?_
    | with_reducible refine State.discard_touches (by decide) ?_
    | with_reducible refine State.sendFate_touches (by decide) ?_
    | with_reducible refine State.leaveAsm_touches (by decide) ?_
    | split


theorem State.admitFrame_touches {m : Nat} {s0 : State} {s : State} {k : Nat} {v : Packet} {copies : List (Copy × Region)} {r : Region} (hk : 0x90000000000000000000000000000000004 ||| m = m)
    (h : Touches m s0 s) : Touches m s0 (State.admitFrame s k v copies r) := by
  refine Touches.step (k := 0x90000000000000000000000000000000004) (t := s) ?_ hk h
  clear hk h
  unfold State.admitFrame
  have h0 := Touches.refl 0x90000000000000000000000000000000004 s
  repeat' first
    | with_reducible assumption
    | (extract_lets +onlyGivenNames s'; with_reducible refine Touches.cut (t := s') ?_ ?_; subst s'; rotate_left; clear_value s'; intro hs; rotate_left)
    | (extract_lets +onlyGivenNames s'; first | (have _e : State → _ := s'; clear _e; subst s') | (have _e : Switch := s'; clear _e; subst s') | clear_value s')
    | with_reducible refine Touches.foldl (fun _ _ _ => ?_) ?_
    | with_reducible refine State.putPacket_touches (by decide) ?_
    | with_reducible refine State.putDesc_touches (by decide) ?_
    | with_reducible refine State.chargeCell_touches (by decide) ?_
    | with_reducible refine State.chargeLease_touches (by decide) ?_
    | split
    | with_reducible refine Touches.upd_sw (by decide) rfl ?_


theorem execAdmission_touches {m : Nat} {s0 : State} {pipe : PipeNo} {s : State} (hk : 0x800000001000000000000001102000000000018000000002D0000000000000000000000000002060584 ||| m = m)
    (h : Touches m s0 s) : Ends m s0 (execAdmission pipe s) := by
  refine Ends.step (k := 0x800000001000000000000001102000000000018000000002D0000000000000000000000000002060584) (t := s) ?_ hk h
  clear hk h
  unfold execAdmission
  have h0 := Touches.refl 0x800000001000000000000001102000000000018000000002D0000000000000000000000000002060584 s
  repeat' first
    | with_reducible assumption
    | (extract_lets +onlyGivenNames s'; with_reducible refine Touches.cut (t := s') ?_ ?_; subst s'; rotate_left; clear_value s'; intro hs; rotate_left)
    | (extract_lets +onlyGivenNames s'; with_reducible refine Ends.cut (t := s') ?_ ?_; subst s'; rotate_left; clear_value s'; intro hs; rotate_left)
    | with_reducible refine Ends.next ?_
    | (extract_lets +onlyGivenNames s'; first | (have _e : State → _ := s'; clear _e; subst s') | clear_value s')
    | with_reducible refine State.dropPacket_touches (by decide) ?_
    | with_reducible refine State.sendTransfer_touches (by decide) ?_
    | with_reducible refine State.sendFate_touches (by decide) ?_
    | with_reducible refine State.mirrorCopies_touches_eq (by assumption) (by decide) ?_
    | with_reducible refine State.mirrorCopies_touches (by decide) ?_
    | with_reducible refine State.ownCopies_touches_eq (by assumption) (by decide) ?_
    | with_reducible refine State.ownCopies_touches (by decide) ?_
    | with_reducible refine State.admitAll_touches_eq (by assumption) (by decide) ?_
    | with_reducible refine State.admitAll_touches (by decide) ?_
    | with_reducible refine State.refuseFrame_touches (by decide) ?_
    | with_reducible refine State.admitFrame_touches (by decide) ?_
    | split


theorem State.enqueueInProgress_touches {m : Nat} {s0 : State} {s : State} {k d : Nat} (hk : 0x10200000800000001000000000000001102000000000008000000E3ED0000000020000000000000000002063384 ||| m = m)
    (h : Touches m s0 s) : Touches m s0 (State.enqueueInProgress s k d) := by
  refine Touches.step (k := 0x10200000800000001000000000000001102000000000008000000E3ED0000000020000000000000000002063384) (t := s) ?_ hk h
  clear hk h
  unfold State.enqueueInProgress
  have h0 := Touches.refl 0x10200000800000001000000000000001102000000000008000000E3ED0000000020000000000000000002063384 s
  repeat' first
    | with_reducible assumption
    | (extract_lets +onlyGivenNames s'; with_reducible refine Touches.cut (t := s') ?_ ?_; subst s'; rotate_left; clear_value s'; intro hs; rotate_left)
    | (extract_lets +onlyGivenNames s'; first | (have _e : State → _ := s'; clear _e; subst s') | clear_value s')
    | with_reducible refine Touches.foldl (fun _ _ _ => ?_) ?_
    | with_reducible refine State.tryEnqueue_touches (by decide) ?_
    | split


theorem State.stopCopies_touches {m : Nat} {s0 : State} {s : State} {d : Nat} (hk : 0x10200000800000001000000000000000000000000000000000000E26D0000000000000000000000000002042084 ||| m = m)
    (h : Touches m s0 s) : Touches m s0 (State.stopCopies s d) := by
  refine Touches.step (k := 0x10200000800000001000000000000000000000000000000000000E26D0000000000000000000000000002042084) (t := s) ?_ hk h
  clear hk h
  unfold State.stopCopies
  have h0 := Touches.refl 0x10200000800000001000000000000000000000000000000000000E26D0000000000000000000000000002042084 s
  repeat' first
    | with_reducible assumption
    | (extract_lets +onlyGivenNames s'; with_reducible refine Touches.cut (t := s') ?_ ?_; subst s'; rotate_left; clear_value s'; intro hs; rotate_left)
    | (extract_lets +onlyGivenNames s'; first | (have _e : State → _ := s'; clear _e; subst s') | clear_value s')
    | with_reducible refine Touches.foldl (fun _ _ _ => ?_) ?_
    | with_reducible refine State.setQueue_touches (by decide) ?_
    | with_reducible refine State.modFlight_touches (by decide) ?_
    | with_reducible refine State.copyDone_touches (by decide) ?_
    | with_reducible refine State.endFlight_touches (by decide) ?_
    | with_reducible refine Touches.addSat (by first | decide | assumption | (split <;> decide)) ?_
    | split


theorem State.badVerdict_touches {m : Nat} {s0 : State} {s : State} {k : Nat} (hk : 0x10200000800000001000000000000000000000000000000000000E26D0000000000000000000000000002042084 ||| m = m)
    (h : Touches m s0 s) : Touches m s0 (State.badVerdict s k) := by
  refine Touches.step (k := 0x10200000800000001000000000000000000000000000000000000E26D0000000000000000000000000002042084) (t := s) ?_ hk h
  clear hk h
  unfold State.badVerdict
  have h0 := Touches.refl 0x10200000800000001000000000000000000000000000000000000E26D0000000000000000000000000002042084 s
  repeat' first
    | with_reducible assumption
    | (extract_lets +onlyGivenNames s'; with_reducible refine Touches.cut (t := s') ?_ ?_; subst s'; rotate_left; clear_value s'; intro hs; rotate_left)
    | (extract_lets +onlyGivenNames s'; first | (have _e : State → _ := s'; clear _e; subst s') | clear_value s')
    | with_reducible refine Touches.foldl (fun _ _ _ => ?_) ?_
    | with_reducible refine State.modPacket_touches (by decide) ?_
    | with_reducible refine State.modDesc_touches (by decide) ?_
    | with_reducible refine State.freeFrame_touches (by decide) ?_
    | with_reducible refine State.copyDone_touches (by decide) ?_
    | with_reducible refine State.leaveFifo_touches (by decide) ?_
    | with_reducible refine State.discard_touches (by decide) ?_
    | with_reducible refine State.leaveAsm_touches (by decide) ?_
    | with_reducible refine State.stopCopies_touches (by decide) ?_
    | split


theorem State.segmentFails_touches {m : Nat} {s0 : State} {s : State} {k : Nat} {quota : Bool} (hk : 0x10200000800000001000000000000001102000000000000000000E2ED0000000000000000000000000002062184 ||| m = m)
    (h : Touches m s0 s) : Touches m s0 (State.segmentFails s k quota) := by
  refine Touches.step (k := 0x10200000800000001000000000000001102000000000000000000E2ED0000000000000000000000000002062184) (t := s) ?_ hk h
  clear hk h
  unfold State.segmentFails
  have h0 := Touches.refl 0x10200000800000001000000000000001102000000000000000000E2ED0000000000000000000000000002062184 s
  repeat' first
    | with_reducible assumption
    | (extract_lets +onlyGivenNames s'; with_reducible refine Touches.cut (t := s') ?_ ?_; subst s'; rotate_left; clear_value s'; intro hs; rotate_left)
    | (extract_lets +onlyGivenNames s'; first | (have _e : State → _ := s'; clear _e; subst s') | clear_value s')
    | with_reducible refine State.modPacket_touches (by decide) ?_
    | with_reducible refine State.dropPacket_touches (by decide) ?_
    | with_reducible refine State.sendFate_touches (by decide) ?_
    | with_reducible refine State.badVerdict_touches (by decide) ?_
    | with_reducible refine Touches.addSat (by first | decide | assumption | (split <;> decide)) ?_
    | with_reducible refine Touches.raise (by first | decide | assumption | (split <;> decide)) (by decide) ?_
    | split


theorem State.writeSegment_touches {m : Nat} {s0 : State} {s : State} {k d a n : Nat} (hk : 0x10200000800000001000000000000001102000000000008000000E3ED000000002000000000000000000206338C ||| m = m)
    (h : Touches m s0 s) : Touches m s0 (State.writeSegment s k d a n) := by
  refine Touches.step (k := 0x10200000800000001000000000000001102000000000008000000E3ED000000002000000000000000000206338C) (t := s) ?_ hk h
  clear hk h
  unfold State.writeSegment
  have h0 := Touches.refl 0x10200000800000001000000000000001102000000000008000000E3ED000000002000000000000000000206338C s
  repeat' first
    | with_reducible assumption
    | (extract_lets +onlyGivenNames s'; with_reducible refine Touches.cut (t := s') ?_ ?_; subst s'; rotate_left; clear_value s'; intro hs; rotate_left)
    | (extract_lets +onlyGivenNames s'; first | (have _e : State → _ := s'; clear _e; subst s') | (have _e : Switch := s'; clear _e; subst s') | clear_value s')
    | with_reducible refine State.putPacket_touches (by decide) ?_
    | with_reducible refine State.modDesc_touches (by decide) ?_
    | with_reducible refine State.spend_touches (by decide) ?_
    | with_reducible refine State.chargeCell_touches (by decide) ?_
    | with_reducible refine State.leaveFifo_touches (by decide) ?_
    | with_reducible refine State.enqueueInProgress_touches (by decide) ?_
    | split
    | with_reducible refine Touches.upd_sw (by decide) rfl ?_
    | with_reducible refine Touches.upd_mem (by decide) (by decide) rfl ?_


theorem execSegmentWrite_touches {m : Nat} {s0 : State} {pipe : PipeNo} {packet arrived : Nat} {rivals : List (Fin 18)} {s : State} (hk : 0x10200000800000001000000000000001102000000000008000000E3ED000000002000000000000000000206338C ||| m = m)
    (h : Touches m s0 s) : Ends m s0 (execSegmentWrite pipe packet arrived rivals s) := by
  refine Ends.step (k := 0x10200000800000001000000000000001102000000000008000000E3ED000000002000000000000000000206338C) (t := s) ?_ hk h
  clear hk h
  unfold execSegmentWrite
  have h0 := Touches.refl 0x10200000800000001000000000000001102000000000008000000E3ED000000002000000000000000000206338C s
  repeat' first
    | with_reducible assumption
    | (extract_lets +onlyGivenNames s'; with_reducible refine Touches.cut (t := s') ?_ ?_; subst s'; rotate_left; clear_value s'; intro hs; rotate_left)
    | (extract_lets +onlyGivenNames s'; with_reducible refine Ends.cut (t := s') ?_ ?_; subst s'; rotate_left; clear_value s'; intro hs; rotate_left)
    | with_reducible refine Ends.next ?_
    | (extract_lets +onlyGivenNames s'; first | (have _e : State → _ := s'; clear _e; subst s') | clear_value s')
    | with_reducible refine State.requestSegment_touches_eq (by assumption) (by decide) ?_
    | with_reducible refine State.requestSegment_touches (by decide) ?_
    | with_reducible refine State.sendTransfer_touches (by decide) ?_
    | with_reducible refine State.arrive_touches (by decide) ?_
    | with_reducible refine State.segmentFails_touches (by decide) ?_
    | with_reducible refine State.writeSegment_touches (by decide) ?_
    | split


theorem State.creditBack_touches {m : Nat} {s0 : State} {s : State} {d len : Nat} (hk : 0x38004000000000000000000000000000000000000004 ||| m = m)
    (h : Touches m s0 s) : Touches m s0 (State.creditBack s d len) := by
  refine Touches.step (k := 0x38004000000000000000000000000000000000000004) (t := s) ?_ hk h
  clear hk h
  unfold State.creditBack
  have h0 := Touches.refl 0x38004000000000000000000000000000000000000004 s
  repeat' first
    | with_reducible assumption
    | (extract_lets +onlyGivenNames s'; with_reducible refine Touches.cut (t := s') ?_ ?_; subst s'; rotate_left; clear_value s'; intro hs; rotate_left)
    | (extract_lets +onlyGivenNames s'; first | (have _e : State → _ := s'; clear _e; subst s') | clear_value s')
    | with_reducible refine Touches.foldl (fun _ _ _ => ?_) ?_
    | with_reducible refine State.modFlight_touches (by decide) ?_
    | with_reducible refine State.putShaper_touches (by decide) ?_
    | split


theorem State.goodVerdict_touches {m : Nat} {s0 : State} {s : State} {k d : Nat} (hk : 0x10200000800000001000000000000001102000000000008000000E3ED0000000020000000000000000002063384 ||| m = m)
    (h : Touches m s0 s) : Touches m s0 (State.goodVerdict s k d) := by
  refine Touches.step (k := 0x10200000800000001000000000000001102000000000008000000E3ED0000000020000000000000000002063384) (t := s) ?_ hk h
  clear hk h
  unfold State.goodVerdict
  have h0 := Touches.refl 0x10200000800000001000000000000001102000000000008000000E3ED0000000020000000000000000002063384 s
  repeat' first
    | with_reducible assumption
    | (extract_lets +onlyGivenNames s'; with_reducible refine Touches.cut (t := s') ?_ ?_; subst s'; rotate_left; clear_value s'; intro hs; rotate_left)
    | (extract_lets +onlyGivenNames s'; first | (have _e : State → _ := s'; clear _e; subst s') | clear_value s')
    | with_reducible refine Touches.foldl (fun _ _ _ => ?_) ?_
    | with_reducible refine State.modDesc_touches (by decide) ?_
    | with_reducible refine State.tryEnqueue_touches (by decide) ?_
    | with_reducible refine State.leaveAsm_touches (by decide) ?_
    | split


theorem State.frameOwes_touches {m : Nat} {s0 : State} {s : State} {packet : Nat} (hk : 0x100000000000000000000000000000004 ||| m = m)
    (h : Touches m s0 s) : Touches m s0 (State.frameOwes s packet) := by
  refine Touches.step (k := 0x100000000000000000000000000000004) (t := s) ?_ hk h
  clear hk h
  unfold State.frameOwes
  have h0 := Touches.refl 0x100000000000000000000000000000004 s
  repeat' first
    | with_reducible assumption
    | (extract_lets +onlyGivenNames s'; with_reducible refine Touches.cut (t := s') ?_ ?_; subst s'; rotate_left; clear_value s'; intro hs; rotate_left)
    | (extract_lets +onlyGivenNames s'; first | (have _e : State → _ := s'; clear _e; subst s') | clear_value s')
    | with_reducible refine Touches.foldl (fun _ _ _ => ?_) ?_
    | with_reducible refine State.modPacket_touches (by decide) ?_
    | with_reducible refine State.lateDebit_touches (by decide) ?_
    | with_reducible refine State.countBytes_touches (by decide) ?_
    | split


theorem execFrameVerdict_touches {m : Nat} {s0 : State} {packet : Nat} {s : State} (hk : 0x10200000800000001000000000000001902000000000008380040E3ED010000002A080000000000000002063384 ||| m = m)
    (h : Touches m s0 s) : Ends m s0 (execFrameVerdict packet s) := by
  refine Ends.step (k := 0x10200000800000001000000000000001902000000000008380040E3ED010000002A080000000000000002063384) (t := s) ?_ hk h
  clear hk h
  unfold execFrameVerdict
  have h0 := Touches.refl 0x10200000800000001000000000000001902000000000008380040E3ED010000002A080000000000000002063384 s
  repeat' first
    | with_reducible assumption
    | (extract_lets +onlyGivenNames s'; with_reducible refine Touches.cut (t := s') ?_ ?_; subst s'; rotate_left; clear_value s'; intro hs; rotate_left)
    | (extract_lets +onlyGivenNames s'; with_reducible refine Ends.cut (t := s') ?_ ?_; subst s'; rotate_left; clear_value s'; intro hs; rotate_left)
    | with_reducible refine Ends.next ?_
    | (extract_lets +onlyGivenNames s'; first | (have _e : State → _ := s'; clear _e; subst s') | clear_value s')
    | with_reducible refine State.discard_touches (by decide) ?_
    | with_reducible refine State.flowBytes_touches (by decide) ?_
    | with_reducible refine State.recirculateEnded_touches (by decide) ?_
    | with_reducible refine State.badVerdict_touches (by decide) ?_
    | with_reducible refine State.creditBack_touches (by decide) ?_
    | with_reducible refine State.goodVerdict_touches (by decide) ?_
    | with_reducible refine State.frameOwes_touches (by decide) ?_
    | split


theorem execMcGroupWrite_touches {m : Nat} {s0 : State} {group : Fin 65536} {value : Word} {s : State} (hk : 0x5000000000000000000000000000000000000000000000 ||| m = m)
    (h : Touches m s0 s) : Ends m s0 (execMcGroupWrite group value s) := by
  refine Ends.step (k := 0x5000000000000000000000000000000000000000000000) (t := s) ?_ hk h
  clear hk h
  unfold execMcGroupWrite
  have h0 := Touches.refl 0x5000000000000000000000000000000000000000000000 s
  repeat' first
    | with_reducible assumption
    | (extract_lets +onlyGivenNames s'; with_reducible refine Touches.cut (t := s') ?_ ?_; subst s'; rotate_left; clear_value s'; intro hs; rotate_left)
    | (extract_lets +onlyGivenNames s'; with_reducible refine Ends.cut (t := s') ?_ ?_; subst s'; rotate_left; clear_value s'; intro hs; rotate_left)
    | with_reducible refine Ends.next ?_
    | (extract_lets +onlyGivenNames s'; first | (have _e : State → _ := s'; clear _e; subst s') | clear_value s')
    | with_reducible refine Touches.set (by first | decide | assumption | (split <;> decide)) ?_
    | with_reducible refine Touches.addSat (by first | decide | assumption | (split <;> decide)) ?_
    | split


theorem execMcSync_touches {m : Nat} {s0 : State} {value : Word} {s : State} (hk : 0x400000000000000000000000000000000000000000004 ||| m = m)
    (h : Touches m s0 s) : Ends m s0 (execMcSync value s) := by
  refine Ends.step (k := 0x400000000000000000000000000000000000000000004) (t := s) ?_ hk h
  clear hk h
  unfold execMcSync
  have h0 := Touches.refl 0x400000000000000000000000000000000000000000004 s
  repeat' first
    | with_reducible assumption
    | (extract_lets +onlyGivenNames s'; with_reducible refine Touches.cut (t := s') ?_ ?_; subst s'; rotate_left; clear_value s'; intro hs; rotate_left)
    | (extract_lets +onlyGivenNames s'; with_reducible refine Ends.cut (t := s') ?_ ?_; subst s'; rotate_left; clear_value s'; intro hs; rotate_left)
    | with_reducible refine Ends.next ?_
    | (extract_lets +onlyGivenNames s'; first | (have _e : State → _ := s'; clear _e; subst s') | (have _e : Switch := s'; clear _e; subst s') | clear_value s')
    | with_reducible refine Touches.set (by first | decide | assumption | (split <;> decide)) ?_
    | split
    | with_reducible refine Touches.upd_sw (by decide) rfl ?_


theorem execMcSyncDone_touches {m : Nat} {s0 : State} {s : State} (hk : 0x400000000000000000000000000000000000000000004 ||| m = m)
    (h : Touches m s0 s) : Ends m s0 (execMcSyncDone s) := by
  refine Ends.step (k := 0x400000000000000000000000000000000000000000004) (t := s) ?_ hk h
  clear hk h
  unfold execMcSyncDone
  have h0 := Touches.refl 0x400000000000000000000000000000000000000000004 s
  repeat' first
    | with_reducible assumption
    | (extract_lets +onlyGivenNames s'; with_reducible refine Touches.cut (t := s') ?_ ?_; subst s'; rotate_left; clear_value s'; intro hs; rotate_left)
    | (extract_lets +onlyGivenNames s'; with_reducible refine Ends.cut (t := s') ?_ ?_; subst s'; rotate_left; clear_value s'; intro hs; rotate_left)
    | with_reducible refine Ends.next ?_
    | (extract_lets +onlyGivenNames s'; first | (have _e : State → _ := s'; clear _e; subst s') | (have _e : Switch := s'; clear _e; subst s') | clear_value s')
    | with_reducible refine Touches.set (by first | decide | assumption | (split <;> decide)) ?_
    | split
    | with_reducible refine Touches.upd_sw (by decide) rfl ?_


theorem State.leaseCells_touches {m : Nat} {s0 : State} {s : State} {n pool source : Nat} {rivals : List (Fin 18)} {z0 : Nat} {z1 : List Nat} (hk : 0x1000000000000000000000000000000000000802D0000000000000000000000000000040084 ||| m = m)
    (h : Touches m s0 s) : Touches m s0 (State.leaseCells s n pool source rivals z0 z1).1 := by
  refine Touches.step (k := 0x1000000000000000000000000000000000000802D0000000000000000000000000000040084) (t := s) ?_ hk h
  clear hk h
  have h0 := Touches.refl 0x1000000000000000000000000000000000000802D0000000000000000000000000000040084 s
  suffices key : ∀ a, Touches 0x1000000000000000000000000000000000000802D0000000000000000000000000000040084 a s → Touches 0x1000000000000000000000000000000000000802D0000000000000000000000000000040084 a (State.leaseCells s n pool source rivals z0 z1).1 from key _ h0
  clear h0
  intro a h0
  induction z0 generalizing s rivals z1 with
  | zero => unfold State.leaseCells; exact h0
  | succ n ih =>
    unfold State.leaseCells
    repeat' first
      | with_reducible assumption
      | with_reducible refine ih ?_
      | (extract_lets +onlyGivenNames s'; with_reducible refine Touches.cut (t := s') ?_ ?_; subst s'; rotate_left; clear_value s'; intro hs; rotate_left)
      | (extract_lets +onlyGivenNames s'; first | (have _e : State → _ := s'; clear _e; subst s') | clear_value s')
      | with_reducible refine State.requestPool_touches_eq (by assumption) (by decide) ?_
      | with_reducible refine State.requestPool_touches (by decide) ?_
      | with_reducible refine State.chargeLease_touches (by decide) ?_
      | with_reducible refine Touches.raise (by first | decide | assumption | (split <;> decide)) (by decide) ?_
      | split

theorem State.leaseCells_touches_eq {m : Nat} {s0 t₁ : State} {s : State} {n pool source : Nat} {rivals : List (Fin 18)} {z0 : Nat} {z1 : List Nat} {a₁ : List Nat} {b₁ : Nat} (e₁ : State.leaseCells s n pool source rivals z0 z1 = (t₁, a₁, b₁))
    (hk : 0x1000000000000000000000000000000000000802D0000000000000000000000000000040084 ||| m = m) (h : Touches m s0 s) : Touches m s0 t₁ := Touches.fst3 e₁ (State.leaseCells_touches hk h)


theorem State.returnCells_touches {m : Nat} {s0 : State} {s : State} {n : Nat} {cs : List Nat} (hk : 0x2D0000000000000000000000000000000004 ||| m = m)
    (h : Touches m s0 s) : Touches m s0 (State.returnCells s n cs) := by
  refine Touches.step (k := 0x2D0000000000000000000000000000000004) (t := s) ?_ hk h
  clear hk h
  unfold State.returnCells
  have h0 := Touches.refl 0x2D0000000000000000000000000000000004 s
  repeat' first
    | with_reducible assumption
    | (extract_lets +onlyGivenNames s'; with_reducible refine Touches.cut (t := s') ?_ ?_; subst s'; rotate_left; clear_value s'; intro hs; rotate_left)
    | (extract_lets +onlyGivenNames s'; first | (have _e : State → _ := s'; clear _e; subst s') | clear_value s')
    | with_reducible refine Touches.foldl (fun _ _ _ => ?_) ?_
    | with_reducible refine State.freeCell_touches (by decide) ?_
    | with_reducible refine State.chargeLease_touches (by decide) ?_
    | with_reducible refine Touches.set (by first | decide | assumption | (split <;> decide)) ?_
    | split


theorem execLeaseRequest_touches {m : Nat} {s0 : State} {fn : FnNo} {ask : LeaseAsk} {s : State} (hk : 0x1000000000000000000000000000000000002802D0000000000000000000000000000040084 ||| m = m)
    (h : Touches m s0 s) : Ends m s0 (execLeaseRequest fn ask s) := by
  refine Ends.step (k := 0x1000000000000000000000000000000000002802D0000000000000000000000000000040084) (t := s) ?_ hk h
  clear hk h
  unfold execLeaseRequest
  have h0 := Touches.refl 0x1000000000000000000000000000000000002802D0000000000000000000000000000040084 s
  repeat' first
    | with_reducible assumption
    | (extract_lets +onlyGivenNames s'; with_reducible refine Touches.cut (t := s') ?_ ?_; subst s'; rotate_left; clear_value s'; intro hs; rotate_left)
    | (extract_lets +onlyGivenNames s'; with_reducible refine Ends.cut (t := s') ?_ ?_; subst s'; rotate_left; clear_value s'; intro hs; rotate_left)
    | with_reducible refine Ends.next ?_
    | (extract_lets +onlyGivenNames s'; first | (have _e : State → _ := s'; clear _e; subst s') | (have _e : Switch := s'; clear _e; subst s') | clear_value s')
    | with_reducible refine State.leaseCells_touches_eq (by assumption) (by decide) ?_
    | with_reducible refine State.leaseCells_touches (by decide) ?_
    | with_reducible refine Touches.set (by first | decide | assumption | (split <;> decide)) ?_
    | split
    | with_reducible refine Touches.upd_sw (by decide) rfl ?_


theorem execLeaseComplete_touches {m : Nat} {s0 : State} {fn : FnNo} {s : State} (hk : 0x1A002D0000000000000000000000000000000004 ||| m = m)
    (h : Touches m s0 s) : Ends m s0 (execLeaseComplete fn s) := by
  refine Ends.step (k := 0x1A002D0000000000000000000000000000000004) (t := s) ?_ hk h
  clear hk h
  unfold execLeaseComplete
  have h0 := Touches.refl 0x1A002D0000000000000000000000000000000004 s
  repeat' first
    | with_reducible assumption
    | (extract_lets +onlyGivenNames s'; with_reducible refine Touches.cut (t := s') ?_ ?_; subst s'; rotate_left; clear_value s'; intro hs; rotate_left)
    | (extract_lets +onlyGivenNames s'; with_reducible refine Ends.cut (t := s') ?_ ?_; subst s'; rotate_left; clear_value s'; intro hs; rotate_left)
    | with_reducible refine Ends.next ?_
    | (extract_lets +onlyGivenNames s'; first | (have _e : State → _ := s'; clear _e; subst s') | (have _e : Switch := s'; clear _e; subst s') | clear_value s')
    | with_reducible refine Touches.foldl (fun _ _ _ => ?_) ?_
    | with_reducible refine State.returnCells_touches (by decide) ?_
    | with_reducible refine Touches.set (by first | decide | assumption | (split <;> decide)) ?_
    | with_reducible refine Touches.addWrap (by first | decide | assumption | (split <;> decide)) ?_
    | split
    | with_reducible refine Touches.upd_sw (by decide) rfl ?_


theorem execLeaseFree_touches {m : Nat} {s0 : State} {fn : FnNo} {value : Word} {s : State} (hk : 0x10200000800000001000000000000000000000000000000000012E02D0000000000000000000000000000042084 ||| m = m)
    (h : Touches m s0 s) : Ends m s0 (execLeaseFree fn value s) := by
  refine Ends.step (k := 0x10200000800000001000000000000000000000000000000000012E02D0000000000000000000000000000042084) (t := s) ?_ hk h
  clear hk h
  unfold execLeaseFree
  have h0 := Touches.refl 0x10200000800000001000000000000000000000000000000000012E02D0000000000000000000000000000042084 s
  repeat' first
    | with_reducible assumption
    | (extract_lets +onlyGivenNames s'; with_reducible refine Touches.cut (t := s') ?_ ?_; subst s'; rotate_left; clear_value s'; intro hs; rotate_left)
    | (extract_lets +onlyGivenNames s'; with_reducible refine Ends.cut (t := s') ?_ ?_; subst s'; rotate_left; clear_value s'; intro hs; rotate_left)
    | with_reducible refine Ends.next ?_
    | (extract_lets +onlyGivenNames s'; first | (have _e : State → _ := s'; clear _e; subst s') | clear_value s')
    | with_reducible refine State.freeFault_touches (by decide) ?_
    | with_reducible refine State.returnCells_touches (by decide) ?_
    | with_reducible refine Touches.set (by first | decide | assumption | (split <;> decide)) ?_
    | split


theorem State.freeLeases_touches {m : Nat} {s0 : State} {s : State} {n : Nat} (hk : 0x10002D0000000000000000000000000000000004 ||| m = m)
    (h : Touches m s0 s) : Touches m s0 (State.freeLeases s n) := by
  refine Touches.step (k := 0x10002D0000000000000000000000000000000004) (t := s) ?_ hk h
  clear hk h
  unfold State.freeLeases
  have h0 := Touches.refl 0x10002D0000000000000000000000000000000004 s
  repeat' first
    | with_reducible assumption
    | (extract_lets +onlyGivenNames s'; with_reducible refine Touches.cut (t := s') ?_ ?_; subst s'; rotate_left; clear_value s'; intro hs; rotate_left)
    | (extract_lets +onlyGivenNames s'; first | (have _e : State → _ := s'; clear _e; subst s') | (have _e : Switch := s'; clear _e; subst s') | clear_value s')
    | with_reducible refine State.returnCells_touches (by decide) ?_
    | with_reducible refine Touches.set (by first | decide | assumption | (split <;> decide)) ?_
    | split
    | with_reducible refine Touches.upd_sw (by decide) rfl ?_


theorem State.withdraw_touches {m : Nat} {s0 : State} {s : State} {cs : List Nat} (hk : 0x10200000000000000000000000000000000004 ||| m = m)
    (h : Touches m s0 s) : Touches m s0 (State.withdraw s cs) := by
  refine Touches.step (k := 0x10200000000000000000000000000000000004) (t := s) ?_ hk h
  clear hk h
  unfold State.withdraw
  have h0 := Touches.refl 0x10200000000000000000000000000000000004 s
  repeat' first
    | with_reducible assumption
    | (extract_lets +onlyGivenNames s'; with_reducible refine Touches.cut (t := s') ?_ ?_; subst s'; rotate_left; clear_value s'; intro hs; rotate_left)
    | (extract_lets +onlyGivenNames s'; first | (have _e : State → _ := s'; clear _e; subst s') | (have _e : Switch := s'; clear _e; subst s') | clear_value s')
    | with_reducible refine State.refreshPool_touches (by decide) ?_
    | with_reducible refine Touches.addSat (by first | decide | assumption | (split <;> decide)) ?_
    | split
    | with_reducible refine Touches.upd_sw (by decide) rfl ?_


theorem execEccUncorrectable_touches {m : Nat} {s0 : State} {structure_ : Fin 3} {cell : Fin 33554432} {word : EccWord} {s : State} (hk : 0x1020000000000000100000000000000000000000000000000000098200000000000000000000000000000042084 ||| m = m)
    (h : Touches m s0 s) : Ends m s0 (execEccUncorrectable structure_ cell word s) := by
  refine Ends.step (k := 0x1020000000000000100000000000000000000000000000000000098200000000000000000000000000000042084) (t := s) ?_ hk h
  clear hk h
  unfold execEccUncorrectable
  have h0 := Touches.refl 0x1020000000000000100000000000000000000000000000000000098200000000000000000000000000000042084 s
  repeat' first
    | with_reducible assumption
    | (extract_lets +onlyGivenNames s'; with_reducible refine Touches.cut (t := s') ?_ ?_; subst s'; rotate_left; clear_value s'; intro hs; rotate_left)
    | (extract_lets +onlyGivenNames s'; with_reducible refine Ends.cut (t := s') ?_ ?_; subst s'; rotate_left; clear_value s'; intro hs; rotate_left)
    | with_reducible refine Ends.next ?_
    | (extract_lets +onlyGivenNames s'; first | (have _e : State → _ := s'; clear _e; subst s') | (have _e : Switch := s'; clear _e; subst s') | clear_value s')
    | with_reducible refine State.record_touches (by decide) ?_
    | with_reducible refine State.modDesc_touches (by decide) ?_
    | with_reducible refine State.modFlight_touches (by decide) ?_
    | with_reducible refine State.withdraw_touches (by decide) ?_
    | with_reducible refine Touches.addSat (by first | decide | assumption | (split <;> decide)) ?_
    | with_reducible refine Touches.raise (by first | decide | assumption | (split <;> decide)) (by decide) ?_
    | split
    | with_reducible refine Touches.upd_sw (by decide) rfl ?_


theorem execQuery_touches {m : Nat} {s0 : State} {fn : FnNo} {value : Word} {s : State} (hk : 0xE0000000000000000000000000000000000000000 ||| m = m)
    (h : Touches m s0 s) : Ends m s0 (execQuery fn value s) := by
  refine Ends.step (k := 0xE0000000000000000000000000000000000000000) (t := s) ?_ hk h
  clear hk h
  unfold execQuery
  have h0 := Touches.refl 0xE0000000000000000000000000000000000000000 s
  repeat' first
    | with_reducible assumption
    | (extract_lets +onlyGivenNames s'; with_reducible refine Touches.cut (t := s') ?_ ?_; subst s'; rotate_left; clear_value s'; intro hs; rotate_left)
    | (extract_lets +onlyGivenNames s'; with_reducible refine Ends.cut (t := s') ?_ ?_; subst s'; rotate_left; clear_value s'; intro hs; rotate_left)
    | with_reducible refine Ends.next ?_
    | (extract_lets +onlyGivenNames s'; first | (have _e : State → _ := s'; clear _e; subst s') | clear_value s')
    | with_reducible refine Touches.set (by first | decide | assumption | (split <;> decide)) ?_
    | split


end Sys2Proof.Machine
end

