-- ==== Sys2Proof/Laws/TouchesSched.lean ====
section
/-!
SUPPORT. What the operations of Sched.lean can touch.
-/

namespace Sys2Proof.Machine

set_option linter.all false

theorem State.dropHead_touches {m : Nat} {s0 : State} {s : State} {q : Nat} (hk : 0x4 ||| m = m)
    (h : Touches m s0 s) : Touches m s0 (State.dropHead s q) := by
  refine Touches.step (k := 0x4) (t := s) ?_ hk h
  clear hk h
  unfold State.dropHead
  have h0 := Touches.refl 0x4 s
  repeat' first
    | with_reducible assumption
    | (extract_lets +onlyGivenNames s'; with_reducible refine Touches.cut (t := s') ?_ ?_; subst s'; rotate_left; clear_value s'; intro hs; rotate_left)
    | (extract_lets +onlyGivenNames s'; first | (have _e : State → _ := s'; clear _e; subst s') | clear_value s')
    | with_reducible refine State.setQueue_touches (by decide) ?_
    | split


theorem State.removeOversize_touches {m : Nat} {s0 : State} {s : State} {q : Nat} {z0 : Nat} (hk : 0x10200000800000001000000000000001102000020000000000000E06D0000000000000000000000000002062184 ||| m = m)
    (h : Touches m s0 s) : Touches m s0 (State.removeOversize s q z0) := by
  refine Touches.step (k := 0x10200000800000001000000000000001102000020000000000000E06D0000000000000000000000000002062184) (t := s) ?_ hk h
  clear hk h
  have h0 := Touches.refl 0x10200000800000001000000000000001102000020000000000000E06D0000000000000000000000000002062184 s
  suffices key : ∀ a, Touches 0x10200000800000001000000000000001102000020000000000000E06D0000000000000000000000000002062184 a s → Touches 0x10200000800000001000000000000001102000020000000000000E06D0000000000000000000000000002062184 a (State.removeOversize s q z0) from key _ h0
  clear h0
  intro a h0
  induction z0 generalizing s with
  | zero => unfold State.removeOversize; exact h0
  | succ n ih =>
    unfold State.removeOversize
    repeat' first
      | with_reducible assumption
      | with_reducible refine ih ?_
      | (extract_lets +onlyGivenNames s'; with_reducible refine Touches.cut (t := s') ?_ ?_; subst s'; rotate_left; clear_value s'; intro hs; rotate_left)
      | (extract_lets +onlyGivenNames s'; first | (have _e : State → _ := s'; clear _e; subst s') | clear_value s')
      | with_reducible refine State.copyDone_touches (by decide) ?_
      | with_reducible refine State.countCopyDrop_touches (by decide) ?_
      | with_reducible refine State.dropHead_touches (by decide) ?_
      | with_reducible refine Touches.addSat (by first | decide | assumption | (split <;> decide)) ?_
      | split


theorem State.removeOversizes_touches {m : Nat} {s0 : State} {s : State} {x : Nat} (hk : 0x10200000800000001000000000000001102000020000000000000E06D0000000000000000000000000002062184 ||| m = m)
    (h : Touches m s0 s) : Touches m s0 (State.removeOversizes s x) := by
  refine Touches.step (k := 0x10200000800000001000000000000001102000020000000000000E06D0000000000000000000000000002062184) (t := s) ?_ hk h
  clear hk h
  unfold State.removeOversizes
  have h0 := Touches.refl 0x10200000800000001000000000000001102000020000000000000E06D0000000000000000000000000002062184 s
  repeat' first
    | with_reducible assumption
    | (extract_lets +onlyGivenNames s'; with_reducible refine Touches.cut (t := s') ?_ ?_; subst s'; rotate_left; clear_value s'; intro hs; rotate_left)
    | (extract_lets +onlyGivenNames s'; first | (have _e : State → _ := s'; clear _e; subst s') | clear_value s')
    | with_reducible refine Touches.foldl (fun _ _ _ => ?_) ?_
    | with_reducible refine State.removeOversize_touches (by decide) ?_
    | split


theorem State.staleDrop_touches {m : Nat} {s0 : State} {s : State} {q k : Nat} {c : Copy} (hk : 0x10200000800000001000000000000001102000000000000000000E06D0000000000000000000000000002062184 ||| m = m)
    (h : Touches m s0 s) : Touches m s0 (State.staleDrop s q k c) := by
  refine Touches.step (k := 0x10200000800000001000000000000001102000000000000000000E06D0000000000000000000000000002062184) (t := s) ?_ hk h
  clear hk h
  unfold State.staleDrop
  have h0 := Touches.refl 0x10200000800000001000000000000001102000000000000000000E06D0000000000000000000000000002062184 s
  repeat' first
    | with_reducible assumption
    | (extract_lets +onlyGivenNames s'; with_reducible refine Touches.cut (t := s') ?_ ?_; subst s'; rotate_left; clear_value s'; intro hs; rotate_left)
    | (extract_lets +onlyGivenNames s'; first | (have _e : State → _ := s'; clear _e; subst s') | clear_value s')
    | with_reducible refine State.copyDone_touches (by decide) ?_
    | with_reducible refine State.setKid_touches (by decide) ?_
    | with_reducible refine State.countCopyDrop_touches (by decide) ?_
    | with_reducible refine State.dropHead_touches (by decide) ?_
    | split


theorem State.egressMirrors_touches {m : Nat} {s0 : State} {s : State} {k : Nat} {c : Copy} (hk : 0x10200000800000001000000000000001102000000000008000000E3ED0000000020000000000000000002063384 ||| m = m)
    (h : Touches m s0 s) : Touches m s0 (State.egressMirrors s k c) := by
  refine Touches.step (k := 0x10200000800000001000000000000001102000000000008000000E3ED0000000020000000000000000002063384) (t := s) ?_ hk h
  clear hk h
  unfold State.egressMirrors
  have h0 := Touches.refl 0x10200000800000001000000000000001102000000000008000000E3ED0000000020000000000000000002063384 s
  repeat' first
    | with_reducible assumption
    | (extract_lets +onlyGivenNames s'; with_reducible refine Touches.cut (t := s') ?_ ?_; subst s'; rotate_left; clear_value s'; intro hs; rotate_left)
    | (extract_lets +onlyGivenNames s'; first | (have _e : State → _ := s'; clear _e; subst s') | clear_value s')
    | with_reducible refine Touches.foldl (fun _ _ _ => ?_) ?_
    | with_reducible refine State.putDesc_touches (by decide) ?_
    | with_reducible refine State.countDropOf_touches (by decide) ?_
    | with_reducible refine State.chargeCopy_touches (by decide) ?_
    | with_reducible refine State.tryEnqueue_touches (by decide) ?_
    | with_reducible refine State.mirrorCopies_touches_eq (by assumption) (by decide) ?_
    | with_reducible refine State.mirrorCopies_touches (by decide) ?_
    | split


theorem State.delayFate_touches {m : Nat} {s0 : State} {s : State} {k : Nat} {c : Copy} (hk : 0x104 ||| m = m)
    (h : Touches m s0 s) : Touches m s0 (State.delayFate s k c) := by
  refine Touches.step (k := 0x104) (t := s) ?_ hk h
  clear hk h
  unfold State.delayFate
  have h0 := Touches.refl 0x104 s
  repeat' first
    | with_reducible assumption
    | (extract_lets +onlyGivenNames s'; with_reducible refine Touches.cut (t := s') ?_ ?_; subst s'; rotate_left; clear_value s'; intro hs; rotate_left)
    | (extract_lets +onlyGivenNames s'; first | (have _e : State → _ := s'; clear _e; subst s') | clear_value s')
    | with_reducible refine State.putDesc_touches (by decide) ?_
    | with_reducible refine State.sendFate_touches (by decide) ?_
    | split


theorem State.passKids_touches {m : Nat} {s0 : State} {s : State} {v : Nat} {keys : List Nat} (hk : 0x4 ||| m = m)
    (h : Touches m s0 s) : Touches m s0 (State.passKids s v keys) := by
  refine Touches.step (k := 0x4) (t := s) ?_ hk h
  clear hk h
  unfold State.passKids
  have h0 := Touches.refl 0x4 s
  repeat' first
    | with_reducible assumption
    | (extract_lets +onlyGivenNames s'; with_reducible refine Touches.cut (t := s') ?_ ?_; subst s'; rotate_left; clear_value s'; intro hs; rotate_left)
    | (extract_lets +onlyGivenNames s'; first | (have _e : State → _ := s'; clear _e; subst s') | clear_value s')
    | with_reducible refine Touches.foldl (fun _ _ _ => ?_) ?_
    | with_reducible refine State.setKid_touches (by decide) ?_
    | split


theorem State.wfqPicked_touches {m : Nat} {s0 : State} {s : State} {c q fc fq : Nat} (hk : 0x4 ||| m = m)
    (h : Touches m s0 s) : Touches m s0 (State.wfqPicked s c q fc fq) := by
  refine Touches.step (k := 0x4) (t := s) ?_ hk h
  clear hk h
  unfold State.wfqPicked
  have h0 := Touches.refl 0x4 s
  repeat' first
    | with_reducible assumption
    | (extract_lets +onlyGivenNames s'; with_reducible refine Touches.cut (t := s') ?_ ?_; subst s'; rotate_left; clear_value s'; intro hs; rotate_left)
    | (extract_lets +onlyGivenNames s'; first | (have _e : State → _ := s'; clear _e; subst s') | clear_value s')
    | with_reducible refine State.setVt_touches (by decide) ?_
    | with_reducible refine State.setKid_touches (by decide) ?_
    | with_reducible refine State.passKids_touches (by decide) ?_
    | split


theorem State.pickCopy_touches {m : Nat} {s0 : State} {s : State} {x q k : Nat} {c : Copy} {inProgress : Bool} (hk : 0x10200000800000001000000000000001102000000000008B80040E3ED0000000020000000000000000002063384 ||| m = m)
    (h : Touches m s0 s) : Touches m s0 (State.pickCopy s x q k c inProgress) := by
  refine Touches.step (k := 0x10200000800000001000000000000001102000000000008B80040E3ED0000000020000000000000000002063384) (t := s) ?_ hk h
  clear hk h
  unfold State.pickCopy
  have h0 := Touches.refl 0x10200000800000001000000000000001102000000000008B80040E3ED0000000020000000000000000002063384 s
  repeat' first
    | with_reducible assumption
    | (extract_lets +onlyGivenNames s'; with_reducible refine Touches.cut (t := s') ?_ ?_; subst s'; rotate_left; clear_value s'; intro hs; rotate_left)
    | (extract_lets +onlyGivenNames s'; first | (have _e : State → _ := s'; clear _e; subst s') | (have _e : Switch := s'; clear _e; subst s') | clear_value s')
    | with_reducible refine Touches.foldl (fun _ _ _ => ?_) ?_
    | with_reducible refine State.modPipe_touches (by decide) ?_
    | with_reducible refine State.modPort_touches (by decide) ?_
    | with_reducible refine State.putFlight_touches (by decide) ?_
    | with_reducible refine State.spend_touches (by decide) ?_
    | with_reducible refine State.chargeShaper_touches (by decide) ?_
    | with_reducible refine State.dropHead_touches (by decide) ?_
    | with_reducible refine State.egressMirrors_touches (by decide) ?_
    | with_reducible refine State.delayFate_touches (by decide) ?_
    | with_reducible refine Touches.addSat (by first | decide | assumption | (split <;> decide)) ?_
    | split
    | with_reducible refine Touches.upd_sw (by decide) rfl ?_


theorem execSchedulerPick_touches {m : Nat} {s0 : State} {port : PortNo} {s : State} (hk : 0x10200000800000001000000000000001102000020000008B84040E3ED0000000020000000000000000002063384 ||| m = m)
    (h : Touches m s0 s) : Ends m s0 (execSchedulerPick port s) := by
  refine Ends.step (k := 0x10200000800000001000000000000001102000020000008B84040E3ED0000000020000000000000000002063384) (t := s) ?_ hk h
  clear hk h
  unfold execSchedulerPick
  have h0 := Touches.refl 0x10200000800000001000000000000001102000020000008B84040E3ED0000000020000000000000000002063384 s
  repeat' first
    | with_reducible assumption
    | (extract_lets +onlyGivenNames s'; with_reducible refine Touches.cut (t := s') ?_ ?_; subst s'; rotate_left; clear_value s'; intro hs; rotate_left)
    | (extract_lets +onlyGivenNames s'; with_reducible refine Ends.cut (t := s') ?_ ?_; subst s'; rotate_left; clear_value s'; intro hs; rotate_left)
    | with_reducible refine Ends.next ?_
    | (extract_lets +onlyGivenNames s'; first | (have _e : State → _ := s'; clear _e; subst s') | clear_value s')
    | with_reducible refine State.refreshCgs_touches (by decide) ?_
    | with_reducible refine State.lookQueues_touches (by decide) ?_
    | with_reducible refine State.computeCgF_touches (by decide) ?_
    | with_reducible refine State.lookCgs_touches (by decide) ?_
    | with_reducible refine State.sendTransfer_touches (by decide) ?_
    | with_reducible refine State.removeOversizes_touches (by decide) ?_
    | with_reducible refine State.staleDrop_touches (by decide) ?_
    | with_reducible refine State.wfqPicked_touches (by decide) ?_
    | with_reducible refine State.pickCopy_touches (by decide) ?_
    | split


theorem execWheelSlot_touches {m : Nat} {s0 : State} {quadrant : RimNo} {coarse : Bool} {s : State} (hk : 0x10000000000000000000000000000003800C000000000000000000000000000000000040084 ||| m = m)
    (h : Touches m s0 s) : Ends m s0 (execWheelSlot quadrant coarse s) := by
  refine Ends.step (k := 0x10000000000000000000000000000003800C000000000000000000000000000000000040084) (t := s) ?_ hk h
  clear hk h
  unfold execWheelSlot
  have h0 := Touches.refl 0x10000000000000000000000000000003800C000000000000000000000000000000000040084 s
  repeat' first
    | with_reducible assumption
    | (extract_lets +onlyGivenNames s'; with_reducible refine Touches.cut (t := s') ?_ ?_; subst s'; rotate_left; clear_value s'; intro hs; rotate_left)
    | (extract_lets +onlyGivenNames s'; with_reducible refine Ends.cut (t := s') ?_ ?_; subst s'; rotate_left; clear_value s'; intro hs; rotate_left)
    | with_reducible refine Ends.next ?_
    | (extract_lets +onlyGivenNames s'; first | (have _e : State → _ := s'; clear _e; subst s') | clear_value s')
    | with_reducible refine Touches.foldl (fun _ _ _ => ?_) ?_
    | with_reducible refine State.refill_touches (by decide) ?_
    | with_reducible refine Touches.addSat (by first | decide | assumption | (split <;> decide)) ?_
    | with_reducible refine Touches.raise (by first | decide | assumption | (split <;> decide)) (by decide) ?_
    | split


theorem execOverflowMigrate_touches {m : Nat} {s0 : State} {quadrant : RimNo} {s : State} (hk : 0x38004000000000000000000000000000000000000004 ||| m = m)
    (h : Touches m s0 s) : Ends m s0 (execOverflowMigrate quadrant s) := by
  refine Ends.step (k := 0x38004000000000000000000000000000000000000004) (t := s) ?_ hk h
  clear hk h
  unfold execOverflowMigrate
  have h0 := Touches.refl 0x38004000000000000000000000000000000000000004 s
  repeat' first
    | with_reducible assumption
    | (extract_lets +onlyGivenNames s'; with_reducible refine Touches.cut (t := s') ?_ ?_; subst s'; rotate_left; clear_value s'; intro hs; rotate_left)
    | (extract_lets +onlyGivenNames s'; with_reducible refine Ends.cut (t := s') ?_ ?_; subst s'; rotate_left; clear_value s'; intro hs; rotate_left)
    | with_reducible refine Ends.next ?_
    | (extract_lets +onlyGivenNames s'; first | (have _e : State → _ := s'; clear _e; subst s') | clear_value s')
    | with_reducible refine Touches.foldl (fun _ _ _ => ?_) ?_
    | with_reducible refine State.putShaper_touches (by decide) ?_
    | split


theorem execHoldExpiry_touches {m : Nat} {s0 : State} {port : PortNo} {s : State} (hk : 0x1020000080000000100000000000000110200000000000000C080E06D0000000000000000000000000002062184 ||| m = m)
    (h : Touches m s0 s) : Ends m s0 (execHoldExpiry port s) := by
  refine Ends.step (k := 0x1020000080000000100000000000000110200000000000000C080E06D0000000000000000000000000002062184) (t := s) ?_ hk h
  clear hk h
  unfold execHoldExpiry
  have h0 := Touches.refl 0x1020000080000000100000000000000110200000000000000C080E06D0000000000000000000000000002062184 s
  repeat' first
    | with_reducible assumption
    | (extract_lets +onlyGivenNames s'; with_reducible refine Touches.cut (t := s') ?_ ?_; subst s'; rotate_left; clear_value s'; intro hs; rotate_left)
    | (extract_lets +onlyGivenNames s'; with_reducible refine Ends.cut (t := s') ?_ ?_; subst s'; rotate_left; clear_value s'; intro hs; rotate_left)
    | with_reducible refine Ends.next ?_
    | (extract_lets +onlyGivenNames s'; first | (have _e : State → _ := s'; clear _e; subst s') | clear_value s')
    | with_reducible refine State.startFlush_touches (by decide) ?_
    | split


theorem execFlushEnd_touches {m : Nat} {s0 : State} {port : PortNo} {s : State} (hk : 0x400000000000000000000000000000000000000000 ||| m = m)
    (h : Touches m s0 s) : Ends m s0 (execFlushEnd port s) := by
  refine Ends.step (k := 0x400000000000000000000000000000000000000000) (t := s) ?_ hk h
  clear hk h
  unfold execFlushEnd
  have h0 := Touches.refl 0x400000000000000000000000000000000000000000 s
  repeat' first
    | with_reducible assumption
    | (extract_lets +onlyGivenNames s'; with_reducible refine Touches.cut (t := s') ?_ ?_; subst s'; rotate_left; clear_value s'; intro hs; rotate_left)
    | (extract_lets +onlyGivenNames s'; with_reducible refine Ends.cut (t := s') ?_ ?_; subst s'; rotate_left; clear_value s'; intro hs; rotate_left)
    | with_reducible refine Ends.next ?_
    | (extract_lets +onlyGivenNames s'; first | (have _e : State → _ := s'; clear _e; subst s') | clear_value s')
    | with_reducible refine Touches.set (by first | decide | assumption | (split <;> decide)) ?_
    | split


end Sys2Proof.Machine
end

