-- ==== Sys2Proof/Laws/TouchesTransmit.lean ====
section
/-!
SUPPORT. What the operations of Transmit.lean can touch.
-/

namespace Sys2Proof.Machine

set_option linter.all false

theorem State.ptpAction_touches {m : Nat} {s0 : State} {s : State} {v : Packet} {f : Flight} (hk : 0x80000000000000000000000000000000000000000000000000 ||| m = m)
    (h : Touches m s0 s) : Touches m s0 (State.ptpAction s v f).1 := by
  refine Touches.step (k := 0x80000000000000000000000000000000000000000000000000) (t := s) ?_ hk h
  clear hk h
  unfold State.ptpAction
  have h0 := Touches.refl 0x80000000000000000000000000000000000000000000000000 s
  repeat' first
    | with_reducible assumption
    | (extract_lets +onlyGivenNames s'; with_reducible refine Touches.cut (t := s') ?_ ?_; subst s'; rotate_left; clear_value s'; intro hs; rotate_left)
    | (extract_lets +onlyGivenNames s'; first | (have _e : State → _ := s'; clear _e; subst s') | clear_value s')
    | with_reducible refine Touches.addSat (by first | decide | assumption | (split <;> decide)) ?_
    | split

theorem State.ptpAction_touches_eq {m : Nat} {s0 t₁ : State} {s : State} {v : Packet} {f : Flight} {a₁ : List Byte} (e₁ : State.ptpAction s v f = (t₁, a₁))
    (hk : 0x80000000000000000000000000000000000000000000000000 ||| m = m) (h : Touches m s0 s) : Touches m s0 t₁ := Touches.fst e₁ (State.ptpAction_touches hk h)


theorem State.ioamSkip_touches {m : Nat} {s0 : State} {s : State} (hk : 0x100000000000000000210000000000000000000000000000000000000000000000000040080 ||| m = m)
    (h : Touches m s0 s) : Touches m s0 (State.ioamSkip s) := by
  refine Touches.step (k := 0x100000000000000000210000000000000000000000000000000000000000000000000040080) (t := s) ?_ hk h
  clear hk h
  unfold State.ioamSkip
  have h0 := Touches.refl 0x100000000000000000210000000000000000000000000000000000000000000000000040080 s
  repeat' first
    | with_reducible assumption
    | (extract_lets +onlyGivenNames s'; with_reducible refine Touches.cut (t := s') ?_ ?_; subst s'; rotate_left; clear_value s'; intro hs; rotate_left)
    | (extract_lets +onlyGivenNames s'; first | (have _e : State → _ := s'; clear _e; subst s') | clear_value s')
    | with_reducible refine Touches.addSat (by first | decide | assumption | (split <;> decide)) ?_
    | with_reducible refine Touches.raise (by first | decide | assumption | (split <;> decide)) (by decide) ?_
    | split


theorem State.ioamTrace_touches {m : Nat} {s0 : State} {s : State} {v : Packet} {f : Flight} {bs : List Byte} (hk : 0x100000000000000000210000000000000000000000000000000000000000000000000040080 ||| m = m)
    (h : Touches m s0 s) : Touches m s0 (State.ioamTrace s v f bs).1 := by
  refine Touches.step (k := 0x100000000000000000210000000000000000000000000000000000000000000000000040080) (t := s) ?_ hk h
  clear hk h
  unfold State.ioamTrace
  have h0 := Touches.refl 0x100000000000000000210000000000000000000000000000000000000000000000000040080 s
  repeat' first
    | with_reducible assumption
    | (extract_lets +onlyGivenNames s'; with_reducible refine Touches.cut (t := s') ?_ ?_; subst s'; rotate_left; clear_value s'; intro hs; rotate_left)
    | (extract_lets +onlyGivenNames s'; first | (have _e : State → _ := s'; clear _e; subst s') | clear_value s')
    | with_reducible refine State.ioamSkip_touches (by decide) ?_
    | with_reducible refine Touches.addSat (by first | decide | assumption | (split <;> decide)) ?_
    | split

theorem State.ioamTrace_touches_eq {m : Nat} {s0 t₁ : State} {s : State} {v : Packet} {f : Flight} {bs : List Byte} {a₁ : List Byte} (e₁ : State.ioamTrace s v f bs = (t₁, a₁))
    (hk : 0x100000000000000000210000000000000000000000000000000000000000000000000040080 ||| m = m) (h : Touches m s0 s) : Touches m s0 t₁ := Touches.fst e₁ (State.ioamTrace_touches hk h)


theorem State.ioamDex_touches {m : Nat} {s0 : State} {s : State} {v : Packet} {f : Flight} {bs : List Byte} (hk : 0x80000000100000000000000010210000000000000000000000000000000000000000000000000060180 ||| m = m)
    (h : Touches m s0 s) : Touches m s0 (State.ioamDex s v f bs) := by
  refine Touches.step (k := 0x80000000100000000000000010210000000000000000000000000000000000000000000000000060180) (t := s) ?_ hk h
  clear hk h
  unfold State.ioamDex
  have h0 := Touches.refl 0x80000000100000000000000010210000000000000000000000000000000000000000000000000060180 s
  repeat' first
    | with_reducible assumption
    | (extract_lets +onlyGivenNames s'; with_reducible refine Touches.cut (t := s') ?_ ?_; subst s'; rotate_left; clear_value s'; intro hs; rotate_left)
    | (extract_lets +onlyGivenNames s'; first | (have _e : State → _ := s'; clear _e; subst s') | clear_value s')
    | with_reducible refine State.draw_touches_eq (by assumption) (by decide) ?_
    | with_reducible refine State.draw_touches (by decide) ?_
    | with_reducible refine State.exportRecord_touches (by decide) ?_
    | with_reducible refine State.spendSample_touches (by decide) ?_
    | with_reducible refine State.ioamSkip_touches (by decide) ?_
    | with_reducible refine Touches.addSat (by first | decide | assumption | (split <;> decide)) ?_
    | split


theorem State.ioamAction_touches {m : Nat} {s0 : State} {s : State} {v : Packet} {f : Flight} {bs : List Byte} (hk : 0x80000000100000000000000010210000000000000000000000000000000000000000000000000060180 ||| m = m)
    (h : Touches m s0 s) : Touches m s0 (State.ioamAction s v f bs).1 := by
  refine Touches.step (k := 0x80000000100000000000000010210000000000000000000000000000000000000000000000000060180) (t := s) ?_ hk h
  clear hk h
  unfold State.ioamAction
  have h0 := Touches.refl 0x80000000100000000000000010210000000000000000000000000000000000000000000000000060180 s
  repeat' first
    | with_reducible assumption
    | (extract_lets +onlyGivenNames s'; with_reducible refine Touches.cut (t := s') ?_ ?_; subst s'; rotate_left; clear_value s'; intro hs; rotate_left)
    | (extract_lets +onlyGivenNames s'; first | (have _e : State → _ := s'; clear _e; subst s') | clear_value s')
    | with_reducible refine State.ioamSkip_touches (by decide) ?_
    | with_reducible refine State.ioamTrace_touches_eq (by assumption) (by decide) ?_
    | with_reducible refine State.ioamTrace_touches (by decide) ?_
    | with_reducible refine State.ioamDex_touches (by decide) ?_
    | split

theorem State.ioamAction_touches_eq {m : Nat} {s0 t₁ : State} {s : State} {v : Packet} {f : Flight} {bs : List Byte} {a₁ : List Byte} (e₁ : State.ioamAction s v f bs = (t₁, a₁))
    (hk : 0x80000000100000000000000010210000000000000000000000000000000000000000000000000060180 ||| m = m) (h : Touches m s0 s) : Touches m s0 t₁ := Touches.fst e₁ (State.ioamAction_touches hk h)


theorem execTxFrameStart_touches {m : Nat} {s0 : State} {port : PortNo} {held : Nat} {phase : Fin 4} {s : State} (hk : 0x10200000800000001000000000000000102100020800000000000E26D0000000000000000000000000002062184 ||| m = m)
    (h : Touches m s0 s) : Ends m s0 (execTxFrameStart port held phase s) := by
  refine Ends.step (k := 0x10200000800000001000000000000000102100020800000000000E26D0000000000000000000000000002062184) (t := s) ?_ hk h
  clear hk h
  unfold execTxFrameStart
  have h0 := Touches.refl 0x10200000800000001000000000000000102100020800000000000E26D0000000000000000000000000002062184 s
  repeat' first
    | with_reducible assumption
    | (extract_lets +onlyGivenNames s'; with_reducible refine Touches.cut (t := s') ?_ ?_; subst s'; rotate_left; clear_value s'; intro hs; rotate_left)
    | (extract_lets +onlyGivenNames s'; with_reducible refine Ends.cut (t := s') ?_ ?_; subst s'; rotate_left; clear_value s'; intro hs; rotate_left)
    | with_reducible refine Ends.next ?_
    | (extract_lets +onlyGivenNames s'; first | (have _e : State → _ := s'; clear _e; subst s') | clear_value s')
    | with_reducible refine State.modPort_touches (by decide) ?_
    | with_reducible refine State.putFlight_touches (by decide) ?_
    | with_reducible refine State.endFlight_touches (by decide) ?_
    | with_reducible refine State.ptpAction_touches_eq (by assumption) (by decide) ?_
    | with_reducible refine State.ptpAction_touches (by decide) ?_
    | with_reducible refine State.ioamAction_touches_eq (by assumption) (by decide) ?_
    | with_reducible refine State.ioamAction_touches (by decide) ?_
    | with_reducible refine Touches.addSat (by first | decide | assumption | (split <;> decide)) ?_
    | split


theorem State.spendSent_touches {m : Nat} {s0 : State} {s : State} {x n : Nat} (hk : 0x1000 ||| m = m)
    (h : Touches m s0 s) : Touches m s0 (State.spendSent s x n) := by
  refine Touches.step (k := 0x1000) (t := s) ?_ hk h
  clear hk h
  unfold State.spendSent
  have h0 := Touches.refl 0x1000 s
  repeat' first
    | with_reducible assumption
    | (extract_lets +onlyGivenNames s'; with_reducible refine Touches.cut (t := s') ?_ ?_; subst s'; rotate_left; clear_value s'; intro hs; rotate_left)
    | (extract_lets +onlyGivenNames s'; first | (have _e : State → _ := s'; clear _e; subst s') | clear_value s')
    | with_reducible refine State.spend_touches (by decide) ?_
    | split


theorem State.endStomped_touches {m : Nat} {s0 : State} {s : State} {x k : Nat} {bytes : List Byte} {underrun : Bool} (hk : 0x10200000800000001000000000000000000000000000000000000E06D0000000000000004000000000002043084 ||| m = m)
    (h : Touches m s0 s) : Touches m s0 (State.endStomped s x k bytes underrun) := by
  refine Touches.step (k := 0x10200000800000001000000000000000000000000000000000000E06D0000000000000004000000000002043084) (t := s) ?_ hk h
  clear hk h
  unfold State.endStomped
  have h0 := Touches.refl 0x10200000800000001000000000000000000000000000000000000E06D0000000000000004000000000002043084 s
  repeat' first
    | with_reducible assumption
    | (extract_lets +onlyGivenNames s'; with_reducible refine Touches.cut (t := s') ?_ ?_; subst s'; rotate_left; clear_value s'; intro hs; rotate_left)
    | (extract_lets +onlyGivenNames s'; first | (have _e : State → _ := s'; clear _e; subst s') | clear_value s')
    | with_reducible refine State.portCount_touches (by decide) ?_
    | with_reducible refine State.modPort_touches (by decide) ?_
    | with_reducible refine State.sendFrame_touches (by decide) ?_
    | with_reducible refine State.endFlight_touches (by decide) ?_
    | with_reducible refine State.spendSent_touches (by decide) ?_
    | split


theorem State.endGood_touches {m : Nat} {s0 : State} {s : State} {x k : Nat} {f : Flight} (hk : 0x10200000800000001000000000000000000000000000000000000E06D0000000000000004000000000002043184 ||| m = m)
    (h : Touches m s0 s) : Touches m s0 (State.endGood s x k f) := by
  refine Touches.step (k := 0x10200000800000001000000000000000000000000000000000000E06D0000000000000004000000000002043184) (t := s) ?_ hk h
  clear hk h
  unfold State.endGood
  have h0 := Touches.refl 0x10200000800000001000000000000000000000000000000000000E06D0000000000000004000000000002043184 s
  repeat' first
    | with_reducible assumption
    | (extract_lets +onlyGivenNames s'; with_reducible refine Touches.cut (t := s') ?_ ?_; subst s'; rotate_left; clear_value s'; intro hs; rotate_left)
    | (extract_lets +onlyGivenNames s'; first | (have _e : State → _ := s'; clear _e; subst s') | clear_value s')
    | with_reducible refine State.portCount_touches (by decide) ?_
    | with_reducible refine State.modPort_touches (by decide) ?_
    | with_reducible refine State.sendFrame_touches (by decide) ?_
    | with_reducible refine State.histAdd_touches (by decide) ?_
    | with_reducible refine State.endFlight_touches (by decide) ?_
    | with_reducible refine State.spendSent_touches (by decide) ?_
    | split


theorem execTxFrameEnd_touches {m : Nat} {s0 : State} {port : PortNo} {idles : Fin 64} {s : State} (hk : 0x10200000800000001000000000000001102000000000000000000E06D0000000008000004000000000002063184 ||| m = m)
    (h : Touches m s0 s) : Ends m s0 (execTxFrameEnd port idles s) := by
  refine Ends.step (k := 0x10200000800000001000000000000001102000000000000000000E06D0000000008000004000000000002063184) (t := s) ?_ hk h
  clear hk h
  unfold execTxFrameEnd
  have h0 := Touches.refl 0x10200000800000001000000000000001102000000000000000000E06D0000000008000004000000000002063184 s
  repeat' first
    | with_reducible assumption
    | (extract_lets +onlyGivenNames s'; with_reducible refine Touches.cut (t := s') ?_ ?_; subst s'; rotate_left; clear_value s'; intro hs; rotate_left)
    | (extract_lets +onlyGivenNames s'; with_reducible refine Ends.cut (t := s') ?_ ?_; subst s'; rotate_left; clear_value s'; intro hs; rotate_left)
    | with_reducible refine Ends.next ?_
    | (extract_lets +onlyGivenNames s'; first | (have _e : State → _ := s'; clear _e; subst s') | clear_value s')
    | with_reducible refine State.countCopyDrop_touches (by decide) ?_
    | with_reducible refine State.endStomped_touches (by decide) ?_
    | with_reducible refine State.endGood_touches (by decide) ?_
    | with_reducible refine State.sendIdles_touches (by decide) ?_
    | with_reducible refine Touches.addSat (by first | decide | assumption | (split <;> decide)) ?_
    | split


theorem execTxUnderrun_touches {m : Nat} {s0 : State} {port : PortNo} {sent : Nat} {s : State} (hk : 0x10200000800000001000000000000000000000000000000000000E06D0000000000000004000000000002043084 ||| m = m)
    (h : Touches m s0 s) : Ends m s0 (execTxUnderrun port sent s) := by
  refine Ends.step (k := 0x10200000800000001000000000000000000000000000000000000E06D0000000000000004000000000002043084) (t := s) ?_ hk h
  clear hk h
  unfold execTxUnderrun
  have h0 := Touches.refl 0x10200000800000001000000000000000000000000000000000000E06D0000000000000004000000000002043084 s
  repeat' first
    | with_reducible assumption
    | (extract_lets +onlyGivenNames s'; with_reducible refine Touches.cut (t := s') ?_ ?_; subst s'; rotate_left; clear_value s'; intro hs; rotate_left)
    | (extract_lets +onlyGivenNames s'; with_reducible refine Ends.cut (t := s') ?_ ?_; subst s'; rotate_left; clear_value s'; intro hs; rotate_left)
    | with_reducible refine Ends.next ?_
    | (extract_lets +onlyGivenNames s'; first | (have _e : State → _ := s'; clear _e; subst s') | clear_value s')
    | with_reducible refine State.endStomped_touches (by decide) ?_
    | split


end Sys2Proof.Machine
end

