-- ==== Sys2Proof/Laws/TouchesDeep.lean ====
section
/-!
SUPPORT. What the operations of Deep.lean can touch.
-/

namespace Sys2Proof.Machine

set_option linter.all false

theorem State.refreshSpill_touches {m : Nat} {s0 : State} {s : State} {n : Nat} (hk : 0x40010000000000000000000000000000000000000000000000000000000000000 ||| m = m)
    (h : Touches m s0 s) : Touches m s0 (State.refreshSpill s n) := by
  refine Touches.step (k := 0x40010000000000000000000000000000000000000000000000000000000000000) (t := s) ?_ hk h
  clear hk h
  unfold State.refreshSpill
  have h0 := Touches.refl 0x40010000000000000000000000000000000000000000000000000000000000000 s
  repeat' first
    | with_reducible assumption
    | (extract_lets +onlyGivenNames s'; with_reducible refine Touches.cut (t := s') ?_ ?_; subst s'; rotate_left; clear_value s'; intro hs; rotate_left)
    | (extract_lets +onlyGivenNames s'; first | (have _e : State → _ := s'; clear _e; subst s') | clear_value s')
    | with_reducible refine Touches.set (by first | decide | assumption | (split <;> decide)) ?_
    | split


theorem State.spillFrame_touches {m : Nat} {s0 : State} {s : State} {k : Nat} {d : Desc} {v : Packet} {c : Copy} {stale : Bool} (hk : 0x10200000800000001000000000480700000000000000000000000E06D0000000000000000000000000002043284 ||| m = m)
    (h : Touches m s0 s) : Touches m s0 (State.spillFrame s k d v c stale) := by
  refine Touches.step (k := 0x10200000800000001000000000480700000000000000000000000E06D0000000000000000000000000002043284) (t := s) ?_ hk h
  clear hk h
  unfold State.spillFrame
  have h0 := Touches.refl 0x10200000800000001000000000480700000000000000000000000E06D0000000000000000000000000002043284 s
  repeat' first
    | with_reducible assumption
    | (extract_lets +onlyGivenNames s'; with_reducible refine Touches.cut (t := s') ?_ ?_; subst s'; rotate_left; clear_value s'; intro hs; rotate_left)
    | (extract_lets +onlyGivenNames s'; first | (have _e : State → _ := s'; clear _e; subst s') | (have _e : Switch := s'; clear _e; subst s') | clear_value s')
    | with_reducible refine Touches.modHbm (by decide) (fun _ => rfl) ?_
    | with_reducible refine State.modDesc_touches (by decide) ?_
    | with_reducible refine State.setQueue_touches (by decide) ?_
    | with_reducible refine State.spend_touches (by decide) ?_
    | with_reducible refine State.copyDone_touches (by decide) ?_
    | with_reducible refine State.refreshSpill_touches (by decide) ?_
    | with_reducible refine Touches.addSat (by first | decide | assumption | (split <;> decide)) ?_
    | with_reducible refine Touches.raise (by first | decide | assumption | (split <;> decide)) (by decide) ?_
    | split
    | with_reducible refine Touches.upd_sw (by decide) rfl ?_


theorem execSpillMove_touches {m : Nat} {s0 : State} {s : State} (hk : 0x10200000800000001000000000480700000000000000000000000E06D0000000000000000000000000002043284 ||| m = m)
    (h : Touches m s0 s) : Ends m s0 (execSpillMove s) := by
  refine Ends.step (k := 0x10200000800000001000000000480700000000000000000000000E06D0000000000000000000000000002043284) (t := s) ?_ hk h
  clear hk h
  unfold execSpillMove
  have h0 := Touches.refl 0x10200000800000001000000000480700000000000000000000000E06D0000000000000000000000000002043284 s
  repeat' first
    | with_reducible assumption
    | (extract_lets +onlyGivenNames s'; with_reducible refine Touches.cut (t := s') ?_ ?_; subst s'; rotate_left; clear_value s'; intro hs; rotate_left)
    | (extract_lets +onlyGivenNames s'; with_reducible refine Ends.cut (t := s') ?_ ?_; subst s'; rotate_left; clear_value s'; intro hs; rotate_left)
    | with_reducible refine Ends.next ?_
    | (extract_lets +onlyGivenNames s'; first | (have _e : State → _ := s'; clear _e; subst s') | clear_value s')
    | with_reducible refine Touches.modHbm (by decide) (fun _ => rfl) ?_
    | with_reducible refine State.spillFrame_touches (by decide) ?_
    | split


theorem State.refillCells_touches {m : Nat} {s0 : State} {s : State} {n : Nat} {rivals : List (Fin 18)} {z0 : List Nat} {z1 : List (Nat × Nat)} (hk : 0x1240000000000000000000000000000000004 ||| m = m)
    (h : Touches m s0 s) : Touches m s0 (State.refillCells s n rivals z0 z1).2 := by
  refine Touches.step (k := 0x1240000000000000000000000000000000004) (t := s) ?_ hk h
  clear hk h
  have h0 := Touches.refl 0x1240000000000000000000000000000000004 s
  suffices key : ∀ a, Touches 0x1240000000000000000000000000000000004 a s → Touches 0x1240000000000000000000000000000000004 a (State.refillCells s n rivals z0 z1).2 from key _ h0
  clear h0
  intro a h0
  induction z0 generalizing s rivals z1 with
  | nil => unfold State.refillCells; exact h0
  | cons x xs ih =>
    unfold State.refillCells
    repeat' first
      | with_reducible assumption
      | with_reducible refine ih ?_
      | (extract_lets +onlyGivenNames s'; with_reducible refine Touches.cut (t := s') ?_ ?_; subst s'; rotate_left; clear_value s'; intro hs; rotate_left)
      | (extract_lets +onlyGivenNames s'; first | (have _e : State → _ := s'; clear _e; subst s') | clear_value s')
      | with_reducible refine Touches.foldl (fun _ _ _ => ?_) ?_
      | with_reducible refine State.requestSegment_touches_eq (by assumption) (by decide) ?_
      | with_reducible refine State.requestSegment_touches (by decide) ?_
      | with_reducible refine State.freeCell_touches (by decide) ?_
      | split

theorem State.refillCells_touches_eq {m : Nat} {s0 t₁ : State} {s : State} {n : Nat} {rivals : List (Fin 18)} {z0 : List Nat} {z1 : List (Nat × Nat)} {a₁ : Option (List (Nat × Nat))} (e₁ : State.refillCells s n rivals z0 z1 = (a₁, t₁))
    (hk : 0x1240000000000000000000000000000000004 ||| m = m) (h : Touches m s0 s) : Touches m s0 t₁ := Touches.snd e₁ (State.refillCells_touches hk h)


theorem State.fillCells_touches {m : Nat} {s0 : State} {s : State} {bytes : List Byte} {z0 : List (Nat × Nat)} (hk : 0xC ||| m = m)
    (h : Touches m s0 s) : Touches m s0 (State.fillCells s bytes z0) := by
  refine Touches.step (k := 0xC) (t := s) ?_ hk h
  clear hk h
  have h0 := Touches.refl 0xC s
  suffices key : ∀ a, Touches 0xC a s → Touches 0xC a (State.fillCells s bytes z0) from key _ h0
  clear h0
  intro a h0
  induction z0 generalizing s bytes with
  | nil => unfold State.fillCells; exact h0
  | cons x xs ih =>
    unfold State.fillCells
    repeat' first
      | with_reducible assumption
      | with_reducible refine ih ?_
      | (extract_lets +onlyGivenNames s'; with_reducible refine Touches.cut (t := s') ?_ ?_; subst s'; rotate_left; clear_value s'; intro hs; rotate_left)
      | with_reducible refine Touches.upd_mem (by decide) (by decide) rfl ?_
      | (extract_lets +onlyGivenNames s'; first | (have _e : State → _ := s'; clear _e; subst s') | (have _e : Switch := s'; clear _e; subst s') | clear_value s')
      | split
      | with_reducible refine Touches.upd_sw (by decide) rfl ?_
      | with_reducible refine Touches.upd_mem (by decide) (by decide) rfl ?_


theorem State.refillWait_touches {m : Nat} {s0 : State} {s : State} {q : Nat} (hk : 0x40000000000000000000000000000000000000000000000000000000000200 ||| m = m)
    (h : Touches m s0 s) : Touches m s0 (State.refillWait s q) := by
  refine Touches.step (k := 0x40000000000000000000000000000000000000000000000000000000000200) (t := s) ?_ hk h
  clear hk h
  unfold State.refillWait
  have h0 := Touches.refl 0x40000000000000000000000000000000000000000000000000000000000200 s
  repeat' first
    | with_reducible assumption
    | (extract_lets +onlyGivenNames s'; with_reducible refine Touches.cut (t := s') ?_ ?_; subst s'; rotate_left; clear_value s'; intro hs; rotate_left)
    | (extract_lets +onlyGivenNames s'; first | (have _e : State → _ := s'; clear _e; subst s') | clear_value s')
    | with_reducible refine Touches.modHbm (by decide) (fun _ => rfl) ?_
    | with_reducible refine Touches.addSat (by first | decide | assumption | (split <;> decide)) ?_
    | split


theorem State.refillFrame_touches {m : Nat} {s0 : State} {s : State} {q : Nat} {rivals : List (Fin 18)} (hk : 0x400700000000000000000000000016D000000000000000000000000000000120C ||| m = m)
    (h : Touches m s0 s) : Touches m s0 (State.refillFrame s q rivals) := by
  refine Touches.step (k := 0x400700000000000000000000000016D000000000000000000000000000000120C) (t := s) ?_ hk h
  clear hk h
  unfold State.refillFrame
  have h0 := Touches.refl 0x400700000000000000000000000016D000000000000000000000000000000120C s
  repeat' first
    | with_reducible assumption
    | (extract_lets +onlyGivenNames s'; with_reducible refine Touches.cut (t := s') ?_ ?_; subst s'; rotate_left; clear_value s'; intro hs; rotate_left)
    | (extract_lets +onlyGivenNames s'; first | (have _e : State → _ := s'; clear _e; subst s') | (have _e : Switch := s'; clear _e; subst s') | clear_value s')
    | with_reducible refine Touches.modHbm (by decide) (fun _ => rfl) ?_
    | with_reducible refine State.putPacket_touches (by decide) ?_
    | with_reducible refine State.putDesc_touches (by decide) ?_
    | with_reducible refine State.setQueue_touches (by decide) ?_
    | with_reducible refine State.spend_touches (by decide) ?_
    | with_reducible refine State.refreshPauses_touches (by decide) ?_
    | with_reducible refine State.chargeCopy_touches (by decide) ?_
    | with_reducible refine State.chargeRegion_touches (by decide) ?_
    | with_reducible refine State.refreshRecords_touches (by decide) ?_
    | with_reducible refine State.refreshSpill_touches (by decide) ?_
    | with_reducible refine State.refillCells_touches_eq (by assumption) (by decide) ?_
    | with_reducible refine State.refillCells_touches (by decide) ?_
    | with_reducible refine State.fillCells_touches (by decide) ?_
    | with_reducible refine State.refillWait_touches (by decide) ?_
    | with_reducible refine Touches.addSat (by first | decide | assumption | (split <;> decide)) ?_
    | with_reducible refine Touches.addWrap (by first | decide | assumption | (split <;> decide)) ?_
    | split
    | with_reducible refine Touches.upd_sw (by decide) rfl ?_


theorem execRefill_touches {m : Nat} {s0 : State} {rivals : List (Fin 18)} {s : State} (hk : 0x400700000000000000000000000016D000000000000000000000000000000120C ||| m = m)
    (h : Touches m s0 s) : Ends m s0 (execRefill rivals s) := by
  refine Ends.step (k := 0x400700000000000000000000000016D000000000000000000000000000000120C) (t := s) ?_ hk h
  clear hk h
  unfold execRefill
  have h0 := Touches.refl 0x400700000000000000000000000016D000000000000000000000000000000120C s
  repeat' first
    | with_reducible assumption
    | (extract_lets +onlyGivenNames s'; with_reducible refine Touches.cut (t := s') ?_ ?_; subst s'; rotate_left; clear_value s'; intro hs; rotate_left)
    | (extract_lets +onlyGivenNames s'; with_reducible refine Ends.cut (t := s') ?_ ?_; subst s'; rotate_left; clear_value s'; intro hs; rotate_left)
    | with_reducible refine Ends.next ?_
    | (extract_lets +onlyGivenNames s'; first | (have _e : State → _ := s'; clear _e; subst s') | clear_value s')
    | with_reducible refine Touches.modHbm (by decide) (fun _ => rfl) ?_
    | with_reducible refine State.refillFrame_touches (by decide) ?_
    | split


theorem execRefillRetry_touches {m : Nat} {s0 : State} {queue : QueueNo} {rivals : List (Fin 18)} {s : State} (hk : 0x400700000000000000000000000016D000000000000000000000000000000120C ||| m = m)
    (h : Touches m s0 s) : Ends m s0 (execRefillRetry queue rivals s) := by
  refine Ends.step (k := 0x400700000000000000000000000016D000000000000000000000000000000120C) (t := s) ?_ hk h
  clear hk h
  unfold execRefillRetry
  have h0 := Touches.refl 0x400700000000000000000000000016D000000000000000000000000000000120C s
  repeat' first
    | with_reducible assumption
    | (extract_lets +onlyGivenNames s'; with_reducible refine Touches.cut (t := s') ?_ ?_; subst s'; rotate_left; clear_value s'; intro hs; rotate_left)
    | (extract_lets +onlyGivenNames s'; with_reducible refine Ends.cut (t := s') ?_ ?_; subst s'; rotate_left; clear_value s'; intro hs; rotate_left)
    | with_reducible refine Ends.next ?_
    | (extract_lets +onlyGivenNames s'; first | (have _e : State → _ := s'; clear _e; subst s') | clear_value s')
    | with_reducible refine State.refillFrame_touches (by decide) ?_
    | split


theorem State.trainStack_touches {m : Nat} {s0 : State} {s : State} {k : Nat} (hk : 0x400000000000000000000000000000000000000000000000000000000200 ||| m = m)
    (h : Touches m s0 s) : Touches m s0 (State.trainStack s k) := by
  refine Touches.step (k := 0x400000000000000000000000000000000000000000000000000000000200) (t := s) ?_ hk h
  clear hk h
  unfold State.trainStack
  have h0 := Touches.refl 0x400000000000000000000000000000000000000000000000000000000200 s
  repeat' first
    | with_reducible assumption
    | (extract_lets +onlyGivenNames s'; with_reducible refine Touches.cut (t := s') ?_ ?_; subst s'; rotate_left; clear_value s'; intro hs; rotate_left)
    | (extract_lets +onlyGivenNames s'; first | (have _e : State → _ := s'; clear _e; subst s') | clear_value s')
    | with_reducible refine Touches.modHbm (by decide) (fun _ => rfl) ?_
    | with_reducible refine Touches.set (by first | decide | assumption | (split <;> decide)) ?_
    | with_reducible refine Touches.addSat (by first | decide | assumption | (split <;> decide)) ?_
    | split


theorem State.stackReady_touches {m : Nat} {s0 : State} {s : State} {k : Nat} (hk : 0x1020000000000000100000000040010001004800000000000000000000000000000000000000006000000042180 ||| m = m)
    (h : Touches m s0 s) : Touches m s0 (State.stackReady s k) := by
  refine Touches.step (k := 0x1020000000000000100000000040010001004800000000000000000000000000000000000000006000000042180) (t := s) ?_ hk h
  clear hk h
  unfold State.stackReady
  have h0 := Touches.refl 0x1020000000000000100000000040010001004800000000000000000000000000000000000000006000000042180 s
  repeat' first
    | with_reducible assumption
    | (extract_lets +onlyGivenNames s'; with_reducible refine Touches.cut (t := s') ?_ ?_; subst s'; rotate_left; clear_value s'; intro hs; rotate_left)
    | (extract_lets +onlyGivenNames s'; first | (have _e : State → _ := s'; clear _e; subst s') | clear_value s')
    | with_reducible refine State.setReady_touches (by decide) ?_
    | with_reducible refine State.modTel_touches (by decide) ?_
    | with_reducible refine State.refreshFlows_touches (by decide) ?_
    | with_reducible refine State.refreshSpill_touches (by decide) ?_
    | split


theorem State.dropSpilled_touches {m : Nat} {s0 : State} {s : State} {known : Bool} {f : Nat} (hk : 0x80000000100000000040010110200000000000000000000400000000000000000000000000000060184 ||| m = m)
    (h : Touches m s0 s) : Touches m s0 (State.dropSpilled s known f) := by
  refine Touches.step (k := 0x80000000100000000040010110200000000000000000000400000000000000000000000000000060184) (t := s) ?_ hk h
  clear hk h
  unfold State.dropSpilled
  have h0 := Touches.refl 0x80000000100000000040010110200000000000000000000400000000000000000000000000000060184 s
  repeat' first
    | with_reducible assumption
    | (extract_lets +onlyGivenNames s'; with_reducible refine Touches.cut (t := s') ?_ ?_; subst s'; rotate_left; clear_value s'; intro hs; rotate_left)
    | (extract_lets +onlyGivenNames s'; first | (have _e : State → _ := s'; clear _e; subst s') | (have _e : Switch := s'; clear _e; subst s') | clear_value s')
    | with_reducible refine State.setQueue_touches (by decide) ?_
    | with_reducible refine State.countDropOf_touches (by decide) ?_
    | with_reducible refine State.refreshRecords_touches (by decide) ?_
    | with_reducible refine State.refreshSpill_touches (by decide) ?_
    | split
    | with_reducible refine Touches.upd_sw (by decide) rfl ?_


theorem State.failStack_touches {m : Nat} {s0 : State} {s : State} {k : Nat} (hk : 0x1020000080000000100000000048010511204800000000000000000400000000000000000000006000000062784 ||| m = m)
    (h : Touches m s0 s) : Touches m s0 (State.failStack s k) := by
  refine Touches.step (k := 0x1020000080000000100000000048010511204800000000000000000400000000000000000000006000000062784) (t := s) ?_ hk h
  clear hk h
  unfold State.failStack
  have h0 := Touches.refl 0x1020000080000000100000000048010511204800000000000000000400000000000000000000006000000062784 s
  repeat' first
    | with_reducible assumption
    | (extract_lets +onlyGivenNames s'; with_reducible refine Touches.cut (t := s') ?_ ?_; subst s'; rotate_left; clear_value s'; intro hs; rotate_left)
    | with_reducible refine Touches.modHbm_ring (by decide) (by decide) (fun b hw => by show memWf (if _ then [] else b.ring) = true; split <;> first | with_unfolding_all rfl | exact hw) ?_
    | (extract_lets +onlyGivenNames s'; first | (have _e : State → _ := s'; clear _e; subst s') | clear_value s')
    | with_reducible refine Touches.foldl (fun _ _ _ => ?_) ?_
    | with_reducible refine Touches.modHbm (by decide) (fun _ => rfl) ?_
    | with_reducible refine State.record_touches (by decide) ?_
    | with_reducible refine State.setReady_touches (by decide) ?_
    | with_reducible refine State.refreshFlows_touches (by decide) ?_
    | with_reducible refine State.ledgerLost_touches (by decide) ?_
    | with_reducible refine State.dropSpilled_touches (by decide) ?_
    | with_reducible refine Touches.set (by first | decide | assumption | (split <;> decide)) ?_
    | with_reducible refine Touches.raise (by first | decide | assumption | (split <;> decide)) (by decide) ?_
    | split


theorem execStackTrainingEnd_touches {m : Nat} {s0 : State} {stack : Fin 2} {ok : Bool} {repairs : Fin 256} {s : State} (hk : 0x1020000080000000100000000048010511204800000000000000000400000000000000000000006000000062784 ||| m = m)
    (h : Touches m s0 s) : Ends m s0 (execStackTrainingEnd stack ok repairs s) := by
  refine Ends.step (k := 0x1020000080000000100000000048010511204800000000000000000400000000000000000000006000000062784) (t := s) ?_ hk h
  clear hk h
  unfold execStackTrainingEnd
  have h0 := Touches.refl 0x1020000080000000100000000048010511204800000000000000000400000000000000000000006000000062784 s
  repeat' first
    | with_reducible assumption
    | (extract_lets +onlyGivenNames s'; with_reducible refine Touches.cut (t := s') ?_ ?_; subst s'; rotate_left; clear_value s'; intro hs; rotate_left)
    | (extract_lets +onlyGivenNames s'; with_reducible refine Ends.cut (t := s') ?_ ?_; subst s'; rotate_left; clear_value s'; intro hs; rotate_left)
    | with_reducible refine Ends.next ?_
    | (extract_lets +onlyGivenNames s'; first | (have _e : State → _ := s'; clear _e; subst s') | clear_value s')
    | with_reducible refine Touches.modHbm (by decide) (fun _ => rfl) ?_
    | with_reducible refine State.stackReady_touches (by decide) ?_
    | with_reducible refine State.failStack_touches (by decide) ?_
    | with_reducible refine Touches.set (by first | decide | assumption | (split <;> decide)) ?_
    | with_reducible refine Touches.addSat (by first | decide | assumption | (split <;> decide)) ?_
    | with_reducible refine Touches.raise (by first | decide | assumption | (split <;> decide)) (by decide) ?_
    | split


theorem execZeroFillDone_touches {m : Nat} {s0 : State} {stack : Fin 2} {s : State} (hk : 0x1020000000000000100000000040010001004800000000000000000000000000000000000000006000000042380 ||| m = m)
    (h : Touches m s0 s) : Ends m s0 (execZeroFillDone stack s) := by
  refine Ends.step (k := 0x1020000000000000100000000040010001004800000000000000000000000000000000000000006000000042380) (t := s) ?_ hk h
  clear hk h
  unfold execZeroFillDone
  have h0 := Touches.refl 0x1020000000000000100000000040010001004800000000000000000000000000000000000000006000000042380 s
  repeat' first
    | with_reducible assumption
    | (extract_lets +onlyGivenNames s'; with_reducible refine Touches.cut (t := s') ?_ ?_; subst s'; rotate_left; clear_value s'; intro hs; rotate_left)
    | (extract_lets +onlyGivenNames s'; with_reducible refine Ends.cut (t := s') ?_ ?_; subst s'; rotate_left; clear_value s'; intro hs; rotate_left)
    | with_reducible refine Ends.next ?_
    | (extract_lets +onlyGivenNames s'; first | (have _e : State → _ := s'; clear _e; subst s') | clear_value s')
    | with_reducible refine Touches.modHbm (by decide) (fun _ => rfl) ?_
    | with_reducible refine State.stackReady_touches (by decide) ?_
    | split


theorem execHbmRetrain_touches {m : Nat} {s0 : State} {value : Word} {s : State} (hk : 0x400000000000000000000000000000000000000000000000000000000200 ||| m = m)
    (h : Touches m s0 s) : Ends m s0 (execHbmRetrain value s) := by
  refine Ends.step (k := 0x400000000000000000000000000000000000000000000000000000000200) (t := s) ?_ hk h
  clear hk h
  unfold execHbmRetrain
  have h0 := Touches.refl 0x400000000000000000000000000000000000000000000000000000000200 s
  repeat' first
    | with_reducible assumption
    | (extract_lets +onlyGivenNames s'; with_reducible refine Touches.cut (t := s') ?_ ?_; subst s'; rotate_left; clear_value s'; intro hs; rotate_left)
    | (extract_lets +onlyGivenNames s'; with_reducible refine Ends.cut (t := s') ?_ ?_; subst s'; rotate_left; clear_value s'; intro hs; rotate_left)
    | with_reducible refine Ends.next ?_
    | (extract_lets +onlyGivenNames s'; first | (have _e : State → _ := s'; clear _e; subst s') | clear_value s')
    | with_reducible refine State.trainStack_touches (by decide) ?_
    | split


theorem execStackFail_touches {m : Nat} {s0 : State} {stack : Fin 2} {s : State} (hk : 0x1020000080000000100000000048010511204800000000000000000400000000000000000000006000000062784 ||| m = m)
    (h : Touches m s0 s) : Ends m s0 (execStackFail stack s) := by
  refine Ends.step (k := 0x1020000080000000100000000048010511204800000000000000000400000000000000000000006000000062784) (t := s) ?_ hk h
  clear hk h
  unfold execStackFail
  have h0 := Touches.refl 0x1020000080000000100000000048010511204800000000000000000400000000000000000000006000000062784 s
  repeat' first
    | with_reducible assumption
    | (extract_lets +onlyGivenNames s'; with_reducible refine Touches.cut (t := s') ?_ ?_; subst s'; rotate_left; clear_value s'; intro hs; rotate_left)
    | (extract_lets +onlyGivenNames s'; with_reducible refine Ends.cut (t := s') ?_ ?_; subst s'; rotate_left; clear_value s'; intro hs; rotate_left)
    | with_reducible refine Ends.next ?_
    | (extract_lets +onlyGivenNames s'; first | (have _e : State → _ := s'; clear _e; subst s') | clear_value s')
    | with_reducible refine State.failStack_touches (by decide) ?_
    | split


theorem execHbmActivation_touches {m : Nat} {s0 : State} {stack : Fin 2} {s : State} (hk : 0x2000000000000000000000000000000000000000000000000000000020000 ||| m = m)
    (h : Touches m s0 s) : Ends m s0 (execHbmActivation stack s) := by
  refine Ends.step (k := 0x2000000000000000000000000000000000000000000000000000000020000) (t := s) ?_ hk h
  clear hk h
  unfold execHbmActivation
  have h0 := Touches.refl 0x2000000000000000000000000000000000000000000000000000000020000 s
  repeat' first
    | with_reducible assumption
    | (extract_lets +onlyGivenNames s'; with_reducible refine Touches.cut (t := s') ?_ ?_; subst s'; rotate_left; clear_value s'; intro hs; rotate_left)
    | (extract_lets +onlyGivenNames s'; with_reducible refine Ends.cut (t := s') ?_ ?_; subst s'; rotate_left; clear_value s'; intro hs; rotate_left)
    | with_reducible refine Ends.next ?_
    | (extract_lets +onlyGivenNames s'; first | (have _e : State → _ := s'; clear _e; subst s') | clear_value s')
    | with_reducible refine State.draw_touches_eq (by assumption) (by decide) ?_
    | with_reducible refine State.draw_touches (by decide) ?_
    | with_reducible refine Touches.addSat (by first | decide | assumption | (split <;> decide)) ?_
    | split


theorem execScrub_touches {m : Nat} {s0 : State} {stack : Fin 2} {inError newer : Bool} {s : State} (hk : 0x800000000000000000000000000000000000000000000000000000001000 ||| m = m)
    (h : Touches m s0 s) : Ends m s0 (execScrub stack inError newer s) := by
  refine Ends.step (k := 0x800000000000000000000000000000000000000000000000000000001000) (t := s) ?_ hk h
  clear hk h
  unfold execScrub
  have h0 := Touches.refl 0x800000000000000000000000000000000000000000000000000000001000 s
  repeat' first
    | with_reducible assumption
    | (extract_lets +onlyGivenNames s'; with_reducible refine Touches.cut (t := s') ?_ ?_; subst s'; rotate_left; clear_value s'; intro hs; rotate_left)
    | (extract_lets +onlyGivenNames s'; with_reducible refine Ends.cut (t := s') ?_ ?_; subst s'; rotate_left; clear_value s'; intro hs; rotate_left)
    | with_reducible refine Ends.next ?_
    | (extract_lets +onlyGivenNames s'; first | (have _e : State → _ := s'; clear _e; subst s') | clear_value s')
    | with_reducible refine State.spend_touches (by decide) ?_
    | with_reducible refine Touches.addSat (by first | decide | assumption | (split <;> decide)) ?_
    | split


theorem State.loseBlock_touches {m : Nat} {s0 : State} {s : State} {b : Nat} (hk : 0x40010000000000000000000000000000000000000000000000000000000000200 ||| m = m)
    (h : Touches m s0 s) : Touches m s0 (State.loseBlock s b) := by
  refine Touches.step (k := 0x40010000000000000000000000000000000000000000000000000000000000200) (t := s) ?_ hk h
  clear hk h
  unfold State.loseBlock
  have h0 := Touches.refl 0x40010000000000000000000000000000000000000000000000000000000000200 s
  repeat' first
    | with_reducible assumption
    | (extract_lets +onlyGivenNames s'; with_reducible refine Touches.cut (t := s') ?_ ?_; subst s'; rotate_left; clear_value s'; intro hs; rotate_left)
    | (extract_lets +onlyGivenNames s'; first | (have _e : State → _ := s'; clear _e; subst s') | clear_value s')
    | with_reducible refine Touches.modHbm (by decide) (fun _ => rfl) ?_
    | with_reducible refine State.refreshSpill_touches (by decide) ?_
    | split


theorem State.serveWriteback_touches {m : Nat} {s0 : State} {s : State} {w : WriteBack} (hk : 0x4000000000000000000000000000000000000000000000000000000000000100 ||| m = m)
    (h : Touches m s0 s) : Touches m s0 (State.serveWriteback s w) := by
  refine Touches.step (k := 0x4000000000000000000000000000000000000000000000000000000000000100) (t := s) ?_ hk h
  clear hk h
  unfold State.serveWriteback
  have h0 := Touches.refl 0x4000000000000000000000000000000000000000000000000000000000000100 s
  repeat' first
    | with_reducible assumption
    | (extract_lets +onlyGivenNames s'; with_reducible refine Touches.cut (t := s') ?_ ?_; subst s'; rotate_left; clear_value s'; intro hs; rotate_left)
    | (extract_lets +onlyGivenNames s'; first | (have _e : State → _ := s'; clear _e; subst s') | clear_value s')
    | with_reducible refine State.modTel_touches (by decide) ?_
    | with_reducible refine Touches.addSat (by first | decide | assumption | (split <;> decide)) ?_
    | split


theorem State.loseEntry_touches {m : Nat} {s0 : State} {s : State} {i : Nat} (hk : 0x100000000004000080200800000000000000000000000000000000000000000000000040180 ||| m = m)
    (h : Touches m s0 s) : Touches m s0 (State.loseEntry s i) := by
  refine Touches.step (k := 0x100000000004000080200800000000000000000000000000000000000000000000000040180) (t := s) ?_ hk h
  clear hk h
  unfold State.loseEntry
  have h0 := Touches.refl 0x100000000004000080200800000000000000000000000000000000000000000000000040180 s
  repeat' first
    | with_reducible assumption
    | (extract_lets +onlyGivenNames s'; with_reducible refine Touches.cut (t := s') ?_ ?_; subst s'; rotate_left; clear_value s'; intro hs; rotate_left)
    | (extract_lets +onlyGivenNames s'; first | (have _e : State → _ := s'; clear _e; subst s') | clear_value s')
    | with_reducible refine State.modTel_touches (by decide) ?_
    | with_reducible refine State.aggAdd_touches (by decide) ?_
    | with_reducible refine State.serveWriteback_touches (by decide) ?_
    | with_reducible refine Touches.set (by first | decide | assumption | (split <;> decide)) ?_
    | with_reducible refine Touches.raise (by first | decide | assumption | (split <;> decide)) (by decide) ?_
    | split


theorem execHbmUncorr_touches {m : Nat} {s0 : State} {stack : Fin 2} {place : HbmPlace} {addr : Fin 18446744073709551616} {reported : Bool} {s : State} (hk : 0x102000008000000010000000004C010991204800000000000000000400000000000000000000000000000062384 ||| m = m)
    (h : Touches m s0 s) : Ends m s0 (execHbmUncorr stack place addr reported s) := by
  refine Ends.step (k := 0x102000008000000010000000004C010991204800000000000000000400000000000000000000000000000062384) (t := s) ?_ hk h
  clear hk h
  unfold execHbmUncorr
  have h0 := Touches.refl 0x102000008000000010000000004C010991204800000000000000000400000000000000000000000000000062384 s
  repeat' first
    | with_reducible assumption
    | (extract_lets +onlyGivenNames s'; with_reducible refine Touches.cut (t := s') ?_ ?_; subst s'; rotate_left; clear_value s'; intro hs; rotate_left)
    | (extract_lets +onlyGivenNames s'; with_reducible refine Ends.cut (t := s') ?_ ?_; subst s'; rotate_left; clear_value s'; intro hs; rotate_left)
    | with_reducible refine Ends.next ?_
    | (extract_lets +onlyGivenNames s'; first | (have _e : State → _ := s'; clear _e; subst s') | clear_value s')
    | with_reducible refine Touches.foldl (fun _ _ _ => ?_) ?_
    | with_reducible refine Touches.modHbm (by decide) (fun _ => rfl) ?_
    | with_reducible refine State.draw_touches_eq (by assumption) (by decide) ?_
    | with_reducible refine State.draw_touches (by decide) ?_
    | with_reducible refine State.recordLimited_touches (by decide) ?_
    | with_reducible refine State.modTel_touches (by decide) ?_
    | with_reducible refine State.locClear_touches (by decide) ?_
    | with_reducible refine State.refreshFlows_touches (by decide) ?_
    | with_reducible refine State.dropSpilled_touches (by decide) ?_
    | with_reducible refine State.loseBlock_touches (by decide) ?_
    | with_reducible refine State.loseEntry_touches (by decide) ?_
    | with_reducible refine Touches.addSat (by first | decide | assumption | (split <;> decide)) ?_
    | with_reducible refine Touches.raise (by first | decide | assumption | (split <;> decide)) (by decide) ?_
    | split


theorem State.ringWrite_touches {m : Nat} {s0 : State} {s : State} {off : Nat} {bytes : List Byte} (hk : 0x600 ||| m = m)
    (h : Touches m s0 s) : Touches m s0 (State.ringWrite s off bytes) := by
  refine Touches.step (k := 0x600) (t := s) ?_ hk h
  clear hk h
  unfold State.ringWrite
  have h0 := Touches.refl 0x600 s
  repeat' first
    | with_reducible assumption
    | (extract_lets +onlyGivenNames s'; with_reducible refine Touches.cut (t := s') ?_ ?_; subst s'; rotate_left; clear_value s'; intro hs; rotate_left)
    | with_reducible refine Touches.modHbm_ring (by decide) (by decide) (fun b hw => memWf_memWrite _ _ _ hw) ?_
    | (extract_lets +onlyGivenNames s'; first | (have _e : State → _ := s'; clear _e; subst s') | clear_value s')
    | with_reducible refine Touches.modHbm (by decide) (fun _ => rfl) ?_
    | split


theorem execCaptureWrite_touches {m : Nat} {s0 : State} {s : State} (hk : 0x10200000800000001000000000085001102000000000000000000E06D0000000000000000000000000002063784 ||| m = m)
    (h : Touches m s0 s) : Ends m s0 (execCaptureWrite s) := by
  refine Ends.step (k := 0x10200000800000001000000000085001102000000000000000000E06D0000000000000000000000000002063784) (t := s) ?_ hk h
  clear hk h
  unfold execCaptureWrite
  have h0 := Touches.refl 0x10200000800000001000000000085001102000000000000000000E06D0000000000000000000000000002063784 s
  repeat' first
    | with_reducible assumption
    | (extract_lets +onlyGivenNames s'; with_reducible refine Touches.cut (t := s') ?_ ?_; subst s'; rotate_left; clear_value s'; intro hs; rotate_left)
    | (extract_lets +onlyGivenNames s'; with_reducible refine Ends.cut (t := s') ?_ ?_; subst s'; rotate_left; clear_value s'; intro hs; rotate_left)
    | with_reducible refine Ends.next ?_
    | (extract_lets +onlyGivenNames s'; first | (have _e : State → _ := s'; clear _e; subst s') | clear_value s')
    | with_reducible refine Touches.modHbm (by decide) (fun _ => rfl) ?_
    | with_reducible refine State.spend_touches (by decide) ?_
    | with_reducible refine State.copyDone_touches (by decide) ?_
    | with_reducible refine State.dropHead_touches (by decide) ?_
    | with_reducible refine State.staleDrop_touches (by decide) ?_
    | with_reducible refine State.delayFate_touches (by decide) ?_
    | with_reducible refine State.ringWrite_touches (by decide) ?_
    | with_reducible refine Touches.set (by first | decide | assumption | (split <;> decide)) ?_
    | with_reducible refine Touches.addSat (by first | decide | assumption | (split <;> decide)) ?_
    | with_reducible refine Touches.addWrap (by first | decide | assumption | (split <;> decide)) ?_
    | with_reducible refine Touches.raise (by first | decide | assumption | (split <;> decide)) (by decide) ?_
    | split


theorem State.captureRelease_touches {m : Nat} {s0 : State} {s : State} {off : Nat} (hk : 0x200000000000000000000000000000000000000000000000000000000000200 ||| m = m)
    (h : Touches m s0 s) : Touches m s0 (State.captureRelease s off) := by
  refine Touches.step (k := 0x200000000000000000000000000000000000000000000000000000000000200) (t := s) ?_ hk h
  clear hk h
  unfold State.captureRelease
  have h0 := Touches.refl 0x200000000000000000000000000000000000000000000000000000000000200 s
  repeat' first
    | with_reducible assumption
    | (extract_lets +onlyGivenNames s'; with_reducible refine Touches.cut (t := s') ?_ ?_; subst s'; rotate_left; clear_value s'; intro hs; rotate_left)
    | (extract_lets +onlyGivenNames s'; first | (have _e : State → _ := s'; clear _e; subst s') | clear_value s')
    | with_reducible refine Touches.modHbm (by decide) (fun _ => rfl) ?_
    | with_reducible refine Touches.set (by first | decide | assumption | (split <;> decide)) ?_
    | split


theorem execCaptureCopy_touches {m : Nat} {s0 : State} {write : FnWrite} {s : State} (hk : 0x2000000000000000000000000000000000000000000000000000000000000200 ||| m = m)
    (h : Touches m s0 s) : Ends m s0 (execCaptureCopy write s) := by
  refine Ends.step (k := 0x2000000000000000000000000000000000000000000000000000000000000200) (t := s) ?_ hk h
  clear hk h
  unfold execCaptureCopy
  have h0 := Touches.refl 0x2000000000000000000000000000000000000000000000000000000000000200 s
  repeat' first
    | with_reducible assumption
    | (extract_lets +onlyGivenNames s'; with_reducible refine Touches.cut (t := s') ?_ ?_; subst s'; rotate_left; clear_value s'; intro hs; rotate_left)
    | (extract_lets +onlyGivenNames s'; with_reducible refine Ends.cut (t := s') ?_ ?_; subst s'; rotate_left; clear_value s'; intro hs; rotate_left)
    | with_reducible refine Ends.next ?_
    | (extract_lets +onlyGivenNames s'; first | (have _e : State → _ := s'; clear _e; subst s') | clear_value s')
    | with_reducible refine Touches.modHbm (by decide) (fun _ => rfl) ?_
    | with_reducible refine Touches.set (by first | decide | assumption | (split <;> decide)) ?_
    | split


theorem execCaptureCopyDone_touches {m : Nat} {s0 : State} {dmaError : Bool} {s : State} (hk : 0x10000000000A000000000000000000000000000000000000000000000000000000000040080 ||| m = m)
    (h : Touches m s0 s) : Ends m s0 (execCaptureCopyDone dmaError s) := by
  refine Ends.step (k := 0x10000000000A000000000000000000000000000000000000000000000000000000000040080) (t := s) ?_ hk h
  clear hk h
  unfold execCaptureCopyDone
  have h0 := Touches.refl 0x10000000000A000000000000000000000000000000000000000000000000000000000040080 s
  repeat' first
    | with_reducible assumption
    | (extract_lets +onlyGivenNames s'; with_reducible refine Touches.cut (t := s') ?_ ?_; subst s'; rotate_left; clear_value s'; intro hs; rotate_left)
    | (extract_lets +onlyGivenNames s'; with_reducible refine Ends.cut (t := s') ?_ ?_; subst s'; rotate_left; clear_value s'; intro hs; rotate_left)
    | with_reducible refine Ends.next ?_
    | (extract_lets +onlyGivenNames s'; first | (have _e : State → _ := s'; clear _e; subst s') | clear_value s')
    | with_reducible refine Touches.set (by first | decide | assumption | (split <;> decide)) ?_
    | with_reducible refine Touches.emit (by decide) ?_
    | with_reducible refine Touches.raise (by first | decide | assumption | (split <;> decide)) (by decide) ?_
    | split


end Sys2Proof.Machine
end

