-- ==== Sys2Proof/Laws/TouchesExporter.lean ====
section
/-!
SUPPORT. What the operations of Exporter.lean can touch.
-/

namespace Sys2Proof.Machine

set_option linter.all false

theorem State.injectCells_touches {m : Nat} {s0 : State} {s : State} {n : Nat} {z0 : List Nat} {z1 : List Nat} (hk : 0x1000000000000000000000000000000000000812D0000000000000000000000000000040084 ||| m = m)
    (h : Touches m s0 s) : Touches m s0 (State.injectCells s n z0 z1).2.2 := by
  refine Touches.step (k := 0x1000000000000000000000000000000000000812D0000000000000000000000000000040084) (t := s) ?_ hk h
  clear hk h
  have h0 := Touches.refl 0x1000000000000000000000000000000000000812D0000000000000000000000000000040084 s
  suffices key : ∀ a, Touches 0x1000000000000000000000000000000000000812D0000000000000000000000000000040084 a s → Touches 0x1000000000000000000000000000000000000812D0000000000000000000000000000040084 a (State.injectCells s n z0 z1).2.2 from key _ h0
  clear h0
  intro a h0
  induction z0 generalizing s z1 with
  | nil => unfold State.injectCells; exact h0
  | cons x xs ih =>
    unfold State.injectCells
    repeat' first
      | with_reducible assumption
      | with_reducible refine ih ?_
      | (extract_lets +onlyGivenNames s'; with_reducible refine Touches.cut (t := s') ?_ ?_; subst s'; rotate_left; clear_value s'; intro hs; rotate_left)
      | (extract_lets +onlyGivenNames s'; first | (have _e : State → _ := s'; clear _e; subst s') | clear_value s')
      | with_reducible refine State.requestSegment_touches_eq (by assumption) (by decide) ?_
      | with_reducible refine State.requestSegment_touches (by decide) ?_
      | with_reducible refine State.chargeLease_touches (by decide) ?_
      | with_reducible refine State.returnCells_touches (by decide) ?_
      | with_reducible refine Touches.raise (by first | decide | assumption | (split <;> decide)) (by decide) ?_
      | split

theorem State.injectCells_touches_eq {m : Nat} {s0 t₁ : State} {s : State} {n : Nat} {z0 : List Nat} {z1 : List Nat} {a₁ : Option (List Nat)} {b₁ : Nat} (e₁ : State.injectCells s n z0 z1 = (a₁, b₁, t₁))
    (hk : 0x1000000000000000000000000000000000000812D0000000000000000000000000000040084 ||| m = m) (h : Touches m s0 s) : Touches m s0 t₁ := Touches.thd e₁ (State.injectCells_touches hk h)


theorem State.layBytes_touches {m : Nat} {s0 : State} {s : State} {z0 : List Nat} {z1 : List Byte} (hk : 0xC ||| m = m)
    (h : Touches m s0 s) : Touches m s0 (State.layBytes s z0 z1) := by
  refine Touches.step (k := 0xC) (t := s) ?_ hk h
  clear hk h
  have h0 := Touches.refl 0xC s
  suffices key : ∀ a, Touches 0xC a s → Touches 0xC a (State.layBytes s z0 z1) from key _ h0
  clear h0
  intro a h0
  induction z0 generalizing s z1 with
  | nil => unfold State.layBytes; exact h0
  | cons x xs ih =>
    unfold State.layBytes
    repeat' first
      | with_reducible assumption
      | with_reducible refine ih ?_
      | (extract_lets +onlyGivenNames s'; with_reducible refine Touches.cut (t := s') ?_ ?_; subst s'; rotate_left; clear_value s'; intro hs; rotate_left)
      | with_reducible refine Touches.upd_mem (by decide) (by decide) rfl ?_
      | (extract_lets +onlyGivenNames s'; first | (have _e : State → _ := s'; clear _e; subst s') | (have _e : Switch := s'; clear _e; subst s') | clear_value s')
      | split
      | with_reducible refine Touches.upd_sw (by decide) rfl ?_
      | with_reducible refine Touches.upd_mem (by decide) (by decide) rfl ?_


theorem State.enqueueOwn_touches {m : Nat} {s0 : State} {s : State} {n q : Nat} {bytes : List Byte} (hk : 0x10200000800000001000000000000001102000000000008000000E3ED000000002000000000000000000206338C ||| m = m)
    (h : Touches m s0 s) : Touches m s0 (State.enqueueOwn s n q bytes).2 := by
  refine Touches.step (k := 0x10200000800000001000000000000001102000000000008000000E3ED000000002000000000000000000206338C) (t := s) ?_ hk h
  clear hk h
  unfold State.enqueueOwn
  have h0 := Touches.refl 0x10200000800000001000000000000001102000000000008000000E3ED000000002000000000000000000206338C s
  repeat' first
    | with_reducible assumption
    | (extract_lets +onlyGivenNames s'; with_reducible refine Touches.cut (t := s') ?_ ?_; subst s'; rotate_left; clear_value s'; intro hs; rotate_left)
    | (extract_lets +onlyGivenNames s'; first | (have _e : State → _ := s'; clear _e; subst s') | (have _e : Switch := s'; clear _e; subst s') | clear_value s')
    | with_reducible refine State.putPacket_touches (by decide) ?_
    | with_reducible refine State.countDropOf_touches (by decide) ?_
    | with_reducible refine State.admitAll_touches_eq (by assumption) (by decide) ?_
    | with_reducible refine State.admitAll_touches (by decide) ?_
    | with_reducible refine State.refuseFrame_touches (by decide) ?_
    | with_reducible refine State.admitFrame_touches (by decide) ?_
    | with_reducible refine State.goodVerdict_touches (by decide) ?_
    | with_reducible refine State.injectCells_touches_eq (by assumption) (by decide) ?_
    | with_reducible refine State.injectCells_touches (by decide) ?_
    | with_reducible refine State.layBytes_touches (by decide) ?_
    | split
    | with_reducible refine Touches.upd_sw (by decide) rfl ?_

theorem State.enqueueOwn_touches_eq {m : Nat} {s0 t₁ : State} {s : State} {n q : Nat} {bytes : List Byte} {a₁ : Bool} (e₁ : State.enqueueOwn s n q bytes = (a₁, t₁))
    (hk : 0x10200000800000001000000000000001102000000000008000000E3ED000000002000000000000000000206338C ||| m = m) (h : Touches m s0 s) : Touches m s0 t₁ := Touches.snd e₁ (State.enqueueOwn_touches hk h)


theorem State.sendMessage_touches {m : Nat} {s0 : State} {s : State} {n : Nat} {msg : List Byte} (hk : 0x10200000802000001000000000000001102000000000008000000E3ED000000002000000000000000000206338C ||| m = m)
    (h : Touches m s0 s) : Touches m s0 (State.sendMessage s n msg).2 := by
  refine Touches.step (k := 0x10200000802000001000000000000001102000000000008000000E3ED000000002000000000000000000206338C) (t := s) ?_ hk h
  clear hk h
  unfold State.sendMessage
  have h0 := Touches.refl 0x10200000802000001000000000000001102000000000008000000E3ED000000002000000000000000000206338C s
  repeat' first
    | with_reducible assumption
    | (extract_lets +onlyGivenNames s'; with_reducible refine Touches.cut (t := s') ?_ ?_; subst s'; rotate_left; clear_value s'; intro hs; rotate_left)
    | (extract_lets +onlyGivenNames s'; first | (have _e : State → _ := s'; clear _e; subst s') | clear_value s')
    | with_reducible refine State.tlmPut_touches_eq (by assumption) (by decide) ?_
    | with_reducible refine State.tlmPut_touches (by decide) ?_
    | with_reducible refine State.enqueueOwn_touches_eq (by assumption) (by decide) ?_
    | with_reducible refine State.enqueueOwn_touches (by decide) ?_
    | split

theorem State.sendMessage_touches_eq {m : Nat} {s0 t₁ : State} {s : State} {n : Nat} {msg : List Byte} {a₁ : Bool} (e₁ : State.sendMessage s n msg = (a₁, t₁))
    (hk : 0x10200000802000001000000000000001102000000000008000000E3ED000000002000000000000000000206338C ||| m = m) (h : Touches m s0 s) : Touches m s0 t₁ := Touches.snd e₁ (State.sendMessage_touches hk h)


theorem execExportMessageClose_touches {m : Nat} {s0 : State} {troupe : TroupeNo} {s : State} (hk : 0x10200000802000001000000000000001302000000000008000000E3ED000000002000000000000000000206338C ||| m = m)
    (h : Touches m s0 s) : Ends m s0 (execExportMessageClose troupe s) := by
  refine Ends.step (k := 0x10200000802000001000000000000001302000000000008000000E3ED000000002000000000000000000206338C) (t := s) ?_ hk h
  clear hk h
  unfold execExportMessageClose
  have h0 := Touches.refl 0x10200000802000001000000000000001302000000000008000000E3ED000000002000000000000000000206338C s
  repeat' first
    | with_reducible assumption
    | (extract_lets +onlyGivenNames s'; with_reducible refine Touches.cut (t := s') ?_ ?_; subst s'; rotate_left; clear_value s'; intro hs; rotate_left)
    | (extract_lets +onlyGivenNames s'; with_reducible refine Ends.cut (t := s') ?_ ?_; subst s'; rotate_left; clear_value s'; intro hs; rotate_left)
    | with_reducible refine Ends.next ?_
    | (extract_lets +onlyGivenNames s'; first | (have _e : State → _ := s'; clear _e; subst s') | clear_value s')
    | with_reducible refine State.putStream_touches (by decide) ?_
    | with_reducible refine State.exportLost_touches (by decide) ?_
    | with_reducible refine State.sendMessage_touches_eq (by assumption) (by decide) ?_
    | with_reducible refine State.sendMessage_touches (by decide) ?_
    | with_reducible refine Touches.addSat (by first | decide | assumption | (split <;> decide)) ?_
    | with_reducible refine Touches.addWrap (by first | decide | assumption | (split <;> decide)) ?_
    | split


theorem execTemplateResend_touches {m : Nat} {s0 : State} {troupe : TroupeNo} {s : State} (hk : 0x10200000802000001000000000000001102000000000008000000E3ED000000002000000000000000000206338C ||| m = m)
    (h : Touches m s0 s) : Ends m s0 (execTemplateResend troupe s) := by
  refine Ends.step (k := 0x10200000802000001000000000000001102000000000008000000E3ED000000002000000000000000000206338C) (t := s) ?_ hk h
  clear hk h
  unfold execTemplateResend
  have h0 := Touches.refl 0x10200000802000001000000000000001102000000000008000000E3ED000000002000000000000000000206338C s
  repeat' first
    | with_reducible assumption
    | (extract_lets +onlyGivenNames s'; with_reducible refine Touches.cut (t := s') ?_ ?_; subst s'; rotate_left; clear_value s'; intro hs; rotate_left)
    | (extract_lets +onlyGivenNames s'; with_reducible refine Ends.cut (t := s') ?_ ?_; subst s'; rotate_left; clear_value s'; intro hs; rotate_left)
    | with_reducible refine Ends.next ?_
    | (extract_lets +onlyGivenNames s'; first | (have _e : State → _ := s'; clear _e; subst s') | clear_value s')
    | with_reducible refine State.putStream_touches (by decide) ?_
    | with_reducible refine State.sendMessage_touches_eq (by assumption) (by decide) ?_
    | with_reducible refine State.sendMessage_touches (by decide) ?_
    | split


end Sys2Proof.Machine
end

