-- ==== Sys2Proof/Laws/TouchesTime.lean ====
section
/-!
SUPPORT. What the operations of Time.lean can touch.
-/

namespace Sys2Proof.Machine

set_option linter.all false

theorem State.modTim_touches {m : Nat} {s0 : State} {s : State} {f : TimeBlock → TimeBlock} (hk : 0x20 ||| m = m)
    (h : Touches m s0 s) : Touches m s0 (State.modTim s f) := by
  refine Touches.step (k := 0x20) (t := s) ?_ hk h
  clear hk h
  unfold State.modTim
  have h0 := Touches.refl 0x20 s
  repeat' first
    | with_reducible assumption
    | (extract_lets +onlyGivenNames s'; with_reducible refine Touches.cut (t := s') ?_ ?_; subst s'; rotate_left; clear_value s'; intro hs; rotate_left)
    | (extract_lets +onlyGivenNames s'; first | (have _e : State → _ := s'; clear _e; subst s') | (have _e : TimeBlock := s'; clear _e; subst s') | clear_value s')
    | split
    | with_reducible refine Touches.upd_tim (by decide) ?_


theorem State.setRate_touches {m : Nat} {s0 : State} {s : State} {rate : Int} (hk : 0x800000000000000000000000000000000000000000000020 ||| m = m)
    (h : Touches m s0 s) : Touches m s0 (State.setRate s rate) := by
  refine Touches.step (k := 0x800000000000000000000000000000000000000000000020) (t := s) ?_ hk h
  clear hk h
  unfold State.setRate
  have h0 := Touches.refl 0x800000000000000000000000000000000000000000000020 s
  repeat' first
    | with_reducible assumption
    | (extract_lets +onlyGivenNames s'; with_reducible refine Touches.cut (t := s') ?_ ?_; subst s'; rotate_left; clear_value s'; intro hs; rotate_left)
    | (extract_lets +onlyGivenNames s'; first | (have _e : State → _ := s'; clear _e; subst s') | clear_value s')
    | with_reducible refine State.modTim_touches (by decide) ?_
    | with_reducible refine Touches.set (by first | decide | assumption | (split <;> decide)) ?_
    | split


theorem State.refreshUnsynced_touches {m : Nat} {s0 : State} {s : State} (hk : 0x2000000000000000000000000000000000000000000000000000 ||| m = m)
    (h : Touches m s0 s) : Touches m s0 (State.refreshUnsynced s) := by
  refine Touches.step (k := 0x2000000000000000000000000000000000000000000000000000) (t := s) ?_ hk h
  clear hk h
  unfold State.refreshUnsynced
  have h0 := Touches.refl 0x2000000000000000000000000000000000000000000000000000 s
  repeat' first
    | with_reducible assumption
    | (extract_lets +onlyGivenNames s'; with_reducible refine Touches.cut (t := s') ?_ ?_; subst s'; rotate_left; clear_value s'; intro hs; rotate_left)
    | (extract_lets +onlyGivenNames s'; first | (have _e : State → _ := s'; clear _e; subst s') | clear_value s')
    | with_reducible refine Touches.foldl (fun _ _ _ => ?_) ?_
    | with_reducible refine State.refreshWin_touches (by decide) ?_
    | split


theorem State.enterServo_touches {m : Nat} {s0 : State} {s : State} {new : Nat} (hk : 0x10200000000000001000000000000000000000022008100000000000000000000000000000000060000000420A0 ||| m = m)
    (h : Touches m s0 s) : Touches m s0 (State.enterServo s new) := by
  refine Touches.step (k := 0x10200000000000001000000000000000000000022008100000000000000000000000000000000060000000420A0) (t := s) ?_ hk h
  clear hk h
  unfold State.enterServo
  have h0 := Touches.refl 0x10200000000000001000000000000000000000022008100000000000000000000000000000000060000000420A0 s
  repeat' first
    | with_reducible assumption
    | (extract_lets +onlyGivenNames s'; with_reducible refine Touches.cut (t := s') ?_ ?_; subst s'; rotate_left; clear_value s'; intro hs; rotate_left)
    | (extract_lets +onlyGivenNames s'; first | (have _e : State → _ := s'; clear _e; subst s') | clear_value s')
    | with_reducible refine State.record_touches (by decide) ?_
    | with_reducible refine State.setReady_touches (by decide) ?_
    | with_reducible refine State.modTim_touches (by decide) ?_
    | with_reducible refine State.setRate_touches (by decide) ?_
    | with_reducible refine State.refreshUnsynced_touches (by decide) ?_
    | with_reducible refine Touches.set (by first | decide | assumption | (split <;> decide)) ?_
    | with_reducible refine Touches.raise (by first | decide | assumption | (split <;> decide)) (by decide) ?_
    | split


theorem State.timeStep_touches {m : Nat} {s0 : State} {s : State} {units : Int} (hk : 0x10200000000000001000000000000000000000022000100000000000000000000000000000000000000000420A4 ||| m = m)
    (h : Touches m s0 s) : Touches m s0 (State.timeStep s units) := by
  refine Touches.step (k := 0x10200000000000001000000000000000000000022000100000000000000000000000000000000000000000420A4) (t := s) ?_ hk h
  clear hk h
  unfold State.timeStep
  have h0 := Touches.refl 0x10200000000000001000000000000000000000022000100000000000000000000000000000000000000000420A4 s
  repeat' first
    | with_reducible assumption
    | (extract_lets +onlyGivenNames s'; with_reducible refine Touches.cut (t := s') ?_ ?_; subst s'; rotate_left; clear_value s'; intro hs; rotate_left)
    | (extract_lets +onlyGivenNames s'; first | (have _e : State → _ := s'; clear _e; subst s') | clear_value s')
    | with_reducible refine Touches.foldl (fun _ _ _ => ?_) ?_
    | with_reducible refine State.record_touches (by decide) ?_
    | with_reducible refine State.modPort_touches (by decide) ?_
    | with_reducible refine State.bankSwitch_touches (by decide) ?_
    | with_reducible refine State.modTim_touches (by decide) ?_
    | with_reducible refine Touches.set (by first | decide | assumption | (split <;> decide)) ?_
    | with_reducible refine Touches.addSat (by first | decide | assumption | (split <;> decide)) ?_
    | with_reducible refine Touches.raise (by first | decide | assumption | (split <;> decide)) (by decide) ?_
    | split


theorem State.timePair_touches {m : Nat} {s0 : State} {s : State} {rate step : Int} (hk : 0x10200000000000001000000000000000000000022018100000000000000000000000000000000060000000420A4 ||| m = m)
    (h : Touches m s0 s) : Touches m s0 (State.timePair s rate step) := by
  refine Touches.step (k := 0x10200000000000001000000000000000000000022018100000000000000000000000000000000060000000420A4) (t := s) ?_ hk h
  clear hk h
  unfold State.timePair
  have h0 := Touches.refl 0x10200000000000001000000000000000000000022018100000000000000000000000000000000060000000420A4 s
  repeat' first
    | with_reducible assumption
    | (extract_lets +onlyGivenNames s'; with_reducible refine Touches.cut (t := s') ?_ ?_; subst s'; rotate_left; clear_value s'; intro hs; rotate_left)
    | (extract_lets +onlyGivenNames s'; first | (have _e : State → _ := s'; clear _e; subst s') | clear_value s')
    | with_reducible refine State.modTim_touches (by decide) ?_
    | with_reducible refine State.setRate_touches (by decide) ?_
    | with_reducible refine State.enterServo_touches (by decide) ?_
    | with_reducible refine State.timeStep_touches (by decide) ?_
    | with_reducible refine Touches.set (by first | decide | assumption | (split <;> decide)) ?_
    | split


theorem State.servo_touches {m : Nat} {s0 : State} {s : State} {e : Int} (hk : 0x10200000000000001000000000000000000000022108100000000000000000000000000000000060000000420A4 ||| m = m)
    (h : Touches m s0 s) : Touches m s0 (State.servo s e) := by
  refine Touches.step (k := 0x10200000000000001000000000000000000000022108100000000000000000000000000000000060000000420A4) (t := s) ?_ hk h
  clear hk h
  unfold State.servo
  have h0 := Touches.refl 0x10200000000000001000000000000000000000022108100000000000000000000000000000000060000000420A4 s
  repeat' first
    | with_reducible assumption
    | (extract_lets +onlyGivenNames s'; with_reducible refine Touches.cut (t := s') ?_ ?_; subst s'; rotate_left; clear_value s'; intro hs; rotate_left)
    | (extract_lets +onlyGivenNames s'; first | (have _e : State → _ := s'; clear _e; subst s') | clear_value s')
    | with_reducible refine State.modTim_touches (by decide) ?_
    | with_reducible refine State.setRate_touches (by decide) ?_
    | with_reducible refine State.enterServo_touches (by decide) ?_
    | with_reducible refine State.timeStep_touches (by decide) ?_
    | with_reducible refine Touches.set (by first | decide | assumption | (split <;> decide)) ?_
    | with_reducible refine Touches.addSat (by first | decide | assumption | (split <;> decide)) ?_
    | split


theorem execTimeSnapshot_touches {m : Nat} {s0 : State} {fn : FnNo} {s : State} (hk : 0x20 ||| m = m)
    (h : Touches m s0 s) : Ends m s0 (execTimeSnapshot fn s) := by
  refine Ends.step (k := 0x20) (t := s) ?_ hk h
  clear hk h
  unfold execTimeSnapshot
  have h0 := Touches.refl 0x20 s
  repeat' first
    | with_reducible assumption
    | (extract_lets +onlyGivenNames s'; with_reducible refine Touches.cut (t := s') ?_ ?_; subst s'; rotate_left; clear_value s'; intro hs; rotate_left)
    | (extract_lets +onlyGivenNames s'; with_reducible refine Ends.cut (t := s') ?_ ?_; subst s'; rotate_left; clear_value s'; intro hs; rotate_left)
    | with_reducible refine Ends.next ?_
    | (extract_lets +onlyGivenNames s'; first | (have _e : State → _ := s'; clear _e; subst s') | clear_value s')
    | with_reducible refine State.modTim_touches (by decide) ?_
    | split


theorem State.servoSample_touches {m : Nat} {s0 : State} {s : State} {value : Word} (hk : 0x10200000000000001000000000000000000000022108100000000000000000000000000000000060000000420A4 ||| m = m)
    (h : Touches m s0 s) : Touches m s0 (State.servoSample s value) := by
  refine Touches.step (k := 0x10200000000000001000000000000000000000022108100000000000000000000000000000000060000000420A4) (t := s) ?_ hk h
  clear hk h
  unfold State.servoSample
  have h0 := Touches.refl 0x10200000000000001000000000000000000000022108100000000000000000000000000000000060000000420A4 s
  repeat' first
    | with_reducible assumption
    | (extract_lets +onlyGivenNames s'; with_reducible refine Touches.cut (t := s') ?_ ?_; subst s'; rotate_left; clear_value s'; intro hs; rotate_left)
    | (extract_lets +onlyGivenNames s'; first | (have _e : State → _ := s'; clear _e; subst s') | clear_value s')
    | with_reducible refine State.servo_touches (by decide) ?_
    | with_reducible refine Touches.addSat (by first | decide | assumption | (split <;> decide)) ?_
    | split


theorem execServoSample_touches {m : Nat} {s0 : State} {value : Word} {s : State} (hk : 0x10200000000000001000000000000000000000022108100000000000000000000000000000000060000000420A4 ||| m = m)
    (h : Touches m s0 s) : Ends m s0 (execServoSample value s) := by
  refine Ends.step (k := 0x10200000000000001000000000000000000000022108100000000000000000000000000000000060000000420A4) (t := s) ?_ hk h
  clear hk h
  unfold execServoSample
  have h0 := Touches.refl 0x10200000000000001000000000000000000000022108100000000000000000000000000000000060000000420A4 s
  repeat' first
    | with_reducible assumption
    | (extract_lets +onlyGivenNames s'; with_reducible refine Touches.cut (t := s') ?_ ?_; subst s'; rotate_left; clear_value s'; intro hs; rotate_left)
    | (extract_lets +onlyGivenNames s'; with_reducible refine Ends.cut (t := s') ?_ ?_; subst s'; rotate_left; clear_value s'; intro hs; rotate_left)
    | with_reducible refine Ends.next ?_
    | (extract_lets +onlyGivenNames s'; first | (have _e : State → _ := s'; clear _e; subst s') | clear_value s')
    | with_reducible refine State.servoSample_touches (by decide) ?_
    | split


theorem execPpsEdge_touches {m : Nat} {s0 : State} {rising : Bool} {phase : Fin 4} {s : State} (hk : 0x10200000000000001000000000000000000000022309500000000000000000000000000000000060000000420A4 ||| m = m)
    (h : Touches m s0 s) : Ends m s0 (execPpsEdge rising phase s) := by
  refine Ends.step (k := 0x10200000000000001000000000000000000000022309500000000000000000000000000000000060000000420A4) (t := s) ?_ hk h
  clear hk h
  unfold execPpsEdge
  have h0 := Touches.refl 0x10200000000000001000000000000000000000022309500000000000000000000000000000000060000000420A4 s
  repeat' first
    | with_reducible assumption
    | (extract_lets +onlyGivenNames s'; with_reducible refine Touches.cut (t := s') ?_ ?_; subst s'; rotate_left; clear_value s'; intro hs; rotate_left)
    | (extract_lets +onlyGivenNames s'; with_reducible refine Ends.cut (t := s') ?_ ?_; subst s'; rotate_left; clear_value s'; intro hs; rotate_left)
    | with_reducible refine Ends.next ?_
    | (extract_lets +onlyGivenNames s'; first | (have _e : State → _ := s'; clear _e; subst s') | clear_value s')
    | with_reducible refine State.modTim_touches (by decide) ?_
    | with_reducible refine State.servo_touches (by decide) ?_
    | with_reducible refine Touches.set (by first | decide | assumption | (split <;> decide)) ?_
    | split


theorem execPpsMissed_touches {m : Nat} {s0 : State} {s : State} (hk : 0x1000000000000000000000002200000000000000000000000000000000000000000000400A0 ||| m = m)
    (h : Touches m s0 s) : Ends m s0 (execPpsMissed s) := by
  refine Ends.step (k := 0x1000000000000000000000002200000000000000000000000000000000000000000000400A0) (t := s) ?_ hk h
  clear hk h
  unfold execPpsMissed
  have h0 := Touches.refl 0x1000000000000000000000002200000000000000000000000000000000000000000000400A0 s
  repeat' first
    | with_reducible assumption
    | (extract_lets +onlyGivenNames s'; with_reducible refine Touches.cut (t := s') ?_ ?_; subst s'; rotate_left; clear_value s'; intro hs; rotate_left)
    | (extract_lets +onlyGivenNames s'; with_reducible refine Ends.cut (t := s') ?_ ?_; subst s'; rotate_left; clear_value s'; intro hs; rotate_left)
    | with_reducible refine Ends.next ?_
    | (extract_lets +onlyGivenNames s'; first | (have _e : State → _ := s'; clear _e; subst s') | clear_value s')
    | with_reducible refine State.modTim_touches (by decide) ?_
    | with_reducible refine Touches.addSat (by first | decide | assumption | (split <;> decide)) ?_
    | with_reducible refine Touches.raise (by first | decide | assumption | (split <;> decide)) (by decide) ?_
    | split


theorem execServoTimeout_touches {m : Nat} {s0 : State} {s : State} (hk : 0x10200000000000001000000000000000000000022008100000000000000000000000000000000060000000420A0 ||| m = m)
    (h : Touches m s0 s) : Ends m s0 (execServoTimeout s) := by
  refine Ends.step (k := 0x10200000000000001000000000000000000000022008100000000000000000000000000000000060000000420A0) (t := s) ?_ hk h
  clear hk h
  unfold execServoTimeout
  have h0 := Touches.refl 0x10200000000000001000000000000000000000022008100000000000000000000000000000000060000000420A0 s
  repeat' first
    | with_reducible assumption
    | (extract_lets +onlyGivenNames s'; with_reducible refine Touches.cut (t := s') ?_ ?_; subst s'; rotate_left; clear_value s'; intro hs; rotate_left)
    | (extract_lets +onlyGivenNames s'; with_reducible refine Ends.cut (t := s') ?_ ?_; subst s'; rotate_left; clear_value s'; intro hs; rotate_left)
    | with_reducible refine Ends.next ?_
    | (extract_lets +onlyGivenNames s'; first | (have _e : State → _ := s'; clear _e; subst s') | clear_value s')
    | with_reducible refine State.enterServo_touches (by decide) ?_
    | split


theorem execHoldoverExpiry_touches {m : Nat} {s0 : State} {s : State} (hk : 0x10200000000000001000000000000000000000022008100000000000000000000000000000000060000000420A0 ||| m = m)
    (h : Touches m s0 s) : Ends m s0 (execHoldoverExpiry s) := by
  refine Ends.step (k := 0x10200000000000001000000000000000000000022008100000000000000000000000000000000060000000420A0) (t := s) ?_ hk h
  clear hk h
  unfold execHoldoverExpiry
  have h0 := Touches.refl 0x10200000000000001000000000000000000000022008100000000000000000000000000000000060000000420A0 s
  repeat' first
    | with_reducible assumption
    | (extract_lets +onlyGivenNames s'; with_reducible refine Touches.cut (t := s') ?_ ?_; subst s'; rotate_left; clear_value s'; intro hs; rotate_left)
    | (extract_lets +onlyGivenNames s'; with_reducible refine Ends.cut (t := s') ?_ ?_; subst s'; rotate_left; clear_value s'; intro hs; rotate_left)
    | with_reducible refine Ends.next ?_
    | (extract_lets +onlyGivenNames s'; first | (have _e : State → _ := s'; clear _e; subst s') | clear_value s')
    | with_reducible refine State.enterServo_touches (by decide) ?_
    | split


theorem State.writeServoCfg_touches {m : Nat} {s0 : State} {s : State} {value : Word} (hk : 0x2000000000000000000000000000000000000000000000000 ||| m = m)
    (h : Touches m s0 s) : Touches m s0 (State.writeServoCfg s value) := by
  refine Touches.step (k := 0x2000000000000000000000000000000000000000000000000) (t := s) ?_ hk h
  clear hk h
  unfold State.writeServoCfg
  have h0 := Touches.refl 0x2000000000000000000000000000000000000000000000000 s
  repeat' first
    | with_reducible assumption
    | (extract_lets +onlyGivenNames s'; with_reducible refine Touches.cut (t := s') ?_ ?_; subst s'; rotate_left; clear_value s'; intro hs; rotate_left)
    | (extract_lets +onlyGivenNames s'; first | (have _e : State → _ := s'; clear _e; subst s') | clear_value s')
    | with_reducible refine Touches.foldl_mem (fun s'' f'' hf'' hs'' => ?_) ?_
    | with_reducible refine Touches.foldl (fun _ _ _ => ?_) ?_
    | with_reducible refine Touches.set (by first | decide | (clear hs''; revert f''; decide)) ?_
    | split


theorem execServoDisable_touches {m : Nat} {s0 : State} {value : Word} {s : State} (hk : 0x10200000000000001000000000000000000000022028100000000000000000000000000000000060000000420A0 ||| m = m)
    (h : Touches m s0 s) : Ends m s0 (execServoDisable value s) := by
  refine Ends.step (k := 0x10200000000000001000000000000000000000022028100000000000000000000000000000000060000000420A0) (t := s) ?_ hk h
  clear hk h
  unfold execServoDisable
  have h0 := Touches.refl 0x10200000000000001000000000000000000000022028100000000000000000000000000000000060000000420A0 s
  repeat' first
    | with_reducible assumption
    | (extract_lets +onlyGivenNames s'; with_reducible refine Touches.cut (t := s') ?_ ?_; subst s'; rotate_left; clear_value s'; intro hs; rotate_left)
    | (extract_lets +onlyGivenNames s'; with_reducible refine Ends.cut (t := s') ?_ ?_; subst s'; rotate_left; clear_value s'; intro hs; rotate_left)
    | with_reducible refine Ends.next ?_
    | (extract_lets +onlyGivenNames s'; first | (have _e : State → _ := s'; clear _e; subst s') | clear_value s')
    | with_reducible refine State.enterServo_touches (by decide) ?_
    | with_reducible refine State.writeServoCfg_touches (by decide) ?_
    | split


theorem State.refLost_touches {m : Nat} {s0 : State} {s : State} (hk : 0x1020000000000000100000000000000000000000200010000000000000000000000000000000000000000042080 ||| m = m)
    (h : Touches m s0 s) : Touches m s0 (State.refLost s) := by
  refine Touches.step (k := 0x1020000000000000100000000000000000000000200010000000000000000000000000000000000000000042080) (t := s) ?_ hk h
  clear hk h
  unfold State.refLost
  have h0 := Touches.refl 0x1020000000000000100000000000000000000000200010000000000000000000000000000000000000000042080 s
  repeat' first
    | with_reducible assumption
    | (extract_lets +onlyGivenNames s'; with_reducible refine Touches.cut (t := s') ?_ ?_; subst s'; rotate_left; clear_value s'; intro hs; rotate_left)
    | (extract_lets +onlyGivenNames s'; first | (have _e : State → _ := s'; clear _e; subst s') | clear_value s')
    | with_reducible refine State.record_touches (by decide) ?_
    | with_reducible refine Touches.set (by first | decide | assumption | (split <;> decide)) ?_
    | with_reducible refine Touches.raise (by first | decide | assumption | (split <;> decide)) (by decide) ?_
    | split


theorem execRefLost_touches {m : Nat} {s0 : State} {s : State} (hk : 0x1020000000000000100000000000000000000000200010000000000000000000000000000000000000000042080 ||| m = m)
    (h : Touches m s0 s) : Ends m s0 (execRefLost s) := by
  refine Ends.step (k := 0x1020000000000000100000000000000000000000200010000000000000000000000000000000000000000042080) (t := s) ?_ hk h
  clear hk h
  unfold execRefLost
  have h0 := Touches.refl 0x1020000000000000100000000000000000000000200010000000000000000000000000000000000000000042080 s
  repeat' first
    | with_reducible assumption
    | (extract_lets +onlyGivenNames s'; with_reducible refine Touches.cut (t := s') ?_ ?_; subst s'; rotate_left; clear_value s'; intro hs; rotate_left)
    | (extract_lets +onlyGivenNames s'; with_reducible refine Ends.cut (t := s') ?_ ?_; subst s'; rotate_left; clear_value s'; intro hs; rotate_left)
    | with_reducible refine Ends.next ?_
    | (extract_lets +onlyGivenNames s'; first | (have _e : State → _ := s'; clear _e; subst s') | clear_value s')
    | with_reducible refine State.refLost_touches (by decide) ?_
    | split


theorem execRefReturn_touches {m : Nat} {s0 : State} {s : State} (hk : 0x10000000000000000000000000000000000000000000000 ||| m = m)
    (h : Touches m s0 s) : Ends m s0 (execRefReturn s) := by
  refine Ends.step (k := 0x10000000000000000000000000000000000000000000000) (t := s) ?_ hk h
  clear hk h
  unfold execRefReturn
  have h0 := Touches.refl 0x10000000000000000000000000000000000000000000000 s
  repeat' first
    | with_reducible assumption
    | (extract_lets +onlyGivenNames s'; with_reducible refine Touches.cut (t := s') ?_ ?_; subst s'; rotate_left; clear_value s'; intro hs; rotate_left)
    | (extract_lets +onlyGivenNames s'; with_reducible refine Ends.cut (t := s') ?_ ?_; subst s'; rotate_left; clear_value s'; intro hs; rotate_left)
    | with_reducible refine Ends.next ?_
    | (extract_lets +onlyGivenNames s'; first | (have _e : State → _ := s'; clear _e; subst s') | clear_value s')
    | with_reducible refine Touches.set (by first | decide | assumption | (split <;> decide)) ?_
    | split


theorem execPllRelock_touches {m : Nat} {s0 : State} {s : State} (hk : 0x10000000000000000000000000000000000000000000000 ||| m = m)
    (h : Touches m s0 s) : Ends m s0 (execPllRelock s) := by
  refine Ends.step (k := 0x10000000000000000000000000000000000000000000000) (t := s) ?_ hk h
  clear hk h
  unfold execPllRelock
  have h0 := Touches.refl 0x10000000000000000000000000000000000000000000000 s
  repeat' first
    | with_reducible assumption
    | (extract_lets +onlyGivenNames s'; with_reducible refine Touches.cut (t := s') ?_ ?_; subst s'; rotate_left; clear_value s'; intro hs; rotate_left)
    | (extract_lets +onlyGivenNames s'; with_reducible refine Ends.cut (t := s') ?_ ?_; subst s'; rotate_left; clear_value s'; intro hs; rotate_left)
    | with_reducible refine Ends.next ?_
    | (extract_lets +onlyGivenNames s'; first | (have _e : State → _ := s'; clear _e; subst s') | clear_value s')
    | with_reducible refine Touches.set (by first | decide | assumption | (split <;> decide)) ?_
    | split


theorem execPpsOutPulse_touches {m : Nat} {s0 : State} {s : State} (hk : 0x40020 ||| m = m)
    (h : Touches m s0 s) : Ends m s0 (execPpsOutPulse s) := by
  refine Ends.step (k := 0x40020) (t := s) ?_ hk h
  clear hk h
  unfold execPpsOutPulse
  have h0 := Touches.refl 0x40020 s
  repeat' first
    | with_reducible assumption
    | (extract_lets +onlyGivenNames s'; with_reducible refine Touches.cut (t := s') ?_ ?_; subst s'; rotate_left; clear_value s'; intro hs; rotate_left)
    | (extract_lets +onlyGivenNames s'; with_reducible refine Ends.cut (t := s') ?_ ?_; subst s'; rotate_left; clear_value s'; intro hs; rotate_left)
    | with_reducible refine Ends.next ?_
    | (extract_lets +onlyGivenNames s'; first | (have _e : State → _ := s'; clear _e; subst s') | clear_value s')
    | with_reducible refine State.modTim_touches (by decide) ?_
    | with_reducible refine Touches.emit (by decide) ?_
    | split


theorem execWinGo_touches {m : Nat} {s0 : State} {port : PortNo} {value : Word} {s : State} (hk : 0x3000000000000000000000000000000000000000000000000004 ||| m = m)
    (h : Touches m s0 s) : Ends m s0 (execWinGo port value s) := by
  refine Ends.step (k := 0x3000000000000000000000000000000000000000000000000004) (t := s) ?_ hk h
  clear hk h
  unfold execWinGo
  have h0 := Touches.refl 0x3000000000000000000000000000000000000000000000000004 s
  repeat' first
    | with_reducible assumption
    | (extract_lets +onlyGivenNames s'; with_reducible refine Touches.cut (t := s') ?_ ?_; subst s'; rotate_left; clear_value s'; intro hs; rotate_left)
    | (extract_lets +onlyGivenNames s'; with_reducible refine Ends.cut (t := s') ?_ ?_; subst s'; rotate_left; clear_value s'; intro hs; rotate_left)
    | with_reducible refine Ends.next ?_
    | (extract_lets +onlyGivenNames s'; first | (have _e : State → _ := s'; clear _e; subst s') | clear_value s')
    | with_reducible refine State.winGo_touches (by decide) ?_
    | split


theorem execBankSwitch_touches {m : Nat} {s0 : State} {port : PortNo} {s : State} (hk : 0x2000000000000000000000000000000000000000000000000004 ||| m = m)
    (h : Touches m s0 s) : Ends m s0 (execBankSwitch port s) := by
  refine Ends.step (k := 0x2000000000000000000000000000000000000000000000000004) (t := s) ?_ hk h
  clear hk h
  unfold execBankSwitch
  have h0 := Touches.refl 0x2000000000000000000000000000000000000000000000000004 s
  repeat' first
    | with_reducible assumption
    | (extract_lets +onlyGivenNames s'; with_reducible refine Touches.cut (t := s') ?_ ?_; subst s'; rotate_left; clear_value s'; intro hs; rotate_left)
    | (extract_lets +onlyGivenNames s'; with_reducible refine Ends.cut (t := s') ?_ ?_; subst s'; rotate_left; clear_value s'; intro hs; rotate_left)
    | with_reducible refine Ends.next ?_
    | (extract_lets +onlyGivenNames s'; first | (have _e : State → _ := s'; clear _e; subst s') | clear_value s')
    | with_reducible refine State.bankSwitch_touches (by decide) ?_
    | split


theorem execWinWriteRefused_touches {m : Nat} {s0 : State} {port : PortNo} {bank : Fin 2} {s : State} (hk : 0x2000000000000000000000000000000000000000000000000000 ||| m = m)
    (h : Touches m s0 s) : Ends m s0 (execWinWriteRefused port bank s) := by
  refine Ends.step (k := 0x2000000000000000000000000000000000000000000000000000) (t := s) ?_ hk h
  clear hk h
  unfold execWinWriteRefused
  have h0 := Touches.refl 0x2000000000000000000000000000000000000000000000000000 s
  repeat' first
    | with_reducible assumption
    | (extract_lets +onlyGivenNames s'; with_reducible refine Touches.cut (t := s') ?_ ?_; subst s'; rotate_left; clear_value s'; intro hs; rotate_left)
    | (extract_lets +onlyGivenNames s'; with_reducible refine Ends.cut (t := s') ?_ ?_; subst s'; rotate_left; clear_value s'; intro hs; rotate_left)
    | with_reducible refine Ends.next ?_
    | (extract_lets +onlyGivenNames s'; first | (have _e : State → _ := s'; clear _e; subst s') | clear_value s')
    | with_reducible refine Touches.set (by first | decide | assumption | (split <;> decide)) ?_
    | split


theorem execGateChange_touches {m : Nat} {s0 : State} {port : PortNo} {s : State} (hk : 0x2000000080400000000000000000000000000000000000000004 ||| m = m)
    (h : Touches m s0 s) : Ends m s0 (execGateChange port s) := by
  refine Ends.step (k := 0x2000000080400000000000000000000000000000000000000004) (t := s) ?_ hk h
  clear hk h
  unfold execGateChange
  have h0 := Touches.refl 0x2000000080400000000000000000000000000000000000000004 s
  repeat' first
    | with_reducible assumption
    | (extract_lets +onlyGivenNames s'; with_reducible refine Touches.cut (t := s') ?_ ?_; subst s'; rotate_left; clear_value s'; intro hs; rotate_left)
    | (extract_lets +onlyGivenNames s'; with_reducible refine Ends.cut (t := s') ?_ ?_; subst s'; rotate_left; clear_value s'; intro hs; rotate_left)
    | with_reducible refine Ends.next ?_
    | (extract_lets +onlyGivenNames s'; first | (have _e : State → _ := s'; clear _e; subst s') | clear_value s')
    | with_reducible refine State.gateChange_touches (by decide) ?_
    | with_reducible refine State.refreshCgs_touches (by decide) ?_
    | split


end Sys2Proof.Machine
end

