-- ==== Sys2Proof/Laws/TouchesPace.lean ====
section
/-!
SUPPORT. What the operations of Pace.lean can touch.
-/

namespace Sys2Proof.Machine

set_option linter.all false

theorem State.modPace_touches {m : Nat} {s0 : State} {s : State} {f : PaceBlock → PaceBlock} (hk : 0x1000 ||| m = m)
    (h : Touches m s0 s) : Touches m s0 (State.modPace s f) := by
  refine Touches.step (k := 0x1000) (t := s) ?_ hk h
  clear hk h
  unfold State.modPace
  have h0 := Touches.refl 0x1000 s
  repeat' first
    | with_reducible assumption
    | (extract_lets +onlyGivenNames s'; with_reducible refine Touches.cut (t := s') ?_ ?_; subst s'; rotate_left; clear_value s'; intro hs; rotate_left)
    | (extract_lets +onlyGivenNames s'; first | (have _e : State → _ := s'; clear _e; subst s') | (have _e : PaceBlock := s'; clear _e; subst s') | clear_value s')
    | split
    | with_reducible refine Touches.upd_pace (by decide) ?_


theorem State.modDom_touches {m : Nat} {s0 : State} {s : State} {d : Nat} {f : Domain → Domain} (hk : 0x1000 ||| m = m)
    (h : Touches m s0 s) : Touches m s0 (State.modDom s d f) := by
  refine Touches.step (k := 0x1000) (t := s) ?_ hk h
  clear hk h
  unfold State.modDom
  have h0 := Touches.refl 0x1000 s
  repeat' first
    | with_reducible assumption
    | (extract_lets +onlyGivenNames s'; with_reducible refine Touches.cut (t := s') ?_ ?_; subst s'; rotate_left; clear_value s'; intro hs; rotate_left)
    | (extract_lets +onlyGivenNames s'; first | (have _e : State → _ := s'; clear _e; subst s') | clear_value s')
    | with_reducible refine State.modPace_touches (by decide) ?_
    | split


theorem State.showFollow_touches {m : Nat} {s0 : State} {s : State} {binds : Bool} (hk : 0x1020000000000000100002080000000000000000000000000000000000000000000000000000000000000042080 ||| m = m)
    (h : Touches m s0 s) : Touches m s0 (State.showFollow s binds) := by
  refine Touches.step (k := 0x1020000000000000100002080000000000000000000000000000000000000000000000000000000000000042080) (t := s) ?_ hk h
  clear hk h
  unfold State.showFollow
  have h0 := Touches.refl 0x1020000000000000100002080000000000000000000000000000000000000000000000000000000000000042080 s
  repeat' first
    | with_reducible assumption
    | (extract_lets +onlyGivenNames s'; with_reducible refine Touches.cut (t := s') ?_ ?_; subst s'; rotate_left; clear_value s'; intro hs; rotate_left)
    | (extract_lets +onlyGivenNames s'; first | (have _e : State → _ := s'; clear _e; subst s') | clear_value s')
    | with_reducible refine State.record_touches (by decide) ?_
    | with_reducible refine Touches.set (by first | decide | assumption | (split <;> decide)) ?_
    | with_reducible refine Touches.raise (by first | decide | assumption | (split <;> decide)) (by decide) ?_
    | split


theorem State.refreshPace_touches {m : Nat} {s0 : State} {s : State} (hk : 0x1020000000000000100002080100000000000000000000000000000000000000000000000000000000000043080 ||| m = m)
    (h : Touches m s0 s) : Touches m s0 (State.refreshPace s) := by
  refine Touches.step (k := 0x1020000000000000100002080100000000000000000000000000000000000000000000000000000000000043080) (t := s) ?_ hk h
  clear hk h
  unfold State.refreshPace
  have h0 := Touches.refl 0x1020000000000000100002080100000000000000000000000000000000000000000000000000000000000043080 s
  repeat' first
    | with_reducible assumption
    | (extract_lets +onlyGivenNames s'; with_reducible refine Touches.cut (t := s') ?_ ?_; subst s'; rotate_left; clear_value s'; intro hs; rotate_left)
    | (extract_lets +onlyGivenNames s'; first | (have _e : State → _ := s'; clear _e; subst s') | clear_value s')
    | with_reducible refine State.modPace_touches (by decide) ?_
    | with_reducible refine State.showFollow_touches (by decide) ?_
    | with_reducible refine Touches.set (by first | decide | assumption | (split <;> decide)) ?_
    | split


theorem State.lagLimit_touches {m : Nat} {s0 : State} {s : State} {d : Nat} (hk : 0x1020000000000000100012000200000000000000000000000000000000000000000000000000000000000043080 ||| m = m)
    (h : Touches m s0 s) : Touches m s0 (State.lagLimit s d) := by
  refine Touches.step (k := 0x1020000000000000100012000200000000000000000000000000000000000000000000000000000000000043080) (t := s) ?_ hk h
  clear hk h
  unfold State.lagLimit
  have h0 := Touches.refl 0x1020000000000000100012000200000000000000000000000000000000000000000000000000000000000043080 s
  repeat' first
    | with_reducible assumption
    | (extract_lets +onlyGivenNames s'; with_reducible refine Touches.cut (t := s') ?_ ?_; subst s'; rotate_left; clear_value s'; intro hs; rotate_left)
    | (extract_lets +onlyGivenNames s'; first | (have _e : State → _ := s'; clear _e; subst s') | clear_value s')
    | with_reducible refine State.record_touches (by decide) ?_
    | with_reducible refine State.modDom_touches (by decide) ?_
    | with_reducible refine Touches.set (by first | decide | assumption | (split <;> decide)) ?_
    | with_reducible refine Touches.addSat (by first | decide | assumption | (split <;> decide)) ?_
    | with_reducible refine Touches.raise (by first | decide | assumption | (split <;> decide)) (by decide) ?_
    | split


theorem execCadenceWindow_touches {m : Nat} {s0 : State} {caps : List Nat} {quadrants : Fin 4096} {s : State} (hk : 0x1020000000000000100012080300000000000000000000000000000000000000000000000000000000000043084 ||| m = m)
    (h : Touches m s0 s) : Ends m s0 (execCadenceWindow caps quadrants s) := by
  refine Ends.step (k := 0x1020000000000000100012080300000000000000000000000000000000000000000000000000000000000043084) (t := s) ?_ hk h
  clear hk h
  unfold execCadenceWindow
  have h0 := Touches.refl 0x1020000000000000100012080300000000000000000000000000000000000000000000000000000000000043084 s
  repeat' first
    | with_reducible assumption
    | (extract_lets +onlyGivenNames s'; with_reducible refine Touches.cut (t := s') ?_ ?_; subst s'; rotate_left; clear_value s'; intro hs; rotate_left)
    | (extract_lets +onlyGivenNames s'; with_reducible refine Ends.cut (t := s') ?_ ?_; subst s'; rotate_left; clear_value s'; intro hs; rotate_left)
    | with_reducible refine Ends.next ?_
    | (extract_lets +onlyGivenNames s'; first | (have _e : State → _ := s'; clear _e; subst s') | clear_value s')
    | with_reducible refine Touches.foldl (fun _ _ _ => ?_) ?_
    | with_reducible refine State.modPipe_touches (by decide) ?_
    | with_reducible refine State.modPace_touches (by decide) ?_
    | with_reducible refine State.modDom_touches (by decide) ?_
    | with_reducible refine State.refreshPace_touches (by decide) ?_
    | with_reducible refine State.lagLimit_touches (by decide) ?_
    | with_reducible refine Touches.set (by first | decide | assumption | (split <;> decide)) ?_
    | with_reducible refine Touches.addSat (by first | decide | assumption | (split <;> decide)) ?_
    | split


theorem execLagRecover_touches {m : Nat} {s0 : State} {domain : Fin 5} {s : State} (hk : 0x1020000000000000100012080100000000000000000000000000000000000000000000000000000000000043080 ||| m = m)
    (h : Touches m s0 s) : Ends m s0 (execLagRecover domain s) := by
  refine Ends.step (k := 0x1020000000000000100012080100000000000000000000000000000000000000000000000000000000000043080) (t := s) ?_ hk h
  clear hk h
  unfold execLagRecover
  have h0 := Touches.refl 0x1020000000000000100012080100000000000000000000000000000000000000000000000000000000000043080 s
  repeat' first
    | with_reducible assumption
    | (extract_lets +onlyGivenNames s'; with_reducible refine Touches.cut (t := s') ?_ ?_; subst s'; rotate_left; clear_value s'; intro hs; rotate_left)
    | (extract_lets +onlyGivenNames s'; with_reducible refine Ends.cut (t := s') ?_ ?_; subst s'; rotate_left; clear_value s'; intro hs; rotate_left)
    | with_reducible refine Ends.next ?_
    | (extract_lets +onlyGivenNames s'; first | (have _e : State → _ := s'; clear _e; subst s') | clear_value s')
    | with_reducible refine State.modDom_touches (by decide) ?_
    | with_reducible refine State.refreshPace_touches (by decide) ?_
    | with_reducible refine Touches.set (by first | decide | assumption | (split <;> decide)) ?_
    | split


theorem State.showDroop_touches {m : Nat} {s0 : State} {s : State} (hk : 0x1000000000000000000000000000000000000000000000000000000000000000000 ||| m = m)
    (h : Touches m s0 s) : Touches m s0 (State.showDroop s) := by
  refine Touches.step (k := 0x1000000000000000000000000000000000000000000000000000000000000000000) (t := s) ?_ hk h
  clear hk h
  unfold State.showDroop
  have h0 := Touches.refl 0x1000000000000000000000000000000000000000000000000000000000000000000 s
  repeat' first
    | with_reducible assumption
    | (extract_lets +onlyGivenNames s'; with_reducible refine Touches.cut (t := s') ?_ ?_; subst s'; rotate_left; clear_value s'; intro hs; rotate_left)
    | (extract_lets +onlyGivenNames s'; first | (have _e : State → _ := s'; clear _e; subst s') | clear_value s')
    | with_reducible refine Touches.set (by first | decide | assumption | (split <;> decide)) ?_
    | split


theorem State.applyRail_touches {m : Nat} {s0 : State} {s : State} {d : Nat} (hk : 0x10000000000000000000000000000000000000000000000000000000000000000040000 ||| m = m)
    (h : Touches m s0 s) : Touches m s0 (State.applyRail s d) := by
  refine Touches.step (k := 0x10000000000000000000000000000000000000000000000000000000000000000040000) (t := s) ?_ hk h
  clear hk h
  unfold State.applyRail
  have h0 := Touches.refl 0x10000000000000000000000000000000000000000000000000000000000000000040000 s
  repeat' first
    | with_reducible assumption
    | (extract_lets +onlyGivenNames s'; with_reducible refine Touches.cut (t := s') ?_ ?_; subst s'; rotate_left; clear_value s'; intro hs; rotate_left)
    | (extract_lets +onlyGivenNames s'; first | (have _e : State → _ := s'; clear _e; subst s') | clear_value s')
    | with_reducible refine Touches.set (by first | decide | assumption | (split <;> decide)) ?_
    | with_reducible refine Touches.emit (by decide) ?_
    | split


theorem State.applyRails_touches {m : Nat} {s0 : State} {s : State} (hk : 0x10000000000000000000000000000000000000000000000000000000000000000040000 ||| m = m)
    (h : Touches m s0 s) : Touches m s0 (State.applyRails s) := by
  refine Touches.step (k := 0x10000000000000000000000000000000000000000000000000000000000000000040000) (t := s) ?_ hk h
  clear hk h
  unfold State.applyRails
  have h0 := Touches.refl 0x10000000000000000000000000000000000000000000000000000000000000000040000 s
  repeat' first
    | with_reducible assumption
    | (extract_lets +onlyGivenNames s'; with_reducible refine Touches.cut (t := s') ?_ ?_; subst s'; rotate_left; clear_value s'; intro hs; rotate_left)
    | (extract_lets +onlyGivenNames s'; first | (have _e : State → _ := s'; clear _e; subst s') | clear_value s')
    | with_reducible refine Touches.foldl (fun _ _ _ => ?_) ?_
    | with_reducible refine State.applyRail_touches (by decide) ?_
    | split


theorem State.railsForMode_touches {m : Nat} {s0 : State} {s : State} (hk : 0x10000000000000000000000000000000000000000000000000000000000000000041000 ||| m = m)
    (h : Touches m s0 s) : Touches m s0 (State.railsForMode s) := by
  refine Touches.step (k := 0x10000000000000000000000000000000000000000000000000000000000000000041000) (t := s) ?_ hk h
  clear hk h
  unfold State.railsForMode
  have h0 := Touches.refl 0x10000000000000000000000000000000000000000000000000000000000000000041000 s
  repeat' first
    | with_reducible assumption
    | (extract_lets +onlyGivenNames s'; with_reducible refine Touches.cut (t := s') ?_ ?_; subst s'; rotate_left; clear_value s'; intro hs; rotate_left)
    | (extract_lets +onlyGivenNames s'; first | (have _e : State → _ := s'; clear _e; subst s') | clear_value s')
    | with_reducible refine Touches.foldl (fun _ _ _ => ?_) ?_
    | with_reducible refine State.modDom_touches (by decide) ?_
    | with_reducible refine State.applyRails_touches (by decide) ?_
    | split


theorem execCadenceSetWrite_touches {m : Nat} {s0 : State} {value : Word} {s : State} (hk : 0x1020000000000000100012080180000000000000000000000000000000000000000000000000000000000043080 ||| m = m)
    (h : Touches m s0 s) : Ends m s0 (execCadenceSetWrite value s) := by
  refine Ends.step (k := 0x1020000000000000100012080180000000000000000000000000000000000000000000000000000000000043080) (t := s) ?_ hk h
  clear hk h
  unfold execCadenceSetWrite
  have h0 := Touches.refl 0x1020000000000000100012080180000000000000000000000000000000000000000000000000000000000043080 s
  repeat' first
    | with_reducible assumption
    | (extract_lets +onlyGivenNames s'; with_reducible refine Touches.cut (t := s') ?_ ?_; subst s'; rotate_left; clear_value s'; intro hs; rotate_left)
    | (extract_lets +onlyGivenNames s'; with_reducible refine Ends.cut (t := s') ?_ ?_; subst s'; rotate_left; clear_value s'; intro hs; rotate_left)
    | with_reducible refine Ends.next ?_
    | (extract_lets +onlyGivenNames s'; first | (have _e : State → _ := s'; clear _e; subst s') | clear_value s')
    | with_reducible refine State.refreshPace_touches (by decide) ?_
    | with_reducible refine State.railsForMode_touches (by decide) ?_
    | with_reducible refine Touches.set (by first | decide | assumption | (split <;> decide)) ?_
    | split


theorem State.adjustRail_touches {m : Nat} {s0 : State} {s : State} {d : Nat} {moved : Bool} (hk : 0x10000000000000000000000000000000000000000000000000000000000000000041000 ||| m = m)
    (h : Touches m s0 s) : Touches m s0 (State.adjustRail s d moved) := by
  refine Touches.step (k := 0x10000000000000000000000000000000000000000000000000000000000000000041000) (t := s) ?_ hk h
  clear hk h
  unfold State.adjustRail
  have h0 := Touches.refl 0x10000000000000000000000000000000000000000000000000000000000000000041000 s
  repeat' first
    | with_reducible assumption
    | (extract_lets +onlyGivenNames s'; with_reducible refine Touches.cut (t := s') ?_ ?_; subst s'; rotate_left; clear_value s'; intro hs; rotate_left)
    | (extract_lets +onlyGivenNames s'; first | (have _e : State → _ := s'; clear _e; subst s') | clear_value s')
    | with_reducible refine State.modDom_touches (by decide) ?_
    | with_reducible refine State.applyRail_touches (by decide) ?_
    | split


theorem execRailAdjust_touches {m : Nat} {s0 : State} {answers : BitVec 5} {s : State} (hk : 0x1020000000000000100012081100000000000000000000000000000000000000000000000000000000000043080 ||| m = m)
    (h : Touches m s0 s) : Ends m s0 (execRailAdjust answers s) := by
  refine Ends.step (k := 0x1020000000000000100012081100000000000000000000000000000000000000000000000000000000000043080) (t := s) ?_ hk h
  clear hk h
  unfold execRailAdjust
  have h0 := Touches.refl 0x1020000000000000100012081100000000000000000000000000000000000000000000000000000000000043080 s
  repeat' first
    | with_reducible assumption
    | (extract_lets +onlyGivenNames s'; with_reducible refine Touches.cut (t := s') ?_ ?_; subst s'; rotate_left; clear_value s'; intro hs; rotate_left)
    | (extract_lets +onlyGivenNames s'; with_reducible refine Ends.cut (t := s') ?_ ?_; subst s'; rotate_left; clear_value s'; intro hs; rotate_left)
    | with_reducible refine Ends.next ?_
    | (extract_lets +onlyGivenNames s'; first | (have _e : State → _ := s'; clear _e; subst s') | clear_value s')
    | with_reducible refine Touches.foldl (fun _ _ _ => ?_) ?_
    | with_reducible refine State.modPace_touches (by decide) ?_
    | with_reducible refine State.modDom_touches (by decide) ?_
    | with_reducible refine State.refreshPace_touches (by decide) ?_
    | with_reducible refine State.showDroop_touches (by decide) ?_
    | with_reducible refine State.adjustRail_touches (by decide) ?_
    | split


theorem State.railFault_touches {m : Nat} {s0 : State} {s : State} {r : Nat} {avs : Bool} (hk : 0x1020000000000000100042000000000000000000000000000000000000000000000000000000000000000042080 ||| m = m)
    (h : Touches m s0 s) : Touches m s0 (State.railFault s r avs) := by
  refine Touches.step (k := 0x1020000000000000100042000000000000000000000000000000000000000000000000000000000000000042080) (t := s) ?_ hk h
  clear hk h
  unfold State.railFault
  have h0 := Touches.refl 0x1020000000000000100042000000000000000000000000000000000000000000000000000000000000000042080 s
  repeat' first
    | with_reducible assumption
    | (extract_lets +onlyGivenNames s'; with_reducible refine Touches.cut (t := s') ?_ ?_; subst s'; rotate_left; clear_value s'; intro hs; rotate_left)
    | (extract_lets +onlyGivenNames s'; first | (have _e : State → _ := s'; clear _e; subst s') | clear_value s')
    | with_reducible refine State.record_touches (by decide) ?_
    | with_reducible refine Touches.set (by first | decide | assumption | (split <;> decide)) ?_
    | with_reducible refine Touches.raise (by first | decide | assumption | (split <;> decide)) (by decide) ?_
    | split


theorem State.freezeRail_touches {m : Nat} {s0 : State} {s : State} {r : Nat} {avs : Bool} (hk : 0x1020000000000000100042000000000000000000000000000000000000000000000000000000000000000043080 ||| m = m)
    (h : Touches m s0 s) : Touches m s0 (State.freezeRail s r avs) := by
  refine Touches.step (k := 0x1020000000000000100042000000000000000000000000000000000000000000000000000000000000000043080) (t := s) ?_ hk h
  clear hk h
  unfold State.freezeRail
  have h0 := Touches.refl 0x1020000000000000100042000000000000000000000000000000000000000000000000000000000000000043080 s
  repeat' first
    | with_reducible assumption
    | (extract_lets +onlyGivenNames s'; with_reducible refine Touches.cut (t := s') ?_ ?_; subst s'; rotate_left; clear_value s'; intro hs; rotate_left)
    | (extract_lets +onlyGivenNames s'; first | (have _e : State → _ := s'; clear _e; subst s') | clear_value s')
    | with_reducible refine State.modDom_touches (by decide) ?_
    | with_reducible refine State.railFault_touches (by decide) ?_
    | split


theorem execRailFault_touches {m : Nat} {s0 : State} {rail : Fin 9} {s : State} (hk : 0x1020000000000000100042080100000000000000000000000000000000000000000000000000000000000043080 ||| m = m)
    (h : Touches m s0 s) : Ends m s0 (execRailFault rail s) := by
  refine Ends.step (k := 0x1020000000000000100042080100000000000000000000000000000000000000000000000000000000000043080) (t := s) ?_ hk h
  clear hk h
  unfold execRailFault
  have h0 := Touches.refl 0x1020000000000000100042080100000000000000000000000000000000000000000000000000000000000043080 s
  repeat' first
    | with_reducible assumption
    | (extract_lets +onlyGivenNames s'; with_reducible refine Touches.cut (t := s') ?_ ?_; subst s'; rotate_left; clear_value s'; intro hs; rotate_left)
    | (extract_lets +onlyGivenNames s'; with_reducible refine Ends.cut (t := s') ?_ ?_; subst s'; rotate_left; clear_value s'; intro hs; rotate_left)
    | with_reducible refine Ends.next ?_
    | (extract_lets +onlyGivenNames s'; first | (have _e : State → _ := s'; clear _e; subst s') | clear_value s')
    | with_reducible refine State.modPace_touches (by decide) ?_
    | with_reducible refine State.refreshPace_touches (by decide) ?_
    | with_reducible refine State.railFault_touches (by decide) ?_
    | with_reducible refine State.freezeRail_touches (by decide) ?_
    | split


theorem execRailRetry_touches {m : Nat} {s0 : State} {rail : Fin 5} {good : Bool} {s : State} (hk : 0x1020000000000000100042080100000000000000000000000000000000000000000000000000000000000043080 ||| m = m)
    (h : Touches m s0 s) : Ends m s0 (execRailRetry rail good s) := by
  refine Ends.step (k := 0x1020000000000000100042080100000000000000000000000000000000000000000000000000000000000043080) (t := s) ?_ hk h
  clear hk h
  unfold execRailRetry
  have h0 := Touches.refl 0x1020000000000000100042080100000000000000000000000000000000000000000000000000000000000043080 s
  repeat' first
    | with_reducible assumption
    | (extract_lets +onlyGivenNames s'; with_reducible refine Touches.cut (t := s') ?_ ?_; subst s'; rotate_left; clear_value s'; intro hs; rotate_left)
    | (extract_lets +onlyGivenNames s'; with_reducible refine Ends.cut (t := s') ?_ ?_; subst s'; rotate_left; clear_value s'; intro hs; rotate_left)
    | with_reducible refine Ends.next ?_
    | (extract_lets +onlyGivenNames s'; first | (have _e : State → _ := s'; clear _e; subst s') | clear_value s')
    | with_reducible refine State.modPace_touches (by decide) ?_
    | with_reducible refine State.modDom_touches (by decide) ?_
    | with_reducible refine State.refreshPace_touches (by decide) ?_
    | with_reducible refine Touches.set (by first | decide | assumption | (split <;> decide)) ?_
    | split


theorem execRampStart_touches {m : Nat} {s0 : State} {settled : Nat} {s : State} (hk : 0x1020000000000000100002080100000000000000000000000000000000000000000000000000000000000043080 ||| m = m)
    (h : Touches m s0 s) : Ends m s0 (execRampStart settled s) := by
  refine Ends.step (k := 0x1020000000000000100002080100000000000000000000000000000000000000000000000000000000000043080) (t := s) ?_ hk h
  clear hk h
  unfold execRampStart
  have h0 := Touches.refl 0x1020000000000000100002080100000000000000000000000000000000000000000000000000000000000043080 s
  repeat' first
    | with_reducible assumption
    | (extract_lets +onlyGivenNames s'; with_reducible refine Touches.cut (t := s') ?_ ?_; subst s'; rotate_left; clear_value s'; intro hs; rotate_left)
    | (extract_lets +onlyGivenNames s'; with_reducible refine Ends.cut (t := s') ?_ ?_; subst s'; rotate_left; clear_value s'; intro hs; rotate_left)
    | with_reducible refine Ends.next ?_
    | (extract_lets +onlyGivenNames s'; first | (have _e : State → _ := s'; clear _e; subst s') | clear_value s')
    | with_reducible refine State.modPace_touches (by decide) ?_
    | with_reducible refine State.refreshPace_touches (by decide) ?_
    | split


theorem execRampEnd_touches {m : Nat} {s0 : State} {s : State} (hk : 0x1020000000000000100002080100000000000000000000000000000000000000000000000000000000000043080 ||| m = m)
    (h : Touches m s0 s) : Ends m s0 (execRampEnd s) := by
  refine Ends.step (k := 0x1020000000000000100002080100000000000000000000000000000000000000000000000000000000000043080) (t := s) ?_ hk h
  clear hk h
  unfold execRampEnd
  have h0 := Touches.refl 0x1020000000000000100002080100000000000000000000000000000000000000000000000000000000000043080 s
  repeat' first
    | with_reducible assumption
    | (extract_lets +onlyGivenNames s'; with_reducible refine Touches.cut (t := s') ?_ ?_; subst s'; rotate_left; clear_value s'; intro hs; rotate_left)
    | (extract_lets +onlyGivenNames s'; with_reducible refine Ends.cut (t := s') ?_ ?_; subst s'; rotate_left; clear_value s'; intro hs; rotate_left)
    | with_reducible refine Ends.next ?_
    | (extract_lets +onlyGivenNames s'; first | (have _e : State → _ := s'; clear _e; subst s') | clear_value s')
    | with_reducible refine State.modPace_touches (by decide) ?_
    | with_reducible refine State.refreshPace_touches (by decide) ?_
    | split


theorem execDroopDetect_touches {m : Nat} {s0 : State} {domain : Fin 5} {s : State} (hk : 0x1020000000000000100002081300000000000000000000000000000000000000000000000000000000000043080 ||| m = m)
    (h : Touches m s0 s) : Ends m s0 (execDroopDetect domain s) := by
  refine Ends.step (k := 0x1020000000000000100002081300000000000000000000000000000000000000000000000000000000000043080) (t := s) ?_ hk h
  clear hk h
  unfold execDroopDetect
  have h0 := Touches.refl 0x1020000000000000100002081300000000000000000000000000000000000000000000000000000000000043080 s
  repeat' first
    | with_reducible assumption
    | (extract_lets +onlyGivenNames s'; with_reducible refine Touches.cut (t := s') ?_ ?_; subst s'; rotate_left; clear_value s'; intro hs; rotate_left)
    | (extract_lets +onlyGivenNames s'; with_reducible refine Ends.cut (t := s') ?_ ?_; subst s'; rotate_left; clear_value s'; intro hs; rotate_left)
    | with_reducible refine Ends.next ?_
    | (extract_lets +onlyGivenNames s'; first | (have _e : State → _ := s'; clear _e; subst s') | clear_value s')
    | with_reducible refine State.modPace_touches (by decide) ?_
    | with_reducible refine State.modDom_touches (by decide) ?_
    | with_reducible refine State.refreshPace_touches (by decide) ?_
    | with_reducible refine State.showDroop_touches (by decide) ?_
    | with_reducible refine Touches.addSat (by first | decide | assumption | (split <;> decide)) ?_
    | split


theorem execDroopClear_touches {m : Nat} {s0 : State} {domain : Fin 5} {s : State} (hk : 0x1000000000000000000000000000000000000000000000000000000000000001000 ||| m = m)
    (h : Touches m s0 s) : Ends m s0 (execDroopClear domain s) := by
  refine Ends.step (k := 0x1000000000000000000000000000000000000000000000000000000000000001000) (t := s) ?_ hk h
  clear hk h
  unfold execDroopClear
  have h0 := Touches.refl 0x1000000000000000000000000000000000000000000000000000000000000001000 s
  repeat' first
    | with_reducible assumption
    | (extract_lets +onlyGivenNames s'; with_reducible refine Touches.cut (t := s') ?_ ?_; subst s'; rotate_left; clear_value s'; intro hs; rotate_left)
    | (extract_lets +onlyGivenNames s'; with_reducible refine Ends.cut (t := s') ?_ ?_; subst s'; rotate_left; clear_value s'; intro hs; rotate_left)
    | with_reducible refine Ends.next ?_
    | (extract_lets +onlyGivenNames s'; first | (have _e : State → _ := s'; clear _e; subst s') | clear_value s')
    | with_reducible refine State.modDom_touches (by decide) ?_
    | with_reducible refine State.showDroop_touches (by decide) ?_
    | split


theorem execDroopLong_touches {m : Nat} {s0 : State} {s : State} (hk : 0x100002001000000000000000000000000000000000000000000000000000000000000041080 ||| m = m)
    (h : Touches m s0 s) : Ends m s0 (execDroopLong s) := by
  refine Ends.step (k := 0x100002001000000000000000000000000000000000000000000000000000000000000041080) (t := s) ?_ hk h
  clear hk h
  unfold execDroopLong
  have h0 := Touches.refl 0x100002001000000000000000000000000000000000000000000000000000000000000041080 s
  repeat' first
    | with_reducible assumption
    | (extract_lets +onlyGivenNames s'; with_reducible refine Touches.cut (t := s') ?_ ?_; subst s'; rotate_left; clear_value s'; intro hs; rotate_left)
    | (extract_lets +onlyGivenNames s'; with_reducible refine Ends.cut (t := s') ?_ ?_; subst s'; rotate_left; clear_value s'; intro hs; rotate_left)
    | with_reducible refine Ends.next ?_
    | (extract_lets +onlyGivenNames s'; first | (have _e : State → _ := s'; clear _e; subst s') | clear_value s')
    | with_reducible refine State.modPace_touches (by decide) ?_
    | with_reducible refine Touches.set (by first | decide | assumption | (split <;> decide)) ?_
    | with_reducible refine Touches.raise (by first | decide | assumption | (split <;> decide)) (by decide) ?_
    | split


theorem execDroopResponseEnd_touches {m : Nat} {s0 : State} {s : State} (hk : 0x1020000000000000100012081100000000000000000000000000000000000000000000000000000000000043080 ||| m = m)
    (h : Touches m s0 s) : Ends m s0 (execDroopResponseEnd s) := by
  refine Ends.step (k := 0x1020000000000000100012081100000000000000000000000000000000000000000000000000000000000043080) (t := s) ?_ hk h
  clear hk h
  unfold execDroopResponseEnd
  have h0 := Touches.refl 0x1020000000000000100012081100000000000000000000000000000000000000000000000000000000000043080 s
  repeat' first
    | with_reducible assumption
    | (extract_lets +onlyGivenNames s'; with_reducible refine Touches.cut (t := s') ?_ ?_; subst s'; rotate_left; clear_value s'; intro hs; rotate_left)
    | (extract_lets +onlyGivenNames s'; with_reducible refine Ends.cut (t := s') ?_ ?_; subst s'; rotate_left; clear_value s'; intro hs; rotate_left)
    | with_reducible refine Ends.next ?_
    | (extract_lets +onlyGivenNames s'; first | (have _e : State → _ := s'; clear _e; subst s') | clear_value s')
    | with_reducible refine State.record_touches (by decide) ?_
    | with_reducible refine State.modPace_touches (by decide) ?_
    | with_reducible refine State.refreshPace_touches (by decide) ?_
    | with_reducible refine State.showDroop_touches (by decide) ?_
    | with_reducible refine State.applyRails_touches (by decide) ?_
    | split


theorem State.thermalTrip_touches {m : Nat} {s0 : State} {s : State} {sensor t : Nat} (hk : 0x1020000000000000100012004000000000000000000000000000000000000000000000000000000000000052080 ||| m = m)
    (h : Touches m s0 s) : Touches m s0 (State.thermalTrip s sensor t) := by
  refine Touches.step (k := 0x1020000000000000100012004000000000000000000000000000000000000000000000000000000000000052080) (t := s) ?_ hk h
  clear hk h
  unfold State.thermalTrip
  have h0 := Touches.refl 0x1020000000000000100012004000000000000000000000000000000000000000000000000000000000000052080 s
  repeat' first
    | with_reducible assumption
    | (extract_lets +onlyGivenNames s'; with_reducible refine Touches.cut (t := s') ?_ ?_; subst s'; rotate_left; clear_value s'; intro hs; rotate_left)
    | (extract_lets +onlyGivenNames s'; first | (have _e : State → _ := s'; clear _e; subst s') | (have _e : PkgBlock := s'; clear _e; subst s') | clear_value s')
    | with_reducible refine State.record_touches (by decide) ?_
    | with_reducible refine State.applyRails_touches (by decide) ?_
    | with_reducible refine Touches.set (by first | decide | assumption | (split <;> decide)) ?_
    | with_reducible refine Touches.emit (by decide) ?_
    | with_reducible refine Touches.raise (by first | decide | assumption | (split <;> decide)) (by decide) ?_
    | split
    | with_reducible refine Touches.upd_pkg (by decide) ?_


theorem execThermalSample_touches {m : Nat} {s0 : State} {temps : List Int} {s : State} (hk : 0x1020000000000000100092084100000000000000000000000000000000000000000000000000000000000053080 ||| m = m)
    (h : Touches m s0 s) : Ends m s0 (execThermalSample temps s) := by
  refine Ends.step (k := 0x1020000000000000100092084100000000000000000000000000000000000000000000000000000000000053080) (t := s) ?_ hk h
  clear hk h
  unfold execThermalSample
  have h0 := Touches.refl 0x1020000000000000100092084100000000000000000000000000000000000000000000000000000000000053080 s
  repeat' first
    | with_reducible assumption
    | (extract_lets +onlyGivenNames s'; with_reducible refine Touches.cut (t := s') ?_ ?_; subst s'; rotate_left; clear_value s'; intro hs; rotate_left)
    | (extract_lets +onlyGivenNames s'; with_reducible refine Ends.cut (t := s') ?_ ?_; subst s'; rotate_left; clear_value s'; intro hs; rotate_left)
    | with_reducible refine Ends.next ?_
    | (extract_lets +onlyGivenNames s'; first | (have _e : State → _ := s'; clear _e; subst s') | clear_value s')
    | with_reducible refine Touches.foldl (fun _ _ _ => ?_) ?_
    | with_reducible refine State.record_touches (by decide) ?_
    | with_reducible refine State.modPace_touches (by decide) ?_
    | with_reducible refine State.refreshPace_touches (by decide) ?_
    | with_reducible refine State.thermalTrip_touches (by decide) ?_
    | with_reducible refine Touches.set (by first | decide | assumption | (split <;> decide)) ?_
    | with_reducible refine Touches.setReg (by first | decide | assumption | (split <;> decide)) ?_
    | with_reducible refine Touches.raise (by first | decide | assumption | (split <;> decide)) (by decide) ?_
    | split


theorem execThrottleFall_touches {m : Nat} {s0 : State} {s : State} (hk : 0x1020000000000000100002084100000000000000000000000000000000000000000000000000000000000043080 ||| m = m)
    (h : Touches m s0 s) : Ends m s0 (execThrottleFall s) := by
  refine Ends.step (k := 0x1020000000000000100002084100000000000000000000000000000000000000000000000000000000000043080) (t := s) ?_ hk h
  clear hk h
  unfold execThrottleFall
  have h0 := Touches.refl 0x1020000000000000100002084100000000000000000000000000000000000000000000000000000000000043080 s
  repeat' first
    | with_reducible assumption
    | (extract_lets +onlyGivenNames s'; with_reducible refine Touches.cut (t := s') ?_ ?_; subst s'; rotate_left; clear_value s'; intro hs; rotate_left)
    | (extract_lets +onlyGivenNames s'; with_reducible refine Ends.cut (t := s') ?_ ?_; subst s'; rotate_left; clear_value s'; intro hs; rotate_left)
    | with_reducible refine Ends.next ?_
    | (extract_lets +onlyGivenNames s'; first | (have _e : State → _ := s'; clear _e; subst s') | clear_value s')
    | with_reducible refine State.modPace_touches (by decide) ?_
    | with_reducible refine State.refreshPace_touches (by decide) ?_
    | with_reducible refine Touches.set (by first | decide | assumption | (split <;> decide)) ?_
    | split


theorem execFreewheelIdle_touches {m : Nat} {s0 : State} {die : RimNo} {s : State} (hk : 0x10000000000000000000000000000000000000000000000000000000000000000041000 ||| m = m)
    (h : Touches m s0 s) : Ends m s0 (execFreewheelIdle die s) := by
  refine Ends.step (k := 0x10000000000000000000000000000000000000000000000000000000000000000041000) (t := s) ?_ hk h
  clear hk h
  unfold execFreewheelIdle
  have h0 := Touches.refl 0x10000000000000000000000000000000000000000000000000000000000000000041000 s
  repeat' first
    | with_reducible assumption
    | (extract_lets +onlyGivenNames s'; with_reducible refine Touches.cut (t := s') ?_ ?_; subst s'; rotate_left; clear_value s'; intro hs; rotate_left)
    | (extract_lets +onlyGivenNames s'; with_reducible refine Ends.cut (t := s') ?_ ?_; subst s'; rotate_left; clear_value s'; intro hs; rotate_left)
    | with_reducible refine Ends.next ?_
    | (extract_lets +onlyGivenNames s'; first | (have _e : State → _ := s'; clear _e; subst s') | clear_value s')
    | with_reducible refine State.modDom_touches (by decide) ?_
    | with_reducible refine State.applyRail_touches (by decide) ?_
    | split


theorem execFreewheelWake_touches {m : Nat} {s0 : State} {die : RimNo} {s : State} (hk : 0x1020000000000000100012080100000000000000000000000000000000000000000000000000000000000043080 ||| m = m)
    (h : Touches m s0 s) : Ends m s0 (execFreewheelWake die s) := by
  refine Ends.step (k := 0x1020000000000000100012080100000000000000000000000000000000000000000000000000000000000043080) (t := s) ?_ hk h
  clear hk h
  unfold execFreewheelWake
  have h0 := Touches.refl 0x1020000000000000100012080100000000000000000000000000000000000000000000000000000000000043080 s
  repeat' first
    | with_reducible assumption
    | (extract_lets +onlyGivenNames s'; with_reducible refine Touches.cut (t := s') ?_ ?_; subst s'; rotate_left; clear_value s'; intro hs; rotate_left)
    | (extract_lets +onlyGivenNames s'; with_reducible refine Ends.cut (t := s') ?_ ?_; subst s'; rotate_left; clear_value s'; intro hs; rotate_left)
    | with_reducible refine Ends.next ?_
    | (extract_lets +onlyGivenNames s'; first | (have _e : State → _ := s'; clear _e; subst s') | clear_value s')
    | with_reducible refine State.modDom_touches (by decide) ?_
    | with_reducible refine State.refreshPace_touches (by decide) ?_
    | with_reducible refine State.applyRail_touches (by decide) ?_
    | split


theorem State.startPace_touches {m : Nat} {s0 : State} {s : State} (hk : 0x1020000000000000100002080100000000000000000000000000000000000000000000000000006000000043080 ||| m = m)
    (h : Touches m s0 s) : Touches m s0 (State.startPace s) := by
  refine Touches.step (k := 0x1020000000000000100002080100000000000000000000000000000000000000000000000000006000000043080) (t := s) ?_ hk h
  clear hk h
  unfold State.startPace
  have h0 := Touches.refl 0x1020000000000000100002080100000000000000000000000000000000000000000000000000006000000043080 s
  repeat' first
    | with_reducible assumption
    | (extract_lets +onlyGivenNames s'; with_reducible refine Touches.cut (t := s') ?_ ?_; subst s'; rotate_left; clear_value s'; intro hs; rotate_left)
    | (extract_lets +onlyGivenNames s'; first | (have _e : State → _ := s'; clear _e; subst s') | clear_value s')
    | with_reducible refine State.setReady_touches (by decide) ?_
    | with_reducible refine State.modPace_touches (by decide) ?_
    | with_reducible refine State.refreshPace_touches (by decide) ?_
    | split


theorem execGovernorReady_touches {m : Nat} {s0 : State} {caps : List Nat} {s : State} (hk : 0x1020000000000000100012080100000000000000000000000000000000000000000000000000006000000043080 ||| m = m)
    (h : Touches m s0 s) : Ends m s0 (execGovernorReady caps s) := by
  refine Ends.step (k := 0x1020000000000000100012080100000000000000000000000000000000000000000000000000006000000043080) (t := s) ?_ hk h
  clear hk h
  unfold execGovernorReady
  have h0 := Touches.refl 0x1020000000000000100012080100000000000000000000000000000000000000000000000000006000000043080 s
  repeat' first
    | with_reducible assumption
    | (extract_lets +onlyGivenNames s'; with_reducible refine Touches.cut (t := s') ?_ ?_; subst s'; rotate_left; clear_value s'; intro hs; rotate_left)
    | (extract_lets +onlyGivenNames s'; with_reducible refine Ends.cut (t := s') ?_ ?_; subst s'; rotate_left; clear_value s'; intro hs; rotate_left)
    | with_reducible refine Ends.next ?_
    | (extract_lets +onlyGivenNames s'; first | (have _e : State → _ := s'; clear _e; subst s') | clear_value s')
    | with_reducible refine Touches.foldl (fun _ _ _ => ?_) ?_
    | with_reducible refine State.startPace_touches (by decide) ?_
    | with_reducible refine Touches.set (by first | decide | assumption | (split <;> decide)) ?_
    | split


theorem execAvsTimeout_touches {m : Nat} {s0 : State} {s : State} (hk : 0x1020000000000000100042080100000000000000000000000000000000000000000000000000006000000043080 ||| m = m)
    (h : Touches m s0 s) : Ends m s0 (execAvsTimeout s) := by
  refine Ends.step (k := 0x1020000000000000100042080100000000000000000000000000000000000000000000000000006000000043080) (t := s) ?_ hk h
  clear hk h
  unfold execAvsTimeout
  have h0 := Touches.refl 0x1020000000000000100042080100000000000000000000000000000000000000000000000000006000000043080 s
  repeat' first
    | with_reducible assumption
    | (extract_lets +onlyGivenNames s'; with_reducible refine Touches.cut (t := s') ?_ ?_; subst s'; rotate_left; clear_value s'; intro hs; rotate_left)
    | (extract_lets +onlyGivenNames s'; with_reducible refine Ends.cut (t := s') ?_ ?_; subst s'; rotate_left; clear_value s'; intro hs; rotate_left)
    | with_reducible refine Ends.next ?_
    | (extract_lets +onlyGivenNames s'; first | (have _e : State → _ := s'; clear _e; subst s') | clear_value s')
    | with_reducible refine Touches.foldl (fun _ _ _ => ?_) ?_
    | with_reducible refine State.freezeRail_touches (by decide) ?_
    | with_reducible refine State.startPace_touches (by decide) ?_
    | split


theorem execPhaseBoostStart_touches {m : Nat} {s0 : State} {by_ : BoostBy} {s : State} (hk : 0x10000000000000000000000000000000000000000000000000000000000000000041000 ||| m = m)
    (h : Touches m s0 s) : Ends m s0 (execPhaseBoostStart by_ s) := by
  refine Ends.step (k := 0x10000000000000000000000000000000000000000000000000000000000000000041000) (t := s) ?_ hk h
  clear hk h
  unfold execPhaseBoostStart
  have h0 := Touches.refl 0x10000000000000000000000000000000000000000000000000000000000000000041000 s
  repeat' first
    | with_reducible assumption
    | (extract_lets +onlyGivenNames s'; with_reducible refine Touches.cut (t := s') ?_ ?_; subst s'; rotate_left; clear_value s'; intro hs; rotate_left)
    | (extract_lets +onlyGivenNames s'; with_reducible refine Ends.cut (t := s') ?_ ?_; subst s'; rotate_left; clear_value s'; intro hs; rotate_left)
    | with_reducible refine Ends.next ?_
    | (extract_lets +onlyGivenNames s'; first | (have _e : State → _ := s'; clear _e; subst s') | clear_value s')
    | with_reducible refine State.modPace_touches (by decide) ?_
    | with_reducible refine State.applyRails_touches (by decide) ?_
    | split


theorem execPhaseBoostEnd_touches {m : Nat} {s0 : State} {by_ : BoostBy} {s : State} (hk : 0x10000000000000000000000000000000000000000000000000000000000000000041000 ||| m = m)
    (h : Touches m s0 s) : Ends m s0 (execPhaseBoostEnd by_ s) := by
  refine Ends.step (k := 0x10000000000000000000000000000000000000000000000000000000000000000041000) (t := s) ?_ hk h
  clear hk h
  unfold execPhaseBoostEnd
  have h0 := Touches.refl 0x10000000000000000000000000000000000000000000000000000000000000000041000 s
  repeat' first
    | with_reducible assumption
    | (extract_lets +onlyGivenNames s'; with_reducible refine Touches.cut (t := s') ?_ ?_; subst s'; rotate_left; clear_value s'; intro hs; rotate_left)
    | (extract_lets +onlyGivenNames s'; with_reducible refine Ends.cut (t := s') ?_ ?_; subst s'; rotate_left; clear_value s'; intro hs; rotate_left)
    | with_reducible refine Ends.next ?_
    | (extract_lets +onlyGivenNames s'; first | (have _e : State → _ := s'; clear _e; subst s') | clear_value s')
    | with_reducible refine State.modPace_touches (by decide) ?_
    | with_reducible refine State.applyRails_touches (by decide) ?_
    | split


theorem execPhaseEvaluate_touches {m : Nat} {s0 : State} {entry : Fin 16} {s : State} (hk : 0x100902000000000000000000000000000000000000000000000000000000000000000041080 ||| m = m)
    (h : Touches m s0 s) : Ends m s0 (execPhaseEvaluate entry s) := by
  refine Ends.step (k := 0x100902000000000000000000000000000000000000000000000000000000000000000041080) (t := s) ?_ hk h
  clear hk h
  unfold execPhaseEvaluate
  have h0 := Touches.refl 0x100902000000000000000000000000000000000000000000000000000000000000000041080 s
  repeat' first
    | with_reducible assumption
    | (extract_lets +onlyGivenNames s'; with_reducible refine Touches.cut (t := s') ?_ ?_; subst s'; rotate_left; clear_value s'; intro hs; rotate_left)
    | (extract_lets +onlyGivenNames s'; with_reducible refine Ends.cut (t := s') ?_ ?_; subst s'; rotate_left; clear_value s'; intro hs; rotate_left)
    | with_reducible refine Ends.next ?_
    | (extract_lets +onlyGivenNames s'; first | (have _e : State → _ := s'; clear _e; subst s') | clear_value s')
    | with_reducible refine State.modPace_touches (by decide) ?_
    | with_reducible refine Touches.set (by first | decide | assumption | (split <;> decide)) ?_
    | with_reducible refine Touches.addSat (by first | decide | assumption | (split <;> decide)) ?_
    | with_reducible refine Touches.raise (by first | decide | assumption | (split <;> decide)) (by decide) ?_
    | split


theorem State.writePhaseA_touches {m : Nat} {s0 : State} {s : State} {i : Nat} {value : Word} (hk : 0x100000000000000000000000000000000000000000000000000000000000000000000000 ||| m = m)
    (h : Touches m s0 s) : Touches m s0 (State.writePhaseA s i value) := by
  refine Touches.step (k := 0x100000000000000000000000000000000000000000000000000000000000000000000000) (t := s) ?_ hk h
  clear hk h
  unfold State.writePhaseA
  have h0 := Touches.refl 0x100000000000000000000000000000000000000000000000000000000000000000000000 s
  repeat' first
    | with_reducible assumption
    | (extract_lets +onlyGivenNames s'; with_reducible refine Touches.cut (t := s') ?_ ?_; subst s'; rotate_left; clear_value s'; intro hs; rotate_left)
    | (extract_lets +onlyGivenNames s'; first | (have _e : State → _ := s'; clear _e; subst s') | clear_value s')
    | with_reducible refine Touches.set (by first | decide | assumption | (split <;> decide)) ?_
    | split


theorem State.sendAdvisory_touches {m : Nat} {s0 : State} {s : State} {a : Advisory} (hk : 0x10200000800000001000000800000001102000000000008000000E3ED000000002000000000100000000206338C ||| m = m)
    (h : Touches m s0 s) : Touches m s0 (State.sendAdvisory s a) := by
  refine Touches.step (k := 0x10200000800000001000000800000001102000000000008000000E3ED000000002000000000100000000206338C) (t := s) ?_ hk h
  clear hk h
  unfold State.sendAdvisory
  have h0 := Touches.refl 0x10200000800000001000000800000001102000000000008000000E3ED000000002000000000100000000206338C s
  repeat' first
    | with_reducible assumption
    | (extract_lets +onlyGivenNames s'; with_reducible refine Touches.cut (t := s') ?_ ?_; subst s'; rotate_left; clear_value s'; intro hs; rotate_left)
    | (extract_lets +onlyGivenNames s'; first | (have _e : State → _ := s'; clear _e; subst s') | clear_value s')
    | with_reducible refine Touches.foldl (fun _ _ _ => ?_) ?_
    | with_reducible refine State.sendBlocks_touches (by decide) ?_
    | with_reducible refine State.wakePort_touches (by decide) ?_
    | with_reducible refine State.enqueueOwn_touches_eq (by assumption) (by decide) ?_
    | with_reducible refine State.enqueueOwn_touches (by decide) ?_
    | with_reducible refine State.modPace_touches (by decide) ?_
    | with_reducible refine Touches.addSat (by first | decide | assumption | (split <;> decide)) ?_
    | with_reducible refine Touches.emit (by decide) ?_
    | split


theorem State.newAdvisory_touches {m : Nat} {s0 : State} {s : State} {a : Advisory} {clears : Nat} (hk : 0x10200000800000001000000800000001102000000000008000000E3ED000000002000000000100000000206338C ||| m = m)
    (h : Touches m s0 s) : Touches m s0 (State.newAdvisory s a clears) := by
  refine Touches.step (k := 0x10200000800000001000000800000001102000000000008000000E3ED000000002000000000100000000206338C) (t := s) ?_ hk h
  clear hk h
  unfold State.newAdvisory
  have h0 := Touches.refl 0x10200000800000001000000800000001102000000000008000000E3ED000000002000000000100000000206338C s
  repeat' first
    | with_reducible assumption
    | (extract_lets +onlyGivenNames s'; with_reducible refine Touches.cut (t := s') ?_ ?_; subst s'; rotate_left; clear_value s'; intro hs; rotate_left)
    | (extract_lets +onlyGivenNames s'; first | (have _e : State → _ := s'; clear _e; subst s') | clear_value s')
    | with_reducible refine State.modPace_touches (by decide) ?_
    | with_reducible refine State.sendAdvisory_touches (by decide) ?_
    | split


theorem execAdvisorySend_touches {m : Nat} {s0 : State} {s : State} (hk : 0x10200000800000001000000800000001102000000000008000000E3ED000000002000000000100000000206338C ||| m = m)
    (h : Touches m s0 s) : Ends m s0 (execAdvisorySend s) := by
  refine Ends.step (k := 0x10200000800000001000000800000001102000000000008000000E3ED000000002000000000100000000206338C) (t := s) ?_ hk h
  clear hk h
  unfold execAdvisorySend
  have h0 := Touches.refl 0x10200000800000001000000800000001102000000000008000000E3ED000000002000000000100000000206338C s
  repeat' first
    | with_reducible assumption
    | (extract_lets +onlyGivenNames s'; with_reducible refine Touches.cut (t := s') ?_ ?_; subst s'; rotate_left; clear_value s'; intro hs; rotate_left)
    | (extract_lets +onlyGivenNames s'; with_reducible refine Ends.cut (t := s') ?_ ?_; subst s'; rotate_left; clear_value s'; intro hs; rotate_left)
    | with_reducible refine Ends.next ?_
    | (extract_lets +onlyGivenNames s'; first | (have _e : State → _ := s'; clear _e; subst s') | clear_value s')
    | with_reducible refine State.newAdvisory_touches (by decide) ?_
    | split


theorem execAdvisoryRefresh_touches {m : Nat} {s0 : State} {s : State} (hk : 0x10200000800000001000000800000001102000000000008000000E3ED000000002000000000100000000206338C ||| m = m)
    (h : Touches m s0 s) : Ends m s0 (execAdvisoryRefresh s) := by
  refine Ends.step (k := 0x10200000800000001000000800000001102000000000008000000E3ED000000002000000000100000000206338C) (t := s) ?_ hk h
  clear hk h
  unfold execAdvisoryRefresh
  have h0 := Touches.refl 0x10200000800000001000000800000001102000000000008000000E3ED000000002000000000100000000206338C s
  repeat' first
    | with_reducible assumption
    | (extract_lets +onlyGivenNames s'; with_reducible refine Touches.cut (t := s') ?_ ?_; subst s'; rotate_left; clear_value s'; intro hs; rotate_left)
    | (extract_lets +onlyGivenNames s'; with_reducible refine Ends.cut (t := s') ?_ ?_; subst s'; rotate_left; clear_value s'; intro hs; rotate_left)
    | with_reducible refine Ends.next ?_
    | (extract_lets +onlyGivenNames s'; first | (have _e : State → _ := s'; clear _e; subst s') | clear_value s')
    | with_reducible refine State.modPace_touches (by decide) ?_
    | with_reducible refine State.sendAdvisory_touches (by decide) ?_
    | split


theorem State.takeAdvisory_touches {m : Nat} {s0 : State} {s : State} {bytes : List Byte} {port : Nat} {viaHost : Bool} (hk : 0x1020000000000000100002680100000000000000000000000000000000000000000000000000000000000043080 ||| m = m)
    (h : Touches m s0 s) : Touches m s0 (State.takeAdvisory s bytes port viaHost) := by
  refine Touches.step (k := 0x1020000000000000100002680100000000000000000000000000000000000000000000000000000000000043080) (t := s) ?_ hk h
  clear hk h
  unfold State.takeAdvisory
  have h0 := Touches.refl 0x1020000000000000100002680100000000000000000000000000000000000000000000000000000000000043080 s
  repeat' first
    | with_reducible assumption
    | (extract_lets +onlyGivenNames s'; with_reducible refine Touches.cut (t := s') ?_ ?_; subst s'; rotate_left; clear_value s'; intro hs; rotate_left)
    | (extract_lets +onlyGivenNames s'; first | (have _e : State → _ := s'; clear _e; subst s') | clear_value s')
    | with_reducible refine State.modPace_touches (by decide) ?_
    | with_reducible refine State.refreshPace_touches (by decide) ?_
    | with_reducible refine Touches.set (by first | decide | assumption | (split <;> decide)) ?_
    | with_reducible refine Touches.setReg (by first | decide | assumption | (split <;> decide)) ?_
    | with_reducible refine Touches.addSat (by first | decide | assumption | (split <;> decide)) ?_
    | with_reducible refine Touches.raise (by first | decide | assumption | (split <;> decide)) (by decide) ?_
    | split


theorem execAdvisoryRx_touches {m : Nat} {s0 : State} {port : PortNo} {bytes : List Byte} {s : State} (hk : 0x1020000000000000100002680100000000000000000000000000000000000000000000000000000000000043080 ||| m = m)
    (h : Touches m s0 s) : Ends m s0 (execAdvisoryRx port bytes s) := by
  refine Ends.step (k := 0x1020000000000000100002680100000000000000000000000000000000000000000000000000000000000043080) (t := s) ?_ hk h
  clear hk h
  unfold execAdvisoryRx
  have h0 := Touches.refl 0x1020000000000000100002680100000000000000000000000000000000000000000000000000000000000043080 s
  repeat' first
    | with_reducible assumption
    | (extract_lets +onlyGivenNames s'; with_reducible refine Touches.cut (t := s') ?_ ?_; subst s'; rotate_left; clear_value s'; intro hs; rotate_left)
    | (extract_lets +onlyGivenNames s'; with_reducible refine Ends.cut (t := s') ?_ ?_; subst s'; rotate_left; clear_value s'; intro hs; rotate_left)
    | with_reducible refine Ends.next ?_
    | (extract_lets +onlyGivenNames s'; first | (have _e : State → _ := s'; clear _e; subst s') | clear_value s')
    | with_reducible refine State.takeAdvisory_touches (by decide) ?_
    | split


theorem execAdvInject_touches {m : Nat} {s0 : State} {value : Word} {s : State} (hk : 0x1020000000000000100003680100000000000000000000000000000000000000000000000000000000000043080 ||| m = m)
    (h : Touches m s0 s) : Ends m s0 (execAdvInject value s) := by
  refine Ends.step (k := 0x1020000000000000100003680100000000000000000000000000000000000000000000000000000000000043080) (t := s) ?_ hk h
  clear hk h
  unfold execAdvInject
  have h0 := Touches.refl 0x1020000000000000100003680100000000000000000000000000000000000000000000000000000000000043080 s
  repeat' first
    | with_reducible assumption
    | (extract_lets +onlyGivenNames s'; with_reducible refine Touches.cut (t := s') ?_ ?_; subst s'; rotate_left; clear_value s'; intro hs; rotate_left)
    | (extract_lets +onlyGivenNames s'; with_reducible refine Ends.cut (t := s') ?_ ?_; subst s'; rotate_left; clear_value s'; intro hs; rotate_left)
    | with_reducible refine Ends.next ?_
    | (extract_lets +onlyGivenNames s'; first | (have _e : State → _ := s'; clear _e; subst s') | clear_value s')
    | with_reducible refine State.takeAdvisory_touches (by decide) ?_
    | with_reducible refine Touches.set (by first | decide | assumption | (split <;> decide)) ?_
    | split


theorem execAdvisoryExpiry_touches {m : Nat} {s0 : State} {member : Fin 64} {s : State} (hk : 0x1020000000000000100002080100000000000000000000000000000000000000000000000000000000000043080 ||| m = m)
    (h : Touches m s0 s) : Ends m s0 (execAdvisoryExpiry member s) := by
  refine Ends.step (k := 0x1020000000000000100002080100000000000000000000000000000000000000000000000000000000000043080) (t := s) ?_ hk h
  clear hk h
  unfold execAdvisoryExpiry
  have h0 := Touches.refl 0x1020000000000000100002080100000000000000000000000000000000000000000000000000000000000043080 s
  repeat' first
    | with_reducible assumption
    | (extract_lets +onlyGivenNames s'; with_reducible refine Touches.cut (t := s') ?_ ?_; subst s'; rotate_left; clear_value s'; intro hs; rotate_left)
    | (extract_lets +onlyGivenNames s'; with_reducible refine Ends.cut (t := s') ?_ ?_; subst s'; rotate_left; clear_value s'; intro hs; rotate_left)
    | with_reducible refine Ends.next ?_
    | (extract_lets +onlyGivenNames s'; first | (have _e : State → _ := s'; clear _e; subst s') | clear_value s')
    | with_reducible refine State.modPace_touches (by decide) ?_
    | with_reducible refine State.refreshPace_touches (by decide) ?_
    | split


theorem State.paceTick_touches {m : Nat} {s0 : State} {s : State} (hk : 0x1004 ||| m = m)
    (h : Touches m s0 s) : Touches m s0 (State.paceTick s) := by
  refine Touches.step (k := 0x1004) (t := s) ?_ hk h
  clear hk h
  unfold State.paceTick
  have h0 := Touches.refl 0x1004 s
  repeat' first
    | with_reducible assumption
    | (extract_lets +onlyGivenNames s'; with_reducible refine Touches.cut (t := s') ?_ ?_; subst s'; rotate_left; clear_value s'; intro hs; rotate_left)
    | (extract_lets +onlyGivenNames s'; first | (have _e : State → _ := s'; clear _e; subst s') | clear_value s')
    | with_reducible refine Touches.foldl (fun _ _ _ => ?_) ?_
    | with_reducible refine State.modPipe_touches (by decide) ?_
    | with_reducible refine State.modPace_touches (by decide) ?_
    | split


theorem State.lowerTick_touches {m : Nat} {s0 : State} {s : State} (hk : 0x10001000000000000000000000000000000000000000000000000000000000000040000 ||| m = m)
    (h : Touches m s0 s) : Touches m s0 (State.lowerTick s) := by
  refine Touches.step (k := 0x10001000000000000000000000000000000000000000000000000000000000000040000) (t := s) ?_ hk h
  clear hk h
  unfold State.lowerTick
  have h0 := Touches.refl 0x10001000000000000000000000000000000000000000000000000000000000000040000 s
  repeat' first
    | with_reducible assumption
    | (extract_lets +onlyGivenNames s'; with_reducible refine Touches.cut (t := s') ?_ ?_; subst s'; rotate_left; clear_value s'; intro hs; rotate_left)
    | (extract_lets +onlyGivenNames s'; first | (have _e : State → _ := s'; clear _e; subst s') | clear_value s')
    | with_reducible refine State.showDroop_touches (by decide) ?_
    | with_reducible refine State.applyRails_touches (by decide) ?_
    | split


theorem State.hubStartsPace_touches {m : Nat} {s0 : State} {s : State} (hk : 0x10000000000000000000000000000000000000000000000000000000000000000001000 ||| m = m)
    (h : Touches m s0 s) : Touches m s0 (State.hubStartsPace s) := by
  refine Touches.step (k := 0x10000000000000000000000000000000000000000000000000000000000000000001000) (t := s) ?_ hk h
  clear hk h
  unfold State.hubStartsPace
  have h0 := Touches.refl 0x10000000000000000000000000000000000000000000000000000000000000000001000 s
  repeat' first
    | with_reducible assumption
    | (extract_lets +onlyGivenNames s'; with_reducible refine Touches.cut (t := s') ?_ ?_; subst s'; rotate_left; clear_value s'; intro hs; rotate_left)
    | (extract_lets +onlyGivenNames s'; first | (have _e : State → _ := s'; clear _e; subst s') | (have _e : PaceBlock := s'; clear _e; subst s') | clear_value s')
    | with_reducible refine Touches.foldl (fun _ _ _ => ?_) ?_
    | with_reducible refine Touches.set (by first | decide | assumption | (split <;> decide)) ?_
    | split
    | with_reducible refine Touches.upd_pace (by decide) ?_


end Sys2Proof.Machine
end

