-- ==== Sys2Proof/Laws/TouchesEnergy.lean ====
section
/-!
SUPPORT. What the operations of Energy.lean can touch.
-/

namespace Sys2Proof.Machine

set_option linter.all false

theorem State.addEnergy_some_touches {m : Nat} {s0 : State} {s : State} {k n i : Nat} {f : Fld}
    (hf : m.testBit f.reg.bit = true) (hk : 0x1000 ||| m = m) (h : Touches m s0 s) :
    Touches m s0 (State.addEnergy s k n (some (f, i))) :=
  Touches.set hf (Touches.upd_pace (by rw [← hk, Nat.testBit_or]; rfl) h)

theorem State.addEnergy_none_touches {m : Nat} {s0 : State} {s : State} {k n : Nat} (hk : 0x1000 ||| m = m)
    (h : Touches m s0 s) : Touches m s0 (State.addEnergy s k n none) :=
  Touches.upd_pace (by rw [← hk, Nat.testBit_or]; rfl) h


theorem State.chargeTroupe_touches {m : Nat} {s0 : State} {s : State} {n e : Nat} (hk : 0xBC000000000000000000000000000000000000000000000000000000000000000000001000 ||| m = m)
    (h : Touches m s0 s) : Touches m s0 (State.chargeTroupe s n e) := by
  refine Touches.step (k := 0xBC000000000000000000000000000000000000000000000000000000000000000000001000) (t := s) ?_ hk h
  clear hk h
  unfold State.chargeTroupe
  have h0 := Touches.refl 0xBC000000000000000000000000000000000000000000000000000000000000000000001000 s
  repeat' first
    | with_reducible assumption
    | (extract_lets +onlyGivenNames s'; with_reducible refine Touches.cut (t := s') ?_ ?_; subst s'; rotate_left; clear_value s'; intro hs; rotate_left)
    | (extract_lets +onlyGivenNames s'; first | (have _e : State → _ := s'; clear _e; subst s') | clear_value s')
    | with_reducible refine State.addEnergy_some_touches (by decide) (by decide) ?_
    | with_reducible refine State.addEnergy_none_touches (by decide) ?_
    | split


theorem State.chargePipe_touches {m : Nat} {s0 : State} {s : State} {p e : Nat} (hk : 0xBC000000000000000000000000000000000000000000000000000000000000000000001000 ||| m = m)
    (h : Touches m s0 s) : Touches m s0 (State.chargePipe s p e) := by
  refine Touches.step (k := 0xBC000000000000000000000000000000000000000000000000000000000000000000001000) (t := s) ?_ hk h
  clear hk h
  unfold State.chargePipe
  have h0 := Touches.refl 0xBC000000000000000000000000000000000000000000000000000000000000000000001000 s
  repeat' first
    | with_reducible assumption
    | (extract_lets +onlyGivenNames s'; with_reducible refine Touches.cut (t := s') ?_ ?_; subst s'; rotate_left; clear_value s'; intro hs; rotate_left)
    | (extract_lets +onlyGivenNames s'; first | (have _e : State → _ := s'; clear _e; subst s') | clear_value s')
    | with_reducible refine State.addEnergy_some_touches (by decide) (by decide) ?_
    | with_reducible refine State.addEnergy_none_touches (by decide) ?_
    | split


theorem State.chargePort_touches {m : Nat} {s0 : State} {s : State} {x e : Nat} (hk : 0xBC000000000000000000000000000000000000000000000000000000000000000000001000 ||| m = m)
    (h : Touches m s0 s) : Touches m s0 (State.chargePort s x e) := by
  refine Touches.step (k := 0xBC000000000000000000000000000000000000000000000000000000000000000000001000) (t := s) ?_ hk h
  clear hk h
  unfold State.chargePort
  have h0 := Touches.refl 0xBC000000000000000000000000000000000000000000000000000000000000000000001000 s
  repeat' first
    | with_reducible assumption
    | (extract_lets +onlyGivenNames s'; with_reducible refine Touches.cut (t := s') ?_ ?_; subst s'; rotate_left; clear_value s'; intro hs; rotate_left)
    | (extract_lets +onlyGivenNames s'; first | (have _e : State → _ := s'; clear _e; subst s') | clear_value s')
    | with_reducible refine State.addEnergy_some_touches (by decide) (by decide) ?_
    | with_reducible refine State.addEnergy_none_touches (by decide) ?_
    | split


theorem State.chargeShared_touches {m : Nat} {s0 : State} {s : State} {g e : Nat} (hk : 0xBC000000000000000000000000000000000000000000000000000000000000000000001000 ||| m = m)
    (h : Touches m s0 s) : Touches m s0 (State.chargeShared s g e) := by
  refine Touches.step (k := 0xBC000000000000000000000000000000000000000000000000000000000000000000001000) (t := s) ?_ hk h
  clear hk h
  unfold State.chargeShared
  have h0 := Touches.refl 0xBC000000000000000000000000000000000000000000000000000000000000000000001000 s
  repeat' first
    | with_reducible assumption
    | (extract_lets +onlyGivenNames s'; with_reducible refine Touches.cut (t := s') ?_ ?_; subst s'; rotate_left; clear_value s'; intro hs; rotate_left)
    | (extract_lets +onlyGivenNames s'; first | (have _e : State → _ := s'; clear _e; subst s') | clear_value s')
    | with_reducible refine State.addEnergy_some_touches (by decide) (by decide) ?_
    | with_reducible refine State.addEnergy_none_touches (by decide) ?_
    | split


theorem State.chargeActivity_touches {m : Nat} {s0 : State} {s : State} {a : Activity} (hk : 0xBC000000000000000000000000000000000000000000000000000000000000000000001000 ||| m = m)
    (h : Touches m s0 s) : Touches m s0 (State.chargeActivity s a) := by
  refine Touches.step (k := 0xBC000000000000000000000000000000000000000000000000000000000000000000001000) (t := s) ?_ hk h
  clear hk h
  unfold State.chargeActivity
  have h0 := Touches.refl 0xBC000000000000000000000000000000000000000000000000000000000000000000001000 s
  repeat' first
    | with_reducible assumption
    | (extract_lets +onlyGivenNames s'; with_reducible refine Touches.cut (t := s') ?_ ?_; subst s'; rotate_left; clear_value s'; intro hs; rotate_left)
    | (extract_lets +onlyGivenNames s'; first | (have _e : State → _ := s'; clear _e; subst s') | clear_value s')
    | with_reducible refine Touches.foldl (fun _ _ _ => ?_) ?_
    | with_reducible refine State.addEnergy_some_touches (by decide) (by decide) ?_
    | with_reducible refine State.addEnergy_none_touches (by decide) ?_
    | with_reducible refine State.chargeTroupe_touches (by decide) ?_
    | with_reducible refine State.chargePipe_touches (by decide) ?_
    | with_reducible refine State.chargePort_touches (by decide) ?_
    | with_reducible refine State.chargeShared_touches (by decide) ?_
    | split


theorem execEnergyTick_touches {m : Nat} {s0 : State} {s : State} (hk : 0xBC000000000000000000000000000000000000000000000000000000000000000000001000 ||| m = m)
    (h : Touches m s0 s) : Ends m s0 (execEnergyTick s) := by
  refine Ends.step (k := 0xBC000000000000000000000000000000000000000000000000000000000000000000001000) (t := s) ?_ hk h
  clear hk h
  unfold execEnergyTick
  have h0 := Touches.refl 0xBC000000000000000000000000000000000000000000000000000000000000000000001000 s
  repeat' first
    | with_reducible assumption
    | (extract_lets +onlyGivenNames s'; with_reducible refine Touches.cut (t := s') ?_ ?_; subst s'; rotate_left; clear_value s'; intro hs; rotate_left)
    | (extract_lets +onlyGivenNames s'; with_reducible refine Ends.cut (t := s') ?_ ?_; subst s'; rotate_left; clear_value s'; intro hs; rotate_left)
    | with_reducible refine Ends.next ?_
    | (extract_lets +onlyGivenNames s'; first | (have _e : State → _ := s'; clear _e; subst s') | clear_value s')
    | with_reducible refine Touches.foldl (fun _ _ _ => ?_) ?_
    | with_reducible refine State.modPace_touches (by decide) ?_
    | with_reducible refine State.addEnergy_some_touches (by decide) (by decide) ?_
    | with_reducible refine State.addEnergy_none_touches (by decide) ?_
    | with_reducible refine State.chargeShared_touches (by decide) ?_
    | with_reducible refine State.chargeActivity_touches (by decide) ?_
    | split


theorem State.showRail_touches {m : Nat} {s0 : State} {s : State} {r : Nat} {v : RailReading} (hk : 0x40000000000000000000000000000000000000000000000000000000000000000001000 ||| m = m)
    (h : Touches m s0 s) : Touches m s0 (State.showRail s r v) := by
  refine Touches.step (k := 0x40000000000000000000000000000000000000000000000000000000000000000001000) (t := s) ?_ hk h
  clear hk h
  unfold State.showRail
  have h0 := Touches.refl 0x40000000000000000000000000000000000000000000000000000000000000000001000 s
  repeat' first
    | with_reducible assumption
    | (extract_lets +onlyGivenNames s'; with_reducible refine Touches.cut (t := s') ?_ ?_; subst s'; rotate_left; clear_value s'; intro hs; rotate_left)
    | (extract_lets +onlyGivenNames s'; first | (have _e : State → _ := s'; clear _e; subst s') | clear_value s')
    | with_reducible refine State.modPace_touches (by decide) ?_
    | with_reducible refine Touches.set (by first | decide | assumption | (split <;> decide)) ?_
    | split


theorem execPmbusMeasure_touches {m : Nat} {s0 : State} {readings : List RailReading} {s : State} (hk : 0x400000000FC040000000000000000000000000000000000000000000000000000000000000000001000 ||| m = m)
    (h : Touches m s0 s) : Ends m s0 (execPmbusMeasure readings s) := by
  refine Ends.step (k := 0x400000000FC040000000000000000000000000000000000000000000000000000000000000000001000) (t := s) ?_ hk h
  clear hk h
  unfold execPmbusMeasure
  have h0 := Touches.refl 0x400000000FC040000000000000000000000000000000000000000000000000000000000000000001000 s
  repeat' first
    | with_reducible assumption
    | (extract_lets +onlyGivenNames s'; with_reducible refine Touches.cut (t := s') ?_ ?_; subst s'; rotate_left; clear_value s'; intro hs; rotate_left)
    | (extract_lets +onlyGivenNames s'; with_reducible refine Ends.cut (t := s') ?_ ?_; subst s'; rotate_left; clear_value s'; intro hs; rotate_left)
    | with_reducible refine Ends.next ?_
    | (extract_lets +onlyGivenNames s'; first | (have _e : State → _ := s'; clear _e; subst s') | clear_value s')
    | with_reducible refine Touches.foldl (fun _ _ _ => ?_) ?_
    | with_reducible refine State.modPace_touches (by decide) ?_
    | with_reducible refine State.addEnergy_some_touches (by decide) (by decide) ?_
    | with_reducible refine State.addEnergy_none_touches (by decide) ?_
    | with_reducible refine State.showRail_touches (by decide) ?_
    | with_reducible refine Touches.set (by first | decide | assumption | (split <;> decide)) ?_
    | split


end Sys2Proof.Machine
end

