-- ==== Sys2Proof/Laws/TouchesPairs.lean ====
section
/-!
SUPPORT. What the operations of Pairs.lean can touch.
-/

namespace Sys2Proof.Machine

set_option linter.all false

theorem State.showPending_touches {m : Nat} {s0 : State} {s : State} {fn : Nat} (hk : 0x10000000000 ||| m = m)
    (h : Touches m s0 s) : Touches m s0 (State.showPending s fn) := by
  refine Touches.step (k := 0x10000000000) (t := s) ?_ hk h
  clear hk h
  unfold State.showPending
  have h0 := Touches.refl 0x10000000000 s
  repeat' first
    | with_reducible assumption
    | (extract_lets +onlyGivenNames s'; with_reducible refine Touches.cut (t := s') ?_ ?_; subst s'; rotate_left; clear_value s'; intro hs; rotate_left)
    | (extract_lets +onlyGivenNames s'; first | (have _e : State → _ := s'; clear _e; subst s') | clear_value s')
    | with_reducible refine Touches.set (by first | decide | assumption | (split <;> decide)) ?_
    | split


theorem State.setLatches_touches {m : Nat} {s0 : State} {s : State} {ls : List PairLatch} (hk : 0x10 ||| m = m)
    (h : Touches m s0 s) : Touches m s0 (State.setLatches s ls) := by
  refine Touches.step (k := 0x10) (t := s) ?_ hk h
  clear hk h
  unfold State.setLatches
  have h0 := Touches.refl 0x10 s
  repeat' first
    | with_reducible assumption
    | (extract_lets +onlyGivenNames s'; with_reducible refine Touches.cut (t := s') ?_ ?_; subst s'; rotate_left; clear_value s'; intro hs; rotate_left)
    | (extract_lets +onlyGivenNames s'; first | (have _e : State → _ := s'; clear _e; subst s') | (have _e : CfgBlock := s'; clear _e; subst s') | clear_value s')
    | split
    | with_reducible refine Touches.upd_cf (by decide) ?_


theorem State.pairDiscard_touches {m : Nat} {s0 : State} {s : State} {fn cause offset lo written : Nat} (hk : 0x800000001000000000000000000000000000000000000000000000000000000000000000F0000040080 ||| m = m)
    (h : Touches m s0 s) : Touches m s0 (State.pairDiscard s fn cause offset lo written) := by
  refine Touches.step (k := 0x800000001000000000000000000000000000000000000000000000000000000000000000F0000040080) (t := s) ?_ hk h
  clear hk h
  unfold State.pairDiscard
  have h0 := Touches.refl 0x800000001000000000000000000000000000000000000000000000000000000000000000F0000040080 s
  repeat' first
    | with_reducible assumption
    | (extract_lets +onlyGivenNames s'; with_reducible refine Touches.cut (t := s') ?_ ?_; subst s'; rotate_left; clear_value s'; intro hs; rotate_left)
    | (extract_lets +onlyGivenNames s'; first | (have _e : State → _ := s'; clear _e; subst s') | clear_value s')
    | with_reducible refine Touches.set (by first | decide | assumption | (split <;> decide)) ?_
    | with_reducible refine Touches.addSat (by first | decide | assumption | (split <;> decide)) ?_
    | with_reducible refine Touches.raise (by first | decide | assumption | (split <;> decide)) (by decide) ?_
    | with_reducible refine Touches.raiseWin (by first | decide | assumption | (split <;> decide)) (by decide) ?_
    | split


theorem State.dropLatch_touches {m : Nat} {s0 : State} {s : State} {l : PairLatch} {cause : Nat} (hk : 0x800000001000000000000000000000000000000000000000000000000000000000000000F0000040090 ||| m = m)
    (h : Touches m s0 s) : Touches m s0 (State.dropLatch s l cause) := by
  refine Touches.step (k := 0x800000001000000000000000000000000000000000000000000000000000000000000000F0000040090) (t := s) ?_ hk h
  clear hk h
  unfold State.dropLatch
  have h0 := Touches.refl 0x800000001000000000000000000000000000000000000000000000000000000000000000F0000040090 s
  repeat' first
    | with_reducible assumption
    | (extract_lets +onlyGivenNames s'; with_reducible refine Touches.cut (t := s') ?_ ?_; subst s'; rotate_left; clear_value s'; intro hs; rotate_left)
    | (extract_lets +onlyGivenNames s'; first | (have _e : State → _ := s'; clear _e; subst s') | clear_value s')
    | with_reducible refine State.showPending_touches (by decide) ?_
    | with_reducible refine State.setLatches_touches (by decide) ?_
    | with_reducible refine State.pairDiscard_touches (by decide) ?_
    | split


theorem State.pairDue_touches {m : Nat} {s0 : State} {s : State} {d : PairDue} (hk : 0x10 ||| m = m)
    (h : Touches m s0 s) : Touches m s0 (State.pairDue s d) := by
  refine Touches.step (k := 0x10) (t := s) ?_ hk h
  clear hk h
  unfold State.pairDue
  have h0 := Touches.refl 0x10 s
  repeat' first
    | with_reducible assumption
    | (extract_lets +onlyGivenNames s'; with_reducible refine Touches.cut (t := s') ?_ ?_; subst s'; rotate_left; clear_value s'; intro hs; rotate_left)
    | (extract_lets +onlyGivenNames s'; first | (have _e : State → _ := s'; clear _e; subst s') | (have _e : CfgBlock := s'; clear _e; subst s') | clear_value s')
    | split
    | with_reducible refine Touches.upd_cf (by decide) ?_


theorem State.pairTake_touches {m : Nat} {s0 : State} {s : State} {f g : PairField} {v w : Nat} (hk : 0x3FFFFFFFFFFFFFFFFFFFFFFFFFFFFFFFFFFFFFFFFFFFFFFFFFFFFFFFFFFFFFFFFFFFFFFFFFFFFFFFFFFFFFFFFFC20B4 ||| m = m)
    (h : Touches m s0 s) : Touches m s0 (State.pairTake s f g v w) := by
  refine Touches.step (k := 0x3FFFFFFFFFFFFFFFFFFFFFFFFFFFFFFFFFFFFFFFFFFFFFFFFFFFFFFFFFFFFFFFFFFFFFFFFFFFFFFFFFFFFFFFFFC20B4) (t := s) ?_ hk h
  clear hk h
  unfold State.pairTake
  have h0 := Touches.refl 0x3FFFFFFFFFFFFFFFFFFFFFFFFFFFFFFFFFFFFFFFFFFFFFFFFFFFFFFFFFFFFFFFFFFFFFFFFFFFFFFFFFFFFFFFFFC20B4 s
  repeat' first
    | with_reducible assumption
    | (extract_lets +onlyGivenNames s'; with_reducible refine Touches.cut (t := s') ?_ ?_; subst s'; rotate_left; clear_value s'; intro hs; rotate_left)
    | (extract_lets +onlyGivenNames s'; first | (have _e : State → _ := s'; clear _e; subst s') | clear_value s')
    | with_reducible refine State.pairRefill_touches (by decide) ?_
    | with_reducible refine State.timePair_touches (by decide) ?_
    | with_reducible refine State.pairDue_touches (by decide) ?_
    | with_reducible refine Touches.set (by first | decide | (exact all_regs (by decide) _)) ?_
    | split


theorem State.pairWrite_touches {m : Nat} {s0 : State} {s : State} {fn : Nat} {f : PairField} {v written offset : Nat} (hk : 0x3FFFFFFFFFFFFFFFFFFFFFFFFFFFFFFFFFFFFFFFFFFFFFFFFFFFFFFFFFFFFFFFFFFFFFFFFFFFFFFFFFFFFFFFFFC20B4 ||| m = m)
    (h : Touches m s0 s) : Touches m s0 (State.pairWrite s fn f v written offset) := by
  refine Touches.step (k := 0x3FFFFFFFFFFFFFFFFFFFFFFFFFFFFFFFFFFFFFFFFFFFFFFFFFFFFFFFFFFFFFFFFFFFFFFFFFFFFFFFFFFFFFFFFFC20B4) (t := s) ?_ hk h
  clear hk h
  unfold State.pairWrite
  have h0 := Touches.refl 0x3FFFFFFFFFFFFFFFFFFFFFFFFFFFFFFFFFFFFFFFFFFFFFFFFFFFFFFFFFFFFFFFFFFFFFFFFFFFFFFFFFFFFFFFFFC20B4 s
  repeat' first
    | with_reducible assumption
    | (extract_lets +onlyGivenNames s'; with_reducible refine Touches.cut (t := s') ?_ ?_; subst s'; rotate_left; clear_value s'; intro hs; rotate_left)
    | (extract_lets +onlyGivenNames s'; first | (have _e : State → _ := s'; clear _e; subst s') | clear_value s')
    | with_reducible refine State.showPending_touches (by decide) ?_
    | with_reducible refine State.setLatches_touches (by decide) ?_
    | with_reducible refine State.pairDiscard_touches (by decide) ?_
    | with_reducible refine State.pairTake_touches (by decide) ?_
    | split


theorem execPairTimeout_touches {m : Nat} {s0 : State} {s : State} (hk : 0x800000001000000000000000000000000000000000000000000000000000000000000000F0000040090 ||| m = m)
    (h : Touches m s0 s) : Ends m s0 (execPairTimeout s) := by
  refine Ends.step (k := 0x800000001000000000000000000000000000000000000000000000000000000000000000F0000040090) (t := s) ?_ hk h
  clear hk h
  unfold execPairTimeout
  have h0 := Touches.refl 0x800000001000000000000000000000000000000000000000000000000000000000000000F0000040090 s
  repeat' first
    | with_reducible assumption
    | (extract_lets +onlyGivenNames s'; with_reducible refine Touches.cut (t := s') ?_ ?_; subst s'; rotate_left; clear_value s'; intro hs; rotate_left)
    | (extract_lets +onlyGivenNames s'; with_reducible refine Ends.cut (t := s') ?_ ?_; subst s'; rotate_left; clear_value s'; intro hs; rotate_left)
    | with_reducible refine Ends.next ?_
    | (extract_lets +onlyGivenNames s'; first | (have _e : State → _ := s'; clear _e; subst s') | clear_value s')
    | with_reducible refine Touches.foldl (fun _ _ _ => ?_) ?_
    | with_reducible refine State.dropLatch_touches (by decide) ?_
    | split


end Sys2Proof.Machine
end

