-- ==== Sys2Proof/Laws/TouchesRecords.lean ====
section
/-!
SUPPORT. What the operations of Records.lean can touch.
-/

namespace Sys2Proof.Machine

set_option linter.all false

theorem State.modBbx_touches {m : Nat} {s0 : State} {s : State} {f : BlackBox → BlackBox} (hk : 0x2000 ||| m = m)
    (h : Touches m s0 s) : Touches m s0 (State.modBbx s f) := by
  refine Touches.step (k := 0x2000) (t := s) ?_ hk h
  clear hk h
  unfold State.modBbx
  have h0 := Touches.refl 0x2000 s
  repeat' first
    | with_reducible assumption
    | (extract_lets +onlyGivenNames s'; with_reducible refine Touches.cut (t := s') ?_ ?_; subst s'; rotate_left; clear_value s'; intro hs; rotate_left)
    | (extract_lets +onlyGivenNames s'; first | (have _e : State → _ := s'; clear _e; subst s') | (have _e : BlackBox := s'; clear _e; subst s') | clear_value s')
    | split
    | with_reducible refine Touches.upd_bbx (by decide) ?_


theorem State.modPkg_touches {m : Nat} {s0 : State} {s : State} {f : PkgBlock → PkgBlock} (hk : 0x10000 ||| m = m)
    (h : Touches m s0 s) : Touches m s0 (State.modPkg s f) := by
  refine Touches.step (k := 0x10000) (t := s) ?_ hk h
  clear hk h
  unfold State.modPkg
  have h0 := Touches.refl 0x10000 s
  repeat' first
    | with_reducible assumption
    | (extract_lets +onlyGivenNames s'; with_reducible refine Touches.cut (t := s') ?_ ?_; subst s'; rotate_left; clear_value s'; intro hs; rotate_left)
    | (extract_lets +onlyGivenNames s'; first | (have _e : State → _ := s'; clear _e; subst s') | (have _e : PkgBlock := s'; clear _e; subst s') | clear_value s')
    | split
    | with_reducible refine Touches.upd_pkg (by decide) ?_


theorem State.showBbx_touches {m : Nat} {s0 : State} {s : State} (hk : 0x38000000000000000000000000000000000000000000000000000000000000000000000000000000000000000 ||| m = m)
    (h : Touches m s0 s) : Touches m s0 (State.showBbx s) := by
  refine Touches.step (k := 0x38000000000000000000000000000000000000000000000000000000000000000000000000000000000000000) (t := s) ?_ hk h
  clear hk h
  unfold State.showBbx
  have h0 := Touches.refl 0x38000000000000000000000000000000000000000000000000000000000000000000000000000000000000000 s
  repeat' first
    | with_reducible assumption
    | (extract_lets +onlyGivenNames s'; with_reducible refine Touches.cut (t := s') ?_ ?_; subst s'; rotate_left; clear_value s'; intro hs; rotate_left)
    | (extract_lets +onlyGivenNames s'; first | (have _e : State → _ := s'; clear _e; subst s') | clear_value s')
    | with_reducible refine Touches.set (by first | decide | assumption | (split <;> decide)) ?_
    | split


theorem State.refreshAlert_touches {m : Nat} {s0 : State} {s : State} (hk : 0x50000 ||| m = m)
    (h : Touches m s0 s) : Touches m s0 (State.refreshAlert s) := by
  refine Touches.step (k := 0x50000) (t := s) ?_ hk h
  clear hk h
  unfold State.refreshAlert
  have h0 := Touches.refl 0x50000 s
  repeat' first
    | with_reducible assumption
    | (extract_lets +onlyGivenNames s'; with_reducible refine Touches.cut (t := s') ?_ ?_; subst s'; rotate_left; clear_value s'; intro hs; rotate_left)
    | (extract_lets +onlyGivenNames s'; first | (have _e : State → _ := s'; clear _e; subst s') | clear_value s')
    | with_reducible refine State.modPkg_touches (by decide) ?_
    | with_reducible refine Touches.emit (by decide) ?_
    | split


theorem State.writeRecord_touches {m : Nat} {s0 : State} {s : State} {r : BbxRecord} (hk : 0x1038000000000000100000000000000000000000000000000000000000000000000000000000000000000052080 ||| m = m)
    (h : Touches m s0 s) : Touches m s0 (State.writeRecord s r) := by
  refine Touches.step (k := 0x1038000000000000100000000000000000000000000000000000000000000000000000000000000000000052080) (t := s) ?_ hk h
  clear hk h
  unfold State.writeRecord
  have h0 := Touches.refl 0x1038000000000000100000000000000000000000000000000000000000000000000000000000000000000052080 s
  repeat' first
    | with_reducible assumption
    | (extract_lets +onlyGivenNames s'; with_reducible refine Touches.cut (t := s') ?_ ?_; subst s'; rotate_left; clear_value s'; intro hs; rotate_left)
    | (extract_lets +onlyGivenNames s'; first | (have _e : State → _ := s'; clear _e; subst s') | clear_value s')
    | with_reducible refine State.record_touches (by decide) ?_
    | with_reducible refine State.modBbx_touches (by decide) ?_
    | with_reducible refine State.showBbx_touches (by decide) ?_
    | with_reducible refine State.refreshAlert_touches (by decide) ?_
    | with_reducible refine Touches.set (by first | decide | assumption | (split <;> decide)) ?_
    | with_reducible refine Touches.raise (by first | decide | assumption | (split <;> decide)) (by decide) ?_
    | split


theorem execBbxRecordWrite_touches {m : Nat} {s0 : State} {s : State} (hk : 0x1038000000000000100000000000000000000000000000000000000000000000000000000000000000000052080 ||| m = m)
    (h : Touches m s0 s) : Ends m s0 (execBbxRecordWrite s) := by
  refine Ends.step (k := 0x1038000000000000100000000000000000000000000000000000000000000000000000000000000000000052080) (t := s) ?_ hk h
  clear hk h
  unfold execBbxRecordWrite
  have h0 := Touches.refl 0x1038000000000000100000000000000000000000000000000000000000000000000000000000000000000052080 s
  repeat' first
    | with_reducible assumption
    | (extract_lets +onlyGivenNames s'; with_reducible refine Touches.cut (t := s') ?_ ?_; subst s'; rotate_left; clear_value s'; intro hs; rotate_left)
    | (extract_lets +onlyGivenNames s'; with_reducible refine Ends.cut (t := s') ?_ ?_; subst s'; rotate_left; clear_value s'; intro hs; rotate_left)
    | with_reducible refine Ends.next ?_
    | (extract_lets +onlyGivenNames s'; first | (have _e : State → _ := s'; clear _e; subst s') | clear_value s')
    | with_reducible refine State.modBbx_touches (by decide) ?_
    | with_reducible refine State.writeRecord_touches (by decide) ?_
    | split


theorem execBbxScan_touches {m : Nat} {s0 : State} {s : State} (hk : 0x1038000000000000100000000000000000000000000000000000000000000000000000000000006000000052080 ||| m = m)
    (h : Touches m s0 s) : Ends m s0 (execBbxScan s) := by
  refine Ends.step (k := 0x1038000000000000100000000000000000000000000000000000000000000000000000000000006000000052080) (t := s) ?_ hk h
  clear hk h
  unfold execBbxScan
  have h0 := Touches.refl 0x1038000000000000100000000000000000000000000000000000000000000000000000000000006000000052080 s
  repeat' first
    | with_reducible assumption
    | (extract_lets +onlyGivenNames s'; with_reducible refine Touches.cut (t := s') ?_ ?_; subst s'; rotate_left; clear_value s'; intro hs; rotate_left)
    | (extract_lets +onlyGivenNames s'; with_reducible refine Ends.cut (t := s') ?_ ?_; subst s'; rotate_left; clear_value s'; intro hs; rotate_left)
    | with_reducible refine Ends.next ?_
    | (extract_lets +onlyGivenNames s'; first | (have _e : State → _ := s'; clear _e; subst s') | clear_value s')
    | with_reducible refine Touches.foldl (fun _ _ _ => ?_) ?_
    | with_reducible refine State.record_touches (by decide) ?_
    | with_reducible refine State.setReady_touches (by decide) ?_
    | with_reducible refine State.modBbx_touches (by decide) ?_
    | with_reducible refine State.showBbx_touches (by decide) ?_
    | with_reducible refine State.refreshAlert_touches (by decide) ?_
    | with_reducible refine Touches.set (by first | decide | assumption | (split <;> decide)) ?_
    | with_reducible refine Touches.addSat (by first | decide | assumption | (split <;> decide)) ?_
    | with_reducible refine Touches.raise (by first | decide | assumption | (split <;> decide)) (by decide) ?_
    | split


theorem State.seal_touches {m : Nat} {s0 : State} {s : State} {rs : List BbxRecord} {nonce : List Byte} (hk : 0x20000 ||| m = m)
    (h : Touches m s0 s) : Touches m s0 (State.seal s rs nonce).2 := by
  refine Touches.step (k := 0x20000) (t := s) ?_ hk h
  clear hk h
  unfold State.seal
  have h0 := Touches.refl 0x20000 s
  repeat' first
    | with_reducible assumption
    | (extract_lets +onlyGivenNames s'; with_reducible refine Touches.cut (t := s') ?_ ?_; subst s'; rotate_left; clear_value s'; intro hs; rotate_left)
    | (extract_lets +onlyGivenNames s'; first | (have _e : State → _ := s'; clear _e; subst s') | clear_value s')
    | with_reducible refine State.draw_touches_eq (by assumption) (by decide) ?_
    | with_reducible refine State.draw_touches (by decide) ?_
    | split

theorem State.seal_touches_eq {m : Nat} {s0 t₁ : State} {s : State} {rs : List BbxRecord} {nonce : List Byte} {a₁ : List Byte} (e₁ : State.seal s rs nonce = (a₁, t₁))
    (hk : 0x20000 ||| m = m) (h : Touches m s0 s) : Touches m s0 t₁ := Touches.snd e₁ (State.seal_touches hk h)


theorem execSealedReadout_touches {m : Nat} {s0 : State} {value : Word} {s : State} (hk : 0x40000000000000000000000000000000000000000000000000000000000000000000000000000000000002000 ||| m = m)
    (h : Touches m s0 s) : Ends m s0 (execSealedReadout value s) := by
  refine Ends.step (k := 0x40000000000000000000000000000000000000000000000000000000000000000000000000000000000002000) (t := s) ?_ hk h
  clear hk h
  unfold execSealedReadout
  have h0 := Touches.refl 0x40000000000000000000000000000000000000000000000000000000000000000000000000000000000002000 s
  repeat' first
    | with_reducible assumption
    | (extract_lets +onlyGivenNames s'; with_reducible refine Touches.cut (t := s') ?_ ?_; subst s'; rotate_left; clear_value s'; intro hs; rotate_left)
    | (extract_lets +onlyGivenNames s'; with_reducible refine Ends.cut (t := s') ?_ ?_; subst s'; rotate_left; clear_value s'; intro hs; rotate_left)
    | with_reducible refine Ends.next ?_
    | (extract_lets +onlyGivenNames s'; first | (have _e : State → _ := s'; clear _e; subst s') | clear_value s')
    | with_reducible refine State.modBbx_touches (by decide) ?_
    | with_reducible refine Touches.set (by first | decide | assumption | (split <;> decide)) ?_
    | split


theorem State.dmaList_touches {m : Nat} {s0 : State} {s : State} {addr : Nat} {z0 : List (List Byte)} (hk : 0x40000 ||| m = m)
    (h : Touches m s0 s) : Touches m s0 (State.dmaList s addr z0) := by
  refine Touches.step (k := 0x40000) (t := s) ?_ hk h
  clear hk h
  have h0 := Touches.refl 0x40000 s
  suffices key : ∀ a, Touches 0x40000 a s → Touches 0x40000 a (State.dmaList s addr z0) from key _ h0
  clear h0
  intro a h0
  induction z0 generalizing s addr with
  | nil => unfold State.dmaList; exact h0
  | cons x xs ih =>
    unfold State.dmaList
    repeat' first
      | with_reducible assumption
      | with_reducible refine ih ?_
      | (extract_lets +onlyGivenNames s'; with_reducible refine Touches.cut (t := s') ?_ ?_; subst s'; rotate_left; clear_value s'; intro hs; rotate_left)
      | (extract_lets +onlyGivenNames s'; first | (have _e : State → _ := s'; clear _e; subst s') | clear_value s')
      | with_reducible refine Touches.emit (by decide) ?_
      | split


theorem execSealedReadoutDone_touches {m : Nat} {s0 : State} {dmaError : Bool} {s : State} (hk : 0x1040000000000000100000000000000000000000000000000000000000000000000000000000000000000062080 ||| m = m)
    (h : Touches m s0 s) : Ends m s0 (execSealedReadoutDone dmaError s) := by
  refine Ends.step (k := 0x1040000000000000100000000000000000000000000000000000000000000000000000000000000000000062080) (t := s) ?_ hk h
  clear hk h
  unfold execSealedReadoutDone
  have h0 := Touches.refl 0x1040000000000000100000000000000000000000000000000000000000000000000000000000000000000062080 s
  repeat' first
    | with_reducible assumption
    | (extract_lets +onlyGivenNames s'; with_reducible refine Touches.cut (t := s') ?_ ?_; subst s'; rotate_left; clear_value s'; intro hs; rotate_left)
    | (extract_lets +onlyGivenNames s'; with_reducible refine Ends.cut (t := s') ?_ ?_; subst s'; rotate_left; clear_value s'; intro hs; rotate_left)
    | with_reducible refine Ends.next ?_
    | (extract_lets +onlyGivenNames s'; first | (have _e : State → _ := s'; clear _e; subst s') | clear_value s')
    | with_reducible refine State.modBbx_touches (by decide) ?_
    | with_reducible refine State.seal_touches_eq (by assumption) (by decide) ?_
    | with_reducible refine State.seal_touches (by decide) ?_
    | with_reducible refine State.dmaList_touches (by decide) ?_
    | with_reducible refine Touches.set (by first | decide | assumption | (split <;> decide)) ?_
    | with_reducible refine Touches.raise (by first | decide | assumption | (split <;> decide)) (by decide) ?_
    | split


theorem execHostNote_touches {m : Nat} {s0 : State} {value : Word} {s : State} (hk : 0x1820000000000000100000000000000000000000000000000000000000000000000000000000000000000042080 ||| m = m)
    (h : Touches m s0 s) : Ends m s0 (execHostNote value s) := by
  refine Ends.step (k := 0x1820000000000000100000000000000000000000000000000000000000000000000000000000000000000042080) (t := s) ?_ hk h
  clear hk h
  unfold execHostNote
  have h0 := Touches.refl 0x1820000000000000100000000000000000000000000000000000000000000000000000000000000000000042080 s
  repeat' first
    | with_reducible assumption
    | (extract_lets +onlyGivenNames s'; with_reducible refine Touches.cut (t := s') ?_ ?_; subst s'; rotate_left; clear_value s'; intro hs; rotate_left)
    | (extract_lets +onlyGivenNames s'; with_reducible refine Ends.cut (t := s') ?_ ?_; subst s'; rotate_left; clear_value s'; intro hs; rotate_left)
    | with_reducible refine Ends.next ?_
    | (extract_lets +onlyGivenNames s'; first | (have _e : State → _ := s'; clear _e; subst s') | clear_value s')
    | with_reducible refine State.recordFrom_touches (by decide) ?_
    | with_reducible refine State.modBbx_touches (by decide) ?_
    | with_reducible refine Touches.set (by first | decide | assumption | (split <;> decide)) ?_
    | split


theorem State.keeperSeal_touches {m : Nat} {s0 : State} {s : State} {first count : Nat} {nonce : List Byte} (hk : 0x20000 ||| m = m)
    (h : Touches m s0 s) : Touches m s0 (State.keeperSeal s first count nonce).2 := by
  refine Touches.step (k := 0x20000) (t := s) ?_ hk h
  clear hk h
  unfold State.keeperSeal
  have h0 := Touches.refl 0x20000 s
  repeat' first
    | with_reducible assumption
    | (extract_lets +onlyGivenNames s'; with_reducible refine Touches.cut (t := s') ?_ ?_; subst s'; rotate_left; clear_value s'; intro hs; rotate_left)
    | (extract_lets +onlyGivenNames s'; first | (have _e : State → _ := s'; clear _e; subst s') | clear_value s')
    | with_reducible refine State.seal_touches_eq (by assumption) (by decide) ?_
    | with_reducible refine State.seal_touches (by decide) ?_
    | split

theorem State.keeperSeal_touches_eq {m : Nat} {s0 t₁ : State} {s : State} {first count : Nat} {nonce : List Byte} {a₁ : List Byte} (e₁ : State.keeperSeal s first count nonce = (a₁, t₁))
    (hk : 0x20000 ||| m = m) (h : Touches m s0 s) : Touches m s0 t₁ := Touches.snd e₁ (State.keeperSeal_touches hk h)


theorem execKeeperGetStatus_touches {m : Nat} {s0 : State} {s : State} (hk : 0x50000 ||| m = m)
    (h : Touches m s0 s) : Ends m s0 (execKeeperGetStatus s) := by
  refine Ends.step (k := 0x50000) (t := s) ?_ hk h
  clear hk h
  unfold execKeeperGetStatus
  have h0 := Touches.refl 0x50000 s
  repeat' first
    | with_reducible assumption
    | (extract_lets +onlyGivenNames s'; with_reducible refine Touches.cut (t := s') ?_ ?_; subst s'; rotate_left; clear_value s'; intro hs; rotate_left)
    | (extract_lets +onlyGivenNames s'; with_reducible refine Ends.cut (t := s') ?_ ?_; subst s'; rotate_left; clear_value s'; intro hs; rotate_left)
    | with_reducible refine Ends.next ?_
    | (extract_lets +onlyGivenNames s'; first | (have _e : State → _ := s'; clear _e; subst s') | clear_value s')
    | with_reducible refine State.modPkg_touches (by decide) ?_
    | with_reducible refine State.refreshAlert_touches (by decide) ?_
    | with_reducible refine Touches.emit (by decide) ?_
    | split


theorem execKeeperGetRecords_touches {m : Nat} {s0 : State} {first : Nat} {count : Fin 256} {s : State} (hk : 0x50000 ||| m = m)
    (h : Touches m s0 s) : Ends m s0 (execKeeperGetRecords first count s) := by
  refine Ends.step (k := 0x50000) (t := s) ?_ hk h
  clear hk h
  unfold execKeeperGetRecords
  have h0 := Touches.refl 0x50000 s
  repeat' first
    | with_reducible assumption
    | (extract_lets +onlyGivenNames s'; with_reducible refine Touches.cut (t := s') ?_ ?_; subst s'; rotate_left; clear_value s'; intro hs; rotate_left)
    | (extract_lets +onlyGivenNames s'; with_reducible refine Ends.cut (t := s') ?_ ?_; subst s'; rotate_left; clear_value s'; intro hs; rotate_left)
    | with_reducible refine Ends.next ?_
    | (extract_lets +onlyGivenNames s'; first | (have _e : State → _ := s'; clear _e; subst s') | clear_value s')
    | with_reducible refine State.modPkg_touches (by decide) ?_
    | with_reducible refine State.refreshAlert_touches (by decide) ?_
    | with_reducible refine Touches.emit (by decide) ?_
    | split


theorem execKeeperGetSeal_touches {m : Nat} {s0 : State} {first : Nat} {count : Fin 65536} {nonce : List Byte} {s : State} (hk : 0x60000 ||| m = m)
    (h : Touches m s0 s) : Ends m s0 (execKeeperGetSeal first count nonce s) := by
  refine Ends.step (k := 0x60000) (t := s) ?_ hk h
  clear hk h
  unfold execKeeperGetSeal
  have h0 := Touches.refl 0x60000 s
  repeat' first
    | with_reducible assumption
    | (extract_lets +onlyGivenNames s'; with_reducible refine Touches.cut (t := s') ?_ ?_; subst s'; rotate_left; clear_value s'; intro hs; rotate_left)
    | (extract_lets +onlyGivenNames s'; with_reducible refine Ends.cut (t := s') ?_ ?_; subst s'; rotate_left; clear_value s'; intro hs; rotate_left)
    | with_reducible refine Ends.next ?_
    | (extract_lets +onlyGivenNames s'; first | (have _e : State → _ := s'; clear _e; subst s') | clear_value s')
    | with_reducible refine State.keeperSeal_touches_eq (by assumption) (by decide) ?_
    | with_reducible refine State.keeperSeal_touches (by decide) ?_
    | with_reducible refine Touches.emit (by decide) ?_
    | split


end Sys2Proof.Machine
end

