-- ==== Sys2Proof/Laws/TouchesLoadState.lean ====
section
/-!
SUPPORT. What the operations of LoadState.lean can touch.
-/

namespace Sys2Proof.Machine

set_option linter.all false

theorem State.setLoad_touches {m : Nat} {s0 : State} {s : State} {l : Option LoadRec} (hk : 0x10 ||| m = m)
    (h : Touches m s0 s) : Touches m s0 (State.setLoad s l) := by
  refine Touches.step (k := 0x10) (t := s) ?_ hk h
  clear hk h
  unfold State.setLoad
  have h0 := Touches.refl 0x10 s
  repeat' first
    | with_reducible assumption
    | (extract_lets +onlyGivenNames s'; with_reducible refine Touches.cut (t := s') ?_ ?_; subst s'; rotate_left; clear_value s'; intro hs; rotate_left)
    | (extract_lets +onlyGivenNames s'; first | (have _e : State → _ := s'; clear _e; subst s') | (have _e : CfgBlock := s'; clear _e; subst s') | clear_value s')
    | split
    | with_reducible refine Touches.upd_cf (by decide) ?_


theorem State.startLoad_touches {m : Nat} {s0 : State} {s : State} {source : Nat} {verifyOnly list : Bool} (hk : 0x20040010 ||| m = m)
    (h : Touches m s0 s) : Touches m s0 (State.startLoad s source verifyOnly list) := by
  refine Touches.step (k := 0x20040010) (t := s) ?_ hk h
  clear hk h
  unfold State.startLoad
  have h0 := Touches.refl 0x20040010 s
  repeat' first
    | with_reducible assumption
    | (extract_lets +onlyGivenNames s'; with_reducible refine Touches.cut (t := s') ?_ ?_; subst s'; rotate_left; clear_value s'; intro hs; rotate_left)
    | (extract_lets +onlyGivenNames s'; first | (have _e : State → _ := s'; clear _e; subst s') | clear_value s')
    | with_reducible refine State.setLoad_touches (by decide) ?_
    | with_reducible refine Touches.set (by first | decide | assumption | (split <;> decide)) ?_
    | with_reducible refine Touches.emit (by decide) ?_
    | split


theorem State.rejectReport_touches {m : Nat} {s0 : State} {s : State} {cause section_ source serial : Nat} (hk : 0x1020000000000000100000000000000000000000000000000000000000000000000000000000000080020042080 ||| m = m)
    (h : Touches m s0 s) : Touches m s0 (State.rejectReport s cause section_ source serial) := by
  refine Touches.step (k := 0x1020000000000000100000000000000000000000000000000000000000000000000000000000000080020042080) (t := s) ?_ hk h
  clear hk h
  unfold State.rejectReport
  have h0 := Touches.refl 0x1020000000000000100000000000000000000000000000000000000000000000000000000000000080020042080 s
  repeat' first
    | with_reducible assumption
    | (extract_lets +onlyGivenNames s'; with_reducible refine Touches.cut (t := s') ?_ ?_; subst s'; rotate_left; clear_value s'; intro hs; rotate_left)
    | (extract_lets +onlyGivenNames s'; first | (have _e : State → _ := s'; clear _e; subst s') | clear_value s')
    | with_reducible refine State.record_touches (by decide) ?_
    | with_reducible refine Touches.set (by first | decide | assumption | (split <;> decide)) ?_
    | with_reducible refine Touches.raise (by first | decide | assumption | (split <;> decide)) (by decide) ?_
    | split


theorem State.rejectLoad_touches {m : Nat} {s0 : State} {s : State} {cause section_ : Nat} (hk : 0x1020000000000000100000000000000000000000000000000000000000000000000000000000000080020042090 ||| m = m)
    (h : Touches m s0 s) : Touches m s0 (State.rejectLoad s cause section_) := by
  refine Touches.step (k := 0x1020000000000000100000000000000000000000000000000000000000000000000000000000000080020042090) (t := s) ?_ hk h
  clear hk h
  unfold State.rejectLoad
  have h0 := Touches.refl 0x1020000000000000100000000000000000000000000000000000000000000000000000000000000080020042090 s
  repeat' first
    | with_reducible assumption
    | (extract_lets +onlyGivenNames s'; with_reducible refine Touches.cut (t := s') ?_ ?_; subst s'; rotate_left; clear_value s'; intro hs; rotate_left)
    | (extract_lets +onlyGivenNames s'; first | (have _e : State → _ := s'; clear _e; subst s') | (have _e : CfgBlock := s'; clear _e; subst s') | clear_value s')
    | with_reducible refine State.setLoad_touches (by decide) ?_
    | with_reducible refine State.startLoad_touches (by decide) ?_
    | with_reducible refine State.rejectReport_touches (by decide) ?_
    | with_reducible refine Touches.set (by first | decide | assumption | (split <;> decide)) ?_
    | split
    | with_reducible refine Touches.upd_cf (by decide) ?_


theorem State.loadDone_touches {m : Nat} {s0 : State} {s : State} (hk : 0x100000000000000000000000000000000000000000000000000000000000000080020040090 ||| m = m)
    (h : Touches m s0 s) : Touches m s0 (State.loadDone s) := by
  refine Touches.step (k := 0x100000000000000000000000000000000000000000000000000000000000000080020040090) (t := s) ?_ hk h
  clear hk h
  unfold State.loadDone
  have h0 := Touches.refl 0x100000000000000000000000000000000000000000000000000000000000000080020040090 s
  repeat' first
    | with_reducible assumption
    | (extract_lets +onlyGivenNames s'; with_reducible refine Touches.cut (t := s') ?_ ?_; subst s'; rotate_left; clear_value s'; intro hs; rotate_left)
    | (extract_lets +onlyGivenNames s'; first | (have _e : State → _ := s'; clear _e; subst s') | (have _e : CfgBlock := s'; clear _e; subst s') | clear_value s')
    | with_reducible refine State.setLoad_touches (by decide) ?_
    | with_reducible refine Touches.set (by first | decide | assumption | (split <;> decide)) ?_
    | with_reducible refine Touches.raise (by first | decide | assumption | (split <;> decide)) (by decide) ?_
    | split
    | with_reducible refine Touches.upd_cf (by decide) ?_


theorem State.imageRecord_touches {m : Nat} {s0 : State} {s : State} {l : LoadRec} (hk : 0x1020000000000000100000000000000000000000000000000000000000000000000000000000000000000042080 ||| m = m)
    (h : Touches m s0 s) : Touches m s0 (State.imageRecord s l) := by
  refine Touches.step (k := 0x1020000000000000100000000000000000000000000000000000000000000000000000000000000000000042080) (t := s) ?_ hk h
  clear hk h
  unfold State.imageRecord
  have h0 := Touches.refl 0x1020000000000000100000000000000000000000000000000000000000000000000000000000000000000042080 s
  repeat' first
    | with_reducible assumption
    | (extract_lets +onlyGivenNames s'; with_reducible refine Touches.cut (t := s') ?_ ?_; subst s'; rotate_left; clear_value s'; intro hs; rotate_left)
    | (extract_lets +onlyGivenNames s'; first | (have _e : State → _ := s'; clear _e; subst s') | clear_value s')
    | with_reducible refine State.record_touches (by decide) ?_
    | split


end Sys2Proof.Machine
end

