-- ==== Sys2Proof/Laws/TouchesIdentity.lean ====
section
/-!
SUPPORT. What the operations of Identity.lean can touch.
-/

namespace Sys2Proof.Machine

set_option linter.all false

theorem State.modSec_touches {m : Nat} {s0 : State} {s : State} {f : SecBlock → SecBlock} (hk : 0x4000 ||| m = m)
    (h : Touches m s0 s) : Touches m s0 (State.modSec s f) := by
  refine Touches.step (k := 0x4000) (t := s) ?_ hk h
  clear hk h
  unfold State.modSec
  have h0 := Touches.refl 0x4000 s
  repeat' first
    | with_reducible assumption
    | (extract_lets +onlyGivenNames s'; with_reducible refine Touches.cut (t := s') ?_ ?_; subst s'; rotate_left; clear_value s'; intro hs; rotate_left)
    | (extract_lets +onlyGivenNames s'; first | (have _e : State → _ := s'; clear _e; subst s') | (have _e : SecBlock := s'; clear _e; subst s') | clear_value s')
    | split
    | with_reducible refine Touches.upd_sec (by decide) ?_


theorem State.derive_touches {m : Nat} {s0 : State} {s : State} (hk : 0x10000000000000000000000000000000000000000000000000000000000000000000000000000000000000004000 ||| m = m)
    (h : Touches m s0 s) : Touches m s0 (State.derive s) := by
  refine Touches.step (k := 0x10000000000000000000000000000000000000000000000000000000000000000000000000000000000000004000) (t := s) ?_ hk h
  clear hk h
  unfold State.derive
  have h0 := Touches.refl 0x10000000000000000000000000000000000000000000000000000000000000000000000000000000000000004000 s
  repeat' first
    | with_reducible assumption
    | (extract_lets +onlyGivenNames s'; with_reducible refine Touches.cut (t := s') ?_ ?_; subst s'; rotate_left; clear_value s'; intro hs; rotate_left)
    | (extract_lets +onlyGivenNames s'; first | (have _e : State → _ := s'; clear _e; subst s') | clear_value s')
    | with_reducible refine State.modSec_touches (by decide) ?_
    | with_reducible refine Touches.set (by first | decide | assumption | (split <;> decide)) ?_
    | split


theorem State.setMeas2_touches {m : Nat} {s0 : State} {s : State} {d : List Byte} (hk : 0x10000000000000000000000000000000000000000000000000000000000000000000000000000000000000004000 ||| m = m)
    (h : Touches m s0 s) : Touches m s0 (State.setMeas2 s d) := by
  refine Touches.step (k := 0x10000000000000000000000000000000000000000000000000000000000000000000000000000000000000004000) (t := s) ?_ hk h
  clear hk h
  unfold State.setMeas2
  have h0 := Touches.refl 0x10000000000000000000000000000000000000000000000000000000000000000000000000000000000000004000 s
  repeat' first
    | with_reducible assumption
    | (extract_lets +onlyGivenNames s'; with_reducible refine Touches.cut (t := s') ?_ ?_; subst s'; rotate_left; clear_value s'; intro hs; rotate_left)
    | (extract_lets +onlyGivenNames s'; first | (have _e : State → _ := s'; clear _e; subst s') | clear_value s')
    | with_reducible refine State.modSec_touches (by decide) ?_
    | with_reducible refine State.derive_touches (by decide) ?_
    | split


theorem State.setMeas3_touches {m : Nat} {s0 : State} {s : State} {d : List Byte} (hk : 0x10000000000000000000000000000000000000000000000000000000000000000000000000000000000000004000 ||| m = m)
    (h : Touches m s0 s) : Touches m s0 (State.setMeas3 s d) := by
  refine Touches.step (k := 0x10000000000000000000000000000000000000000000000000000000000000000000000000000000000000004000) (t := s) ?_ hk h
  clear hk h
  unfold State.setMeas3
  have h0 := Touches.refl 0x10000000000000000000000000000000000000000000000000000000000000000000000000000000000000004000 s
  repeat' first
    | with_reducible assumption
    | (extract_lets +onlyGivenNames s'; with_reducible refine Touches.cut (t := s') ?_ ?_; subst s'; rotate_left; clear_value s'; intro hs; rotate_left)
    | (extract_lets +onlyGivenNames s'; first | (have _e : State → _ := s'; clear _e; subst s') | clear_value s')
    | with_reducible refine State.modSec_touches (by decide) ?_
    | with_reducible refine State.derive_touches (by decide) ?_
    | split


theorem State.measureTroupe_touches {m : Nat} {s0 : State} {s : State} {n : Nat} {d : Option (List Byte)} (hk : 0x4000 ||| m = m)
    (h : Touches m s0 s) : Touches m s0 (State.measureTroupe s n d) := by
  refine Touches.step (k := 0x4000) (t := s) ?_ hk h
  clear hk h
  unfold State.measureTroupe
  have h0 := Touches.refl 0x4000 s
  repeat' first
    | with_reducible assumption
    | (extract_lets +onlyGivenNames s'; with_reducible refine Touches.cut (t := s') ?_ ?_; subst s'; rotate_left; clear_value s'; intro hs; rotate_left)
    | (extract_lets +onlyGivenNames s'; first | (have _e : State → _ := s'; clear _e; subst s') | clear_value s')
    | with_reducible refine State.modSec_touches (by decide) ?_
    | split


theorem execAliasDeriveDone_touches {m : Nat} {s0 : State} {s : State} (hk : 0x2011020000000000000100000000000000000000000000000000000000000000000000000000000006000000046080 ||| m = m)
    (h : Touches m s0 s) : Ends m s0 (execAliasDeriveDone s) := by
  refine Ends.step (k := 0x2011020000000000000100000000000000000000000000000000000000000000000000000000000006000000046080) (t := s) ?_ hk h
  clear hk h
  unfold execAliasDeriveDone
  have h0 := Touches.refl 0x2011020000000000000100000000000000000000000000000000000000000000000000000000000006000000046080 s
  repeat' first
    | with_reducible assumption
    | (extract_lets +onlyGivenNames s'; with_reducible refine Touches.cut (t := s') ?_ ?_; subst s'; rotate_left; clear_value s'; intro hs; rotate_left)
    | (extract_lets +onlyGivenNames s'; with_reducible refine Ends.cut (t := s') ?_ ?_; subst s'; rotate_left; clear_value s'; intro hs; rotate_left)
    | with_reducible refine Ends.next ?_
    | (extract_lets +onlyGivenNames s'; first | (have _e : State → _ := s'; clear _e; subst s') | clear_value s')
    | with_reducible refine State.setReady_touches (by decide) ?_
    | with_reducible refine State.modSec_touches (by decide) ?_
    | with_reducible refine Touches.set (by first | decide | assumption | (split <;> decide)) ?_
    | with_reducible refine Touches.addWrap (by first | decide | assumption | (split <;> decide)) ?_
    | with_reducible refine Touches.raise (by first | decide | assumption | (split <;> decide)) (by decide) ?_
    | split


theorem State.setSpdm_touches {m : Nat} {s0 : State} {s : State} {t : Nat} {c : SpdmConn} (hk : 0x4000 ||| m = m)
    (h : Touches m s0 s) : Touches m s0 (State.setSpdm s t c) := by
  refine Touches.step (k := 0x4000) (t := s) ?_ hk h
  clear hk h
  unfold State.setSpdm
  have h0 := Touches.refl 0x4000 s
  repeat' first
    | with_reducible assumption
    | (extract_lets +onlyGivenNames s'; with_reducible refine Touches.cut (t := s') ?_ ?_; subst s'; rotate_left; clear_value s'; intro hs; rotate_left)
    | (extract_lets +onlyGivenNames s'; first | (have _e : State → _ := s'; clear _e; subst s') | clear_value s')
    | with_reducible refine State.modSec_touches (by decide) ?_
    | split


theorem State.spdmAnswer_touches {m : Nat} {s0 s : State} {t : Nat} {allowed : Bool} {f : State → SpdmAnswer × State}
    (hk : 0x40000 ||| m = m) (hf : ∀ s, Touches m s0 s → Touches m s0 (f s).2) (h : Touches m s0 s) :
    Touches m s0 (State.spdmAnswer s t allowed f) := by
  have ho : ∀ {s : State} {o : Out}, Touches m s0 s → Touches m s0 (s.emit o) :=
    fun h => Touches.emit (by rw [← hk, Nat.testBit_or]; rfl) h
  unfold State.spdmAnswer
  split
  · exact h
  · split
    · exact ho h
    · split
      · exact ho h
      · exact ho (hf _ h)


theorem State.sign_touches {m : Nat} {s0 : State} {s : State} {message : List Byte} (hk : 0x20000 ||| m = m)
    (h : Touches m s0 s) : Touches m s0 (State.sign s message).2 := by
  refine Touches.step (k := 0x20000) (t := s) ?_ hk h
  clear hk h
  unfold State.sign
  have h0 := Touches.refl 0x20000 s
  repeat' first
    | with_reducible assumption
    | (extract_lets +onlyGivenNames s'; with_reducible refine Touches.cut (t := s') ?_ ?_; subst s'; rotate_left; clear_value s'; intro hs; rotate_left)
    | (extract_lets +onlyGivenNames s'; first | (have _e : State → _ := s'; clear _e; subst s') | clear_value s')
    | with_reducible refine State.draw_touches_eq (by assumption) (by decide) ?_
    | with_reducible refine State.draw_touches (by decide) ?_
    | split

theorem State.sign_touches_eq {m : Nat} {s0 t₁ : State} {s : State} {message : List Byte} {a₁ : List Byte} (e₁ : State.sign s message = (a₁, t₁))
    (hk : 0x20000 ||| m = m) (h : Touches m s0 s) : Touches m s0 t₁ := Touches.snd e₁ (State.sign_touches hk h)


theorem execGetVersion_touches {m : Nat} {s0 : State} {transport : Transport} {s : State} (hk : 0x44000 ||| m = m)
    (h : Touches m s0 s) : Ends m s0 (execGetVersion transport s) := by
  refine Ends.step (k := 0x44000) (t := s) ?_ hk h
  clear hk h
  unfold execGetVersion
  have h0 := Touches.refl 0x44000 s
  repeat' first
    | with_reducible assumption
    | (extract_lets +onlyGivenNames s'; with_reducible refine Touches.cut (t := s') ?_ ?_; subst s'; rotate_left; clear_value s'; intro hs; rotate_left)
    | (extract_lets +onlyGivenNames s'; with_reducible refine Ends.cut (t := s') ?_ ?_; subst s'; rotate_left; clear_value s'; intro hs; rotate_left)
    | with_reducible refine Ends.next ?_
    | (extract_lets +onlyGivenNames s'; first | (have _e : State → _ := s'; clear _e; subst s') | clear_value s')
    | with_reducible refine State.setSpdm_touches (by decide) ?_
    | with_reducible refine State.spdmAnswer_touches (by decide) (fun _ _ => ?_) ?_
    | split


theorem execGetCapabilities_touches {m : Nat} {s0 : State} {transport : Transport} {s : State} (hk : 0x44000 ||| m = m)
    (h : Touches m s0 s) : Ends m s0 (execGetCapabilities transport s) := by
  refine Ends.step (k := 0x44000) (t := s) ?_ hk h
  clear hk h
  unfold execGetCapabilities
  have h0 := Touches.refl 0x44000 s
  repeat' first
    | with_reducible assumption
    | (extract_lets +onlyGivenNames s'; with_reducible refine Touches.cut (t := s') ?_ ?_; subst s'; rotate_left; clear_value s'; intro hs; rotate_left)
    | (extract_lets +onlyGivenNames s'; with_reducible refine Ends.cut (t := s') ?_ ?_; subst s'; rotate_left; clear_value s'; intro hs; rotate_left)
    | with_reducible refine Ends.next ?_
    | (extract_lets +onlyGivenNames s'; first | (have _e : State → _ := s'; clear _e; subst s') | clear_value s')
    | with_reducible refine State.setSpdm_touches (by decide) ?_
    | with_reducible refine State.spdmAnswer_touches (by decide) (fun _ _ => ?_) ?_
    | split


theorem execNegotiateAlgorithms_touches {m : Nat} {s0 : State} {transport : Transport} {offered : Bool} {s : State} (hk : 0x44000 ||| m = m)
    (h : Touches m s0 s) : Ends m s0 (execNegotiateAlgorithms transport offered s) := by
  refine Ends.step (k := 0x44000) (t := s) ?_ hk h
  clear hk h
  unfold execNegotiateAlgorithms
  have h0 := Touches.refl 0x44000 s
  repeat' first
    | with_reducible assumption
    | (extract_lets +onlyGivenNames s'; with_reducible refine Touches.cut (t := s') ?_ ?_; subst s'; rotate_left; clear_value s'; intro hs; rotate_left)
    | (extract_lets +onlyGivenNames s'; with_reducible refine Ends.cut (t := s') ?_ ?_; subst s'; rotate_left; clear_value s'; intro hs; rotate_left)
    | with_reducible refine Ends.next ?_
    | (extract_lets +onlyGivenNames s'; first | (have _e : State → _ := s'; clear _e; subst s') | clear_value s')
    | with_reducible refine State.setSpdm_touches (by decide) ?_
    | with_reducible refine State.spdmAnswer_touches (by decide) (fun _ _ => ?_) ?_
    | split


theorem execGetDigests_touches {m : Nat} {s0 : State} {transport : Transport} {s : State} (hk : 0x40000 ||| m = m)
    (h : Touches m s0 s) : Ends m s0 (execGetDigests transport s) := by
  refine Ends.step (k := 0x40000) (t := s) ?_ hk h
  clear hk h
  unfold execGetDigests
  have h0 := Touches.refl 0x40000 s
  repeat' first
    | with_reducible assumption
    | (extract_lets +onlyGivenNames s'; with_reducible refine Touches.cut (t := s') ?_ ?_; subst s'; rotate_left; clear_value s'; intro hs; rotate_left)
    | (extract_lets +onlyGivenNames s'; with_reducible refine Ends.cut (t := s') ?_ ?_; subst s'; rotate_left; clear_value s'; intro hs; rotate_left)
    | with_reducible refine Ends.next ?_
    | (extract_lets +onlyGivenNames s'; first | (have _e : State → _ := s'; clear _e; subst s') | clear_value s')
    | with_reducible refine State.spdmAnswer_touches (by decide) (fun _ _ => ?_) ?_
    | split


theorem execGetCertificate_touches {m : Nat} {s0 : State} {transport : Transport} {slot : Fin 8} {offset length : Fin 65536} {s : State} (hk : 0x40000 ||| m = m)
    (h : Touches m s0 s) : Ends m s0 (execGetCertificate transport slot offset length s) := by
  refine Ends.step (k := 0x40000) (t := s) ?_ hk h
  clear hk h
  unfold execGetCertificate
  have h0 := Touches.refl 0x40000 s
  repeat' first
    | with_reducible assumption
    | (extract_lets +onlyGivenNames s'; with_reducible refine Touches.cut (t := s') ?_ ?_; subst s'; rotate_left; clear_value s'; intro hs; rotate_left)
    | (extract_lets +onlyGivenNames s'; with_reducible refine Ends.cut (t := s') ?_ ?_; subst s'; rotate_left; clear_value s'; intro hs; rotate_left)
    | with_reducible refine Ends.next ?_
    | (extract_lets +onlyGivenNames s'; first | (have _e : State → _ := s'; clear _e; subst s') | clear_value s')
    | with_reducible refine State.spdmAnswer_touches (by decide) (fun _ _ => ?_) ?_
    | split


theorem execChallenge_touches {m : Nat} {s0 : State} {transport : Transport} {slot : Fin 8} {nonce : List Byte} {s : State} (hk : 0x60000 ||| m = m)
    (h : Touches m s0 s) : Ends m s0 (execChallenge transport slot nonce s) := by
  refine Ends.step (k := 0x60000) (t := s) ?_ hk h
  clear hk h
  unfold execChallenge
  have h0 := Touches.refl 0x60000 s
  repeat' first
    | with_reducible assumption
    | (extract_lets +onlyGivenNames s'; with_reducible refine Touches.cut (t := s') ?_ ?_; subst s'; rotate_left; clear_value s'; intro hs; rotate_left)
    | (extract_lets +onlyGivenNames s'; with_reducible refine Ends.cut (t := s') ?_ ?_; subst s'; rotate_left; clear_value s'; intro hs; rotate_left)
    | with_reducible refine Ends.next ?_
    | (extract_lets +onlyGivenNames s'; first | (have _e : State → _ := s'; clear _e; subst s') | clear_value s')
    | with_reducible refine State.spdmAnswer_touches (by decide) (fun _ _ => ?_) ?_
    | with_reducible refine State.sign_touches_eq (by assumption) (by decide) ?_
    | with_reducible refine State.sign_touches (by decide) ?_
    | split


theorem execGetMeasurements_touches {m : Nat} {s0 : State} {transport : Transport} {index : Fin 256} {nonce : List Byte} {signed : Bool} {s : State} (hk : 0x60000 ||| m = m)
    (h : Touches m s0 s) : Ends m s0 (execGetMeasurements transport index nonce signed s) := by
  refine Ends.step (k := 0x60000) (t := s) ?_ hk h
  clear hk h
  unfold execGetMeasurements
  have h0 := Touches.refl 0x60000 s
  repeat' first
    | with_reducible assumption
    | (extract_lets +onlyGivenNames s'; with_reducible refine Touches.cut (t := s') ?_ ?_; subst s'; rotate_left; clear_value s'; intro hs; rotate_left)
    | (extract_lets +onlyGivenNames s'; with_reducible refine Ends.cut (t := s') ?_ ?_; subst s'; rotate_left; clear_value s'; intro hs; rotate_left)
    | with_reducible refine Ends.next ?_
    | (extract_lets +onlyGivenNames s'; first | (have _e : State → _ := s'; clear _e; subst s') | clear_value s')
    | with_reducible refine State.spdmAnswer_touches (by decide) (fun _ _ => ?_) ?_
    | with_reducible refine State.sign_touches_eq (by assumption) (by decide) ?_
    | with_reducible refine State.sign_touches (by decide) ?_
    | split


theorem execSpdmUnsupportedRequest_touches {m : Nat} {s0 : State} {transport : Transport} {s : State} (hk : 0x40000 ||| m = m)
    (h : Touches m s0 s) : Ends m s0 (execSpdmUnsupportedRequest transport s) := by
  refine Ends.step (k := 0x40000) (t := s) ?_ hk h
  clear hk h
  unfold execSpdmUnsupportedRequest
  have h0 := Touches.refl 0x40000 s
  repeat' first
    | with_reducible assumption
    | (extract_lets +onlyGivenNames s'; with_reducible refine Touches.cut (t := s') ?_ ?_; subst s'; rotate_left; clear_value s'; intro hs; rotate_left)
    | (extract_lets +onlyGivenNames s'; with_reducible refine Ends.cut (t := s') ?_ ?_; subst s'; rotate_left; clear_value s'; intro hs; rotate_left)
    | with_reducible refine Ends.next ?_
    | (extract_lets +onlyGivenNames s'; first | (have _e : State → _ := s'; clear _e; subst s') | clear_value s')
    | with_reducible refine State.spdmAnswer_touches (by decide) (fun _ _ => ?_) ?_
    | split


theorem State.runKeyCommand_touches {m : Nat} {s0 : State} {s : State} {op : Nat} {value : Word} (hk : 0xA1020000000000000100000000000000000000000000000000000000000000000000000000000000080020046090 ||| m = m)
    (h : Touches m s0 s) : Touches m s0 (State.runKeyCommand s op value) := by
  refine Touches.step (k := 0xA1020000000000000100000000000000000000000000000000000000000000000000000000000000080020046090) (t := s) ?_ hk h
  clear hk h
  unfold State.runKeyCommand
  have h0 := Touches.refl 0xA1020000000000000100000000000000000000000000000000000000000000000000000000000000080020046090 s
  repeat' first
    | with_reducible assumption
    | (extract_lets +onlyGivenNames s'; with_reducible refine Touches.cut (t := s') ?_ ?_; subst s'; rotate_left; clear_value s'; intro hs; rotate_left)
    | (extract_lets +onlyGivenNames s'; first | (have _e : State → _ := s'; clear _e; subst s') | clear_value s')
    | with_reducible refine State.rejectLoad_touches (by decide) ?_
    | with_reducible refine State.modSec_touches (by decide) ?_
    | with_reducible refine Touches.set (by first | decide | assumption | (split <;> decide)) ?_
    | split


theorem execProvision_touches {m : Nat} {s0 : State} {fn : FnNo} {value : Word} {s : State} (hk : 0xA1020000000000000100000000000000000000000000000000000000000000000000000000000000080020046090 ||| m = m)
    (h : Touches m s0 s) : Ends m s0 (execProvision fn value s) := by
  refine Ends.step (k := 0xA1020000000000000100000000000000000000000000000000000000000000000000000000000000080020046090) (t := s) ?_ hk h
  clear hk h
  unfold execProvision
  have h0 := Touches.refl 0xA1020000000000000100000000000000000000000000000000000000000000000000000000000000080020046090 s
  repeat' first
    | with_reducible assumption
    | (extract_lets +onlyGivenNames s'; with_reducible refine Touches.cut (t := s') ?_ ?_; subst s'; rotate_left; clear_value s'; intro hs; rotate_left)
    | (extract_lets +onlyGivenNames s'; with_reducible refine Ends.cut (t := s') ?_ ?_; subst s'; rotate_left; clear_value s'; intro hs; rotate_left)
    | with_reducible refine Ends.next ?_
    | (extract_lets +onlyGivenNames s'; first | (have _e : State → _ := s'; clear _e; subst s') | clear_value s')
    | with_reducible refine State.runKeyCommand_touches (by decide) ?_
    | split


theorem execRevoke_touches {m : Nat} {s0 : State} {fn : FnNo} {value : Word} {s : State} (hk : 0xA1020000000000000100000000000000000000000000000000000000000000000000000000000000080020046090 ||| m = m)
    (h : Touches m s0 s) : Ends m s0 (execRevoke fn value s) := by
  refine Ends.step (k := 0xA1020000000000000100000000000000000000000000000000000000000000000000000000000000080020046090) (t := s) ?_ hk h
  clear hk h
  unfold execRevoke
  have h0 := Touches.refl 0xA1020000000000000100000000000000000000000000000000000000000000000000000000000000080020046090 s
  repeat' first
    | with_reducible assumption
    | (extract_lets +onlyGivenNames s'; with_reducible refine Touches.cut (t := s') ?_ ?_; subst s'; rotate_left; clear_value s'; intro hs; rotate_left)
    | (extract_lets +onlyGivenNames s'; with_reducible refine Ends.cut (t := s') ?_ ?_; subst s'; rotate_left; clear_value s'; intro hs; rotate_left)
    | with_reducible refine Ends.next ?_
    | (extract_lets +onlyGivenNames s'; first | (have _e : State → _ := s'; clear _e; subst s') | clear_value s')
    | with_reducible refine State.runKeyCommand_touches (by decide) ?_
    | split


theorem State.fuseKey_touches {m : Nat} {s0 : State} {s : State} {k : Nat} {key : List Byte} (hk : 0x60000000000000000000000000000000000000000000000000000000000000000000000000000000000000004000 ||| m = m)
    (h : Touches m s0 s) : Touches m s0 (State.fuseKey s k key) := by
  refine Touches.step (k := 0x60000000000000000000000000000000000000000000000000000000000000000000000000000000000000004000) (t := s) ?_ hk h
  clear hk h
  unfold State.fuseKey
  have h0 := Touches.refl 0x60000000000000000000000000000000000000000000000000000000000000000000000000000000000000004000 s
  repeat' first
    | with_reducible assumption
    | (extract_lets +onlyGivenNames s'; with_reducible refine Touches.cut (t := s') ?_ ?_; subst s'; rotate_left; clear_value s'; intro hs; rotate_left)
    | (extract_lets +onlyGivenNames s'; first | (have _e : State → _ := s'; clear _e; subst s') | clear_value s')
    | with_reducible refine Touches.foldl (fun _ _ _ => ?_) ?_
    | with_reducible refine State.modSec_touches (by decide) ?_
    | with_reducible refine Touches.set (by first | decide | assumption | (split <;> decide)) ?_
    | split


theorem execOwnerKeyCommandDone_touches {m : Nat} {s0 : State} {s : State} (hk : 0x20E1020000000000000100000000000000000000000000000000000000000000000000000000000000000000046080 ||| m = m)
    (h : Touches m s0 s) : Ends m s0 (execOwnerKeyCommandDone s) := by
  refine Ends.step (k := 0x20E1020000000000000100000000000000000000000000000000000000000000000000000000000000000000046080) (t := s) ?_ hk h
  clear hk h
  unfold execOwnerKeyCommandDone
  have h0 := Touches.refl 0x20E1020000000000000100000000000000000000000000000000000000000000000000000000000000000000046080 s
  repeat' first
    | with_reducible assumption
    | (extract_lets +onlyGivenNames s'; with_reducible refine Touches.cut (t := s') ?_ ?_; subst s'; rotate_left; clear_value s'; intro hs; rotate_left)
    | (extract_lets +onlyGivenNames s'; with_reducible refine Ends.cut (t := s') ?_ ?_; subst s'; rotate_left; clear_value s'; intro hs; rotate_left)
    | with_reducible refine Ends.next ?_
    | (extract_lets +onlyGivenNames s'; first | (have _e : State → _ := s'; clear _e; subst s') | clear_value s')
    | with_reducible refine State.record_touches (by decide) ?_
    | with_reducible refine State.modSec_touches (by decide) ?_
    | with_reducible refine State.fuseKey_touches (by decide) ?_
    | with_reducible refine Touches.set (by first | decide | assumption | (split <;> decide)) ?_
    | with_reducible refine Touches.raise (by first | decide | assumption | (split <;> decide)) (by decide) ?_
    | split


end Sys2Proof.Machine
end

