-- ==== Sys2Proof/Laws/TouchesShows.lean ====
section
/-!
SUPPORT. What the operations of Shows.lean can touch.
-/

namespace Sys2Proof.Machine

set_option linter.all false

theorem State.clearReg_touches {m : Nat} {s0 s : State} {r : Reg} {i : Nat} {keep : List Fld}
    (hr : m.testBit r.bit = true) (hf : keep.all (fun f => m.testBit f.reg.bit) = true)
    (h : Touches m s0 s) : Touches m s0 (State.clearReg s r i keep) := by
  unfold State.clearReg
  refine Touches.foldl_mem (fun t f hm ht => Touches.set (List.all_eq_true.mp hf f hm) ht) ?_
  refine Touches.upd_regs (rfWf_rfPut r i _) (fun q j hq => ?_) h
  refine rfGet_rfPut_ne _ _ ?_
  rintro ⟨rfl, _⟩
  rw [hq] at hr; cases hr


theorem State.clearSpan_touches {m : Nat} {s0 s : State} {r : Reg} {base n : Nat}
    (hr : m.testBit r.bit = true) (h : Touches m s0 s) : Touches m s0 (State.clearSpan s r base n) := by
  unfold State.clearSpan
  exact Touches.foldl (fun s i hs => State.clearReg_touches hr rfl hs) h


theorem State.clearBlocks_touches {m : Nat} {s0 s : State} {rs : List Reg} {keep : List Fld}
    (hr : rs.all (fun r => m.testBit r.bit) = true) (hf : keep.all (fun f => m.testBit f.reg.bit) = true)
    (hk : 0x2 ||| m = m) (h : Touches m s0 s) : Touches m s0 (State.clearBlocks s rs keep) := by
  unfold State.clearBlocks
  extract_lets hit t
  refine Touches.foldl_mem (fun u f hm hu => Touches.foldl (fun u e hu => Touches.set (List.all_eq_true.mp hf f hm) hu) hu) ?_
  show Touches m s0 { { s with regs := s.regs.filter fun e => !hit e } with staging := s.staging.filter fun e => !hit e }
  refine Touches.upd_staging (by rw [← hk, Nat.testBit_or]; rfl) (rfWf_filter _) ?_
  refine Touches.upd_regs (rfWf_filter _) (fun r i hb => rfGet_filter (fun w => ?_)) h
  show (!(rs.any fun q => q.ctorIdx == regKey r i % 1024)) = true
  rw [regKey_mod, Bool.not_eq_true', List.any_eq_false]
  intro q hq e
  have := ctorIdx_inj (by simpa using e : q.ctorIdx = r.ctorIdx)
  subst this
  have := List.all_eq_true.mp hr q hq
  rw [hb] at this; cases this


theorem State.setEach_touches {m : Nat} {s0 s : State} {α : Type} {f : Fld} {l : List α} {at_ v : α → Nat}
    (hb : m.testBit f.reg.bit = true) (h : Touches m s0 s) : Touches m s0 (State.setEach s f l at_ v) := by
  unfold State.setEach
  exact Touches.foldl (fun s e hs => Touches.set hb hs) h


theorem State.showPlans_touches {m : Nat} {s0 : State} {s : State} {im : Image} (hk : 0xA0880050008000020020000000000002 ||| m = m)
    (h : Touches m s0 s) : Touches m s0 (State.showPlans s im) := by
  refine Touches.step (k := 0xA0880050008000020020000000000002) (t := s) ?_ hk h
  clear hk h
  unfold State.showPlans
  have h0 := Touches.refl 0xA0880050008000020020000000000002 s
  repeat' first
    | with_reducible assumption
    | (extract_lets +onlyGivenNames s'; with_reducible refine Touches.cut (t := s') ?_ ?_; subst s'; rotate_left; clear_value s'; intro hs; rotate_left)
    | (extract_lets +onlyGivenNames s'; first | (have _e : State → _ := s'; clear _e; subst s') | clear_value s')
    | with_reducible refine Touches.foldl (fun _ _ _ => ?_) ?_
    | with_reducible refine State.clearBlocks_touches (by decide) (by decide) (by decide) ?_
    | with_reducible refine State.setEach_touches (by first | decide | assumption | (split <;> decide)) ?_
    | with_reducible refine Touches.set (by first | decide | assumption | (split <;> decide)) ?_
    | split


theorem State.showSeeds_touches {m : Nat} {s0 : State} {s : State} {tables : List (Nat × TablePlan)} (hk : 0x10000000000000000000000000000000 ||| m = m)
    (h : Touches m s0 s) : Touches m s0 (State.showSeeds s tables) := by
  refine Touches.step (k := 0x10000000000000000000000000000000) (t := s) ?_ hk h
  clear hk h
  unfold State.showSeeds
  have h0 := Touches.refl 0x10000000000000000000000000000000 s
  repeat' first
    | with_reducible assumption
    | (extract_lets +onlyGivenNames s'; with_reducible refine Touches.cut (t := s') ?_ ?_; subst s'; rotate_left; clear_value s'; intro hs; rotate_left)
    | (extract_lets +onlyGivenNames s'; first | (have _e : State → _ := s'; clear _e; subst s') | clear_value s')
    | with_reducible refine Touches.foldl (fun _ _ _ => ?_) ?_
    | with_reducible refine State.setEach_touches (by first | decide | assumption | (split <;> decide)) ?_
    | split


theorem State.showStores_touches {m : Nat} {s0 : State} {s : State} {im : Image} (hk : 0x40080200000000000006260002000140000000000000000000000000000000000 ||| m = m)
    (h : Touches m s0 s) : Touches m s0 (State.showStores s im) := by
  refine Touches.step (k := 0x40080200000000000006260002000140000000000000000000000000000000000) (t := s) ?_ hk h
  clear hk h
  unfold State.showStores
  have h0 := Touches.refl 0x40080200000000000006260002000140000000000000000000000000000000000 s
  repeat' first
    | with_reducible assumption
    | (extract_lets +onlyGivenNames s'; with_reducible refine Touches.cut (t := s') ?_ ?_; subst s'; rotate_left; clear_value s'; intro hs; rotate_left)
    | (extract_lets +onlyGivenNames s'; first | (have _e : State → _ := s'; clear _e; subst s') | clear_value s')
    | with_reducible refine Touches.foldl (fun _ _ _ => ?_) ?_
    | with_reducible refine State.setEach_touches (by first | decide | assumption | (split <;> decide)) ?_
    | with_reducible refine Touches.set (by first | decide | assumption | (split <;> decide)) ?_
    | split


theorem State.unshow_touches {m : Nat} {s0 : State} {s : State} {im : Image} {n : Nat} (hk : 0x20000000000080800000000000000000000000000000 ||| m = m)
    (h : Touches m s0 s) : Touches m s0 (State.unshow s im n) := by
  refine Touches.step (k := 0x20000000000080800000000000000000000000000000) (t := s) ?_ hk h
  clear hk h
  unfold State.unshow
  have h0 := Touches.refl 0x20000000000080800000000000000000000000000000 s
  repeat' first
    | with_reducible assumption
    | (extract_lets +onlyGivenNames s'; with_reducible refine Touches.cut (t := s') ?_ ?_; subst s'; rotate_left; clear_value s'; intro hs; rotate_left)
    | (extract_lets +onlyGivenNames s'; first | (have _e : State → _ := s'; clear _e; subst s') | clear_value s')
    | with_reducible refine Touches.foldl (fun _ _ _ => ?_) ?_
    | with_reducible refine State.clearReg_touches (by first | decide | assumption | (clear hs''; revert f''; decide)) (by decide) ?_
    | with_reducible refine Touches.set (by first | decide | assumption | (split <;> decide)) ?_
    | split


end Sys2Proof.Machine
end

