-- ==== Sys2Proof/Laws/TouchesCommits.lean ====
section
/-!
SUPPORT. What the operations of Commits.lean can touch.
-/

namespace Sys2Proof.Machine

set_option linter.all false

theorem State.refuseCommit_touches {m : Nat} {s0 : State} {s : State} {c : CommitRec} {cause : Nat} (hk : 0x80000000100000000000000000000000000000000000000000000000000000000000000084000040080 ||| m = m)
    (h : Touches m s0 s) : Touches m s0 (State.refuseCommit s c cause) := by
  refine Touches.step (k := 0x80000000100000000000000000000000000000000000000000000000000000000000000084000040080) (t := s) ?_ hk h
  clear hk h
  unfold State.refuseCommit
  have h0 := Touches.refl 0x80000000100000000000000000000000000000000000000000000000000000000000000084000040080 s
  repeat' first
    | with_reducible assumption
    | (extract_lets +onlyGivenNames s'; with_reducible refine Touches.cut (t := s') ?_ ?_; subst s'; rotate_left; clear_value s'; intro hs; rotate_left)
    | (extract_lets +onlyGivenNames s'; first | (have _e : State → _ := s'; clear _e; subst s') | clear_value s')
    | with_reducible refine State.setCommit_touches (by first | decide | assumption) ?_
    | with_reducible refine State.raiseCommit_touches (by first | decide | assumption) (by first | decide | assumption) (by decide) ?_
    | split


theorem State.openCommit_touches {m : Nat} {s0 : State} {s : State} {by_ : CommitBy} {scope : Option Nat} {defer : Bool} (hk : 0x80000000100000000000000000000000000000000000000000000000000000000000000084000040090 ||| m = m)
    (h : Touches m s0 s) : Touches m s0 (State.openCommit s by_ scope defer) := by
  refine Touches.step (k := 0x80000000100000000000000000000000000000000000000000000000000000000000000084000040090) (t := s) ?_ hk h
  clear hk h
  unfold State.openCommit
  have h0 := Touches.refl 0x80000000100000000000000000000000000000000000000000000000000000000000000084000040090 s
  repeat' first
    | with_reducible assumption
    | (extract_lets +onlyGivenNames s'; with_reducible refine Touches.cut (t := s') ?_ ?_; subst s'; rotate_left; clear_value s'; intro hs; rotate_left)
    | (extract_lets +onlyGivenNames s'; first | (have _e : State → _ := s'; clear _e; subst s') | (have _e : CfgBlock := s'; clear _e; subst s') | clear_value s')
    | with_reducible refine State.setCommit_touches (by first | decide | assumption) ?_
    | with_reducible refine State.refuseCommit_touches (by decide) ?_
    | split
    | with_reducible refine Touches.upd_cf (by decide) ?_


theorem execCommit_touches {m : Nat} {s0 : State} {value : Word} {s : State} (hk : 0x80000000100000000000000000000000000000000000000000000000000000000000000084000040090 ||| m = m)
    (h : Touches m s0 s) : Ends m s0 (execCommit value s) := by
  refine Ends.step (k := 0x80000000100000000000000000000000000000000000000000000000000000000000000084000040090) (t := s) ?_ hk h
  clear hk h
  unfold execCommit
  have h0 := Touches.refl 0x80000000100000000000000000000000000000000000000000000000000000000000000084000040090 s
  repeat' first
    | with_reducible assumption
    | (extract_lets +onlyGivenNames s'; with_reducible refine Touches.cut (t := s') ?_ ?_; subst s'; rotate_left; clear_value s'; intro hs; rotate_left)
    | (extract_lets +onlyGivenNames s'; with_reducible refine Ends.cut (t := s') ?_ ?_; subst s'; rotate_left; clear_value s'; intro hs; rotate_left)
    | with_reducible refine Ends.next ?_
    | (extract_lets +onlyGivenNames s'; first | (have _e : State → _ := s'; clear _e; subst s') | clear_value s')
    | with_reducible refine State.openCommit_touches (by decide) ?_
    | split


theorem execWinCommit_touches {m : Nat} {s0 : State} {fn : FnNo} {value : Word} {s : State} (hk : 0x80000000100000000000000000000000000000000000000000000000000000000000000084000040090 ||| m = m)
    (h : Touches m s0 s) : Ends m s0 (execWinCommit fn value s) := by
  refine Ends.step (k := 0x80000000100000000000000000000000000000000000000000000000000000000000000084000040090) (t := s) ?_ hk h
  clear hk h
  unfold execWinCommit
  have h0 := Touches.refl 0x80000000100000000000000000000000000000000000000000000000000000000000000084000040090 s
  repeat' first
    | with_reducible assumption
    | (extract_lets +onlyGivenNames s'; with_reducible refine Touches.cut (t := s') ?_ ?_; subst s'; rotate_left; clear_value s'; intro hs; rotate_left)
    | (extract_lets +onlyGivenNames s'; with_reducible refine Ends.cut (t := s') ?_ ?_; subst s'; rotate_left; clear_value s'; intro hs; rotate_left)
    | with_reducible refine Ends.next ?_
    | (extract_lets +onlyGivenNames s'; first | (have _e : State → _ := s'; clear _e; subst s') | clear_value s')
    | with_reducible refine State.openCommit_touches (by decide) ?_
    | split


theorem State.takeTroupeImage_touches {m : Nat} {s0 : State} {s : State} {n : Nat} {im : Image} (hk : 0x10200008C00000001000000000400802000000000000062600020001400B58800500080000200302800200460D2 ||| m = m)
    (h : Touches m s0 s) : Touches m s0 (State.takeTroupeImage s n im) := by
  refine Touches.step (k := 0x10200008C00000001000000000400802000000000000062600020001400B58800500080000200302800200460D2) (t := s) ?_ hk h
  clear hk h
  unfold State.takeTroupeImage
  have h0 := Touches.refl 0x10200008C00000001000000000400802000000000000062600020001400B58800500080000200302800200460D2 s
  repeat' first
    | with_reducible assumption
    | (extract_lets +onlyGivenNames s'; with_reducible refine Touches.cut (t := s') ?_ ?_; subst s'; rotate_left; clear_value s'; intro hs; rotate_left)
    | (extract_lets +onlyGivenNames s'; first | (have _e : State → _ := s'; clear _e; subst s') | (have _e : CfgBlock := s'; clear _e; subst s') | clear_value s')
    | with_reducible refine Touches.foldl (fun _ _ _ => ?_) ?_
    | with_reducible refine State.setTroupeReady_touches (by decide) ?_
    | with_reducible refine State.emptyTable_touches (by decide) ?_
    | with_reducible refine State.loadDone_touches (by decide) ?_
    | with_reducible refine State.imageRecord_touches (by decide) ?_
    | with_reducible refine State.measureTroupe_touches (by decide) ?_
    | with_reducible refine State.showPlans_touches (by decide) ?_
    | with_reducible refine State.showSeeds_touches (by decide) ?_
    | with_reducible refine State.showStores_touches (by decide) ?_
    | with_reducible refine State.unshow_touches (by decide) ?_
    | with_reducible refine Touches.set (by first | decide | assumption | (split <;> decide)) ?_
    | split
    | with_reducible refine Touches.upd_cf (by decide) ?_


theorem State.refreshCommitted_touches {m : Nat} {s0 : State} {s : State} (hk : 0x20000000804000000B0004000000000000000000000000000004 ||| m = m)
    (h : Touches m s0 s) : Touches m s0 (State.refreshCommitted s) := by
  refine Touches.step (k := 0x20000000804000000B0004000000000000000000000000000004) (t := s) ?_ hk h
  clear hk h
  unfold State.refreshCommitted
  have h0 := Touches.refl 0x20000000804000000B0004000000000000000000000000000004 s
  repeat' first
    | with_reducible assumption
    | (extract_lets +onlyGivenNames s'; with_reducible refine Touches.cut (t := s') ?_ ?_; subst s'; rotate_left; clear_value s'; intro hs; rotate_left)
    | (extract_lets +onlyGivenNames s'; first | (have _e : State → _ := s'; clear _e; subst s') | clear_value s')
    | with_reducible refine Touches.foldl (fun _ _ _ => ?_) ?_
    | with_reducible refine State.refreshReserved_touches (by decide) ?_
    | with_reducible refine State.refreshPauses_touches (by decide) ?_
    | with_reducible refine State.gateChange_touches (by decide) ?_
    | with_reducible refine State.refreshCgs_touches (by decide) ?_
    | with_reducible refine State.refreshTable_touches (by decide) ?_
    | split


theorem State.committed_wf {s : State} {c : CommitRec} (h : rfWf s.regs = true) : rfWf (s.committed c) = true := by
  unfold State.committed
  extract_lets im
  generalize s.scopeKeys im c (c.pendingSet ++ s.regs) = l
  suffices key : ∀ rf, rfWf rf = true → rfWf (l.foldl (fun rf e =>
      let w := s.mergeStaged c e.1 e.2
      let w := if e.1 = .QM_CG_CFG && !s.ready rdyTime && s.becomesWindowed c e.2
        then withBits w QM.CG_CFG.FWD_MODE.lo QM.CG_CFG.FWD_MODE.width 1 else w
      rfPut rf e.1 e.2 w) rf) = true from key _ h
  induction l with
  | nil => intro rf h; exact h
  | cons e es ih => intro rf h; exact ih _ (rfWf_rfPut _ _ _ h)

theorem State.fence_touches {m : Nat} {s0 : State} {s : State} {c : CommitRec} (hk : 0x3FFFFFFFFFFFFFFFFFFFFFFFFFFFFFFFFFFFFFFFFFFFFFFFFFFFFFFFFFFFFFFFFFFFFFFFFFFFFFFFFFFFFFFFFFC60D6 ||| m = m)
    (h : Touches m s0 s) : Touches m s0 (State.fence s c) := by
  refine Touches.step (k := 0x3FFFFFFFFFFFFFFFFFFFFFFFFFFFFFFFFFFFFFFFFFFFFFFFFFFFFFFFFFFFFFFFFFFFFFFFFFFFFFFFFFFFFFFFFFC60D6) (t := s) ?_ hk h
  clear hk h
  unfold State.fence
  have h0 := Touches.refl 0x3FFFFFFFFFFFFFFFFFFFFFFFFFFFFFFFFFFFFFFFFFFFFFFFFFFFFFFFFFFFFFFFFFFFFFFFFFFFFFFFFFFFFFFFFFC60D6 s
  repeat' first
    | with_reducible assumption
    | (extract_lets +onlyGivenNames s'; with_reducible refine Touches.cut (t := s') ?_ ?_; subst s'; rotate_left; clear_value s'; intro hs; rotate_left)
    | (have h1 : Touches 0x3FFFFFFFFFFFFFFFFFFFFFFFFFFFFFFFFFFFFFFFFFFFFFFFFFFFFFFFFFFFFFFFFFFFFFFFFFFFFFFFFFFFFFFFFFC60D6 s { s with regs := s.committed c } := Touches.upd_all_regs (by decide) State.committed_wf (by assumption); with_reducible refine Touches.upd_cf (by decide) h1)
    | (extract_lets +onlyGivenNames s'; first | (have _e : State → _ := s'; clear _e; subst s') | (have _e : CfgBlock := s'; clear _e; subst s') | clear_value s')
    | with_reducible refine Touches.foldl (fun _ _ _ => ?_) ?_
    | with_reducible refine State.modPipe_touches (by decide) ?_
    | with_reducible refine State.setCommit_touches (by first | decide | assumption) ?_
    | with_reducible refine State.refreshDrain_touches (by decide) ?_
    | with_reducible refine State.fenceDone_touches (by decide) ?_
    | with_reducible refine State.epochSwitch_touches (by decide) ?_
    | with_reducible refine State.takeTroupeImage_touches (by decide) ?_
    | with_reducible refine State.refreshCommitted_touches (by decide) ?_
    | with_reducible refine Touches.set (by first | decide | assumption | (split <;> decide)) ?_
    | split
    | with_reducible refine Touches.upd_cf (by decide) ?_


theorem State.replaceCommit_touches {m : Nat} {s0 : State} {s : State} {c : CommitRec} {c' : Option CommitRec} (hk : 0x10 ||| m = m)
    (h : Touches m s0 s) : Touches m s0 (State.replaceCommit s c c') := by
  refine Touches.step (k := 0x10) (t := s) ?_ hk h
  clear hk h
  unfold State.replaceCommit
  have h0 := Touches.refl 0x10 s
  repeat' first
    | with_reducible assumption
    | (extract_lets +onlyGivenNames s'; with_reducible refine Touches.cut (t := s') ?_ ?_; subst s'; rotate_left; clear_value s'; intro hs; rotate_left)
    | (extract_lets +onlyGivenNames s'; first | (have _e : State → _ := s'; clear _e; subst s') | (have _e : CfgBlock := s'; clear _e; subst s') | clear_value s')
    | split
    | with_reducible refine Touches.upd_cf (by decide) ?_


theorem State.passCommit_touches {m : Nat} {s0 : State} {s : State} {c : CommitRec} (hk : 0x3FFFFFFFFFFFFFFFFFFFFFFFFFFFFFFFFFFFFFFFFFFFFFFFFFFFFFFFFFFFFFFFFFFFFFFFFFFFFFFFFFFFFFFFFFC60D6 ||| m = m)
    (h : Touches m s0 s) : Touches m s0 (State.passCommit s c) := by
  refine Touches.step (k := 0x3FFFFFFFFFFFFFFFFFFFFFFFFFFFFFFFFFFFFFFFFFFFFFFFFFFFFFFFFFFFFFFFFFFFFFFFFFFFFFFFFFFFFFFFFFC60D6) (t := s) ?_ hk h
  clear hk h
  unfold State.passCommit
  have h0 := Touches.refl 0x3FFFFFFFFFFFFFFFFFFFFFFFFFFFFFFFFFFFFFFFFFFFFFFFFFFFFFFFFFFFFFFFFFFFFFFFFFFFFFFFFFFFFFFFFFC60D6 s
  repeat' first
    | with_reducible assumption
    | (extract_lets +onlyGivenNames s'; with_reducible refine Touches.cut (t := s') ?_ ?_; subst s'; rotate_left; clear_value s'; intro hs; rotate_left)
    | (extract_lets +onlyGivenNames s'; first | (have _e : State → _ := s'; clear _e; subst s') | clear_value s')
    | with_reducible refine State.setCommit_touches (by first | decide | assumption) ?_
    | with_reducible refine State.refuseCommit_touches (by decide) ?_
    | with_reducible refine State.fence_touches (by decide) ?_
    | with_reducible refine State.replaceCommit_touches (by decide) ?_
    | split


theorem execCommitFence_touches {m : Nat} {s0 : State} {s : State} (hk : 0x3FFFFFFFFFFFFFFFFFFFFFFFFFFFFFFFFFFFFFFFFFFFFFFFFFFFFFFFFFFFFFFFFFFFFFFFFFFFFFFFFFFFFFFFFFC60D6 ||| m = m)
    (h : Touches m s0 s) : Ends m s0 (execCommitFence s) := by
  refine Ends.step (k := 0x3FFFFFFFFFFFFFFFFFFFFFFFFFFFFFFFFFFFFFFFFFFFFFFFFFFFFFFFFFFFFFFFFFFFFFFFFFFFFFFFFFFFFFFFFFC60D6) (t := s) ?_ hk h
  clear hk h
  unfold execCommitFence
  have h0 := Touches.refl 0x3FFFFFFFFFFFFFFFFFFFFFFFFFFFFFFFFFFFFFFFFFFFFFFFFFFFFFFFFFFFFFFFFFFFFFFFFFFFFFFFFFFFFFFFFFC60D6 s
  repeat' first
    | with_reducible assumption
    | (extract_lets +onlyGivenNames s'; with_reducible refine Touches.cut (t := s') ?_ ?_; subst s'; rotate_left; clear_value s'; intro hs; rotate_left)
    | (extract_lets +onlyGivenNames s'; with_reducible refine Ends.cut (t := s') ?_ ?_; subst s'; rotate_left; clear_value s'; intro hs; rotate_left)
    | with_reducible refine Ends.next ?_
    | (extract_lets +onlyGivenNames s'; first | (have _e : State → _ := s'; clear _e; subst s') | clear_value s')
    | with_reducible refine State.passCommit_touches (by decide) ?_
    | split


theorem State.carvingDone_touches {m : Nat} {s0 : State} {s : State} {n : Nat} (hk : 0x1000000000000000000000000000000 ||| m = m)
    (h : Touches m s0 s) : Touches m s0 (State.carvingDone s n) := by
  refine Touches.step (k := 0x1000000000000000000000000000000) (t := s) ?_ hk h
  clear hk h
  unfold State.carvingDone
  have h0 := Touches.refl 0x1000000000000000000000000000000 s
  repeat' first
    | with_reducible assumption
    | (extract_lets +onlyGivenNames s'; with_reducible refine Touches.cut (t := s') ?_ ?_; subst s'; rotate_left; clear_value s'; intro hs; rotate_left)
    | (extract_lets +onlyGivenNames s'; first | (have _e : State → _ := s'; clear _e; subst s') | clear_value s')
    | with_reducible refine Touches.foldl (fun _ _ _ => ?_) ?_
    | with_reducible refine Touches.set (by first | decide | assumption | (split <;> decide)) ?_
    | split


theorem execCommitDrainEnd_touches {m : Nat} {s0 : State} {s : State} (hk : 0x80000000100000000000000000000000000000000000000000001000000000000000000085000040090 ||| m = m)
    (h : Touches m s0 s) : Ends m s0 (execCommitDrainEnd s) := by
  refine Ends.step (k := 0x80000000100000000000000000000000000000000000000000001000000000000000000085000040090) (t := s) ?_ hk h
  clear hk h
  unfold execCommitDrainEnd
  have h0 := Touches.refl 0x80000000100000000000000000000000000000000000000000001000000000000000000085000040090 s
  repeat' first
    | with_reducible assumption
    | (extract_lets +onlyGivenNames s'; with_reducible refine Touches.cut (t := s') ?_ ?_; subst s'; rotate_left; clear_value s'; intro hs; rotate_left)
    | (extract_lets +onlyGivenNames s'; with_reducible refine Ends.cut (t := s') ?_ ?_; subst s'; rotate_left; clear_value s'; intro hs; rotate_left)
    | with_reducible refine Ends.next ?_
    | (extract_lets +onlyGivenNames s'; first | (have _e : State → _ := s'; clear _e; subst s') | clear_value s')
    | with_reducible refine State.setCommit_touches (by first | decide | assumption) ?_
    | with_reducible refine State.raiseCommit_touches (by first | decide | assumption) (by first | decide | assumption) (by decide) ?_
    | with_reducible refine State.refreshDrain_touches (by decide) ?_
    | with_reducible refine State.replaceCommit_touches (by decide) ?_
    | with_reducible refine State.carvingDone_touches (by decide) ?_
    | split


theorem State.markStale_touches {m : Nat} {s0 : State} {s : State} {n : Nat} (hk : 0x4 ||| m = m)
    (h : Touches m s0 s) : Touches m s0 (State.markStale s n) := by
  refine Touches.step (k := 0x4) (t := s) ?_ hk h
  clear hk h
  unfold State.markStale
  have h0 := Touches.refl 0x4 s
  repeat' first
    | with_reducible assumption
    | (extract_lets +onlyGivenNames s'; with_reducible refine Touches.cut (t := s') ?_ ?_; subst s'; rotate_left; clear_value s'; intro hs; rotate_left)
    | (extract_lets +onlyGivenNames s'; first | (have _e : State → _ := s'; clear _e; subst s') | (have _e : Switch := s'; clear _e; subst s') | clear_value s')
    | split
    | with_reducible refine Touches.upd_sw (by decide) rfl ?_


theorem execDrainLimitExpiry_touches {m : Nat} {s0 : State} {s : State} (hk : 0x3FFFFFFFFFFFFFFFFFFFFFFFFFFFFFFFFFFFFFFFFFFFFFFFFFFFFFFFFFFFFFFFFFFFFFFFFFFFFFFFFFFFFFFFFFC60D6 ||| m = m)
    (h : Touches m s0 s) : Ends m s0 (execDrainLimitExpiry s) := by
  refine Ends.step (k := 0x3FFFFFFFFFFFFFFFFFFFFFFFFFFFFFFFFFFFFFFFFFFFFFFFFFFFFFFFFFFFFFFFFFFFFFFFFFFFFFFFFFFFFFFFFFC60D6) (t := s) ?_ hk h
  clear hk h
  unfold execDrainLimitExpiry
  have h0 := Touches.refl 0x3FFFFFFFFFFFFFFFFFFFFFFFFFFFFFFFFFFFFFFFFFFFFFFFFFFFFFFFFFFFFFFFFFFFFFFFFFFFFFFFFFFFFFFFFFC60D6 s
  repeat' first
    | with_reducible assumption
    | (extract_lets +onlyGivenNames s'; with_reducible refine Touches.cut (t := s') ?_ ?_; subst s'; rotate_left; clear_value s'; intro hs; rotate_left)
    | (extract_lets +onlyGivenNames s'; with_reducible refine Ends.cut (t := s') ?_ ?_; subst s'; rotate_left; clear_value s'; intro hs; rotate_left)
    | with_reducible refine Ends.next ?_
    | (extract_lets +onlyGivenNames s'; first | (have _e : State → _ := s'; clear _e; subst s') | clear_value s')
    | with_reducible refine Touches.foldl (fun _ _ _ => ?_) ?_
    | with_reducible refine State.setCommit_touches (by first | decide | assumption) ?_
    | with_reducible refine State.refuseCommit_touches (by decide) ?_
    | with_reducible refine State.fence_touches (by decide) ?_
    | with_reducible refine State.replaceCommit_touches (by decide) ?_
    | with_reducible refine State.passCommit_touches (by decide) ?_
    | with_reducible refine State.markStale_touches (by decide) ?_
    | with_reducible refine Touches.raise (by first | decide | assumption | (split <;> decide)) (by decide) ?_
    | split


end Sys2Proof.Machine
end

