-- ==== Sys2Proof/Laws/TouchesTandem.lean ====
section
/-!
SUPPORT. What the operations of Tandem.lean can touch.
-/

namespace Sys2Proof.Machine

set_option linter.all false

theorem State.modTnd_touches {m : Nat} {s0 : State} {s : State} {f : TndBlock → TndBlock} (hk : 0x8000 ||| m = m)
    (h : Touches m s0 s) : Touches m s0 (State.modTnd s f) := by
  refine Touches.step (k := 0x8000) (t := s) ?_ hk h
  clear hk h
  unfold State.modTnd
  have h0 := Touches.refl 0x8000 s
  repeat' first
    | with_reducible assumption
    | (extract_lets +onlyGivenNames s'; with_reducible refine Touches.cut (t := s') ?_ ?_; subst s'; rotate_left; clear_value s'; intro hs; rotate_left)
    | (extract_lets +onlyGivenNames s'; first | (have _e : State → _ := s'; clear _e; subst s') | (have _e : TndBlock := s'; clear _e; subst s') | clear_value s')
    | split
    | with_reducible refine Touches.upd_tnd (by decide) ?_


theorem State.modWarden_touches {m : Nat} {s0 : State} {s : State} {w : Nat} {f : Warden → Warden} (hk : 0x8000 ||| m = m)
    (h : Touches m s0 s) : Touches m s0 (State.modWarden s w f) := by
  refine Touches.step (k := 0x8000) (t := s) ?_ hk h
  clear hk h
  unfold State.modWarden
  have h0 := Touches.refl 0x8000 s
  repeat' first
    | with_reducible assumption
    | (extract_lets +onlyGivenNames s'; with_reducible refine Touches.cut (t := s') ?_ ?_; subst s'; rotate_left; clear_value s'; intro hs; rotate_left)
    | (extract_lets +onlyGivenNames s'; first | (have _e : State → _ := s'; clear _e; subst s') | clear_value s')
    | with_reducible refine State.modTnd_touches (by decide) ?_
    | split


theorem State.setWarden_touches {m : Nat} {s0 : State} {s : State} {w st : Nat} (hk : 0x102000C000000000100000000000000000000000000000000000000000000000000000000000006000000042080 ||| m = m)
    (h : Touches m s0 s) : Touches m s0 (State.setWarden s w st) := by
  refine Touches.step (k := 0x102000C000000000100000000000000000000000000000000000000000000000000000000000006000000042080) (t := s) ?_ hk h
  clear hk h
  unfold State.setWarden
  have h0 := Touches.refl 0x102000C000000000100000000000000000000000000000000000000000000000000000000000006000000042080 s
  repeat' first
    | with_reducible assumption
    | (extract_lets +onlyGivenNames s'; with_reducible refine Touches.cut (t := s') ?_ ?_; subst s'; rotate_left; clear_value s'; intro hs; rotate_left)
    | (extract_lets +onlyGivenNames s'; first | (have _e : State → _ := s'; clear _e; subst s') | clear_value s')
    | with_reducible refine State.setReady_touches (by decide) ?_
    | with_reducible refine State.refreshMod_touches (by decide) ?_
    | with_reducible refine Touches.set (by first | decide | assumption | (split <;> decide)) ?_
    | split


theorem State.showLag_touches {m : Nat} {s0 : State} {s : State} (hk : 0x100000000000000000000000000000000000000000000000000000000000000000000000000000000000000 ||| m = m)
    (h : Touches m s0 s) : Touches m s0 (State.showLag s) := by
  refine Touches.step (k := 0x100000000000000000000000000000000000000000000000000000000000000000000000000000000000000) (t := s) ?_ hk h
  clear hk h
  unfold State.showLag
  have h0 := Touches.refl 0x100000000000000000000000000000000000000000000000000000000000000000000000000000000000000 s
  repeat' first
    | with_reducible assumption
    | (extract_lets +onlyGivenNames s'; with_reducible refine Touches.cut (t := s') ?_ ?_; subst s'; rotate_left; clear_value s'; intro hs; rotate_left)
    | (extract_lets +onlyGivenNames s'; first | (have _e : State → _ := s'; clear _e; subst s') | clear_value s')
    | with_reducible refine Touches.set (by first | decide | assumption | (split <;> decide)) ?_
    | split


theorem State.enterService_touches {m : Nat} {s0 : State} {s : State} {w st : Nat} (hk : 0x102000C00000000010000000000000000000000000000000000000000000000000000000000000600000004A080 ||| m = m)
    (h : Touches m s0 s) : Touches m s0 (State.enterService s w st) := by
  refine Touches.step (k := 0x102000C00000000010000000000000000000000000000000000000000000000000000000000000600000004A080) (t := s) ?_ hk h
  clear hk h
  unfold State.enterService
  have h0 := Touches.refl 0x102000C00000000010000000000000000000000000000000000000000000000000000000000000600000004A080 s
  repeat' first
    | with_reducible assumption
    | (extract_lets +onlyGivenNames s'; with_reducible refine Touches.cut (t := s') ?_ ?_; subst s'; rotate_left; clear_value s'; intro hs; rotate_left)
    | (extract_lets +onlyGivenNames s'; first | (have _e : State → _ := s'; clear _e; subst s') | clear_value s')
    | with_reducible refine State.modWarden_touches (by decide) ?_
    | with_reducible refine State.setWarden_touches (by decide) ?_
    | split


theorem State.mbxReply_touches {m : Nat} {s0 : State} {s : State} {status : Nat} {payload : List Byte} (hk : 0x3200000000000100000000000000000000000000000000000000000000000000000000000000000000048080 ||| m = m)
    (h : Touches m s0 s) : Touches m s0 (State.mbxReply s status payload) := by
  refine Touches.step (k := 0x3200000000000100000000000000000000000000000000000000000000000000000000000000000000048080) (t := s) ?_ hk h
  clear hk h
  unfold State.mbxReply
  have h0 := Touches.refl 0x3200000000000100000000000000000000000000000000000000000000000000000000000000000000048080 s
  repeat' first
    | with_reducible assumption
    | (extract_lets +onlyGivenNames s'; with_reducible refine Touches.cut (t := s') ?_ ?_; subst s'; rotate_left; clear_value s'; intro hs; rotate_left)
    | (extract_lets +onlyGivenNames s'; first | (have _e : State → _ := s'; clear _e; subst s') | clear_value s')
    | with_reducible refine Touches.foldl (fun _ _ _ => ?_) ?_
    | with_reducible refine State.modTnd_touches (by decide) ?_
    | with_reducible refine Touches.set (by first | decide | assumption | (split <;> decide)) ?_
    | with_reducible refine Touches.raise (by first | decide | assumption | (split <;> decide)) (by decide) ?_
    | split


theorem State.modElim_touches {m : Nat} {s0 : State} {s : State} {e : Nat} {f : Eliminator → Eliminator} (hk : 0x8000 ||| m = m)
    (h : Touches m s0 s) : Touches m s0 (State.modElim s e f) := by
  refine Touches.step (k := 0x8000) (t := s) ?_ hk h
  clear hk h
  unfold State.modElim
  have h0 := Touches.refl 0x8000 s
  repeat' first
    | with_reducible assumption
    | (extract_lets +onlyGivenNames s'; with_reducible refine Touches.cut (t := s') ?_ ?_; subst s'; rotate_left; clear_value s'; intro hs; rotate_left)
    | (extract_lets +onlyGivenNames s'; first | (have _e : State → _ := s'; clear _e; subst s') | clear_value s')
    | with_reducible refine State.modTnd_touches (by decide) ?_
    | split


theorem State.actCommand_touches {m : Nat} {s0 : State} {s : State} {e : Nat} {c : WardenCmd} (hk : 0x102320000478000010010000000000000000000221081000000000000000905448000000000000600000004A0E4 ||| m = m)
    (h : Touches m s0 s) : Touches m s0 (State.actCommand s e c) := by
  refine Touches.step (k := 0x102320000478000010010000000000000000000221081000000000000000905448000000000000600000004A0E4) (t := s) ?_ hk h
  clear hk h
  unfold State.actCommand
  have h0 := Touches.refl 0x102320000478000010010000000000000000000221081000000000000000905448000000000000600000004A0E4 s
  repeat' first
    | with_reducible assumption
    | (extract_lets +onlyGivenNames s'; with_reducible refine Touches.cut (t := s') ?_ ?_; subst s'; rotate_left; clear_value s'; intro hs; rotate_left)
    | (extract_lets +onlyGivenNames s'; first | (have _e : State → _ := s'; clear _e; subst s') | clear_value s')
    | with_reducible refine Touches.foldl_mem (fun s'' f'' hf'' hs'' => ?_) ?_
    | with_reducible refine Touches.foldl (fun _ _ _ => ?_) ?_
    | with_reducible refine State.recordFrom_touches (by decide) ?_
    | with_reducible refine State.record_touches (by decide) ?_
    | with_reducible refine State.promWrite_touches (by decide) ?_
    | with_reducible refine State.servoSample_touches (by decide) ?_
    | with_reducible refine State.writePhaseA_touches (by decide) ?_
    | with_reducible refine State.mbxReply_touches (by decide) ?_
    | with_reducible refine Touches.set (by first | decide | (clear hs''; revert f''; decide)) ?_
    | split


theorem State.divergence_touches {m : Nat} {s0 : State} {s : State} {e seq d0 d1 : Nat} {gone : Bool} (hk : 0x10224C000000000010000000000000000000000000000000000000000000000000000000000000000000004A080 ||| m = m)
    (h : Touches m s0 s) : Touches m s0 (State.divergence s e seq d0 d1 gone) := by
  refine Touches.step (k := 0x10224C000000000010000000000000000000000000000000000000000000000000000000000000000000004A080) (t := s) ?_ hk h
  clear hk h
  unfold State.divergence
  have h0 := Touches.refl 0x10224C000000000010000000000000000000000000000000000000000000000000000000000000000000004A080 s
  repeat' first
    | with_reducible assumption
    | (extract_lets +onlyGivenNames s'; with_reducible refine Touches.cut (t := s') ?_ ?_; subst s'; rotate_left; clear_value s'; intro hs; rotate_left)
    | (extract_lets +onlyGivenNames s'; first | (have _e : State → _ := s'; clear _e; subst s') | clear_value s')
    | with_reducible refine State.record_touches (by decide) ?_
    | with_reducible refine State.modTnd_touches (by decide) ?_
    | with_reducible refine Touches.set (by first | decide | assumption | (split <;> decide)) ?_
    | with_reducible refine Touches.addSat (by first | decide | assumption | (split <;> decide)) ?_
    | with_reducible refine Touches.raise (by first | decide | assumption | (split <;> decide)) (by decide) ?_
    | split


theorem State.missing_touches {m : Nat} {s0 : State} {s : State} {e : Nat} {p : ElimEntry} (hk : 0x10224C000000000010000000000000000000000000000000000000000000000000000000000000000000006A080 ||| m = m)
    (h : Touches m s0 s) : Touches m s0 (State.missing s e p) := by
  refine Touches.step (k := 0x10224C000000000010000000000000000000000000000000000000000000000000000000000000000000006A080) (t := s) ?_ hk h
  clear hk h
  unfold State.missing
  have h0 := Touches.refl 0x10224C000000000010000000000000000000000000000000000000000000000000000000000000000000006A080 s
  repeat' first
    | with_reducible assumption
    | (extract_lets +onlyGivenNames s'; with_reducible refine Touches.cut (t := s') ?_ ?_; subst s'; rotate_left; clear_value s'; intro hs; rotate_left)
    | (extract_lets +onlyGivenNames s'; first | (have _e : State → _ := s'; clear _e; subst s') | clear_value s')
    | with_reducible refine State.draw_touches_eq (by assumption) (by decide) ?_
    | with_reducible refine State.draw_touches (by decide) ?_
    | with_reducible refine State.record_touches (by decide) ?_
    | with_reducible refine State.divergence_touches (by decide) ?_
    | with_reducible refine Touches.addSat (by first | decide | assumption | (split <;> decide)) ?_
    | with_reducible refine Touches.raise (by first | decide | assumption | (split <;> decide)) (by decide) ?_
    | split


theorem State.acceptCopy_touches {m : Nat} {s0 : State} {s : State} {w e seq digest : Nat} {c : WardenCmd} (hk : 0x10236C400478000010010000000000000000000221081000000000000000905448000000000000600000006A0E4 ||| m = m)
    (h : Touches m s0 s) : Touches m s0 (State.acceptCopy s w e seq digest c) := by
  refine Touches.step (k := 0x10236C400478000010010000000000000000000221081000000000000000905448000000000000600000006A0E4) (t := s) ?_ hk h
  clear hk h
  unfold State.acceptCopy
  have h0 := Touches.refl 0x10236C400478000010010000000000000000000221081000000000000000905448000000000000600000006A0E4 s
  repeat' first
    | with_reducible assumption
    | (extract_lets +onlyGivenNames s'; with_reducible refine Touches.cut (t := s') ?_ ?_; subst s'; rotate_left; clear_value s'; intro hs; rotate_left)
    | (extract_lets +onlyGivenNames s'; first | (have _e : State → _ := s'; clear _e; subst s') | clear_value s')
    | with_reducible refine State.modElim_touches (by decide) ?_
    | with_reducible refine State.actCommand_touches (by decide) ?_
    | with_reducible refine State.missing_touches (by decide) ?_
    | with_reducible refine Touches.set (by first | decide | assumption | (split <;> decide)) ?_
    | split


theorem State.takeCopy_touches {m : Nat} {s0 : State} {s : State} {copy : CommandCopy} (hk : 0x10236C400478000010010000000000000000000221081000000000000000905448000000000000600000006A0E4 ||| m = m)
    (h : Touches m s0 s) : Touches m s0 (State.takeCopy s copy) := by
  refine Touches.step (k := 0x10236C400478000010010000000000000000000221081000000000000000905448000000000000600000006A0E4) (t := s) ?_ hk h
  clear hk h
  unfold State.takeCopy
  have h0 := Touches.refl 0x10236C400478000010010000000000000000000221081000000000000000905448000000000000600000006A0E4 s
  repeat' first
    | with_reducible assumption
    | (extract_lets +onlyGivenNames s'; with_reducible refine Touches.cut (t := s') ?_ ?_; subst s'; rotate_left; clear_value s'; intro hs; rotate_left)
    | (extract_lets +onlyGivenNames s'; first | (have _e : State → _ := s'; clear _e; subst s') | clear_value s')
    | with_reducible refine State.modElim_touches (by decide) ?_
    | with_reducible refine State.divergence_touches (by decide) ?_
    | with_reducible refine State.acceptCopy_touches (by decide) ?_
    | with_reducible refine Touches.addSat (by first | decide | assumption | (split <;> decide)) ?_
    | split


theorem State.resume_touches {m : Nat} {s0 : State} {s : State} (hk : 0x10236C400478000010010000000000000000000221081000000000000000905448000000000000600000006A0E4 ||| m = m)
    (h : Touches m s0 s) : Touches m s0 (State.resume s) := by
  refine Touches.step (k := 0x10236C400478000010010000000000000000000221081000000000000000905448000000000000600000006A0E4) (t := s) ?_ hk h
  clear hk h
  unfold State.resume
  have h0 := Touches.refl 0x10236C400478000010010000000000000000000221081000000000000000905448000000000000600000006A0E4 s
  repeat' first
    | with_reducible assumption
    | (extract_lets +onlyGivenNames s'; with_reducible refine Touches.cut (t := s') ?_ ?_; subst s'; rotate_left; clear_value s'; intro hs; rotate_left)
    | (extract_lets +onlyGivenNames s'; first | (have _e : State → _ := s'; clear _e; subst s') | clear_value s')
    | with_reducible refine Touches.foldl (fun _ _ _ => ?_) ?_
    | with_reducible refine State.modTnd_touches (by decide) ?_
    | with_reducible refine State.takeCopy_touches (by decide) ?_
    | split


theorem State.resign_touches {m : Nat} {s0 : State} {s : State} {w cause : Nat} (hk : 0x10237CC00478000010010000000000000000000221081000000000000000905448000000000000600000006A0E4 ||| m = m)
    (h : Touches m s0 s) : Touches m s0 (State.resign s w cause) := by
  refine Touches.step (k := 0x10237CC00478000010010000000000000000000221081000000000000000905448000000000000600000006A0E4) (t := s) ?_ hk h
  clear hk h
  unfold State.resign
  have h0 := Touches.refl 0x10237CC00478000010010000000000000000000221081000000000000000905448000000000000600000006A0E4 s
  repeat' first
    | with_reducible assumption
    | (extract_lets +onlyGivenNames s'; with_reducible refine Touches.cut (t := s') ?_ ?_; subst s'; rotate_left; clear_value s'; intro hs; rotate_left)
    | (extract_lets +onlyGivenNames s'; first | (have _e : State → _ := s'; clear _e; subst s') | clear_value s')
    | with_reducible refine State.draw_touches_eq (by assumption) (by decide) ?_
    | with_reducible refine State.draw_touches (by decide) ?_
    | with_reducible refine State.record_touches (by decide) ?_
    | with_reducible refine State.modTnd_touches (by decide) ?_
    | with_reducible refine State.modWarden_touches (by decide) ?_
    | with_reducible refine State.setWarden_touches (by decide) ?_
    | with_reducible refine State.showLag_touches (by decide) ?_
    | with_reducible refine State.enterService_touches (by decide) ?_
    | with_reducible refine State.resume_touches (by decide) ?_
    | with_reducible refine Touches.set (by first | decide | assumption | (split <;> decide)) ?_
    | with_reducible refine Touches.addSat (by first | decide | assumption | (split <;> decide)) ?_
    | with_reducible refine Touches.raise (by first | decide | assumption | (split <;> decide)) (by decide) ?_
    | split


theorem State.takeInputs_touches {m : Nat} {s0 : State} {s : State} {w n : Nat} (hk : 0x100000000000000000000000000000000000000000000000000000000000000000000000000000000008000 ||| m = m)
    (h : Touches m s0 s) : Touches m s0 (State.takeInputs s w n) := by
  refine Touches.step (k := 0x100000000000000000000000000000000000000000000000000000000000000000000000000000000008000) (t := s) ?_ hk h
  clear hk h
  unfold State.takeInputs
  have h0 := Touches.refl 0x100000000000000000000000000000000000000000000000000000000000000000000000000000000008000 s
  repeat' first
    | with_reducible assumption
    | (extract_lets +onlyGivenNames s'; with_reducible refine Touches.cut (t := s') ?_ ?_; subst s'; rotate_left; clear_value s'; intro hs; rotate_left)
    | (extract_lets +onlyGivenNames s'; first | (have _e : State → _ := s'; clear _e; subst s') | clear_value s')
    | with_reducible refine State.modWarden_touches (by decide) ?_
    | with_reducible refine State.showLag_touches (by decide) ?_
    | split


theorem State.sequence_touches {m : Nat} {s0 : State} {s : State} {kind : Nat} {payload : List Nat} (hk : 0x10237CC00478000010010000000000000000000221081000000000000000905448000000000000600000006A0E4 ||| m = m)
    (h : Touches m s0 s) : Touches m s0 (State.sequence s kind payload) := by
  refine Touches.step (k := 0x10237CC00478000010010000000000000000000221081000000000000000905448000000000000600000006A0E4) (t := s) ?_ hk h
  clear hk h
  unfold State.sequence
  have h0 := Touches.refl 0x10237CC00478000010010000000000000000000221081000000000000000905448000000000000600000006A0E4 s
  repeat' first
    | with_reducible assumption
    | (extract_lets +onlyGivenNames s'; with_reducible refine Touches.cut (t := s') ?_ ?_; subst s'; rotate_left; clear_value s'; intro hs; rotate_left)
    | (extract_lets +onlyGivenNames s'; first | (have _e : State → _ := s'; clear _e; subst s') | clear_value s')
    | with_reducible refine Touches.foldl (fun _ _ _ => ?_) ?_
    | with_reducible refine State.modTnd_touches (by decide) ?_
    | with_reducible refine State.modWarden_touches (by decide) ?_
    | with_reducible refine State.showLag_touches (by decide) ?_
    | with_reducible refine State.resign_touches (by decide) ?_
    | with_reducible refine Touches.addSat (by first | decide | assumption | (split <;> decide)) ?_
    | with_reducible refine Touches.emit (by decide) ?_
    | split


theorem State.sequenceHeld_touches {m : Nat} {s0 : State} {s : State} (hk : 0x10237CC00478000010010000000000000000000221081000000000000000905448000000000000600000006A0E4 ||| m = m)
    (h : Touches m s0 s) : Touches m s0 (State.sequenceHeld s) := by
  refine Touches.step (k := 0x10237CC00478000010010000000000000000000221081000000000000000905448000000000000600000006A0E4) (t := s) ?_ hk h
  clear hk h
  unfold State.sequenceHeld
  have h0 := Touches.refl 0x10237CC00478000010010000000000000000000221081000000000000000905448000000000000600000006A0E4 s
  repeat' first
    | with_reducible assumption
    | (extract_lets +onlyGivenNames s'; with_reducible refine Touches.cut (t := s') ?_ ?_; subst s'; rotate_left; clear_value s'; intro hs; rotate_left)
    | (extract_lets +onlyGivenNames s'; first | (have _e : State → _ := s'; clear _e; subst s') | (have _e : TndBlock := s'; clear _e; subst s') | clear_value s')
    | with_reducible refine Touches.foldl (fun _ _ _ => ?_) ?_
    | with_reducible refine State.sequence_touches (by decide) ?_
    | split
    | with_reducible refine Touches.upd_tnd (by decide) ?_


theorem execWardenInput_touches {m : Nat} {s0 : State} {kind : Fin 4} {payload : List Nat} {takenA takenB : Nat} {s : State} (hk : 0x10237CC00478000010010000000000000000000221081000000000000000905448000000000000600000006A0E4 ||| m = m)
    (h : Touches m s0 s) : Ends m s0 (execWardenInput kind payload takenA takenB s) := by
  refine Ends.step (k := 0x10237CC00478000010010000000000000000000221081000000000000000905448000000000000600000006A0E4) (t := s) ?_ hk h
  clear hk h
  unfold execWardenInput
  have h0 := Touches.refl 0x10237CC00478000010010000000000000000000221081000000000000000905448000000000000600000006A0E4 s
  repeat' first
    | with_reducible assumption
    | (extract_lets +onlyGivenNames s'; with_reducible refine Touches.cut (t := s') ?_ ?_; subst s'; rotate_left; clear_value s'; intro hs; rotate_left)
    | (extract_lets +onlyGivenNames s'; with_reducible refine Ends.cut (t := s') ?_ ?_; subst s'; rotate_left; clear_value s'; intro hs; rotate_left)
    | with_reducible refine Ends.next ?_
    | (extract_lets +onlyGivenNames s'; first | (have _e : State → _ := s'; clear _e; subst s') | clear_value s')
    | with_reducible refine State.takeInputs_touches (by decide) ?_
    | with_reducible refine State.sequence_touches (by decide) ?_
    | with_reducible refine State.sequenceHeld_touches (by decide) ?_
    | split


theorem execTimerInput_touches {m : Nat} {s0 : State} {takenA takenB : Nat} {s : State} (hk : 0x10237CC00478000010010000000000000000000221081000000000000000905448000000000000600000006A0E4 ||| m = m)
    (h : Touches m s0 s) : Ends m s0 (execTimerInput takenA takenB s) := by
  refine Ends.step (k := 0x10237CC00478000010010000000000000000000221081000000000000000905448000000000000600000006A0E4) (t := s) ?_ hk h
  clear hk h
  unfold execTimerInput
  have h0 := Touches.refl 0x10237CC00478000010010000000000000000000221081000000000000000905448000000000000600000006A0E4 s
  repeat' first
    | with_reducible assumption
    | (extract_lets +onlyGivenNames s'; with_reducible refine Touches.cut (t := s') ?_ ?_; subst s'; rotate_left; clear_value s'; intro hs; rotate_left)
    | (extract_lets +onlyGivenNames s'; with_reducible refine Ends.cut (t := s') ?_ ?_; subst s'; rotate_left; clear_value s'; intro hs; rotate_left)
    | with_reducible refine Ends.next ?_
    | (extract_lets +onlyGivenNames s'; first | (have _e : State → _ := s'; clear _e; subst s') | clear_value s')
    | with_reducible refine State.modTnd_touches (by decide) ?_
    | with_reducible refine State.takeInputs_touches (by decide) ?_
    | with_reducible refine State.sequence_touches (by decide) ?_
    | with_reducible refine State.sequenceHeld_touches (by decide) ?_
    | split


theorem State.copyArrives_touches {m : Nat} {s0 : State} {s : State} {copy : CommandCopy} (hk : 0x10236C400478000010010000000000000000000221081000000000000000905448000000000000600000006A0E4 ||| m = m)
    (h : Touches m s0 s) : Touches m s0 (State.copyArrives s copy) := by
  refine Touches.step (k := 0x10236C400478000010010000000000000000000221081000000000000000905448000000000000600000006A0E4) (t := s) ?_ hk h
  clear hk h
  unfold State.copyArrives
  have h0 := Touches.refl 0x10236C400478000010010000000000000000000221081000000000000000905448000000000000600000006A0E4 s
  repeat' first
    | with_reducible assumption
    | (extract_lets +onlyGivenNames s'; with_reducible refine Touches.cut (t := s') ?_ ?_; subst s'; rotate_left; clear_value s'; intro hs; rotate_left)
    | (extract_lets +onlyGivenNames s'; first | (have _e : State → _ := s'; clear _e; subst s') | clear_value s')
    | with_reducible refine State.modTnd_touches (by decide) ?_
    | with_reducible refine State.takeCopy_touches (by decide) ?_
    | split


theorem execCommandCopy_touches {m : Nat} {s0 : State} {copies : CopyArrival} {s : State} (hk : 0x10236C400478000010010000000000000000000221081000000000000000905448000000000000600000006A0E4 ||| m = m)
    (h : Touches m s0 s) : Ends m s0 (execCommandCopy copies s) := by
  refine Ends.step (k := 0x10236C400478000010010000000000000000000221081000000000000000905448000000000000600000006A0E4) (t := s) ?_ hk h
  clear hk h
  unfold execCommandCopy
  have h0 := Touches.refl 0x10236C400478000010010000000000000000000221081000000000000000905448000000000000600000006A0E4 s
  repeat' first
    | with_reducible assumption
    | (extract_lets +onlyGivenNames s'; with_reducible refine Touches.cut (t := s') ?_ ?_; subst s'; rotate_left; clear_value s'; intro hs; rotate_left)
    | (extract_lets +onlyGivenNames s'; with_reducible refine Ends.cut (t := s') ?_ ?_; subst s'; rotate_left; clear_value s'; intro hs; rotate_left)
    | with_reducible refine Ends.next ?_
    | (extract_lets +onlyGivenNames s'; first | (have _e : State → _ := s'; clear _e; subst s') | clear_value s')
    | with_reducible refine State.copyArrives_touches (by decide) ?_
    | split


theorem execEliminatorWindowExpiry_touches {m : Nat} {s0 : State} {eliminator : Fin 6} {s : State} (hk : 0x10224C000000000010000000000000000000000000000000000000000000000000000000000000000000006A080 ||| m = m)
    (h : Touches m s0 s) : Ends m s0 (execEliminatorWindowExpiry eliminator s) := by
  refine Ends.step (k := 0x10224C000000000010000000000000000000000000000000000000000000000000000000000000000000006A080) (t := s) ?_ hk h
  clear hk h
  unfold execEliminatorWindowExpiry
  have h0 := Touches.refl 0x10224C000000000010000000000000000000000000000000000000000000000000000000000000000000006A080 s
  repeat' first
    | with_reducible assumption
    | (extract_lets +onlyGivenNames s'; with_reducible refine Touches.cut (t := s') ?_ ?_; subst s'; rotate_left; clear_value s'; intro hs; rotate_left)
    | (extract_lets +onlyGivenNames s'; with_reducible refine Ends.cut (t := s') ?_ ?_; subst s'; rotate_left; clear_value s'; intro hs; rotate_left)
    | with_reducible refine Ends.next ?_
    | (extract_lets +onlyGivenNames s'; first | (have _e : State → _ := s'; clear _e; subst s') | clear_value s')
    | with_reducible refine Touches.foldl (fun _ _ _ => ?_) ?_
    | with_reducible refine State.modElim_touches (by decide) ?_
    | with_reducible refine State.missing_touches (by decide) ?_
    | split


theorem execDivergenceSelftestEnd_touches {m : Nat} {s0 : State} {failA failB : Bool} {s : State} (hk : 0x10237CC00478000010010000000000000000000221081000000000000000905448000000000000600000006A0E4 ||| m = m)
    (h : Touches m s0 s) : Ends m s0 (execDivergenceSelftestEnd failA failB s) := by
  refine Ends.step (k := 0x10237CC00478000010010000000000000000000221081000000000000000905448000000000000600000006A0E4) (t := s) ?_ hk h
  clear hk h
  unfold execDivergenceSelftestEnd
  have h0 := Touches.refl 0x10237CC00478000010010000000000000000000221081000000000000000905448000000000000600000006A0E4 s
  repeat' first
    | with_reducible assumption
    | (extract_lets +onlyGivenNames s'; with_reducible refine Touches.cut (t := s') ?_ ?_; subst s'; rotate_left; clear_value s'; intro hs; rotate_left)
    | (extract_lets +onlyGivenNames s'; with_reducible refine Ends.cut (t := s') ?_ ?_; subst s'; rotate_left; clear_value s'; intro hs; rotate_left)
    | with_reducible refine Ends.next ?_
    | (extract_lets +onlyGivenNames s'; first | (have _e : State → _ := s'; clear _e; subst s') | clear_value s')
    | with_reducible refine Touches.foldl (fun _ _ _ => ?_) ?_
    | with_reducible refine State.modTnd_touches (by decide) ?_
    | with_reducible refine State.modWarden_touches (by decide) ?_
    | with_reducible refine State.resign_touches (by decide) ?_
    | split


theorem execLockstepMismatch_touches {m : Nat} {s0 : State} {warden : Fin 2} {s : State} (hk : 0x10237CC00478000010010000000000000000000221081000000000000000905448000000000000600000006A0E4 ||| m = m)
    (h : Touches m s0 s) : Ends m s0 (execLockstepMismatch warden s) := by
  refine Ends.step (k := 0x10237CC00478000010010000000000000000000221081000000000000000905448000000000000600000006A0E4) (t := s) ?_ hk h
  clear hk h
  unfold execLockstepMismatch
  have h0 := Touches.refl 0x10237CC00478000010010000000000000000000221081000000000000000905448000000000000600000006A0E4 s
  repeat' first
    | with_reducible assumption
    | (extract_lets +onlyGivenNames s'; with_reducible refine Touches.cut (t := s') ?_ ?_; subst s'; rotate_left; clear_value s'; intro hs; rotate_left)
    | (extract_lets +onlyGivenNames s'; with_reducible refine Ends.cut (t := s') ?_ ?_; subst s'; rotate_left; clear_value s'; intro hs; rotate_left)
    | with_reducible refine Ends.next ?_
    | (extract_lets +onlyGivenNames s'; first | (have _e : State → _ := s'; clear _e; subst s') | clear_value s')
    | with_reducible refine State.resign_touches (by decide) ?_
    | split


theorem execWatchdogExpiry_touches {m : Nat} {s0 : State} {warden : Fin 2} {s : State} (hk : 0x10237CC00478000010010000000000000000000221081000000000000000905448000000000000600000006A0E4 ||| m = m)
    (h : Touches m s0 s) : Ends m s0 (execWatchdogExpiry warden s) := by
  refine Ends.step (k := 0x10237CC00478000010010000000000000000000221081000000000000000905448000000000000600000006A0E4) (t := s) ?_ hk h
  clear hk h
  unfold execWatchdogExpiry
  have h0 := Touches.refl 0x10237CC00478000010010000000000000000000221081000000000000000905448000000000000600000006A0E4 s
  repeat' first
    | with_reducible assumption
    | (extract_lets +onlyGivenNames s'; with_reducible refine Touches.cut (t := s') ?_ ?_; subst s'; rotate_left; clear_value s'; intro hs; rotate_left)
    | (extract_lets +onlyGivenNames s'; with_reducible refine Ends.cut (t := s') ?_ ?_; subst s'; rotate_left; clear_value s'; intro hs; rotate_left)
    | with_reducible refine Ends.next ?_
    | (extract_lets +onlyGivenNames s'; first | (have _e : State → _ := s'; clear _e; subst s') | clear_value s')
    | with_reducible refine State.resign_touches (by decide) ?_
    | split


theorem execPeriodicSelftest_touches {m : Nat} {s0 : State} {warden : Fin 2} {pass : Bool} {s : State} (hk : 0x10237CC00478000010010000000000000000000221081000000000000000905448000000000000600000006A0E4 ||| m = m)
    (h : Touches m s0 s) : Ends m s0 (execPeriodicSelftest warden pass s) := by
  refine Ends.step (k := 0x10237CC00478000010010000000000000000000221081000000000000000905448000000000000600000006A0E4) (t := s) ?_ hk h
  clear hk h
  unfold execPeriodicSelftest
  have h0 := Touches.refl 0x10237CC00478000010010000000000000000000221081000000000000000905448000000000000600000006A0E4 s
  repeat' first
    | with_reducible assumption
    | (extract_lets +onlyGivenNames s'; with_reducible refine Touches.cut (t := s') ?_ ?_; subst s'; rotate_left; clear_value s'; intro hs; rotate_left)
    | (extract_lets +onlyGivenNames s'; with_reducible refine Ends.cut (t := s') ?_ ?_; subst s'; rotate_left; clear_value s'; intro hs; rotate_left)
    | with_reducible refine Ends.next ?_
    | (extract_lets +onlyGivenNames s'; first | (have _e : State → _ := s'; clear _e; subst s') | clear_value s')
    | with_reducible refine State.modWarden_touches (by decide) ?_
    | with_reducible refine State.resign_touches (by decide) ?_
    | split


theorem State.startWarden_touches {m : Nat} {s0 : State} {s : State} {w : Nat} {together : Bool} (hk : 0x102000C00000000010000000000000000000000000000000000000000000000000000000000000600000004A080 ||| m = m)
    (h : Touches m s0 s) : Touches m s0 (State.startWarden s w together) := by
  refine Touches.step (k := 0x102000C00000000010000000000000000000000000000000000000000000000000000000000000600000004A080) (t := s) ?_ hk h
  clear hk h
  unfold State.startWarden
  have h0 := Touches.refl 0x102000C00000000010000000000000000000000000000000000000000000000000000000000000600000004A080 s
  repeat' first
    | with_reducible assumption
    | (extract_lets +onlyGivenNames s'; with_reducible refine Touches.cut (t := s') ?_ ?_; subst s'; rotate_left; clear_value s'; intro hs; rotate_left)
    | (extract_lets +onlyGivenNames s'; first | (have _e : State → _ := s'; clear _e; subst s') | clear_value s')
    | with_reducible refine State.modWarden_touches (by decide) ?_
    | with_reducible refine State.setWarden_touches (by decide) ?_
    | split


theorem State.startBoth_touches {m : Nat} {s0 : State} {s : State} {f : Firmware} (hk : 0x101102000C00000000010000000000000000000000000000000000000000000000000000000000000600000004E080 ||| m = m)
    (h : Touches m s0 s) : Touches m s0 (State.startBoth s f) := by
  refine Touches.step (k := 0x101102000C00000000010000000000000000000000000000000000000000000000000000000000000600000004E080) (t := s) ?_ hk h
  clear hk h
  unfold State.startBoth
  have h0 := Touches.refl 0x101102000C00000000010000000000000000000000000000000000000000000000000000000000000600000004E080 s
  repeat' first
    | with_reducible assumption
    | (extract_lets +onlyGivenNames s'; with_reducible refine Touches.cut (t := s') ?_ ?_; subst s'; rotate_left; clear_value s'; intro hs; rotate_left)
    | (extract_lets +onlyGivenNames s'; first | (have _e : State → _ := s'; clear _e; subst s') | clear_value s')
    | with_reducible refine State.modSec_touches (by decide) ?_
    | with_reducible refine State.setMeas2_touches (by decide) ?_
    | with_reducible refine State.modTnd_touches (by decide) ?_
    | with_reducible refine State.startWarden_touches (by decide) ?_
    | with_reducible refine Touches.set (by first | decide | assumption | (split <;> decide)) ?_
    | split


theorem execAutoRestart_touches {m : Nat} {s0 : State} {warden : Fin 2} {s : State} (hk : 0x102200C00000000010000000000000000000000000000000000000000000000000000000000000600000004A080 ||| m = m)
    (h : Touches m s0 s) : Ends m s0 (execAutoRestart warden s) := by
  refine Ends.step (k := 0x102200C00000000010000000000000000000000000000000000000000000000000000000000000600000004A080) (t := s) ?_ hk h
  clear hk h
  unfold execAutoRestart
  have h0 := Touches.refl 0x102200C00000000010000000000000000000000000000000000000000000000000000000000000600000004A080 s
  repeat' first
    | with_reducible assumption
    | (extract_lets +onlyGivenNames s'; with_reducible refine Touches.cut (t := s') ?_ ?_; subst s'; rotate_left; clear_value s'; intro hs; rotate_left)
    | (extract_lets +onlyGivenNames s'; with_reducible refine Ends.cut (t := s') ?_ ?_; subst s'; rotate_left; clear_value s'; intro hs; rotate_left)
    | with_reducible refine Ends.next ?_
    | (extract_lets +onlyGivenNames s'; first | (have _e : State → _ := s'; clear _e; subst s') | clear_value s')
    | with_reducible refine State.modWarden_touches (by decide) ?_
    | with_reducible refine State.setWarden_touches (by decide) ?_
    | with_reducible refine State.startWarden_touches (by decide) ?_
    | with_reducible refine Touches.raise (by first | decide | assumption | (split <;> decide)) (by decide) ?_
    | split


theorem execWardenLoadDone_touches {m : Nat} {s0 : State} {warden : Fin 2} {s : State} (hk : 0x102000C00000000010000000000000000000000000000000000000000000000000000000000000600000004A080 ||| m = m)
    (h : Touches m s0 s) : Ends m s0 (execWardenLoadDone warden s) := by
  refine Ends.step (k := 0x102000C00000000010000000000000000000000000000000000000000000000000000000000000600000004A080) (t := s) ?_ hk h
  clear hk h
  unfold execWardenLoadDone
  have h0 := Touches.refl 0x102000C00000000010000000000000000000000000000000000000000000000000000000000000600000004A080 s
  repeat' first
    | with_reducible assumption
    | (extract_lets +onlyGivenNames s'; with_reducible refine Touches.cut (t := s') ?_ ?_; subst s'; rotate_left; clear_value s'; intro hs; rotate_left)
    | (extract_lets +onlyGivenNames s'; with_reducible refine Ends.cut (t := s') ?_ ?_; subst s'; rotate_left; clear_value s'; intro hs; rotate_left)
    | with_reducible refine Ends.next ?_
    | (extract_lets +onlyGivenNames s'; first | (have _e : State → _ := s'; clear _e; subst s') | clear_value s')
    | with_reducible refine State.modWarden_touches (by decide) ?_
    | with_reducible refine State.setWarden_touches (by decide) ?_
    | with_reducible refine Touches.set (by first | decide | assumption | (split <;> decide)) ?_
    | split


theorem State.startSole_touches {m : Nat} {s0 : State} {s : State} {w : Nat} (hk : 0x102000C00000000010000000000000000000000000000000000000000000000000000000000000600000004A080 ||| m = m)
    (h : Touches m s0 s) : Touches m s0 (State.startSole s w) := by
  refine Touches.step (k := 0x102000C00000000010000000000000000000000000000000000000000000000000000000000000600000004A080) (t := s) ?_ hk h
  clear hk h
  unfold State.startSole
  have h0 := Touches.refl 0x102000C00000000010000000000000000000000000000000000000000000000000000000000000600000004A080 s
  repeat' first
    | with_reducible assumption
    | (extract_lets +onlyGivenNames s'; with_reducible refine Touches.cut (t := s') ?_ ?_; subst s'; rotate_left; clear_value s'; intro hs; rotate_left)
    | (extract_lets +onlyGivenNames s'; first | (have _e : State → _ := s'; clear _e; subst s') | clear_value s')
    | with_reducible refine State.record_touches (by decide) ?_
    | with_reducible refine State.enterService_touches (by decide) ?_
    | split


theorem execWardenSelftestDone_touches {m : Nat} {s0 : State} {warden : Fin 2} {pass : Bool} {s : State} (hk : 0x10237CC00478000010010000000000000000000221081000000000000000905448000000000000600000006A0E4 ||| m = m)
    (h : Touches m s0 s) : Ends m s0 (execWardenSelftestDone warden pass s) := by
  refine Ends.step (k := 0x10237CC00478000010010000000000000000000221081000000000000000905448000000000000600000006A0E4) (t := s) ?_ hk h
  clear hk h
  unfold execWardenSelftestDone
  have h0 := Touches.refl 0x10237CC00478000010010000000000000000000221081000000000000000905448000000000000600000006A0E4 s
  repeat' first
    | with_reducible assumption
    | (extract_lets +onlyGivenNames s'; with_reducible refine Touches.cut (t := s') ?_ ?_; subst s'; rotate_left; clear_value s'; intro hs; rotate_left)
    | (extract_lets +onlyGivenNames s'; with_reducible refine Ends.cut (t := s') ?_ ?_; subst s'; rotate_left; clear_value s'; intro hs; rotate_left)
    | with_reducible refine Ends.next ?_
    | (extract_lets +onlyGivenNames s'; first | (have _e : State → _ := s'; clear _e; subst s') | clear_value s')
    | with_reducible refine State.modTnd_touches (by decide) ?_
    | with_reducible refine State.modWarden_touches (by decide) ?_
    | with_reducible refine State.setWarden_touches (by decide) ?_
    | with_reducible refine State.enterService_touches (by decide) ?_
    | with_reducible refine State.resign_touches (by decide) ?_
    | with_reducible refine State.startSole_touches (by decide) ?_
    | split


theorem execResyncCopyDone_touches {m : Nat} {s0 : State} {s : State} (hk : 0x10236C400478000010010000000000000000000221081000000000000000905448000000000000600000006A0E4 ||| m = m)
    (h : Touches m s0 s) : Ends m s0 (execResyncCopyDone s) := by
  refine Ends.step (k := 0x10236C400478000010010000000000000000000221081000000000000000905448000000000000600000006A0E4) (t := s) ?_ hk h
  clear hk h
  unfold execResyncCopyDone
  have h0 := Touches.refl 0x10236C400478000010010000000000000000000221081000000000000000905448000000000000600000006A0E4 s
  repeat' first
    | with_reducible assumption
    | (extract_lets +onlyGivenNames s'; with_reducible refine Touches.cut (t := s') ?_ ?_; subst s'; rotate_left; clear_value s'; intro hs; rotate_left)
    | (extract_lets +onlyGivenNames s'; with_reducible refine Ends.cut (t := s') ?_ ?_; subst s'; rotate_left; clear_value s'; intro hs; rotate_left)
    | with_reducible refine Ends.next ?_
    | (extract_lets +onlyGivenNames s'; first | (have _e : State → _ := s'; clear _e; subst s') | clear_value s')
    | with_reducible refine State.modWarden_touches (by decide) ?_
    | with_reducible refine State.resume_touches (by decide) ?_
    | split


theorem execResyncDone_touches {m : Nat} {s0 : State} {warden : Fin 2} {s : State} (hk : 0x102210C00000000010000000000000000000000000000000000000000000000000000000000000600000004A080 ||| m = m)
    (h : Touches m s0 s) : Ends m s0 (execResyncDone warden s) := by
  refine Ends.step (k := 0x102210C00000000010000000000000000000000000000000000000000000000000000000000000600000004A080) (t := s) ?_ hk h
  clear hk h
  unfold execResyncDone
  have h0 := Touches.refl 0x102210C00000000010000000000000000000000000000000000000000000000000000000000000600000004A080 s
  repeat' first
    | with_reducible assumption
    | (extract_lets +onlyGivenNames s'; with_reducible refine Touches.cut (t := s') ?_ ?_; subst s'; rotate_left; clear_value s'; intro hs; rotate_left)
    | (extract_lets +onlyGivenNames s'; with_reducible refine Ends.cut (t := s') ?_ ?_; subst s'; rotate_left; clear_value s'; intro hs; rotate_left)
    | with_reducible refine Ends.next ?_
    | (extract_lets +onlyGivenNames s'; first | (have _e : State → _ := s'; clear _e; subst s') | clear_value s')
    | with_reducible refine State.record_touches (by decide) ?_
    | with_reducible refine State.modWarden_touches (by decide) ?_
    | with_reducible refine State.showLag_touches (by decide) ?_
    | with_reducible refine State.enterService_touches (by decide) ?_
    | with_reducible refine State.startSole_touches (by decide) ?_
    | with_reducible refine Touches.raise (by first | decide | assumption | (split <;> decide)) (by decide) ?_
    | split


theorem execRestart_touches {m : Nat} {s0 : State} {value : Word} {s : State} (hk : 0x102002C00000000010000000000000000000000000000000000000000000000000000000000000600000004A080 ||| m = m)
    (h : Touches m s0 s) : Ends m s0 (execRestart value s) := by
  refine Ends.step (k := 0x102002C00000000010000000000000000000000000000000000000000000000000000000000000600000004A080) (t := s) ?_ hk h
  clear hk h
  unfold execRestart
  have h0 := Touches.refl 0x102002C00000000010000000000000000000000000000000000000000000000000000000000000600000004A080 s
  repeat' first
    | with_reducible assumption
    | (extract_lets +onlyGivenNames s'; with_reducible refine Touches.cut (t := s') ?_ ?_; subst s'; rotate_left; clear_value s'; intro hs; rotate_left)
    | (extract_lets +onlyGivenNames s'; with_reducible refine Ends.cut (t := s') ?_ ?_; subst s'; rotate_left; clear_value s'; intro hs; rotate_left)
    | with_reducible refine Ends.next ?_
    | (extract_lets +onlyGivenNames s'; first | (have _e : State → _ := s'; clear _e; subst s') | clear_value s')
    | with_reducible refine State.startWarden_touches (by decide) ?_
    | with_reducible refine Touches.set (by first | decide | assumption | (split <;> decide)) ?_
    | split


theorem execResign_touches {m : Nat} {s0 : State} {value : Word} {s : State} (hk : 0x10237EC00478000010010000000000000000000221081000000000000000905448000000000000600000006A0E4 ||| m = m)
    (h : Touches m s0 s) : Ends m s0 (execResign value s) := by
  refine Ends.step (k := 0x10237EC00478000010010000000000000000000221081000000000000000905448000000000000600000006A0E4) (t := s) ?_ hk h
  clear hk h
  unfold execResign
  have h0 := Touches.refl 0x10237EC00478000010010000000000000000000221081000000000000000905448000000000000600000006A0E4 s
  repeat' first
    | with_reducible assumption
    | (extract_lets +onlyGivenNames s'; with_reducible refine Touches.cut (t := s') ?_ ?_; subst s'; rotate_left; clear_value s'; intro hs; rotate_left)
    | (extract_lets +onlyGivenNames s'; with_reducible refine Ends.cut (t := s') ?_ ?_; subst s'; rotate_left; clear_value s'; intro hs; rotate_left)
    | with_reducible refine Ends.next ?_
    | (extract_lets +onlyGivenNames s'; first | (have _e : State → _ := s'; clear _e; subst s') | clear_value s')
    | with_reducible refine State.resign_touches (by decide) ?_
    | with_reducible refine Touches.set (by first | decide | assumption | (split <;> decide)) ?_
    | split


theorem execRestartBoth_touches {m : Nat} {s0 : State} {value : Word} {s : State} (hk : 0x181102002C00000000010000000000000000000000000000000000000000000000000000000000000600000004E080 ||| m = m)
    (h : Touches m s0 s) : Ends m s0 (execRestartBoth value s) := by
  refine Ends.step (k := 0x181102002C00000000010000000000000000000000000000000000000000000000000000000000000600000004E080) (t := s) ?_ hk h
  clear hk h
  unfold execRestartBoth
  have h0 := Touches.refl 0x181102002C00000000010000000000000000000000000000000000000000000000000000000000000600000004E080 s
  repeat' first
    | with_reducible assumption
    | (extract_lets +onlyGivenNames s'; with_reducible refine Touches.cut (t := s') ?_ ?_; subst s'; rotate_left; clear_value s'; intro hs; rotate_left)
    | (extract_lets +onlyGivenNames s'; with_reducible refine Ends.cut (t := s') ?_ ?_; subst s'; rotate_left; clear_value s'; intro hs; rotate_left)
    | with_reducible refine Ends.next ?_
    | (extract_lets +onlyGivenNames s'; first | (have _e : State → _ := s'; clear _e; subst s') | clear_value s')
    | with_reducible refine State.modSec_touches (by decide) ?_
    | with_reducible refine State.startBoth_touches (by decide) ?_
    | with_reducible refine Touches.set (by first | decide | assumption | (split <;> decide)) ?_
    | split


theorem execMailboxDoorbell_touches {m : Nat} {s0 : State} {value : Word} {s : State} (hk : 0x10237CC00478000010010000000000000000000221081000000000000000905448000000000000600000006A0E4 ||| m = m)
    (h : Touches m s0 s) : Ends m s0 (execMailboxDoorbell value s) := by
  refine Ends.step (k := 0x10237CC00478000010010000000000000000000221081000000000000000905448000000000000600000006A0E4) (t := s) ?_ hk h
  clear hk h
  unfold execMailboxDoorbell
  have h0 := Touches.refl 0x10237CC00478000010010000000000000000000221081000000000000000905448000000000000600000006A0E4 s
  repeat' first
    | with_reducible assumption
    | (extract_lets +onlyGivenNames s'; with_reducible refine Touches.cut (t := s') ?_ ?_; subst s'; rotate_left; clear_value s'; intro hs; rotate_left)
    | (extract_lets +onlyGivenNames s'; with_reducible refine Ends.cut (t := s') ?_ ?_; subst s'; rotate_left; clear_value s'; intro hs; rotate_left)
    | with_reducible refine Ends.next ?_
    | (extract_lets +onlyGivenNames s'; first | (have _e : State → _ := s'; clear _e; subst s') | clear_value s')
    | with_reducible refine State.modTnd_touches (by decide) ?_
    | with_reducible refine State.mbxReply_touches (by decide) ?_
    | with_reducible refine State.sequence_touches (by decide) ?_
    | with_reducible refine Touches.set (by first | decide | assumption | (split <;> decide)) ?_
    | split


theorem execGetInfo_touches {m : Nat} {s0 : State} {s : State} (hk : 0x3200000000000100000000000000000000000000000000000000000000000000000000000000000000048080 ||| m = m)
    (h : Touches m s0 s) : Ends m s0 (execGetInfo s) := by
  refine Ends.step (k := 0x3200000000000100000000000000000000000000000000000000000000000000000000000000000000048080) (t := s) ?_ hk h
  clear hk h
  unfold execGetInfo
  have h0 := Touches.refl 0x3200000000000100000000000000000000000000000000000000000000000000000000000000000000048080 s
  repeat' first
    | with_reducible assumption
    | (extract_lets +onlyGivenNames s'; with_reducible refine Touches.cut (t := s') ?_ ?_; subst s'; rotate_left; clear_value s'; intro hs; rotate_left)
    | (extract_lets +onlyGivenNames s'; with_reducible refine Ends.cut (t := s') ?_ ?_; subst s'; rotate_left; clear_value s'; intro hs; rotate_left)
    | with_reducible refine Ends.next ?_
    | (extract_lets +onlyGivenNames s'; first | (have _e : State → _ := s'; clear _e; subst s') | clear_value s')
    | with_reducible refine State.mbxReply_touches (by decide) ?_
    | split


theorem execEcho_touches {m : Nat} {s0 : State} {s : State} (hk : 0x3200000000000100000000000000000000000000000000000000000000000000000000000000000000048080 ||| m = m)
    (h : Touches m s0 s) : Ends m s0 (execEcho s) := by
  refine Ends.step (k := 0x3200000000000100000000000000000000000000000000000000000000000000000000000000000000048080) (t := s) ?_ hk h
  clear hk h
  unfold execEcho
  have h0 := Touches.refl 0x3200000000000100000000000000000000000000000000000000000000000000000000000000000000048080 s
  repeat' first
    | with_reducible assumption
    | (extract_lets +onlyGivenNames s'; with_reducible refine Touches.cut (t := s') ?_ ?_; subst s'; rotate_left; clear_value s'; intro hs; rotate_left)
    | (extract_lets +onlyGivenNames s'; with_reducible refine Ends.cut (t := s') ?_ ?_; subst s'; rotate_left; clear_value s'; intro hs; rotate_left)
    | with_reducible refine Ends.next ?_
    | (extract_lets +onlyGivenNames s'; first | (have _e : State → _ := s'; clear _e; subst s') | clear_value s')
    | with_reducible refine State.mbxReply_touches (by decide) ?_
    | split


theorem execUnknownOp_touches {m : Nat} {s0 : State} {s : State} (hk : 0x3200000000000100000000000000000000000000000000000000000000000000000000000000000000048080 ||| m = m)
    (h : Touches m s0 s) : Ends m s0 (execUnknownOp s) := by
  refine Ends.step (k := 0x3200000000000100000000000000000000000000000000000000000000000000000000000000000000048080) (t := s) ?_ hk h
  clear hk h
  unfold execUnknownOp
  have h0 := Touches.refl 0x3200000000000100000000000000000000000000000000000000000000000000000000000000000000048080 s
  repeat' first
    | with_reducible assumption
    | (extract_lets +onlyGivenNames s'; with_reducible refine Touches.cut (t := s') ?_ ?_; subst s'; rotate_left; clear_value s'; intro hs; rotate_left)
    | (extract_lets +onlyGivenNames s'; with_reducible refine Ends.cut (t := s') ?_ ?_; subst s'; rotate_left; clear_value s'; intro hs; rotate_left)
    | with_reducible refine Ends.next ?_
    | (extract_lets +onlyGivenNames s'; first | (have _e : State → _ := s'; clear _e; subst s') | clear_value s')
    | with_reducible refine State.mbxReply_touches (by decide) ?_
    | split


theorem execMailboxTimeout_touches {m : Nat} {s0 : State} {s : State} (hk : 0x200000000000000000000000000000000000000000000000000000000000000000000000000000000008000 ||| m = m)
    (h : Touches m s0 s) : Ends m s0 (execMailboxTimeout s) := by
  refine Ends.step (k := 0x200000000000000000000000000000000000000000000000000000000000000000000000000000000008000) (t := s) ?_ hk h
  clear hk h
  unfold execMailboxTimeout
  have h0 := Touches.refl 0x200000000000000000000000000000000000000000000000000000000000000000000000000000000008000 s
  repeat' first
    | with_reducible assumption
    | (extract_lets +onlyGivenNames s'; with_reducible refine Touches.cut (t := s') ?_ ?_; subst s'; rotate_left; clear_value s'; intro hs; rotate_left)
    | (extract_lets +onlyGivenNames s'; with_reducible refine Ends.cut (t := s') ?_ ?_; subst s'; rotate_left; clear_value s'; intro hs; rotate_left)
    | with_reducible refine Ends.next ?_
    | (extract_lets +onlyGivenNames s'; first | (have _e : State → _ := s'; clear _e; subst s') | clear_value s')
    | with_reducible refine State.modTnd_touches (by decide) ?_
    | with_reducible refine Touches.set (by first | decide | assumption | (split <;> decide)) ?_
    | split


end Sys2Proof.Machine
end

