-- ==== Sys2Proof/Laws/TouchesFirmware.lean ====
section
/-!
SUPPORT. What the operations of Firmware.lean can touch.
-/

namespace Sys2Proof.Machine

set_option linter.all false

theorem State.fwReject_touches {m : Nat} {s0 : State} {s : State} {cause : Nat} {header : List Byte} (hk : 0x2801020000000000000100000000000000000000000000000000000000000000000000000000000000000000042080 ||| m = m)
    (h : Touches m s0 s) : Touches m s0 (State.fwReject s cause header) := by
  refine Touches.step (k := 0x2801020000000000000100000000000000000000000000000000000000000000000000000000000000000000042080) (t := s) ?_ hk h
  clear hk h
  unfold State.fwReject
  have h0 := Touches.refl 0x2801020000000000000100000000000000000000000000000000000000000000000000000000000000000000042080 s
  repeat' first
    | with_reducible assumption
    | (extract_lets +onlyGivenNames s'; with_reducible refine Touches.cut (t := s') ?_ ?_; subst s'; rotate_left; clear_value s'; intro hs; rotate_left)
    | (extract_lets +onlyGivenNames s'; first | (have _e : State → _ := s'; clear _e; subst s') | clear_value s')
    | with_reducible refine State.record_touches (by decide) ?_
    | with_reducible refine Touches.set (by first | decide | assumption | (split <;> decide)) ?_
    | with_reducible refine Touches.raise (by first | decide | assumption | (split <;> decide)) (by decide) ?_
    | split


theorem State.fwAccept_touches {m : Nat} {s0 : State} {s : State} {header payload : List Byte} (hk : 0x10000000000000000000000000000000000000000000000000000000000000000000000000000000000000000000 ||| m = m)
    (h : Touches m s0 s) : Touches m s0 (State.fwAccept s header payload).2 := by
  refine Touches.step (k := 0x10000000000000000000000000000000000000000000000000000000000000000000000000000000000000000000) (t := s) ?_ hk h
  clear hk h
  unfold State.fwAccept
  have h0 := Touches.refl 0x10000000000000000000000000000000000000000000000000000000000000000000000000000000000000000000 s
  repeat' first
    | with_reducible assumption
    | (extract_lets +onlyGivenNames s'; with_reducible refine Touches.cut (t := s') ?_ ?_; subst s'; rotate_left; clear_value s'; intro hs; rotate_left)
    | (extract_lets +onlyGivenNames s'; first | (have _e : State → _ := s'; clear _e; subst s') | clear_value s')
    | with_reducible refine Touches.set (by first | decide | assumption | (split <;> decide)) ?_
    | split

theorem State.fwAccept_touches_eq {m : Nat} {s0 t₁ : State} {s : State} {header payload : List Byte} {a₁ : Firmware} (e₁ : State.fwAccept s header payload = (a₁, t₁))
    (hk : 0x10000000000000000000000000000000000000000000000000000000000000000000000000000000000000000000 ||| m = m) (h : Touches m s0 s) : Touches m s0 t₁ := Touches.snd e₁ (State.fwAccept_touches hk h)


theorem execFwLoad_touches {m : Nat} {s0 : State} {value : Word} {s : State} (hk : 0x800000000000000000000000000000000000000000000000000000000000000000000000000000000000000044000 ||| m = m)
    (h : Touches m s0 s) : Ends m s0 (execFwLoad value s) := by
  refine Ends.step (k := 0x800000000000000000000000000000000000000000000000000000000000000000000000000000000000000044000) (t := s) ?_ hk h
  clear hk h
  unfold execFwLoad
  have h0 := Touches.refl 0x800000000000000000000000000000000000000000000000000000000000000000000000000000000000000044000 s
  repeat' first
    | with_reducible assumption
    | (extract_lets +onlyGivenNames s'; with_reducible refine Touches.cut (t := s') ?_ ?_; subst s'; rotate_left; clear_value s'; intro hs; rotate_left)
    | (extract_lets +onlyGivenNames s'; with_reducible refine Ends.cut (t := s') ?_ ?_; subst s'; rotate_left; clear_value s'; intro hs; rotate_left)
    | with_reducible refine Ends.next ?_
    | (extract_lets +onlyGivenNames s'; first | (have _e : State → _ := s'; clear _e; subst s') | clear_value s')
    | with_reducible refine State.modSec_touches (by decide) ?_
    | with_reducible refine Touches.set (by first | decide | assumption | (split <;> decide)) ?_
    | with_reducible refine Touches.emit (by decide) ?_
    | split


theorem execFwLoadDone_touches {m : Nat} {s0 : State} {header payload : List Byte} {noHeader noPayload : Bool} {s : State} (hk : 0x2811020000000000000100000000000000000000000000000000000000000000000000000000000000000000046080 ||| m = m)
    (h : Touches m s0 s) : Ends m s0 (execFwLoadDone header payload noHeader noPayload s) := by
  refine Ends.step (k := 0x2811020000000000000100000000000000000000000000000000000000000000000000000000000000000000046080) (t := s) ?_ hk h
  clear hk h
  unfold execFwLoadDone
  have h0 := Touches.refl 0x2811020000000000000100000000000000000000000000000000000000000000000000000000000000000000046080 s
  repeat' first
    | with_reducible assumption
    | (extract_lets +onlyGivenNames s'; with_reducible refine Touches.cut (t := s') ?_ ?_; subst s'; rotate_left; clear_value s'; intro hs; rotate_left)
    | (extract_lets +onlyGivenNames s'; with_reducible refine Ends.cut (t := s') ?_ ?_; subst s'; rotate_left; clear_value s'; intro hs; rotate_left)
    | with_reducible refine Ends.next ?_
    | (extract_lets +onlyGivenNames s'; first | (have _e : State → _ := s'; clear _e; subst s') | clear_value s')
    | with_reducible refine State.modSec_touches (by decide) ?_
    | with_reducible refine State.fwReject_touches (by decide) ?_
    | with_reducible refine State.fwAccept_touches_eq (by assumption) (by decide) ?_
    | with_reducible refine State.fwAccept_touches (by decide) ?_
    | with_reducible refine Touches.set (by first | decide | assumption | (split <;> decide)) ?_
    | with_reducible refine Touches.raise (by first | decide | assumption | (split <;> decide)) (by decide) ?_
    | split


theorem execCommitSvn_touches {m : Nat} {s0 : State} {value : Word} {s : State} (hk : 0x810000000000000000000000000000000000000000000000000000000000000000000000000000000000000000000 ||| m = m)
    (h : Touches m s0 s) : Ends m s0 (execCommitSvn value s) := by
  refine Ends.step (k := 0x810000000000000000000000000000000000000000000000000000000000000000000000000000000000000000000) (t := s) ?_ hk h
  clear hk h
  unfold execCommitSvn
  have h0 := Touches.refl 0x810000000000000000000000000000000000000000000000000000000000000000000000000000000000000000000 s
  repeat' first
    | with_reducible assumption
    | (extract_lets +onlyGivenNames s'; with_reducible refine Touches.cut (t := s') ?_ ?_; subst s'; rotate_left; clear_value s'; intro hs; rotate_left)
    | (extract_lets +onlyGivenNames s'; with_reducible refine Ends.cut (t := s') ?_ ?_; subst s'; rotate_left; clear_value s'; intro hs; rotate_left)
    | with_reducible refine Ends.next ?_
    | (extract_lets +onlyGivenNames s'; first | (have _e : State → _ := s'; clear _e; subst s') | clear_value s')
    | with_reducible refine Touches.set (by first | decide | assumption | (split <;> decide)) ?_
    | split


theorem execFwBootRead_touches {m : Nat} {s0 : State} {header payload : List Byte} {noHeader noPayload : Bool} {s : State} (hk : 0x381102000C00000000010000000000000000000000000000000000000000000000000000000000000600000004E080 ||| m = m)
    (h : Touches m s0 s) : Ends m s0 (execFwBootRead header payload noHeader noPayload s) := by
  refine Ends.step (k := 0x381102000C00000000010000000000000000000000000000000000000000000000000000000000000600000004E080) (t := s) ?_ hk h
  clear hk h
  unfold execFwBootRead
  have h0 := Touches.refl 0x381102000C00000000010000000000000000000000000000000000000000000000000000000000000600000004E080 s
  repeat' first
    | with_reducible assumption
    | (extract_lets +onlyGivenNames s'; with_reducible refine Touches.cut (t := s') ?_ ?_; subst s'; rotate_left; clear_value s'; intro hs; rotate_left)
    | (extract_lets +onlyGivenNames s'; with_reducible refine Ends.cut (t := s') ?_ ?_; subst s'; rotate_left; clear_value s'; intro hs; rotate_left)
    | with_reducible refine Ends.next ?_
    | (extract_lets +onlyGivenNames s'; first | (have _e : State → _ := s'; clear _e; subst s') | clear_value s')
    | with_reducible refine State.modSec_touches (by decide) ?_
    | with_reducible refine State.startBoth_touches (by decide) ?_
    | with_reducible refine State.fwReject_touches (by decide) ?_
    | with_reducible refine State.fwAccept_touches_eq (by assumption) (by decide) ?_
    | with_reducible refine State.fwAccept_touches (by decide) ?_
    | with_reducible refine Touches.set (by first | decide | assumption | (split <;> decide)) ?_
    | split


end Sys2Proof.Machine
end

