-- ==== Sys2Proof/Laws/TouchesCpu.lean ====
section
/-!
SUPPORT. What the operations of Cpu.lean can touch.
-/

namespace Sys2Proof.Machine

set_option linter.all false

theorem State.writeRingCfg_touches {m : Nat} {s0 : State} {s : State} {fn : Nat} {k : RingKind} {r : Nat} {value : Word} (hk : 0x87F80784100000000000000000000000000000000000000000000000000000000000000000000040080 ||| m = m)
    (h : Touches m s0 s) : Touches m s0 (State.writeRingCfg s fn k r value) := by
  refine Touches.step (k := 0x87F80784100000000000000000000000000000000000000000000000000000000000000000000040080) (t := s) ?_ hk h
  clear hk h
  unfold State.writeRingCfg
  have h0 := Touches.refl 0x87F80784100000000000000000000000000000000000000000000000000000000000000000000040080 s
  repeat' first
    | with_reducible assumption
    | (extract_lets +onlyGivenNames s'; with_reducible refine Touches.cut (t := s') ?_ ?_; subst s'; rotate_left; clear_value s'; intro hs; rotate_left)
    | (extract_lets +onlyGivenNames s'; first | (have _e : State → _ := s'; clear _e; subst s') | subst s')
    | with_reducible refine State.ringError_touches (by decide) ?_
    | with_reducible refine Touches.set (by first | decide | (cases k <;> decide)) ?_
    | split


theorem execRingEnable_touches {m : Nat} {s0 : State} {fn : FnNo} {kind : RingKind} {ring : Fin 512} {value : Word} {s : State} (hk : 0x87F80784100000000000000000000000000000000000000000000000000000000000000000000040080 ||| m = m)
    (h : Touches m s0 s) : Ends m s0 (execRingEnable fn kind ring value s) := by
  refine Ends.step (k := 0x87F80784100000000000000000000000000000000000000000000000000000000000000000000040080) (t := s) ?_ hk h
  clear hk h
  unfold execRingEnable
  have h0 := Touches.refl 0x87F80784100000000000000000000000000000000000000000000000000000000000000000000040080 s
  repeat' first
    | with_reducible assumption
    | (extract_lets +onlyGivenNames s'; with_reducible refine Touches.cut (t := s') ?_ ?_; subst s'; rotate_left; clear_value s'; intro hs; rotate_left)
    | (extract_lets +onlyGivenNames s'; with_reducible refine Ends.cut (t := s') ?_ ?_; subst s'; rotate_left; clear_value s'; intro hs; rotate_left)
    | with_reducible refine Ends.next ?_
    | (extract_lets +onlyGivenNames s'; first | (have _e : State → _ := s'; clear _e; subst s') | clear_value s')
    | with_reducible refine State.writeRingCfg_touches (by decide) ?_
    | split


theorem State.ringBell_touches {m : Nat} {s0 : State} {s : State} {k : RingKind} {r count : Nat} (hk : 0x87F80784100000000000000000000000000000000000000000000000000000000000000000000040080 ||| m = m)
    (h : Touches m s0 s) : Touches m s0 (State.ringBell s k r count) := by
  have ha : m.testBit (ringRegs k).prod.reg.bit = true := by rw [← hk, Nat.testBit_or]; cases k <;> rfl
  have hb : m.testBit (ringRegs k).cons.reg.bit = true := by rw [← hk, Nat.testBit_or]; cases k <;> rfl
  unfold State.ringBell
  extract_lets g fill
  split
  rename_i f room e
  split
  · refine Touches.set ?_ h
    split at e <;> cases e
    · exact ha
    · exact hb
  · refine Touches.step (State.ringError_touches (m := 0x87F80784100000000000000000000000000000000000000000000000000000000000000000000040080) (by decide) (Touches.refl _ _)) hk h


theorem State.poolBell_touches {m : Nat} {s0 : State} {s : State} {r k count : Nat} (hk : 0x97800784100000000000000000000000000000000000000000000000000000000000000000000040080 ||| m = m)
    (h : Touches m s0 s) : Touches m s0 (State.poolBell s r k count) := by
  refine Touches.step (k := 0x97800784100000000000000000000000000000000000000000000000000000000000000000000040080) (t := s) ?_ hk h
  clear hk h
  unfold State.poolBell
  have h0 := Touches.refl 0x97800784100000000000000000000000000000000000000000000000000000000000000000000040080 s
  repeat' first
    | with_reducible assumption
    | (extract_lets +onlyGivenNames s'; with_reducible refine Touches.cut (t := s') ?_ ?_; subst s'; rotate_left; clear_value s'; intro hs; rotate_left)
    | (extract_lets +onlyGivenNames s'; first | (have _e : State → _ := s'; clear _e; subst s') | clear_value s')
    | with_reducible refine State.ringError_touches (by decide) ?_
    | with_reducible refine Touches.set (by first | decide | assumption | (split <;> decide)) ?_
    | split


theorem execRingDoorbell_touches {m : Nat} {s0 : State} {fn : FnNo} {kind : RingKind} {ring : Fin 512} {pool : Option (Fin 4)} {count : BitVec 32} {s : State} (hk : 0x97F80784100000000000000000000000000000000000000000000000000000000000000000000040080 ||| m = m)
    (h : Touches m s0 s) : Ends m s0 (execRingDoorbell fn kind ring pool count s) := by
  refine Ends.step (k := 0x97F80784100000000000000000000000000000000000000000000000000000000000000000000040080) (t := s) ?_ hk h
  clear hk h
  unfold execRingDoorbell
  have h0 := Touches.refl 0x97F80784100000000000000000000000000000000000000000000000000000000000000000000040080 s
  repeat' first
    | with_reducible assumption
    | (extract_lets +onlyGivenNames s'; with_reducible refine Touches.cut (t := s') ?_ ?_; subst s'; rotate_left; clear_value s'; intro hs; rotate_left)
    | (extract_lets +onlyGivenNames s'; with_reducible refine Ends.cut (t := s') ?_ ?_; subst s'; rotate_left; clear_value s'; intro hs; rotate_left)
    | with_reducible refine Ends.next ?_
    | (extract_lets +onlyGivenNames s'; first | (have _e : State → _ := s'; clear _e; subst s') | clear_value s')
    | with_reducible refine State.ringBell_touches (by decide) ?_
    | with_reducible refine State.poolBell_touches (by decide) ?_
    | split


theorem execInterruptCoalesce_touches {m : Nat} {s0 : State} {kind : RingKind} {ring : Fin 512} {s : State} (hk : 0x40080 ||| m = m)
    (h : Touches m s0 s) : Ends m s0 (execInterruptCoalesce kind ring s) := by
  refine Ends.step (k := 0x40080) (t := s) ?_ hk h
  clear hk h
  unfold execInterruptCoalesce
  have h0 := Touches.refl 0x40080 s
  repeat' first
    | with_reducible assumption
    | (extract_lets +onlyGivenNames s'; with_reducible refine Touches.cut (t := s') ?_ ?_; subst s'; rotate_left; clear_value s'; intro hs; rotate_left)
    | (extract_lets +onlyGivenNames s'; with_reducible refine Ends.cut (t := s') ?_ ?_; subst s'; rotate_left; clear_value s'; intro hs; rotate_left)
    | with_reducible refine Ends.next ?_
    | (extract_lets +onlyGivenNames s'; first | (have _e : State → _ := s'; clear _e; subst s') | clear_value s')
    | with_reducible refine State.ringSignal_touches (by decide) ?_
    | split


theorem State.rxWrite_touches {m : Nat} {s0 : State} {s : State} {r pool size : Nat} {v : Packet} {d : Desc} {z0 : List PoolEntry} {z1 : List Byte} {z2 : Bool} (hk : 0x780000000000000000000000000000000000000000000000000000000000000000000000000040080 ||| m = m)
    (h : Touches m s0 s) : Touches m s0 (State.rxWrite s r pool size v d z0 z1 z2) := by
  refine Touches.step (k := 0x780000000000000000000000000000000000000000000000000000000000000000000000000040080) (t := s) ?_ hk h
  clear hk h
  have h0 := Touches.refl 0x780000000000000000000000000000000000000000000000000000000000000000000000000040080 s
  suffices key : ∀ a, Touches 0x780000000000000000000000000000000000000000000000000000000000000000000000000040080 a s → Touches 0x780000000000000000000000000000000000000000000000000000000000000000000000000040080 a (State.rxWrite s r pool size v d z0 z1 z2) from key _ h0
  clear h0
  intro a h0
  induction z0 generalizing s z1 z2 with
  | nil => unfold State.rxWrite; exact h0
  | cons x xs ih =>
    unfold State.rxWrite
    repeat' first
      | with_reducible assumption
      | with_reducible refine ih ?_
      | (extract_lets +onlyGivenNames s'; with_reducible refine Touches.cut (t := s') ?_ ?_; subst s'; rotate_left; clear_value s'; intro hs; rotate_left)
      | (extract_lets +onlyGivenNames s'; first | (have _e : State → _ := s'; clear _e; subst s') | clear_value s')
      | with_reducible refine State.ringPut_touches (by decide) ?_
      | with_reducible refine Touches.emit (by decide) ?_
      | split


theorem State.rxLeave_touches {m : Nat} {s0 : State} {s : State} {r k : Nat} {c : Copy} (hk : 0x10200000800000001000000000000000000000000000000000000E06D0000000000000000000000000002042084 ||| m = m)
    (h : Touches m s0 s) : Touches m s0 (State.rxLeave s r k c) := by
  refine Touches.step (k := 0x10200000800000001000000000000000000000000000000000000E06D0000000000000000000000000002042084) (t := s) ?_ hk h
  clear hk h
  unfold State.rxLeave
  have h0 := Touches.refl 0x10200000800000001000000000000000000000000000000000000E06D0000000000000000000000000002042084 s
  repeat' first
    | with_reducible assumption
    | (extract_lets +onlyGivenNames s'; with_reducible refine Touches.cut (t := s') ?_ ?_; subst s'; rotate_left; clear_value s'; intro hs; rotate_left)
    | (extract_lets +onlyGivenNames s'; first | (have _e : State → _ := s'; clear _e; subst s') | (have _e : HostBlock := s'; clear _e; subst s') | clear_value s')
    | with_reducible refine State.copyDone_touches (by decide) ?_
    | with_reducible refine State.dropHead_touches (by decide) ?_
    | split
    | with_reducible refine Touches.upd_hif (by decide) ?_


theorem State.rxDropStale_touches {m : Nat} {s0 : State} {s : State} (hk : 0x10200000800000001000000000000001102000000000000000000E06D0000000000000000000000000002062184 ||| m = m)
    (h : Touches m s0 s) : Touches m s0 (State.rxDropStale s) := by
  refine Touches.step (k := 0x10200000800000001000000000000001102000000000000000000E06D0000000000000000000000000002062184) (t := s) ?_ hk h
  clear hk h
  unfold State.rxDropStale
  have h0 := Touches.refl 0x10200000800000001000000000000001102000000000000000000E06D0000000000000000000000000002062184 s
  repeat' first
    | with_reducible assumption
    | (extract_lets +onlyGivenNames s'; with_reducible refine Touches.cut (t := s') ?_ ?_; subst s'; rotate_left; clear_value s'; intro hs; rotate_left)
    | (extract_lets +onlyGivenNames s'; first | (have _e : State → _ := s'; clear _e; subst s') | clear_value s')
    | with_reducible refine Touches.foldl (fun _ _ _ => ?_) ?_
    | with_reducible refine State.countCopyDrop_touches (by decide) ?_
    | with_reducible refine State.rxLeave_touches (by decide) ?_
    | split


theorem execRxDeliver_touches {m : Nat} {s0 : State} {entries : List PoolEntry} {dmaError : Bool} {s : State} (hk : 0x1020000097F807841000000000000001102000000000000000000E06D0000000000000000000000000002063184 ||| m = m)
    (h : Touches m s0 s) : Ends m s0 (execRxDeliver entries dmaError s) := by
  refine Ends.step (k := 0x1020000097F807841000000000000001102000000000000000000E06D0000000000000000000000000002063184) (t := s) ?_ hk h
  clear hk h
  unfold execRxDeliver
  have h0 := Touches.refl 0x1020000097F807841000000000000001102000000000000000000E06D0000000000000000000000000002063184 s
  repeat' first
    | with_reducible assumption
    | (extract_lets +onlyGivenNames s'; with_reducible refine Touches.cut (t := s') ?_ ?_; subst s'; rotate_left; clear_value s'; intro hs; rotate_left)
    | (extract_lets +onlyGivenNames s'; with_reducible refine Ends.cut (t := s') ?_ ?_; subst s'; rotate_left; clear_value s'; intro hs; rotate_left)
    | with_reducible refine Ends.next ?_
    | (extract_lets +onlyGivenNames s'; first | (have _e : State → _ := s'; clear _e; subst s') | (have _e : HostBlock := s'; clear _e; subst s') | clear_value s')
    | with_reducible refine State.spend_touches (by decide) ?_
    | with_reducible refine State.ringError_touches (by decide) ?_
    | with_reducible refine State.delayFate_touches (by decide) ?_
    | with_reducible refine State.rxWrite_touches (by decide) ?_
    | with_reducible refine State.rxLeave_touches (by decide) ?_
    | with_reducible refine State.rxDropStale_touches (by decide) ?_
    | with_reducible refine Touches.set (by first | decide | assumption | (split <;> decide)) ?_
    | split
    | with_reducible refine Touches.upd_hif (by decide) ?_


theorem execRxWaitExpiry_touches {m : Nat} {s0 : State} {ring : Fin 512} {s : State} (hk : 0x10200000808000001000000000000001102000000000000000000E06D0000000000000000000000000002062184 ||| m = m)
    (h : Touches m s0 s) : Ends m s0 (execRxWaitExpiry ring s) := by
  refine Ends.step (k := 0x10200000808000001000000000000001102000000000000000000E06D0000000000000000000000000002062184) (t := s) ?_ hk h
  clear hk h
  unfold execRxWaitExpiry
  have h0 := Touches.refl 0x10200000808000001000000000000001102000000000000000000E06D0000000000000000000000000002062184 s
  repeat' first
    | with_reducible assumption
    | (extract_lets +onlyGivenNames s'; with_reducible refine Touches.cut (t := s') ?_ ?_; subst s'; rotate_left; clear_value s'; intro hs; rotate_left)
    | (extract_lets +onlyGivenNames s'; with_reducible refine Ends.cut (t := s') ?_ ?_; subst s'; rotate_left; clear_value s'; intro hs; rotate_left)
    | with_reducible refine Ends.next ?_
    | (extract_lets +onlyGivenNames s'; first | (have _e : State → _ := s'; clear _e; subst s') | clear_value s')
    | with_reducible refine State.countCopyDrop_touches (by decide) ?_
    | with_reducible refine State.rxLeave_touches (by decide) ?_
    | with_reducible refine Touches.addSat (by first | decide | assumption | (split <;> decide)) ?_
    | split


theorem State.flushRx_touches {m : Nat} {s0 : State} {s : State} {r reason : Nat} (hk : 0x10200000800000001000000000000001102000000000000000000E06D0000000000000000000000000002062184 ||| m = m)
    (h : Touches m s0 s) : Touches m s0 (State.flushRx s r reason) := by
  refine Touches.step (k := 0x10200000800000001000000000000001102000000000000000000E06D0000000000000000000000000002062184) (t := s) ?_ hk h
  clear hk h
  unfold State.flushRx
  have h0 := Touches.refl 0x10200000800000001000000000000001102000000000000000000E06D0000000000000000000000000002062184 s
  repeat' first
    | with_reducible assumption
    | (extract_lets +onlyGivenNames s'; with_reducible refine Touches.cut (t := s') ?_ ?_; subst s'; rotate_left; clear_value s'; intro hs; rotate_left)
    | (extract_lets +onlyGivenNames s'; first | (have _e : State → _ := s'; clear _e; subst s') | clear_value s')
    | with_reducible refine Touches.foldl (fun _ _ _ => ?_) ?_
    | with_reducible refine State.setQueue_touches (by decide) ?_
    | with_reducible refine State.copyDone_touches (by decide) ?_
    | with_reducible refine State.countCopyDrop_touches (by decide) ?_
    | split


theorem State.txDone_touches {m : Nat} {s0 : State} {s : State} {r status : Nat} {ch : List TxDesc} (hk : 0x1100000000000000000000000000000000000000000000000000000000000000000000000000040080 ||| m = m)
    (h : Touches m s0 s) : Touches m s0 (State.txDone s r status ch) := by
  refine Touches.step (k := 0x1100000000000000000000000000000000000000000000000000000000000000000000000000040080) (t := s) ?_ hk h
  clear hk h
  unfold State.txDone
  have h0 := Touches.refl 0x1100000000000000000000000000000000000000000000000000000000000000000000000000040080 s
  repeat' first
    | with_reducible assumption
    | (extract_lets +onlyGivenNames s'; with_reducible refine Touches.cut (t := s') ?_ ?_; subst s'; rotate_left; clear_value s'; intro hs; rotate_left)
    | (extract_lets +onlyGivenNames s'; first | (have _e : State → _ := s'; clear _e; subst s') | subst s')
    | with_reducible refine Touches.foldl (fun _ _ _ => ?_) ?_
    | with_reducible refine State.ringCount_touches (by decide) ?_
    | with_reducible refine State.ringWriteback_touches (by decide) ?_
    | with_reducible refine Touches.set (by first | decide | (cases k <;> decide)) ?_
    | with_reducible refine Touches.addSat (by first | decide | (cases k <;> decide)) ?_
    | with_reducible refine Touches.emit (by decide) ?_
    | split


theorem State.injectFrame_touches {m : Nat} {s0 : State} {s : State} {r n : Nat} {user : BitVec 32} {bytes : List Byte} {cells : List Nat} (hk : 0x800000001000000000000001102000000000000000000002D0000000002080000000000000002060184 ||| m = m)
    (h : Touches m s0 s) : Touches m s0 (State.injectFrame s r n user bytes cells) := by
  refine Touches.step (k := 0x800000001000000000000001102000000000000000000002D0000000002080000000000000002060184) (t := s) ?_ hk h
  clear hk h
  unfold State.injectFrame
  have h0 := Touches.refl 0x800000001000000000000001102000000000000000000002D0000000002080000000000000002060184 s
  repeat' first
    | with_reducible assumption
    | (extract_lets +onlyGivenNames s'; with_reducible refine Touches.cut (t := s') ?_ ?_; subst s'; rotate_left; clear_value s'; intro hs; rotate_left)
    | (extract_lets +onlyGivenNames s'; first | (have _e : State → _ := s'; clear _e; subst s') | (have _e : Switch := s'; clear _e; subst s') | clear_value s')
    | with_reducible refine Touches.foldl (fun _ _ _ => ?_) ?_
    | with_reducible refine State.modPacket_touches (by decide) ?_
    | with_reducible refine State.countDropOf_touches (by decide) ?_
    | with_reducible refine State.freeInjected_touches (by decide) ?_
    | with_reducible refine State.auxPut_touches (by decide) ?_
    | with_reducible refine State.countExc_touches (by decide) ?_
    | split
    | with_reducible refine Touches.upd_sw (by decide) rfl ?_


theorem State.txCopy_touches {m : Nat} {s0 : State} {s : State} {r n : Nat} {d : TxDesc} {data : List Byte} (hk : 0x800000001000000000000001102000000000000000000812D000000000208000000000000000206118C ||| m = m)
    (h : Touches m s0 s) : Touches m s0 (State.txCopy s r n d data).2 := by
  refine Touches.step (k := 0x800000001000000000000001102000000000000000000812D000000000208000000000000000206118C) (t := s) ?_ hk h
  clear hk h
  unfold State.txCopy
  have h0 := Touches.refl 0x800000001000000000000001102000000000000000000812D000000000208000000000000000206118C s
  repeat' first
    | with_reducible assumption
    | (extract_lets +onlyGivenNames s'; with_reducible refine Touches.cut (t := s') ?_ ?_; subst s'; rotate_left; clear_value s'; intro hs; rotate_left)
    | (extract_lets +onlyGivenNames s'; first | (have _e : State → _ := s'; clear _e; subst s') | clear_value s')
    | with_reducible refine State.spend_touches (by decide) ?_
    | with_reducible refine State.injectCells_touches_eq (by assumption) (by decide) ?_
    | with_reducible refine State.injectCells_touches (by decide) ?_
    | with_reducible refine State.layBytes_touches (by decide) ?_
    | with_reducible refine State.injectFrame_touches (by decide) ?_
    | split

theorem State.txCopy_touches_eq {m : Nat} {s0 t₁ : State} {s : State} {r n : Nat} {d : TxDesc} {data : List Byte} {a₁ : Nat} (e₁ : State.txCopy s r n d data = (a₁, t₁))
    (hk : 0x800000001000000000000001102000000000000000000812D000000000208000000000000000206118C ||| m = m) (h : Touches m s0 s) : Touches m s0 t₁ := Touches.snd e₁ (State.txCopy_touches hk h)


theorem State.txFill_touches {m : Nat} {s0 : State} {s : State} {n : Nat} {ch : List TxDesc} {data : List Byte} (hk : 0x100C ||| m = m)
    (h : Touches m s0 s) : Touches m s0 (State.txFill s n ch data) := by
  refine Touches.step (k := 0x100C) (t := s) ?_ hk h
  clear hk h
  unfold State.txFill
  have h0 := Touches.refl 0x100C s
  repeat' first
    | with_reducible assumption
    | (extract_lets +onlyGivenNames s'; with_reducible refine Touches.cut (t := s') ?_ ?_; subst s'; rotate_left; clear_value s'; intro hs; rotate_left)
    | (extract_lets +onlyGivenNames s'; first | (have _e : State → _ := s'; clear _e; subst s') | (have _e : Switch := s'; clear _e; subst s') | clear_value s')
    | with_reducible refine State.spend_touches (by decide) ?_
    | split
    | with_reducible refine Touches.upd_sw (by decide) rfl ?_
    | with_reducible refine Touches.upd_mem (by decide) (by decide) rfl ?_


theorem State.txInject_touches {m : Nat} {s0 : State} {s : State} {r n : Nat} {ch : List TxDesc} (hk : 0x800000001000000000000001102000000000000000010002D0000000002080000000000000002060184 ||| m = m)
    (h : Touches m s0 s) : Touches m s0 (State.txInject s r n ch) := by
  refine Touches.step (k := 0x800000001000000000000001102000000000000000010002D0000000002080000000000000002060184) (t := s) ?_ hk h
  clear hk h
  unfold State.txInject
  have h0 := Touches.refl 0x800000001000000000000001102000000000000000010002D0000000002080000000000000002060184 s
  repeat' first
    | with_reducible assumption
    | (extract_lets +onlyGivenNames s'; with_reducible refine Touches.cut (t := s') ?_ ?_; subst s'; rotate_left; clear_value s'; intro hs; rotate_left)
    | (extract_lets +onlyGivenNames s'; first | (have _e : State → _ := s'; clear _e; subst s') | (have _e : Switch := s'; clear _e; subst s') | clear_value s')
    | with_reducible refine Touches.foldl (fun _ _ _ => ?_) ?_
    | with_reducible refine State.injectFrame_touches (by decide) ?_
    | with_reducible refine Touches.set (by first | decide | assumption | (split <;> decide)) ?_
    | split
    | with_reducible refine Touches.upd_sw (by decide) rfl ?_


theorem State.txForeign_touches {m : Nat} {s0 : State} {s : State} {n : Nat} {ch : List TxDesc} (hk : 0x10200000800000001000000000000000000000000000000000000E0000000000000000000000000000000042080 ||| m = m)
    (h : Touches m s0 s) : Touches m s0 (State.txForeign s n ch) := by
  refine Touches.step (k := 0x10200000800000001000000000000000000000000000000000000E0000000000000000000000000000000042080) (t := s) ?_ hk h
  clear hk h
  unfold State.txForeign
  have h0 := Touches.refl 0x10200000800000001000000000000000000000000000000000000E0000000000000000000000000000000042080 s
  repeat' first
    | with_reducible assumption
    | (extract_lets +onlyGivenNames s'; with_reducible refine Touches.cut (t := s') ?_ ?_; subst s'; rotate_left; clear_value s'; intro hs; rotate_left)
    | (extract_lets +onlyGivenNames s'; first | (have _e : State → _ := s'; clear _e; subst s') | clear_value s')
    | with_reducible refine State.freeFault_touches (by decide) ?_
    | split


theorem State.txRun_touches {m : Nat} {s0 : State} {s : State} {r n : Nat} {d : TxDesc} {ch : List TxDesc} {data : List Byte} {status : Nat} (hk : 0x10200000879007841000000000000001102000000000000000010E12D000000000208000000000000000206318C ||| m = m)
    (h : Touches m s0 s) : Touches m s0 (State.txRun s r n d ch data status) := by
  refine Touches.step (k := 0x10200000879007841000000000000001102000000000000000010E12D000000000208000000000000000206318C) (t := s) ?_ hk h
  clear hk h
  unfold State.txRun
  have h0 := Touches.refl 0x10200000879007841000000000000001102000000000000000010E12D000000000208000000000000000206318C s
  repeat' first
    | with_reducible assumption
    | (extract_lets +onlyGivenNames s'; with_reducible refine Touches.cut (t := s') ?_ ?_; subst s'; rotate_left; clear_value s'; intro hs; rotate_left)
    | (extract_lets +onlyGivenNames s'; first | (have _e : State → _ := s'; clear _e; subst s') | clear_value s')
    | with_reducible refine State.ringError_touches (by decide) ?_
    | with_reducible refine State.txDone_touches (by decide) ?_
    | with_reducible refine State.txCopy_touches_eq (by assumption) (by decide) ?_
    | with_reducible refine State.txCopy_touches (by decide) ?_
    | with_reducible refine State.txFill_touches (by decide) ?_
    | with_reducible refine State.txInject_touches (by decide) ?_
    | with_reducible refine State.txForeign_touches (by decide) ?_
    | split


theorem State.txChainTake_touches {m : Nat} {s0 : State} {s : State} {mine : Nat → Bool} {data : Option (List Byte)}
    {r : Nat} {z0 : List TxDesc} (hk : 0x10200000879007841000000000000001102000000000000000010E12D000000000208000000000000000206318C ||| m = m) (h : Touches m s0 s) :
    Touches m s0 (State.txChainTake s mine data r z0) := by
  refine Touches.step (k := 0x10200000879007841000000000000001102000000000000000010E12D000000000208000000000000000206318C) (t := s) ?_ hk h
  clear hk h
  have h0 := Touches.refl 0x10200000879007841000000000000001102000000000000000010E12D000000000208000000000000000206318C s
  have hh : Touches 0x10200000879007841000000000000001102000000000000000010E12D000000000208000000000000000206318C s { s with hif := { s.hif with lastTx := r } } := Touches.upd_hif (by decide) h0
  unfold State.txChainTake
  split
  · exact State.ringError_touches (by decide) hh
  · split
    · exact h0
    · exact State.txRun_touches (by decide) hh


theorem State.txTake_touches {m : Nat} {s0 : State} {s : State} {mine : Nat → Bool} {chain : List TxDesc} {data : Option (List Byte)} (hk : 0x10200000879007841000000000000001102000000000000000010E12D000000000208000000000000000206318C ||| m = m)
    (h : Touches m s0 s) : Touches m s0 (State.txTake s mine chain data) := by
  refine Touches.step (k := 0x10200000879007841000000000000001102000000000000000010E12D000000000208000000000000000206318C) (t := s) ?_ hk h
  clear hk h
  unfold State.txTake
  have h0 := Touches.refl 0x10200000879007841000000000000001102000000000000000010E12D000000000208000000000000000206318C s
  repeat' first
    | with_reducible assumption
    | (extract_lets +onlyGivenNames s'; with_reducible refine Touches.cut (t := s') ?_ ?_; subst s'; rotate_left; clear_value s'; intro hs; rotate_left)
    | (extract_lets +onlyGivenNames s'; first | (have _e : State → _ := s'; clear _e; subst s') | clear_value s')
    | with_reducible refine State.txChainTake_touches (by decide) ?_
    | split


theorem execCopy_touches {m : Nat} {s0 : State} {chain : List TxDesc} {data : Option (List Byte)} {s : State} (hk : 0x10200000879007841000000000000001102000000000000000010E12D000000000208000000000000000206318C ||| m = m)
    (h : Touches m s0 s) : Ends m s0 (execCopy chain data s) := by
  refine Ends.step (k := 0x10200000879007841000000000000001102000000000000000010E12D000000000208000000000000000206318C) (t := s) ?_ hk h
  clear hk h
  unfold execCopy
  have h0 := Touches.refl 0x10200000879007841000000000000001102000000000000000010E12D000000000208000000000000000206318C s
  repeat' first
    | with_reducible assumption
    | (extract_lets +onlyGivenNames s'; with_reducible refine Touches.cut (t := s') ?_ ?_; subst s'; rotate_left; clear_value s'; intro hs; rotate_left)
    | (extract_lets +onlyGivenNames s'; with_reducible refine Ends.cut (t := s') ?_ ?_; subst s'; rotate_left; clear_value s'; intro hs; rotate_left)
    | with_reducible refine Ends.next ?_
    | (extract_lets +onlyGivenNames s'; first | (have _e : State → _ := s'; clear _e; subst s') | clear_value s')
    | with_reducible refine State.txTake_touches (by decide) ?_
    | split


theorem execFill_touches {m : Nat} {s0 : State} {chain : List TxDesc} {data : Option (List Byte)} {s : State} (hk : 0x10200000879007841000000000000001102000000000000000010E12D000000000208000000000000000206318C ||| m = m)
    (h : Touches m s0 s) : Ends m s0 (execFill chain data s) := by
  refine Ends.step (k := 0x10200000879007841000000000000001102000000000000000010E12D000000000208000000000000000206318C) (t := s) ?_ hk h
  clear hk h
  unfold execFill
  have h0 := Touches.refl 0x10200000879007841000000000000001102000000000000000010E12D000000000208000000000000000206318C s
  repeat' first
    | with_reducible assumption
    | (extract_lets +onlyGivenNames s'; with_reducible refine Touches.cut (t := s') ?_ ?_; subst s'; rotate_left; clear_value s'; intro hs; rotate_left)
    | (extract_lets +onlyGivenNames s'; with_reducible refine Ends.cut (t := s') ?_ ?_; subst s'; rotate_left; clear_value s'; intro hs; rotate_left)
    | with_reducible refine Ends.next ?_
    | (extract_lets +onlyGivenNames s'; first | (have _e : State → _ := s'; clear _e; subst s') | clear_value s')
    | with_reducible refine State.txTake_touches (by decide) ?_
    | split


theorem execCells_touches {m : Nat} {s0 : State} {chain : List TxDesc} {s : State} (hk : 0x10200000879007841000000000000001102000000000000000010E12D000000000208000000000000000206318C ||| m = m)
    (h : Touches m s0 s) : Ends m s0 (execCells chain s) := by
  refine Ends.step (k := 0x10200000879007841000000000000001102000000000000000010E12D000000000208000000000000000206318C) (t := s) ?_ hk h
  clear hk h
  unfold execCells
  have h0 := Touches.refl 0x10200000879007841000000000000001102000000000000000010E12D000000000208000000000000000206318C s
  repeat' first
    | with_reducible assumption
    | (extract_lets +onlyGivenNames s'; with_reducible refine Touches.cut (t := s') ?_ ?_; subst s'; rotate_left; clear_value s'; intro hs; rotate_left)
    | (extract_lets +onlyGivenNames s'; with_reducible refine Ends.cut (t := s') ?_ ?_; subst s'; rotate_left; clear_value s'; intro hs; rotate_left)
    | with_reducible refine Ends.next ?_
    | (extract_lets +onlyGivenNames s'; first | (have _e : State → _ := s'; clear _e; subst s') | clear_value s')
    | with_reducible refine State.txTake_touches (by decide) ?_
    | split


theorem execMsixAllocWrite_touches {m : Nat} {s0 : State} {f : FnNo} {value : Word} {s : State} (hk : 0x14100000000000000000000000000000000000000000000000000000000000000000000040080 ||| m = m)
    (h : Touches m s0 s) : Ends m s0 (execMsixAllocWrite f value s) := by
  refine Ends.step (k := 0x14100000000000000000000000000000000000000000000000000000000000000000000040080) (t := s) ?_ hk h
  clear hk h
  unfold execMsixAllocWrite
  have h0 := Touches.refl 0x14100000000000000000000000000000000000000000000000000000000000000000000040080 s
  repeat' first
    | with_reducible assumption
    | (extract_lets +onlyGivenNames s'; with_reducible refine Touches.cut (t := s') ?_ ?_; subst s'; rotate_left; clear_value s'; intro hs; rotate_left)
    | (extract_lets +onlyGivenNames s'; with_reducible refine Ends.cut (t := s') ?_ ?_; subst s'; rotate_left; clear_value s'; intro hs; rotate_left)
    | with_reducible refine Ends.next ?_
    | (extract_lets +onlyGivenNames s'; first | (have _e : State → _ := s'; clear _e; subst s') | clear_value s')
    | with_reducible refine Touches.set (by first | decide | assumption | (split <;> decide)) ?_
    | with_reducible refine Touches.raise (by first | decide | assumption | (split <;> decide)) (by decide) ?_
    | split


theorem execIntRearm_touches {m : Nat} {s0 : State} {fn : FnNo} {value : Word} {s : State} (hk : 0x40080 ||| m = m)
    (h : Touches m s0 s) : Ends m s0 (execIntRearm fn value s) := by
  refine Ends.step (k := 0x40080) (t := s) ?_ hk h
  clear hk h
  unfold execIntRearm
  have h0 := Touches.refl 0x40080 s
  repeat' first
    | with_reducible assumption
    | (extract_lets +onlyGivenNames s'; with_reducible refine Touches.cut (t := s') ?_ ?_; subst s'; rotate_left; clear_value s'; intro hs; rotate_left)
    | (extract_lets +onlyGivenNames s'; with_reducible refine Ends.cut (t := s') ?_ ?_; subst s'; rotate_left; clear_value s'; intro hs; rotate_left)
    | with_reducible refine Ends.next ?_
    | (extract_lets +onlyGivenNames s'; first | (have _e : State → _ := s'; clear _e; subst s') | clear_value s')
    | with_reducible refine State.sendMsix_touches (by decide) ?_
    | split


end Sys2Proof.Machine
end

