-- ==== Sys2Proof/Laws/TouchesTroupes.lean ====
section
/-!
SUPPORT. What the operations of Troupes.lean can touch.
-/

namespace Sys2Proof.Machine

set_option linter.all false

theorem State.ringReset_touches {m : Nat} {s0 : State} {s : State} {k : RingKind} {r : Nat} (hk : 0x3FFFFF80000000000000000000000000000000000000000000000000000000000000000000000000080 ||| m = m)
    (h : Touches m s0 s) : Touches m s0 (State.ringReset s k r) := by
  refine Touches.step (k := 0x3FFFFF80000000000000000000000000000000000000000000000000000000000000000000000000080) (t := s) ?_ hk h
  clear hk h
  unfold State.ringReset
  have h0 := Touches.refl 0x3FFFFF80000000000000000000000000000000000000000000000000000000000000000000000000080 s
  repeat' first
    | with_reducible assumption
    | (extract_lets +onlyGivenNames s'; with_reducible refine Touches.cut (t := s') ?_ ?_; subst s'; rotate_left; clear_value s'; intro hs; rotate_left)
    | (extract_lets +onlyGivenNames s'; first | (have _e : State → _ := s'; clear _e; subst s') | (have _e : HostBlock := s'; clear _e; subst s') | clear_value s')
    | with_reducible refine State.clearReg_touches (by first | decide | assumption | (clear hs''; revert f''; decide)) (by decide) ?_
    | with_reducible refine State.clearSpan_touches (by decide) ?_
    | split
    | with_reducible refine Touches.upd_hif (by decide) ?_


theorem State.refuseWaiting_touches {m : Nat} {s0 : State} {s : State} {n : Nat} (hk : 0x80000000100000000000000000000000000000000000000000000000000000000000000084000040090 ||| m = m)
    (h : Touches m s0 s) : Touches m s0 (State.refuseWaiting s n) := by
  refine Touches.step (k := 0x80000000100000000000000000000000000000000000000000000000000000000000000084000040090) (t := s) ?_ hk h
  clear hk h
  unfold State.refuseWaiting
  have h0 := Touches.refl 0x80000000100000000000000000000000000000000000000000000000000000000000000084000040090 s
  repeat' first
    | with_reducible assumption
    | (extract_lets +onlyGivenNames s'; with_reducible refine Touches.cut (t := s') ?_ ?_; subst s'; rotate_left; clear_value s'; intro hs; rotate_left)
    | (extract_lets +onlyGivenNames s'; first | (have _e : State → _ := s'; clear _e; subst s') | clear_value s')
    | with_reducible refine Touches.foldl (fun _ _ _ => ?_) ?_
    | with_reducible refine State.refuseCommit_touches (by decide) ?_
    | with_reducible refine State.replaceCommit_touches (by decide) ?_
    | split


theorem State.removePort_touches {m : Nat} {s0 : State} {s : State} {x : Nat} (hk : 0x1020000080000000100000000000000110200000000000000C080E06D000000000000000D118000000002063184 ||| m = m)
    (h : Touches m s0 s) : Touches m s0 (State.removePort s x) := by
  refine Touches.step (k := 0x1020000080000000100000000000000110200000000000000C080E06D000000000000000D118000000002063184) (t := s) ?_ hk h
  clear hk h
  unfold State.removePort
  have h0 := Touches.refl 0x1020000080000000100000000000000110200000000000000C080E06D000000000000000D118000000002063184 s
  repeat' first
    | with_reducible assumption
    | (extract_lets +onlyGivenNames s'; with_reducible refine Touches.cut (t := s') ?_ ?_; subst s'; rotate_left; clear_value s'; intro hs; rotate_left)
    | (extract_lets +onlyGivenNames s'; first | (have _e : State → _ := s'; clear _e; subst s') | clear_value s')
    | with_reducible refine State.flushFlights_touches (by decide) ?_
    | with_reducible refine State.startFlush_touches (by decide) ?_
    | with_reducible refine State.portDown_touches (by decide) ?_
    | with_reducible refine Touches.set (by first | decide | assumption | (split <;> decide)) ?_
    | split


theorem State.removeTroupe_touches {m : Nat} {s0 : State} {s : State} {n : Nat} (hk : 0x10200000C00007C0100000000000000110200000000000000C090E06D000400000000000D1180102840220671D4 ||| m = m)
    (h : Touches m s0 s) : Touches m s0 (State.removeTroupe s n) := by
  refine Touches.step (k := 0x10200000C00007C0100000000000000110200000000000000C090E06D000400000000000D1180102840220671D4) (t := s) ?_ hk h
  clear hk h
  unfold State.removeTroupe
  have h0 := Touches.refl 0x10200000C00007C0100000000000000110200000000000000C090E06D000400000000000D1180102840220671D4 s
  repeat' first
    | with_reducible assumption
    | (extract_lets +onlyGivenNames s'; with_reducible refine Touches.cut (t := s') ?_ ?_; subst s'; rotate_left; clear_value s'; intro hs; rotate_left)
    | (extract_lets +onlyGivenNames s'; first | (have _e : State → _ := s'; clear _e; subst s') | subst s')
    | with_reducible refine Touches.foldl (fun _ _ _ => ?_) ?_
    | with_reducible refine State.setTroupeReady_touches (by decide) ?_
    | with_reducible refine State.setTroupeState_touches (by decide) ?_
    | with_reducible refine State.emptyTable_touches (by decide) ?_
    | with_reducible refine State.forceFlows_touches (by decide) ?_
    | with_reducible refine State.freeLeases_touches (by decide) ?_
    | with_reducible refine State.rejectLoad_touches (by decide) ?_
    | with_reducible refine State.measureTroupe_touches (by decide) ?_
    | with_reducible refine State.flushRx_touches (by decide) ?_
    | with_reducible refine State.refuseWaiting_touches (by decide) ?_
    | with_reducible refine State.removePort_touches (by decide) ?_
    | with_reducible refine Touches.set (by first | decide | (cases Prod.fst _ <;> decide)) ?_
    | split


theorem execRemove_touches {m : Nat} {s0 : State} {value : Word} {s : State} (hk : 0x10200000C00007E0100000000000000110200000000000000C090E06D000400000000000D1180102840220671D4 ||| m = m)
    (h : Touches m s0 s) : Ends m s0 (execRemove value s) := by
  refine Ends.step (k := 0x10200000C00007E0100000000000000110200000000000000C090E06D000400000000000D1180102840220671D4) (t := s) ?_ hk h
  clear hk h
  unfold execRemove
  have h0 := Touches.refl 0x10200000C00007E0100000000000000110200000000000000C090E06D000400000000000D1180102840220671D4 s
  repeat' first
    | with_reducible assumption
    | (extract_lets +onlyGivenNames s'; with_reducible refine Touches.cut (t := s') ?_ ?_; subst s'; rotate_left; clear_value s'; intro hs; rotate_left)
    | (extract_lets +onlyGivenNames s'; with_reducible refine Ends.cut (t := s') ?_ ?_; subst s'; rotate_left; clear_value s'; intro hs; rotate_left)
    | with_reducible refine Ends.next ?_
    | (extract_lets +onlyGivenNames s'; first | (have _e : State → _ := s'; clear _e; subst s') | (have _e : HostBlock := s'; clear _e; subst s') | clear_value s')
    | with_reducible refine State.removeTroupe_touches (by decide) ?_
    | with_reducible refine Touches.set (by first | decide | assumption | (split <;> decide)) ?_
    | split
    | with_reducible refine Touches.upd_hif (by decide) ?_


theorem State.troupeDone_touches {m : Nat} {s0 : State} {s : State} (hk : 0x24100000000000000000000000000000000000000000000000000000000000000000000040080 ||| m = m)
    (h : Touches m s0 s) : Touches m s0 (State.troupeDone s) := by
  refine Touches.step (k := 0x24100000000000000000000000000000000000000000000000000000000000000000000040080) (t := s) ?_ hk h
  clear hk h
  unfold State.troupeDone
  have h0 := Touches.refl 0x24100000000000000000000000000000000000000000000000000000000000000000000040080 s
  repeat' first
    | with_reducible assumption
    | (extract_lets +onlyGivenNames s'; with_reducible refine Touches.cut (t := s') ?_ ?_; subst s'; rotate_left; clear_value s'; intro hs; rotate_left)
    | (extract_lets +onlyGivenNames s'; first | (have _e : State → _ := s'; clear _e; subst s') | (have _e : HostBlock := s'; clear _e; subst s') | clear_value s')
    | with_reducible refine Touches.set (by first | decide | assumption | (split <;> decide)) ?_
    | with_reducible refine Touches.raise (by first | decide | assumption | (split <;> decide)) (by decide) ?_
    | split
    | with_reducible refine Touches.upd_hif (by decide) ?_


theorem execTroupeRemoveDone_touches {m : Nat} {s0 : State} {s : State} (hk : 0x10200000C0000064100000000000000000000000000000000000000000000000000000000000000000000042080 ||| m = m)
    (h : Touches m s0 s) : Ends m s0 (execTroupeRemoveDone s) := by
  refine Ends.step (k := 0x10200000C0000064100000000000000000000000000000000000000000000000000000000000000000000042080) (t := s) ?_ hk h
  clear hk h
  unfold execTroupeRemoveDone
  have h0 := Touches.refl 0x10200000C0000064100000000000000000000000000000000000000000000000000000000000000000000042080 s
  repeat' first
    | with_reducible assumption
    | (extract_lets +onlyGivenNames s'; with_reducible refine Touches.cut (t := s') ?_ ?_; subst s'; rotate_left; clear_value s'; intro hs; rotate_left)
    | (extract_lets +onlyGivenNames s'; with_reducible refine Ends.cut (t := s') ?_ ?_; subst s'; rotate_left; clear_value s'; intro hs; rotate_left)
    | with_reducible refine Ends.next ?_
    | (extract_lets +onlyGivenNames s'; first | (have _e : State → _ := s'; clear _e; subst s') | clear_value s')
    | with_reducible refine State.setTroupeState_touches (by decide) ?_
    | with_reducible refine State.record_touches (by decide) ?_
    | with_reducible refine State.troupeDone_touches (by decide) ?_
    | with_reducible refine Touches.addSat (by first | decide | assumption | (split <;> decide)) ?_
    | split


theorem State.regInit_touches {m : Nat} {s0 : State} {s : State} {off : Nat} {w : Word} (hk : 0x3FFFFFFFFFFFFFFFFFFFFFFFFFFFFFFFFFFFFFFFFFFFFFFFFFFFFFFFFFFFFFFFFFFFFFFFFFFFFFFFFFFFFFFFFF80002 ||| m = m)
    (h : Touches m s0 s) : Touches m s0 (State.regInit s off w) := by
  refine Touches.step (k := 0x3FFFFFFFFFFFFFFFFFFFFFFFFFFFFFFFFFFFFFFFFFFFFFFFFFFFFFFFFFFFFFFFFFFFFFFFFFFFFFFFFFFFFFFFFF80002) (t := s) ?_ hk h
  clear hk h
  unfold State.regInit
  have h0 := Touches.refl 0x3FFFFFFFFFFFFFFFFFFFFFFFFFFFFFFFFFFFFFFFFFFFFFFFFFFFFFFFFFFFFFFFFFFFFFFFFFFFFFFFFFFFFFFFFF80002 s
  repeat' first
    | with_reducible assumption
    | (extract_lets +onlyGivenNames s'; with_reducible refine Touches.cut (t := s') ?_ ?_; subst s'; rotate_left; clear_value s'; intro hs; rotate_left)
    | (extract_lets +onlyGivenNames s'; first | (have _e : State → _ := s'; clear _e; subst s') | clear_value s')
    | with_reducible refine Touches.foldl (fun _ _ _ => ?_) ?_
    | with_reducible refine Touches.set (by first | decide | (exact all_regs (by decide) _)) ?_
    | with_reducible refine Touches.setStaged (by decide) ?_
    | split


theorem State.stageTroupe_touches {m : Nat} {s0 : State} {s : State} {im : Image} {n : Nat} (hk : 0x3FFFFFFFFFFFFFFFFFFFFFFFFFFFFFFFFFFFFFFFFFFFFFFFFFFFFFFFFFFFFFFFFFFFFFFFFFFFFFFFFFFFFFFFFF80002 ||| m = m)
    (h : Touches m s0 s) : Touches m s0 (State.stageTroupe s im n) := by
  refine Touches.step (k := 0x3FFFFFFFFFFFFFFFFFFFFFFFFFFFFFFFFFFFFFFFFFFFFFFFFFFFFFFFFFFFFFFFFFFFFFFFFFFFFFFFFFFFFFFFFF80002) (t := s) ?_ hk h
  clear hk h
  unfold State.stageTroupe
  have h0 := Touches.refl 0x3FFFFFFFFFFFFFFFFFFFFFFFFFFFFFFFFFFFFFFFFFFFFFFFFFFFFFFFFFFFFFFFFFFFFFFFFFFFFFFFFFFFFFFFFF80002 s
  repeat' first
    | with_reducible assumption
    | (extract_lets +onlyGivenNames s'; with_reducible refine Touches.cut (t := s') ?_ ?_; subst s'; rotate_left; clear_value s'; intro hs; rotate_left)
    | with_reducible refine Touches.upd_staging (by decide) (rfWf_filter _) ?_
    | (extract_lets +onlyGivenNames s'; first | (have _e : State → _ := s'; clear _e; subst s') | clear_value s')
    | with_reducible refine Touches.foldl (fun _ _ _ => ?_) ?_
    | with_reducible refine State.regInit_touches (by decide) ?_
    | with_reducible refine Touches.setStaged (by decide) ?_
    | split


theorem execRestore_touches {m : Nat} {s0 : State} {value : Word} {s : State} (hk : 0x3FFFFFFFFFFFFFFFFFFFFFFFFFFFFFFFFFFFFFFFFFFFFFFFFFFFFFFFFFFFFFFFFFFFFFFFFFFFFFFFFFFFFFFFFF80082 ||| m = m)
    (h : Touches m s0 s) : Ends m s0 (execRestore value s) := by
  refine Ends.step (k := 0x3FFFFFFFFFFFFFFFFFFFFFFFFFFFFFFFFFFFFFFFFFFFFFFFFFFFFFFFFFFFFFFFFFFFFFFFFFFFFFFFFFFFFFFFFF80082) (t := s) ?_ hk h
  clear hk h
  unfold execRestore
  have h0 := Touches.refl 0x3FFFFFFFFFFFFFFFFFFFFFFFFFFFFFFFFFFFFFFFFFFFFFFFFFFFFFFFFFFFFFFFFFFFFFFFFFFFFFFFFFFFFFFFFF80082 s
  repeat' first
    | with_reducible assumption
    | (extract_lets +onlyGivenNames s'; with_reducible refine Touches.cut (t := s') ?_ ?_; subst s'; rotate_left; clear_value s'; intro hs; rotate_left)
    | (extract_lets +onlyGivenNames s'; with_reducible refine Ends.cut (t := s') ?_ ?_; subst s'; rotate_left; clear_value s'; intro hs; rotate_left)
    | with_reducible refine Ends.next ?_
    | (extract_lets +onlyGivenNames s'; first | (have _e : State → _ := s'; clear _e; subst s') | (have _e : HostBlock := s'; clear _e; subst s') | clear_value s')
    | with_reducible refine State.stageTroupe_touches (by decide) ?_
    | with_reducible refine Touches.set (by first | decide | assumption | (split <;> decide)) ?_
    | split
    | with_reducible refine Touches.upd_hif (by decide) ?_


theorem execTroupeRestoreDone_touches {m : Nat} {s0 : State} {s : State} (hk : 0x3FFFFFFFFFFFFFFFFFFFFFFFFFFFFFFFFFFFFFFFFFFFFFFFFFFFFFFFFFFFFFFFFFFFFFFFFFFFFFFFFFFFFFFFFFC60D6 ||| m = m)
    (h : Touches m s0 s) : Ends m s0 (execTroupeRestoreDone s) := by
  refine Ends.step (k := 0x3FFFFFFFFFFFFFFFFFFFFFFFFFFFFFFFFFFFFFFFFFFFFFFFFFFFFFFFFFFFFFFFFFFFFFFFFFFFFFFFFFFFFFFFFFC60D6) (t := s) ?_ hk h
  clear hk h
  unfold execTroupeRestoreDone
  have h0 := Touches.refl 0x3FFFFFFFFFFFFFFFFFFFFFFFFFFFFFFFFFFFFFFFFFFFFFFFFFFFFFFFFFFFFFFFFFFFFFFFFFFFFFFFFFFFFFFFFFC60D6 s
  repeat' first
    | with_reducible assumption
    | (extract_lets +onlyGivenNames s'; with_reducible refine Touches.cut (t := s') ?_ ?_; subst s'; rotate_left; clear_value s'; intro hs; rotate_left)
    | (extract_lets +onlyGivenNames s'; with_reducible refine Ends.cut (t := s') ?_ ?_; subst s'; rotate_left; clear_value s'; intro hs; rotate_left)
    | with_reducible refine Ends.next ?_
    | (extract_lets +onlyGivenNames s'; first | (have _e : State → _ := s'; clear _e; subst s') | (have _e : CfgBlock := s'; clear _e; subst s') | clear_value s')
    | with_reducible refine Touches.foldl (fun _ _ _ => ?_) ?_
    | with_reducible refine State.setTroupeState_touches (by decide) ?_
    | with_reducible refine State.emptyTable_touches (by decide) ?_
    | with_reducible refine State.fence_touches (by decide) ?_
    | with_reducible refine State.troupeDone_touches (by decide) ?_
    | split
    | with_reducible refine Touches.upd_cf (by decide) ?_


theorem State.setBusMaster_touches {m : Nat} {s0 : State} {s : State} {f : Nat} {on : Bool} (hk : 0x40000000000000000000000000000000000000000000000000000000000000000000000000080 ||| m = m)
    (h : Touches m s0 s) : Touches m s0 (State.setBusMaster s f on) := by
  refine Touches.step (k := 0x40000000000000000000000000000000000000000000000000000000000000000000000000080) (t := s) ?_ hk h
  clear hk h
  unfold State.setBusMaster
  have h0 := Touches.refl 0x40000000000000000000000000000000000000000000000000000000000000000000000000080 s
  repeat' first
    | with_reducible assumption
    | (extract_lets +onlyGivenNames s'; with_reducible refine Touches.cut (t := s') ?_ ?_; subst s'; rotate_left; clear_value s'; intro hs; rotate_left)
    | (extract_lets +onlyGivenNames s'; first | (have _e : State → _ := s'; clear _e; subst s') | (have _e : HostBlock := s'; clear _e; subst s') | clear_value s')
    | with_reducible refine Touches.set (by first | decide | assumption | (split <;> decide)) ?_
    | split
    | with_reducible refine Touches.upd_hif (by decide) ?_


theorem State.refreshVfs_touches {m : Nat} {s0 : State} {s : State} (hk : 0x40000000000000000000000000000000000000000000000000000000000000000000000000080 ||| m = m)
    (h : Touches m s0 s) : Touches m s0 (State.refreshVfs s) := by
  refine Touches.step (k := 0x40000000000000000000000000000000000000000000000000000000000000000000000000080) (t := s) ?_ hk h
  clear hk h
  unfold State.refreshVfs
  have h0 := Touches.refl 0x40000000000000000000000000000000000000000000000000000000000000000000000000080 s
  repeat' first
    | with_reducible assumption
    | (extract_lets +onlyGivenNames s'; with_reducible refine Touches.cut (t := s') ?_ ?_; subst s'; rotate_left; clear_value s'; intro hs; rotate_left)
    | (extract_lets +onlyGivenNames s'; first | (have _e : State → _ := s'; clear _e; subst s') | clear_value s')
    | with_reducible refine Touches.foldl (fun _ _ _ => ?_) ?_
    | with_reducible refine State.setBusMaster_touches (by decide) ?_
    | with_reducible refine Touches.set (by first | decide | assumption | (split <;> decide)) ?_
    | split


theorem State.forgetLatches_touches {m : Nat} {s0 : State} {s : State} {fn : Nat} (hk : 0x10000000010 ||| m = m)
    (h : Touches m s0 s) : Touches m s0 (State.forgetLatches s fn) := by
  refine Touches.step (k := 0x10000000010) (t := s) ?_ hk h
  clear hk h
  unfold State.forgetLatches
  have h0 := Touches.refl 0x10000000010 s
  repeat' first
    | with_reducible assumption
    | (extract_lets +onlyGivenNames s'; with_reducible refine Touches.cut (t := s') ?_ ?_; subst s'; rotate_left; clear_value s'; intro hs; rotate_left)
    | (extract_lets +onlyGivenNames s'; first | (have _e : State → _ := s'; clear _e; subst s') | clear_value s')
    | with_reducible refine State.showPending_touches (by decide) ?_
    | with_reducible refine State.setLatches_touches (by decide) ?_
    | split


theorem State.resetRings_touches {m : Nat} {s0 : State} {s : State} {n : Nat} (hk : 0x3FFFFF80000000000000000000000000000000000000000000000000000000000000000000000000080 ||| m = m)
    (h : Touches m s0 s) : Touches m s0 (State.resetRings s n) := by
  refine Touches.step (k := 0x3FFFFF80000000000000000000000000000000000000000000000000000000000000000000000000080) (t := s) ?_ hk h
  clear hk h
  unfold State.resetRings
  have h0 := Touches.refl 0x3FFFFF80000000000000000000000000000000000000000000000000000000000000000000000000080 s
  repeat' first
    | with_reducible assumption
    | (extract_lets +onlyGivenNames s'; with_reducible refine Touches.cut (t := s') ?_ ?_; subst s'; rotate_left; clear_value s'; intro hs; rotate_left)
    | (extract_lets +onlyGivenNames s'; first | (have _e : State → _ := s'; clear _e; subst s') | clear_value s')
    | with_reducible refine Touches.foldl (fun _ _ _ => ?_) ?_
    | with_reducible refine State.ringReset_touches (by decide) ?_
    | split


theorem State.vfReset_touches {m : Nat} {s0 : State} {s : State} {n : Nat} (hk : 0x3BFFFFFC30000000000000000000001800000000000E1A002D000000000000000000000007C000000094 ||| m = m)
    (h : Touches m s0 s) : Touches m s0 (State.vfReset s n) := by
  refine Touches.step (k := 0x3BFFFFFC30000000000000000000001800000000000E1A002D000000000000000000000007C000000094) (t := s) ?_ hk h
  clear hk h
  unfold State.vfReset
  have h0 := Touches.refl 0x3BFFFFFC30000000000000000000001800000000000E1A002D000000000000000000000007C000000094 s
  repeat' first
    | with_reducible assumption
    | (extract_lets +onlyGivenNames s'; with_reducible refine Touches.cut (t := s') ?_ ?_; subst s'; rotate_left; clear_value s'; intro hs; rotate_left)
    | (extract_lets +onlyGivenNames s'; first | (have _e : State → _ := s'; clear _e; subst s') | clear_value s')
    | with_reducible refine Touches.foldl_mem (fun s'' f'' hf'' hs'' => ?_) ?_
    | with_reducible refine Touches.foldl (fun _ _ _ => ?_) ?_
    | with_reducible refine State.resetMsix_touches (by decide) ?_
    | with_reducible refine State.freeLeases_touches (by decide) ?_
    | with_reducible refine State.clearReg_touches (by first | decide | assumption | (clear hs''; revert f''; decide)) (by decide) ?_
    | with_reducible refine State.clearSpan_touches (by decide) ?_
    | with_reducible refine State.setBusMaster_touches (by decide) ?_
    | with_reducible refine State.forgetLatches_touches (by decide) ?_
    | with_reducible refine State.resetRings_touches (by decide) ?_
    | split


theorem execFlr_touches {m : Nat} {s0 : State} {fn : FnNo} {s : State} (hk : 0x3BFFFFFC30000000000000000000001800000000000E1A002D000000000000000000000007C000000094 ||| m = m)
    (h : Touches m s0 s) : Ends m s0 (execFlr fn s) := by
  refine Ends.step (k := 0x3BFFFFFC30000000000000000000001800000000000E1A002D000000000000000000000007C000000094) (t := s) ?_ hk h
  clear hk h
  unfold execFlr
  have h0 := Touches.refl 0x3BFFFFFC30000000000000000000001800000000000E1A002D000000000000000000000007C000000094 s
  repeat' first
    | with_reducible assumption
    | (extract_lets +onlyGivenNames s'; with_reducible refine Touches.cut (t := s') ?_ ?_; subst s'; rotate_left; clear_value s'; intro hs; rotate_left)
    | (extract_lets +onlyGivenNames s'; with_reducible refine Ends.cut (t := s') ?_ ?_; subst s'; rotate_left; clear_value s'; intro hs; rotate_left)
    | with_reducible refine Ends.next ?_
    | (extract_lets +onlyGivenNames s'; first | (have _e : State → _ := s'; clear _e; subst s') | clear_value s')
    | with_reducible refine State.vfReset_touches (by decide) ?_
    | split


theorem execPfFlr_touches {m : Nat} {s0 : State} {s : State} (hk : 0x3BFFFFFC30000000000000000000001800000000000E1A002D000000000000000000000007C000000094 ||| m = m)
    (h : Touches m s0 s) : Ends m s0 (execPfFlr s) := by
  refine Ends.step (k := 0x3BFFFFFC30000000000000000000001800000000000E1A002D000000000000000000000007C000000094) (t := s) ?_ hk h
  clear hk h
  unfold execPfFlr
  have h0 := Touches.refl 0x3BFFFFFC30000000000000000000001800000000000E1A002D000000000000000000000007C000000094 s
  repeat' first
    | with_reducible assumption
    | (extract_lets +onlyGivenNames s'; with_reducible refine Touches.cut (t := s') ?_ ?_; subst s'; rotate_left; clear_value s'; intro hs; rotate_left)
    | (extract_lets +onlyGivenNames s'; with_reducible refine Ends.cut (t := s') ?_ ?_; subst s'; rotate_left; clear_value s'; intro hs; rotate_left)
    | with_reducible refine Ends.next ?_
    | (extract_lets +onlyGivenNames s'; first | (have _e : State → _ := s'; clear _e; subst s') | (have _e : HostBlock := s'; clear _e; subst s') | clear_value s')
    | with_reducible refine Touches.foldl (fun _ _ _ => ?_) ?_
    | with_reducible refine State.resetMsix_touches (by decide) ?_
    | with_reducible refine State.clearReg_touches (by first | decide | assumption | (clear hs''; revert f''; decide)) (by decide) ?_
    | with_reducible refine State.setBusMaster_touches (by decide) ?_
    | with_reducible refine State.refreshVfs_touches (by decide) ?_
    | with_reducible refine State.forgetLatches_touches (by decide) ?_
    | with_reducible refine State.resetRings_touches (by decide) ?_
    | with_reducible refine State.vfReset_touches (by decide) ?_
    | split
    | with_reducible refine Touches.upd_hif (by decide) ?_


theorem execConfigurationRequest_touches {m : Nat} {s0 : State} {w : ConfigWrite} {s : State} (hk : 0x40000000000000000000000000000000000000000000000000000000000000000000000040080 ||| m = m)
    (h : Touches m s0 s) : Ends m s0 (execConfigurationRequest w s) := by
  refine Ends.step (k := 0x40000000000000000000000000000000000000000000000000000000000000000000000040080) (t := s) ?_ hk h
  clear hk h
  unfold execConfigurationRequest
  have h0 := Touches.refl 0x40000000000000000000000000000000000000000000000000000000000000000000000040080 s
  repeat' first
    | with_reducible assumption
    | (extract_lets +onlyGivenNames s'; with_reducible refine Touches.cut (t := s') ?_ ?_; subst s'; rotate_left; clear_value s'; intro hs; rotate_left)
    | (extract_lets +onlyGivenNames s'; with_reducible refine Ends.cut (t := s') ?_ ?_; subst s'; rotate_left; clear_value s'; intro hs; rotate_left)
    | with_reducible refine Ends.next ?_
    | (extract_lets +onlyGivenNames s'; first | (have _e : State → _ := s'; clear _e; subst s') | (have _e : HostBlock := s'; clear _e; subst s') | clear_value s')
    | with_reducible refine State.modMsix_touches (by decide) ?_
    | with_reducible refine State.releaseMsix_touches (by decide) ?_
    | with_reducible refine State.setBusMaster_touches (by decide) ?_
    | with_reducible refine State.refreshVfs_touches (by decide) ?_
    | with_reducible refine Touches.emit (by decide) ?_
    | split
    | with_reducible refine Touches.upd_hif (by decide) ?_


theorem State.hostDown_touches {m : Nat} {s0 : State} {s : State} {inReset : Bool} (hk : 0x10200000BFFFFFC09000000000000001102000000000000000000E06D0000000000000000000006000002072184 ||| m = m)
    (h : Touches m s0 s) : Touches m s0 (State.hostDown s inReset) := by
  refine Touches.step (k := 0x10200000BFFFFFC09000000000000001102000000000000000000E06D0000000000000000000006000002072184) (t := s) ?_ hk h
  clear hk h
  unfold State.hostDown
  have h0 := Touches.refl 0x10200000BFFFFFC09000000000000001102000000000000000000E06D0000000000000000000006000002072184 s
  repeat' first
    | with_reducible assumption
    | (extract_lets +onlyGivenNames s'; with_reducible refine Touches.cut (t := s') ?_ ?_; subst s'; rotate_left; clear_value s'; intro hs; rotate_left)
    | (extract_lets +onlyGivenNames s'; first | (have _e : State → _ := s'; clear _e; subst s') | (have _e : HostBlock := s'; clear _e; subst s') | (have _e : PkgBlock := s'; clear _e; subst s') | clear_value s')
    | with_reducible refine Touches.foldl (fun _ _ _ => ?_) ?_
    | with_reducible refine State.setReady_touches (by decide) ?_
    | with_reducible refine State.flushRx_touches (by decide) ?_
    | with_reducible refine State.setBusMaster_touches (by decide) ?_
    | with_reducible refine State.refreshVfs_touches (by decide) ?_
    | with_reducible refine State.resetRings_touches (by decide) ?_
    | with_reducible refine Touches.set (by first | decide | assumption | (split <;> decide)) ?_
    | split
    | with_reducible refine Touches.upd_hif (by decide) ?_
    | with_reducible refine Touches.upd_pkg (by decide) ?_


theorem execHostReset_touches {m : Nat} {s0 : State} {cause : HostDown} {s : State} (hk : 0x10200000BFFFFFC09000000000000001102000000000000000000E06D0000000000000000000006080022072194 ||| m = m)
    (h : Touches m s0 s) : Ends m s0 (execHostReset cause s) := by
  refine Ends.step (k := 0x10200000BFFFFFC09000000000000001102000000000000000000E06D0000000000000000000006080022072194) (t := s) ?_ hk h
  clear hk h
  unfold execHostReset
  have h0 := Touches.refl 0x10200000BFFFFFC09000000000000001102000000000000000000E06D0000000000000000000006080022072194 s
  repeat' first
    | with_reducible assumption
    | (extract_lets +onlyGivenNames s'; with_reducible refine Touches.cut (t := s') ?_ ?_; subst s'; rotate_left; clear_value s'; intro hs; rotate_left)
    | (extract_lets +onlyGivenNames s'; with_reducible refine Ends.cut (t := s') ?_ ?_; subst s'; rotate_left; clear_value s'; intro hs; rotate_left)
    | with_reducible refine Ends.next ?_
    | (extract_lets +onlyGivenNames s'; first | (have _e : State → _ := s'; clear _e; subst s') | (have _e : PkgBlock := s'; clear _e; subst s') | clear_value s')
    | with_reducible refine State.rejectLoad_touches (by decide) ?_
    | with_reducible refine State.hostDown_touches (by decide) ?_
    | split
    | with_reducible refine Touches.upd_pkg (by decide) ?_


theorem execPerstDeassert_touches {m : Nat} {s0 : State} {s : State} (hk : 0x10000 ||| m = m)
    (h : Touches m s0 s) : Ends m s0 (execPerstDeassert s) := by
  refine Ends.step (k := 0x10000) (t := s) ?_ hk h
  clear hk h
  unfold execPerstDeassert
  have h0 := Touches.refl 0x10000 s
  repeat' first
    | with_reducible assumption
    | (extract_lets +onlyGivenNames s'; with_reducible refine Touches.cut (t := s') ?_ ?_; subst s'; rotate_left; clear_value s'; intro hs; rotate_left)
    | (extract_lets +onlyGivenNames s'; with_reducible refine Ends.cut (t := s') ?_ ?_; subst s'; rotate_left; clear_value s'; intro hs; rotate_left)
    | with_reducible refine Ends.next ?_
    | (extract_lets +onlyGivenNames s'; first | (have _e : State → _ := s'; clear _e; subst s') | (have _e : PkgBlock := s'; clear _e; subst s') | clear_value s')
    | split
    | with_reducible refine Touches.upd_pkg (by decide) ?_


theorem execPcieLinkUp_touches {m : Nat} {s0 : State} {speed : Fin 6} {widthLog2 : Fin 5} {s : State} (hk : 0x1020000000000004900000000000000000000000000000000000000000000000000000000000006000000052080 ||| m = m)
    (h : Touches m s0 s) : Ends m s0 (execPcieLinkUp speed widthLog2 s) := by
  refine Ends.step (k := 0x1020000000000004900000000000000000000000000000000000000000000000000000000000006000000052080) (t := s) ?_ hk h
  clear hk h
  unfold execPcieLinkUp
  have h0 := Touches.refl 0x1020000000000004900000000000000000000000000000000000000000000000000000000000006000000052080 s
  repeat' first
    | with_reducible assumption
    | (extract_lets +onlyGivenNames s'; with_reducible refine Touches.cut (t := s') ?_ ?_; subst s'; rotate_left; clear_value s'; intro hs; rotate_left)
    | (extract_lets +onlyGivenNames s'; with_reducible refine Ends.cut (t := s') ?_ ?_; subst s'; rotate_left; clear_value s'; intro hs; rotate_left)
    | with_reducible refine Ends.next ?_
    | (extract_lets +onlyGivenNames s'; first | (have _e : State → _ := s'; clear _e; subst s') | (have _e : PkgBlock := s'; clear _e; subst s') | clear_value s')
    | with_reducible refine State.setReady_touches (by decide) ?_
    | with_reducible refine Touches.set (by first | decide | assumption | (split <;> decide)) ?_
    | with_reducible refine Touches.raise (by first | decide | assumption | (split <;> decide)) (by decide) ?_
    | split
    | with_reducible refine Touches.upd_pkg (by decide) ?_


end Sys2Proof.Machine
end

