-- ==== Sys2Proof/Laws/TouchesLoads.lean ====
section
/-!
SUPPORT. What the operations of Loads.lean can touch.
-/

namespace Sys2Proof.Machine

set_option linter.all false

theorem State.writeLoadCtrl_touches {m : Nat} {s0 : State} {s : State} {value : Word} (hk : 0x1020000000000000100000000000000000000000000000000000000000000000000000000000000080028042090 ||| m = m)
    (h : Touches m s0 s) : Touches m s0 (State.writeLoadCtrl s value) := by
  refine Touches.step (k := 0x1020000000000000100000000000000000000000000000000000000000000000000000000000000080028042090) (t := s) ?_ hk h
  clear hk h
  unfold State.writeLoadCtrl
  have h0 := Touches.refl 0x1020000000000000100000000000000000000000000000000000000000000000000000000000000080028042090 s
  repeat' first
    | with_reducible assumption
    | (extract_lets +onlyGivenNames s'; with_reducible refine Touches.cut (t := s') ?_ ?_; subst s'; rotate_left; clear_value s'; intro hs; rotate_left)
    | (extract_lets +onlyGivenNames s'; first | (have _e : State → _ := s'; clear _e; subst s') | clear_value s')
    | with_reducible refine State.startLoad_touches (by decide) ?_
    | with_reducible refine State.rejectReport_touches (by decide) ?_
    | with_reducible refine State.rejectLoad_touches (by decide) ?_
    | with_reducible refine Touches.set (by first | decide | assumption | (split <;> decide)) ?_
    | split


theorem execHostLoadStart_touches {m : Nat} {s0 : State} {value : Word} {s : State} (hk : 0x1020000000000000100000000000000000000000000000000000000000000000000000000000000080028042090 ||| m = m)
    (h : Touches m s0 s) : Ends m s0 (execHostLoadStart value s) := by
  refine Ends.step (k := 0x1020000000000000100000000000000000000000000000000000000000000000000000000000000080028042090) (t := s) ?_ hk h
  clear hk h
  unfold execHostLoadStart
  have h0 := Touches.refl 0x1020000000000000100000000000000000000000000000000000000000000000000000000000000080028042090 s
  repeat' first
    | with_reducible assumption
    | (extract_lets +onlyGivenNames s'; with_reducible refine Touches.cut (t := s') ?_ ?_; subst s'; rotate_left; clear_value s'; intro hs; rotate_left)
    | (extract_lets +onlyGivenNames s'; with_reducible refine Ends.cut (t := s') ?_ ?_; subst s'; rotate_left; clear_value s'; intro hs; rotate_left)
    | with_reducible refine Ends.next ?_
    | (extract_lets +onlyGivenNames s'; first | (have _e : State → _ := s'; clear _e; subst s') | clear_value s')
    | with_reducible refine State.writeLoadCtrl_touches (by decide) ?_
    | split


theorem execLoadAbort_touches {m : Nat} {s0 : State} {value : Word} {s : State} (hk : 0x1020000000000000100000000000000000000000000000000000000000000000000000000000000080028042090 ||| m = m)
    (h : Touches m s0 s) : Ends m s0 (execLoadAbort value s) := by
  refine Ends.step (k := 0x1020000000000000100000000000000000000000000000000000000000000000000000000000000080028042090) (t := s) ?_ hk h
  clear hk h
  unfold execLoadAbort
  have h0 := Touches.refl 0x1020000000000000100000000000000000000000000000000000000000000000000000000000000080028042090 s
  repeat' first
    | with_reducible assumption
    | (extract_lets +onlyGivenNames s'; with_reducible refine Touches.cut (t := s') ?_ ?_; subst s'; rotate_left; clear_value s'; intro hs; rotate_left)
    | (extract_lets +onlyGivenNames s'; with_reducible refine Ends.cut (t := s') ?_ ?_; subst s'; rotate_left; clear_value s'; intro hs; rotate_left)
    | with_reducible refine Ends.next ?_
    | (extract_lets +onlyGivenNames s'; first | (have _e : State → _ := s'; clear _e; subst s') | clear_value s')
    | with_reducible refine State.writeLoadCtrl_touches (by decide) ?_
    | split


theorem State.fetchNext_touches {m : Nat} {s0 : State} {s : State} {l : LoadRec} (hk : 0x40000 ||| m = m)
    (h : Touches m s0 s) : Touches m s0 (State.fetchNext s l) := by
  refine Touches.step (k := 0x40000) (t := s) ?_ hk h
  clear hk h
  unfold State.fetchNext
  have h0 := Touches.refl 0x40000 s
  repeat' first
    | with_reducible assumption
    | (extract_lets +onlyGivenNames s'; with_reducible refine Touches.cut (t := s') ?_ ?_; subst s'; rotate_left; clear_value s'; intro hs; rotate_left)
    | (extract_lets +onlyGivenNames s'; first | (have _e : State → _ := s'; clear _e; subst s') | clear_value s')
    | with_reducible refine Touches.foldl (fun _ _ _ => ?_) ?_
    | with_reducible refine Touches.emit (by decide) ?_
    | split


theorem execImageHeaderCheck_touches {m : Nat} {s0 : State} {head sig list : List Byte} {readFailed : Bool} {s : State} (hk : 0x1020000000000000100000000000000000000000000000000000000000000000000000000000000080020042090 ||| m = m)
    (h : Touches m s0 s) : Ends m s0 (execImageHeaderCheck head sig list readFailed s) := by
  refine Ends.step (k := 0x1020000000000000100000000000000000000000000000000000000000000000000000000000000080020042090) (t := s) ?_ hk h
  clear hk h
  unfold execImageHeaderCheck
  have h0 := Touches.refl 0x1020000000000000100000000000000000000000000000000000000000000000000000000000000080020042090 s
  repeat' first
    | with_reducible assumption
    | (extract_lets +onlyGivenNames s'; with_reducible refine Touches.cut (t := s') ?_ ?_; subst s'; rotate_left; clear_value s'; intro hs; rotate_left)
    | (extract_lets +onlyGivenNames s'; with_reducible refine Ends.cut (t := s') ?_ ?_; subst s'; rotate_left; clear_value s'; intro hs; rotate_left)
    | with_reducible refine Ends.next ?_
    | (extract_lets +onlyGivenNames s'; first | (have _e : State → _ := s'; clear _e; subst s') | clear_value s')
    | with_reducible refine State.setLoad_touches (by decide) ?_
    | with_reducible refine State.rejectLoad_touches (by decide) ?_
    | with_reducible refine State.fetchNext_touches (by decide) ?_
    | with_reducible refine Touches.set (by first | decide | assumption | (split <;> decide)) ?_
    | split


theorem execSectionBodyCheck_touches {m : Nat} {s0 : State} {digest : List Byte} {body : SectionBody} {readFailed : Bool} {s : State} (hk : 0x1020000000000000100000000000000000000000000000000000000000000000000000000000000080020042090 ||| m = m)
    (h : Touches m s0 s) : Ends m s0 (execSectionBodyCheck digest body readFailed s) := by
  refine Ends.step (k := 0x1020000000000000100000000000000000000000000000000000000000000000000000000000000080020042090) (t := s) ?_ hk h
  clear hk h
  unfold execSectionBodyCheck
  have h0 := Touches.refl 0x1020000000000000100000000000000000000000000000000000000000000000000000000000000080020042090 s
  repeat' first
    | with_reducible assumption
    | (extract_lets +onlyGivenNames s'; with_reducible refine Touches.cut (t := s') ?_ ?_; subst s'; rotate_left; clear_value s'; intro hs; rotate_left)
    | (extract_lets +onlyGivenNames s'; with_reducible refine Ends.cut (t := s') ?_ ?_; subst s'; rotate_left; clear_value s'; intro hs; rotate_left)
    | with_reducible refine Ends.next ?_
    | (extract_lets +onlyGivenNames s'; first | (have _e : State → _ := s'; clear _e; subst s') | clear_value s')
    | with_reducible refine State.setLoad_touches (by decide) ?_
    | with_reducible refine State.rejectLoad_touches (by decide) ?_
    | with_reducible refine State.loadDone_touches (by decide) ?_
    | with_reducible refine State.fetchNext_touches (by decide) ?_
    | with_reducible refine Touches.set (by first | decide | assumption | (split <;> decide)) ?_
    | split


theorem State.clearSwitch_touches {m : Nat} {s0 : State} {s : State} (hk : 0x74C ||| m = m)
    (h : Touches m s0 s) : Touches m s0 (State.clearSwitch s) := by
  refine Touches.step (k := 0x74C) (t := s) ?_ hk h
  clear hk h
  refine ⟨fun p hp => ?_, fun w => ⟨w.1, w.2.1, rfl, rfl⟩, rfl⟩
  cases p <;> first | rfl | exact absurd hp (by decide) | (intro _; rfl)


theorem State.endCommits_touches {m : Nat} {s0 : State} {s : State} (hk : 0x80000000100000000000000000000000000000000000000000000000000000000000000085000040090 ||| m = m)
    (h : Touches m s0 s) : Touches m s0 (State.endCommits s) := by
  refine Touches.step (k := 0x80000000100000000000000000000000000000000000000000000000000000000000000085000040090) (t := s) ?_ hk h
  clear hk h
  unfold State.endCommits
  have h0 := Touches.refl 0x80000000100000000000000000000000000000000000000000000000000000000000000085000040090 s
  repeat' first
    | with_reducible assumption
    | (extract_lets +onlyGivenNames s'; with_reducible refine Touches.cut (t := s') ?_ ?_; subst s'; rotate_left; clear_value s'; intro hs; rotate_left)
    | (extract_lets +onlyGivenNames s'; first | (have _e : State → _ := s'; clear _e; subst s') | (have _e : CfgBlock := s'; clear _e; subst s') | clear_value s')
    | with_reducible refine Touches.foldl (fun _ _ _ => ?_) ?_
    | with_reducible refine State.setCommit_touches (by first | decide | assumption) ?_
    | with_reducible refine State.raiseCommit_touches (by first | decide | assumption) (by first | decide | assumption) (by decide) ?_
    | with_reducible refine State.refuseCommit_touches (by decide) ?_
    | with_reducible refine Touches.set (by first | decide | assumption | (split <;> decide)) ?_
    | split
    | with_reducible refine Touches.upd_cf (by decide) ?_


theorem State.showTroupes_touches {m : Nat} {s0 : State} {s : State} {im : Image} (hk : 0x38C7800140000000000000000000000000000000000000000000000000000000000000000000000040080 ||| m = m)
    (h : Touches m s0 s) : Touches m s0 (State.showTroupes s im) := by
  refine Touches.step (k := 0x38C7800140000000000000000000000000000000000000000000000000000000000000000000000040080) (t := s) ?_ hk h
  clear hk h
  unfold State.showTroupes
  have h0 := Touches.refl 0x38C7800140000000000000000000000000000000000000000000000000000000000000000000000040080 s
  repeat' first
    | with_reducible assumption
    | (extract_lets +onlyGivenNames s'; with_reducible refine Touches.cut (t := s') ?_ ?_; subst s'; rotate_left; clear_value s'; intro hs; rotate_left)
    | (extract_lets +onlyGivenNames s'; first | (have _e : State → _ := s'; clear _e; subst s') | clear_value s')
    | with_reducible refine Touches.foldl (fun _ _ _ => ?_) ?_
    | with_reducible refine State.setTroupeState_touches (by decide) ?_
    | with_reducible refine State.clearReg_touches (by first | decide | assumption | (clear hs''; revert f''; decide)) (by decide) ?_
    | with_reducible refine State.setEach_touches (by first | decide | assumption | (split <;> decide)) ?_
    | with_reducible refine Touches.set (by first | decide | assumption | (split <;> decide)) ?_
    | split


theorem State.writeImage_touches {m : Nat} {s0 : State} {s : State} {im : Image} (hk : 0x3FFFFFFFFFFFFFFFFFFFFFFFFFFFFFFFFFFFFFFFFFFFFFFFFFFFFFFFFFFFFFFFFFFFFFFFFFFFFFFFFFFFFFFFFFE0096 ||| m = m)
    (h : Touches m s0 s) : Touches m s0 (State.writeImage s im) := by
  refine Touches.step (k := 0x3FFFFFFFFFFFFFFFFFFFFFFFFFFFFFFFFFFFFFFFFFFFFFFFFFFFFFFFFFFFFFFFFFFFFFFFFFFFFFFFFFFFFFFFFFE0096) (t := s) ?_ hk h
  clear hk h
  unfold State.writeImage
  have h0 := Touches.refl 0x3FFFFFFFFFFFFFFFFFFFFFFFFFFFFFFFFFFFFFFFFFFFFFFFFFFFFFFFFFFFFFFFFFFFFFFFFFFFFFFFFFFFFFFFFFE0096 s
  repeat' first
    | with_reducible assumption
    | (extract_lets +onlyGivenNames s'; with_reducible refine Touches.cut (t := s') ?_ ?_; subst s'; rotate_left; clear_value s'; intro hs; rotate_left)
    | (extract_lets +onlyGivenNames s'; first | (have _e : State → _ := s'; clear _e; subst s') | (have _e : CfgBlock := s'; clear _e; subst s') | clear_value s')
    | with_reducible refine Touches.foldl (fun _ _ _ => ?_) ?_
    | with_reducible refine State.placeLanes_touches (by decide) ?_
    | with_reducible refine State.showPlans_touches (by decide) ?_
    | with_reducible refine State.showSeeds_touches (by decide) ?_
    | with_reducible refine State.showStores_touches (by decide) ?_
    | with_reducible refine State.regInit_touches (by decide) ?_
    | with_reducible refine State.showTroupes_touches (by decide) ?_
    | split
    | with_reducible refine Touches.upd_cf (by decide) ?_


theorem State.applyPortDown_touches {m : Nat} {s0 : State} {s : State} {x : Nat} (hk : 0x1020000080000000100000000000000110200000000000000C080E06D000000000000000D110000000002063184 ||| m = m)
    (h : Touches m s0 s) : Touches m s0 (State.applyPortDown s x) := by
  refine Touches.step (k := 0x1020000080000000100000000000000110200000000000000C080E06D000000000000000D110000000002063184) (t := s) ?_ hk h
  clear hk h
  unfold State.applyPortDown
  have h0 := Touches.refl 0x1020000080000000100000000000000110200000000000000C080E06D000000000000000D110000000002063184 s
  repeat' first
    | with_reducible assumption
    | (extract_lets +onlyGivenNames s'; with_reducible refine Touches.cut (t := s') ?_ ?_; subst s'; rotate_left; clear_value s'; intro hs; rotate_left)
    | (extract_lets +onlyGivenNames s'; first | (have _e : State → _ := s'; clear _e; subst s') | clear_value s')
    | with_reducible refine State.portDown_touches (by decide) ?_
    | with_reducible refine Touches.set (by first | decide | assumption | (split <;> decide)) ?_
    | split


theorem execImageApply_touches {m : Nat} {s0 : State} {s : State} (hk : 0x3FFFFFFFFFFFFFFFFFFFFFFFFFFFFFFFFFFFFFFFFFFFFFFFFFFFFFFFFFFFFFFFFFFFFFFFFFFFFFFFFFFFFFFFFFE77DE ||| m = m)
    (h : Touches m s0 s) : Ends m s0 (execImageApply s) := by
  refine Ends.step (k := 0x3FFFFFFFFFFFFFFFFFFFFFFFFFFFFFFFFFFFFFFFFFFFFFFFFFFFFFFFFFFFFFFFFFFFFFFFFFFFFFFFFFFFFFFFFFE77DE) (t := s) ?_ hk h
  clear hk h
  unfold execImageApply
  have h0 := Touches.refl 0x3FFFFFFFFFFFFFFFFFFFFFFFFFFFFFFFFFFFFFFFFFFFFFFFFFFFFFFFFFFFFFFFFFFFFFFFFFFFFFFFFFFFFFFFFFE77DE s
  repeat' first
    | with_reducible assumption
    | (extract_lets +onlyGivenNames s'; with_reducible refine Touches.cut (t := s') ?_ ?_; subst s'; rotate_left; clear_value s'; intro hs; rotate_left)
    | (extract_lets +onlyGivenNames s'; with_reducible refine Ends.cut (t := s') ?_ ?_; subst s'; rotate_left; clear_value s'; intro hs; rotate_left)
    | with_reducible refine Ends.next ?_
    | (extract_lets +onlyGivenNames s'; first | (have _e : State → _ := s'; clear _e; subst s') | (have _e : HostBlock := s'; clear _e; subst s') | clear_value s')
    | with_reducible refine Touches.foldl (fun _ _ _ => ?_) ?_
    | with_reducible refine State.refreshInts_touches (by decide) ?_
    | with_reducible refine State.setTroupeReady_touches (by decide) ?_
    | with_reducible refine State.setReady_touches (by decide) ?_
    | with_reducible refine State.dropLatch_touches (by decide) ?_
    | with_reducible refine State.setMeas3_touches (by decide) ?_
    | with_reducible refine State.measureTroupe_touches (by decide) ?_
    | with_reducible refine State.clearBlocks_touches (by decide) (by decide) (by decide) ?_
    | with_reducible refine State.fence_touches (by decide) ?_
    | with_reducible refine State.resetRings_touches (by decide) ?_
    | with_reducible refine State.vfReset_touches (by decide) ?_
    | with_reducible refine State.clearSwitch_touches (by decide) ?_
    | with_reducible refine State.endCommits_touches (by decide) ?_
    | with_reducible refine State.writeImage_touches (by decide) ?_
    | with_reducible refine State.applyPortDown_touches (by decide) ?_
    | with_reducible refine Touches.set (by first | decide | assumption | (split <;> decide)) ?_
    | split
    | with_reducible refine Touches.upd_hif (by decide) ?_


theorem State.applyStacks_touches {m : Nat} {s0 : State} {s : State} (hk : 0x400000000000000000000000000000000000000000000000000000000200 ||| m = m)
    (h : Touches m s0 s) : Touches m s0 (State.applyStacks s) := by
  refine Touches.step (k := 0x400000000000000000000000000000000000000000000000000000000200) (t := s) ?_ hk h
  clear hk h
  unfold State.applyStacks
  have h0 := Touches.refl 0x400000000000000000000000000000000000000000000000000000000200 s
  repeat' first
    | with_reducible assumption
    | (extract_lets +onlyGivenNames s'; with_reducible refine Touches.cut (t := s') ?_ ?_; subst s'; rotate_left; clear_value s'; intro hs; rotate_left)
    | (extract_lets +onlyGivenNames s'; first | (have _e : State → _ := s'; clear _e; subst s') | clear_value s')
    | with_reducible refine Touches.foldl (fun _ _ _ => ?_) ?_
    | with_reducible refine Touches.modHbm (by decide) (fun _ => rfl) ?_
    | with_reducible refine Touches.set (by first | decide | assumption | (split <;> decide)) ?_
    | split


theorem State.closingCommit_touches {m : Nat} {s0 : State} {s : State} (hk : 0x3FFFFFFFFFFFFFFFFFFFFFFFFFFFFFFFFFFFFFFFFFFFFFFFFFFFFFFFFFFFFFFFFFFFFFFFFFFFFFFFFFFFFFFFFFC60D6 ||| m = m)
    (h : Touches m s0 s) : Touches m s0 (State.closingCommit s) := by
  refine Touches.step (k := 0x3FFFFFFFFFFFFFFFFFFFFFFFFFFFFFFFFFFFFFFFFFFFFFFFFFFFFFFFFFFFFFFFFFFFFFFFFFFFFFFFFFFFFFFFFFC60D6) (t := s) ?_ hk h
  clear hk h
  unfold State.closingCommit
  have h0 := Touches.refl 0x3FFFFFFFFFFFFFFFFFFFFFFFFFFFFFFFFFFFFFFFFFFFFFFFFFFFFFFFFFFFFFFFFFFFFFFFFFFFFFFFFFFFFFFFFFC60D6 s
  repeat' first
    | with_reducible assumption
    | (extract_lets +onlyGivenNames s'; with_reducible refine Touches.cut (t := s') ?_ ?_; subst s'; rotate_left; clear_value s'; intro hs; rotate_left)
    | (extract_lets +onlyGivenNames s'; first | (have _e : State → _ := s'; clear _e; subst s') | (have _e : CfgBlock := s'; clear _e; subst s') | clear_value s')
    | with_reducible refine State.fence_touches (by decide) ?_
    | split
    | with_reducible refine Touches.upd_cf (by decide) ?_


theorem State.carvePools_touches {m : Nat} {s0 : State} {s : State} (hk : 0x630000000000000000000000000000000000 ||| m = m)
    (h : Touches m s0 s) : Touches m s0 (State.carvePools s) := by
  refine Touches.step (k := 0x630000000000000000000000000000000000) (t := s) ?_ hk h
  clear hk h
  unfold State.carvePools
  have h0 := Touches.refl 0x630000000000000000000000000000000000 s
  repeat' first
    | with_reducible assumption
    | (extract_lets +onlyGivenNames s'; with_reducible refine Touches.cut (t := s') ?_ ?_; subst s'; rotate_left; clear_value s'; intro hs; rotate_left)
    | (extract_lets +onlyGivenNames s'; first | (have _e : State → _ := s'; clear _e; subst s') | clear_value s')
    | with_reducible refine Touches.foldl (fun _ _ _ => ?_) ?_
    | with_reducible refine State.refreshPool_touches (by decide) ?_
    | with_reducible refine State.refreshReserved_touches (by decide) ?_
    | with_reducible refine State.refreshRecords_touches (by decide) ?_
    | with_reducible refine Touches.set (by first | decide | assumption | (split <;> decide)) ?_
    | split


theorem execImageApplyEnd_touches {m : Nat} {s0 : State} {s : State} (hk : 0x3FFFFFFFFFFFFFFFFFFFFFFFFFFFFFFFFFFFFFFFFFFFFFFFFFFFFFFFFFFFFFFFFFFFFFFFFFFFFFFFFFFFFFFFFFC6AD6 ||| m = m)
    (h : Touches m s0 s) : Ends m s0 (execImageApplyEnd s) := by
  refine Ends.step (k := 0x3FFFFFFFFFFFFFFFFFFFFFFFFFFFFFFFFFFFFFFFFFFFFFFFFFFFFFFFFFFFFFFFFFFFFFFFFFFFFFFFFFFFFFFFFFC6AD6) (t := s) ?_ hk h
  clear hk h
  unfold execImageApplyEnd
  have h0 := Touches.refl 0x3FFFFFFFFFFFFFFFFFFFFFFFFFFFFFFFFFFFFFFFFFFFFFFFFFFFFFFFFFFFFFFFFFFFFFFFFFFFFFFFFFFFFFFFFFC6AD6 s
  repeat' first
    | with_reducible assumption
    | (extract_lets +onlyGivenNames s'; with_reducible refine Touches.cut (t := s') ?_ ?_; subst s'; rotate_left; clear_value s'; intro hs; rotate_left)
    | (extract_lets +onlyGivenNames s'; with_reducible refine Ends.cut (t := s') ?_ ?_; subst s'; rotate_left; clear_value s'; intro hs; rotate_left)
    | with_reducible refine Ends.next ?_
    | (extract_lets +onlyGivenNames s'; first | (have _e : State → _ := s'; clear _e; subst s') | clear_value s')
    | with_reducible refine Touches.foldl (fun _ _ _ => ?_) ?_
    | with_reducible refine State.setTroupeReady_touches (by decide) ?_
    | with_reducible refine State.setReady_touches (by decide) ?_
    | with_reducible refine State.refreshMod_touches (by decide) ?_
    | with_reducible refine State.refreshRim_touches (by decide) ?_
    | with_reducible refine State.reviewCages_touches (by decide) ?_
    | with_reducible refine State.polReset_touches (by decide) ?_
    | with_reducible refine State.refreshFlows_touches (by decide) ?_
    | with_reducible refine State.refreshSpill_touches (by decide) ?_
    | with_reducible refine State.loadDone_touches (by decide) ?_
    | with_reducible refine State.imageRecord_touches (by decide) ?_
    | with_reducible refine State.setMeas3_touches (by decide) ?_
    | with_reducible refine State.applyStacks_touches (by decide) ?_
    | with_reducible refine State.closingCommit_touches (by decide) ?_
    | with_reducible refine State.carvePools_touches (by decide) ?_
    | with_reducible refine Touches.set (by first | decide | assumption | (split <;> decide)) ?_
    | split


theorem State.flushTroupe_touches {m : Nat} {s0 : State} {s : State} {n : Nat} (hk : 0x10200000800000001000000000000001102000000000000008000E06D0000000000000000000000000002062184 ||| m = m)
    (h : Touches m s0 s) : Touches m s0 (State.flushTroupe s n) := by
  refine Touches.step (k := 0x10200000800000001000000000000001102000000000000008000E06D0000000000000000000000000002062184) (t := s) ?_ hk h
  clear hk h
  unfold State.flushTroupe
  have h0 := Touches.refl 0x10200000800000001000000000000001102000000000000008000E06D0000000000000000000000000002062184 s
  repeat' first
    | with_reducible assumption
    | (extract_lets +onlyGivenNames s'; with_reducible refine Touches.cut (t := s') ?_ ?_; subst s'; rotate_left; clear_value s'; intro hs; rotate_left)
    | (extract_lets +onlyGivenNames s'; first | (have _e : State → _ := s'; clear _e; subst s') | clear_value s')
    | with_reducible refine Touches.foldl (fun _ _ _ => ?_) ?_
    | with_reducible refine State.setQueue_touches (by decide) ?_
    | with_reducible refine State.flushEntry_touches (by decide) ?_
    | split


theorem State.regInitLive_touches {m : Nat} {s0 : State} {s : State} {off : Nat} {w : Word} (hk : 0x3FFFFFFFFFFFFFFFFFFFFFFFFFFFFFFFFFFFFFFFFFFFFFFFFFFFFFFFFFFFFFFFFFFFFFFFFFFFFFFFFFFFFFFFFFE3186 ||| m = m)
    (h : Touches m s0 s) : Touches m s0 (State.regInitLive s off w) := by
  refine Touches.step (k := 0x3FFFFFFFFFFFFFFFFFFFFFFFFFFFFFFFFFFFFFFFFFFFFFFFFFFFFFFFFFFFFFFFFFFFFFFFFFFFFFFFFFFFFFFFFFE3186) (t := s) ?_ hk h
  clear hk h
  unfold State.regInitLive
  have h0 := Touches.refl 0x3FFFFFFFFFFFFFFFFFFFFFFFFFFFFFFFFFFFFFFFFFFFFFFFFFFFFFFFFFFFFFFFFFFFFFFFFFFFFFFFFFFFFFFFFFE3186 s
  repeat' first
    | with_reducible assumption
    | (extract_lets +onlyGivenNames s'; with_reducible refine Touches.cut (t := s') ?_ ?_; subst s'; rotate_left; clear_value s'; intro hs; rotate_left)
    | (extract_lets +onlyGivenNames s'; first | (have _e : State → _ := s'; clear _e; subst s') | subst s')
    | with_reducible refine State.pairRefill_touches (by decide) ?_
    | with_reducible refine State.shaperEnable_touches (by decide) ?_
    | with_reducible refine State.writeFir_touches (by decide) ?_
    | with_reducible refine State.enablePort_touches (by decide) ?_
    | with_reducible refine State.disablePort_touches (by decide) ?_
    | with_reducible refine State.polPair_touches (by decide) ?_
    | with_reducible refine State.writeRingCfg_touches (by decide) ?_
    | with_reducible refine State.regInit_touches (by decide) ?_
    | split


theorem execTroupeImageApply_touches {m : Nat} {s0 : State} {s : State} (hk : 0x3FFFFFFFFFFFFFFFFFFFFFFFFFFFFFFFFFFFFFFFFFFFFFFFFFFFFFFFFFFFFFFFFFFFFFFFFFFFFFFFFFFFFFFFFFE3196 ||| m = m)
    (h : Touches m s0 s) : Ends m s0 (execTroupeImageApply s) := by
  refine Ends.step (k := 0x3FFFFFFFFFFFFFFFFFFFFFFFFFFFFFFFFFFFFFFFFFFFFFFFFFFFFFFFFFFFFFFFFFFFFFFFFFFFFFFFFFFFFFFFFFE3196) (t := s) ?_ hk h
  clear hk h
  unfold execTroupeImageApply
  have h0 := Touches.refl 0x3FFFFFFFFFFFFFFFFFFFFFFFFFFFFFFFFFFFFFFFFFFFFFFFFFFFFFFFFFFFFFFFFFFFFFFFFFFFFFFFFFFFFFFFFFE3196 s
  repeat' first
    | with_reducible assumption
    | (extract_lets +onlyGivenNames s'; with_reducible refine Touches.cut (t := s') ?_ ?_; subst s'; rotate_left; clear_value s'; intro hs; rotate_left)
    | (extract_lets +onlyGivenNames s'; with_reducible refine Ends.cut (t := s') ?_ ?_; subst s'; rotate_left; clear_value s'; intro hs; rotate_left)
    | with_reducible refine Ends.next ?_
    | (extract_lets +onlyGivenNames s'; first | (have _e : State → _ := s'; clear _e; subst s') | (have _e : CfgBlock := s'; clear _e; subst s') | clear_value s')
    | with_reducible refine Touches.foldl (fun _ _ _ => ?_) ?_
    | with_reducible refine State.setTroupeReady_touches (by decide) ?_
    | with_reducible refine State.forceFlows_touches (by decide) ?_
    | with_reducible refine State.flushTroupe_touches (by decide) ?_
    | with_reducible refine State.regInitLive_touches (by decide) ?_
    | with_reducible refine Touches.set (by first | decide | assumption | (split <;> decide)) ?_
    | split
    | with_reducible refine Touches.upd_cf (by decide) ?_


end Sys2Proof.Machine
end

