-- ==== Sys2Proof/Laws/TouchesPackage.lean ====
section
/-!
SUPPORT. What the operations of Package.lean can touch.
-/

namespace Sys2Proof.Machine

set_option linter.all false

theorem State.carry_touches {m : Nat} {s0 s old : State} {f : Fld} (hb : m.testBit f.reg.bit = true)
    (h : Touches m s0 s) : Touches m s0 (State.carry s old f) := Touches.set hb h


theorem State.mainReset_touches {m : Nat} {s0 : State} {s : State} (hk : 0x3FFFFFFFFFFFFFFFFFFFFFFFFFFFFFFFFFFFFFFFFFFFFFFFFFFFFFFFFFFFFFFFFFFFFFFFFFFFFFFFFFFFFFFFFFFFFFF ||| m = m) (h : Touches m s0 s) :
    Touches m s0 (State.mainReset s) := by
  refine Touches.step (k := 0x3FFFFFFFFFFFFFFFFFFFFFFFFFFFFFFFFFFFFFFFFFFFFFFFFFFFFFFFFFFFFFFFFFFFFFFFFFFFFFFFFFFFFFFFFFFFFFF) (t := s) ?_ hk h
  clear hk h
  have h0 : Touches 0x3FFFFFFFFFFFFFFFFFFFFFFFFFFFFFFFFFFFFFFFFFFFFFFFFFFFFFFFFFFFFFFFFFFFFFFFFFFFFFFFFFFFFFFFFFFFFFF s
      { regs := keepRegs mainKept s.regs, bbx := { s.bbx with reading := none }, sec := { s.sec with troupeImages := [], verified := none, fwSlots := [], spdm := tabDel s.sec.spdm 0 }, pkg := { s.pkg with hubUp := false, pcieTraining := false }, drawn := s.drawn, out := s.out, pending := s.pending } :=
    ⟨fun p hp => absurd hp (by rw [show Nat.testBit 0x3FFFFFFFFFFFFFFFFFFFFFFFFFFFFFFFFFFFFFFFFFFFFFFFFFFFFFFFFFFFFFFFFFFFFFFFFFFFFFFFFFFFFFFFFFFFFFF p.bit = true by
        cases p <;> first | rfl | (rename_i b; cases b <;> rfl)]; exact Bool.noConfusion),
      fun w => ⟨rfWf_filter _ w.1, rfl, rfl, rfl⟩, rfl⟩
  unfold State.mainReset
  repeat' first
    | with_reducible assumption
    | (extract_lets +onlyGivenNames s'; with_reducible refine Touches.cut (t := s') ?_ ?_; subst s'; rotate_left; clear_value s'; intro hs; rotate_left)
    | exact h1
    | (extract_lets +onlyGivenNames s'; first | (have _e : State → _ := s'; clear _e; subst s') | (have _e : BlackBox := s'; clear _e; subst s') | (have _e : SecBlock := s'; clear _e; subst s') | (have _e : PkgBlock := s'; clear _e; subst s') | clear_value s')
    | with_reducible refine State.setMeas2_touches (by decide) ?_
    | with_reducible refine State.setMeas3_touches (by decide) ?_
    | with_reducible refine State.carry_touches (by decide) ?_
    | with_reducible refine Touches.set (by first | decide | assumption | (split <;> decide)) ?_
    | with_reducible refine Touches.setReg (by first | decide | assumption | (split <;> decide)) ?_
    | with_reducible refine Touches.emit (by decide) ?_
    | split
    | with_reducible refine Touches.upd_bbx (by decide) ?_
    | with_reducible refine Touches.upd_sec (by decide) ?_
    | with_reducible refine Touches.upd_pkg (by decide) ?_
    | with_reducible refine Touches.upd_drawn (by decide) ?_
    | with_reducible refine Touches.upd_out (by decide) ?_


theorem State.hubStart_touches {m : Nat} {s0 : State} {s : State} {ref25 : Bool} (hk : 0x10200000000000001000100000000004000000000000100000000000000000000000000000000000000208D7A94 ||| m = m)
    (h : Touches m s0 s) : Touches m s0 (State.hubStart s ref25) := by
  refine Touches.step (k := 0x10200000000000001000100000000004000000000000100000000000000000000000000000000000000208D7A94) (t := s) ?_ hk h
  clear hk h
  unfold State.hubStart
  have h0 := Touches.refl 0x10200000000000001000100000000004000000000000100000000000000000000000000000000000000208D7A94 s
  repeat' first
    | with_reducible assumption
    | (extract_lets +onlyGivenNames s'; with_reducible refine Touches.cut (t := s') ?_ ?_; subst s'; rotate_left; clear_value s'; intro hs; rotate_left)
    | (extract_lets +onlyGivenNames s'; first | (have _e : State → _ := s'; clear _e; subst s') | (have _e : CfgBlock := s'; clear _e; subst s') | (have _e : PkgBlock := s'; clear _e; subst s') | clear_value s')
    | with_reducible refine Touches.foldl (fun _ _ _ => ?_) ?_
    | with_reducible refine State.record_touches (by decide) ?_
    | with_reducible refine State.trainLink_touches (by decide) ?_
    | with_reducible refine State.startChains_touches (by decide) ?_
    | with_reducible refine State.trainStack_touches (by decide) ?_
    | with_reducible refine State.hubStartsPace_touches (by decide) ?_
    | with_reducible refine State.startLoad_touches (by decide) ?_
    | with_reducible refine State.modSec_touches (by decide) ?_
    | with_reducible refine Touches.set (by first | decide | assumption | (split <;> decide)) ?_
    | with_reducible refine Touches.emit (by decide) ?_
    | split
    | with_reducible refine Touches.upd_cf (by decide) ?_
    | with_reducible refine Touches.upd_pkg (by decide) ?_


theorem State.countBoot_touches {m : Nat} {s0 : State} {s : State} {cause : Nat} (hk : 0x800000000000 ||| m = m)
    (h : Touches m s0 s) : Touches m s0 (State.countBoot s cause) := by
  refine Touches.step (k := 0x800000000000) (t := s) ?_ hk h
  clear hk h
  unfold State.countBoot
  have h0 := Touches.refl 0x800000000000 s
  repeat' first
    | with_reducible assumption
    | (extract_lets +onlyGivenNames s'; with_reducible refine Touches.cut (t := s') ?_ ?_; subst s'; rotate_left; clear_value s'; intro hs; rotate_left)
    | (extract_lets +onlyGivenNames s'; first | (have _e : State → _ := s'; clear _e; subst s') | clear_value s')
    | with_reducible refine Touches.set (by first | decide | assumption | (split <;> decide)) ?_
    | with_reducible refine Touches.addWrap (by first | decide | assumption | (split <;> decide)) ?_
    | split


theorem State.dieNoRef_touches {m : Nat} {s0 : State} {s : State} {d : Nat} (hk : 0x100000000000000000000000000000000000000000000000000000009010500000000040084 ||| m = m)
    (h : Touches m s0 s) : Touches m s0 (State.dieNoRef s d) := by
  refine Touches.step (k := 0x100000000000000000000000000000000000000000000000000000009010500000000040084) (t := s) ?_ hk h
  clear hk h
  unfold State.dieNoRef
  have h0 := Touches.refl 0x100000000000000000000000000000000000000000000000000000009010500000000040084 s
  repeat' first
    | with_reducible assumption
    | (extract_lets +onlyGivenNames s'; with_reducible refine Touches.cut (t := s') ?_ ?_; subst s'; rotate_left; clear_value s'; intro hs; rotate_left)
    | (extract_lets +onlyGivenNames s'; first | (have _e : State → _ := s'; clear _e; subst s') | clear_value s')
    | with_reducible refine Touches.foldl (fun _ _ _ => ?_) ?_
    | with_reducible refine State.refreshClear_touches (by decide) ?_
    | with_reducible refine State.faultLane_touches (by decide) ?_
    | split


theorem State.monitorTrip_touches {m : Nat} {s0 : State} {s : State} {mon reading : Nat} (hk : 0x18001020000000000000100000000000000000000000200010000000000000000000000000009010500000000052084 ||| m = m)
    (h : Touches m s0 s) : Touches m s0 (State.monitorTrip s mon reading) := by
  refine Touches.step (k := 0x18001020000000000000100000000000000000000000200010000000000000000000000000009010500000000052084) (t := s) ?_ hk h
  clear hk h
  unfold State.monitorTrip
  have h0 := Touches.refl 0x18001020000000000000100000000000000000000000200010000000000000000000000000009010500000000052084 s
  repeat' first
    | with_reducible assumption
    | (extract_lets +onlyGivenNames s'; with_reducible refine Touches.cut (t := s') ?_ ?_; subst s'; rotate_left; clear_value s'; intro hs; rotate_left)
    | (extract_lets +onlyGivenNames s'; first | (have _e : State → _ := s'; clear _e; subst s') | clear_value s')
    | with_reducible refine State.record_touches (by decide) ?_
    | with_reducible refine State.refLost_touches (by decide) ?_
    | with_reducible refine State.modPkg_touches (by decide) ?_
    | with_reducible refine State.dieNoRef_touches (by decide) ?_
    | with_reducible refine Touches.set (by first | decide | assumption | (split <;> decide)) ?_
    | with_reducible refine Touches.addSat (by first | decide | assumption | (split <;> decide)) ?_
    | split


theorem execMonitorTrip_touches {m : Nat} {s0 : State} {monitor : Fin 22} {reading : BitVec 32} {s : State} (hk : 0x18001020000000000000100000000000000000000000200010000000000000000000000000009010500000000052084 ||| m = m)
    (h : Touches m s0 s) : Ends m s0 (execMonitorTrip monitor reading s) := by
  refine Ends.step (k := 0x18001020000000000000100000000000000000000000200010000000000000000000000000009010500000000052084) (t := s) ?_ hk h
  clear hk h
  unfold execMonitorTrip
  have h0 := Touches.refl 0x18001020000000000000100000000000000000000000200010000000000000000000000000009010500000000052084 s
  repeat' first
    | with_reducible assumption
    | (extract_lets +onlyGivenNames s'; with_reducible refine Touches.cut (t := s') ?_ ?_; subst s'; rotate_left; clear_value s'; intro hs; rotate_left)
    | (extract_lets +onlyGivenNames s'; with_reducible refine Ends.cut (t := s') ?_ ?_; subst s'; rotate_left; clear_value s'; intro hs; rotate_left)
    | with_reducible refine Ends.next ?_
    | (extract_lets +onlyGivenNames s'; first | (have _e : State → _ := s'; clear _e; subst s') | clear_value s')
    | with_reducible refine State.monitorTrip_touches (by decide) ?_
    | split


theorem execMonitorClear_touches {m : Nat} {s0 : State} {monitor : Fin 22} {s : State} (hk : 0x8000000000000000000000000000000000000000000000000000000000000000000000000000000000000000000000 ||| m = m)
    (h : Touches m s0 s) : Ends m s0 (execMonitorClear monitor s) := by
  refine Ends.step (k := 0x8000000000000000000000000000000000000000000000000000000000000000000000000000000000000000000000) (t := s) ?_ hk h
  clear hk h
  unfold execMonitorClear
  have h0 := Touches.refl 0x8000000000000000000000000000000000000000000000000000000000000000000000000000000000000000000000 s
  repeat' first
    | with_reducible assumption
    | (extract_lets +onlyGivenNames s'; with_reducible refine Touches.cut (t := s') ?_ ?_; subst s'; rotate_left; clear_value s'; intro hs; rotate_left)
    | (extract_lets +onlyGivenNames s'; with_reducible refine Ends.cut (t := s') ?_ ?_; subst s'; rotate_left; clear_value s'; intro hs; rotate_left)
    | with_reducible refine Ends.next ?_
    | (extract_lets +onlyGivenNames s'; first | (have _e : State → _ := s'; clear _e; subst s') | clear_value s')
    | with_reducible refine Touches.set (by first | decide | assumption | (split <;> decide)) ?_
    | split


theorem State.keeperLost_touches {m : Nat} {s0 : State} {s : State} (hk : 0x3FFFFFFFFFFFFFFFFFFFFFFFFFFFFFFFFFFFFFFFFFFFFFFFFFFFFFFFFFFFFFFFFFFFFFFFFFFFFFFFFFFFFFFFFFFFFFF ||| m = m) (h : Touches m s0 s) :
    Touches m s0 (State.keeperLost s) := by
  refine Touches.step (k := 0x3FFFFFFFFFFFFFFFFFFFFFFFFFFFFFFFFFFFFFFFFFFFFFFFFFFFFFFFFFFFFFFFFFFFFFFFFFFFFFFFFFFFFFFFFFFFFFF) (t := s) ?_ hk h
  clear hk h
  have h0 : Touches 0x3FFFFFFFFFFFFFFFFFFFFFFFFFFFFFFFFFFFFFFFFFFFFFFFFFFFFFFFFFFFFFFFFFFFFFFFFFFFFFFFFFFFFFFFFFFFFFF s
      { regs := keepRegs fuseRegs s.regs, bbx := { pinned := s.bbx.pinned, ring := s.bbx.ring }, sec := { chainLoaded := false, ownerKeys := s.sec.ownerKeys, vendorHash := s.sec.vendorHash, moduleRoot := s.sec.moduleRoot }, pkg := { keep := false, perstN := s.pkg.perstN, sysResetN := s.pkg.sysResetN }, drawn := s.drawn, out := s.out, pending := s.pending } :=
    ⟨fun p hp => absurd hp (by rw [show Nat.testBit 0x3FFFFFFFFFFFFFFFFFFFFFFFFFFFFFFFFFFFFFFFFFFFFFFFFFFFFFFFFFFFFFFFFFFFFFFFFFFFFFFFFFFFFFFFFFFFFFF p.bit = true by
        cases p <;> first | rfl | (rename_i b; cases b <;> rfl)]; exact Bool.noConfusion),
      fun w => ⟨rfWf_filter _ w.1, rfl, rfl, rfl⟩, rfl⟩
  unfold State.keeperLost
  repeat' first
    | with_reducible assumption
    | (extract_lets +onlyGivenNames s'; with_reducible refine Touches.cut (t := s') ?_ ?_; subst s'; rotate_left; clear_value s'; intro hs; rotate_left)
    | (extract_lets +onlyGivenNames s'; first | (have _e : State → _ := s'; clear _e; subst s') | (have _e : BlackBox := s'; clear _e; subst s') | (have _e : SecBlock := s'; clear _e; subst s') | (have _e : PkgBlock := s'; clear _e; subst s') | clear_value s')
    | with_reducible refine State.carry_touches (by decide) ?_
    | split
    | with_reducible refine Touches.upd_bbx (by decide) ?_
    | with_reducible refine Touches.upd_sec (by decide) ?_
    | with_reducible refine Touches.upd_pkg (by decide) ?_
    | with_reducible refine Touches.upd_drawn (by decide) ?_
    | with_reducible refine Touches.upd_out (by decide) ?_


theorem execVddKeepLoss_touches {m : Nat} {s0 : State} {torn : Bool} {s : State} (hk : 0x3FFFFFFFFFFFFFFFFFFFFFFFFFFFFFFFFFFFFFFFFFFFFFFFFFFFFFFFFFFFFFFFFFFFFFFFFFFFFFFFFFFFFFFFFFFFFFF ||| m = m)
    (h : Touches m s0 s) : Ends m s0 (execVddKeepLoss torn s) := by
  refine Ends.step (k := 0x3FFFFFFFFFFFFFFFFFFFFFFFFFFFFFFFFFFFFFFFFFFFFFFFFFFFFFFFFFFFFFFFFFFFFFFFFFFFFFFFFFFFFFFFFFFFFFF) (t := s) ?_ hk h
  clear hk h
  unfold execVddKeepLoss
  have h0 := Touches.refl 0x3FFFFFFFFFFFFFFFFFFFFFFFFFFFFFFFFFFFFFFFFFFFFFFFFFFFFFFFFFFFFFFFFFFFFFFFFFFFFFFFFFFFFFFFFFFFFFF s
  repeat' first
    | with_reducible assumption
    | (extract_lets +onlyGivenNames s'; with_reducible refine Touches.cut (t := s') ?_ ?_; subst s'; rotate_left; clear_value s'; intro hs; rotate_left)
    | (extract_lets +onlyGivenNames s'; with_reducible refine Ends.cut (t := s') ?_ ?_; subst s'; rotate_left; clear_value s'; intro hs; rotate_left)
    | with_reducible refine Ends.next ?_
    | (extract_lets +onlyGivenNames s'; first | (have _e : State → _ := s'; clear _e; subst s') | clear_value s')
    | with_reducible refine State.draw_touches_eq (by assumption) (by decide) ?_
    | with_reducible refine State.draw_touches (by decide) ?_
    | with_reducible refine State.modBbx_touches (by decide) ?_
    | with_reducible refine State.keeperLost_touches (by decide) ?_
    | split


theorem execKeeperPowerOn_touches {m : Nat} {s0 : State} {s : State} (hk : 0x3FFFFFFFFFFFFFFFFFFFFFFFFFFFFFFFFFFFFFFFFFFFFFFFFFFFFFFFFFFFFFFFFFFFFFFFFFFFFFFFFFFFFFFFFFFFFFF ||| m = m)
    (h : Touches m s0 s) : Ends m s0 (execKeeperPowerOn s) := by
  refine Ends.step (k := 0x3FFFFFFFFFFFFFFFFFFFFFFFFFFFFFFFFFFFFFFFFFFFFFFFFFFFFFFFFFFFFFFFFFFFFFFFFFFFFFFFFFFFFFFFFFFFFFF) (t := s) ?_ hk h
  clear hk h
  unfold execKeeperPowerOn
  have h0 := Touches.refl 0x3FFFFFFFFFFFFFFFFFFFFFFFFFFFFFFFFFFFFFFFFFFFFFFFFFFFFFFFFFFFFFFFFFFFFFFFFFFFFFFFFFFFFFFFFFFFFFF s
  repeat' first
    | with_reducible assumption
    | (extract_lets +onlyGivenNames s'; with_reducible refine Touches.cut (t := s') ?_ ?_; subst s'; rotate_left; clear_value s'; intro hs; rotate_left)
    | (extract_lets +onlyGivenNames s'; with_reducible refine Ends.cut (t := s') ?_ ?_; subst s'; rotate_left; clear_value s'; intro hs; rotate_left)
    | with_reducible refine Ends.next ?_
    | (extract_lets +onlyGivenNames s'; first | (have _e : State → _ := s'; clear _e; subst s') | clear_value s')
    | with_reducible refine State.modBbx_touches (by decide) ?_
    | with_reducible refine State.modPkg_touches (by decide) ?_
    | with_reducible refine State.modSec_touches (by decide) ?_
    | with_reducible refine State.derive_touches (by decide) ?_
    | with_reducible refine State.keeperLost_touches (by decide) ?_
    | with_reducible refine Touches.set (by first | decide | assumption | (split <;> decide)) ?_
    | split


theorem execKeeperRunning_touches {m : Nat} {s0 : State} {s : State} (hk : 0x1020000000000000100000000000000000000000000000000000000000000000000000000000006000000042080 ||| m = m)
    (h : Touches m s0 s) : Ends m s0 (execKeeperRunning s) := by
  refine Ends.step (k := 0x1020000000000000100000000000000000000000000000000000000000000000000000000000006000000042080) (t := s) ?_ hk h
  clear hk h
  unfold execKeeperRunning
  have h0 := Touches.refl 0x1020000000000000100000000000000000000000000000000000000000000000000000000000006000000042080 s
  repeat' first
    | with_reducible assumption
    | (extract_lets +onlyGivenNames s'; with_reducible refine Touches.cut (t := s') ?_ ?_; subst s'; rotate_left; clear_value s'; intro hs; rotate_left)
    | (extract_lets +onlyGivenNames s'; with_reducible refine Ends.cut (t := s') ?_ ?_; subst s'; rotate_left; clear_value s'; intro hs; rotate_left)
    | with_reducible refine Ends.next ?_
    | (extract_lets +onlyGivenNames s'; first | (have _e : State → _ := s'; clear _e; subst s') | clear_value s')
    | with_reducible refine State.setReady_touches (by decide) ?_
    | split


theorem execMainPowerOn_touches {m : Nat} {s0 : State} {ref25 testEn : Bool} {s : State} (hk : 0x3FFFFFFFFFFFFFFFFFFFFFFFFFFFFFFFFFFFFFFFFFFFFFFFFFFFFFFFFFFFFFFFFFFFFFFFFFFFFFFFFFFFFFFFFFFFFFF ||| m = m)
    (h : Touches m s0 s) : Ends m s0 (execMainPowerOn ref25 testEn s) := by
  refine Ends.step (k := 0x3FFFFFFFFFFFFFFFFFFFFFFFFFFFFFFFFFFFFFFFFFFFFFFFFFFFFFFFFFFFFFFFFFFFFFFFFFFFFFFFFFFFFFFFFFFFFFF) (t := s) ?_ hk h
  clear hk h
  unfold execMainPowerOn
  have h0 := Touches.refl 0x3FFFFFFFFFFFFFFFFFFFFFFFFFFFFFFFFFFFFFFFFFFFFFFFFFFFFFFFFFFFFFFFFFFFFFFFFFFFFFFFFFFFFFFFFFFFFFF s
  repeat' first
    | with_reducible assumption
    | (extract_lets +onlyGivenNames s'; with_reducible refine Touches.cut (t := s') ?_ ?_; subst s'; rotate_left; clear_value s'; intro hs; rotate_left)
    | (extract_lets +onlyGivenNames s'; with_reducible refine Ends.cut (t := s') ?_ ?_; subst s'; rotate_left; clear_value s'; intro hs; rotate_left)
    | with_reducible refine Ends.next ?_
    | (extract_lets +onlyGivenNames s'; first | (have _e : State → _ := s'; clear _e; subst s') | clear_value s')
    | with_reducible refine State.modPkg_touches (by decide) ?_
    | with_reducible refine State.mainReset_touches (by decide) ?_
    | with_reducible refine State.hubStart_touches (by decide) ?_
    | with_reducible refine State.countBoot_touches (by decide) ?_
    | with_reducible refine State.monitorTrip_touches (by decide) ?_
    | with_reducible refine Touches.emit (by decide) ?_
    | split


theorem execMainPgFall_touches {m : Nat} {s0 : State} {s : State} (hk : 0x3FFFFFFFFFFFFFFFFFFFFFFFFFFFFFFFFFFFFFFFFFFFFFFFFFFFFFFFFFFFFFFFFFFFFFFFFFFFFFFFFFFFFFFFFFFFFFF ||| m = m)
    (h : Touches m s0 s) : Ends m s0 (execMainPgFall s) := by
  refine Ends.step (k := 0x3FFFFFFFFFFFFFFFFFFFFFFFFFFFFFFFFFFFFFFFFFFFFFFFFFFFFFFFFFFFFFFFFFFFFFFFFFFFFFFFFFFFFFFFFFFFFFF) (t := s) ?_ hk h
  clear hk h
  unfold execMainPgFall
  have h0 := Touches.refl 0x3FFFFFFFFFFFFFFFFFFFFFFFFFFFFFFFFFFFFFFFFFFFFFFFFFFFFFFFFFFFFFFFFFFFFFFFFFFFFFFFFFFFFFFFFFFFFFF s
  repeat' first
    | with_reducible assumption
    | (extract_lets +onlyGivenNames s'; with_reducible refine Touches.cut (t := s') ?_ ?_; subst s'; rotate_left; clear_value s'; intro hs; rotate_left)
    | (extract_lets +onlyGivenNames s'; with_reducible refine Ends.cut (t := s') ?_ ?_; subst s'; rotate_left; clear_value s'; intro hs; rotate_left)
    | with_reducible refine Ends.next ?_
    | (extract_lets +onlyGivenNames s'; first | (have _e : State → _ := s'; clear _e; subst s') | clear_value s')
    | with_reducible refine State.modPkg_touches (by decide) ?_
    | with_reducible refine State.mainReset_touches (by decide) ?_
    | split


theorem execSysReset_touches {m : Nat} {s0 : State} {lowTicks : Nat} {s : State} (hk : 0x3FFFFFFFFFFFFFFFFFFFFFFFFFFFFFFFFFFFFFFFFFFFFFFFFFFFFFFFFFFFFFFFFFFFFFFFFFFFFFFFFFFFFFFFFFFFFFF ||| m = m)
    (h : Touches m s0 s) : Ends m s0 (execSysReset lowTicks s) := by
  refine Ends.step (k := 0x3FFFFFFFFFFFFFFFFFFFFFFFFFFFFFFFFFFFFFFFFFFFFFFFFFFFFFFFFFFFFFFFFFFFFFFFFFFFFFFFFFFFFFFFFFFFFFF) (t := s) ?_ hk h
  clear hk h
  unfold execSysReset
  have h0 := Touches.refl 0x3FFFFFFFFFFFFFFFFFFFFFFFFFFFFFFFFFFFFFFFFFFFFFFFFFFFFFFFFFFFFFFFFFFFFFFFFFFFFFFFFFFFFFFFFFFFFFF s
  repeat' first
    | with_reducible assumption
    | (extract_lets +onlyGivenNames s'; with_reducible refine Touches.cut (t := s') ?_ ?_; subst s'; rotate_left; clear_value s'; intro hs; rotate_left)
    | (extract_lets +onlyGivenNames s'; with_reducible refine Ends.cut (t := s') ?_ ?_; subst s'; rotate_left; clear_value s'; intro hs; rotate_left)
    | with_reducible refine Ends.next ?_
    | (extract_lets +onlyGivenNames s'; first | (have _e : State → _ := s'; clear _e; subst s') | clear_value s')
    | with_reducible refine State.modPkg_touches (by decide) ?_
    | with_reducible refine State.mainReset_touches (by decide) ?_
    | with_reducible refine State.countBoot_touches (by decide) ?_
    | split


theorem execSysResetNRelease_touches {m : Nat} {s0 : State} {ref25 : Bool} {s : State} (hk : 0x10200000000000001000100000000004000000000000100000000000000000000000000000000000000208D7A94 ||| m = m)
    (h : Touches m s0 s) : Ends m s0 (execSysResetNRelease ref25 s) := by
  refine Ends.step (k := 0x10200000000000001000100000000004000000000000100000000000000000000000000000000000000208D7A94) (t := s) ?_ hk h
  clear hk h
  unfold execSysResetNRelease
  have h0 := Touches.refl 0x10200000000000001000100000000004000000000000100000000000000000000000000000000000000208D7A94 s
  repeat' first
    | with_reducible assumption
    | (extract_lets +onlyGivenNames s'; with_reducible refine Touches.cut (t := s') ?_ ?_; subst s'; rotate_left; clear_value s'; intro hs; rotate_left)
    | (extract_lets +onlyGivenNames s'; with_reducible refine Ends.cut (t := s') ?_ ?_; subst s'; rotate_left; clear_value s'; intro hs; rotate_left)
    | with_reducible refine Ends.next ?_
    | (extract_lets +onlyGivenNames s'; first | (have _e : State → _ := s'; clear _e; subst s') | clear_value s')
    | with_reducible refine State.modPkg_touches (by decide) ?_
    | with_reducible refine State.hubStart_touches (by decide) ?_
    | split


theorem execResetCtrlWrite_touches {m : Nat} {s0 : State} {fn : FnNo} {value : Word} {s : State} (hk : 0x3FFFFFFFFFFFFFFFFFFFFFFFFFFFFFFFFFFFFFFFFFFFFFFFFFFFFFFFFFFFFFFFFFFFFFFFFFFFFFFFFFFFFFFFFFFFFFF ||| m = m)
    (h : Touches m s0 s) : Ends m s0 (execResetCtrlWrite fn value s) := by
  refine Ends.step (k := 0x3FFFFFFFFFFFFFFFFFFFFFFFFFFFFFFFFFFFFFFFFFFFFFFFFFFFFFFFFFFFFFFFFFFFFFFFFFFFFFFFFFFFFFFFFFFFFFF) (t := s) ?_ hk h
  clear hk h
  unfold execResetCtrlWrite
  have h0 := Touches.refl 0x3FFFFFFFFFFFFFFFFFFFFFFFFFFFFFFFFFFFFFFFFFFFFFFFFFFFFFFFFFFFFFFFFFFFFFFFFFFFFFFFFFFFFFFFFFFFFFF s
  repeat' first
    | with_reducible assumption
    | (extract_lets +onlyGivenNames s'; with_reducible refine Touches.cut (t := s') ?_ ?_; subst s'; rotate_left; clear_value s'; intro hs; rotate_left)
    | (extract_lets +onlyGivenNames s'; with_reducible refine Ends.cut (t := s') ?_ ?_; subst s'; rotate_left; clear_value s'; intro hs; rotate_left)
    | with_reducible refine Ends.next ?_
    | (extract_lets +onlyGivenNames s'; first | (have _e : State → _ := s'; clear _e; subst s') | clear_value s')
    | with_reducible refine State.mainReset_touches (by decide) ?_
    | with_reducible refine State.hubStart_touches (by decide) ?_
    | with_reducible refine State.countBoot_touches (by decide) ?_
    | split


theorem State.jtag_touches {m : Nat} {s0 : State} {s : State} {code : Nat} (hk : 0x10000 ||| m = m)
    (h : Touches m s0 s) : Touches m s0 (State.jtag s code) := by
  refine Touches.step (k := 0x10000) (t := s) ?_ hk h
  clear hk h
  unfold State.jtag
  have h0 := Touches.refl 0x10000 s
  repeat' first
    | with_reducible assumption
    | (extract_lets +onlyGivenNames s'; with_reducible refine Touches.cut (t := s') ?_ ?_; subst s'; rotate_left; clear_value s'; intro hs; rotate_left)
    | (extract_lets +onlyGivenNames s'; first | (have _e : State → _ := s'; clear _e; subst s') | clear_value s')
    | with_reducible refine State.modPkg_touches (by decide) ?_
    | split


theorem execExtest_touches {m : Nat} {s0 : State} {s : State} (hk : 0x10000 ||| m = m)
    (h : Touches m s0 s) : Ends m s0 (execExtest s) := by
  refine Ends.step (k := 0x10000) (t := s) ?_ hk h
  clear hk h
  unfold execExtest
  have h0 := Touches.refl 0x10000 s
  repeat' first
    | with_reducible assumption
    | (extract_lets +onlyGivenNames s'; with_reducible refine Touches.cut (t := s') ?_ ?_; subst s'; rotate_left; clear_value s'; intro hs; rotate_left)
    | (extract_lets +onlyGivenNames s'; with_reducible refine Ends.cut (t := s') ?_ ?_; subst s'; rotate_left; clear_value s'; intro hs; rotate_left)
    | with_reducible refine Ends.next ?_
    | (extract_lets +onlyGivenNames s'; first | (have _e : State → _ := s'; clear _e; subst s') | clear_value s')
    | with_reducible refine State.jtag_touches (by decide) ?_
    | split


theorem execIdcode_touches {m : Nat} {s0 : State} {s : State} (hk : 0x50000 ||| m = m)
    (h : Touches m s0 s) : Ends m s0 (execIdcode s) := by
  refine Ends.step (k := 0x50000) (t := s) ?_ hk h
  clear hk h
  unfold execIdcode
  have h0 := Touches.refl 0x50000 s
  repeat' first
    | with_reducible assumption
    | (extract_lets +onlyGivenNames s'; with_reducible refine Touches.cut (t := s') ?_ ?_; subst s'; rotate_left; clear_value s'; intro hs; rotate_left)
    | (extract_lets +onlyGivenNames s'; with_reducible refine Ends.cut (t := s') ?_ ?_; subst s'; rotate_left; clear_value s'; intro hs; rotate_left)
    | with_reducible refine Ends.next ?_
    | (extract_lets +onlyGivenNames s'; first | (have _e : State → _ := s'; clear _e; subst s') | clear_value s')
    | with_reducible refine State.jtag_touches (by decide) ?_
    | with_reducible refine Touches.emit (by decide) ?_
    | split


theorem execSamplePreload_touches {m : Nat} {s0 : State} {s : State} (hk : 0x10000 ||| m = m)
    (h : Touches m s0 s) : Ends m s0 (execSamplePreload s) := by
  refine Ends.step (k := 0x10000) (t := s) ?_ hk h
  clear hk h
  unfold execSamplePreload
  have h0 := Touches.refl 0x10000 s
  repeat' first
    | with_reducible assumption
    | (extract_lets +onlyGivenNames s'; with_reducible refine Touches.cut (t := s') ?_ ?_; subst s'; rotate_left; clear_value s'; intro hs; rotate_left)
    | (extract_lets +onlyGivenNames s'; with_reducible refine Ends.cut (t := s') ?_ ?_; subst s'; rotate_left; clear_value s'; intro hs; rotate_left)
    | with_reducible refine Ends.next ?_
    | (extract_lets +onlyGivenNames s'; first | (have _e : State → _ := s'; clear _e; subst s') | clear_value s')
    | with_reducible refine State.jtag_touches (by decide) ?_
    | split


theorem execBypass_touches {m : Nat} {s0 : State} {code : Fin 256} {s : State} (hk : 0x10000 ||| m = m)
    (h : Touches m s0 s) : Ends m s0 (execBypass code s) := by
  refine Ends.step (k := 0x10000) (t := s) ?_ hk h
  clear hk h
  unfold execBypass
  have h0 := Touches.refl 0x10000 s
  repeat' first
    | with_reducible assumption
    | (extract_lets +onlyGivenNames s'; with_reducible refine Touches.cut (t := s') ?_ ?_; subst s'; rotate_left; clear_value s'; intro hs; rotate_left)
    | (extract_lets +onlyGivenNames s'; with_reducible refine Ends.cut (t := s') ?_ ?_; subst s'; rotate_left; clear_value s'; intro hs; rotate_left)
    | with_reducible refine Ends.next ?_
    | (extract_lets +onlyGivenNames s'; first | (have _e : State → _ := s'; clear _e; subst s') | clear_value s')
    | with_reducible refine State.jtag_touches (by decide) ?_
    | split


theorem State.bbxCommand_touches {m : Nat} {s0 : State} {s : State} {cmd : Nat} {args : List Byte} (hk : 0x20000 ||| m = m)
    (h : Touches m s0 s) : Touches m s0 (State.bbxCommand s cmd args).2.2 := by
  refine Touches.step (k := 0x20000) (t := s) ?_ hk h
  clear hk h
  unfold State.bbxCommand
  have h0 := Touches.refl 0x20000 s
  repeat' first
    | with_reducible assumption
    | (extract_lets +onlyGivenNames s'; with_reducible refine Touches.cut (t := s') ?_ ?_; subst s'; rotate_left; clear_value s'; intro hs; rotate_left)
    | (extract_lets +onlyGivenNames s'; first | (have _e : State → _ := s'; clear _e; subst s') | clear_value s')
    | with_reducible refine State.keeperSeal_touches_eq (by assumption) (by decide) ?_
    | with_reducible refine State.keeperSeal_touches (by decide) ?_
    | split

theorem State.bbxCommand_touches_eq {m : Nat} {s0 t₁ : State} {s : State} {cmd : Nat} {args : List Byte} {a₁ : Nat} {b₁ : List Byte} (e₁ : State.bbxCommand s cmd args = (a₁, b₁, t₁))
    (hk : 0x20000 ||| m = m) (h : Touches m s0 s) : Touches m s0 t₁ := Touches.thd e₁ (State.bbxCommand_touches hk h)


theorem execBbxData_touches {m : Nat} {s0 : State} {bytes : List Byte} {s : State} (hk : 0x70000 ||| m = m)
    (h : Touches m s0 s) : Ends m s0 (execBbxData bytes s) := by
  refine Ends.step (k := 0x70000) (t := s) ?_ hk h
  clear hk h
  unfold execBbxData
  have h0 := Touches.refl 0x70000 s
  repeat' first
    | with_reducible assumption
    | (extract_lets +onlyGivenNames s'; with_reducible refine Touches.cut (t := s') ?_ ?_; subst s'; rotate_left; clear_value s'; intro hs; rotate_left)
    | (extract_lets +onlyGivenNames s'; with_reducible refine Ends.cut (t := s') ?_ ?_; subst s'; rotate_left; clear_value s'; intro hs; rotate_left)
    | with_reducible refine Ends.next ?_
    | (extract_lets +onlyGivenNames s'; first | (have _e : State → _ := s'; clear _e; subst s') | clear_value s')
    | with_reducible refine State.modPkg_touches (by decide) ?_
    | with_reducible refine State.jtag_touches (by decide) ?_
    | with_reducible refine State.bbxCommand_touches_eq (by assumption) (by decide) ?_
    | with_reducible refine State.bbxCommand_touches (by decide) ?_
    | with_reducible refine Touches.emit (by decide) ?_
    | split


end Sys2Proof.Machine
end

