-- ==== Sys2Proof/Laws/TouchesBus.lean ====
section
/-!
SUPPORT. What the operations of Bus.lean can touch.
-/

namespace Sys2Proof.Machine

set_option linter.all false

theorem State.badAccess_touches {m : Nat} {s0 : State} {s : State} {fn off kind : Nat} {write : Bool} (hk : 0x80000007100000000000000000000000000000000000000000000000000000000000000000000040080 ||| m = m)
    (h : Touches m s0 s) : Touches m s0 (State.badAccess s fn off kind write) := by
  refine Touches.step (k := 0x80000007100000000000000000000000000000000000000000000000000000000000000000000040080) (t := s) ?_ hk h
  clear hk h
  unfold State.badAccess
  have h0 := Touches.refl 0x80000007100000000000000000000000000000000000000000000000000000000000000000000040080 s
  repeat' first
    | with_reducible assumption
    | (extract_lets +onlyGivenNames s'; with_reducible refine Touches.cut (t := s') ?_ ?_; subst s'; rotate_left; clear_value s'; intro hs; rotate_left)
    | (extract_lets +onlyGivenNames s'; first | (have _e : State → _ := s'; clear _e; subst s') | clear_value s')
    | with_reducible refine Touches.set (by first | decide | assumption | (split <;> decide)) ?_
    | with_reducible refine Touches.addSat (by first | decide | assumption | (split <;> decide)) ?_
    | with_reducible refine Touches.raise (by first | decide | assumption | (split <;> decide)) (by decide) ?_
    | with_reducible refine Touches.raiseWin (by first | decide | assumption | (split <;> decide)) (by decide) ?_
    | split


theorem State.both_touches {m : Nat} {s0 s : State} {a b : State → Answer} (ha : ∀ s, Touches m s0 s → Ends m s0 (a s))
    (hb : ∀ s, Touches m s0 s → Ends m s0 (b s)) (h : Touches m s0 s) : Touches m s0 (State.both s a b) :=
  answered_touches (hb _ (answered_touches (ha _ h)))


theorem State.writeCmdCtrl_touches {m : Nat} {s0 : State} {s : State} {b : Fin 32} {v : Word} (hk : 0x3FFFFFFFFFFFFFFFFFFFFFFFFFFFFFFFFFFFFFFFFFFFFFFFFFFFFFFFFFFFFFFFFFFFFFFFFFFFFFFFFFFFFFFFFFE00D6 ||| m = m)
    (h : Touches m s0 s) : Touches m s0 (State.writeCmdCtrl s b v) := by
  refine Touches.step (k := 0x3FFFFFFFFFFFFFFFFFFFFFFFFFFFFFFFFFFFFFFFFFFFFFFFFFFFFFFFFFFFFFFFFFFFFFFFFFFFFFFFFFFFFFFFFFE00D6) (t := s) ?_ hk h
  clear hk h
  unfold State.writeCmdCtrl
  have h0 := Touches.refl 0x3FFFFFFFFFFFFFFFFFFFFFFFFFFFFFFFFFFFFFFFFFFFFFFFFFFFFFFFFFFFFFFFFFFFFFFFFFFFFFFFFFFFFFFFFFE00D6 s
  repeat' first
    | with_reducible assumption
    | (extract_lets +onlyGivenNames s'; with_reducible refine Touches.cut (t := s') ?_ ?_; subst s'; rotate_left; clear_value s'; intro hs; rotate_left)
    | (extract_lets +onlyGivenNames s'; first | (have _e : State → _ := s'; clear _e; subst s') | clear_value s')
    | with_reducible refine Touches.foldl_mem (fun s'' f'' hf'' hs'' => ?_) ?_
    | with_reducible refine Touches.foldl (fun _ _ _ => ?_) ?_
    | with_reducible refine answered_touches ?_
    | with_reducible refine State.cmdGo_touches (by decide) ?_
    | with_reducible refine execLookup_touches (by decide) ?_
    | with_reducible refine execRead_touches (by decide) ?_
    | with_reducible refine execInsert_touches (by decide) ?_
    | with_reducible refine execUpdate_touches (by decide) ?_
    | with_reducible refine execUpsert_touches (by decide) ?_
    | with_reducible refine execDelete_touches (by decide) ?_
    | with_reducible refine execWriteAt_touches (by decide) ?_
    | with_reducible refine execClearAt_touches (by decide) ?_
    | with_reducible refine execMove_touches (by decide) ?_
    | with_reducible refine execLpmAdd_touches (by decide) ?_
    | with_reducible refine execLpmDelete_touches (by decide) ?_
    | with_reducible refine execUnpin_touches (by decide) ?_
    | with_reducible refine execClearTable_touches (by decide) ?_
    | with_reducible refine answered_touches ?_
    | with_reducible refine Touches.set (by first | decide | (clear hs''; revert f''; decide)) ?_
    | split


theorem State.writePool_touches {m : Nat} {s0 : State} {s : State} {i : Nat} {v : Word} (hk : 0x18000000000000000000000000000000000000000000000000000000000000000000000000000000000 ||| m = m)
    (h : Touches m s0 s) : Touches m s0 (State.writePool s i v) := by
  refine Touches.step (k := 0x18000000000000000000000000000000000000000000000000000000000000000000000000000000000) (t := s) ?_ hk h
  clear hk h
  unfold State.writePool
  have h0 := Touches.refl 0x18000000000000000000000000000000000000000000000000000000000000000000000000000000000 s
  repeat' first
    | with_reducible assumption
    | (extract_lets +onlyGivenNames s'; with_reducible refine Touches.cut (t := s') ?_ ?_; subst s'; rotate_left; clear_value s'; intro hs; rotate_left)
    | (extract_lets +onlyGivenNames s'; first | (have _e : State → _ := s'; clear _e; subst s') | clear_value s')
    | with_reducible refine Touches.set (by first | decide | assumption | (split <;> decide)) ?_
    | split


theorem State.freeBelow_touches {m : Nat} {s0 : State} {s : State} {n : Nat} (hk : 0x20000 ||| m = m)
    (h : Touches m s0 s) : Touches m s0 (State.freeBelow s n).2 := by
  refine Touches.step (k := 0x20000) (t := s) ?_ hk h
  clear hk h
  unfold State.freeBelow
  have h0 := Touches.refl 0x20000 s
  repeat' first
    | with_reducible assumption
    | (extract_lets +onlyGivenNames s'; with_reducible refine Touches.cut (t := s') ?_ ?_; subst s'; rotate_left; clear_value s'; intro hs; rotate_left)
    | (extract_lets +onlyGivenNames s'; first | (have _e : State → _ := s'; clear _e; subst s') | clear_value s')
    | with_reducible refine State.draw_touches_eq (by assumption) (by decide) ?_
    | with_reducible refine State.draw_touches (by decide) ?_
    | split

theorem State.freeBelow_touches_eq {m : Nat} {s0 t₁ : State} {s : State} {n : Nat} {a₁ : Nat} (e₁ : State.freeBelow s n = (a₁, t₁))
    (hk : 0x20000 ||| m = m) (h : Touches m s0 s) : Touches m s0 t₁ := Touches.snd e₁ (State.freeBelow_touches hk h)


/-- As `Touches`, of an operation that may decline. -/
def TouchesSome (m : Nat) (s0 : State) (o : Option State) : Prop := ∀ t, o = some t → Touches m s0 t

theorem TouchesSome.none {m : Nat} {s0 : State} : TouchesSome m s0 none := fun _ e => by cases e
theorem TouchesSome.some {m : Nat} {s0 t : State} (h : Touches m s0 t) : TouchesSome m s0 (some t) :=
  fun _ e => by cases e; exact h

theorem State.rowWrite_touches {m : Nat} {s0 t₁ s : State} {fn : FnNo} {t : Target} {l : Lanes} {v : Word}
    (e : State.rowWrite s fn t l v = some t₁) (hk : 0x3FFFFFFFFFFFFFFFFFFFFFFFFFFFFFFFFFFFFFFFFFFFFFFFFFFFFFFFFFFFFFFFFFFFFFFFFFFFFFFFFFFFFFFFFFFFFFF ||| m = m) (h : Touches m s0 s) : Touches m s0 t₁ := by
  refine Touches.step (k := 0x3FFFFFFFFFFFFFFFFFFFFFFFFFFFFFFFFFFFFFFFFFFFFFFFFFFFFFFFFFFFFFFFFFFFFFFFFFFFFFFFFFFFFFFFFFFFFFF) (t := s) ?_ hk h
  clear hk h
  suffices key : TouchesSome 0x3FFFFFFFFFFFFFFFFFFFFFFFFFFFFFFFFFFFFFFFFFFFFFFFFFFFFFFFFFFFFFFFFFFFFFFFFFFFFFFFFFFFFFFFFFFFFFF s (State.rowWrite s fn t l v) from key _ e
  clear e
  unfold State.rowWrite
  have h0 := Touches.refl 0x3FFFFFFFFFFFFFFFFFFFFFFFFFFFFFFFFFFFFFFFFFFFFFFFFFFFFFFFFFFFFFFFFFFFFFFFFFFFFFFFFFFFFFFFFFFFFFF s
  repeat' first
    | with_reducible exact TouchesSome.none
    | with_reducible refine Ends.next ?_
    | with_reducible refine TouchesSome.some ?_
    | (with_reducible refine State.winWrite_touches (all_regs (by decide) _) (by decide) ?_)
    | with_reducible assumption
    | (extract_lets +onlyGivenNames s'; with_reducible refine Touches.cut (t := s') ?_ ?_; subst s'; rotate_left; clear_value s'; intro hs; rotate_left)
    | (extract_lets +onlyGivenNames s'; first | (have _e : State → _ := s'; clear _e; subst s') | clear_value s')
    | with_reducible refine answered_touches ?_
    | with_reducible refine State.winWrite_touches (by first | decide | assumption) (by decide) ?_
    | with_reducible refine State.winGo_touches (by decide) ?_
    | with_reducible refine execRetrain_touches (by decide) ?_
    | with_reducible refine execSlip_touches (by decide) ?_
    | with_reducible refine State.writeFir_touches (by decide) ?_
    | with_reducible refine execRxCfgWrite_touches (by decide) ?_
    | with_reducible refine execModCmd_touches (by decide) ?_
    | with_reducible refine execPortEnable_touches (by decide) ?_
    | with_reducible refine execPortDisable_touches (by decide) ?_
    | with_reducible refine execCmdWriteWhileBusy_touches (by decide) ?_
    | with_reducible refine execTableSeedWrite_touches (by decide) ?_
    | with_reducible refine execPromenadeGo_touches (by decide) ?_
    | with_reducible refine execPromenadeAbort_touches (by decide) ?_
    | with_reducible refine execHistSnapshot_touches (by decide) ?_
    | with_reducible refine execFlowletFlush_touches (by decide) ?_
    | with_reducible refine execMcGroupWrite_touches (by decide) ?_
    | with_reducible refine execMcSync_touches (by decide) ?_
    | with_reducible refine execLeaseRequest_touches (by decide) ?_
    | with_reducible refine execLeaseFree_touches (by decide) ?_
    | with_reducible refine execQuery_touches (by decide) ?_
    | with_reducible refine execHbmRetrain_touches (by decide) ?_
    | with_reducible refine State.captureRelease_touches (by decide) ?_
    | with_reducible refine execCaptureCopy_touches (by decide) ?_
    | with_reducible refine State.servoSample_touches (by decide) ?_
    | with_reducible refine execServoDisable_touches (by decide) ?_
    | with_reducible refine execCadenceSetWrite_touches (by decide) ?_
    | with_reducible refine State.writePhaseA_touches (by decide) ?_
    | with_reducible refine execAdvInject_touches (by decide) ?_
    | with_reducible refine execSealedReadout_touches (by decide) ?_
    | with_reducible refine execHostNote_touches (by decide) ?_
    | with_reducible refine execProvision_touches (by decide) ?_
    | with_reducible refine execRevoke_touches (by decide) ?_
    | with_reducible refine execCommit_touches (by decide) ?_
    | with_reducible refine execWinCommit_touches (by decide) ?_
    | with_reducible refine execRestart_touches (by decide) ?_
    | with_reducible refine execResign_touches (by decide) ?_
    | with_reducible refine execRestartBoth_touches (by decide) ?_
    | with_reducible refine execMailboxDoorbell_touches (by decide) ?_
    | with_reducible refine execFwLoad_touches (by decide) ?_
    | with_reducible refine execCommitSvn_touches (by decide) ?_
    | with_reducible refine State.writeRingCfg_touches (by decide) ?_
    | with_reducible refine State.ringBell_touches (by decide) ?_
    | with_reducible refine State.poolBell_touches (by decide) ?_
    | with_reducible refine execMsixAllocWrite_touches (by decide) ?_
    | with_reducible refine execIntRearm_touches (by decide) ?_
    | with_reducible refine execRemove_touches (by decide) ?_
    | with_reducible refine execRestore_touches (by decide) ?_
    | with_reducible refine State.writeLoadCtrl_touches (by decide) ?_
    | with_reducible refine execResetCtrlWrite_touches (by decide) ?_
    | with_reducible refine answered_touches ?_
    | with_reducible refine State.both_touches (fun _ _ => ?_) (fun _ _ => ?_) ?_
    | with_reducible refine State.writeCmdCtrl_touches (by decide) ?_
    | with_reducible refine State.writePool_touches (by decide) ?_
    | with_reducible refine State.freeBelow_touches_eq (by assumption) (by decide) ?_
    | with_reducible refine State.freeBelow_touches (by decide) ?_
    | with_reducible refine Touches.set (by first | decide | assumption | (split <;> decide)) ?_
    | with_reducible refine Touches.setReg (by first | decide | assumption | (split <;> decide)) ?_
    | split


theorem State.pairedFields_touches {m : Nat} {s0 : State} {s : State} {fn : Nat} {t : Target} {off : Nat} {l : Lanes} {w : Word} (hk : 0x3FFFFFFFFFFFFFFFFFFFFFFFFFFFFFFFFFFFFFFFFFFFFFFFFFFFFFFFFFFFFFFFFFFFFFFFFFFFFFFFFFFFFFFFFFC20B4 ||| m = m)
    (h : Touches m s0 s) : Touches m s0 (State.pairedFields s fn t off l w) := by
  refine Touches.step (k := 0x3FFFFFFFFFFFFFFFFFFFFFFFFFFFFFFFFFFFFFFFFFFFFFFFFFFFFFFFFFFFFFFFFFFFFFFFFFFFFFFFFFFFFFFFFFC20B4) (t := s) ?_ hk h
  clear hk h
  unfold State.pairedFields
  have h0 := Touches.refl 0x3FFFFFFFFFFFFFFFFFFFFFFFFFFFFFFFFFFFFFFFFFFFFFFFFFFFFFFFFFFFFFFFFFFFFFFFFFFFFFFFFFFFFFFFFFC20B4 s
  repeat' first
    | with_reducible assumption
    | (extract_lets +onlyGivenNames s'; with_reducible refine Touches.cut (t := s') ?_ ?_; subst s'; rotate_left; clear_value s'; intro hs; rotate_left)
    | (extract_lets +onlyGivenNames s'; first | (have _e : State → _ := s'; clear _e; subst s') | clear_value s')
    | with_reducible refine State.pairTake_touches (by decide) ?_
    | with_reducible refine State.pairWrite_touches (by decide) ?_
    | split


theorem State.writeField_touches {m : Nat} {s0 : State} {s : State} {fn : Nat} {t : Target} {l : Lanes} {w : Word} {f : Fld} (hk : 0x3FFFFFFFFFFFFFFFFFFFFFFFFFFFFFFFFFFFFFFFFFFFFFFFFFFFFFFFFFFFFFFFFFFFFFFFFFFFFFFFFFFFFFFFFF80002 ||| m = m)
    (h : Touches m s0 s) : Touches m s0 (State.writeField s fn t l w f) := by
  refine Touches.step (k := 0x3FFFFFFFFFFFFFFFFFFFFFFFFFFFFFFFFFFFFFFFFFFFFFFFFFFFFFFFFFFFFFFFFFFFFFFFFFFFFFFFFFFFFFFFFF80002) (t := s) ?_ hk h
  clear hk h
  unfold State.writeField
  have h0 := Touches.refl 0x3FFFFFFFFFFFFFFFFFFFFFFFFFFFFFFFFFFFFFFFFFFFFFFFFFFFFFFFFFFFFFFFFFFFFFFFFFFFFFFFFFFFFFFFFF80002 s
  repeat' first
    | with_reducible assumption
    | (extract_lets +onlyGivenNames s'; with_reducible refine Touches.cut (t := s') ?_ ?_; subst s'; rotate_left; clear_value s'; intro hs; rotate_left)
    | (extract_lets +onlyGivenNames s'; first | (have _e : State → _ := s'; clear _e; subst s') | clear_value s')
    | with_reducible refine Touches.set (by first | decide | (exact all_regs (by decide) _)) ?_
    | with_reducible refine Touches.setStaged (by decide) ?_
    | split


theorem State.afterWrite_touches {m : Nat} {s0 : State} {old s : State} {t : Target} (hk : 0x1020000000000000100002080100000000000000100000038004000000000000000001248014000000000063884 ||| m = m)
    (h : Touches m s0 s) : Touches m s0 (State.afterWrite old s t) := by
  refine Touches.step (k := 0x1020000000000000100002080100000000000000100000038004000000000000000001248014000000000063884) (t := s) ?_ hk h
  clear hk h
  unfold State.afterWrite
  have h0 := Touches.refl 0x1020000000000000100002080100000000000000100000038004000000000000000001248014000000000063884 s
  repeat' first
    | with_reducible assumption
    | (extract_lets +onlyGivenNames s'; with_reducible refine Touches.cut (t := s') ?_ ?_; subst s'; rotate_left; clear_value s'; intro hs; rotate_left)
    | (extract_lets +onlyGivenNames s'; first | (have _e : State → _ := s'; clear _e; subst s') | clear_value s')
    | with_reducible refine Touches.foldl (fun _ _ _ => ?_) ?_
    | with_reducible refine State.sendMsix_touches (by decide) ?_
    | with_reducible refine State.refreshInts_touches (by decide) ?_
    | with_reducible refine State.refreshPortInt_touches (by decide) ?_
    | with_reducible refine State.modLane_touches (by decide) ?_
    | with_reducible refine State.sendTp6_touches (by decide) ?_
    | with_reducible refine State.sendTest_touches (by decide) ?_
    | with_reducible refine State.shaperEnable_touches (by decide) ?_
    | with_reducible refine State.synceRelease_touches (by decide) ?_
    | with_reducible refine State.refreshLanePort_touches (by decide) ?_
    | with_reducible refine State.startTraining_touches (by decide) ?_
    | with_reducible refine State.refreshBus_touches (by decide) ?_
    | with_reducible refine State.reviewCages_touches (by decide) ?_
    | with_reducible refine State.refreshPace_touches (by decide) ?_
    | with_reducible refine Touches.set (by first | decide | assumption | (split <;> decide)) ?_
    | split


theorem State.busWrite_touches {m : Nat} {s0 : State} {s : State} {fn : FnNo} {off size : Nat} {value : Word} (hk : 0x3FFFFFFFFFFFFFFFFFFFFFFFFFFFFFFFFFFFFFFFFFFFFFFFFFFFFFFFFFFFFFFFFFFFFFFFFFFFFFFFFFFFFFFFFFFFFFF ||| m = m)
    (h : Touches m s0 s) : Touches m s0 (State.busWrite s fn off size value) := by
  refine Touches.step (k := 0x3FFFFFFFFFFFFFFFFFFFFFFFFFFFFFFFFFFFFFFFFFFFFFFFFFFFFFFFFFFFFFFFFFFFFFFFFFFFFFFFFFFFFFFFFFFFFFF) (t := s) ?_ hk h
  clear hk h
  unfold State.busWrite
  have h0 := Touches.refl 0x3FFFFFFFFFFFFFFFFFFFFFFFFFFFFFFFFFFFFFFFFFFFFFFFFFFFFFFFFFFFFFFFFFFFFFFFFFFFFFFFFFFFFFFFFFFFFFF s
  repeat' first
    | with_reducible assumption
    | (extract_lets +onlyGivenNames s'; with_reducible refine Touches.cut (t := s') ?_ ?_; subst s'; rotate_left; clear_value s'; intro hs; rotate_left)
    | (extract_lets +onlyGivenNames s'; first | (have _e : State → _ := s'; clear _e; subst s') | clear_value s')
    | with_reducible refine Touches.foldl (fun _ _ _ => ?_) ?_
    | with_reducible refine State.badAccess_touches (by decide) ?_
    | with_reducible refine State.rowWrite_touches (by assumption) (by decide) ?_
    | with_reducible refine State.pairedFields_touches (by decide) ?_
    | with_reducible refine State.writeField_touches (by decide) ?_
    | with_reducible refine State.afterWrite_touches (by decide) ?_
    | split


theorem State.freshen_touches {m : Nat} {s0 : State} {s : State} {fn : Nat} {t : Target} (hk : 0x20006A0080400004000100000000000000000000001000000014 ||| m = m)
    (h : Touches m s0 s) : Touches m s0 (State.freshen s fn t) := by
  refine Touches.step (k := 0x20006A0080400004000100000000000000000000001000000014) (t := s) ?_ hk h
  clear hk h
  unfold State.freshen
  have h0 := Touches.refl 0x20006A0080400004000100000000000000000000001000000014 s
  repeat' first
    | with_reducible assumption
    | (extract_lets +onlyGivenNames s'; with_reducible refine Touches.cut (t := s') ?_ ?_; subst s'; rotate_left; clear_value s'; intro hs; rotate_left)
    | (extract_lets +onlyGivenNames s'; first | (have _e : State → _ := s'; clear _e; subst s') | clear_value s')
    | with_reducible refine State.refreshWin_touches (by decide) ?_
    | with_reducible refine State.gateChange_touches (by decide) ?_
    | with_reducible refine State.refreshCgs_touches (by decide) ?_
    | with_reducible refine State.refreshDrain_touches (by decide) ?_
    | with_reducible refine Touches.set (by first | decide | assumption | (split <;> decide)) ?_
    | split


theorem State.readClears_touches {m : Nat} {s0 : State} {s : State} {t : Target} {l : Lanes} {f : Fld} (hk : 0x3FFFFFFFFFFFFFFFFFFFFFFFFFFFFFFFFFFFFFFFFFFFFFFFFFFFFFFFFFFFFFFFFFFFFFFFFFFFFFFFFFFFFFFFFF80000 ||| m = m)
    (h : Touches m s0 s) : Touches m s0 (State.readClears s t l f) := by
  refine Touches.step (k := 0x3FFFFFFFFFFFFFFFFFFFFFFFFFFFFFFFFFFFFFFFFFFFFFFFFFFFFFFFFFFFFFFFFFFFFFFFFFFFFFFFFFFFFFFFFF80000) (t := s) ?_ hk h
  clear hk h
  unfold State.readClears
  have h0 := Touches.refl 0x3FFFFFFFFFFFFFFFFFFFFFFFFFFFFFFFFFFFFFFFFFFFFFFFFFFFFFFFFFFFFFFFFFFFFFFFFFFFFFFFFFFFFFFFFF80000 s
  repeat' first
    | with_reducible assumption
    | (extract_lets +onlyGivenNames s'; with_reducible refine Touches.cut (t := s') ?_ ?_; subst s'; rotate_left; clear_value s'; intro hs; rotate_left)
    | (extract_lets +onlyGivenNames s'; first | (have _e : State → _ := s'; clear _e; subst s') | clear_value s')
    | with_reducible refine Touches.set (by first | decide | (exact all_regs (by decide) _)) ?_
    | split


theorem State.returns_touches {m : Nat} {s0 : State} {s : State} {fn off size value : Nat} (hk : 0x40000 ||| m = m)
    (h : Touches m s0 s) : Touches m s0 (State.returns s fn off size value) := by
  refine Touches.step (k := 0x40000) (t := s) ?_ hk h
  clear hk h
  unfold State.returns
  have h0 := Touches.refl 0x40000 s
  repeat' first
    | with_reducible assumption
    | (extract_lets +onlyGivenNames s'; with_reducible refine Touches.cut (t := s') ?_ ?_; subst s'; rotate_left; clear_value s'; intro hs; rotate_left)
    | (extract_lets +onlyGivenNames s'; first | (have _e : State → _ := s'; clear _e; subst s') | clear_value s')
    | with_reducible refine Touches.emit (by decide) ?_
    | split


theorem State.busRead_touches {m : Nat} {s0 : State} {s : State} {fn : FnNo} {off size : Nat} (hk : 0x3FFFFFFFFFFFFFFFFFFFFFFFFFFFFFFFFFFFFFFFFFFFFFFFFFFFFFFFFFFFFFFFFFFFFFFFFFFFFFFFFFFFFFFFFFC00B4 ||| m = m)
    (h : Touches m s0 s) : Touches m s0 (State.busRead s fn off size) := by
  refine Touches.step (k := 0x3FFFFFFFFFFFFFFFFFFFFFFFFFFFFFFFFFFFFFFFFFFFFFFFFFFFFFFFFFFFFFFFFFFFFFFFFFFFFFFFFFFFFFFFFFC00B4) (t := s) ?_ hk h
  clear hk h
  unfold State.busRead
  have h0 := Touches.refl 0x3FFFFFFFFFFFFFFFFFFFFFFFFFFFFFFFFFFFFFFFFFFFFFFFFFFFFFFFFFFFFFFFFFFFFFFFFFFFFFFFFFFFFFFFFFC00B4 s
  repeat' first
    | with_reducible assumption
    | (extract_lets +onlyGivenNames s'; with_reducible refine Touches.cut (t := s') ?_ ?_; subst s'; rotate_left; clear_value s'; intro hs; rotate_left)
    | (extract_lets +onlyGivenNames s'; first | (have _e : State → _ := s'; clear _e; subst s') | clear_value s')
    | with_reducible refine Touches.foldl (fun _ _ _ => ?_) ?_
    | with_reducible refine answered_touches ?_
    | with_reducible refine execTimeSnapshot_touches (by decide) ?_
    | with_reducible refine State.badAccess_touches (by decide) ?_
    | with_reducible refine answered_touches ?_
    | with_reducible refine State.freshen_touches (by decide) ?_
    | with_reducible refine State.readClears_touches (by decide) ?_
    | with_reducible refine State.returns_touches (by decide) ?_
    | split


theorem execRegisterWrite_touches {m : Nat} {s0 : State} {fn : FnNo} {off : BarOffset} {size : Fin 65} {value : Word} {s : State} (hk : 0x3FFFFFFFFFFFFFFFFFFFFFFFFFFFFFFFFFFFFFFFFFFFFFFFFFFFFFFFFFFFFFFFFFFFFFFFFFFFFFFFFFFFFFFFFFFFFFF ||| m = m)
    (h : Touches m s0 s) : Ends m s0 (execRegisterWrite fn off size value s) := by
  refine Ends.step (k := 0x3FFFFFFFFFFFFFFFFFFFFFFFFFFFFFFFFFFFFFFFFFFFFFFFFFFFFFFFFFFFFFFFFFFFFFFFFFFFFFFFFFFFFFFFFFFFFFF) (t := s) ?_ hk h
  clear hk h
  unfold execRegisterWrite
  have h0 := Touches.refl 0x3FFFFFFFFFFFFFFFFFFFFFFFFFFFFFFFFFFFFFFFFFFFFFFFFFFFFFFFFFFFFFFFFFFFFFFFFFFFFFFFFFFFFFFFFFFFFFF s
  repeat' first
    | with_reducible assumption
    | (extract_lets +onlyGivenNames s'; with_reducible refine Touches.cut (t := s') ?_ ?_; subst s'; rotate_left; clear_value s'; intro hs; rotate_left)
    | (extract_lets +onlyGivenNames s'; with_reducible refine Ends.cut (t := s') ?_ ?_; subst s'; rotate_left; clear_value s'; intro hs; rotate_left)
    | with_reducible refine Ends.next ?_
    | (extract_lets +onlyGivenNames s'; first | (have _e : State → _ := s'; clear _e; subst s') | clear_value s')
    | with_reducible refine State.busWrite_touches (by decide) ?_
    | split


theorem execStagingWrite_touches {m : Nat} {s0 : State} {fn : FnNo} {off : BarOffset} {size : Fin 65} {value : Word} {s : State} (hk : 0x3FFFFFFFFFFFFFFFFFFFFFFFFFFFFFFFFFFFFFFFFFFFFFFFFFFFFFFFFFFFFFFFFFFFFFFFFFFFFFFFFFFFFFFFFFFFFFF ||| m = m)
    (h : Touches m s0 s) : Ends m s0 (execStagingWrite fn off size value s) := by
  refine Ends.step (k := 0x3FFFFFFFFFFFFFFFFFFFFFFFFFFFFFFFFFFFFFFFFFFFFFFFFFFFFFFFFFFFFFFFFFFFFFFFFFFFFFFFFFFFFFFFFFFFFFF) (t := s) ?_ hk h
  clear hk h
  unfold execStagingWrite
  have h0 := Touches.refl 0x3FFFFFFFFFFFFFFFFFFFFFFFFFFFFFFFFFFFFFFFFFFFFFFFFFFFFFFFFFFFFFFFFFFFFFFFFFFFFFFFFFFFFFFFFFFFFFF s
  repeat' first
    | with_reducible assumption
    | (extract_lets +onlyGivenNames s'; with_reducible refine Touches.cut (t := s') ?_ ?_; subst s'; rotate_left; clear_value s'; intro hs; rotate_left)
    | (extract_lets +onlyGivenNames s'; with_reducible refine Ends.cut (t := s') ?_ ?_; subst s'; rotate_left; clear_value s'; intro hs; rotate_left)
    | with_reducible refine Ends.next ?_
    | (extract_lets +onlyGivenNames s'; first | (have _e : State → _ := s'; clear _e; subst s') | clear_value s')
    | with_reducible refine State.busWrite_touches (by decide) ?_
    | split


theorem execPairedWrite_touches {m : Nat} {s0 : State} {fn : FnNo} {off : BarOffset} {size : Fin 65} {value : Word} {s : State} (hk : 0x3FFFFFFFFFFFFFFFFFFFFFFFFFFFFFFFFFFFFFFFFFFFFFFFFFFFFFFFFFFFFFFFFFFFFFFFFFFFFFFFFFFFFFFFFFFFFFF ||| m = m)
    (h : Touches m s0 s) : Ends m s0 (execPairedWrite fn off size value s) := by
  refine Ends.step (k := 0x3FFFFFFFFFFFFFFFFFFFFFFFFFFFFFFFFFFFFFFFFFFFFFFFFFFFFFFFFFFFFFFFFFFFFFFFFFFFFFFFFFFFFFFFFFFFFFF) (t := s) ?_ hk h
  clear hk h
  unfold execPairedWrite
  have h0 := Touches.refl 0x3FFFFFFFFFFFFFFFFFFFFFFFFFFFFFFFFFFFFFFFFFFFFFFFFFFFFFFFFFFFFFFFFFFFFFFFFFFFFFFFFFFFFFFFFFFFFFF s
  repeat' first
    | with_reducible assumption
    | (extract_lets +onlyGivenNames s'; with_reducible refine Touches.cut (t := s') ?_ ?_; subst s'; rotate_left; clear_value s'; intro hs; rotate_left)
    | (extract_lets +onlyGivenNames s'; with_reducible refine Ends.cut (t := s') ?_ ?_; subst s'; rotate_left; clear_value s'; intro hs; rotate_left)
    | with_reducible refine Ends.next ?_
    | (extract_lets +onlyGivenNames s'; first | (have _e : State → _ := s'; clear _e; subst s') | clear_value s')
    | with_reducible refine State.busWrite_touches (by decide) ?_
    | split


theorem execClearOnRead_touches {m : Nat} {s0 : State} {fn : FnNo} {off : BarOffset} {size : Fin 65} {s : State} (hk : 0x3FFFFFFFFFFFFFFFFFFFFFFFFFFFFFFFFFFFFFFFFFFFFFFFFFFFFFFFFFFFFFFFFFFFFFFFFFFFFFFFFFFFFFFFFFC00B4 ||| m = m)
    (h : Touches m s0 s) : Ends m s0 (execClearOnRead fn off size s) := by
  refine Ends.step (k := 0x3FFFFFFFFFFFFFFFFFFFFFFFFFFFFFFFFFFFFFFFFFFFFFFFFFFFFFFFFFFFFFFFFFFFFFFFFFFFFFFFFFFFFFFFFFC00B4) (t := s) ?_ hk h
  clear hk h
  unfold execClearOnRead
  have h0 := Touches.refl 0x3FFFFFFFFFFFFFFFFFFFFFFFFFFFFFFFFFFFFFFFFFFFFFFFFFFFFFFFFFFFFFFFFFFFFFFFFFFFFFFFFFFFFFFFFFC00B4 s
  repeat' first
    | with_reducible assumption
    | (extract_lets +onlyGivenNames s'; with_reducible refine Touches.cut (t := s') ?_ ?_; subst s'; rotate_left; clear_value s'; intro hs; rotate_left)
    | (extract_lets +onlyGivenNames s'; with_reducible refine Ends.cut (t := s') ?_ ?_; subst s'; rotate_left; clear_value s'; intro hs; rotate_left)
    | with_reducible refine Ends.next ?_
    | (extract_lets +onlyGivenNames s'; first | (have _e : State → _ := s'; clear _e; subst s') | clear_value s')
    | with_reducible refine State.busRead_touches (by decide) ?_
    | split


theorem execImproperAccess_touches {m : Nat} {s0 : State} {fn : FnNo} {off : BarOffset} {size : Fin 65} {write : Bool} {value : Word} {s : State} (hk : 0x3FFFFFFFFFFFFFFFFFFFFFFFFFFFFFFFFFFFFFFFFFFFFFFFFFFFFFFFFFFFFFFFFFFFFFFFFFFFFFFFFFFFFFFFFFFFFFF ||| m = m)
    (h : Touches m s0 s) : Ends m s0 (execImproperAccess fn off size write value s) := by
  refine Ends.step (k := 0x3FFFFFFFFFFFFFFFFFFFFFFFFFFFFFFFFFFFFFFFFFFFFFFFFFFFFFFFFFFFFFFFFFFFFFFFFFFFFFFFFFFFFFFFFFFFFFF) (t := s) ?_ hk h
  clear hk h
  unfold execImproperAccess
  have h0 := Touches.refl 0x3FFFFFFFFFFFFFFFFFFFFFFFFFFFFFFFFFFFFFFFFFFFFFFFFFFFFFFFFFFFFFFFFFFFFFFFFFFFFFFFFFFFFFFFFFFFFFF s
  repeat' first
    | with_reducible assumption
    | (extract_lets +onlyGivenNames s'; with_reducible refine Touches.cut (t := s') ?_ ?_; subst s'; rotate_left; clear_value s'; intro hs; rotate_left)
    | (extract_lets +onlyGivenNames s'; with_reducible refine Ends.cut (t := s') ?_ ?_; subst s'; rotate_left; clear_value s'; intro hs; rotate_left)
    | with_reducible refine Ends.next ?_
    | (extract_lets +onlyGivenNames s'; first | (have _e : State → _ := s'; clear _e; subst s') | clear_value s')
    | with_reducible refine State.busWrite_touches (by decide) ?_
    | with_reducible refine State.busRead_touches (by decide) ?_
    | split


end Sys2Proof.Machine
end

