-- ==== Sys2Proof/Laws/TouchesClock.lean ====
section
/-!
SUPPORT. What the operations of Clock.lean can touch.
-/

namespace Sys2Proof.Machine

set_option linter.all false

theorem State.tick_touches {m : Nat} {s0 : State} {s : State} (hk : 0x10001000000000000000000000000000000000000000000000000000000000000051045 ||| m = m)
    (h : Touches m s0 s) : Touches m s0 (State.tick s) := by
  refine Touches.step (k := 0x10001000000000000000000000000000000000000000000000000000000000000051045) (t := s) ?_ hk h
  clear hk h
  unfold State.tick
  have h0 := Touches.refl 0x10001000000000000000000000000000000000000000000000000000000000000051045 s
  repeat' first
    | with_reducible assumption
    | (extract_lets +onlyGivenNames s'; with_reducible refine Touches.cut (t := s') ?_ ?_; subst s'; rotate_left; clear_value s'; intro hs; rotate_left)
    | (extract_lets +onlyGivenNames s'; first | (have _e : State → _ := s'; clear _e; subst s') | (have _e : PkgBlock := s'; clear _e; subst s') | clear_value s')
    | with_reducible refine State.opsTick_touches (by decide) ?_
    | with_reducible refine State.paceTick_touches (by decide) ?_
    | with_reducible refine State.lowerTick_touches (by decide) ?_
    | split
    | with_reducible refine Touches.upd_now (by decide) ?_
    | with_reducible refine Touches.upd_pkg (by decide) ?_


end Sys2Proof.Machine
end

