-- ==== Sys2Proof/WellFormed.lean ====
section
/-!
DEFINITION. What a command must satisfy beside the types of its operands: relations between operands, and the lengths of
lists that the spec fixes. The meanings do not depend on it; it says which commands an outside can send.
-/

namespace Sys2Proof

/-- How many rings of a kind there are (R521). -/
def ringLimit : Machine.RingKind → Nat
  | .rx => 512 | .tx => 512 | .tlm => 64 | .rpt => 32

/-- The bytes of BAR0 that a function has (R505): 256 MiB of the physical function, 2 MiB of a virtual one. -/
def barBytes (fn : FnNo) : Nat := if fn.val = 0 then 268435456 else 2097152

/-- An access lies within the function's BAR0. -/
def inBar (fn : FnNo) (off : BarOffset) (size : Nat) : Bool :=
  decide (1 ≤ size) && decide (off.val + size ≤ barBytes fn)

/-- An access that a register accepts (R11): naturally aligned, of 8 or 4 bytes. -/
def properAccess (fn : FnNo) (off : BarOffset) (size : Fin 65) : Bool :=
  inBar fn off size.val && (size.val == 8 || size.val == 4) && off.val % size.val == 0

/-- What a received frame's end reports is consistent: a frame cut off by loss of link has at least one byte. -/
def RxEnd.wf (e : RxEnd) : Bool := !e.lost || decide (1 ≤ e.length)

/-- A codeword is 1,088 pairs of an L425 lane, or the 544 or 528 symbols of a standard mode (R125, R143). -/
def Codeword.wf (cw : Codeword) : Bool :=
  (cw.levels.length == 1088 && cw.symbols.isEmpty) ||
    (cw.levels.isEmpty && (cw.symbols.length == 544 || cw.symbols.length == 528))

/-- A nonce is of 32 bytes (R569, R579). -/
def nonceOk (nonce : List Byte) : Bool := nonce.length == 32

/-- A module's serial number is of 16 bytes (R174), and it has at most 8 host lanes (R167). -/
def ModuleId.wf (id : ModuleId) : Bool := id.serial.length == 16 && decide (id.taps.length ≤ 8)

/-- A transmit descriptor names at most three cells (R532). -/
def TxDesc.wf (d : TxDesc) : Bool := decide (d.cells.length ≤ 3)

/-- A command as an outside can send it. -/
def Instr.wf : Instr → Bool
  | .improperAccess fn off size _ _ => inBar fn off size.val
  | .registerWrite fn off size _ => properAccess fn off size
  | .stagingWrite fn off size _ => properAccess fn off size
  | .pairedWrite fn off size _ => properAccess fn off size
  | .clearOnRead fn off size => properAccess fn off size
  | .rxFrameStart _ bytes arrived _ => decide (1 ≤ bytes.length) && decide (arrived ≤ bytes.length)
  | .rxFrameEnd _ e => e.wf
  | .rxCodeword _ cw => cw.wf
  | .adaptDone _ result => result.ffe.length == 24
  | .pfcRx _ _ times => times.length == 8 && times.all fun t => decide (t < 65536)
  | .sidebandFrame _ bytes _ => bytes.length == 32
  | .cageIdentifyDone _ id => id.wf
  | .lifeSample _ _ bias _ => decide (bias.length ≤ 8)
  | .modCmdDone _ data => decide (data.length ≤ 8)
  | .cadenceWindow caps _ => caps.length == 5
  | .governorReady caps => caps.length == 5
  | .thermalSample temps => temps.length == 256
  | .pmbusMeasure readings => readings.length == 9
  | .advisoryRx _ bytes => bytes.length == 12
  | .ringEnable _ kind ring _ => decide (ring.val < ringLimit kind)
  | .ringDoorbell _ kind ring pool _ => decide (ring.val < ringLimit kind) && (pool.isNone || kind == .rx)
  | .interruptCoalesce kind ring => decide (ring.val < ringLimit kind)
  | .copy chain _ => chain.all TxDesc.wf
  | .fill chain _ => chain.all TxDesc.wf
  | .cells chain => chain.all TxDesc.wf
  | .keeperGetSeal _ _ nonce => nonceOk nonce
  | .challenge _ _ nonce => nonceOk nonce
  | .getMeasurements _ _ nonce _ => nonceOk nonce
  | .sectionBodyCheck digest _ _ => digest.length == 48
  | _ => true

end Sys2Proof
end

