-- ==== Sys2Proof/Tests/Slice0.lean ====
section
/-!
SUPPORT. Tests: small checks of single steps and of what is refused as ill-formed, and for every statement with
hypotheses a state and operands that meet them.
-/

namespace Sys2Proof.Tests

open Sys2Proof Sys2Proof.Machine Sys2Proof.Claims

-- One theorem after another: many at once ask for more threads than the memory limit allows.
set_option Elab.async false
set_option maxRecDepth 2000

/-! ## States of the tests -/

/-- A state with fields of registers set: field, instance, value. -/
def wSet (fs : List (Fld × Nat × Nat)) (s : State) : State := fs.foldl (fun s e => s.set e.1 e.2.1 e.2.2) s

/-- The state that an outcome gives. -/
def wNext : Host.Outcome State Fault Refusal → State
  | .next t => t
  | _ => State.reset

/-- The part some time after reset, with its rails, clocks and host interface up, every readiness bit set, and troupes 0
and 1 there. -/
def wUp : State :=
  wSet [(TOP.READY.BITS, 0, 2 ^ 64 - 1), (TOP.TROUPE_READY.BITS, 0, 3), (HIF.TROUPE_STATE.STATE, 0, 1),
    (HIF.TROUPE_STATE.STATE, 1, 1), (HIF.TROUPE_STATE.VF_PRESENT, 1, 1)]
    { State.reset with
      now := 10 ^ 15
      pkg := { keep := true, mainPg := true, hubUp := true, perstN := true, sysResetN := true, keepNow := 10 ^ 15 }
      hif := { pfBme := true, vfEnable := true, numVfs := 1 } }

/-- The same with fields of registers set. -/
def wWith (fs : List (Fld × Nat × Nat)) : State := wSet fs wUp

/-- An image of port 0 on lane 0 for troupe 0. -/
def wImage : Image :=
  { ports := [{ port := 0, rate := 1, mode := 1, lanes := 1, troupe := 0 }], troupes := [{ troupe := 0, quotaUnits := 8 }] }

/-- The same with that image in force, port 0 up, fields of registers set, and the switch in a given state. -/
def wSw (fs : List (Fld × Nat × Nat)) (sw : Switch) : State :=
  wSet ((PORT.STATUS.LINK_UP, 0, 1) :: fs) { wUp with cf := { image := some wImage }, sw }

/-- The same with port 0 in a given state. -/
def wPort (fs : List (Fld × Nat × Nat)) (p : Port) : State := wSw fs { ports := [(0, p)] }

/-- The same with lane 0 in a given state. -/
def wLane (fs : List (Fld × Nat × Nat)) (l : Lane) : State := wSw fs { lanes := [(0, l)] }

/-- The same with pipe 0 in a given state. -/
def wPipe (fs : List (Fld × Nat × Nat)) (p : Pipe) : State := wSw fs { pipes := [(0, p)] }

/-- The same with cage 0 in a given state. -/
def wCage (st : Nat) (fs : List (Fld × Nat × Nat)) (c : Cage) : State :=
  wSet ((MOD.CAGE_STATUS.STATE, 0, st) :: fs) { wUp with cf := { image := some wImage }, mod := { cages := [(0, c)] } }

/-- A module. -/
def wModule : ModuleId :=
  { oui := 1, serial := [], cmisRev := 0x52, apps := [(1, 1)], firmware := [], answer := none, rated := none, nominal := none, i3c := false,
    taps := [] }

/-- A packet of troupe 0 from port 0, on its way to queue 0. -/
def wPacket : Packet := { port := 0, pipe := 0, troupe := 0, head := [], body := [], len := 64, arrived := 64, whole := true }

/-- A copy of it. -/
def wCopy : Copy := { kind := .unicast, queue := 0 }

/-- A descriptor of it. -/
def wDesc : Desc := { packet := 5, troupe := 0, epoch := false, port := 0, prio := 0 }

/-- A flight of it. -/
def wFlight : Flight :=
  { desc := 3, copy := wCopy, queue := 0, port := 0, packet := 5, troupe := 0, epoch := false, inProgress := false }

/-- A state in which a head waits for its admission. -/
def wAdm : State :=
  wSw [(QM.ADM_PROFILE_A.MIN_UNITS, 0, 8), (QM.PORT_STATUS.STATE, 0, 0)] { pipes := [(0, { asm := [5] })], packets := [(5, { wPacket with place := .hub })] }

/-- A frame that waits for its first cell. -/
def wStored : Packet := { wPacket with head := List.replicate 64 0, place := .store, desc := some 3, md := { queueId := some 0 } }

/-- A state in which it does. -/
def wSeg : State :=
  wSet [(CELL.TROUPE_QUOTA.QUOTA_UNITS, 0, 8)]
    { wUp with
      cf := { image := some { wImage with bodySteps := 1 } }
      sw := { pipes := [(0, { asm := [5] })], descs := [(3, wDesc)], packets := [(5, wStored)] } }


/-- A state with table 0 carved and ready, fields of registers set, and the tables in a given state. -/
def wTable (p : TablePlan) (fs : List (Fld × Nat × Nat)) (tb : TableBlock) : State :=
  wSet ((TBL.STATUS.READY, 0, 1) :: fs) { wUp with cf := { image := some { wImage with tables := [(0, p)] } }, tb }

/-- Tables of each kind. -/
def wExact : TablePlan := { kind := kindExact, positions := 8, twin := true }
def wTernary : TablePlan := { kind := kindTernary, positions := 8 }
def wIndex : TablePlan := { kind := kindIndex, positions := 8 }
def wLpm : TablePlan := { kind := kindLpm4, positions := 65536, nodes := [4, 4], ternPositions := 4 }

/-- The tables with key 0 in the stash of table 0, and with two positions of a ternary table. -/
def wHit : TableBlock := { tables := [(0, { twin0 := { stash := [(0, [(0, { value := 0 })])] } })] }
def wTern : TableBlock := { tables := [(0, { twin0 := { slots := [(0, [(0, { value := 2 ^ 176 * 2 ^ 176 })])] } })] }

/-- A state in which port 0 may pick the frame of queue 0. -/
def wPick : State :=
  wSw [(QM.PORT_STATUS.STATE, 0, 0)] { queues := [(0, [.copy 3 wCopy false false])], descs := [(3, wDesc)], packets := [(5, wPacket)] }


/-- A state of a memory mode, both stacks ready, fields of registers set, and the switch in a given state. -/
def wMode (m : Nat) (fs : List (Fld × Nat × Nat)) (sw : Switch) : State :=
  wSet ([(HBM.STATUS.STATE, 0, hbmReady), (HBM.STATUS.STATE, 1, hbmReady), (QM.PORT_STATUS.STATE, 0, 0),
      (HBM.TROUPE_SPILL.QUOTA_BLOCKS, 0, 8), (CELL.TROUPE_QUOTA.QUOTA_UNITS, 0, 8)] ++ fs)
    { wUp with cf := { image := some { wImage with memMode := m, bodySteps := 1, hbm := { captureQueues := [0] } } }, sw }

/-- A frame on its way to deep memory. -/
def wMarked : State :=
  { wMode 1 [] { queues := [(0, [.copy 3 wCopy false false])], descs := [(3, { wDesc with copies := [wCopy], marked := true, refs := 1 })],
                 packets := [(5, wPacket)] } with hbm := { marked := [3] } }

/-- A frame in deep memory. -/
def wSpilled : SpillFrame :=
  { packet := wPacket, copy := wCopy, queue := 0, len := 64, lossless := false, blocks := [], addr := 0, stop := 0 }

/-- A state in which it is due to come back. -/
def wRefill : State := wMode 1 [(HBM.SPILL_PROFILE.START_KIB, 0, 8), (HBM.SPILL_PROFILE.REFILL_KIB, 0, 8)] { queues := [(0, [.run [7]])], spilled := [(7, { wSpilled with len := 0 })] }

/-- A state in which the capture ring takes the head of queue 0. -/
def wCapture : State :=
  wMode 2 [(HBM.CAPTURE_CFG.EN, 0, 1), (HBM.CAPTURE_CFG.SIZE_GB, 0, 1), (HBM.CAPTURE_CFG.WRAP, 0, 1)]
    { queues := [(0, [.copy 3 wCopy false false])], descs := [(3, { wDesc with complete := true })], packets := [(5, wPacket)] }

/-- A flow and its line in the flow cache. -/
def wFlow : FlowRec := { key := [], pipe := 0, troupe := 0, port := 0, first := 0, last := 0, lastRaw := 0 }
def wLine : FlowLine := { flow := wFlow }

/-- A state with the ledger on and telemetry in a given state. -/
def wTel (tel : TelBlock) : State := { wMode 2 [] {} with tel }


/-- A state with fields of registers set and pace in a given state. -/
def wPace (fs : List (Fld × Nat × Nat)) (pace : PaceBlock) : State := wSet fs { wUp with pace }

/-- An advisory of member 1 of group 0. -/
def wAdv : List Byte := [1, 0, 1, 0, 0, 0, 0, 0, 0, 0]


/-- The physical function, host up, with an image that names troupes 0 to 2. -/
def wTroupes (fs : List (Fld × Nat × Nat)) (hif : HostBlock) : State :=
  let im : Image := { wImage with troupes := [{ troupe := 0 }, { troupe := 1 }, { troupe := 2 }], bodySteps := 1 }
  wSet fs { wUp with cf := { image := some im, full := some im }, hif }

/-- Ring 0 of each kind enabled, with a pool. -/
def wRings (fs : List (Fld × Nat × Nat)) (sw : Switch) : State :=
  wSet ([(HIF.RX_CFG.EN, 0, 1), (HIF.TX_CFG.EN, 0, 1), (HIF.RX_POOL.EN, 0, 1), (HIF.RX_POOL_IDX.TAIL, 0, 1), (HIF.TX_IDX.PROD, 0, 1)] ++ fs)
    { wUp with cf := { image := some { wImage with bodySteps := 1 } }, sw }

/-- A frame whose copy waits for receive ring 0. -/
def wRx : Switch :=
  { queues := [(2 ^ 20, [.copy 3 { wCopy with ring := true } false false])], descs := [(3, { wDesc with len := 64 })],
    packets := [(5, wPacket)] }

/-- Transmit descriptors: a copy, a fill and a frame in cells. -/
def wTxCopy : TxDesc := { kind := 0, more := false, len := 60, user := 0, addr := 0, cells := [] }
def wTxFill : TxDesc := { kind := 1, more := false, len := 64, user := 0, addr := 0, cells := [(16777216, true)] }
def wTxCells : TxDesc := { kind := 2, more := false, len := 60, user := 0, addr := 0, cells := [(16777216, true)] }

/-- The lane of one cell leased to the physical function. -/
def wLeased : Switch := { cells := [(16777216, 64)] }

/-- A commit in a given phase, alone. -/
def wCommit (p : CommitPhase) : CommitRec := { by_ := .cfg, scope := some 0, defer := false, phase := p, pendingSet := [] }
def wCommits (fs : List (Fld × Nat × Nat)) (c : CommitRec) (sw : Switch) : State :=
  wSet fs { wUp with cf := { image := some wImage, commits := [c] }, sw }

/-- A packet of the old epoch. -/
def wOld : Switch := { packets := [(5, { wPacket with place := .hub, epoch := true })] }

/-- The second half of a pair of policer 0 that waits. -/
def wLatch : PairLatch :=
  { fn := 0, reg := Reg.POL_CFG.ctorIdx, idx := 0, lo := 32, width := 24, value := 5, written := 5, offset := 0x5100004, at_ := 5 }


/-- The wardens in given states, with fields of registers set. -/
def wWardens (a b : Nat) (fs : List (Fld × Nat × Nat)) (tnd : TndBlock) : State :=
  wSet ([(TND.WARDEN.STATE, 0, a), (TND.WARDEN.STATE, 1, b)] ++ fs) { wUp with tnd }

/-- A black-box record. -/
def wRecord : BbxRecord :=
  { seq := 1, code := 0x0101, boot := 1, source := 0, rawTime := false, keeperTime := false, pinned := true, loss := false,
    suppressed := 0, time := 0, data := [], chain := [] }

/-- The black box in a given state. -/
def wBbx (bbx : BlackBox) : State := { wUp with bbx }

/-- Identity in a given state, with its aliases derived. -/
def wSec (fs : List (Fld × Nat × Nat)) (sec : SecBlock) : State := wSet ((SEC.STATUS.DERIVING, 0, 0) :: fs) { wUp with sec }


/-- A key, the base point (its secret is 1), and a signature by it with the nonce 1: r is the base point's x and s is the
digest plus r. -/
def wBe (v n : Nat) : List Byte := (leBytes v n).reverse
def wKey : List Byte := 4 :: wBe p384Gx 48 ++ wBe p384Gy 48
def wSigR : List Byte := wBe p384Gx 48
def wSigS (m : List Byte) : List Byte := wBe ((ofBe (sha384 m) + p384Gx) % p384N) 48

/-- A signed image of troupe 1 with one section, a note. -/
def wImageHead : List Byte :=
  leBytes 0x534D4E4F 4 ++ leBytes 1 2 ++ leBytes 256 2 ++ leBytes 8192 8 ++ leBytes (wUp.get TOP.IDENT.PART 0) 2 ++
  leBytes (wUp.get TOP.IDENT.STEPPING 0) 1 ++ leBytes 0xFF 1 ++ leBytes 1 1 ++ leBytes 1 1 ++ leBytes 0xFF 1 ++ leBytes 0 1 ++
  leBytes 1 8 ++ leBytes 0 8 ++ leBytes 1 4 ++ leBytes 256 4 ++ leBytes 7936 8 ++ List.replicate 200 0 ++
  leBytes secNote 2 ++ leBytes 1 2 ++ leBytes 0 4 ++ leBytes 384 8 ++ leBytes 64 8 ++ List.replicate 56 0
def wImageSig : List Byte :=
  leBytes 0x4749534F 4 ++ leBytes 1 4 ++ sha384 wKey ++ wSigR ++ wSigS wImageHead ++ List.replicate 104 0

/-- Its load: before its header, with its header checked, with one section to come, and verified. -/
def wLoad : LoadRec := { source := 0, verifyOnly := false, list := false }
def wNote : SectionEntry := { type := secNote, flags := 1, offset := 384, length := 64, digest := [] }
def wBodies (toCome : List Nat) : LoadRec :=
  { wLoad with kind := 1, troupe := 1, checked := true, sections := [wNote, wNote], toCome }

/-- A state with a load under way. -/
def wLoadState (l : LoadRec) (fs : List (Fld × Nat × Nat)) : State :=
  let im : Image := { wImage with troupes := [{ troupe := 0 }, { troupe := 1 }] }
  wSet ((SEC.OWNER_SLOT.PROVISIONED, 0, 1) :: (List.range 6).map (fun i => (SEC.OWNER_HASH.BYTES, i, ofLe (((sha384 wKey).drop (8 * i)).take 8))) ++ fs)
    { wUp with cf := { image := some im, full := some im, load := some l }, sec := { ownerKeys := [(0, wKey)] } }


/-- A head on its way to queue 0, and a state in which it waits for its admission and its die's links are up. -/
def wHead : Packet := { wPacket with place := .hub, md := { queueId := some 0 } }
def wAdmOf (v : Packet) (fs : List (Fld × Nat × Nat)) : State :=
  wSw ([(LNK.LINK_STATUS.STATE, 0, 2), (QM.ADM_PROFILE_A.MIN_UNITS, 0, 8), (QM.PORT_STATUS.STATE, 0, 0)] ++ fs) { pipes := [(0, { asm := [5] })], packets := [(5, v)] }

/-- A state in which a frame waits for a cell, with its die's links up. -/
def wCells (fs : List (Fld × Nat × Nat)) (steps : Nat) : State :=
  wSet ((LNK.LINK_STATUS.STATE, 0, 2) :: (CELL.TROUPE_QUOTA.QUOTA_UNITS, 0, 8) :: fs)
    { wUp with
      cf := { image := some { wImage with bodySteps := steps } }
      sw := { pipes := [(0, { asm := [5] })], descs := [(3, wDesc)], packets := [(5, wStored)] } }

/-- A frame that its segment assembler ends, with its descriptor. -/
def wEnding (v : Packet) (d : Desc) : State :=
  wSw [] { packets := [(5, { v with place := .store, desc := some 3, stored := 64 })], descs := [(3, d)] }

/-- A wavefront of head 5 in pipe p, with what the head is. -/
def wWave (p pos : Nat) (v : Packet) (fs : List (Fld × Nat × Nat)) : State :=
  wSw fs { pipes := [(p, { waves := [{ heads := [5], pos := pos, launchedAt := 0 }] })], packets := [(5, v)] }
def wFlown (pos : Nat) (f : Flight) (v : Packet) : State :=
  wSw [] { pipes := [(16, { waves := [{ heads := [2], pos := pos, launchedAt := 0 }] })], packets := [(5, v)], flights := [(2, f)] }

/-- A state in which port 0 sends flight 2. -/
def wSending (f : Flight) (v : Packet) : State :=
  wSw [] { packets := [(5, v)], flights := [(2, f)], ports := [(0, { sending := some 2 })] }

/-- A state in which port 0 may pick the frame of queue 0, its die's links up. -/
def wPickUp (stale : Bool) : State :=
  wSw [(LNK.LINK_STATUS.STATE, 0, 2), (QM.PORT_STATUS.STATE, 0, 0)]
    { queues := [(0, [.copy 3 wCopy false stale])], descs := [(3, wDesc)], packets := [(5, wPacket)] }

/-- A program with no states and no stages. -/
def wProgram : Program := { parser := [], stages := [], fromOffsets := false, carry := false }

/-- A longest-prefix table with a prefix of 65 bits in its ternary region, and with room for none there. -/
def wLpm6 : TablePlan := { kind := kindLpm6, positions := 65536, nodes := [4, 4, 4, 4, 4], ternPositions := 4 }
def wRegion : TableBlock := { tables := [(0, { twin0 := { tern := [(0, sameEntry { value := ternPrefix 0 65 7 })] }, prefixes := [(0, 65)] })] }

/-- A table of two buckets that is full, its stash too, with no key 0. -/
def wFullTable : TableBlock :=
  { tables := [(0, { twin0 := {
      slots := (List.range 8).map fun i => (i, sameEntry { value := i + 1 })
      stash := (List.range 1024).map fun i => (i, sameEntry { value := i + 100 }) } })] }

/-- A learn event for table 0, its state, and that table at the end of a sweep. -/
def wEvent : LearnEvent := { table := 0, image := 0, pipe := 0, troupe := 0 }
def wLearn (p : TablePlan) (fs : List (Fld × Nat × Nat)) (tb : TableBlock) : State :=
  wTable p ((TBL.TABLE_CTRL.LEARN_EN, 0, 1) :: fs) { tb with queue := [wEvent] }

/-- The last visit of a pass over table 0, with the tables carved. -/
def wLast (ts : List (Nat × TablePlan)) : State :=
  { wTable wExact [] { sweepPos := wExact.positions + 1023 } with cf := { image := some { wImage with tables := ts } } }

/-- Promenade over table 0, with firmware running. -/
def wProm (p : TablePlan) (n : Nat) (tb : TableBlock) : State :=
  wTable p [(TBL.PROM_CTRL.RECORDS, 0, n)] { tb with prom := { phase := promForward } }

/-- A state in which a spilled frame is due to come back, with no cell free for it. -/
def wRefillOf (v : SpillFrame) (hbm : HbmBlock) : State :=
  let s := wMode 1 [(HBM.SPILL_PROFILE.START_KIB, 0, 8), (HBM.SPILL_PROFILE.REFILL_KIB, 0, 8)] { queues := [(0, [.run [7]])], spilled := [(7, v)] }
  { s with hbm, cf := { image := some { wImage with memMode := 1 } } }

/-- An entry of the ledger. -/
def wEntry : LedgerEntry := { flow := wFlow }

/-- An owner-key command and its signature, and a state that holds it in SEC.KEY_BUF. -/
def wKeyCmd (op target auth : Nat) (key : List Byte) : List Byte :=
  let b := leBytes op 1 ++ leBytes target 1 ++ leBytes auth 6 ++ key ++ List.replicate 7 0
  b ++ wSigR ++ wSigS (b ++ List.replicate 16 0)
def wKeys (b : List Byte) (fs : List (Fld × Nat × Nat)) (sec : SecBlock) : State :=
  wSec ((List.range 26).map (fun i => (SEC.KEY_BUF.BYTES, i, ofLe ((b.drop (8 * i)).take 8))) ++ fs) sec
def wProvision : State := wKeys (wKeyCmd 1 0 255 wKey) [] {}
def wRevoke : State :=
  wKeys (wKeyCmd 2 1 0 (List.replicate 97 0)) [(SEC.OWNER_SLOT.PROVISIONED, 0, 1), (SEC.OWNER_SLOT.PROVISIONED, 1, 1)]
    { ownerKeys := [(0, wKey)] }

/-- A firmware package of one payload byte, and a part that loads it. -/
def wFwHeader : List Byte :=
  let b := leBytes 0x5746574D 4 ++ leBytes 1 2 ++ leBytes (wUp.get TOP.IDENT.PART 0) 2 ++ leBytes (wUp.get TOP.IDENT.STEPPING 0) 1 ++
    leBytes 5 3 ++ leBytes 7 4 ++ leBytes 1 4 ++ leBytes 0 4 ++ sha384 [0] ++ wKey ++ List.replicate 7 0
  b ++ wSigR ++ wSigS b ++ List.replicate 240 0
def wFwLoad : State :=
  { wSec [] { fwLoading := true, fwSlots := [0], vendorHash := [sha384 wKey, List.replicate 48 0] } with hif := { pfBme := true } }

/-- The state of `wCage` with its bus making a transfer for cage 0. -/
def wBus (u : BusUse) (cmd : Option ModCmd) (st : Nat) (fs : List (Fld × Nat × Nat)) (c : Cage) : State :=
  wSet ((MOD.CAGE_STATUS.STATE, 0, st) :: fs)
    { wUp with
      cf := { image := some wImage }
      mod := { cages := [(0, c)], buses := [(0, { cur := some (u, 0), running := true })], cmd := cmd } }
def wModCmd : ModCmd := { cage := 0, write := false, bank := 0, page := 0, offset := 2, len := 1, bytes := [] }

/-- The state of a table that is full. -/
def wFull : State := wTable wExact [] wFullTable

/-- A list of positions in order holds each of them. -/
theorem tabFind_range {α : Type} (f : Nat → α) : ∀ (n a i : Nat), a ≤ i → i < a + n →
    (tabFind ((List.range' a n).map fun i => (i, f i)) i).isNone = false := by
  intro n
  induction n with
  | zero => intro a i h1 h2; omega
  | succ n ih =>
    intro a i h1 h2
    by_cases h : a = i
    · simp [List.range'_succ, tabFind, h]
    · simpa [List.range'_succ, tabFind, h] using ih (a + 1) i (by omega) (by omega)

/-- An insertion that finds its buckets, every path and the stash full has no place. -/
theorem insert_full {p : TablePlan} {v : Twin} {seeds : Nat × Nat} {key b c : Nat} {e : TEntry}
    (h : p.choices seeds key = (b, c)) (h0 : v.freeSlot b = none) (h1 : v.freeSlot c = none)
    (h2 : p.search v seeds 512 [(b, []), (c, [])] [b, c] = none) (h3 : v.freeStash = none) :
    (p.insert v seeds key e).place = none := by
  simp only [TablePlan.insert, h, h0, h1, h2, h3]

theorem wFull_stash : (cmdTwin 0 wFull wFull).freeStash = none := by
  have hs : (cmdTwin 0 wFull wFull).stash = (List.range' 0 1024).map fun i => (i, sameEntry { value := i + 100 }) := by
    decide +kernel
  unfold Twin.freeStash
  rw [List.find?_eq_none]
  intro i hi
  rw [hs, tabFind_range _ 1024 0 i (by omega) (by simp at hi; omega)]
  decide

theorem wFull_place : (cmdPlace 0 0 wExact wFull).place = none :=
  have hc : cmdSeeds 0 wFull = (0, 0) := by decide +kernel
  insert_full (b := 0) (c := 1) (by rw [hc]; decide +kernel) (by decide +kernel) (by decide +kernel)
    (by rw [hc]; decide +kernel) wFull_stash

/-- Each claim of BusAccessesTakeEffect is met somewhere: for every command a state and operands, and for the branches of its
conclusion. -/
theorem witness_BusAccessesTakeEffect :
  (∃ (fn : FnNo) (off : BarOffset) (size : Fin 65) (w : Bool) (v : Word) (s : State), s.hostReach 0 true = true ∧
      s.accessKind fn off size w v ≠ 0) ∧
  (∃ (fn : FnNo) (off : BarOffset) (size : Fin 65) (w : Bool) (v : Word) (s : State), s.hostReach 0 true = true ∧
      s.accessKind fn off size w v ≠ 0 ∧
      s.get HIF.BAD_ACCESS.LATCHED fn = 0) ∧
  (∃ (fn : FnNo) (off : BarOffset) (size : Fin 65) (w : Bool) (v : Word) (s : State), s.hostReach 0 true = true ∧
      s.accessKind fn off size w v ≠ 0 ∧
      s.get HIF.BAD_ACCESS.LATCHED fn ≠ 0) ∧
  (∃ (fn : FnNo) (off : BarOffset) (size : Fin 65) (w : Bool) (v : Word) (s : State), s.hostReach 0 true = true ∧
      s.accessKind fn off size w v ≠ 0 ∧
      w = false) ∧
  (∃ (fn : FnNo) (off : BarOffset) (size : Fin 65) (v : Word) (g : Target) (s : State), s.hostReach 0 true = true ∧
      s.accessKind fn off size true v = 0 ∧
      s.target fn off = some g ∧
      s.present g = true ∧
      s.hostReach fn (State.openReg g) = true ∧
      g.reg.fields.filter (fun f => s.isPaired g f && (accessLanes off size).takes f) = []) ∧
  (∃ (fn : FnNo) (off : BarOffset) (size : Fin 65) (v : Word) (g : Target) (s : State) (u : State), s.hostReach 0 true = true ∧
      s.accessKind fn off size true v = 0 ∧
      s.target fn off = some g ∧
      s.present g = true ∧
      s.hostReach fn (State.openReg g) = true ∧
      g.reg.fields.filter (fun f => s.isPaired g f && (accessLanes off size).takes f) = [] ∧
      s.rowWrite fn g (accessLanes off size) (s.merged g (accessLanes off size) ((accessLanes off size).place v)) = some u) ∧
  (∃ (fn : FnNo) (off : BarOffset) (size : Fin 65) (v : Word) (g : Target) (s : State), s.hostReach 0 true = true ∧
      s.accessKind fn off size true v = 0 ∧
      s.target fn off = some g ∧
      s.present g = true ∧
      s.hostReach fn (State.openReg g) = true ∧
      g.reg.fields.filter (fun f => s.isPaired g f && (accessLanes off size).takes f) = [] ∧
      s.rowWrite fn g (accessLanes off size) (s.merged g (accessLanes off size) ((accessLanes off size).place v)) = none) ∧
  (∃ (fn : FnNo) (off : BarOffset) (size : Fin 65) (v : Word) (g : Target) (f : Fld) (s : State), s.hostReach 0 true = true ∧
      s.accessKind fn off size true v = 0 ∧
      s.target fn off = some g ∧
      s.present g = true ∧
      s.hostReach fn (State.openReg g) = true ∧
      s.rowWrite fn g (accessLanes off size) (s.merged g (accessLanes off size) ((accessLanes off size).place v)) = none ∧
      g.reg.fields.filter (fun f => s.isPaired g f && (accessLanes off size).takes f) = [] ∧
      f ∈ g.reg.fields ∧
      s.isStaged g f = true) ∧
  (∃ (fn : FnNo) (off : BarOffset) (size : Fin 65) (v : Word) (g : Target) (f : Fld) (s : State), s.hostReach 0 true = true ∧
      s.accessKind fn off size true v = 0 ∧
      s.target fn off = some g ∧
      s.present g = true ∧
      s.hostReach fn (State.openReg g) = true ∧
      s.rowWrite fn g (accessLanes off size) (s.merged g (accessLanes off size) ((accessLanes off size).place v)) = none ∧
      g.reg.fields.filter (fun f => s.isPaired g f && (accessLanes off size).takes f) = [] ∧
      f ∈ g.reg.fields ∧
      s.isStaged g f = true ∧
      (accessLanes off size).takes f = true ∧
      (fn.val = 0 ∨ windowReadOnly f = false)) ∧
  (∃ (fn : FnNo) (off : BarOffset) (size : Fin 65) (v : Word) (g : Target) (f : Fld) (s : State), s.hostReach 0 true = true ∧
      s.accessKind fn off size true v = 0 ∧
      s.target fn off = some g ∧
      s.present g = true ∧
      s.hostReach fn (State.openReg g) = true ∧
      s.rowWrite fn g (accessLanes off size) (s.merged g (accessLanes off size) ((accessLanes off size).place v)) = none ∧
      g.reg.fields.filter (fun f => s.isPaired g f && (accessLanes off size).takes f) = [] ∧
      f ∈ g.reg.fields ∧
      s.isStaged g f = true ∧
      (accessLanes off size).takes f = false ∨ (fn.val ≠ 0 ∧ windowReadOnly f = true)) ∧
  (∃ (fn : FnNo) (off : BarOffset) (size : Fin 65) (g : Target) (f : Fld) (s : State), s.hostReach 0 true = true ∧
      s.accessKind fn off size false 0 = 0 ∧
      s.target fn off = some g ∧
      s.present g = true ∧
      s.hostReach fn (State.openReg g) = true ∧
      f ∈ g.reg.fields ∧
      f.acc = .rc ∧
      g.reg ≠ .TIME_NOW_SUB) ∧
  (∃ (fn : FnNo) (off : BarOffset) (size : Fin 65) (g : Target) (f : Fld) (s : State), s.hostReach 0 true = true ∧
      s.accessKind fn off size false 0 = 0 ∧
      s.target fn off = some g ∧
      s.present g = true ∧
      s.hostReach fn (State.openReg g) = true ∧
      f ∈ g.reg.fields ∧
      f.acc = .rc ∧
      g.reg ≠ .TIME_NOW_SUB ∧
      (accessLanes off size).takes f = true) ∧
  (∃ (fn : FnNo) (off : BarOffset) (size : Fin 65) (g : Target) (f : Fld) (s : State), s.hostReach 0 true = true ∧
      s.accessKind fn off size false 0 = 0 ∧
      s.target fn off = some g ∧
      s.present g = true ∧
      s.hostReach fn (State.openReg g) = true ∧
      f ∈ g.reg.fields ∧
      f.acc = .rc ∧
      g.reg ≠ .TIME_NOW_SUB ∧
      (f.lo + f.width ≤ (accessLanes off size).range.1 ∨ (accessLanes off size).range.2 ≤ f.lo)) ∧
  (∃ (fn : FnNo) (off : BarOffset) (size : Fin 65) (v : Word) (g : Target) (f : Fld) (p : PairField) (l : PairLatch) (s : State), s.hostReach 0 true = true ∧
      s.accessKind fn off size true v = 0 ∧
      s.target fn off = some g ∧
      s.present g = true ∧
      s.hostReach fn (State.openReg g) = true ∧
      s.rowWrite fn g (accessLanes off size) (s.merged g (accessLanes off size) ((accessLanes off size).place v)) = none ∧
      g.reg.fields.filter (fun f => s.isPaired g f && (accessLanes off size).takes f) = [f] ∧
      s.partner ⟨g.reg, g.idx, f.lo, f.width⟩ = some p ∧
      (bitsOf ((accessLanes off size).place v) f.lo f.width ≠ s.get f g.idx ∨ (g.reg.fields.filter fun f => s.isPaired g f).length = 1) ∧
      s.cf.latches.find? (fun l => l.isOn ⟨g.reg, g.idx, f.lo, f.width⟩ || l.isOn p) = some l ∧
      l.fn = fn.val ∧
      l.isOn ⟨g.reg, g.idx, f.lo, f.width⟩ = false) ∧
  (∃ (fn : FnNo) (off : BarOffset) (size : Fin 65) (v : Word) (g : Target) (f : Fld) (p : PairField) (l : PairLatch) (s : State), s.hostReach 0 true = true ∧
      s.accessKind fn off size true v = 0 ∧
      s.target fn off = some g ∧
      s.present g = true ∧
      s.hostReach fn (State.openReg g) = true ∧
      s.rowWrite fn g (accessLanes off size) (s.merged g (accessLanes off size) ((accessLanes off size).place v)) = none ∧
      g.reg.fields.filter (fun f => s.isPaired g f && (accessLanes off size).takes f) = [f] ∧
      s.partner ⟨g.reg, g.idx, f.lo, f.width⟩ = some p ∧
      (bitsOf ((accessLanes off size).place v) f.lo f.width ≠ s.get f g.idx ∨ (g.reg.fields.filter fun f => s.isPaired g f).length = 1) ∧
      s.cf.latches.find? (fun l => l.isOn ⟨g.reg, g.idx, f.lo, f.width⟩ || l.isOn p) = some l ∧
      l.fn = fn.val ∧
      l.isOn ⟨g.reg, g.idx, f.lo, f.width⟩ = false ∧
      g.reg ∈ [.QM_PORT_SHAPER, .QM_CG_SHAPER, .QM_QSHAPER]) ∧
  (∃ (fn : FnNo) (off : BarOffset) (size : Fin 65) (v : Word) (g : Target) (f : Fld) (p : PairField) (l : PairLatch) (s : State), s.hostReach 0 true = true ∧
      s.accessKind fn off size true v = 0 ∧
      s.target fn off = some g ∧
      s.present g = true ∧
      s.hostReach fn (State.openReg g) = true ∧
      s.rowWrite fn g (accessLanes off size) (s.merged g (accessLanes off size) ((accessLanes off size).place v)) = none ∧
      g.reg.fields.filter (fun f => s.isPaired g f && (accessLanes off size).takes f) = [f] ∧
      s.partner ⟨g.reg, g.idx, f.lo, f.width⟩ = some p ∧
      (bitsOf ((accessLanes off size).place v) f.lo f.width ≠ s.get f g.idx ∨ (g.reg.fields.filter fun f => s.isPaired g f).length = 1) ∧
      s.cf.latches.find? (fun l => l.isOn ⟨g.reg, g.idx, f.lo, f.width⟩ || l.isOn p) = some l ∧
      l.fn = fn.val ∧
      l.isOn ⟨g.reg, g.idx, f.lo, f.width⟩ = false ∧
      g.reg ∈ [.TIME_RATE, .TIME_STEP_NS]) ∧
  (∃ (fn : FnNo) (off : BarOffset) (size : Fin 65) (v : Word) (g : Target) (f : Fld) (p : PairField) (l : PairLatch) (s : State), s.hostReach 0 true = true ∧
      s.accessKind fn off size true v = 0 ∧
      s.target fn off = some g ∧
      s.present g = true ∧
      s.hostReach fn (State.openReg g) = true ∧
      s.rowWrite fn g (accessLanes off size) (s.merged g (accessLanes off size) ((accessLanes off size).place v)) = none ∧
      g.reg.fields.filter (fun f => s.isPaired g f && (accessLanes off size).takes f) = [f] ∧
      s.partner ⟨g.reg, g.idx, f.lo, f.width⟩ = some p ∧
      (bitsOf ((accessLanes off size).place v) f.lo f.width ≠ s.get f g.idx ∨ (g.reg.fields.filter fun f => s.isPaired g f).length = 1) ∧
      s.cf.latches.find? (fun l => l.isOn ⟨g.reg, g.idx, f.lo, f.width⟩ || l.isOn p) = some l ∧
      l.fn = fn.val ∧
      l.isOn ⟨g.reg, g.idx, f.lo, f.width⟩ = false ∧
      g.reg = .POL_CFG) ∧
  (∃ (fn : FnNo) (off : BarOffset) (size : Fin 65) (v : Word) (g : Target) (f : Fld) (p : PairField) (l : PairLatch) (s : State), s.hostReach 0 true = true ∧
      s.accessKind fn off size true v = 0 ∧
      s.target fn off = some g ∧
      s.present g = true ∧
      s.hostReach fn (State.openReg g) = true ∧
      s.rowWrite fn g (accessLanes off size) (s.merged g (accessLanes off size) ((accessLanes off size).place v)) = none ∧
      g.reg.fields.filter (fun f => s.isPaired g f && (accessLanes off size).takes f) = [f] ∧
      s.partner ⟨g.reg, g.idx, f.lo, f.width⟩ = some p ∧
      (bitsOf ((accessLanes off size).place v) f.lo f.width ≠ s.get f g.idx ∨ (g.reg.fields.filter fun f => s.isPaired g f).length = 1) ∧
      s.cf.latches.find? (fun l => l.isOn ⟨g.reg, g.idx, f.lo, f.width⟩ || l.isOn p) = some l ∧
      l.fn = fn.val ∧
      l.isOn ⟨g.reg, g.idx, f.lo, f.width⟩ = false ∧
      g.reg = .PIPE_PROG_REG) ∧
  (∃ (l : PairLatch) (s : State), l ∈ s.cf.latches ∧
      l.at_ + msTicks ≤ s.now) ∧
  (∃ (l : PairLatch) (s : State), l ∈ s.cf.latches ∧
      l.at_ + msTicks ≤ s.now ∧
      (∀ m ∈ s.cf.latches, m.fn = l.fn → m.at_ + msTicks ≤ s.now)) ∧
  (∃ (l : PairLatch) (s : State), l ∈ s.cf.latches ∧
      l.at_ + msTicks ≤ s.now ∧
      s.cf.latches.filter (fun m => m.fn == l.fn && decide (m.at_ + msTicks ≤ s.now)) = [l]) :=
  ⟨
    ⟨0, 2, 4, false, 0, wUp, by decide +kernel⟩,
    ⟨0, 2, 4, false, 0, wUp, by decide +kernel⟩,
    ⟨0, 2, 4, false, 0, wWith [(HIF.BAD_ACCESS.LATCHED, 0, 1)], by decide +kernel⟩,
    ⟨0, 2, 4, false, 0, wUp, by decide +kernel⟩,
    ⟨0, 0x18, 8, 5, ⟨.TOP_READY_INT_EN, 0, 0⟩, wUp, by decide +kernel⟩,
    ⟨0, 0x100030, 8, 5, ⟨.CFG_SERIAL_FLOOR, 0, 0⟩, wUp, wUp.set CFG.SERIAL_FLOOR.FLOOR 0 5, by decide +kernel⟩,
    ⟨0, 0x10, 8, 5, ⟨.TOP_READY_CHANGE, 0, 0⟩, wUp, by decide +kernel⟩,
    ⟨0, 50332672, 8, 5, ⟨.PIPE_HASH_SEED, 0, 0⟩, PIPE.HASH_SEED.SEED, wUp, by decide +kernel⟩,
    ⟨0, 50332672, 8, 5, ⟨.PIPE_HASH_SEED, 0, 0⟩, PIPE.HASH_SEED.SEED, wUp, by decide +kernel⟩,
    ⟨0, 50332676, 4, 0, ⟨.PIPE_HASH_SEED, 0, 4⟩, PIPE.HASH_SEED.SEED, wUp, by decide +kernel⟩,
    ⟨0, 256, 8, ⟨.TOP_MON_READING, 0, 0⟩, TOP.MON_READING.TRIPS, wUp, by decide +kernel⟩,
    ⟨0, 256, 8, ⟨.TOP_MON_READING, 0, 0⟩, TOP.MON_READING.TRIPS, wUp, by decide +kernel⟩,
    ⟨0, 256, 4, ⟨.TOP_MON_READING, 0, 0⟩, TOP.MON_READING.TRIPS, wUp, by decide +kernel⟩,
    ⟨0, 0x5100000, 4, 7, ⟨.POL_CFG, 0, 0⟩, POL.CFG.RATE_KBPS, ⟨.POL_CFG, 0, 32, 24⟩, wLatch, { wUp with cf := { latches := [wLatch] } }, by decide +kernel⟩,
    ⟨0, 0x7050020, 4, 7, ⟨.QM_PORT_SHAPER, 0, 0⟩, QM.PORT_SHAPER.RATE_KBPS, ⟨.QM_PORT_SHAPER, 0, 32, 24⟩, { wLatch with reg := Reg.QM_PORT_SHAPER.ctorIdx, idx := 0, lo := 32, width := 24 }, { wSw [] {} with cf := { image := some wImage, latches := [{ wLatch with reg := Reg.QM_PORT_SHAPER.ctorIdx, idx := 0, lo := 32, width := 24 }] } }, by decide +kernel⟩,
    ⟨0, 0x500028, 8, 7, ⟨.TIME_RATE, 0, 0⟩, TIME.RATE.RATE, ⟨.TIME_STEP_NS, 0, 0, 64⟩, { wLatch with reg := Reg.TIME_STEP_NS.ctorIdx, idx := 0, lo := 0, width := 64 }, { wUp with cf := { latches := [{ wLatch with reg := Reg.TIME_STEP_NS.ctorIdx, idx := 0, lo := 0, width := 64 }] } }, by decide +kernel⟩,
    ⟨0, 0x5100000, 4, 7, ⟨.POL_CFG, 0, 0⟩, POL.CFG.RATE_KBPS, ⟨.POL_CFG, 0, 32, 24⟩, wLatch, { wUp with cf := { latches := [wLatch] } }, by decide +kernel⟩,
    ⟨0, 0x3100000, 8, 7, ⟨.PIPE_PROG_REG, 0, 0⟩, PIPE.PROG_REG.VALUE, ⟨.PIPE_PROG_REG, 1, 0, 64⟩, { wLatch with reg := Reg.PIPE_PROG_REG.ctorIdx, idx := 1, lo := 0, width := 64 }, { wUp with cf := { image := some { wImage with pregPartner := [(0, 1), (1, 0)], pregCount := 2 }, latches := [{ wLatch with reg := Reg.PIPE_PROG_REG.ctorIdx, idx := 1, lo := 0, width := 64 }] } }, by decide +kernel⟩,
    ⟨{ fn := 0, reg := 0, idx := 0, lo := 0, width := 32, value := 1, written := 1, offset := 0, at_ := 5 }, { wUp with cf := { latches := [{ fn := 0, reg := 0, idx := 0, lo := 0, width := 32, value := 1, written := 1, offset := 0, at_ := 5 }] } }, by decide +kernel⟩,
    ⟨{ fn := 0, reg := 0, idx := 0, lo := 0, width := 32, value := 1, written := 1, offset := 0, at_ := 5 }, { wUp with cf := { latches := [{ fn := 0, reg := 0, idx := 0, lo := 0, width := 32, value := 1, written := 1, offset := 0, at_ := 5 }] } }, by decide +kernel⟩,
    ⟨{ fn := 0, reg := 0, idx := 0, lo := 0, width := 32, value := 1, written := 1, offset := 0, at_ := 5 }, { wUp with cf := { latches := [{ fn := 0, reg := 0, idx := 0, lo := 0, width := 32, value := 1, written := 1, offset := 0, at_ := 5 }] } }, by decide +kernel⟩⟩

/-- Each claim of LinkEventsTakeEffect is met somewhere: for every command a state and operands, and for the branches of its
conclusion. -/
theorem witness_LinkEventsTakeEffect :
  (∃ (n : LinkNo) (_x : Nat) (s : State), s.get LNK.LINK_STATUS.STATE n = 2) ∧
  (∃ (n : LinkNo) (s : State), s.retireDue n = true) ∧
  (∃ (n : LinkNo) (a : Nat) (s : State), (s.link n).retiredAt = some a ∧
      s.get LNK.CFG.AUTO_RETRAIN 0 = 1 ∧
      s.get LNK.LINK_STATUS.STATE n = 3 ∧
      a + 20000000 ≤ s.now) ∧
  (∃ (n : LinkNo) (_up : Bool) (s : State), s.get LNK.LINK_STATUS.STATE n = 1) ∧
  (∃ (v : Word) (s : State), s.hostReach 0 false = true ∧
      natBit v.toNat 8 = true ∧
      (s.get LNK.LINK_STATUS.STATE (bitsOf v 0 6) = 3 ∨ s.get LNK.LINK_STATUS.STATE (bitsOf v 0 6) = 4)) :=
  ⟨
    ⟨0, 5, wWith [(LNK.LINK_STATUS.STATE, 0, 2)], by decide +kernel⟩,
    ⟨0, { wWith [(LNK.LINK_STATUS.STATE, 0, 2)] with sw := { links := [(0, { tries := [(5, 8)] })] } }, by decide +kernel⟩,
    ⟨0, 7, { wWith [(LNK.LINK_STATUS.STATE, 0, 3), (LNK.CFG.AUTO_RETRAIN, 0, 1)] with sw := { links := [(0, { retiredAt := some 7 })] } }, by decide +kernel⟩,
    ⟨0, true, wWith [(LNK.LINK_STATUS.STATE, 0, 1)], by decide +kernel⟩,
    ⟨0x100, wWith [(LNK.LINK_STATUS.STATE, 0, 3)], by decide +kernel⟩⟩

/-- Each claim of LaneEventsTakeEffect is met somewhere: for every command a state and operands, and for the branches of its
conclusion. -/
theorem witness_LaneEventsTakeEffect :
  (∃ (l : LaneNo) (_cw : Codeword) (s : State), s.get LANE.CFG.MODE l ≠ 0) ∧
  (∃ (l : LaneNo) (cw : Codeword) (s : State) (n : Nat), s.get LANE.CFG.MODE l ≠ 0 ∧
      s.corrected l cw = some n) ∧
  (∃ (l : LaneNo) (cw : Codeword) (s : State), s.get LANE.CFG.MODE l ≠ 0 ∧
      s.corrected l cw = none) ∧
  (∃ (l : LaneNo) (_cw : Codeword) (s : State), s.get LANE.CFG.MODE l ≠ 0 ∧
      s.get LANE.CFG.MODE l = 1) ∧
  (∃ (l : LaneNo) (_v : Word) (_m : Fin 1021) (s : State), s.hostReach 0 false = true ∧
      s.get LANE.ALIGN_STATUS.DATA l = 0 ∧
      s.get LANE.CFG.MODE l = 1) ∧
  (∃ (l : LaneNo) (m : Fin 1021) (_st : BitVec 20) (s : State), s.get LANE.CFG.MODE l = 1 ∧
      1000 ≤ m.val ∧
      (∀ a, (s.lane l).slipAt = some a → a + 386 ≤ s.now) ∧
      s.get LANE.ALIGN_STATUS.RX_ALIGNED l = 0) ∧
  (∃ (x : PortNo) (r : List (List (BitVec 20))) (s : State), (s.lanesOf x).length = r.length ∧
      (∀ a ∈ r, 16 ≤ a.length ∧ ∀ v ∈ a.take 16, natBit v.toNat 0 = true) ∧
      (∀ l ∈ s.lanesOf x, s.get LANE.CFG.MODE l = 1 ∧ s.get LANE.ALIGN_STATUS.RX_ALIGNED l = 1 ∧ ((s.lane l).tx = .tp6 ∨ (s.lane l).tx = .data) ∧ s.get LANE.CFG.TX_SOURCE l ≠ 1 ∧ s.get LANE.CFG.TX_SOURCE l ≠ 2) ∧
      (∃ l ∈ s.lanesOf x, (s.lane l).tx = .tp6)) ∧
  (∃ (l : LaneNo) (_q : Fin 256) (_k : Nat) (s : State), s.get LANE.CFG.MODE l = 1 ∧
      s.get LANE.ALIGN_STATUS.RX_ALIGNED l = 1 ∧
      s.get LANE.ALIGN_STATUS.DATA l = 0 ∧
      4 ≤ (s.lane l).goodRun) ∧
  (∃ (l : LaneNo) (q : Fin 256) (k : Nat) (s : State) (x : Nat), s.get LANE.CFG.MODE l = 1 ∧
      s.get LANE.ALIGN_STATUS.RX_ALIGNED l = 1 ∧
      s.get LANE.ALIGN_STATUS.DATA l = 0 ∧
      4 ≤ (s.lane l).goodRun ∧
      s.laneOwner l = some x ∧
      (wNext (exec (.dataLock l ⟨q, k⟩) s)).deskewed x = true) ∧
  (∃ (l : LaneNo) (s : State), s.get LANE.ALIGN_STATUS.DATA l = 1 ∧
      8 ≤ (s.lane l).badRun) ∧
  (∃ (l : LaneNo) (s : State), s.get LANE.ALIGN_STATUS.DATA l = 1 ∧
      8 ≤ (s.lane l).badRun ∧
      (s.lane l).tx = .data ∨ (s.lane l).tx = .tp6) ∧
  (∃ (l : LaneNo) (s : State), s.get LANE.ALIGN_STATUS.DATA l = 1 ∧
      8 ≤ (s.lane l).badRun ∧
      (s.lane l).tx = .test) ∧
  (∃ (l : LaneNo) (d : Int) (_st : BitVec 20) (p : Nat) (s : State), s.get LANE.CFG.MODE l = 1 ∧
      s.get LANE.ALIGN_STATUS.RX_ALIGNED l = 0 ∧
      (s.lane l).lastAligned = some p ∧
      -8 ≤ d ∧
      d ≤ 8) ∧
  (∃ (l : LaneNo) (v : Word) (s : State), s.hostReach 0 false = true ∧
      (s.lane l).training = false ∧
      bitsOf v 0 5 ≤ 16 ∧
      32 ≤ bitsOf v 8 7 ∧
      bitsOf v 8 7 ≤ 64 ∧
      bitsOf v 16 5 ≤ 24 ∧
      bitsOf v 0 5 + bitsOf v 8 7 + bitsOf v 16 5 ≤ 64) :=
  ⟨
    ⟨3, { levels := [], symbols := [], lpi := false }, wWith [(LANE.CFG.MODE, 3, 1)], by decide +kernel⟩,
    ⟨3, { levels := List.replicate 1088 (0, 1), symbols := List.replicate 544 0, lpi := false }, wWith [(LANE.CFG.MODE, 3, 2)], 0, by decide +kernel⟩,
    ⟨3, { levels := [], symbols := [], lpi := false }, wWith [(LANE.CFG.MODE, 3, 1)], by decide +kernel⟩,
    ⟨3, { levels := [], symbols := [], lpi := false }, wWith [(LANE.CFG.MODE, 3, 1)], by decide +kernel⟩,
    ⟨3, 0, 0, wWith [(LANE.CFG.MODE, 3, 1)], by decide +kernel⟩,
    ⟨3, 1000, 1, wWith [(LANE.CFG.MODE, 3, 1)], by refine ⟨by decide +kernel, by decide +kernel, ?_, by decide +kernel⟩; intro a h; cases h⟩,
    ⟨0, [List.replicate 16 1], wSw [(LANE.CFG.MODE, 0, 1), (LANE.ALIGN_STATUS.RX_ALIGNED, 0, 1)] { lanes := [(0, { tx := .tp6 })] }, by decide +kernel, fun a ha => by obtain rfl := List.mem_singleton.mp ha; exact ⟨by decide +kernel, fun v hv => by rw [List.eq_of_mem_replicate (List.mem_of_mem_take hv)]; decide +kernel⟩, by decide +kernel, by decide +kernel⟩,
    ⟨3, 0, 0, { wWith [(LANE.CFG.MODE, 3, 1), (LANE.ALIGN_STATUS.RX_ALIGNED, 3, 1)] with sw := { lanes := [(3, { goodRun := 4 })] } }, by decide +kernel⟩,
    ⟨0, 0, 0, wSw [(LANE.CFG.MODE, 0, 1), (LANE.ALIGN_STATUS.RX_ALIGNED, 0, 1)] { lanes := [(0, { goodRun := 4 })] }, 0, by decide +kernel⟩,
    ⟨3, { wWith [(LANE.ALIGN_STATUS.DATA, 3, 1)] with sw := { lanes := [(3, { badRun := 8 })] } }, by decide +kernel⟩,
    ⟨3, { wWith [(LANE.ALIGN_STATUS.DATA, 3, 1)] with sw := { lanes := [(3, { badRun := 8, tx := .data })] } }, by decide +kernel⟩,
    ⟨3, { wWith [(LANE.ALIGN_STATUS.DATA, 3, 1)] with sw := { lanes := [(3, { badRun := 8, tx := .test })] } }, by decide +kernel⟩,
    ⟨3, 8, 1, 0, { wWith [(LANE.CFG.MODE, 3, 1)] with sw := { lanes := [(3, { lastAligned := some 0 })] } }, by decide +kernel⟩,
    ⟨3, 0x042008, wUp, by decide +kernel⟩⟩

/-- Each claim of LaneTrainingEventsTakeEffect is met somewhere: for every command a state and operands, and for the branches of its
conclusion. -/
theorem witness_LaneTrainingEventsTakeEffect :
  (∃ (l : LaneNo) (_a : Int) (_w : Nat) (s : State), 2 ≤ s.get LANE.CFG.MODE l ∧
      s.get LANE.CFG.IEEE_TRAIN_EN l = 1) ∧
  (∃ (l : LaneNo) (a : Int) (w : Nat) (s : State), 2 ≤ s.get LANE.CFG.MODE l ∧
      s.get LANE.CFG.IEEE_TRAIN_EN l = 1 ∧
      a = -1 ∧
      w ≤ 16 ∧
      s.get LANE.TX_FIR.C_MAIN l + s.get LANE.TX_FIR.C_POST l + w ≤ 64) ∧
  (∃ (l : LaneNo) (a : Int) (w : Nat) (s : State), 2 ≤ s.get LANE.CFG.MODE l ∧
      s.get LANE.CFG.IEEE_TRAIN_EN l = 1 ∧
      a = 0 ∧
      32 ≤ w ∧
      w ≤ 64 ∧
      s.get LANE.TX_FIR.C_PRE l + s.get LANE.TX_FIR.C_POST l + w ≤ 64) ∧
  (∃ (l : LaneNo) (a : Int) (w : Nat) (s : State), 2 ≤ s.get LANE.CFG.MODE l ∧
      s.get LANE.CFG.IEEE_TRAIN_EN l = 1 ∧
      a = 1 ∧
      w ≤ 24 ∧
      s.get LANE.TX_FIR.C_PRE l + s.get LANE.TX_FIR.C_MAIN l + w ≤ 64) ∧
  (∃ (l : LaneNo) (a : Int) (_w : Nat) (s : State), 2 ≤ s.get LANE.CFG.MODE l ∧
      s.get LANE.CFG.IEEE_TRAIN_EN l = 1 ∧
      a ≠ -1 ∧
      a ≠ 0 ∧
      a ≠ 1) ∧
  (∃ (_l : LaneNo) (_v : Word) (s : State), s.hostReach 0 false = true) ∧
  (∃ (l : LaneNo) (v : Word) (s : State), s.hostReach 0 false = true ∧
      (min (s.get LANE.RX_CFG.CURSOR_POS l) 23 ≠ min ((wNext (exec (.rxCfgWrite l v) s)).get LANE.RX_CFG.CURSOR_POS l) 23 ∨ s.get LANE.RX_CFG.DFE_EN l ≠ (wNext (exec (.rxCfgWrite l v) s)).get LANE.RX_CFG.DFE_EN l ∨ s.get LANE.RX_CFG.SEQ_DET_EN l ≠ (wNext (exec (.rxCfgWrite l v) s)).get LANE.RX_CFG.SEQ_DET_EN l)) ∧
  (∃ (l : LaneNo) (v : Word) (s : State), s.hostReach 0 false = true ∧
      min (s.get LANE.RX_CFG.CURSOR_POS l) 23 = min ((wNext (exec (.rxCfgWrite l v) s)).get LANE.RX_CFG.CURSOR_POS l) 23 ∧
      s.get LANE.RX_CFG.DFE_EN l = (wNext (exec (.rxCfgWrite l v) s)).get LANE.RX_CFG.DFE_EN l ∧
      s.get LANE.RX_CFG.SEQ_DET_EN l = (wNext (exec (.rxCfgWrite l v) s)).get LANE.RX_CFG.SEQ_DET_EN l) ∧
  (∃ (k : Fin 2) (s : State), s.synceUsable k = false ∧
      s.get TIME.SYNCE.SQUELCHED k = 0) ∧
  (∃ (l : LaneNo) (s : State), s.get LANE.CFG.MODE l ≠ 0) ∧
  (∃ (l : LaneNo) (_q : Fin 256) (_ffe : List Int) (_dfe : Int) (s : State), s.get LANE.RX_CFG.ADAPT_EN l = 1 ∧
      s.get LANE.RX_CFG.FREEZE l = 0 ∧
      s.get LANE.RX_STATUS.CDR_LOCK l = 1 ∧
      s.get LANE.IDLE_STATUS.RX_IDLE l = 0) ∧
  (∃ (l : LaneNo) (s : State), 2 ≤ s.get LANE.CFG.MODE l) ∧
  (∃ (l : LaneNo) (_ph : Fin 2) (_n : Nat) (s : State), s.get LANE.TEST.CHECK_EN l = 1) ∧
  (∃ (l : LaneNo) (ph : Fin 2) (_n : Nat) (s : State), s.get LANE.TEST.CHECK_EN l = 1 ∧
      s.get LANE.TEST.CHECK_SYNC l = 0 ∧
      (s.get LANE.CFG.MODE l ≠ 1 ∨ ((s.lane l).pos + ph.val) % 2 = 0)) ∧
  (∃ (l : LaneNo) (ph : Fin 2) (_n : Nat) (s : State), s.get LANE.TEST.CHECK_EN l = 1 ∧
      s.get LANE.TEST.CHECK_SYNC l = 0 ∧
      s.get LANE.CFG.MODE l = 1 ∧
      ((s.lane l).pos + ph.val) % 2 = 1) ∧
  (∃ (l : LaneNo) (_ph : Fin 2) (_n : Nat) (s : State), s.get LANE.TEST.CHECK_EN l = 1 ∧
      s.get LANE.TEST.CHECK_SYNC l = 1) :=
  ⟨
    ⟨3, 0, 0, wWith [(LANE.CFG.MODE, 3, 2), (LANE.CFG.IEEE_TRAIN_EN, 3, 1)], by decide +kernel⟩,
    ⟨3, -1, 16, wWith [(LANE.TX_FIR.C_MAIN, 3, 40), (LANE.CFG.MODE, 3, 2), (LANE.CFG.IEEE_TRAIN_EN, 3, 1)], by decide +kernel⟩,
    ⟨3, 0, 32, wWith [(LANE.CFG.MODE, 3, 2), (LANE.CFG.IEEE_TRAIN_EN, 3, 1)], by decide +kernel⟩,
    ⟨3, 1, 0, wWith [(LANE.CFG.MODE, 3, 2), (LANE.CFG.IEEE_TRAIN_EN, 3, 1)], by decide +kernel⟩,
    ⟨3, -7, 5, wWith [(LANE.CFG.MODE, 3, 2), (LANE.CFG.IEEE_TRAIN_EN, 3, 1)], by decide +kernel⟩,
    ⟨3, 0, wUp, by decide +kernel⟩,
    ⟨3, 0x1F00, wUp, by decide +kernel⟩,
    ⟨3, 0x60D, wUp, by decide +kernel⟩,
    ⟨0, wWith [(TIME.SYNCE.SQUELCHED, 0, 0)], by decide +kernel⟩,
    ⟨3, wWith [(LANE.CFG.MODE, 3, 1)], by decide +kernel⟩,
    ⟨3, 0, [], 0, wWith [(LANE.RX_CFG.ADAPT_EN, 3, 1), (LANE.RX_CFG.FREEZE, 3, 0), (LANE.RX_STATUS.CDR_LOCK, 3, 1)], by decide +kernel⟩,
    ⟨3, wWith [(LANE.CFG.MODE, 3, 2)], by decide +kernel⟩,
    ⟨3, 0, 0, wWith [(LANE.TEST.CHECK_EN, 3, 1)], by decide +kernel⟩,
    ⟨3, 0, 0, wWith [(LANE.TEST.CHECK_EN, 3, 1)], by decide +kernel⟩,
    ⟨3, 1, 0, wWith [(LANE.TEST.CHECK_EN, 3, 1), (LANE.CFG.MODE, 3, 1)], by decide +kernel⟩,
    ⟨3, 0, 9, wWith [(LANE.TEST.CHECK_EN, 3, 1), (LANE.TEST.CHECK_SYNC, 3, 1)], by decide +kernel⟩⟩

/-- Each claim of MacEventsTakeEffect is met somewhere: for every command a state and operands, and for the branches of its
conclusion. -/
theorem witness_MacEventsTakeEffect :
  (∃ (x : PortNo) (bytes : List Byte) (_n : Nat) (_ph : Fin 4) (s : State), s.portUp x = true ∧
      (s.port x).rx = none ∧
      (s.port x).rxRefused = false ∧
      be16 bytes 12 ≠ 0x8808) ∧
  (∃ (x : PortNo) (bytes : List Byte) (_n : Nat) (_ph : Fin 4) (s : State), s.portUp x = true ∧
      (s.port x).rx = none ∧
      (s.port x).rxRefused = false ∧
      be16 bytes 12 ≠ 0x8808 ∧
      s.maxFrame x ≤ s.ififoSpace (portPipe x) ∧
      (s.get PIPE.IFIFO_STATUS.XOFF_ACTIVE (portPipe x) = 0 ∨ s.get PIPE.IFIFO_CFG.LOSSY_DROP_EN (portPipe x) = 0 ∨ s.lossless x (s.framePrio x bytes) = true)) ∧
  (∃ (x : PortNo) (bytes : List Byte) (_n : Nat) (_ph : Fin 4) (s : State), s.portUp x = true ∧
      (s.port x).rx = none ∧
      (s.port x).rxRefused = false ∧
      be16 bytes 12 ≠ 0x8808 ∧
      s.ififoSpace (portPipe x) < s.maxFrame x) ∧
  (∃ (x : PortNo) (bytes : List Byte) (_n : Nat) (_ph : Fin 4) (s : State), s.portUp x = true ∧
      (s.port x).rx = none ∧
      (s.port x).rxRefused = false ∧
      be16 bytes 12 ≠ 0x8808 ∧
      s.get PIPE.IFIFO_STATUS.XOFF_ACTIVE (portPipe x) = 1 ∧
      s.get PIPE.IFIFO_CFG.LOSSY_DROP_EN (portPipe x) = 1 ∧
      s.lossless x (s.framePrio x bytes) = false) ∧
  (∃ (p : PipeNo) (s : State), s.xoffLevel p ≤ (s.pipe p).fill ∧
      s.get PIPE.IFIFO_STATUS.XOFF_ACTIVE p = 0) ∧
  (∃ (p : PipeNo) (s : State), s.xoffLevel p ≤ (s.pipe p).fill ∧
      s.get PIPE.IFIFO_STATUS.XOFF_ACTIVE p = 0 ∧
      s.get PIPE.IFIFO_CFG.INT_EN p = 1) ∧
  (∃ (p : PipeNo) (s : State), s.get PIPE.IFIFO_STATUS.XOFF_ACTIVE p = 1 ∧
      (s.pipe p).fill < s.xonLevel p) ∧
  (∃ (x : PortNo) (_e : RxEnd) (s : State), (s.port x).rx.isSome = true ∨ (s.port x).rxRefused = true) ∧
  (∃ (x : PortNo) (e : RxEnd) (s : State), (s.port x).rx.isSome = true ∨ (s.port x).rxRefused = true ∧
      rxCheck e (s.rxGot x e) (s.maxFrame x) = none) ∧
  (∃ (x : PortNo) (e : RxEnd) (s : State) (c : Nat) (r : Nat), (s.port x).rx.isSome = true ∨ (s.port x).rxRefused = true ∧
      rxCheck e (s.rxGot x e) (s.maxFrame x) = some (c, r)) ∧
  (∃ (x : PortNo) (_e : RxEnd) (s : State) (k : Nat) (v : Packet), (s.port x).rx.isSome = true ∨ (s.port x).rxRefused = true ∧
      (s.port x).rxRefused = false ∧
      (s.port x).rx = some k ∧
      s.packet k = some v ∧
      v.place ≠ .discard) ∧
  (∃ (x : PortNo) (s : State), s.portUp x = true ∧
      s.get PORT.PFC_CFG.TX_EN x = 1 ∧
      (s.port x).sending = none ∧
      s.portIdle x = false ∧
      s.pfcPending x ≠ 0) ∧
  (∃ (x : PortNo) (s : State) (p : Nat), s.portUp x = true ∧
      s.get PORT.PFC_CFG.TX_EN x = 1 ∧
      (s.port x).sending = none ∧
      s.portIdle x = false ∧
      s.pfcPending x ≠ 0 ∧
      p < 8 ∧
      natBit (s.pfcPending x) p = true ∧
      natBit (s.pfcWants x) p = true) ∧
  (∃ (x : PortNo) (p : Fin 8) (s : State), natBit (s.pfcWants x) p = true ∧
      natBit (s.get PORT.PFC_STATUS.TX_PAUSING x) p = true ∧
      tabGet 0 (s.port x).lastXoff p + s.quantaTicks x (s.refreshQuanta x) ≤ s.now) ∧
  (∃ (x : PortNo) (_en : BitVec 8) (_times : List Nat) (s : State), s.portUp x = true) ∧
  (∃ (x : PortNo) (_en : BitVec 8) (_times : List Nat) (s : State), s.portUp x = true ∧
      s.get PORT.PFC_CFG.RX_EN x = 1) ∧
  (∃ (x : PortNo) (_en : BitVec 8) (_times : List Nat) (s : State), s.portUp x = true ∧
      s.get PORT.PFC_CFG.RX_EN x = 0) ∧
  (∃ (x : PortNo) (p : Fin 8) (a : Nat) (s : State), tabFind (s.port x).pauseUntil p = some a ∧
      a ≤ s.now) ∧
  (∃ (x : PortNo) (s : State), s.portUp x = true) ∧
  (∃ (x : PortNo) (p : Fin 8) (a : Nat) (s : State), tabFind (s.port x).pausedSince p = some a ∧
      s.get PORT.PFC_CFG.WD_MS x ≠ 0 ∧
      a + s.get PORT.PFC_CFG.WD_MS x * msTicks < s.now) :=
  ⟨
    ⟨0, [], 0, 0, wPort [] {}, by decide +kernel⟩,
    ⟨0, [], 0, 0, wPort [] {}, by decide +kernel⟩,
    ⟨0, [], 0, 0, wPipe [] { fill := 10 ^ 7 }, by decide +kernel⟩,
    ⟨0, [], 0, 0, wPipe [(PIPE.IFIFO_STATUS.XOFF_ACTIVE, 0, 1), (PIPE.IFIFO_CFG.XON_LEVEL, 0, 8)] {}, by decide +kernel⟩,
    ⟨0, wPipe [] { fill := 10 ^ 7 }, by decide +kernel⟩,
    ⟨0, wPipe [(PIPE.IFIFO_CFG.INT_EN, 0, 1)] { fill := 10 ^ 7 }, by decide +kernel⟩,
    ⟨0, wPipe [(PIPE.IFIFO_STATUS.XOFF_ACTIVE, 0, 1), (PIPE.IFIFO_CFG.XON_LEVEL, 0, 8)] {}, by decide +kernel⟩,
    ⟨0, { length := 64, pcsError := false, lost := false }, wPort [] { rx := some 5 }, by decide +kernel⟩,
    ⟨0, { length := 64, pcsError := false, lost := false }, wPort [] { rx := some 5, rxBytes := List.replicate 60 0 ++ fcsOf (List.replicate 60 0) }, by decide +kernel⟩,
    ⟨0, { length := 63, pcsError := false, lost := false }, wPort [] { rx := some 5 }, cntRxTooShort, dropTooShort, by decide +kernel⟩,
    ⟨0, { length := 64, pcsError := false, lost := false }, wSw [] { ports := [(0, { rx := some 5 })], packets := [(5, wPacket)] }, 5, wPacket, by decide +kernel⟩,
    ⟨0, wPort [(PORT.PFC_CFG.TX_EN, 0, 1), (PORT.PFC_CFG.LOSSLESS, 0, 255), (PIPE.IFIFO_STATUS.XOFF_ACTIVE, 0, 1)] {}, by decide +kernel⟩,
    ⟨0, wPort [(PORT.PFC_CFG.TX_EN, 0, 1), (PORT.PFC_CFG.LOSSLESS, 0, 255), (PIPE.IFIFO_STATUS.XOFF_ACTIVE, 0, 1)] {}, 0, by decide +kernel⟩,
    ⟨0, 3, wPort [(PORT.PFC_STATUS.TX_PAUSING, 0, 255), (PORT.PFC_CFG.LOSSLESS, 0, 255), (PIPE.IFIFO_STATUS.XOFF_ACTIVE, 0, 1)] {}, by decide +kernel⟩,
    ⟨0, 0xFF, [], wPort [(PORT.PFC_CFG.RX_EN, 0, 1)] {}, by decide +kernel⟩,
    ⟨0, 0xFF, [], wPort [(PORT.PFC_CFG.RX_EN, 0, 1)] {}, by decide +kernel⟩,
    ⟨0, 0xFF, [], wPort [] {}, by decide +kernel⟩,
    ⟨0, 3, 5, wPort [] { pauseUntil := [(3, 5)] }, by decide +kernel⟩,
    ⟨0, wPort [] {}, by decide +kernel⟩,
    ⟨0, 3, 5, wPort [(PORT.PFC_CFG.WD_MS, 0, 10)] { pausedSince := [(3, 5)] }, by decide +kernel⟩⟩

/-- Each claim of PortEventsTakeEffect is met somewhere: for every command a state and operands, and for the branches of its
conclusion. -/
theorem witness_PortEventsTakeEffect :
  (∃ (x : PortNo) (s : State), s.mayIdle x = true) ∧
  (∃ (x : PortNo) (s : State), s.portIdle x = true ∧
      (s.port x).lastRefresh + s.refreshUs x * usTicks ≤ s.now) ∧
  (∃ (l : LaneNo) (s : State), s.get LANE.IDLE_STATUS.RX_IDLE l = 1 ∧
      (s.lane l).burstAt + 4 * s.refreshUs l * usTicks ≤ s.now) ∧
  (∃ (x : PortNo) (s : State), s.portIdle x = true ∧
      s.portHasWork x = true) ∧
  (∃ (l : LaneNo) (_f : Bool) (s : State), s.get LANE.IDLE_STATUS.RX_IDLE l = 1) ∧
  (∃ (l : LaneNo) (k : FaultKind) (x : Nat) (s : State), s.laneOwner l = some x ∧
      l.val ∈ s.lanesOf x ∧
      (k = .lossOfSignal → (s.lane l).lpiSeen = true ∨ s.get LANE.IDLE_STATUS.RX_IDLE l = 0)) ∧
  (∃ (l : LaneNo) (k : FaultKind) (x : Nat) (s : State), s.laneOwner l = some x ∧
      l.val ∈ s.lanesOf x ∧
      (k = .lossOfSignal → (s.lane l).lpiSeen = true ∨ s.get LANE.IDLE_STATUS.RX_IDLE l = 0) ∧
      k = .lossOfSignal ∧
      (s.lane l).lpiSeen = true) ∧
  (∃ (l : LaneNo) (k : FaultKind) (x : Nat) (s : State), s.laneOwner l = some x ∧
      l.val ∈ s.lanesOf x ∧
      (k = .lossOfSignal → (s.lane l).lpiSeen = true ∨ s.get LANE.IDLE_STATUS.RX_IDLE l = 0) ∧
      k = .lossOfSignal ∧
      (s.lane l).lpiSeen = false) ∧
  (∃ (l : LaneNo) (k : FaultKind) (x : Nat) (s : State), s.laneOwner l = some x ∧
      l.val ∈ s.lanesOf x ∧
      (k = .lossOfSignal → (s.lane l).lpiSeen = true ∨ s.get LANE.IDLE_STATUS.RX_IDLE l = 0) ∧
      k = .cdrLock) ∧
  (∃ (l : LaneNo) (k : FaultKind) (x : Nat) (s : State), s.laneOwner l = some x ∧
      l.val ∈ s.lanesOf x ∧
      (k = .lossOfSignal → (s.lane l).lpiSeen = true ∨ s.get LANE.IDLE_STATUS.RX_IDLE l = 0) ∧
      k = .deskew) ∧
  (∃ (l : LaneNo) (k : FaultKind) (x : Nat) (s : State), s.laneOwner l = some x ∧
      l.val ∈ s.lanesOf x ∧
      (k = .lossOfSignal → (s.lane l).lpiSeen = true ∨ s.get LANE.IDLE_STATUS.RX_IDLE l = 0) ∧
      k = .alignLost) ∧
  (∃ (l : LaneNo) (k : FaultKind) (x : Nat) (s : State), s.laneOwner l = some x ∧
      l.val ∈ s.lanesOf x ∧
      (k = .lossOfSignal → (s.lane l).lpiSeen = true ∨ s.get LANE.IDLE_STATUS.RX_IDLE l = 0) ∧
      k = .remote) ∧
  (∃ (l : LaneNo) (k : FaultKind) (x : Nat) (s : State), s.laneOwner l = some x ∧
      l.val ∈ s.lanesOf x ∧
      (k = .lossOfSignal → (s.lane l).lpiSeen = true ∨ s.get LANE.IDLE_STATUS.RX_IDLE l = 0) ∧
      k ≠ .remote ∧
      (k ≠ .lossOfSignal ∨ (s.lane l).lpiSeen = false)) ∧
  (∃ (l : LaneNo) (k : FaultKind) (x : Nat) (s : State), s.laneOwner l = some x ∧
      l.val ∈ s.lanesOf x ∧
      (k = .lossOfSignal → (s.lane l).lpiSeen = true ∨ s.get LANE.IDLE_STATUS.RX_IDLE l = 0) ∧
      (k ≠ .lossOfSignal ∨ (s.lane l).lpiSeen = false)) ∧
  (∃ (x : PortNo) (a : Nat) (s : State), (s.port x).faultSince = some a ∧
      s.portUp x = true ∧
      a + s.get PORT.CFG.DOWN_DEBOUNCE_US x * usTicks ≤ s.now) ∧
  (∃ (x : PortNo) (a : Nat) (s : State) (k : Nat) (f : Flight), (s.port x).faultSince = some a ∧
      s.portUp x = true ∧
      a + s.get PORT.CFG.DOWN_DEBOUNCE_US x * usTicks ≤ s.now ∧
      (s.port x).sending = some k ∧
      s.flight k = some f ∧
      f.port = x.val) ∧
  (∃ (x : PortNo) (s : State), s.mayComeUp x = true) ∧
  (∃ (x : PortNo) (_v : Word) (s : State), s.hostReach 0 false = true ∧
      s.portExists x = true) ∧
  (∃ (x : PortNo) (_v : Word) (s : State), s.hostReach 0 false = true ∧
      s.portExists x = true ∧
      s.get PORT.CFG.ENABLE x = 0) ∧
  (∃ (x : PortNo) (_v : Word) (s : State), s.hostReach 0 false = true ∧
      s.portExists x = true) ∧
  (∃ (l : LaneNo) (_k : FaultKind) (x : Nat) (s : State), s.laneOwner l = some x) ∧
  (∃ (l : LaneNo) (k : FaultKind) (x : Nat) (s : State), s.laneOwner l = some x ∧
      k = .lossOfSignal) ∧
  (∃ (l : LaneNo) (k : FaultKind) (x : Nat) (s : State), s.laneOwner l = some x ∧
      k = .cdrLock) ∧
  (∃ (l : LaneNo) (k : FaultKind) (x : Nat) (s : State), s.laneOwner l = some x ∧
      k = .deskew) ∧
  (∃ (l : LaneNo) (k : FaultKind) (x : Nat) (s : State), s.laneOwner l = some x ∧
      k = .remote) ∧
  (∃ (l : LaneNo) (k : FaultKind) (x : Nat) (s : State), s.laneOwner l = some x ∧
      (wNext (exec (.portFaultEnd l k) s)).localFault x = false ∧
      ((wNext (exec (.portFaultEnd l k) s)).port x).remote = false) :=
  ⟨
    ⟨0, wLane [(PACE.CADENCE_SET.MODE, 0, 3), (LANE.CFG.MODE, 0, 1), (LANE.IDLE_CFG.IDLE_EN, 0, 1)] { tx := .data }, by decide +kernel⟩,
    ⟨0, wPort [(LANE.IDLE_STATUS.TX_IDLE, 0, 1)] {}, by decide +kernel⟩,
    ⟨0, wLane [(LANE.IDLE_STATUS.RX_IDLE, 0, 1)] {}, by decide +kernel⟩,
    ⟨0, wPort [(LANE.IDLE_STATUS.TX_IDLE, 0, 1)] { efifo := [7] }, by decide +kernel⟩,
    ⟨0, false, wLane [(LANE.IDLE_STATUS.RX_IDLE, 0, 1)] {}, by decide +kernel⟩,
    ⟨0, .lossOfSignal, 0, wPort [] {}, by decide +kernel⟩,
    ⟨0, .lossOfSignal, 0, wLane [] { lpiSeen := true }, by decide +kernel⟩,
    ⟨0, .lossOfSignal, 0, wPort [] {}, by decide +kernel⟩,
    ⟨0, .cdrLock, 0, wLane [] {}, by decide +kernel⟩,
    ⟨0, .deskew, 0, wLane [] {}, by decide +kernel⟩,
    ⟨0, .alignLost, 0, wLane [] {}, by decide +kernel⟩,
    ⟨0, .remote, 0, wLane [] {}, by decide +kernel⟩,
    ⟨0, .lossOfSignal, 0, wPort [] {}, by decide +kernel⟩,
    ⟨0, .lossOfSignal, 0, wPort [] {}, by decide +kernel⟩,
    ⟨0, 5, wPort [] { faultSince := some 5 }, by decide +kernel⟩,
    ⟨0, 5, wSw [] { ports := [(0, { faultSince := some 5, sending := some 2 })], flights := [(2, wFlight)] }, 2, wFlight, by decide +kernel⟩,
    ⟨0, wPort [(PORT.STATUS.LINK_UP, 0, 0), (PORT.CFG.ENABLE, 0, 1)] { clearSince := some 0 }, by decide +kernel⟩,
    ⟨0, 0, wPort [] {}, by decide +kernel⟩,
    ⟨0, 0, wPort [] {}, by decide +kernel⟩,
    ⟨0, 0, wPort [] {}, by decide +kernel⟩,
    ⟨0, .cdrLock, 0, wLane [] {}, by decide +kernel⟩,
    ⟨0, .lossOfSignal, 0, wLane [] {}, by decide +kernel⟩,
    ⟨0, .cdrLock, 0, wLane [] {}, by decide +kernel⟩,
    ⟨0, .deskew, 0, wLane [] {}, by decide +kernel⟩,
    ⟨0, .remote, 0, wLane [] {}, by decide +kernel⟩,
    ⟨0, .remote, 0, wSw [(LANE.CFG.MODE, 0, 1), (PORT.STATUS.DESKEW_OK, 0, 1), (LANE.RX_STATUS.SIGNAL, 0, 1), (LANE.RX_STATUS.CDR_LOCK, 0, 1), (LANE.ALIGN_STATUS.RX_ALIGNED, 0, 1), (LANE.ALIGN_STATUS.DATA, 0, 1)] { ports := [(0, { remote := true })] }, by decide +kernel⟩⟩

/-- Each claim of CageEventsTakeEffect is met somewhere: for every command a state and operands, and for the branches of its
conclusion. -/
theorem witness_CageEventsTakeEffect :
  (∃ (c : Fin 2) (_bs : List Byte) (_ck : BitVec 16) (s : State), (s.chain c).started = true) ∧
  (∃ (c : Fin 2) (bs : List Byte) (ck : BitVec 16) (s : State), (s.chain c).started = true ∧
      bs.length = 32 ∧
      ck = 0x5A3C ∧
      bs.all sideOk = true) ∧
  (∃ (c : Fin 2) (bs : List Byte) (ck : BitVec 16) (s : State), (s.chain c).started = true ∧
      (bs.length ≠ 32 ∨ ck ≠ 0x5A3C ∨ bs.all sideOk = false)) ∧
  (∃ (k : Fin 64) (s : State), s.cageManaged k = true ∧
      s.cageState k = cageEmpty ∧
      (s.cage k).present = true ∧
      (s.cage k).presentSince + 100 * msTicks ≤ s.now) ∧
  (∃ (k : Fin 64) (s : State), s.cageManaged k = true ∧
      s.cageState k = cagePowering ∧
      s.get MOD.CAGE_STATUS.PWR_GOOD k = 1) ∧
  (∃ (k : Fin 64) (s : State), s.cageManaged k = true ∧
      s.cageState k = cageReset ∧
      (s.cage k).enteredAt + 10 * msTicks ≤ s.now) ∧
  (∃ (k : Fin 64) (s : State), s.cageManaged k = true ∧
      s.cageState k = cageReset ∧
      s.busDoes .poll k = true) ∧
  (∃ (k : Fin 64) (_id : ModuleId) (s : State), s.cageManaged k = true ∧
      s.cageState k = cageIdentify ∧
      s.busDoes .identify k = true) ∧
  (∃ (k : Fin 64) (s : State), s.cageManaged k = true ∧
      s.cageState k = cageLowPower ∧
      s.octetEnabled k = true ∧
      s.get MOD.CAGE_CTRL.HOLD_LOW_POWER k = 0) ∧
  (∃ (k : Fin 64) (failed : Bool) (d : Nat) (s : State), s.cageManaged k = true ∧
      cagePowering ≤ s.cageState k ∧
      s.cageState k ≤ cageActive ∧
      (failed = true ∨ cageLimit (s.cageState k) = some d ∧ (s.cage k).enteredAt + d ≤ s.now)) :=
  ⟨
    ⟨0, List.replicate 32 1, 0, { wUp with mod := { chains := [(0, { started := true, loaded := true })] } }, by decide +kernel⟩,
    ⟨0, List.replicate 32 1, 0x5A3C, { wUp with mod := { chains := [(0, { started := true, loaded := true })] } }, by decide +kernel⟩,
    ⟨0, List.replicate 32 1, 0, { wUp with mod := { chains := [(0, { started := true, loaded := true })] } }, by decide +kernel⟩,
    ⟨0, wCage cageEmpty [] { present := true }, by decide +kernel⟩,
    ⟨0, wCage cagePowering [(MOD.CAGE_STATUS.PWR_GOOD, 0, 1)] {}, by decide +kernel⟩,
    ⟨0, wCage cageReset [] {}, by decide +kernel⟩,
    ⟨0, wBus .poll none cageReset [] {}, by decide +kernel⟩,
    ⟨0, wModule, wBus .identify none cageIdentify [] {}, by decide +kernel⟩,
    ⟨0, wCage cageLowPower [(PORT.CFG.ENABLE, 0, 1), (MOD.CAGE_CTRL.HOLD_LOW_POWER, 0, 0)] {}, by decide +kernel⟩,
    ⟨0, true, 0, wCage cageReset [] {}, by decide +kernel⟩⟩

/-- Each claim of ModuleEventsTakeEffect is met somewhere: for every command a state and operands, and for the branches of its
conclusion. -/
theorem witness_ModuleEventsTakeEffect :
  (∃ (k : Fin 64) (s : State), s.cageManaged k = true ∧
      s.cageState k ≠ cageEmpty ∧
      (s.cage k).present = false) ∧
  (∃ (k : Fin 64) (s : State) (c : ModCmd), s.cageManaged k = true ∧
      s.cageState k ≠ cageEmpty ∧
      (s.cage k).present = false ∧
      s.mod.cmd = some c ∧
      c.cage = k.val) ∧
  (∃ (k : Fin 64) (s : State), (s.cage k).intDue = true) ∧
  (∃ (b : Fin 8) (_rm : Bool) (u : BusUse) (k : Nat) (s : State), (s.bus b).cur = some (u, k) ∧
      (s.bus b).running = true) ∧
  (∃ (b : Fin 8) (_rm : Bool) (u : BusUse) (k : Nat) (s : State), (s.bus b).cur = some (u, k) ∧
      (s.bus b).running = true ∧
      u = .host ∧
      s.mod.cmd ≠ none) ∧
  (∃ (k : Fin 64) (_temp : Int) (_bias : List Nat) (_age : Option (Fin 101)) (id : ModuleId) (s : State), (s.cage k).ident = some id ∧
      s.lifeDue k = true ∧
      s.busDoes .life k = true) ∧
  (∃ (k : Fin 64) (_temp : Int) (bias : List Nat) (_age : Option (Fin 101)) (id : ModuleId) (s : State) (i : Nat) (w : Nat) (b : Nat) (n : Nat), (s.cage k).ident = some id ∧
      s.lifeDue k = true ∧
      s.busDoes .life k = true ∧
      (s.cage k).wear[i]? = some w ∧
      bias[i]? = some b ∧
      id.nominal = some n) ∧
  (∃ (k : Fin 64) (_temp : Int) (bias : List Nat) (_age : Option (Fin 101)) (id : ModuleId) (s : State) (i : Nat) (w : Nat) (b : Nat), (s.cage k).ident = some id ∧
      s.lifeDue k = true ∧
      s.busDoes .life k = true ∧
      (s.cage k).wear[i]? = some w ∧
      bias[i]? = some b ∧
      id.nominal = none ∧
      (s.cage k).firstBias = []) ∧
  (∃ (k : Fin 64) (s : State), s.lifeKept k = true ∧
      (s.cage k).lifeAt + 86400 * secTicks ≤ s.now) ∧
  (∃ (v : Word) (s : State), s.hostReach 0 false = true ∧
      natBit v.toNat 37 = true ∧
      s.get MOD.CMD.BUSY 0 = 0) ∧
  (∃ (v : Word) (s : State), s.hostReach 0 false = true ∧
      natBit v.toNat 37 = true ∧
      s.get MOD.CMD.BUSY 0 = 0 ∧
      s.ready rdyMod = true ∧
      s.cageState (bitsOf v MOD.CMD.CAGE.lo MOD.CMD.CAGE.width) ≠ cageEmpty ∧
      (bitsOf v MOD.CMD.WRITE.lo MOD.CMD.WRITE.width = 0 ∨ s.get MOD.CAGE_CTRL.HOST_OWNED (bitsOf v MOD.CMD.CAGE.lo MOD.CMD.CAGE.width) = 1)) ∧
  (∃ (v : Word) (s : State), s.hostReach 0 false = true ∧
      natBit v.toNat 37 = true ∧
      s.get MOD.CMD.BUSY 0 = 0 ∧
      s.ready rdyMod = false) ∧
  (∃ (v : Word) (s : State), s.hostReach 0 false = true ∧
      natBit v.toNat 37 = true ∧
      s.get MOD.CMD.BUSY 0 = 0 ∧
      s.ready rdyMod = true ∧
      s.cageState (bitsOf v MOD.CMD.CAGE.lo MOD.CMD.CAGE.width) = cageEmpty) ∧
  (∃ (v : Word) (s : State), s.hostReach 0 false = true ∧
      natBit v.toNat 37 = true ∧
      s.get MOD.CMD.BUSY 0 = 0 ∧
      s.ready rdyMod = true ∧
      s.cageState (bitsOf v MOD.CMD.CAGE.lo MOD.CMD.CAGE.width) ≠ cageEmpty ∧
      bitsOf v MOD.CMD.WRITE.lo MOD.CMD.WRITE.width = 1 ∧
      s.get MOD.CAGE_CTRL.HOST_OWNED (bitsOf v MOD.CMD.CAGE.lo MOD.CMD.CAGE.width) = 0) ∧
  (∃ (_o : BusEnd) (_bs : List Byte) (c : ModCmd) (s : State), s.mod.cmd = some c ∧
      s.busDoes .host c.cage = true ∧
      c.len ≤ 8) ∧
  (∃ (o : BusEnd) (_bs : List Byte) (c : ModCmd) (s : State), s.mod.cmd = some c ∧
      s.busDoes .host c.cage = true ∧
      c.len ≤ 8 ∧
      o = .ok ∧
      c.write = false) ∧
  (∃ (o : BusEnd) (_bs : List Byte) (c : ModCmd) (s : State), s.mod.cmd = some c ∧
      s.busDoes .host c.cage = true ∧
      c.len ≤ 8 ∧
      (o ≠ .ok ∨ c.write = true)) :=
  ⟨
    ⟨0, wCage cageReset [] {}, by decide +kernel⟩,
    ⟨0, wBus .host (some wModCmd) cageActive [(MOD.CMD.BUSY, 0, 1)] {}, wModCmd, by decide +kernel⟩,
    ⟨0, wCage cageActive [] { intDue := true }, by decide +kernel⟩,
    ⟨0, false, .host, 0, wBus .host (some wModCmd) cageActive [(MOD.CMD.BUSY, 0, 1)] {}, by decide +kernel⟩,
    ⟨0, false, .host, 0, wBus .host (some wModCmd) cageActive [(MOD.CMD.BUSY, 0, 1)] {}, by decide +kernel⟩,
    ⟨0, 0, [5], none, { wModule with nominal := some 7 }, wBus .life none cageActive [] { ident := some { wModule with nominal := some 7 }, wear := [3] }, by decide +kernel⟩,
    ⟨0, 0, [5], none, { wModule with nominal := some 7 }, wBus .life none cageActive [] { ident := some { wModule with nominal := some 7 }, wear := [3] }, 0, 3, 5, 7, by decide +kernel⟩,
    ⟨0, 0, [5], none, wModule, wBus .life none cageActive [] { ident := some wModule, wear := [3] }, 0, 3, 5, by decide +kernel⟩,
    ⟨0, wCage cageActive [] { ident := some wModule }, by decide +kernel⟩,
    ⟨0x2000000000, wCage cageActive [] {}, by decide +kernel⟩,
    ⟨0x2000000000, wCage cageActive [] {}, by decide +kernel⟩,
    ⟨0x2000000000, wWith [(TOP.READY.BITS, 0, 0xF)], by decide +kernel⟩,
    ⟨0x2000000000, { wUp with mod := { chains := [(0, { started := true, loaded := true })] } }, by decide +kernel⟩,
    ⟨0x2000000000 + 2 ^ MOD.CMD.WRITE.lo, wCage cageActive [] {}, by decide +kernel⟩,
    ⟨.ok, [9], wModCmd, wBus .host (some wModCmd) cageActive [(MOD.CMD.BUSY, 0, 1)] {}, by decide +kernel⟩,
    ⟨.ok, [9], wModCmd, wBus .host (some wModCmd) cageActive [(MOD.CMD.BUSY, 0, 1)] {}, by decide +kernel⟩,
    ⟨.nack, [], wModCmd, wBus .host (some wModCmd) cageActive [(MOD.CMD.BUSY, 0, 1)] {}, by decide +kernel⟩⟩

/-- Each claim of PipeEventsTakeEffect is met somewhere: for every command a state and operands, and for the branches of its
conclusion. -/
theorem witness_PipeEventsTakeEffect :
  (∃ (p : AnyPipe) (s : State), (s.pipe p).tokens ≠ 0 ∧
      s.posFree p 0 = true) ∧
  (∃ (p : AnyPipe) (s : State), (s.pipe p).tokens ≠ 0 ∧
      s.posFree p 0 = true ∧
      p.val < 16 ∧
      (s.pipe p).fencePending = false ∧
      s.cf.due = []) ∧
  (∃ (p : AnyPipe) (s : State), (s.pipe p).tokens ≠ 0 ∧
      s.posFree p 0 = true ∧
      16 ≤ p.val ∧
      s.cf.due = []) ∧
  (∃ (p : AnyPipe) (w : Wave) (s : State), s.waveAt p 0 = some w ∧
      s.posFree p 1 = true) ∧
  (∃ (p : AnyPipe) (w : Wave) (s : State), s.waveAt p 0 = some w ∧
      s.posFree p 1 = true ∧
      w.heads.Nodup) ∧
  (∃ (p : AnyPipe) (k : Fin 32) (w : Wave) (s : State), s.waveAt p (k.val + 1) = some w ∧
      k.val + 1 < lastPos p ∧
      s.posFree p (k.val + 2) = true) ∧
  (∃ (p : AnyPipe) (k : Fin 32) (w : Wave) (s : State) (h : Nat) (v : Packet), s.waveAt p (k.val + 1) = some w ∧
      k.val + 1 < lastPos p ∧
      s.posFree p (k.val + 2) = true ∧
      w.heads = [h] ∧
      s.headOf p h = some v ∧
      s.program p v = none) ∧
  (∃ (p : AnyPipe) (k : Fin 32) (w : Wave) (s : State) (h : Nat) (v : Packet) (g : Program), s.waveAt p (k.val + 1) = some w ∧
      k.val + 1 < lastPos p ∧
      s.posFree p (k.val + 2) = true ∧
      w.heads = [h] ∧
      s.headOf p h = some v ∧
      s.program p v = some g) ∧
  (∃ (p : PipeNo) (w : Wave) (s : State), s.waveAt p 33 = some w) ∧
  (∃ (p : PipeNo) (w : Wave) (s : State) (k : Nat) (v : Packet), s.waveAt p 33 = some w ∧
      w.heads = [k] ∧
      s.packet k = some v ∧
      v.md.drop = false ∧
      v.md.resubmit = false ∧
      s.boundsCheck v = none) ∧
  (∃ (p : PipeNo) (w : Wave) (s : State) (k : Nat) (v : Packet), s.waveAt p 33 = some w ∧
      w.heads = [k] ∧
      s.packet k = some v ∧
      v.md.drop = false ∧
      v.md.resubmit = true ∧
      v.md.passes + 1 ≤ s.maxPasses p v ∧
      (s.pipe p).auxBytes + v.deparse.auxSize ≤ 65536) ∧
  (∃ (p : PipeNo) (w : Wave) (s : State) (k : Nat) (v : Packet), s.waveAt p 33 = some w ∧
      w.heads = [k] ∧
      s.packet k = some v ∧
      v.md.drop = true ∧
      v.sessions = []) ∧
  (∃ (p : PipeNo) (w : Wave) (s : State), s.waveAt (p.val + 16) 17 = some w) ∧
  (∃ (p : PipeNo) (w : Wave) (s : State) (k : Nat) (f : Flight) (v : Packet), s.waveAt (p.val + 16) 17 = some w ∧
      w.heads = [k] ∧
      s.flight k = some f ∧
      s.headOf (p.val + 16) k = some v ∧
      v.md.drop = false ∧
      v.md.recirculate = false ∧
      (v.md.lenValid = true → (v.len : Int) + v.deparse.md.lenDelta ≤ s.maxFrame f.port)) ∧
  (∃ (p : PipeNo) (w : Wave) (s : State) (k : Nat) (f : Flight) (v : Packet), s.waveAt (p.val + 16) 17 = some w ∧
      w.heads = [k] ∧
      s.flight k = some f ∧
      s.headOf (p.val + 16) k = some v ∧
      v.md.drop = true) ∧
  (∃ (p : PipeNo) (w : Wave) (s : State) (k : Nat) (f : Flight) (v : Packet), s.waveAt (p.val + 16) 17 = some w ∧
      w.heads = [k] ∧
      s.flight k = some f ∧
      s.headOf (p.val + 16) k = some v ∧
      v.md.drop = false ∧
      v.md.recirculate = false ∧
      v.md.lenValid = true ∧
      (s.maxFrame f.port : Int) < v.len + v.deparse.md.lenDelta) ∧
  (∃ (_m : BitVec 4) (s : State), (∀ a, s.sw.mapSent = some a → a + 128 ≤ s.now)) ∧
  (∃ (m : BitVec 4) (s : State) (p : Nat), (∀ a, s.sw.mapSent = some a → a + 128 ≤ s.now) ∧
      p < 16 ∧
      natBit m.toNat (p / 4) = false) ∧
  (∃ (m : BitVec 4) (s : State) (p : Nat), (∀ a, s.sw.mapSent = some a → a + 128 ≤ s.now) ∧
      p < 16 ∧
      natBit m.toNat (p / 4) = true) ∧
  (∃ (p : PipeNo) (s : State), (s.pipe p).mapStale = false ∧
      (s.pipe p).mapAt + max 2 (s.get PIPE.DEPTH_MAP_CFG.STALE_PERIODS 0) * 128 ≤ s.now) ∧
  (∃ (p : PipeNo) (s : State), (s.pipe p).mapStale = false ∧
      (s.pipe p).mapAt + max 2 (s.get PIPE.DEPTH_MAP_CFG.STALE_PERIODS 0) * 128 ≤ s.now ∧
      s.get PIPE.DEPTH_MAP_STATUS.STALE (pipeDie p) = 0) ∧
  (∃ (_v : Word) (s : State), s.hostReach 0 false = true) ∧
  (∃ (v : Word) (s : State), s.hostReach 0 false = true ∧ natBit v.toNat 32 = true) ∧
  (∃ (v : Word) (s : State), s.hostReach 0 false = true ∧
      natBit v.toNat 32 = false) :=
  ⟨
    ⟨0, wPipe [] { tokens := 3 }, by decide +kernel⟩,
    ⟨0, wPipe [] { tokens := 3 }, by decide +kernel⟩,
    ⟨16, wSw [] { pipes := [(16, { tokens := 3 })] }, by decide +kernel⟩,
    ⟨0, { heads := [], pos := 0, launchedAt := 0 }, wPipe [] { waves := [{ heads := [], pos := 0, launchedAt := 0 }] }, by decide +kernel⟩,
    ⟨0, { heads := [5], pos := 0, launchedAt := 0 }, wWave 0 0 wPacket [], by decide +kernel⟩,
    ⟨0, 4, { heads := [], pos := 5, launchedAt := 0 }, wPipe [] { waves := [{ heads := [], pos := 5, launchedAt := 0 }] }, by decide +kernel⟩,
    ⟨0, 4, { heads := [5], pos := 5, launchedAt := 0 }, wWave 0 5 { wPacket with troupe := 3 } [], 5, { wPacket with troupe := 3 }, by decide +kernel⟩,
    ⟨0, 4, { heads := [5], pos := 5, launchedAt := 0 }, { wWave 0 5 wPacket [] with cf := { image := some { wImage with programs := [(0, wProgram)] } } }, 5, wPacket, wProgram, by decide +kernel⟩,
    ⟨0, { heads := [], pos := 33, launchedAt := 0 }, wPipe [] { waves := [{ heads := [], pos := 33, launchedAt := 0 }] }, by decide +kernel⟩,
    ⟨0, { heads := [5], pos := 33, launchedAt := 0 }, wWave 0 33 ({ wPacket with md := { queueId := some 0 } }) [], 5, { wPacket with md := { queueId := some 0 } }, by decide +kernel⟩,
    ⟨0, { heads := [5], pos := 33, launchedAt := 0 }, wWave 0 33 ({ wPacket with md := { resubmit := true } }) [(PIPE.IP_CTRL.MAX_PASSES, 0, 4)], 5, { wPacket with md := { resubmit := true } }, by decide +kernel⟩,
    ⟨0, { heads := [5], pos := 33, launchedAt := 0 }, wWave 0 33 ({ wPacket with md := { drop := true } }) [], 5, { wPacket with md := { drop := true } }, by decide +kernel⟩,
    ⟨0, { heads := [], pos := 17, launchedAt := 0 }, wSw [] { pipes := [(16, { waves := [{ heads := [], pos := 17, launchedAt := 0 }] })] }, by decide +kernel⟩,
    ⟨0, { heads := [2], pos := 17, launchedAt := 0 }, wFlown 17 { wFlight with md := { lenValid := true } } { wPacket with len := 64 }, 2, { wFlight with md := { lenValid := true } }, { wPacket with len := 64, md := { lenValid := true } }, by decide +kernel⟩,
    ⟨0, { heads := [2], pos := 17, launchedAt := 0 }, wFlown 17 { wFlight with md := { drop := true } } { wPacket with len := 64 }, 2, { wFlight with md := { drop := true } }, { wPacket with len := 64, md := { drop := true } }, by decide +kernel⟩,
    ⟨0, { heads := [2], pos := 17, launchedAt := 0 }, wFlown 17 { wFlight with md := { lenValid := true } } { wPacket with len := 20000 }, 2, { wFlight with md := { lenValid := true } }, { wPacket with len := 20000, md := { lenValid := true } }, by decide +kernel⟩,
    ⟨0, wUp, by intro a h; cases h⟩,
    ⟨0, wUp, 0, by decide +kernel⟩,
    ⟨1, wUp, 0, by decide +kernel⟩,
    ⟨0, wPipe [] {}, by decide +kernel⟩,
    ⟨0, wPipe [] {}, by decide +kernel⟩,
    ⟨0, wUp, by decide +kernel⟩,
    ⟨0x100000000, wUp, by decide +kernel⟩,
    ⟨0, wUp, by decide +kernel⟩⟩

/-- Each claim of HubEventsTakeEffect is met somewhere: for every command a state and operands, and for the branches of its
conclusion. -/
theorem witness_HubEventsTakeEffect :
  (∃ (p : PipeNo) (k : Nat) (v : Packet) (s : State), (s.pipe p).asm.find? (fun k => ((s.packet k).map (·.place)) == some .hub) = some k ∧
      s.packet k = some v ∧
      s.dieJoined (pipeDie p) = true) ∧
  (∃ (p : PipeNo) (k : Nat) (v : Packet) (s : State) (q : Nat) (r : Region), (s.pipe p).asm.find? (fun k => ((s.packet k).map (·.place)) == some .hub) = some k ∧
      s.packet k = some v ∧
      s.dieJoined (pipeDie p) = true ∧
      s.leaving v.troupe = false ∧
      s.reloading v = false ∧
      v.dropped = false ∧
      v.md.toCpu = false ∧
      v.md.mcValid = false ∧
      v.sessions = [] ∧
      v.md.queueId = some q ∧
      s.get QM.ADM_PROFILE_A.ECN_EN (s.get QM.Q_PROFILE.PROFILE q) = 0 ∧
      s.admitCopy v { kind := .unicast, queue := q } = .inRegion r) ∧
  (∃ (p : PipeNo) (k : Nat) (v : Packet) (s : State) (q : Nat) (r : Nat), (s.pipe p).asm.find? (fun k => ((s.packet k).map (·.place)) == some .hub) = some k ∧
      s.packet k = some v ∧
      s.dieJoined (pipeDie p) = true ∧
      s.leaving v.troupe = false ∧
      s.reloading v = false ∧
      v.dropped = false ∧
      v.md.toCpu = false ∧
      v.md.mcValid = false ∧
      v.sessions = [] ∧
      v.md.queueId = some q ∧
      s.admitCopy v { kind := .unicast, queue := q } = .refused r) ∧
  (∃ (p : PipeNo) (k : Nat) (v : Packet) (s : State) (own : List Copy) (mirrors : List Copy) (c : Copy) (r : Region) (rest : List (Copy × Region)) (w : Packet) (s1 : State) (s2 : State) (s3 : State), (s.pipe p).asm.find? (fun k => ((s.packet k).map (·.place)) == some .hub) = some k ∧
      s.packet k = some v ∧
      s.dieJoined (pipeDie p) = true ∧
      s.leaving v.troupe = false ∧
      s.reloading v = false ∧
      (s.sendTransfer (pipeDie p)).ownCopies v = (s1, own) ∧
      s1.mirrorCopies v false = (s2, mirrors) ∧
      own ≠ [] ∧
      s2.admitAll k v (own ++ mirrors) s2 [] = (s3, (c, r) :: rest) ∧
      s3.packet k = some w) ∧
  (∃ (p : PipeNo) (k : Nat) (v : Packet) (s : State), (s.pipe p).asm.find? (fun k => ((s.packet k).map (·.place)) == some .hub) = some k ∧
      s.packet k = some v ∧
      s.dieJoined (pipeDie p) = true ∧
      (s.leaving v.troupe = true ∨ s.reloading v = true)) ∧
  (∃ (p : PipeNo) (k : Nat) (n : Nat) (_rv : List (Fin 18)) (v : Packet) (d : Nat) (s : State), (s.arrive k n).packet k = some v ∧
      v.desc = some d ∧
      v.pipe = p.val ∧
      v.place = .store ∧
      v.nextSegment ≠ 0 ∧
      (s.arrive k n).asmTurn p k = true ∧
      s.dieJoined (pipeDie p) = true) ∧
  (∃ (p : PipeNo) (k : Nat) (n : Nat) (rv : List (Fin 18)) (v : Packet) (d : Nat) (s : State) (a : Nat) (u : State), (s.arrive k n).packet k = some v ∧
      v.desc = some d ∧
      v.pipe = p.val ∧
      v.place = .store ∧
      v.nextSegment ≠ 0 ∧
      (s.arrive k n).asmTurn p k = true ∧
      s.dieJoined (pipeDie p) = true ∧
      ((s.arrive k n).sendTransfer (pipeDie p)).requestSegment p v.troupe v.nextSegment 0 false rv = (.cell a, u)) ∧
  (∃ (p : PipeNo) (k : Nat) (n : Nat) (rv : List (Fin 18)) (v : Packet) (d : Nat) (s : State) (u : State), (s.arrive k n).packet k = some v ∧
      v.desc = some d ∧
      v.pipe = p.val ∧
      v.place = .store ∧
      v.nextSegment ≠ 0 ∧
      (s.arrive k n).asmTurn p k = true ∧
      s.dieJoined (pipeDie p) = true ∧
      ((s.arrive k n).sendTransfer (pipeDie p)).requestSegment p v.troupe v.nextSegment 0 false rv = (.poolEmpty, u)) ∧
  (∃ (p : PipeNo) (k : Nat) (n : Nat) (rv : List (Fin 18)) (v : Packet) (d : Nat) (s : State) (u : State), (s.arrive k n).packet k = some v ∧
      v.desc = some d ∧
      v.pipe = p.val ∧
      v.place = .store ∧
      v.nextSegment ≠ 0 ∧
      (s.arrive k n).asmTurn p k = true ∧
      s.dieJoined (pipeDie p) = true ∧
      ((s.arrive k n).sendTransfer (pipeDie p)).requestSegment p v.troupe v.nextSegment 0 false rv = (.quota, u)) ∧
  (∃ (k : Nat) (v : Packet) (s : State), s.packet k = some v ∧
      v.whole = true ∧
      (∀ f ∈ s.sw.flights, f.2.packet = k → f.2.recirc = false)) ∧
  (∃ (k : Nat) (v : Packet) (s : State) (d : Nat) (e : Desc), s.packet k = some v ∧
      v.whole = true ∧
      (∀ f ∈ s.sw.flights, f.2.packet = k → f.2.recirc = false) ∧
      v.place = .store ∧
      v.desc = some d ∧
      s.desc d = some e ∧
      e.complete = false ∧
      e.badFrame = false ∧
      v.bad = none ∧
      v.available ≤ v.stored ∧
      e.waiting = []) ∧
  (∃ (k : Nat) (v : Packet) (s : State) (d : Nat) (e : Desc) (c : Copy), s.packet k = some v ∧
      v.whole = true ∧
      (∀ f ∈ s.sw.flights, f.2.packet = k → f.2.recirc = false) ∧
      v.place = .store ∧
      v.desc = some d ∧
      s.desc d = some e ∧
      e.complete = false ∧
      e.badFrame = false ∧
      v.bad = none ∧
      v.available ≤ v.stored ∧
      e.waiting = [c] ∧
      c.kind = .unicast ∧
      c.ring = false ∧
      s.descsUsed < 4194304 ∧
      e.refs < 1023 ∧
      (c.isToken = true → s.sw.tokens < 1048576)) ∧
  (∃ (k : Nat) (v : Packet) (s : State) (d : Nat) (e : Desc), s.packet k = some v ∧
      v.whole = true ∧
      (∀ f ∈ s.sw.flights, f.2.packet = k → f.2.recirc = false) ∧
      v.place = .store ∧
      v.desc = some d ∧
      s.desc d = some e ∧
      e.complete = false ∧
      e.badFrame = false ∧
      v.bad ≠ none) ∧
  (∃ (k : Nat) (v : Packet) (s : State), s.packet k = some v ∧
      v.whole = true ∧
      (∀ f ∈ s.sw.flights, f.2.packet = k → f.2.recirc = false) ∧
      v.place = .discard ∧
      v.desc = none) ∧
  (∃ (fn : FnNo) (v : Word) (_rv : List (Fin 18)) (s : State), s.hostReach fn false = true ∧
      s.get CELL.LEASE_CTRL.BUSY fn = 0 ∧
      natBit v.toNat 5 = true) ∧
  (∃ (fn : FnNo) (v : Word) (_rv : List (Fin 18)) (s : State), s.hostReach fn false = true ∧
      s.get CELL.LEASE_CTRL.BUSY fn = 0 ∧
      natBit v.toNat 5 = true ∧
      s.ready rdyCell = false) ∧
  (∃ (fn : FnNo) (v : Word) (_rv : List (Fin 18)) (s : State), s.hostReach fn false = true ∧
      s.get CELL.LEASE_CTRL.BUSY fn = 0 ∧
      natBit v.toNat 5 = true ∧
      s.ready rdyCell = true ∧
      s.get CELL.LEASE_STATUS.MAX fn < s.get CELL.LEASE_STATUS.LEASED fn + clampN 1 8 (bitsOf v 1 4)) ∧
  (∃ (fn : FnNo) (v : Word) (_rv : List (Fin 18)) (s : State), s.hostReach fn false = true ∧
      s.get CELL.LEASE_CTRL.BUSY fn = 0 ∧
      natBit v.toNat 5 = true ∧
      s.ready rdyCell = true ∧
      s.get CELL.LEASE_STATUS.LEASED fn + clampN 1 8 (bitsOf v 1 4) ≤ s.get CELL.LEASE_STATUS.MAX fn) ∧
  (∃ (fn : FnNo) (cells : List Nat) (st : Nat) (s : State), tabFind s.sw.leases fn = some (cells, st)) ∧
  (∃ (fn : FnNo) (cells : List Nat) (st : Nat) (s : State) (i : Nat), tabFind s.sw.leases fn = some (cells, st) ∧
      i < 8) ∧
  (∃ (fn : FnNo) (cells : List Nat) (st : Nat) (s : State), tabFind s.sw.leases fn = some (cells, st) ∧
      st = leaseOk) ∧
  (∃ (fn : FnNo) (cells : List Nat) (st : Nat) (s : State), tabFind s.sw.leases fn = some (cells, st) ∧
      st ≠ leaseOk) ∧
  (∃ (fn : FnNo) (_v : Word) (s : State), s.hostReach fn false = true) ∧
  (∃ (fn : FnNo) (_v : Word) (s : State), s.hostReach fn false = true ∧
      s.ready rdyCell = false) ∧
  (∃ (fn : FnNo) (v : Word) (s : State), s.hostReach fn false = true ∧
      s.ready rdyCell = true ∧
      s.freeCheck fn (bitsOf v 0 25) = none) ∧
  (∃ (fn : FnNo) (v : Word) (s : State) (kind : Nat), s.hostReach fn false = true ∧
      s.ready rdyCell = true ∧
      s.freeCheck fn (bitsOf v 0 25) = some kind) ∧
  (∃ (_k : Fin 3) (_a : Fin 33554432) (_j : Nat) (n : Fin 65) (_s : State), n.val ≤ 1) ∧
  (∃ (_k : Fin 3) (_a : Fin 33554432) (_j : Nat) (n : Fin 65) (_s : State), 2 ≤ n.val) ∧
  (∃ (k : Fin 3) (_a : Fin 33554432) (_j : Nat) (n : Fin 65) (_s : State), 2 ≤ n.val ∧
      k = 0) ∧
  (∃ (k : Fin 3) (_a : Fin 33554432) (_j : Nat) (n : Fin 65) (_s : State), 2 ≤ n.val ∧
      k = 1) ∧
  (∃ (k : Fin 3) (_a : Fin 33554432) (_j : Nat) (n : Fin 65) (_s : State), 2 ≤ n.val ∧
      k = 2) ∧
  (∃ (_g : Fin 65536) (_v : Word) (s : State), s.hostReach 0 false = true) ∧
  (∃ (g : Fin 65536) (v : Word) (s : State), s.hostReach 0 false = true ∧
      bitsOf v 20 12 ≤ 2048 ∧
      (bitsOf v 20 12 = 0 ∨ s.get MC.TROUPE_RANGE.FIRST (s.get MC.GROUP.TROUPE g) ≤ bitsOf v 0 20 ∧ bitsOf v 0 20 + bitsOf v 20 12 ≤ s.get MC.TROUPE_RANGE.FIRST (s.get MC.GROUP.TROUPE g) + s.get MC.TROUPE_RANGE.COUNT (s.get MC.GROUP.TROUPE g))) ∧
  (∃ (g : Fin 65536) (v : Word) (s : State), s.hostReach 0 false = true ∧
      (2048 < bitsOf v 20 12 ∨ (bitsOf v 20 12 ≠ 0 ∧ (bitsOf v 0 20 < s.get MC.TROUPE_RANGE.FIRST (s.get MC.GROUP.TROUPE g) ∨ s.get MC.TROUPE_RANGE.FIRST (s.get MC.GROUP.TROUPE g) + s.get MC.TROUPE_RANGE.COUNT (s.get MC.GROUP.TROUPE g) < bitsOf v 0 20 + bitsOf v 20 12)))) ∧
  (∃ (v : Word) (s : State), s.hostReach 0 false = true ∧
      natBit v.toNat 0 = true) ∧
  (∃ (s : State), s.sw.sync.pending = true ∧
      (∀ k ∈ s.sw.sync.before, k ∉ s.sw.replicating)) ∧
  (∃ (fn : FnNo) (v : Word) (s : State), s.hostReach fn false = true ∧
      s.get QM.QUERY.BUSY fn = 0 ∧
      natBit v.toNat 20 = true) ∧
  (∃ (fn : FnNo) (v : Word) (s : State) (n : Nat), s.hostReach fn false = true ∧
      s.get QM.QUERY.BUSY fn = 0 ∧
      natBit v.toNat 20 = true ∧
      s.ready rdyQm = true ∧
      s.queueTroupe (bitsOf v 0 20) = some n ∧
      (fn.val = 0 ∨ n = fn.val)) ∧
  (∃ (fn : FnNo) (v : Word) (s : State) (n : Nat), s.hostReach fn false = true ∧
      s.get QM.QUERY.BUSY fn = 0 ∧
      natBit v.toNat 20 = true ∧
      s.ready rdyQm = true ∧
      s.queueTroupe (bitsOf v 0 20) = some n ∧
      fn.val ≠ 0 ∧
      n ≠ fn.val) ∧
  (∃ (fn : FnNo) (v : Word) (s : State), s.hostReach fn false = true ∧
      s.get QM.QUERY.BUSY fn = 0 ∧
      natBit v.toNat 20 = true ∧
      s.ready rdyQm = true ∧
      s.queueTroupe (bitsOf v 0 20) = none) ∧
  (∃ (fn : FnNo) (v : Word) (s : State), s.hostReach fn false = true ∧
      s.get QM.QUERY.BUSY fn = 0 ∧
      natBit v.toNat 20 = true ∧
      s.ready rdyQm = false) :=
  ⟨
    ⟨0, 5, wHead, wAdmOf wHead [], by decide +kernel⟩,
    ⟨0, 5, wHead, wAdmOf wHead [], 0, .queueMin, by decide +kernel⟩,
    ⟨0, 5, wHead, wAdmOf wHead [(QM.PORT_STATUS.STATE, 0, 1)], 0, dropPortDown, by decide +kernel⟩,
    ⟨0, 5, wHead, wAdmOf wHead [], [{ kind := .unicast, queue := 0 }], [], { kind := .unicast, queue := 0, inMin := true }, .queueMin, [], wHead, (((wAdmOf wHead []).sendTransfer 0).ownCopies wHead).1, ((((wAdmOf wHead []).sendTransfer 0).ownCopies wHead).1.mirrorCopies wHead false).1, (((((wAdmOf wHead []).sendTransfer 0).ownCopies wHead).1.mirrorCopies wHead false).1.admitAll 5 wHead [{ kind := .unicast, queue := 0 }] ((((wAdmOf wHead []).sendTransfer 0).ownCopies wHead).1.mirrorCopies wHead false).1 []).1, by decide +kernel⟩,
    ⟨0, 5, { wHead with troupe := 3 }, wAdmOf { wHead with troupe := 3 } [], by decide +kernel⟩,
    ⟨0, 5, 64, [], wStored, 3, wCells [] 1, by decide +kernel⟩,
    ⟨0, 5, 64, [], wStored, 3, wCells [] 1, 2 ^ 24, ((((wCells [] 1).arrive 5 64).sendTransfer 0).requestSegment 0 0 64 0 false []).2, by refine ⟨by decide +kernel, by decide +kernel, by decide +kernel, by decide +kernel, by decide +kernel, by decide +kernel, by decide +kernel, by rfl⟩⟩,
    ⟨0, 5, 64, [], wStored, 3, wCells [] 0, ((((wCells [] 0).arrive 5 64).sendTransfer 0).requestSegment 0 0 64 0 false []).2, by refine ⟨by decide +kernel, by decide +kernel, by decide +kernel, by decide +kernel, by decide +kernel, by decide +kernel, by decide +kernel, by rfl⟩⟩,
    ⟨0, 5, 64, [], wStored, 3, wCells [(CELL.TROUPE_QUOTA.QUOTA_UNITS, 0, 0)] 1, ((((wCells [(CELL.TROUPE_QUOTA.QUOTA_UNITS, 0, 0)] 1).arrive 5 64).sendTransfer 0).requestSegment 0 0 64 0 false []).2, by refine ⟨by decide +kernel, by decide +kernel, by decide +kernel, by decide +kernel, by decide +kernel, by decide +kernel, by decide +kernel, by rfl⟩⟩,
    ⟨5, { wPacket with place := .store, desc := some 3, stored := 64 }, wEnding wPacket wDesc, by decide +kernel⟩,
    ⟨5, { wPacket with place := .store, desc := some 3, stored := 64 }, wEnding wPacket wDesc, 3, wDesc, by decide +kernel⟩,
    ⟨5, { wPacket with place := .store, desc := some 3, stored := 64 }, wEnding wPacket { wDesc with waiting := [wCopy] }, 3, { wDesc with waiting := [wCopy] }, wCopy, by decide +kernel⟩,
    ⟨5, { wPacket with place := .store, desc := some 3, stored := 64, bad := some 1 }, wEnding { wPacket with bad := some 1 } wDesc, 3, wDesc, by decide +kernel⟩,
    ⟨5, { wPacket with place := .discard }, wSw [] { packets := [(5, { wPacket with place := .discard })] }, by decide +kernel⟩,
    ⟨0, 0x22, [], wWith [(CELL.LEASE_STATUS.MAX, 0, 8)], by decide +kernel⟩,
    ⟨0, 0x22, [], wWith [(TOP.READY.BITS, 0, 2 ^ 64 - 1 - 2 ^ rdyCell)], by decide +kernel⟩,
    ⟨0, 0x22, [], wWith [(CELL.LEASE_STATUS.MAX, 0, 0)], by decide +kernel⟩,
    ⟨0, 0x22, [], wWith [(CELL.LEASE_STATUS.MAX, 0, 8)], by decide +kernel⟩,
    ⟨1, [3], leaseOk, wSw [] { leases := [(1, ([3], leaseOk))] }, by decide +kernel⟩,
    ⟨1, [3], leaseOk, wSw [] { leases := [(1, ([3], leaseOk))] }, 0, by decide +kernel⟩,
    ⟨1, [3], leaseOk, wSw [] { leases := [(1, ([3], leaseOk))] }, by decide +kernel⟩,
    ⟨1, [], leaseNotReady, wSw [] { leases := [(1, ([], leaseNotReady))] }, by decide +kernel⟩,
    ⟨0, 3, { wSw [] { cells := [(3, 64)] } with cf := { image := some { wImage with bodySteps := 1 } } }, by decide +kernel⟩,
    ⟨0, 3, wWith [(TOP.READY.BITS, 0, 2 ^ 64 - 1 - 2 ^ rdyCell)], by decide +kernel⟩,
    ⟨0, 3, { wSw [] { cells := [(3, 64)] } with cf := { image := some { wImage with bodySteps := 1 } } }, by decide +kernel⟩,
    ⟨0, 2 ^ 24, wUp, 3, by decide +kernel⟩,
    ⟨0, 5, 2, 1, wUp, by decide +kernel⟩,
    ⟨0, 5, 2, 2, wUp, by decide +kernel⟩,
    ⟨0, 5, 2, 2, wUp, by decide +kernel⟩,
    ⟨1, 0, 5, 4, wSw [] { sync := { pending := true } }, by decide +kernel⟩,
    ⟨2, 1, 7, 2, wSw [] { sync := { pending := true } }, by decide +kernel⟩,
    ⟨0, 0x100000, wWith [(MC.TROUPE_RANGE.COUNT, 0, 8)], by decide +kernel⟩,
    ⟨0, 0x100000, wWith [(MC.TROUPE_RANGE.COUNT, 0, 8)], by decide +kernel⟩,
    ⟨0, 0x100000, { wSw [] { cells := [(3, 64)] } with cf := { image := some { wImage with bodySteps := 1 } } }, by decide +kernel⟩,
    ⟨1, wUp, by decide +kernel⟩,
    ⟨wSw [] { sync := { pending := true } }, by decide +kernel⟩,
    ⟨0, 0x100000, wSw [] {}, by decide +kernel⟩,
    ⟨0, 0x100000, wSw [] {}, 0, by decide +kernel⟩,
    ⟨1, 0x100000, wSw [] {}, 0, by decide +kernel⟩,
    ⟨0, 0x1FFFFF, wSw [] {}, by decide +kernel⟩,
    ⟨0, 0x100000, wWith [(TOP.READY.BITS, 0, 2 ^ 64 - 1 - 2 ^ rdyQm)], by decide +kernel⟩⟩

/-- Each claim of SchedulerEventsTakeEffect is met somewhere: for every command a state and operands, and for the branches of its
conclusion. -/
theorem witness_SchedulerEventsTakeEffect :
  (∃ (x : PortNo) (n : Nat) (ph : Fin 4) (k : Nat) (r : List Nat) (f : Flight) (v : Packet) (s : State), (s.port x).efifo = k :: r ∧
      s.flight k = some f ∧
      s.packet f.packet = some v ∧
      s.portUp x = true ∧
      (s.port x).sending = none ∧
      s.portIdle x = false ∧
      s.pfcReady x = false ∧
      f.started = false ∧
      (f.inProgress = true → v.bad = none) ∧
      s.enoughHeld f n = true ∧
      s.cgPaused (queueCg f.queue) = false ∧
      s.macWindow x f (s.txStamp x ph * 2 ^ 37) = true) ∧
  (∃ (x : PortNo) (n : Nat) (ph : Fin 4) (k : Nat) (r : List Nat) (f : Flight) (v : Packet) (s : State), (s.port x).efifo = k :: r ∧
      s.flight k = some f ∧
      s.packet f.packet = some v ∧
      s.portUp x = true ∧
      (s.port x).sending = none ∧
      s.portIdle x = false ∧
      s.pfcReady x = false ∧
      f.started = false ∧
      (f.inProgress = true → v.bad = none) ∧
      s.enoughHeld f n = true ∧
      s.cgPaused (queueCg f.queue) = false ∧
      s.macWindow x f (s.txStamp x ph * 2 ^ 37) = true ∧
      f.md.timeKind = 0 ∧
      f.md.telAct / 2 % 4 = 0) ∧
  (∃ (x : PortNo) (_i : Fin 64) (k : Nat) (f : Flight) (s : State), (s.port x).sending = some k ∧
      s.flight k = some f ∧
      (s.overMtu x f = true ∨ f.stomp = true ∨ s.flightWhole f = true)) ∧
  (∃ (x : PortNo) (_i : Fin 64) (k : Nat) (f : Flight) (s : State), (s.port x).sending = some k ∧
      s.flight k = some f ∧
      (s.overMtu x f = true ∨ f.stomp = true ∨ s.flightWhole f = true) ∧
      s.overMtu x f = false ∧
      f.stomp = false) ∧
  (∃ (x : PortNo) (_i : Fin 64) (k : Nat) (f : Flight) (s : State), (s.port x).sending = some k ∧
      s.flight k = some f ∧
      (s.overMtu x f = true ∨ f.stomp = true ∨ s.flightWhole f = true) ∧
      (s.overMtu x f = true ∨ f.stomp = true)) ∧
  (∃ (x : PortNo) (_i : Fin 64) (k : Nat) (f : Flight) (s : State), (s.port x).sending = some k ∧
      s.flight k = some f ∧
      (s.overMtu x f = true ∨ f.stomp = true ∨ s.flightWhole f = true) ∧
      s.overMtu x f = true) ∧
  (∃ (x : PortNo) (_n : Nat) (k : Nat) (f : Flight) (s : State), (s.port x).sending = some k ∧
      s.flight k = some f ∧
      f.inProgress = true) ∧
  (∃ (x : PortNo) (c : Nat) (q : Nat) (k : Nat) (fc : Nat) (fq : Nat) (cp : Copy) (ip : Bool) (stale : Bool) (r : List QEntry) (d : Desc) (s : State) (u : State) (v : State) (w : State), s.portExists x = true ∧
      u = s.removeOversizes x ∧
      u.portMayPick x = true ∧
      u.pickTurn x = true ∧
      u.dieJoined (pipeDie (portPipe x)) = true ∧
      v = u.lookCgs x ∧
      v.pickCg x = some (c, fc) ∧
      w = v.lookQueues c ∧
      w.pickQueue c = some (q, fq) ∧
      w.queue q = .copy k cp ip stale :: r ∧
      w.desc k = some d) ∧
  (∃ (x : PortNo) (c : Nat) (q : Nat) (k : Nat) (fc : Nat) (fq : Nat) (cp : Copy) (ip : Bool) (stale : Bool) (r : List QEntry) (d : Desc) (s : State) (u : State) (v : State) (w : State), s.portExists x = true ∧
      u = s.removeOversizes x ∧
      u.portMayPick x = true ∧
      u.pickTurn x = true ∧
      u.dieJoined (pipeDie (portPipe x)) = true ∧
      v = u.lookCgs x ∧
      v.pickCg x = some (c, fc) ∧
      w = v.lookQueues c ∧
      w.pickQueue c = some (q, fq) ∧
      w.queue q = .copy k cp ip stale :: r ∧
      w.desc k = some d ∧
      stale = false) ∧
  (∃ (x : PortNo) (c : Nat) (q : Nat) (k : Nat) (fc : Nat) (fq : Nat) (cp : Copy) (ip : Bool) (stale : Bool) (r : List QEntry) (d : Desc) (s : State) (u : State) (v : State) (w : State), s.portExists x = true ∧
      u = s.removeOversizes x ∧
      u.portMayPick x = true ∧
      u.pickTurn x = true ∧
      u.dieJoined (pipeDie (portPipe x)) = true ∧
      v = u.lookCgs x ∧
      v.pickCg x = some (c, fc) ∧
      w = v.lookQueues c ∧
      w.pickQueue c = some (q, fq) ∧
      w.queue q = .copy k cp ip stale :: r ∧
      w.desc k = some d ∧
      stale = true) ∧
  (∃ (d : RimNo) (coarse : Bool) (e : Nat × Shaper) (s : State), e ∈ (s.firedShapers d (if coarse then .coarse else .fine)).take (slotRefills coarse) ∧
      (((s.firedShapers d (if coarse then .coarse else .fine)).take (slotRefills coarse)).map Prod.fst).Nodup) ∧
  (∃ (d : RimNo) (coarse : Bool) (e : Nat × Shaper) (s : State), e ∈ (s.firedShapers d (if coarse then .coarse else .fine)).take (slotRefills coarse) ∧
      (((s.firedShapers d (if coarse then .coarse else .fine)).take (slotRefills coarse)).map Prod.fst).Nodup ∧
      e.2.fireAt + (if coarse then coarseSlot else fineSlot) ≤ s.now) ∧
  (∃ (d : RimNo) (e : Nat × Shaper) (s : State), e ∈ s.sw.shapers ∧
      e.2.wheel = .overflow ∧
      s.shaperQuadrant e.1 = d.val ∧
      e.2.te ≤ s.now + coarseSlot * wheelSlots ∧
      (s.sw.shapers.map Prod.fst).Nodup) ∧
  (∃ (x : PortNo) (a : Nat) (s : State), (s.port x).holdEnd = some a ∧
      s.qmState x = qmHeld ∧
      a ≤ s.now) ∧
  (∃ (x : PortNo) (s : State), s.qmState x = qmFlushing ∧
      s.portQueues x = []) :=
  ⟨
    ⟨0, 64, 0, 2, [], wFlight, wPacket, wSw [] { packets := [(5, wPacket)], flights := [(2, wFlight)], ports := [(0, { efifo := [2] })] }, by decide +kernel⟩,
    ⟨0, 64, 0, 2, [], wFlight, wPacket, wSw [] { packets := [(5, wPacket)], flights := [(2, wFlight)], ports := [(0, { efifo := [2] })] }, by decide +kernel⟩,
    ⟨0, 3, 2, wFlight, wSending wFlight wPacket, by decide +kernel⟩,
    ⟨0, 3, 2, wFlight, wSending wFlight wPacket, by decide +kernel⟩,
    ⟨0, 3, 2, { wFlight with stomp := true }, wSending { wFlight with stomp := true } wPacket, by decide +kernel⟩,
    ⟨0, 3, 2, { wFlight with inProgress := true, head := List.replicate 1519 0 }, wSet [(PORT.CFG.MAX_FRAME, 0, 16)] (wSending { wFlight with inProgress := true, head := List.replicate 1519 0 } wPacket), by decide +kernel⟩,
    ⟨0, 64, 2, { wFlight with inProgress := true }, wSw [] { flights := [(2, { wFlight with inProgress := true })], ports := [(0, { sending := some 2 })] }, by decide +kernel⟩,
    ⟨0, 0, 0, 3, 1310720, 1310720, wCopy, false, false, [], wDesc, wPickUp false, (wPickUp false).removeOversizes 0, ((wPickUp false).removeOversizes 0).lookCgs 0, (((wPickUp false).removeOversizes 0).lookCgs 0).lookQueues 0, by refine ⟨?_, rfl, ?_, ?_, ?_, rfl, ?_, rfl, ?_, ?_, ?_⟩ <;> decide +kernel⟩,
    ⟨0, 0, 0, 3, 1310720, 1310720, wCopy, false, false, [], wDesc, wPickUp false, (wPickUp false).removeOversizes 0, ((wPickUp false).removeOversizes 0).lookCgs 0, (((wPickUp false).removeOversizes 0).lookCgs 0).lookQueues 0, by refine ⟨?_, rfl, ?_, ?_, ?_, rfl, ?_, rfl, ?_, ?_, ?_, rfl⟩ <;> decide +kernel⟩,
    ⟨0, 0, 0, 3, 1310720, 1310720, wCopy, false, true, [], wDesc, wPickUp true, (wPickUp true).removeOversizes 0, ((wPickUp true).removeOversizes 0).lookCgs 0, (((wPickUp true).removeOversizes 0).lookCgs 0).lookQueues 0, by refine ⟨?_, rfl, ?_, ?_, ?_, rfl, ?_, rfl, ?_, ?_, ?_, rfl⟩ <;> decide +kernel⟩,
    ⟨0, false, (0, { wheel := .fine }), wSw [] { shapers := [(0, { wheel := .fine })] }, by decide +kernel⟩,
    ⟨0, false, (0, { wheel := .fine }), wSw [] { shapers := [(0, { wheel := .fine })] }, by decide +kernel⟩,
    ⟨0, (0, { wheel := .overflow }), wSw [] { shapers := [(0, { wheel := .overflow })] }, by decide +kernel⟩,
    ⟨0, 5, wPort [(QM.PORT_STATUS.STATE, 0, qmHeld)] { holdEnd := some 5 }, by decide +kernel⟩,
    ⟨0, wPort [(QM.PORT_STATUS.STATE, 0, qmFlushing)] {}, by decide +kernel⟩⟩

/-- Each claim of TableEntryCommandsTakeEffect is met somewhere: for every command a state and operands, and for the branches of its
conclusion. -/
theorem witness_TableEntryCommandsTakeEffect :
  (∃ (b : Fin 32) (v : Word) (p : TablePlan) (s : State), CmdStarts b v p [kindExact, kindTernary, kindLpm4, kindLpm6] s) ∧
  (∃ (b : Fin 32) (v : Word) (p : TablePlan) (s : State) (i : Where), CmdStarts b v p [kindExact, kindTernary, kindLpm4, kindLpm6] s ∧
      p.kind = kindExact ∧
      cmdFind b v p s = some i) ∧
  (∃ (b : Fin 32) (v : Word) (p : TablePlan) (s : State) (i : Nat) (e : Nat), CmdStarts b v p [kindExact, kindTernary, kindLpm4, kindLpm6] s ∧
      p.kind = kindTernary ∧
      ternFind (cmdTwin v s s).slots 0 (s.cmdImage b) = some (i, e)) ∧
  (∃ (b : Fin 32) (v : Word) (p : TablePlan) (s : State) (r : Nat × Nat), CmdStarts b v p [kindExact, kindTernary, kindLpm4, kindLpm6] s ∧
      p.isLpm = true ∧
      p.lpmFind (cmdTwin v s s) 0 (if p.kind = kindLpm4 then s.cmdImage b % 2 ^ 32 else s.cmdImage b % 2 ^ 128) = some r) ∧
  (∃ (b : Fin 32) (v : Word) (p : TablePlan) (s : State), CmdStarts b v p [kindExact, kindTernary, kindLpm4, kindLpm6] s ∧
      p.kind = kindExact ∧
      cmdFind b v p s = none) ∧
  (∃ (b : Fin 32) (v : Word) (p : TablePlan) (s : State), CmdStarts b v p [kindExact, kindTernary, kindLpm4, kindLpm6] s ∧
      p.kind = kindTernary ∧
      ternFind (cmdTwin v s s).slots 0 (s.cmdImage b) = none) ∧
  (∃ (b : Fin 32) (v : Word) (p : TablePlan) (s : State), CmdStarts b v p [kindExact, kindTernary, kindLpm4, kindLpm6] s ∧
      p.isLpm = true ∧
      p.lpmFind (cmdTwin v s s) 0 (if p.kind = kindLpm4 then s.cmdImage b % 2 ^ 32 else s.cmdImage b % 2 ^ 128) = none) ∧
  (∃ (b : Fin 32) (v : Word) (p : TablePlan) (s : State), CmdStarts b v p [kindExact, kindTernary, kindIndex] s) ∧
  (∃ (b : Fin 32) (v : Word) (p : TablePlan) (s : State) (w : Where), CmdStarts b v p [kindExact, kindTernary, kindIndex] s ∧
      w = ⟨s.flag TBL.CMD_LOC.STASH b, s.cmdIndex b⟩ ∧
      (if w.stash then p.kind = kindExact ∧ w.index < 1024 else w.index < p.positions) ∧
      (p.kind ≠ kindExact ∨ ((cmdTwin v s s).at_ w).isEmpty = false)) ∧
  (∃ (b : Fin 32) (v : Word) (p : TablePlan) (s : State) (w : Where), CmdStarts b v p [kindExact, kindTernary, kindIndex] s ∧
      w = ⟨s.flag TBL.CMD_LOC.STASH b, s.cmdIndex b⟩ ∧
      p.kind = kindExact ∧
      w.index < (if w.stash then 1024 else p.positions) ∧
      ((cmdTwin v s s).at_ w).isEmpty = true) ∧
  (∃ (b : Fin 32) (v : Word) (p : TablePlan) (s : State), CmdStarts b v p [kindExact, kindTernary, kindIndex] s ∧
      s.get TBL.CMD_LOC.STASH b = 0 ∧
      p.positions ≤ s.cmdIndex b) ∧
  (∃ (b : Fin 32) (v : Word) (p : TablePlan) (s : State), CmdStarts b v p [kindExact, kindTernary, kindIndex] s ∧
      s.get TBL.CMD_LOC.STASH b = 1 ∧
      (p.kind ≠ kindExact ∨ 1024 ≤ s.cmdIndex b)) ∧
  (∃ (b : Fin 32) (v : Word) (p : TablePlan) (s : State), CmdStarts b v p [kindExact] s) ∧
  (∃ (b : Fin 32) (v : Word) (p : TablePlan) (s : State) (i : Where), CmdStarts b v p [kindExact] s ∧
      cmdFind b v p s = none ∧
      (cmdPlace b v p s).place = some i) ∧
  (∃ (b : Fin 32) (v : Word) (p : TablePlan) (s : State), CmdStarts b v p [kindExact] s ∧
      cmdFind b v p s = none ∧
      (cmdPlace b v p s).place = none) ∧
  (∃ (b : Fin 32) (v : Word) (p : TablePlan) (s : State) (i : Where), CmdStarts b v p [kindExact] s ∧
      cmdFind b v p s = some i) ∧
  (∃ (b : Fin 32) (v : Word) (p : TablePlan) (s : State), CmdStarts b v p [kindExact] s) ∧
  (∃ (b : Fin 32) (v : Word) (p : TablePlan) (s : State) (i : Where) (c : TCopy), CmdStarts b v p [kindExact] s ∧
      cmdFind b v p s = some i ∧
      entryOn ((cmdTwin v s s).at_ i) 0 = some c) ∧
  (∃ (b : Fin 32) (v : Word) (p : TablePlan) (s : State), CmdStarts b v p [kindExact] s ∧
      cmdFind b v p s = none) ∧
  (∃ (b : Fin 32) (v : Word) (p : TablePlan) (s : State), CmdStarts b v p [kindExact] s) ∧
  (∃ (b : Fin 32) (v : Word) (p : TablePlan) (s : State) (i : Where) (c : TCopy), CmdStarts b v p [kindExact] s ∧
      cmdFind b v p s = some i ∧
      entryOn ((cmdTwin v s s).at_ i) 0 = some c) ∧
  (∃ (b : Fin 32) (v : Word) (p : TablePlan) (s : State) (i : Where), CmdStarts b v p [kindExact] s ∧
      cmdFind b v p s = none ∧
      (cmdPlace b v p s).place = some i) ∧
  (∃ (b : Fin 32) (v : Word) (p : TablePlan) (s : State), CmdStarts b v p [kindExact] s ∧
      cmdFind b v p s = none ∧
      (cmdPlace b v p s).place = none) ∧
  (∃ (b : Fin 32) (v : Word) (p : TablePlan) (s : State), CmdStarts b v p [kindExact] s) ∧
  (∃ (b : Fin 32) (v : Word) (p : TablePlan) (s : State) (i : Where), CmdStarts b v p [kindExact] s ∧
      cmdFind b v p s = some i) ∧
  (∃ (b : Fin 32) (v : Word) (p : TablePlan) (s : State), CmdStarts b v p [kindExact] s ∧
      cmdFind b v p s = none) ∧
  (∃ (b : Fin 32) (v : Word) (p : TablePlan) (s : State), CmdStarts b v p [kindTernary, kindIndex] s) ∧
  (∃ (b : Fin 32) (v : Word) (p : TablePlan) (s : State), CmdStarts b v p [kindTernary, kindIndex] s ∧
      s.cmdIndex b < p.positions) ∧
  (∃ (b : Fin 32) (v : Word) (p : TablePlan) (s : State), CmdStarts b v p [kindTernary, kindIndex] s ∧
      p.positions ≤ s.cmdIndex b) ∧
  (∃ (b : Fin 32) (v : Word) (p : TablePlan) (s : State), CmdStarts b v p [kindTernary, kindIndex] s) ∧
  (∃ (b : Fin 32) (v : Word) (p : TablePlan) (s : State), CmdStarts b v p [kindTernary, kindIndex] s ∧
      s.cmdIndex b < p.positions) ∧
  (∃ (b : Fin 32) (v : Word) (p : TablePlan) (s : State), CmdStarts b v p [kindTernary, kindIndex] s ∧
      p.positions ≤ s.cmdIndex b) :=
  ⟨
    ⟨0, 0, wExact, wTable wExact [] {}, by unfold Sys2Proof.Claims.CmdStarts; decide +kernel⟩,
    ⟨0, 0, wExact, wTable wExact [] wHit, ⟨true, 0⟩, by unfold Sys2Proof.Claims.CmdStarts; decide +kernel⟩,
    ⟨0, 0, wTernary, wTable wTernary [] wTern, 0, 2 ^ 176 * 2 ^ 176, by unfold Sys2Proof.Claims.CmdStarts; decide +kernel⟩,
    ⟨0, 0, wLpm, wTable wLpm [] { tables := [(0, { twin0 := { slots := [(0, sameEntry { value := resultSlot 16 5 })] }, prefixes := [(0, 16)] })] }, (5, 16), by unfold Sys2Proof.Claims.CmdStarts; decide +kernel⟩,
    ⟨0, 0, wExact, wTable wExact [] {}, by unfold Sys2Proof.Claims.CmdStarts; decide +kernel⟩,
    ⟨0, 0, wTernary, wTable wTernary [] {}, by unfold Sys2Proof.Claims.CmdStarts; decide +kernel⟩,
    ⟨0, 0, wLpm, wTable wLpm [(TBL.CMD_LOC.PLEN, 0, 0)] {}, by unfold Sys2Proof.Claims.CmdStarts; decide +kernel⟩,
    ⟨0, 0, wIndex, wTable wIndex [] {}, by unfold Sys2Proof.Claims.CmdStarts; decide +kernel⟩,
    ⟨0, 0, wIndex, wTable wIndex [] {}, ⟨false, 0⟩, by unfold Sys2Proof.Claims.CmdStarts; decide +kernel⟩,
    ⟨0, 0, wExact, wTable wExact [] {}, ⟨false, 0⟩, by unfold Sys2Proof.Claims.CmdStarts; decide +kernel⟩,
    ⟨0, 0, wIndex, wTable wIndex [(TBL.CMD_LOC.INDEX, 0, 8)] {}, by unfold Sys2Proof.Claims.CmdStarts; decide +kernel⟩,
    ⟨0, 0, wIndex, wTable wIndex [(TBL.CMD_LOC.STASH, 0, 1)] {}, by unfold Sys2Proof.Claims.CmdStarts; decide +kernel⟩,
    ⟨0, 0, wExact, wTable wExact [] {}, by unfold Sys2Proof.Claims.CmdStarts; decide +kernel⟩,
    ⟨0, 0, wExact, wTable wExact [] {}, ⟨false, 0⟩, by unfold Sys2Proof.Claims.CmdStarts; decide +kernel⟩,
    ⟨0, 0, wExact, wFull, by unfold Sys2Proof.Claims.CmdStarts wFull; decide +kernel, by decide +kernel, wFull_place⟩,
    ⟨0, 0, wExact, wTable wExact [] wHit, ⟨true, 0⟩, by unfold Sys2Proof.Claims.CmdStarts; decide +kernel⟩,
    ⟨0, 0, wExact, wTable wExact [] wHit, by unfold Sys2Proof.Claims.CmdStarts; decide +kernel⟩,
    ⟨0, 0, wExact, wTable wExact [] wHit, ⟨true, 0⟩, { value := 0 }, by unfold Sys2Proof.Claims.CmdStarts; decide +kernel⟩,
    ⟨0, 0, wExact, wTable wExact [] {}, by unfold Sys2Proof.Claims.CmdStarts; decide +kernel⟩,
    ⟨0, 0, wExact, wTable wExact [] {}, by unfold Sys2Proof.Claims.CmdStarts; decide +kernel⟩,
    ⟨0, 0, wExact, wTable wExact [] wHit, ⟨true, 0⟩, { value := 0 }, by unfold Sys2Proof.Claims.CmdStarts; decide +kernel⟩,
    ⟨0, 0, wExact, wTable wExact [] {}, ⟨false, 0⟩, by unfold Sys2Proof.Claims.CmdStarts; decide +kernel⟩,
    ⟨0, 0, wExact, wFull, by unfold Sys2Proof.Claims.CmdStarts wFull; decide +kernel, by decide +kernel, wFull_place⟩,
    ⟨0, 0, wExact, wTable wExact [] wHit, by unfold Sys2Proof.Claims.CmdStarts; decide +kernel⟩,
    ⟨0, 0, wExact, wTable wExact [] wHit, ⟨true, 0⟩, by unfold Sys2Proof.Claims.CmdStarts; decide +kernel⟩,
    ⟨0, 0, wExact, wTable wExact [] {}, by unfold Sys2Proof.Claims.CmdStarts; decide +kernel⟩,
    ⟨0, 0, wIndex, wTable wIndex [] {}, by unfold Sys2Proof.Claims.CmdStarts; decide +kernel⟩,
    ⟨0, 0, wIndex, wTable wIndex [(TBL.CMD_LOC.INDEX, 0, 7)] {}, by unfold Sys2Proof.Claims.CmdStarts; decide +kernel⟩,
    ⟨0, 0, wIndex, wTable wIndex [(TBL.CMD_LOC.INDEX, 0, 8)] {}, by unfold Sys2Proof.Claims.CmdStarts; decide +kernel⟩,
    ⟨0, 0, wIndex, wTable wIndex [] {}, by unfold Sys2Proof.Claims.CmdStarts; decide +kernel⟩,
    ⟨0, 0, wIndex, wTable wIndex [(TBL.CMD_LOC.INDEX, 0, 7)] {}, by unfold Sys2Proof.Claims.CmdStarts; decide +kernel⟩,
    ⟨0, 0, wIndex, wTable wIndex [(TBL.CMD_LOC.INDEX, 0, 8)] {}, by unfold Sys2Proof.Claims.CmdStarts; decide +kernel⟩⟩

/-- Each claim of TableControlCommandsTakeEffect is met somewhere: for every command a state and operands, and for the branches of its
conclusion. -/
theorem witness_TableControlCommandsTakeEffect :
  (∃ (b : Fin 32) (v : Word) (p : TablePlan) (s : State), CmdStarts b v p [kindTernary] s) ∧
  (∃ (b : Fin 32) (v : Word) (p : TablePlan) (s : State), CmdStarts b v p [kindTernary] s ∧
      s.cmdIndex b < p.positions ∧
      s.get TBL.CMD_LOC.TARGET b < p.positions ∧
      (cmdTwin v s s).ternValid (s.get TBL.CMD_LOC.TARGET b) = false ∧
      (cmdTwin v s s).ternValid (s.cmdIndex b) = true) ∧
  (∃ (b : Fin 32) (v : Word) (p : TablePlan) (s : State), CmdStarts b v p [kindTernary] s ∧
      (p.positions ≤ s.cmdIndex b ∨ p.positions ≤ s.get TBL.CMD_LOC.TARGET b)) ∧
  (∃ (b : Fin 32) (v : Word) (p : TablePlan) (s : State), CmdStarts b v p [kindTernary] s ∧
      s.cmdIndex b < p.positions ∧
      s.get TBL.CMD_LOC.TARGET b < p.positions ∧
      (cmdTwin v s s).ternValid (s.get TBL.CMD_LOC.TARGET b) = true) ∧
  (∃ (b : Fin 32) (v : Word) (p : TablePlan) (s : State), CmdStarts b v p [kindTernary] s ∧
      s.cmdIndex b < p.positions ∧
      s.get TBL.CMD_LOC.TARGET b < p.positions ∧
      (cmdTwin v s s).ternValid (s.get TBL.CMD_LOC.TARGET b) = false ∧
      (cmdTwin v s s).ternValid (s.cmdIndex b) = false) ∧
  (∃ (b : Fin 32) (v : Word) (p : TablePlan) (s : State), CmdStarts b v p [kindLpm4, kindLpm6] s) ∧
  (∃ (b : Fin 32) (v : Word) (p : TablePlan) (s : State) (r : TrieWrite), CmdStarts b v p [kindLpm4, kindLpm6] s ∧
      s.cmdPlen b ≤ p.maxLen ∧
      s.cmdPlen b ≤ 64 ∧
      r = p.trieAdd (p.trieAddr (cmdPrefix b p s).1) (s.cmdPlen b) (resultSlot (s.cmdPlen b) (s.cmdWord b 2 % 2 ^ 32)) p.strides 0 0 0 (s.table (bitsOf v 8 8))) ∧
  (∃ (b : Fin 32) (v : Word) (p : TablePlan) (s : State) (x : Tab TEntry × Nat × Nat), CmdStarts b v p [kindLpm4, kindLpm6] s ∧
      s.cmdPlen b ≤ p.maxLen ∧
      64 < s.cmdPlen b ∧
      regionFind (s.table (bitsOf v 8 8)).twin0.tern (cmdPrefix b p s).1 (s.cmdPlen b) = none ∧
      regionAdd p.ternPositions (s.table (bitsOf v 8 8)).twin0.tern (cmdPrefix b p s).1 (s.cmdPlen b) (s.cmdWord b 2 % 2 ^ 32) = some x) ∧
  (∃ (b : Fin 32) (v : Word) (p : TablePlan) (s : State), CmdStarts b v p [kindLpm4, kindLpm6] s ∧
      s.cmdPlen b ≤ p.maxLen ∧
      64 < s.cmdPlen b ∧
      regionFind (s.table (bitsOf v 8 8)).twin0.tern (cmdPrefix b p s).1 (s.cmdPlen b) = none ∧
      regionAdd p.ternPositions (s.table (bitsOf v 8 8)).twin0.tern (cmdPrefix b p s).1 (s.cmdPlen b) (s.cmdWord b 2 % 2 ^ 32) = none) ∧
  (∃ (b : Fin 32) (v : Word) (p : TablePlan) (s : State) (i : Nat), CmdStarts b v p [kindLpm4, kindLpm6] s ∧
      s.cmdPlen b ≤ p.maxLen ∧
      64 < s.cmdPlen b ∧
      regionFind (s.table (bitsOf v 8 8)).twin0.tern (cmdPrefix b p s).1 (s.cmdPlen b) = some i) ∧
  (∃ (b : Fin 32) (v : Word) (p : TablePlan) (s : State), CmdStarts b v p [kindLpm4, kindLpm6] s ∧
      p.maxLen < s.cmdPlen b) ∧
  (∃ (b : Fin 32) (v : Word) (p : TablePlan) (s : State), CmdStarts b v p [kindLpm4, kindLpm6] s) ∧
  (∃ (b : Fin 32) (v : Word) (p : TablePlan) (s : State), CmdStarts b v p [kindLpm4, kindLpm6] s ∧
      s.cmdPlen b ≤ p.maxLen ∧
      cmdPrefix b p s ∈ (s.table (bitsOf v 8 8)).prefixes) ∧
  (∃ (b : Fin 32) (v : Word) (p : TablePlan) (s : State), CmdStarts b v p [kindLpm4, kindLpm6] s ∧
      s.cmdPlen b ≤ p.maxLen ∧
      cmdPrefix b p s ∉ (s.table (bitsOf v 8 8)).prefixes) ∧
  (∃ (b : Fin 32) (v : Word) (p : TablePlan) (s : State), CmdStarts b v p [kindLpm4, kindLpm6] s ∧
      p.maxLen < s.cmdPlen b) ∧
  (∃ (b : Fin 32) (v : Word) (p : TablePlan) (s : State), CmdStarts b v p [kindExact] s) ∧
  (∃ (b : Fin 32) (v : Word) (p : TablePlan) (s : State) (i : Where), CmdStarts b v p [kindExact] s ∧
      cmdFind b v p s = some i) ∧
  (∃ (b : Fin 32) (v : Word) (p : TablePlan) (s : State), CmdStarts b v p [kindExact] s ∧
      cmdFind b v p s = none) ∧
  (∃ (b : Fin 32) (v : Word) (p : TablePlan) (s : State), CmdStarts b v p [kindExact, kindLpm4, kindLpm6, kindTernary, kindIndex] s) ∧
  (∃ (b : Fin 32) (v : Word) (p : TablePlan) (s : State), CmdStarts b v p [kindExact, kindLpm4, kindLpm6, kindTernary, kindIndex] s ∧
      (bitsOf v 19 1 = 0 ∨ s.draining p.troupe = false)) ∧
  (∃ (b : Fin 32) (v : Word) (p : TablePlan) (s : State), CmdStarts b v p [kindExact, kindLpm4, kindLpm6, kindTernary, kindIndex] s ∧
      bitsOf v 19 1 = 1 ∧
      s.draining p.troupe = true) ∧
  (∃ (b : Fin 32) (s : State), s.get TBL.CMD_CTRL.BUSY b = 1 ∧
      b.val ∉ s.tb.waiting) ∧
  (∃ (b : Fin 32) (s : State), s.get TBL.CMD_CTRL.BUSY b = 1 ∧
      b.val ∉ s.tb.waiting ∧
      s.get TBL.CMD_CTRL.INT b = 1) ∧
  (∃ (b : Fin 32) (s : State), s.hostReach 0 false = true ∧
      s.get TBL.CMD_CTRL.BUSY b = 1) ∧
  (∃ (n : Fin 256) (_w : Fin 2) (_v : Word) (p : TablePlan) (s : State), s.hostReach 0 false = true ∧
      s.tablePlan n = some p ∧
      p.kind = kindExact ∧
      p.twin = true) ∧
  (∃ (n : Fin 256) (w : Fin 2) (_v : Word) (p : TablePlan) (s : State), s.hostReach 0 false = true ∧
      s.tablePlan n = some p ∧
      p.kind = kindExact ∧
      p.twin = true ∧
      s.get TBL.TABLE_CTRL.ACTIVE_TWIN n ≠ w.val ∧
      ((s.table n).twin w).slots = [] ∧
      ((s.table n).twin w).stash = []) ∧
  (∃ (n : Fin 256) (w : Fin 2) (_v : Word) (p : TablePlan) (s : State), s.hostReach 0 false = true ∧
      s.tablePlan n = some p ∧
      p.kind = kindExact ∧
      p.twin = true ∧
      (s.get TBL.TABLE_CTRL.ACTIVE_TWIN n = w.val ∨ ((s.table n).twin w).slots ≠ [] ∨ ((s.table n).twin w).stash ≠ [])) :=
  ⟨
    ⟨0, 0, wTernary, wTable wTernary [] {}, by unfold Sys2Proof.Claims.CmdStarts; decide +kernel⟩,
    ⟨0, 0, wTernary, wTable wTernary [(TBL.CMD_LOC.TARGET, 0, 1)] wTern, by unfold Sys2Proof.Claims.CmdStarts; decide +kernel⟩,
    ⟨0, 0, wTernary, wTable wTernary [(TBL.CMD_LOC.TARGET, 0, 8)] wTern, by unfold Sys2Proof.Claims.CmdStarts; decide +kernel⟩,
    ⟨0, 0, wTernary, wTable wTernary [(TBL.CMD_LOC.INDEX, 0, 1)] wTern, by unfold Sys2Proof.Claims.CmdStarts; decide +kernel⟩,
    ⟨0, 0, wTernary, wTable wTernary [(TBL.CMD_LOC.TARGET, 0, 1)] {}, by unfold Sys2Proof.Claims.CmdStarts; decide +kernel⟩,
    ⟨0, 0, wLpm, wTable wLpm [(TBL.CMD_LOC.PLEN, 0, 16)] {}, by unfold Sys2Proof.Claims.CmdStarts; decide +kernel⟩,
    ⟨0, 0, wLpm, wTable wLpm [(TBL.CMD_LOC.PLEN, 0, 16)] {}, wLpm.trieAdd (wLpm.trieAddr 0) 16 (resultSlot 16 0) wLpm.strides 0 0 0 {}, by unfold Sys2Proof.Claims.CmdStarts; exact ⟨by decide +kernel, by decide +kernel, by decide +kernel, rfl⟩⟩,
    ⟨0, 0, wLpm6, wTable wLpm6 [(TBL.CMD_LOC.PLEN, 0, 65)] {}, ([(0, sameEntry { value := ternPrefix 0 65 0 })], 0, 0), by unfold Sys2Proof.Claims.CmdStarts; decide +kernel⟩,
    ⟨0, 0, { wLpm6 with ternPositions := 0 }, wTable { wLpm6 with ternPositions := 0 } [(TBL.CMD_LOC.PLEN, 0, 65)] {}, by unfold Sys2Proof.Claims.CmdStarts; decide +kernel⟩,
    ⟨0, 0, wLpm6, wTable wLpm6 [(TBL.CMD_LOC.PLEN, 0, 65)] wRegion, 0, by unfold Sys2Proof.Claims.CmdStarts; decide +kernel⟩,
    ⟨0, 0, wLpm, wTable wLpm [(TBL.CMD_LOC.PLEN, 0, 33)] {}, by unfold Sys2Proof.Claims.CmdStarts; decide +kernel⟩,
    ⟨0, 0, wLpm, wTable wLpm [(TBL.CMD_LOC.PLEN, 0, 16)] { tables := [(0, { prefixes := [(0, 16)] })] }, by unfold Sys2Proof.Claims.CmdStarts; decide +kernel⟩,
    ⟨0, 0, wLpm, wTable wLpm [(TBL.CMD_LOC.PLEN, 0, 16)] { tables := [(0, { prefixes := [(0, 16)] })] }, by unfold Sys2Proof.Claims.CmdStarts; decide +kernel⟩,
    ⟨0, 0, wLpm, wTable wLpm [(TBL.CMD_LOC.PLEN, 0, 16)] {}, by unfold Sys2Proof.Claims.CmdStarts; decide +kernel⟩,
    ⟨0, 0, wLpm, wTable wLpm [(TBL.CMD_LOC.PLEN, 0, 33)] {}, by unfold Sys2Proof.Claims.CmdStarts; decide +kernel⟩,
    ⟨0, 0, wExact, wTable wExact [] wHit, by unfold Sys2Proof.Claims.CmdStarts; decide +kernel⟩,
    ⟨0, 0, wExact, wTable wExact [] wHit, ⟨true, 0⟩, by unfold Sys2Proof.Claims.CmdStarts; decide +kernel⟩,
    ⟨0, 0, wExact, wTable wExact [] {}, by unfold Sys2Proof.Claims.CmdStarts; decide +kernel⟩,
    ⟨0, 0, wExact, wTable wExact [] {}, by unfold Sys2Proof.Claims.CmdStarts; decide +kernel⟩,
    ⟨0, 0, wExact, wTable wExact [] {}, by unfold Sys2Proof.Claims.CmdStarts; decide +kernel⟩,
    ⟨0, 0x80000, wExact, { wTable wExact [] {} with sw := wOld }, by unfold Sys2Proof.Claims.CmdStarts; decide +kernel⟩,
    ⟨0, wWith [(TBL.CMD_CTRL.BUSY, 0, 1)], by decide +kernel⟩,
    ⟨0, wWith [(TBL.CMD_CTRL.BUSY, 0, 1), (TBL.CMD_CTRL.INT, 0, 1)], by decide +kernel⟩,
    ⟨0, wWith [(TBL.CMD_CTRL.BUSY, 0, 1)], by decide +kernel⟩,
    ⟨0, 1, 0, wExact, wTable wExact [] {}, by decide +kernel⟩,
    ⟨0, 1, 0, wExact, wTable wExact [] {}, by decide +kernel⟩,
    ⟨0, 0, 5, wExact, wTable wExact [] {}, by decide +kernel⟩⟩

/-- Each claim of LearningEventsTakeEffect is met somewhere: for every command a state and operands, and for the branches of its
conclusion. -/
theorem witness_LearningEventsTakeEffect :
  (∃ (a : LearnEvent) (e : LearnEvent) (r : List LearnEvent) (s : State), s.tb.inFlight = a :: r ∧
      e = r.foldl learnFirst a) ∧
  (∃ (a : LearnEvent) (e : LearnEvent) (r : List LearnEvent) (s : State), s.tb.inFlight = a :: r ∧
      e = r.foldl learnFirst a ∧
      s.tb.queue.length < 65536) ∧
  (∃ (a : LearnEvent) (e : LearnEvent) (r : List LearnEvent) (s : State), s.tb.inFlight = a :: r ∧
      e = r.foldl learnFirst a ∧
      65536 ≤ s.tb.queue.length) ∧
  (∃ (e : LearnEvent) (r : List LearnEvent) (s : State), s.tb.queue = e :: r ∧
      s.tableBusy e.table = false) ∧
  (∃ (e : LearnEvent) (r : List LearnEvent) (s : State), s.tb.queue = e :: r ∧
      s.tableBusy e.table = false ∧
      (s.tablePlan e.table = none ∨ s.get TBL.TABLE_CTRL.LEARN_EN e.table = 0 ∨ (∃ p, s.tablePlan e.table = some p ∧ (p.troupe ≠ e.troupe ∨ p.kind ≠ kindExact)))) ∧
  (∃ (e : LearnEvent) (r : List LearnEvent) (s : State) (p : TablePlan) (x : Inserted), s.tb.queue = e :: r ∧
      s.tableBusy e.table = false ∧
      s.tablePlan e.table = some p ∧
      p.troupe = e.troupe ∧
      p.kind = kindExact ∧
      s.get TBL.TABLE_CTRL.LEARN_EN e.table = 1 ∧
      s.get TBL.TABLE_CTRL.DUAL_WRITE e.table = 0 ∧
      p.find ((s.table e.table).twin (s.twinOf e.table 0)) (s.seedsOf e.table (s.twinOf e.table 0)) 0 (p.keyOf e.image) = none ∧
      x = p.insert ((s.table e.table).twin (s.twinOf e.table 0)) (s.seedsOf e.table (s.twinOf e.table 0)) (p.keyOf e.image) (sameEntry { value := p.bodyOf e.image, age := (s.table e.table).clock, learned := true })) ∧
  (∃ (e : LearnEvent) (r : List LearnEvent) (s : State) (p : TablePlan) (i : Where) (c : TCopy), s.tb.queue = e :: r ∧
      s.tableBusy e.table = false ∧
      s.tablePlan e.table = some p ∧
      p.troupe = e.troupe ∧
      p.kind = kindExact ∧
      s.get TBL.TABLE_CTRL.LEARN_EN e.table = 1 ∧
      p.find ((s.table e.table).twin (s.twinOf e.table 0)) (s.seedsOf e.table (s.twinOf e.table 0)) 0 (p.keyOf e.image) = some i ∧
      entryOn (((s.table e.table).twin (s.twinOf e.table 0)).at_ i) 0 = some c) ∧
  (∃ (n : Fin 256) (key : Nat) (q : Pin) (p : TablePlan) (s : State), s.tablePlan n = some p ∧
      q ∈ s.tb.pins ∧
      q.table = n.val ∧
      q.key = key ∧
      s.get TBL.LEARN_CFG.PIN_HOLD_S 0 ≠ 0 ∧
      q.at_ + s.get TBL.LEARN_CFG.PIN_HOLD_S 0 * secTicks ≤ s.now ∧
      s.tableBusy n = false) ∧
  (∃ (n : Fin 256) (key : Nat) (q : Pin) (p : TablePlan) (s : State) (i : Where), s.tablePlan n = some p ∧
      q ∈ s.tb.pins ∧
      q.table = n.val ∧
      q.key = key ∧
      s.get TBL.LEARN_CFG.PIN_HOLD_S 0 ≠ 0 ∧
      q.at_ + s.get TBL.LEARN_CFG.PIN_HOLD_S 0 * secTicks ≤ s.now ∧
      s.tableBusy n = false ∧
      p.find ((s.table n).twin q.twin) (s.seedsOf n q.twin) 0 key = some i) ∧
  (∃ (n : Fin 256) (p : TablePlan) (s : State), s.tablePlan n = some p ∧
      p.kind = kindExact ∧
      (s.table n).tickAt + max 1 (s.get TBL.AGE_CFG.TICK_MS n) * msTicks ≤ s.now) ∧
  (∃ (n : Nat) (p : TablePlan) (s : State), s.exactTables.find? (fun e => e.1 == s.tb.sweepTable) = some (n, p) ∧
      s.tableBusy n = false) ∧
  (∃ (n : Nat) (p : TablePlan) (s : State), s.exactTables.find? (fun e => e.1 == s.tb.sweepTable) = some (n, p) ∧
      s.tableBusy n = false ∧
      s.tb.sweepPos + 1 < p.positions + 1024) ∧
  (∃ (n : Nat) (p : TablePlan) (s : State), s.exactTables.find? (fun e => e.1 == s.tb.sweepTable) = some (n, p) ∧
      s.tableBusy n = false ∧
      p.positions + 1024 ≤ s.tb.sweepPos + 1 ∧
      p.twin = true ∧
      s.tb.sweepTwin = 0) ∧
  (∃ (n : Nat) (p : TablePlan) (s : State) (m : Nat), s.exactTables.find? (fun e => e.1 == s.tb.sweepTable) = some (n, p) ∧
      s.tableBusy n = false ∧
      p.positions + 1024 ≤ s.tb.sweepPos + 1 ∧
      (p.twin = false ∨ s.tb.sweepTwin ≠ 0) ∧
      s.exactFrom (s.tb.sweepTable + 1) = some m) ∧
  (∃ (n : Nat) (p : TablePlan) (s : State), s.exactTables.find? (fun e => e.1 == s.tb.sweepTable) = some (n, p) ∧
      s.tableBusy n = false ∧
      p.positions + 1024 ≤ s.tb.sweepPos + 1 ∧
      (p.twin = false ∨ s.tb.sweepTwin ≠ 0) ∧
      s.exactFrom (s.tb.sweepTable + 1) = none) ∧
  (∃ (n : Nat) (p : TablePlan) (s : State) (i : Where), s.exactTables.find? (fun e => e.1 == s.tb.sweepTable) = some (n, p) ∧
      s.tableBusy n = false ∧
      s.get TBL.AGE_CFG.ACTION n = 0 ∧
      i = (if s.tb.sweepPos < p.positions then ⟨false, s.tb.sweepPos⟩ else ⟨true, s.tb.sweepPos - p.positions⟩ : Where)) ∧
  (∃ (_v : Word) (s : State), s.hostReach 0 false = true) ∧
  (∃ (v : Word) (s : State), s.hostReach 0 false = true ∧
      s.promRuns = false ∧
      s.wardenUp = true ∧
      s.tableReady (bitsOf v TBL.PROM_CTRL.TABLE.lo TBL.PROM_CTRL.TABLE.width) = true) ∧
  (∃ (v : Word) (s : State), s.hostReach 0 false = true ∧
      (s.promRuns = true ∨ s.wardenUp = false ∨ s.tableReady (bitsOf v TBL.PROM_CTRL.TABLE.lo TBL.PROM_CTRL.TABLE.width) = false)) ∧
  (∃ (_v : Word) (s : State), s.hostReach 0 false = true) ∧
  (∃ (_v : Word) (s : State), s.hostReach 0 false = true ∧
      s.promRuns = true) ∧
  (∃ (_v : Word) (s : State), s.hostReach 0 false = true ∧
      s.promRuns = false) ∧
  (∃ (_image : Nat) (p : TablePlan) (s : State), s.tablePlan s.promTable = some p ∧
      s.promState = promForward ∧
      s.firmwareRuns = true ∧
      (p.isLpm = true ∨ s.busMaster 0 = true) ∧
      s.get TBL.PROM_STATUS.RECORDS_DONE 0 < s.promLength p ∧
      s.promLength p < 2 ^ TBL.PROM_STATUS.RECORDS_DONE.width) ∧
  (∃ (_image : Nat) (p : TablePlan) (s : State), s.tablePlan s.promTable = some p ∧
      s.promState = promForward ∧
      s.firmwareRuns = true ∧
      (p.isLpm = true ∨ s.busMaster 0 = true) ∧
      s.get TBL.PROM_STATUS.RECORDS_DONE 0 < s.promLength p ∧
      s.promLength p < 2 ^ TBL.PROM_STATUS.RECORDS_DONE.width ∧
      s.get TBL.PROM_STATUS.RECORDS_DONE 0 + 1 < s.promLength p) ∧
  (∃ (_image : Nat) (p : TablePlan) (s : State), s.tablePlan s.promTable = some p ∧
      s.promState = promForward ∧
      s.firmwareRuns = true ∧
      (p.isLpm = true ∨ s.busMaster 0 = true) ∧
      s.get TBL.PROM_STATUS.RECORDS_DONE 0 < s.promLength p ∧
      s.promLength p < 2 ^ TBL.PROM_STATUS.RECORDS_DONE.width ∧
      s.get TBL.PROM_STATUS.RECORDS_DONE 0 + 1 = s.promLength p) ∧
  (∃ (_image : Nat) (p : TablePlan) (s : State), s.tablePlan s.promTable = some p ∧
      s.promState = promForward ∧
      s.firmwareRuns = true ∧
      (p.isLpm = true ∨ s.busMaster 0 = true) ∧
      s.get TBL.PROM_STATUS.RECORDS_DONE 0 < s.promLength p ∧
      s.promLength p < 2 ^ TBL.PROM_STATUS.RECORDS_DONE.width ∧
      p.kind = kindExact) ∧
  (∃ (image : Nat) (p : TablePlan) (s : State), s.tablePlan s.promTable = some p ∧
      s.promState = promForward ∧
      s.firmwareRuns = true ∧
      (p.isLpm = true ∨ s.busMaster 0 = true) ∧
      s.get TBL.PROM_STATUS.RECORDS_DONE 0 < s.promLength p ∧
      s.promLength p < 2 ^ TBL.PROM_STATUS.RECORDS_DONE.width ∧
      p.kind = kindExact ∧
      (∀ d, d < 4 → ∃ i c, p.find ((s.table s.promTable).twin s.promTwin) (s.seedsOf s.promTable s.promTwin) d (p.keyOf image) = some i ∧ entryOn (((s.table s.promTable).twin s.promTwin).at_ i) d = some c ∧ c.value = p.bodyOf image ∧ c.static = natBit image (p.bits - 32 + 17))) ∧
  (∃ (image : Nat) (p : TablePlan) (s : State) (d : Nat), s.tablePlan s.promTable = some p ∧
      s.promState = promForward ∧
      s.firmwareRuns = true ∧
      (p.isLpm = true ∨ s.busMaster 0 = true) ∧
      s.get TBL.PROM_STATUS.RECORDS_DONE 0 < s.promLength p ∧
      s.promLength p < 2 ^ TBL.PROM_STATUS.RECORDS_DONE.width ∧
      p.kind = kindExact ∧
      d < 4 ∧
      p.find ((s.table s.promTable).twin s.promTwin) (s.seedsOf s.promTable s.promTwin) d (p.keyOf image) = none ∧
      s.get TBL.PROM_STATUS.MISMATCHES 0 < 2 ^ 32 - 1) ∧
  (∃ (p : TablePlan) (s : State), s.tablePlan s.promTable = some p ∧
      s.promState = promCensus ∧
      s.firmwareRuns = true) ∧
  (∃ (p : TablePlan) (s : State), s.tablePlan s.promTable = some p ∧
      s.promState = promCensus ∧
      s.firmwareRuns = true ∧
      ((s.table s.promTable).twin s.promTwin).slots = [] ∧
      ((s.table s.promTable).twin s.promTwin).stash = []) :=
  ⟨
    ⟨wEvent, wEvent, [], { wUp with tb := { inFlight := [wEvent] } }, by decide +kernel⟩,
    ⟨wEvent, wEvent, [], { wUp with tb := { inFlight := [wEvent] } }, by decide +kernel⟩,
    ⟨wEvent, wEvent, [], { wUp with tb := { inFlight := [wEvent], queue := List.replicate 65536 wEvent } }, by decide +kernel, rfl, Nat.le_of_eq (List.length_replicate ..).symm⟩,
    ⟨wEvent, [], wLearn wExact [] {}, by decide +kernel⟩,
    ⟨wEvent, [], wTable wExact [] { queue := [wEvent] }, by refine ⟨by decide +kernel, by decide +kernel, Or.inr (Or.inl ?_)⟩; decide +kernel⟩,
    ⟨wEvent, [], wLearn wExact [] {}, wExact, _, by decide +kernel, by decide +kernel, by decide +kernel, by decide +kernel, by decide +kernel, by decide +kernel, by decide +kernel, by decide +kernel, rfl⟩,
    ⟨wEvent, [], wLearn wExact [] wHit, wExact, ⟨true, 0⟩, { value := 0 }, by decide +kernel⟩,
    ⟨0, 0, ⟨0, 0, 0, 0⟩, wExact, wTable wExact [(TBL.LEARN_CFG.PIN_HOLD_S, 0, 1)] {  pins := [⟨0, 0, 0, 0⟩] }, by decide +kernel⟩,
    ⟨0, 0, ⟨0, 0, 0, 0⟩, wExact, wTable wExact [(TBL.LEARN_CFG.PIN_HOLD_S, 0, 1)] { tables := [(0, { twin0 := { stash := [(0, [(0, { value := 0 })])] } })], pins := [⟨0, 0, 0, 0⟩] }, ⟨true, 0⟩, by decide +kernel⟩,
    ⟨0, wExact, wTable wExact [] {}, by decide +kernel⟩,
    ⟨0, wExact, wTable wExact [] {}, by decide +kernel⟩,
    ⟨0, wExact, wTable wExact [] {}, by decide +kernel⟩,
    ⟨0, wExact, wLast [(0, wExact)], by decide +kernel⟩,
    ⟨0, { wExact with twin := false }, wLast [(0, { wExact with twin := false }), (2, wExact)], 2, by decide +kernel⟩,
    ⟨0, { wExact with twin := false }, wLast [(0, { wExact with twin := false })], by decide +kernel⟩,
    ⟨0, wExact, wTable wExact [] {}, ⟨false, 0⟩, by decide +kernel⟩,
    ⟨0, wTable wExact [] {}, by decide +kernel⟩,
    ⟨0, wTable wExact [] {}, by decide +kernel⟩,
    ⟨0, wTable wExact [] { prom := { phase := promForward } }, by decide +kernel⟩,
    ⟨0, wTable wExact [] { prom := { phase := promForward } }, by decide +kernel⟩,
    ⟨0x400, wTable wExact [(TBL.PROM_STATUS.STATE, 0, promForward)] { prom := { phase := promForward } }, by decide +kernel⟩,
    ⟨0, wTable wExact [] {}, by decide +kernel⟩,
    ⟨0, wExact, wTable wExact [(TBL.PROM_CTRL.RECORDS, 0, 2)] { prom := { phase := promForward } }, by decide +kernel⟩,
    ⟨0, wExact, wTable wExact [(TBL.PROM_CTRL.RECORDS, 0, 2)] { prom := { phase := promForward } }, by decide +kernel⟩,
    ⟨0, wExact, wProm wExact 1 {}, by decide +kernel⟩,
    ⟨0, wExact, wTable wExact [(TBL.PROM_CTRL.RECORDS, 0, 2)] { prom := { phase := promForward } }, by decide +kernel⟩,
    ⟨0, wExact, wProm wExact 2 { tables := [(0, { twin0 := { stash := [(0, sameEntry { value := 0 })] } })] }, by refine ⟨by decide +kernel, by decide +kernel, by decide +kernel, by decide +kernel, by decide +kernel, by decide +kernel, by decide +kernel, fun d hd => ?_⟩; have h : d = 0 ∨ d = 1 ∨ d = 2 ∨ d = 3 := by { omega }; rcases h with rfl | rfl | rfl | rfl <;> exact ⟨⟨true, 0⟩, { value := 0 }, by decide +kernel⟩⟩,
    ⟨0, wExact, wTable wExact [(TBL.PROM_CTRL.RECORDS, 0, 2)] { prom := { phase := promForward } }, 0, by decide +kernel⟩,
    ⟨wExact, wTable wExact [] { prom := { phase := promCensus } }, by decide +kernel⟩,
    ⟨wExact, wTable wExact [] { prom := { phase := promCensus } }, by decide +kernel⟩⟩

/-- Each claim of DeepMemoryEventsTakeEffect is met somewhere: for every command a state and operands, and for the branches of its
conclusion. -/
theorem witness_DeepMemoryEventsTakeEffect :
  (∃ (k : Nat) (r : List Nat) (d : Desc) (v : Packet) (c : Copy) (c' : Copy) (stale : Bool) (s : State), s.hbm.marked = k :: r ∧
      s.desc k = some d ∧
      s.packet d.packet = some v ∧
      d.copies = [c] ∧
      entryOf k (s.queue c.queue) = some (c', stale) ∧
      d.marked = true ∧
      d.refs = 1 ∧
      runBefore k (s.queue c'.queue) = none) ∧
  (∃ (k : Nat) (r : List Nat) (d : Desc) (v : Packet) (c : Copy) (c' : Copy) (stale : Bool) (s : State) (bs : List Nat) (nx : Nat), s.hbm.marked = k :: r ∧
      s.desc k = some d ∧
      s.packet d.packet = some v ∧
      d.copies = [c] ∧
      entryOf k (s.queue c.queue) = some (c', stale) ∧
      d.marked = true ∧
      d.refs = 1 ∧
      runBefore k (s.queue c'.queue) = none ∧
      s.takeBlocks v.troupe ((s.recordLen v.troupe d.len + blockPayload - 1) / blockPayload) s.hbm.nextStack [] = some (bs, nx)) ∧
  (∃ (k : Nat) (r : List Nat) (d : Desc) (v : Packet) (c : Copy) (c' : Copy) (stale : Bool) (s : State), s.hbm.marked = k :: r ∧
      s.desc k = some d ∧
      s.packet d.packet = some v ∧
      d.copies = [c] ∧
      entryOf k (s.queue c.queue) = some (c', stale) ∧
      d.marked = true ∧
      d.refs = 1 ∧
      runBefore k (s.queue c'.queue) = none ∧
      s.takeBlocks v.troupe ((s.recordLen v.troupe d.len + blockPayload - 1) / blockPayload) s.hbm.nextStack [] = none) ∧
  (∃ (_rivals : List (Fin 18)) (q : Nat) (f : Nat) (r : List Nat) (v : SpillFrame) (s : State), (s.sw.queues.map Prod.fst).filter (fun q => s.refillDue q && (tabFind s.hbm.retryAt q).isNone) = [q] ∧
      (s.aheadOfRun (s.queue q)).2 = f :: r ∧
      tabFind s.sw.spilled f = some v ∧
      s.descsUsed < 4194304) ∧
  (∃ (rivals : List (Fin 18)) (q : Nat) (f : Nat) (r : List Nat) (v : SpillFrame) (s : State), (s.sw.queues.map Prod.fst).filter (fun q => s.refillDue q && (tabFind s.hbm.retryAt q).isNone) = [q] ∧
      (s.aheadOfRun (s.queue q)).2 = f :: r ∧
      tabFind s.sw.spilled f = some v ∧
      s.descsUsed < 4194304 ∧
      (({ s with hbm := { s.hbm with lastRefill := q } } : State).refillCells v.packet.troupe rivals (segmentLens v.len) []).1.isSome = true) ∧
  (∃ (rivals : List (Fin 18)) (q : Nat) (f : Nat) (r : List Nat) (v : SpillFrame) (s : State), (s.sw.queues.map Prod.fst).filter (fun q => s.refillDue q && (tabFind s.hbm.retryAt q).isNone) = [q] ∧
      (s.aheadOfRun (s.queue q)).2 = f :: r ∧
      tabFind s.sw.spilled f = some v ∧
      s.descsUsed < 4194304 ∧
      (({ s with hbm := { s.hbm with lastRefill := q } } : State).refillCells v.packet.troupe rivals (segmentLens v.len) []).1.isSome = false) ∧
  (∃ (q : QueueNo) (_rivals : List (Fin 18)) (a : Nat) (f : Nat) (r : List Nat) (v : SpillFrame) (s : State), tabFind s.hbm.retryAt q = some a ∧
      a ≤ s.now ∧
      (s.aheadOfRun (s.queue q)).2 = f :: r ∧
      tabFind s.sw.spilled f = some v ∧
      s.descsUsed < 4194304) ∧
  (∃ (q : QueueNo) (rivals : List (Fin 18)) (a : Nat) (f : Nat) (r : List Nat) (v : SpillFrame) (s : State), tabFind s.hbm.retryAt q = some a ∧
      a ≤ s.now ∧
      (s.aheadOfRun (s.queue q)).2 = f :: r ∧
      tabFind s.sw.spilled f = some v ∧
      s.descsUsed < 4194304 ∧
      (s.refillCells v.packet.troupe rivals (segmentLens v.len) []).1.isSome = true) ∧
  (∃ (q : QueueNo) (rivals : List (Fin 18)) (a : Nat) (f : Nat) (r : List Nat) (v : SpillFrame) (s : State), tabFind s.hbm.retryAt q = some a ∧
      a ≤ s.now ∧
      (s.aheadOfRun (s.queue q)).2 = f :: r ∧
      tabFind s.sw.spilled f = some v ∧
      s.descsUsed < 4194304 ∧
      (s.refillCells v.packet.troupe rivals (segmentLens v.len) []).1.isSome = false) ∧
  (∃ (k : Fin 2) (_ok : Bool) (_n : Fin 256) (s : State), s.hbmState k = hbmTraining) ∧
  (∃ (v : Word) (s : State), s.hostReach 0 false = true ∧
      natBit v.toNat 1 = true ∧
      s.hbmState (bitsOf v 0 1) = hbmFailed) ∧
  (∃ (k : Fin 2) (s : State), s.hbmState k = hbmReady ∧
      max 1 (s.get HBM.FAIL_CFG.FAIL_UNCORR 0) ≤ ((tabGet [] s.hbm.uncorrAt k).filter fun a => decide (s.now < a + secTicks)).length) ∧
  (∃ (k : Fin 2) (s : State), s.hbmState k = hbmReady ∧
      max 1 (s.get HBM.FAIL_CFG.FAIL_UNCORR 0) ≤ ((tabGet [] s.hbm.uncorrAt k).filter fun a => decide (s.now < a + secTicks)).length ∧
      s.ledgerStacks.contains k.val = true) ∧
  (∃ (k : Fin 2) (s : State), s.hbmState k = hbmReady ∧
      max 1 (s.get HBM.FAIL_CFG.FAIL_UNCORR 0) ≤ ((tabGet [] s.hbm.uncorrAt k).filter fun a => decide (s.now < a + secTicks)).length ∧
      s.ledgerStacks.contains k.val = false) ∧
  (∃ (k : Fin 2) (s : State), s.hbmState k = hbmReady) ∧
  (∃ (k : Fin 2) (_inError : Bool) (_newer : Bool) (s : State), s.hbmState k = hbmReady) ∧
  (∃ (k : Fin 2) (_pl : HbmPlace) (_a : Fin 18446744073709551616) (_rep : Bool) (s : State), s.hbmState k = hbmReady) ∧
  (∃ (k : Fin 2) (pl : HbmPlace) (_a : Fin 18446744073709551616) (_rep : Bool) (s : State) (n : Nat), s.hbmState k = hbmReady ∧
      pl = .capture n) ∧
  (∃ (k : Fin 2) (pl : HbmPlace) (_a : Fin 18446744073709551616) (_rep : Bool) (s : State) (f : Nat) (b : Nat), s.hbmState k = hbmReady ∧
      pl = .frameBytes f b) ∧
  (∃ (k : Fin 2) (pl : HbmPlace) (_a : Fin 18446744073709551616) (_rep : Bool) (s : State) (f : Nat) (b : Nat), s.hbmState k = hbmReady ∧
      pl = .frameHeader f b) ∧
  (∃ (k : Fin 2) (pl : HbmPlace) (_a : Fin 18446744073709551616) (_rep : Bool) (s : State) (n : Nat) (i : Nat) (o : Nat), s.hbmState k = hbmReady ∧
      pl = .locator n ∧
      tabFind s.tel.locator n = some (i, o)) ∧
  (∃ (k : Fin 2) (pl : HbmPlace) (_a : Fin 18446744073709551616) (_rep : Bool) (s : State) (i : Nat) (e : LedgerEntry), s.hbmState k = hbmReady ∧
      pl = .entry i ∧
      tabFind s.tel.ledger i = some e ∧
      (s.tel.updates.flatMap Prod.snd).filter (fun w => w.flow.key == e.flow.key) = []) ∧
  (∃ (q : Nat) (k : Nat) (c : Copy) (d : Desc) (v : Packet) (s : State), s.get HBM.CAPTURE_CFG.EN 0 = 1 ∧
      s.captureSize ≠ 0 ∧
      s.captureReady = true ∧
      s.captureNext = some (q, k, c) ∧
      s.desc k = some d ∧
      s.packet d.packet = some v) ∧
  (∃ (q : Nat) (k : Nat) (c : Copy) (d : Desc) (v : Packet) (s : State), s.get HBM.CAPTURE_CFG.EN 0 = 1 ∧
      s.captureSize ≠ 0 ∧
      s.captureReady = true ∧
      s.captureNext = some (q, k, c) ∧
      s.desc k = some d ∧
      s.packet d.packet = some v ∧
      s.staleHead q = false ∧
      (s.get HBM.CAPTURE_CFG.WRAP 0 = 1 ∨ s.hbm.capWritten + 65536 ≤ s.captureSize) ∧
      s.hbm.capReleased ≤ s.hbm.capWritten ∧
      s.get HBM.CAPTURE_STATUS.WRITE_OFF 0 + 65536 ≤ s.captureSize) ∧
  (∃ (q : Nat) (k : Nat) (c : Copy) (d : Desc) (v : Packet) (s : State), s.get HBM.CAPTURE_CFG.EN 0 = 1 ∧
      s.captureSize ≠ 0 ∧
      s.captureReady = true ∧
      s.captureNext = some (q, k, c) ∧
      s.desc k = some d ∧
      s.packet d.packet = some v ∧
      s.staleHead q = true) ∧
  (∃ (q : Nat) (k : Nat) (c : Copy) (d : Desc) (v : Packet) (s : State), s.get HBM.CAPTURE_CFG.EN 0 = 1 ∧
      s.captureSize ≠ 0 ∧
      s.captureReady = true ∧
      s.captureNext = some (q, k, c) ∧
      s.desc k = some d ∧
      s.packet d.packet = some v ∧
      s.staleHead q = false ∧
      s.get HBM.CAPTURE_CFG.WRAP 0 = 0 ∧
      s.captureSize ≤ s.hbm.capWritten - s.hbm.capReleased) ∧
  (∃ (fn : FnNo) (_v : Word) (s : State), s.hostReach fn.val false = true ∧
      (fn.val = 0 ∨ fn.val = s.get HBM.CAPTURE_CFG.TROUPE 0) ∧
      s.get HBM.COPY_CTRL.BUSY 0 = 0) ∧
  (∃ (fn : FnNo) (v : Word) (s : State), s.hostReach fn.val false = true ∧
      (fn.val = 0 ∨ fn.val = s.get HBM.CAPTURE_CFG.TROUPE 0) ∧
      s.get HBM.COPY_CTRL.BUSY 0 = 0 ∧
      natBit v.toNat 20 = true) ∧
  (∃ (_dmaError : Bool) (s : State), s.get HBM.COPY_CTRL.BUSY 0 = 1) ∧
  (∃ (k : Fin 2) (s : State), s.hbmState k = hbmReady ∧
      s.ledgerStacks.contains k.val = true ∧
      s.ready (rdyHbm k) = false) :=
  ⟨
    ⟨3, [], { wDesc with copies := [wCopy], marked := true, refs := 1 }, wPacket, wCopy, wCopy, false, wMarked, by refine ⟨?_, ?_, ?_, ?_, ?_, ?_, ?_, ?_⟩ <;> decide +kernel⟩,
    ⟨3, [], { wDesc with copies := [wCopy], marked := true, refs := 1 }, wPacket, wCopy, wCopy, false, wMarked, [0], 1, by decide +kernel⟩,
    ⟨3, [], { wDesc with copies := [wCopy], marked := true, refs := 1 }, wPacket, wCopy, wCopy, false, wSet [(HBM.TROUPE_SPILL.QUOTA_BLOCKS, 0, 0)] wMarked, by decide +kernel⟩,
    ⟨[], 0, 7, [], { wSpilled with len := 0 }, wRefill, by decide +kernel⟩,
    ⟨[], 0, 7, [], { wSpilled with len := 0 }, wRefill, by decide +kernel⟩,
    ⟨[], 0, 7, [], wSpilled, wRefillOf wSpilled {}, by decide +kernel⟩,
    ⟨0, [], 5, 7, [], { wSpilled with len := 0 }, wRefillOf { wSpilled with len := 0 } { retryAt := [(0, 5)] }, by decide +kernel⟩,
    ⟨0, [], 5, 7, [], { wSpilled with len := 0 }, wRefillOf { wSpilled with len := 0 } { retryAt := [(0, 5)] }, by decide +kernel⟩,
    ⟨0, [], 5, 7, [], wSpilled, wRefillOf wSpilled { retryAt := [(0, 5)] }, by decide +kernel⟩,
    ⟨0, true, 0, wWith [(HBM.STATUS.STATE, 0, hbmTraining)], by decide +kernel⟩,
    ⟨2, wWith [(HBM.STATUS.STATE, 0, hbmFailed)], by decide +kernel⟩,
    ⟨0, { wWith [(HBM.STATUS.STATE, 0, hbmReady), (HBM.FAIL_CFG.FAIL_UNCORR, 0, 1)] with hbm := { uncorrAt := [(0, [10 ^ 15])] } }, by decide +kernel⟩,
    ⟨0, { wMode 2 [(HBM.FAIL_CFG.FAIL_UNCORR, 0, 1)] {} with hbm := { uncorrAt := [(0, [10 ^ 15])] } }, by decide +kernel⟩,
    ⟨0, { wWith [(HBM.STATUS.STATE, 0, hbmReady), (HBM.FAIL_CFG.FAIL_UNCORR, 0, 1)] with hbm := { uncorrAt := [(0, [10 ^ 15])] } }, by decide +kernel⟩,
    ⟨0, wMode 2 [] {}, by decide +kernel⟩,
    ⟨0, true, false, wMode 2 [] {}, by decide +kernel⟩,
    ⟨0, .capture 0, 0, true, wMode 2 [] {}, by decide +kernel⟩,
    ⟨0, .capture 0, 0, true, wMode 2 [] {}, 0, by decide +kernel⟩,
    ⟨0, .frameBytes 7 3, 0, true, wMode 1 [] { spilled := [(7, wSpilled)] }, 7, 3, by decide +kernel⟩,
    ⟨0, .frameHeader 7 3, 0, true, wMode 1 [] { spilled := [(7, wSpilled)] }, 7, 3, by decide +kernel⟩,
    ⟨0, .locator 2, 0, true, wTel { locator := [(2, 4, 9)] }, 2, 4, 9, by decide +kernel⟩,
    ⟨0, .entry 4, 0, true, wTel { ledger := [(4, wEntry)] }, 4, wEntry, by decide +kernel⟩,
    ⟨0, 3, wCopy, { wDesc with complete := true }, wPacket, wCapture, by decide +kernel⟩,
    ⟨0, 3, wCopy, { wDesc with complete := true }, wPacket, wCapture, by decide +kernel⟩,
    ⟨0, 3, wCopy, { wDesc with complete := true }, wPacket, { wCapture with sw := { queues := [(0, [.copy 3 wCopy false true])], descs := [(3, { wDesc with complete := true })], packets := [(5, wPacket)] } }, by decide +kernel⟩,
    ⟨0, 3, wCopy, { wDesc with complete := true }, wPacket, { wSet [(HBM.CAPTURE_CFG.WRAP, 0, 0)] wCapture with hbm := { capWritten := 10 ^ 9 } }, by decide +kernel⟩,
    ⟨0, 0x100000, wUp, by decide +kernel⟩,
    ⟨0, 0x100000, wUp, by decide +kernel⟩,
    ⟨false, wMode 2 [(HBM.COPY_CTRL.BUSY, 0, 1), (HBM.COPY_CTRL.LEN, 0, 1), (HBM.CAPTURE_CFG.SIZE_GB, 0, 1)] {}, by decide +kernel⟩,
    ⟨0, wMode 2 [(TOP.READY.BITS, 0, 2 ^ 18 - 1 - 2 ^ 6)] {}, by decide +kernel⟩⟩

/-- Each claim of TelemetryEventsTakeEffect is met somewhere: for every command a state and operands, and for the branches of its
conclusion. -/
theorem witness_TelemetryEventsTakeEffect :
  (∃ (fn : FnNo) (_v : Word) (s : State), s.hostReach fn false = true) ∧
  (∃ (fn : FnNo) (v : Word) (s : State), s.hostReach fn false = true ∧
      natBit v.toNat 18 = false) ∧
  (∃ (fn : FnNo) (v : Word) (s : State), s.hostReach fn false = true ∧
      natBit v.toNat 18 = true ∧
      s.portExists (bitsOf v TEL.HIST_CTRL.PORT.lo TEL.HIST_CTRL.PORT.width) = false) ∧
  (∃ (fn : FnNo) (v : Word) (s : State), s.hostReach fn false = true ∧
      natBit v.toNat 18 = true ∧
      s.portExists (bitsOf v TEL.HIST_CTRL.PORT.lo TEL.HIST_CTRL.PORT.width) = true ∧
      fn.val ≠ 0 ∧
      s.portTroupe (bitsOf v TEL.HIST_CTRL.PORT.lo TEL.HIST_CTRL.PORT.width) ≠ fn.val) ∧
  (∃ (fn : FnNo) (v : Word) (s : State), s.hostReach fn false = true ∧
      natBit v.toNat 18 = true ∧
      s.portExists (bitsOf v TEL.HIST_CTRL.PORT.lo TEL.HIST_CTRL.PORT.width) = true ∧
      (fn.val = 0 ∨ s.portTroupe (bitsOf v TEL.HIST_CTRL.PORT.lo TEL.HIST_CTRL.PORT.width) = fn.val)) ∧
  (∃ (f : Fate) (r : List Fate) (s : State), s.tel.fates = f :: r) ∧
  (∃ (f : Fate) (r : List Fate) (s : State) (l : FlowLine), s.tel.fates = f :: r ∧
      tabFind s.tel.lines f.line = some l ∧
      l.gen = f.gen) ∧
  (∃ (f : Fate) (r : List Fate) (s : State), s.tel.fates = f :: r ∧
      (∀ l, tabFind s.tel.lines f.line = some l → l.gen ≠ f.gen)) ∧
  (∃ (d : RimNo) (n : Fin 65536) (l : FlowLine) (s : State), tabFind s.tel.lines (65536 * d.val + n.val) = some l ∧
      s.ledgerOn = true ∧
      l.refusedUntil = none ∧
      l.wbAt + msTicks ≤ s.now) ∧
  (∃ (d : RimNo) (n : Fin 65536) (l : FlowLine) (s : State), tabFind s.tel.lines (65536 * d.val + n.val) = some l ∧
      s.ledgerOn = true ∧
      l.refusedUntil = none ∧
      l.wbAt + msTicks ≤ s.now ∧
      (tabGet [] s.tel.updates d).length < 4096) ∧
  (∃ (d : RimNo) (n : Fin 65536) (l : FlowLine) (s : State), tabFind s.tel.lines (65536 * d.val + n.val) = some l ∧
      s.ledgerOn = true ∧
      l.refusedUntil = none ∧
      l.wbAt + msTicks ≤ s.now ∧
      4096 ≤ (tabGet [] s.tel.updates d).length) ∧
  (∃ (d : Nat) (w : WriteBack) (r : List WriteBack) (s : State), ((List.range 4).map fun j => (s.tel.lastDie + 1 + j) % 4).find? (fun d => !(tabGet [] s.tel.updates d).isEmpty) = some d ∧
      tabGet [] s.tel.updates d = w :: r ∧
      s.ledgerOn = true) ∧
  (∃ (d : Nat) (w : WriteBack) (r : List WriteBack) (s : State) (j : Nat) (i : Nat) (e : LedgerEntry), ((List.range 4).map fun j => (s.tel.lastDie + 1 + j) % 4).find? (fun d => !(tabGet [] s.tel.updates d).isEmpty) = some d ∧
      tabGet [] s.tel.updates d = w :: r ∧
      s.ledgerOn = true ∧
      s.locate w.flow.key = (j, some i) ∧
      tabFind s.tel.ledger i = some e) ∧
  (∃ (d : Nat) (w : WriteBack) (r : List WriteBack) (s : State) (j : Nat), ((List.range 4).map fun j => (s.tel.lastDie + 1 + j) % 4).find? (fun d => !(tabGet [] s.tel.updates d).isEmpty) = some d ∧
      tabGet [] s.tel.updates d = w :: r ∧
      s.ledgerOn = true ∧
      s.locate w.flow.key = (j, none) ∧
      s.tel.ledger.length < s.flowCapacity ∧
      s.troupeRoom w.flow.troupe = true) ∧
  (∃ (d : Nat) (w : WriteBack) (r : List WriteBack) (s : State) (j : Nat), ((List.range 4).map fun j => (s.tel.lastDie + 1 + j) % 4).find? (fun d => !(tabGet [] s.tel.updates d).isEmpty) = some d ∧
      tabGet [] s.tel.updates d = w :: r ∧
      s.ledgerOn = true ∧
      s.locate w.flow.key = (j, none) ∧
      s.flowCapacity ≤ s.tel.ledger.length ∧
      s.get TEL.FLOW_CFG.AGE_EVICT 0 = 0) ∧
  (∃ (s : State) (e : Nat × LedgerEntry), s.ledgerOn = true ∧ s.tel.ledger.find? (fun e => decide (s.tel.sweepNext ≤ e.1)) = some e) ∧
  (∃ (s : State), s.ledgerOn = true ∧
      s.tel.ledger.find? (fun e => decide (s.tel.sweepNext ≤ e.1)) = none) ∧
  (∃ (s : State) (e : Nat × FlowLine), s.ledgerOn = false ∧ s.tel.lines.find? (fun e => decide (s.tel.sweepNext ≤ e.1)) = some e) ∧
  (∃ (s : State), s.ledgerOn = false ∧
      s.tel.lines.find? (fun e => decide (s.tel.sweepNext ≤ e.1)) = none) ∧
  (∃ (s : State), s.get TEL.FLOW_STATUS.OVERFLOW 0 = 1 ∧
      s.tel.refusedAt + max 1 (s.get TEL.FLOW_CFG2.QUIET_MS 0) * msTicks ≤ s.now) ∧
  (∃ (d : RimNo) (n : Fin 65536) (l : FlowLine) (a : Nat) (s : State), tabFind s.tel.lines (65536 * d.val + n.val) = some l ∧
      l.refusedUntil = some a ∧
      a ≤ s.now) ∧
  (∃ (n : TroupeNo) (s : State), s.get TEL.EXPORT_CFG.EN n = 1 ∧
      s.messageDue n = true) ∧
  (∃ (n : TroupeNo) (s : State) (x : List (Nat × List Byte) × List (Nat × List Byte)), s.get TEL.EXPORT_CFG.EN n = 1 ∧
      s.messageDue n = true ∧
      x = takeRecords (s.messageMax n - 16 - (if (s.stream n).templatesAt.isNone then s.templateSet else []).length) none (s.stream n).records) ∧
  (∃ (n : TroupeNo) (a : Nat) (s : State), (s.stream n).templatesAt = some a ∧
      s.get TEL.EXPORT_CFG.EN n = 1 ∧
      a + max 1 (s.get TEL.EXPORT_CFG2.TEMPLATE_S n) * secTicks ≤ s.now) ∧
  (∃ (n : TroupeNo) (a : Nat) (s : State), (s.stream n).templatesAt = some a ∧
      s.get TEL.EXPORT_CFG.EN n = 1 ∧
      a + max 1 (s.get TEL.EXPORT_CFG2.TEMPLATE_S n) * secTicks ≤ s.now ∧
      s.get TEL.EXPORT_CFG.DEST n = 0) ∧
  (∃ (n : TroupeNo) (s : State), tabGet 0 s.tel.interval n ≠ s.now / (max 1 (s.get TEL.DROP_CFG.INTERVAL_MS n) * msTicks)) ∧
  (∃ (n : TroupeNo) (s : State) (r : Nat), tabGet 0 s.tel.interval n ≠ s.now / (max 1 (s.get TEL.DROP_CFG.INTERVAL_MS n) * msTicks) ∧
      r < 512) :=
  ⟨
    ⟨0, 0x40000, wSw [] {}, by decide +kernel⟩,
    ⟨0, 0, wSw [] {}, by decide +kernel⟩,
    ⟨0, 0x40000, { wUp with tel := { fates := [⟨0, 0, 0, 0, .drop⟩] } }, by decide +kernel⟩,
    ⟨1, 0x40000, wSw [] {}, by decide +kernel⟩,
    ⟨0, 0x40000, wSw [] {}, by decide +kernel⟩,
    ⟨⟨0, 0, 0, 0, .drop⟩, [], { wUp with tel := { fates := [⟨0, 0, 0, 0, .drop⟩] } }, by decide +kernel⟩,
    ⟨⟨0, 0, 0, 0, .drop⟩, [], { wUp with tel := { fates := [⟨0, 0, 0, 0, .drop⟩], lines := [(0, wLine)] } }, wLine, by decide +kernel⟩,
    ⟨⟨0, 0, 0, 0, .drop⟩, [], { wUp with tel := { fates := [⟨0, 0, 0, 0, .drop⟩] } }, by refine ⟨by decide +kernel, fun l h => ?_⟩; cases h⟩,
    ⟨0, 0, wLine, wTel { lines := [(0, wLine)] }, by decide +kernel⟩,
    ⟨0, 0, wLine, wTel { lines := [(0, wLine)] }, by decide +kernel⟩,
    ⟨0, 0, wLine, wTel { lines := [(0, wLine)], updates := [(0, List.replicate 4096 ⟨0, 0, wFlow⟩)] }, by decide +kernel⟩,
    ⟨0, ⟨0, 0, wFlow⟩, [], wTel { updates := [(0, [⟨0, 0, wFlow⟩])] }, by decide +kernel⟩,
    ⟨0, ⟨0, 0, wFlow⟩, [], wTel { updates := [(0, [⟨0, 0, wFlow⟩])], locator := [(0, 4, 0)], ledger := [(4, wEntry)] }, 0, 4, wEntry, by decide +kernel⟩,
    ⟨0, ⟨0, 0, wFlow⟩, [], wTel { updates := [(0, [⟨0, 0, wFlow⟩])] }, 0, by decide +kernel⟩,
    ⟨0, ⟨0, 0, wFlow⟩, [], wTel { updates := [(0, [⟨0, 0, wFlow⟩])], ledger := List.replicate (2 ^ 24) (4, wEntry) }, 0, by refine ⟨by decide +kernel, by decide +kernel, by decide +kernel, by decide +kernel, ?_, by decide +kernel⟩; exact (List.length_replicate ..).symm ▸ (by decide +kernel)⟩,
    ⟨wTel { ledger := [(0, { flow := wFlow })] }, (0, { flow := wFlow }), by decide +kernel⟩,
    ⟨wTel {}, by decide +kernel⟩,
    ⟨{ wUp with tel := { lines := [(0, wLine)] } }, (0, wLine), by decide +kernel⟩,
    ⟨wUp, by decide +kernel⟩,
    ⟨wWith [(TEL.FLOW_STATUS.OVERFLOW, 0, 1)], by decide +kernel⟩,
    ⟨0, 0, { wLine with refusedUntil := some 5 }, 5, wTel { lines := [(0, { wLine with refusedUntil := some 5 })] }, by decide +kernel⟩,
    ⟨0, wSet [(TEL.EXPORT_CFG.EN, 0, 1)] (wTel { streams := [(0, { records := [(0, [])] })] }), by decide +kernel⟩,
    ⟨0, wSet [(TEL.EXPORT_CFG.EN, 0, 1)] (wTel { streams := [(0, { records := [(0, [])] })] }), ([(0, [])], []), by decide +kernel⟩,
    ⟨0, 5, wSet [(TEL.EXPORT_CFG.EN, 0, 1)] (wTel { streams := [(0, { templatesAt := some 5 })] }), by decide +kernel⟩,
    ⟨0, 5, wSet [(TEL.EXPORT_CFG.EN, 0, 1)] (wTel { streams := [(0, { templatesAt := some 5 })] }), by decide +kernel⟩,
    ⟨0, wUp, by decide +kernel⟩,
    ⟨0, wUp, 0, by decide +kernel⟩⟩

/-- Each claim of TimeEventsTakeEffect is met somewhere: for every command a state and operands, and for the branches of its
conclusion. -/
theorem witness_TimeEventsTakeEffect :
  (∃ (fn : FnNo) (s : State), s.hostReach fn true = true) ∧
  (∃ (_v : Word) (s : State), s.hostReach 0 true = true) ∧
  (∃ (_v : Word) (s : State), s.hostReach 0 true = true ∧
      s.get TIME.SERVO_CFG.SRC 0 = 1) ∧
  (∃ (_v : Word) (s : State), s.hostReach 0 true = true ∧
      s.get TIME.SERVO_CFG.SRC 0 = 0 ∧
      s.get TIME.SERVO_CFG.EN 0 = 1) ∧
  (∃ (rising : Bool) (_ph : Fin 4) (s : State), s.flag TIME.PPS_IN.RISING 0 = rising ∧
      (∀ a, s.tim.ppsAt = some a → a + 1800000000 ≤ s.now)) ∧
  (∃ (rising : Bool) (ph : Fin 4) (s : State) (p : Int), s.flag TIME.PPS_IN.RISING 0 = rising ∧
      (∀ a, s.tim.ppsAt = some a → a + 1800000000 ≤ s.now) ∧
      p = stampRound ((s.netTime + (ph.val : Int) * (2 ^ 52 + s.tim.rate) / 4) / 2 ^ 37) - signedOf 16 (s.get TIME.PPS_IN.CORR_NS 0) * 65536) ∧
  (∃ (rising : Bool) (_ph : Fin 4) (s : State), s.flag TIME.PPS_IN.RISING 0 = rising ∧
      (∀ a, s.tim.ppsAt = some a → a + 1800000000 ≤ s.now) ∧
      s.get TIME.SERVO_CFG.EN 0 = 1 ∧
      s.get TIME.SERVO_CFG.SRC 0 = 1) ∧
  (∃ (rising : Bool) (_ph : Fin 4) (s : State), s.flag TIME.PPS_IN.RISING 0 = rising ∧
      (∀ a, s.tim.ppsAt = some a → a + 1800000000 ≤ s.now) ∧
      s.get TIME.SERVO_CFG.SRC 0 = 0) ∧
  (∃ (a : Nat) (s : State), s.tim.ppsAt = some a ∧
      s.tim.ppsMissed = false ∧
      a + 2200000000 ≤ s.now) ∧
  (∃ (s : State), s.servoState = timeLocked ∧
      s.tim.sampleAt + max 1 (s.get TIME.SERVO_CFG2.TIMEOUT_MS 0) * msTicks ≤ s.now) ∧
  (∃ (s : State), s.servoState = timeHoldover ∧
      s.tim.holdAt + max 1 (s.get TIME.SERVO_CFG2.HOLDOVER_S 0) * secTicks < s.now) ∧
  (∃ (_v : Word) (s : State), s.hostReach 0 true = true) ∧
  (∃ (v : Word) (s : State), s.hostReach 0 true = true ∧
      bitsOf v TIME.SERVO_CFG.EN.lo TIME.SERVO_CFG.EN.width = 0) ∧
  (∃ (v : Word) (s : State), s.hostReach 0 true = true ∧
      bitsOf v TIME.SERVO_CFG.EN.lo TIME.SERVO_CFG.EN.width = 1) ∧
  (∃ (s : State), s.get TIME.STATUS.REF_PRESENT 0 = 1) :=
  ⟨
    ⟨0, wUp, by decide +kernel⟩,
    ⟨0, wWith [(TIME.SERVO_CFG.SRC, 0, 1)], by decide +kernel⟩,
    ⟨0, wWith [(TIME.SERVO_CFG.SRC, 0, 1)], by decide +kernel⟩,
    ⟨0, wWith [(TIME.SERVO_CFG.SRC, 0, 0), (TIME.SERVO_CFG.EN, 0, 1)], by decide +kernel⟩,
    ⟨true, 0, wWith [(TIME.PPS_IN.RISING, 0, 1)], by refine ⟨by decide +kernel, fun a h => ?_⟩; cases h⟩,
    ⟨true, 0, wWith [(TIME.PPS_IN.RISING, 0, 1)], stampRound (wUp.netTime / 2 ^ 37), by refine ⟨by decide +kernel, fun a h => ?_, by decide +kernel⟩; cases h⟩,
    ⟨true, 0, wWith [(TIME.PPS_IN.RISING, 0, 1), (TIME.SERVO_CFG.EN, 0, 1), (TIME.SERVO_CFG.SRC, 0, 1)], by refine ⟨by decide +kernel, fun a h => ?_, by decide +kernel, by decide +kernel⟩; cases h⟩,
    ⟨true, 0, wWith [(TIME.PPS_IN.RISING, 0, 1)], by decide +kernel⟩,
    ⟨5, { wUp with tim := { ppsAt := some 5 } }, by decide +kernel⟩,
    ⟨wWith [(TIME.STATUS.STATE, 0, timeLocked)], by decide +kernel⟩,
    ⟨wWith [(TIME.STATUS.STATE, 0, timeHoldover)], by decide +kernel⟩,
    ⟨0, wUp, by decide +kernel⟩,
    ⟨0, wUp, by decide +kernel⟩,
    ⟨1, wUp, by decide +kernel⟩,
    ⟨wWith [(TIME.STATUS.REF_PRESENT, 0, 1)], by decide +kernel⟩⟩

/-- Each claim of WindowEventsTakeEffect is met somewhere: for every command a state and operands, and for the branches of its
conclusion. -/
theorem witness_WindowEventsTakeEffect :
  (∃ (s : State), s.get TIME.STATUS.REF_PRESENT 0 = 1) ∧
  (∃ (s : State), (s.netNs - signedOf 16 (s.get TIME.PPS_OUT.CORR_NS 0)) / 10 ^ 9 ≠ s.tim.pulse) ∧
  (∃ (s : State), (s.netNs - signedOf 16 (s.get TIME.PPS_OUT.CORR_NS 0)) / 10 ^ 9 ≠ s.tim.pulse ∧
      s.get TIME.PPS_OUT.EN 0 = 1 ∧
      (s.get TIME.PPS_OUT.ONLY_LOCKED 0 = 0 ∨ s.ready rdyTime = true)) ∧
  (∃ (s : State), (s.netNs - signedOf 16 (s.get TIME.PPS_OUT.CORR_NS 0)) / 10 ^ 9 ≠ s.tim.pulse ∧
      (s.get TIME.PPS_OUT.EN 0 = 0 ∨ s.get TIME.PPS_OUT.ONLY_LOCKED 0 = 1 ∧ s.ready rdyTime = false)) ∧
  (∃ (_x : PortNo) (_v : Word) (s : State), s.hostReach 0 false = true) ∧
  (∃ (_x : PortNo) (v : Word) (s : State), s.hostReach 0 false = true ∧
      natBit v.toNat 0 = false) ∧
  (∃ (x : PortNo) (v : Word) (s : State), s.hostReach 0 false = true ∧
      natBit v.toNat 0 = true ∧
      s.bankValid x (bitsOf v QM.WIN_CTRL.NEXT_BANK.lo QM.WIN_CTRL.NEXT_BANK.width) = false) ∧
  (∃ (x : PortNo) (v : Word) (s : State), s.hostReach 0 false = true ∧
      natBit v.toNat 0 = true ∧
      s.bankValid x (bitsOf v QM.WIN_CTRL.NEXT_BANK.lo QM.WIN_CTRL.NEXT_BANK.width) = true ∧
      (s.port x).winActive.map Prod.fst = some (bitsOf v QM.WIN_CTRL.NEXT_BANK.lo QM.WIN_CTRL.NEXT_BANK.width)) ∧
  (∃ (x : PortNo) (v : Word) (s : State), s.hostReach 0 false = true ∧
      natBit v.toNat 0 = true ∧
      s.bankValid x (bitsOf v QM.WIN_CTRL.NEXT_BANK.lo QM.WIN_CTRL.NEXT_BANK.width) = true ∧
      (s.port x).winActive.map Prod.fst ≠ some (bitsOf v QM.WIN_CTRL.NEXT_BANK.lo QM.WIN_CTRL.NEXT_BANK.width)) ∧
  (∃ (x : PortNo) (b : Nat) (a : Int) (s : State), (s.port x).winPending = some (b, a) ∧
      a ≤ s.netTime) ∧
  (∃ (_x : PortNo) (_b : Fin 2) (s : State), s.hostReach 0 false = true) ∧
  (∃ (x : PortNo) (b : Fin 2) (s : State), s.hostReach 0 false = true ∧
      s.bankBusy x b = true) ∧
  (∃ (x : PortNo) (b : Fin 2) (s : State), s.hostReach 0 false = true ∧
      s.bankBusy x b = false) :=
  ⟨
    ⟨wWith [(TIME.STATUS.REF_PRESENT, 0, 1)], by decide +kernel⟩,
    ⟨{ wWith [(TIME.PPS_OUT.EN, 0, 1)] with tim := { pulse := -7 } }, by decide +kernel⟩,
    ⟨{ wWith [(TIME.PPS_OUT.EN, 0, 1)] with tim := { pulse := -7 } }, by decide +kernel⟩,
    ⟨wUp, by decide +kernel⟩,
    ⟨0, 1, wPort [(QM.WIN_BANK.ENTRIES, 0, 1), (QM.WIN_BANK.CYCLE_NS, 0, 1000), (QM.WIN_GCL.INTERVAL_NS, 0, 100)] {}, by decide +kernel⟩,
    ⟨0, 0, wPort [(QM.WIN_BANK.ENTRIES, 0, 1), (QM.WIN_BANK.CYCLE_NS, 0, 1000), (QM.WIN_GCL.INTERVAL_NS, 0, 100)] {}, by decide +kernel⟩,
    ⟨0, 1, wUp, by decide +kernel⟩,
    ⟨0, 1, wPort [(QM.WIN_BANK.ENTRIES, 0, 1), (QM.WIN_BANK.CYCLE_NS, 0, 1000), (QM.WIN_GCL.INTERVAL_NS, 0, 100)] { winActive := some (0, 5) }, by decide +kernel⟩,
    ⟨0, 1, wPort [(QM.WIN_BANK.ENTRIES, 0, 1), (QM.WIN_BANK.CYCLE_NS, 0, 1000), (QM.WIN_GCL.INTERVAL_NS, 0, 100)] {}, by decide +kernel⟩,
    ⟨0, 0, -7, wPort [] { winPending := some (0, -7) }, by decide +kernel⟩,
    ⟨0, 0, wPort [] { winActive := some (0, 0) }, by decide +kernel⟩,
    ⟨0, 0, wPort [] { winActive := some (0, 0) }, by decide +kernel⟩,
    ⟨0, 0, wUp, by decide +kernel⟩⟩

/-- Each claim of CadenceEventsTakeEffect is met somewhere: for every command a state and operands, and for the branches of its
conclusion. -/
theorem witness_CadenceEventsTakeEffect :
  (∃ (_v : Word) (s : State), s.hostReach 0 false = true) ∧
  (∃ (v : Word) (s : State), s.hostReach 0 false = true ∧
      bitsOf v 16 2 = s.paceMode) ∧
  (∃ (v : Word) (s : State), s.hostReach 0 false = true ∧
      bitsOf v 16 2 ≠ s.paceMode ∧
      bitsOf v 16 2 ≠ 3) ∧
  (∃ (_caps : List Nat) (_q : Fin 4096) (s : State), s.pace.windowAt + usTicks ≤ s.now) ∧
  (∃ (_caps : List Nat) (_q : Fin 4096) (s : State) (d : Nat), s.pace.windowAt + usTicks ≤ s.now ∧
      d < 5) ∧
  (∃ (_caps : List Nat) (_q : Fin 4096) (s : State) (d : Nat), s.pace.windowAt + usTicks ≤ s.now ∧
      d < 4) ∧
  (∃ (_caps : List Nat) (_q : Fin 4096) (s : State) (p : Nat), s.pace.windowAt + usTicks ≤ s.now ∧
      p < 32) ∧
  (∃ (_caps : List Nat) (_q : Fin 4096) (s : State), s.pace.windowAt + usTicks ≤ s.now ∧
      s.pace.changed = false ∧
      s.get PACE.STATUS.EFFECTIVE_MHZ 0 ≠ 0) ∧
  (∃ (_caps : List Nat) (_q : Fin 4096) (s : State), s.pace.windowAt + usTicks ≤ s.now ∧
      s.paceMode ≠ 0 ∧
      s.get PACE.STATUS.EFFECTIVE_MHZ 0 < min s.setpoint (modeCeiling s.paceMode)) ∧
  (∃ (d : Fin 5) (a : Nat) (b : Nat) (s : State), (s.dom d).lag = some a ∧
      (s.dom d).coveredSince = some b ∧
      b + max 1 (s.get PACE.AVS_CFG.RECOVER_US 0) * usTicks ≤ s.now) ∧
  (∃ (_ans : BitVec 5) (s : State), (s.pace.moved = true ∨ s.pace.adjustAt + 100 * usTicks ≤ s.now)) ∧
  (∃ (_ans : BitVec 5) (s : State) (d : Nat), (s.pace.moved = true ∨ s.pace.adjustAt + 100 * usTicks ≤ s.now) ∧
      d < 5 ∧
      (s.dom d).frozen = true) ∧
  (∃ (_ans : BitVec 5) (s : State) (d : Nat), (s.pace.moved = true ∨ s.pace.adjustAt + 100 * usTicks ≤ s.now) ∧
      d < 5 ∧
      (s.dom d).frozen = false) ∧
  (∃ (ans : BitVec 5) (s : State) (d : Nat), (s.pace.moved = true ∨ s.pace.adjustAt + 100 * usTicks ≤ s.now) ∧
      d < 5 ∧
      (s.dom d).frozen = false ∧
      natBit ans.toNat d = true ∧
      s.pace.moved = true) ∧
  (∃ (ans : BitVec 5) (s : State) (d : Nat), (s.pace.moved = true ∨ s.pace.adjustAt + 100 * usTicks ≤ s.now) ∧
      d < 5 ∧
      (s.dom d).frozen = false ∧
      natBit ans.toNat d = true ∧
      s.pace.moved = false ∧
      s.paceMode ≠ 0 ∧
      s.volt d = s.railWant d ∧
      s.cap d * 100 < s.wanted * (100 + s.guardPct)) ∧
  (∃ (ans : BitVec 5) (s : State) (d : Nat), (s.pace.moved = true ∨ s.pace.adjustAt + 100 * usTicks ≤ s.now) ∧
      d < 5 ∧
      (s.dom d).frozen = false ∧
      natBit ans.toNat d = true ∧
      s.pace.moved = false ∧
      s.paceMode ≠ 0 ∧
      s.volt d = s.railWant d ∧
      s.wanted * (100 + 2 * s.guardPct) ≤ s.cap d * 100 ∧
      s.lowerBlocked d = false) ∧
  (∃ (a : Nat) (s : State), s.pace.rampAt = none ∧
      s.pace.reached < s.pace.goal ∧
      s.pace.moved = false ∧
      s.pace.droopAt = none ∧
      a + s.get PACE.AVS_CFG.SETTLE_US 0 * usTicks ≤ s.now) ∧
  (∃ (a : Nat) (s : State), s.pace.rampAt = none ∧
      s.pace.reached < s.pace.goal ∧
      s.pace.moved = false ∧
      s.pace.droopAt = none ∧
      a + s.get PACE.AVS_CFG.SETTLE_US 0 * usTicks ≤ s.now ∧
      s.pace.running = true ∧
      s.railFaultLimit = none ∧
      leastOf s.limits04 = some s.pace.goal) ∧
  (∃ (a : Nat) (s : State), s.pace.rampAt = none ∧
      s.pace.reached < s.pace.goal ∧
      s.pace.moved = false ∧
      s.pace.droopAt = none ∧
      a + s.get PACE.AVS_CFG.SETTLE_US 0 * usTicks ≤ s.now ∧
      s.pace.running = true ∧
      s.railFaultLimit = none ∧
      leastOf s.limits04 = some s.pace.reached) ∧
  (∃ (a : Nat) (s : State), s.pace.rampAt = some a ∧
      s.rampValue = s.pace.goal) ∧
  (∃ (a : Nat) (s : State), s.pace.rampAt = some a ∧
      s.rampValue = s.pace.goal ∧
      s.pace.running = true ∧
      s.railFaultLimit = none ∧
      leastOf s.limits04 = some s.pace.goal) ∧
  (∃ (d : Fin 5) (s : State), (s.dom d).droops ≠ 0) ∧
  (∃ (a : Nat) (s : State), s.pace.droopAt = some a ∧
      s.droopOver = true) ∧
  (∃ (s : State), s.droopIsLong = true ∧
      s.pace.droopLong = false) :=
  ⟨
    ⟨0, wUp, by decide +kernel⟩,
    ⟨0x10000, wUp, by decide +kernel⟩,
    ⟨0, wUp, by decide +kernel⟩,
    ⟨[], 0, wUp, by decide +kernel⟩,
    ⟨[], 0, wUp, 3, by decide +kernel⟩,
    ⟨[], 0, wUp, 3, by decide +kernel⟩,
    ⟨[], 0, wUp, 0, by decide +kernel⟩,
    ⟨[], 0, wWith [(PACE.STATUS.EFFECTIVE_MHZ, 0, 500)], by decide +kernel⟩,
    ⟨[], 0, wUp, by decide +kernel⟩,
    ⟨0, 5, 5, wPace [] { domains := [(0, { lag := some 5, coveredSince := some 5 })] }, by decide +kernel⟩,
    ⟨0, wUp, by decide +kernel⟩,
    ⟨0, wPace [] { domains := [(0, { frozen := true })] }, 0, by decide +kernel⟩,
    ⟨0, wUp, 0, by decide +kernel⟩,
    ⟨1, wPace [] { moved := true }, 0, by decide +kernel⟩,
    ⟨1, wWith [(PACE.DOMAIN_STATUS.VOLT_MV, 0, 800)], 0, by decide +kernel⟩,
    ⟨1, wWith [(PACE.DOMAIN_STATUS.VOLT_MV, 0, 800), (PACE.DOMAIN_STATUS.CAP_MHZ, 0, 3000)], 0, by decide +kernel⟩,
    ⟨0, wPace [] { goal := 5 }, by decide +kernel⟩,
    ⟨0, wPace [] { running := true, goal := 2520 }, by decide +kernel⟩,
    ⟨0, wPace [] { running := true, goal := 2600, reached := 2520 }, by decide +kernel⟩,
    ⟨0, wPace [] { goal := 5, rampAt := some 0 }, by decide +kernel⟩,
    ⟨0, wPace [] { running := true, goal := 2520, rampAt := some 0 }, by decide +kernel⟩,
    ⟨0, wPace [] { domains := [(0, { droops := 1 })] }, by decide +kernel⟩,
    ⟨5, wPace [] { droopAt := some 5 }, by decide +kernel⟩,
    ⟨wPace [] { droopAt := some 5 }, by decide +kernel⟩⟩

/-- Each claim of ThermalRailAndEnergyEventsTakeEffect is met somewhere: for every command a state and operands, and for the branches of its
conclusion. -/
theorem witness_ThermalRailAndEnergyEventsTakeEffect :
  (∃ (temps : List Int) (h : Nat × Nat) (s : State), s.pace.sampledAt + 20 * usTicks ≤ s.now ∧
      h = hottest ((List.range 256).map fun i => (i, min 255 ((temps[i]?).getD 0).toNat))) ∧
  (∃ (temps : List Int) (h : Nat × Nat) (s : State), s.pace.sampledAt + 20 * usTicks ≤ s.now ∧
      h = hottest ((List.range 256).map fun i => (i, min 255 ((temps[i]?).getD 0).toNat)) ∧
      s.get PACE.THERMAL_STATUS.LEVEL 0 < s.levelAt h.2) ∧
  (∃ (temps : List Int) (h : Nat × Nat) (s : State), s.pace.sampledAt + 20 * usTicks ≤ s.now ∧
      h = hottest ((List.range 256).map fun i => (i, min 255 ((temps[i]?).getD 0).toNat)) ∧
      s.get PACE.THERMAL_STATUS.LEVEL 0 < 4 ∧
      s.levelAt h.2 = 4) ∧
  (∃ (temps : List Int) (h : Nat × Nat) (s : State) (k : Nat), s.pace.sampledAt + 20 * usTicks ≤ s.now ∧
      h = hottest ((List.range 256).map fun i => (i, min 255 ((temps[i]?).getD 0).toNat)) ∧
      k < 32) ∧
  (∃ (a : Nat) (s : State), s.pace.coolSince = some a ∧
      s.get PACE.THERMAL_STATUS.LEVEL 0 ≠ 0 ∧
      s.get PACE.THERMAL_STATUS.LEVEL 0 ≠ 4 ∧
      a + max 1 (s.get PACE.THERMAL_CFG.EXIT_MS 0) * msTicks ≤ s.now) ∧
  (∃ (r : Fin 9) (s : State), (r.val < 5 → (s.dom (regDomain r)).frozen = false ∧ (s.get PACE.RAIL_STATUS.PMBUS_FAULT r = 1 ∨ 3 ≤ (s.dom (regDomain r)).fails)) ∧
      (5 ≤ r.val → s.get PACE.RAIL_STATUS.PMBUS_FAULT r = 1 ∧ r.val ∉ s.pace.otherFaults)) ∧
  (∃ (r : Fin 5) (_good : Bool) (s : State), (s.dom (regDomain r)).frozen = true ∧
      (s.dom (regDomain r)).retryAt + msTicks ≤ s.now) ∧
  (∃ (r : Fin 5) (good : Bool) (s : State), (s.dom (regDomain r)).frozen = true ∧
      (s.dom (regDomain r)).retryAt + msTicks ≤ s.now ∧
      good = false) ∧
  (∃ (r : Fin 5) (good : Bool) (s : State), (s.dom (regDomain r)).frozen = true ∧
      (s.dom (regDomain r)).retryAt + msTicks ≤ s.now ∧
      good = true ∧
      (s.dom (regDomain r)).goodSince = none) ∧
  (∃ (r : Fin 5) (good : Bool) (s : State) (b : Nat), (s.dom (regDomain r)).frozen = true ∧
      (s.dom (regDomain r)).retryAt + msTicks ≤ s.now ∧
      good = true ∧
      (s.dom (regDomain r)).goodSince = some b ∧
      s.now < b + 10 * msTicks) ∧
  (∃ (r : Fin 5) (good : Bool) (s : State) (b : Nat), (s.dom (regDomain r)).frozen = true ∧
      (s.dom (regDomain r)).retryAt + msTicks ≤ s.now ∧
      good = true ∧
      (s.dom (regDomain r)).goodSince = some b ∧
      b + 10 * msTicks ≤ s.now) ∧
  (∃ (_rs : List RailReading) (s : State), clampN 1 100 (s.get PACE.ENERGY_CFG.MEAS_MS 0) * msTicks ≤ s.now - s.pace.measuredAt) ∧
  (∃ (rs : List RailReading) (s : State) (r : Nat) (v : RailReading), clampN 1 100 (s.get PACE.ENERGY_CFG.MEAS_MS 0) * msTicks ≤ s.now - s.pace.measuredAt ∧
      r < 9 ∧
      rs[r]? = some v ∧
      s.get PACE.RAIL_CFG.PMBUS_EN r = 1) ∧
  (∃ (_rs : List RailReading) (s : State) (r : Nat), clampN 1 100 (s.get PACE.ENERGY_CFG.MEAS_MS 0) * msTicks ≤ s.now - s.pace.measuredAt ∧
      r < 9 ∧
      s.get PACE.RAIL_CFG.PMBUS_EN r = 0) ∧
  (∃ (_rs : List RailReading) (s : State) (g : Nat), clampN 1 100 (s.get PACE.ENERGY_CFG.MEAS_MS 0) * msTicks ≤ s.now - s.pace.measuredAt ∧
      g < 7) ∧
  (∃ (s : State), s.pace.tickAt + 10 * usTicks ≤ s.now) ∧
  (∃ (s : State), s.pace.tickAt + 10 * usTicks ≤ s.now ∧
      s.pace.acts = [] ∧
      s.image.ports = []) ∧
  (∃ (s : State) (a : Activity) (g : Nat) (h : Nat) (n : Nat), s.pace.tickAt + 10 * usTicks ≤ s.now ∧
      s.pace.acts = [a] ∧
      s.image.ports = [] ∧
      a.troupe = some n ∧
      n < 64 ∧
      eventGroups a.kind a.die = [(g, h)]) ∧
  (∃ (b : BoostBy) (s : State), s.boostDue b = true ∧
      b ∉ s.pace.boosts) ∧
  (∃ (b : BoostBy) (s : State), s.boostDue b = false ∧
      b ∈ s.pace.boosts) ∧
  (∃ (b : BoostBy) (s : State), s.boostDue b = false ∧
      b ∈ s.pace.boosts ∧
      s.pace.boosts = [b] ∧
      s.get PACE.THERMAL_STATUS.LEVEL 0 ≠ 4) ∧
  (∃ (i : Fin 16) (k : Int) (s : State), s.get PACE.PHASE_A.VALID i = 1 ∧
      s.get PACE.PHASE_A.PERIOD_NS i ≠ 0 ∧
      k = (s.phaseNow i - s.get PACE.PHASE_C.DURATION_NS i - s.get PACE.PHASE_B.OFFSET_NS i) / s.get PACE.PHASE_A.PERIOD_NS i ∧
      tabFind s.pace.judged i ≠ some k) ∧
  (∃ (i : Fin 16) (k : Int) (s : State), s.get PACE.PHASE_A.VALID i = 1 ∧
      s.get PACE.PHASE_A.PERIOD_NS i ≠ 0 ∧
      k = (s.phaseNow i - s.get PACE.PHASE_C.DURATION_NS i - s.get PACE.PHASE_B.OFFSET_NS i) / s.get PACE.PHASE_A.PERIOD_NS i ∧
      tabFind s.pace.judged i ≠ some k ∧
      2 * s.headsIn i (s.phaseAt i k - s.get PACE.PHASE_B.LEAD_NS i - s.get PACE.PHASE_C.DURATION_NS i) (s.phaseAt i k - s.get PACE.PHASE_B.LEAD_NS i) ≤ s.headsIn i (s.phaseAt i k) (s.phaseAt i k + s.get PACE.PHASE_C.DURATION_NS i)) ∧
  (∃ (i : Fin 16) (k : Int) (s : State), s.get PACE.PHASE_A.VALID i = 1 ∧
      s.get PACE.PHASE_A.PERIOD_NS i ≠ 0 ∧
      k = (s.phaseNow i - s.get PACE.PHASE_C.DURATION_NS i - s.get PACE.PHASE_B.OFFSET_NS i) / s.get PACE.PHASE_A.PERIOD_NS i ∧
      tabFind s.pace.judged i ≠ some k ∧
      s.headsIn i (s.phaseAt i k) (s.phaseAt i k + s.get PACE.PHASE_C.DURATION_NS i) < 2 * s.headsIn i (s.phaseAt i k - s.get PACE.PHASE_B.LEAD_NS i - s.get PACE.PHASE_C.DURATION_NS i) (s.phaseAt i k - s.get PACE.PHASE_B.LEAD_NS i)) :=
  ⟨
    ⟨[], (0, 0), wUp, by decide +kernel⟩,
    ⟨[90], (0, 90), wUp, by decide +kernel⟩,
    ⟨[110], (0, 110), wUp, by decide +kernel⟩,
    ⟨[90], (0, 90), wUp, 31, by decide +kernel⟩,
    ⟨5, wPace [(PACE.THERMAL_STATUS.LEVEL, 0, 1)] { coolSince := some 5 }, by decide +kernel⟩,
    ⟨0, wWith [(PACE.RAIL_STATUS.PMBUS_FAULT, 0, 1)], by decide +kernel⟩,
    ⟨0, false, wPace [] { domains := [(4, { frozen := true })] }, by decide +kernel⟩,
    ⟨0, false, wPace [] { domains := [(4, { frozen := true, goodSince := some 5 })] }, by decide +kernel⟩,
    ⟨0, true, wPace [] { domains := [(4, { frozen := true })] }, by decide +kernel⟩,
    ⟨0, true, wPace [] { domains := [(4, { frozen := true, goodSince := some (10 ^ 15) })] }, 10 ^ 15, by decide +kernel⟩,
    ⟨0, true, wPace [] { domains := [(4, { frozen := true, goodSince := some 5 })] }, 5, by decide +kernel⟩,
    ⟨[], wUp, by decide +kernel⟩,
    ⟨[⟨800, 5, 6, 7, 8, true⟩], wWith [(PACE.RAIL_CFG.PMBUS_EN, 0, 1)], 0, ⟨800, 5, 6, 7, 8, true⟩, by decide +kernel⟩,
    ⟨[], wUp, 0, by decide +kernel⟩,
    ⟨[], wUp, 0, by decide +kernel⟩,
    ⟨wUp, by decide +kernel⟩,
    ⟨wUp, by decide +kernel⟩,
    ⟨wPace [] { acts := [⟨6, 0, some 0, none, none, 3⟩] }, ⟨6, 0, some 0, none, none, 3⟩, 0, 2, 0, by decide +kernel⟩,
    ⟨.phase 0, wWith [(PACE.PHASE_CFG.EN, 0, 1), (PACE.PHASE_A.VALID, 0, 1), (PACE.PHASE_A.PERIOD_NS, 0, 1000), (PACE.PHASE_C.DURATION_NS, 0, 2000)], by decide +kernel⟩,
    ⟨.phase 0, wPace [] { boosts := [.phase 0] }, by decide +kernel⟩,
    ⟨.phase 0, wPace [] { boosts := [.phase 0] }, by decide +kernel⟩,
    ⟨0, 5 * 10 ^ 11, wWith [(PACE.PHASE_A.VALID, 0, 1), (PACE.PHASE_A.PERIOD_NS, 0, 1000)], by decide +kernel⟩,
    ⟨0, 5 * 10 ^ 11, wWith [(PACE.PHASE_A.VALID, 0, 1), (PACE.PHASE_A.PERIOD_NS, 0, 1000)], by decide +kernel⟩,
    ⟨0, 5 * 10 ^ 11, wPace [(PACE.PHASE_A.VALID, 0, 1), (PACE.PHASE_A.PERIOD_NS, 0, 1000), (PACE.PHASE_B.LEAD_NS, 0, 100)] { heads := [(10 ^ 15 - 200, 0, 1)] }, by decide +kernel⟩⟩

/-- Each claim of AdvisoryAndGovernorEventsTakeEffect is met somewhere: for every command a state and operands, and for the branches of its
conclusion. -/
theorem witness_AdvisoryAndGovernorEventsTakeEffect :
  (∃ (s : State) (a : Advisory), s.slowing = some a ∧
      s.pace.sent ≠ some a) ∧
  (∃ (s : State) (b : Advisory), s.slowing = none ∧
      s.pace.sent = some b ∧
      b.kind = 0 ∧
      s.get PACE.PELOTON_CFG.SEND_EN 0 = 1) ∧
  (∃ (a : Advisory) (s : State), s.pace.sent = some a ∧
      s.get PACE.PELOTON_CFG.SEND_EN 0 = 1 ∧
      s.pace.sentAt + s.refreshAdvUs * usTicks ≤ s.now) ∧
  (∃ (a : Advisory) (s : State), s.pace.sent = some a ∧
      s.get PACE.PELOTON_CFG.SEND_EN 0 = 1 ∧
      s.pace.sentAt + s.refreshAdvUs * usTicks ≤ s.now ∧
      a.kind = 0 ∧
      s.slowing = some a) ∧
  (∃ (a : Advisory) (s : State), s.pace.sent = some a ∧
      s.get PACE.PELOTON_CFG.SEND_EN 0 = 1 ∧
      s.pace.sentAt + s.refreshAdvUs * usTicks ≤ s.now ∧
      a.kind ≠ 0 ∧
      s.pace.clears ≠ 0) ∧
  (∃ (a : Advisory) (s : State), s.pace.sent = some a ∧
      s.get PACE.PELOTON_CFG.SEND_EN 0 = 1 ∧
      s.pace.sentAt + s.refreshAdvUs * usTicks ≤ s.now ∧
      a.kind ≠ 0 ∧
      s.pace.clears = 0) ∧
  (∃ (x : PortNo) (_bs : List Byte) (s : State), s.laneL425 x = true) ∧
  (∃ (x : PortNo) (bs : List Byte) (s : State), s.laneL425 x = true ∧
      bs.length = 12 ∧
      ((bs[0]?).getD 0).toNat % 16 = 1 ∧
      ofLe ((bs.drop 10).take 2) = crc16 0xFFFF (bs.take 10) ∧
      ((bs[1]?).getD 0).toNat = s.get PACE.PELOTON_CFG.GROUP_ID 0 ∧
      ((bs[2]?).getD 0).toNat % 64 ≠ s.get PACE.PELOTON_CFG.MEMBER_ID 0) ∧
  (∃ (x : PortNo) (bs : List Byte) (s : State), s.laneL425 x = true ∧
      (ofLe ((bs.drop 10).take 2) ≠ crc16 0xFFFF (bs.take 10) ∨ ((bs[1]?).getD 0).toNat ≠ s.get PACE.PELOTON_CFG.GROUP_ID 0 ∨ ((bs[2]?).getD 0).toNat % 64 = s.get PACE.PELOTON_CFG.MEMBER_ID 0)) ∧
  (∃ (v : Word) (bs : List Byte) (s : State), s.hostReach 0 false = true ∧
      bs = leBytes (s.reg .PACE_ADV_INJECT 0) 8 ++ leBytes (bitsOf v 0 32) 4) ∧
  (∃ (v : Word) (bs : List Byte) (s : State), s.hostReach 0 false = true ∧
      bs = leBytes (s.reg .PACE_ADV_INJECT 0) 8 ++ leBytes (bitsOf v 0 32) 4 ∧
      bs.length = 12 ∧
      ((bs[0]?).getD 0).toNat % 16 = 1 ∧
      ofLe ((bs.drop 10).take 2) = crc16 0xFFFF (bs.take 10) ∧
      ((bs[1]?).getD 0).toNat = s.get PACE.PELOTON_CFG.GROUP_ID 0 ∧
      ((bs[2]?).getD 0).toNat % 64 ≠ s.get PACE.PELOTON_CFG.MEMBER_ID 0) ∧
  (∃ (v : Word) (bs : List Byte) (s : State), s.hostReach 0 false = true ∧
      bs = leBytes (s.reg .PACE_ADV_INJECT 0) 8 ++ leBytes (bitsOf v 0 32) 4 ∧
      (ofLe ((bs.drop 10).take 2) ≠ crc16 0xFFFF (bs.take 10) ∨ ((bs[1]?).getD 0).toNat ≠ s.get PACE.PELOTON_CFG.GROUP_ID 0 ∨ ((bs[2]?).getD 0).toNat % 64 = s.get PACE.PELOTON_CFG.MEMBER_ID 0)) ∧
  (∃ (m : Fin 64) (e : Sender) (s : State), tabFind s.pace.senders m = some e ∧
      e.setAt + 4 * e.refreshUs * usTicks < s.now) ∧
  (∃ (d : RimNo) (s : State), s.paceMode = 3 ∧
      (s.dom d).idled = false ∧
      (∀ p ∈ diePipes d, s.paced p = false ∧ (s.pipe p).idleSince + max 1 (s.get PACE.FREEWHEEL_CFG.IDLE_US 0) * usTicks ≤ s.now)) ∧
  (∃ (d : RimNo) (s : State), s.paceMode = 3 ∧
      (s.dom d).idled = false ∧
      (∀ p ∈ diePipes d, s.paced p = false ∧ (s.pipe p).idleSince + max 1 (s.get PACE.FREEWHEEL_CFG.IDLE_US 0) * usTicks ≤ s.now) ∧
      s.get PACE.THERMAL_STATUS.LEVEL 0 ≠ 4 ∧
      (s.dom d).frozen = false ∧
      s.lowerBlocked d = false) ∧
  (∃ (d : RimNo) (p : Nat) (s : State), (s.dom d).idled = true ∧
      p ∈ diePipes d ∧
      s.pipeEmpty p = false) ∧
  (∃ (d : RimNo) (p : Nat) (s : State), (s.dom d).idled = true ∧
      p ∈ diePipes d ∧
      s.pipeEmpty p = false ∧
      s.get PACE.THERMAL_STATUS.LEVEL 0 ≠ 4 ∧
      s.pace.boosts = [] ∧
      (s.dom d).frozen = false ∧
      s.volt d ≤ (s.dom d).base) ∧
  (∃ (_caps : List Nat) (s : State), s.pace.running = false) ∧
  (∃ (_caps : List Nat) (s : State) (d : Nat), s.pace.running = false ∧
      d < 5) ∧
  (∃ (caps : List Nat) (s : State), s.pace.running = false ∧
      (∀ d, d < 5 → min s.setpoint 2520 ≤ (caps[d]?).getD 0 % 2 ^ PACE.DOMAIN_STATUS.CAP_MHZ.width ∨ (s.railRange d).2 ≤ s.volt d)) ∧
  (∃ (caps : List Nat) (s : State) (d : Nat), s.pace.running = false ∧
      d < 5 ∧
      (caps[d]?).getD 0 % 2 ^ PACE.DOMAIN_STATUS.CAP_MHZ.width < min s.setpoint 2520 ∧
      s.volt d < (s.railRange d).2) ∧
  (∃ (s : State), s.pace.running = false ∧
      s.pace.hubAt + 10 * msTicks ≤ s.now) :=
  ⟨
    ⟨wPace [(PACE.PELOTON_CFG.SEND_EN, 0, 1), (PACE.THERMAL_STATUS.LEVEL, 0, 4), (PACE.STATUS.EFFECTIVE_MHZ, 0, 500)] {}, ⟨0, 500, 4⟩, by decide +kernel⟩,
    ⟨wPace [(PACE.PELOTON_CFG.SEND_EN, 0, 1)] { sent := some ⟨0, 500, 1⟩ }, ⟨0, 500, 1⟩, by decide +kernel⟩,
    ⟨⟨0, 500, 4⟩, wPace [(PACE.PELOTON_CFG.SEND_EN, 0, 1), (PACE.THERMAL_STATUS.LEVEL, 0, 4), (PACE.STATUS.EFFECTIVE_MHZ, 0, 500)] { sent := some ⟨0, 500, 4⟩ }, by decide +kernel⟩,
    ⟨⟨0, 500, 4⟩, wPace [(PACE.PELOTON_CFG.SEND_EN, 0, 1), (PACE.THERMAL_STATUS.LEVEL, 0, 4), (PACE.STATUS.EFFECTIVE_MHZ, 0, 500)] { sent := some ⟨0, 500, 4⟩ }, by decide +kernel⟩,
    ⟨⟨1, 500, 0⟩, wPace [(PACE.PELOTON_CFG.SEND_EN, 0, 1)] { sent := some ⟨1, 500, 0⟩, clears := 2 }, by decide +kernel⟩,
    ⟨⟨1, 500, 0⟩, wPace [(PACE.PELOTON_CFG.SEND_EN, 0, 1)] { sent := some ⟨1, 500, 0⟩ }, by decide +kernel⟩,
    ⟨0, wAdv ++ leBytes (crc16 0xFFFF wAdv) 2, wWith [(LANE.CFG.MODE, 0, 1)], by decide +kernel⟩,
    ⟨0, wAdv ++ leBytes (crc16 0xFFFF wAdv) 2, wWith [(LANE.CFG.MODE, 0, 1)], by decide +kernel⟩,
    ⟨0, [], wWith [(LANE.CFG.MODE, 0, 1)], by decide +kernel⟩,
    ⟨BitVec.ofNat 64 (65536 * crc16 0xFFFF wAdv), wAdv ++ leBytes (crc16 0xFFFF wAdv) 2, wUp.setReg .PACE_ADV_INJECT 0 0x10001, by decide +kernel⟩,
    ⟨BitVec.ofNat 64 (65536 * crc16 0xFFFF wAdv), wAdv ++ leBytes (crc16 0xFFFF wAdv) 2, wUp.setReg .PACE_ADV_INJECT 0 0x10001, by decide +kernel⟩,
    ⟨0, List.replicate 12 0, wUp, by decide +kernel⟩,
    ⟨3, ⟨0, 1, 0⟩, wPace [] { senders := [(3, ⟨0, 1, 0⟩)] }, by decide +kernel⟩,
    ⟨0, wWith [(PACE.CADENCE_SET.MODE, 0, 3)], by decide +kernel⟩,
    ⟨0, wWith [(PACE.CADENCE_SET.MODE, 0, 3)], by decide +kernel⟩,
    ⟨0, 0, { wPipe [] { fifo := [5] } with pace := { domains := [(0, { idled := true })] } }, by decide +kernel⟩,
    ⟨0, 0, { wPipe [] { fifo := [5] } with pace := { domains := [(0, { idled := true })] } }, by decide +kernel⟩,
    ⟨[], wUp, by decide +kernel⟩,
    ⟨[], wUp, 0, by decide +kernel⟩,
    ⟨[3000, 3000, 3000, 3000, 3000], wUp, by decide +kernel⟩,
    ⟨[], wUp, 0, by decide +kernel⟩,
    ⟨wUp, by decide +kernel⟩⟩

/-- Each claim of TroupeAndFunctionEventsTakeEffect is met somewhere: for every command a state and operands, and for the branches of its
conclusion. -/
theorem witness_TroupeAndFunctionEventsTakeEffect :
  (∃ (v : Word) (n : Nat) (s : State), s.hostReach 0 true = true ∧
      troupeOp v = some (1, n)) ∧
  (∃ (v : Word) (n : Nat) (s : State), s.hostReach 0 true = true ∧
      troupeOp v = some (1, n) ∧
      s.troupeStatus true n = 0) ∧
  (∃ (v : Word) (n : Nat) (s : State), s.hostReach 0 true = true ∧
      troupeOp v = some (1, n) ∧
      s.troupeStatus true n ≠ 0) ∧
  (∃ (v : Word) (n : Nat) (s : State), s.hostReach 0 true = true ∧
      troupeOp v = some (2, n)) ∧
  (∃ (v : Word) (n : Nat) (s : State), s.hostReach 0 true = true ∧
      troupeOp v = some (2, n) ∧
      s.troupeStatus false n = 0) ∧
  (∃ (v : Word) (n : Nat) (s : State), s.hostReach 0 true = true ∧
      troupeOp v = some (2, n) ∧
      s.troupeStatus false n ≠ 0) ∧
  (∃ (n : Nat) (s : State), s.hif.moving = some (n, false) ∧
      n < 64) ∧
  (∃ (n : Nat) (s : State), s.hif.moving = some (n, true) ∧
      n < 64) ∧
  (∃ (n : Nat) (s : State), s.hif.moving = some (n, true) ∧
      n < 64 ∧
      (s.cf.commits.any fun c => c.phase == .fence) = false) ∧
  (∃ (n : Nat) (s : State), s.hif.moving = some (n, true) ∧
      n < 64 ∧
      (s.cf.commits.any fun c => c.phase == .fence) = true) ∧
  (∃ (_cause : HostDown) (s : State) (r : Nat), r < 512 ∧
      tabGet 0 s.image.txOwner r < 64) ∧
  (∃ (_cause : HostDown) (s : State) (r : Nat), r < 512 ∧
      tabGet 0 s.image.rxOwner r < 64) ∧
  (∃ (cause : HostDown) (_s : State), cause = .perst) ∧
  (∃ (cause : HostDown) (_s : State), cause ≠ .perst) ∧
  (∃ (_cause : HostDown) (_s : State) (n : Nat), n < 64 ∧
      1 ≤ n) ∧
  (∃ (_cause : HostDown) (s : State) (l : LoadRec), s.loadOpen = true ∧
      s.cf.load = some l ∧
      l.source = 0 ∧
      s.cf.bootSlots = []) ∧
  (∃ (_speed : Fin 6) (_w : Fin 5) (s : State), s.pkg.pcieTraining = true) ∧
  (∃ (speed : Fin 6) (w : Fin 5) (s : State), s.pkg.pcieTraining = true ∧
      (speed.val < 5 ∨ w.val < 4)) ∧
  (∃ (speed : Fin 6) (w : Fin 5) (s : State), s.pkg.pcieTraining = true ∧
      speed.val = 5 ∧
      w.val = 4) ∧
  (∃ (fn : FnNo) (_s : State), fn.val = 0) ∧
  (∃ (fn : FnNo) (_s : State), fn.val ≠ 0) ∧
  (∃ (s : State) (r : Nat), r < 512 ∧
      s.ringOwner .tx r < 64) ∧
  (∃ (_s : State) (n : Nat), n < 64 ∧
      1 ≤ n) ∧
  (∃ (w : ConfigWrite) (_s : State) (on : Bool), w = .vfEnable on) ∧
  (∃ (w : ConfigWrite) (_s : State) (k : Fin 64), w = .numVfs k) ∧
  (∃ (w : ConfigWrite) (_s : State) (fn : FnNo) (on : Bool), w = .busMaster fn on) ∧
  (∃ (w : ConfigWrite) (s : State) (fn : FnNo), w = .readIdentity fn ∧
      s.functionHere fn = true) ∧
  (∃ (w : ConfigWrite) (s : State) (fn : FnNo), w = .readCapabilities fn ∧
      s.functionHere fn = true) ∧
  (∃ (w : ConfigWrite) (s : State) (fn : FnNo) (on : Bool) (mask : Bool), w = .msixControl fn on mask ∧
      s.functionHere fn = true) ∧
  (∃ (w : ConfigWrite) (s : State) (fn : FnNo) (k : Fin 2048) (addr : Word) (data : BitVec 32) (mask : Bool), w = .msixEntry fn k addr data mask ∧
      s.functionHere fn = true ∧
      k.val < s.get HIF.MSIX_ALLOC.COUNT fn) :=
  ⟨
    ⟨0x20480141, 1, wTroupes [] {}, by decide +kernel⟩,
    ⟨0x20480141, 1, wTroupes [] {}, by decide +kernel⟩,
    ⟨0x20480141, 1, { wUp with hif := { moving := some (1, false) } }, by decide +kernel⟩,
    ⟨0x20480182, 2, wTroupes [] {}, by decide +kernel⟩,
    ⟨0x20480182, 2, wTroupes [] {}, by decide +kernel⟩,
    ⟨0x20480182, 2, { wUp with hif := { moving := some (1, false) } }, by decide +kernel⟩,
    ⟨1, { wUp with hif := { moving := some (1, false) } }, by decide +kernel⟩,
    ⟨1, { wUp with hif := { moving := some (1, true) } }, by decide +kernel⟩,
    ⟨1, { wUp with hif := { moving := some (1, true) } }, by decide +kernel⟩,
    ⟨1, { wCommits [] (wCommit .fence) {} with hif := { moving := some (1, true) } }, by decide +kernel⟩,
    ⟨.perst, wUp, 5, by decide +kernel⟩,
    ⟨.perst, wUp, 5, by decide +kernel⟩,
    ⟨.perst, wUp, by decide +kernel⟩,
    ⟨.hotReset, wUp, by decide +kernel⟩,
    ⟨.perst, wUp, 1, by decide +kernel⟩,
    ⟨.perst, wLoadState wLoad [], wLoad, by decide +kernel⟩,
    ⟨0, 0, { wUp with pkg := { pcieTraining := true } }, by decide +kernel⟩,
    ⟨0, 0, { wUp with pkg := { pcieTraining := true } }, by decide +kernel⟩,
    ⟨5, 4, { wUp with pkg := { pcieTraining := true } }, by decide +kernel⟩,
    ⟨0, wUp, by decide +kernel⟩,
    ⟨1, wUp, by decide +kernel⟩,
    ⟨wUp, 5, by decide +kernel⟩,
    ⟨wUp, 1, by decide +kernel⟩,
    ⟨.vfEnable true, wUp, true, by decide +kernel⟩,
    ⟨.numVfs 5, wUp, 5, by decide +kernel⟩,
    ⟨.busMaster 0 true, wUp, 0, true, by decide +kernel⟩,
    ⟨.readIdentity 0, wUp, 0, by decide +kernel⟩,
    ⟨.readCapabilities 1, wUp, 1, by decide +kernel⟩,
    ⟨.msixControl 1 true false, { wUp with hif := { msix := [(1, { pendingBits := [2], entries := [(2, {})] })] } }, 1, true, false, by decide +kernel⟩,
    ⟨.msixEntry 0 2 16 7 true, wWith [(HIF.MSIX_ALLOC.COUNT, 0, 4)], 0, 2, 16, 7, true, by decide +kernel⟩⟩

/-- Each claim of RingEventsTakeEffect is met somewhere: for every command a state and operands, and for the branches of its
conclusion. -/
theorem witness_RingEventsTakeEffect :
  (∃ (fn : FnNo) (_k : RingKind) (_ring : Fin 512) (_v : Word) (s : State), s.hostReach fn true = true) ∧
  (∃ (fn : FnNo) (k : RingKind) (ring : Fin 512) (_v : Word) (s : State), s.hostReach fn true = true ∧
      s.ringReach fn k ring = false) ∧
  (∃ (fn : FnNo) (k : RingKind) (ring : Fin 512) (v : Word) (s : State), s.hostReach fn true = true ∧
      s.ringReach fn k ring = true ∧
      (k = .rx → bitsOf v 0 1 = 1 → s.poolsRise ring = true)) ∧
  (∃ (fn : FnNo) (k : RingKind) (ring : Fin 512) (v : Word) (s : State), s.hostReach fn true = true ∧
      s.ringReach fn k ring = true ∧
      k = .rx ∧
      bitsOf v 0 1 = 1 ∧
      s.poolsRise ring = false) ∧
  (∃ (fn : FnNo) (_k : RingKind) (_ring : Fin 512) (_pool : Option (Fin 4)) (_count : BitVec 32) (s : State), s.hostReach fn true = true) ∧
  (∃ (fn : FnNo) (k : RingKind) (ring : Fin 512) (_pool : Option (Fin 4)) (_count : BitVec 32) (s : State), s.hostReach fn true = true ∧
      s.ringReach fn k ring = false) ∧
  (∃ (fn : FnNo) (k : RingKind) (ring : Fin 512) (_pool : Option (Fin 4)) (_count : BitVec 32) (s : State), s.hostReach fn true = true ∧
      s.ringReach fn k ring = true ∧
      k = .tx) ∧
  (∃ (fn : FnNo) (k : RingKind) (ring : Fin 512) (pool : Option (Fin 4)) (_count : BitVec 32) (s : State), s.hostReach fn true = true ∧
      s.ringReach fn k ring = true ∧
      k ≠ .tx ∧
      (k = .rx → pool = none)) ∧
  (∃ (fn : FnNo) (k : RingKind) (ring : Fin 512) (pool : Option (Fin 4)) (_count : BitVec 32) (s : State) (p : Fin 4), s.hostReach fn true = true ∧
      s.ringReach fn k ring = true ∧
      k = .rx ∧
      pool = some p) ∧
  (∃ (_es : List PoolEntry) (_err : Bool) (s : State) (r : Nat) (k : Nat) (c : Copy) (p : Nat) (n : Nat) (d : Desc) (v : Packet), (∀ q ∈ s.rxWaiting, s.rxStale q = false) ∧
      (rotated s.hif.lastRx s.rxWaiting).findSome? (fun r => (s.rxReady r).map fun x => (r, x)) = some (r, k, c, p, n) ∧
      s.desc k = some d ∧
      s.packet d.packet = some v) ∧
  (∃ (_es : List PoolEntry) (_err : Bool) (s : State) (r : Nat) (k : Nat) (c : Copy), s.rxWaiting = [r] ∧
      s.rxStale r = true ∧
      s.rxHead r = some (k, c) ∧
      (s.queue (rxQueue r)).length = 1) ∧
  (∃ (ring : Fin 512) (k : Nat) (c : Copy) (d : Desc) (s : State), s.rxHead ring = some (k, c) ∧
      s.rxReady ring = none ∧
      max c.enqAt (tabGet 0 s.hif.rxWait ring) + s.get HIF.RX_CFG.WAIT_US ring * usTicks ≤ s.now ∧
      s.desc k = some d) ∧
  (∃ (k : RingKind) (ring : Fin 512) (n : Nat) (since : Nat) (s : State), tabFind s.hif.coal (k.code * 1024 + ring.val) = some (n, since)) ∧
  (∃ (k : RingKind) (ring : Fin 512) (n : Nat) (since : Nat) (s : State) (f : Nat) (e : Nat), tabFind s.hif.coal (k.code * 1024 + ring.val) = some (n, since) ∧
      since + s.get (ringRegs k).coalUs ring * usTicks ≤ s.now ∧
      f = s.ringOwner k ring ∧
      e = (if s.get (ringRegs k).vector ring < s.get HIF.MSIX_ALLOC.COUNT f then s.get (ringRegs k).vector ring else 0)) ∧
  (∃ (k : RingKind) (ring : Fin 512) (n : Nat) (since : Nat) (s : State), tabFind s.hif.coal (k.code * 1024 + ring.val) = some (n, since) ∧
      s.now < since + s.get (ringRegs k).coalUs ring * usTicks) ∧
  (∃ (chain : List TxDesc) (_data : Option (List Byte)) (r : Nat) (d : TxDesc) (ds : List TxDesc) (s : State), (rotated s.hif.lastTx s.txWaiting).head? = some r ∧
      txChain (chain.take (s.ringFill .tx r)) = d :: ds ∧
      d.kind.val ≠ 1 ∧
      d.kind.val ≠ 2) ∧
  (∃ (chain : List TxDesc) (data : Option (List Byte)) (r : Nat) (d : TxDesc) (ds : List TxDesc) (s : State) (st : Nat), (rotated s.hif.lastTx s.txWaiting).head? = some r ∧
      txChain (chain.take (s.ringFill .tx r)) = d :: ds ∧
      d.kind.val ≠ 1 ∧
      d.kind.val ≠ 2 ∧
      s.txStatus (s.ringOwner .tx r) (d :: ds) data = st ∧
      st ≠ 0) ∧
  (∃ (chain : List TxDesc) (data : Option (List Byte)) (r : Nat) (d : TxDesc) (ds : List TxDesc) (s : State) (bs : List Byte) (cs : List Nat) (st : Nat) (u : State), (rotated s.hif.lastTx s.txWaiting).head? = some r ∧
      txChain (chain.take (s.ringFill .tx r)) = d :: ds ∧
      d.kind.val ≠ 1 ∧
      d.kind.val ≠ 2 ∧
      data = some bs ∧
      s.txStatus (s.ringOwner .tx r) (d :: ds) data = 0 ∧
      State.injectCells { s with hif := { s.hif with lastTx := r } } (s.ringOwner .tx r) (segmentLens (d.len.val + 4)) [] = (some cs, st, u) ∧
      (s.pipe (s.get HIF.TX_CFG.PIPE r)).auxBytes = 0) ∧
  (∃ (chain : List TxDesc) (data : Option (List Byte)) (r : Nat) (d : TxDesc) (ds : List TxDesc) (s : State) (bs : List Byte) (st : Nat) (u : State), (rotated s.hif.lastTx s.txWaiting).head? = some r ∧
      txChain (chain.take (s.ringFill .tx r)) = d :: ds ∧
      d.kind.val ≠ 1 ∧
      d.kind.val ≠ 2 ∧
      data = some bs ∧
      s.txStatus (s.ringOwner .tx r) (d :: ds) data = 0 ∧
      State.injectCells { s with hif := { s.hif with lastTx := r } } (s.ringOwner .tx r) (segmentLens (d.len.val + 4)) [] = (none, st, u) ∧
      st ≠ 0) ∧
  (∃ (chain : List TxDesc) (_data : Option (List Byte)) (r : Nat) (d : TxDesc) (ds : List TxDesc) (s : State), (rotated s.hif.lastTx s.txWaiting).head? = some r ∧
      txChain (chain.take (s.ringFill .tx r)) = d :: ds ∧
      d.kind.val = 1) ∧
  (∃ (chain : List TxDesc) (data : Option (List Byte)) (r : Nat) (d : TxDesc) (ds : List TxDesc) (s : State) (a : Nat), (rotated s.hif.lastTx s.txWaiting).head? = some r ∧
      txChain (chain.take (s.ringFill .tx r)) = d :: ds ∧
      d.kind.val = 1 ∧
      s.txStatus (s.ringOwner .tx r) (d :: ds) data = 0 ∧
      (d.cells.map (·.1.val)).head? = some a) ∧
  (∃ (chain : List TxDesc) (data : Option (List Byte)) (r : Nat) (d : TxDesc) (ds : List TxDesc) (s : State) (st : Nat), (rotated s.hif.lastTx s.txWaiting).head? = some r ∧
      txChain (chain.take (s.ringFill .tx r)) = d :: ds ∧
      d.kind.val = 1 ∧
      s.txStatus (s.ringOwner .tx r) (d :: ds) data = st ∧
      st ≠ 0) ∧
  (∃ (chain : List TxDesc) (r : Nat) (d : TxDesc) (ds : List TxDesc) (s : State), (rotated s.hif.lastTx s.txWaiting).head? = some r ∧
      txChain (chain.take (s.ringFill .tx r)) = d :: ds ∧
      d.kind.val = 2 ∧
      (txEnded (d :: ds) = true ∨ 21 < ds.length)) ∧
  (∃ (chain : List TxDesc) (r : Nat) (d : TxDesc) (ds : List TxDesc) (s : State), (rotated s.hif.lastTx s.txWaiting).head? = some r ∧
      txChain (chain.take (s.ringFill .tx r)) = d :: ds ∧
      d.kind.val = 2 ∧
      (txEnded (d :: ds) = true ∨ 21 < ds.length) ∧
      s.txStatus (s.ringOwner .tx r) (d :: ds) none = 0 ∧
      (s.pipe (s.get HIF.TX_CFG.PIPE r)).auxBytes = 0) ∧
  (∃ (chain : List TxDesc) (r : Nat) (d : TxDesc) (ds : List TxDesc) (s : State) (st : Nat), (rotated s.hif.lastTx s.txWaiting).head? = some r ∧
      txChain (chain.take (s.ringFill .tx r)) = d :: ds ∧
      d.kind.val = 2 ∧
      (txEnded (d :: ds) = true ∨ 21 < ds.length) ∧
      s.txStatus (s.ringOwner .tx r) (d :: ds) none = st ∧
      st ≠ 0) ∧
  (∃ (_f : FnNo) (_v : Word) (s : State), s.hostReach 0 true = true) ∧
  (∃ (f : FnNo) (v : Word) (s : State), s.hostReach 0 true = true ∧
      s.hif.vfEnable = false ∧
      s.msixBad f (bitsOf v 0 11) (bitsOf v 12 12) = false) ∧
  (∃ (f : FnNo) (v : Word) (s : State), s.hostReach 0 true = true ∧
      (s.hif.vfEnable = true ∨ s.msixBad f (bitsOf v 0 11) (bitsOf v 12 12) = true)) ∧
  (∃ (fn : FnNo) (_v : Word) (s : State), s.hostReach fn true = true) ∧
  (∃ (fn : FnNo) (v : Word) (s : State), s.hostReach fn true = true ∧
      bitsOf v 0 1 = 0) ∧
  (∃ (fn : FnNo) (v : Word) (s : State), s.hostReach fn true = true ∧
      bitsOf v 0 1 = 1 ∧
      (fn.val = 0 ∧ s.reg .TOP_INT_CAUSE 0 &&& s.get TOP.INT_MASK.MASK 0 ≠ 0) ∨ (fn.val ≠ 0 ∧ s.reg .WIN_INT_CAUSE fn &&& s.reg .WIN_INT_EN fn ≠ 0)) ∧
  (∃ (fn : FnNo) (v : Word) (s : State), s.hostReach fn true = true ∧
      bitsOf v 0 1 = 1 ∧
      fn.val = 0 ∧
      s.reg .TOP_INT_CAUSE 0 &&& s.get TOP.INT_MASK.MASK 0 = 0) ∧
  (∃ (fn : FnNo) (v : Word) (s : State), s.hostReach fn true = true ∧
      bitsOf v 0 1 = 1 ∧
      fn.val ≠ 0 ∧
      s.reg .WIN_INT_CAUSE fn &&& s.reg .WIN_INT_EN fn = 0) :=
  ⟨
    ⟨0, .rx, 0, 1, wRings [] {}, by decide +kernel⟩,
    ⟨1, .rx, 0, 1, wRings [] {}, by decide +kernel⟩,
    ⟨0, .rx, 0, 3, wRings [(HIF.RX_CFG.EN, 0, 0)] {}, by decide +kernel⟩,
    ⟨0, .rx, 0, 1, wRings [(HIF.RX_POOL.EN, 1, 1)] {}, by decide +kernel⟩,
    ⟨0, .tx, 0, none, 1, wRings [] {}, by decide +kernel⟩,
    ⟨1, .tx, 0, none, 1, wRings [] {}, by decide +kernel⟩,
    ⟨0, .tx, 0, none, 0x80000000, wRings [] {}, by decide +kernel⟩,
    ⟨0, .rpt, 0, none, 0, wRings [] {}, by decide +kernel⟩,
    ⟨0, .rx, 0, some 0, 2, wRings [] {}, 0, by decide +kernel⟩,
    ⟨[], true, wRings [] wRx, 0, 3, { wCopy with ring := true }, 0, 1, { wDesc with len := 64 }, wPacket, by decide +kernel⟩,
    ⟨[], false, wRings [] { wRx with queues := [(2 ^ 20, [.copy 3 { wCopy with ring := true } false true])] }, 0, 3, { wCopy with ring := true }, by decide +kernel⟩,
    ⟨0, 3, { wCopy with ring := true }, { wDesc with len := 64 }, wRings [(HIF.RX_CFG.EN, 0, 0)] wRx, by decide +kernel⟩,
    ⟨.rx, 0, 1, 0, { wUp with hif := { coal := [(RingKind.code .rx * 1024, (1, 0))] } }, by decide +kernel⟩,
    ⟨.rx, 0, 1, 0, { wUp with hif := { coal := [(RingKind.code .rx * 1024, (1, 0))] } }, 0, 0, by decide +kernel⟩,
    ⟨.rx, 0, 1, 10 ^ 15, { wWith [(HIF.RX_CFG.COAL_US, 0, 8)] with hif := { coal := [(RingKind.code .rx * 1024, (1, 10 ^ 15))] } }, by decide +kernel⟩,
    ⟨[wTxCopy], none, 0, wTxCopy, [], wRings [] {}, by decide +kernel⟩,
    ⟨[wTxCopy], none, 0, wTxCopy, [], wRings [] {}, 5, by decide +kernel⟩,
    ⟨[wTxCopy], some [7], 0, wTxCopy, [], wRings [(CELL.TROUPE_QUOTA.QUOTA_UNITS, 0, 8)] {}, [7], [16777216], 0, (State.injectCells { wRings [(CELL.TROUPE_QUOTA.QUOTA_UNITS, 0, 8)] {} with hif := { (wRings [(CELL.TROUPE_QUOTA.QUOTA_UNITS, 0, 8)] {}).hif with lastTx := 0 } } 0 (segmentLens 64) []).2.2, by decide +kernel⟩,
    ⟨[wTxCopy], some [7], 0, wTxCopy, [], wRings [] {}, [7], 2, (State.injectCells { wRings [] {} with hif := { (wRings [] {}).hif with lastTx := 0 } } 0 (segmentLens 64) []).2.2, by decide +kernel⟩,
    ⟨[wTxFill], some [], 0, wTxFill, [], wRings [] wLeased, by decide +kernel⟩,
    ⟨[wTxFill], some [], 0, wTxFill, [], wRings [] wLeased, 16777216, by decide +kernel⟩,
    ⟨[wTxFill], some [], 0, wTxFill, [], wRings [] {}, 3, by decide +kernel⟩,
    ⟨[wTxCells], 0, wTxCells, [], wRings [] wLeased, by decide +kernel⟩,
    ⟨[wTxCells], 0, wTxCells, [], wRings [] wLeased, by decide +kernel⟩,
    ⟨[wTxCells], 0, wTxCells, [], wRings [] {}, 3, by decide +kernel⟩,
    ⟨0, 0, wUp, by decide +kernel⟩,
    ⟨0, 100, wTroupes [] {}, by decide +kernel⟩,
    ⟨0, 0, wUp, by decide +kernel⟩,
    ⟨0, 1, wUp, by decide +kernel⟩,
    ⟨0, 0, wUp, by decide +kernel⟩,
    ⟨1, 1, (wUp.setReg .WIN_INT_EN 1 1).setReg .WIN_INT_CAUSE 1 1, by decide +kernel⟩,
    ⟨0, 1, wUp, by decide +kernel⟩,
    ⟨1, 1, wUp, by decide +kernel⟩⟩

/-- Each claim of CommitEventsTakeEffect is met somewhere: for every command a state and operands, and for the branches of its
conclusion. -/
theorem witness_CommitEventsTakeEffect :
  (∃ (fn : FnNo) (_v : Word) (s : State), s.hostReach fn true = true) ∧
  (∃ (fn : FnNo) (v : Word) (s : State), s.hostReach fn true = true ∧
      (bitsOf v 0 1 = 0 ∨ fn.val = 0)) ∧
  (∃ (fn : FnNo) (v : Word) (s : State), s.hostReach fn true = true ∧
      bitsOf v 0 1 = 1 ∧
      fn.val ≠ 0) ∧
  (∃ (fn : FnNo) (v : Word) (s : State), s.hostReach fn true = true ∧
      bitsOf v 0 1 = 1 ∧
      fn.val ≠ 0 ∧
      s.fullApply = false ∧
      s.commitBusy = false) ∧
  (∃ (fn : FnNo) (v : Word) (s : State) (cause : Nat), s.hostReach fn true = true ∧
      bitsOf v 0 1 = 1 ∧
      fn.val ≠ 0 ∧
      (s.fullApply = true ∧ cause = 5) ∨ (s.fullApply = false ∧ s.commitBusy = true ∧ cause = 6)) ∧
  (∃ (_v : Word) (s : State), s.hostReach 0 true = true) ∧
  (∃ (v : Word) (s : State), s.hostReach 0 true = true ∧
      bitsOf v 0 1 = 0) ∧
  (∃ (v : Word) (s : State), s.hostReach 0 true = true ∧
      bitsOf v 0 1 = 1) ∧
  (∃ (v : Word) (s : State), s.hostReach 0 true = true ∧
      bitsOf v 0 1 = 1 ∧
      s.fullApply = false ∧
      s.commitBusy = false) ∧
  (∃ (v : Word) (s : State) (cause : Nat), s.hostReach 0 true = true ∧
      bitsOf v 0 1 = 1 ∧
      (s.fullApply = true ∧ cause = 5) ∨ (s.fullApply = false ∧ s.commitBusy = true ∧ cause = 6)) ∧
  (∃ (c : CommitRec) (s : State), s.nextFence = some c) ∧
  (∃ (c : CommitRec) (s : State), s.nextFence = some c ∧
      c.forced = false ∧
      (s.scopeTroupes c).any s.draining = true) ∧
  (∃ (c : CommitRec) (s : State) (cause : Nat) (n : Nat), s.nextFence = some c ∧
      (c.forced || !(s.scopeTroupes c).any s.draining) = true ∧
      s.commitCause c = some cause ∧
      c.fn = some n) ∧
  (∃ (c : CommitRec) (s : State), s.nextFence = some c ∧
      (c.forced || !(s.scopeTroupes c).any s.draining) = true ∧
      s.commitCause c = none) ∧
  (∃ (c : CommitRec) (s : State), (s.refreshDrain.cf.commits.find? fun c => c.phase == .draining && !c.troupes.any s.refreshDrain.draining) = some c) ∧
  (∃ (c : CommitRec) (s : State) (n : Nat), (s.refreshDrain.cf.commits.find? fun c => c.phase == .draining && !c.troupes.any s.refreshDrain.draining) = some c ∧
      c.fn = some n) ∧
  (∃ (c : CommitRec) (s : State) (m : Nat), (s.refreshDrain.cf.commits.find? fun c => c.phase == .draining && !c.troupes.any s.refreshDrain.draining) = some c ∧
      c.by_ = .troupeApply m ∧
      (∀ d, d < 4 → s.ready (rdyRim d) = true)) ∧
  (∃ (c : CommitRec) (s : State), (s.cf.commits.find? fun c => c.phase == .waitDrain && !c.forced && decide (c.waitUntil ≤ s.now)) = some c ∧
      (s.scopeTroupes c).any s.draining = true) ∧
  (∃ (c : CommitRec) (s : State), (s.cf.commits.find? fun c => c.phase == .waitDrain && !c.forced && decide (c.waitUntil ≤ s.now)) = some c ∧
      (s.scopeTroupes c).any s.draining = true ∧
      (s.flag CFG.DRAIN_CFG.STALE_DROP_EN 0 = true ∨ c.fn = none)) ∧
  (∃ (c : CommitRec) (s : State) (n : Nat), (s.cf.commits.find? fun c => c.phase == .waitDrain && !c.forced && decide (c.waitUntil ≤ s.now)) = some c ∧
      (s.scopeTroupes c).any s.draining = true ∧
      s.flag CFG.DRAIN_CFG.STALE_DROP_EN 0 = false ∧
      c.fn = some n) :=
  ⟨
    ⟨1, 1, wUp, by decide +kernel⟩,
    ⟨1, 0, wUp, by decide +kernel⟩,
    ⟨1, 1, wUp, by decide +kernel⟩,
    ⟨1, 1, wUp, by decide +kernel⟩,
    ⟨1, 1, wCommits [] (wCommit .check) {}, 6, by decide +kernel⟩,
    ⟨1, wUp, by decide +kernel⟩,
    ⟨0, wUp, by decide +kernel⟩,
    ⟨1, wUp, by decide +kernel⟩,
    ⟨1, wUp, by decide +kernel⟩,
    ⟨1, wCommits [] (wCommit .check) {}, 6, by decide +kernel⟩,
    ⟨wCommit .check, wCommits [] (wCommit .check) {}, by decide +kernel⟩,
    ⟨wCommit .check, wCommits [] (wCommit .check) wOld, by decide +kernel⟩,
    ⟨wCommit .check, wCommits [(TOP.READY.BITS, 0, 0)] (wCommit .check) {}, 4, 0, by decide +kernel⟩,
    ⟨wCommit .check, wCommits [] (wCommit .check) {}, by decide +kernel⟩,
    ⟨wCommit .draining, wCommits [] (wCommit .draining) {}, by decide +kernel⟩,
    ⟨wCommit .draining, wCommits [] (wCommit .draining) {}, 0, by decide +kernel⟩,
    ⟨{ wCommit .draining with by_ := .troupeApply 1 }, wCommits [] { wCommit .draining with by_ := .troupeApply 1 } {}, 1, by decide +kernel⟩,
    ⟨wCommit .waitDrain, wCommits [] (wCommit .waitDrain) wOld, by decide +kernel⟩,
    ⟨wCommit .waitDrain, wCommits [(CFG.DRAIN_CFG.STALE_DROP_EN, 0, 1)] (wCommit .waitDrain) wOld, by decide +kernel⟩,
    ⟨wCommit .waitDrain, wCommits [(CFG.DRAIN_CFG.STALE_DROP_EN, 0, 0)] (wCommit .waitDrain) wOld, 0, by decide +kernel⟩⟩

/-- Each claim of WardenEventsTakeEffect is met somewhere: for every command a state and operands, and for the branches of its
conclusion. -/
theorem witness_WardenEventsTakeEffect :
  (∃ (_kind : Fin 4) (_pl : List Nat) (_ta : Nat) (_tb : Nat) (s : State), s.tnd.held = []) ∧
  (∃ (_kind : Fin 4) (_pl : List Nat) (_ta : Nat) (_tb : Nat) (s : State), s.tnd.held = [] ∧
      (s.inService 0 || s.inService 1) = true ∧
      (∀ w, (s.warden w).buffer.length < inputRoom)) ∧
  (∃ (_kind : Fin 4) (_pl : List Nat) (_ta : Nat) (_tb : Nat) (s : State), s.tnd.held = [] ∧
      (s.inService 0 || s.inService 1) = false) ∧
  (∃ (_ta : Nat) (_tb : Nat) (s : State), s.tnd.held = [] ∧
      s.tnd.tickAt + 10 * usTicks ≤ s.now) ∧
  (∃ (_ta : Nat) (_tb : Nat) (s : State), s.tnd.held = [] ∧
      s.tnd.tickAt + 10 * usTicks ≤ s.now ∧
      (s.inService 0 || s.inService 1) = true ∧
      (∀ w, (s.warden w).buffer.length < inputRoom)) ∧
  (∃ (_ta : Nat) (_tb : Nat) (s : State), s.tnd.held = [] ∧
      s.tnd.tickAt + 10 * usTicks ≤ s.now ∧
      (s.inService 0 || s.inService 1) = false) ∧
  (∃ (_c : CommandCopy) (same : Option CommandCopy) (s : State), s.tnd.paused = true ∧
      same = none) ∧
  (∃ (c : CommandCopy) (same : Option CommandCopy) (s : State) (p : ElimEntry), s.tnd.paused = false ∧
      same = none ∧
      s.inService c.warden = true ∧
      ((s.elim c.eliminator).entries.find? fun p => p.seq == c.seq.toNat && p.warden != c.warden.val) = some p) ∧
  (∃ (c : CommandCopy) (same : Option CommandCopy) (s : State), s.tnd.paused = false ∧
      same = none ∧
      s.inService c.warden = true ∧
      ((s.elim c.eliminator).entries.find? fun p => p.seq == c.seq.toNat && p.warden != c.warden.val) = none) ∧
  (∃ (c : CommandCopy) (same : Option CommandCopy) (s : State) (o : CommandCopy), s.tnd.paused = false ∧
      same = some o ∧
      o.eliminator = c.eliminator ∧
      o.seq = c.seq ∧
      s.wst o.warden.val = wActive ∧
      s.wst c.warden.val = wStandby ∧
      c.warden.val = 1 - o.warden.val ∧
      (s.elim c.eliminator).entries = [] ∧
      seqLater c.seq.toNat (s.elim c.eliminator).last = true) ∧
  (∃ (e : Fin 6) (n : Nat) (s : State), n = ((s.elim e).entries.filter fun p => decide (p.at_ + max 10 (s.get TND.CFG.ELIM_WINDOW_US 0) * usTicks ≤ s.now) && s.inService (1 - p.warden)).length) ∧
  (∃ (e : Fin 6) (n : Nat) (s : State), n = ((s.elim e).entries.filter fun p => decide (p.at_ + max 10 (s.get TND.CFG.ELIM_WINDOW_US 0) * usTicks ≤ s.now) && s.inService (1 - p.warden)).length ∧
      n ≠ 0) ∧
  (∃ (_fa : Bool) (_fb : Bool) (a : Nat) (s : State), s.tnd.divergeAt = some a) ∧
  (∃ (fa : Bool) (_fb : Bool) (a : Nat) (s : State), s.tnd.divergeAt = some a ∧
      fa = true ∧
      s.wardenRuns 0 = true) ∧
  (∃ (_fa : Bool) (fb : Bool) (a : Nat) (s : State), s.tnd.divergeAt = some a ∧
      fb = true ∧
      s.wardenRuns 1 = true) ∧
  (∃ (fa : Bool) (fb : Bool) (a : Nat) (s : State), s.tnd.divergeAt = some a ∧
      fa = true ∧
      fb = false ∧
      s.wst 0 = wActive ∧
      s.wst 1 = wStandby) ∧
  (∃ (fa : Bool) (fb : Bool) (a : Nat) (s : State) (b : Nat), s.tnd.divergeAt = some a ∧
      fa = false ∧
      fb = false ∧
      s.wardenIn wStandby = some b) ∧
  (∃ (fa : Bool) (fb : Bool) (a : Nat) (s : State), s.tnd.divergeAt = some a ∧
      fa = false ∧
      fb = false ∧
      s.wardenIn wStandby = none) ∧
  (∃ (w : Fin 2) (s : State), s.wardenRuns w = false) ∧
  (∃ (w : Fin 2) (s : State), s.wardenRuns w = true) ∧
  (∃ (w : Fin 2) (s : State) (a : Nat), (s.warden w).fullTest = some a ∧
      s.wardenRuns w = true ∧
      a + 6 * msTicks ≤ s.now) ∧
  (∃ (w : Fin 2) (s : State) (a : Nat), (s.warden w).fullTest = some a ∧
      s.now < a + 6 * msTicks) ∧
  (∃ (w : Fin 2) (s : State) (a : Nat), (s.warden w).fullTest = none ∧
      s.inService w = true ∧
      s.tnd.divergeAt = some a ∧
      a + 6 * msTicks ≤ s.now) ∧
  (∃ (w : Fin 2) (s : State), (s.warden w).fullTest = none ∧
      s.inService w = true ∧
      s.tnd.divergeAt = none) ∧
  (∃ (w : Fin 2) (_pass : Bool) (s : State), s.inService w = true ∧
      (s.warden w).testAt + max 10 (s.get TND.CFG.SELFTEST_MS 0) * msTicks ≤ s.now) ∧
  (∃ (w : Fin 2) (pass : Bool) (s : State), s.inService w = true ∧
      (s.warden w).testAt + max 10 (s.get TND.CFG.SELFTEST_MS 0) * msTicks ≤ s.now ∧
      pass = true) ∧
  (∃ (w : Fin 2) (pass : Bool) (s : State), s.inService w = true ∧
      (s.warden w).testAt + max 10 (s.get TND.CFG.SELFTEST_MS 0) * msTicks ≤ s.now ∧
      pass = false) ∧
  (∃ (w : Fin 2) (s : State), s.wst w = wResigned ∧
      s.flag TND.CFG.AUTO_RESTART 0 = true ∧
      (s.warden w).resignedAt + 10 * msTicks ≤ s.now) ∧
  (∃ (w : Fin 2) (s : State) (a : Nat), s.wst w = wResigned ∧
      s.flag TND.CFG.AUTO_RESTART 0 = true ∧
      (s.warden w).resignedAt + 10 * msTicks ≤ s.now ∧
      (s.warden w).autoAt = some a ∧
      (s.warden w).resignedAt ≤ a + s.get TND.CFG.RESTART_HOLD_S 0 * secTicks) ∧
  (∃ (w : Fin 2) (s : State), s.wst w = wResigned ∧
      s.flag TND.CFG.AUTO_RESTART 0 = true ∧
      (s.warden w).resignedAt + 10 * msTicks ≤ s.now ∧
      (∀ a, (s.warden w).autoAt = some a → a + s.get TND.CFG.RESTART_HOLD_S 0 * secTicks < (s.warden w).resignedAt)) ∧
  (∃ (w : Fin 2) (f : Firmware) (s : State), s.sec.verified = some f ∧
      s.wst w = wLoading) ∧
  (∃ (w : Fin 2) (_pass : Bool) (s : State), s.wst w = wSelftest ∧
      (s.warden w).passed = false) ∧
  (∃ (w : Fin 2) (pass : Bool) (s : State), s.wst w = wSelftest ∧
      (s.warden w).passed = false ∧
      pass = false) ∧
  (∃ (w : Fin 2) (pass : Bool) (s : State), s.wst w = wSelftest ∧
      (s.warden w).passed = false ∧
      pass = true ∧
      (s.warden w).together = true ∧
      (s.warden (1 - w.val)).together = true ∧
      (s.warden (1 - w.val)).passed = true) ∧
  (∃ (w : Fin 2) (pass : Bool) (s : State), s.wst w = wSelftest ∧
      (s.warden w).passed = false ∧
      pass = true ∧
      (s.warden w).together = true ∧
      (s.warden (1 - w.val)).together = true ∧
      (s.warden (1 - w.val)).passed = false) ∧
  (∃ (w : Fin 2) (pass : Bool) (s : State), s.wst w = wSelftest ∧
      (s.warden w).passed = false ∧
      pass = true ∧
      (s.warden w).together = true ∧
      (s.warden (1 - w.val)).together = false) ∧
  (∃ (w : Fin 2) (pass : Bool) (s : State), s.wst w = wSelftest ∧
      (s.warden w).passed = false ∧
      pass = true ∧
      (s.warden w).together = false ∧
      (s.wardenIn wActive).isSome = true) ∧
  (∃ (w : Fin 2) (pass : Bool) (s : State), s.wst w = wSelftest ∧
      (s.warden w).passed = false ∧
      pass = true ∧
      (s.warden w).together = false ∧
      s.wardenIn wActive = none) :=
  ⟨
    ⟨0, [], 0, 0, wWardens wActive wStandby [] {}, by decide +kernel⟩,
    ⟨0, [], 0, 0, wWardens wActive wStandby [] {}, by refine ⟨by decide +kernel, by decide +kernel, fun w => ?_⟩; show 0 < 65536; decide +kernel⟩,
    ⟨0, [], 0, 0, wUp, by decide +kernel⟩,
    ⟨0, 0, wUp, by decide +kernel⟩,
    ⟨0, 0, wWardens wActive wStandby [] {}, by refine ⟨by decide +kernel, by decide +kernel, by decide +kernel, fun w => ?_⟩; show 0 < 65536; decide +kernel⟩,
    ⟨0, 0, wUp, by decide +kernel⟩,
    ⟨⟨0, 5, 1, 0, .other⟩, none, wWardens wActive wStandby [] { paused := true }, by decide +kernel⟩,
    ⟨⟨0, 5, 1, 0, .other⟩, none, wWardens wActive wStandby [] { elims := [(1, { entries := [⟨5, 7, 1, 0⟩] })] }, ⟨5, 7, 1, 0⟩, by decide +kernel⟩,
    ⟨⟨0, 5, 1, 0, .other⟩, none, wWardens wActive wStandby [] {}, by decide +kernel⟩,
    ⟨⟨1, 5, 1, 8, .other⟩, some ⟨0, 5, 1, 7, .other⟩, wWardens wActive wStandby [] {}, ⟨0, 5, 1, 7, .other⟩, by decide +kernel⟩,
    ⟨0, 0, wWardens wActive wStandby [] {}, by decide +kernel⟩,
    ⟨0, 1, wWardens wActive wStandby [] { elims := [(0, { entries := [⟨5, 7, 0, 0⟩] })] }, by decide +kernel⟩,
    ⟨true, true, 5, wWardens wActive wStandby [] { divergeAt := some 5 }, by decide +kernel⟩,
    ⟨true, true, 5, wWardens wActive wStandby [] { divergeAt := some 5 }, by decide +kernel⟩,
    ⟨true, true, 5, wWardens wActive wStandby [] { divergeAt := some 5 }, by decide +kernel⟩,
    ⟨true, false, 5, wWardens wActive wStandby [] { divergeAt := some 5 }, by decide +kernel⟩,
    ⟨false, false, 5, wWardens wActive wStandby [] { divergeAt := some 5 }, 1, by decide +kernel⟩,
    ⟨false, false, 5, wWardens wActive wFailed [] { divergeAt := some 5 }, by decide +kernel⟩,
    ⟨0, wWardens wFailed wActive [] {}, by decide +kernel⟩,
    ⟨0, wWardens wActive wStandby [] {}, by decide +kernel⟩,
    ⟨0, wWardens wSelftest wActive [] { wardens := [(0, { fullTest := some 5 })] }, 5, by decide +kernel⟩,
    ⟨0, wWardens wSelftest wActive [] { wardens := [(0, { fullTest := some (10 ^ 15) })] }, 10 ^ 15, by decide +kernel⟩,
    ⟨0, wWardens wActive wStandby [] { divergeAt := some 5 }, 5, by decide +kernel⟩,
    ⟨0, wWardens wActive wStandby [] {}, by decide +kernel⟩,
    ⟨0, true, wWardens wActive wStandby [] {}, by decide +kernel⟩,
    ⟨0, true, wWardens wActive wStandby [] {}, by decide +kernel⟩,
    ⟨0, false, wWardens wActive wStandby [] {}, by decide +kernel⟩,
    ⟨0, wWardens wResigned wActive [(TND.CFG.AUTO_RESTART, 0, 1)] {}, by decide +kernel⟩,
    ⟨0, wWardens wResigned wActive [(TND.CFG.AUTO_RESTART, 0, 1)] { wardens := [(0, { autoAt := some 5, resignedAt := 5 })] }, 5, by decide +kernel⟩,
    ⟨0, wWardens wResigned wActive [(TND.CFG.AUTO_RESTART, 0, 1)] {}, by refine ⟨by decide +kernel, by decide +kernel, by decide +kernel, fun a h => ?_⟩; cases h⟩,
    ⟨0, ⟨1, 1, []⟩, { wWardens wLoading wActive [] {} with sec := { verified := some ⟨1, 1, []⟩ } }, by decide +kernel⟩,
    ⟨0, true, wWardens wSelftest wActive [] {}, by decide +kernel⟩,
    ⟨0, false, wWardens wSelftest wActive [] {}, by decide +kernel⟩,
    ⟨0, true, wWardens wSelftest wSelftest [] { wardens := [(0, { together := true }), (1, { together := true, passed := true })] }, by decide +kernel⟩,
    ⟨0, true, wWardens wSelftest wSelftest [] { wardens := [(0, { together := true }), (1, { together := true })] }, by decide +kernel⟩,
    ⟨0, true, wWardens wSelftest wFailed [] { wardens := [(0, { together := true })] }, by decide +kernel⟩,
    ⟨0, true, wWardens wSelftest wActive [] {}, by decide +kernel⟩,
    ⟨0, true, wWardens wSelftest wSelftest [] {}, by decide +kernel⟩⟩

/-- Each claim of WardenRestartEventsTakeEffect is met somewhere: for every command a state and operands, and for the branches of its
conclusion. -/
theorem witness_WardenRestartEventsTakeEffect :
  (∃ (w : Fin 2) (s : State), s.wst w = wResync) ∧
  (∃ (w : Fin 2) (s : State), s.wst w = wResync ∧
      s.wardenIn wActive = none) ∧
  (∃ (w : Fin 2) (s : State), s.wst w = wResync ∧
      (s.wardenIn wActive).isSome = true ∧
      (s.warden w).copied = true) ∧
  (∃ (w : Fin 2) (s : State), s.wst w = wResync ∧
      (s.wardenIn wActive).isSome = true ∧
      (s.warden w).copied = false) ∧
  (∃ (v : Word) (s : State), s.hostReach 0 false = true ∧
      ctrlOp v = some 1) ∧
  (∃ (v : Word) (s : State), s.hostReach 0 false = true ∧
      ctrlOp v = some 1 ∧
      (s.wst (bitsOf v 0 1) = wResigned ∨ s.wst (bitsOf v 0 1) = wFailed)) ∧
  (∃ (v : Word) (s : State), s.hostReach 0 false = true ∧
      ctrlOp v = some 1 ∧
      s.wst (bitsOf v 0 1) ≠ wResigned ∧
      s.wst (bitsOf v 0 1) ≠ wFailed) ∧
  (∃ (v : Word) (s : State), s.hostReach 0 false = true ∧
      ctrlOp v = some 2) ∧
  (∃ (v : Word) (s : State), s.hostReach 0 false = true ∧
      ctrlOp v = some 2 ∧
      s.wardenRuns (bitsOf v 0 1) = true) ∧
  (∃ (v : Word) (s : State), s.hostReach 0 false = true ∧
      ctrlOp v = some 2 ∧
      s.wardenRuns (bitsOf v 0 1) = false) ∧
  (∃ (v : Word) (s : State), s.hostReach 0 false = true ∧
      ctrlOp v = some 3) ∧
  (∃ (v : Word) (s : State), s.hostReach 0 false = true ∧
      ctrlOp v = some 3 ∧
      (s.sec.fwLoading = true ∨ s.bothStarting = true)) ∧
  (∃ (v : Word) (s : State) (f : Firmware), s.hostReach 0 false = true ∧
      ctrlOp v = some 3 ∧
      s.sec.fwLoading = false ∧
      s.bothStarting = false ∧
      (s.sec.pendingFw = some f ∨ (s.sec.pendingFw = none ∧ s.sec.verified = some f))) ∧
  (∃ (v : Word) (s : State), s.hostReach 0 false = true ∧
      ctrlOp v = some 3 ∧
      s.sec.fwLoading = false ∧
      s.bothStarting = false ∧
      s.sec.pendingFw = none ∧
      s.sec.verified = none) ∧
  (∃ (_v : Word) (s : State), s.hostReach 0 false = true) ∧
  (∃ (v : Word) (s : State), s.hostReach 0 false = true ∧
      (bitsOf v 0 1 = 0 ∨ s.flag TND.MBX_CTRL.BUSY 0 = true)) ∧
  (∃ (v : Word) (s : State), s.hostReach 0 false = true ∧
      bitsOf v 0 1 = 1 ∧
      s.flag TND.MBX_CTRL.BUSY 0 = false ∧
      s.wardenUp = true) ∧
  (∃ (v : Word) (s : State), s.hostReach 0 false = true ∧
      bitsOf v 0 1 = 1 ∧
      s.flag TND.MBX_CTRL.BUSY 0 = false ∧
      s.wardenUp = false) ∧
  (∃ (s : State), s.mbxOpcode = some 1) ∧
  (∃ (s : State) (i : Nat), s.mbxOpcode = some 1 ∧
      i < 32) ∧
  (∃ (s : State), s.mbxOpcode = some 2) ∧
  (∃ (s : State) (i : Nat), s.mbxOpcode = some 2 ∧
      i < 32) ∧
  (∃ (a : Nat) (s : State), s.tnd.mbxAt = some a) ∧
  (∃ (a : Nat) (s : State), s.tnd.mbxAt = some a ∧
      a + 100 * msTicks ≤ s.now) ∧
  (∃ (a : Nat) (s : State), s.tnd.mbxAt = some a ∧
      s.now < a + 100 * msTicks) ∧
  (∃ (w : Nat) (s : State), s.wardenIn wResync = some w) ∧
  (∃ (w : Nat) (s : State), s.wardenIn wResync = some w ∧
      s.tnd.waiting = []) ∧
  (∃ (w : Nat) (s : State) (c : CommandCopy), s.wardenIn wResync = some w ∧
      s.tnd.waiting = [c] ∧
      s.inService c.warden = true ∧
      (s.elim c.eliminator).entries = [] ∧
      seqLater c.seq.toNat (s.elim c.eliminator).last = true) ∧
  (∃ (op : Nat) (s : State), s.mbxOpcode = some op ∧
      op ≠ 1 ∧
      op ≠ 2 ∧
      op < 0x100) :=
  ⟨
    ⟨0, wWardens wResync wActive [] {}, by decide +kernel⟩,
    ⟨0, wWardens wResync wFailed [] {}, by decide +kernel⟩,
    ⟨0, wWardens wResync wActive [] { wardens := [(0, { copied := true })] }, by decide +kernel⟩,
    ⟨0, wWardens wResync wActive [] {}, by decide +kernel⟩,
    ⟨0x2048000A, wUp, by decide +kernel⟩,
    ⟨0x2048000A, wWardens wResigned wActive [] {}, by decide +kernel⟩,
    ⟨0x2048000A, wWardens wActive wActive [] {}, by decide +kernel⟩,
    ⟨0x2048000C, wUp, by decide +kernel⟩,
    ⟨0x2048000C, wWardens wActive wActive [] {}, by decide +kernel⟩,
    ⟨0x2048000C, wWardens wFailed wActive [] {}, by decide +kernel⟩,
    ⟨0x2048000E, wUp, by decide +kernel⟩,
    ⟨0x2048000E, { wUp with sec := { fwLoading := true } }, by decide +kernel⟩,
    ⟨0x2048000E, { wUp with sec := { pendingFw := some ⟨1, 1, []⟩ } }, ⟨1, 1, []⟩, by decide +kernel⟩,
    ⟨0x2048000E, wUp, by decide +kernel⟩,
    ⟨1, wUp, by decide +kernel⟩,
    ⟨12, wUp, by decide +kernel⟩,
    ⟨1, wUp, by decide +kernel⟩,
    ⟨1, wWith [(TOP.READY.BITS, 0, 0xFF)], by decide +kernel⟩,
    ⟨wWardens wActive wStandby [(TND.MBX_CTRL.BUSY, 0, 1), (TND.MBX_REQ.BYTES, 0, 1)] {}, by decide +kernel⟩,
    ⟨wWardens wActive wStandby [(TND.MBX_CTRL.BUSY, 0, 1), (TND.MBX_REQ.BYTES, 0, 1)] {}, 3, by decide +kernel⟩,
    ⟨wWardens wActive wStandby [(TND.MBX_CTRL.BUSY, 0, 1), (TND.MBX_REQ.BYTES, 0, 2)] {}, by decide +kernel⟩,
    ⟨wWardens wActive wStandby [(TND.MBX_CTRL.BUSY, 0, 1), (TND.MBX_REQ.BYTES, 0, 2)] {}, 3, by decide +kernel⟩,
    ⟨5, { wUp with tnd := { mbxAt := some 5 } }, by decide +kernel⟩,
    ⟨5, { wUp with tnd := { mbxAt := some 5 } }, by decide +kernel⟩,
    ⟨10 ^ 15, { wUp with tnd := { mbxAt := some (10 ^ 15) } }, by decide +kernel⟩,
    ⟨1, wWardens wActive wResync [] {}, by decide +kernel⟩,
    ⟨1, wWardens wActive wResync [] {}, by decide +kernel⟩,
    ⟨1, wWardens wActive wResync [] { paused := true, waiting := [⟨0, 5, 1, 0, .other⟩] }, ⟨0, 5, 1, 0, .other⟩, by decide +kernel⟩,
    ⟨7, wWardens wActive wStandby [(TND.MBX_CTRL.BUSY, 0, 1), (TND.MBX_REQ.BYTES, 0, 7)] {}, by decide +kernel⟩⟩

/-- Each claim of BlackBoxEventsTakeEffect is met somewhere: for every command a state and operands, and for the branches of its
conclusion. -/
theorem witness_BlackBoxEventsTakeEffect :
  (∃ (r : BbxRecord) (rs : List BbxRecord) (s : State), s.bbx.queue = r :: rs ∧
      s.pkg.keep = true ∧
      s.bbx.scanned = true) ∧
  (∃ (r : BbxRecord) (rs : List BbxRecord) (s : State), s.bbx.queue = r :: rs ∧
      s.pkg.keep = true ∧
      s.bbx.scanned = true ∧
      (pinnedCodes.contains r.code = true ∧ s.bbx.pinned.length < 2048)) ∧
  (∃ (r : BbxRecord) (rs : List BbxRecord) (s : State), s.bbx.queue = r :: rs ∧
      s.pkg.keep = true ∧
      s.bbx.scanned = true ∧
      ¬(pinnedCodes.contains r.code = true ∧ s.bbx.pinned.length < 2048)) ∧
  (∃ (s : State), s.pkg.keep = true ∧
      s.bbx.scanned = false) ∧
  (∃ (s : State), s.pkg.keep = true ∧
      s.bbx.scanned = false ∧
      tornNewest s.bbx.retained = none) ∧
  (∃ (s : State) (e : Nat × BbxRecord), s.pkg.keep = true ∧
      s.bbx.scanned = false ∧
      tornNewest s.bbx.retained = some e) ∧
  (∃ (_v : Word) (s : State), s.hostReach 0 true = true) ∧
  (∃ (v : Word) (s : State), s.hostReach 0 true = true ∧
      bitsOf v 13 1 = 1 ∧
      s.flag BBX.READ_CTRL.BUSY 0 = false) ∧
  (∃ (v : Word) (s : State), s.hostReach 0 true = true ∧
      (bitsOf v 13 1 = 0 ∨ s.flag BBX.READ_CTRL.BUSY 0 = true)) ∧
  (∃ (_err : Bool) (first : Nat) (count : Nat) (st : Nat) (s : State), s.bbx.reading = some (first, count, st) ∧
      st < 2) ∧
  (∃ (err : Bool) (first : Nat) (count : Nat) (st : Nat) (s : State) (r : BbxRecord) (rs : List BbxRecord), s.bbx.reading = some (first, count, st) ∧
      st < 2 ∧
      st = 0 ∧
      err = false ∧
      s.busMaster 0 = true ∧
      s.recordsFrom first count = r :: rs) ∧
  (∃ (_v : Word) (s : State), s.hostReach 0 true = true) ∧
  (∃ (v : Word) (s : State), s.hostReach 0 true = true ∧
      bitsOf v 0 1 = 0) ∧
  (∃ (v : Word) (s : State), s.hostReach 0 true = true ∧
      bitsOf v 0 1 = 1 ∧
      16 ≤ ((tabGet [] s.bbx.rateAt 0x0103).filter fun a => decide (s.pkg.keepNow < a + secTicks)).length) ∧
  (∃ (v : Word) (s : State), s.hostReach 0 true = true ∧
      bitsOf v 0 1 = 1 ∧
      ((tabGet [] s.bbx.rateAt 0x0103).filter fun a => decide (s.pkg.keepNow < a + secTicks)).length < 16 ∧
      s.bbx.queue.length < 256) ∧
  (∃ (s : State), s.ready rdyKeeper = true) ∧
  (∃ (_first : Nat) (_count : Fin 256) (s : State), s.ready rdyKeeper = true) ∧
  (∃ (_first : Nat) (_count : Fin 65536) (_nonce : List Byte) (s : State), s.ready rdyKeeper = true) :=
  ⟨
    ⟨wRecord, [], wBbx { queue := [wRecord], scanned := true }, by decide +kernel⟩,
    ⟨wRecord, [], wBbx { queue := [wRecord], scanned := true }, by decide +kernel⟩,
    ⟨{ wRecord with code := 7 }, [], wBbx { queue := [{ wRecord with code := 7 }], scanned := true }, by decide +kernel⟩,
    ⟨wUp, by decide +kernel⟩,
    ⟨wUp, by decide +kernel⟩,
    ⟨wBbx { pinned := [(0, wRecord)] }, (0, wRecord), by decide +kernel⟩,
    ⟨0x2000, wUp, by decide +kernel⟩,
    ⟨0x2000, wUp, by decide +kernel⟩,
    ⟨0, wUp, by decide +kernel⟩,
    ⟨false, 1, 1, 0, wBbx { reading := some (1, 1, 0) }, by decide +kernel⟩,
    ⟨false, 1, 1, 0, { wBbx { reading := some (1, 1, 0), pinned := [(0, wRecord)] } with hif := { pfBme := true } }, wRecord, [], by decide +kernel⟩,
    ⟨1, wUp, by decide +kernel⟩,
    ⟨2, wUp, by decide +kernel⟩,
    ⟨1, wBbx { rateAt := [(0x0103, List.replicate 16 (10 ^ 15))] }, by decide +kernel⟩,
    ⟨1, wUp, by decide +kernel⟩,
    ⟨wUp, by decide +kernel⟩,
    ⟨0, 0, wUp, by decide +kernel⟩,
    ⟨0, 0, [], wUp, by decide +kernel⟩⟩

/-- Each claim of IdentityEventsTakeEffect is met somewhere: for every command a state and operands, and for the branches of its
conclusion. -/
theorem witness_IdentityEventsTakeEffect :
  (∃ (tr : Fin 2) (s : State), s.spdmReach tr = false) ∧
  (∃ (tr : Fin 2) (s : State), s.spdmReach tr = true ∧
      s.flag SEC.STATUS.DERIVING 0 = true) ∧
  (∃ (tr : Fin 2) (s : State), s.spdmReach tr = true ∧
      s.flag SEC.STATUS.DERIVING 0 = false) ∧
  (∃ (tr : Fin 2) (s : State), s.spdmReach tr = false) ∧
  (∃ (tr : Fin 2) (s : State), s.spdmReach tr = true ∧
      s.flag SEC.STATUS.DERIVING 0 = true) ∧
  (∃ (tr : Fin 2) (s : State), s.spdmReach tr = true ∧
      s.flag SEC.STATUS.DERIVING 0 = false ∧
      (s.spdmConn tr).version = true) ∧
  (∃ (tr : Fin 2) (s : State), s.spdmReach tr = true ∧
      s.flag SEC.STATUS.DERIVING 0 = false ∧
      (s.spdmConn tr).version = false) ∧
  (∃ (tr : Fin 2) (_offered : Bool) (s : State), s.spdmReach tr = false) ∧
  (∃ (tr : Fin 2) (_offered : Bool) (s : State), s.spdmReach tr = true ∧
      s.flag SEC.STATUS.DERIVING 0 = true) ∧
  (∃ (tr : Fin 2) (_offered : Bool) (s : State), s.spdmReach tr = true ∧
      s.flag SEC.STATUS.DERIVING 0 = false ∧
      (s.spdmConn tr).capabilities = true) ∧
  (∃ (tr : Fin 2) (_offered : Bool) (s : State), s.spdmReach tr = true ∧
      s.flag SEC.STATUS.DERIVING 0 = false ∧
      (s.spdmConn tr).capabilities = false) ∧
  (∃ (tr : Fin 2) (s : State), s.spdmReach tr = false) ∧
  (∃ (tr : Fin 2) (s : State), s.spdmReach tr = true ∧
      s.flag SEC.STATUS.DERIVING 0 = true) ∧
  (∃ (tr : Fin 2) (s : State), s.spdmReach tr = true ∧
      s.flag SEC.STATUS.DERIVING 0 = false ∧
      (s.spdmConn tr).algorithms = true) ∧
  (∃ (tr : Fin 2) (s : State), s.spdmReach tr = true ∧
      s.flag SEC.STATUS.DERIVING 0 = false ∧
      (s.spdmConn tr).algorithms = false) ∧
  (∃ (tr : Fin 2) (_slot : Fin 8) (_off : Fin 65536) (_len : Fin 65536) (s : State), s.spdmReach tr = false) ∧
  (∃ (tr : Fin 2) (_slot : Fin 8) (_off : Fin 65536) (_len : Fin 65536) (s : State), s.spdmReach tr = true ∧
      s.flag SEC.STATUS.DERIVING 0 = true) ∧
  (∃ (tr : Fin 2) (_slot : Fin 8) (_off : Fin 65536) (_len : Fin 65536) (s : State), s.spdmReach tr = true ∧
      s.flag SEC.STATUS.DERIVING 0 = false ∧
      (s.spdmConn tr).algorithms = false) ∧
  (∃ (tr : Fin 2) (slot : Fin 8) (_off : Fin 65536) (_len : Fin 65536) (s : State), s.spdmReach tr = true ∧
      s.flag SEC.STATUS.DERIVING 0 = false ∧
      (s.spdmConn tr).algorithms = true ∧
      slot.val ≠ 0) ∧
  (∃ (tr : Fin 2) (slot : Fin 8) (_off : Fin 65536) (_len : Fin 65536) (s : State), s.spdmReach tr = true ∧
      s.flag SEC.STATUS.DERIVING 0 = false ∧
      (s.spdmConn tr).algorithms = true ∧
      slot.val = 0) ∧
  (∃ (tr : Fin 2) (_slot : Fin 8) (_nonce : List Byte) (s : State), s.spdmReach tr = false) ∧
  (∃ (tr : Fin 2) (_slot : Fin 8) (_nonce : List Byte) (s : State), s.spdmReach tr = true ∧
      s.flag SEC.STATUS.DERIVING 0 = true) ∧
  (∃ (tr : Fin 2) (_slot : Fin 8) (_nonce : List Byte) (s : State), s.spdmReach tr = true ∧
      s.flag SEC.STATUS.DERIVING 0 = false ∧
      (s.spdmConn tr).algorithms = false) ∧
  (∃ (tr : Fin 2) (slot : Fin 8) (_nonce : List Byte) (s : State), s.spdmReach tr = true ∧
      s.flag SEC.STATUS.DERIVING 0 = false ∧
      (s.spdmConn tr).algorithms = true ∧
      slot.val ≠ 0) ∧
  (∃ (tr : Fin 2) (slot : Fin 8) (_nonce : List Byte) (s : State), s.spdmReach tr = true ∧
      s.flag SEC.STATUS.DERIVING 0 = false ∧
      (s.spdmConn tr).algorithms = true ∧
      slot.val = 0) ∧
  (∃ (tr : Fin 2) (_index : Fin 256) (_nonce : List Byte) (_signed : Bool) (s : State), s.spdmReach tr = false) ∧
  (∃ (tr : Fin 2) (_index : Fin 256) (_nonce : List Byte) (_signed : Bool) (s : State), s.spdmReach tr = true ∧
      s.flag SEC.STATUS.DERIVING 0 = true) ∧
  (∃ (tr : Fin 2) (_index : Fin 256) (_nonce : List Byte) (_signed : Bool) (s : State), s.spdmReach tr = true ∧
      s.flag SEC.STATUS.DERIVING 0 = false ∧
      (s.spdmConn tr).algorithms = false) ∧
  (∃ (tr : Fin 2) (index : Fin 256) (_nonce : List Byte) (_signed : Bool) (s : State), s.spdmReach tr = true ∧
      s.flag SEC.STATUS.DERIVING 0 = false ∧
      (s.spdmConn tr).algorithms = true ∧
      5 < index.val ∧
      index.val ≠ 255) ∧
  (∃ (tr : Fin 2) (index : Fin 256) (_nonce : List Byte) (_signed : Bool) (s : State), s.spdmReach tr = true ∧
      s.flag SEC.STATUS.DERIVING 0 = false ∧
      (s.spdmConn tr).algorithms = true ∧
      (index.val ≤ 5 ∨ index.val = 255)) ∧
  (∃ (tr : Fin 2) (s : State), s.spdmReach tr = false) ∧
  (∃ (tr : Fin 2) (s : State), s.spdmReach tr = true ∧
      s.flag SEC.STATUS.DERIVING 0 = true) ∧
  (∃ (tr : Fin 2) (s : State), s.spdmReach tr = true ∧
      s.flag SEC.STATUS.DERIVING 0 = false) ∧
  (∃ (s : State), s.flag SEC.STATUS.DERIVING 0 = true) ∧
  (∃ (s : State), s.flag SEC.STATUS.DERIVING 0 = true ∧
      s.sec.chainLoaded = true) ∧
  (∃ (s : State), s.flag SEC.STATUS.DERIVING 0 = true ∧
      s.sec.chainLoaded = false) ∧
  (∃ (_fn : FnNo) (_v : Word) (s : State), s.hostReach 0 true = true ∧
      s.keyCommand.op = 1) ∧
  (∃ (fn : FnNo) (v : Word) (s : State), s.hostReach 0 true = true ∧
      s.keyCommand.op = 1 ∧
      (fn.val ≠ 0 ∨ bitsOf v 0 1 = 0 ∨ bitsOf v 16 16 ≠ 0x2048)) ∧
  (∃ (fn : FnNo) (v : Word) (s : State), s.hostReach 0 true = true ∧
      s.keyCommand.op = 1 ∧
      fn.val = 0 ∧
      bitsOf v 0 1 = 1 ∧
      bitsOf v 16 16 = 0x2048 ∧
      s.keyStatus s.keyCommand ≠ 0) ∧
  (∃ (fn : FnNo) (v : Word) (s : State), s.hostReach 0 true = true ∧
      s.keyCommand.op = 1 ∧
      fn.val = 0 ∧
      bitsOf v 0 1 = 1 ∧
      bitsOf v 16 16 = 0x2048 ∧
      s.keyStatus s.keyCommand = 0) ∧
  (∃ (_fn : FnNo) (_v : Word) (s : State), s.hostReach 0 true = true ∧
      s.keyCommand.op = 2) ∧
  (∃ (fn : FnNo) (v : Word) (s : State), s.hostReach 0 true = true ∧
      s.keyCommand.op = 2 ∧
      (fn.val ≠ 0 ∨ bitsOf v 0 1 = 0 ∨ bitsOf v 16 16 ≠ 0x2048)) ∧
  (∃ (fn : FnNo) (v : Word) (s : State), s.hostReach 0 true = true ∧
      s.keyCommand.op = 2 ∧
      fn.val = 0 ∧
      bitsOf v 0 1 = 1 ∧
      bitsOf v 16 16 = 0x2048 ∧
      s.keyStatus s.keyCommand ≠ 0) ∧
  (∃ (fn : FnNo) (v : Word) (s : State), s.hostReach 0 true = true ∧
      s.keyCommand.op = 2 ∧
      fn.val = 0 ∧
      bitsOf v 0 1 = 1 ∧
      bitsOf v 16 16 = 0x2048 ∧
      s.keyStatus s.keyCommand = 0) ∧
  (∃ (rev : Bool) (target : Nat) (auth : Nat) (key : List Byte) (s : State), s.sec.keyCmd = some (rev, target, auth, key)) ∧
  (∃ (rev : Bool) (target : Nat) (auth : Nat) (key : List Byte) (s : State), s.sec.keyCmd = some (rev, target, auth, key) ∧
      rev = false) ∧
  (∃ (rev : Bool) (target : Nat) (auth : Nat) (key : List Byte) (s : State), s.sec.keyCmd = some (rev, target, auth, key) ∧
      rev = true) :=
  ⟨
    ⟨0, State.reset, by decide +kernel⟩,
    ⟨0, wUp, by decide +kernel⟩,
    ⟨0, wSec [] {}, by decide +kernel⟩,
    ⟨0, State.reset, by decide +kernel⟩,
    ⟨0, wSec [(SEC.STATUS.DERIVING, 0, 1)] {}, by decide +kernel⟩,
    ⟨0, wSec [] { spdm := [(0, { version := true })] }, by decide +kernel⟩,
    ⟨0, wSec [] {}, by decide +kernel⟩,
    ⟨0, true, State.reset, by decide +kernel⟩,
    ⟨0, true, wSec [(SEC.STATUS.DERIVING, 0, 1)] {}, by decide +kernel⟩,
    ⟨0, true, wSec [] { spdm := [(0, { capabilities := true })] }, by decide +kernel⟩,
    ⟨0, true, wSec [] {}, by decide +kernel⟩,
    ⟨0, State.reset, by decide +kernel⟩,
    ⟨0, wSec [(SEC.STATUS.DERIVING, 0, 1)] {}, by decide +kernel⟩,
    ⟨0, wSec [] { spdm := [(0, { algorithms := true })] }, by decide +kernel⟩,
    ⟨0, wSec [] {}, by decide +kernel⟩,
    ⟨0, 0, 0, 0, State.reset, by decide +kernel⟩,
    ⟨0, 0, 0, 0, wSec [(SEC.STATUS.DERIVING, 0, 1)] {}, by decide +kernel⟩,
    ⟨0, 0, 0, 0, wSec [] {}, by decide +kernel⟩,
    ⟨0, 3, 2, 1, wSec [] { spdm := [(0, { algorithms := true })] }, by decide +kernel⟩,
    ⟨0, 0, 0, 0, wSec [] { spdm := [(0, { algorithms := true })] }, by decide +kernel⟩,
    ⟨0, 0, [], State.reset, by decide +kernel⟩,
    ⟨0, 0, [], wSec [(SEC.STATUS.DERIVING, 0, 1)] {}, by decide +kernel⟩,
    ⟨0, 0, [], wSec [] {}, by decide +kernel⟩,
    ⟨0, 1, [], wSec [] { spdm := [(0, { algorithms := true })] }, by decide +kernel⟩,
    ⟨0, 0, [], wSec [] { spdm := [(0, { algorithms := true })] }, by decide +kernel⟩,
    ⟨0, 1, [], false, State.reset, by decide +kernel⟩,
    ⟨0, 1, [], false, wSec [(SEC.STATUS.DERIVING, 0, 1)] {}, by decide +kernel⟩,
    ⟨0, 1, [], false, wSec [] {}, by decide +kernel⟩,
    ⟨0, 9, wAdv ++ leBytes (crc16 0xFFFF wAdv) 2, false, wSec [] { spdm := [(0, { algorithms := true })] }, by decide +kernel⟩,
    ⟨0, 1, [], false, wSec [] { spdm := [(0, { algorithms := true })] }, by decide +kernel⟩,
    ⟨0, State.reset, by decide +kernel⟩,
    ⟨0, wUp, by decide +kernel⟩,
    ⟨0, wSec [] {}, by decide +kernel⟩,
    ⟨wSec [(SEC.STATUS.DERIVING, 0, 1)] {}, by decide +kernel⟩,
    ⟨wSec [(SEC.STATUS.DERIVING, 0, 1)] { chainLoaded := true }, by decide +kernel⟩,
    ⟨wSec [(SEC.STATUS.DERIVING, 0, 1)] {}, by decide +kernel⟩,
    ⟨0, 0x20480001, wProvision, by decide +kernel⟩,
    ⟨0, 0, wProvision, by decide +kernel⟩,
    ⟨0, 0x20480001, wKeys (wKeyCmd 1 0 0 wKey) [] {}, by decide +kernel⟩,
    ⟨0, 0x20480001, wProvision, by decide +kernel⟩,
    ⟨0, 0x20480001, wRevoke, by decide +kernel⟩,
    ⟨0, 0, wRevoke, by decide +kernel⟩,
    ⟨0, 0x20480001, wKeys (wKeyCmd 2 1 0 (List.replicate 97 0)) [] {}, by decide +kernel⟩,
    ⟨0, 0x20480001, wRevoke, by decide +kernel⟩,
    ⟨false, 0, 0, [], wSec [] { keyCmd := some (false, 0, 0, []) }, by decide +kernel⟩,
    ⟨false, 0, 0, [], wSec [] { keyCmd := some (false, 0, 0, []) }, by decide +kernel⟩,
    ⟨true, 0, 0, [], wSec [] { keyCmd := some (true, 0, 0, []) }, by decide +kernel⟩⟩

/-- Each claim of FirmwareEventsTakeEffect is met somewhere: for every command a state and operands, and for the branches of its
conclusion. -/
theorem witness_FirmwareEventsTakeEffect :
  (∃ (_v : Word) (s : State), s.hostReach 0 true = true) ∧
  (∃ (v : Word) (s : State), s.hostReach 0 true = true ∧
      bitsOf v 0 1 = 0) ∧
  (∃ (v : Word) (s : State), s.hostReach 0 true = true ∧
      bitsOf v 0 1 = 1 ∧
      (s.sec.fwLoading = true ∨ s.bothStarting = true)) ∧
  (∃ (v : Word) (s : State), s.hostReach 0 true = true ∧
      bitsOf v 0 1 = 1 ∧
      s.sec.fwLoading = false ∧
      s.bothStarting = false) ∧
  (∃ (_h : List Byte) (_p : List Byte) (_hf : Bool) (_pf : Bool) (s : State), s.sec.fwLoading = true) ∧
  (∃ (h : List Byte) (p : List Byte) (hf : Bool) (pf : Bool) (s : State), s.sec.fwLoading = true ∧
      s.busMaster 0 = true ∧
      s.fwCause h p hf pf 7 = 0) ∧
  (∃ (h : List Byte) (p : List Byte) (hf : Bool) (pf : Bool) (s : State), s.sec.fwLoading = true ∧
      s.busMaster 0 = true ∧
      s.fwCause h p hf pf 7 ≠ 0) ∧
  (∃ (_h : List Byte) (_p : List Byte) (_hf : Bool) (_pf : Bool) (s : State), s.sec.fwLoading = true ∧
      s.busMaster 0 = false) ∧
  (∃ (_v : Word) (f : Firmware) (s : State), s.hostReach 0 true = true ∧
      s.sec.verified = some f) ∧
  (∃ (v : Word) (f : Firmware) (s : State), s.hostReach 0 true = true ∧
      s.sec.verified = some f ∧
      (bitsOf v 1 1 = 0 ∨ bitsOf v 16 16 ≠ 0x2048)) ∧
  (∃ (v : Word) (f : Firmware) (s : State), s.hostReach 0 true = true ∧
      s.sec.verified = some f ∧
      bitsOf v 1 1 = 1 ∧
      bitsOf v 16 16 = 0x2048 ∧
      s.inService 0 = true ∧
      s.inService 1 = true) ∧
  (∃ (v : Word) (f : Firmware) (s : State), s.hostReach 0 true = true ∧
      s.sec.verified = some f ∧
      bitsOf v 1 1 = 1 ∧
      bitsOf v 16 16 = 0x2048 ∧
      (s.inService 0 = false ∨ s.inService 1 = false)) ∧
  (∃ (_h : List Byte) (_p : List Byte) (_hf : Bool) (_pf : Bool) (slot : Nat) (rest : List Nat) (s : State), s.sec.fwSlots = slot :: rest) ∧
  (∃ (h : List Byte) (p : List Byte) (hf : Bool) (pf : Bool) (slot : Nat) (rest : List Nat) (s : State), s.sec.fwSlots = slot :: rest ∧
      s.fwCause h p hf pf 8 = 0) ∧
  (∃ (h : List Byte) (p : List Byte) (hf : Bool) (pf : Bool) (slot : Nat) (rest : List Nat) (s : State), s.sec.fwSlots = slot :: rest ∧
      s.fwCause h p hf pf 8 ≠ 0) :=
  ⟨
    ⟨1, wUp, by decide +kernel⟩,
    ⟨0, wUp, by decide +kernel⟩,
    ⟨1, wSec [] { fwLoading := true }, by decide +kernel⟩,
    ⟨1, wUp, by decide +kernel⟩,
    ⟨[], [], false, false, wSec [] { fwLoading := true }, by decide +kernel⟩,
    ⟨wFwHeader, [0], false, false, wFwLoad, by decide +kernel⟩,
    ⟨wFwHeader, [1], false, false, wFwLoad, by decide +kernel⟩,
    ⟨[], [], false, false, { wSec [] { fwLoading := true } with hif := {} }, by decide +kernel⟩,
    ⟨0x20480002, ⟨1, 1, []⟩, wSec [] { verified := some ⟨1, 1, []⟩ }, by decide +kernel⟩,
    ⟨0x20480000, ⟨1, 1, []⟩, wSec [] { verified := some ⟨1, 1, []⟩ }, by decide +kernel⟩,
    ⟨0x20480002, ⟨1, 5, []⟩, { wWardens wActive wStandby [] {} with sec := { verified := some ⟨1, 5, []⟩ } }, by decide +kernel⟩,
    ⟨0x20480002, ⟨1, 1, []⟩, wSec [] { verified := some ⟨1, 1, []⟩ }, by decide +kernel⟩,
    ⟨[], [], false, false, 0, [1], wSec [] { fwSlots := [0, 1] }, by decide +kernel⟩,
    ⟨wFwHeader, [0], false, false, 0, [], wFwLoad, by decide +kernel⟩,
    ⟨[], [], false, false, 0, [1], wSec [] { fwSlots := [0, 1] }, by decide +kernel⟩⟩

/-- Each claim of ResetEventsTakeEffect is met somewhere: for every command a state and operands, and for the branches of its
conclusion. -/
theorem witness_ResetEventsTakeEffect :
  (∃ (s : State), s.pkg.keep = false) ∧
  (∃ (s : State), s.pkg.keep = true ∧
      5 * msTicks ≤ s.pkg.keepNow) ∧
  (∃ (s : State), (s.pkg.keep = false ∨ s.pkg.keepNow < 5 * msTicks)) ∧
  (∃ (torn : Bool) (s : State), (torn = false ∨ s.bbx.scanned = false ∨ s.bbx.queue = [])) ∧
  (∃ (torn : Bool) (s : State) (r : BbxRecord) (rs : List BbxRecord), torn = true ∧
      s.bbx.scanned = true ∧
      s.bbx.queue = r :: rs ∧
      pinnedCodes.contains r.code = false) ∧
  (∃ (_ref25 : Bool) (_te : Bool) (s : State), s.pkg.keep = true ∧
      s.pkg.mainPg = false) ∧
  (∃ (_ref25 : Bool) (_te : Bool) (s : State), s.pkg.keep = true ∧
      s.pkg.mainPg = false ∧
      s.pkg.sysResetN = true) ∧
  (∃ (_ref25 : Bool) (_te : Bool) (s : State), s.pkg.keep = true ∧
      s.pkg.mainPg = false ∧
      s.pkg.sysResetN = false) ∧
  (∃ (_ref25 : Bool) (te : Bool) (s : State), s.pkg.keep = true ∧
      s.pkg.mainPg = false ∧
      te = true ∧
      natBit (s.get TOP.MON_STATUS.ACTIVE 0) 21 = false) ∧
  (∃ (s : State), s.pkg.mainPg = false) ∧
  (∃ (s : State), s.pkg.mainPg = true) ∧
  (∃ (n : Nat) (s : State), (n < usTicks ∨ s.pkg.sysResetN = false)) ∧
  (∃ (n : Nat) (s : State), usTicks ≤ n ∧
      s.pkg.sysResetN = true) ∧
  (∃ (fn : FnNo) (_v : Word) (s : State), s.hostReach fn true = true) ∧
  (∃ (fn : FnNo) (v : Word) (s : State), s.hostReach fn true = true ∧
      (fn.val ≠ 0 ∨ bitsOf v 0 1 = 0 ∨ bitsOf v 16 16 ≠ 0x2048 ∨ s.pkg.mainPg = false)) ∧
  (∃ (fn : FnNo) (v : Word) (s : State), s.hostReach fn true = true ∧
      fn.val = 0 ∧
      bitsOf v 0 1 = 1 ∧
      bitsOf v 16 16 = 0x2048 ∧
      s.pkg.mainPg = true) ∧
  (∃ (_m : Fin 22) (_r : BitVec 32) (s : State), s.pkg.keep = true) ∧
  (∃ (m : Fin 22) (_r : BitVec 32) (s : State), s.pkg.keep = true ∧
      natBit (s.get TOP.MON_STATUS.ACTIVE 0) m = true) ∧
  (∃ (m : Fin 22) (_r : BitVec 32) (s : State), s.pkg.keep = true ∧
      natBit (s.get TOP.MON_STATUS.ACTIVE 0) m = false) ∧
  (∃ (_ref25 : Bool) (s : State), s.pkg.sysResetN = false) ∧
  (∃ (_ref25 : Bool) (s : State), s.pkg.sysResetN = false ∧
      s.pkg.mainPg = true ∧
      s.pkg.hubUp = false) ∧
  (∃ (_ref25 : Bool) (s : State), s.pkg.sysResetN = false ∧
      s.pkg.mainPg = false) :=
  ⟨
    ⟨{ wUp with pkg := { keep := false } }, by decide +kernel⟩,
    ⟨wUp, by decide +kernel⟩,
    ⟨{ wUp with pkg := { keep := false } }, by decide +kernel⟩,
    ⟨false, wUp, by decide +kernel⟩,
    ⟨true, wBbx { queue := [{ wRecord with code := 7 }], scanned := true }, { wRecord with code := 7 }, [], by decide +kernel⟩,
    ⟨true, true, { wUp with pkg := { keep := true } }, by decide +kernel⟩,
    ⟨true, true, { wUp with pkg := { keep := true } }, by decide +kernel⟩,
    ⟨true, true, { wUp with pkg := { keep := true, sysResetN := false } }, by decide +kernel⟩,
    ⟨true, true, { wUp with pkg := { keep := true } }, by decide +kernel⟩,
    ⟨{ wUp with pkg := { keep := false } }, by decide +kernel⟩,
    ⟨wUp, by decide +kernel⟩,
    ⟨5, wUp, by decide +kernel⟩,
    ⟨2000, wUp, by decide +kernel⟩,
    ⟨0, 0x20480001, wUp, by decide +kernel⟩,
    ⟨1, 0x20480001, wUp, by decide +kernel⟩,
    ⟨0, 0x20480001, wUp, by decide +kernel⟩,
    ⟨17, 0, wUp, by decide +kernel⟩,
    ⟨17, 0, wWith [(TOP.MON_STATUS.ACTIVE, 0, 2 ^ 17)], by decide +kernel⟩,
    ⟨17, 0, wUp, by decide +kernel⟩,
    ⟨true, { wUp with pkg := { keep := true, sysResetN := false } }, by decide +kernel⟩,
    ⟨true, { wUp with pkg := { keep := true, mainPg := true, sysResetN := false } }, by decide +kernel⟩,
    ⟨true, { wUp with pkg := { keep := true, sysResetN := false } }, by decide +kernel⟩⟩

/-- Each claim of JtagInstructionsTakeEffect is met somewhere: for every command a state and operands, and for the branches of its
conclusion. -/
theorem witness_JtagInstructionsTakeEffect :
  (∃ (s : State), s.pkg.keep = true) ∧
  (∃ (s : State), s.pkg.keep = false) ∧
  (∃ (s : State), s.pkg.keep = true) ∧
  (∃ (s : State), s.pkg.keep = false) ∧
  (∃ (s : State), s.pkg.keep = true) ∧
  (∃ (s : State), s.pkg.keep = false) ∧
  (∃ (_code : Fin 256) (s : State), s.pkg.keep = true) ∧
  (∃ (code : Fin 256) (s : State), s.pkg.keep = true ∧
      [0x00, 0x01, 0x02, 0x3C].contains code.val = false) ∧
  (∃ (code : Fin 256) (s : State), s.pkg.keep = true ∧
      [0x00, 0x01, 0x02, 0x3C].contains code.val = true) ∧
  (∃ (_bytes : List Byte) (s : State), s.pkg.keep = true) ∧
  (∃ (_bytes : List Byte) (s : State), s.pkg.keep = true ∧
      s.ready rdyKeeper = false) ∧
  (∃ (bytes : List Byte) (s : State), s.pkg.keep = true ∧
      s.ready rdyKeeper = true ∧
      ofLe (bytes.take 1) = 1) ∧
  (∃ (bytes : List Byte) (s : State) (rs : List BbxRecord), s.pkg.keep = true ∧
      s.ready rdyKeeper = true ∧
      ofLe (bytes.take 1) = 2 ∧
      rs = s.recordsFrom (ofLe ((bytes.drop 1).take 8)) (clampN 1 8 (ofLe ((bytes.drop 9).take 1)))) ∧
  (∃ (bytes : List Byte) (s : State) (rs : List BbxRecord), s.pkg.keep = true ∧
      s.ready rdyKeeper = true ∧
      ofLe (bytes.take 1) = 3 ∧
      rs = s.recordsFrom (ofLe ((bytes.drop 1).take 8)) (clampN 1 4096 (ofLe ((bytes.drop 9).take 2)))) ∧
  (∃ (bytes : List Byte) (s : State), s.pkg.keep = true ∧
      s.ready rdyKeeper = true ∧
      (ofLe (bytes.take 1) = 0 ∨ 3 < ofLe (bytes.take 1))) :=
  ⟨
    ⟨wUp, by decide +kernel⟩,
    ⟨{ wUp with pkg := { keep := false } }, by decide +kernel⟩,
    ⟨wUp, by decide +kernel⟩,
    ⟨{ wUp with pkg := { keep := false } }, by decide +kernel⟩,
    ⟨wUp, by decide +kernel⟩,
    ⟨{ wUp with pkg := { keep := false } }, by decide +kernel⟩,
    ⟨0xFF, wUp, by decide +kernel⟩,
    ⟨0xFF, wUp, by decide +kernel⟩,
    ⟨0, wUp, by decide +kernel⟩,
    ⟨[], wUp, by decide +kernel⟩,
    ⟨[], wWith [(TOP.READY.BITS, 0, 0)], by decide +kernel⟩,
    ⟨[1], wUp, by decide +kernel⟩,
    ⟨2 :: List.replicate 10 0, wBbx { ring := [(2048, wRecord)] }, [wRecord], by decide +kernel⟩,
    ⟨3 :: List.replicate 10 0, wBbx { ring := [(2048, wRecord)] }, [wRecord], by decide +kernel⟩,
    ⟨[], wUp, by decide +kernel⟩⟩

/-- Each claim of ImageEventsTakeEffect is met somewhere: for every command a state and operands, and for the branches of its
conclusion. -/
theorem witness_ImageEventsTakeEffect :
  (∃ (v : Word) (s : State), s.hostReach 0 true = true ∧
      bitsOf v 0 1 = 1) ∧
  (∃ (v : Word) (s : State), s.hostReach 0 true = true ∧
      bitsOf v 0 1 = 1 ∧
      s.cf.load = none ∧
      bitsOf v 2 2 ≠ 3) ∧
  (∃ (v : Word) (s : State), s.hostReach 0 true = true ∧
      bitsOf v 0 1 = 1 ∧
      s.cf.load = none ∧
      bitsOf v 2 2 = 3 ∧
      s.cf.bootSlots = []) ∧
  (∃ (v : Word) (s : State), s.hostReach 0 true = true ∧
      bitsOf v 0 1 = 1 ∧
      s.cf.load.isSome = true ∧
      bitsOf v 1 1 = 0) ∧
  (∃ (v : Word) (s : State), s.hostReach 0 true = true ∧
      bitsOf v 0 1 = 0 ∧
      bitsOf v 1 1 = 1) ∧
  (∃ (v : Word) (s : State), s.hostReach 0 true = true ∧
      bitsOf v 0 1 = 0 ∧
      bitsOf v 1 1 = 1 ∧
      s.loadOpen = true) ∧
  (∃ (v : Word) (s : State), s.hostReach 0 true = true ∧
      bitsOf v 0 1 = 0 ∧
      bitsOf v 1 1 = 1 ∧
      s.loadOpen = false) ∧
  (∃ (_head : List Byte) (_sig : List Byte) (_list : List Byte) (_rf : Bool) (l : LoadRec) (s : State), s.cf.load = some l ∧
      l.checked = false) ∧
  (∃ (head : List Byte) (sig : List Byte) (list : List Byte) (rf : Bool) (l : LoadRec) (s : State) (i : Nat), s.cf.load = some l ∧
      l.checked = false ∧
      s.imageCause head sig (s.loadFailed l rf) (l.short head list) l.readCause = (0, i)) ∧
  (∃ (head : List Byte) (sig : List Byte) (list : List Byte) (rf : Bool) (l : LoadRec) (s : State) (cause : Nat) (i : Nat), s.cf.load = some l ∧
      l.checked = false ∧
      s.imageCause head sig (s.loadFailed l rf) (l.short head list) l.readCause = (cause, i) ∧
      cause ≠ 0 ∧
      s.cf.bootSlots = []) ∧
  (∃ (_dg : List Byte) (b : SectionBody) (_rf : Bool) (l : LoadRec) (l' : LoadRec) (i : Nat) (rest : List Nat) (e : SectionEntry) (s : State), s.cf.load = some l ∧
      l.checked = true ∧
      l.verified = false ∧
      l.toCome = i :: rest ∧
      l.sections[i]? = some e ∧
      l' = { l with toCome := rest, bytes := l.bytes + e.length, bodies := if (sectionLimit e.type).isSome then l.bodies ++ [(i, sizedBody e.length b)] else l.bodies }) ∧
  (∃ (dg : List Byte) (b : SectionBody) (rf : Bool) (l : LoadRec) (l' : LoadRec) (i : Nat) (rest : List Nat) (e : SectionEntry) (s : State) (c : Nat) (j : Nat), s.cf.load = some l ∧
      l.checked = true ∧
      l.verified = false ∧
      l.toCome = i :: rest ∧
      l.sections[i]? = some e ∧
      l' = { l with toCome := rest, bytes := l.bytes + e.length, bodies := if (sectionLimit e.type).isSome then l.bodies ++ [(i, sizedBody e.length b)] else l.bodies } ∧
      (s.loadFailed l rf = true ∧ c = l.readCause ∧ j = 255) ∨ (s.loadFailed l rf = false ∧ bodyDigest dg (sizedBody e.length b) ≠ e.digest ∧ c = 0x0F ∧ j = i) ∨ (s.loadFailed l rf = false ∧ bodyDigest dg (sizedBody e.length b) = e.digest ∧ (sectionLimit e.type).isSome = true ∧ bodyType (sizedBody e.length b) ≠ some e.type ∧ c = 0x0D ∧ j = i) ∧
      s.cf.bootSlots = []) ∧
  (∃ (dg : List Byte) (b : SectionBody) (rf : Bool) (l : LoadRec) (l' : LoadRec) (i : Nat) (rest : List Nat) (e : SectionEntry) (s : State), s.cf.load = some l ∧
      l.checked = true ∧
      l.verified = false ∧
      l.toCome = i :: rest ∧
      l.sections[i]? = some e ∧
      l' = { l with toCome := rest, bytes := l.bytes + e.length, bodies := if (sectionLimit e.type).isSome then l.bodies ++ [(i, sizedBody e.length b)] else l.bodies } ∧
      s.loadFailed l rf = false ∧
      bodyDigest dg (sizedBody e.length b) = e.digest ∧
      (sectionLimit e.type).isSome = true ∧
      bodyType (sizedBody e.length b) = some e.type) ∧
  (∃ (l : LoadRec) (s : State), s.cf.load = some l ∧
      l.verified = true ∧
      l.kind = 0 ∧
      s.get CFG.LOAD_STATUS.STATE 0 ≠ 3 ∧
      (s.cf.commits.any fun c => c.phase == .check || c.phase == .fence) = false) ∧
  (∃ (l : LoadRec) (s : State) (d : Nat), s.cf.load = some l ∧
      l.verified = true ∧
      l.kind = 0 ∧
      s.get CFG.LOAD_STATUS.STATE 0 ≠ 3 ∧
      (s.cf.commits.any fun c => c.phase == .check || c.phase == .fence) = false ∧
      d < 4) ∧
  (∃ (l : LoadRec) (s : State) (n : Nat), s.cf.load = some l ∧
      l.verified = true ∧
      l.kind = 0 ∧
      s.get CFG.LOAD_STATUS.STATE 0 ≠ 3 ∧
      (s.cf.commits.any fun c => c.phase == .check || c.phase == .fence) = false ∧
      n < 64) ∧
  (∃ (l : LoadRec) (s : State), s.cf.load = some l ∧
      s.fullApply = true) ∧
  (∃ (l : LoadRec) (s : State), s.cf.load = some l ∧
      l.verified = true ∧
      l.kind = 1 ∧
      s.get CFG.LOAD_STATUS.STATE 0 ≠ 3) ∧
  (∃ (l : LoadRec) (s : State), s.cf.load = some l ∧
      l.verified = true ∧
      l.kind = 1 ∧
      s.get CFG.LOAD_STATUS.STATE 0 ≠ 3 ∧
      (s.troupePlan l.troupe).any (·.doubleBuffer) = false ∧
      l.troupe < 64) ∧
  (∃ (l : LoadRec) (s : State), s.cf.load = some l ∧
      l.verified = true ∧
      l.kind = 1 ∧
      s.get CFG.LOAD_STATUS.STATE 0 ≠ 3 ∧
      (s.troupePlan l.troupe).any (·.doubleBuffer) = true ∧
      regRecords (l.bodies.map (·.2)) = []) :=
  ⟨
    ⟨1, wUp, by decide +kernel⟩,
    ⟨1, wUp, by decide +kernel⟩,
    ⟨13, wUp, by decide +kernel⟩,
    ⟨1, { wUp with cf := { load := some { source := 0, verifyOnly := false, list := false } } }, by decide +kernel⟩,
    ⟨2, wUp, by decide +kernel⟩,
    ⟨2, { wUp with cf := { load := some { source := 0, verifyOnly := false, list := false } } }, by decide +kernel⟩,
    ⟨2, wUp, by decide +kernel⟩,
    ⟨wImageHead, wImageSig, [], false, wLoad, wLoadState wLoad [], by decide +kernel⟩,
    ⟨wImageHead, wImageSig, [], false, wLoad, wLoadState wLoad [], 255, by decide +kernel⟩,
    ⟨wImageHead, [], [], false, wLoad, wLoadState wLoad [], 8, 255, by decide +kernel⟩,
    ⟨[], .note, false, wBodies [0], { (wBodies [0] : LoadRec) with toCome := [], bodies := [(0, .note)], bytes := 64 }, 0, [], wNote, wLoadState (wBodies [0]) [], by decide +kernel⟩,
    ⟨[1], .note, false, wBodies [0], { (wBodies [0] : LoadRec) with toCome := [], bodies := [(0, .note)], bytes := 64 }, 0, [], wNote, wLoadState (wBodies [0]) [], 15, 0, by decide +kernel⟩,
    ⟨[], .note, false, wBodies [0, 1], { (wBodies [0, 1] : LoadRec) with toCome := [1], bodies := [(0, .note)], bytes := 64 }, 0, [1], wNote, wLoadState (wBodies [0, 1]) [], by decide +kernel⟩,
    ⟨{ wLoad with verified := true }, wLoadState { wLoad with verified := true } [], by decide +kernel⟩,
    ⟨{ wLoad with verified := true }, wLoadState { wLoad with verified := true } [], 0, by decide +kernel⟩,
    ⟨{ wLoad with verified := true }, wLoadState { wLoad with verified := true } [], 0, by decide +kernel⟩,
    ⟨{ wLoad with verified := true }, wLoadState { wLoad with verified := true } [(CFG.LOAD_STATUS.STATE, 0, loadApply)], by decide +kernel⟩,
    ⟨{ wLoad with verified := true, kind := 1 }, wLoadState { wLoad with verified := true, kind := 1 } [], by decide +kernel⟩,
    ⟨{ wLoad with verified := true, kind := 1 }, wLoadState { wLoad with verified := true, kind := 1 } [], by decide +kernel⟩,
    ⟨{ wLoad with verified := true, kind := 1, troupe := 1 }, { wLoadState { wLoad with verified := true, kind := 1, troupe := 1 } [] with cf := { image := some { wImage with troupes := [{ troupe := 1, doubleBuffer := true }] }, load := some { wLoad with verified := true, kind := 1, troupe := 1 } } }, by decide +kernel⟩⟩

/-- The statements about the machine and its reset are met. -/
theorem witness_StepsAndReset :
    (∃ s : State, s.pending = [] ∧ s.pkg.hubUp = false) ∧
    (∃ (s t : State), s.wf ∧ step s = .next t) ∧
    (∃ (c : Instr) (s t : State), exec c s = .next t) ∧
    (∃ (s t : State), s.get TOP.IDENT.PART 0 = 0x2048 ∧ s.get TOP.IDENT.STEPPING 0 = 0x10 ∧ step s = .next t) :=
  ⟨⟨State.reset, rfl, by decide +kernel⟩, ⟨State.reset, State.reset.tick, by unfold State.wf; decide, rfl⟩, ⟨.mainPgFall, wUp, _, rfl⟩,
    ⟨State.reset, State.reset.tick, by decide +kernel, by decide +kernel, rfl⟩⟩

/-- The statement of offsets with no register is met, for both sizes. -/
theorem witness_HolesOfABlockReadZero :
    (∃ (fn : FnNo) (off : BarOffset) (size : Fin 65) (s : State), s.hostReach 0 true = true ∧ inBlocks fn off = true ∧
      s.target fn off = none ∧ size.val = 4 ∧ off.val % size.val = 0) ∧
    (∃ (fn : FnNo) (off : BarOffset) (size : Fin 65) (s : State), s.hostReach 0 true = true ∧ inBlocks fn off = true ∧
      s.target fn off = none ∧ size.val = 8 ∧ off.val % size.val = 0) ∧
    (∃ a : Nat, a < 2 ^ 25) :=
  ⟨⟨0, 0xFFFFC, 4, wUp, by decide +kernel⟩, ⟨0, 0xFFFF8, 8, wUp, by decide +kernel⟩, ⟨2 ^ 25 - 1, by decide +kernel⟩⟩

/-- The statements of commits and pairs are met, each clause. -/
theorem witness_CommitsAndPairs :
    (∃ (v : Word) (s : State), s.hostReach 0 true = true ∧ bitsOf v 0 1 = 1 ∧ s.fullApply = false ∧ s.commitBusy = false) ∧
    (∃ (fn : FnNo) (off : BarOffset) (size : Fin 65) (v : Word) (g : Target) (s t : State), s.hostReach 0 true = true ∧
      s.accessKind fn off size true v = 0 ∧ s.target fn off = some g ∧ s.present g = true ∧
      s.hostReach fn (State.openReg g) = true ∧
      s.rowWrite fn g (accessLanes off size) (s.merged g (accessLanes off size) ((accessLanes off size).place v)) = none ∧
      exec (.stagingWrite fn off size v) s = .next t) ∧
    (∃ (fn : FnNo) (off : BarOffset) (size : Fin 65) (v : Word) (g : Target) (f : Fld) (p : PairField) (s : State),
      s.hostReach 0 true = true ∧ s.accessKind fn off size true v = 0 ∧ s.target fn off = some g ∧ s.present g = true ∧
      s.hostReach fn (State.openReg g) = true ∧
      s.rowWrite fn g (accessLanes off size) (s.merged g (accessLanes off size) ((accessLanes off size).place v)) = none ∧
      g.reg.fields.filter (fun f => s.isPaired g f && (accessLanes off size).takes f) = [f] ∧
      s.partner ⟨g.reg, g.idx, f.lo, f.width⟩ = some p ∧
      (bitsOf ((accessLanes off size).place v) f.lo f.width ≠ s.get f g.idx ∨
        (g.reg.fields.filter fun f => s.isPaired g f).length = 1) ∧
      s.cf.latches.find? (fun l => l.isOn ⟨g.reg, g.idx, f.lo, f.width⟩ || l.isOn p) = none ∧
      (s.cf.latches.filter fun l => l.fn == fn.val).length < 4) ∧
    (∃ (fn : FnNo) (off : BarOffset) (size : Fin 65) (v : Word) (g : Target) (f : Fld) (p : PairField) (l : PairLatch)
        (s : State),
      s.hostReach 0 true = true ∧ s.accessKind fn off size true v = 0 ∧ s.target fn off = some g ∧ s.present g = true ∧
      s.hostReach fn (State.openReg g) = true ∧
      s.rowWrite fn g (accessLanes off size) (s.merged g (accessLanes off size) ((accessLanes off size).place v)) = none ∧
      g.reg.fields.filter (fun f => s.isPaired g f && (accessLanes off size).takes f) = [f] ∧
      s.partner ⟨g.reg, g.idx, f.lo, f.width⟩ = some p ∧
      (bitsOf ((accessLanes off size).place v) f.lo f.width ≠ s.get f g.idx ∨
        (g.reg.fields.filter fun f => s.isPaired g f).length = 1) ∧
      s.cf.latches.find? (fun l => l.isOn ⟨g.reg, g.idx, f.lo, f.width⟩ || l.isOn p) = some l ∧ l.fn = fn.val ∧
      l.isOn ⟨g.reg, g.idx, f.lo, f.width⟩ = true) ∧
    (∃ (s : State) (l : PairLatch), l ∈ s.cf.latches ∧ l.at_ + msTicks ≤ s.now) ∧
    (∃ f : Fld, f ∈ f.reg.fields ∧ f.acc = .rwp) ∧
    (∃ f : Fld, f ∈ f.reg.fields ∧ f.reg = .PIPE_PROG_REG) ∧
    (∃ s t : State, exec .commitFence s = .next t) :=
  ⟨⟨1, wUp, by decide +kernel⟩,
    ⟨0, 50332672, 8, 5, ⟨.PIPE_HASH_SEED, 0, 0⟩, wUp, _, by decide +kernel, by decide +kernel, by decide +kernel, by decide +kernel, by decide +kernel, by decide +kernel, rfl⟩,
    ⟨0, 0x5100000, 4, 7, ⟨.POL_CFG, 0, 0⟩, POL.CFG.RATE_KBPS, ⟨.POL_CFG, 0, 32, 24⟩, wUp, by decide +kernel⟩,
    ⟨0, 0x5100004, 4, 7, ⟨.POL_CFG, 0, 4⟩, POL.CFG.CBS_BYTES, ⟨.POL_CFG, 0, 0, 32⟩, wLatch,
      { wUp with cf := { latches := [wLatch] } }, by decide +kernel⟩,
    ⟨{ wUp with cf := { latches := [wLatch] } }, wLatch, by decide +kernel⟩, ⟨POL.CFG.CBS_BYTES, by decide +kernel⟩,
    ⟨PIPE.PROG_REG.VALUE, by decide +kernel⟩, ⟨wUp, _, rfl⟩⟩

/-- The statements of resets are met, each clause. -/
theorem witness_Resets :
    (∃ s : State, s.pkg.keep = true ∧ s.pkg.mainPg = false) ∧
    (∃ (n : Nat) (s : State), usTicks ≤ n ∧ s.pkg.sysResetN = true ∧ s.pkg.mainPg = true) ∧
    (∃ (v : Word) (s : State), s.hostReach 0 true = true ∧ s.pkg.mainPg = true ∧ bitsOf v 0 1 = 1 ∧ bitsOf v 16 16 = 0x2048) ∧
    (∃ s t : State, exec .mainPgFall s = .next t) ∧
    (∃ fn : FnNo, fn.val ≠ 0) ∧ (∃ v : Word, bitsOf v 0 1 ≠ 1) ∧ (∃ v : Word, bitsOf v 16 16 ≠ 0x2048) ∧
    (∃ (fn : FnNo) (off : BarOffset) (size : Fin 65) (v : Word) (g : Target) (s : State), s.hostReach 0 true = true ∧
      s.accessKind fn off size true v = 0 ∧ s.target fn off = some g ∧ g.reg = .TOP_RESET_CTRL ∧ accessLanes off size ≠ .all) :=
  ⟨⟨{ wUp with pkg := { keep := true } }, by decide +kernel⟩, ⟨2000, wUp, by decide +kernel⟩, ⟨0x20480001, wUp, by decide +kernel⟩,
    ⟨wUp, _, rfl⟩, ⟨1, by decide +kernel⟩, ⟨0, by decide +kernel⟩, ⟨0, by decide +kernel⟩,
    ⟨0, 0x30, 4, 0x20480001, ⟨.TOP_RESET_CTRL, 0, 0⟩, wUp, by decide +kernel⟩⟩

/-- The frames are met: each covers commands that answer a next state. -/
theorem witness_Frames :
    (∃ (c : Instr) (s t : State), family c ∈ [Family.links, .lanes, .mac, .ports, .transmit] ∧ exec c s = .next t) ∧
    (∃ (c : Instr) (s t : State), family c ∈ [Family.modules] ∧ exec c s = .next t) ∧
    (∃ (c : Instr) (s t : State), family c ∈ [Family.pipes, .hub, .sched] ∧ exec c s = .next t) ∧
    (∃ (c : Instr) (s t : State), family c ∈ [Family.tables, .learning, .bus] ∧ exec c s = .next t) ∧
    (∃ (c : Instr) (s t : State), family c ∈ [Family.deepMemory, .telemetry] ∧ exec c s = .next t) ∧
    (∃ (c : Instr) (s t : State), family c ∈ [Family.time, .power] ∧ exec c s = .next t) ∧
    (∃ (c : Instr) (s t : State), family c ∈ [Family.troupes, .rings, .commits, .loads] ∧ exec c s = .next t) ∧
    (∃ (c : Instr) (s t : State), family c ∈ [Family.wardens, .blackBox, .identity, .firmware, .package] ∧
      exec c s = .next t) :=
  ⟨⟨.macControlIgnored 0, wPort [] {}, _, by decide +kernel, rfl⟩, ⟨.moduleInterrupt 0, wCage cageActive [] { intDue := true }, _, by decide +kernel, rfl⟩,
    ⟨.mcSync 1, wUp, _, by decide +kernel, rfl⟩, ⟨.tableOpDone 0, wWith [(TBL.CMD_CTRL.BUSY, 0, 1)], _, by decide +kernel, rfl⟩,
    ⟨.dropInterval 0, wUp, _, by decide +kernel, rfl⟩, ⟨.refLost, wUp, _, by decide +kernel, rfl⟩, ⟨.commit 1, wUp, _, by decide +kernel, rfl⟩,
    ⟨.mailboxDoorbell 1, wUp, _, by decide +kernel, rfl⟩⟩

/-- The statements of single bytes and of register writes are met, each clause. -/
theorem witness_Bytes :
    (∃ (fn : FnNo) (off : BarOffset) (size : Fin 65) (v : Word) (g : Target) (s t : State),
      s.hostReach 0 true = true ∧ s.accessKind fn off size true v = 0 ∧ s.target fn off = some g ∧ s.present g = true ∧
      s.hostReach fn (State.openReg g) = true ∧
      s.rowWrite fn g (accessLanes off size) (s.merged g (accessLanes off size) ((accessLanes off size).place v)) = none ∧
      g.reg.fields.filter (fun f => s.isPaired g f && (accessLanes off size).takes f) = [] ∧
      exec (.registerWrite fn off size v) s = .next t) ∧
    (∃ (fn : FnNo) (off : BarOffset) (size : Fin 65) (w : Bool) (v : Word) (s t : State),
      exec (.improperAccess fn off size w v) s = .next t) ∧
    (∃ (p : PipeNo) (k arrived : Nat) (rivals : List (Fin 18)) (s t : State) (a : Nat),
      exec (.segmentWrite p k arrived rivals) s = .next t ∧
      ∀ v x u, (s.arrive k arrived).packet k = some v →
        ((s.arrive k arrived).sendTransfer (pipeDie p)).requestSegment p v.troupe v.nextSegment 0 false rivals = (.cell x, u) →
        ¬(s.cellBase x ≤ a ∧ a < s.cellBase x + v.nextSegment)) ∧
    (∃ (chain : List TxDesc) (s t : State), exec (.cells chain) s = .next t) ∧
    (∃ (s t : State) (q k n off : Nat) (c : Copy) (d : Desc) (a : Nat), s.captureNext = some (q, k, c) ∧ s.desc k = some d ∧
      n = 32 + (min d.len s.capBytes + 31) / 32 * 32 ∧ off = s.get HBM.CAPTURE_STATUS.WRITE_OFF 0 ∧
      exec .captureWrite s = .next t ∧ n ≤ s.captureSize - off ∧ ¬(off ≤ a ∧ a < off + n)) ∧
    (∃ (k : Fin 2) (s t : State), s.ledgerStacks.contains k.val = false ∧ exec (.stackTrainingEnd k true 0) s = .next t) ∧
    (∃ (k : Fin 2) (s t : State), s.ledgerStacks.contains k.val = false ∧ exec (.stackFail k) s = .next t) :=
  ⟨⟨0, 0x18, 8, 5, ⟨.TOP_READY_INT_EN, 0, 0⟩, wUp, _, by decide +kernel, by decide +kernel, by decide +kernel, by decide +kernel, by decide +kernel, by decide +kernel,
      by decide +kernel, rfl⟩,
    ⟨0, 2, 4, false, 0, wUp, _, rfl⟩,
    ⟨0, 5, 64, [], wSeg, _, 2 ^ 40, rfl, fun v x u h hu => by
      have e : (wSeg.arrive 5 64).packet 5 = some wStored := by decide +kernel
      have g : (((wSeg.arrive 5 64).sendTransfer (pipeDie 0)).requestSegment 0 wStored.troupe wStored.nextSegment 0 false []).1
          = .cell (2 ^ 24) := by decide +kernel
      rw [e] at h
      cases h
      erw [hu] at g
      cases g
      decide +kernel⟩,
    ⟨[wTxCells], wUp, _, rfl⟩,
    ⟨wCapture, _, 0, 3, 32, 0, wCopy, { wDesc with complete := true }, 64, by decide +kernel, by decide +kernel, by decide +kernel,
      by decide +kernel, rfl, by decide +kernel, by decide +kernel⟩,
    ⟨0, wUp, _, by decide +kernel, rfl⟩, ⟨0, wUp, _, by decide +kernel, rfl⟩⟩

/-- CAPTURE_WRITE answers a next state. -/
theorem captureWrite_next (s : State) : ∃ t, exec .captureWrite s = .next t := by
  show ∃ t, execCaptureWrite s = .next t
  unfold execCaptureWrite
  dsimp only
  repeat' first | exact ⟨_, rfl⟩ | split

/-- The clauses about what the bytes depend on are met as well. -/
theorem witness_BytesElsewhere :
    (∃ (s t : State) (a : Nat), exec (.fill [wTxFill] none) s = .next t ∧
      ∀ r d ds x, (rotated s.hif.lastTx s.txWaiting).head? = some r → txChain (List.take (s.ringFill .tx r) [wTxFill]) = d :: ds →
        (d.cells.map (·.1.val)).head? = some x → ¬(s.cellBase x ≤ a ∧ a < s.cellBase x + d.len.val)) ∧
    (∃ (c : Instr) (s t : State) (a : Nat), (∃ rivals, c = .refill rivals) ∧ exec c s = .next t ∧
      ∀ x, s.cellTaken x = false → s.cellExists x = true → ¬(s.cellBase x ≤ a ∧ a < s.cellBase x + poolBytes (cellPool x))) ∧
    (∃ (s t : State) (q k n off : Nat) (c : Copy) (d : Desc) (a : Nat), s.captureNext = some (q, k, c) ∧ s.desc k = some d ∧
      n = 32 + (min d.len s.capBytes + 31) / 32 * 32 ∧ off = s.get HBM.CAPTURE_STATUS.WRITE_OFF 0 ∧
      exec .captureWrite s = .next t ∧ s.captureSize - off < n ∧ off < s.captureSize ∧ ¬(off ≤ a ∧ a < s.captureSize) ∧ ¬a < n) ∧
    (∃ (s t : State) (q k n off : Nat) (c : Copy) (d : Desc) (a : Nat), s.captureNext = some (q, k, c) ∧ s.desc k = some d ∧
      n = 32 + (min d.len s.capBytes + 31) / 32 * 32 ∧ off = s.get HBM.CAPTURE_STATUS.WRITE_OFF 0 ∧
      exec .captureWrite s = .next t ∧ s.captureSize - off < n ∧ s.captureSize ≤ off ∧ ¬(off ≤ a ∧ a < off + n)) :=
  ⟨⟨wUp, _, 0, rfl, fun r d ds x h => by
      have e : (rotated wUp.hif.lastTx wUp.txWaiting).head? = none := by decide +kernel
      rw [e] at h; cases h⟩,
    ⟨.refill [], wUp, _, 0, ⟨[], rfl⟩, rfl, fun x _ h => by
      have e : wUp.image.bodySteps = 0 := by decide
      unfold State.cellExists State.poolCells at h
      rw [e] at h
      split at h <;> simp at h⟩,
    by
      obtain ⟨t, h⟩ := captureWrite_next (wCapture.set HBM.CAPTURE_STATUS.WRITE_OFF 0 999999984)
      exact ⟨_, t, 0, 3, 32, 999999984, wCopy, { wDesc with complete := true }, 64, by decide +kernel, by decide +kernel,
        by decide +kernel, by decide +kernel, h, by decide +kernel, by decide +kernel, by decide +kernel, by decide +kernel⟩,
    by
      obtain ⟨t, h⟩ := captureWrite_next (wCapture.set HBM.CAPTURE_STATUS.WRITE_OFF 0 (2 ^ 32 - 1))
      exact ⟨_, t, 0, 3, 32, 2 ^ 32 - 1, wCopy, { wDesc with complete := true }, 64, by decide +kernel, by decide +kernel,
        by decide +kernel, by decide +kernel, h, by decide +kernel, by decide +kernel, by decide +kernel⟩⟩

/-! ## Ill-formed commands, one for each check, and a well-formed one beside it -/

theorem test_wf_access_beyond_bar : Instr.wf (.improperAccess 1 0x1FFFFF 4 false 0) = false := by decide
theorem test_wf_unaligned_write : Instr.wf (.registerWrite 0 0x12 4 0) = false ∧ Instr.wf (.registerWrite 0 0x14 4 0) = true := by decide
theorem test_wf_odd_size : Instr.wf (.stagingWrite 0 0x10 2 0) = false ∧ Instr.wf (.pairedWrite 0 0x10 16 0) = false := by decide
theorem test_wf_unaligned_read : Instr.wf (.clearOnRead 0 0x104 8) = false := by decide
theorem test_wf_frame_start : Instr.wf (.rxFrameStart 0 [1, 2] 3 0) = false ∧ Instr.wf (.rxFrameStart 0 [] 0 0) = false := by decide
theorem test_wf_frame_end : Instr.wf (.rxFrameEnd 0 { pcsError := false, lost := true, length := 0 }) = false := by decide
theorem test_wf_codeword : Instr.wf (.rxCodeword 0 { levels := [(0, 1)] }) = false ∧
    Instr.wf (.rxCodeword 0 { symbols := List.replicate 545 0 }) = false ∧
    Instr.wf (.rxCodeword 0 { symbols := List.replicate 544 0 }) = true := by decide +kernel
theorem test_wf_pfc_times : Instr.wf (.pfcRx 0 0xFF [1]) = false ∧
    Instr.wf (.pfcRx 0 0xFF [65536, 0, 0, 0, 0, 0, 0, 0]) = false := by decide
theorem test_wf_sideband : Instr.wf (.sidebandFrame 0 (List.replicate 31 0) 0) = false := by decide
theorem test_wf_module : Instr.wf (.cageIdentifyDone 0 wModule) = false := by decide
theorem test_wf_life : Instr.wf (.lifeSample 0 0 (List.replicate 9 0) none) = false := by decide
theorem test_wf_module_bytes : Instr.wf (.modCmdDone .ok (List.replicate 9 0)) = false := by decide
theorem test_wf_domains : Instr.wf (.cadenceWindow [1] 0) = false ∧ Instr.wf (.governorReady [1]) = false := by decide
theorem test_wf_sensors : Instr.wf (.thermalSample [0]) = false ∧ Instr.wf (.pmbusMeasure []) = false := by decide
theorem test_wf_advisory : Instr.wf (.advisoryRx 0 []) = false := by decide
theorem test_wf_rings : Instr.wf (.ringEnable 0 .rpt 32 1) = false ∧ Instr.wf (.ringDoorbell 0 .tx 0 (some 1) 0) = false ∧
    Instr.wf (.interruptCoalesce .tlm 64) = false := by decide
theorem test_wf_descriptors :
    Instr.wf (.copy [{ wTxFill with cells := [(0, true), (1, true), (2, true), (3, true)] }] none) = false ∧
    Instr.wf (.fill [{ wTxFill with cells := [(0, true), (1, true), (2, true), (3, true)] }] none) = false ∧
    Instr.wf (.cells [{ wTxFill with cells := [(0, true), (1, true), (2, true), (3, true)] }]) = false := by decide
theorem test_wf_nonces : Instr.wf (.challenge 0 0 []) = false ∧ Instr.wf (.getMeasurements 0 0 [] true) = false ∧
    Instr.wf (.keeperGetSeal 0 0 []) = false := by decide
theorem test_wf_digest : Instr.wf (.sectionBodyCheck [] .note true) = false := by decide
theorem test_wf_taps : Instr.wf (.adaptDone 0 ⟨0, [], 0⟩) = false := by decide

/-! ## Functions against published check values: the CRCs of the nine digits, and SHA-384 of "abc" (FIPS 180-4) -/

def wDigits : List Byte := [0x31, 0x32, 0x33, 0x34, 0x35, 0x36, 0x37, 0x38, 0x39]

theorem test_crc32 : crc32 0xFFFFFFFF wDigits = 0xCBF43926 := by decide +kernel
theorem test_crc32c : crc32c 0xFFFFFFFF wDigits = 0xE3069283 := by decide +kernel
theorem test_crc16 : crc16 0xFFFF wDigits = 0x29B1 := by decide +kernel
theorem test_crc64 : crc64 wDigits = 0x6C40DF5F0B497347 := by decide +kernel
theorem test_sha384 : ofLe (sha384 [0x61, 0x62, 0x63]).reverse =
    0xcb00753f45a35e8bb5a03d699ac65007272c32ab0eded1631a8b605a43ff5bed8086072ba1e7cc2358baeca134c825a7 := by decide +kernel

/-- The signature of "sample" with SHA-384 on P-384 (RFC 6979, A.2.6), and the same over "samplf". -/
theorem test_ecdsa :
    let key := 4 :: wBe 0xEC3A4E415B4E19A4568618029F427FA5DA9A8BC4AE92E02E06AAE5286B300C64DEF8F0EA9055866064A254515480BC13 48 ++
      wBe 0x8015D9B72D7D57244EA8EF9AC0C621896708A59367F9DFB9F54CA84B3F1C9DB1288B231C3AE0D4FE7344FD2533264720 48
    let r := 0x94EDBB92A5ECB8AAD4736E56C691916B3F88140666CE9FA73D64C4EA95AD133C81A648152E44ACF96E36DD1E80FABE46
    let s := 0x99EF4AEB15F178CEA1FE40DB2603138F130E740A19624526203B6351D0A3A94FA329C145786E679E7B82C71A38628AC8
    ecdsaValid key [0x73, 0x61, 0x6D, 0x70, 0x6C, 0x65] r s = true ∧ ecdsaValid key [0x73, 0x61, 0x6D, 0x70, 0x6C, 0x66] r s = false := by
  decide +kernel
/-- RS(528,514) corrects 7 symbols and not 8 (R143). -/
theorem test_rs : rsDecode 14 (List.replicate 7 3 ++ List.replicate 521 0) = some 7 ∧
    rsDecode 14 (List.replicate 8 3 ++ List.replicate 520 0) = none := by decide +kernel

/-! ## The spec's worked examples -/

/-- Port 264: ingress pipe 8 (R4), octet 33, on module bus 4 and chain 1 (chapter 5). -/
theorem test_port_264 : portPipe 264 = 8 ∧ 264 / 8 = 33 ∧ cageBus 33 = 4 ∧ cageChain 33 = 1 := by decide
/-- Queue 541,061 is of port 264, class group 3 (chapter 1). -/
theorem test_queue_id : queuePort 541061 = 264 ∧ queueCg 541061 = 16 * 264 + 3 := by decide
/-- A latency of 652 ns shifted by 3 falls into bin 25 (R412). -/
theorem test_histogram_bin : histBin (652 >>> 3) = 25 := by decide +kernel
/-- The rows 64 B, 65 B, 257 B and 320 B of the table of R308. -/
theorem test_segments : segmentLens 257 = [256, 1] ∧ segmentLens 320 = [256, 64] ∧ unitsOf 64 = 1 ∧ unitsOf 65 = 4 ∧
    unitsOf 257 = 5 ∧ unitsOf 320 = 5 := by decide
/-- A frame of 1,500 B costs weights 3 and 1 what the example says (R341). -/
theorem test_wfq_cost : wfqCost 1520 3 = 33204906 ∧ wfqCost 1520 1 = 99614720 := by decide
/-- The policer of the example: 250 B in 200 ns, and 1,250 B do not pay for 1,500 B (R281). -/
theorem test_policer :
    let s := { wSet [(POL.CFG.RATE_KBPS, 70000, 10000000), (POL.CFG.CBS_BYTES, 70000, 65536), (POL.CFG.ENABLE, 70000, 1)]
        State.reset with now := 400, sw := { policers := [(70000, { tok := 1000 * byteTok, last := 0 })] } }
    (s.police 70000 1500).1 = false ∧ ((s.police 70000 1500).2.policer 70000).tok.toNat = 1250 * byteTok := by decide +kernel

/-! ## Single steps -/

/-- The identity reads 0x2048, stepping 0x10 (R1). -/
theorem test_ident : State.reset.get TOP.IDENT.PART 0 = 0x2048 ∧ State.reset.get TOP.IDENT.STEPPING 0 = 0x10 := by decide
/-- A field of the state that a step answers, for tests. -/
def wAfter {α : Type} (c : Instr) (s : State) (f : State → α) : Option α :=
  match step { s with pending := [c] } with
  | .next t => some (f t)
  | _ => none

/-- A 2-byte read is improper: it reads all ones and is counted, and the queue moves on (R13). -/
theorem test_improper_read :
    wAfter (.improperAccess 0 2 2 false 0) wUp (fun t => (t.get HIF.BAD_ACCESS.COUNT 0, t.out.head?, t.pending)) =
      some (1, some (.readData 0 2 2 0xFFFF), []) := by decide +kernel
/-- A 32-bit write of the upper half of a register leaves the lower half (R12). -/
theorem test_half_write :
    wAfter (.registerWrite 0 0x18 4 0) (wWith [(TOP.READY_INT_EN.EN, 0, 7)]) (fun t => t.get TOP.READY_INT_EN.EN 0) = some 0 ∧
    wAfter (.registerWrite 0 0x1C 4 0) (wWith [(TOP.READY_INT_EN.EN, 0, 7)]) (fun t => t.get TOP.READY_INT_EN.EN 0) = some 7 := by
  decide +kernel
/-- A write of ones to W1C bits clears those bits alone (R16). -/
theorem test_w1c :
    wAfter (.registerWrite 0 0x10 8 5) (wWith [(TOP.READY_CHANGE.CHANGED, 0, 7)]) (fun t => t.get TOP.READY_CHANGE.CHANGED 0) =
      some 2 := by decide +kernel
/-- A read of a clear-on-read counter answers it and clears it (R16). -/
theorem test_clear_on_read :
    wAfter (.clearOnRead 0 0x100 8) (wWith [(TOP.MON_READING.TRIPS, 0, 3)])
      (fun t => (t.get TOP.MON_READING.TRIPS 0, t.out.head?)) = some (0, some (.readData 0 0x100 8 (3 * 2 ^ 32))) := by decide +kernel
/-- Half of a pair waits for the other, then both take effect (R90, R94). -/
theorem test_pair :
    wAfter (.pairedWrite 0 0x7050020 4 7) (wPort [] {}) (fun t => (t.get QM.PORT_SHAPER.RATE_KBPS 0, t.cf.latches.length)) =
      some (0, 1) ∧
    wAfter (.pairedWrite 0 0x7050020 4 7)
      { wPort [] {} with cf := { (wPort [] {}).cf with
          latches := [{ wLatch with reg := Reg.QM_PORT_SHAPER.ctorIdx, offset := 0x7050024 }] } }
      (fun t => (t.get QM.PORT_SHAPER.RATE_KBPS 0, t.get QM.PORT_SHAPER.BURST_BYTES 0, t.cf.latches)) = some (7, 5, []) := by
  decide +kernel
/-- A policer's pair is whole at once, and is in force from the next launch on (R286). -/
theorem test_policer_pair :
    wAfter (.pairedWrite 0 0x5100000 4 7) { wUp with cf := { latches := [wLatch] } }
      (fun t => (t.get POL.CFG.RATE_KBPS 0, t.cf.latches)) = some (0, []) := by decide +kernel
/-- With nothing waiting a step is a tick: 0.5 ns of raw time (R371). -/
theorem test_tick : (match step wUp with | .next t => t.now | _ => 0) = 10 ^ 15 + 1 := by decide +kernel
/-- LINK_DOWN after its debounce clears LINK_UP (R161). -/
theorem test_link_down :
    wAfter (.linkDown 0) (wPort [] { faultSince := some 5 }) (fun t => t.get PORT.STATUS.LINK_UP 0) = some 0 := by decide +kernel
/-- A frame with a wrong FCS is counted as such (R146). -/
theorem test_bad_fcs : rxCheck { pcsError := false, lost := false } (List.replicate 64 0) 1518 = some (cntRxFcsErr, dropFcs) ∧
    rxCheck { pcsError := false, lost := false } (List.replicate 63 0) 1518 = some (cntRxTooShort, dropTooShort) := by decide +kernel
/-- INSERT writes the key, and DELETE of a key that is there removes it (R237, R239). -/
theorem test_insert_delete :
    wAfter (.insert 0 0) (wTable wExact [] {}) (fun t => t.get TBL.CMD_CTRL.BUSY 0) = some 1 ∧
    wAfter (.delete 0 0) (wTable wExact [] wHit) (fun t => ((t.table 0).twin 0).stash) = some [] := by decide +kernel
/-- RESIGN takes the active warden out of service, and the other goes on (chapter 16). -/
theorem test_resign :
    wAfter (.resign 0x2048000C) (wWardens wActive wStandby [] {}) (fun t => (t.wst 0, t.wst 1)) = some (wResigned, wActive) := by
  decide +kernel
/-- A device reset is counted with cause 4 (R109). -/
theorem test_device_reset :
    wAfter (.resetCtrlWrite 0 0x20480001) wUp (fun t => (t.get TOP.BOOT_INFO.LAST_RESET 0, t.get TOP.BOOT_INFO.BOOT_COUNT 0)) =
      some (4, 1) := by decide +kernel
/-- An undefined JTAG code selects BYPASS (chapter 18). -/
theorem test_bypass : wAfter (.bypass 0xFF) wUp (fun t => t.pkg.jtagIr) = some 0xFF := by decide +kernel

end Sys2Proof.Tests
end

section
/-!
SUPPORT. Accesses to offsets of a block that hold no register (R14), and the statement about them.
-/

namespace Sys2Proof.Machine

/-- An aligned access of four or eight bytes at an offset of a block that holds no register passes every check of R13. -/
theorem State.accessKind_hole {s : State} {fn off size : Nat} {write : Bool} {value : Word} (hb : inBlocks fn off = true)
    (ht : s.target fn off = none) (hs : size = 4 ∨ size = 8) (ha : off % size = 0) :
    s.accessKind fn off size write value = 0 := by
  rcases hs with rfl | rfl <;> simp [State.accessKind, ha, hb, ht]

theorem State.busWrite_hole {s : State} {fn : FnNo} {off size : Nat} {value : Word}
    (hk : s.accessKind fn.val off size true value = 0) (ht : s.target fn.val off = none) :
    s.busWrite fn off size value = s := by
  simp [State.busWrite, hk, ht]

theorem State.busRead_hole {s : State} {fn : FnNo} {off size : Nat} (hr : s.hostReach 0 true = true)
    (hk : s.accessKind fn.val off size false 0 = 0) (ht : s.target fn.val off = none) :
    s.busRead fn off size = s.returns fn.val off size 0 := by
  simp only [State.busRead, hr, hk, ht, Bool.not_true, Bool.false_eq_true, if_false]

end Sys2Proof.Machine

section
open Sys2Proof Sys2Proof.Machine

/-- Settles O9: no check of R13 fails at the offset, so with no register there a write ends at once and a read answers 0. -/
theorem holesOfABlockReadZero : Obligations.HolesOfABlockReadZero := by
  unfold Obligations.HolesOfABlockReadZero
  intro fn off size v s hr hb ht hs ha
  have hw : s.accessKind fn off size true v = 0 := State.accessKind_hole hb ht hs ha
  have hk : s.accessKind fn off size false 0 = 0 := State.accessKind_hole hb ht hs ha
  refine ⟨hw, hk, ?_, ?_⟩
  · exact congrArg Host.Outcome.next (State.busWrite_hole hw ht)
  · exact congrArg Host.Outcome.next (State.busRead_hole hr hk ht)

end
end

section
/-!
SUPPORT. `Touches` with the mask of everything but TOP.IDENT (R1), for the operations whose own mask names every register:
they write registers by their access codes, and TOP.IDENT has none but RO fields.
-/

namespace Sys2Proof.Machine

/-! ## Either branch of a choice -/

theorem Touches.ite {m : Nat} {s0 a b : State} {c : Prop} [Decidable c] (ha : Touches m s0 a) (hb : Touches m s0 b) :
    Touches m s0 (if c then a else b) := by
  split
  · exact ha
  · exact hb

theorem Ends.ite {m : Nat} {s0 : State} {a b : Answer} {c : Prop} [Decidable c] (ha : Ends m s0 a) (hb : Ends m s0 b) :
    Ends m s0 (if c then a else b) := by
  split
  · exact ha
  · exact hb

theorem TouchesSome.ite {m : Nat} {s0 : State} {a b : Option State} {c : Prop} [Decidable c] (ha : TouchesSome m s0 a)
    (hb : TouchesSome m s0 b) : TouchesSome m s0 (if c then a else b) := by
  split
  · exact ha
  · exact hb

/-! ## Fields and their registers -/

theorem Reg.fields_all_reg (r : Reg) : r.fields.all (fun f => f.reg == r) = true := by cases r <;> rfl

theorem Reg.reg_of_mem_fields {r : Reg} {f : Fld} (h : f ∈ r.fields) : f.reg = r := by
  simpa using List.all_eq_true.mp (Reg.fields_all_reg r) f h

theorem acc_of_mem_ident_fields {f : Fld} (h : f ∈ Reg.TOP_IDENT.fields) : f.acc = .ro := by
  have key : Reg.TOP_IDENT.fields.all (fun f => f.acc == .ro) = true := rfl
  simpa using List.all_eq_true.mp key f h

/-- A field of another access code than RO is not of TOP.IDENT (R16). -/
theorem reg_ne_ident_of_mem_fields {r : Reg} {f : Fld} (h : f ∈ r.fields) (ha : f.acc ≠ .ro) : f.reg ≠ .TOP_IDENT := by
  have hr := Reg.reg_of_mem_fields h
  rintro e
  exact ha (acc_of_mem_ident_fields (by rwa [← hr, e] at h))

/-! ## All but TOP.IDENT -/

/-- Every part of the state but the register TOP.IDENT, as a mask of `Touches`. -/
def notIdent : Nat := 0x3FFFFFFFFFFFFFFFFFFFFFFFFFFFFFFFFFFFFFFFFFFFFFFFFFFFFFFFFFFFFFFFFFFFFFFFFFFFFFFFFFFBFFFFFFFFFFF

theorem ident_or_testBit_notIdent (r : Reg) : (r == .TOP_IDENT || notIdent.testBit r.bit) = true := by cases r <;> rfl

theorem testBit_notIdent {r : Reg} (h : r ≠ .TOP_IDENT) : notIdent.testBit r.bit = true := by
  simpa [h] using ident_or_testBit_notIdent r

theorem eq_ident_of_testBit {r : Reg} (h : notIdent.testBit r.bit = false) : r = .TOP_IDENT := by
  refine Decidable.byContradiction fun hr => ?_
  rw [testBit_notIdent hr] at h
  cases h

/-! ## Table commands (R228, R257 to R260) -/

theorem State.opWriteAt_leavesIdent {s0 s : State} {b t : Nat} {p : TablePlan} {w : Nat} (h : Touches notIdent s0 s) :
    Touches notIdent s0 (s.opWriteAt b t p w).1 := by
  unfold State.opWriteAt
  extract_lets i
  split
  · exact h
  · exact State.refreshTable_touches rfl (State.putTable_touches rfl h)

theorem State.opRun_leavesIdent {s0 s : State} {op b t : Nat} {p : TablePlan} {w : Nat} (h : Touches notIdent s0 s) :
    Touches notIdent s0 (s.opRun op b t p w).1 := by
  unfold State.opRun
  split
  · exact State.opLookup_touches rfl h
  · exact State.opRead_touches rfl h
  · exact State.opInsert_touches rfl h
  · exact State.opUpdate_touches rfl h
  · exact State.opUpsert_touches rfl h
  · exact State.opDelete_touches rfl h
  · exact State.opWriteAt_leavesIdent h
  · exact State.opClearAt_touches rfl h
  · exact State.opMove_touches rfl h
  · exact State.opLpmAdd_touches rfl h
  · exact State.opLpmDelete_touches rfl h
  · exact State.opUnpin_touches rfl h
  · exact State.opClearTable_touches rfl h
  · exact h

theorem State.opStart_leavesIdent {s0 s : State} {b : Nat} (h : Touches notIdent s0 s) :
    Touches notIdent s0 (s.opStart b) := by
  unfold State.opStart
  extract_lets op t sel
  split
  · exact State.cmdFinish_touches rfl h
  · exact State.cmdFinish_touches rfl h
  · exact Touches.upd_tb rfl (State.cmdFinish_touches rfl (State.opRun_leavesIdent h))

theorem State.cmdGo_leavesIdent {s0 s : State} {b op : Nat} {v : Word} (h : Touches notIdent s0 s) :
    Touches notIdent s0 (s.cmdGo b op v) := by
  unfold State.cmdGo
  split
  · exact Touches.set rfl h
  · extract_lets t sel s1 s2 s3 s4 s5 s6 s7
    have h5 : Touches notIdent s0 s5 := Touches.set rfl (Touches.set rfl (Touches.set rfl (Touches.set rfl (Touches.set rfl h))))
    have h7 : Touches notIdent s0 s7 := Touches.set rfl (Touches.ite (Touches.set rfl h5) h5)
    exact Touches.ite (Touches.upd_tb rfl h7) (State.opStart_leavesIdent h7)

/-- The commands of a block, LOOKUP to CLEAR_TABLE, are one operation each. -/
theorem State.cmdGo_ends {s : State} {b op : Nat} {v : Word} {c : Prop} [Decidable c] :
    Ends notIdent s (if c then .next s else .next (s.cmdGo b op v)) := by
  split
  · exact Ends.next (Touches.refl _ s)
  · exact Ends.next (State.cmdGo_leavesIdent (Touches.refl _ s))

theorem State.opNext_leavesIdent {s0 s : State} {t : Nat} (h : Touches notIdent s0 s) :
    Touches notIdent s0 (s.opNext t) := by
  unfold State.opNext
  split
  · exact h
  · split
    · exact h
    · exact State.opStart_leavesIdent (Touches.upd_tb rfl h)

theorem execTableOpDone_leavesIdent {block : Fin 32} {s : State} : Ends notIdent s (execTableOpDone block s) := by
  have h0 := Touches.refl notIdent s
  unfold execTableOpDone
  extract_lets b
  split
  · exact Ends.next h0
  · split
    · exact Ends.next (State.opNext_leavesIdent (State.opEnd_touches rfl h0))
    · exact Ends.next (State.opNext_leavesIdent (State.opEnd_touches rfl (State.refreshTable_touches rfl
        (Touches.upd_tb rfl (State.opSteps_touches rfl h0)))))

theorem State.writeCmdCtrl_leavesIdent {s0 s : State} {b : Fin 32} {v : Word} (h : Touches notIdent s0 s) :
    Touches notIdent s0 (s.writeCmdCtrl b v) := by
  have go : ∀ {op : Nat} {c : Prop} [Decidable c],
      Touches notIdent s0 (answered s (if c then .next s else .next (s.cmdGo b op v))) := fun {op c _} =>
    Touches.step (answered_touches State.cmdGo_ends) rfl h
  unfold State.writeCmdCtrl
  split
  · exact Touches.set rfl h
  · split
    · refine Touches.foldl_mem (fun s f hf hs => Touches.set ?_ hs) (Touches.ite (Touches.set rfl h) h)
      simp only [List.mem_cons, List.not_mem_nil, or_false] at hf
      rcases hf with rfl | rfl | rfl | rfl | rfl <;> rfl
    · split
      case h_14 => exact State.cmdGo_leavesIdent h
      all_goals exact go

/-! ## Epoch bits (R86) -/

theorem State.fenceDone_leavesIdent {s0 s : State} (h : Touches notIdent s0 s) : Touches notIdent s0 s.fenceDone := by
  unfold State.fenceDone
  split
  · exact h
  · exact Touches.upd_cf rfl (Touches.foldl (fun s c hs => Touches.ite (State.setCommit_touches rfl hs) hs) h)

theorem State.epochSwitch_leavesIdent {s0 s : State} {p : Nat} (h : Touches notIdent s0 s) :
    Touches notIdent s0 (s.epochSwitch p) := by
  unfold State.epochSwitch
  split
  · refine State.fenceDone_leavesIdent (State.modPipe_touches rfl ?_)
    split
    · exact Touches.set rfl (Touches.upd_cf rfl h)
    · exact Touches.upd_cf rfl h
  · exact h

theorem State.launchIngress_leavesIdent {s0 s : State} {p : Nat} (h : Touches notIdent s0 s) :
    Touches notIdent s0 (s.launchIngress p) := by
  unfold State.launchIngress
  exact Touches.addSat rfl (Touches.addSat rfl (State.modPipe_touches rfl
    (Touches.foldl (fun s k hs => State.launchHead_touches rfl hs)
      (Touches.foldl (fun s k hs => State.launchHead_touches rfl hs)
        (State.modPipe_touches rfl (State.auxTake_touches rfl (State.epochSwitch_leavesIdent h)))))))

theorem execWavefrontLaunch_leavesIdent {pipe : AnyPipe} {s : State} : Ends notIdent s (execWavefrontLaunch pipe s) := by
  have h0 := Touches.refl notIdent s
  unfold execWavefrontLaunch
  extract_lets p s1 n s2 n' s3 _ s4
  split
  · exact Ends.next h0
  · have h1 : Touches notIdent s s1 := State.takePairs_touches rfl h0
    have h2 : Touches notIdent s s2 := Touches.ite (State.launchIngress_leavesIdent h1) (State.launchEgress_touches rfl h1)
    have h3 : Touches notIdent s s3 := State.spend_touches rfl h2
    have h4 : Touches notIdent s s4 := Touches.ite (Touches.upd_pace rfl h3) h3
    exact Ends.next (State.countLaunch_touches rfl h4)

/-! ## Commits (R81 to R89) -/

theorem rwsOfKey_mem {k : Nat} {r : Reg} (h : rwsOfKey k = some r) : r ∈ rwsRegs := List.mem_of_find?_eq_some h

theorem State.scopeKeys_mem {s : State} {im : Image} {c : CommitRec} {rf : RegFile} {e : Reg × Nat}
    (h : e ∈ s.scopeKeys im c rf) : e.1 ∈ rwsRegs := by
  obtain ⟨x, -, hx⟩ := List.mem_filterMap.mp h
  split at hx
  case h_1 r hr =>
    split at hx
    · cases hx; exact rwsOfKey_mem hr
    · cases hx
  case h_2 => cases hx

/-- A commit puts no register in force but those that hold RWS fields (R79). -/
theorem State.rfGet_committed {s : State} {c : CommitRec} {r : Reg} {i : Nat} (h : r ∉ rwsRegs) :
    rfGet (s.committed c) r i = rfGet s.regs r i := by
  unfold State.committed
  extract_lets im
  refine List.foldlRecOn (motive := fun rf => rfGet rf r i = rfGet s.regs r i) _ _ rfl fun rf ih e he => ?_
  refine (rfGet_rfPut_ne _ _ ?_).trans ih
  rintro ⟨rfl, -⟩
  exact h (State.scopeKeys_mem he)

theorem State.committed_leavesIdent {s0 s : State} {c : CommitRec} (h : Touches notIdent s0 s) :
    Touches notIdent s0 { s with regs := s.committed c } :=
  Touches.upd_regs State.committed_wf
    (fun r i hr => State.rfGet_committed (by rw [eq_ident_of_testBit hr]; decide)) h

theorem State.fence_leavesIdent {s0 s : State} {c : CommitRec} (h : Touches notIdent s0 s) :
    Touches notIdent s0 (s.fence c) := by
  unfold State.fence
  extract_lets ts deferred old bits _ s1 s2 s3 s4 s5 s6 s7
  have h1 : Touches notIdent s0 s1 := Touches.upd_cf rfl (State.committed_leavesIdent h)
  have h4 : Touches notIdent s0 s4 := State.setCommit_touches rfl (State.setCommit_touches rfl (Touches.set rfl h1))
  have h5 : Touches notIdent s0 s5 := Touches.foldl (fun s p hs => State.modPipe_touches rfl hs) h4
  have h6 : Touches notIdent s0 s6 := by
    unfold s6
    split
    · exact State.takeTroupeImage_touches rfl h5
    · exact h5
  have h7 : Touches notIdent s0 s7 := Touches.foldl (fun s p hs => Touches.ite (State.epochSwitch_leavesIdent hs) hs) h6
  exact State.refreshDrain_touches rfl (State.refreshCommitted_touches rfl (State.fenceDone_leavesIdent h7))

theorem State.passCommit_leavesIdent {s0 s : State} {c : CommitRec} (h : Touches notIdent s0 s) :
    Touches notIdent s0 (s.passCommit c) := by
  unfold State.passCommit
  split
  · exact State.setCommit_touches rfl (State.replaceCommit_touches rfl h)
  · split
    · exact State.refuseCommit_touches rfl (State.replaceCommit_touches rfl h)
    · exact State.fence_leavesIdent (State.replaceCommit_touches rfl h)

theorem execCommitFence_leavesIdent {s : State} : Ends notIdent s (execCommitFence s) := by
  have h0 := Touches.refl notIdent s
  unfold execCommitFence
  split
  · exact Ends.next h0
  · exact Ends.next (State.passCommit_leavesIdent h0)

theorem execDrainLimitExpiry_leavesIdent {s : State} : Ends notIdent s (execDrainLimitExpiry s) := by
  have h0 := Touches.refl notIdent s
  unfold execDrainLimitExpiry
  split
  · exact Ends.next h0
  · next c hc =>
    extract_lets ts s1 s2 s3 c' s4
    have h4 : Touches notIdent s s4 := State.replaceCommit_touches rfl (Touches.raise rfl rfl (State.setCommit_touches rfl
      (Touches.foldl (fun s n hs => State.markStale_touches rfl hs) h0)))
    split
    · exact Ends.next h0
    · split
      · split
        · exact Ends.next h4
        · exact Ends.next (State.passCommit_leavesIdent h4)
      · exact Ends.next (State.refuseCommit_touches rfl (State.replaceCommit_touches rfl h0))

/-! ## Paired fields (R90 to R97) -/

theorem State.pairTake_leavesIdent {s0 s : State} {f g : PairField} {v w : Nat} (hf : f.reg ≠ .TOP_IDENT)
    (hg : g.reg ≠ .TOP_IDENT) (h : Touches notIdent s0 s) : Touches notIdent s0 (s.pairTake f g v w) := by
  unfold State.pairTake
  split
  · exact State.timePair_touches rfl h
  · exact State.timePair_touches rfl h
  · exact State.pairDue_touches rfl h
  · exact State.pairDue_touches rfl h
  · extract_lets s1 s2
    have h2 : Touches notIdent s0 s2 := Touches.set (testBit_notIdent hg) (Touches.set (testBit_notIdent hf) h)
    split
    · exact State.pairRefill_touches rfl h2
    · exact h2

/-- TOP.IDENT has no paired field, and is no field's partner. -/
theorem State.partner_reg_ne_ident {s : State} {f g : PairField} (h : s.partner f = some g) :
    f.reg ≠ .TOP_IDENT ∧ g.reg ≠ .TOP_IDENT := by
  unfold State.partner at h
  split at h
  case h_7 hr =>
    obtain ⟨j, -, rfl⟩ := Option.map_eq_some_iff.mp h
    exact ⟨by rw [hr]; decide, Reg.noConfusion⟩
  case h_8 => cases h
  case h_1 | h_2 | h_3 | h_4 =>
    cases h
    refine ⟨by simp [*], ?_⟩
    split <;> simp [*]
  case h_5 | h_6 =>
    cases h
    exact ⟨by simp [*], Reg.noConfusion⟩

theorem State.pairWrite_leavesIdent {s0 s : State} {fn : Nat} {f : PairField} {v written offset : Nat}
    (h : Touches notIdent s0 s) : Touches notIdent s0 (s.pairWrite fn f v written offset) := by
  unfold State.pairWrite
  split
  · exact h
  · next g hp =>
    obtain ⟨hf, hg⟩ := State.partner_reg_ne_ident hp
    split
    · split
      · exact State.pairDiscard_touches rfl h
      · split
        · exact State.setLatches_touches rfl h
        · exact State.pairTake_leavesIdent hf hg (State.showPending_touches rfl (State.setLatches_touches rfl h))
    · split
      · exact State.pairDiscard_touches rfl h
      · exact State.showPending_touches rfl (State.setLatches_touches rfl h)

/-! ## REG_INIT records and restores (R70, R85, R517) -/

theorem State.regInit_leavesIdent {s0 s : State} {off : Nat} {w : Word} (h : Touches notIdent s0 s) :
    Touches notIdent s0 (s.regInit off w) := by
  unfold State.regInit
  split
  · exact h
  · refine Touches.foldl_mem (fun s f hf hs => ?_) h
    have hset : f.acc ≠ .ro → ∀ {i v}, Touches notIdent s0 (s.set f i v) := fun ha _ _ =>
      Touches.set (testBit_notIdent (reg_ne_ident_of_mem_fields hf ha)) hs
    split
    · exact Touches.setStaged rfl hs
    · next ha => exact hset (by rw [ha]; decide)
    · next ha => exact hset (by rw [ha]; decide)
    · next ha => exact hset (by rw [ha]; decide)
    · exact hs

theorem State.stageTroupe_leavesIdent {s0 s : State} {im : Image} {n : Nat} (h : Touches notIdent s0 s) :
    Touches notIdent s0 (s.stageTroupe im n) := by
  unfold State.stageTroupe
  refine Touches.foldl (fun s e hs => ?_) (Touches.upd_staging rfl (rfWf_filter _) h)
  split
  · exact Touches.ite (Touches.foldl (fun s f hs => Touches.ite (Touches.setStaged rfl hs) hs) hs) hs
  · exact hs

theorem execRestore_leavesIdent {v : Word} {s : State} : Ends notIdent s (execRestore v s) := by
  have h0 := Touches.refl notIdent s
  unfold execRestore
  split
  · exact Ends.next h0
  · split
    · extract_lets status s1 _ s2
      have h1 : Touches notIdent s s1 := Touches.set rfl h0
      split
      · exact Ends.next h1
      · exact Ends.next (State.stageTroupe_leavesIdent (Touches.set rfl (Touches.upd_hif rfl h1)))
    · exact Ends.next h0

theorem execTroupeRestoreDone_leavesIdent {s : State} : Ends notIdent s (execTroupeRestoreDone s) := by
  have h0 := Touches.refl notIdent s
  unfold execTroupeRestoreDone
  split
  · split
    · exact Ends.next h0
    · exact Ends.next (State.troupeDone_touches rfl (State.setTroupeState_touches rfl (State.fence_leavesIdent
        (Touches.foldl (fun s e hs => State.emptyTable_touches rfl hs) (Touches.upd_cf rfl h0)))))
  · exact Ends.next h0

/-! ## The apply of an image (R75 to R77, R101 to R103, R629) -/

theorem State.writeImage_leavesIdent {s0 s : State} {im : Image} (h : Touches notIdent s0 s) :
    Touches notIdent s0 (s.writeImage im) := by
  unfold State.writeImage
  exact Touches.foldl (fun s e hs => State.regInit_leavesIdent hs) (State.showTroupes_touches rfl
    (State.showStores_touches rfl (State.showSeeds_touches rfl (State.placeLanes_touches rfl
      (State.showPlans_touches rfl (Touches.upd_cf rfl h))))))

theorem State.closingCommit_leavesIdent {s0 s : State} (h : Touches notIdent s0 s) :
    Touches notIdent s0 s.closingCommit := by
  unfold State.closingCommit
  exact Touches.upd_cf rfl (State.fence_leavesIdent (Touches.upd_cf rfl h))

theorem execImageApply_leavesIdent {s : State} : Ends notIdent s (execImageApply s) := by
  have h0 := Touches.refl notIdent s
  unfold execImageApply
  split
  · exact Ends.next h0
  · extract_lets s1 s2 s3 s4 s5 s6 s7 s8 s9 _ s10 s11 s12
    split
    · exact Ends.next h0
    · have h2 : Touches notIdent s s2 := Touches.foldl (fun s p hs => State.applyPortDown_touches rfl hs) (Touches.set rfl h0)
      have h4 : Touches notIdent s s4 := Touches.foldl (fun s p hs => State.dropLatch_touches rfl hs)
        (State.endCommits_touches rfl h2)
      have h5 : Touches notIdent s s5 := Touches.foldl (fun s n hs => Touches.ite hs (State.vfReset_touches rfl hs)) h4
      have h6 : Touches notIdent s s6 := Touches.foldl (fun s b hs => State.setReady_touches rfl hs) h5
      have h7 : Touches notIdent s s7 := Touches.foldl
        (fun s n hs => State.measureTroupe_touches rfl (State.setTroupeReady_touches rfl hs)) h6
      have h8 : Touches notIdent s s8 := State.clearBlocks_touches (by decide) rfl rfl (State.clearSwitch_touches rfl h7)
      have h9 : Touches notIdent s s9 := Touches.foldl (fun s n hs => State.resetRings_touches rfl hs) h8
      have h11 : Touches notIdent s s11 := Touches.set rfl (Touches.upd_hif rfl h9)
      have h12 : Touches notIdent s s12 := State.setMeas3_touches rfl (State.clearBlocks_touches rfl rfl rfl h11)
      exact Ends.next (State.refreshInts_touches rfl (State.writeImage_leavesIdent h12))

theorem execImageApplyEnd_leavesIdent {s : State} : Ends notIdent s (execImageApplyEnd s) := by
  have h0 := Touches.refl notIdent s
  unfold execImageApplyEnd
  split
  · exact Ends.next h0
  · extract_lets im s1 s2 s3 s4 s5 s6 s7 s8 s9 s10
    split
    · exact Ends.next h0
    · have h1 : Touches notIdent s s1 := State.polReset_touches rfl
        (State.closingCommit_leavesIdent (State.carvePools_touches rfl h0))
      have h3 : Touches notIdent s s3 := State.setReady_touches rfl (State.setReady_touches rfl (State.setReady_touches rfl
        (State.applyStacks_touches rfl h1)))
      have h4 : Touches notIdent s s4 := State.refreshMod_touches rfl
        (Touches.foldl (fun s d hs => State.refreshRim_touches rfl hs) h3)
      have h5 : Touches notIdent s s5 := Touches.foldl (fun s t hs => State.setTroupeReady_touches rfl hs) h4
      have h6 : Touches notIdent s s6 := Touches.foldl
        (fun s n hs => State.refreshSpill_touches rfl (State.refreshFlows_touches rfl hs)) h5
      have h9 : Touches notIdent s s9 := Touches.set rfl (Touches.set rfl (Touches.set rfl (Touches.set rfl
        (Touches.set rfl h6))))
      have h10 : Touches notIdent s s10 := Touches.ite h9 (Touches.set rfl h9)
      exact Ends.next (State.reviewCages_touches rfl (State.loadDone_touches rfl (State.imageRecord_touches rfl
        (State.setMeas3_touches rfl h10))))

theorem State.regInitLive_leavesIdent {s0 s : State} {off : Nat} {w : Word} (h : Touches notIdent s0 s) :
    Touches notIdent s0 (s.regInitLive off w) := by
  have hi : Touches notIdent s0 (s.regInit off w) := State.regInit_leavesIdent h
  have shaper : ∀ {k : Nat} {was : Bool}, Touches notIdent s0 (((s.regInit off w).pairRefill k).shaperEnable k was) :=
    State.shaperEnable_touches rfl (State.pairRefill_touches rfl hi)
  unfold State.regInitLive
  split
  · exact h
  · extract_lets i shaper'
    split
    · exact Touches.ite (State.enablePort_touches rfl h) (State.disablePort_touches rfl h)
    · exact State.polPair_touches rfl hi
    · exact shaper
    · exact shaper
    · exact shaper
    · exact State.writeFir_touches rfl h
    · exact State.writeRingCfg_touches rfl h
    · exact State.writeRingCfg_touches rfl h
    · exact State.writeRingCfg_touches rfl h
    · exact State.writeRingCfg_touches rfl h
    · exact hi

theorem execTroupeImageApply_leavesIdent {s : State} : Ends notIdent s (execTroupeImageApply s) := by
  have h0 := Touches.refl notIdent s
  unfold execTroupeImageApply
  split
  · exact Ends.next h0
  · extract_lets n bs s1 twin s2 s3
    split
    · exact Ends.next h0
    · have h1 : Touches notIdent s s1 := Touches.set rfl h0
      have h2 : Touches notIdent s s2 := Touches.ite h1 (State.flushTroupe_touches rfl (State.setTroupeReady_touches rfl h1))
      have h3 : Touches notIdent s s3 := Touches.foldl (fun s e hs => State.regInitLive_leavesIdent hs) h2
      exact Ends.next (State.forceFlows_touches rfl (Touches.upd_cf rfl h3))

/-! ## Register accesses (R11 to R18, R90 to R97) -/

theorem State.pairedFields_leavesIdent {s0 s : State} {fn : Nat} {t : Target} {off : Nat} {l : Lanes} {w : Word}
    (h : Touches notIdent s0 s) : Touches notIdent s0 (s.pairedFields fn t off l w) := by
  unfold State.pairedFields
  split
  · exact h
  · exact Touches.ite h (State.pairWrite_leavesIdent h)
  · next f g fs hfs =>
    have hm : f ∈ t.reg.fields ∧ (s.isPaired t f && l.takes f) = true :=
      List.mem_filter.mp (by rw [hfs]; exact List.mem_cons_self)
    have ht : t.reg ≠ .TOP_IDENT := by
      intro e
      have ha : f.acc = .ro := acc_of_mem_ident_fields (e ▸ hm.1)
      simp [State.isPaired, e, ha] at hm
    exact State.pairTake_leavesIdent ht ht h

theorem State.writeField_leavesIdent {s0 s : State} {fn : Nat} {t : Target} {l : Lanes} {w : Word} {f : Fld}
    (hf : f ∈ t.reg.fields) (h : Touches notIdent s0 s) : Touches notIdent s0 (s.writeField fn t l w f) := by
  have hset : f.acc ≠ .ro → ∀ {v}, Touches notIdent s0 (s.set f t.idx v) := fun ha _ =>
    Touches.set (testBit_notIdent (reg_ne_ident_of_mem_fields hf ha)) h
  unfold State.writeField
  extract_lets v
  split
  · exact h
  · split
    · next ha => exact hset (by rw [ha]; decide)
    · next ha => exact hset (by rw [ha]; decide)
    · next ha => exact hset (by rw [ha]; decide)
    · exact Touches.setStaged rfl h
    · exact h

theorem State.readClears_leavesIdent {s0 s : State} {t : Target} {l : Lanes} {f : Fld} (hf : f ∈ t.reg.fields)
    (h : Touches notIdent s0 s) : Touches notIdent s0 (s.readClears t l f) := by
  unfold State.readClears
  split
  · exact h
  · next ha =>
    have hr : f.reg ≠ .TOP_IDENT := reg_ne_ident_of_mem_fields hf (by intro e; simp [e] at ha)
    exact Touches.ite h (Touches.set (testBit_notIdent hr) h)

theorem State.busRead_leavesIdent {s0 s : State} {fn : FnNo} {off size : Nat} (h : Touches notIdent s0 s) :
    Touches notIdent s0 (s.busRead fn off size) := by
  unfold State.busRead
  split
  · exact h
  · split
    · split
      · exact State.returns_touches rfl h
      · next t ht =>
        refine Touches.ite (State.returns_touches rfl h) (State.returns_touches rfl ?_)
        have hs : Touches notIdent s0 (answered s (execTimeSnapshot fn s)) :=
          answered_touches (execTimeSnapshot_touches rfl h)
        exact Touches.foldl_mem (fun u f hf hu => State.readClears_leavesIdent hf hu)
          (State.freshen_touches rfl (Touches.ite hs h))
    · exact State.returns_touches rfl (State.badAccess_touches rfl h)

/-- A register with a command of its own, other than TOP.RESET_CTRL: the split follows the arms of `rowWrite`. -/
theorem State.rowWrite_leavesIdent {s : State} {fn : FnNo} {t : Target} {l : Lanes} {v : Word}
    (hr : t.reg ≠ .TOP_RESET_CTRL) : TouchesSome notIdent s (s.rowWrite fn t l v) := by
  have h := Touches.refl notIdent s
  unfold State.rowWrite
  extract_lets i low high
  split
  · exact .some (answered_touches (execRetrain_touches rfl h))
  · exact .some (State.writeLoadCtrl_touches rfl h)
  · exact .some (answered_touches (execCommit_touches rfl h))
  · exact .some (answered_touches (execWinCommit_touches rfl h))
  · exact absurd ‹_› hr
  · exact .some (answered_touches (execIntRearm_touches rfl h))
  · exact .some (State.writeFir_touches rfl h)
  · exact .some (answered_touches (execRxCfgWrite_touches rfl h))
  · exact .ite (.some (answered_touches (execSlip_touches rfl (State.freeBelow_touches (n := 1021) rfl h)))) (.some h)
  · refine .some (answered_touches ?_)
    split
    · exact execPortEnable_touches rfl h
    · exact execPortDisable_touches rfl h
  · exact .some (answered_touches (execModCmd_touches rfl h))
  · exact .some (answered_touches (execFlowletFlush_touches rfl h))
  · exact .ite (.some (Touches.ite (State.both_touches (fun _ hs => execPromenadeAbort_touches rfl hs)
      (fun _ hs => execPromenadeGo_touches rfl hs) h) (answered_touches (execPromenadeAbort_touches rfl h))))
      (TouchesSome.ite (.some (answered_touches (execPromenadeGo_touches rfl h))) .none)
  · exact .some (State.writeCmdCtrl_leavesIdent h)
  · exact .ite (.some (answered_touches (execCmdWriteWhileBusy_touches rfl h))) .none
  · exact .ite (.some (answered_touches (execCmdWriteWhileBusy_touches rfl h))) .none
  · exact .ite (.some (answered_touches (execCmdWriteWhileBusy_touches rfl h))) .none
  · exact .some (answered_touches (execTableSeedWrite_touches rfl h))
  · exact .some (answered_touches (execLeaseRequest_touches rfl h))
  · exact .some (Touches.ite (answered_touches (execLeaseFree_touches rfl h)) h)
  · exact .some (answered_touches (execQuery_touches rfl h))
  · exact .some (answered_touches (execMcGroupWrite_touches rfl h))
  · exact .some (answered_touches (execMcSync_touches rfl h))
  · exact .some (answered_touches (execServoDisable_touches rfl h))
  · exact .some (State.servoSample_touches rfl h)
  · exact .some (State.winGo_touches rfl h)
  · next hq => exact .some (State.winWrite_touches (by rw [hq]; rfl) rfl h)
  · next hq => exact .some (State.winWrite_touches (by rw [hq]; rfl) rfl h)
  · next hq => exact .some (State.winWrite_touches (by rw [hq]; rfl) rfl h)
  · next hq => exact .some (State.winWrite_touches (by rw [hq]; rfl) rfl h)
  · exact .some (answered_touches (execHistSnapshot_touches rfl h))
  · exact .some (answered_touches (execHbmRetrain_touches rfl h))
  · exact .some (Touches.ite (State.captureRelease_touches rfl h) h)
  · exact .some (answered_touches (execCaptureCopy_touches rfl h))
  · exact .some (answered_touches (execCadenceSetWrite_touches rfl h))
  · exact .some (Touches.ite h (State.writePhaseA_touches rfl h))
  · exact .ite (.some h) .none
  · exact .ite (.some h) .none
  · exact .ite (.some h) .none
  · exact .some (Touches.setReg rfl h)
  · exact .some (Touches.ite (answered_touches (execAdvInject_touches rfl h)) h)
  · exact .some (Touches.ite (Touches.set rfl h) h)
  · exact .some (Touches.ite (answered_touches (execMsixAllocWrite_touches rfl h)) h)
  · exact .some (Touches.ite (State.both_touches (fun _ hs => execRemove_touches rfl hs)
      (fun _ hs => execRestore_leavesIdent.step rfl hs) h) h)
  · exact .some (State.writeRingCfg_touches rfl h)
  · exact .some (State.writeRingCfg_touches rfl h)
  · exact .some (State.writeRingCfg_touches rfl h)
  · exact .some (State.writeRingCfg_touches rfl h)
  · exact .some (State.writePool_touches rfl h)
  · exact .some (Touches.ite (State.ringBell_touches rfl h) h)
  · exact .some (Touches.ite (State.ringBell_touches rfl h) h)
  · exact .some (Touches.ite (State.ringBell_touches rfl h) h)
  · exact .some (Touches.ite (State.ringBell_touches rfl h) h)
  · exact .some (Touches.ite (State.poolBell_touches rfl h) h)
  · exact .some (State.both_touches (fun _ hs => execRestartBoth_touches rfl hs) (fun _ hs => Ends.next hs) (State.both_touches
      (fun _ hs => execRestart_touches rfl hs) (fun _ hs => execResign_touches rfl hs) h))
  · exact .some (answered_touches (execMailboxDoorbell_touches rfl h))
  · exact .some (answered_touches (execSealedReadout_touches rfl h))
  · exact .some (answered_touches (execHostNote_touches rfl h))
  · exact .some (Touches.ite h (answered_touches (Ends.ite (execRevoke_touches rfl h) (execProvision_touches rfl h))))
  · exact .some (State.both_touches (fun _ hs => execFwLoad_touches rfl hs) (fun _ hs => execCommitSvn_touches rfl hs) h)
  · split
    · exact .ite (.some h) .none
    · exact .none

end Sys2Proof.Machine
end

section
/-!
SUPPORT. What TOP.IDENT reports, through resets, writes of registers and every step, and the statement about it (R1).
-/

namespace Sys2Proof.Machine

/-! ## What TOP.IDENT reports (R1) -/

/-- TOP.IDENT reports part 0x2048 and stepping 0x10. -/
def State.identOk (s : State) : Prop := s.get TOP.IDENT.PART 0 = 0x2048 ∧ s.get TOP.IDENT.STEPPING 0 = 0x10

/-- Where TOP.IDENT reports the part and the stepping, it still does in the state that an answer leads to. -/
def KeepsIdent (s : State) (a : Answer) : Prop := s.identOk → ∀ t, a = .next t → t.identOk

theorem Touches.identOk {s t : State} (h : Touches notIdent s t) (hs : s.identOk) : t.identOk :=
  ⟨(h.get rfl).trans hs.1, (h.get rfl).trans hs.2⟩

theorem Ends.keepsIdent {s : State} {a : Answer} (h : Ends notIdent s a) : KeepsIdent s a := by
  rintro hs t rfl
  obtain ⟨u, e, hu⟩ := h
  cases e
  exact hu.identOk hs

theorem KeepsIdent.next {s t : State} (h : s.identOk → t.identOk) : KeepsIdent s (.next t) := by
  rintro hs _ ⟨⟩
  exact h hs

theorem KeepsIdent.of_ends {s t : State} {a : Answer} (h : Ends notIdent t a) (ht : s.identOk → t.identOk) : KeepsIdent s a :=
  fun hs => h.keepsIdent (ht hs)

/-! ## Resets (R108) -/

theorem tabFind_filter_none {α : Type} {p : Nat × α → Bool} (t : List (Nat × α)) {k : Nat} (h : ∀ v, p (k, v) = false) :
    tabFind (t.filter p) k = none := by
  induction t with
  | nil => rfl
  | cons e t ih =>
    obtain ⟨k', v'⟩ := e
    by_cases hk : k' = k
    · subst hk; simp [List.filter, h, ih]
    · cases hp : p (k', v') <;> simp [List.filter, hp, tabFind, hk, ih]

/-- A register that a reset does not keep takes its reset value. -/
theorem rfGet_keepRegs_of_not_mem {rs : List Reg} {rf : RegFile} {r : Reg} {i : Nat} (h : r ∉ rs) :
    rfGet (keepRegs rs rf) r i = regReset r i := by
  have hk : tabFind (keepRegs rs rf) (regKey r i) = none := by
    refine tabFind_filter_none rf fun w => List.any_eq_false.mpr fun q hq => ?_
    simp only [regKey_mod, beq_iff_eq]
    exact fun e => h (ctorIdx_inj e ▸ hq)
  simp [rfGet, tabGet, hk]

theorem State.identOk_of_reset {s : State} (h : rfGet s.regs .TOP_IDENT 0 = regReset .TOP_IDENT 0) : s.identOk := by
  simp only [State.identOk, State.get, rfFld, h]
  decide

theorem State.mainReset_identOk (s : State) : s.mainReset.identOk := by
  unfold State.mainReset
  extract_lets _ _ _ t1 t2 t3 t4 t5
  have h1 : t1.identOk := State.identOk_of_reset (rfGet_keepRegs_of_not_mem (by decide))
  have h2 : Touches notIdent t1 t2 := State.carry_touches rfl (State.carry_touches rfl (Touches.refl _ t1))
  have h4 : Touches notIdent t1 t4 := Touches.set rfl (Touches.set rfl (Touches.set rfl h2))
  have h5 : Touches notIdent t1 t5 := Touches.setReg rfl h4
  exact (Touches.emit rfl (State.setMeas3_touches rfl (State.setMeas2_touches rfl h5))).identOk h1

theorem State.keeperLost_identOk (s : State) : s.keeperLost.identOk := by
  unfold State.keeperLost
  extract_lets t
  have ht : t.identOk := State.identOk_of_reset (rfGet_keepRegs_of_not_mem (by decide))
  exact (State.carry_touches rfl (State.carry_touches rfl (State.carry_touches rfl (Touches.refl _ t)))).identOk ht

theorem execVddKeepLoss_keepsIdent {torn : Bool} {s : State} : KeepsIdent s (execVddKeepLoss torn s) :=
  KeepsIdent.next fun _ => State.keeperLost_identOk _

theorem execKeeperPowerOn_keepsIdent {s : State} : KeepsIdent s (execKeeperPowerOn s) := by
  unfold execKeeperPowerOn
  split
  · exact KeepsIdent.next id
  · refine KeepsIdent.next fun _ => Touches.identOk (s := s.keeperLost) ?_ (State.keeperLost_identOk s)
    exact Touches.set rfl (State.modBbx_touches rfl (State.derive_touches rfl (State.modSec_touches rfl
      (State.modPkg_touches rfl (Touches.refl _ _)))))

/-- A main-domain reset that is counted. -/
theorem State.countBoot_mainReset_identOk (s : State) (cause : Nat) : (s.mainReset.countBoot cause).identOk :=
  (State.countBoot_touches rfl (Touches.refl notIdent _)).identOk (State.mainReset_identOk s)

theorem execMainPowerOn_keepsIdent {ref25 testEn : Bool} {s : State} : KeepsIdent s (execMainPowerOn ref25 testEn s) := by
  unfold execMainPowerOn
  extract_lets s1 s2 s3 s4
  split
  · exact KeepsIdent.next id
  · have h1 : Touches notIdent s1 s1 := Touches.refl _ _
    have h2 : Touches notIdent s1 s2 := Touches.ite (Touches.emit rfl (State.modPkg_touches rfl h1)) h1
    have h3 : Touches notIdent s1 s3 := State.modPkg_touches rfl h2
    have h4 : Touches notIdent s1 s4 := Touches.ite (State.hubStart_touches rfl h3) h3
    exact KeepsIdent.next fun _ => (Touches.ite (State.monitorTrip_touches rfl h4) h4).identOk
      (State.countBoot_mainReset_identOk s 2)

theorem execMainPgFall_keepsIdent {s : State} : KeepsIdent s (execMainPgFall s) := by
  unfold execMainPgFall
  split
  · exact KeepsIdent.next id
  · exact KeepsIdent.next fun _ => (State.modPkg_touches rfl (Touches.refl notIdent _)).identOk (State.mainReset_identOk s)

theorem execSysReset_keepsIdent {lowTicks : Nat} {s : State} : KeepsIdent s (execSysReset lowTicks s) := by
  unfold execSysReset
  extract_lets s1
  split
  · exact KeepsIdent.next id
  · refine KeepsIdent.next fun hs => (State.modPkg_touches rfl (Touches.refl notIdent s1)).identOk ?_
    unfold s1
    split
    · exact State.countBoot_mainReset_identOk s 3
    · exact hs

theorem execResetCtrlWrite_keepsIdent {fn : FnNo} {v : Word} {s : State} : KeepsIdent s (execResetCtrlWrite fn v s) := by
  unfold execResetCtrlWrite
  split
  · exact KeepsIdent.next id
  · extract_lets s1
    split
    · exact KeepsIdent.next id
    · have h1 : Touches notIdent s1 s1 := Touches.refl _ _
      exact KeepsIdent.next fun _ => (Touches.ite (State.hubStart_touches rfl h1) h1).identOk
        (State.countBoot_mainReset_identOk s 4)

/-! ## Writes of registers -/

theorem KeepsIdent.answered {s : State} {a : Answer} (h : KeepsIdent s a) (hs : s.identOk) : (answered s a).identOk := by
  cases a with
  | next t => exact h hs t rfl
  | fault r => exact hs
  | refused r => exact hs

theorem State.rowWrite_identOk {s u : State} {fn : FnNo} {t : Target} {l : Lanes} {v : Word}
    (hu : s.rowWrite fn t l v = some u) (hs : s.identOk) : u.identOk := by
  by_cases hr : t.reg = .TOP_RESET_CTRL
  · simp only [State.rowWrite, hr, Option.some.injEq] at hu
    subst hu
    split
    · exact execResetCtrlWrite_keepsIdent.answered hs
    · exact hs
  · exact (State.rowWrite_leavesIdent hr u hu).identOk hs

theorem State.busWrite_identOk {s : State} {fn : FnNo} {off size : Nat} {v : Word} (hs : s.identOk) :
    (s.busWrite fn off size v).identOk := by
  have h0 := Touches.refl notIdent s
  unfold State.busWrite
  split
  · exact hs
  · split
    · split
      · exact hs
      · split
        · exact hs
        · extract_lets l w u
          split
          · next s' hu => exact State.rowWrite_identOk hu hs
          · have hu : Touches notIdent s u := Touches.foldl_mem (fun s f hf h => State.writeField_leavesIdent hf h) h0
            exact (State.afterWrite_touches rfl (State.pairedFields_leavesIdent hu)).identOk hs
    · exact (State.badAccess_touches rfl h0).identOk hs

theorem execRegisterWrite_keepsIdent {fn : FnNo} {off : BarOffset} {size : Fin 65} {v : Word} {s : State} :
    KeepsIdent s (execRegisterWrite fn off size v s) := KeepsIdent.next State.busWrite_identOk

/-- A staged or a paired write is a write of a register that has such fields. -/
theorem State.busWrite_ite_keepsIdent {fn : FnNo} {off size : Nat} {v : Word} {s : State} {c : Prop} [Decidable c] :
    KeepsIdent s (.next (if c then s.busWrite fn off size v else s)) := by
  split
  · exact KeepsIdent.next State.busWrite_identOk
  · exact KeepsIdent.next id

theorem execClearOnRead_leavesIdent {fn : FnNo} {off : BarOffset} {size : Fin 65} {s : State} :
    Ends notIdent s (execClearOnRead fn off size s) :=
  Ends.next (State.busRead_leavesIdent (Touches.refl _ s))

theorem execImproperAccess_keepsIdent {fn : FnNo} {off : BarOffset} {size : Fin 65} {write : Bool} {v : Word} {s : State} :
    KeepsIdent s (execImproperAccess fn off size write v s) := by
  unfold execImproperAccess
  split
  · exact KeepsIdent.next id
  · refine KeepsIdent.next fun hs => ?_
    split
    · exact State.busWrite_identOk hs
    · exact (State.busRead_leavesIdent (Touches.refl _ s)).identOk hs

/-! ## Every step -/

/-- A command touches parts other than TOP.IDENT, resets the register, or writes registers by their access codes. -/
theorem exec_keepsIdent (c : Instr) (s : State) : KeepsIdent s (exec c s) := by
  have h := Touches.refl notIdent s
  cases c with
  | improperAccess => exact execImproperAccess_keepsIdent
  | registerWrite => exact execRegisterWrite_keepsIdent
  | stagingWrite => exact State.busWrite_ite_keepsIdent
  | clearOnRead => exact execClearOnRead_leavesIdent.keepsIdent
  | pairedWrite => exact State.busWrite_ite_keepsIdent
  | pairTimeout => exact (execPairTimeout_touches rfl h).keepsIdent
  | lerarReplay => exact (execLerarReplay_touches rfl h).keepsIdent
  | linkRetire => exact (execLinkRetire_touches rfl h).keepsIdent
  | linkAutoRetrain => exact (execLinkAutoRetrain_touches rfl h).keepsIdent
  | linkTrainingEnd => exact (execLinkTrainingEnd_touches rfl h).keepsIdent
  | retrain => exact (execRetrain_touches rfl h).keepsIdent
  | wavefrontLaunch => exact execWavefrontLaunch_leavesIdent.keepsIdent
  | parserPass => exact (execParserPass_touches rfl h).keepsIdent
  | stageExecute => exact (execStageExecute_touches rfl h).keepsIdent
  | ingressPipeEnd => exact (execIngressPipeEnd_touches rfl h).keepsIdent
  | egressPipeEnd => exact (execEgressPipeEnd_touches rfl h).keepsIdent
  | depthMapBroadcast => exact (execDepthMapBroadcast_touches rfl h).keepsIdent
  | depthMapStale => exact (execDepthMapStale_touches rfl h).keepsIdent
  | flowletFlush => exact (execFlowletFlush_touches rfl h).keepsIdent
  | rxFrameStart => exact (execRxFrameStart_touches rfl h).keepsIdent
  | ififoXoff => exact (execIfifoXoff_touches rfl h).keepsIdent
  | ififoXon => exact (execIfifoXon_touches rfl h).keepsIdent
  | rxFrameEnd => exact (execRxFrameEnd_touches rfl h).keepsIdent
  | rxCodeword => exact (execRxCodeword_touches rfl h).keepsIdent
  | slip => exact (execSlip_touches rfl h).keepsIdent
  | rxAlignedSet => exact (execRxAlignedSet_touches rfl h).keepsIdent
  | txSwitchToData => exact (execTxSwitchToData_touches rfl h).keepsIdent
  | dataLock => exact (execDataLock_touches rfl h).keepsIdent
  | alignLost => exact (execAlignLost_touches rfl h).keepsIdent
  | realign => exact (execRealign_touches rfl h).keepsIdent
  | txFirWrite => exact (execTxFirWrite_touches rfl h).keepsIdent
  | ieeeTrainingRequest => exact (execIeeeTrainingRequest_touches rfl h).keepsIdent
  | rxCfgWrite => exact (execRxCfgWrite_touches rfl h).keepsIdent
  | idleEntry => exact (execIdleEntry_touches rfl h).keepsIdent
  | idleRefresh => exact (execIdleRefresh_touches rfl h).keepsIdent
  | idleRefreshTimeout => exact (execIdleRefreshTimeout_touches rfl h).keepsIdent
  | wake => exact (execWake_touches rfl h).keepsIdent
  | wakeBurstRx => exact (execWakeBurstRx_touches rfl h).keepsIdent
  | pfcFrameTx => exact (execPfcFrameTx_touches rfl h).keepsIdent
  | pfcRefresh => exact (execPfcRefresh_touches rfl h).keepsIdent
  | pfcRx => exact (execPfcRx_touches rfl h).keepsIdent
  | pauseTimerExpiry => exact (execPauseTimerExpiry_touches rfl h).keepsIdent
  | macControlIgnored => exact (execMacControlIgnored_touches rfl h).keepsIdent
  | pfcWatchdog => exact (execPfcWatchdog_touches rfl h).keepsIdent
  | txFrameStart => exact (execTxFrameStart_touches rfl h).keepsIdent
  | txFrameEnd => exact (execTxFrameEnd_touches rfl h).keepsIdent
  | txUnderrun => exact (execTxUnderrun_touches rfl h).keepsIdent
  | portFault => exact (execPortFault_touches rfl h).keepsIdent
  | linkDown => exact (execLinkDown_touches rfl h).keepsIdent
  | linkUp => exact (execLinkUp_touches rfl h).keepsIdent
  | portEnable => exact (execPortEnable_touches rfl h).keepsIdent
  | portDisable => exact (execPortDisable_touches rfl h).keepsIdent
  | sidebandFrame => exact (execSidebandFrame_touches rfl h).keepsIdent
  | cagePresenceDebounced => exact (execCagePresenceDebounced_touches rfl h).keepsIdent
  | cagePwrGood => exact (execCagePwrGood_touches rfl h).keepsIdent
  | cageResetRelease => exact (execCageResetRelease_touches rfl h).keepsIdent
  | moduleLowPowerReached => exact (execModuleLowPowerReached_touches rfl h).keepsIdent
  | cageIdentifyDone => exact (execCageIdentifyDone_touches rfl h).keepsIdent
  | cageActivate => exact (execCageActivate_touches rfl h).keepsIdent
  | cageTimeout => exact (execCageTimeout_touches rfl h).keepsIdent
  | moduleRemove => exact (execModuleRemove_touches rfl h).keepsIdent
  | moduleInterrupt => exact (execModuleInterrupt_touches rfl h).keepsIdent
  | modBusError => exact (execModBusError_touches rfl h).keepsIdent
  | lifeSample => exact (execLifeSample_touches rfl h).keepsIdent
  | lifeCheckpoint => exact (execLifeCheckpoint_touches rfl h).keepsIdent
  | modCmd => exact (execModCmd_touches rfl h).keepsIdent
  | modCmdDone => exact (execModCmdDone_touches rfl h).keepsIdent
  | lookup => exact State.cmdGo_ends.keepsIdent
  | read => exact State.cmdGo_ends.keepsIdent
  | insert => exact State.cmdGo_ends.keepsIdent
  | update => exact State.cmdGo_ends.keepsIdent
  | upsert => exact State.cmdGo_ends.keepsIdent
  | delete => exact State.cmdGo_ends.keepsIdent
  | writeAt => exact State.cmdGo_ends.keepsIdent
  | clearAt => exact State.cmdGo_ends.keepsIdent
  | move => exact State.cmdGo_ends.keepsIdent
  | lpmAdd => exact State.cmdGo_ends.keepsIdent
  | lpmDelete => exact State.cmdGo_ends.keepsIdent
  | unpin => exact State.cmdGo_ends.keepsIdent
  | clearTable => exact State.cmdGo_ends.keepsIdent
  | tableOpDone => exact execTableOpDone_leavesIdent.keepsIdent
  | cmdWriteWhileBusy => exact (execCmdWriteWhileBusy_touches rfl h).keepsIdent
  | tableSeedWrite => exact (execTableSeedWrite_touches rfl h).keepsIdent
  | learnEventArrival => exact (execLearnEventArrival_touches rfl h).keepsIdent
  | learnEventProcess => exact (execLearnEventProcess_touches rfl h).keepsIdent
  | flapWindowClose => exact (execFlapWindowClose_touches rfl h).keepsIdent
  | pinHoldExpiry => exact (execPinHoldExpiry_touches rfl h).keepsIdent
  | ageClockTick => exact (execAgeClockTick_touches rfl h).keepsIdent
  | agingSweepVisit => exact (execAgingSweepVisit_touches rfl h).keepsIdent
  | promenadeGo => exact (execPromenadeGo_touches rfl h).keepsIdent
  | promenadeAbort => exact (execPromenadeAbort_touches rfl h).keepsIdent
  | promenadeCompare => exact (execPromenadeCompare_touches rfl h).keepsIdent
  | promenadeCensus => exact (execPromenadeCensus_touches rfl h).keepsIdent
  | admission => exact (execAdmission_touches rfl h).keepsIdent
  | segmentWrite => exact (execSegmentWrite_touches rfl h).keepsIdent
  | frameVerdict => exact (execFrameVerdict_touches rfl h).keepsIdent
  | leaseRequest => exact (execLeaseRequest_touches rfl h).keepsIdent
  | leaseComplete => exact (execLeaseComplete_touches rfl h).keepsIdent
  | leaseFree => exact (execLeaseFree_touches rfl h).keepsIdent
  | eccUncorrectable => exact (execEccUncorrectable_touches rfl h).keepsIdent
  | schedulerPick => exact (execSchedulerPick_touches rfl h).keepsIdent
  | wheelSlot => exact (execWheelSlot_touches rfl h).keepsIdent
  | overflowMigrate => exact (execOverflowMigrate_touches rfl h).keepsIdent
  | holdExpiry => exact (execHoldExpiry_touches rfl h).keepsIdent
  | flushEnd => exact (execFlushEnd_touches rfl h).keepsIdent
  | mcGroupWrite => exact (execMcGroupWrite_touches rfl h).keepsIdent
  | mcSync => exact (execMcSync_touches rfl h).keepsIdent
  | mcSyncDone => exact (execMcSyncDone_touches rfl h).keepsIdent
  | query => exact (execQuery_touches rfl h).keepsIdent
  | spillMove => exact (execSpillMove_touches rfl h).keepsIdent
  | refill => exact (execRefill_touches rfl h).keepsIdent
  | refillRetry => exact (execRefillRetry_touches rfl h).keepsIdent
  | timeSnapshot => exact (execTimeSnapshot_touches rfl h).keepsIdent
  | servoSample => exact (execServoSample_touches rfl h).keepsIdent
  | ppsEdge => exact (execPpsEdge_touches rfl h).keepsIdent
  | ppsMissed => exact (execPpsMissed_touches rfl h).keepsIdent
  | servoTimeout => exact (execServoTimeout_touches rfl h).keepsIdent
  | holdoverExpiry => exact (execHoldoverExpiry_touches rfl h).keepsIdent
  | servoDisable => exact (execServoDisable_touches rfl h).keepsIdent
  | refLost => exact (execRefLost_touches rfl h).keepsIdent
  | refReturn => exact (execRefReturn_touches rfl h).keepsIdent
  | pllRelock => exact (execPllRelock_touches rfl h).keepsIdent
  | ppsOutPulse => exact (execPpsOutPulse_touches rfl h).keepsIdent
  | synceSquelch => exact (execSynceSquelch_touches rfl h).keepsIdent
  | winGo => exact (execWinGo_touches rfl h).keepsIdent
  | bankSwitch => exact (execBankSwitch_touches rfl h).keepsIdent
  | winWriteRefused => exact (execWinWriteRefused_touches rfl h).keepsIdent
  | gateChange => exact (execGateChange_touches rfl h).keepsIdent
  | histSnapshot => exact (execHistSnapshot_touches rfl h).keepsIdent
  | fateUpdate => exact (execFateUpdate_touches rfl h).keepsIdent
  | flowWriteback => exact (execFlowWriteback_touches rfl h).keepsIdent
  | ledgerWriteback => exact (execLedgerWriteback_touches rfl h).keepsIdent
  | exportSweepVisit => exact (execExportSweepVisit_touches rfl h).keepsIdent
  | overflowEpisodeEnd => exact (execOverflowEpisodeEnd_touches rfl h).keepsIdent
  | refusedLineRetry => exact (execRefusedLineRetry_touches rfl h).keepsIdent
  | exportMessageClose => exact (execExportMessageClose_touches rfl h).keepsIdent
  | templateResend => exact (execTemplateResend_touches rfl h).keepsIdent
  | dropInterval => exact (execDropInterval_touches rfl h).keepsIdent
  | stackTrainingEnd => exact (execStackTrainingEnd_touches rfl h).keepsIdent
  | hbmRetrain => exact (execHbmRetrain_touches rfl h).keepsIdent
  | stackFail => exact (execStackFail_touches rfl h).keepsIdent
  | hbmActivation => exact (execHbmActivation_touches rfl h).keepsIdent
  | scrub => exact (execScrub_touches rfl h).keepsIdent
  | hbmUncorr => exact (execHbmUncorr_touches rfl h).keepsIdent
  | captureWrite => exact (execCaptureWrite_touches rfl h).keepsIdent
  | captureCopy => exact (execCaptureCopy_touches rfl h).keepsIdent
  | captureCopyDone => exact (execCaptureCopyDone_touches rfl h).keepsIdent
  | cadenceSetWrite => exact (execCadenceSetWrite_touches rfl h).keepsIdent
  | cadenceWindow => exact (execCadenceWindow_touches rfl h).keepsIdent
  | lagRecover => exact (execLagRecover_touches rfl h).keepsIdent
  | railAdjust => exact (execRailAdjust_touches rfl h).keepsIdent
  | rampStart => exact (execRampStart_touches rfl h).keepsIdent
  | rampEnd => exact (execRampEnd_touches rfl h).keepsIdent
  | droopDetect => exact (execDroopDetect_touches rfl h).keepsIdent
  | droopClear => exact (execDroopClear_touches rfl h).keepsIdent
  | droopResponseEnd => exact (execDroopResponseEnd_touches rfl h).keepsIdent
  | droopLong => exact (execDroopLong_touches rfl h).keepsIdent
  | thermalSample => exact (execThermalSample_touches rfl h).keepsIdent
  | throttleFall => exact (execThrottleFall_touches rfl h).keepsIdent
  | railFault => exact (execRailFault_touches rfl h).keepsIdent
  | railRetry => exact (execRailRetry_touches rfl h).keepsIdent
  | pmbusMeasure => exact (execPmbusMeasure_touches rfl h).keepsIdent
  | energyTick => exact (execEnergyTick_touches rfl h).keepsIdent
  | phaseBoostStart => exact (execPhaseBoostStart_touches rfl h).keepsIdent
  | phaseBoostEnd => exact (execPhaseBoostEnd_touches rfl h).keepsIdent
  | phaseEvaluate => exact (execPhaseEvaluate_touches rfl h).keepsIdent
  | advisorySend => exact (execAdvisorySend_touches rfl h).keepsIdent
  | advisoryRefresh => exact (execAdvisoryRefresh_touches rfl h).keepsIdent
  | advisoryRx => exact (execAdvisoryRx_touches rfl h).keepsIdent
  | advInject => exact (execAdvInject_touches rfl h).keepsIdent
  | advisoryExpiry => exact (execAdvisoryExpiry_touches rfl h).keepsIdent
  | freewheelIdle => exact (execFreewheelIdle_touches rfl h).keepsIdent
  | freewheelWake => exact (execFreewheelWake_touches rfl h).keepsIdent
  | governorReady => exact (execGovernorReady_touches rfl h).keepsIdent
  | avsTimeout => exact (execAvsTimeout_touches rfl h).keepsIdent
  | remove => exact (execRemove_touches rfl h).keepsIdent
  | restore => exact execRestore_leavesIdent.keepsIdent
  | troupeRemoveDone => exact (execTroupeRemoveDone_touches rfl h).keepsIdent
  | troupeRestoreDone => exact execTroupeRestoreDone_leavesIdent.keepsIdent
  | ringEnable => exact (execRingEnable_touches rfl h).keepsIdent
  | ringDoorbell => exact (execRingDoorbell_touches rfl h).keepsIdent
  | rxDeliver => exact (execRxDeliver_touches rfl h).keepsIdent
  | rxWaitExpiry => exact (execRxWaitExpiry_touches rfl h).keepsIdent
  | interruptCoalesce => exact (execInterruptCoalesce_touches rfl h).keepsIdent
  | copy => exact (execCopy_touches rfl h).keepsIdent
  | fill => exact (execFill_touches rfl h).keepsIdent
  | cells => exact (execCells_touches rfl h).keepsIdent
  | msixAllocWrite => exact (execMsixAllocWrite_touches rfl h).keepsIdent
  | intRearm => exact (execIntRearm_touches rfl h).keepsIdent
  | winCommit => exact (execWinCommit_touches rfl h).keepsIdent
  | wardenInput => exact (execWardenInput_touches rfl h).keepsIdent
  | timerInput => exact (execTimerInput_touches rfl h).keepsIdent
  | commandCopy => exact (execCommandCopy_touches rfl h).keepsIdent
  | eliminatorWindowExpiry => exact (execEliminatorWindowExpiry_touches rfl h).keepsIdent
  | divergenceSelftestEnd => exact (execDivergenceSelftestEnd_touches rfl h).keepsIdent
  | lockstepMismatch => exact (execLockstepMismatch_touches rfl h).keepsIdent
  | watchdogExpiry => exact (execWatchdogExpiry_touches rfl h).keepsIdent
  | periodicSelftest => exact (execPeriodicSelftest_touches rfl h).keepsIdent
  | autoRestart => exact (execAutoRestart_touches rfl h).keepsIdent
  | wardenLoadDone => exact (execWardenLoadDone_touches rfl h).keepsIdent
  | wardenSelftestDone => exact (execWardenSelftestDone_touches rfl h).keepsIdent
  | resyncDone => exact (execResyncDone_touches rfl h).keepsIdent
  | restart => exact (execRestart_touches rfl h).keepsIdent
  | resign => exact (execResign_touches rfl h).keepsIdent
  | restartBoth => exact (execRestartBoth_touches rfl h).keepsIdent
  | mailboxDoorbell => exact (execMailboxDoorbell_touches rfl h).keepsIdent
  | getInfo => exact (execGetInfo_touches rfl h).keepsIdent
  | echo => exact (execEcho_touches rfl h).keepsIdent
  | mailboxTimeout => exact (execMailboxTimeout_touches rfl h).keepsIdent
  | bbxRecordWrite => exact (execBbxRecordWrite_touches rfl h).keepsIdent
  | bbxScan => exact (execBbxScan_touches rfl h).keepsIdent
  | sealedReadout => exact (execSealedReadout_touches rfl h).keepsIdent
  | sealedReadoutDone => exact (execSealedReadoutDone_touches rfl h).keepsIdent
  | hostNote => exact (execHostNote_touches rfl h).keepsIdent
  | keeperGetStatus => exact (execKeeperGetStatus_touches rfl h).keepsIdent
  | keeperGetRecords => exact (execKeeperGetRecords_touches rfl h).keepsIdent
  | keeperGetSeal => exact (execKeeperGetSeal_touches rfl h).keepsIdent
  | extest => exact (execExtest_touches rfl h).keepsIdent
  | idcode => exact (execIdcode_touches rfl h).keepsIdent
  | samplePreload => exact (execSamplePreload_touches rfl h).keepsIdent
  | bypass => exact (execBypass_touches rfl h).keepsIdent
  | bbxData => exact (execBbxData_touches rfl h).keepsIdent
  | getVersion => exact (execGetVersion_touches rfl h).keepsIdent
  | getCapabilities => exact (execGetCapabilities_touches rfl h).keepsIdent
  | negotiateAlgorithms => exact (execNegotiateAlgorithms_touches rfl h).keepsIdent
  | getDigests => exact (execGetDigests_touches rfl h).keepsIdent
  | getCertificate => exact (execGetCertificate_touches rfl h).keepsIdent
  | challenge => exact (execChallenge_touches rfl h).keepsIdent
  | getMeasurements => exact (execGetMeasurements_touches rfl h).keepsIdent
  | spdmUnsupportedRequest => exact (execSpdmUnsupportedRequest_touches rfl h).keepsIdent
  | aliasDeriveDone => exact (execAliasDeriveDone_touches rfl h).keepsIdent
  | provision => exact (execProvision_touches rfl h).keepsIdent
  | revoke => exact (execRevoke_touches rfl h).keepsIdent
  | fwLoad => exact (execFwLoad_touches rfl h).keepsIdent
  | fwLoadDone => exact (execFwLoadDone_touches rfl h).keepsIdent
  | commitSvn => exact (execCommitSvn_touches rfl h).keepsIdent
  | fwBootRead => exact (execFwBootRead_touches rfl h).keepsIdent
  | keeperPowerOn => exact execKeeperPowerOn_keepsIdent
  | keeperRunning => exact (execKeeperRunning_touches rfl h).keepsIdent
  | vddKeepLoss => exact execVddKeepLoss_keepsIdent
  | mainPowerOn => exact execMainPowerOn_keepsIdent
  | mainPgFall => exact execMainPgFall_keepsIdent
  | sysReset => exact execSysReset_keepsIdent
  | resetCtrlWrite => exact execResetCtrlWrite_keepsIdent
  | hostReset => exact (execHostReset_touches rfl h).keepsIdent
  | pcieLinkUp => exact (execPcieLinkUp_touches rfl h).keepsIdent
  | flr => exact (execFlr_touches rfl h).keepsIdent
  | pfFlr => exact (execPfFlr_touches rfl h).keepsIdent
  | monitorTrip => exact (execMonitorTrip_touches rfl h).keepsIdent
  | monitorClear => exact (execMonitorClear_touches rfl h).keepsIdent
  | hostLoadStart => exact (execHostLoadStart_touches rfl h).keepsIdent
  | loadAbort => exact (execLoadAbort_touches rfl h).keepsIdent
  | imageHeaderCheck => exact (execImageHeaderCheck_touches rfl h).keepsIdent
  | sectionBodyCheck => exact (execSectionBodyCheck_touches rfl h).keepsIdent
  | imageApply => exact execImageApply_leavesIdent.keepsIdent
  | imageApplyEnd => exact execImageApplyEnd_leavesIdent.keepsIdent
  | troupeImageApply => exact execTroupeImageApply_leavesIdent.keepsIdent
  | commit => exact (execCommit_touches rfl h).keepsIdent
  | commitFence => exact execCommitFence_leavesIdent.keepsIdent
  | commitDrainEnd => exact (execCommitDrainEnd_touches rfl h).keepsIdent
  | drainLimitExpiry => exact execDrainLimitExpiry_leavesIdent.keepsIdent
  | perstDeassert => exact (execPerstDeassert_touches rfl h).keepsIdent
  | sysResetNRelease => exact (execSysResetNRelease_touches rfl h).keepsIdent
  | cdrLock => exact (execCdrLock_touches rfl h).keepsIdent
  | adaptDone => exact (execAdaptDone_touches rfl h).keepsIdent
  | alignmentMarkerLock => exact (execAlignmentMarkerLock_touches rfl h).keepsIdent
  | portFaultEnd => exact (execPortFaultEnd_touches rfl h).keepsIdent
  | ieeeLinkTrainingEnd => exact (execIeeeLinkTrainingEnd_touches rfl h).keepsIdent
  | checkSync => exact (execCheckSync_touches rfl h).keepsIdent
  | configurationRequest => exact (execConfigurationRequest_touches rfl h).keepsIdent
  | resyncCopyDone => exact (execResyncCopyDone_touches rfl h).keepsIdent
  | ownerKeyCommandDone => exact (execOwnerKeyCommandDone_touches rfl h).keepsIdent
  | unknownOp => exact (execUnknownOp_touches rfl h).keepsIdent
  | zeroFillDone => exact (execZeroFillDone_touches rfl h).keepsIdent

theorem step_keepsIdent (s : State) : KeepsIdent s (step s) := by
  unfold step
  split
  · exact KeepsIdent.next (State.tick_touches rfl (Touches.refl notIdent s)).identOk
  · next c rest _ => exact fun hs => exec_keepsIdent c { s with pending := rest } hs

theorem State.reset_identOk : State.reset.identOk := ⟨by decide, by decide⟩

/-! ## What a read of the register shows -/

theorem State.readField_ro {s : State} {fn : Nat} {t : Target} {f : Fld} (ha : f.acc = .ro) :
    s.readField fn t f = s.get f t.idx := by
  simp [State.readField, State.isStaged, ha]

/-- TOP.IDENT as the physical function reads it: its fields as they are in force. -/
theorem State.readReg_ident (s : State) : s.readReg 0 { reg := .TOP_IDENT, idx := 0, byte := 0 } =
    withBits (withBits (withBits (withBits 0 0 16 (s.get TOP.IDENT.VENDOR 0)) 16 16 (s.get TOP.IDENT.PART 0))
      32 8 (s.get TOP.IDENT.STEPPING 0)) 40 3 (s.get TOP.IDENT.PKG 0) := by
  simp [State.readReg, Reg.fields, State.readField_ro]

theorem State.readReg_ident_part (s : State) :
    bitsOf (s.readReg 0 { reg := .TOP_IDENT, idx := 0, byte := 0 }) 16 16 = s.get TOP.IDENT.PART 0 := by
  rw [State.readReg_ident, bitsOf_withBits_other _ _ _ _ _ _ (by decide) (by decide),
    bitsOf_withBits_other _ _ _ _ _ _ (by decide) (by decide), bitsOf_withBits_same _ _ _ _ (by decide)]
  exact Nat.mod_eq_of_lt (State.get_lt s TOP.IDENT.PART 0)

theorem State.readReg_ident_stepping (s : State) :
    bitsOf (s.readReg 0 { reg := .TOP_IDENT, idx := 0, byte := 0 }) 32 8 = s.get TOP.IDENT.STEPPING 0 := by
  rw [State.readReg_ident, bitsOf_withBits_other _ _ _ _ _ _ (by decide) (by decide),
    bitsOf_withBits_same _ _ _ _ (by decide)]
  exact Nat.mod_eq_of_lt (State.get_lt s TOP.IDENT.STEPPING 0)

end Sys2Proof.Machine

section
open Sys2Proof Sys2Proof.Machine

/-- Settles O8: the reset state reports them, every step keeps what TOP.IDENT reports, and a read shows its fields. -/
theorem theIdentityRegisterIsFixed : Obligations.TheIdentityRegisterIsFixed := by
  unfold Obligations.TheIdentityRegisterIsFixed
  refine ⟨State.reset_identOk, fun s t hp hst hstep => step_keepsIdent s ⟨hp, hst⟩ t hstep, fun s hp hst => ⟨?_, ?_⟩⟩
  · exact (State.readReg_ident_part s).trans hp
  · exact (State.readReg_ident_stepping s).trans hst

end
end

section
/-!
SUPPORT. An accepted commit, field by field writes and what follows a write: what they leave of the configuration block
(R82), and the statement about the pending set.
-/

namespace Sys2Proof.Machine

/-! ## All parts of the state but one, as a mask of `Touches` -/

/-- Every part of the state. -/
def allParts : Nat := 0x3FFFFFFFFFFFFFFFFFFFFFFFFFFFFFFFFFFFFFFFFFFFFFFFFFFFFFFFFFFFFFFFFFFFFFFFFFFFFFFFFFFFFFFFFFFFFFFF

/-- Every part of the state but one. -/
def allBut (p : Part) : Nat := allParts ^^^ 1 <<< p.bit

/-! ## Commits that are opened (R82, R83) -/

@[simp] theorem State.cf_setCommit {s : State} {c : CommitRec} {f : Fld} {v : Nat} : (s.setCommit c f v).cf = s.cf := by
  unfold State.setCommit
  split <;> rfl

theorem State.fullApply_setCommit {s : State} {c : CommitRec} {f : Fld} {v : Nat} (hf : f.reg ≠ .CFG_LOAD_STATUS) :
    (s.setCommit c f v).fullApply = s.fullApply := by
  simp only [State.fullApply, State.cf_setCommit]
  unfold State.setCommit
  split
  · rfl
  · rw [State.get_set_ne (.inl hf)]

/-- A commit that is neither refused for a full image's apply nor BUSY joins the open ones with the staging copies. -/
theorem State.openCommit_commits {s : State} {b : CommitBy} {scope : Option Nat} {defer : Bool}
    (ha : s.fullApply = false) (hb : s.commitBusy = false) :
    (s.openCommit b scope defer).cf.commits =
      s.cf.commits ++ [{ by_ := b, scope := scope, defer := defer, phase := .check, pendingSet := s.staging }] := by
  unfold State.openCommit
  extract_lets c s1 s2 s3 s4 s5
  have ha3 : s3.fullApply = false := by
    simp only [s3, s2, s1, State.fullApply_setCommit (f := CFG.COMMIT_STATUS.DEFERRED) (by decide),
      State.fullApply_setCommit (f := CFG.COMMIT_STATUS.TROUPE) (by decide),
      State.fullApply_setCommit (f := CFG.COMMIT_STATUS.SCOPE) (by decide), ha]
  have hcf : s3.cf = s.cf := by simp [s3, s2, s1]
  have hb3 : s3.commitBusy = false := by simpa [State.commitBusy, hcf] using hb
  simp [ha3, hb3, s5, s4, hcf, c]

/-! ## A write that reaches the fields of a register (R16) -/

/-- A write passes every check of an access, and its register, which is there and within reach, has no command of its own. -/
structure FieldWrite (s : State) (fn : FnNo) (off : BarOffset) (size : Fin 65) (v : Word) (g : Target) : Prop where
  host : s.hostReach 0 true = true
  kind : s.accessKind fn off size true v = 0
  target : s.target fn off = some g
  present : s.present g = true
  block : s.hostReach fn (State.openReg g) = true
  row : s.rowWrite fn g (accessLanes off size) (s.merged g (accessLanes off size) ((accessLanes off size).place v)) = none

/-- The fields of a register, each written by its access code. -/
def State.fieldsWritten (s : State) (fn : Nat) (g : Target) (l : Lanes) (w : Word) : State :=
  g.reg.fields.foldl (fun u f => u.writeField fn g l w f) s

theorem FieldWrite.busWrite {s : State} {fn : FnNo} {off : BarOffset} {size : Fin 65} {v : Word} {g : Target}
    (h : FieldWrite s fn off size v g) :
    s.busWrite fn off size v =
      s.afterWrite ((s.fieldsWritten fn g (accessLanes off size) ((accessLanes off size).place v)).pairedFields fn g
        (off - g.byte) (accessLanes off size) ((accessLanes off size).place v)) g := by
  simp [State.busWrite, State.fieldsWritten, State.reaches, h.host, h.kind, h.target, h.present, h.block, h.row]

/-- Field by field, a write reaches registers and staging copies. -/
theorem State.fieldsWritten_touches {m : Nat} {s : State} {fn : Nat} {g : Target} {l : Lanes} {w : Word}
    (hk : 0x3FFFFFFFFFFFFFFFFFFFFFFFFFFFFFFFFFFFFFFFFFFFFFFFFFFFFFFFFFFFFFFFFFFFFFFFFFFFFFFFFFFFFFFFFF80002 ||| m = m) :
    Touches m s (s.fieldsWritten fn g l w) :=
  Touches.foldl (fun _ _ hs => State.writeField_touches hk hs) (Touches.refl _ s)

@[simp] theorem State.cf_fieldsWritten {s : State} {fn : Nat} {g : Target} {l : Lanes} {w : Word} :
    (s.fieldsWritten fn g l w).cf = s.cf := (State.fieldsWritten_touches (m := allBut .cf) rfl).cf_same rfl

@[simp] theorem State.now_fieldsWritten {s : State} {fn : Nat} {g : Target} {l : Lanes} {w : Word} :
    (s.fieldsWritten fn g l w).now = s.now := (State.fieldsWritten_touches (m := allBut .now) rfl).now_same rfl

@[simp] theorem State.cf_afterWrite {old s : State} {t : Target} : (old.afterWrite s t).cf = s.cf :=
  (State.afterWrite_touches (m := allBut .cf) rfl (Touches.refl _ s)).cf_same rfl

/-! ## Paired fields and the open commits (R90 to R92) -/

@[simp] theorem State.cf_pairRefill {s : State} {k : Nat} : (s.pairRefill k).cf = s.cf :=
  (State.pairRefill_touches (m := allBut .cf) rfl (Touches.refl _ s)).cf_same rfl

@[simp] theorem State.cf_timePair {s : State} {rate step : Int} : (s.timePair rate step).cf = s.cf :=
  (State.timePair_touches (m := allBut .cf) rfl (Touches.refl _ s)).cf_same rfl

@[simp] theorem State.cf_showPending {s : State} {fn : Nat} : (s.showPending fn).cf = s.cf := rfl

@[simp] theorem State.cf_pairDiscard {s : State} {fn cause offset lo written : Nat} :
    (s.pairDiscard fn cause offset lo written).cf = s.cf :=
  (State.pairDiscard_touches (m := allBut .cf) rfl (Touches.refl _ s)).cf_same rfl

@[simp] theorem State.commits_pairTake {s : State} {f g : PairField} {v w : Nat} :
    (s.pairTake f g v w).cf.commits = s.cf.commits := by
  unfold State.pairTake
  split
  · rw [State.cf_timePair]
  · rw [State.cf_timePair]
  · rfl
  · rfl
  · extract_lets s1 s2
    split
    · rw [State.cf_pairRefill]; rfl
    · rfl

@[simp] theorem State.commits_pairWrite {s : State} {fn : Nat} {f : PairField} {v written offset : Nat} :
    (s.pairWrite fn f v written offset).cf.commits = s.cf.commits := by
  unfold State.pairWrite
  split
  · rfl
  · split
    · split
      · rw [State.cf_pairDiscard]
      · split
        · rfl
        · exact State.commits_pairTake
    · split
      · rw [State.cf_pairDiscard]
      · rfl

@[simp] theorem State.commits_pairedFields {s : State} {fn : Nat} {t : Target} {off : Nat} {l : Lanes} {w : Word} :
    (s.pairedFields fn t off l w).cf.commits = s.cf.commits := by
  unfold State.pairedFields
  split
  · rfl
  · extract_lets v alone
    split
    · rfl
    · exact State.commits_pairWrite
  · exact State.commits_pairTake

theorem FieldWrite.commits_busWrite {s : State} {fn : FnNo} {off : BarOffset} {size : Fin 65} {v : Word} {g : Target}
    (h : FieldWrite s fn off size v g) : (s.busWrite fn off size v).cf.commits = s.cf.commits := by
  rw [h.busWrite, State.cf_afterWrite, State.commits_pairedFields, State.cf_fieldsWritten]

end Sys2Proof.Machine

section
open Sys2Proof Sys2Proof.Machine

/-- Settles O11: the commit is opened with the staging copies, and no part of a later staging write reaches the open ones. -/
theorem commitTakesTheStagedValues : Obligations.CommitTakesTheStagedValues := by
  unfold Obligations.CommitTakesTheStagedValues
  refine ⟨fun v s hr hgo ha hb => ?_, fun fn off size v g s t hr hk ht hp hb hrow hstep => ?_⟩
  · have he : exec (.commit v) s = execCommit v s := rfl
    refine ⟨s.openCommit .cfg (if bitsOf v 1 1 = 1 then some (bitsOf v 8 6) else none) (bitsOf v 2 1 == 1), _, ?_,
      State.openCommit_commits ha hb, rfl, rfl⟩
    rw [he, execCommit, hr, hgo]
    rfl
  · have hw : FieldWrite s fn off size v g := ⟨hr, hk, ht, hp, hb, hrow⟩
    have he : exec (.stagingWrite fn off size v) s =
      .next (if s.hasField fn off s.isStaged then s.busWrite fn off size v else s) := rfl
    rw [he] at hstep
    cases hstep
    split
    · exact hw.commits_busWrite
    · rfl

end
end

section
/-!
SUPPORT. Writes that open or replace a pending latch of a paired field (R90 to R94), and the two statements about them.
-/

namespace Sys2Proof

/-! ## Registers that hold paired fields (R90, R220) -/

/-- The registers of the pairs of `State.partner`. -/
def pairRegs : List Reg :=
  [.POL_CFG, .QM_PORT_SHAPER, .QM_CG_SHAPER, .QM_QSHAPER, .TIME_RATE, .TIME_STEP_NS, .PIPE_PROG_REG]

/-- The access codes by which a write sets a field at once. -/
def Access.setsAtOnce (a : Access) : Bool := a == .rw || a == .rwk || a == .w1c

/-- The bits of a field are of a paired register, apart from each of its fields that a write sets at once. -/
def Fld.besideSet (q : Fld) : Bool :=
  pairRegs.contains q.reg && q.reg.fields.all fun f =>
    !f.acc.setsAtOnce || (decide (f.lo + f.width ≤ 64) && (decide (q.lo + q.width ≤ f.lo) || decide (f.lo + f.width ≤ q.lo)))

end Sys2Proof

namespace Sys2Proof.Machine

/-- Every part of the state but the registers that hold paired fields. -/
def notPairs : Nat := pairRegs.foldl (fun m r => m ^^^ 1 <<< r.bit) allParts

theorem testBit_notPairs {r : Reg} (h : r ∈ pairRegs) : notPairs.testBit r.bit = false := by
  have key : ∀ r ∈ pairRegs, notPairs.testBit r.bit = false := by decide
  exact key r h

theorem Fld.reg_of_besideSet {q : Fld} (h : q.besideSet = true) : q.reg ∈ pairRegs := by
  simpa using (Bool.and_eq_true_iff.mp h).1

theorem Reg.besideSet_of_rwp (r : Reg) : r.fields.all (fun f => f.acc != .rwp || f.besideSet) = true := by
  cases r <;> rfl

theorem Fld.besideSet_rwp {r : Reg} {f : Fld} (hf : f ∈ r.fields) (ha : f.acc = .rwp) : f.besideSet = true := by
  simpa [ha] using List.all_eq_true.mp (Reg.besideSet_of_rwp r) f hf

/-- A paired field has access code RWP, or is a program register that the image pairs (R90, R220). -/
theorem State.isPaired_cases {s : State} {g : Target} {f : Fld} (hf : f ∈ g.reg.fields) (hp : s.isPaired g f = true) :
    f.acc = .rwp ∨ f = PIPE.PROG_REG.VALUE ∧ s.isStaged g f = false := by
  rcases Bool.or_eq_true_iff.mp hp with ha | hr
  · exact .inl (by simpa using ha)
  · have hg : g.reg = .PIPE_PROG_REG := by simpa using (Bool.and_eq_true_iff.mp hr).1
    rw [hg, Reg.fields, List.mem_singleton] at hf
    exact .inr ⟨hf, by simp [State.isStaged, hr]⟩

theorem Fld.besideSet_isPaired {s : State} {g : Target} {f : Fld} (hf : f ∈ g.reg.fields) (hp : s.isPaired g f = true) :
    f.besideSet = true := by
  rcases State.isPaired_cases hf hp with ha | ⟨rfl, -⟩
  · exact Fld.besideSet_rwp hf ha
  · rfl

/-- The field that a pair names, as a field of the register file. -/
def PairField.fld (p : PairField) : Fld := ⟨p.reg, p.lo, p.width, .rwp⟩

/-- The partner of a paired field shares no bit with a field that a write sets at once. -/
theorem Fld.besideSet_partner {s : State} {f p : PairField} (h : s.partner f = some p) : p.fld.besideSet = true := by
  unfold State.partner at h
  split at h
  case h_1 hr | h_2 hr | h_3 hr | h_4 hr =>
    cases h
    split <;> simp only [PairField.fld, hr] <;> rfl
  case h_5 | h_6 =>
    cases h
    rfl
  case h_7 =>
    obtain ⟨j, -, rfl⟩ := Option.map_eq_some_iff.mp h
    rfl
  case h_8 => cases h

theorem State.readField_isPaired {s : State} {fn : Nat} {g : Target} {f : Fld} (hf : f ∈ g.reg.fields)
    (hp : s.isPaired g f = true) : s.readField fn g f = s.get f g.idx := by
  rcases State.isPaired_cases hf hp with ha | ⟨rfl, hs⟩
  · simp [State.readField, State.isStaged, ha]
  · simp [State.readField, hs]

/-! ## What a write leaves of the pair in force -/

theorem State.get_writeField {s : State} {fn : Nat} {g : Target} {l : Lanes} {w : Word} {f q : Fld} {i : Nat}
    (hq : q.besideSet = true) (hf : f ∈ g.reg.fields) : (s.writeField fn g l w f).get q i = s.get q i := by
  have hset : f.acc.setsAtOnce = true → ∀ {v : Nat}, (s.set f g.idx v).get q i = s.get q i := by
    intro ha v
    by_cases hr : f.reg = q.reg
    · have hfq : f ∈ q.reg.fields := by rwa [← hr, Reg.reg_of_mem_fields hf]
      have hside := List.all_eq_true.mp (Bool.and_eq_true_iff.mp hq).2 f hfq
      simp only [ha, Bool.not_true, Bool.false_or, Bool.and_eq_true, Bool.or_eq_true, decide_eq_true_eq] at hside
      exact State.get_set_apart hside.1 hside.2
    · exact State.get_set_ne (.inl hr)
  unfold State.writeField
  extract_lets v
  split
  · rfl
  · split
    · next ha => exact hset (by rw [ha]; rfl)
    · next ha => exact hset (by rw [ha]; rfl)
    · next ha => exact hset (by rw [ha]; rfl)
    · exact State.get_setStaged
    · rfl

theorem State.get_fieldsWritten {s : State} {fn : Nat} {g : Target} {l : Lanes} {w : Word} {q : Fld} {i : Nat}
    (hq : q.besideSet = true) : (s.fieldsWritten fn g l w).get q i = s.get q i := by
  unfold State.fieldsWritten
  exact List.foldlRecOn (motive := fun u : State => u.get q i = s.get q i) _ _ rfl
    fun _ hu _ hf => (State.get_writeField hq hf).trans hu

/-- What follows a write of a register sets no register that holds paired fields. -/
theorem State.get_afterWrite {old s : State} {t : Target} {q : Fld} {i : Nat} (hq : q.besideSet = true) :
    (old.afterWrite s t).get q i = s.get q i :=
  (State.afterWrite_touches (m := notPairs) rfl (Touches.refl _ s)).get (testBit_notPairs (Fld.reg_of_besideSet hq))

/-! ## A write of one field of a pair -/

theorem State.isPaired_congr {s u : State} (h : u.cf.image = s.cf.image) (g : Target) : u.isPaired g = s.isPaired g := by
  funext f
  simp only [State.isPaired, State.image, h]

theorem State.partner_congr {s u : State} (h : u.cf.image = s.cf.image) (f : PairField) : u.partner f = s.partner f := by
  simp only [State.partner, State.image, h]

/-- A write that takes one paired field alone writes it, where it changes it or the field is alone in its register (R93). -/
theorem State.pairedFields_one {s : State} {fn : Nat} {g : Target} {off : Nat} {l : Lanes} {w : Word} {f : Fld}
    (hone : g.reg.fields.filter (fun f => s.isPaired g f && l.takes f) = [f])
    (hch : bitsOf w f.lo f.width ≠ s.get f g.idx ∨ (g.reg.fields.filter fun f => s.isPaired g f).length = 1) :
    s.pairedFields fn g off l w =
      s.pairWrite fn ⟨g.reg, g.idx, f.lo, f.width⟩ (bitsOf w f.lo f.width) w.toNat off := by
  rcases hch with hne | halone
  · simp [State.pairedFields, hone, hne]
  · simp [State.pairedFields, hone, halone]

/-- A write of a register reaches one field of a pair, which it changes or which is alone in its register (R93). -/
structure OneFieldWrite (s : State) (fn : FnNo) (off : BarOffset) (size : Fin 65) (v : Word) (g : Target) (f : Fld)
    (p : PairField) : Prop extends FieldWrite s fn off size v g where
  one : g.reg.fields.filter (fun f => s.isPaired g f && (accessLanes off size).takes f) = [f]
  partner : s.partner ⟨g.reg, g.idx, f.lo, f.width⟩ = some p
  changes : bitsOf ((accessLanes off size).place v) f.lo f.width ≠ s.get f g.idx ∨
    (g.reg.fields.filter fun f => s.isPaired g f).length = 1

section
variable {s : State} {fn : FnNo} {off : BarOffset} {size : Fin 65} {v : Word} {g : Target} {f : Fld} {p : PairField}

theorem OneFieldWrite.mem_fields (h : OneFieldWrite s fn off size v g f p) : f ∈ g.reg.fields ∧ s.isPaired g f = true := by
  have hf : f ∈ g.reg.fields.filter (fun f => s.isPaired g f && (accessLanes off size).takes f) := by
    rw [h.one]
    exact List.mem_cons_self
  obtain ⟨hm, ht⟩ := List.mem_filter.mp hf
  exact ⟨hm, (Bool.and_eq_true_iff.mp ht).1⟩

/-- The state that the pair's latches are written in: the other fields of the register are written. -/
def State.besideWritten (s : State) (fn : FnNo) (off : BarOffset) (size : Fin 65) (v : Word) (g : Target) : State :=
  s.fieldsWritten fn g (accessLanes off size) ((accessLanes off size).place v)

theorem OneFieldWrite.exec_eq (h : OneFieldWrite s fn off size v g f p) :
    exec (.pairedWrite fn off size v) s = .next (s.afterWrite ((s.besideWritten fn off size v g).pairWrite fn
      ⟨g.reg, g.idx, f.lo, f.width⟩ (bitsOf ((accessLanes off size).place v) f.lo f.width)
      ((accessLanes off size).place v).toNat (off - g.byte)) g) := by
  obtain ⟨hm, hp⟩ := h.mem_fields
  have hfield : s.hasField fn off s.isPaired = true := by
    simp only [State.hasField, h.target, List.any_eq_true]
    exact ⟨f, hm, hp⟩
  have he : exec (.pairedWrite fn off size v) s =
    .next (if s.hasField fn off s.isPaired then s.busWrite fn off size v else s) := rfl
  have hpair : (s.besideWritten fn off size v g).isPaired g = s.isPaired g :=
    State.isPaired_congr (congrArg CfgBlock.image State.cf_fieldsWritten) g
  have hget : (s.besideWritten fn off size v g).get f g.idx = s.get f g.idx :=
    State.get_fieldsWritten (Fld.besideSet_isPaired hm hp)
  rw [he, if_pos hfield, h.busWrite, ← State.besideWritten,
    State.pairedFields_one (by rw [hpair]; exact h.one) (by rw [hpair, hget]; exact h.changes)]

/-- A paired write that changes latches alone leaves both fields of the pair as they are in force (R90). -/
theorem OneFieldWrite.keepsPair (h : OneFieldWrite s fn off size v g f p) {u : State}
    (hu : Touches notPairs (s.besideWritten fn off size v g) u) :
    (s.afterWrite u g).get f g.idx = s.get f g.idx ∧ (s.afterWrite u g).get p.fld p.idx = s.get p.fld p.idx := by
  have keep : ∀ {q : Fld} {i : Nat}, q.besideSet = true → (s.afterWrite u g).get q i = s.get q i := by
    intro q i hq
    rw [State.get_afterWrite hq, hu.get (testBit_notPairs (Fld.reg_of_besideSet hq))]
    exact State.get_fieldsWritten hq
  obtain ⟨hm, hp⟩ := h.mem_fields
  exact ⟨keep (Fld.besideSet_isPaired hm hp), keep (Fld.besideSet_partner h.partner)⟩

end

/-! ## Latches that a write opens and replaces (R90, R94) -/

/-- The latch that the first write of a pair opens. -/
def State.firstLatch (s : State) (fn : Nat) (f : PairField) (v written offset : Nat) : PairLatch :=
  { fn := fn, reg := f.reg.ctorIdx, idx := f.idx, lo := f.lo, width := f.width, value := v, written := written,
    offset := offset, at_ := s.now }

theorem State.firstLatch_isOn {s : State} {fn : Nat} {f : PairField} {v written offset : Nat} :
    (s.firstLatch fn f v written offset).isOn f = true := by
  simp [PairLatch.isOn, State.firstLatch]

theorem State.pairWrite_first {s : State} {fn : Nat} {f g : PairField} {v written offset : Nat}
    (hg : s.partner f = some g) (hl : s.cf.latches.find? (fun l => l.isOn f || l.isOn g) = none)
    (hn : (s.cf.latches.filter fun l => l.fn == fn).length < 4) :
    s.pairWrite fn f v written offset =
      (s.setLatches (s.cf.latches ++ [s.firstLatch fn f v written offset])).showPending fn := by
  simp only [State.pairWrite, hg, hl, if_neg (Nat.not_le.mpr hn)]
  rfl

/-- A latch with a new value, as a second write of its field leaves it. -/
def PairLatch.rewritten (l : PairLatch) (v written : Nat) : PairLatch := { l with value := v, written := written }

theorem State.pairWrite_again {s : State} {fn : Nat} {f g : PairField} {l : PairLatch} {v written offset : Nat}
    (hg : s.partner f = some g) (hl : s.cf.latches.find? (fun l => l.isOn f || l.isOn g) = some l) (hfn : l.fn = fn)
    (hon : l.isOn f = true) :
    s.pairWrite fn f v written offset =
      s.setLatches (s.cf.latches.map fun m => if m = l then l.rewritten v written else m) := by
  simp [State.pairWrite, PairLatch.rewritten, hg, hl, hfn, hon]

end Sys2Proof.Machine

section
open Sys2Proof Sys2Proof.Machine

/-- Settles O12: the write appends a latch and changes nothing else of the pair. -/
theorem firstWriteOfAPairWaits : Obligations.FirstWriteOfAPairWaits := by
  unfold Obligations.FirstWriteOfAPairWaits
  intro fn off size v g f p s hr hk ht hp hb hrow hone hpart hch hfree hroom
  have hw : OneFieldWrite s fn off size v g f p := ⟨⟨hr, hk, ht, hp, hb, hrow⟩, hone, hpart, hch⟩
  have hcf : (s.besideWritten fn off size v g).cf = s.cf := State.cf_fieldsWritten
  have hnow : (s.besideWritten fn off size v g).now = s.now := State.now_fieldsWritten
  have hexec := hw.exec_eq
  rw [State.pairWrite_first ((State.partner_congr (by rw [hcf]) _).trans hpart) (by rw [hcf]; exact hfree)
    (by rw [hcf]; exact hroom)] at hexec
  obtain ⟨hf, hg⟩ := hw.keepsPair (State.showPending_touches rfl (State.setLatches_touches rfl (Touches.refl _ _)))
  obtain ⟨hm, hpaired⟩ := hw.mem_fields
  refine ⟨_, _, hexec, by rw [State.cf_afterWrite, hcf]; rfl, rfl, State.firstLatch_isOn, rfl, hnow, hf, hg, ?_⟩
  refine (State.readField_isPaired hm ?_).trans hf
  rw [State.isPaired_congr (s := s) (by rw [State.cf_afterWrite, State.cf_showPending, ← hcf]; rfl)]
  exact hpaired

/-- Settles O13: the write puts a new value in the latch of the field and changes nothing else of the pair. -/
theorem secondWriteReplacesThePendingValue : Obligations.SecondWriteReplacesThePendingValue := by
  unfold Obligations.SecondWriteReplacesThePendingValue
  intro fn off size v g f p l s hr hk ht hp hb hrow hone hpart hch hl hfn hon
  have hw : OneFieldWrite s fn off size v g f p := ⟨⟨hr, hk, ht, hp, hb, hrow⟩, hone, hpart, hch⟩
  have hcf : (s.besideWritten fn off size v g).cf = s.cf := State.cf_fieldsWritten
  have hexec := hw.exec_eq
  rw [State.pairWrite_again ((State.partner_congr (by rw [hcf]) _).trans hpart) (by rw [hcf]; exact hl) hfn hon] at hexec
  obtain ⟨hf, hg⟩ := hw.keepsPair (State.setLatches_touches rfl (Touches.refl _ _))
  exact ⟨_, l.rewritten _ _, hexec, by rw [State.cf_afterWrite, hcf]; rfl, rfl, rfl, rfl, rfl, rfl, rfl, hf, hg⟩

end
end

section
/-!
SUPPORT. The discard of pending latches (R95, R100), and the statement about their timeout.
-/

namespace Sys2Proof.Machine

/-! ## The latches that are left -/

/-- An element that is not among those erased one by one stays where it stands. -/
theorem foldl_erase_cons {α : Type} [DecidableEq α] {a : α} {xs : List α} (h : a ∉ xs) (l : List α) :
    xs.foldl List.erase (a :: l) = a :: xs.foldl List.erase l := by
  induction xs generalizing l with
  | nil => rfl
  | cons x xs ih =>
    have hne : ¬ (a == x) = true := fun e => List.ne_of_not_mem_cons h (eq_of_beq e)
    rw [List.foldl_cons, List.foldl_cons, List.erase_cons_tail hne, ih (List.not_mem_of_not_mem_cons h)]

/-- To erase from a list, one by one, its elements of a kind leaves the others. -/
theorem foldl_erase_filter {α : Type} [DecidableEq α] (q : α → Bool) (l : List α) :
    (l.filter q).foldl List.erase l = l.filter fun a => !q a := by
  induction l with
  | nil => rfl
  | cons a l ih =>
    cases ha : q a with
    | true =>
      have hout : ¬ (!q a) = true := by rw [ha]; decide
      rw [List.filter_cons_of_pos ha, List.filter_cons_of_neg (p := fun a => !q a) hout, List.foldl_cons,
        List.erase_cons_head, ih]
    | false =>
      have hin : (!q a) = true := by rw [ha]; rfl
      have hout : ¬ q a = true := by rw [ha]; decide
      have hnot : a ∉ l.filter q := fun hm => hout (List.mem_filter.mp hm).2
      rw [List.filter_cons_of_neg hout, List.filter_cons_of_pos (p := fun a => !q a) hin, foldl_erase_cons hnot, ih]

theorem State.latches_dropLatch {s : State} {l : PairLatch} {cause : Nat} :
    (s.dropLatch l cause).cf.latches = s.cf.latches.erase l := by
  rw [State.dropLatch, State.cf_pairDiscard]
  rfl

theorem State.latches_foldl_dropLatch {cause : Nat} (ls : List PairLatch) (s : State) :
    (ls.foldl (fun s l => s.dropLatch l cause) s).cf.latches = ls.foldl List.erase s.cf.latches := by
  induction ls generalizing s with
  | nil => rfl
  | cons l ls ih => rw [List.foldl_cons, List.foldl_cons, ih, State.latches_dropLatch]

/-! ## What CFG.PAIR_STATUS reports (R100) -/

/-- CFG.PAIR_STATUS reports to a function that a latch timed out. -/
def State.reportsTimeout (s : State) (fn : Nat) : Prop :=
  s.get CFG.PAIR_STATUS.LAST_CAUSE fn = 1 ∧ s.get CFG.PAIR_STATUS.DISCARD_SEEN fn = 1

/-- What a discard shows in CFG.PAIR_STATUS, the first of the registers that it sets. -/
def State.showDiscard (s : State) (fn cause : Nat) : State :=
  ((s.addSat CFG.PAIR_STATUS.DISCARDS fn 1).set CFG.PAIR_STATUS.LAST_CAUSE fn cause).set CFG.PAIR_STATUS.DISCARD_SEEN fn 1

theorem State.pairDiscard_touches_showDiscard {s : State} {fn cause offset lo written : Nat} :
    Touches (allBut (.reg .CFG_PAIR_STATUS)) (s.showDiscard fn cause) (s.pairDiscard fn cause offset lo written) := by
  unfold State.pairDiscard
  extract_lets s1 s2 s3 s4 s5 s6
  have h6 : Touches (allBut (.reg .CFG_PAIR_STATUS)) s3 s6 :=
    Touches.set rfl (Touches.set rfl (Touches.set rfl (Touches.refl _ s3)))
  exact Touches.ite (Touches.raise rfl rfl h6) (Touches.raiseWin rfl rfl h6)

theorem State.reportsTimeout_showDiscard {s : State} {fn : Nat} : (s.showDiscard fn pairTimeout).reportsTimeout fn := by
  constructor
  · rw [State.showDiscard, State.get_set_apart (by decide) (by decide), State.get_set_same (by decide)]
    rfl
  · exact State.get_set_same (by decide)

theorem State.reportsTimeout_of_touches {s t : State} {fn : Nat} (h : Touches (allBut (.reg .CFG_PAIR_STATUS)) s t)
    (hs : s.reportsTimeout fn) : t.reportsTimeout fn :=
  ⟨(h.get rfl).trans hs.1, (h.get rfl).trans hs.2⟩

theorem State.reportsTimeout_set_ne {s : State} {f : Fld} {n fn v : Nat} (hn : n ≠ fn) (hs : s.reportsTimeout fn) :
    (s.set f n v).reportsTimeout fn :=
  ⟨(State.get_set_ne (.inr hn)).trans hs.1, (State.get_set_ne (.inr hn)).trans hs.2⟩

theorem State.reportsTimeout_dropLatch_self {s : State} {l : PairLatch} :
    (s.dropLatch l pairTimeout).reportsTimeout l.fn :=
  State.reportsTimeout_of_touches State.pairDiscard_touches_showDiscard State.reportsTimeout_showDiscard

/-- A report stands through the timeout of another latch: one of the same function reports the same, and one of another
function reports elsewhere. -/
theorem State.reportsTimeout_dropLatch {s : State} {l : PairLatch} {fn : Nat} (hs : s.reportsTimeout fn) :
    (s.dropLatch l pairTimeout).reportsTimeout fn := by
  by_cases hn : l.fn = fn
  · exact hn ▸ State.reportsTimeout_dropLatch_self
  · have hpending : ((s.setLatches (s.cf.latches.erase l)).showPending l.fn).reportsTimeout fn :=
      State.reportsTimeout_set_ne hn hs
    exact State.reportsTimeout_of_touches State.pairDiscard_touches_showDiscard
      (State.reportsTimeout_set_ne hn (State.reportsTimeout_set_ne hn (State.reportsTimeout_set_ne hn hpending)))

theorem State.reportsTimeout_foldl_dropLatch {fn : Nat} (ls : List PairLatch) {s : State} (hs : s.reportsTimeout fn) :
    (ls.foldl (fun s l => s.dropLatch l pairTimeout) s).reportsTimeout fn := by
  induction ls generalizing s with
  | nil => exact hs
  | cons l ls ih => exact ih (State.reportsTimeout_dropLatch hs)

/-- The function of each latch that timed out is told. -/
theorem State.reportsTimeout_of_mem {l : PairLatch} {ls : List PairLatch} (hl : l ∈ ls) (s : State) :
    (ls.foldl (fun s l => s.dropLatch l pairTimeout) s).reportsTimeout l.fn := by
  induction hl generalizing s with
  | head ls => exact State.reportsTimeout_foldl_dropLatch ls State.reportsTimeout_dropLatch_self
  | tail m _ ih => exact ih (s.dropLatch m pairTimeout)

/-- A register that holds paired fields is none of those that a discard sets. -/
theorem State.foldl_dropLatch_leavesPairs {ls : List PairLatch} {s : State} {cause : Nat} :
    Touches notPairs s (ls.foldl (fun s l => s.dropLatch l cause) s) :=
  Touches.foldl (fun _ _ hs => State.dropLatch_touches rfl hs) (Touches.refl _ s)

end Sys2Proof.Machine

section
open Sys2Proof Sys2Proof.Machine

/-- Settles O14: the latches of 1 ms and more are dropped one by one, each of which is reported and leaves its pair. -/
theorem pendingValuesTimeOut : Obligations.PendingValuesTimeOut := by
  unfold Obligations.PendingValuesTimeOut
  refine fun s => ⟨_, rfl, ?_, fun l hl hold => ?_, fun f i hf hpair => ?_⟩
  · have hyoung : ∀ l ∈ s.cf.latches, (!decide (l.at_ + msTicks ≤ s.now)) = decide (s.now < l.at_ + msTicks) :=
      fun l _ => by rw [← decide_not]; exact decide_eq_decide.mpr Nat.not_le
    rw [State.latches_foldl_dropLatch, foldl_erase_filter]
    exact List.filter_congr hyoung
  · exact State.reportsTimeout_of_mem (List.mem_filter.mpr ⟨hl, decide_eq_true hold⟩) s
  · have hr : f.reg ∈ pairRegs := by
      rcases hpair with ha | ha
      · exact Fld.reg_of_besideSet (Fld.besideSet_rwp hf ha)
      · rw [ha]
        decide
    exact State.foldl_dropLatch_leavesPairs.get (testBit_notPairs hr)

end
end

section
/-!
SUPPORT. The boot count and the cause of the last reset (R108, R109, R111) through main power-on, device resets and the
loss of the main rails, and the two statements about them.
-/

namespace Sys2Proof.Machine

/-! ## What TOP.BOOT_INFO reports of a boot (R109) -/

/-- From one state to another a boot was counted, and TOP.BOOT_INFO gives its cause. -/
def State.BootCounted (s t : State) (cause : Nat) : Prop :=
  t.get TOP.BOOT_INFO.LAST_RESET 0 = cause ∧
    t.get TOP.BOOT_INFO.BOOT_COUNT 0 = (s.get TOP.BOOT_INFO.BOOT_COUNT 0 + 1) % 2 ^ 32

/-- What does not touch TOP.BOOT_INFO counts no boot more. -/
theorem Touches.bootCounted {s t u : State} {cause : Nat} (h : Touches (allBut (.reg .TOP_BOOT_INFO)) t u)
    (ht : s.BootCounted t cause) : s.BootCounted u cause := by
  obtain ⟨hcause, hcount⟩ := ht
  exact ⟨(h.get rfl).trans hcause, (h.get rfl).trans hcount⟩

theorem State.bootCounted_countBoot {s : State} {cause : Nat} (hc : cause < 16) : s.BootCounted (s.countBoot cause) cause := by
  constructor
  · exact (State.get_set_same (by decide)).trans (Nat.mod_eq_of_lt hc)
  · exact (State.get_set_apart (by decide) (by decide)).trans (State.get_set_same (by decide))

/-! ## What a main-domain reset keeps (R108) -/

/-- A register that a reset keeps reads as it did. -/
theorem rfGet_keepRegs_of_mem {rs : List Reg} {rf : RegFile} {r : Reg} {i : Nat} (h : r ∈ rs) :
    rfGet (keepRegs rs rf) r i = rfGet rf r i :=
  rfGet_filter fun w => List.any_eq_true.mpr ⟨r, h, by simp [regKey_mod]⟩

/-- The parts that a main-domain reset sets after it has dropped what it does not keep: outputs, measurements, the fields of
CFG.BOOT that it keeps, TOP.READY, TOP.INT_CAUSE, BBX.LOSS and SEC.FW_BOOT. -/
def setByReset : Nat := 0x1010020000000000000100000000000000000000000000000000000000000000000000000000000002000100044000

/-- A main-domain reset starts from the kept registers and an empty switch. -/
theorem State.mainReset_from (s : State) : ∃ t : State, t.regs = keepRegs mainKept s.regs ∧ t.sw = {} ∧
    Touches setByReset t s.mainReset := by
  unfold State.mainReset
  extract_lets _ _ _ t1 t2 t3 t4 t5
  have h2 : Touches setByReset t1 t2 := State.carry_touches rfl (State.carry_touches rfl (Touches.refl _ t1))
  have h4 : Touches setByReset t1 t4 := Touches.set rfl (Touches.set rfl (Touches.set rfl h2))
  have h5 : Touches setByReset t1 t5 := Touches.setReg rfl h4
  exact ⟨t1, rfl, rfl, Touches.emit rfl (State.setMeas3_touches rfl (State.setMeas2_touches rfl h5))⟩

theorem State.get_mainReset_bootInfo {s : State} {f : Fld} {i : Nat} (hf : f.reg = .TOP_BOOT_INFO) :
    s.mainReset.get f i = s.get f i := by
  obtain ⟨t, hregs, -, ht⟩ := s.mainReset_from
  have hout : setByReset.testBit f.reg.bit = false := by rw [hf]; decide
  have hkept : t.get f i = s.get f i := by
    simp only [State.get, rfFld, hregs, rfGet_keepRegs_of_mem (show f.reg ∈ mainKept by rw [hf]; decide)]
  exact (ht.get hout).trans hkept

/-- A main-domain reset that is counted. -/
theorem State.bootCounted_mainReset (s : State) {cause : Nat} (hc : cause < 16) :
    s.BootCounted (s.mainReset.countBoot cause) cause := by
  obtain ⟨hcause, hcount⟩ := State.bootCounted_countBoot (s := s.mainReset) hc
  exact ⟨hcause, by rw [hcount, State.get_mainReset_bootInfo rfl]⟩

/-! ## The packets in the part (R108, R606) -/

theorem Touches.packets_same {m : Nat} {s t : State} (h : Touches m s t) (hb : m.testBit Part.sw.bit = false) :
    t.sw.packets = s.sw.packets := (congrArg Switch.packets (h.same .sw hb) :)

theorem State.packets_mainReset (s : State) : s.mainReset.sw.packets = [] := by
  obtain ⟨t, -, hsw, ht⟩ := s.mainReset_from
  rw [ht.packets_same rfl, hsw]

theorem State.packets_trainLink {s : State} {n : Nat} : (s.trainLink n).sw.packets = s.sw.packets := rfl

/-- The hub starts with the packets that are there: of the switch it touches the links alone. -/
theorem State.packets_hubStart {s : State} {ref25 : Bool} : (s.hubStart ref25).sw.packets = s.sw.packets := by
  unfold State.hubStart
  extract_lets pkg s1 s2 s3 s4 fw s5 slot
  have h1 : Touches (allBut .sw) s s1 := Touches.upd_pkg rfl (Touches.refl _ s)
  have h2 : Touches (allBut .sw) s s2 := State.record_touches rfl (Touches.set rfl h1)
  have h3 : Touches (allBut .sw) s s3 :=
    State.trainStack_touches rfl (State.trainStack_touches rfl (State.startChains_touches rfl
      (State.hubStartsPace_touches rfl h2)))
  have h4 : s4.sw.packets = s3.sw.packets :=
    List.foldlRecOn (motive := fun u : State => u.sw.packets = s3.sw.packets) _ _ rfl
      fun _ hu _ _ => State.packets_trainLink.trans hu
  have h5 : Touches (allBut .sw) s4 s5 := Touches.emit rfl (State.modSec_touches rfl (Touches.refl _ s4))
  refine Eq.trans ?_ (h4.trans (h3.packets_same rfl))
  exact Touches.packets_same (Touches.ite (State.startLoad_touches rfl (Touches.upd_cf rfl h5)) h5) rfl

theorem State.hubStart_bootCounted {s t : State} {cause : Nat} {ref25 : Bool} (ht : s.BootCounted t cause) :
    s.BootCounted (t.hubStart ref25) cause :=
  (State.hubStart_touches rfl (Touches.refl _ t)).bootCounted ht

/-! ## The commands (R606 to R608) -/

theorem execMainPowerOn_bootCounted {ref25 testEn : Bool} {s : State} (hk : s.pkg.keep = true) (hp : s.pkg.mainPg = false) :
    ∃ t, execMainPowerOn ref25 testEn s = .next t ∧ s.BootCounted t 2 := by
  unfold execMainPowerOn
  extract_lets s1 s2 s3 s4
  have h1 : Touches (allBut (.reg .TOP_BOOT_INFO)) s1 s1 := Touches.refl _ _
  have h2 : Touches (allBut (.reg .TOP_BOOT_INFO)) s1 s2 :=
    Touches.ite (Touches.emit rfl (State.modPkg_touches rfl h1)) h1
  have h3 : Touches (allBut (.reg .TOP_BOOT_INFO)) s1 s3 := State.modPkg_touches rfl h2
  have h4 : Touches (allBut (.reg .TOP_BOOT_INFO)) s1 s4 := Touches.ite (State.hubStart_touches rfl h3) h3
  rw [if_neg (by simp [hk, hp])]
  exact ⟨_, rfl, (Touches.ite (State.monitorTrip_touches rfl h4) h4).bootCounted (s.bootCounted_mainReset (by decide))⟩

theorem execSysReset_bootCounted {n : Nat} {s : State} (hn : usTicks ≤ n) (hr : s.pkg.sysResetN = true)
    (hp : s.pkg.mainPg = true) : ∃ t, execSysReset n s = .next t ∧ s.BootCounted t 3 := by
  have h : execSysReset n s = .next ((s.mainReset.countBoot 3).modPkg fun p => { p with sysResetN := false }) := by
    simp [execSysReset, Nat.not_lt.mpr hn, hr, hp]
  exact ⟨_, h, (State.modPkg_touches rfl (Touches.refl _ _)).bootCounted (s.bootCounted_mainReset (by decide))⟩

theorem execMainPgFall_keepsBootInfo {s t : State} {f : Fld} {i : Nat} (hf : f.reg = .TOP_BOOT_INFO)
    (h : execMainPgFall s = .next t) : t.get f i = s.get f i := by
  unfold execMainPgFall at h
  split at h
  · cases h
    rfl
  · cases h
    exact State.get_mainReset_bootInfo hf

/-! ## Writes of TOP.RESET_CTRL (R111) -/

/-- A device reset through TOP.RESET_CTRL: it is counted, and the hub leaves it at once unless SYS_RESET_N is low. -/
def State.resetByHost (s : State) : State :=
  let t := s.mainReset.countBoot 4
  if t.pkg.sysResetN then t.hubStart t.pkg.ref25 else t

/-- The one write that resets: the physical function's, with DEVICE and KEY. -/
theorem execResetCtrlWrite_keyed {v : Word} {s : State} (hr : s.hostReach 0 true = true) (hp : s.pkg.mainPg = true)
    (hd : bitsOf v 0 1 = 1) (hk : bitsOf v 16 16 = 0x2048) : execResetCtrlWrite 0 v s = .next s.resetByHost := by
  simp [execResetCtrlWrite, State.resetByHost, hr, hp, hd, hk]

theorem execResetCtrlWrite_unkeyed {fn : FnNo} {v : Word} {s : State}
    (h : fn.val ≠ 0 ∨ bitsOf v 0 1 ≠ 1 ∨ bitsOf v 16 16 ≠ 0x2048) : execResetCtrlWrite fn v s = .next s := by
  unfold execResetCtrlWrite
  split
  · rfl
  · refine if_pos ?_
    rcases h with h | h | h <;> simp [h]

theorem State.bootCounted_resetByHost (s : State) : s.BootCounted s.resetByHost 4 := by
  have hc := s.bootCounted_mainReset (cause := 4) (by decide)
  unfold State.resetByHost
  extract_lets t
  split
  · exact State.hubStart_bootCounted hc
  · exact hc

theorem State.packets_resetByHost (s : State) : s.resetByHost.sw.packets = [] := by
  have he : (s.mainReset.countBoot 4).sw.packets = [] := s.packets_mainReset
  unfold State.resetByHost
  extract_lets t
  split
  · exact State.packets_hubStart.trans he
  · exact he

/-- A bus write that reaches half of TOP.RESET_CTRL does nothing. -/
theorem State.busWrite_resetCtrl_half {fn : FnNo} {off size : Nat} {v : Word} {g : Target} {s : State}
    (hk : s.accessKind fn.val off size true v = 0) (ht : s.target fn.val off = some g) (hg : g.reg = .TOP_RESET_CTRL)
    (hl : accessLanes off size ≠ .all) : s.busWrite fn off size v = s := by
  have hrow : ∀ w, s.rowWrite fn g (accessLanes off size) w = some s := by
    simp [State.rowWrite, hg, hl]
  simp [State.busWrite, hk, ht, hrow]

end Sys2Proof.Machine

section
open Sys2Proof Sys2Proof.Machine

/-- Settles O15: a main-domain reset keeps TOP.BOOT_INFO, each of the three resets counts on it, and what follows does not
touch it. -/
theorem bootsAreCounted : Obligations.BootsAreCounted := by
  unfold Obligations.BootsAreCounted
  refine ⟨fun ref25 te s hk hp => ?_, fun n s hn hr hp => ?_, fun v s hr hd hk hp => ?_, fun s t h => ?_⟩
  · exact execMainPowerOn_bootCounted hk hp
  · exact execSysReset_bootCounted hn hr hp
  · exact ⟨_, execResetCtrlWrite_keyed hr hp hd hk, s.bootCounted_resetByHost⟩
  · exact ⟨execMainPgFall_keepsBootInfo rfl h, execMainPgFall_keepsBootInfo rfl h⟩

/-- Settles O16: the keyed write of the physical function resets, and every other write of the register leaves the state. -/
theorem onlyTheKeyedWriteResets : Obligations.OnlyTheKeyedWriteResets := by
  unfold Obligations.OnlyTheKeyedWriteResets
  refine ⟨fun v s hr hp hd hk => ?_, fun fn v s h => execResetCtrlWrite_unkeyed h, fun fn off size v g s _ ha ht hg hl => ?_⟩
  · obtain ⟨hcause, hcount⟩ := s.bootCounted_resetByHost
    exact ⟨_, execResetCtrlWrite_keyed hr hp hd hk, hcause, s.packets_resetByHost, hcount⟩
  · exact congrArg Host.Outcome.next (State.busWrite_resetCtrl_half ha ht hg hl)

end
end

section
/-!
SUPPORT. Cell addresses (R307): the pool bit and the index they are made of, and the statement about them.
-/

namespace Sys2Proof.Machine

/-! ## The parts of a cell address (R307) -/

theorem cellPool_lt_two (a : Nat) : cellPool a < 2 :=
  Nat.mod_lt _ Nat.two_pos

theorem cellIdx_lt (a : Nat) : cellIdx a < 2 ^ 24 :=
  Nat.mod_lt _ (Nat.two_pow_pos 24)

/-- An address of 25 bits has nothing above the pool bit, so its two parts put it together again. -/
theorem cellAddr_cellPool_cellIdx {a : Nat} (h : a < 2 ^ 25) : cellAddr (cellPool a) (cellIdx a) = a := by
  have hpool : cellPool a = a / 2 ^ 24 := Nat.mod_eq_of_lt (Nat.div_lt_of_lt_mul h)
  rw [hpool]
  exact Nat.div_add_mod' a (2 ^ 24)

theorem b2n_natBit (v i : Nat) : b2n (natBit v i) = v / 2 ^ i % 2 := by
  rw [natBit, Nat.shiftRight_eq_div_pow]
  rcases Nat.mod_two_eq_zero_or_one (v / 2 ^ i) with h | h <;> rw [h] <;> rfl

theorem State.cellExists_iff {s : State} {a : Nat} : s.cellExists a = true ↔ cellIdx a < s.poolCells (cellPool a) :=
  decide_eq_true_iff

end Sys2Proof.Machine

section
open Sys2Proof Sys2Proof.Machine

/-- Settles O10: division by 2 ^ 24 splits the address, and its quotient is one bit. -/
theorem cellAddressesNamePoolAndIndex : Obligations.CellAddressesNamePoolAndIndex := by
  unfold Obligations.CellAddressesNamePoolAndIndex
  refine fun s a h => ⟨(cellAddr_cellPool_cellIdx h).symm, cellPool_lt_two a, cellIdx_lt a, (b2n_natBit a 24).symm,
    State.cellExists_iff, ?_, ?_⟩
  · exact if_pos rfl
  · exact if_neg Nat.one_ne_zero

end
end

section
/-!
SUPPORT. The holds of the ports (R356, R361) through the fence of a commit, and the statement about it.
-/

namespace Sys2Proof.Machine

/-! ## What a commit leaves of the ports (R86) -/

theorem Touches.port_same {m : Nat} {s t : State} (h : Touches m s t) (hb : m.testBit Part.sw.bit = false) (x : Nat) :
    t.port x = s.port x := (congrArg (tabGet {} ·.ports x) (h.same .sw hb) :)

@[simp] theorem State.port_modPipe {s : State} {p : Nat} {f : Pipe → Pipe} {x : Nat} : (s.modPipe p f).port x = s.port x := rfl

theorem State.fenceDone_leavesSwitch {s0 s : State} (h : Touches (allBut .sw) s0 s) :
    Touches (allBut .sw) s0 s.fenceDone := by
  unfold State.fenceDone
  split
  · exact h
  · exact Touches.upd_cf rfl (Touches.foldl (fun s c hs => Touches.ite (State.setCommit_touches rfl hs) hs) h)

/-- A pipe that takes a fence changes itself and no port. -/
@[simp] theorem State.port_epochSwitch {s : State} {p x : Nat} : (s.epochSwitch p).port x = s.port x := by
  unfold State.epochSwitch
  split
  · extract_lets first _ s1 s2
    have h1 : Touches (allBut .sw) s s1 := Touches.upd_cf rfl (Touches.refl _ s)
    have h2 : Touches (allBut .sw) s s2 := by
      unfold s2
      split
      · exact Touches.set rfl h1
      · exact h1
    refine ((State.fenceDone_leavesSwitch (Touches.refl _ _)).port_same rfl x).trans ?_
    exact State.port_modPipe.trans (h2.port_same rfl x)
  · rfl

/-! ## The end of a hold (R356, R361) -/

/-- A change of a port that keeps the end of its hold moves no port's hold. -/
theorem State.holdEnd_modPort {s : State} {y x : Nat} {f : Port → Port} (hf : ∀ p, (f p).holdEnd = p.holdEnd) :
    ((s.modPort y f).port x).holdEnd = (s.port x).holdEnd := by
  by_cases h : y = x
  · subst h
    rw [State.port_modPort_same, hf]
  · rw [State.port_modPort_ne h]

@[simp] theorem State.holdEnd_gateChange {s : State} {y x : Nat} :
    ((s.gateChange y).port x).holdEnd = (s.port x).holdEnd := by
  unfold State.gateChange
  rw [(State.refreshWin_touches (m := allBut .sw) rfl (Touches.refl _ _)).port_same rfl x]
  exact State.holdEnd_modPort fun _ => rfl

/-- What follows the registers in force is a port's status and its gates, not its hold. -/
theorem State.holdEnd_refreshCommitted {s : State} {x : Nat} :
    (s.refreshCommitted.port x).holdEnd = (s.port x).holdEnd := by
  unfold State.refreshCommitted
  extract_lets s1 s2
  have h1 : Touches (allBut .sw) s s1 :=
    State.refreshPauses_touches rfl (State.refreshReserved_touches rfl (Touches.refl _ s))
  have h2 : (s2.port x).holdEnd = (s1.port x).holdEnd :=
    List.foldlRecOn (motive := fun u : State => (u.port x).holdEnd = (s1.port x).holdEnd) _ _ rfl fun u hu p _ => by
      rw [State.holdEnd_gateChange, (State.refreshCgs_touches (m := allBut .sw) rfl (Touches.refl _ u)).port_same rfl x, hu]
  have h3 : Touches (allBut .sw) s2 (s2.image.tables.foldl (fun s e => s.refreshTable e.1) s2) :=
    Touches.foldl (fun _ _ hs => State.refreshTable_touches rfl hs) (Touches.refl _ s2)
  rw [h3.port_same rfl x, h2, h1.port_same rfl x]

/-- Whatever the pending set of a commit holds, its fence moves no hold. -/
theorem State.holdEnd_fence {s : State} {c : CommitRec} {x : Nat} :
    ((s.fence c).port x).holdEnd = (s.port x).holdEnd := by
  unfold State.fence
  extract_lets ts deferred old bits _ s1 s2 s3 s4 s5 s6 s7
  have h1 : Touches (allBut .sw) s s1 :=
    Touches.upd_cf rfl (Touches.upd_all_regs rfl State.committed_wf (Touches.refl _ s))
  have h4 : Touches (allBut .sw) s s4 := State.setCommit_touches rfl (State.setCommit_touches rfl (Touches.set rfl h1))
  have h5 : s5.port x = s4.port x :=
    List.foldlRecOn (motive := fun u : State => u.port x = s4.port x) _ _ rfl fun _ hu _ _ => State.port_modPipe.trans hu
  have h6 : Touches (allBut .sw) s5 s6 := by
    unfold s6
    split
    · exact State.takeTroupeImage_touches rfl (Touches.refl _ s5)
    · exact Touches.refl _ s5
  have h7 : s7.port x = s6.port x :=
    List.foldlRecOn (motive := fun u : State => u.port x = s6.port x) _ _ rfl fun _ hu _ _ => by
      split
      · exact State.port_epochSwitch.trans hu
      · exact hu
  have h8 : s7.fenceDone.port x = s.port x := by
    rw [(State.fenceDone_leavesSwitch (Touches.refl _ s7)).port_same rfl x, h7, h6.port_same rfl x, h5, h4.port_same rfl x]
  rw [(State.refreshDrain_touches (m := allBut .sw) rfl (Touches.refl _ _)).port_same rfl x, State.holdEnd_refreshCommitted, h8]

/-- A commit that goes on, to a drain, a refusal or its fence, moves no hold. -/
theorem State.holdEnd_passCommit {s : State} {c : CommitRec} {x : Nat} :
    ((s.passCommit c).port x).holdEnd = (s.port x).holdEnd := by
  have hrep : ∀ c', Touches (allBut .sw) s (s.replaceCommit c c') := fun _ => State.replaceCommit_touches rfl (Touches.refl _ s)
  unfold State.passCommit
  split
  · rw [(State.setCommit_touches rfl (hrep _)).port_same rfl x]
  · split
    · rw [(State.refuseCommit_touches rfl (hrep _)).port_same rfl x]
    · rw [State.holdEnd_fence, (hrep _).port_same rfl x]

end Sys2Proof.Machine

section
open Sys2Proof Sys2Proof.Machine

/-- Settles O17: a fence puts registers in force and changes no more of a port than its gates, whatever it writes. -/
theorem holdsKeepTheirTimer : Obligations.HoldsKeepTheirTimer := by
  unfold Obligations.HoldsKeepTheirTimer
  intro s t x h
  have he : exec .commitFence s = execCommitFence s := rfl
  rw [he, execCommitFence] at h
  split at h
  · cases h
    rfl
  · cases h
    exact State.holdEnd_passCommit

end
end
